-- ==== Sys2Proof/Word.lean ====
section
/-!
DEFINITION. The word types of the QC-880: registers are 32 bits wide and register addresses 16 bits (scope
chapter, "Registers"); the manual's byte, half word and double word.
-/

namespace Sys2Proof

/-- A register: 32 bits wide (scope chapter, "Registers"). -/
abbrev Word := BitVec 32

/-- A byte. -/
abbrev Byte := BitVec 8

/-- A 16-bit field. -/
abbrev Half := BitVec 16

/-- A 64-bit field (serial identities, clock identities, digests of frames). -/
abbrev Dword := BitVec 64

end Sys2Proof
end

