-- ==== Sys2Proof/Syntax/Types.lean ====
section
/-!
DEFINITION. The names and records the commands' operands are written in: pair roles, run modes and time qualities with the
manual's codes, the packet a command arrives in, and the things other agents send. The table of commands
(Syntax.lean) gives no operands; these are the ones the rule of each command needs.
-/

namespace Sys2Proof

/-- Pair roles (R81). -/
inductive Role where
  | init
  | track
  | standby
  | active
  | solo
  | out
  deriving DecidableEq, Repr

/-- The codes of the roles (R81). -/
def Role.code : Role → Nat
  | .init => 0
  | .track => 1
  | .standby => 2
  | .active => 3
  | .solo => 4
  | .out => 5

/-- Run modes (R81). -/
inductive RunMode where
  | stop
  | run
  | hold
  | safe
  deriving DecidableEq, Repr

/-- The codes of the run modes (R81). -/
def RunMode.code : RunMode → Nat
  | .stop => 0
  | .run => 1
  | .hold => 2
  | .safe => 3

/-- Time qualities (R19). -/
inductive Quality where
  | unset
  | free
  | holdover
  | locked
  deriving DecidableEq, Repr

/-- The codes of the time qualities, which also order them (R19). -/
def Quality.code : Quality → Nat
  | .unset => 0
  | .free => 1
  | .holdover => 2
  | .locked => 3

/-- An instant: TAI seconds, nanoseconds and a fraction in units of 2^-16 ns (R12). -/
structure Instant where
  sec : Nat
  ns : Nat
  frac : Nat := 0
  deriving DecidableEq, Repr

/-- The transport path a packet came on (Table QP-1, R331): 0 station bus, 1 service port P5, 2 tandem link, with the
source address and port. -/
structure Path where
  kind : Fin 3
  ip : Word
  port : Half
  deriving DecidableEq, Repr

/-- What the MAC check found (Table QP-4, check 10): absent, correct or wrong. The HMAC-SM3 itself is not computed here. -/
inductive MacCheck where
  | absent
  | correct
  | wrong
  deriving DecidableEq, Repr

/-- The envelope of a received request (Table QP-2) that has passed checks 1 to 6 of Table QP-4. `relay` is FLAGS [8];
`crc` is the packet's CRC-32C, by which a repeated request is recognised (R334). -/
structure Pkt where
  path : Path
  session : Word
  seq : Word
  crc : Word
  pairId : Half
  mac : MacCheck
  relay : Bool
  deriving DecidableEq, Repr

/-- Status codes (Table QP-5). -/
inductive Status where
  | done
  | accepted
  | badHeader
  | badLength
  | unknownOpcode
  | badParameter
  | outOfSequence
  | replayed
  | notAuthorized
  | sessionExpired
  | ownerLocked
  | wrongState
  | busy
  | resourceConflict
  | budgetExceeded
  | incompatible
  | refusedHoldup
  | rateLimited
  | internalFault
  deriving DecidableEq, Repr

/-- The values of STATUS (Table QP-5). -/
def Status.code : Status → Nat
  | .done => 0x00
  | .accepted => 0x01
  | .badHeader => 0x10
  | .badLength => 0x11
  | .unknownOpcode => 0x13
  | .badParameter => 0x14
  | .outOfSequence => 0x15
  | .replayed => 0x16
  | .notAuthorized => 0x20
  | .sessionExpired => 0x21
  | .ownerLocked => 0x22
  | .wrongState => 0x30
  | .busy => 0x31
  | .resourceConflict => 0x32
  | .budgetExceeded => 0x33
  | .incompatible => 0x34
  | .refusedHoldup => 0x35
  | .rateLimited => 0x40
  | .internalFault => 0x50

/-- The staging windows (R348) and the event window (R458). -/
inductive WindowId where
  | acqPmu
  | acqSv
  | trgPat
  | trgRec
  | trgFl
  | loop
  | loopNd
  | netSt
  | netGo
  | evr
  | hart
  | can0
  | can1
  deriving DecidableEq, Repr

/-- What is wrong with a malformed datagram (Table QP-4): its length or a fragment (check 1), its CRC (2), MAGIC or REPLY (3), VERSION (4),
header bits (5), its length fields (6), or an opcode that is not defined (13). -/
inductive MalformedPacket where
  | length
  | fragment
  | crc
  | magic
  | version
  | header
  | lengths
  | opcode
  deriving DecidableEq, Repr

end Sys2Proof
end

