-- ==== Sys2Proof/Syntax/AcqTypes.lean ====
section
/-!
DEFINITION. Operands of the acquisition commands: what the conversion chain and the reduction filters measured.
-/

namespace Sys2Proof

/-- Where a phasor comes from (R158, R161). -/
inductive PhasorSource where
  | channel (n : Fin 8)
  | stream (k : Fin 64) (position : Fin 8)
  deriving DecidableEq, Repr

/-- What the conversion chain of one channel gave in the frame that ends at a tick (R130, R133): its 500 samples in their order as
calibrated codes before they saturate, and whether the common mode stayed within its limits. -/
structure ChannelInput where
  codes : List Int
  commonModeOk : Bool := true
  deriving DecidableEq, Repr

/-- A firing of a slope comparator (R145): the TDC's stamp before compensation, the slope at the terminal that the comparator saw (binary32, V/µs,
negative when falling), and the RAW codes of the 200 ns before and the 200 ns after the firing, each ten in their order. -/
structure Firing where
  stamp : Instant
  slope : Word
  before : List Int
  after : List Int
  deriving DecidableEq, Repr

/-- A received sampled-value frame (R161 to R163): its identity, the smpCnt of its first ASDU, and per ASDU the samples with their quality. -/
structure SvFrame where
  mac : BitVec 48
  appid : Half
  vlan : Half
  svId : List Byte
  confRev : Word
  malformed : Bool
  smpCnt : Nat
  smpSynch : Nat
  samples : List (List (Word × Bool))
  deriving DecidableEq, Repr

/-- The factory calibration of one channel on one range as the AFE component holds it: gain, offset, conversion and slope-comparator path
delay, and the temperature coefficients of the four (Calibration, R136). -/
structure AfeTable where
  gain : Word
  offset : Word
  delay : Word
  twDelay : Word
  gainTc : Word
  offsetTc : Word
  delayTc : Word
  twTc : Word
  deriving DecidableEq, Repr

/-- What the calibration check of a start reads of a channel on one range: the mean codes at 0 V and at 90% of the range, in 2^-8 LSB, with
the AFE table applied (R137). -/
structure CalReading where
  zero : Int
  high : Int
  deriving DecidableEq, Repr

/-- The calibration check of a start (R137): whether the AFE component is present and its digest passes, its versions, its tables and the
readings, both by channel and range (±10 V of channel 0, ±2 V of channel 0, ±10 V of channel 1 …), and the AFE temperature. -/
structure CalibrationCheck where
  afeOk : Bool
  afeInfo : Word
  tables : List AfeTable
  readings : List CalReading
  temperature : Word
  deriving DecidableEq, Repr

end Sys2Proof
end

