-- ==== Sys2Proof/Syntax/CanTypes.lean ====
section
/-!
DEFINITION. Operands of the CAN commands.
-/

namespace Sys2Proof

/-- A CAN frame: its identifier word in the layout of window word 1 (Table CN-6), RTR, ESI, DLC and up to 16 data words, the first byte in
[31:24] of the first. -/
structure CanFrame where
  ident : Word
  rtr : Bool
  esi : Bool
  dlc : Nat
  data : List Word
  deriving DecidableEq, Repr

/-- What fault confinement shows (R410): the counters, and the errors met since the last report with their code 1 to 6 and whether they fell in the
data phase. -/
structure CanErrors where
  tec : Nat
  rec_ : Nat
  errors : List (Fin 7 × Bool)
  deriving DecidableEq, Repr

end Sys2Proof
end

