-- ==== Sys2Proof/Syntax/TrustTypes.lean ====
section
/-!
DEFINITION. Operands of the update and trust commands (Firmware Update and Trust): what the check of a settings file found, keys, the causes
of a failed trial, and settings migrations.
-/

namespace Sys2Proof

/-- What the check of a settings file found (R482), whose format is the older controller's: its CRC-32 and format version are valid, with that
version and the addresses of the items without a counterpart. -/
structure PackageVerdict where
  importOk : Bool
  format : Half
  unmapped : List Word
  deriving DecidableEq, Repr

/-- A public key to enrol (R477): its role and usage, the identifier, and the payload, which holds the key and the proof signature. -/
structure KeyRequest where
  role : Byte
  usage : Byte
  ident : BitVec 128
  payload : List Byte
  deriving DecidableEq, Repr

/-- A public key and the distinguishing identifier of its holder (R477). -/
structure PublicKey where
  ident : BitVec 128
  key : BitVec 512
  deriving DecidableEq, Repr

/-- Why a trial fails (R471). -/
inductive TrialFailure where
  | startupTest | fatalEvent | migration | tracking | starts
  deriving DecidableEq, Repr

/-- A settings migration at the start of a newer MFW (R481): the store versions before and after, the steps run, the source version of a
failed step, and the register values of the new store. -/
structure Migrated where
  version : Half
  steps : Half
  failed : Option Half
  registers : List (Nat × Word)
  deriving DecidableEq, Repr

end Sys2Proof
end

