-- ==== Sys2Proof/Syntax/ExecTypes.lean ====
section
/-!
DEFINITION. Operands of the frame, image and pair commands: the decoded content of a control image, what a task instance did, seam
items, heartbeats, the comparator's findings, the yoke lines and the commands the ACTIVE passes.
-/

namespace Sys2Proof

/-- An entry of the BUDGET section (Table FX-5); `reserved` is the value of its reserved bits and bytes together. `source` names
the releasing source of an E task (R67, R116), which the budget entry's code declares. -/
structure Budget where
  task : Nat
  cls : Nat
  core : Nat
  flags : Nat
  budget : Nat
  interarrival : Nat
  deadline : Nat
  rank : Nat
  quota : Nat
  entry : Nat
  reserved : Nat
  source : Nat
  deriving DecidableEq, Repr

/-- The owner of a point: kind 0 task, 1 loop slot, 2 tack queue, 3 register configuration, and its number (Table FX-20). -/
structure Owner where
  kind : Nat
  number : Nat
  deriving DecidableEq, Repr

/-- The substitute policies of R311. -/
inductive Policy where
  | holdLast
  | fixed (v : Word)
  | hem
  deriving DecidableEq, Repr

/-- An entry of the BINDINGS section: a point reference, its owner, its hem value and its substitute policy. -/
structure Binding where
  point : Word
  owner : Option Owner
  hem : Word
  policy : Policy
  deriving DecidableEq, Repr

/-- A timer record (Table OC-3); the start is a time value in 2^-32 ns. -/
structure Timer where
  start : Nat
  running : Bool
  q : Bool
  kind : Nat
  deriving DecidableEq, Repr

/-- What an instance holds: plain data, a timer (R111) or an edge detector (R113). -/
inductive Storage where
  | data (bytes : List Byte)
  | timer (t : Timer)
  | edge (prev : Bool) (kind : Nat)
  deriving DecidableEq, Repr

/-- The KIND of an instance (Table OC-2). -/
def Storage.kind : Storage → Nat
  | .data _ => 0
  | .timer _ => 1
  | .edge _ _ => 2

/-- An instance of the DATA section, with its initial value. -/
structure InstanceDef where
  number : Nat
  typeSig : Word
  size : Nat
  retentive : Bool
  initial : Storage
  deriving DecidableEq, Repr

/-- An entry of the MIGRATION section (Table OC-2). -/
structure MigrationEntry where
  new : Word
  old : Word
  action : Nat
  kind : Nat
  flags : Nat
  typeSig : Word
  deriving DecidableEq, Repr

/-- The MIGRATION section (Table OC-1): BASE_DIGEST, ENTRY_COUNT, the reserved word, the entries, and the bytes beyond the last whole one. -/
structure Migration where
  base : BitVec 256
  count : Nat
  reserved : Nat
  entries : List MigrationEntry
  rest : Nat
  deriving DecidableEq, Repr

/-- The decoded sections of a control image (Table FX-4). -/
structure Image where
  budgets : List Budget
  bindings : List Binding
  retentiveSize : Nat
  instances : List InstanceDef
  migration : Migration
  /-- Key slot whose key verified the signature (IMG.SIGNER). -/
  signer : Nat
  deriving DecidableEq, Repr

/-- What verification of an upload finds in the parts of an image whose encoding the manual leaves to its tool (R70): the content of the BINDINGS and
DATA sections, and by task number the releasing source that the code of an E task declares. -/
structure ImageVerdict where
  bindings : List Binding
  retentiveSize : Nat
  instances : List InstanceDef
  sources : List (Nat × Nat)
  deriving DecidableEq, Repr

/-- A tack as it is asked for (R90 to R92). -/
structure TackRequest where
  sec : Nat
  ns : Nat
  frac : Nat
  action : Nat
  target : Nat
  value : Word
  deriving DecidableEq, Repr

/-- An evaluation of an instance by a task (R68, R111 to R113): plain data with the bytes written, if any; a timer with its input, the preset
in ns that the code supplies, and the output that the code saw; an edge detector with its input and whether the code saw an edge. -/
inductive Evaluation where
  | data (instance_ : Nat) (written : Option (List Byte))
  | timer (instance_ : Nat) (input : Bool) (preset : Nat) (output : Bool)
  | edge (instance_ : Nat) (input : Bool) (edge : Bool)
  deriving DecidableEq, Repr

/-- What a completed task instance did: its execution time in ns, when it ended in 2.5 ns ticks from t0, the points it read, its writes to points,
the instances it evaluated in order, the tacks it asks the runtime to schedule and to cancel (R90, R96), and the internal flags it sets (R173). -/
structure TaskResult where
  time : Nat
  finish : Nat
  reads : List (Word × Word) := []
  writes : List (Word × Word)
  evaluations : List Evaluation
  tacks : List TackRequest
  cancels : List Word
  flags : List (Fin 32 × Bool)
  deriving DecidableEq, Repr

/-- Items of the seam proposal (Table PR-5). -/
inductive SeamItem where
  | transition (channel : Nat) (level : Bool) (stamp : Instant)
  | release (task : Nat) (stamp : Instant)
  | levels (w : Word)
  | stationSet (digest : Dword)
  | snapshot (item : Word) (value : Word)
  deriving DecidableEq, Repr

/-- A received heartbeat (Table PR-2) with its CRC; `selfCheck` is the partner's self-check result that R278 says the heartbeats carry. -/
structure Heartbeat where
  pairId : Half
  role : Role
  mode : RunMode
  split : Bool
  debug : Bool
  tested : Bool
  muted : Bool
  claim : Bool
  grant : Bool
  degraded : Bool
  posB : Bool
  frameIndex : Word
  digest : Dword
  overrun : Option (Nat × Word)
  within : Half
  hoState : Half
  selfCheck : Option Bool
  switchPending : Bool
  crc : Word
  /-- The lane that carried it (R255). -/
  lane : Fin 2
  deriving DecidableEq, Repr

/-- What a frame of tracking data holds in decoded form (R286, R287): pages of instance data and of the process image, and the tack
queue's entries. -/
structure CopiedData where
  stores : List (Nat × Storage)
  points : List (Word × Word × Bool)
  deriving DecidableEq, Repr

/-- What the leader answers when a tracking phase ends (Table PR-10): its running versions of MFW, RTK, FSD and FSA, the CRC-32C of the configuration it
served, the SM3 digests of its banks and its tasks' response times in the running and the other bank, the pages to copy and their kilobytes. -/
structure PhaseResult where
  versions : List Word
  crc : Word
  digests : List (BitVec 256)
  responses : List (List (Nat × Nat))
  pages : Nat
  kilobytes : Word
  deriving DecidableEq, Repr

/-- A bulk copy cell of the tracking module's phases 3 to 5 (Table PR-10). A page has its number; the tack queue comes with its next
identity (R90); forces, pending CAN frames and the key store come as R350, R415 and R486 say. -/
inductive TrackingCopy where
  | forces (values : List (Word × Word))
  | canPending (channel : Fin 2) (buffer : Nat) (frame : Option CanFrame)
  | keys (keys : List (Nat × PublicKey)) (decryption : List (Nat × BitVec 128)) (registers : List (Nat × Word))
  | registers (values : List (Nat × Word))
  | windows (values : List (Nat × Word))
  | tack (id : Word) (time action target : Nat) (value : Word) (owner : Option Nat)
  | nextTack (id : Word)
  | bank (number : Fin 2) (state : Fin 6) (digest : BitVec 256) (content : Image)
  | page (number : Nat) (content : CopiedData)
  deriving DecidableEq, Repr

/-- What the comparator found (R231, Tables LS-5 and LS-7): the unit, the lanes that mismatched with the first one, the program counter,
the two sides of the first lane, and the core cycle. -/
structure Mismatch where
  unit : Fin 4
  lanes : BitVec 128
  pc : Word
  bits : Half
  cycle : BitVec 13
  deriving DecidableEq, Repr

/-- The result of a comparator start-up test (R237, R238): failed lanes of each unit and the duration in µs. -/
structure TestResult where
  cx0 : BitVec 128
  cx1 : BitVec 128
  cx2 : BitVec 128
  loop : BitVec 32
  micros : BitVec 24
  deriving DecidableEq, Repr

/-- The lines of the pair base this module sees (Table PR-16). -/
structure YokeLines where
  claimPartner : Bool
  grantPartner : Bool
  sharePartner : Bool
  takeoverIn : Bool
  deriving DecidableEq, Repr

/-- An effect that takes place at an application tick (R203, R350, R368). -/
inductive AppEffect where
  | loopCommit (slot : Nat) (words : List (Nat × Word))
  | force (point : Word) (value : Word)
  | release (point : Word)
  | releaseAll
  | regWrite (addr : Nat) (value : Word)
  deriving DecidableEq, Repr

/-- Commands the ACTIVE passes to its STANDBY, and ticks it sends for confirmation (R28, R83, R95, R104, R118, R160, R167, R203, R280,
R307, R308, R427). -/
inductive Passed where
  | tackSchedule (id : Word) (t : TackRequest)
  | tackCancel (id : Word)
  | imageBegin (size : Nat) (digest : BitVec 256)
  | imageChunk (index : Nat) (data : List Byte)
  | imageCommit
  | imageAdmit
  | imageAbort
  | imageSwitch
  | switchTick (tick : Nat)
  | switchCancel
  | runTick (toRun : Bool) (tick : Nat)
  | handover (tick : Nat)
  | regWrite (addr : Nat) (value : Word)
  | restep (d : Int)
  | stationCommit (station tick : Nat) (words : List Word)
  | stationBind (station tick : Nat) (mac : BitVec 48)
  | collarRules (collar : Nat) (words : List Word)
  | application (tick : Nat) (effect : AppEffect)
  deriving DecidableEq, Repr

/-- What the STANDBY confirms (R83, R118, R203, R280, and the plain commands). -/
inductive Confirmed where
  | command
  | runTick
  | switchTick
  | handover
  | application (tick : Nat)
  deriving DecidableEq, Repr

/-- The partner's admission of the same image (R104): its result and its response times by task. -/
structure PartnerAdmission where
  ok : Bool
  resp : List (Nat × Nat)
  deriving DecidableEq, Repr

end Sys2Proof
end

