-- ==== Sys2Proof/Syntax/IoTypes.lean ====
section
/-!
DEFINITION. Operands of the digital, current-loop and HART commands: what the pair base and the loop side measured.
-/

namespace Sys2Proof

/-- The faults of one digital output (Table DI-5) that a module clears by a condition of their own. -/
inductive DioFault where
  | overload
  | thermal
  | openLoad
  deriving DecidableEq, Repr

/-- The faults of a current-loop channel that clear after 1 s (Table AO-6). -/
inductive AoFault where
  | thermal
  | sense
  | supply
  deriving DecidableEq, Repr

/-- What the field sides hold at a frame tick for one current-loop channel (R379, R385, Table AO-10): the measured current, supply and
terminal voltage, temperature and dissipation, loop resistance and headroom. -/
structure LoopMeasure where
  current : Word
  supply : Word
  therm : Word
  load : Word
  deriving DecidableEq, Repr

/-- A decoded HART response or burst frame (R388 to R391): command, poll address, response code, device status and its extension, the loop
current and PV, SV, TV, QV where the command carries them, the identity of command 0 (device ID, expanded device type, HART revision),
the response's data bytes, and the secondary master's presence. -/
structure HartFrame where
  command : Half
  address : BitVec 6
  code : Byte
  status : Byte
  extended : Byte
  values : List (Fin 5 × Word)
  deviceId : BitVec 24
  deviceType : Half
  revision : Byte
  data : List Byte
  secondary : Bool
  burst : Bool
  deriving DecidableEq, Repr

end Sys2Proof
end

