-- ==== Sys2Proof/Syntax/FrameTypes.lean ====
section
/-!
DEFINITION. The operand of a frame tick: what the module measures at t0.
-/

namespace Sys2Proof

/-- What is measured at a frame tick (R61, R147, R385): the samples of the frame that ended by channel, the current loops by channel, and measured
registers by address; the run mode that the ACTIVE partner changes to at this tick, if it does (R82); and the digest of the STANDBY partner's
other bank when that is ADMITTED (R120). -/
structure FrameInput where
  channels : List ChannelInput
  loops : List LoopMeasure
  measures : List (Nat × Word)
  partnerMode : Option RunMode := none
  partnerBank : Option (BitVec 256) := none
  deriving DecidableEq, Repr

end Sys2Proof
end

