-- ==== Sys2Proof/Syntax/NetTypes.lean ====
section
/-!
DEFINITION. Operands of the network commands: received QSP, GOOSE, PRP and HSR frames, receipt-list entries and transceivers.
-/

namespace Sys2Proof

/-- A received QSP frame (Table NW-3) with its CRC and source address. A ROLL_CALL's payload holds the identity, type code and version. -/
structure QspFrame where
  version : Byte
  type : Byte
  pairId : Half
  station : Nat
  stream : Nat
  flags : Byte
  step : Byte
  sequence : Word
  apply : Half := 0
  layout : Word
  timeQ : Word := 0
  payload : List Byte
  crc : Word
  mac : BitVec 48
  deriving DecidableEq, Repr

/-- An entry of a receipt list (Table PR-6). Streams of station 0 are GOOSE subscriptions (s) and HART channels (64 + n). -/
structure ReceiptEntry where
  station : Nat
  stream : Nat
  flags : Byte
  sequence : Word
  crc : Word
  deriving DecidableEq, Repr

/-- What a receipt carries: a station's payload, or points of station 0 with their values (none: bad quality). -/
inductive ReceiptData where
  | payload (bytes : List Byte)
  | points (values : List (Word × Option Word))
  deriving DecidableEq, Repr

/-- A received frame as it stands in the receipt list. -/
structure Receipt where
  entry : ReceiptEntry
  data : ReceiptData
  deriving DecidableEq, Repr

/-- A received GOOSE message (R314): its header, and its members with their quality where `Q_PAIRS` sends one. -/
structure GooseMessage where
  /-- It came on the process bus, else on the station bus. -/
  process : Bool := false
  mac : BitVec 48
  appid : Half
  goId : List Byte
  gocbRef : List Byte
  datSet : List Byte
  confRev : Word
  entries : Nat
  simulation : Bool
  test : Bool
  ndsCom : Bool
  stNum : Word
  sqNum : Word
  /-- timeAllowedToLive in ms. -/
  live : Nat
  members : List (Word × Bool)
  deriving DecidableEq, Repr

/-- The kind of sender a PRP or HSR frame shows (Table NW-9, NODE_INFO). -/
inductive NodeKind where
  | danp
  | danh
  | single
  deriving DecidableEq, Repr

/-- A PRP or HSR frame received on LAN A or B of a network (R297, R298). `lan` is the LAN identifier of its trailer, none when untagged;
`own` a frame of this node come back; `toUs` addressed to this node alone. -/
structure PrpFrame where
  onB : Bool
  source : BitVec 48
  sequence : Half
  lan : Option Bool
  kind : NodeKind
  checkOk : Bool
  tagOk : Bool
  own : Bool
  toUs : Bool
  supervision : Bool
  /-- The correctionField of a PTP event message, in 2^-16 ns, and its residence in this node, should it be forwarded in the ring (Table TB-5). -/
  correction : Option (Nat × Nat) := none
  /-- Bytes of the frame, its tag or trailer included (R294). -/
  length : Nat := 64
  deriving DecidableEq, Repr

end Sys2Proof
end

