-- ==== Sys2Proof/Syntax/PowerTypes.lean ====
section
/-!
DEFINITION. Operands of the power, lining and module commands: what a start finds, the voltages and figures that measurements give, and
the fabric accesses that collars judge.
-/

namespace Sys2Proof

/-- What a start finds (R23, R137, R454, R475, R481, R488, R496, R525, R528): the lining lost, the RTC time at the start in TAI seconds and 1/32,768 s,
whether the boot word agrees with its complement and its MRAM copy passes, failed component banks (bit k), records whose checks fail and the
seal check, the parity, bus and links of R496, the pair base of R488, position and slot, and what the calibration and settings steps found. -/
structure StartFindings where
  /-- The order code is QC-880-1 (R1, R3). -/
  oven : Bool
  liningLost : Bool
  rtcSec : Dword
  rtcSub : BitVec 15
  offSec : Word
  bootOk : Bool
  bootCopyOk : Bool
  badBanks : BitVec 6
  badRecords : List Nat
  sealOk : Bool
  /-- The slot code: its odd-parity bit and the slot number (Table HW-2). -/
  slotParity : Bool
  slot : BitVec 5
  posB : Bool
  chassis : Byte
  chassisId : Word
  busOk : Bool
  pbType : Half
  pbRev : Half
  pbSerial : Dword
  pairId : Half
  links : BitVec 6
  partnerPresent : Bool
  leverClosed : Bool
  drawerClosed : Bool
  calibration : CalibrationCheck
  migrated : Option Migrated
  storeNewer : Bool
  /-- The public keys that the factory puts into slots 0 and 15 (Table UP-4). -/
  vendorKey : BitVec 512
  commissioningKey : BitVec 512
  deriving DecidableEq, Repr

/-- What a hold-up measurement saw (R512): the voltage drop in 0.1 mV, and for a load ended early at 1.000 V its duration in 0.1 µs. -/
structure HoldupResult where
  drop : Half
  early : Option (Fin 1000)
  deriving DecidableEq, Repr

/-- What the end of a power-loss sequence shows (R514, R517): the input is back at or above 35.0 V, detection to reset in µs, the draw of the
sequence in mW and the lowest bank voltage in mV. -/
structure LossEnd where
  inputBack : Bool
  holdMicros : Word
  draw : Word
  lowest : Word
  deriving DecidableEq, Repr

/-- A fabric access (R418 to R420): master identity, address, privilege and kind (1 read, 2 write, 4 fetch). -/
structure Access where
  master : BitVec 6
  address : Word
  privileged : Bool
  kind : BitVec 3
  deriving DecidableEq, Repr

/-- What a DMA bus error shows (R431, Table FB-7): the cause, the master and collar or cuff, the channel unless the request was a shared
prefetch, the address, the bytes each channel had written, and the channels whose prefetched data was discarded. -/
structure DmaError where
  cause : BitVec 4
  unit : Byte
  channel : Option (Fin 16)
  address : Word
  moved : List (Fin 16 × Word)
  discarded : BitVec 16
  deriving DecidableEq, Repr

end Sys2Proof
end

