-- ==== Sys2Proof/Syntax/RecordTypes.lean ====
section
/-!
DEFINITION. The event record (Event Recorder chapter, Table EV-1), as the log holds it and as the partner forwards it.
-/

namespace Sys2Proof

/-- A record of the log (Table EV-1). Its CRC is a function of the other fields and is formed when the record is read. -/
structure EventRecord where
  index : Nat
  code : Half
  severity : Nat
  timeValid : Bool
  partner : Bool
  repeatSat : Bool
  powerLoss : Bool
  role : Nat
  mode : Nat
  source : Half
  repeats : Nat
  opSec : Word
  powerCycles : Word
  firstSec : Nat
  firstNs : Nat
  firstQuality : Nat
  lastDsec : Nat
  lastNs : Nat
  lastQuality : Nat
  snapList : Nat
  snapGen : Nat
  snap : List Word
  lastOpSec : Word
  originIndex : Nat
  deriving DecidableEq, Repr

end Sys2Proof
end

