-- ==== Sys2Proof/Syntax/TimeTypes.lean ====
section
/-!
DEFINITION. Operands of the time-base and PTP commands: what a timing input or a PTP message carries.
-/

namespace Sys2Proof

/-- A received IRIG-B frame (R41, R42): the code digit (4 or 5) and whether it was amplitude modulated, whether it carries the C37.118.1
extension, its time as seconds since 1970, and its 27 control functions in the order of transmission, the first in bit 0. -/
structure IrigFrame where
  digit : Fin 10
  modulated : Bool
  extended : Bool
  seconds : Nat
  controlFunctions : BitVec 27
  deriving DecidableEq, Repr

/-- The servo's measurements of the last second, as TB.SERVO_STAT 0 to 4 report them (Table TB-10). -/
structure ServoStats where
  mean : Word
  rms : Word
  peak : Word
  frequency : Word
  temperature : Word
  deriving DecidableEq, Repr

/-- What the servo measures for a holdover (R55, R57): the oven's temperature correction of the rate in 2^-32 ns per tick, and the
frequency uncertainty in 10^-15. -/
structure HoldoverEntry where
  oven : Int
  uncertainty : Word
  deriving DecidableEq, Repr

/-- What the clock servo answers to a reference update (R20, R16): the offset it filtered, reference minus time base in 2^-8 ns, the rate
correction it asks for and the frequency part of it in 2^-32 ns per tick (R55), and what it would hold over with. -/
structure ServoInput where
  offset : Int
  rate : Int
  frequency : Int
  stats : ServoStats
  hold : HoldoverEntry
  deriving DecidableEq, Repr

/-- How the follower's servo steers to the leader (R45): the rate correction, and the frequency uncertainty in 10^-15. -/
structure PairServo where
  rate : Int
  uncertainty : Word
  deriving DecidableEq, Repr

/-- How a Pdelay_Resp departs (R51): its time at the start-of-frame delimiter after the arrival of the request, in 2^-32 ns, and whether the
insertion could complete. -/
structure Turnaround where
  after : Nat
  complete : Bool
  deriving DecidableEq, Repr

/-- A received Announce (R43, R50). -/
structure Announce where
  domain : Byte
  id : Dword
  priority1 : Byte
  clockClass : Byte
  accuracy : Byte
  variance : Half
  priority2 : Byte
  stepsRemoved : Half
  timeSource : Byte
  utcOffset : Half
  leap61 : Bool
  leap59 : Bool
  deriving DecidableEq, Repr

/-- A received Sync (R34, R43): its master, sequence, the signed logarithm of its Sync interval, whether a Follow_Up carries the origin, and
origin plus correction minus ingress in 2^-8 ns (for a two-step Sync the ingress part only is used). -/
structure SyncMessage where
  domain : Byte
  id : Dword
  sequence : Half
  interval : BitVec 8
  twoStep : Bool
  delta : Int
  deriving DecidableEq, Repr

end Sys2Proof
end

