-- ==== Sys2Proof/Syntax/TrigTypes.lean ====
section
/-!
DEFINITION. Operands of the trigger, record and time-to-digital commands.
-/

namespace Sys2Proof

/-- What a trigger unit sees (R168, R169): the instant of the newest sample, and the calibrated codes since the unit's last look, in their order. -/
structure UnitSamples where
  newest : Instant
  codes : List Int
  deriving DecidableEq, Repr

/-- What a TDC calibration measured (R184): mean bin width, single-shot precision and largest non-linearity in fs, temperature. -/
structure TdcCalibration where
  lsb : Word
  precision : Word
  nonLinearity : Word
  temperature : Word
  deriving DecidableEq, Repr

/-- A TW_EXCHANGE report (Table TG-10). -/
structure TwReport where
  pairId : Half
  line : Byte
  falling : Bool
  notLocked : Bool
  arrival : Instant
  uncertainty : Word
  amplitude : Word
  start : Instant
  deriving DecidableEq, Repr

end Sys2Proof
end

