-- ==== Sys2Proof/Syntax.lean ====
section
/-!
DEFINITION. The commands and events of the QC-880: one constructor for each row of spec/opcode_table.json, in the table's
order, with the rule that governs it. The table gives no operands: those written here are what the rule needs from outside (the
packet, a measured quantity, what the partner sent); notes/assumptions/1.md says how they were chosen.
-/

namespace Sys2Proof

/-- The commands of the block (spec/opcode_table.json). -/
inductive Instr where
  /-- POWER_ON_START (R23): A start from main power: the time base, the pair role INIT and the run mode STOP are set up from their start values. -/
  | powerOnStart (f : StartFindings)
  /-- WARM_RESTART (R10): A restart without removal of main power: non-preserved registers reset and the module starts again in INIT and STOP. -/
  | warmRestart (f : StartFindings)
  /-- AUTO_RUN_REQUEST (R543): With AUTO_RUN set, the pending automatic RUN request is made at the first frame tick at which its conditions all hold. -/
  | autoRunRequest
  /-- POWER_APPLIED (R509): The input rises above the start threshold, and the start delay D begins. -/
  | powerApplied (slot : BitVec 5)
  /-- START_DELAY_EXPIRY (R509): The start delay D ends, and charging of the hold-up bank begins. -/
  | startDelayExpiry
  /-- HOLDUP_BANK_CHARGED (R509): The hold-up bank has charged, and the rails start one by one in ascending order. -/
  | holdupBankCharged
  /-- RESET_RELEASE (R509): Once the rails are up, the reset is released and the lamp test begins. -/
  | resetRelease
  /-- LAMP_TEST_END (R491): The 0.5 s lamp test after power-on ends. -/
  | lampTestEnd
  /-- STARTUP_TEST_COMPLETE (R238): The comparator start-up test ends: a pass clears the latched fault and sets TESTED; a fail sends the module OUT. -/
  | startupTestComplete (r : TestResult)
  /-- INPUT_LOW_WARNING (R506): The input lies between 33.0 V and 36.0 V: IN_LOW is set and event 0x0406 is raised. -/
  | inputLowWarning (mv : BitVec 17)
  /-- OVERVOLTAGE (R506): The input stays above 62.0 V for 1 ms: the input is disconnected and the power-loss sequence runs. -/
  | overvoltage
  /-- BROWNOUT (R507): A dip below 33.0 V of less than 50 us is bridged by the hold-up bank and counted. -/
  | brownout
  /-- POWER_LOSS_DETECTED (R514): The input stays below 33.0 V for 50 us: PF is set, event 0x0401 is raised and the frame in progress completes. -/
  | powerLossDetected
  /-- POWER_LOSS_TICK (R514): At the next frame tick, the module halts its tasks and services, sheds loads, starts the retentive commit and releases the yoke according to R515. -/
  | powerLossTick
  /-- RETENTIVE_COMMIT_COMPLETE (R516): The retentive data, the tack queue, the counters and the seal are written, the MRAM marker is switched and the power-loss record is committed. -/
  | retentiveCommitComplete (us bytes : Word)
  /-- POWER_LOSS_SEQUENCE_END (R517): The power-loss sequence ends in reset; the module restarts with D = 0 if the input has returned. -/
  | powerLossSequenceEnd (e : LossEnd)
  /-- RAIL_FAULT (R530): A rail leaves regulation; this is counted and raises event 0x0407. -/
  | railFault (r : Fin 12)
  /-- HOLDUP_MEASUREMENT_START (R512): At a start, or every HU_INT hours, the charger stops and a 50 uC load is drawn from the bank. -/
  | holdupMeasurementStart
  /-- POWER_HU_MEAS (R512): A write of 1 to POWER.HU_MEAS starts a hold-up measurement. -/
  | powerHuMeas (p : Pkt) (value : Word)
  /-- HOLDUP_MEASUREMENT_END (R513): The load ends after 100 us or at a 1.000 V drop; capacitance and energy are computed and the health actions are applied. -/
  | holdupMeasurementEnd (r : HoldupResult)
  /-- CELL_TEST (R526): The daily 10 ms load test of the lithium cell sets or clears CELL_LOW and CELL_EMPTY. -/
  | cellTest (cell cap : Half)
  /-- DRAWER_CLOSED (R526): Closing the cell drawer triggers a cell test. -/
  | drawerClosed (cell cap : Half)
  /-- TAMPER_OPENING (R524): The tamper switch opens: the lining latches the first opening with its time, counts it and raises event 0x0503. -/
  | tamperOpening
  /-- LINING_TAMPER_ACK (R524): A write of 0x5441 with Owner authority clears the tamper latch. -/
  | liningTamperAck (p : Pkt) (value : Word)
  /-- LINING_BOOT_CFG (R525): A write of the boot configuration word with Owner authority stores it with its complement for the next start. -/
  | liningBootCfg (p : Pkt) (value : Word)
  /-- LINING_MIRROR (R523): Every hour, the lining counters and the boot configuration word are copied into MRAM. -/
  | liningMirror
  /-- RTC_WRITE (R22): At each TAI second while the quality is not UNSET, the time base writes the lining RTC. -/
  | rtcWrite
  /-- PPS_EDGE (R39): An active 1PPS edge is time-stamped by the TDC and judged against its label and spacing. -/
  | ppsEdge (stamp : Instant)
  /-- TOD_MESSAGE (R38): A 20-byte time-of-day message is received and checked (SYNC, VERSION, CRC) to label the next 1PPS edge. -/
  | todMessage (bytes : List Byte) (since : Nat)
  /-- IRIG_FRAME (R41): An IRIG-B frame is decoded with the C37.118.1 extension, and its on-time edge is captured. -/
  | irigFrame (frame : IrigFrame) (stamp : Instant)
  /-- REFERENCE_SECOND_CHECK (R39): Each second of a reference is judged valid, invalid or missing, and the counters and events follow. -/
  | referenceSecondCheck (r : Fin 3)
  /-- SERVO_UPDATE (R20): A reference update gives an offset, which the servo uses to adjust TB.RATE_CORR. -/
  | servoUpdate (u : ServoInput)
  /-- REFERENCE_QUALIFIED (R34): A reference qualifies after QUAL_TIME consecutive valid seconds, and selection by priority is made. -/
  | referenceQualified (r : Fin 3)
  /-- REFERENCE_LOST (R34): A reference is lost (2 bad seconds, or a PTP timeout); the module switches reference or enters HOLDOVER. -/
  | referenceLost (r : Fin 3) (h : HoldoverEntry)
  /-- WAIT_TO_RESTORE_EXPIRY (R35): A higher-priority reference that has stayed qualified for WTR is selected again. -/
  | waitToRestoreExpiry
  /-- LOCK_ACHIEVED (R20): After LOCK_COUNT updates within LOCK_WIN, the time base is synchronised and the quality becomes LOCKED. -/
  | lockAchieved
  /-- JUMP_DETECTED (R29): An offset beyond STEP_THRESH on two consecutive updates freezes the rate and starts the jump confirmation. -/
  | jumpDetected (h : HoldoverEntry)
  /-- JUMP_CONFIRMATION_EXPIRY (R31): JUMP_CONFIRM ends without dismissal: the jump is confirmed, the quality goes FREE and the module slews. -/
  | jumpConfirmationExpiry
  /-- HOLDOVER_ESTIMATE (R57): Once per second in HOLDOVER, HOLD_EST is computed from e0, y and a. -/
  | holdoverEstimate
  /-- TIME_STEP (R25): A first step or a restep is applied at a frame tick: the reference time is loaded and timers are adjusted. -/
  | timeStep
  /-- TB_RESTEP (R28): A write of 0x5354 to TB.RESTEP with Owner authority requests a restep in the permitted states. -/
  | tbRestep (p : Pkt) (value : Word)
  /-- LEAP_ANNOUNCE_START (R54): 12 h before a pending leap second, leap61 or leap59 is set in Announce messages. -/
  | leapAnnounceStart
  /-- LEAP_SECOND_APPLY (R54): At the TAI instant of the next day's 00:00 UTC, UTC_OFFSET changes by one second. -/
  | leapSecondApply
  /-- PAIR_ALIGNMENT_EXCHANGE (R45): The follower measures its offset and the link delay from the leader's timestamped heartbeat and steers its time base. -/
  | pairAlignmentExchange (offset : Int) (delay : Word) (leader : Quality) (servo : PairServo)
  /-- PAIR_ALIGNMENT_LOST (R46): After 100 frames without an alignment exchange, PAIR_ALIGN_OK clears and the follower free-runs. -/
  | pairAlignmentLost
  /-- TB_TIME_SEC_HI_READ (R14): A read of TB.TIME_SEC_HI latches the whole time value and its quality. -/
  | tbTimeSecHiRead (p : Pkt)
  /-- TB_CAP_ARM (R14): A write of ARM to TB.CAP_CTRL arms a capture unit on its selected source. -/
  | tbCapArm (p : Pkt) (n : Fin 16) (value : Word)
  /-- TB_CAPTURE (R14): The selected source event of an armed capture unit latches the time base into the unit. -/
  | tbCapture (n : Fin 16)
  /-- PTP_ANNOUNCE_RECEIVED (R43): An Announce is received and the best master clock algorithm is run over the foreign masters. -/
  | ptpAnnounceReceived (p : Fin 5) (a : Announce)
  /-- PTP_SYNC_RECEIVED (R34): A Sync is received, and with a one-step master an offset measurement is made. -/
  | ptpSyncReceived (p : Fin 5) (m : SyncMessage)
  /-- PTP_FOLLOW_UP_RECEIVED (R34): A Follow_Up completes the offset measurement of a two-step master. -/
  | ptpFollowUpReceived (p : Fin 5) (sequence : Half) (delta : Int)
  /-- PTP_PDELAY_REQ_RECEIVED (R49): A Pdelay_Req is answered with a one-step Pdelay_Resp, in the STANDBY as well. -/
  | ptpPdelayReqReceived (p : Fin 5) (turn : Turnaround)
  /-- PTP_PDELAY_RESP_RECEIVED (R48): A Pdelay_Resp updates the mean link delay and the neighbour rate ratio of the port. -/
  | ptpPdelayRespReceived (p : Fin 5) (delay : Word) (nrr : Word)
  /-- PTP_PDELAY_REQ_SEND (R48): At each logMinPdelayReqInterval, a Pdelay_Req is sent on the port. -/
  | ptpPdelayReqSend (p : Fin 5)
  /-- ANNOUNCE_RECEIPT_TIMEOUT (R34): A master's announce receipt timeout expires; a PTP reference it carries is lost. -/
  | announceReceiptTimeout (id : Dword) (h : HoldoverEntry)
  /-- SYNC_RECEIPT_TIMEOUT (R34): Three Sync intervals of the master pass without a Sync, and the PTP reference is lost. -/
  | syncReceiptTimeout (h : HoldoverEntry)
  /-- PTP_ANNOUNCE_SEND (R49): At each announce interval, the ACTIVE or SOLO module sends Announce with the clock quality of Table TB-6. -/
  | ptpAnnounceSend (p : Fin 5)
  /-- PTP_SYNC_SEND (R51): At each sync interval, a one-step Sync is sent, with the origin timestamp inserted on the fly. -/
  | ptpSyncSend (p : Fin 5) (complete : Bool)
  /-- PTP_CONFIG_EFFECT (R60): Writes to PTP.CTRL, DOMAIN or INTERVALS take effect at the next TAI second. -/
  | ptpConfigEffect
  /-- FRAME_TICK (R61): At t0, the module latches inputs and snapshots, releases tasks, executes due software tacks and checks role transitions. -/
  | frameTick (f : FrameInput)
  /-- SEAM_PROPOSAL_RECEIVED (R271): The STANDBY receives seam items of the ACTIVE's proposal and adopts them. -/
  | seamProposalReceived (items : List SeamItem) (complete : Bool) (finish : Half)
  /-- SEAM_DEADLINE (R272): At 0.800 us, the frame is judged agreed or unagreed from the seam received. -/
  | seamDeadline
  /-- COMPUTE_WINDOW_OPEN (R62): At 0.800 us, the compute window opens and the highest-priority ready tasks run or resume. -/
  | computeWindowOpen
  /-- TASK_INSTANCE_COMPLETE (R68): A task instance completes, and its measured time is recorded. -/
  | taskInstanceComplete (t : Fin 16) (r : TaskResult)
  /-- E_TASK_RELEASE_EVENT (R67): A releasing event of an E task arrives; its release is set for the next tick or deferred. -/
  | eTaskReleaseEvent (t : Fin 16) (stamp : Instant)
  /-- BUDGET_STOP (R78): A task's measured time reaches its BUDGET; the instance is stopped at the next latch boundary as an overrun. -/
  | budgetStop (t : Fin 16)
  /-- COMPUTE_WINDOW_CLOSE (R62): At 7.500 us, running tasks are suspended at an instruction boundary. -/
  | computeWindowClose
  /-- OUTPUT_COMMIT (R61): At 9.500 us, the module commits the outputs of cycles that end, forms the digest and sends the heartbeat. -/
  | outputCommit (recheck : Bool) (mirrored : Half)
  /-- BACKGROUND_LANE_TEST (R239): At 9.600 us, one lane per unit is tested by injection; a lane that fails is a comparator fault. -/
  | backgroundLaneTest (detected : BitVec 4)
  /-- HEARTBEAT_RECEIVED (R257): A partner heartbeat is received and checked, carrying its role, flags, digest and overrun report. -/
  | heartbeatReceived (h : Heartbeat) (recheck : Bool)
  /-- HEARTBEAT_DEADLINE (R258): At 9.700 us, a frame without a valid heartbeat counts as missed on the tandem path. -/
  | heartbeatDeadline
  /-- STANDBY_QSP_SEND (R277): At 9.700 us, a STANDBY that is not muted sends its copies of the QSP output frames. -/
  | standbyQspSend
  /-- SAFETY_READBACK (R240): At 9.750 us, the safety outputs are read back; two disagreements are a comparator fault. -/
  | safetyReadback (levels : BitVec 3)
  /-- PULSE_TOGGLE_RECEIVED (R258): A partner pulse-line toggle arrives near the frame tick. -/
  | pulseToggleReceived (offset : Int)
  /-- PULSE_WINDOW_EXPIRY (R258): No toggle has come within +-100 ns of the tick, so the frame is missed on the pulse path. -/
  | pulseWindowExpiry
  /-- OVERRUN_WINDOW_EXPIRY (R79): WINDOW frames after detection, the overrun is decided by Table FX-9 from the partner's report. -/
  | overrunWindowExpiry
  /-- RUNTIME_FATAL_FAULT (R84): A fatal fault of the control runtime sends RUN or HOLD to SAFE. -/
  | runtimeFatalFault
  /-- IMAGE_INTEGRITY_FAILURE (R84): The running bank fails its integrity check, and the module goes to SAFE. -/
  | imageIntegrityFailure
  /-- RUN_TICK (R83): At the run tick, the pending change between STOP and RUN is made or cancelled, with a completion notice. -/
  | runTick
  /-- RUN_TICK_CONFIRM_DEADLINE (R83): 20 us before the run tick, an unconfirmed STANDBY drops to TRACK and the ACTIVE changes alone. -/
  | runTickConfirmDeadline
  /-- TACK_DUE_HARDWARE (R92): A hardware tack (an output edge or a trigger-line pulse) takes effect at its exact time. -/
  | tackDueHardware
  /-- PASSED_COMMAND (R320): The STANDBY receives a command passed by the ACTIVE, executes it and confirms it. -/
  | passedCommand (c : Passed)
  /-- PASSED_COMMAND_CONFIRMATION (R320): The ACTIVE receives the STANDBY's confirmation of a passed command. -/
  | passedCommandConfirmation (c : Confirmed)
  /-- APPLICATION_TICK (R203): At the fixed application tick, a confirmed loop commit, force or register write takes effect. -/
  | applicationTick
  /-- APPLICATION_CONFIRM_DEADLINE (R203): 10 us before an application tick without confirmation, the ACTIVE applies alone and the STANDBY drops to TRACK. -/
  | applicationConfirmDeadline
  /-- COMPARATOR_MISMATCH (R231): A lane mismatch: within 40 ns, outputs and transmitters are cut, the claim is clamped and takeover is asserted. -/
  | comparatorMismatch (m : Mismatch)
  /-- COMPARATOR_FAULT_TO_OUT (R233): After storing the diagnostics, the module takes OUT and STOP within 1 ms. -/
  | comparatorFaultToOut
  /-- AUTO_RESTART (R235): With AUTO_RESTART set, a warm restart is taken 100 ms after a comparator fault. -/
  | autoRestart (f : StartFindings)
  /-- LOCK_TEST_RUN (R238): A write of 0x5445 in OUT and STOP with Engineer authority runs the start-up test. -/
  | lockTestRun (p : Pkt) (value : Word)
  /-- LOCK_CLEAR_LOCKOUT (R236): A write of 1 to LOCK.CLEAR [8] with Owner authority ends the lockout and resets the count. -/
  | lockClearLockout (p : Pkt) (value : Word)
  /-- LOCK_CLEAR_STATS (R252): A write of 1 to LOCK.CLEAR [0] clears the LOCK statistics. -/
  | lockClearStats (p : Pkt) (value : Word)
  /-- HOLD_EXIT_RESTORE (R250): After HOLD ends, lockstep is restored within 5 ms and the start-up test runs. -/
  | holdExitRestore (r : TestResult)
  /-- DEBUG_REQUEST (R249): A debug access request is accepted only in HOLD on a held pair with a valid certificate; otherwise it is refused. -/
  | debugRequest (pair : Fin 2)
  /-- CLAIM_REFRESH (R260): Each whole microsecond, the supervisor refreshes the claim charge pump. -/
  | claimRefresh
  /-- CLAIM_DECAY (R260): Without refresh, the claim falls between 3 us and 5 us after the last refresh. -/
  | claimDecay
  /-- GRANT_GAINED (R261): The yoke logic grants this module's claim, enabling its output stages. -/
  | grantGained (y : YokeLines) (gap : Half) (droop : Word)
  /-- GRANT_LOST (R261): This module's grant is removed, and its stages are disabled. -/
  | grantLost (y : YokeLines)
  /-- SHARE_WINDOW_END (R264): SHARE falls or 4 us pass, and the grant of the module that asserted SHARE is removed. -/
  | shareWindowEnd (timeout : Bool) (err : Word)
  /-- TAKEOVER_LINE_ASSERTED (R282): The partner asserts its takeover line, and the cause is recorded. -/
  | takeoverLineAsserted
  /-- UNHELD_STATE_ENTRY (R265): After 20 us without a grant, the pair base switches outputs off and clears every release state. -/
  | unheldStateEntry
  /-- SOLO_WAIT_EXPIRY (R266): No heartbeat for SOLO_WAIT since the test passed lets an INIT module become SOLO. -/
  | soloWaitExpiry
  /-- SELF_CHECK_DECISION (R278): DECIDE frames after a digest mismatch, the outcome of Table PR-7 is applied. -/
  | selfCheckDecision
  /-- HANDOVER_CONFIRM_DEADLINE (R280): If H is not confirmed by H - 20 us, the handover is cancelled. -/
  | handoverConfirmDeadline
  /-- HANDOVER_TICK (R280): At H, the roles swap and the make-before-break share window begins. -/
  | handoverTick
  /-- LEVER_OPENED (R499): The lever opening is accepted after 20 ms; LEVER is set and the action of R270 follows. -/
  | leverOpened
  /-- LEVER_CLOSED (R500): The lever closing is accepted; it cancels a request, or acts as ROLE_REQUEST INIT from OUT cause 0x0C. -/
  | leverClosed
  /-- LEVER_HANDOVER_RETRY (R270): A refused lever handover request is retried every second. -/
  | leverHandoverRetry
  /-- TRACKING_PHASE_COMPLETE (R286): A tracking phase meets its end condition, and the next phase begins. -/
  | trackingPhaseComplete (r : PhaseResult)
  /-- TRACKING_COPY_RECEIVED (R286): A bulk tracking copy cell (page, configuration, image) is received and stored. -/
  | trackingCopyReceived (c : TrackingCopy)
  /-- WRITE_MIRROR_RECEIVED (R287): A mirrored write from the leader is applied to the tracking copy. -/
  | writeMirrorReceived (d : CopiedData) (pages : List Nat) (lost : Bool)
  /-- JOIN_TICK (R288): At a fitting switch tick with no page dirty, the tracking module joins execution. -/
  | joinTick (mirror : Nat)
  /-- SLOT_STATE_STREAM_RECEIVED (R288): A streamed slot state from the capture frame arrives, letting that slot's first evaluation proceed. -/
  | slotStateStreamReceived (slot : Byte) (states : List Dword)
  /-- LANE_FAILURE (R256): A tandem lane fails; the link runs at half capacity. -/
  | laneFailure (l : Fin 2)
  /-- LANE_RESTORED (R256): A failed tandem lane comes up again. -/
  | laneRestored (l : Fin 2)
  /-- INPUT_CUTOFF (R274): At T - 50 us, the input reception closes and each module closes its receipt list. -/
  | inputCutoff
  /-- RECEIPT_LIST_RECEIVED (R274): The partner's receipt list arrives, and the missing frames are sent to it. -/
  | receiptListReceived (theirs : List ReceiptEntry)
  /-- STATION_FRAME_COPY_RECEIVED (R274): A station frame copy from the partner is received and counted. -/
  | stationFrameCopyReceived (r : Receipt)
  /-- SETTLED_SET_FORMED (R274): At T - 10 us, the settled input set is formed and conflicts are resolved. -/
  | settledSetFormed
  /-- IMAGE_VERIFY_COMPLETE (R340): The verification of a committed image ends: the bank becomes VERIFIED or EMPTY, and a notice is sent. -/
  | imageVerifyComplete (r : ImageVerdict)
  /-- ADMISSION_COMPLETE (R104): The admission ends in both modules; the bank is ADMITTED or REFUSED, and a notice is sent. -/
  | admissionComplete (partner : Option PartnerAdmission)
  /-- SWITCH_PREPARED (R118): Both modules have prepared, and the switch tick is fixed and sent. -/
  | switchPrepared
  /-- SWITCH_TICK_CONFIRM_DEADLINE (R118): 20 us before the switch tick without confirmation, the switch is cancelled. -/
  | switchTickConfirmDeadline
  /-- SWITCH_FLIP (R122): In the guard of the switch frame, the cores and slot bindings are pointed at the new image, and a verdict is formed. -/
  | switchFlip (acknowledged tableOk : Bool)
  /-- SWITCH_OUTCOME (R123): At 0.800 us of the first new frame, the verdicts decide whether to switch or revert. -/
  | switchOutcome (partner : Option Bool) (delivered : Bool)
  /-- CALIBRATION_UPDATE (R136): At each TAI second, the AFE calibration is applied at the measured temperature. -/
  | calibrationUpdate (temp : Word)
  /-- RAW_RING_REALLOCATE (R139): At the TAI second after a change of the channel set, the RAW ring is reallocated and its contents are discarded. -/
  | rawRingReallocate
  /-- RANGE_CHANGE_EFFECT (R152): A change of range or delay takes effect at the next TAI second, and settling begins. -/
  | rangeChangeEffect (n : Fin 8)
  /-- SETTLING_END (R152): 20 us after the change, settling ends and SETTLED is set. -/
  | settlingEnd (n : Fin 8)
  /-- CYCLE_ZERO_CROSSING (R142): A positive-going zero crossing with hysteresis closes a CYC entry. -/
  | cycleZeroCrossing (n : Fin 8)
  /-- CYCLE_NO_CROSSING (R143): 25 ms pass without a crossing, and a NO_CROSSING entry is closed. -/
  | cycleNoCrossing (n : Fin 8)
  /-- PHA_ENTRY_COMPLETE (R144): After the measurement latency of a reporting instant, the PHA entry is written. -/
  | phaEntryComplete (src : PhasorSource)
  /-- TWE_FIRING (R145): The slope comparator fires; the TDC stamps it, and a TWE entry is added or merged. -/
  | tweFiring (n : Fin 8) (f : Firing)
  /-- PMU_DATA_FRAME_SEND (R159): The ACTIVE sends a C37.118.2 data frame of a reporting instant. -/
  | pmuDataFrameSend (m : Fin 16)
  /-- PMU_COMMAND_RECEIVED (R155): A C37.118.2 command frame (on, off, HDR, CFG) is received and served. -/
  | pmuCommandReceived (m : Fin 16) (idcode command : Half)
  /-- PMU_TCP_CONNECT (R155): A PMU client opens a TCP connection; a fifth connection is refused. -/
  | pmuTcpConnect (m : Fin 16)
  /-- PMU_TCP_DISCONNECT (R155): A PMU client connection ends. -/
  | pmuTcpDisconnect (m : Fin 16)
  /-- PMU_CFG_FLAG_EXPIRY (R157): 60 s after a PMU commit, STAT bit 10 clears. -/
  | pmuCfgFlagExpiry (m : Fin 16)
  /-- ACQ_PMU_SEL (R165): A write of ACQ.PMU_SEL loads the window with the selected PMU's committed configuration. -/
  | acqPmuSel (p : Pkt) (value : Word)
  /-- ACQ_PMU_COMMIT (R158): A write of 1 commits the staged PMU configuration at the next tick, or refuses it. -/
  | acqPmuCommit (p : Pkt) (value : Word)
  /-- ACQ_SV_SEL (R165): A write of ACQ.SV_SEL loads the sampled-value window. -/
  | acqSvSel (p : Pkt) (value : Word)
  /-- ACQ_SV_COMMIT (R161): A write of 1 commits the staged subscription, or refuses a duplicate identity. -/
  | acqSvCommit (p : Pkt) (value : Word)
  /-- ACQ_CFG_WRITE (R165): A change of F_NOM disables PMUs whose rate becomes invalid. -/
  | acqCfgWrite (p : Pkt) (value : Word)
  /-- ACQ_CLEAR (R165): A write of 1 clears the SV counters and the lost-sample counts. -/
  | acqClear (p : Pkt) (value : Word)
  /-- SV_FRAME_RECEIVED (R162): A sampled-value frame is matched to its subscription, and its samples are placed in time. -/
  | svFrameReceived (f : SvFrame)
  /-- SV_STREAM_TIMEOUT (R163): 100 ms without frames: the stream is waiting and its phasors are invalid. -/
  | svStreamTimeout (k : Fin 64)
  /-- ACH_TWE_SEL (R166): A write of an entry number loads the TWE entry window. -/
  | achTweSel (p : Pkt) (n : Fin 8) (value : Word)
  /-- ACH_CYC_SEL (R166): A write of an entry number loads the CYC entry window. -/
  | achCycSel (p : Pkt) (n : Fin 8) (value : Word)
  /-- ACH_PHA_SEL (R166): A write of an entry number loads the PHA entry window. -/
  | achPhaSel (p : Pkt) (n : Fin 8) (value : Word)
  /-- ACH_CLEAR (R166): A write of 1 clears OVR_COUNT and TWE_LOST of the channel. -/
  | achClear (p : Pkt) (n : Fin 8) (value : Word)
  /-- TRG_U_CFG (R170): A write enabling or changing a trigger unit is checked and restarts it unarmed at the next sample. -/
  | trgUCfg (p : Pkt) (n : Fin 32) (value : Word)
  /-- TRIGGER_UNIT_EVENT (R169): A trigger unit sees its condition and produces an event with its interpolated time. -/
  | triggerUnitEvent (u : Fin 32) (x : UnitSamples)
  /-- TRIGGER_UNIT_TIMEOUT (R169): A timeout or long-pulse unit reaches TIME_A or TIME_B and fires without a further edge. -/
  | triggerUnitTimeout (u : Fin 32) (x : UnitSamples)
  /-- STRETCH_EXPIRY (R171): A unit's stretched output returns false. -/
  | stretchExpiry (u : Fin 32)
  /-- PATTERN_ARM_EXPIRY (R175): T passes after step A without step B, and the unit disarms. -/
  | patternArmExpiry (u : Fin 8)
  /-- PATTERN_HOLDOFF_EXPIRY (R176): The holdoff after firing ends. -/
  | patternHoldoffExpiry (u : Fin 8)
  /-- PARTNER_SOURCE_CHANGE (R177): A forwarded partner source change arrives with its timestamp. -/
  | partnerSourceChange (n : Fin 32) (level : Bool) (stamp : Instant)
  /-- PARTNER_SOURCES_LOST (R178): The partner sources become invalid, and the FUSED_LOSS behaviour applies. -/
  | partnerSourcesLost
  /-- PARTNER_SOURCES_RESTORED (R178): The partner sources become valid again, and their states are reloaded without firing. -/
  | partnerSourcesRestored (states : Word)
  /-- TRIGGER_LINE_PULSE_END (R182): A trigger-line assertion pulse of WIDTH ends. -/
  | triggerLinePulseEnd (l : Fin 8)
  /-- TRIGGER_LINE_ASSERTED (R185): A chassis trigger line in a profile's start mask is asserted and opens a record. -/
  | triggerLineAsserted (levels : Byte) (stamp : Instant)
  /-- TRG_REC_MANUAL (R185): A write to TRG.REC_MANUAL starts a record of the profile. -/
  | trgRecManual (p : Pkt) (value : Word)
  /-- RECORD_WINDOW_END (R186): The post-windows of an open record end, and its writing to flash completes. -/
  | recordWindowEnd (number : Word)
  /-- RECORD_COMMITTED (R189): The record's index entry is written; the oldest unprotected records are deleted to make room, or the record is dropped. -/
  | recordCommitted (number : Word)
  /-- TRG_PAT_COMMIT (R180): A write of 1 commits the staged pattern unit at the next tick. -/
  | trgPatCommit (p : Pkt) (value : Word)
  /-- TRG_REC_COMMIT (R186): A write of 1 commits a record profile after the checks of Table TG-7. -/
  | trgRecCommit (p : Pkt) (value : Word)
  /-- TRG_FL_COMMIT (R193): A write of 1 commits a fault-location line entry. -/
  | trgFlCommit (p : Pkt) (value : Word)
  /-- TRG_CLEAR (R198): A write of 1 clears FIRE_COUNT and REC_LOST. -/
  | trgClear (p : Pkt) (value : Word)
  /-- TDC_EDGE (R183): An edge on an enabled TDC input is stamped at 50 ps and corrected by its delays. -/
  | tdcEdge (n : Fin 48) (stamp : Instant)
  /-- TDC_CALIBRATION (R184): Every CAL_CFG seconds, the bin widths are recalibrated and checked. -/
  | tdcCalibration (m : TdcCalibration)
  /-- TDC_FIFO_SEC_READ (R199): A read of TDC.FIFO_SEC latches the oldest entry's nanoseconds and fraction. -/
  | tdcFifoSecRead (p : Pkt)
  /-- TDC_FIFO_FRAC_READ (R199): A read of TDC.FIFO_FRAC removes the oldest entry. -/
  | tdcFifoFracRead (p : Pkt)
  /-- TDC_CLEAR (R199): A write of 1 clears the TDC counters. -/
  | tdcClear (p : Pkt) (value : Word)
  /-- TW_ARRIVAL_WAIT_END (R194): 5 us after the start, the local arrival is searched and the report is sent or the location fails. -/
  | twArrivalWaitEnd (l : Fin 8)
  /-- FAULT_LOCATION_RESULT (R195): With both reports held, the distance and its uncertainty are computed and written. -/
  | faultLocationResult (l : Fin 8)
  /-- REMOTE_WAIT_EXPIRY (R196): No remote report within REMOTE_WAIT: a single-ended location is made, or the location fails. -/
  | remoteWaitExpiry (l : Fin 8)
  /-- SLOT_EVALUATION (R208): A due slot is evaluated on its lane in binary64 by operation revision 1. -/
  | slotEvaluation (k : Byte)
  /-- ASAP_SLOT_WRITE (R218): 20 ns after its evaluation, an ASAP slot writes its destination. -/
  | asapSlotWrite (k : Byte)
  /-- FIXED_PHASE_SLOT_WRITE (R219): At t0 + PHASE x 2.5 ns, a fixed-phase slot writes its destination. -/
  | fixedPhaseSlotWrite (k : Byte)
  /-- LOOP_SEL (R202): A write of LOOP.SEL selects a slot and page, discarding the staged words of another slot. -/
  | loopSel (p : Pkt) (value : Word)
  /-- LOOP_COMMIT (R203): A write of 1 checks the staged pages and fixes an application tick, or refuses them. -/
  | loopCommit (p : Pkt) (value : Word)
  /-- LOOP_ND_CMD (R222): A write of 1 starts a notch design from the ND registers. -/
  | loopNdCmd (p : Pkt) (value : Word)
  /-- NOTCH_DESIGN_COMPLETE (R223): The notch design ends, reporting the achieved values, and applies the section when APPLY is set. -/
  | notchDesignComplete
  /-- LOOP_FAULT_CLEAR (R214): Clearing a slot's LOOP.FAULT bit resumes it with zero states. -/
  | loopFaultClear (p : Pkt) (n : Fin 8) (value : Word)
  /-- LOOP_CLEAR (R225): A write of 1 clears the loop statistics. -/
  | loopClear (p : Pkt) (value : Word)
  /-- QSP_INPUT_FRAME (R303): A QSP INPUT frame is received, checked and entered into the receipt list, or discarded as late or stale. -/
  | qspInputFrame (p : Fin 2) (f : QspFrame)
  /-- ROLL_CALL (R308): A station ROLL_CALL is checked by Table NW-4, and a bind cycle is fixed or a REFUSE is sent. -/
  | rollCall (p : Fin 2) (f : QspFrame)
  /-- BIND_CYCLE (R308): At the bind cycle, both modules bind the station and a BIND frame is sent. -/
  | bindCycle (n : BitVec 10)
  /-- NET_ST_COMMIT (R307): A write of 1 commits the station window and passes it to the STANDBY. -/
  | netStCommit (p : Pkt) (value : Word)
  /-- STATION_COMMIT_EFFECT (R307): At the first C2 cycle start at least 2 ms after the commit, the station configuration takes effect. -/
  | stationCommitEffect
  /-- NET_GO_COMMIT (R312): A write of 1 commits a GOOSE control block at the next tick. -/
  | netGoCommit (p : Pkt) (value : Word)
  /-- GOOSE_REPEAT (R313): A GOOSE repeat interval expires, the message is sent again and the interval doubles up to T0. -/
  | gooseRepeat (m : Fin 16)
  /-- GOOSE_RECEIVED (R314): A GOOSE message is matched to a subscription, and its values enter the receipt lists. -/
  | gooseReceived (m : GooseMessage)
  /-- GOOSE_TAL_EXPIRY (R314): timeAllowedToLive expires, and the members take their substitute policies. -/
  | gooseTalExpiry (k : Fin 64)
  /-- BEACON_SEND (R315): Every INTERVAL seconds, a QCP BEACON is broadcast. -/
  | beaconSend
  /-- GRATUITOUS_ARP (R296): On becoming ACTIVE or SOLO, and 100 ms and 1 s later, a gratuitous ARP is sent for the pair address. -/
  | gratuitousArp
  /-- ARP_REQUEST (R296): An ARP request is answered for the module address, or for the pair address by the leader. -/
  | arpRequest (p : Fin 5) (ip : Word)
  /-- ICMP_ECHO (R295): An ICMP echo request is answered. -/
  | icmpEcho (p : Fin 5) (ip : Word)
  /-- PRP_FRAME_RECEIVED (R297): A PRP or HSR frame is received; duplicate discard, node table and ring forwarding apply. -/
  | prpFrameReceived (n : Fin 2) (f : PrpFrame)
  /-- PRP_SUPERVISION_SEND (R297): A supervision frame is sent every SUP_CFG interval. -/
  | prpSupervisionSend (n : Fin 2)
  /-- PRP_LAN_TIMEOUT (R297): No frame on a LAN for LAN_TIMEOUT: the LAN is down. -/
  | prpLanTimeout (n : Fin 2) (lanB : Bool)
  /-- TRANSCEIVER_INSERTED (R294): A transceiver is fitted; its type is checked and the port is brought up or left down. -/
  | transceiverInserted (p : Fin 4) (info : Word)
  /-- PORT_LINK_CHANGE (R316): A port's link goes up or down, and event 0x6007 is raised. -/
  | portLinkChange (p : Fin 5) (up : Bool) (speed : Fin 4)
  /-- NET_CLEAR (R317): A write of 1 clears the NET counters. -/
  | netClear (p : Pkt) (value : Word)
  /-- PRP_CLEAR (R318): A write of 1 clears the PRP counters. -/
  | prpClear (p : Pkt) (value : Word)
  /-- HELLO (R315): A HELLO is answered with a unicast BEACON within 10 ms, within the rate limit. -/
  | hello (p : Pkt) (wanted : Half)
  /-- BEACON (R343): A received packet with REPLY set, such as a beacon, is dropped silently. -/
  | beacon
  /-- SESSION_OPEN (R329): An SM2 key agreement starts, returning a session number, RB and SB, or a refusal. -/
  | sessionOpen (p : Pkt) (slot role : Byte) (zero : Half) (ra : BitVec 512)
  /-- SESSION_CONFIRM (R329): The client's SA is checked; the session is confirmed or ended. -/
  | sessionConfirm (p : Pkt) (saOk : Bool)
  /-- SESSION_CLOSE (R332): The session ends after a DONE reply. -/
  | sessionClose (p : Pkt)
  /-- PING (R328): The reply carries the time base and quality and echoes the payload. -/
  | ping (p : Pkt) (payload : List Byte)
  /-- QCP_STATS (R346): Returns the QCP counters and one entry per open session. -/
  | qcpStats (p : Pkt)
  /-- NOTICE_ACK (R342): Acknowledges a completion notice, stopping its resends; no reply. -/
  | noticeAck (p : Pkt) (n : Word)
  /-- RESTART (R345): With the key and in permitted roles, replies DONE, ends sessions and makes a warm restart at the next tick. -/
  | restart (p : Pkt) (key : Half)
  /-- REG_READ (R347): Reads one register, with its read side effects. -/
  | regRead (p : Pkt) (addr zero : Half)
  /-- REG_WRITE (R347): Writes one register after the authority and access-code checks. -/
  | regWrite (p : Pkt) (addr zero : Half) (value : Word) (started : Bool)
  /-- REG_MODIFY (R347): Reads and writes a register atomically under a mask, returning the old and new values. -/
  | regModify (p : Pkt) (addr zero : Half) (mask value : Word) (started : Bool)
  /-- REG_BLOCK_READ (R347): Reads up to 256 consecutive registers of one block. -/
  | regBlockRead (p : Pkt) (addr count : Half)
  /-- REGISTER_WRITE_PLAIN (R9): A write to a register without behaviour of its own sets its fields under their access codes. -/
  | registerWritePlain (p : Pkt) (addr : Half) (value : Word)
  /-- IMAGE_BEGIN (R103): Opens an upload into the other bank, setting it LOADING, and returns a handle. -/
  | imageBegin (p : Pkt) (size : Word) (digest : BitVec 256)
  /-- IMAGE_CHUNK (R339): Stores one image chunk within the window of 16, returning NEXT. -/
  | imageChunk (p : Pkt) (handle index : Word) (data : List Byte)
  /-- IMAGE_COMMIT (R340): Starts verification of the uploaded image and replies ACCEPTED. -/
  | imageCommit (p : Pkt) (handle : Word)
  /-- IMAGE_ADMIT (R74): Starts admission of the other bank in both modules and replies ACCEPTED. -/
  | imageAdmit (p : Pkt)
  /-- IMAGE_SWITCH (R117): Checks Table OC-4 and the migration table, then starts switch preparation. -/
  | imageSwitch (p : Pkt) (partnerBank : Option (BitVec 256))
  /-- IMAGE_ABORT (R121): Ends an upload (bank EMPTY), or with handle 0 cancels a pending switch. -/
  | imageAbort (p : Pkt) (handle : Word)
  /-- MODE_SET_RUN (R83): A request for RUN fixes a run tick, after the checks of Table FX-11. -/
  | modeSetRun (p : Pkt)
  /-- MODE_SET_STOP (R84): A request for STOP: from RUN at a run tick, from HOLD or SAFE at the next tick. -/
  | modeSetStop (p : Pkt)
  /-- MODE_SET_HOLD (R84): A request for HOLD in SOLO or OUT takes effect at the next tick. -/
  | modeSetHold (p : Pkt)
  /-- MODE_SET_SAFE (R84): A request for SAFE takes effect at the next tick and cancels a pending change. -/
  | modeSetSafe (p : Pkt)
  /-- ROLE_REQUEST_OUT (R268): A request for OUT from a permitted role with the needed authority. -/
  | roleRequestOut (p : Pkt)
  /-- ROLE_REQUEST_INIT (R268): A request for INIT from OUT in STOP, tested, with no fault or lockout. -/
  | roleRequestInit (p : Pkt)
  /-- HANDOVER (R279): Checks Table PR-8, then fixes the handover tick H and sends it to the STANDBY. -/
  | handover (p : Pkt)
  /-- TACK_SCHEDULE (R91): Places a checked action at an absolute time in the tack queue and returns its identity. -/
  | tackSchedule (p : Pkt) (t : TackRequest) (partnerBank : Option (BitVec 256))
  /-- TACK_CANCEL (R96): Removes a queued tack by identity, with a check of who may cancel it. -/
  | tackCancel (p : Pkt) (id : Word)
  /-- TACK_LIST (R90): Returns queued tacks from a first identity. -/
  | tackList (p : Pkt) (first : Word)
  /-- REC_LIST (R190): Returns the summaries of records from a first number. -/
  | recList (p : Pkt) (first : Word)
  /-- REC_OPEN (R191): Opens a COMTRADE file of a record view for download and returns a handle. -/
  | recOpen (p : Pkt) (number : Word) (view file : Byte) (zero : Half)
  /-- REC_READ (R339): Returns one chunk of an open record file. -/
  | recRead (p : Pkt) (handle index : Word)
  /-- REC_DELETE (R190): Deletes a record that is neither open nor being downloaded. -/
  | recDelete (p : Pkt) (number : Word)
  /-- TW_EXCHANGE (R194): Receives a remote travelling-wave arrival report and holds the first per line. -/
  | twExchange (p : Pkt) (r : TwReport)
  /-- REC_CLOSE (R339): Closes a download handle. -/
  | recClose (p : Pkt) (handle : Word)
  /-- EVR_CURSOR_REPORT (R457): Reports the session cursor, the records held and the loss counter. -/
  | evrCursorReport (p : Pkt)
  /-- EVR_CURSOR_OLDEST (R457): Sets the session cursor to the oldest held record. -/
  | evrCursorOldest (p : Pkt)
  /-- EVR_CURSOR_NEWEST (R457): Sets the session cursor to the newest held record. -/
  | evrCursorNewest (p : Pkt)
  /-- EVR_CURSOR_SET (R457): Sets the cursor to the lowest held INDEX at or above the value given. -/
  | evrCursorSet (p : Pkt) (v : Word)
  /-- EVR_READ (R457): Returns up to ten records from the cursor and advances it. -/
  | evrRead (p : Pkt) (count : Byte)
  /-- EVR_CLEAR (R460): The owner clear removes every record, resets the loss counters and records event 0x7C01. -/
  | evrClear (p : Pkt) (key : Half)
  /-- UPD_BEGIN (R468): Opens a component's other bank for loading and returns a handle. -/
  | updBegin (p : Pkt) (component : Byte) (zero : BitVec 24) (size : Word) (digest : BitVec 256)
  /-- UPD_CHUNK (R339): Stores one chunk of a component package. -/
  | updChunk (p : Pkt) (handle index : Word) (data : List Byte)
  /-- UPD_VERIFY (R468): Starts the check of a package's digest, header, signature and version. -/
  | updVerify (p : Pkt) (handle : Word)
  /-- UPD_VERIFY_COMPLETE (R468): Verification ends; the bank becomes VERIFIED, or the refusal is notified. -/
  | updVerifyComplete (r : PackageVerdict)
  /-- UPD_APPLY (R470): After the checks of Table UP-3, the bank marker is committed and the component is activated. -/
  | updApply (p : Pkt) (component : Byte) (partner : Option Word)
  /-- UPD_APPLY_COMPLETE (R470): The applied bank is in TRIAL, the old bank is FALLBACK, and a notice is sent. -/
  | updApplyComplete (c : CalibrationCheck)
  /-- UPD_STATUS (R483): Returns the update status, the component registers and the unmapped import addresses. -/
  | updStatus (p : Pkt) (component : Byte)
  /-- SETTINGS_IMPORT (R482): Component 7 migrates a QC-660 settings file into a new store for the next restart. -/
  | settingsImport (values : Option (List (Nat × Word))) (steps : Half)
  /-- TRIAL_END (R471): After TRIAL seconds without failure, the bank becomes RUNNING and the epoch floor rises. -/
  | trialEnd
  /-- TRIAL_FAILURE_REVERT (R471): A trial failure writes the marker back to FALLBACK and restarts. -/
  | trialFailureRevert (cause : TrialFailure)
  /-- UPD_REVERT (R472): A write of 0x5256 during TRIAL reverts the component. -/
  | updRevert (p : Pkt) (value : Word)
  /-- UPD_CLEAR (R485): A write of 1 clears the refusal and blocker registers. -/
  | updClear (p : Pkt) (value : Word)
  /-- POINT_READ (R349): Returns the value and quality of up to 64 points. -/
  | pointRead (p : Pkt) (refs : List Word)
  /-- POINT_FORCE_SET (R350): Forces a bound point to a value from an application tick. -/
  | pointForceSet (p : Pkt) (point value : Word) (zero : BitVec 24)
  /-- POINT_RELEASE (R350): Releases the force on one point at an application tick. -/
  | pointRelease (p : Pkt) (point : Word) (zero : BitVec 24)
  /-- POINT_RELEASE_ALL (R350): Releases every force at an application tick. -/
  | pointReleaseAll (p : Pkt) (zero : BitVec 24)
  /-- LOOP_WINDOW_READ (R202): Returns the 16 words of a slot page. -/
  | loopWindowRead (p : Pkt) (slot page zero : Byte)
  /-- LOOP_WINDOW_STAGE (R202): Stages the 16 words of a slot page. -/
  | loopWindowStage (p : Pkt) (slot page zero : Byte) (words : List Word)
  /-- LOOP_WINDOW_COMMIT (R203): Stages the page and commits the slot, returning the commit result. -/
  | loopWindowCommit (p : Pkt) (slot page zero : Byte) (words : List Word)
  /-- NOTCH_DESIGN (R222): Designs a notch from f0, width and depth, optionally applying it. -/
  | notchDesign (p : Pkt) (f0 width depth : Word) (slot sect apply zero : Byte)
  /-- KEY_ENROL (R477): Enrols a public key with a proof signature into a slot. -/
  | keyEnrol (p : Pkt) (slot : Byte) (k : KeyRequest)
  /-- KEY_REVOKE (R477): Revokes a key slot and ends its sessions. -/
  | keyRevoke (p : Pkt) (slot : Byte)
  /-- KEY_LOAD_DECRYPTION (R477): Loads an SM4 decryption key encrypted to the device key. -/
  | keyLoadDecryption (p : Pkt) (slot : Byte) (opened : Option (BitVec 128))
  /-- OWNER_LOCK (R478): Sets or clears the owner lock mask. -/
  | ownerLock (p : Pkt) (key : Half) (mask : Byte)
  /-- DEBUG_CERT (R480): Checks and accepts a debug certificate. -/
  | debugCert (p : Pkt) (payload : List Byte)
  /-- DEBUG_CERT_END (R480): A DEBUG_CERT without payload ends the certificate in force. -/
  | debugCertEnd (p : Pkt)
  /-- DEBUG_CERT_EXPIRY (R480): The certificate reaches not-after, and debug access ends. -/
  | debugCertExpiry
  /-- SEC_FUSE_CMD (R476): Fuses the running epoch of a component irreversibly. -/
  | secFuseCmd (p : Pkt) (value : Word)
  /-- SESSION_IDLE_TIMEOUT (R332): 60 s without an accepted request ends a session. -/
  | sessionIdleTimeout (n : Word)
  /-- SESSION_LIFETIME_EXPIRY (R332): 480 min after SESSION_OPEN, the session ends. -/
  | sessionLifetimeExpiry (n : Word)
  /-- SESSION_CONFIRM_TIMEOUT (R330): A session unconfirmed 5 s after its open reply ends. -/
  | sessionConfirmTimeout (n : Word)
  /-- MAC_FAILURE_LIMIT (R332): 16 MAC failures within 1 s end the session. -/
  | macFailureLimit (n : Word)
  /-- NOTICE_RESEND (R342): An unacknowledged notice is resent at its schedule, then dropped. -/
  | noticeResend (n count : Word)
  /-- RELAY_REPLY (R323): The partner's reply to a relayed request arrives and is sent to the client. -/
  | relayReply (n seq : Word) (status : Status) (reason : Byte) (detail : Word) (fields payload : List Word)
  /-- RELAY_TIMEOUT (R323): No partner reply within 10 ms: WRONG_STATE reason 0x02. -/
  | relayTimeout (n seq : Word)
  /-- HANDLE_IDLE_TIMEOUT (R339): A transfer handle idle for 60 s is closed; an upload's bank becomes EMPTY. -/
  | handleIdleTimeout (id : Word)
  /-- WINDOW_CLAIM_TIMEOUT (R348): 10 s without the claiming session's access releases a staging window. -/
  | windowClaimTimeout (w : WindowId)
  /-- DIO_RAW_EDGE (R355): A raw comparator edge on a digital channel is stamped by the TDC and opens or breaks a debounce run. -/
  | dioRawEdge (c : Fin 32) (level : Bool) (stamp : Instant)
  /-- READBACK_DELAY_TIMEOUT (R360): No readback edge within 100 us records the delay as 0xFFFF. -/
  | readbackDelayTimeout (c : Fin 32)
  /-- DEBOUNCE_ACCEPT (R356): The raw level stays at the new level for DEBOUNCE, and the transition is accepted. -/
  | debounceAccept (c : Fin 32)
  /-- DEBOUNCE_DISCARD (R356): A run that returns and stays for DEBOUNCE is discarded as a glitch. -/
  | debounceDiscard (c : Fin 32)
  /-- OVERLOAD_DETECT (R363): The current limit is active for 100 us, and OVERLOAD is reported. -/
  | overloadDetect (c : Fin 32)
  /-- THERMAL_SHUTDOWN (R363): A switch shuts down at 160 C and reports THERMAL. -/
  | thermalShutdown (c : Fin 32)
  /-- THERMAL_RESTART (R363): A switch cools to 140 C and restarts while commanded on. -/
  | thermalRestart (c : Fin 32)
  /-- OPEN_LOAD_DETECT (R363): An on output below 5 mA for 10 ms reports OPEN_LOAD. -/
  | openLoadDetect (c : Fin 32)
  /-- GROUP_OVER_TRIP (R363): A group mean current above 2.2 A switches the group's outputs off. -/
  | groupOverTrip (g : Fin 4) (current : Half)
  /-- GROUP_OVER_RETRY (R363): After RETRY ms, the group is released again in stages, unless latched off. -/
  | groupOverRetry (g : Fin 4)
  /-- DIO_FAULT_CLEAR (R363): A fault's clearing condition is met, and event 0x500A is raised. -/
  | dioFaultClear (c : Fin 32) (f : DioFault)
  /-- SUPPLY_WARN (R365): The group supply stays below 19.2 V or above 33.0 V for 1 ms. -/
  | supplyWarn (g : Fin 4) (mv : Half)
  /-- SUPPLY_WARN_CLEAR (R365): The supply stays within 19.2 V to 33.0 V for 50 ms, and the warning clears. -/
  | supplyWarnClear (g : Fin 4) (mv : Half)
  /-- SUPPLY_LOW (R365): Below 15.0 V for 20 us: the group's switches go off and unreleased and its inputs become invalid. -/
  | supplyLow (g : Fin 4) (mv : Half)
  /-- SUPPLY_RECOVERED (R365): Above 18.0 V for 50 ms: the inputs become valid and staged release begins. -/
  | supplyRecovered (g : Fin 4) (mv : Half)
  /-- DIO_CLEAR_GROUP (R363): A write of a group bit of DIO.CLEAR ends that group's latch-off. -/
  | dioClearGroup (p : Pkt) (value : Word)
  /-- DIO_CLEAR_COUNTERS (R370): A write of DIO.CLEAR [8] clears the DIO counters. -/
  | dioClearCounters (p : Pkt) (value : Word)
  /-- AO_CONVERTER_UPDATE (R377): 400 ns after a write, the value reaches the stage converter. -/
  | aoConverterUpdate (n : Fin 8)
  /-- COMPLIANCE_DETECT (R381): After 50 us short of compliance, COMPLIANCE is set and the measured current is reported. -/
  | complianceDetect (n : Fin 8) (m : LoopMeasure)
  /-- COMPLIANCE_RETRY (R381): With COMP_FAIL set, the target value is tried every 1 s. -/
  | complianceRetry (n : Fin 8)
  /-- COMPLIANCE_RETRY_END (R381): A try that has not reached the value ends after 100 us. -/
  | complianceRetryEnd (n : Fin 8) (current : Word)
  /-- COMPLIANCE_CLEAR (R381): The current stays within 0.05% of span for 10 ms, and COMPLIANCE clears. -/
  | complianceClear (n : Fin 8) (current : Word)
  /-- MISWIRE_DETECT (R382): Reverse current or an external supply is detected; the channel protects itself and reports MISWIRE. -/
  | miswireDetect (n : Fin 8) (m : LoopMeasure)
  /-- MISWIRE_CLEAR (R383): No reverse current for 1 s clears MISWIRE. -/
  | miswireClear (n : Fin 8) (m : LoopMeasure)
  /-- AO_THERMAL_FOLDBACK (R380): Above 150 C, the stage folds back its current limit and sets THERMAL. -/
  | aoThermalFoldback (n : Fin 8) (temp : Half) (current : Word)
  /-- SENSE_FAULT (R383): The readback differs from the driven value by over 0.5% of span for 1 ms. -/
  | senseFault (n : Fin 8) (current : Word)
  /-- SUPPLY_FAULT (R383): The adaptive supply lies more than 1.0 V from its target for 1 ms. -/
  | supplyFault (n : Fin 8) (m : LoopMeasure)
  /-- AO_CLEAR (R397): A write of 1 clears the AO statistics and counts. -/
  | aoClear (p : Pkt) (value : Word)
  /-- HART_SCAN_POLL (R390): Every SCAN_INT, a command-3 poll of the scanned device is queued. -/
  | hartScanPoll (n : Fin 8)
  /-- HART_TRANSACTION_COMPLETE (R391): A HART response is decoded into the points and the receipt lists. -/
  | hartTransactionComplete (n : Fin 8) (f : HartFrame)
  /-- HART_TRANSACTION_FAILED (R391): A transaction fails after its retries: communication is lost and the values become bad. -/
  | hartTransactionFailed (n : Fin 8)
  /-- HART_FRAME_RECEIVED (R389): A HART frame on the loop, including a burst frame, is received and decoded by each modem. -/
  | hartFrameReceived (n : Fin 8) (f : HartFrame)
  /-- HART_WIN_GO (R395): A write of 1 queues the pass-through transaction of the window. -/
  | hartWinGo (p : Pkt) (value : Word)
  /-- HART_CLEAR (R398): A write of 1 clears the HART channel counts. -/
  | hartClear (p : Pkt) (value : Word)
  /-- CAN_FRAME_RECEIVED (R402): A frame received without error is stored in the first matching buffer, or counted as unmatched. -/
  | canFrameReceived (ch : Fin 2) (f : CanFrame) (stamp : Instant)
  /-- CAN_FRAME_TRANSMITTED (R403): A pending frame completes on the bus and is time-stamped. -/
  | canFrameTransmitted (ch : Fin 2) (b : Fin 64) (stamp : Instant)
  /-- CAN_ERROR_STATE_CHANGE (R410): Fault confinement changes the error state, and an event is raised. -/
  | canErrorStateChange (ch : Fin 2) (e : CanErrors)
  /-- CAN_BUS_OFF_RECOVERED (R411): 128 occurrences of 11 recessive bits end bus-off. -/
  | canBusOffRecovered (ch : Fin 2)
  /-- CAN_BO_RECOVER (R411): A write of BO_RECOVER starts bus-off recovery. -/
  | canBoRecover (p : Pkt) (ch : Fin 2) (value : Word)
  /-- CAN_TX_SEND (R403): TX_CMD send queues a transmit buffer. -/
  | canTxSend (p : Pkt) (ch : Fin 2) (value : Word)
  /-- CAN_TX_ABORT (R403): TX_CMD abort removes a pending frame before its start of frame. -/
  | canTxAbort (p : Pkt) (ch : Fin 2) (value : Word) (started : Bool)
  /-- CAN_BUF_SEL (R405): A write selects a buffer and releases any lock. -/
  | canBufSel (p : Pkt) (ch : Fin 2) (value : Word)
  /-- CAN_BUF_WINDOW_READ (R404): The first read of a receive buffer with NEW set locks it. -/
  | canBufWindowRead (p : Pkt) (ch : Fin 2) (w : Fin 22)
  /-- CAN_BUF_WORD21_READ (R404): A read of word 21 releases the lock, clears NEW and moves in a shadowed frame. -/
  | canBufWord21Read (p : Pkt) (ch : Fin 2)
  /-- CAN_LOCK_TIMEOUT (R405): 1 ms without a window read releases the lock. -/
  | canLockTimeout (ch : Fin 2)
  /-- CAN_BUF_COMMIT (R417): A write of 1 applies the staged buffer configuration at the next tick. -/
  | canBufCommit (p : Pkt) (ch : Fin 2) (value : Word)
  /-- CAN_AUTOBAUD_NOMINAL_DETECTED (R412): Two error-free frames detect the nominal rate and set its timings. -/
  | canAutobaudNominalDetected (ch : Fin 2) (r : Fin 5)
  /-- CAN_AUTOBAUD_DATA_DETECTED (R412): The first FD frame with BRS detects the data rate. -/
  | canAutobaudDataDetected (ch : Fin 2) (r : Fin 4)
  /-- CAN_AUTOBAUD_TIMEOUT (R412): AB_TIMEOUT passes without a detection, and the detection fails. -/
  | canAutobaudTimeout (ch : Fin 2)
  /-- CAN_INTEGRATION_COMPLETE (R413): A new grant holder completes its 11-bit integration and takes part in the bus. -/
  | canIntegrationComplete (ch : Fin 2)
  /-- CAN_CLEAR (R417): A write of 1 clears the CAN counters. -/
  | canClear (p : Pkt) (ch : Fin 2) (value : Word)
  /-- COLLAR_FAULT (R421): An access that is denied or unmapped faults: a read returns 0, a write is dropped and a bus error goes to the master. -/
  | collarFault (x : Access)
  /-- COLLAR_COMMIT (R425): Replaces all 16 rules of a collar at one edge, after its checks. -/
  | collarCommit (p : Pkt) (value : Word)
  /-- COLLAR_FENCE (R426): A write starts a fence on the named collars. -/
  | collarFence (p : Pkt) (value : Word)
  /-- FENCE_COMPLETE (R426): All accesses passed before the latest commit have completed. -/
  | fenceComplete (ns : Word)
  /-- FENCE_TIMEOUT (R426): A fence past its limit completes with a bus error. -/
  | fenceTimeout
  /-- COLLAR_CLEAR (R441): A write of 1 clears the collar counters. -/
  | collarClear (p : Pkt) (value : Word)
  /-- DMA_CH_ARM (R428): ARM loads the sleeve, which starts or follows the transfer. -/
  | dmaChArm (p : Pkt) (n : Fin 16) (value : Word)
  /-- DMA_TRANSFER_COMPLETE (R428): A transfer completes, and a loaded sleeve starts at once. -/
  | dmaTransferComplete (c : Fin 16)
  /-- DMA_BLOCK_BOUNDARY (R429): A continuous transfer passes a block of 2^BLOCK bytes. -/
  | dmaBlockBoundary (c : Fin 16)
  /-- DMA_BUS_ERROR (R431): A bus error halts all channels in ALL_HALT. -/
  | dmaBusError (e : DmaError)
  /-- DMA_DRAINED (R431): Issued writes have drained; DRAINED and HALT_INFO are set. -/
  | dmaDrained
  /-- DMA_RECOVER (R432): With the key, resumes the named channels and aborts the others. -/
  | dmaRecover (p : Pkt) (value : Word)
  /-- DMA_AUTO_RECOVER (R432): With AUTO_RECOVER set, CX2 recovers within 1 ms. -/
  | dmaAutoRecover
  /-- DMA_ABORT_CMD (R438): Aborts user channels and releases their claims. -/
  | dmaAbortCmd (p : Pkt) (value : Word)
  /-- DMA_CLEAR (R440): A write of 1 clears the DMA byte counts. -/
  | dmaClear (p : Pkt) (value : Word)
  /-- CUFF_TIMEOUT (R435): A transfer not taken within TIMEOUT ends with a bus error, and STOPPED is set. -/
  | cuffTimeout (n : Fin 12) (master : BitVec 6)
  /-- CUFF_SIDE_RESET (R436): A side entering reset flushes the queue with bus errors. -/
  | cuffSideReset (n : Fin 12) (fabricSide : Bool) (failed : Half)
  /-- CUFF_SIDE_RUNNING (R435): The silent side runs and acknowledges the flush, and STOPPED clears. -/
  | cuffSideRunning (n : Fin 12) (fabricSide : Bool)
  /-- CUFF_CLEAR (R442): A write of 1 clears the cuff statistics. -/
  | cuffClear (p : Pkt) (value : Word)
  /-- EVENT_RAISED (R450): An event with its snapshot enters the intake queue, or is dropped when the queue is full. -/
  | eventRaised (code source : Half)
  /-- EVENT_RECORDED (R451): An event from the queue is folded or made into a record, overwriting or dropping when the log is full. -/
  | eventRecorded
  /-- INTAKE_OVERFLOW_REPORT (R450): Once the queue has room after drops, event 0x7C04 is raised at most once per second. -/
  | intakeOverflowReport
  /-- PARTNER_RECORD_RECEIVED (R456): A forwarded partner record is stored as a PARTNER copy. -/
  | partnerRecordReceived (r : EventRecord)
  /-- EVR_CURSOR_WRITE (R458): A write of EVR.CURSOR sets the window cursor and loads the record copy. -/
  | evrCursorWrite (p : Pkt) (value : Word)
  /-- EVR_WIN_DATA_READ (R458): A read returns a window word, advances WIN_PTR and moves to the next record after word 31. -/
  | evrWinDataRead (p : Pkt)
  /-- EVR_SNAP_COMMIT (R449): Commits a snapshot list and increments its generation. -/
  | evrSnapCommit (p : Pkt) (value : Word)
  /-- EVR_FATAL_ACK (R459): Clearing EVR.ALARM.FATAL acknowledges the fatal records. -/
  | evrFatalAck (p : Pkt) (value : Word)
  /-- EVR_CLEAR_ALARMS (R462): A write to EVR.CLEAR clears INTAKE_MAX and the alarms. -/
  | evrClearAlarms (p : Pkt) (value : Word)
  /-- ID_LOCATE (R491): A write starts or ends the locate blinking for the seconds given. -/
  | idLocate (p : Pkt) (value : Word)
  /-- LOCATE_END (R491): The locate time runs out and the blinking stops. -/
  | locateEnd
  /-- PAIR_ID_SET (R253): With the key and Owner authority, writes the pair identity to the pair-base store. -/
  | pairIdSet (p : Pkt) (value : Word)
  /-- PAIR_ID_ADOPT (R254): A write of 0x4144 adopts the pair-base identity and ends SOLO_BLOCK. -/
  | pairIdAdopt (p : Pkt) (value : Word)
  /-- PAIR_CLEAR (R292): A write of 1 clears the PAIR counters. -/
  | pairClear (p : Pkt) (value : Word)
  /-- FRAME_CLEAR_TASK_STATS (R100): A write of FRAME.CLEAR [1] clears every TASK statistic. -/
  | frameClearTaskStats (p : Pkt) (value : Word)
  /-- FRAME_CLEAR_STATS (R100): A write of FRAME.CLEAR [0] clears the frame maxima and the histogram. -/
  | frameClearStats (p : Pkt) (value : Word)
  /-- FRAME_TACK_CLEAR (R100): A write of 1 clears the tack counters. -/
  | frameTackClear (p : Pkt) (value : Word)
  /-- IMG_CLEAR (R102): A write of 1 clears the image counters. -/
  | imgClear (p : Pkt) (value : Word)
  /-- TREF_REF_CLEAR (R347): A write of 1 clears a reference's counters and offset statistics. -/
  | trefRefClear (p : Pkt) (n : Fin 3) (value : Word)
  /-- PTP_PORT_CLEAR (R347): A write of 1 clears a PTP port's counters. -/
  | ptpPortClear (p : Pkt) (n : Fin 5) (value : Word)
  /-- PTP_COUNT_CLEAR (R347): A write to PTP.COUNT[15] clears the PTP message counters. -/
  | ptpCountClear (p : Pkt) (value : Word)
  /-- POWER_CLEAR (R530): A write of 1 clears the power minima, maxima and counters. -/
  | powerClear (p : Pkt) (value : Word)
  /-- PARTNER_PRESENCE_CHANGE (R501): The partner's presence line changes as its short contacts mate or break, setting or clearing PAIR.STATUS.PARTNER_PRESENT. -/
  | partnerPresenceChange (present : Bool)
  /-- CHANNEL_FAULT_CLEARED (R383): A current-loop THERMAL, SENSE_FAULT or SUPPLY_FAULT clears after its 1 s agreement time, and event 0x5806 is raised. -/
  | channelFaultCleared (n : Fin 8) (f : AoFault) (m : LoopMeasure)
  /-- INPUT_HIGH_WARNING (R530): The backplane input rises above 60.0 V but not into overvoltage, so IN_HIGH is set and event 0x0406 is raised. -/
  | inputHighWarning (mv : BitVec 17)
  /-- TRANSCEIVER_REMOVED (R489): A transceiver is pulled from its cage, and the port goes down and ID.SFP shows it absent. -/
  | transceiverRemoved (p : Fin 4)
  /-- DRAWER_OPENED (R527): The retention-cell drawer opens, counted in LINING.CELL_CHANGES while main power is off, and the supercapacitor bridges the lining. -/
  | drawerOpened
  /-- OVEN_WARM_UP_END (R508): The QC-880-1 oven reaches temperature, POWER.OVEN [31] is set and rail 7 falls from its warm-up draw. -/
  | ovenWarmUpEnd
  /-- MEMORY_ERROR (R278): A corrected or uncorrected memory error in DRAM or MRAM is logged, and a later self-check fails on it. -/
  | memoryError
  /-- MALFORMED_PACKET (R324): A datagram to port 23880 fails the checks of length, fragment, CRC, MAGIC, version, header or opcode, and is dropped silently or answered BAD_HEADER, BAD_LENGTH or UNKNOWN_OPCODE, with a count and an event. -/
  | malformedPacket (path : Path) (bytes : List Byte) (fragment : Bool) (mac : MacCheck)
  deriving DecidableEq, Repr

end Sys2Proof
end

