-- ==== Sys2Proof/Decode.lean ====
section
/-!
DEFINITION. The command a word of the opcode table spells. No row of spec/opcode_table.json gives any bits (each row's list of
fields is empty), so no word spells a command.
-/

namespace Sys2Proof

/-- The command spelt by the `nbits` bits `w`: none, since the table gives its rows no bits (notes/assumptions/6.md). -/
def decodeTableWord (nbits w : Nat) : Option Instr :=
  match nbits, w with
  | _, _ => none

end Sys2Proof
end

