-- ==== Sys2Proof/Machine/Bits.lean ====
section
/-!
DEFINITION. Bit fields of a register word, written [msb:lsb] with bit 0 the least significant (scope chapter,
"Notation"), and the plainest counters.
-/

namespace Sys2Proof.Machine

/-- The value of the field `[hi:lo]` of a word. -/
def fld (w : Word) (hi lo : Nat) : Nat := w.toNat / 2 ^ lo % 2 ^ (hi + 1 - lo)

/-- Bit `i` of a word. -/
def bit (w : Word) (i : Nat) : Bool := w.getLsbD i

/-- The word with ones in `[hi:lo]` and zeros elsewhere. -/
def maskOf (hi lo : Nat) : Word := BitVec.ofNat 32 ((2 ^ (hi + 1 - lo) - 1) * 2 ^ lo)

/-- The bits of `w` selected by `m` replaced by those of `v`. -/
def merge (m w v : Word) : Word := (w &&& ~~~m) ||| (v &&& m)

/-- The word with the field `[hi:lo]` set to `v` (modulo the width of the field). -/
def putFld (w : Word) (hi lo v : Nat) : Word :=
  merge (maskOf hi lo) w (BitVec.ofNat 32 (v * 2 ^ lo))

/-- The word with bit `i` set to `b`. -/
def putBit (w : Word) (i : Nat) (b : Bool) : Word :=
  if b then w ||| BitVec.ofNat 32 (2 ^ i) else w &&& ~~~(BitVec.ofNat 32 (2 ^ i))

/-- A counter kept modulo 2^32. -/
def wrapInc (w : Word) : Word := w + 1

/-- A 32-bit counter that saturates. -/
def satInc (w : Word) : Word := if w = BitVec.allOnes 32 then w else w + 1

/-- A field counter `[hi:lo]` that saturates at its largest value. -/
def satIncFld (w : Word) (hi lo : Nat) : Word :=
  let n := fld w hi lo
  if n + 1 < 2 ^ (hi + 1 - lo) then putFld w hi lo (n + 1) else w

/-- A number reduced to `n` when it is larger. -/
def satTo (n v : Nat) : Nat := if v ≤ n then v else n

/-- A number written into a 32-bit register, saturating. -/
def satWord (v : Nat) : Word := BitVec.ofNat 32 (satTo 0xFFFFFFFF v)

/-- A signed number in a 32-bit register, two's complement, saturating. -/
def satSigned (v : Int) : Word :=
  if v < -2147483648 then BitVec.ofNat 32 0x80000000
  else if 2147483647 < v then BitVec.ofNat 32 0x7FFFFFFF
  else BitVec.ofInt 32 v

/-- `true` as 1. -/
def b2n (b : Bool) : Nat := if b then 1 else 0

/-- The larger of two register values, read as unsigned numbers. -/
def maxWord (a b : Word) : Word := if a.toNat < b.toNat then b else a

end Sys2Proof.Machine
end

