-- ==== Sys2Proof/Machine/RegAddr.lean ====
section
/-!
DEFINITION. The register addresses of the register maps (Tables TB-10, TB-14, TB-15, FX-15 to FX-20, AQ-14, AQ-16, TG-11, TG-17,
LE-10, LS-5, PR-13, NW-6, NW-9, DI-8, AO-10, AO-13, CN-5, FB-7, FB-9, FB-11, EV-4, UP-7, UP-8, HW-9, PW-9, PW-11), under the manual's
own names. A register address is 16 bits: the block number in [15:8], the index in [7:0] (scope chapter, "Registers").
-/

namespace Sys2Proof.Machine.Reg

abbrev TB.TIME_SEC_HI : Nat := 0x1000
abbrev TB.TIME_SEC_LO : Nat := 0x1001
abbrev TB.TIME_NS : Nat := 0x1002
abbrev TB.TIME_FRAC : Nat := 0x1003
abbrev TB.STATUS : Nat := 0x1004
abbrev TB.CTRL : Nat := 0x1005
abbrev TB.RATE_CORR : Nat := 0x1006
abbrev TB.SLEW_LIMIT : Nat := 0x1007
abbrev TB.STEP_THRESH : Nat := 0x1008
abbrev TB.OFFSET : Nat := 0x1009
abbrev TB.UTC_OFFSET : Nat := 0x100A
abbrev TB.LEAP_CTRL : Nat := 0x100B
abbrev TB.HOLD_EST : Nat := 0x100C
abbrev TB.HOLD_BOUND : Nat := 0x100D
abbrev TB.HOLD_Y : Nat := 0x100E
abbrev TB.HOLD_A : Nat := 0x100F
abbrev TB.LOCK_CFG : Nat := 0x1010
abbrev TB.UNCERT : Nat := 0x1011
abbrev TB.PAIR_OFFSET : Nat := 0x1012
abbrev TB.PAIR_DELAY : Nat := 0x1013
abbrev TB.STEP_COUNT : Nat := 0x1014
abbrev TB.LAST_STEP_SEC : Nat := 0x1015
abbrev TB.LAST_STEP_NS : Nat := 0x1016
abbrev TB.JUMP_CONFIRM : Nat := 0x1017
abbrev TB.ALARM : Nat := 0x1018
abbrev TB.RESTEP : Nat := 0x1019
abbrev TB.SERVO_STAT (n : Nat) : Nat := 0x101A + n
abbrev TB.CAP_CTRL (n : Nat) : Nat := 0x1020 + 4 * n
abbrev TB.CAP_SEC (n : Nat) : Nat := 0x1021 + 4 * n
abbrev TB.CAP_NS (n : Nat) : Nat := 0x1022 + 4 * n
abbrev TB.CAP_FRAC (n : Nat) : Nat := 0x1023 + 4 * n
abbrev TREF.CTRL : Nat := 0x1200
abbrev TREF.PRIO : Nat := 0x1201
abbrev TREF.STATUS : Nat := 0x1202
abbrev TREF.QUAL_TIME : Nat := 0x1203
abbrev TREF.WTR : Nat := 0x1204
abbrev TREF.PPS_CFG : Nat := 0x1205
abbrev TREF.PPS_DELAY : Nat := 0x1206
abbrev TREF.IRIG_CFG : Nat := 0x1207
abbrev TREF.IRIG_DELAY : Nat := 0x1208
abbrev TREF.TOD_ERRORS : Nat := 0x1209
abbrev TREF.IRIG_ERRORS : Nat := 0x120A
abbrev TREF.SWITCH_COUNT : Nat := 0x120B
abbrev TREF.LAST_SWITCH_SEC : Nat := 0x120C
abbrev TREF.TIMESOURCE : Nat := 0x120D
abbrev TREF.TOD_LAST_FLAGS : Nat := 0x120E
abbrev TREF.IRIG_LAST_CF : Nat := 0x120F
abbrev TREF.REF_OFFSET (n : Nat) : Nat := 0x1210 + 16 * n
abbrev TREF.REF_SEC_HI (n : Nat) : Nat := 0x1211 + 16 * n
abbrev TREF.REF_SEC_LO (n : Nat) : Nat := 0x1212 + 16 * n
abbrev TREF.REF_NS (n : Nat) : Nat := 0x1213 + 16 * n
abbrev TREF.REF_STATE (n : Nat) : Nat := 0x1214 + 16 * n
abbrev TREF.REF_VALID (n : Nat) : Nat := 0x1215 + 16 * n
abbrev TREF.REF_INVALID (n : Nat) : Nat := 0x1216 + 16 * n
abbrev TREF.REF_JUMPS (n : Nat) : Nat := 0x1217 + 16 * n
abbrev TREF.REF_MAX_OFS (n : Nat) : Nat := 0x1218 + 16 * n
abbrev TREF.REF_RMS_OFS (n : Nat) : Nat := 0x1219 + 16 * n
abbrev TREF.REF_UTC_RX (n : Nat) : Nat := 0x121A + 16 * n
abbrev TREF.REF_LEAP_RX (n : Nat) : Nat := 0x121B + 16 * n
abbrev TREF.REF_CLASS_RX (n : Nat) : Nat := 0x121C + 16 * n
abbrev TREF.REF_LAST_VALID (n : Nat) : Nat := 0x121D + 16 * n
abbrev TREF.REF_REMAIN (n : Nat) : Nat := 0x121E + 16 * n
abbrev TREF.REF_CLEAR (n : Nat) : Nat := 0x121F + 16 * n
abbrev PTP.CTRL : Nat := 0x1100
abbrev PTP.DOMAIN : Nat := 0x1101
abbrev PTP.PRIORITY : Nat := 0x1102
abbrev PTP.CLOCK_QUALITY : Nat := 0x1103
abbrev PTP.TIME_SOURCE : Nat := 0x1104
abbrev PTP.INTERVALS : Nat := 0x1105
abbrev PTP.ANN_TIMEOUT : Nat := 0x1106
abbrev PTP.VLAN : Nat := 0x1107
abbrev PTP.GM_ID : Nat := 0x1108
abbrev PTP.CLOCK_ID_HI : Nat := 0x1109
abbrev PTP.CLOCK_ID_LO : Nat := 0x110A
abbrev PTP.GM_CLOCK_ID_HI : Nat := 0x110B
abbrev PTP.GM_CLOCK_ID_LO : Nat := 0x110C
abbrev PTP.STEPS_REMOVED : Nat := 0x110D
abbrev PTP.SLAVE_PORT : Nat := 0x110E
abbrev PTP.TOTAL_INACC : Nat := 0x110F
abbrev PTP.FM_ID_HI (n : Nat) : Nat := 0x1110 + 4 * n
abbrev PTP.FM_ID_LO (n : Nat) : Nat := 0x1111 + 4 * n
abbrev PTP.FM_QUALITY (n : Nat) : Nat := 0x1112 + 4 * n
abbrev PTP.FM_INFO (n : Nat) : Nat := 0x1113 + 4 * n
abbrev PTP.COUNT (n : Nat) : Nat := 0x1120 + n
abbrev PTP.PORT_CFG (n : Nat) : Nat := 0x1130 + 16 * n
abbrev PTP.PORT_STATE (n : Nat) : Nat := 0x1131 + 16 * n
abbrev PTP.MEAN_LINK_DELAY (n : Nat) : Nat := 0x1132 + 16 * n
abbrev PTP.NRR (n : Nat) : Nat := 0x1133 + 16 * n
abbrev PTP.DELAY_ASYM (n : Nat) : Nat := 0x1134 + 16 * n
abbrev PTP.INGRESS_LAT (n : Nat) : Nat := 0x1135 + 16 * n
abbrev PTP.EGRESS_LAT (n : Nat) : Nat := 0x1136 + 16 * n
abbrev PTP.TX_SYNC (n : Nat) : Nat := 0x1137 + 16 * n
abbrev PTP.TX_ANN (n : Nat) : Nat := 0x1138 + 16 * n
abbrev PTP.TX_PDELAY (n : Nat) : Nat := 0x1139 + 16 * n
abbrev PTP.RX_SYNC (n : Nat) : Nat := 0x113A + 16 * n
abbrev PTP.RX_ANN (n : Nat) : Nat := 0x113B + 16 * n
abbrev PTP.RX_PDELAY (n : Nat) : Nat := 0x113C + 16 * n
abbrev PTP.RX_DISCARD (n : Nat) : Nat := 0x113D + 16 * n
abbrev PTP.TS_FAULT (n : Nat) : Nat := 0x113E + 16 * n
abbrev PTP.PORT_CLEAR (n : Nat) : Nat := 0x113F + 16 * n
abbrev MODE.STATUS : Nat := 0x0100
abbrev MODE.REQUEST : Nat := 0x0101
abbrev MODE.CFG : Nat := 0x0102
abbrev MODE.SAFE_CAUSE : Nat := 0x0103
abbrev MODE.PEND_SEC : Nat := 0x0104
abbrev MODE.PEND_NS : Nat := 0x0105
abbrev MODE.LAST_SEC : Nat := 0x0106
abbrev MODE.LAST_NS : Nat := 0x0107
abbrev MODE.CHANGE_COUNT : Nat := 0x0108
abbrev MODE.OVR_INFO : Nat := 0x0109
abbrev MODE.OVR_INDEX : Nat := 0x010A
abbrev MODE.WD_CFG : Nat := 0x010B
abbrev MODE.HEM_STATE : Nat := 0x010C
abbrev MODE.RUN_SECONDS : Nat := 0x010D
abbrev MODE.REFUSALS : Nat := 0x010E
abbrev MODE.HIST_PTR : Nat := 0x010F
abbrev MODE.HIST_INFO (n : Nat) : Nat := 0x0110 + 2 * n
abbrev MODE.HIST_TIME (n : Nat) : Nat := 0x0111 + 2 * n
abbrev FRAME.STATUS : Nat := 0x2000
abbrev FRAME.INDEX : Nat := 0x2001
abbrev FRAME.SEAM_END_MAX : Nat := 0x2002
abbrev FRAME.UNAGREED_COUNT : Nat := 0x2003
abbrev FRAME.COMPUTE_END_MAX (n : Nat) : Nat := 0x2004 + n
abbrev FRAME.LONG_FRAMES : Nat := 0x2006
abbrev FRAME.CLEAR : Nat := 0x2007
abbrev FRAME.CYCLE_IDX (n : Nat) : Nat := 0x2008 + n
abbrev FRAME.UTIL_ADMIT : Nat := 0x200E
abbrev FRAME.UTIL_MEAS : Nat := 0x200F
abbrev FRAME.TACK_STATUS : Nat := 0x2010
abbrev FRAME.TACK_LEAD : Nat := 0x2011
abbrev FRAME.TACK_NEXT_ID : Nat := 0x2012
abbrev FRAME.TACK_NEXT_SEC : Nat := 0x2013
abbrev FRAME.TACK_NEXT_NS : Nat := 0x2014
abbrev FRAME.TACK_EXECUTED : Nat := 0x2015
abbrev FRAME.TACK_LATE : Nat := 0x2016
abbrev FRAME.TACK_DROPPED : Nat := 0x2017
abbrev FRAME.TACK_REFUSED : Nat := 0x2018
abbrev FRAME.TACK_DISCARDED : Nat := 0x2019
abbrev FRAME.TACK_MAX_LAG : Nat := 0x201A
abbrev FRAME.TACK_CONFLICTS : Nat := 0x201B
abbrev FRAME.TACK_CANCELLED : Nat := 0x201C
abbrev FRAME.TACK_LAST_LATE_ID : Nat := 0x201D
abbrev FRAME.TACK_LAST_LATE_NS : Nat := 0x201E
abbrev FRAME.TACK_CLEAR : Nat := 0x201F
abbrev FRAME.HIST (a : Nat) (b : Nat) : Nat := 0x2020 + 16 * a + b
abbrev TASK.CFG (n : Nat) : Nat := 0x2100 + 8 * n
abbrev TASK.BUDGET (n : Nat) : Nat := 0x2101 + 8 * n
abbrev TASK.INTERARRIVAL (n : Nat) : Nat := 0x2102 + 8 * n
abbrev TASK.LAST (n : Nat) : Nat := 0x2103 + 8 * n
abbrev TASK.MAX (n : Nat) : Nat := 0x2104 + 8 * n
abbrev TASK.RESP_MAX (n : Nat) : Nat := 0x2105 + 8 * n
abbrev TASK.RELEASES (n : Nat) : Nat := 0x2106 + 8 * n
abbrev TASK.FAULTS (n : Nat) : Nat := 0x2107 + 8 * n
abbrev IMG.STATUS : Nat := 0x2200
abbrev IMG.ADMIT_RESULT : Nat := 0x2201
abbrev IMG.ADMIT_VALUE : Nat := 0x2202
abbrev IMG.ADMIT_LIMIT : Nat := 0x2203
abbrev IMG.UTIL_LIMIT : Nat := 0x2204
abbrev IMG.LOAD_COUNT : Nat := 0x2205
abbrev IMG.REFUSE_COUNT : Nat := 0x2206
abbrev IMG.SWITCH_COUNT : Nat := 0x2207
abbrev IMG.POINTS : Nat := 0x2208
abbrev IMG.PI_SIZE : Nat := 0x2209
abbrev IMG.RET_SIZE : Nat := 0x220A
abbrev IMG.STATIONS : Nat := 0x220B
abbrev IMG.SIGNER : Nat := 0x220C
abbrev IMG.SAFETY : Nat := 0x220D
abbrev IMG.CORE_MAP : Nat := 0x220E
abbrev IMG.CLEAR : Nat := 0x220F
abbrev IMG.B_STATE (n : Nat) : Nat := 0x2210 + 16 * n
abbrev IMG.B_SIZE (n : Nat) : Nat := 0x2211 + 16 * n
abbrev IMG.B_VER (n : Nat) : Nat := 0x2212 + 16 * n
abbrev IMG.B_RTK_IF (n : Nat) : Nat := 0x2213 + 16 * n
abbrev IMG.B_BUILD (n : Nat) : Nat := 0x2214 + 16 * n
abbrev IMG.B_DIGEST (a : Nat) (b : Nat) : Nat := 0x2215 + 16 * a + b
abbrev IMG.B_TASKS (n : Nat) : Nat := 0x221D + 16 * n
abbrev IMG.B_UTIL (n : Nat) : Nat := 0x221E + 16 * n
abbrev IMG.B_ID (n : Nat) : Nat := 0x221F + 16 * n
abbrev IMG.RESP (n : Nat) : Nat := 0x2230 + n
abbrev ACQ.STATUS : Nat := 0x3000
abbrev ACQ.CFG : Nat := 0x3001
abbrev ACQ.RAW_SHARE : Nat := 0x3002
abbrev ACQ.RAW_HEAD_SEC : Nat := 0x3003
abbrev ACQ.RAW_HEAD_IDX : Nat := 0x3004
abbrev ACQ.RAW_TAIL_SEC : Nat := 0x3005
abbrev ACQ.RAW_TAIL_IDX : Nat := 0x3006
abbrev ACQ.ERRORS : Nat := 0x3007
abbrev ACQ.AFE_INFO : Nat := 0x3008
abbrev ACQ.AFE_TEMP : Nat := 0x3009
abbrev ACQ.PHA_USE : Nat := 0x300A
abbrev ACQ.SV_USE : Nat := 0x300B
abbrev ACQ.CONFLICT : Nat := 0x300C
abbrev ACQ.SV_RX_COUNT : Nat := 0x300D
abbrev ACQ.SV_ERR_COUNT : Nat := 0x300E
abbrev ACQ.CLEAR : Nat := 0x300F
abbrev ACQ.PMU_SEL : Nat := 0x3010
abbrev ACQ.PMU_WIN (n : Nat) : Nat := 0x3011 + n
abbrev ACQ.PMU_COMMIT : Nat := 0x301F
abbrev ACQ.SV_SEL : Nat := 0x3020
abbrev ACQ.SV_WIN (n : Nat) : Nat := 0x3021 + n
abbrev ACQ.SV_COMMIT : Nat := 0x302F
abbrev ACQ.PMU_STATE (n : Nat) : Nat := 0x3030 + n
abbrev ACH.CFG (n : Nat) : Nat := 0x3100 + 256 * n
abbrev ACH.RATIO (n : Nat) : Nat := 0x3101 + 256 * n
abbrev ACH.EXT_DELAY (n : Nat) : Nat := 0x3102 + 256 * n
abbrev ACH.CYC_CFG (n : Nat) : Nat := 0x3103 + 256 * n
abbrev ACH.PHA_CFG (n : Nat) : Nat := 0x3104 + 256 * n
abbrev ACH.TWE_CFG (n : Nat) : Nat := 0x3105 + 256 * n
abbrev ACH.TWE_THRESH (n : Nat) : Nat := 0x3106 + 256 * n
abbrev ACH.STATUS (n : Nat) : Nat := 0x3107 + 256 * n
abbrev ACH.ALARM (n : Nat) : Nat := 0x3108 + 256 * n
abbrev ACH.TOTAL_DELAY (n : Nat) : Nat := 0x3109 + 256 * n
abbrev ACH.AFE_GAIN (n : Nat) : Nat := 0x310A + 256 * n
abbrev ACH.AFE_OFFSET (n : Nat) : Nat := 0x310B + 256 * n
abbrev ACH.AFE_DELAY (n : Nat) : Nat := 0x310C + 256 * n
abbrev ACH.AFE_TW_DELAY (n : Nat) : Nat := 0x310D + 256 * n
abbrev ACH.AFE_TC (n : Nat) : Nat := 0x310E + 256 * n
abbrev ACH.RAW_LAST (n : Nat) : Nat := 0x310F + 256 * n
abbrev ACH.OVR_COUNT (n : Nat) : Nat := 0x3110 + 256 * n
abbrev ACH.DEC_HEAD (n : Nat) : Nat := 0x3111 + 256 * n
abbrev ACH.WAV_HEAD (n : Nat) : Nat := 0x3112 + 256 * n
abbrev ACH.CYC_HEAD (n : Nat) : Nat := 0x3113 + 256 * n
abbrev ACH.PHA_HEAD (n : Nat) : Nat := 0x3114 + 256 * n
abbrev ACH.TWE_HEAD (n : Nat) : Nat := 0x3115 + 256 * n
abbrev ACH.TWE_LOST (n : Nat) : Nat := 0x3116 + 256 * n
abbrev ACH.TWE_SEL (n : Nat) : Nat := 0x3117 + 256 * n
abbrev ACH.TWE_WIN (a : Nat) (b : Nat) : Nat := 0x3118 + 256 * a + b
abbrev ACH.CYC_SEL (n : Nat) : Nat := 0x3120 + 256 * n
abbrev ACH.CYC_WIN (a : Nat) (b : Nat) : Nat := 0x3121 + 256 * a + b
abbrev ACH.PHA_SEL (n : Nat) : Nat := 0x3129 + 256 * n
abbrev ACH.PHA_WIN (a : Nat) (b : Nat) : Nat := 0x312A + 256 * a + b
abbrev ACH.SETTLE_SEC (n : Nat) : Nat := 0x3132 + 256 * n
abbrev ACH.CLEAR (n : Nat) : Nat := 0x3133 + 256 * n
abbrev ACH.ITEM (a : Nat) (b : Nat) : Nat := 0x3134 + 256 * a + b
abbrev TRG.STATUS : Nat := 0x4000
abbrev TRG.CTRL : Nat := 0x4001
abbrev TRG.FLAGS : Nat := 0x4002
abbrev TRG.TL_CFG : Nat := 0x4003
abbrev TRG.TL_STATE : Nat := 0x4004
abbrev TRG.FIRE_COUNT : Nat := 0x4005
abbrev TRG.LAST_FIRE : Nat := 0x4006
abbrev TRG.LAST_SEC : Nat := 0x4007
abbrev TRG.LAST_NS : Nat := 0x4008
abbrev TRG.LAST_FRAC : Nat := 0x4009
abbrev TRG.ALARM : Nat := 0x400A
abbrev TRG.REC_STATUS : Nat := 0x400B
abbrev TRG.REC_NEXT : Nat := 0x400C
abbrev TRG.REC_LOST : Nat := 0x400D
abbrev TRG.REC_MANUAL : Nat := 0x400E
abbrev TRG.CLEAR : Nat := 0x400F
abbrev TRG.U_CFG (n : Nat) : Nat := 0x4010 + 4 * n
abbrev TRG.U_LEVEL (n : Nat) : Nat := 0x4011 + 4 * n
abbrev TRG.U_TIME_A (n : Nat) : Nat := 0x4012 + 4 * n
abbrev TRG.U_TIME_B (n : Nat) : Nat := 0x4013 + 4 * n
abbrev TRG.PAT_SEL : Nat := 0x4090
abbrev TRG.PAT_WIN (n : Nat) : Nat := 0x4091 + n
abbrev TRG.PAT_COMMIT : Nat := 0x40A4
abbrev TRG.REC_SEL : Nat := 0x40A5
abbrev TRG.REC_WIN (n : Nat) : Nat := 0x40A6 + n
abbrev TRG.REC_COMMIT : Nat := 0x40B1
abbrev TRG.FL_SEL : Nat := 0x40B2
abbrev TRG.FL_WIN (n : Nat) : Nat := 0x40B3 + n
abbrev TRG.FL_COMMIT : Nat := 0x40BB
abbrev TRG.FL_LAST_INFO : Nat := 0x40BC
abbrev TRG.FL_LAST_DIST : Nat := 0x40BD
abbrev TRG.FL_LAST_UNC : Nat := 0x40BE
abbrev TRG.FL_LAST_SEC : Nat := 0x40BF
abbrev TDC.STATUS : Nat := 0x4100
abbrev TDC.CTRL : Nat := 0x4101
abbrev TDC.EN_LO : Nat := 0x4102
abbrev TDC.EN_HI : Nat := 0x4103
abbrev TDC.CAL_CFG : Nat := 0x4104
abbrev TDC.CAL_AGE : Nat := 0x4105
abbrev TDC.LSB_MEAS : Nat := 0x4106
abbrev TDC.PREC_MEAS : Nat := 0x4107
abbrev TDC.INL_MAX : Nat := 0x4108
abbrev TDC.TEMP : Nat := 0x4109
abbrev TDC.ALARM : Nat := 0x410A
abbrev TDC.EVENTS : Nat := 0x410B
abbrev TDC.LOST : Nat := 0x410C
abbrev TDC.IN_SEL : Nat := 0x410D
abbrev TDC.IN_DELAY : Nat := 0x410E
abbrev TDC.IN_COUNT : Nat := 0x410F
abbrev TDC.IN_LAST_SEC : Nat := 0x4110
abbrev TDC.IN_LAST_NS : Nat := 0x4111
abbrev TDC.IN_LAST_FRAC : Nat := 0x4112
abbrev TDC.TL_MON_SEL : Nat := 0x4113
abbrev TDC.FIFO_CFG : Nat := 0x4114
abbrev TDC.FIFO_STATUS : Nat := 0x4115
abbrev TDC.FIFO_SEC : Nat := 0x4116
abbrev TDC.FIFO_NS : Nat := 0x4117
abbrev TDC.FIFO_FRAC : Nat := 0x4118
abbrev TDC.CLEAR : Nat := 0x4119
abbrev TDC.GRP_COUNT (n : Nat) : Nat := 0x411A + n
abbrev LOOP.STATUS : Nat := 0x4800
abbrev LOOP.CTRL : Nat := 0x4801
abbrev LOOP.SEL : Nat := 0x4802
abbrev LOOP.COMMIT : Nat := 0x4803
abbrev LOOP.WIN (n : Nat) : Nat := 0x4804 + n
abbrev LOOP.COMMIT_RESULT : Nat := 0x4814
abbrev LOOP.CONFLICT : Nat := 0x4815
abbrev LOOP.ALARM : Nat := 0x4816
abbrev LOOP.EVAL_END : Nat := 0x4817
abbrev LOOP.EVAL_END_MAX : Nat := 0x4818
abbrev LOOP.LANE_COUNT : Nat := 0x4819
abbrev LOOP.EVALS : Nat := 0x481A
abbrev LOOP.IN_FAULTS : Nat := 0x481B
abbrev LOOP.STATE_FAULTS : Nat := 0x481C
abbrev LOOP.SAT_EVALS : Nat := 0x481D
abbrev LOOP.CLEAR : Nat := 0x481E
abbrev LOOP.HEM_STATE : Nat := 0x481F
abbrev LOOP.ND_SLOT : Nat := 0x4820
abbrev LOOP.ND_F0 : Nat := 0x4821
abbrev LOOP.ND_WIDTH : Nat := 0x4822
abbrev LOOP.ND_DEPTH : Nat := 0x4823
abbrev LOOP.ND_CMD : Nat := 0x4824
abbrev LOOP.ND_STATUS : Nat := 0x4825
abbrev LOOP.ND_COEF (n : Nat) : Nat := 0x4826 + n
abbrev LOOP.ND_FLAGS : Nat := 0x482B
abbrev LOOP.ND_ACH_F0 : Nat := 0x482C
abbrev LOOP.ND_ACH_DEPTH : Nat := 0x482D
abbrev LOOP.ND_ACH_WIDTH : Nat := 0x482E
abbrev LOOP.ND_RATE : Nat := 0x482F
abbrev LOOP.ACTIVE (n : Nat) : Nat := 0x4830 + n
abbrev LOOP.FAULT (n : Nat) : Nat := 0x4838 + n
abbrev LOOP.SATUR (n : Nat) : Nat := 0x4840 + n
abbrev LOOP.LANE_END (n : Nat) : Nat := 0x4848 + n
abbrev LOOP.FP_OUT (n : Nat) : Nat := 0x484C + n
abbrev LOOP.BOUND_MAX : Nat := 0x485C
abbrev LOOP.BOUND_SLOT : Nat := 0x485D
abbrev LOOP.COMMITS : Nat := 0x485E
abbrev LOOP.REV : Nat := 0x485F
abbrev LOCK.STATUS : Nat := 0x0300
abbrev LOCK.CFG : Nat := 0x0301
abbrev LOCK.BOOT_SPLIT : Nat := 0x0302
abbrev LOCK.HOLD_PAIRS : Nat := 0x0303
abbrev LOCK.FAULT : Nat := 0x0304
abbrev LOCK.FAULT_SEC : Nat := 0x0305
abbrev LOCK.FAULT_NS : Nat := 0x0306
abbrev LOCK.FAULT_CYCLE : Nat := 0x0307
abbrev LOCK.FAULT_PC : Nat := 0x0308
abbrev LOCK.FAULT_BITS : Nat := 0x0309
abbrev LOCK.RESTARTS : Nat := 0x030A
abbrev LOCK.RESTART_WINDOW : Nat := 0x030B
abbrev LOCK.TEST_STATUS : Nat := 0x030C
abbrev LOCK.TEST_RUN : Nat := 0x030D
abbrev LOCK.DEBUG_INFO : Nat := 0x030E
abbrev LOCK.CLEAR : Nat := 0x030F
abbrev LOCK.LANE_FAULT (a : Nat) (b : Nat) : Nat := 0x0310 + 8 * a + b
abbrev LOCK.TEST_FAIL (a : Nat) (b : Nat) : Nat := 0x0314 + 8 * a + b
abbrev LOCK.EVT_LAT_MAX (n : Nat) : Nat := 0x0330 + 4 * n
abbrev LOCK.EVT_COUNT (n : Nat) : Nat := 0x0331 + 4 * n
abbrev LOCK.BG_ROUNDS (n : Nat) : Nat := 0x0332 + 4 * n
abbrev LOCK.DEV_READS (n : Nat) : Nat := 0x0333 + 4 * n
abbrev PAIR.STATUS : Nat := 0x0200
abbrev PAIR.CFG : Nat := 0x0201
abbrev PAIR.ID : Nat := 0x0202
abbrev PAIR.ID_SET : Nat := 0x0203
abbrev PAIR.ID_ADOPT : Nat := 0x0204
abbrev PAIR.PARTNER : Nat := 0x0205
abbrev PAIR.PARTNER_VER : Nat := 0x0206
abbrev PAIR.SOLO_WAIT : Nat := 0x0207
abbrev PAIR.OUT_CAUSE : Nat := 0x0208
abbrev PAIR.YOKE : Nat := 0x0209
abbrev PAIR.PATHS : Nat := 0x020A
abbrev PAIR.TANDEM_MISSES : Nat := 0x020B
abbrev PAIR.PULSE_MISSES : Nat := 0x020C
abbrev PAIR.DEGRADED_COUNT : Nat := 0x020D
abbrev PAIR.DIGEST_CFG : Nat := 0x020E
abbrev PAIR.DIGEST_OWN_HI : Nat := 0x020F
abbrev PAIR.DIGEST_OWN_LO : Nat := 0x0210
abbrev PAIR.DIGEST_PEER_HI : Nat := 0x0211
abbrev PAIR.DIGEST_PEER_LO : Nat := 0x0212
abbrev PAIR.DIGEST_MISMATCH : Nat := 0x0213
abbrev PAIR.MUTE : Nat := 0x0214
abbrev PAIR.SELFCHECK : Nat := 0x0215
abbrev PAIR.SEAM_LATE : Nat := 0x0216
abbrev PAIR.SEAM_DIFF : Nat := 0x0217
abbrev PAIR.RX_COPIED : Nat := 0x0218
abbrev PAIR.RX_CONFLICT : Nat := 0x0219
abbrev PAIR.HO_STATUS : Nat := 0x021A
abbrev PAIR.HO_TICK_SEC : Nat := 0x021B
abbrev PAIR.HO_TICK_NS : Nat := 0x021C
abbrev PAIR.FAILOVERS : Nat := 0x021D
abbrev PAIR.HANDOVERS : Nat := 0x021E
abbrev PAIR.TAKEOVER_INFO : Nat := 0x021F
abbrev PAIR.TAKEOVER_SEC : Nat := 0x0220
abbrev PAIR.TAKEOVER_NS : Nat := 0x0221
abbrev PAIR.ROLE_REQ : Nat := 0x0222
abbrev PAIR.TRACK_STATUS : Nat := 0x0223
abbrev PAIR.TRACK_CFG : Nat := 0x0224
abbrev PAIR.TRACK_TOTAL : Nat := 0x0225
abbrev PAIR.TRACK_DONE : Nat := 0x0226
abbrev PAIR.TRACK_DIRTY : Nat := 0x0227
abbrev PAIR.MIRROR_LAST : Nat := 0x0228
abbrev PAIR.MIRROR_MAX : Nat := 0x0229
abbrev PAIR.MIRROR_OVF : Nat := 0x022A
abbrev PAIR.JOIN_SEC : Nat := 0x022B
abbrev PAIR.JOIN_NS : Nat := 0x022C
abbrev PAIR.TRACK_FAILS : Nat := 0x022D
abbrev PAIR.PB_INFO : Nat := 0x022E
abbrev PAIR.CLEAR : Nat := 0x022F
abbrev PAIR.HIST_INFO (n : Nat) : Nat := 0x0230 + 2 * n
abbrev PAIR.HIST_TIME (n : Nat) : Nat := 0x0231 + 2 * n
abbrev PAIR.LANE0 (n : Nat) : Nat := 0x0240 + 8 * n
abbrev PAIR.LANE1 (n : Nat) : Nat := 0x0241 + 8 * n
abbrev PAIR.LANE2 (n : Nat) : Nat := 0x0242 + 8 * n
abbrev PAIR.LANE3 (n : Nat) : Nat := 0x0243 + 8 * n
abbrev PAIR.LANE4 (n : Nat) : Nat := 0x0244 + 8 * n
abbrev PAIR.LANE5 (n : Nat) : Nat := 0x0245 + 8 * n
abbrev PAIR.LANE6 (n : Nat) : Nat := 0x0246 + 8 * n
abbrev PAIR.LANE7 (n : Nat) : Nat := 0x0247 + 8 * n
abbrev PAIR.CLASS_KB (n : Nat) : Nat := 0x0250 + 2 * n
abbrev PAIR.CLASS_DROPS (n : Nat) : Nat := 0x0251 + 2 * n
abbrev NET.STATUS : Nat := 0x6000
abbrev NET.CFG : Nat := 0x6001
abbrev NET.QSP_CFG : Nat := 0x6002
abbrev NET.QSP_TIMING : Nat := 0x6003
abbrev NET.PAIR_IP : Nat := 0x6004
abbrev NET.PAIR_MAC_HI : Nat := 0x6005
abbrev NET.PAIR_MAC_LO : Nat := 0x6006
abbrev NET.BEACON_CFG : Nat := 0x6007
abbrev NET.GOOSE_CFG : Nat := 0x6008
abbrev NET.QSP_LOAD : Nat := 0x6009
abbrev NET.QSP_LOAD_ADMIT : Nat := 0x600A
abbrev NET.ST_REFUSED : Nat := 0x600B
abbrev NET.ST_LAST_REFUSE : Nat := 0x600C
abbrev NET.QSP_LATE : Nat := 0x600D
abbrev NET.ALARM : Nat := 0x600E
abbrev NET.CLEAR : Nat := 0x600F
abbrev NET.PORT_CFG (n : Nat) : Nat := 0x6010 + 8 * n
abbrev NET.PORT_STATUS (n : Nat) : Nat := 0x6011 + 8 * n
abbrev NET.PORT_IP (n : Nat) : Nat := 0x6012 + 8 * n
abbrev NET.PORT_GW (n : Nat) : Nat := 0x6013 + 8 * n
abbrev NET.RX_FRAMES (n : Nat) : Nat := 0x6014 + 8 * n
abbrev NET.TX_FRAMES (n : Nat) : Nat := 0x6015 + 8 * n
abbrev NET.RX_ERRORS (n : Nat) : Nat := 0x6016 + 8 * n
abbrev NET.RX_DISCARD (n : Nat) : Nat := 0x6017 + 8 * n
abbrev NET.ST_SEL : Nat := 0x6038
abbrev NET.ST_WIN (n : Nat) : Nat := 0x6039 + n
abbrev NET.ST_COMMIT : Nat := 0x603F
abbrev NET.GO_SEL : Nat := 0x6040
abbrev NET.GO_WIN (n : Nat) : Nat := 0x6041 + n
abbrev NET.GO_COMMIT : Nat := 0x605F
abbrev NET.ST_BOUND (n : Nat) : Nat := 0x6060 + n
abbrev PRP.STATUS : Nat := 0x6100
abbrev PRP.CFG : Nat := 0x6101
abbrev PRP.SUP_CFG : Nat := 0x6102
abbrev PRP.DD_CFG : Nat := 0x6103
abbrev PRP.LAN_TIMEOUT : Nat := 0x6104
abbrev PRP.ALARM : Nat := 0x6105
abbrev PRP.CLEAR : Nat := 0x6106
abbrev PRP.NODE_SEL : Nat := 0x6107
abbrev PRP.NODE_MAC_HI : Nat := 0x6108
abbrev PRP.NODE_MAC_LO : Nat := 0x6109
abbrev PRP.NODE_INFO : Nat := 0x610A
abbrev PRP.NODE_AGE : Nat := 0x610B
abbrev PRP.VERSION : Nat := 0x610C
abbrev PRP.HSR_STATE : Nat := 0x610D
abbrev PRP.TAG_ERRORS : Nat := 0x610E
abbrev PRP.LAST_CHANGE : Nat := 0x610F
abbrev PRP.NET_STATUS (n : Nat) : Nat := 0x6110 + 24 * n
abbrev PRP.TX_A (n : Nat) : Nat := 0x6111 + 24 * n
abbrev PRP.TX_B (n : Nat) : Nat := 0x6112 + 24 * n
abbrev PRP.RX_A (n : Nat) : Nat := 0x6113 + 24 * n
abbrev PRP.RX_B (n : Nat) : Nat := 0x6114 + 24 * n
abbrev PRP.ERR_WRONG_LAN_A (n : Nat) : Nat := 0x6115 + 24 * n
abbrev PRP.ERR_WRONG_LAN_B (n : Nat) : Nat := 0x6116 + 24 * n
abbrev PRP.ERR_A (n : Nat) : Nat := 0x6117 + 24 * n
abbrev PRP.ERR_B (n : Nat) : Nat := 0x6118 + 24 * n
abbrev PRP.UNIQUE_A (n : Nat) : Nat := 0x6119 + 24 * n
abbrev PRP.UNIQUE_B (n : Nat) : Nat := 0x611A + 24 * n
abbrev PRP.DUPLICATE (n : Nat) : Nat := 0x611B + 24 * n
abbrev PRP.MULTI (n : Nat) : Nat := 0x611C + 24 * n
abbrev PRP.DD_OVERFLOW (n : Nat) : Nat := 0x611D + 24 * n
abbrev PRP.NODES (n : Nat) : Nat := 0x611E + 24 * n
abbrev PRP.NODE_OVF (n : Nat) : Nat := 0x611F + 24 * n
abbrev PRP.SAN_A (n : Nat) : Nat := 0x6120 + 24 * n
abbrev PRP.SAN_B (n : Nat) : Nat := 0x6121 + 24 * n
abbrev PRP.HSR_FWD (n : Nat) : Nat := 0x6122 + 24 * n
abbrev PRP.HSR_OWN (n : Nat) : Nat := 0x6123 + 24 * n
abbrev PRP.SUP_RX (n : Nat) : Nat := 0x6124 + 24 * n
abbrev PRP.SUP_TX (n : Nat) : Nat := 0x6125 + 24 * n
abbrev PRP.DOWN_A (n : Nat) : Nat := 0x6126 + 24 * n
abbrev PRP.DOWN_B (n : Nat) : Nat := 0x6127 + 24 * n
abbrev DIO.STATUS : Nat := 0x5000
abbrev DIO.IN_LEVEL : Nat := 0x5001
abbrev DIO.RAW_LEVEL : Nat := 0x5002
abbrev DIO.OUT_CMD : Nat := 0x5003
abbrev DIO.READBACK : Nat := 0x5004
abbrev DIO.HEM : Nat := 0x5005
abbrev DIO.DIR : Nat := 0x5006
abbrev DIO.FAULT : Nat := 0x5007
abbrev DIO.FORCED_ON : Nat := 0x5008
abbrev DIO.ALARM : Nat := 0x5009
abbrev DIO.STAGED : Nat := 0x500A
abbrev DIO.CLEAR : Nat := 0x500B
abbrev DIO.GRP_STATUS (n : Nat) : Nat := 0x500C + n
abbrev DIO.GRP_SUPPLY (n : Nat) : Nat := 0x5010 + n
abbrev DIO.GRP_CFG (n : Nat) : Nat := 0x5014 + n
abbrev DIO.GRP_COUNT (n : Nat) : Nat := 0x5018 + n
abbrev DIO.LAST_FAULT : Nat := 0x501C
abbrev DIO.COS_COUNT : Nat := 0x501D
abbrev DIO.GLITCH_COUNT : Nat := 0x501E
abbrev DIO.LAST_FAULT_SEC : Nat := 0x501F
abbrev DIO.CH_CFG (n : Nat) : Nat := 0x5020 + 4 * n
abbrev DIO.CH_STAT (n : Nat) : Nat := 0x5021 + 4 * n
abbrev DIO.CH_TIMING (n : Nat) : Nat := 0x5022 + 4 * n
abbrev DIO.CH_COUNT (n : Nat) : Nat := 0x5023 + 4 * n
abbrev AO.STATUS : Nat := 0x5800
abbrev AO.ALARM : Nat := 0x5801
abbrev AO.FAULT : Nat := 0x5802
abbrev AO.CLEAR : Nat := 0x5803
abbrev AO.STAGED : Nat := 0x5804
abbrev AO.SHARE_ERR_MAX : Nat := 0x5805
abbrev AO.HOLD_DROOP_MAX : Nat := 0x5806
abbrev AO.LAST_FAULT : Nat := 0x5807
abbrev AO.LAST_FAULT_SEC : Nat := 0x5808
abbrev AO.TEMP : Nat := 0x5809
abbrev AO.POWER : Nat := 0x580A
abbrev AO.CAL_INFO : Nat := 0x580B
abbrev AO.HEM (n : Nat) : Nat := 0x580C + n
abbrev AO.MEAS (n : Nat) : Nat := 0x5814 + n
abbrev AO.FOLDBACK : Nat := 0x581C
abbrev AO.PARKED : Nat := 0x581D
abbrev AO.HANDOVERS : Nat := 0x581E
abbrev AO.GAPS : Nat := 0x581F
abbrev AO.CH_CFG (n : Nat) : Nat := 0x5820 + 8 * n
abbrev AO.CH_STAT (n : Nat) : Nat := 0x5821 + 8 * n
abbrev AO.CMD (n : Nat) : Nat := 0x5822 + 8 * n
abbrev AO.FAIL_LVL (n : Nat) : Nat := 0x5823 + 8 * n
abbrev AO.SUPPLY (n : Nat) : Nat := 0x5824 + 8 * n
abbrev AO.THERM (n : Nat) : Nat := 0x5825 + 8 * n
abbrev AO.COUNT (n : Nat) : Nat := 0x5826 + 8 * n
abbrev AO.LOAD (n : Nat) : Nat := 0x5827 + 8 * n
abbrev HART.STATUS : Nat := 0x5900
abbrev HART.CFG : Nat := 0x5901
abbrev HART.ALARM : Nat := 0x5902
abbrev HART.CLEAR : Nat := 0x5903
abbrev HART.WIN_SEL : Nat := 0x5904
abbrev HART.WIN_CMD : Nat := 0x5905
abbrev HART.WIN_GO : Nat := 0x5906
abbrev HART.WIN_DATA (n : Nat) : Nat := 0x5907 + n
abbrev HART.WIN_RESULT : Nat := 0x590F
abbrev HART.CH_CFG (n : Nat) : Nat := 0x5910 + 6 * n
abbrev HART.CH_STAT (n : Nat) : Nat := 0x5911 + 6 * n
abbrev HART.CH_DEV_ID (n : Nat) : Nat := 0x5912 + 6 * n
abbrev HART.CH_DEV_TYPE (n : Nat) : Nat := 0x5913 + 6 * n
abbrev HART.CH_COUNT (n : Nat) : Nat := 0x5914 + 6 * n
abbrev HART.CH_LAST_SEC (n : Nat) : Nat := 0x5915 + 6 * n
abbrev CAN.STATUS (n : Nat) : Nat := 0x6800 + 256 * n
abbrev CAN.CTRL (n : Nat) : Nat := 0x6801 + 256 * n
abbrev CAN.NBT (n : Nat) : Nat := 0x6802 + 256 * n
abbrev CAN.DBT (n : Nat) : Nat := 0x6803 + 256 * n
abbrev CAN.TDC (n : Nat) : Nat := 0x6804 + 256 * n
abbrev CAN.ERR (n : Nat) : Nat := 0x6805 + 256 * n
abbrev CAN.ALARM (n : Nat) : Nat := 0x6806 + 256 * n
abbrev CAN.LAST_ERR (n : Nat) : Nat := 0x6807 + 256 * n
abbrev CAN.AB_CFG (n : Nat) : Nat := 0x6808 + 256 * n
abbrev CAN.AB_RESULT (n : Nat) : Nat := 0x6809 + 256 * n
abbrev CAN.RX_COUNT (n : Nat) : Nat := 0x680A + 256 * n
abbrev CAN.TX_COUNT (n : Nat) : Nat := 0x680B + 256 * n
abbrev CAN.UNMATCHED (n : Nat) : Nat := 0x680C + 256 * n
abbrev CAN.OVERRUN (n : Nat) : Nat := 0x680D + 256 * n
abbrev CAN.BUSOFF_COUNT (n : Nat) : Nat := 0x680E + 256 * n
abbrev CAN.CLEAR (n : Nat) : Nat := 0x680F + 256 * n
abbrev CAN.RX_DELAY (n : Nat) : Nat := 0x6810 + 256 * n
abbrev CAN.NEW (a : Nat) (b : Nat) : Nat := 0x6811 + 256 * a + b
abbrev CAN.PENDING (a : Nat) (b : Nat) : Nat := 0x6813 + 256 * a + b
abbrev CAN.TX_CMD (n : Nat) : Nat := 0x6815 + 256 * n
abbrev CAN.LOCKED (n : Nat) : Nat := 0x6816 + 256 * n
abbrev CAN.OWNER (n : Nat) : Nat := 0x6817 + 256 * n
abbrev CAN.BUF_SEL (n : Nat) : Nat := 0x6818 + 256 * n
abbrev CAN.BUF_WIN (a : Nat) (b : Nat) : Nat := 0x6819 + 256 * a + b
abbrev CAN.BUF_COMMIT (n : Nat) : Nat := 0x682F + 256 * n
abbrev CAN.BUF_STAT (a : Nat) (b : Nat) : Nat := 0x6830 + 256 * a + b
abbrev CAN.ERR_COUNT (a : Nat) (b : Nat) : Nat := 0x6850 + 256 * a + b
abbrev CAN.DATA_ERRORS (n : Nat) : Nat := 0x6856 + 256 * n
abbrev CAN.PASSIVE_COUNT (n : Nat) : Nat := 0x6857 + 256 * n
abbrev CAN.TX_REPLACED (n : Nat) : Nat := 0x6858 + 256 * n
abbrev CAN.LAST_TX_SEC (n : Nat) : Nat := 0x6859 + 256 * n
abbrev CAN.LAST_TX_NS (n : Nat) : Nat := 0x685A + 256 * n
abbrev CAN.LAST_RX_SEC (n : Nat) : Nat := 0x685B + 256 * n
abbrev CAN.LAST_RX_NS (n : Nat) : Nat := 0x685C + 256 * n
abbrev CAN.BUS_LOAD (n : Nat) : Nat := 0x685D + 256 * n
abbrev CAN.LOCK_TIMEOUTS (n : Nat) : Nat := 0x685E + 256 * n
abbrev CAN.INFO (n : Nat) : Nat := 0x685F + 256 * n
abbrev DMA.STATUS : Nat := 0x7000
abbrev DMA.CTRL : Nat := 0x7001
abbrev DMA.HALT_INFO : Nat := 0x7002
abbrev DMA.HALT_ADDR : Nat := 0x7003
abbrev DMA.HALT_SEC : Nat := 0x7004
abbrev DMA.HALT_COUNT : Nat := 0x7005
abbrev DMA.RECOVER : Nat := 0x7006
abbrev DMA.ALARM : Nat := 0x7007
abbrev DMA.DONE : Nat := 0x7008
abbrev DMA.BLOCK : Nat := 0x7009
abbrev DMA.OWNED : Nat := 0x700A
abbrev DMA.KBYTES : Nat := 0x700B
abbrev DMA.ABORT_CMD : Nat := 0x700C
abbrev DMA.CLEAR : Nat := 0x700D
abbrev DMA.PRIO : Nat := 0x700E
abbrev DMA.REV : Nat := 0x700F
abbrev DMA.CH_KB (n : Nat) : Nat := 0x7010 + n
abbrev DMA.CH_CTRL (n : Nat) : Nat := 0x7020 + 8 * n
abbrev DMA.CH_STAT (n : Nat) : Nat := 0x7021 + 8 * n
abbrev DMA.SL_SRC (n : Nat) : Nat := 0x7022 + 8 * n
abbrev DMA.SL_DST (n : Nat) : Nat := 0x7023 + 8 * n
abbrev DMA.SL_LEN (n : Nat) : Nat := 0x7024 + 8 * n
abbrev DMA.ACT_SRC (n : Nat) : Nat := 0x7025 + 8 * n
abbrev DMA.ACT_DST (n : Nat) : Nat := 0x7026 + 8 * n
abbrev DMA.ACT_REMAIN (n : Nat) : Nat := 0x7027 + 8 * n
abbrev COLLAR.STATUS : Nat := 0x7800
abbrev COLLAR.CTRL : Nat := 0x7801
abbrev COLLAR.SEL : Nat := 0x7802
abbrev COLLAR.RULE_WIN (n : Nat) : Nat := 0x7803 + n
abbrev COLLAR.COMMIT : Nat := 0x7807
abbrev COLLAR.FENCE : Nat := 0x7808
abbrev COLLAR.ALARM : Nat := 0x7809
abbrev COLLAR.LAST_FAULT : Nat := 0x780A
abbrev COLLAR.LAST_FAULT_ADDR : Nat := 0x780B
abbrev COLLAR.LAST_FAULT_SEC : Nat := 0x780C
abbrev COLLAR.FAULTS : Nat := 0x780D
abbrev COLLAR.LOCKED_DENIALS : Nat := 0x780E
abbrev COLLAR.CLEAR : Nat := 0x780F
abbrev COLLAR.MASTER_FAULTS (n : Nat) : Nat := 0x7810 + n
abbrev COLLAR.STAT (n : Nat) : Nat := 0x7820 + n
abbrev COLLAR.GEN (n : Nat) : Nat := 0x7838 + n
abbrev COLLAR.HITS_SEL (n : Nat) : Nat := 0x7850 + n
abbrev COLLAR.OWN_SEL : Nat := 0x7858
abbrev COLLAR.OWN_INFO : Nat := 0x7859
abbrev COLLAR.CONFLICT_LAST : Nat := 0x785A
abbrev COLLAR.CONFLICT_RES : Nat := 0x785B
abbrev COLLAR.CONFLICT_COUNT : Nat := 0x785C
abbrev COLLAR.DEFAULT_USES : Nat := 0x785D
abbrev COLLAR.FENCE_MAX : Nat := 0x785E
abbrev COLLAR.REV : Nat := 0x785F
abbrev CUFF.STATUS : Nat := 0x7900
abbrev CUFF.ALARM : Nat := 0x7901
abbrev CUFF.LAST_INFO : Nat := 0x7902
abbrev CUFF.LAST_SEC : Nat := 0x7903
abbrev CUFF.CLEAR : Nat := 0x7904
abbrev CUFF.SEL : Nat := 0x7905
abbrev CUFF.LAT_MAX_OUT : Nat := 0x7906
abbrev CUFF.LAT_MAX_IN : Nat := 0x7907
abbrev CUFF.FILL_MAX : Nat := 0x7908
abbrev CUFF.TRANSFERS : Nat := 0x7909
abbrev CUFF.CLOCK : Nat := 0x790A
abbrev CUFF.REV : Nat := 0x790B
abbrev CUFF.STAT (n : Nat) : Nat := 0x790C + 3 * n
abbrev CUFF.TIMEOUT (n : Nat) : Nat := 0x790D + 3 * n
abbrev CUFF.COUNT (n : Nat) : Nat := 0x790E + 3 * n
abbrev EVR.STATUS : Nat := 0x7C00
abbrev EVR.CFG : Nat := 0x7C01
abbrev EVR.NEWEST : Nat := 0x7C02
abbrev EVR.OLDEST : Nat := 0x7C03
abbrev EVR.CURSOR : Nat := 0x7C04
abbrev EVR.WIN_PTR : Nat := 0x7C05
abbrev EVR.WIN_DATA : Nat := 0x7C06
abbrev EVR.LOSS : Nat := 0x7C07
abbrev EVR.LOSS_SEV : Nat := 0x7C08
abbrev EVR.INTAKE_LOST : Nat := 0x7C09
abbrev EVR.OVERWRITTEN : Nat := 0x7C0A
abbrev EVR.FOLDED : Nat := 0x7C0B
abbrev EVR.ALARM : Nat := 0x7C0C
abbrev EVR.OWNER_CLEAR : Nat := 0x7C0D
abbrev EVR.CLEAR : Nat := 0x7C0E
abbrev EVR.DISCARDED : Nat := 0x7C0F
abbrev EVR.SNAP_SEL : Nat := 0x7C10
abbrev EVR.SNAP_WIN (n : Nat) : Nat := 0x7C11 + n
abbrev EVR.SNAP_COMMIT : Nat := 0x7C1B
abbrev EVR.FATAL_HELD : Nat := 0x7C1C
abbrev EVR.LAST_CODE : Nat := 0x7C1D
abbrev EVR.INTAKE_MAX : Nat := 0x7C1E
abbrev EVR.REV : Nat := 0x7C1F
abbrev UPD.STATUS : Nat := 0x7E00
abbrev UPD.CTRL : Nat := 0x7E01
abbrev UPD.REFUSE : Nat := 0x7E02
abbrev UPD.BLOCKER : Nat := 0x7E03
abbrev UPD.BLOCK_RANGE : Nat := 0x7E04
abbrev UPD.TRIAL_LEFT : Nat := 0x7E05
abbrev UPD.REVERT : Nat := 0x7E06
abbrev UPD.ALARM : Nat := 0x7E07
abbrev UPD.SET_VER : Nat := 0x7E08
abbrev UPD.SET_CHAIN : Nat := 0x7E09
abbrev UPD.IMPORT_RESULT : Nat := 0x7E0A
abbrev UPD.IMPORT_UNMAPPED : Nat := 0x7E0B
abbrev UPD.PAIR_WINDOW : Nat := 0x7E0C
abbrev UPD.APPLIES : Nat := 0x7E0D
abbrev UPD.LAST_SEC : Nat := 0x7E0E
abbrev UPD.CLEAR : Nat := 0x7E0F
abbrev UPD.C_STATE (n : Nat) : Nat := 0x7E10 + 4 * n
abbrev UPD.C_VER_RUN (n : Nat) : Nat := 0x7E11 + 4 * n
abbrev UPD.C_VER_OTHER (n : Nat) : Nat := 0x7E12 + 4 * n
abbrev UPD.C_EPOCH (n : Nat) : Nat := 0x7E13 + 4 * n
abbrev SEC.STATUS : Nat := 0x7F00
abbrev SEC.LOCK : Nat := 0x7F01
abbrev SEC.OWNER_SLOT : Nat := 0x7F02
abbrev SEC.FUSE_CMD : Nat := 0x7F03
abbrev SEC.DEVICE_KEY_ID (n : Nat) : Nat := 0x7F04 + n
abbrev SEC.DEBUG_INFO : Nat := 0x7F0C
abbrev SEC.DEBUG_UNTIL : Nat := 0x7F0D
abbrev SEC.ALARM : Nat := 0x7F0E
abbrev SEC.QIM_FLOOR : Nat := 0x7F0F
abbrev SEC.KEY_INFO (n : Nat) : Nat := 0x7F10 + 2 * n
abbrev SEC.KEY_ID (n : Nat) : Nat := 0x7F11 + 2 * n
abbrev ID.PART : Nat := 0x0000
abbrev ID.ORDER : Nat := 0x0001
abbrev ID.HW_REV : Nat := 0x0002
abbrev ID.SERIAL_HI : Nat := 0x0003
abbrev ID.SERIAL_LO : Nat := 0x0004
abbrev ID.MAC_HI : Nat := 0x0005
abbrev ID.MAC_LO : Nat := 0x0006
abbrev ID.MFG_DAY : Nat := 0x0007
abbrev ID.SLOT : Nat := 0x0008
abbrev ID.CHASSIS_ID : Nat := 0x0009
abbrev ID.PB_SERIAL_HI : Nat := 0x000A
abbrev ID.PB_SERIAL_LO : Nat := 0x000B
abbrev ID.STATUS : Nat := 0x000C
abbrev ID.LED : Nat := 0x000D
abbrev ID.LOCATE : Nat := 0x000E
abbrev ID.TEMP : Nat := 0x000F
abbrev ID.SFP (n : Nat) : Nat := 0x0010 + n
abbrev ID.LEVER_COUNT : Nat := 0x0014
abbrev ID.INSERTIONS : Nat := 0x0015
abbrev ID.CONN_FAULT : Nat := 0x0016
abbrev ID.PB_TYPES : Nat := 0x0017
abbrev ID.VPD (n : Nat) : Nat := 0x0018 + n
abbrev POWER.STATUS : Nat := 0x0400
abbrev POWER.CFG : Nat := 0x0401
abbrev POWER.ALARM : Nat := 0x0402
abbrev POWER.CLEAR : Nat := 0x0403
abbrev POWER.IN_V : Nat := 0x0404
abbrev POWER.IN_I : Nat := 0x0405
abbrev POWER.IN_P : Nat := 0x0406
abbrev POWER.IN_MIN : Nat := 0x0407
abbrev POWER.IN_MAX : Nat := 0x0408
abbrev POWER.START_DELAY : Nat := 0x0409
abbrev POWER.HU_V : Nat := 0x040A
abbrev POWER.HU_ENERGY : Nat := 0x040B
abbrev POWER.HU_CAP : Nat := 0x040C
abbrev POWER.HU_AGE : Nat := 0x040D
abbrev POWER.HU_INT : Nat := 0x040E
abbrev POWER.HU_MEAS : Nat := 0x040F
abbrev POWER.HU_RATED : Nat := 0x0410
abbrev POWER.HU_RESULT : Nat := 0x0411
abbrev POWER.PF_COUNT : Nat := 0x0412
abbrev POWER.PF_LAST_SEC : Nat := 0x0413
abbrev POWER.PF_LAST_NS : Nat := 0x0414
abbrev POWER.PF_COMMIT_US : Nat := 0x0415
abbrev POWER.PF_BYTES : Nat := 0x0416
abbrev POWER.PF_RESULT : Nat := 0x0417
abbrev POWER.PF_HOLD_US : Nat := 0x0418
abbrev POWER.BROWNOUTS : Nat := 0x0419
abbrev POWER.INRUSH_PEAK : Nat := 0x041A
abbrev POWER.SHED_P : Nat := 0x041B
abbrev POWER.HU_MIN_V : Nat := 0x041C
abbrev POWER.OVEN : Nat := 0x041D
abbrev POWER.CONV_TEMP : Nat := 0x041E
abbrev POWER.REV : Nat := 0x041F
abbrev POWER.RAIL_STAT (n : Nat) : Nat := 0x0420 + 4 * n
abbrev POWER.RAIL_P (n : Nat) : Nat := 0x0421 + 4 * n
abbrev POWER.RAIL_P_MAX (n : Nat) : Nat := 0x0422 + 4 * n
abbrev POWER.RAIL_FAULTS (n : Nat) : Nat := 0x0423 + 4 * n
abbrev LINING.STATUS : Nat := 0x0500
abbrev LINING.ALARM : Nat := 0x0501
abbrev LINING.RTC_SEC_HI : Nat := 0x0502
abbrev LINING.RTC_SEC_LO : Nat := 0x0503
abbrev LINING.RTC_SUB : Nat := 0x0504
abbrev LINING.OP_SEC : Nat := 0x0505
abbrev LINING.POWER_CYCLES : Nat := 0x0506
abbrev LINING.BOOT_CFG : Nat := 0x0507
abbrev LINING.BOOT_CFG_NOW : Nat := 0x0508
abbrev LINING.CELL : Nat := 0x0509
abbrev LINING.CELL_TEST_SEC : Nat := 0x050A
abbrev LINING.CELL_CHANGES : Nat := 0x050B
abbrev LINING.TAMPER : Nat := 0x050C
abbrev LINING.TAMPER_SEC : Nat := 0x050D
abbrev LINING.TAMPER_ACK : Nat := 0x050E
abbrev LINING.MIRROR_SEC : Nat := 0x050F
abbrev LINING.RTC_ERR : Nat := 0x0510
abbrev LINING.CALIB : Nat := 0x0511
abbrev LINING.OFF_SEC : Nat := 0x0512
abbrev LINING.REV : Nat := 0x0513
abbrev LINING.USER (n : Nat) : Nat := 0x0514 + n

end Sys2Proof.Machine.Reg
end

