-- ==== Sys2Proof/Machine/EventTable.lean ====
section
/-!
DEFINITION. The event codes of the chapters' event tables (R59, R98, R129, R164, R197, R224, R251, R291, R316, R352, R369, R396, R416,
R439, R461, R484, R504, R529): code, severity (the lower one where the table gives two) and whether the table marks it as pleated.
-/

namespace Sys2Proof.Machine

/-- One line of an event table. -/
structure EventKind where
  code : Nat
  severity : Nat
  pleated : Bool := false
  deriving DecidableEq, Repr

/-- The event tables, part 1. -/
def eventKinds0 : List EventKind := [
  { code := 0x0001, severity := 2 },
  { code := 0x0002, severity := 1 },
  { code := 0x0003, severity := 3 },
  { code := 0x0004, severity := 1 },
  { code := 0x0101, severity := 1 },
  { code := 0x0102, severity := 3 },
  { code := 0x0103, severity := 2 },
  { code := 0x0201, severity := 1 },
  { code := 0x0202, severity := 2 },
  { code := 0x0203, severity := 2 },
  { code := 0x0204, severity := 1 },
  { code := 0x0205, severity := 3 },
  { code := 0x0206, severity := 3 },
  { code := 0x0207, severity := 1 },
  { code := 0x0208, severity := 2 },
  { code := 0x0209, severity := 3 },
  { code := 0x020A, severity := 2 },
  { code := 0x020C, severity := 1 },
  { code := 0x020D, severity := 1 },
  { code := 0x020E, severity := 2 },
  { code := 0x020F, severity := 2 },
  { code := 0x0210, severity := 3 },
  { code := 0x0211, severity := 3 },
  { code := 0x0212, severity := 2, pleated := true },
  { code := 0x0213, severity := 2 },
  { code := 0x0301, severity := 3 },
  { code := 0x0302, severity := 3 },
  { code := 0x0303, severity := 3 },
  { code := 0x0304, severity := 1 },
  { code := 0x0305, severity := 2 },
  { code := 0x0306, severity := 2 },
  { code := 0x0307, severity := 1 },
  { code := 0x0308, severity := 4 },
  { code := 0x030A, severity := 2 },
  { code := 0x030B, severity := 2 },
  { code := 0x0401, severity := 3 },
  { code := 0x0402, severity := 3 },
  { code := 0x0403, severity := 1 },
  { code := 0x0404, severity := 2 },
  { code := 0x0405, severity := 3 }]

/-- The event tables, part 2. -/
def eventKinds1 : List EventKind := [
  { code := 0x0406, severity := 2, pleated := true },
  { code := 0x0407, severity := 3 },
  { code := 0x0408, severity := 3 },
  { code := 0x0501, severity := 2 },
  { code := 0x0502, severity := 3 },
  { code := 0x0503, severity := 3 },
  { code := 0x0504, severity := 3 },
  { code := 0x0505, severity := 1 },
  { code := 0x0506, severity := 3 },
  { code := 0x1001, severity := 1 },
  { code := 0x1002, severity := 2 },
  { code := 0x1003, severity := 1 },
  { code := 0x1004, severity := 2 },
  { code := 0x1005, severity := 3 },
  { code := 0x1006, severity := 3 },
  { code := 0x1007, severity := 2 },
  { code := 0x1008, severity := 1 },
  { code := 0x1009, severity := 2 },
  { code := 0x1101, severity := 1 },
  { code := 0x1102, severity := 2 },
  { code := 0x1201, severity := 1 },
  { code := 0x1202, severity := 2 },
  { code := 0x1203, severity := 1 },
  { code := 0x1204, severity := 2, pleated := true },
  { code := 0x2001, severity := 2, pleated := true },
  { code := 0x2011, severity := 2 },
  { code := 0x2012, severity := 2 },
  { code := 0x2013, severity := 2 },
  { code := 0x2101, severity := 3 },
  { code := 0x2102, severity := 3 },
  { code := 0x2103, severity := 4 },
  { code := 0x2104, severity := 1, pleated := true },
  { code := 0x2201, severity := 2 },
  { code := 0x2202, severity := 1 },
  { code := 0x2203, severity := 1 },
  { code := 0x2204, severity := 1 },
  { code := 0x2205, severity := 3 },
  { code := 0x2206, severity := 2 },
  { code := 0x2207, severity := 2 },
  { code := 0x2208, severity := 1 }]

/-- The event tables, part 3. -/
def eventKinds2 : List EventKind := [
  { code := 0x3001, severity := 2 },
  { code := 0x3002, severity := 2 },
  { code := 0x3003, severity := 2 },
  { code := 0x3004, severity := 1 },
  { code := 0x3005, severity := 1 },
  { code := 0x3006, severity := 2, pleated := true },
  { code := 0x3007, severity := 2 },
  { code := 0x3101, severity := 2, pleated := true },
  { code := 0x3102, severity := 3 },
  { code := 0x3103, severity := 2 },
  { code := 0x3104, severity := 1 },
  { code := 0x3201, severity := 2, pleated := true },
  { code := 0x3202, severity := 3 },
  { code := 0x3203, severity := 2 },
  { code := 0x3204, severity := 1 },
  { code := 0x3301, severity := 2, pleated := true },
  { code := 0x3302, severity := 3 },
  { code := 0x3303, severity := 2 },
  { code := 0x3304, severity := 1 },
  { code := 0x3401, severity := 2, pleated := true },
  { code := 0x3402, severity := 3 },
  { code := 0x3403, severity := 2 },
  { code := 0x3404, severity := 1 },
  { code := 0x3501, severity := 2, pleated := true },
  { code := 0x3502, severity := 3 },
  { code := 0x3503, severity := 2 },
  { code := 0x3504, severity := 1 },
  { code := 0x3601, severity := 2, pleated := true },
  { code := 0x3602, severity := 3 },
  { code := 0x3603, severity := 2 },
  { code := 0x3604, severity := 1 },
  { code := 0x3701, severity := 2, pleated := true },
  { code := 0x3702, severity := 3 },
  { code := 0x3703, severity := 2 },
  { code := 0x3704, severity := 1 },
  { code := 0x3801, severity := 2, pleated := true },
  { code := 0x3802, severity := 3 },
  { code := 0x3803, severity := 2 },
  { code := 0x3804, severity := 1 },
  { code := 0x4001, severity := 1, pleated := true }]

/-- The event tables, part 4. -/
def eventKinds3 : List EventKind := [
  { code := 0x4002, severity := 2 },
  { code := 0x4003, severity := 1 },
  { code := 0x4004, severity := 1 },
  { code := 0x4005, severity := 2 },
  { code := 0x4006, severity := 2 },
  { code := 0x4007, severity := 1 },
  { code := 0x4008, severity := 2 },
  { code := 0x4009, severity := 2 },
  { code := 0x400A, severity := 2 },
  { code := 0x4101, severity := 3 },
  { code := 0x4102, severity := 2, pleated := true },
  { code := 0x4801, severity := 3 },
  { code := 0x4802, severity := 2, pleated := true },
  { code := 0x4803, severity := 1 },
  { code := 0x4804, severity := 2 },
  { code := 0x4805, severity := 1 },
  { code := 0x4806, severity := 2 },
  { code := 0x5001, severity := 2 },
  { code := 0x5002, severity := 3 },
  { code := 0x5003, severity := 1 },
  { code := 0x5004, severity := 3 },
  { code := 0x5005, severity := 2, pleated := true },
  { code := 0x5006, severity := 3, pleated := true },
  { code := 0x5007, severity := 2 },
  { code := 0x5008, severity := 3 },
  { code := 0x5009, severity := 3 },
  { code := 0x500A, severity := 1 },
  { code := 0x5801, severity := 3 },
  { code := 0x5802, severity := 2 },
  { code := 0x5803, severity := 3, pleated := true },
  { code := 0x5804, severity := 2, pleated := true },
  { code := 0x5805, severity := 3 },
  { code := 0x5806, severity := 1 },
  { code := 0x5807, severity := 2 },
  { code := 0x5901, severity := 1 },
  { code := 0x5902, severity := 2 },
  { code := 0x5903, severity := 1 },
  { code := 0x5904, severity := 2, pleated := true },
  { code := 0x5905, severity := 2 },
  { code := 0x6001, severity := 1 }]

/-- The event tables, part 5. -/
def eventKinds4 : List EventKind := [
  { code := 0x6002, severity := 2 },
  { code := 0x6003, severity := 2, pleated := true },
  { code := 0x6004, severity := 2 },
  { code := 0x6005, severity := 1 },
  { code := 0x6006, severity := 2, pleated := true },
  { code := 0x6007, severity := 2 },
  { code := 0x6008, severity := 2 },
  { code := 0x6009, severity := 1 },
  { code := 0x600A, severity := 2, pleated := true },
  { code := 0x600B, severity := 1 },
  { code := 0x6040, severity := 2, pleated := true },
  { code := 0x6041, severity := 2, pleated := true },
  { code := 0x6042, severity := 3, pleated := true },
  { code := 0x6043, severity := 2, pleated := true },
  { code := 0x6044, severity := 2, pleated := true },
  { code := 0x6045, severity := 2, pleated := true },
  { code := 0x6046, severity := 1 },
  { code := 0x6047, severity := 1 },
  { code := 0x6048, severity := 2 },
  { code := 0x6049, severity := 3 },
  { code := 0x604A, severity := 1 },
  { code := 0x604B, severity := 2 },
  { code := 0x604C, severity := 2 },
  { code := 0x604D, severity := 1 },
  { code := 0x604E, severity := 2, pleated := true },
  { code := 0x604F, severity := 2 },
  { code := 0x6101, severity := 2 },
  { code := 0x6102, severity := 1 },
  { code := 0x6103, severity := 2, pleated := true },
  { code := 0x6104, severity := 2 },
  { code := 0x6801, severity := 2 },
  { code := 0x6802, severity := 3 },
  { code := 0x6803, severity := 1 },
  { code := 0x6804, severity := 1 },
  { code := 0x6805, severity := 2 },
  { code := 0x6806, severity := 2, pleated := true },
  { code := 0x6807, severity := 2, pleated := true },
  { code := 0x6901, severity := 2 },
  { code := 0x6902, severity := 3 },
  { code := 0x6903, severity := 1 }]

/-- The event tables, part 6. -/
def eventKinds5 : List EventKind := [
  { code := 0x6904, severity := 1 },
  { code := 0x6905, severity := 2 },
  { code := 0x6906, severity := 2, pleated := true },
  { code := 0x6907, severity := 2, pleated := true },
  { code := 0x7001, severity := 3 },
  { code := 0x7002, severity := 1 },
  { code := 0x7003, severity := 2 },
  { code := 0x7801, severity := 2, pleated := true },
  { code := 0x7802, severity := 1 },
  { code := 0x7803, severity := 3 },
  { code := 0x7804, severity := 3 },
  { code := 0x7805, severity := 2 },
  { code := 0x7901, severity := 3 },
  { code := 0x7902, severity := 2 },
  { code := 0x7903, severity := 1 },
  { code := 0x7C01, severity := 2 },
  { code := 0x7C02, severity := 2, pleated := true },
  { code := 0x7C03, severity := 3 },
  { code := 0x7C04, severity := 2 },
  { code := 0x7C05, severity := 1 },
  { code := 0x7C06, severity := 3 },
  { code := 0x7E01, severity := 1 },
  { code := 0x7E02, severity := 1 },
  { code := 0x7E03, severity := 3 },
  { code := 0x7E04, severity := 2 },
  { code := 0x7E05, severity := 3 },
  { code := 0x7E06, severity := 1 },
  { code := 0x7E07, severity := 4 },
  { code := 0x7F01, severity := 1 },
  { code := 0x7F02, severity := 2 },
  { code := 0x7F03, severity := 2 },
  { code := 0x7F04, severity := 3 },
  { code := 0x7F05, severity := 2 }]

/-- The event tables of all chapters, by rising code. -/
def eventKinds : List EventKind := eventKinds0 ++ eventKinds1 ++ eventKinds2 ++ eventKinds3 ++ eventKinds4 ++ eventKinds5

/-- The line of a code; severity 0, not pleated, for a code in no table. -/
def eventKind (code : Nat) : EventKind :=
  (eventKinds.find? (fun k => k.code == code)).getD { code := code, severity := 0 }

end Sys2Proof.Machine
end

