-- ==== Sys2Proof/Config.lean ====
section
/-!
DEFINITION. The values the manual leaves open. Each is a constant without a body: nothing can be proved about what it
answers. Where a fresh value is needed on every use, it is applied to a counter that the state holds.
-/

namespace Sys2Proof.Config

/-- A value the manual leaves undefined, for the `n`-th use (notes/assumptions/4.md). -/
opaque freeWord : Nat → Word

/-- The random session number that SESSION_OPEN hands out (R329), before 0 and 0xFFFF_FFFF are excluded
(notes/assumptions/5.md). -/
opaque sessionNumber : Nat → Word

/-- The random bytes of the module's ephemeral key and its confirmation value (R329): what a reply holds there
(notes/assumptions/5.md). -/
opaque sessionKeyWord : Nat → Word

/-- The binary64 tangent that a notch design uses (R222); its rounding is not stated (notes/assumptions/25.md). -/
opaque tangent : BitVec 64 → BitVec 64

/-- 10 raised to a binary64 power, as a notch design uses it (R222; notes/assumptions/25.md). -/
opaque powerOfTen : BitVec 64 → BitVec 64

/-- The binary64 functions that the achieved values of a notch use (R223); their rounding is not stated (notes/assumptions/25.md). -/
opaque arcCosine : BitVec 64 → BitVec 64
opaque squareRoot : BitVec 64 → BitVec 64
opaque naturalLog : BitVec 64 → BitVec 64
opaque commonLog : BitVec 64 → BitVec 64
opaque sine : BitVec 64 → BitVec 64

/-- The layout digest of a station from its binding entries in ascending local point, each given by its fields (R301): the byte layout of
an entry is not given (notes/assumptions/61.md). -/
opaque layoutDigest : List (List Nat) → Word

/-- The value, quality and time (in 2^-32 ns) that the 12 bytes of a type 0x8 point carry (Table FX-6, R301): their layout is not given
(notes/assumptions/61.md). -/
opaque stampedPoint : List Byte → Bool × Bool × Nat

/-- The bytes of a seam item or of a settled set's receipts as they enter a digest (R271, R274, R276), from their fields: their layout is
not given (notes/assumptions/62.md). -/
opaque digestBytes : List Nat → List Byte

/-- The MAC key from the module to the client of a session, by its number (R329): the second half of the key that the SM2 key agreement gives from
private keys which no register shows (notes/assumptions/17.md). -/
opaque sessionKey : Word → BitVec 256

/-- The 12 bytes, as one number, of a type 0x8 point from its value, quality and time (R301, R349): their layout is not given
(notes/assumptions/61.md). -/
opaque stampedBytes : Word → Bool → Nat → Nat

/-- Tap `k` of the WAV filter on either side of its centre, 2^-32 (R141): the manual gives its response and not its taps
(notes/assumptions/115.md). -/
opaque wavTap : Nat → Int

/-- The magnitude in 2^-40 LSB (RMS) that the P-class (false) or M-class filter gives, from the nominal frequency (60 Hz true), the reporting
rate, the instant's index in its second and the DEC means of the window, newest first (R153; notes/assumptions/116.md). -/
opaque phasorMagnitude : Bool → Bool → Nat → Nat → List Int → Nat

/-- Angle (0), frequency (1) and ROCOF (2) as the same filters give them (R153; notes/assumptions/116.md). -/
opaque phasorWord : Bool → Bool → Nat → Nat → List Int → Nat → BitVec 32

/-- Magnitude (0), angle (1), frequency (2) and ROCOF (3) of a sampled-value source, from the samples of its window (R153, R161;
notes/assumptions/116.md). -/
opaque streamPhasor : Bool → Bool → Nat → Nat → List (Option (BitVec 32)) → Nat → BitVec 32

/-- Gain (0), offset (1), path delay (2), slope-comparator delay (3) and gain coefficient (4) that an AFE table, given by its eight words, yields
at a temperature (R136): the formats are not given (notes/assumptions/117.md). -/
opaque afeApplied : List (BitVec 32) → BitVec 32 → Nat → BitVec 32

/-- RISE of a TWE entry whose window does not pass 10% and 90% of its step (R145; notes/assumptions/118.md). -/
opaque riseUnstated : List Int → BitVec 32

/-- The conversion factors of an integer phasor (10^-5 V or A per bit) and of an integer analogue value of a PMU (R155; notes/assumptions/119.md). -/
opaque phasorUnit : Nat → Nat → Nat
opaque analogUnit : Nat → Nat → Nat

/-- The real (false) or imaginary part of a phasor from magnitude and angle (R155): its rounding is not stated (notes/assumptions/119.md). -/
opaque rectangular : BitVec 32 → BitVec 32 → Bool → BitVec 32

/-- The 16 characters of the station name (0) and of the channel names of a PMU, the text of its header frame, and the body of its CFG-3 frame from its
CFG-2 frame (R155; notes/assumptions/119.md). -/
opaque pmuName : Nat → Nat → List (BitVec 8)
opaque pmuHeaderText : Nat → List (BitVec 8)
opaque pmuCfg3 : List (BitVec 8) → List (BitVec 8)

/-- The value (0) and the slope (1) of the second-order 25 Hz low-pass of a current loop with HART, from its value and slope, the value at its input and
the time since, 2^-32 ns (R394): its kind is not given (notes/assumptions/126.md). -/
opaque hartLowPass : BitVec 32 → BitVec 32 → BitVec 32 → Nat → Nat → BitVec 32

/-- The text of a binary32 number in a COMTRADE file (R191, R192; notes/assumptions/123.md). -/
opaque decimalText : BitVec 32 → List (BitVec 8)

/-- The texts a COMTRADE file names things by: the station (0) and the recorder (1), and the identity of an analogue channel's entry
(2, view, channel, quantity) or a digital channel (3, channel) (R191; notes/assumptions/123.md). -/
opaque comtradeName : List Nat → List (BitVec 8)

end Sys2Proof.Config
end

