-- ==== Sys2Proof/Machine/Parts/Acq.lean ====
section
/-!
DEFINITION. What analogue acquisition holds beside its registers and windows (Analogue Acquisition and Parallel Reductions): the entry
rings that software can read, and the state of phasor streams. Ring entries are the eight words of Tables AQ-4 to AQ-6.
-/

namespace Sys2Proof.Machine

/-- The samples of one frame of a channel: time of the first sample (TAI and up-time, in units of 2^-32 ns) and the 500 codes (R131, R133). -/
structure RawFrame where
  at_ : Nat
  up : Nat
  codes : List Int
  deriving DecidableEq, Repr

/-- A DEC entry (R140): the start of its interval, TAI and up-time, its codes, its mean in 2^-8 LSB and its flags (byte 7). -/
structure DecEntry where
  at_ : Nat
  up : Nat
  lo : Int
  hi : Int
  mean : Int
  flags : BitVec 4
  deriving DecidableEq, Repr

/-- A WAV sample (R141): its label, TAI and up-time, the filtered code in 2^-40 LSB, its value in engineering units, and the flags of the DEC entries it was filtered from. -/
structure WavEntry where
  at_ : Nat
  up : Nat
  code : Int
  value : Word
  flags : BitVec 4
  deriving DecidableEq, Repr

/-- A power cycle that has closed and waits for its entry (R142, R143). -/
structure CycleSpan where
  start : Nat
  finish : Nat
  crossed : Bool
  deriving DecidableEq, Repr

/-- One analogue channel. Rings hold the newest entry first. -/
structure AcqChannel where
  /-- What is in force of ACH.CFG.EN, ACH.CFG.RANGE and ACH.EXT_DELAY (R139, R152). -/
  on : Bool := true
  range : Bool := false
  ext : Nat := 0
  raw : List RawFrame := []
  /-- The DEC history; the ring is its newest 1,048,576 entries. -/
  dec : List DecEntry := []
  wav : List WavEntry := []
  cyc : List (List Word) := []
  pha : List (List Word) := []
  twe : List (List Word) := []
  /-- The up-times of the newest entries' start, instant and firing, beside the three rings. -/
  cycUp : List Nat := []
  phaUp : List Nat := []
  tweUp : List Nat := []
  /-- The WAV signal has been below −h since the last crossing, and the positive-going zero crossing seen since then (R142). -/
  armed : Bool := false
  zeroAt : Option Nat := none
  /-- Start of the power cycle in progress, as a time value: none until the first crossing after a start or a step (R142, R150). -/
  cycleStart : Option Nat := none
  /-- That start is a crossing, not the end of a cycle without one or the first sample (R142, R143). -/
  sinceCrossing : Bool := false
  /-- Cycles that have closed and wait for their entries, oldest first. -/
  closed : List CycleSpan := []
  /-- TAI second of the TWE count, and the entries made in it (R146). -/
  tweSec : Nat := 0
  tweCount : Nat := 0
  /-- Stamp of the previous entry's firing (R145). -/
  lastFiring : Option Nat := none
  /-- A change of range or delay waits for the next TAI second, and the second at which it took effect (R152). -/
  settleDue : Bool := false
  settleAt : Option Nat := none
  /-- Conversion phase in steps of 50 ps, and whether it has been set since the start (R134, R136). -/
  phase : Nat := 0
  phaseSet : Bool := false
  commonModeOk : Bool := true
  /-- Quality of the twelve snapshot items (R148). -/
  itemsBad : BitVec 12 := 0
  deriving DecidableEq, Repr

/-- The samples of one ASDU placed in time (R162): the instant, and per position the value, none when it is missing. -/
structure SvSample where
  at_ : Nat
  values : List (Option Word)
  deriving DecidableEq, Repr

/-- A sampled-value stream (R162, R163). -/
structure SvStream where
  lastCount : Option Nat := none
  /-- The samples placed in time, newest first, and the last smpSynch. -/
  samples : List SvSample := []
  synch : Nat := 0
  /-- Up-time of the last frame. -/
  arrived : Nat := 0
  deriving DecidableEq, Repr

/-- A PMU (R155 to R159): the configuration-change flag, extended commands not acted on. -/
structure PmuStream where
  changed : Bool := false
  /-- Up-time of the last commit, and the reporting instant of the last data frame, sent or missed (R157, R159). -/
  committedAt : Nat := 0
  lastSent : Option Nat := none
  extended : Nat := 0
  /-- A staged configuration accepted and applied at the next frame tick: the words (R165). -/
  due : Option (List Word) := none
  deriving DecidableEq, Repr

/-- What held at a frame tick and after it until the next mark: the tick, TAI and up-time, time quality and slewing, the UTC offset, the levels of the
digital channels, and whether the module led the plant (R144, R151, R155, R156, R159). -/
structure TickMark where
  at_ : Nat
  up : Nat
  quality : Quality
  slewing : Bool
  utc : Int
  levels : Word
  leads : Bool
  deriving DecidableEq, Repr

/-- Acquisition. -/
structure Acq where
  channels : List (Nat × AcqChannel) := []
  streams : List (Nat × SvStream) := []
  pmus : List (Nat × PmuStream) := []
  /-- Newest phasors of each sampled-value source, by stream * 8 + position, newest first. -/
  svPhasors : List (Nat × List (List Word)) := []
  /-- The AFE tables in use, by channel and range (R136). -/
  afe : List AfeTable := []
  /-- The frame in progress: its tick, TAI and up-time; none before the first tick. -/
  frameFrom : Option (Nat × Nat) := none
  /-- The first samples after a step are still to be marked (R150). -/
  markNext : Bool := false
  /-- What held at past frame ticks, newest first; a mark is made where something differs from the last one. -/
  ticks : List TickMark := []
  /-- Class and rate that the registers ask for of each channel's PHA, where they ask for it (R158). -/
  phaClaims : List (Nat × (Bool × Nat)) := []
  /-- Subscriptions accepted and applied at the next frame tick (R165). -/
  svDue : List (Nat × List Word) := []
  /-- The set of enabled channels has changed; the RAW ring is reallocated at the next TAI second (R139). -/
  reallocDue : Bool := false
  /-- Time of the oldest RAW sample that may still be held (R139). -/
  rawSince : Nat := 0
  /-- Up-time at which the quality left LOCKED (R157). -/
  unlockedAt : Option Nat := none
  /-- Up-time of the last step: the mark that the rings carry (R150). -/
  steppedAt : Option Nat := none
  deriving DecidableEq, Repr

end Sys2Proof.Machine
end

