-- ==== Sys2Proof/Machine/Parts/Protocol.lean ====
section
/-!
DEFINITION. What the command protocol holds (Command Packets chapter): status codes, replies, sessions with their replay windows,
notices, rates, handles, window claims and statistics; and the messages the module sends.
-/

namespace Sys2Proof.Machine

/-- A reply: its status, the reason and detail of a refusal (R327), or the fields of its parameters and payload in the order
of Table QP-7. -/
structure Reply where
  status : Status
  reason : Nat := 0
  detail : Nat := 0
  fields : List Nat := []
  payload : List Nat := []
  deriving DecidableEq, Repr

/-- Who asked for something that ends with a notice or a later reply: session, sequence and CRC of the request (R342, R334). -/
structure Requester where
  session : Word
  seq : Word
  crc : Word
  /-- The port whose address was asked, 0 to 4: P3 for the station bus, P5 (Table NW-1). -/
  port : Nat := 2
  deriving DecidableEq, Repr

/-- A completion notice not yet acknowledged (R342). -/
structure Notice where
  session : Word
  count : Nat
  opcode : Nat
  ref : Word
  reply : Reply
  /-- Up-time of the first send, and how often it has been sent again. -/
  sentAt : Nat
  resends : Nat := 0
  deriving DecidableEq, Repr

/-- An open session (R329 to R334, R457). -/
structure Session where
  number : Word
  slot : Nat
  role : Nat
  path : Path
  confirmed : Bool := false
  /-- Up-time of opening and of the last accepted request, in 2^-32 ns. -/
  openedAt : Nat
  lastAt : Nat
  /-- Highest sequence accepted (H of R334). -/
  high : Nat := 0
  /-- Sequences from H − 63 to H that have been seen (R334). -/
  seen : List Nat := []
  /-- Sequence, CRC and reply of the last 16 requests, newest first (R334). -/
  held : List (Nat × Word × Reply) := []
  /-- Up-times of the requests accepted in the last 1,000 ms (R336). -/
  recent : List Nat := []
  /-- Up-times of the MAC failures in the last 1 s (R332). -/
  macFails : List Nat := []
  /-- Notices sent in the session (R342). -/
  notices : Nat := 0
  /-- The session's event cursor (R457). -/
  cursor : Nat := 0
  deriving DecidableEq, Repr

/-- What a transfer handle is for (R338, R339). -/
inductive HandleKind where
  | image (bank : Nat)
  | component (k : Nat)
  | record (number : Nat) (view : Nat) (file : Nat)
  deriving DecidableEq, Repr

/-- An open transfer handle (R338, R339). -/
structure Handle where
  id : Nat
  session : Word
  kind : HandleKind
  size : Nat
  digest : BitVec 256 := 0
  chunks : Nat
  /-- Chunks received, by index. -/
  stored : List (Nat × List Byte) := []
  /-- Lowest chunk index not yet received (NEXT of R339). -/
  next : Nat := 0
  /-- Chunk indices above NEXT already received. -/
  ahead : List Nat := []
  /-- Up-time of the last use. -/
  lastAt : Nat
  deriving DecidableEq, Repr

/-- A request relayed to the partner whose reply is awaited (R323). -/
structure Relay where
  by_ : Requester
  opcode : Nat
  sentAt : Nat
  deriving DecidableEq, Repr

/-- The windows whose units hold committed words. -/
inductive WinId where
  | pmu
  | sv
  | pat
  | records
  | fl
  | loop
  | station
  | goose
  | can0
  | can1
  | collar
  | snap
  deriving DecidableEq, Repr

/-- A number for each window, used in the key of its words. -/
def WinId.code : WinId → Nat
  | .pmu => 0
  | .sv => 1
  | .pat => 2
  | .records => 3
  | .fl => 4
  | .loop => 5
  | .station => 6
  | .goose => 7
  | .can0 => 8
  | .can1 => 9
  | .collar => 10
  | .snap => 11

/-- The counters of QCP_STATS, in the order of R346. -/
structure QcpStats where
  received : Nat := 0
  sent : Nat := 0
  crcFailures : Nat := 0
  badHeader : Nat := 0
  unknownOpcode : Nat := 0
  macFailures : Nat := 0
  replayed : Nat := 0
  rateLimited : Nat := 0
  notAuthorized : Nat := 0
  silent : Nat := 0
  freeUnanswered : Nat := 0
  opened : Nat := 0
  endedByTimeout : Nat := 0
  noticesDropped : Nat := 0
  relayFailures : Nat := 0
  transfers : Nat := 0
  deriving DecidableEq, Repr

/-- The command protocol. -/
structure Protocol where
  sessions : List Session := []
  notices : List Notice := []
  handles : List Handle := []
  nextHandle : Nat := 1
  relays : List Relay := []
  /-- Window, holding session and up-time of its last access (R348). -/
  claims : List (WindowId × Word × Nat) := []
  /-- Up-times and source addresses of the session-free packets of the last second (R328). -/
  freeRecent : List (Nat × Word) := []
  stats : QcpStats := {}
  /-- Beacons sent since the start (R344). -/
  beacons : Nat := 0
  /-- Packets received on P5, and sent on P5 and on the station bus, that the port counters show (Table NW-6). -/
  serviceIn : Nat := 0
  serviceOut : Nat := 0
  busOut : Nat := 0
  /-- What the last request was answered with; none when it was answered by silence. -/
  reply : Option Reply := none
  deriving DecidableEq, Repr

/-- The kinds of message the module sends. -/
inductive Message where
  | reply
  | notice
  | beacon
  | relayed
  | passed
  | confirmed
  | announce
  | sync
  | pdelayReq
  | pdelayResp
  | heartbeat
  | seamProposal
  | receiptList
  | stationCopy
  | mirror
  | track
  | slotStates
  | partnerRecord
  | pulseToggle
  | qspOutput
  | qspBind
  | bindReply
  | goose
  | gratuitousArp
  | arpReply
  | icmpReply
  | prpSupervision
  | forwarded
  | pmuData
  | pmuConfig
  | pmuHeader
  | twReport
  | hartRequest
  | canFrame
  | triggerLine
  | digitalOutput
  | sourceChange
  deriving DecidableEq, Repr

/-- Whether the safety logic's cut of the transmit enables of P1 to P5 and of the tandem link stops a message (R231, R233). The packets of QCP go on, since
a restart or the end of a lockout is commanded in a session (R235, R236; notes/assumptions/128.md). -/
def Message.cut : Message → Bool
  | .reply | .notice | .beacon | .hartRequest | .canFrame | .triggerLine | .digitalOutput => false
  | _ => true

/-- One thing the module has sent: its kind and its main fields in the order the rule names them. -/
structure Sent where
  kind : Message
  fields : List Nat := []
  /-- The bytes on the wire, for QCP packets, QSP frames and heartbeats (R5). -/
  bytes : List Byte := []
  deriving DecidableEq, Repr

end Sys2Proof.Machine
end

