-- ==== Sys2Proof/Machine/Parts/Can.lean ====
section
/-!
DEFINITION. What a CAN channel holds beside its registers and its buffers' configuration words (CAN FD Channels).
-/

namespace Sys2Proof.Machine

/-- A message buffer (R401 to R408). -/
structure CanBuffer where
  isNew : Bool := false
  overrun : Bool := false
  /-- The frame held, with its stamp words: seconds, quality and nanoseconds. A transmit buffer holds what the window wrote. -/
  frame : CanFrame := { ident := 0, rtr := false, esi := false, dlc := 0, data := [] }
  sec : Word := 0
  ns : Word := 0
  /-- The one-frame shadow of a locked buffer, with its stamp words. -/
  shadow : Option (CanFrame × Word × Word) := none
  /-- The frame queued for transmission, and the time at which it was. -/
  pending : Option CanFrame := none
  pendingAt : Nat := 0
  /-- Frames since the buffer was enabled, and since the last input cutoff; the newest frame for the points. -/
  count : Nat := 0
  recent : Nat := 0
  newest : Option CanFrame := none
  deriving DecidableEq, Repr

/-- A channel. -/
structure CanChannel where
  buffers : List (Nat × CanBuffer) := []
  /-- The locked buffer, its session and the up-time of the last read of the window (R404, R405). -/
  locked : Option (Nat × Word × Nat) := none
  /-- Taking part in the bus (R413). -/
  part : Bool := false
  /-- Error state 0 to 2 and the counters (R410). -/
  state : Nat := 0
  tec : Nat := 0
  rec_ : Nat := 0
  /-- Recovery from bus-off has started (R411). -/
  recovering : Bool := false
  /-- The time from which no transmission is started: H of a handover, in the outgoing module (R414). -/
  quietFrom : Option Nat := none
  /-- Up-time at which the detection began (R412). -/
  abSince : Nat := 0
  /-- Buffer configurations accepted, applied at the next frame tick. -/
  due : List (Nat × List Word) := []
  deriving DecidableEq, Repr

end Sys2Proof.Machine
end

