-- ==== Sys2Proof/Machine/Parts/Fabric.lean ====
section
/-!
DEFINITION. What the fabric holds beside its registers and the rule windows (DMA, Collars and Cuffs): memory, DMA channels, collar hits and
the fence in progress.
-/

namespace Sys2Proof.Machine

/-- A DMA channel (R428 to R432). The sleeve stands in its registers; this is the active set. -/
structure DmaChannel where
  /-- 0 idle, 1 running, 2 halted, 3 aborted. -/
  state : Nat := 0
  loaded : Bool := false
  named : Bool := false
  prefetchLost : Bool := false
  /-- CH_CTRL of the active set. -/
  ctrl : Word := 0
  /-- Source, destination and length of the active set as loaded, and the bytes written so far. -/
  src : Nat := 0
  dst : Nat := 0
  len : Nat := 0
  moved : Nat := 0
  completed : Nat := 0
  /-- A channel from 12 to 15 claimed by register configuration (R438). -/
  claimed : Bool := false
  deriving DecidableEq, Repr

/-- The last access a collar judged (R420 to R422): the rule that decided, whether it passed, the attributes that travelled with it (cacheable; order 0
relaxed, 1 ordered, 2 strongly ordered), and what a read returned. -/
structure Passage where
  access : Access
  rule : Nat
  passed : Bool
  cacheable : Bool
  order : Nat
  value : Word
  deriving DecidableEq, Repr

/-- The fabric. -/
structure Fabric where
  /-- Bytes of the fabric address space that do not read as 0, by rising address (R418). -/
  mem : List Host.Cell := []
  /-- DMA channels that are not at their start state (sparse, canonical). -/
  channels : List (Nat × DmaChannel) := []
  /-- Hits of a rule since its commit, by 16 × collar + rule. -/
  hits : List (Nat × Nat) := []
  /-- Rules 8 to 15 of a collar committed and applied at the next frame tick (R427), by collar: 24 words. -/
  rulesDue : List (Nat × List Word) := []
  /-- The fence in progress: the collars, its start (up-time), and the write that waits for it (R426). -/
  fence : Option (Nat × Nat × Option (Nat × Requester)) := none
  /-- The error of an ALL_HALT that has not drained yet (R431). -/
  error : Option DmaError := none
  passage : Option Passage := none
  deriving DecidableEq, Repr

end Sys2Proof.Machine
end

