-- ==== Sys2Proof/Machine/Parts/Frame.lean ====
section
/-!
DEFINITION. What frames, tasks, control images, run modes, tacks and the image switch hold beside their registers (Frames, Cycles and
Control Images; Online Change).
-/

namespace Sys2Proof.Machine

/-- A point of the process image (R68, R542): its value, the time of a type-0x8 point, bad quality, whether it has held a good value, and
for an output whether its owner has committed it since the run tick (Table FX-12). -/
structure PointVal where
  /-- The value in the process image: for an output what was last committed, a force or a hem value included. -/
  value : Word := 0
  /-- An output's last value from its owner. -/
  own : Word := 0
  stamp : Nat := 0
  bad : Bool := true
  ever : Bool := false
  committed : Bool := false
  deriving DecidableEq, Repr

/-- A task instance between release and commit (R68, R78). Frames are counted since the TAI epoch. -/
structure TaskInstance where
  task : Nat
  /-- Time index of its cycle (R65). -/
  index : Nat
  /-- Release tick, as a time value. -/
  released : Nat
  /-- The frame at whose output commit its writes are committed. -/
  commitFrame : Nat
  /-- Timestamp of the releasing event of an E task (R67). -/
  stamp : Option Instant := none
  firstScan : Bool := false
  done : Bool := false
  /-- Stopped at its budget: its writes are discarded (R79). -/
  stopped : Bool := false
  /-- The points as the instance sees them: as they stood when the first compute window of its cycle opened (R68). -/
  view : Option (List (Word × Word)) := none
  writes : List (Word × Word) := []
  /-- Instance storage as it stands when its writes are committed. -/
  stores : List (Nat × Storage) := []
  /-- Tacks to be scheduled and cancelled when its writes are committed (R90, R96). -/
  tacks : List TackRequest := []
  cancels : List Word := []
  /-- Internal flags to be set at its commit (R173). -/
  flags : List (Fin 32 × Bool) := []
  deriving DecidableEq, Repr

/-- A release of an E task set for a frame, with its event's timestamp; a deferred one takes further events into itself (R67). -/
structure ERelease where
  frame : Nat
  stamp : Option Instant
  deferred : Bool := false
  deriving DecidableEq, Repr

/-- Release bookkeeping of an E task (R67, R116): frame of its last release, the releases set for later frames, and those held for a switch,
each in the order of their frames. -/
structure ETask where
  last : Option Nat := none
  due : List ERelease := []
  held : List ERelease := []
  deriving DecidableEq, Repr

/-- A pending change between STOP and RUN (R83). -/
structure RunChange where
  toRun : Bool
  tick : Nat
  by_ : Option Requester
  confirmed : Bool := false
  deriving DecidableEq, Repr

/-- A mode request that takes effect at the next frame tick, the row of Table FX-11, and who asked. -/
structure ModeRequest where
  mode : RunMode
  row : Nat
  by_ : Option Requester
  deriving DecidableEq, Repr

/-- The results of an overrun decision (Table FX-9). -/
inductive OverrunResult where
  | out
  | safeCommon
  | safeLone
  deriving DecidableEq, Repr

/-- An overrun whose decision is open (R79): its cycle, when the window ends (frames since the start), and what the partner said. -/
structure OverrunCase where
  cls : Nat
  task : Nat
  index : Word
  ends : Nat
  /-- Commit frame of the instance. -/
  commit : Nat
  /-- A heartbeat of the partner has arrived in the window. -/
  heard : Bool := false
  /-- The window has ended without any heartbeat. -/
  waiting : Bool := false
  deriving DecidableEq, Repr

/-- A queued tack (R90 to R92). `owner` is the task that scheduled it, or none for a tack scheduled through QCP. -/
structure Tack where
  id : Word
  time : Nat
  action : Nat
  target : Nat
  value : Word
  owner : Option Nat
  deriving DecidableEq, Repr

/-- A verdict of the flip (R122): OK, or the reason code of Table OC-6 for the failure. -/
inductive FlipVerdict where
  | ok
  | fail (reason : Nat)
  deriving DecidableEq, Repr

/-- A pending image switch (R103, R117 to R123). -/
structure Switch where
  /-- Who gets the completion notice, when it was started by IMAGE_SWITCH. -/
  by_ : Option Requester
  /-- The tack that started it, and its time (R120). -/
  tack : Option (Word × Nat)
  prepared : Bool := false
  tick : Option Nat := none
  confirmed : Bool := false
  /-- An overrun of an instance whose commit frame is the switch frame has been detected (R122). -/
  overrun : Bool := false
  verdict : Option FlipVerdict := none
  deriving DecidableEq, Repr

/-- An effect waiting for its application tick (R203, R350, R368), with the reply owed for it. -/
structure Application where
  tick : Nat
  effect : AppEffect
  confirmed : Bool
  by_ : Option Requester
  deriving DecidableEq, Repr

/-- An upload whose verification runs (R340): the size, the digest given at the start, the bytes received, and who gets the notice. -/
structure Verification where
  size : Nat
  digest : BitVec 256
  bytes : List Byte
  by_ : Option Requester
  deriving DecidableEq, Repr

/-- Frames, tasks, images, run modes and tacks. -/
structure Frame where
  /-- Time value of the last frame tick. -/
  t0 : Nat := 0
  /-- Frame ticks since the start. -/
  count : Nat := 0
  /-- The time base has been stepped, and the step frame has not begun yet (R25). -/
  stepped : Bool := false
  /-- How far the frame in progress has come: 0 from its tick, 1 with the compute window open, 2 from its close, 3 from the output commit
  (Table FX-1). -/
  stage : Nat := 0
  /-- The instance running or suspended last on each core pair, by task number. -/
  run0 : Option Nat := none
  run1 : Option Nat := none
  /-- End of task activity on each core pair in the frame in progress, in 2.5 ns ticks from t0. -/
  end0 : Option Nat := none
  end1 : Option Nat := none
  /-- RUN has been entered since the start (Table FX-12). -/
  everRun : Bool := false
  instances : List TaskInstance := []
  /-- E-task bookkeeping that is not at its start state (sparse, canonical). -/
  eTasks : List (Nat × ETask) := []
  /-- Decoded content of the two banks, and the running bank (R102, R125). -/
  bank0 : Option Image := none
  bank1 : Option Image := none
  runBank : Nat := 0
  /-- Points of the process image that are not at their start state, by point reference (sparse, canonical). -/
  points : List (Nat × PointVal) := []
  /-- Forces by point reference (R350). -/
  forces : List (Nat × Word) := []
  /-- Instance storage by instance number (R107, R111, R113). -/
  store : List (Nat × Storage) := []
  /-- The retentive data and tack queue of the last commit to MRAM (R97, Power chapter). -/
  retained : List (Nat × Storage) := []
  retainedTacks : List Tack := []
  /-- Where the retentive instances lie in the 4 MB of MRAM: by instance number the pieces, each an offset and a length (R109). -/
  placement : List (Nat × List (Nat × Nat)) := []
  /-- Digital output channels that an image switch left unbound: they stand at their hem values (R110). -/
  unbound : List Nat := []
  /-- Digest of the STANDBY partner's other bank, as last shown by it, when that is ADMITTED (R120). -/
  partnerBank : Option (BitVec 256) := none
  /-- Tasks that have not run since the last change from STOP to RUN or since they came with a new image (R85, R126). -/
  firstScan : List Nat := []
  /-- Instances whose first-scan bit is set (R107, R126). -/
  instanceFirst : List Nat := []
  runChange : Option RunChange := none
  /-- Accepted requests for the next frame tick, oldest first (R84). -/
  modeRequests : List ModeRequest := []
  /-- A STANDBY takes its partner's run mode at the next frame tick (R82). -/
  followMode : Option RunMode := none
  /-- The automatic RUN request is pending (R543). -/
  autoRun : Bool := false
  overruns : List OverrunCase := []
  decision : Option OverrunResult := none
  /-- Overruns the partner has reported: class, time index, frame count of the report (R79). -/
  peerReports : List (Nat × Word × Nat) := []
  /-- Overruns still to be reported, oldest first; the one that this frame's heartbeat reports; and the cycles within budget (R79,
  Table PR-2). -/
  reports : List (Nat × Word) := []
  reportNow : Option (Nat × Word) := none
  within : Half := 0
  tacks : List Tack := []
  nextTack : Word := 1
  /-- Restored tacks wait for the first tick with a time quality other than UNSET (R97). -/
  restored : Bool := false
  /-- Identities of the tacks restored at the start and not yet judged (R97). -/
  restoredIds : List Word := []
  sw : Option Switch := none
  applications : List Application := []
  verification : Option Verification := none
  /-- An admission in progress: who gets the notice (none: no session). -/
  admission : Option (Option Requester) := none
  /-- The upload in progress in the other bank on behalf of the ACTIVE (R104, R341): size, digest, chunks. -/
  passedUpload : Option (Nat × BitVec 256 × List (Nat × List Byte)) := none
  /-- Seam items of this module and those adopted for the frame (R271, R276). -/
  ownItems : List SeamItem := []
  seamItems : List SeamItem := []
  /-- The whole proposal has arrived with valid CRCs (R272). -/
  proposal : Bool := false
  /-- A warm restart is made at the next frame tick (R345, Table UP-1). -/
  restartDue : Bool := false
  /-- Execution time on each core pair since the last C5 cycle start, ns (FRAME.UTIL_MEAS). -/
  busy0 : Nat := 0
  busy1 : Nat := 0
  deriving DecidableEq, Repr

end Sys2Proof.Machine
end

