-- ==== Sys2Proof/Machine/Parts/Io.lean ====
section
/-!
DEFINITION. What the digital channels, the current loops and HART hold beside their registers (Digital Inputs and Outputs; Current-Loop
Outputs and HART). The latches and release states of the pair base are held here as this module sees them.
-/

namespace Sys2Proof.Machine

/-- A digital channel (R355 to R363). Times called up-times run since the start. -/
structure DioChannel where
  raw : Bool := false
  /-- The debounced level. -/
  level : Bool := false
  /-- Time of the last accepted transition. -/
  stamp : Nat := 0
  /-- The open run: the stamp of its first raw edge, and the up-time of its last raw edge. -/
  run : Option (Nat × Nat) := none
  /-- The value of the output latch, and the time it was last changed. -/
  latch : Bool := false
  /-- Awaiting its staged release (R366). -/
  unreleased : Bool := false
  /-- A switching delay being measured: the new sense, time and up-time of the latch change (R360). -/
  measuring : Option (Bool × Nat × Nat) := none
  /-- Up-time since which the output is commanded off. -/
  offSince : Nat := 0
  /-- Consecutive frame ticks with the readback high, and low, while commanded off. -/
  highTicks : Nat := 0
  lowTicks : Nat := 0
  forcedOn : Bool := false
  overload : Bool := false
  thermal : Bool := false
  /-- The switch is shut down by its temperature; and the up-time of its last restart (Table DI-5). -/
  hot : Bool := false
  restartAt : Nat := 0
  openLoad : Bool := false
  deriving DecidableEq, Repr

/-- A digital group (R363, R365). -/
structure DioGroup where
  warn : Bool := false
  high : Bool := false
  low : Bool := false
  /-- The inputs of the group are invalid since the last frame tick. -/
  invalid : Bool := false
  /-- Up-time of the GROUP_OVER trip that holds the outputs off. -/
  tripped : Option Nat := none
  latchedOff : Bool := false
  /-- Up-times of the trips of the last 60 s. -/
  trips : List Nat := []
  deriving DecidableEq, Repr

/-- A current-loop channel (R374 to R383). Currents are binary32 mA. -/
structure AoChannel where
  /-- The last finite command from its owner, and whether one came since the run tick. -/
  cmd : Word := 0
  committed : Bool := false
  cmdInvalid : Bool := false
  /-- The failure request (R373). -/
  request : Nat := 0
  /-- The value last written, and values on their way to the converter with the up-time of their write (R377). -/
  target : Word := 0
  writes : List (Nat × Word) := []
  converter : Word := 0
  /-- The low-pass before the converter with HART (R394): its value, its slope, and the up-time they hold at. -/
  passed : Word := 0
  slope : Word := 0
  passedAt : Nat := 0
  /-- Awaiting its staged release (R378). -/
  unreleased : Bool := true
  compliance : Bool := false
  /-- Up-time at which the try in progress began (R381). -/
  trying : Option Nat := none
  /-- The try in progress has come to its value (R381). -/
  reached : Bool := false
  /-- Up-time of COMPLIANCE or of the last try. -/
  triedAt : Nat := 0
  miswire : Bool := false
  /-- Up-times at which MISWIRE, SENSE_FAULT and SUPPLY_FAULT were last seen (Table AO-6). -/
  miswireAt : Nat := 0
  senseAt : Nat := 0
  supplyAt : Nat := 0
  foldback : Bool := false
  thermal : Bool := false
  /-- Up-time at which foldback ended (R380). -/
  coolSince : Nat := 0
  senseFault : Bool := false
  supplyFault : Bool := false
  deriving DecidableEq, Repr

/-- A HART transaction (R389 to R395): of the scan with its command, of the window, or the command 0 that the window's device is asked first. -/
inductive HartJob where
  | scan (command : Nat)
  | window
  | ask
  deriving DecidableEq, Repr

/-- A HART channel (R388 to R395). -/
structure HartChannel where
  /-- CH_STAT [31:28]: 0 off, 1 identifying, 2 polling, 3 comm lost, 4 burst listening. -/
  state : Nat := 0
  identified : Bool := false
  /-- The transaction in progress, and those queued. -/
  job : Option HartJob := none
  queue : List HartJob := []
  secondary : Bool := false
  lastCode : Byte := 0
  lastStatus : Byte := 0
  /-- Values of Table AO-9, k = 0 to 5, as last decoded; and communication good. -/
  values : List Word := [0, 0, 0, 0, 0, 0]
  good : Bool := false
  /-- Up-time of the last poll. -/
  polledAt : Nat := 0
  deriving DecidableEq, Repr

/-- Digital channels, current loops and HART. -/
structure Io where
  channels : List (Nat × DioChannel) := []
  groups : List (Nat × DioGroup) := []
  /-- Transitions accepted since the last frame tick, oldest first: channel, level, stamp (R357, Table PR-5). -/
  transitions : List (Nat × Bool × Nat) := []
  loops : List (Nat × AoChannel) := []
  hart : List (Nat × HartChannel) := []
  /-- Links of the field sides and of the loop side are up (R496, Tables DI-8 and AO-10). -/
  fieldUp : Bool := false
  loopUp : Bool := false
  deriving DecidableEq, Repr

end Sys2Proof.Machine
end

