-- ==== Sys2Proof/Machine/Parts/Lock.lean ====
section
/-!
DEFINITION. What core pairs and comparison hold beside their registers (Core Pairs and Comparison).
-/

namespace Sys2Proof.Machine

/-- Core pairs and comparison. -/
structure Lock where
  /-- Up-time at which the latched fault was raised (R233, R235). -/
  faultAt : Nat := 0
  /-- A fault waits to be followed by OUT and STOP (R233). -/
  toOut : Bool := false
  /-- Output enables and transmitters are cut off (R231, R236, R238). -/
  cutOff : Bool := false
  /-- Operating seconds at which the faults that still count were raised (R236). -/
  faultTimes : List Nat := []
  /-- The lane the background test takes next (R239). -/
  lane : Nat := 0
  /-- Consecutive safety readbacks that disagreed (R240). -/
  disagree : Nat := 0
  /-- Pairs split at the last start: CX2, CX1, CX0 (R241). -/
  split : BitVec 3 := 0
  /-- HOLD has been left and lockstep is not yet restored (R250). -/
  restoring : Bool := false
  /-- Time of entry to HOLD (LOCK.DEBUG_INFO). -/
  heldSince : Nat := 0
  /-- Pairs to which debug access is open: CX1, CX0 (R249). -/
  debugAccess : Nat := 0
  deriving DecidableEq, Repr

end Sys2Proof.Machine
end

