-- ==== Sys2Proof/Machine/Parts/Loop.lean ====
section
/-!
DEFINITION. What the loop engine holds for a slot beside its committed words (Closed-Loop Engine).
-/

namespace Sys2Proof.Machine

/-- A slot of the loop engine (R208 to R219): the eleven section states in the order C1 s1, s2, s3, C2 …, C3 …, N s1, s2; the last us
and y; the status bits of Table LE-3; and what the schedule needs. -/
structure Slot where
  states : List Dword := List.replicate 11 0
  us : Dword := 0
  y : Dword := 0
  satHi : Bool := false
  satLo : Bool := false
  inFault : Bool := false
  stateFault : Bool := false
  subst : Bool := false
  cascPrev : Bool := false
  /-- Frame number of the last evaluation (skipped ones do not count). -/
  evaluated : Option Nat := none
  /-- Frame number in which the slot was last taken on its lane, and its place there (R217). -/
  taken : Option (Nat × Nat) := none
  /-- Last good input (R213). -/
  lastGood : Dword := 0
  /-- Last write time in 2.5 ns ticks from t0 (word 14 [15:0]). -/
  lastWrite : Nat := 0
  /-- A value computed and not yet written to its destination. -/
  writeDue : Bool := false
  /-- Frame number of the last write. -/
  wrote : Option Nat := none
  deriving DecidableEq, Repr

/-- A notch design in progress (R222, R223): who asked through QCP, the target, and its parameters in binary32. -/
structure Design where
  by_ : Option Requester
  slot : Nat
  sect : Nat
  apply : Bool
  f0 : Word
  width : Word
  depth : Word
  deriving DecidableEq, Repr

/-- The loop engine. -/
structure Loop where
  /-- Slots that are not at their start state (sparse, canonical). -/
  slots : List (Nat × Slot) := []
  /-- Next place on each of the four lanes in the frame in progress (R217). -/
  lanes : List Nat := [0, 0, 0, 0]
  /-- Task writes to slot words not yet committed, and those committed that apply from the next frame tick (R205): slot, word, value. -/
  taskWrites : List (Nat × Nat × Word) := []
  committed : List (Nat × Nat × Word) := []
  /-- Latest end of an evaluation in the frame in progress, in 2.5 ns ticks from t0. -/
  endNow : Nat := 0
  /-- A notch design in progress (R222). -/
  design : Option Design := none
  deriving DecidableEq, Repr

end Sys2Proof.Machine
end

