-- ==== Sys2Proof/Machine/Parts/Net.lean ====
section
/-!
DEFINITION. What the networks hold beside their registers and windows (Networks, Remote Stations and Discovery; Table PR-6).
-/

namespace Sys2Proof.Machine

/-- A remote station (R307 to R311). -/
structure Station where
  bound : Bool := false
  absent : Bool := false
  refused : Bool := false
  /-- Time of the pending bind cycle, and whether it is a rebind. -/
  bindAt : Option Nat := none
  rebind : Bool := false
  /-- Address of its roll-call, and of the roll-call whose bind cycle is pending. -/
  mac : BitVec 48 := 0
  newMac : BitVec 48 := 0
  /-- Consecutive cycles without a complete input set. -/
  misses : Nat := 0
  /-- TAI seconds of the last change of state. -/
  changed : Word := 0
  /-- STEP of its last INPUT frame: another value begins a new sequence space (R27). -/
  step : Byte := 0
  deriving DecidableEq, Repr

/-- A station window commit accepted and not yet in effect: the tick, the station and its words (R307). -/
structure StationDue where
  tick : Nat
  station : Nat
  words : List Word
  deriving DecidableEq, Repr

/-- A GOOSE publisher (R313). -/
structure Publisher where
  stNum : Word := 0
  sqNum : Word := 0
  /-- Members as last published. -/
  last : List Word := []
  /-- t of the state, the interval to the next repeat in ms, and the up-time of the last message. -/
  since : Nat := 0
  interval : Nat := 0
  sentAt : Nat := 0
  deriving DecidableEq, Repr

/-- A GOOSE subscription (R314): state of Table NW-8, word 29. -/
structure Subscription where
  state : Nat := 0
  stNum : Word := 0
  sqNum : Word := 0
  /-- Up-time at which timeAllowedToLive expires. -/
  expires : Nat := 0
  deriving DecidableEq, Repr

/-- A node of a redundancy network (R297). -/
structure Node where
  mac : BitVec 48
  /-- 1 DANP, 2 DANH, 3 single on A, 4 single on B (Table NW-9). -/
  kind : Nat
  /-- Up-time of its last frame. -/
  seen : Nat
  deriving DecidableEq, Repr

/-- A frame held for duplicate discard (R297): source, sequence, up-time of the first copy, copies on A and on B. -/
structure Duplicate where
  mac : BitVec 48
  sequence : Half
  first : Nat
  onA : Nat
  onB : Nat
  deriving DecidableEq, Repr

/-- A redundancy network: 0 process bus, 1 station bus. -/
structure Redundancy where
  /-- Mode in force: 0 alone, 1 PRP, 2 HSR (R293). -/
  mode : Nat := 1
  upA : Bool := false
  upB : Bool := false
  /-- Up-times of the last frame on each LAN, and of the last LAN change. -/
  seenA : Nat := 0
  seenB : Nat := 0
  changedAt : Nat := 0
  nodes : List Node := []
  window : List Duplicate := []
  /-- Own frames have come back on A and on B (PRP.HSR_STATE). -/
  backA : Bool := false
  backB : Bool := false
  brokenAt : Nat := 0
  /-- Up-time of the last supervision frame sent (R297). -/
  supervisedAt : Nat := 0
  deriving DecidableEq, Repr

/-- Networks. -/
structure Net where
  stations : List (Nat × Station) := []
  stationDue : List StationDue := []
  /-- Identities refused with the up-time of the last REFUSE (R308). -/
  refusals : List (Dword × Nat) := []
  /-- Receipts for the coming C2 cycle; those of the list closed at the cutoff; the settled set, its digest and the cycle it is for. -/
  receipts : List Receipt := []
  closed : List Receipt := []
  settled : List Receipt := []
  settledFor : Option Nat := none
  /-- The cycle (C2 start) whose list has been closed. -/
  closedFor : Option Nat := none
  publishers : List (Nat × Publisher) := []
  subscriptions : List (Nat × Subscription) := []
  /-- GOOSE control blocks accepted, applied at the next frame tick. -/
  gooseDue : List (Nat × List Word) := []
  /-- NET.QSP_TIMING in force (R306). -/
  timing : Word := 0x00C80064
  /-- Role ACTIVE or SOLO since this up-time, and the gratuitous ARP messages sent (R296). -/
  leading : Option Nat := none
  arps : Nat := 0
  net0 : Redundancy := {}
  net1 : Redundancy := {}
  /-- Up-times of the HELLOs answered in the last second (R315). -/
  hellos : List Nat := []
  /-- Up-time of the last beacons (R315). -/
  beaconAt : Nat := 0
  /-- Transceivers fitted in P1 to P4. -/
  cages : List (Nat × Bool) := []
  deriving DecidableEq, Repr

end Sys2Proof.Machine
end

