-- ==== Sys2Proof/Machine/Parts/Pair.lean ====
section
/-!
DEFINITION. What the redundant pair holds beside its registers (The Redundant Pair chapter): the partner as last heard, the paths, the
yoke, digests, handover, tracking and the extraction lever.
-/

namespace Sys2Proof.Machine

/-- One of the two heartbeat paths (R258). -/
structure HeartPath where
  up : Bool := false
  /-- It was up and has been lost (R258). -/
  lost : Bool := false
  misses : Nat := 0
  good : Nat := 0
  /-- A heartbeat or toggle of the frame in progress has arrived. -/
  seen : Bool := false
  deriving DecidableEq, Repr

/-- A handover pending or in its share window (R280). `by_` gets the completion notice; none when the lever asked. -/
structure Handover where
  tick : Nat
  by_ : Option Requester
  confirmed : Bool := false
  /-- This module gives the yoke away (it was ACTIVE). -/
  giver : Bool
  /-- The extraction lever asked for it (R270). -/
  lever : Bool := false
  /-- H has come: the share window is open. -/
  sharing : Bool := false
  deriving DecidableEq, Repr

/-- A digest mismatch whose outcome is open (R278). -/
structure MismatchCase where
  /-- Frame count (since the start) of the mismatch. -/
  at_ : Nat
  partner : Option Bool := none
  deriving DecidableEq, Repr

/-- The pair. -/
structure Pair where
  /-- Position B, from the slot code (R253). -/
  posB : Bool := false
  /-- A partner module is inserted. -/
  partnerPresent : Bool := false
  /-- The partner's role and run mode from its last heartbeat, its FLAGS byte and pair identity (PAIR.PARTNER). -/
  partnerRole : Role := .init
  partnerMode : RunMode := .stop
  partnerFlags : Byte := 0
  partnerId : Half := 0
  /-- The partner's running versions of MFW, RTK, FSD and FSA as far as they are known (R473, UPD.PAIR_WINDOW). -/
  partnerVersions : List Word := []
  /-- Role STANDBY, ACTIVE or SOLO has been reached since the start (R471). -/
  reached : Bool := false
  partnerSwitch : Bool := false
  /-- Time of the last valid heartbeat (R266). -/
  heardAt : Option Nat := none
  /-- A heartbeat has come on some path since the start-up test passed (Table PR-3). -/
  heard : Bool := false
  /-- SOLO_WAIT has expired without one. -/
  waited : Bool := false
  testedAt : Nat := 0
  /-- Pair identity read from the pair base, and the stored identity (R254). -/
  baseId : Half := 0
  storedId : Half := 0
  /-- The pair window of every component of the partner was refused (R473, Table PR-3). -/
  windowRefused : Bool := false
  tandem : HeartPath := {}
  pulse : HeartPath := {}
  lane0 : Bool := false
  lane1 : Bool := false
  degraded : Bool := false
  partnerFailed : Bool := false
  /-- The yoke (R260 to R264, Table PR-16). -/
  claim : Bool := false
  clamped : Bool := false
  refreshed : Nat := 0
  claimPartner : Bool := false
  grant : Bool := false
  grantPartner : Bool := false
  share : Bool := false
  sharePartner : Bool := false
  takeoverIn : Bool := false
  takeoverOut : Bool := false
  /-- The grant was lost while the claim was asserted and no share window was open (Table PR-3). -/
  grantLost : Bool := false
  /-- Times at which the last grant ended and at which the partner's grant fell (R265, R283). -/
  ungrantedAt : Nat := 0
  partnerFellAt : Nat := 0
  unheld : Bool := true
  /-- The seam (R272): consecutive unagreed frames, the last frame, frames since the last disagreement (Table PR-8). -/
  unagreed : Nat := 0
  lastAgreed : Bool := false
  lastSeam : Bool := false
  cleanFrames : Nat := 100
  muted : Bool := false
  digestOwn : Dword := 0
  digestPeer : Dword := 0
  /-- The digests of the frame in progress: own, once formed, and the partner's, once its heartbeat has arrived. -/
  ownNow : Option Dword := none
  peerNow : Option Dword := none
  /-- The two have been compared and differ. -/
  differNow : Bool := false
  mismatch : Option MismatchCase := none
  /-- A memory error has been logged since the last frame with agreeing digests (R278). -/
  memoryError : Bool := false
  /-- Own self-check result to be sent in heartbeats (R278). -/
  selfCheck : Option Bool := none
  /-- A role asked for, to be taken at the next frame tick, with the one who waits for the reply (R268). -/
  roleRequest : Option (Role × Option Requester) := none
  /-- Go OUT at the next frame tick with this cause (Table PR-4). -/
  outDue : Option Nat := none
  /-- Drop to TRACK at the next frame tick (Table PR-3). -/
  trackDue : Bool := false
  lever : Bool := false
  /-- The lever's request stands and is retried (R270). -/
  leverStanding : Bool := false
  /-- Up-time at which it was last refused. -/
  leverAt : Nat := 0
  handover : Option Handover := none
  /-- HO_STATE of the heartbeats sent (Table PR-2). -/
  hoConfirm : Half := 0
  /-- Frame of the last handover tick, at which the checks of Table PR-3 rest (R266), and frame of the last heartbeat. -/
  hoFrame : Option Nat := none
  heardFrame : Nat := 0
  /-- After the handover that the lever asked for, go OUT (R270, R500). -/
  leverOut : Bool := false
  /-- Event 0x2208 has been raised for the switch pending at the partner (R128). -/
  heldNoted : Bool := false
  /-- The last takeover followed a self-check (Table PR-7). -/
  selfTaken : Bool := false
  /-- Largest gap measured since the partner's grant fell, ns (R283). -/
  gap : Nat := 0
  /-- Tracking (R286 to R288): phase 0 idle, 1 to 7; round; join ticks passed over; time of its start; dirty pages. -/
  phase : Nat := 0
  round : Nat := 0
  passedOver : Nat := 0
  trackSince : Nat := 0
  /-- Verification passed: STANDBY at the next frame tick. -/
  verified : Bool := false
  dirty : List Nat := []
  /-- Pages of the leader's copy in this tracking (all are dirty at the start of a round). -/
  pageCount : Nat := 0
  /-- Frames with agreeing digests in phase 7. -/
  verifyFrames : Nat := 0
  /-- Slots whose state has arrived in the capture frame (R288). -/
  slotsSeen : List Nat := []
  deriving DecidableEq, Repr

end Sys2Proof.Machine
end

