-- ==== Sys2Proof/Machine/Parts/Power.lean ====
section
/-!
DEFINITION. What the power supply, the hold-up bank, the lining and the front panel hold beside their registers (Power, Hold-up and the
Lining; Module, Pair Base and Connectors).
-/

namespace Sys2Proof.Machine

/-- How far a start from main power has come (R509, Sequence HW-1). -/
inductive SupplyPhase where
  /-- The module runs. -/
  | running
  /-- In reset, without an input above the start threshold. -/
  | off
  /-- The start delay D runs. -/
  | delay
  /-- The hold-up bank charges. -/
  | charging
  /-- The rails start. -/
  | rails
  deriving DecidableEq, Repr

/-- How far a power-loss sequence has come (R514). -/
inductive LossPhase where
  | none
  | detected
  | committing
  | committed
  deriving DecidableEq, Repr

/-- Power, lining and front panel. -/
structure Power where
  supply : SupplyPhase := .running
  /-- Up-time at which the start delay began. -/
  delaySince : Nat := 0
  loss : LossPhase := .none
  /-- Up-times of the detection and of the power-loss tick, the role at that tick, and whether the yoke was kept through the commit
  (R515). -/
  lossAt : Nat := 0
  lossTick : Nat := 0
  lossRole : Role := .init
  yokeKept : Bool := false
  /-- The last power-loss sequence ended since the last start; its commit reached its marker (R517, R518). -/
  afterLoss : Bool := false
  stale : Bool := false
  /-- The hold-up measurement in progress: up-time of its start (R512), and that of the last one. -/
  measuring : Option Nat := none
  measuredAt : Option Nat := none
  /-- Main power is on (R527), and a start from it waits for the lever (R499). -/
  powered : Bool := true
  /-- The lamp test runs; the locate blinking ends at this up-time (R491). -/
  lamp : Bool := false
  locateEnd : Nat := 0
  /-- Up-time at which the RTC registers were last written (R521). -/
  rtcAt : Nat := 0
  /-- MRAM copies of the lining (R523). -/
  copySec : Word := 0
  copyCycles : Word := 0
  copyBoot : Half := 0
  /-- Up-time of the last copy. -/
  copyAt : Nat := 0
  /-- Up-time of the last daily cell test (R526). -/
  cellAt : Option Nat := none
  /-- The tamper switch is open now. -/
  tamperOpen : Bool := false
  /-- An opening while the module did not run, to be reported at the next start (R524). -/
  tamperDue : Bool := false
  /-- The start in progress was released by the lever (ID.INSERTIONS, Sequence HW-1). -/
  inserted : Bool := false
  deriving DecidableEq, Repr

end Sys2Proof.Machine
end

