-- ==== Sys2Proof/Machine/Parts/Recorder.lean ====
section
/-!
DEFINITION. What the event recorder holds (Event Recorder chapter): the records of the log, the intake queue, the loss counters,
the window copy and the cursors.
-/

namespace Sys2Proof.Machine

/-- An event as it stands in the intake queue (R450): everything the record takes at the moment of raising (R447, R448). -/
structure RaisedEvent where
  code : Half
  severity : Nat
  pleated : Bool
  source : Half
  role : Role
  mode : RunMode
  opSec : Word
  powerCycles : Word
  sec : Nat
  ns : Nat
  quality : Quality
  powerLoss : Bool
  /-- Frame ticks since the start at the moment of raising (R451). -/
  tick : Nat := 0
  snapList : Nat
  snapGen : Nat
  snap : List Word
  deriving DecidableEq, Repr

/-- The recorder (R443 to R460). -/
structure Recorder where
  /-- Held records, by rising INDEX (R444). -/
  records : List EventRecord := []
  /-- INDEX of the newest record ever made (R444). -/
  newest : Nat := 0
  /-- Events raised and not yet recorded, oldest first; at most 512 (R450). -/
  intake : List RaisedEvent := []
  /-- An event was dropped at the full queue and 0x7C04 is still owed (R450). -/
  overflowDue : Bool := false
  /-- Frame-tick count at which 0x7C04 was last raised, if it was since the start (R450). -/
  overflowAt : Option Nat := none
  /-- Frame-tick count at which 0x7C02 was last raised, if it was since the start (R453). -/
  dropAt : Option Nat := none
  /-- INDEX of the most recent record made by this module since the start, with the tick of its last occurrence (R451). -/
  foldable : Option (Nat × Nat) := none
  /-- Frame ticks since the last start (R451). -/
  ticks : Nat := 0
  loss : Word := 0
  lossSev : Word := 0
  intakeLost : Word := 0
  intakeMax : Word := 0
  overwritten : Word := 0
  folded : Word := 0
  discarded : Word := 0
  alarm : Word := 0
  /-- INDEX of the newest record at the last acknowledgement (R459); part of the seal. -/
  ackIndex : Nat := 0
  /-- The seal passes its check (R454). -/
  sealOk : Bool := true
  /-- The window: cursor, the copy loaded at it, if any (R458). -/
  winCursor : Nat := 0
  winCopy : Option EventRecord := none
  winPtr : Nat := 0
  deriving DecidableEq, Repr

end Sys2Proof.Machine
end

