-- ==== Sys2Proof/Machine/Parts/Time.lean ====
section
/-!
DEFINITION. What the time base, the reference inputs and PTP hold beside their registers (Time Base and Reference Clock chapter).
-/

namespace Sys2Proof.Machine

/-- The state a reference input reports in TREF.STATUS: absent, qualifying, qualified, disqualified (Table TB-14). -/
inductive RefState where
  | absent
  | qualifying
  | qualified
  | disqualified
  deriving DecidableEq, Repr

/-- The codes of TREF.STATUS (Table TB-14). -/
def RefState.code : RefState → Nat
  | .absent => 0
  | .qualifying => 1
  | .qualified => 2
  | .disqualified => 3

/-- A reference input (R34 to R43). -/
structure Reference where
  state : RefState := .absent
  /-- Consecutive valid seconds (R34). -/
  valid : Nat := 0
  /-- Consecutive invalid or missing seconds (R34). -/
  bad : Nat := 0
  /-- Last measured offset, reference minus time base, in 2^-8 ns (TREF.REF_OFFSET). -/
  offset : Int := 0
  /-- The label of the last second that began, which the next label follows (R39); none before the first and after a loss. -/
  label : Option Nat := none
  traceable : Bool := true
  /-- Seconds it has stayed qualified, for the wait-to-restore of R35. -/
  qualifiedFor : Nat := 0
  /-- The label that a correct message gave to the second about to begin (R39). -/
  seen : Option Nat := none
  /-- An edge arrived in the second in progress, and whether it was within 1 s ± 5 µs (R39). -/
  edge : Option Bool := none
  /-- A message or frame arrived in the second in progress: whether it was correct, and its label (R39, R41). -/
  message : Option (Bool × Nat) := none
  deriving DecidableEq, Repr

/-- The time base (R12 to R33, R55, R57). Times are kept in units of 2^-32 ns since the TAI epoch: the 32 fraction bits that R16
keeps internally. -/
structure TimeBase where
  now : Nat := 0
  /-- Time run since the start, unaffected by steps, in the same unit. -/
  up : Nat := 0
  /-- Whole seconds of the up-time that the counters of seconds have counted. -/
  seconds : Nat := 0
  quality : Quality := .unset
  stepped : Bool := false
  /-- The first step was given up by entering RUN unstepped (R24). -/
  stepGivenUp : Bool := false
  slewing : Bool := false
  /-- The slew is the one at the limit of R24 and R31, and the reference has not come within TB.STEP_THRESH yet. -/
  limitSlew : Bool := false
  jumpPending : Bool := false
  /-- The reference in jump confirmation (1 to 3), 0 when none. -/
  jumpRef : Nat := 0
  /-- The jump was detected while LOCKED (R29), not at a return under R32. -/
  jumpLocked : Bool := false
  /-- When the jump confirmation began, as up-time (R29). -/
  jumpAt : Nat := 0
  /-- The selected reference (Table TB-3), 0 when none. -/
  selRef : Nat := 0
  alignOk : Bool := false
  /-- Consecutive reference updates within LOCK_WIN (R20). -/
  inWindow : Nat := 0
  /-- Consecutive reference updates beyond STEP_THRESH (R29). -/
  beyond : Nat := 0
  /-- Seconds since entry to HOLDOVER (t of R57). -/
  holdTime : Nat := 0
  /-- e0 of R57: TB.UNCERT at entry, in 2^-4 ns. -/
  holdE0 : Nat := 0
  /-- What the servo last measured for a holdover: frequency uncertainty and oven correction (R55, R57). -/
  servoY : Word := 0
  oven : Int := 0
  /-- LOCKED operation completed since the start and the up-time at which the present LOCKED began (R55). -/
  lockedTotal : Nat := 0
  lockedSince : Nat := 0
  /-- The frequency part of the rate at the updates of the last 1,000 s of LOCKED operation, newest first, each with the LOCKED
  operation completed when it was taken (R55). -/
  frequencies : List (Nat × Int) := []
  /-- Frames since the last alignment exchange (R46). -/
  alignMisses : Nat := 0
  /-- The leader's quality at the last exchange (R46). -/
  leaderQuality : Quality := .unset
  /-- A step waiting for the next frame tick: its amount in 2^-32 ns, the quality to take with it, and whether it is a restep
  (R25, R28). -/
  stepDue : Option (Int × Quality × Bool) := none
  /-- Announce messages carry leap61 or leap59 (R54). -/
  leapAnnounced : Bool := false
  /-- The time at which the last leap second was applied, and whether it was removed (R156). -/
  leapAt : Option (Nat × Bool) := none
  /-- The reference inputs that are not at their start state: 0 1PPS, 1 IRIG-B, 2 PTP (sparse, canonical). -/
  refs : List (Nat × Reference) := []
  /-- Time of the last 1PPS edge in 2^-32 ns (R39). -/
  lastEdge : Option Nat := none
  /-- The next 1PPS edge's label from the last time-of-day message, and whether the message was correct (R38, R39). -/
  todLabel : Option (Bool × Nat) := none
  /-- Offset to the leader measured over the tandem link, leader minus own, in 2^-8 ns (R45). -/
  pairOffset : Int := 0
  /-- Captures of units in continuous mode that no read has latched yet: time and quality (Table TB-13). -/
  shadows : List (Nat × (Nat × Quality)) := []
  deriving DecidableEq, Repr

/-- A foreign master (Table TB-15, PTP.FM_*): identity, quality, port, steps removed, seconds since its last Announce, its Sync
interval and whether a Sync of it was measured in the second in progress (R34). -/
structure ForeignMaster where
  id : Dword
  priority1 : Nat
  clockClass : Nat
  accuracy : Nat
  variance : Nat
  priority2 : Nat
  stepsRemoved : Nat
  port : Nat
  timeSource : Nat
  utcOffset : Nat := 0
  age : Nat := 0
  deriving DecidableEq, Repr

/-- The states of a PTP port that R43 and R49 use, with their codes in the IEEE 1588-2019 portState enumeration. -/
inductive PortState where
  | initializing
  | disabled
  | listening
  | master
  | passive
  | slave
  deriving DecidableEq, Repr

/-- portState codes (PTP.PORT_STATE resets to 1, INITIALIZING). -/
def PortState.code : PortState → Nat
  | .initializing => 1
  | .disabled => 3
  | .listening => 4
  | .master => 6
  | .passive => 7
  | .slave => 9

/-- PTP (R43, R48 to R52). -/
structure Ptp where
  masters : List ForeignMaster := []
  /-- PTP.CTRL, PTP.DOMAIN and PTP.INTERVALS as in force since the last TAI second (R60). -/
  ctrl : Word := 0x80010000
  domain : Word := 0
  intervals : Word := 0
  /-- The timeSource last announced while LOCKED, which HOLDOVER keeps (Table TB-6, R50). -/
  timeSource : Nat := 0xA0
  /-- The TAI second at which a written configuration takes effect (R60). -/
  configAt : Option Nat := none
  /-- The two-step Sync whose Follow_Up is awaited: port and sequence. -/
  awaiting : Option (Nat × Nat) := none
  /-- Whole seconds checked since a measurement was completed, 0 in the second in progress; none before the first (R34). -/
  sinceMeasured : Option Nat := none
  /-- The Sync interval of the selected master in seconds, at least 1 (R34). -/
  syncSeconds : Nat := 1
  deriving DecidableEq, Repr

end Sys2Proof.Machine
end

