-- ==== Sys2Proof/Machine/Parts/Trig.lean ====
section
/-!
DEFINITION. What triggers, records, the TDC and fault location hold beside their registers and windows (Triggers, Interpolation and
Fault Location).
-/

namespace Sys2Proof.Machine

/-- A pattern unit (R174 to R176). Times are up-times unless they are stamps. -/
structure PatternUnit where
  matchA : Bool := false
  matchB : Bool := false
  /-- Up-time and stamp of the step A event that armed it. -/
  armed : Option (Nat × Nat) := none
  /-- Up-time at which the holdoff ends. -/
  holdoff : Nat := 0
  deriving DecidableEq, Repr

/-- How a trigger unit stands in one sense of its signal (R169): armed, the leading crossing of the pulse or runt in progress, as a place in the
stream of samples (in 20 ns / 1,310,720, that is 2^-16 ns), and whether the pulse has already fired as too long. -/
structure SenseState where
  armed : Bool := false
  lead : Option Nat := none
  long : Bool := false
  deriving DecidableEq, Repr

/-- What a trigger unit has seen since it last restarted (R169, R170): samples taken, the last codes, newest first, both senses, the band's two arming
conditions of kind 7 (inside, outside), and the place from which a timeout counts. -/
structure UnitTracker where
  count : Nat := 0
  codes : List Int := []
  rise : SenseState := {}
  fall : SenseState := {}
  inside : Bool := false
  outside : Bool := false
  base : Nat := 0
  deriving DecidableEq, Repr

/-- What a record holds of one channel (R186): the channel's number, range, ratio and unit and its PHA rate at the start, and the entries captured, newest
first; entries of CYC, PHA and TWE with the up-time of what they describe. -/
structure RecordChannel where
  n : Nat
  range : Bool
  ratio : Word
  unit : Nat
  rate : Nat
  raw : List RawFrame := []
  dec : List DecEntry := []
  wav : List WavEntry := []
  cyc : List (Nat × List Word) := []
  pha : List (Nat × List Word) := []
  twe : List (Nat × List Word) := []
  deriving DecidableEq, Repr

/-- A fault-location result as a record's HDR lists it (R192, R195): line, state, distance, uncertainty, clamped, remote not LOCKED. -/
structure FlResult where
  line : Nat
  state : Nat
  distance : Word
  uncertainty : Word
  clamped : Bool
  notLocked : Bool
  deriving DecidableEq, Repr

/-- A record (R185 to R190, Table TG-8). -/
structure TrigRecord where
  number : Nat
  profile : Nat
  source : Nat
  isOpen : Bool := true
  protected_ : Bool
  rawOmit : Bool := false
  rawTrunc : Bool := false
  discontinuity : Bool := false
  fused : Bool := false
  located : Bool := false
  extended : Bool := false
  badData : Bool := false
  /-- Trigger time and its quality code; the step A time of a sequence; the pattern unit that fired. -/
  trigger : Nat
  quality : Nat
  stepA : Option Nat := none
  unit : Option Nat := none
  extensions : Nat := 0
  ignored : Nat := 0
  /-- Up-time of the start, and the latest trigger time it was extended to. -/
  startedAt : Nat
  last : Nat
  /-- The first and the latest trigger time as up-times, by which windows count samples and entries (R186). -/
  trigUp : Nat := 0
  lastUp : Nat := 0
  /-- Up-time at which the RAW part was ended (R139, R188). -/
  rawEnd : Option Nat := none
  /-- Committed words of the profile at the start (R187). -/
  words : List Word
  /-- Staging space held for its RAW part, in bytes (R188). -/
  staging : Nat := 0
  /-- Its last window has been written (R189). -/
  written : Bool := false
  /-- What the files need of the time base at the trigger (R192): TB.UNCERT, the UTC offset, the time quality code of COMTRADE and the leap code; the nominal
  frequency is 60 Hz. -/
  uncert : Word := 0
  utc : Int := 0
  tmq : Nat := 0
  leap : Nat := 0
  sixty : Bool := false
  channels : List RecordChannel := []
  /-- Levels of the digital channels over the record, newest first, each with the up-time from which it holds. -/
  levels : List (Nat × Word) := []
  results : List FlResult := []
  deriving DecidableEq, Repr

/-- A held arrival of a travelling wave (R194, R195): arrival time, polarity, uncertainty and amplitude. -/
structure Arrival where
  time : Nat
  falling : Bool
  uncertainty : Word
  notLocked : Bool
  amplitude : Word
  deriving DecidableEq, Repr

/-- A fault-location line in use (R194 to R196). -/
structure FlLine where
  /-- Start time ts of the location in progress, and whether its report has been made. -/
  start : Option Nat := none
  /-- Up-time of that start (R194). -/
  startUp : Nat := 0
  local_ : Option Arrival := none
  remote : Option Arrival := none
  /-- Up-times of the own report and of the remote one, and the pair that sent the latter. -/
  reportedAt : Option Nat := none
  remoteAt : Option Nat := none
  deriving DecidableEq, Repr

/-- An input of the TDC (R183): factory delay in 2^-8 ns, edges seen, last stamp with its quality. -/
structure TdcInput where
  delay : Word := 0
  count : Word := 0
  last : Option (Nat × Nat) := none
  /-- Up-time of the last edge stamped, by which the next one is judged (R183). -/
  lastUp : Option Nat := none
  deriving DecidableEq, Repr

/-- Triggers, records and the TDC. -/
structure Trig where
  /-- States of the 128 pattern sources and the stamps they carry (Table TG-2). -/
  sources : BitVec 128 := 0
  stamps : List (Nat × Nat) := []
  /-- Local source changes that the units with ALIGN have not seen yet, oldest first, each with the up-time at which they see it, and the local sources as
  those units see them (R179). -/
  delayed : List (Nat × List (Nat × Bool × Nat)) := []
  aligned : BitVec 128 := 0
  /-- The trigger units' view of their samples, by unit (R169). -/
  trackers : List (Nat × UnitTracker) := []
  /-- Up-time at which the stretch of a trigger unit ends, by unit (R171). -/
  stretch : List (Nat × Nat) := []
  patterns : List (Nat × PatternUnit) := []
  /-- Accepted pattern units, applied at the next frame tick (R180). -/
  patDue : List (Nat × List Word) := []
  /-- Accepted record profiles and fault-location lines, applied at the next frame tick (R165, R198). -/
  recDue : List (Nat × List Word) := []
  flDue : List (Nat × List Word) := []
  partnerValid : Bool := false
  /-- Ends (up-times) of the pattern pulse and of the tack pulse on each line (R182). -/
  pulses : List (Nat × Nat) := []
  tackPulses : List (Nat × Nat) := []
  /-- Line levels of the chassis as last seen. -/
  lineLevels : Byte := 0
  records : List TrigRecord := []
  nextRecord : Nat := 1
  lines : List (Nat × FlLine) := []
  inputs : List (Nat × TdcInput) := []
  fifo : List (Nat × Nat) := []
  fifoOverflow : Bool := false
  /-- Nanoseconds and fraction latched by a read of TDC.FIFO_SEC (R199). -/
  fifoLatch : Option (Nat × Nat) := none
  /-- Up-time of the last passing calibration; a failed one since (R184). -/
  calibratedAt : Option Nat := none
  calBad : Bool := false
  /-- Up-time of the last calibration, passing or not (R184). -/
  calTriedAt : Option Nat := none
  deriving DecidableEq, Repr

end Sys2Proof.Machine
end

