-- ==== Sys2Proof/Machine/Parts/Trust.lean ====
section
/-!
DEFINITION. What component banks, the settings store and the key store hold beside their registers (Firmware Update and Trust).
-/

namespace Sys2Proof.Machine

/-- What a component bank's package header declares (Table UP-2). -/
structure Package where
  version : Word := 0
  provided : Nat := 0
  epoch : Nat := 0
  /-- REQUIRES: word k for component k, lowest and highest interface version. -/
  requires : List Word := []
  /-- FLAGS: encrypted, and its decryption slot. -/
  encrypted : Bool := false
  decryptSlot : Nat := 0
  deriving DecidableEq, Repr

/-- A package or settings file whose verification runs (R468): its size and digest as UPD_BEGIN gave them, the bytes received, and who gets the
notice. -/
structure PackageCheck where
  component : Nat
  size : Nat
  digest : BitVec 256
  bytes : List Byte
  by_ : Option Requester
  deriving DecidableEq, Repr

/-- A settings store kept as original (R481): its version and contents. -/
structure Store where
  version : Nat
  regs : List (Nat × Word)
  wins : List (Nat × Word)
  deriving DecidableEq, Repr

/-- Components, settings and keys. -/
structure Trust where
  /-- Package headers of the banks that are not EMPTY, by 2k + bank (sparse, canonical). -/
  packages : List (Nat × Package) := []
  checking : Option PackageCheck := none
  /-- The component whose marker has been written and which is not yet in TRIAL, and who gets the notice (R470). -/
  applying : Option (Nat × Option Requester) := none
  /-- The component in TRIAL, and the starts in TRIAL without reaching STANDBY, ACTIVE or SOLO (R471). -/
  trial : Option Nat := none
  trialStarts : Nat := 0
  /-- Addresses of the imported file's items without a counterpart (R482). -/
  unmapped : List Word := []
  /-- A migrated store that takes effect at the next warm restart (R482): register values. -/
  nextStore : Option (List (Nat × Word)) := none
  original : Option Store := none
  /-- The settings store is newer than the MFW and no original is kept: the module stays in INIT (R481). -/
  initHeld : Bool := false
  /-- The SM4 keys of decryption slots 1 to 3 that are loaded; slot 0 always holds the vendor's (R475). -/
  decryption : List (Nat × BitVec 128) := []
  /-- The public keys held, by slot (Table UP-4). -/
  keys : List (Nat × PublicKey) := []
  /-- The debug certificate in force: pairs permitted and not-after, TAI seconds (R480). -/
  cert : Option (Nat × Nat) := none
  deriving DecidableEq, Repr

end Sys2Proof.Machine
end

