-- ==== Sys2Proof/Machine/State.lean ====
section
/-!
DEFINITION. The state of one QC-880 controller module: plain data. The default value of every field is its value right
after reset (State.reset).
-/

namespace Sys2Proof.Machine

/-- Why a step stops. No fault is raised where the manual gives an effect. -/
inductive Fault where
  /-- Raised by no meaning of a well-formed command: an operand that WellFormed refuses was given. Safe: the machine stops. -/
  | illFormed
  deriving DecidableEq, Repr

/-- Why a command has no meaning. -/
inductive Refusal where
  /-- Raised by an arm of exec whose command is not modelled. Safe: the machine stops. -/
  | notModelled (mnemonic : String)
  deriving DecidableEq, Repr

/-- The module. -/
structure State where
  /-- The register file: every implemented register at an address that is not listed holds its reset value (R10). -/
  regs : List (Nat × Word) := []
  /-- Committed words of the configuration windows (R165, R348), by window, unit and word; unlisted words are 0. -/
  wins : List (Nat × Word) := []
  /-- Staged words of the window units that differ from the committed ones, as written (R165). -/
  staged : List (Nat × Word) := []
  role : Role := .init
  mode : RunMode := .stop
  tb : TimeBase := {}
  ptp : Ptp := {}
  frame : Frame := {}
  pair : Pair := {}
  lock : Lock := {}
  loop : Loop := {}
  acq : Acq := {}
  trg : Trig := {}
  io : Io := {}
  net : Net := {}
  can0 : CanChannel := {}
  can1 : CanChannel := {}
  evr : Recorder := {}
  trust : Trust := {}
  fab : Fabric := {}
  power : Power := {}
  qcp : Protocol := {}
  /-- What the module has sent, newest first (the model's own record of its outputs). -/
  sent : List Sent := []
  /-- How many undefined values have been used (the model's own counter, notes/assumptions/4.md). -/
  freeCtr : Nat := 0
  /-- Commands waiting, first in, first out (the model's own queue). -/
  pending : List Instr := []
  deriving DecidableEq, Repr

/-- The module right after reset. -/
def State.reset : State := {}

end Sys2Proof.Machine
end

