-- ==== Sys2Proof/Machine/Clock.lean ====
section
/-!
DEFINITION. The time value (R12 to R16) in units of 2^-32 ns, and its fields.
-/

namespace Sys2Proof.Machine

/-- Units of 2^-32 ns in one nanosecond. -/
def nsUnits : Nat := 4294967296

/-- Units in one second. -/
def secUnits : Nat := 1000000000 * 4294967296

/-- Units in one frame of 10 µs (R18). -/
def frameUnits : Nat := 10000 * 4294967296

/-- Units in one tick of the 400 MHz time-base clock: 2.5 ns (R16). -/
def clockUnits : Nat := 10737418240

/-- The seconds field wraps at 64 bits (R12). -/
def timeModulus : Nat := 18446744073709551616 * (1000000000 * 4294967296)

/-- TAI seconds of a time value (R12). -/
def secOf (t : Nat) : Nat := t / secUnits

/-- Nanoseconds of a time value, 0 to 999,999,999 (R12, R13). -/
def nsOf (t : Nat) : Nat := t / nsUnits % 1000000000

/-- The 16-bit sub-nanosecond fraction the time base presents (R12, R16). -/
def fracOf (t : Nat) : Nat := t / 65536 % 65536

/-- The time value of an instant given by its fields. -/
def ofInstant (i : Instant) : Nat := i.sec * secUnits + i.ns * nsUnits + i.frac * 65536

/-- A time value moved by a signed amount; it never goes below 0 and wraps at 64 bits of seconds. -/
def shiftTime (t : Nat) (d : Int) : Nat := ((t : Int) + d).toNat % timeModulus

/-- A quality and nanoseconds in one word: [31:30] quality, [29:0] nanoseconds. -/
def qualityNs (q : Quality) (t : Nat) : Word := BitVec.ofNat 32 (q.code * 1073741824 + nsOf t)

/-- TAI seconds [31:0] of a time value. -/
def secWord (t : Nat) : Word := BitVec.ofNat 32 (secOf t)

/-- Nanoseconds [29:0] of a time value. -/
def nsWord (t : Nat) : Word := BitVec.ofNat 32 (nsOf t)

end Sys2Proof.Machine
end

