-- ==== Sys2Proof/Machine/Float.lean ====
section
/-!
DEFINITION. IEEE 754-2019 binary32 and binary64 as the module uses them (R5, R206): exact arithmetic on the numbers the words stand for,
rounded once to nearest, ties to even, subnormals kept. Words that are infinities or NaNs are "not finite"; an operation on one answers a
NaN, since every rule that meets one asks only whether it is finite.
-/

namespace Sys2Proof.Machine

/-- A finite number: sign, magnitude `m` times 2^e. -/
structure Flt where
  neg : Bool
  m : Nat
  e : Int
  deriving DecidableEq, Repr

/-- The number a word of the format with `eb` exponent and `mb` fraction bits stands for; none when it is not finite. -/
def decodeFlt (eb mb n : Nat) : Option Flt :=
  let bias : Int := 2 ^ (eb - 1) - 1
  let ex := n / 2 ^ mb % 2 ^ eb
  let f := n % 2 ^ mb
  let s := decide (n / 2 ^ (eb + mb) % 2 = 1)
  if ex = 2 ^ eb - 1 then none
  else if ex = 0 then some ⟨s, f, 1 - bias - mb⟩
  else some ⟨s, f + 2 ^ mb, (ex : Int) - bias - mb⟩

/-- The exponent of the leading bit of num / den · 2^e. -/
def leadExp (num den : Nat) (e : Int) : Int :=
  let l : Int := (Nat.log2 num : Int) - (Nat.log2 den : Int)
  let fits := if 0 ≤ l then decide (den * 2 ^ l.toNat ≤ num) else decide (den ≤ num * 2 ^ (-l).toNat)
  (if fits then l else l - 1) + e

/-- A quotient rounded to the nearest whole number, ties to even. -/
def roundDiv (n d : Nat) : Nat :=
  let q := n / d
  let r := n % d
  if 2 * r < d then q else if d < 2 * r then q + 1 else if q % 2 = 0 then q else q + 1

/-- num / den · 2^e rounded into the format: the bits of its word (an overflow gives the infinity). -/
def roundFlt (eb mb : Nat) (neg : Bool) (num den : Nat) (e : Int) : Nat :=
  let bias : Int := 2 ^ (eb - 1) - 1
  let sign := if neg then 2 ^ (eb + mb) else 0
  let inf := (2 ^ eb - 1) * 2 ^ mb
  if num = 0 then sign
  else
    let low : Int := 1 - bias - mb
    let want : Int := leadExp num den e - mb
    let q := if want < low then low else want
    let n := num * 2 ^ (e - q).toNat
    let d := den * 2 ^ (q - e).toNat
    let bits := (q + bias + mb - 1).toNat * 2 ^ mb + roundDiv n d
    sign + if bits < inf then bits else inf

/-- The number of a binary64 word. -/
def f64 (w : Dword) : Option Flt := decodeFlt 11 52 w.toNat

/-- The number of a binary32 word. -/
def f32 (w : Word) : Option Flt := decodeFlt 8 23 w.toNat

/-- A binary64 word is finite. -/
def finite64 (w : Dword) : Bool := (f64 w).isSome

/-- A binary32 word is finite. -/
def finite32 (w : Word) : Bool := (f32 w).isSome

/-- The binary64 word that stands for "not finite". -/
def nan64 : Dword := 0x7FF8000000000000

/-- A number rounded to binary64. -/
def to64 (x : Flt) : Dword := BitVec.ofNat 64 (roundFlt 11 52 x.neg x.m 1 x.e)

/-- A number rounded to binary32. -/
def to32 (x : Flt) : Word := BitVec.ofNat 32 (roundFlt 8 23 x.neg x.m 1 x.e)

/-- num / den rounded to binary32. -/
def ratTo32 (num : Int) (den : Nat) : Word := BitVec.ofNat 32 (roundFlt 8 23 (decide (num < 0)) num.natAbs den 0)

/-- The exact sum of two numbers, with the sign of a zero sum as round-to-nearest gives it. -/
def addFlt (a b : Flt) : Flt :=
  let e := if a.e ≤ b.e then a.e else b.e
  let sa : Int := (a.m * 2 ^ (a.e - e).toNat : Nat)
  let sb : Int := (b.m * 2 ^ (b.e - e).toNat : Nat)
  let t : Int := (if a.neg then -sa else sa) + (if b.neg then -sb else sb)
  if t = 0 then ⟨a.neg && b.neg, 0, e⟩ else ⟨decide (t < 0), t.natAbs, e⟩

/-- The exact product of two numbers. -/
def mulFlt (a b : Flt) : Flt := ⟨a.neg != b.neg, a.m * b.m, a.e + b.e⟩

/-- fusedMultiplyAdd: a · b + c, rounded once (R206). -/
def fma64 (a b c : Dword) : Dword :=
  match f64 a, f64 b, f64 c with
  | some x, some y, some z => to64 (addFlt (mulFlt x y) z)
  | _, _, _ => nan64

/-- The rounded sum. -/
def add64 (a b : Dword) : Dword :=
  match f64 a, f64 b with
  | some x, some y => to64 (addFlt x y)
  | _, _ => nan64

/-- The sign inverted: exact. -/
def neg64 (a : Dword) : Dword := a ^^^ 0x8000000000000000#64

/-- The rounded difference. -/
def sub64 (a b : Dword) : Dword := add64 a (neg64 b)

/-- The rounded product. -/
def mul64 (a b : Dword) : Dword :=
  match f64 a, f64 b with
  | some x, some y => to64 (mulFlt x y)
  | _, _ => nan64

/-- a < b for finite numbers. -/
def ltFlt (a b : Flt) : Bool :=
  let d := addFlt a ⟨!b.neg, b.m, b.e⟩
  d.neg && decide (d.m ≠ 0)

/-- a < b for finite words; false otherwise. -/
def lt64 (a b : Dword) : Bool :=
  match f64 a, f64 b with
  | some x, some y => ltFlt x y
  | _, _ => false

/-- a < b for finite binary32 words; false otherwise. -/
def lt32 (a b : Word) : Bool :=
  match f32 a, f32 b with
  | some x, some y => ltFlt x y
  | _, _ => false

/-- Two finite binary32 words lie within num / den of each other. -/
def within32 (a b : Word) (num den : Nat) : Bool :=
  match f32 a, f32 b with
  | some x, some y =>
    let d := addFlt x ⟨!y.neg, y.m, y.e⟩
    decide (d.m * 2 ^ d.e.toNat * den ≤ num * 2 ^ (-d.e).toNat)
  | _, _ => false

/-- The larger by plain comparison. -/
def max64 (a b : Dword) : Dword := if lt64 a b then b else a

/-- The smaller by plain comparison. -/
def min64 (a b : Dword) : Dword := if lt64 b a then b else a

/-- A binary32 word as binary64: exact (R206). -/
def widen (w : Word) : Dword :=
  match f32 w with
  | some x => to64 x
  | none => nan64

/-- A binary64 word rounded to binary32; not finite stays not finite. -/
def narrow (w : Dword) : Word :=
  match f64 w with
  | some x => to32 x
  | none => 0x7FC00000#32

/-- A whole number as binary64: exact for 32-bit numbers (R206). -/
def ofInt64 (n : Int) : Dword := to64 ⟨decide (n < 0), n.natAbs, 0⟩

/-- µA as mA in binary32. -/
def milliamps (micro : Nat) : Word := ratTo32 micro 1000

end Sys2Proof.Machine
end

