-- ==== Sys2Proof/Machine/RegTable.lean ====
section
/-!
DEFINITION. The register maps as data: for every implemented register its address or instance formula, its access (R9,
Table SC-1), the authority a write needs (R347), the bits that are preserved over a start (P, R10) and its reset value. Where the
manual gives no reset value ("—", "factory", "P" alone) the row holds 0, or the value named in notes/assumptions/3.md.
Window words (R348) have no row mask here: writes to them are staged (Machine/Windows.lean).
-/

namespace Sys2Proof.Machine

/-- Whether a changed value is refused outside STOP (RWS) or without Owner authority (RWO), Table SC-1. -/
inductive Guard where
  | plain
  | stop
  | owner
  deriving DecidableEq, Repr

/-- The roles of a session, ordered Viewer < Operator < Engineer < Owner (R331), as 0 to 3. -/
abbrev Auth := Nat

/-- One line of a register map: the registers `base + s1·i + s2·j` with `i < c1`, `j < c2` (and `rep` copies of the block,
one block apart). `w` are the bits a write sets, `w1c` the bits a written 1 clears, `p` the preserved bits. -/
structure RegRow where
  base : Nat
  s1 : Nat := 1
  c1 : Nat := 1
  s2 : Nat := 1
  c2 : Nat := 1
  guard : Guard := .plain
  auth : Auth := 2
  w : Word := 0
  w1c : Word := 0
  p : Word := 0
  reset : Word := 0
  deriving DecidableEq, Repr

/-- Whether the row describes index `a` of its block. -/
def RegRow.covers (r : RegRow) (a : Nat) : Bool :=
  decide (r.base ≤ a) &&
    (let d := a - r.base
     let e := d % r.s1
     decide (d / r.s1 < r.c1) && decide (e % r.s2 = 0) && decide (e / r.s2 < r.c2))

/-- A bound on a field of a register: values outside `lo..hi` are refused with BAD_PARAMETER. -/
structure RegBound where
  base : Nat
  s1 : Nat := 1
  c1 : Nat := 1
  msb : Nat := 31
  lsb : Nat := 0
  min : Nat := 0
  max : Nat
  deriving DecidableEq, Repr

/-- The registers of block ID (0x00), by index in the block. -/
def rowsID : List RegRow := [
  { base := 0x00, reset := 0x51430880 },
  { base := 0x01, reset := 0x00000101 },
  { base := 0x02, c1 := 12 },
  { base := 0x0E, w := 0x0000FFFF },
  { base := 0x0F },
  { base := 0x10, c1 := 4, reset := 0x00008000 },
  { base := 0x14, c1 := 2, p := 0xFFFFFFFF },
  { base := 0x16 },
  { base := 0x17, reset := 0x08820001 },
  { base := 0x18, reset := 0x51432D38 },
  { base := 0x19, reset := 0x38302D31 },
  { base := 0x1A, c1 := 6 }]

/-- The registers of block MODE (0x01), by index in the block. -/
def rowsMODE : List RegRow := [
  { base := 0x00, c1 := 2 },
  { base := 0x02, guard := .stop, w := 0x00000111, p := 0xFFFFFFFF },
  { base := 0x03, auth := 1, w1c := 0x0000001F, p := 0xFFFFFFFF },
  { base := 0x04, c1 := 5 },
  { base := 0x09, c1 := 2, p := 0xFFFFFFFF },
  { base := 0x0B, guard := .stop, w := 0x0000000F, p := 0xFFFFFFFF, reset := 0x00000003 },
  { base := 0x0C, reset := 0x0000000F },
  { base := 0x0D, c1 := 3 },
  { base := 0x10, s1 := 2, c1 := 16 },
  { base := 0x11, s1 := 2, c1 := 16 }]

/-- The registers of block PAIR (0x02), by index in the block. -/
def rowsPAIR : List RegRow := [
  { base := 0x00 },
  { base := 0x01, guard := .owner, auth := 3, w := 0xE0000100, p := 0xFFFFFFFF, reset := 0xA0000100 },
  { base := 0x02 },
  { base := 0x03, c1 := 2, guard := .owner, auth := 3 },
  { base := 0x05, c1 := 2 },
  { base := 0x07, w := 0xFFFFFFFF, p := 0xFFFFFFFF, reset := 0x000007D0 },
  { base := 0x08, p := 0xFFFFFFFF },
  { base := 0x09, c1 := 5 },
  { base := 0x0E, w := 0x0000000F, p := 0xFFFFFFFF, reset := 0x00000002 },
  { base := 0x0F, c1 := 4 },
  { base := 0x13, p := 0xFFFFFFFF },
  { base := 0x14 },
  { base := 0x15, p := 0xFFFFFFFF },
  { base := 0x16, c1 := 7 },
  { base := 0x1D, c1 := 5, p := 0xFFFFFFFF },
  { base := 0x22, c1 := 2 },
  { base := 0x24, w := 0x0000FFFF, p := 0xFFFFFFFF, reset := 0x00000301 },
  { base := 0x25, c1 := 6 },
  { base := 0x2B, c1 := 3, p := 0xFFFFFFFF },
  { base := 0x2E },
  { base := 0x2F, auth := 1 },
  { base := 0x30, s1 := 2, c1 := 8 },
  { base := 0x31, s1 := 2, c1 := 8 },
  { base := 0x40, s1 := 8, c1 := 2 },
  { base := 0x41, s1 := 8, c1 := 2 },
  { base := 0x42, s1 := 8, c1 := 2 },
  { base := 0x43, s1 := 8, c1 := 2 },
  { base := 0x44, s1 := 8, c1 := 2 },
  { base := 0x45, s1 := 8, c1 := 2 },
  { base := 0x46, s1 := 8, c1 := 2 },
  { base := 0x47, s1 := 8, c1 := 2 },
  { base := 0x50, s1 := 2, c1 := 8 },
  { base := 0x51, s1 := 2, c1 := 8 }]

/-- The registers of block LOCK (0x03), by index in the block. -/
def rowsLOCK : List RegRow := [
  { base := 0x00, p := 0x90000000 },
  { base := 0x01, guard := .owner, auth := 3, w := 0x00FF0110, p := 0xFFFFFFFF, reset := 0x00030110 },
  { base := 0x02 },
  { base := 0x03, guard := .stop, w := 0x00000003, p := 0xFFFFFFFF, reset := 0x00000003 },
  { base := 0x04, c1 := 7, p := 0xFFFFFFFF },
  { base := 0x0B, guard := .owner, auth := 3, w := 0xFFFFFFFF, p := 0xFFFFFFFF, reset := 0x00000018 },
  { base := 0x0C, c1 := 3 },
  { base := 0x0F, auth := 1 },
  { base := 0x10, s1 := 8, c1 := 4, s2 := 1, c2 := 4, p := 0xFFFFFFFF },
  { base := 0x14, s1 := 8, c1 := 4, s2 := 1, c2 := 4 },
  { base := 0x30, s1 := 4, c1 := 4 },
  { base := 0x31, s1 := 4, c1 := 4 },
  { base := 0x32, s1 := 4, c1 := 4 },
  { base := 0x33, s1 := 4, c1 := 4 }]

/-- The registers of block POWER (0x04), by index in the block. -/
def rowsPOWER : List RegRow := [
  { base := 0x00 },
  { base := 0x01, guard := .owner, auth := 3, w := 0x00000001, p := 0xFFFFFFFF },
  { base := 0x02, auth := 1, w1c := 0x0000003F },
  { base := 0x03, auth := 1 },
  { base := 0x04, c1 := 10 },
  { base := 0x0E, w := 0xFFFFFFFF, p := 0xFFFFFFFF, reset := 0x00000018 },
  { base := 0x0F },
  { base := 0x10, reset := 0x0000045A },
  { base := 0x11 },
  { base := 0x12, c1 := 7, p := 0xFFFFFFFF },
  { base := 0x19, c1 := 2 },
  { base := 0x1B, c1 := 2, p := 0xFFFFFFFF },
  { base := 0x1D, c1 := 2 },
  { base := 0x1F, reset := 0x00000001 },
  { base := 0x20, s1 := 4, c1 := 12 },
  { base := 0x21, s1 := 4, c1 := 12 },
  { base := 0x22, s1 := 4, c1 := 12 },
  { base := 0x23, s1 := 4, c1 := 12, p := 0xFFFFFFFF }]

/-- The registers of block LINING (0x05), by index in the block. -/
def rowsLINING : List RegRow := [
  { base := 0x00 },
  { base := 0x01, auth := 1, w1c := 0x0000001F },
  { base := 0x02, c1 := 5 },
  { base := 0x07, guard := .owner, auth := 3, w := 0x0000FFFF },
  { base := 0x08, c1 := 6 },
  { base := 0x0E, guard := .owner, auth := 3 },
  { base := 0x0F, p := 0xFFFFFFFF },
  { base := 0x10 },
  { base := 0x11, guard := .owner, auth := 3, w := 0xFFFFFFFF },
  { base := 0x12 },
  { base := 0x13, reset := 0x00000001 },
  { base := 0x14, c1 := 12, w := 0xFFFFFFFF }]

/-- The registers of block TB (0x10), by index in the block. -/
def rowsTB : List RegRow := [
  { base := 0x00, c1 := 5 },
  { base := 0x05, guard := .owner, auth := 3, w := 0x00000101, p := 0xFFFFFFFF, reset := 0x00000001 },
  { base := 0x06 },
  { base := 0x07, w := 0x000FFFFF, p := 0xFFFFFFFF, reset := 0x00083126 },
  { base := 0x08, w := 0x3FFFFFFF, p := 0xFFFFFFFF, reset := 0x000003E8 },
  { base := 0x09 },
  { base := 0x0A, w := 0x0000FFFF, p := 0xFFFFFFFF },
  { base := 0x0B, w := 0xC00FFFFF, p := 0xFFFFFFFF },
  { base := 0x0C },
  { base := 0x0D, w := 0xFFFFFFFF, p := 0xFFFFFFFF, reset := 0x000003E8 },
  { base := 0x0E },
  { base := 0x0F, w := 0xFFFFFFFF, p := 0xFFFFFFFF, reset := 0x00001388 },
  { base := 0x10, w := 0xFFFF00FF, p := 0xFFFFFFFF, reset := 0x0032000A },
  { base := 0x11, reset := 0xFFFFFFFF },
  { base := 0x12, c1 := 5 },
  { base := 0x17, w := 0xFFFFFFFF, p := 0xFFFFFFFF, reset := 0x0000000A },
  { base := 0x18, auth := 1, w1c := 0x000000FF },
  { base := 0x19, guard := .owner, auth := 3 },
  { base := 0x1A, c1 := 6 },
  { base := 0x20, s1 := 4, c1 := 16, w := 0x00001F05, w1c := 0x0000000A },
  { base := 0x21, s1 := 4, c1 := 16 },
  { base := 0x22, s1 := 4, c1 := 16 },
  { base := 0x23, s1 := 4, c1 := 16 }]

/-- The registers of block PTP (0x11), by index in the block. -/
def rowsPTP : List RegRow := [
  { base := 0x00, w := 0x81010100, p := 0xFFFFFFFF, reset := 0x80010000 },
  { base := 0x01, w := 0x000000FF, p := 0xFFFFFFFF },
  { base := 0x02, w := 0x0000FFFF, p := 0xFFFFFFFF, reset := 0x00008080 },
  { base := 0x03, reset := 0xF8FEFFFF },
  { base := 0x04, reset := 0x000000A0 },
  { base := 0x05, w := 0x00FFFFFF, p := 0xFFFFFFFF },
  { base := 0x06, w := 0xFFFFFFFF, p := 0xFFFFFFFF, reset := 0x00000003 },
  { base := 0x07, w := 0x0000EFFF, p := 0xFFFFFFFF, reset := 0x00008000 },
  { base := 0x08, w := 0x0000FFFF, p := 0xFFFFFFFF },
  { base := 0x09, c1 := 6 },
  { base := 0x0F, reset := 0xFFFFFFFF },
  { base := 0x10, s1 := 4, c1 := 4 },
  { base := 0x11, s1 := 4, c1 := 4 },
  { base := 0x12, s1 := 4, c1 := 4 },
  { base := 0x13, s1 := 4, c1 := 4 },
  { base := 0x20, c1 := 16 },
  { base := 0x30, s1 := 16, c1 := 5, w := 0x80000000, p := 0xFFFFFFFF, reset := 0x80000000 },
  { base := 0x31, s1 := 16, c1 := 5, reset := 0x00000001 },
  { base := 0x32, s1 := 16, c1 := 5 },
  { base := 0x33, s1 := 16, c1 := 5 },
  { base := 0x34, s1 := 16, c1 := 5, w := 0xFFFFFFFF, p := 0xFFFFFFFF },
  { base := 0x35, s1 := 16, c1 := 5, w := 0xFFFFFFFF, p := 0xFFFFFFFF },
  { base := 0x36, s1 := 16, c1 := 5, w := 0xFFFFFFFF, p := 0xFFFFFFFF },
  { base := 0x37, s1 := 16, c1 := 5 },
  { base := 0x38, s1 := 16, c1 := 5 },
  { base := 0x39, s1 := 16, c1 := 5 },
  { base := 0x3A, s1 := 16, c1 := 5 },
  { base := 0x3B, s1 := 16, c1 := 5 },
  { base := 0x3C, s1 := 16, c1 := 5 },
  { base := 0x3D, s1 := 16, c1 := 5 },
  { base := 0x3E, s1 := 16, c1 := 5 },
  { base := 0x3F, s1 := 16, c1 := 5, auth := 1 }]

/-- The registers of block TREF (0x12), by index in the block. -/
def rowsTREF : List RegRow := [
  { base := 0x00, w := 0x00000117, p := 0xFFFFFFFF, reset := 0x00000107 },
  { base := 0x01, w := 0x00000FFF, p := 0xFFFFFFFF, reset := 0x00000123 },
  { base := 0x02 },
  { base := 0x03, w := 0xFFFFFFFF, p := 0xFFFFFFFF, reset := 0x0000000A },
  { base := 0x04, w := 0xFFFFFFFF, p := 0xFFFFFFFF, reset := 0x0000003C },
  { base := 0x05, w := 0x00000110, p := 0xFFFFFFFF, reset := 0x00000010 },
  { base := 0x06, w := 0xFFFFFFFF, p := 0xFFFFFFFF },
  { base := 0x07, w := 0x0000010F, p := 0xFFFFFFFF, reset := 0x00000004 },
  { base := 0x08, w := 0xFFFFFFFF, p := 0xFFFFFFFF },
  { base := 0x09, c1 := 4 },
  { base := 0x0D, w := 0x0000FFFF, p := 0xFFFFFFFF, reset := 0x00002020 },
  { base := 0x0E, c1 := 2 },
  { base := 0x10, s1 := 16, c1 := 3 },
  { base := 0x11, s1 := 16, c1 := 3 },
  { base := 0x12, s1 := 16, c1 := 3 },
  { base := 0x13, s1 := 16, c1 := 3 },
  { base := 0x14, s1 := 16, c1 := 3 },
  { base := 0x15, s1 := 16, c1 := 3 },
  { base := 0x16, s1 := 16, c1 := 3 },
  { base := 0x17, s1 := 16, c1 := 3 },
  { base := 0x18, s1 := 16, c1 := 3 },
  { base := 0x19, s1 := 16, c1 := 3 },
  { base := 0x1A, s1 := 16, c1 := 3 },
  { base := 0x1B, s1 := 16, c1 := 3 },
  { base := 0x1C, s1 := 16, c1 := 3 },
  { base := 0x1D, s1 := 16, c1 := 3 },
  { base := 0x1E, s1 := 16, c1 := 3 },
  { base := 0x1F, s1 := 16, c1 := 3, auth := 1 }]

/-- The registers of block FRAME (0x20), by index in the block. -/
def rowsFRAME : List RegRow := [
  { base := 0x00, c1 := 7 },
  { base := 0x07, auth := 1 },
  { base := 0x08, c1 := 8 },
  { base := 0x10, reset := 0x00000200 },
  { base := 0x11, w := 0xFFFFFFFF, p := 0xFFFFFFFF, reset := 0x00004E20 },
  { base := 0x12, c1 := 5 },
  { base := 0x17, p := 0xFFFFFFFF },
  { base := 0x18, c1 := 7 },
  { base := 0x1F, auth := 1 },
  { base := 0x20, s1 := 16, c1 := 2, s2 := 1, c2 := 16 }]

/-- The registers of block TASK (0x21), by index in the block. -/
def rowsTASK : List RegRow := [
  { base := 0x00, s1 := 8, c1 := 16 },
  { base := 0x01, s1 := 8, c1 := 16 },
  { base := 0x02, s1 := 8, c1 := 16 },
  { base := 0x03, s1 := 8, c1 := 16 },
  { base := 0x04, s1 := 8, c1 := 16 },
  { base := 0x05, s1 := 8, c1 := 16 },
  { base := 0x06, s1 := 8, c1 := 16 },
  { base := 0x07, s1 := 8, c1 := 16 }]

/-- The registers of block IMG (0x22), by index in the block. -/
def rowsIMG : List RegRow := [
  { base := 0x00, c1 := 4 },
  { base := 0x04, guard := .owner, auth := 3, w := 0xFFFFFFFF, p := 0xFFFFFFFF, reset := 0x00002134 },
  { base := 0x05, c1 := 10 },
  { base := 0x0F, auth := 1 },
  { base := 0x10, s1 := 16, c1 := 2, p := 0xFFFFFFFF },
  { base := 0x11, s1 := 16, c1 := 2, p := 0xFFFFFFFF },
  { base := 0x12, s1 := 16, c1 := 2, p := 0xFFFFFFFF },
  { base := 0x13, s1 := 16, c1 := 2, p := 0xFFFFFFFF },
  { base := 0x14, s1 := 16, c1 := 2, p := 0xFFFFFFFF },
  { base := 0x15, s1 := 16, c1 := 2, s2 := 1, c2 := 8, p := 0xFFFFFFFF },
  { base := 0x1D, s1 := 16, c1 := 2, p := 0xFFFFFFFF },
  { base := 0x1E, s1 := 16, c1 := 2, p := 0xFFFFFFFF },
  { base := 0x1F, s1 := 16, c1 := 2, p := 0xFFFFFFFF },
  { base := 0x30, c1 := 16 }]

/-- The registers of block ACQ (0x30), by index in the block. -/
def rowsACQ : List RegRow := [
  { base := 0x00 },
  { base := 0x01, guard := .stop, w := 0x00000100, p := 0xFFFFFFFF },
  { base := 0x02, reset := 0x04000000 },
  { base := 0x03, c1 := 4 },
  { base := 0x07, auth := 1, w1c := 0x0000000F },
  { base := 0x08, c1 := 7 },
  { base := 0x0F, auth := 1 },
  { base := 0x10, w := 0x0000000F },
  { base := 0x11, c1 := 14, p := 0xFFFFFFFF },
  { base := 0x1F },
  { base := 0x20, w := 0x0000003F },
  { base := 0x21, c1 := 14, p := 0xFFFFFFFF },
  { base := 0x2F, c1 := 17 }]

/-- The registers of block ACH (0x31 and its copies), by index in the block. -/
def rowsACH : List RegRow := [
  { base := 0x00, guard := .stop, w := 0x80000103, p := 0xFFFFFFFF, reset := 0x80000000 },
  { base := 0x01, guard := .stop, w := 0xFFFFFFFF, p := 0xFFFFFFFF, reset := 0x3F800000 },
  { base := 0x02, guard := .stop, w := 0xFFFFFFFF, p := 0xFFFFFFFF },
  { base := 0x03, w := 0x0000FFFF, p := 0xFFFFFFFF, reset := 0x0000028F },
  { base := 0x04, w := 0xC000FFFF, p := 0xFFFFFFFF },
  { base := 0x05, w := 0x8003FFFF, p := 0xFFFFFFFF, reset := 0x00000050 },
  { base := 0x06, w := 0xFFFFFFFF, p := 0xFFFFFFFF, reset := 0x3F800000 },
  { base := 0x07 },
  { base := 0x08, auth := 1, w1c := 0x0000003F },
  { base := 0x09 },
  { base := 0x0A, reset := 0x3F800000 },
  { base := 0x0B, c1 := 12 },
  { base := 0x17, w := 0x7FFFFFFF },
  { base := 0x18, c1 := 8 },
  { base := 0x20, w := 0x7FFFFFFF },
  { base := 0x21, c1 := 8 },
  { base := 0x29, w := 0x7FFFFFFF },
  { base := 0x2A, c1 := 9 },
  { base := 0x33, auth := 1 },
  { base := 0x34, c1 := 12 }]

/-- The registers of block TRG (0x40), by index in the block. -/
def rowsTRG : List RegRow := [
  { base := 0x00 },
  { base := 0x01, w := 0x00000103, p := 0xFFFFFFFF, reset := 0x00000100 },
  { base := 0x02, w := 0xFFFFFFFF },
  { base := 0x03, w := 0x00FFFFFF, p := 0xFFFFFFFF, reset := 0x00000190 },
  { base := 0x04, c1 := 6 },
  { base := 0x0A, auth := 1, w1c := 0x0000003F },
  { base := 0x0B, reset := 0x00002000 },
  { base := 0x0C, c1 := 2, p := 0xFFFFFFFF },
  { base := 0x0E },
  { base := 0x0F, auth := 1 },
  { base := 0x10, s1 := 4, c1 := 32, w := 0xFCFFFFFF, p := 0xFFFFFFFF, reset := 0x000A0000 },
  { base := 0x11, s1 := 4, c1 := 32, w := 0xFFFFFFFF, p := 0xFFFFFFFF },
  { base := 0x12, s1 := 4, c1 := 32, w := 0xFFFFFFFF, p := 0xFFFFFFFF, reset := 0x00000001 },
  { base := 0x13, s1 := 4, c1 := 32, w := 0xFFFFFFFF, p := 0xFFFFFFFF, reset := 0x00000001 },
  { base := 0x90, w := 0x00000007 },
  { base := 0x91, c1 := 19, p := 0xFFFFFFFF },
  { base := 0xA4 },
  { base := 0xA5, w := 0x00000007 },
  { base := 0xA6, c1 := 11, p := 0xFFFFFFFF },
  { base := 0xB1 },
  { base := 0xB2, w := 0x00000007 },
  { base := 0xB3, c1 := 8, p := 0xFFFFFFFF },
  { base := 0xBB, c1 := 5 }]

/-- The registers of block TDC (0x41), by index in the block. -/
def rowsTDC : List RegRow := [
  { base := 0x00 },
  { base := 0x01, w := 0x00000001, p := 0xFFFFFFFF, reset := 0x00000001 },
  { base := 0x02, w := 0xFFFFFFFF, p := 0xFFFFFFFF, reset := 0xFFFFFFFF },
  { base := 0x03, w := 0x0000FFFF, p := 0xFFFFFFFF, reset := 0x0000FFFF },
  { base := 0x04, w := 0xFFFFFFFF, p := 0xFFFFFFFF, reset := 0x00000001 },
  { base := 0x05, c1 := 5 },
  { base := 0x0A, auth := 1, w1c := 0x00000003 },
  { base := 0x0B, c1 := 2 },
  { base := 0x0D, w := 0x0000003F },
  { base := 0x0E, c1 := 5 },
  { base := 0x13, w := 0x000000FF, p := 0xFFFFFFFF },
  { base := 0x14, w := 0x8000003F },
  { base := 0x15, c1 := 4 },
  { base := 0x19, auth := 1 },
  { base := 0x1A, c1 := 6 }]

/-- The registers of block LOOP (0x48), by index in the block. -/
def rowsLOOP : List RegRow := [
  { base := 0x00 },
  { base := 0x01, w := 0x00000001, p := 0xFFFFFFFF },
  { base := 0x02, w := 0x0000FF07 },
  { base := 0x03 },
  { base := 0x04, c1 := 16, p := 0xFFFFFFFF },
  { base := 0x14, c1 := 2 },
  { base := 0x16, auth := 1, w1c := 0x0000000F },
  { base := 0x17, c1 := 7 },
  { base := 0x1E, auth := 1 },
  { base := 0x1F, reset := 0x00000001 },
  { base := 0x20, w := 0x830000FF },
  { base := 0x21, c1 := 3, w := 0xFFFFFFFF },
  { base := 0x24, c1 := 20 },
  { base := 0x38, c1 := 8, auth := 1, w1c := 0xFFFFFFFF },
  { base := 0x40, c1 := 31 },
  { base := 0x5F, reset := 0x00000001 }]

/-- The registers of block DIO (0x50), by index in the block. -/
def rowsDIO : List RegRow := [
  { base := 0x00, c1 := 5 },
  { base := 0x05, guard := .stop, w := 0xFFFFFFFF, p := 0xFFFFFFFF },
  { base := 0x06 },
  { base := 0x07, auth := 1, w1c := 0xFFFFFFFF },
  { base := 0x08 },
  { base := 0x09, auth := 1, w1c := 0x00000FFF },
  { base := 0x0A },
  { base := 0x0B, auth := 1 },
  { base := 0x0C, c1 := 8 },
  { base := 0x14, c1 := 4, guard := .stop, w := 0xFFFF000F, p := 0xFFFFFFFF, reset := 0x03E80003 },
  { base := 0x18, c1 := 4, p := 0xFFFFFFFF },
  { base := 0x1C, c1 := 4 },
  { base := 0x20, s1 := 4, c1 := 32, guard := .stop, w := 0xFF00FFFF, p := 0xFFFFFFFF, reset := 0x80000001 },
  { base := 0x21, s1 := 4, c1 := 32 },
  { base := 0x22, s1 := 4, c1 := 32 },
  { base := 0x23, s1 := 4, c1 := 32 }]

/-- The registers of block AO (0x58), by index in the block. -/
def rowsAO : List RegRow := [
  { base := 0x00 },
  { base := 0x01, auth := 1, w1c := 0x0000001F },
  { base := 0x02 },
  { base := 0x03, auth := 1 },
  { base := 0x04, reset := 0x000000FF },
  { base := 0x05, c1 := 7 },
  { base := 0x0C, c1 := 8, guard := .stop, w := 0xFFFFFFFF, p := 0xFFFFFFFF },
  { base := 0x14, c1 := 12 },
  { base := 0x20, s1 := 8, c1 := 8, guard := .stop, w := 0xFF000000, p := 0xFFFFFFFF, reset := 0x80000000 },
  { base := 0x21, s1 := 8, c1 := 8 },
  { base := 0x22, s1 := 8, c1 := 8 },
  { base := 0x23, s1 := 8, c1 := 8, guard := .stop, w := 0xFFFFFFFF, p := 0xFFFFFFFF, reset := 0x52080E10 },
  { base := 0x24, s1 := 8, c1 := 8 },
  { base := 0x25, s1 := 8, c1 := 8 },
  { base := 0x26, s1 := 8, c1 := 8, p := 0xFFFFFFFF },
  { base := 0x27, s1 := 8, c1 := 8 }]

/-- The registers of block HART (0x59), by index in the block. -/
def rowsHART : List RegRow := [
  { base := 0x00 },
  { base := 0x01, w := 0x00000F1F, p := 0xFFFFFFFF, reset := 0x00000305 },
  { base := 0x02, auth := 1, w1c := 0x0000000F },
  { base := 0x03, auth := 1 },
  { base := 0x04, w := 0x0007003F },
  { base := 0x05, w := 0xFFFF00FF },
  { base := 0x06 },
  { base := 0x07, c1 := 8, w := 0xFFFFFFFF },
  { base := 0x0F },
  { base := 0x10, s1 := 6, c1 := 8, w := 0xF03FFFFF, p := 0xFFFFFFFF, reset := 0x000003E8 },
  { base := 0x11, s1 := 6, c1 := 8 },
  { base := 0x12, s1 := 6, c1 := 8 },
  { base := 0x13, s1 := 6, c1 := 8 },
  { base := 0x14, s1 := 6, c1 := 8 },
  { base := 0x15, s1 := 6, c1 := 8 }]

/-- The registers of block NET (0x60), by index in the block. -/
def rowsNET : List RegRow := [
  { base := 0x00 },
  { base := 0x01, guard := .stop, w := 0x8000010F, p := 0xFFFFFFFF, reset := 0x80000101 },
  { base := 0x02, guard := .stop, w := 0xFFFFFFFF, p := 0xFFFFFFFF, reset := 0x88B5C000 },
  { base := 0x03, guard := .stop, w := 0xFFFFFFFF, p := 0xFFFFFFFF, reset := 0x00C80064 },
  { base := 0x04, guard := .stop, w := 0xFFFFFFFF, p := 0xFFFFFFFF },
  { base := 0x05, guard := .stop, w := 0x0000FFFF, p := 0xFFFFFFFF },
  { base := 0x06, guard := .stop, w := 0xFFFFFFFF, p := 0xFFFFFFFF },
  { base := 0x07, w := 0xFFFF0003, p := 0xFFFFFFFF, reset := 0x00020003 },
  { base := 0x08, guard := .stop, w := 0xFFFFFFFF, p := 0xFFFFFFFF, reset := 0x03E80001 },
  { base := 0x09, c1 := 5 },
  { base := 0x0E, auth := 1, w1c := 0x0000007F },
  { base := 0x0F, auth := 1 },
  { base := 0x10, s1 := 8, c1 := 5, guard := .stop, w := 0x803F0003, p := 0xFFFFFFFF, reset := 0x80180000 },
  { base := 0x11, s1 := 8, c1 := 5 },
  { base := 0x12, s1 := 8, c1 := 5, guard := .stop, w := 0xFFFFFFFF, p := 0xFFFFFFFF },
  { base := 0x13, s1 := 8, c1 := 5, guard := .stop, w := 0xFFFFFFFF, p := 0xFFFFFFFF },
  { base := 0x14, s1 := 8, c1 := 5 },
  { base := 0x15, s1 := 8, c1 := 5 },
  { base := 0x16, s1 := 8, c1 := 5 },
  { base := 0x17, s1 := 8, c1 := 5 },
  { base := 0x38, w := 0x000003FF, reset := 0x00000001 },
  { base := 0x39, c1 := 6, p := 0xFFFFFFFF },
  { base := 0x3F },
  { base := 0x40, w := 0x0000007F },
  { base := 0x41, c1 := 30, p := 0xFFFFFFFF },
  { base := 0x5F, c1 := 33 }]

/-- The registers of block PRP (0x61), by index in the block. -/
def rowsPRP : List RegRow := [
  { base := 0x00 },
  { base := 0x01, guard := .owner, auth := 3, w := 0x00000033, p := 0xFFFFFFFF, reset := 0x00000011 },
  { base := 0x02, w := 0xFFFF00FF, p := 0xFFFFFFFF, reset := 0x00020000 },
  { base := 0x03, w := 0xFFFFFFFF, p := 0xFFFFFFFF, reset := 0x00000014 },
  { base := 0x04, w := 0xFFFFFFFF, p := 0xFFFFFFFF, reset := 0x00000064 },
  { base := 0x05, auth := 1, w1c := 0x0000000F },
  { base := 0x06, auth := 1 },
  { base := 0x07, w := 0x000007FF },
  { base := 0x08, c1 := 4 },
  { base := 0x0C, reset := 0x00000001 },
  { base := 0x0D, c1 := 3 },
  { base := 0x10, s1 := 24, c1 := 2 },
  { base := 0x11, s1 := 24, c1 := 2 },
  { base := 0x12, s1 := 24, c1 := 2 },
  { base := 0x13, s1 := 24, c1 := 2 },
  { base := 0x14, s1 := 24, c1 := 2 },
  { base := 0x15, s1 := 24, c1 := 2 },
  { base := 0x16, s1 := 24, c1 := 2 },
  { base := 0x17, s1 := 24, c1 := 2 },
  { base := 0x18, s1 := 24, c1 := 2 },
  { base := 0x19, s1 := 24, c1 := 2 },
  { base := 0x1A, s1 := 24, c1 := 2 },
  { base := 0x1B, s1 := 24, c1 := 2 },
  { base := 0x1C, s1 := 24, c1 := 2 },
  { base := 0x1D, s1 := 24, c1 := 2 },
  { base := 0x1E, s1 := 24, c1 := 2 },
  { base := 0x1F, s1 := 24, c1 := 2 },
  { base := 0x20, s1 := 24, c1 := 2 },
  { base := 0x21, s1 := 24, c1 := 2 },
  { base := 0x22, s1 := 24, c1 := 2 },
  { base := 0x23, s1 := 24, c1 := 2 },
  { base := 0x24, s1 := 24, c1 := 2 },
  { base := 0x25, s1 := 24, c1 := 2 },
  { base := 0x26, s1 := 24, c1 := 2 },
  { base := 0x27, s1 := 24, c1 := 2 }]

/-- The registers of block CAN (0x68 and its copies), by index in the block. -/
def rowsCAN : List RegRow := [
  { base := 0x00 },
  { base := 0x01, w := 0xF8000000, p := 0xFFFFFFFF, reset := 0x10000000 },
  { base := 0x02, w := 0xFFFF7F7F, p := 0xFFFFFFFF, reset := 0x023F1010 },
  { base := 0x03, w := 0xFF1F1F1F, p := 0xFFFFFFFF, reset := 0x011D0A0A },
  { base := 0x04, w := 0x807F0000, p := 0xFFFFFFFF, reset := 0x801E0000 },
  { base := 0x05, reset := 0xC0000000 },
  { base := 0x06, auth := 1, w1c := 0x0000003F },
  { base := 0x07 },
  { base := 0x08, w := 0xFFFF001F, p := 0xFFFFFFFF, reset := 0x000A001F },
  { base := 0x09, c1 := 5 },
  { base := 0x0E, p := 0xFFFFFFFF },
  { base := 0x0F, auth := 1 },
  { base := 0x10, w := 0xFFFFFFFF, p := 0xFFFFFFFF },
  { base := 0x11, c1 := 7 },
  { base := 0x18, w := 0x0000003F },
  { base := 0x19, c1 := 22, p := 0xFFFFFFFF },
  { base := 0x2F, c1 := 49 }]

/-- The registers of block DMA (0x70), by index in the block. -/
def rowsDMA : List RegRow := [
  { base := 0x00 },
  { base := 0x01, w := 0x00000101, p := 0xFFFFFFFF, reset := 0x00000101 },
  { base := 0x02, c1 := 3 },
  { base := 0x05, p := 0xFFFFFFFF },
  { base := 0x06 },
  { base := 0x07, auth := 1, w1c := 0x00000007 },
  { base := 0x08, c1 := 2, auth := 1, w1c := 0x0000FFFF },
  { base := 0x0A, reset := 0x00000FFF },
  { base := 0x0B, c1 := 2 },
  { base := 0x0D, auth := 1 },
  { base := 0x0E, w := 0xFFFFFFFF, p := 0xFFFFFFFF },
  { base := 0x0F, reset := 0x00000001 },
  { base := 0x10, c1 := 16 },
  { base := 0x20, s1 := 8, c1 := 16, w := 0x78FFFF00 },
  { base := 0x21, s1 := 8, c1 := 16 },
  { base := 0x22, s1 := 8, c1 := 16, w := 0xFFFFFFFF },
  { base := 0x23, s1 := 8, c1 := 16, w := 0xFFFFFFFF },
  { base := 0x24, s1 := 8, c1 := 16, w := 0xFFFFFFFF },
  { base := 0x25, s1 := 8, c1 := 16 },
  { base := 0x26, s1 := 8, c1 := 16 },
  { base := 0x27, s1 := 8, c1 := 16 }]

/-- The registers of block COLLAR (0x78), by index in the block. -/
def rowsCOLLAR : List RegRow := [
  { base := 0x00 },
  { base := 0x01, guard := .owner, auth := 3, w := 0x00000001, p := 0xFFFFFFFF, reset := 0x00000001 },
  { base := 0x02, w := 0x00001F0F },
  { base := 0x03, c1 := 4, guard := .owner, auth := 3, p := 0xFFFFFFFF },
  { base := 0x07, c1 := 2 },
  { base := 0x09, auth := 1, w1c := 0x0000000F },
  { base := 0x0A, c1 := 4 },
  { base := 0x0E, p := 0xFFFFFFFF },
  { base := 0x0F, auth := 1 },
  { base := 0x10, c1 := 72 },
  { base := 0x58, w := 0xFF00FFFF },
  { base := 0x59, reset := 0x0000FFFF },
  { base := 0x5A, c1 := 5 },
  { base := 0x5F, reset := 0x00000001 }]

/-- The registers of block CUFF (0x79), by index in the block. -/
def rowsCUFF : List RegRow := [
  { base := 0x00 },
  { base := 0x01, auth := 1, w1c := 0x0FFF0FFF },
  { base := 0x02, c1 := 2 },
  { base := 0x04, auth := 1 },
  { base := 0x05, w := 0x0000000F },
  { base := 0x06, c1 := 5 },
  { base := 0x0B, reset := 0x00000001 },
  { base := 0x0C, s1 := 3, c1 := 12 },
  { base := 0x0D, s1 := 3, c1 := 10, w := 0xFFFFFFFF, p := 0xFFFFFFFF, reset := 0x000003E8 },
  { base := 0x0E, s1 := 3, c1 := 12, p := 0xFFFFFFFF },
  { base := 0x2B, w := 0xFFFFFFFF, p := 0xFFFFFFFF, reset := 0x00030D40 },
  { base := 0x2E, w := 0xFFFFFFFF, p := 0xFFFFFFFF, reset := 0x000003E8 }]

/-- The registers of block EVR (0x7C), by index in the block. -/
def rowsEVR : List RegRow := [
  { base := 0x00 },
  { base := 0x01, guard := .owner, auth := 3, w := 0xFFFF0700, p := 0xFFFFFFFF, reset := 0x03E80300 },
  { base := 0x02, c1 := 2, p := 0xFFFFFFFF },
  { base := 0x04, w := 0xFFFFFFFF },
  { base := 0x05, w := 0x0000001F },
  { base := 0x06 },
  { base := 0x07, c1 := 5, p := 0xFFFFFFFF },
  { base := 0x0C, auth := 1, w1c := 0x0000001F },
  { base := 0x0D, guard := .owner, auth := 3 },
  { base := 0x0E, auth := 1 },
  { base := 0x0F, p := 0xFFFFFFFF },
  { base := 0x10, w := 0x00000007, reset := 0x00000001 },
  { base := 0x11, c1 := 10, p := 0xFFFFFFFF },
  { base := 0x1B },
  { base := 0x1C, c1 := 2, p := 0xFFFFFFFF },
  { base := 0x1E },
  { base := 0x1F, reset := 0x00000001 }]

/-- The registers of block UPD (0x7E), by index in the block. -/
def rowsUPD : List RegRow := [
  { base := 0x00 },
  { base := 0x01, guard := .owner, auth := 3, w := 0x0000FFFF, p := 0xFFFFFFFF, reset := 0x0000012C },
  { base := 0x02, c1 := 5 },
  { base := 0x07, auth := 1, w1c := 0x0000000F },
  { base := 0x08, p := 0xFFFFFFFF },
  { base := 0x09, c1 := 4 },
  { base := 0x0D, c1 := 2, p := 0xFFFFFFFF },
  { base := 0x0F, auth := 1 },
  { base := 0x10, s1 := 4, c1 := 7, p := 0xFFFFFFFF },
  { base := 0x11, s1 := 4, c1 := 7, p := 0xFFFFFFFF },
  { base := 0x12, s1 := 4, c1 := 7, p := 0xFFFFFFFF },
  { base := 0x13, s1 := 4, c1 := 7, p := 0xFFFFFFFF },
  { base := 0x2C, c1 := 4 }]

/-- The registers of block SEC (0x7F), by index in the block. -/
def rowsSEC : List RegRow := [
  { base := 0x00 },
  { base := 0x01, guard := .owner, auth := 3, p := 0xFFFFFFFF },
  { base := 0x02, reset := 0x0000000F },
  { base := 0x03, guard := .owner, auth := 3 },
  { base := 0x04, c1 := 10 },
  { base := 0x0E, auth := 1, w1c := 0x0000000F },
  { base := 0x0F, guard := .owner, auth := 3, w := 0x000000FF, p := 0xFFFFFFFF },
  { base := 0x10, p := 0xFFFFFFFF, reset := 0x80000000 },
  { base := 0x11, s1 := 2, c1 := 16, p := 0xFFFFFFFF },
  { base := 0x12, s1 := 2, c1 := 14, p := 0xFFFFFFFF },
  { base := 0x2E, p := 0xFFFFFFFF, reset := 0xB1000000 }]

/-- The rows of a block, by block number (Table CH-9); no rows for a number that is no block. -/
def blockRows (b : Nat) : List RegRow :=
  match b with
  | 0x00 => rowsID
  | 0x01 => rowsMODE
  | 0x02 => rowsPAIR
  | 0x03 => rowsLOCK
  | 0x04 => rowsPOWER
  | 0x05 => rowsLINING
  | 0x10 => rowsTB
  | 0x11 => rowsPTP
  | 0x12 => rowsTREF
  | 0x20 => rowsFRAME
  | 0x21 => rowsTASK
  | 0x22 => rowsIMG
  | 0x30 => rowsACQ
  | 0x31 => rowsACH
  | 0x32 => rowsACH
  | 0x33 => rowsACH
  | 0x34 => rowsACH
  | 0x35 => rowsACH
  | 0x36 => rowsACH
  | 0x37 => rowsACH
  | 0x38 => rowsACH
  | 0x40 => rowsTRG
  | 0x41 => rowsTDC
  | 0x48 => rowsLOOP
  | 0x50 => rowsDIO
  | 0x58 => rowsAO
  | 0x59 => rowsHART
  | 0x60 => rowsNET
  | 0x61 => rowsPRP
  | 0x68 => rowsCAN
  | 0x69 => rowsCAN
  | 0x70 => rowsDMA
  | 0x78 => rowsCOLLAR
  | 0x79 => rowsCUFF
  | 0x7C => rowsEVR
  | 0x7E => rowsUPD
  | 0x7F => rowsSEC
  | _ => []

/-- The row of an address, if the address is an implemented register (R7). -/
def regRow (a : Nat) : Option RegRow := (blockRows (a / 256)).find? (fun r => r.covers (a % 256))

/-- Whether an address is an implemented register (R7). -/
def implemented (a : Nat) : Bool := (regRow a).isSome

/-- What a register holds after a start when it is not preserved, and before it has first been written (R10); 0 for an
address that is no register. -/
def regReset (a : Nat) : Word := ((regRow a).map (·.reset)).getD 0

/-- The preserved bits of a register (R10). -/
def regPreserved (a : Nat) : Word := ((regRow a).map (·.p)).getD 0

/-- The bits of a register that the settings store holds: what a write sets and a start preserves (R481). -/
def settingMask (a : Nat) : Word := ((regRow a).map fun r => r.w &&& r.p).getD 0

/-- Field bounds of the register maps, part 1. -/
def regBounds0 : List RegBound := [
  { base := 0x1007, msb := 19, max := 536870 },
  { base := 0x1008, msb := 29, min := 100, max := 999999999 },
  { base := 0x1017, min := 1, max := 3600 },
  { base := 0x1203, min := 1, max := 255 },
  { base := 0x1204, max := 3600 },
  { base := 0x1207, msb := 3, min := 4, max := 5 },
  { base := 0x1106, min := 2, max := 10 },
  { base := 0x010B, msb := 3, min := 1, max := 10 },
  { base := 0x2011, min := 10000, max := 1000000 },
  { base := 0x2204, min := 1, max := 8500 },
  { base := 0x3100, msb := 1, max := 2 },
  { base := 0x3200, msb := 1, max := 2 },
  { base := 0x3300, msb := 1, max := 2 },
  { base := 0x3400, msb := 1, max := 2 },
  { base := 0x3500, msb := 1, max := 2 },
  { base := 0x3600, msb := 1, max := 2 },
  { base := 0x3700, msb := 1, max := 2 },
  { base := 0x3800, msb := 1, max := 2 },
  { base := 0x3102, max := 25600000 },
  { base := 0x3202, max := 25600000 },
  { base := 0x3302, max := 25600000 },
  { base := 0x3402, max := 25600000 },
  { base := 0x3502, max := 25600000 },
  { base := 0x3602, max := 25600000 },
  { base := 0x3702, max := 25600000 },
  { base := 0x3802, max := 25600000 },
  { base := 0x3103, msb := 15, min := 1, max := 16384 },
  { base := 0x3203, msb := 15, min := 1, max := 16384 },
  { base := 0x3303, msb := 15, min := 1, max := 16384 },
  { base := 0x3403, msb := 15, min := 1, max := 16384 },
  { base := 0x3503, msb := 15, min := 1, max := 16384 },
  { base := 0x3603, msb := 15, min := 1, max := 16384 },
  { base := 0x3703, msb := 15, min := 1, max := 16384 },
  { base := 0x3803, msb := 15, min := 1, max := 16384 },
  { base := 0x3105, msb := 17, lsb := 16, max := 2 },
  { base := 0x3205, msb := 17, lsb := 16, max := 2 },
  { base := 0x3305, msb := 17, lsb := 16, max := 2 },
  { base := 0x3405, msb := 17, lsb := 16, max := 2 },
  { base := 0x3505, msb := 17, lsb := 16, max := 2 },
  { base := 0x3605, msb := 17, lsb := 16, max := 2 }]

/-- Field bounds of the register maps, part 2. -/
def regBounds1 : List RegBound := [
  { base := 0x3705, msb := 17, lsb := 16, max := 2 },
  { base := 0x3805, msb := 17, lsb := 16, max := 2 },
  { base := 0x3105, msb := 15, min := 8, max := 40000 },
  { base := 0x3205, msb := 15, min := 8, max := 40000 },
  { base := 0x3305, msb := 15, min := 8, max := 40000 },
  { base := 0x3405, msb := 15, min := 8, max := 40000 },
  { base := 0x3505, msb := 15, min := 8, max := 40000 },
  { base := 0x3605, msb := 15, min := 8, max := 40000 },
  { base := 0x3705, msb := 15, min := 8, max := 40000 },
  { base := 0x3805, msb := 15, min := 8, max := 40000 },
  { base := 0x4001, msb := 1, max := 2 },
  { base := 0x4003, msb := 15, min := 40, max := 40000 },
  { base := 0x4010, s1 := 4, c1 := 32, msb := 27, lsb := 26, max := 2 },
  { base := 0x4010, s1 := 4, c1 := 32, msb := 23, lsb := 16, min := 1, max := 255 },
  { base := 0x4010, s1 := 4, c1 := 32, msb := 15, max := 16384 },
  { base := 0x4104, min := 1, max := 60 },
  { base := 0x410D, msb := 5, max := 47 },
  { base := 0x0301, msb := 23, lsb := 16, min := 1, max := 255 },
  { base := 0x030B, min := 1, max := 720 },
  { base := 0x0207, min := 100, max := 60000 },
  { base := 0x020E, msb := 3, min := 1, max := 10 },
  { base := 0x0224, msb := 15, lsb := 8, min := 1, max := 10 },
  { base := 0x0224, msb := 7, min := 1, max := 10 },
  { base := 0x6001, msb := 3, min := 1, max := 10 },
  { base := 0x6007, lsb := 16, min := 1, max := 60 },
  { base := 0x6008, lsb := 16, min := 100, max := 10000 },
  { base := 0x6008, msb := 15, min := 1, max := 100 },
  { base := 0x6010, s1 := 8, c1 := 5, msb := 21, lsb := 16, max := 32 },
  { base := 0x6010, s1 := 8, c1 := 5, msb := 1, max := 2 },
  { base := 0x6038, msb := 9, min := 1, max := 1023 },
  { base := 0x6101, msb := 5, lsb := 4, max := 1 },
  { base := 0x6101, msb := 1, max := 2 },
  { base := 0x6102, lsb := 16, min := 1, max := 10 },
  { base := 0x6103, min := 1, max := 400 },
  { base := 0x6104, min := 10, max := 10000 },
  { base := 0x5014, s1 := 1, c1 := 4, lsb := 16, min := 100, max := 10000 },
  { base := 0x5020, s1 := 4, c1 := 32, msb := 15, min := 1, max := 65535 },
  { base := 0x5820, s1 := 8, c1 := 8, msb := 29, lsb := 28, max := 2 },
  { base := 0x5820, s1 := 8, c1 := 8, msb := 25, lsb := 24, max := 2 },
  { base := 0x5901, msb := 11, lsb := 8, max := 7 }]

/-- Field bounds of the register maps, part 3. -/
def regBounds2 : List RegBound := [
  { base := 0x5901, msb := 4, min := 5, max := 20 },
  { base := 0x5905, msb := 7, max := 32 },
  { base := 0x5910, s1 := 6, c1 := 8, msb := 15, min := 100, max := 60000 },
  { base := 0x6802, lsb := 24, min := 1, max := 32 },
  { base := 0x6902, lsb := 24, min := 1, max := 32 },
  { base := 0x6802, msb := 23, lsb := 16, min := 2, max := 255 },
  { base := 0x6902, msb := 23, lsb := 16, min := 2, max := 255 },
  { base := 0x6802, msb := 14, lsb := 8, min := 2, max := 127 },
  { base := 0x6902, msb := 14, lsb := 8, min := 2, max := 127 },
  { base := 0x6803, lsb := 24, min := 1, max := 32 },
  { base := 0x6903, lsb := 24, min := 1, max := 32 },
  { base := 0x6803, msb := 20, lsb := 16, min := 1, max := 31 },
  { base := 0x6903, msb := 20, lsb := 16, min := 1, max := 31 },
  { base := 0x6803, msb := 12, lsb := 8, min := 1, max := 16 },
  { base := 0x6903, msb := 12, lsb := 8, min := 1, max := 16 },
  { base := 0x6808, lsb := 16, min := 1, max := 600 },
  { base := 0x6908, lsb := 16, min := 1, max := 600 },
  { base := 0x7802, msb := 12, lsb := 8, max := 23 },
  { base := 0x7905, msb := 3, max := 11 },
  { base := 0x7C01, lsb := 16, max := 60000 },
  { base := 0x7C01, msb := 10, lsb := 8, max := 5 },
  { base := 0x7C10, msb := 2, min := 1, max := 7 },
  { base := 0x7E01, msb := 15, min := 60, max := 3600 },
  { base := 0x040E, min := 1, max := 168 }]

/-- All field bounds of the register maps. -/
def regBounds : List RegBound := regBounds0 ++ regBounds1 ++ regBounds2

/-- Whether every bounded field of the register at `a` lies within its bounds in the value `v`. -/
def inBounds (a : Nat) (v : Word) : Bool :=
  regBounds.all fun b =>
    !(decide (b.base ≤ a) && decide ((a - b.base) % b.s1 = 0) && decide ((a - b.base) / b.s1 < b.c1)) ||
      (decide (b.min ≤ fld v b.msb b.lsb) && decide (fld v b.msb b.lsb ≤ b.max))

end Sys2Proof.Machine
end

