-- ==== Sys2Proof/Machine/Sparse.lean ====
section
/-!
DEFINITION. Sparse stores: a list of (key, value) pairs in one canonical form (keys strictly rising, no entry equal to
what an unlisted key reads as), so that equal stores are equal data. The register file, the window words and the
fabric memory are such stores.
-/

namespace Sys2Proof.Machine

/-- What the store lists at key `k`, if anything. -/
def sparseFind {β : Type} : List (Nat × β) → Nat → Option β
  | [], _ => none
  | (k', v) :: rest, k => if k' = k then some v else sparseFind rest k

/-- What the store reads as at key `k`: the listed value, or `d` when the key is unlisted. -/
def sparseGet {β : Type} (d : β) (m : List (Nat × β)) (k : Nat) : β := (sparseFind m k).getD d

/-- The store without key `k`. -/
def sparseErase {β : Type} : List (Nat × β) → Nat → List (Nat × β)
  | [], _ => []
  | (k', v) :: rest, k => if k' = k then sparseErase rest k else (k', v) :: sparseErase rest k

/-- The store with `v` listed at key `k`, in rising order of keys. -/
def sparseInsert {β : Type} : List (Nat × β) → Nat → β → List (Nat × β)
  | [], k, v => [(k, v)]
  | (k', v') :: rest, k, v =>
    if k < k' then (k, v) :: (k', v') :: rest
    else if k = k' then (k, v) :: rest
    else (k', v') :: sparseInsert rest k v

/-- A write: the value is listed unless it equals what an unlisted key reads as (`d`), in which case the entry goes. -/
def sparseSet {β : Type} [DecidableEq β] (d : β) (m : List (Nat × β)) (k : Nat) (v : β) : List (Nat × β) :=
  if v = d then sparseErase m k else sparseInsert m k v

/-- The entry at key `k` changed by `f`. -/
def sparseUpd {β : Type} [DecidableEq β] (d : β) (m : List (Nat × β)) (k : Nat) (f : β → β) : List (Nat × β) :=
  sparseSet d m k (f (sparseGet d m k))

/-- Every listed value changed by `f`; those that become the default go. -/
def sparseMap {β : Type} [DecidableEq β] (d : β) (f : β → β) (m : List (Nat × β)) : List (Nat × β) :=
  (m.map fun e => (e.1, f e.2)).filter fun e => decide (e.2 ≠ d)

/-- Keys strictly rising, all above `lo` when a lower bound is given, and no entry equal to its default. -/
def sparseWfFrom {β : Type} [DecidableEq β] (d : Nat → β) : Option Nat → List (Nat × β) → Bool
  | _, [] => true
  | lo, (k, v) :: rest =>
    (match lo with
      | none => true
      | some l => decide (l < k)) && decide (v ≠ d k) && sparseWfFrom d (some k) rest

/-- The canonical form of a store whose unlisted key `k` reads as `d k`. -/
def sparseWf {β : Type} [DecidableEq β] (d : Nat → β) (m : List (Nat × β)) : Bool := sparseWfFrom d none m

end Sys2Proof.Machine
end

