-- ==== Sys2Proof/Machine/RegFile.lean ====
section
/-!
DEFINITION. The register file and the window words: the one operation that reads a stored register and the one that writes it.
-/

namespace Sys2Proof.Machine

/-- The stored value of the register at address `a`: what was last stored, else its reset value (R10). -/
def State.reg (s : State) (a : Nat) : Word := sparseGet (regReset a) s.regs a

/-- The state with `v` stored in the register at address `a`. -/
def State.setReg (s : State) (a : Nat) (v : Word) : State :=
  { s with regs := sparseSet (regReset a) s.regs a v }

/-- The field `[hi:lo]` of the register at `a`. -/
def State.regFld (s : State) (a hi lo : Nat) : Nat := fld (s.reg a) hi lo

/-- Bit `i` of the register at `a`. -/
def State.regBit (s : State) (a i : Nat) : Bool := bit (s.reg a) i

/-- The field `[hi:lo]` of the register at `a` set to `v`. -/
def State.putReg (s : State) (a hi lo v : Nat) : State := s.setReg a (putFld (s.reg a) hi lo v)

/-- Bit `i` of the register at `a` set to `b`. -/
def State.putRegBit (s : State) (a i : Nat) (b : Bool) : State := s.setReg a (putBit (s.reg a) i b)

/-- The bits of `m` set in the register at `a` (an alarm, R9: it stays until a 1 is written to it). -/
def State.orReg (s : State) (a : Nat) (m : Word) : State := s.setReg a (s.reg a ||| m)

/-- The bits of `m` cleared in the register at `a`. -/
def State.clearBits (s : State) (a : Nat) (m : Word) : State := s.setReg a (s.reg a &&& ~~~m)

/-- A counter register that runs modulo 2^32 moved on by one (notes/assumptions/7.md). -/
def State.incReg (s : State) (a : Nat) : State := s.setReg a (s.reg a + 1)

/-- A counter register moved on by `n`, modulo 2^32. -/
def State.addReg (s : State) (a n : Nat) : State := s.setReg a (s.reg a + BitVec.ofNat 32 n)

/-- A counter register that saturates moved on by one. -/
def State.satReg (s : State) (a : Nat) : State := s.setReg a (satInc (s.reg a))

/-- A saturating counter in the field `[hi:lo]` of a register moved on by one. -/
def State.satRegFld (s : State) (a hi lo : Nat) : State := s.setReg a (satIncFld (s.reg a) hi lo)

/-- Every register of a list of addresses stored as 0. -/
def State.zeroRegs (s : State) : List Nat → State
  | [] => s
  | a :: rest => State.zeroRegs (s.setReg a 0) rest

/-- The registers kept over a start: the preserved bits as stored, the others at their reset value (R10). -/
def keepPreserved : List (Nat × Word) → List (Nat × Word)
  | [] => []
  | (a, v) :: rest =>
    let v' := merge (regPreserved a) (regReset a) v
    if v' = regReset a then keepPreserved rest else (a, v') :: keepPreserved rest

/-- The key of a window word: window, unit and word number (R165, R348). -/
def winKey (w : WinId) (unit word : Nat) : Nat := w.code * 65536 + unit * 32 + word

/-- A committed window word. -/
def State.win (s : State) (w : WinId) (unit word : Nat) : Word := sparseGet 0 s.wins (winKey w unit word)

/-- The state with a committed window word set. -/
def State.setWin (s : State) (w : WinId) (unit word : Nat) (v : Word) : State :=
  { s with wins := sparseSet 0 s.wins (winKey w unit word) v }

/-- The field `[hi:lo]` of a committed window word. -/
def State.winFld (s : State) (w : WinId) (unit word hi lo : Nat) : Nat := fld (s.win w unit word) hi lo

/-- Bit `i` of a committed window word. -/
def State.winBit (s : State) (w : WinId) (unit word i : Nat) : Bool := bit (s.win w unit word) i

/-- A window word as a read of the window returns it: the staged word where one is staged, else the committed one (R348). -/
def State.winStaged (s : State) (w : WinId) (unit word : Nat) : Word :=
  (sparseFind s.staged (winKey w unit word)).getD (s.win w unit word)

/-- A word staged for a later commit (R165). -/
def State.stageWord (s : State) (w : WinId) (unit word : Nat) (v : Word) : State :=
  { s with staged := sparseInsert s.staged (winKey w unit word) v }

/-- The staged words of one unit of a window dropped: writing the select register loads the committed ones again (R165). -/
def State.dropStaged (s : State) (w : WinId) (unit : Nat) : State :=
  { s with staged := s.staged.filter (fun e => !(decide (e.1 / 32 = w.code * 2048 + unit))) }

end Sys2Proof.Machine
end

