-- ==== Sys2Proof/Machine/ViewIo.lean ====
section
/-!
DEFINITION. What the registers of the digital channels, the current loops and HART read as (Tables DI-8, AO-10, AO-13): those composed
from the channels' state.
-/

namespace Sys2Proof.Machine

open Reg

/-- [31:28] of a point reference: its type. -/
def pointType (p : Word) : Nat := fld p 31 28

/-- [21:12] of a point reference: the station. -/
def pointStation (p : Word) : Nat := fld p 21 12

/-- [11:0] of a point reference: the local point. -/
def pointLocal (p : Word) : Nat := fld p 11 0

/-- Types 0x2, 0x4 and 0x7 are outputs (Table FX-6). -/
def isOutputType (t : Nat) : Bool := decide (t = 2) || decide (t = 4) || decide (t = 7)

/-- Whether hem is in force for all outputs (Table FX-12). -/
def hemNow (s : State) : Bool :=
  match s.mode with
  | .run => false
  | .stop => !(s.regBit MODE.CFG 4 && s.frame.everRun)
  | .hold => !(s.regBit MODE.CFG 8 && s.frame.everRun)
  | .safe => true

/-- Bits of a list of flags, the first in bit 0. -/
def bitsOf : List Bool → Nat
  | [] => 0
  | b :: rest => b2n b + 2 * bitsOf rest

/-- Local output stages are enabled: this module holds the grant and the partner holds none, or a share window is open (R262, R264). -/
def State.stagesOn (s : State) : Bool :=
  s.pair.grant && (!s.pair.grantPartner || s.pair.share || s.pair.sharePartner) && !s.lock.cutOff

/-! ### Digital channels -/

/-- Digital channel `c`. -/
def State.dio (s : State) (c : Nat) : DioChannel := sparseGet {} s.io.channels c

/-- Group `g`. -/
def State.dioGroup (s : State) (g : Nat) : DioGroup := sparseGet {} s.io.groups g

/-- Bit `i` of a digital channel's configuration (Table DI-9). -/
def State.dioBit (s : State) (c i : Nat) : Bool := s.regBit (DIO.CH_CFG c) i

/-- The channel is configured as an output. -/
def State.isOut (s : State) (c : Nat) : Bool := s.dioBit c 30

/-- An output still awaits its release, or belongs to a group or pair base that holds it unreleased (R366). -/
def State.dioStaged (s : State) (c : Nat) : Bool :=
  s.isOut c && ((s.dio c).unreleased || s.pair.unheld || (s.dioGroup (c / 8)).low || (s.dioGroup (c / 8)).tripped.isSome)

/-- An output drives the value of its latch: enabled, released, its group not off (R359), its switch not shut down (Table DI-5). -/
def State.dioDriving (s : State) (c : Nat) : Bool :=
  s.isOut c && s.dioBit c 31 && !s.dioStaged c && !(s.dio c).hot && !(s.dioGroup (c / 8)).latchedOff

/-- The group's supply is valid (Table DI-2). -/
def State.supplyValid (s : State) (g : Nat) : Bool := s.io.fieldUp && !(s.dioGroup g).low

/-- The debounced level as it is reported: a disabled channel reads 0 (Table DI-9). -/
def State.dioLevel (s : State) (c : Nat) : Bool := (s.dio c).level && s.dioBit c 31

/-- A word with one bit per digital channel. -/
def dioWord (f : Nat → Bool) : Word := BitVec.ofNat 32 (bitsOf ((List.range 32).map f))

/-- DIO.CH_STAT (Table DI-10). -/
def viewDioStat (s : State) (c : Nat) : Word :=
  let x := s.dio c
  let g := s.dioGroup (c / 8)
  BitVec.ofNat 32
    (b2n (s.dioLevel c) * 2147483648 + b2n x.raw * 1073741824 + b2n x.latch * 536870912
      + b2n (s.dioBit c 31 && s.supplyValid (c / 8)) * 268435456
      + b2n x.forcedOn * 128 + b2n x.overload * 64 + b2n x.thermal * 32 + b2n x.openLoad * 16 + b2n g.low * 8
      + b2n (s.isOut c && (g.tripped.isSome || g.latchedOff)) * 4 + b2n (s.dioStaged c) * 2 + b2n (g.warn || g.high))

/-- DIO.GRP_STATUS (Table DI-8). -/
def viewDioGroup (s : State) (g : Nat) : Word :=
  let x := s.dioGroup g
  BitVec.ofNat 32
    (b2n (s.supplyValid g) * 2147483648 + b2n x.warn * 1073741824 + b2n x.low * 536870912 + b2n x.high * 268435456
      + b2n (x.tripped.isSome || x.latchedOff) * 134217728 + b2n x.latchedOff * 67108864
      + bitsOf ((List.range 8).map fun i => s.dioDriving (8 * g + i)) * 65536
      + satTo 15 (x.trips.filter (fun t => s.tb.up < t + 60 * secUnits)).length)

/-- DIO registers composed (Table DI-8). -/
def viewDio (s : State) (a : Nat) : Word :=
  if a = DIO.STATUS then
    BitVec.ofNat 32 (b2n s.io.fieldUp * 2147483648 + b2n s.pair.grant * 1073741824
      + bitsOf ((List.range 4).map fun g => (s.dioGroup g).low))
  else if a = DIO.RAW_LEVEL then dioWord fun c => (s.dio c).raw
  else if a = DIO.OUT_CMD then dioWord fun c => (s.dio c).latch
  else if a = DIO.READBACK then dioWord fun c => s.isOut c && s.dioLevel c
  else if a = DIO.DIR then dioWord s.isOut
  else if a = DIO.FORCED_ON then dioWord fun c => (s.dio c).forcedOn
  else if a = DIO.STAGED then dioWord s.dioStaged
  else if DIO.GRP_STATUS 0 ≤ a ∧ a ≤ DIO.GRP_STATUS 3 then viewDioGroup s (a - DIO.GRP_STATUS 0)
  else if DIO.CH_CFG 0 ≤ a ∧ (a - DIO.CH_CFG 0) % 4 = 1 then viewDioStat s ((a - DIO.CH_CFG 0) / 4)
  else s.reg a

/-! ### Current loops -/

/-- Current-loop channel `n`. -/
def State.ao (s : State) (n : Nat) : AoChannel := sparseGet {} s.io.loops n

/-- FAIL_LO and FAIL_HI in mA (R376). -/
def aoFail (s : State) (n : Nat) (high : Bool) : Word :=
  milliamps (if high then s.regFld (AO.FAIL_LVL n) 31 16 else s.regFld (AO.FAIL_LVL n) 15 0)

/-- What a current-loop channel drives in hem under its HEM_MODE, in mA (R88, Table AO-4 row 6). -/
def aoHem (s : State) (n : Nat) : Word :=
  match s.regFld (AO.CH_CFG n) 25 24 with
  | 1 => aoFail s n false
  | 2 => aoFail s n true
  | _ => s.reg (AO.HEM n)

/-- The hem value of an output point (R88). -/
def hemOf (s : State) (b : Binding) : Word :=
  let l := pointLocal b.point
  if pointStation b.point ≠ 0 then b.hem
  else if pointType b.point = 2 ∧ l < 0x20 then BitVec.ofNat 32 (b2n (s.regBit DIO.HEM l))
  else if pointType b.point = 4 ∧ 0x100 ≤ l ∧ l < 0x108 then aoHem s (l - 0x100)
  else b.hem

/-- The limits of a channel's range in mA (Table AO-2). -/
def aoLimits (s : State) (n : Nat) : Word × Word :=
  match s.regFld (AO.CH_CFG n) 29 28 with
  | 0 => (milliamps 3800, milliamps 20500)
  | 1 => (0, milliamps 20000)
  | _ => (0, milliamps 24000)

/-- A command clamped to the range (R372). -/
def aoClamp (s : State) (n : Nat) (v : Word) : Word :=
  let l := aoLimits s n
  if lt32 v l.1 then l.1 else if lt32 l.2 v then l.2 else v

/-- The command of row 8 before clamping: a force replaces it (R374). -/
def aoCommand (s : State) (n : Nat) : Word :=
  (sparseFind s.frame.forces (0x40000100 + n)).getD (s.ao n).cmd

/-- A command or a force has been given to the channel since the run tick. -/
def aoGiven (s : State) (n : Nat) : Bool := (s.ao n).committed || (sparseFind s.frame.forces (0x40000100 + n)).isSome

/-- Hem is in force for the channel (Table FX-12): also until its owner commits a value after the run tick. -/
def aoHemOn (s : State) (n : Nat) : Bool := hemNow s || !(s.ao n).committed

/-- Parked for HART multidrop (R393). -/
def aoParked (s : State) (n : Nat) : Bool := s.regBit (HART.CH_CFG n) 30

/-- The rows 6 to 8 of Table AO-4: the row, and the value. -/
def aoWanted (s : State) (n : Nat) : Nat × Word :=
  if aoHemOn s n then (6, aoHem s n)
  else
    match (s.ao n).request with
    | 1 => (7, aoFail s n false)
    | 2 => (7, aoFail s n true)
    | _ => (8, aoClamp s n (aoCommand s n))

/-- The rows 2 to 8 of Table AO-4: the row that decides, and the value. -/
def aoValue (s : State) (n : Nat) : Nat × Word :=
  let x := s.ao n
  if !s.regBit (AO.CH_CFG n) 31 || x.unreleased then (2, 0)
  else if aoParked s n then (3, milliamps 4000)
  else if x.miswire && (s.regBit (AO.CH_CFG n) 27 || s.regBit (AO.CH_CFG n) 30) then (4, 0)
  else if x.compliance && s.regBit (AO.CH_CFG n) 26 && x.trying.isNone then (5, aoFail s n false)
  else aoWanted s n

/-- The value a channel drives, and the row of Table AO-4 that decides (row 1: none). -/
def aoDriven (s : State) (n : Nat) : Nat × Word := if !s.stagesOn then (1, 0) else aoValue s n

/-- The value a channel is to reach: that of Table AO-4, or while COMPLIANCE holds FAIL_LO the one it tries (R381). -/
def aoSought (s : State) (n : Nat) : Word := if (aoValue s n).1 = 5 then (aoWanted s n).2 else (aoValue s n).2

/-- The span of a channel's range in mA (Table AO-2). -/
def aoSpan (s : State) (n : Nat) : Nat :=
  match s.regFld (AO.CH_CFG n) 29 28 with
  | 0 => 16
  | 1 => 20
  | _ => 24

/-- A current lies within `per` 0.001% of span of a value. -/
def aoNear (s : State) (n : Nat) (current value : Word) (per : Nat) : Bool := within32 current value (aoSpan s n * per) 100000

/-- The low-pass of R394 stands before the converter. -/
def aoFiltered (s : State) (n : Nat) : Bool := s.regBit (HART.CH_CFG n) 31 && !s.regBit (HART.CH_CFG n) 30

/-- The output of the low-pass now: its value and its slope (R394). -/
def aoPassed (s : State) (n : Nat) : Word × Word :=
  let x := s.ao n
  let dt := s.tb.up - x.passedAt
  (Config.hartLowPass x.passed x.slope x.converter dt 0, Config.hartLowPass x.passed x.slope x.converter dt 1)

/-- The value at the converter (R377, R394). -/
def aoConverter (s : State) (n : Nat) : Word := if aoFiltered s n then (aoPassed s n).1 else (s.ao n).converter

/-- A failure level is driven (Table AO-12). -/
def aoFailOut (s : State) (n : Nat) : Bool :=
  match (aoDriven s n).1 with
  | 5 => true
  | 6 => decide (s.regFld (AO.CH_CFG n) 25 24 ≠ 0)
  | 7 => true
  | _ => false

/-- AO.CH_STAT (Table AO-12). -/
def viewAoStat (s : State) (n : Nat) : Word :=
  let x := s.ao n
  BitVec.ofNat 32
    (b2n (!x.unreleased && s.stagesOn) * 2147483648 + b2n x.unreleased * 1073741824
      + b2n (aoGiven s n && decide (aoClamp s n (aoCommand s n) ≠ aoCommand s n)) * 536870912 + b2n (aoFailOut s n) * 268435456
      + b2n (s.stagesOn && aoHemOn s n) * 134217728 + b2n (aoParked s n) * 67108864
      + b2n x.miswire * 128 + b2n x.compliance * 64 + b2n x.thermal * 32 + b2n x.foldback * 16 + b2n x.cmdInvalid * 8
      + b2n x.supplyFault * 4 + b2n x.senseFault * 2)

/-- A field with one bit per current-loop channel. -/
def aoBits (f : Nat → Bool) : Nat := bitsOf ((List.range 8).map f)

/-- AO registers composed (Table AO-10). -/
def viewAo (s : State) (a : Nat) : Word :=
  if a = AO.STATUS then
    BitVec.ofNat 32 (b2n s.io.loopUp * 2147483648 + b2n s.pair.grant * 1073741824
      + aoBits (fun n => !(s.ao n).unreleased && s.stagesOn) * 256 + aoBits (fun n => decide (fld (viewAoStat s n) 7 1 ≠ 0)))
  else if a = AO.FAULT then
    BitVec.ofNat 32 (aoBits (fun n => (s.ao n).miswire) * 16777216 + aoBits (fun n => (s.ao n).compliance) * 65536
      + aoBits (fun n => (s.ao n).thermal) * 256 + aoBits (fun n => (s.ao n).senseFault || (s.ao n).supplyFault))
  else if a = AO.STAGED then BitVec.ofNat 32 (aoBits fun n => (s.ao n).unreleased)
  else if a = AO.FOLDBACK then BitVec.ofNat 32 (aoBits fun n => (s.ao n).foldback)
  else if a = AO.PARKED then BitVec.ofNat 32 (aoBits (aoParked s))
  else if AO.CH_CFG 0 ≤ a ∧ (a - AO.CH_CFG 0) % 8 = 1 then viewAoStat s ((a - AO.CH_CFG 0) / 8)
  else if AO.CH_CFG 0 ≤ a ∧ (a - AO.CH_CFG 0) % 8 = 2 then
    (let n := (a - AO.CH_CFG 0) / 8
     if aoGiven s n then aoClamp s n (aoCommand s n) else 0)
  else s.reg a

/-! ### HART -/

/-- HART channel `n`. -/
def State.hart (s : State) (n : Nat) : HartChannel := sparseGet {} s.io.hart n

/-- HART.CH_STAT (Table AO-13). -/
def viewHartStat (s : State) (n : Nat) : Word :=
  let x := s.hart n
  BitVec.ofNat 32 (x.state * 268435456 + b2n x.job.isSome * 134217728 + b2n x.secondary * 67108864 + x.lastCode.toNat * 256
    + x.lastStatus.toNat)

/-- HART registers composed (Table AO-13). -/
def viewHart (s : State) (a : Nat) : Word :=
  if a = HART.STATUS then
    BitVec.ofNat 32 (b2n s.io.loopUp * 2147483648 + aoBits (fun n => decide ((s.hart n).state = 2)) * 65536
      + aoBits (fun n => decide ((s.hart n).state = 3)) * 256 + aoBits (fun n => s.regBit (HART.CH_CFG n) 31))
  else if HART.CH_CFG 0 ≤ a ∧ (a - HART.CH_CFG 0) % 6 = 1 then viewHartStat s ((a - HART.CH_CFG 0) / 6)
  else s.reg a

end Sys2Proof.Machine
end

