-- ==== Sys2Proof/Machine/ViewNet.lean ====
section
/-!
DEFINITION. What the registers of the networks read as (Tables NW-6 to NW-9): those composed from the networks' state.
-/

namespace Sys2Proof.Machine

open Reg

/-- Station `n`. -/
def State.station (s : State) (n : Nat) : Station := sparseGet {} s.net.stations n

/-- The station window enables station `n` (Table NW-7). -/
def stationOn (s : State) (n : Nat) : Bool := s.winBit .station n 0 31

/-- State of a station as word 4 shows it (Table NW-7). -/
def stationState (s : State) (n : Nat) : Nat :=
  let x := s.station n
  if !stationOn s n then 0 else if x.bound ∧ x.absent then 3 else if x.bound then 2 else if x.refused then 4 else 1

/-- Bound and present. -/
def stationUp (s : State) (n : Nat) : Bool := decide (stationState s n = 2)

/-- Publisher `m` and subscription `k`. -/
def State.publisher (s : State) (m : Nat) : Publisher := sparseGet {} s.net.publishers m
/-- Subscription `k`. -/
def State.subscription (s : State) (k : Nat) : Subscription := sparseGet {} s.net.subscriptions k

/-- Redundancy network `n` (0 process bus, 1 station bus). -/
def State.prp (s : State) (n : Nat) : Redundancy := if n = 0 then s.net.net0 else s.net.net1

/-- ACTIVE or SOLO (R296). -/
def State.leadsBus (s : State) : Bool :=
  match s.role with
  | .active => true
  | .solo => true
  | _ => false

/-- The module sends QSP output frames (R89, R304). -/
def State.runsQsp (s : State) : Bool :=
  s.regBit NET.CFG 31 && (match s.role with
    | .active => true
    | .solo => true
    | .standby => true
    | _ => false)

/-- Word `w` of the window of station `n`, without staged words (Table NW-7). -/
def stationWord (s : State) (n w : Nat) : Word :=
  if w = 4 then BitVec.ofNat 32 (stationState s n * 268435456 + satTo 65535 (s.station n).misses)
  else if w = 5 then (s.station n).changed
  else s.win .station n w

/-- Word `w` of the window of a GOOSE control block, without staged words (Table NW-8). -/
def gooseWord (s : State) (u w : Nat) : Word :=
  let on := s.winBit .goose u 0 31
  if w = 28 then (if u < 16 then (s.publisher u).stNum else (s.subscription (u - 16)).stNum)
  else if w = 29 then
    (if u < 16 then BitVec.ofNat 32 (b2n on * 2 * 268435456 + (s.publisher u).sqNum.toNat % 268435456)
     else BitVec.ofNat 32 ((s.subscription (u - 16)).state * 268435456 + (s.subscription (u - 16)).sqNum.toNat % 268435456))
  else s.win .goose u w

/-- NET registers composed (Table NW-6). -/
def viewNet (s : State) (a : Nat) : Word :=
  if a = NET.STATUS then
    BitVec.ofNat 32 (b2n s.runsQsp * 2147483648 + b2n (s.leadsBus && decide (s.reg NET.PAIR_IP ≠ 0)) * 1073741824
      + (s.net.stations.countP fun e => stationUp s e.1) * 65536 + s.net.stations.countP fun e => decide (stationState s e.1 = 3))
  else if a = NET.PAIR_MAC_HI then
    (if s.reg NET.PAIR_MAC_HI = 0 ∧ s.reg NET.PAIR_MAC_LO = 0 then 0x0251 else s.reg a)
  else if a = NET.PAIR_MAC_LO then
    (if s.reg NET.PAIR_MAC_HI = 0 ∧ s.reg NET.PAIR_MAC_LO = 0 then BitVec.ofNat 32 (0x43000000 + s.pair.baseId.toNat) else s.reg a)
  else if a = NET.PORT_IP 1 ∧ s.net.net0.mode ≠ 0 then s.reg (NET.PORT_IP 0)
  else if a = NET.PORT_GW 1 ∧ s.net.net0.mode ≠ 0 then s.reg (NET.PORT_GW 0)
  else if a = NET.PORT_IP 3 ∧ s.net.net1.mode ≠ 0 then s.reg (NET.PORT_IP 2)
  else if a = NET.PORT_GW 3 ∧ s.net.net1.mode ≠ 0 then s.reg (NET.PORT_GW 2)
  else if a = NET.RX_FRAMES 4 then s.reg a + BitVec.ofNat 32 s.qcp.serviceIn
  else if a = NET.TX_FRAMES 4 then s.reg a + BitVec.ofNat 32 s.qcp.serviceOut
  else if a = NET.TX_FRAMES 2 ∨ (a = NET.TX_FRAMES 3 ∧ s.net.net1.mode ≠ 0) then s.reg a + BitVec.ofNat 32 s.qcp.busOut
  else if NET.ST_WIN 0 ≤ a ∧ a ≤ NET.ST_WIN 5 then
    (let n := s.regFld NET.ST_SEL 9 0
     (sparseFind s.staged (winKey .station n (a - NET.ST_WIN 0))).getD (stationWord s n (a - NET.ST_WIN 0)))
  else if NET.GO_WIN 0 ≤ a ∧ a ≤ NET.GO_WIN 29 then
    (let u := s.regFld NET.GO_SEL 6 0
     (sparseFind s.staged (winKey .goose u (a - NET.GO_WIN 0))).getD (gooseWord s u (a - NET.GO_WIN 0)))
  else if NET.ST_BOUND 0 ≤ a ∧ a ≤ NET.ST_BOUND 31 then
    BitVec.ofNat 32 (bitsOf ((List.range 32).map fun i => stationUp s ((a - NET.ST_BOUND 0) * 32 + i)))
  else s.reg a

/-- The node that PRP.NODE_SEL selects. -/
def selectedNode (s : State) : Option Node :=
  (s.prp (s.regFld PRP.NODE_SEL 10 10)).nodes[s.regFld PRP.NODE_SEL 9 0]?

/-- PRP registers composed (Table NW-9). -/
def viewPrp (s : State) (a : Nat) : Word :=
  let p := s.net.net0
  let b := s.net.net1
  if a = PRP.STATUS then
    BitVec.ofNat 32 (p.mode * 1073741824 + b.mode * 268435456 + b2n b.upB * 8 + b2n b.upA * 4 + b2n p.upB * 2 + b2n p.upA)
  else if a = PRP.NODE_MAC_HI then ((selectedNode s).map fun x => BitVec.ofNat 32 (x.mac.toNat / 4294967296)).getD 0
  else if a = PRP.NODE_MAC_LO then ((selectedNode s).map fun x => BitVec.ofNat 32 x.mac.toNat).getD 0
  else if a = PRP.NODE_INFO then ((selectedNode s).map fun x => BitVec.ofNat 32 (2147483648 + x.kind * 268435456)).getD 0
  else if a = PRP.NODE_AGE then ((selectedNode s).map fun x => satWord ((s.tb.up - x.seen) / secUnits)).getD 0
  else if a = PRP.HSR_STATE then
    BitVec.ofNat 32 (b2n (p.backA && p.backB) * 2147483648 + (if p.brokenAt = 0 then 0 else satTo 65535 ((s.tb.up - p.brokenAt) / secUnits)))
  else if a = PRP.NET_STATUS 0 ∨ a = PRP.NET_STATUS 1 then
    (let x := s.prp ((a - PRP.NET_STATUS 0) / 24)
     BitVec.ofNat 32 (b2n x.upA * 2147483648 + b2n x.upB * 1073741824
       + (if x.changedAt = 0 then 0 else satTo 65535 ((s.tb.up - x.changedAt) / secUnits))))
  else if a = PRP.TX_A 1 ∨ (a = PRP.TX_B 1 ∧ b.mode ≠ 0) then s.reg a + BitVec.ofNat 32 s.qcp.busOut
  else if a = PRP.NODES 0 ∨ a = PRP.NODES 1 then BitVec.ofNat 32 (s.prp ((a - PRP.NODES 0) / 24)).nodes.length
  else s.reg a

end Sys2Proof.Machine
end

