-- ==== Sys2Proof/Machine/ViewCan.lean ====
section
/-!
DEFINITION. What the registers of the CAN channels read as (Tables CN-5 and CN-6).
-/

namespace Sys2Proof.Machine

open Reg

/-- Channel `ch`. -/
def State.can (s : State) (ch : Nat) : CanChannel := if ch = 0 then s.can0 else s.can1

/-- The window of a channel's buffers. -/
def canWin (ch : Nat) : WinId := if ch = 0 then .can0 else .can1

/-- Buffer `b` of a channel. -/
def State.canBuf (s : State) (ch b : Nat) : CanBuffer := sparseGet {} (s.can ch).buffers b

/-- A committed configuration bit of a buffer (Table CN-6, word 0). -/
def canBit (s : State) (ch b i : Nat) : Bool := s.winBit (canWin ch) b 0 i

/-- An enabled receive, or transmit, buffer. -/
def canRx (s : State) (ch b : Nat) : Bool := canBit s ch b 31 && !canBit s ch b 30
/-- An enabled transmit buffer. -/
def canTx (s : State) (ch b : Nat) : Bool := canBit s ch b 31 && canBit s ch b 30

/-- Whether a local point is one of buffer `b` (Table CN-3). -/
def canPointOf (ch b l : Nat) : Bool :=
  decide (l = 0x200 + 64 * ch + b) || decide (l = 0x300 + 64 * ch + b) ||
    (decide (0x400 + 0x400 * ch + 16 * b ≤ l) && decide (l < 0x400 + 0x400 * ch + 16 * b + 16))

/-- The buffer is bound by an image (R408). -/
def canBound (i : Option Image) (ch b : Nat) : Bool :=
  match i with
  | none => false
  | some im => im.bindings.any fun x =>
      decide (fld x.point 21 12 = 0) && (decide (fld x.point 31 28 = 6) || decide (fld x.point 31 28 = 7)) && canPointOf ch b (fld x.point 11 0)

/-- Data word `w` of a frame, bytes beyond its length reading 0 (R405). -/
def canData (f : CanFrame) (w : Nat) : Word :=
  let len := if f.rtr then 0 else if !bit f.ident 30 then satTo 8 f.dlc else match f.dlc with
    | 9 => 12
    | 10 => 16
    | 11 => 20
    | 12 => 24
    | 13 => 32
    | 14 => 48
    | 15 => 64
    | n => n
  let v := f.data.getD w 0
  if 4 * w + 4 ≤ len then v
  else if len ≤ 4 * w then 0
  else v &&& BitVec.ofNat 32 (4294967296 - 2 ^ (8 * (4 * w + 4 - len)))

/-- Word `w` of a buffer, without staged words (Table CN-6). -/
def canWord (s : State) (ch b w : Nat) : Word :=
  let x := s.canBuf ch b
  if w ≤ 2 then s.win (canWin ch) b w
  else if w = 3 then
    BitVec.ofNat 32 (b2n x.isNew * 2147483648 + b2n x.overrun * 1073741824 + b2n x.frame.rtr * 536870912 + b2n x.frame.esi * 268435456
      + x.frame.dlc % 16)
  else if w = 4 then x.sec
  else if w = 5 then x.ns
  else if canTx s ch b then x.frame.data.getD (w - 6) 0
  else canData x.frame (w - 6)

/-- Half of CAN.BUF_STAT for one buffer (Table CN-5). -/
def canHalf (s : State) (i : Option Image) (ch b : Nat) : Nat :=
  let x := s.canBuf ch b
  b2n (canBit s ch b 31) * 32768 + b2n (canBit s ch b 30) * 16384 + b2n x.isNew * 8192 + b2n x.pending.isSome * 4096
    + b2n x.overrun * 2048 + b2n (canBound i ch b) * 1024 + x.count % 256

/-- CAN registers composed (Table CN-5). -/
def viewCan (s : State) (i : Option Image) (ch a : Nat) : Word :=
  let c := s.can ch
  let bits (w : Nat) (f : CanBuffer → Bool) : Word := BitVec.ofNat 32 (bitsOf ((List.range 32).map fun b => f (s.canBuf ch (32 * w + b))))
  if a = CAN.STATUS ch then
    BitVec.ofNat 32 (b2n c.part * 2147483648 + b2n s.pair.grant * 1073741824
      + b2n (s.regBit (CAN.CTRL ch) 29 || decide (s.regFld (CAN.AB_RESULT ch) 31 28 = 1)) * 536870912
      + b2n (decide (s.regFld (CAN.AB_RESULT ch) 31 28 = 1)) * 268435456 + c.buffers.countP fun e => e.2.pending.isSome)
  else if a = CAN.ERR ch then
    BitVec.ofNat 32 ((if c.part then c.state else 3) * 1073741824 + b2n (decide (128 ≤ c.rec_)) * 536870912 + satTo 255 c.tec * 256
      + satTo 255 c.rec_)
  else if a = CAN.NEW ch 0 then bits 0 (·.isNew)
  else if a = CAN.NEW ch 1 then bits 1 (·.isNew)
  else if a = CAN.PENDING ch 0 then bits 0 (·.pending.isSome)
  else if a = CAN.PENDING ch 1 then bits 1 (·.pending.isSome)
  else if a = CAN.LOCKED ch then
    (match c.locked with
      | some (b, _, _) => BitVec.ofNat 32 (2147483648 + b)
      | none => 0)
  else if CAN.BUF_WIN ch 0 ≤ a ∧ a ≤ CAN.BUF_WIN ch 21 then
    (let b := s.regFld (CAN.BUF_SEL ch) 5 0
     (sparseFind s.staged (winKey (canWin ch) b (a - CAN.BUF_WIN ch 0))).getD (canWord s ch b (a - CAN.BUF_WIN ch 0)))
  else if CAN.BUF_STAT ch 0 ≤ a ∧ a ≤ CAN.BUF_STAT ch 31 then
    (let j := a - CAN.BUF_STAT ch 0
     BitVec.ofNat 32 (canHalf s i ch (2 * j + 1) * 65536 + canHalf s i ch (2 * j)))
  else s.reg a

end Sys2Proof.Machine
end

