-- ==== Sys2Proof/Machine/View.lean ====
section
/-!
DEFINITION. What a register reads as, without the side effects of a read (R448). Most registers read as stored; those that show a
mode, a flag or a queue that the state holds elsewhere are composed here from that one home.
-/

namespace Sys2Proof.Machine

open Reg

/-- The stored pair identity is set and differs from the pair base's: the module does not become SOLO (R254). -/
def soloBlocked (s : State) : Bool := decide (s.pair.storedId ≠ 0) && decide (s.pair.storedId ≠ s.pair.baseId)

/-- The partner as the time leader sees it: inserted and not presumed failed (R44). -/
def State.partnerLive (s : State) : Bool := s.pair.partnerPresent && !s.pair.partnerFailed

/-- Whether this module is the pair's time leader (R44). -/
def State.timeLeader (s : State) : Bool :=
  if s.role = .active ∨ s.role = .solo then true
  else if s.partnerLive ∧ (s.pair.partnerRole = .active ∨ s.pair.partnerRole = .solo) then false
  else if s.pair.posB then !s.partnerLive || decide (s.pair.partnerRole = .out)
  else decide (s.role ≠ .out)

/-- TB.STATUS (Table TB-11). -/
def viewTbStatus (s : State) : Word :=
  BitVec.ofNat 32
    (s.tb.quality.code * 1073741824 + s.tb.selRef * 16777216 + b2n s.tb.stepped * 8388608 + b2n s.tb.slewing * 4194304
      + b2n s.tb.jumpPending * 2097152 + b2n s.tb.alignOk * 1048576 + b2n s.timeLeader * 524288
      + b2n (s.regBit TB.LEAP_CTRL 31) * 262144)

/-- TB registers composed from the time base. -/
def viewTb (s : State) (a : Nat) : Word := if a = TB.STATUS then viewTbStatus s else s.reg a

/-- Whether the accepted selected reference declares itself untraceable (R37). -/
def untraceableSelected (s : State) : Bool :=
  decide (1 ≤ s.tb.selRef ∧ s.tb.selRef ≤ 3) && !(sparseGet {} s.tb.refs (s.tb.selRef - 1)).traceable

/-- clockClass of Table TB-6, or the parent's for a boundary clock (R37, R50). -/
def announcedClass (s : State) : Nat :=
  match s.tb.quality with
  | .locked =>
    if untraceableSelected s then 248
    else if s.tb.selRef = 3 then (s.ptp.masters.head?.map (·.clockClass)).getD 6 else 6
  | .holdover => 7
  | _ => 248

/-- clockAccuracy of Table TB-6, or the parent's for a boundary clock (R50). -/
def announcedAccuracy (s : State) : Nat :=
  match s.tb.quality with
  | .locked => if s.tb.selRef = 3 then (s.ptp.masters.head?.map (·.accuracy)).getD 0x1F else 0x1F
  | .holdover =>
    let h := (s.reg TB.HOLD_EST).toNat
    if h ≤ 25 then 0x20 else if h ≤ 100 then 0x21 else if h ≤ 250 then 0x22 else if h ≤ 1000 then 0x23
    else if h ≤ 2500 then 0x24 else 0x25
  | _ => 0xFE

/-- timeSource of Table TB-6. -/
def announcedSource (s : State) : Nat :=
  match s.tb.quality with
  | .locked => s.ptp.timeSource
  | .holdover => s.ptp.timeSource
  | _ => 0xA0

/-- timeTraceable of Table TB-6 (R37). -/
def announcedTraceable (s : State) : Bool :=
  match s.tb.quality with
  | .locked => !(untraceableSelected s)
  | .holdover => true
  | _ => false

/-- totalTimeInaccuracy of Table TB-6, ns; TB.UNCERT is in 2^-4 ns. -/
def announcedInaccuracy (s : State) : Word :=
  match s.tb.quality with
  | .locked => BitVec.ofNat 32 (((s.reg TB.UNCERT).toNat + 15) / 16)
  | .holdover => s.reg TB.HOLD_EST
  | _ => BitVec.allOnes 32

/-- The own clockIdentity, formed from the base MAC address with 0xFFFE between its halves (notes/assumptions/8.md). -/
def clockIdentity (s : State) : Nat :=
  let mac := fld (s.reg ID.MAC_HI) 15 0 * 4294967296 + (s.reg ID.MAC_LO).toNat
  (mac / 16777216) * 1099511627776 + 0xFFFE * 16777216 + mac % 16777216

/-- Whether the operator enabled reference `r` (TREF.CTRL [2:0]). -/
def State.refEnabled (s : State) (r : Nat) : Bool := s.regBit TREF.CTRL r

/-- Whether the module takes part as a PTP slave: PTP is enabled as a reference, and is the selected one or none is selected yet
(R43; notes/assumptions/10.md). -/
def State.ptpSlaveMode (s : State) : Bool :=
  bit s.ptp.ctrl 16 && s.refEnabled 2 && decide (s.tb.selRef = 3 ∨ s.tb.selRef = 0)

/-- The registers of foreign master `m`, word `k` (PTP.FM_ID_HI, FM_ID_LO, FM_QUALITY, FM_INFO; Table TB-15); 0 when fewer masters are
known. -/
def viewMaster (s : State) (m k : Nat) : Word :=
  match s.ptp.masters[m]? with
  | none => 0
  | some f =>
    match k with
    | 0 => BitVec.ofNat 32 (f.id.toNat / 4294967296)
    | 1 => BitVec.ofNat 32 f.id.toNat
    | 2 => BitVec.ofNat 32 (f.clockClass * 16777216 + f.accuracy * 65536 + f.priority1 * 256 + f.priority2)
    | _ => BitVec.ofNat 32 (f.port * 268435456 + (if f.age ≤ 4095 then f.age else 4095) * 65536 + f.stepsRemoved)

/-- PTP registers composed from the announced clock data (Tables TB-6 and TB-15). -/
def viewPtp (s : State) (a : Nat) : Word :=
  if a = PTP.CLOCK_QUALITY then
    BitVec.ofNat 32 (announcedClass s * 16777216 + announcedAccuracy s * 65536 + 0xFFFF)
  else if a = PTP.TIME_SOURCE then BitVec.ofNat 32 (announcedSource s)
  else if a = PTP.CLOCK_ID_HI then BitVec.ofNat 32 (clockIdentity s / 4294967296)
  else if a = PTP.CLOCK_ID_LO then BitVec.ofNat 32 (clockIdentity s)
  else if a = PTP.TOTAL_INACC then announcedInaccuracy s
  else if a = PTP.PORT_CFG 0 ∨ a = PTP.PORT_CFG 1 ∨ a = PTP.PORT_CFG 2 ∨ a = PTP.PORT_CFG 3 ∨ a = PTP.PORT_CFG 4 then
    putBit (putBit (s.reg a) 8 (!s.ptpSlaveMode)) 4 (decide (a ≤ PTP.PORT_CFG 1) && decide (s.net.net0.mode = 2))
  else if PTP.FM_ID_HI 0 ≤ a ∧ a < PTP.COUNT 0 then viewMaster s ((a - PTP.FM_ID_HI 0) / 4) ((a - PTP.FM_ID_HI 0) % 4)
  else s.reg a

/-- EVR registers composed from the recorder (Table EV-4). -/
def viewEvr (s : State) (a : Nat) : Word :=
  if EVR.SNAP_WIN 0 ≤ a ∧ a ≤ EVR.SNAP_WIN 9 then s.winStaged .snap (s.regFld EVR.SNAP_SEL 2 0) (a - EVR.SNAP_WIN 0)
  else if a = EVR.STATUS then
    BitVec.ofNat 32
      (b2n (decide (s.evr.records.length = 16384)) * 2147483648 + b2n s.evr.sealOk * 1073741824 + 536870912
        + b2n s.evr.winCopy.isNone * 268435456 + s.evr.records.length)
  else if a = EVR.NEWEST then BitVec.ofNat 32 s.evr.newest
  else if a = EVR.OLDEST then BitVec.ofNat 32 ((s.evr.records.head?.map (·.index)).getD 0)
  else if a = EVR.CURSOR then BitVec.ofNat 32 s.evr.winCursor
  else if a = EVR.WIN_PTR then BitVec.ofNat 32 s.evr.winPtr
  else if a = EVR.LOSS then s.evr.loss
  else if a = EVR.LOSS_SEV then s.evr.lossSev
  else if a = EVR.INTAKE_LOST then s.evr.intakeLost
  else if a = EVR.OVERWRITTEN then s.evr.overwritten
  else if a = EVR.FOLDED then s.evr.folded
  else if a = EVR.ALARM then s.evr.alarm
  else if a = EVR.DISCARDED then s.evr.discarded
  else if a = EVR.INTAKE_MAX then s.evr.intakeMax
  else if a = EVR.FATAL_HELD then BitVec.ofNat 32 (s.evr.records.countP (fun r => r.severity = 4))
  else if a = EVR.LAST_CODE then
    ((s.evr.records.getLast?.map (fun r => BitVec.ofNat 32 (r.code.toNat * 65536 + r.source.toNat))).getD 0)
  else s.reg a

/-! ### Control blocks -/

/-- The bank that is not running (R103). -/
def State.otherBank (s : State) : Nat := if s.frame.runBank = 0 then 1 else 0

/-- The decoded image in a bank. -/
def State.bankImage (s : State) (b : Nat) : Option Image := if b = 0 then s.frame.bank0 else s.frame.bank1

/-- The running image. -/
def State.image (s : State) : Option Image := s.bankImage s.frame.runBank

/-- Bank states (R102): 0 EMPTY, 1 LOADING, 2 VERIFIED, 3 ADMITTED, 4 RUNNING, 5 REFUSED. -/
def State.bankState (s : State) (b : Nat) : Nat := s.regFld (IMG.B_STATE b) 3 0

/-- The running bank holds an image that has been admitted (Table FX-11; MODE.STATUS.IMAGE_ADMITTED). -/
def State.runnable (s : State) : Bool :=
  s.image.isSome && (decide (s.bankState s.frame.runBank = 4) || decide (s.bankState s.frame.runBank = 3))

/-- MODE.STATUS (Table FX-16). -/
def viewModeStatus (s : State) : Word :=
  BitVec.ofNat 32
    (s.mode.code * 268435456 + s.role.code * 16777216 + b2n s.frame.runChange.isSome * 8388608 + b2n (s.regBit LOCK.STATUS 15) * 4194304
      + b2n s.runnable * 2097152 + b2n (decide (s.lock.split ≠ 0)) * 1048576
      + b2n (s.frame.instances.any fun x => x.firstScan || !s.frame.instanceFirst.isEmpty) * 524288)

/-- PAIR.STATUS (Table PR-14). -/
def viewPairStatus (s : State) : Word :=
  let p := s.pair
  BitVec.ofNat 32
    (s.role.code * 268435456 + b2n p.posB * 134217728 + b2n (p.posB == s.regBit PAIR.CFG 30) * 67108864
      + b2n p.partnerPresent * 33554432 + b2n p.degraded * 16777216 + b2n p.partnerFailed * 8388608 + b2n p.muted * 4194304
      + b2n p.grant * 2097152 + b2n (decide (s.role = .standby) && p.claim) * 1048576 + b2n (decide (1 ≤ p.phase)) * 524288
      + b2n (soloBlocked s) * 262144 + b2n p.lever * 131072
      + b2n (decide (s.role = .out) && p.lever && p.clamped && !p.grant) * 65536)

/-- PAIR.YOKE (Table PR-16). -/
def viewYoke (s : State) : Word :=
  let p := s.pair
  BitVec.ofNat 32
    (b2n p.claim * 128 + b2n p.claimPartner * 64 + b2n p.grant * 32 + b2n p.grantPartner * 16 + b2n p.share * 8
      + b2n p.sharePartner * 4 + b2n p.takeoverIn * 2 + b2n p.takeoverOut)

/-- PAIR registers composed from the pair (Table PR-13). -/
def viewPair (s : State) (a : Nat) : Word :=
  let p := s.pair
  if a = PAIR.STATUS then viewPairStatus s
  else if a = PAIR.YOKE then viewYoke s
  else if a = PAIR.ID then BitVec.ofNat 32 (p.baseId.toNat * 65536 + p.storedId.toNat)
  else if a = PAIR.PARTNER then
    BitVec.ofNat 32 ((p.partnerRole.code * 16 + p.partnerMode.code) * 16777216 + p.partnerFlags.toNat * 65536 + p.partnerId.toNat)
  else if a = PAIR.PATHS then
    BitVec.ofNat 32 (b2n p.tandem.up * 2147483648 + b2n p.pulse.up * 1073741824 + b2n p.lane0 * 536870912 + b2n p.lane1 * 268435456
      + satTo 255 p.tandem.misses * 256 + satTo 255 p.pulse.misses)
  else if a = PAIR.MUTE then BitVec.ofNat 32 (b2n p.muted * 2147483648 + s.regFld PAIR.MUTE 15 0)
  else if a = PAIR.DIGEST_OWN_HI then BitVec.ofNat 32 (p.digestOwn.toNat / 4294967296)
  else if a = PAIR.DIGEST_OWN_LO then BitVec.ofNat 32 p.digestOwn.toNat
  else if a = PAIR.DIGEST_PEER_HI then BitVec.ofNat 32 (p.digestPeer.toNat / 4294967296)
  else if a = PAIR.DIGEST_PEER_LO then BitVec.ofNat 32 p.digestPeer.toNat
  else if a = PAIR.TRACK_STATUS then
    BitVec.ofNat 32 (p.phase * 268435456 + satTo 15 p.round * 16777216 + satTo 255 p.passedOver * 65536
      + (if p.phase = 0 then 0 else satTo 65535 ((s.tb.up - p.trackSince) / secUnits)))
  else if a = PAIR.TRACK_DIRTY then BitVec.ofNat 32 p.dirty.length
  else s.reg a

/-- FRAME registers composed from frames and tacks (Table FX-18). -/
def viewFrame (s : State) (a : Nat) : Word :=
  let f := s.frame
  if a = FRAME.STATUS then
    BitVec.ofNat 32 (b2n s.pair.lastAgreed * 2147483648 + b2n s.pair.lastSeam * 1073741824 + satTo 255 s.pair.unagreed * 65536)
  else if FRAME.CYCLE_IDX 0 ≤ a ∧ a ≤ FRAME.CYCLE_IDX 5 then BitVec.ofNat 32 (f.t0 / frameUnits / 10 ^ (a - FRAME.CYCLE_IDX 0))
  else if a = FRAME.INDEX then BitVec.ofNat 32 (f.t0 / frameUnits % 100000)
  else if a = FRAME.TACK_STATUS then BitVec.ofNat 32 (f.tacks.length * 65536 + (512 - f.tacks.length))
  else if a = FRAME.TACK_NEXT_ID then (f.tacks.head?.map (·.id)).getD 0
  else if a = FRAME.TACK_NEXT_SEC then (f.tacks.head?.map (fun t => secWord t.time)).getD 0
  else if a = FRAME.TACK_NEXT_NS then (f.tacks.head?.map (fun t => nsWord t.time)).getD 0
  else s.reg a

/-- IMG.STATUS (Table FX-20). -/
def viewImg (s : State) (a : Nat) : Word :=
  if a = IMG.STATUS then
    BitVec.ofNat 32 (s.frame.runBank * 2147483648 + b2n (s.frame.sw.bind (·.tick)).isSome * 512 + b2n s.frame.sw.isSome * 256)
  else if a = IMG.SIGNER then BitVec.ofNat 32 ((s.image.map (·.signer)).getD 0)
  else s.reg a

/-- LOCK registers composed (Table LS-5): the pairs split, and the seconds since HOLD was entered. -/
def viewLock (s : State) (a : Nat) : Word :=
  if a = LOCK.STATUS then
    s.reg a ||| BitVec.ofNat 32 (s.lock.split.toNat * 1048576 + b2n (s.regBit LOCK.CFG 4 && s.regBit LOCK.STATUS 30) * 536870912)
  else if a = LOCK.BOOT_SPLIT then BitVec.ofNat 32 s.lock.split.toNat
  else if a = LOCK.DEBUG_INFO then
    (if s.mode = .hold then BitVec.ofNat 32 (satTo 16777215 ((s.tb.up - s.lock.heldSince) / secUnits)) else 0)
  else s.reg a

/-- Phasor sources of enabled PMU `m`: the present phasor half-words without their type (Table AQ-13). -/
def pmuSources (s : State) (m : Nat) : List Nat :=
  if s.winBit .pmu m 0 31 then
    (((List.range 16).map fun k => if k % 2 = 0 then s.winFld .pmu m (4 + k / 2) 31 16 else s.winFld .pmu m (4 + k / 2) 15 0).filter
      (fun h => decide (0x8000 ≤ h))).map (fun h => if h / 0x1000 % 2 = 0 then h % 8 else h % 0x2000)
  else []

/-- Distinct phasor sources in use, of PMUs and of register settings (R158). -/
def phasorSources (s : State) : List Nat :=
  (((List.range 16).flatMap (pmuSources s)) ++
    ((List.range 8).filter (fun n => s.regBit (ACH.PHA_CFG n) 31))).eraseDups

/-- The state of channel `n`. -/
def State.achan (s : State) (n : Nat) : AcqChannel := sparseGet {} s.acq.channels n

/-- ACQ registers composed (Table AQ-14). -/
def viewAcq (s : State) (a : Nat) : Word :=
  if ACQ.PMU_WIN 0 ≤ a ∧ a ≤ ACQ.PMU_WIN 13 then s.winStaged .pmu (s.regFld ACQ.PMU_SEL 3 0) (a - ACQ.PMU_WIN 0)
  else if ACQ.SV_WIN 0 ≤ a ∧ a ≤ ACQ.SV_WIN 13 then s.winStaged .sv (s.regFld ACQ.SV_SEL 5 0) (a - ACQ.SV_WIN 0)
  else if a = ACQ.STATUS then
    (s.reg a &&& 0xE0000000#32) ||| BitVec.ofNat 32
      (bitsOf ((List.range 8).map fun n => (s.achan n).on) * 65536
        + bitsOf ((List.range 8).map fun n => s.regBit (ACH.STATUS n) 28) * 256)
  else if a = ACQ.PHA_USE then
    BitVec.ofNat 32 ((List.range 16).countP (fun m => s.winBit .pmu m 0 31) * 256 + (phasorSources s).length)
  else if a = ACQ.SV_USE then
    BitVec.ofNat 32 ((List.range 64).countP (fun k => decide (s.winFld .sv k 13 31 24 = 2)) * 256
      + (List.range 64).countP (fun k => s.winBit .sv k 0 31))
  else s.reg a

/-- The values of channel `n` carry the invalid flag of R137. -/
def State.calInvalid (s : State) (n : Nat) : Bool := s.regBit (ACH.STATUS n) 28 || !s.regBit ACQ.STATUS 29

/-- ACH.STATUS (Table AQ-18): VALID and TWE_ARMED are composed. -/
def viewAch (s : State) (n a : Nat) : Word :=
  if a = ACH.STATUS n then
    (s.reg a &&& 0x7EFFFFFF#32) ||| BitVec.ofNat 32
      (b2n ((s.achan n).on && !s.calInvalid n && (s.achan n).commonModeOk) * 2147483648
        + b2n ((s.achan n).on && s.regBit (ACH.TWE_CFG n) 31) * 16777216)
  else s.reg a

/-- Lines this module asserts: pulses that have not ended (R182). -/
def ownLines (s : State) : Nat :=
  if s.role = .init ∨ s.role = .out then 0
  else bitsOf ((List.range 8).map fun l => (sparseFind s.trg.pulses l).isSome || (sparseFind s.trg.tackPulses l).isSome)

/-- A committed pattern unit that is enabled cares about partner sources (Table TG-12, FUSED). -/
def caresPartner (s : State) (u : Nat) : Bool :=
  s.winBit .pat u 0 31 && (decide (s.win .pat u 6 ≠ 0) || (s.winBit .pat u 0 30 && decide (s.win .pat u 14 ≠ 0)))

/-- Bytes that a record holds of one channel (Table AQ-2). -/
def RecordChannel.bytes (x : RecordChannel) : Nat :=
  (x.raw.map fun f => 2 * f.codes.length).foldl (· + ·) 0 + 8 * x.dec.length + 4 * x.wav.length
    + 32 * (x.cyc.length + x.pha.length + x.twe.length)

/-- Kilobytes of a record in the store (Table TG-8). -/
def recordKb (r : TrigRecord) : Nat := (((r.channels.map RecordChannel.bytes).foldl (· + ·) 0) + 1023) / 1024

/-- The committed records. -/
def committedRecords (s : State) : List TrigRecord := s.trg.records.filter (fun r => !r.isOpen)

/-- TRG registers composed (Table TG-12). -/
def viewTrg (s : State) (a : Nat) : Word :=
  if TRG.PAT_WIN 0 ≤ a ∧ a ≤ TRG.PAT_WIN 18 then s.winStaged .pat (s.regFld TRG.PAT_SEL 2 0) (a - TRG.PAT_WIN 0)
  else if TRG.REC_WIN 0 ≤ a ∧ a ≤ TRG.REC_WIN 10 then s.winStaged .records (s.regFld TRG.REC_SEL 2 0) (a - TRG.REC_WIN 0)
  else if TRG.FL_WIN 0 ≤ a ∧ a ≤ TRG.FL_WIN 7 then s.winStaged .fl (s.regFld TRG.FL_SEL 2 0) (a - TRG.FL_WIN 0)
  else if a = TRG.STATUS then
    BitVec.ofNat 32 (b2n s.trg.partnerValid * 2147483648 + b2n ((List.range 8).any (caresPartner s)) * 1073741824
      + bitsOf ((List.range 8).map fun u => s.winBit .pat u 0 31) * 65536
      + bitsOf ((List.range 8).map fun k => s.trg.records.any (fun r => r.isOpen && decide (r.profile = k))) * 256 + ownLines s)
  else if a = TRG.TL_STATE then
    BitVec.ofNat 32 (((s.trg.lineLevels ||| BitVec.ofNat 8 (ownLines s)).toNat) * 256 + ownLines s)
  else if a = TRG.REC_STATUS then
    let kb := ((committedRecords s).map recordKb).foldl (· + ·) 0
    BitVec.ofNat 32 ((committedRecords s).length % 65536 * 65536 + (8192 - (kb + 1023) / 1024))
  else if a = TRG.REC_NEXT then BitVec.ofNat 32 s.trg.nextRecord
  else s.reg a

/-- TDC registers composed (Table TG-17). -/
def viewTdc (s : State) (a : Nat) : Word :=
  let i := sparseGet {} s.trg.inputs (s.regFld TDC.IN_SEL 5 0)
  if a = TDC.STATUS then
    BitVec.ofNat 32 (b2n (s.trg.calibratedAt.isSome && !s.trg.calBad) * 2147483648 + b2n (s.regBit TDC.CTRL 0) * 1073741824)
  else if a = TDC.CAL_AGE then
    (match s.trg.calibratedAt with
      | some t => satWord ((s.tb.up - t) / secUnits)
      | none => 0)
  else if a = TDC.IN_DELAY then i.delay
  else if a = TDC.IN_COUNT then i.count
  else if a = TDC.IN_LAST_SEC then (i.last.map (fun l => secWord l.1)).getD 0
  else if a = TDC.IN_LAST_NS then (i.last.map (fun l => BitVec.ofNat 32 (l.2 * 1073741824 + nsOf l.1))).getD 0
  else if a = TDC.IN_LAST_FRAC then (i.last.map (fun l => BitVec.ofNat 32 (fracOf l.1))).getD 0
  else if a = TDC.FIFO_STATUS then BitVec.ofNat 32 (b2n s.trg.fifoOverflow * 2147483648 + s.trg.fifo.length)
  else if a = TDC.FIFO_SEC then (s.trg.fifo.head?.map (fun l => secWord l.1)).getD 0
  else if a = TDC.FIFO_NS then (s.trg.fifoLatch.map (fun l => BitVec.ofNat 32 (l.2 * 1073741824 + nsOf l.1))).getD 0
  else if a = TDC.FIFO_FRAC then (s.trg.fifoLatch.map (fun l => BitVec.ofNat 32 (fracOf l.1))).getD 0
  else s.reg a

/-! ### The loop engine -/

/-- Slot `k` of the loop engine. -/
def State.slot (s : State) (k : Nat) : Slot := sparseGet {} s.loop.slots k

/-- A committed word of a slot's page; the write phase of a fixed-phase slot resets to 3,200 (Table LE-1). -/
def State.slotWord (s : State) (k page w : Nat) : Word :=
  let v := s.win .loop (k * 8 + page) w
  if page = 0 ∧ w = 10 ∧ 240 ≤ k ∧ v = 0 then 3200 else v

/-- The mode of a slot (R211): TASK_MODE when its override bit is set. -/
def slotMode (s : State) (k : Nat) : Nat :=
  if bit (s.slotWord k 0 15) 31 then fld (s.slotWord k 0 15) 1 0 else fld (s.slotWord k 0 0) 31 29

/-- Place of a slot in its lane's order: fixed-phase slots first (R217). -/
def laneOrder (k : Nat) : Nat := if 240 ≤ k then (k - 240) / 4 else 4 + k / 4

/-- The slot at place `p` of lane `l`. -/
def laneSlot (l p : Nat) : Nat := if p < 4 then 240 + 4 * p + l else 4 * (p - 4) + l

/-- How many slots in a mode other than off stand on the lane up to a slot's place, itself included (R218). -/
def lanePosition (s : State) (k : Nat) : Nat :=
  ((List.range (laneOrder k + 1)).filter fun p => decide (slotMode s (laneSlot (k % 4) p) ≠ 0)).length

/-- The write-time bound in 2.5 ns ticks from t0 (R218, R219). -/
def writeBound (s : State) (k : Nat) : Nat :=
  if slotMode s k = 0 then 0 else if 240 ≤ k then fld (s.slotWord k 0 10) 11 0 else 368 + 32 * lanePosition s k

/-- The image binds a process-image point to the slot (Table LE-3, UNBOUND). -/
def slotPoint (s : State) (k : Nat) : Option Binding :=
  s.image.bind fun i => i.bindings.find? fun b => decide (b.owner = some { kind := 1, number := k })

/-- Word 13 of page 0 (Table LE-3). -/
def slotStatus (s : State) (k : Nat) : Word :=
  let x := s.slot k
  BitVec.ofNat 32 (b2n x.satHi * 2147483648 + b2n x.satLo * 1073741824 + b2n x.inFault * 536870912 + b2n x.stateFault * 268435456
    + b2n x.subst * 134217728 + b2n x.cascPrev * 67108864
    + b2n (decide (fld (s.slotWord k 0 0) 25 24 = 2) && (slotPoint s k).isNone) * 33554432
    + b2n (decide (x.evaluated = some (s.frame.t0 / frameUnits - 1) ∨ x.evaluated = some (s.frame.t0 / frameUnits))) * 16777216)

/-- The index of state `j` (from 1) of the section on page `p`. -/
def stateIndex (p j : Nat) : Nat := (p - 1) * 3 + (j - 1)

/-- Word `w` of a section's states: from `base` on, high words first. -/
def stateWord (x : Slot) (p base w : Nat) : Word :=
  let v := (x.states[stateIndex p (1 + (w - base) / 2)]?).getD 0
  if (w - base) % 2 = 0 then BitVec.ofNat 32 (v.toNat / 4294967296) else BitVec.ofNat 32 v.toNat

/-- Word 11 of page 0 (Table LE-1): the last output rounded, 0.0 in mode off, or the destination's hem value while hem applies. -/
def slotOut (s : State) (k : Nat) : Word :=
  let x := s.slot k
  let own := if slotMode s k = 0 then 0 else narrow x.us
  if hemNow s then
    match fld (s.slotWord k 0 0) 25 24 with
    | 1 => aoHem s (fld (s.slotWord k 0 0) 18 16)
    | 2 => ((slotPoint s k).map (hemOf s)).getD own
    | _ => own
  else own

/-- A word of a slot's page as the window shows it, committed words and read-only words (Tables LE-1 and LE-6). -/
def State.pageWord (s : State) (k page w : Nat) : Word :=
  let x := s.slot k
  if page = 0 then
    if w = 11 then slotOut s k
    else if w = 12 then narrow x.y
    else if w = 13 then slotStatus s k
    else if w = 14 then BitVec.ofNat 32 (writeBound s k * 65536 + x.lastWrite)
    else s.slotWord k 0 w
  else if page ≤ 3 then (if 8 ≤ w ∧ w ≤ 13 then stateWord x page 8 w else if 14 ≤ w then 0 else s.slotWord k page w)
  else if page = 4 then (if 6 ≤ w ∧ w ≤ 9 then stateWord x 4 6 w else if 10 ≤ w then 0 else s.slotWord k 4 w)
  else 0

/-- The bits of 32 slots for which a condition holds. -/
def slotBits (s : State) (w : Nat) (f : Nat → Bool) : Word :=
  let _ := s
  BitVec.ofNat 32 (bitsOf ((List.range 32).map fun i => f (w * 32 + i)))

/-- The ASAP slot with the largest bound, and that bound (R218). -/
def largestBound (s : State) : Nat × Nat :=
  (List.range 240).foldl (fun m k => if m.1 < writeBound s k then (writeBound s k, k) else m) (0, 0)

/-- LOOP registers composed (Table LE-10). -/
def viewLoop (s : State) (a : Nat) : Word :=
  let k := s.regFld LOOP.SEL 15 8
  let page := s.regFld LOOP.SEL 2 0
  if a = LOOP.STATUS then
    BitVec.ofNat 32 (b2n (decide (s.mode = .run)) * 2147483648 + b2n (hemNow s) * 1073741824 + b2n (s.regBit LOCK.STATUS 14) * 536870912
      + satTo 255 (s.loop.slots.countP (fun e => e.2.stateFault)) * 256)
  else if LOOP.WIN 0 ≤ a ∧ a ≤ LOOP.WIN 15 then
    (sparseFind s.staged (winKey .loop (k * 8 + page) (a - LOOP.WIN 0))).getD (s.pageWord k page (a - LOOP.WIN 0))
  else if a = LOOP.LANE_COUNT then
    BitVec.ofNat 32 (((List.range 4).map fun l => ((List.range 64).countP fun p => decide (slotMode s (laneSlot l p) ≠ 0)) * 256 ^ l).foldl
      (· + ·) 0)
  else if a = LOOP.HEM_STATE then
    BitVec.ofNat 32 (b2n (decide (s.mode ≠ .run) && !hemNow s) * 2 + b2n (hemNow s))
  else if LOOP.ACTIVE 0 ≤ a ∧ a ≤ LOOP.ACTIVE 7 then
    slotBits s (a - LOOP.ACTIVE 0) fun k => decide (slotMode s k = 1) || decide (slotMode s k = 3)
  else if LOOP.FAULT 0 ≤ a ∧ a ≤ LOOP.FAULT 7 then slotBits s (a - LOOP.FAULT 0) fun k => (s.slot k).stateFault
  else if LOOP.SATUR 0 ≤ a ∧ a ≤ LOOP.SATUR 7 then
    slotBits s (a - LOOP.SATUR 0) fun k => (s.slot k).satHi || (s.slot k).satLo
  else if a = LOOP.BOUND_MAX then BitVec.ofNat 32 (largestBound s).1
  else if a = LOOP.BOUND_SLOT then BitVec.ofNat 32 (largestBound s).2
  else s.reg a

/-! ### Module, power, updates, trust and fabric -/

/-- Whether the module shows a restart lockout (R236). -/
def lockedOut (s : State) : Bool := s.regBit LOCK.STATUS 28

/-- LED codes of ID.LED (Tables HW-1 and HW-9): [3] blinking, [2:0] colour. -/
def ledRun (s : State) : Nat :=
  match s.mode with
  | .safe => 3
  | .hold => 9
  | .run => 1
  | .stop => 0

/-- The ROLE LED. -/
def ledRole (s : State) : Nat :=
  match s.role with
  | .out => 3
  | .solo => 2
  | .active => 1
  | .standby => 9
  | .track => 10
  | .init => 0

/-- The TIME LED. -/
def ledTime (s : State) : Nat :=
  match s.tb.quality with
  | .locked => 1
  | .holdover => 2
  | .free => if s.tb.slewing then 11 else 3
  | .unset => 0

/-- The FAULT LED. -/
def ledFault (s : State) : Nat :=
  if lockedOut s then 11
  else if s.regBit LOCK.STATUS 31 ∨ s.regFld LOCK.TEST_STATUS 31 28 = 3 ∨ s.regFld ID.CONN_FAULT 31 28 ≠ 0 then 3
  else if s.regBit LOCK.STATUS 15 then 10
  else if s.pair.degraded ∨ s.lock.split ≠ 0 ∨ bit s.evr.alarm 4 then 2
  else 0

/-- The SWAP LED (R270). -/
def ledSwap (s : State) : Nat :=
  if s.role = .out ∧ s.pair.lever ∧ s.pair.clamped ∧ !s.pair.grant then 4
  else if s.pair.lever ∧ (s.pair.handover.isSome ∨ s.pair.leverStanding) then 12
  else 0

/-- ID registers composed (Tables HW-9 and HW-10). -/
def viewId (s : State) (a : Nat) : Word :=
  if a = ID.STATUS then
    putFld (putBit (putBit (putBit (s.reg a) 31 !s.pair.lever) 26 s.pair.partnerPresent) 25 (decide (s.tb.up < s.power.locateEnd))) 11 8
      (bitsOf ((List.range 4).map fun p => (sparseFind s.net.cages p).isSome))
  else if a = ID.LED then
    BitVec.ofNat 32 (ledRun s * 65536 + ledRole s * 4096 + ledTime s * 256 + ledFault s * 16 + ledSwap s)
  else if a = ID.LOCATE then BitVec.ofNat 32 ((s.power.locateEnd - s.tb.up + secUnits - 1) / secUnits)
  else s.reg a

/-- POWER registers composed (Tables PW-9 and PW-10). -/
def viewPower (s : State) (a : Nat) : Word :=
  if a = POWER.STATUS then putBit (putBit (s.reg a) 31 (decide (s.power.loss ≠ .none))) 27 s.power.measuring.isSome
  else if a = POWER.HU_AGE then
    match s.power.measuredAt with
    | some t => BitVec.ofNat 32 ((s.tb.up - t) / secUnits)
    | none => 0
  else if a = POWER.OVEN then
    if fld (s.reg ID.ORDER) 15 8 = 1 then
      putFld (s.reg a) 15 0 (satTo 65535 (s.tb.up / secUnits))
    else 0
  else s.reg a

/-- The RTC now, in units of 1/32,768 s: what was last written and the time since (R521; notes/assumptions/65.md). -/
def rtcNow (s : State) : Nat :=
  ((fld (s.reg LINING.RTC_SEC_HI) 15 0 * 4294967296 + (s.reg LINING.RTC_SEC_LO).toNat) * 32768 + fld (s.reg LINING.RTC_SUB) 14 0
    + (s.tb.up - s.power.rtcAt) * 32768 / secUnits) % (281474976710656 * 32768)

/-- LINING registers composed (Table PW-12). -/
def viewLining (s : State) (a : Nat) : Word :=
  if a = LINING.RTC_SEC_HI then BitVec.ofNat 32 (rtcNow s / 32768 / 4294967296) else
  if a = LINING.RTC_SEC_LO then BitVec.ofNat 32 (rtcNow s / 32768) else
  if a = LINING.RTC_SUB then BitVec.ofNat 32 (rtcNow s % 32768) else
  if a = LINING.STATUS then
    putBit (putBit (s.reg a) 26 (s.regBit LINING.TAMPER 30)) 25 (decide (s.reg LINING.BOOT_CFG ≠ s.reg LINING.BOOT_CFG_NOW))
  else if a = LINING.TAMPER then putBit (s.reg a) 31 s.power.tamperOpen
  else s.reg a

/-- Two versions lie within the pair window (R473): the same major version, minor versions at most one apart. -/
def inWindow (a b : Word) : Bool :=
  decide (fld a 31 24 = fld b 31 24) && decide (fld a 23 16 ≤ fld b 23 16 + 1) && decide (fld b 23 16 ≤ fld a 23 16 + 1)

/-- UPD.PAIR_WINDOW (Table UP-6): MFW, RTK, FSD and FSA pass against the partner's versions as far as they are known. -/
def pairWindowBits (s : State) : Nat :=
  bitsOf ((List.range 4).map fun i => match s.pair.partnerVersions[i]? with
    | some v => inWindow (s.reg (UPD.C_VER_RUN (i + 1))) v
    | none => false)

/-- UPD registers composed (Table UP-6). -/
def viewUpd (s : State) (a : Nat) : Word :=
  if a = UPD.STATUS then
    putBit (putFld (putBit (putBit (s.reg a) 31 s.trust.applying.isSome) 30 s.trust.trial.isSome) 23 16
      (satTo 255 (s.regFld POWER.HU_ENERGY 31 16 / 100))) 15 (s.regBit LINING.STATUS 28)
  else if a = UPD.PAIR_WINDOW then (if s.pair.partnerPresent then BitVec.ofNat 32 (2147483648 + pairWindowBits s) else 0)
  else s.reg a

/-- SEC registers composed (Table UP-7). -/
def viewSec (s : State) (a : Nat) : Word :=
  if a = SEC.OWNER_SLOT then (if s.regBit (SEC.KEY_INFO 1) 31 then 1 else 15)
  else if a = SEC.STATUS then putBit (s.reg a) 29 s.trust.cert.isSome
  else s.reg a

/-- A DMA channel. -/
def State.dma (s : State) (c : Nat) : DmaChannel := sparseGet {} s.fab.channels c

/-- An address of a transfer `n` bytes on: fixed, in a circular buffer, or linear (R429, R430). -/
def dmaAddress (start wrap n : Nat) (fixed : Bool) : Nat :=
  if fixed then start
  else if 8 ≤ wrap then start / 2 ^ wrap * 2 ^ wrap + (start + n) % 2 ^ wrap
  else (start + n) % 4294967296

/-- The source address of the active set `n` bytes on. -/
def DmaChannel.srcAt (x : DmaChannel) (n : Nat) : Nat := dmaAddress x.src (fld x.ctrl 23 19) n (bit x.ctrl 29)

/-- The destination address of the active set `n` bytes on. -/
def DmaChannel.dstAt (x : DmaChannel) (n : Nat) : Nat := dmaAddress x.dst (fld x.ctrl 18 14) n (bit x.ctrl 28)

/-- Bytes not yet written; with CONT, bytes to the next block boundary (Table FB-7). -/
def DmaChannel.remain (x : DmaChannel) : Nat :=
  if bit x.ctrl 30 then
    let b := 2 ^ fld x.ctrl 13 9
    if 8 ≤ fld x.ctrl 13 9 then b - x.moved % b else 0
  else x.len - x.moved

/-- DMA registers composed (Tables FB-7 and FB-9). -/
def viewDma (s : State) (a : Nat) : Word :=
  if a = DMA.STATUS then putFld (s.reg a) 15 0 (bitsOf ((List.range 16).map fun c => decide ((s.dma c).state = 1)))
  else if DMA.CH_CTRL 0 ≤ a then
    let x := s.dma ((a - DMA.CH_CTRL 0) / 8)
    match (a - DMA.CH_CTRL 0) % 8 with
    | 0 => putBit (s.reg a) 31 x.loaded
    | 1 => BitVec.ofNat 32 (x.state * 268435456 + b2n x.loaded * 134217728 + b2n x.named * 67108864 + b2n x.prefetchLost * 33554432
        + x.completed % 65536)
    | 5 => BitVec.ofNat 32 (x.srcAt x.moved)
    | 6 => BitVec.ofNat 32 (x.dstAt x.moved)
    | 7 => BitVec.ofNat 32 x.remain
    | _ => s.reg a
  else s.reg a

/-- A committed rule word of a collar (Table FB-8). -/
def State.rule (s : State) (n r w : Nat) : Word := s.win .collar (16 * n + r) w

/-- The hits of a rule since its commit, saturating at 16 bits. -/
def State.ruleHits (s : State) (n r : Nat) : Nat := satTo 65535 (sparseGet 0 s.fab.hits (16 * n + r))

/-- The exclusive owner of a resource of Table FB-5 (R437), coded as in Table FX-20. -/
def resourceOwner (s : State) (cls n : Nat) : Option Nat :=
  let code (o : Owner) : Nat := o.kind * 4096 + o.number % 4096
  let outOf (p : Nat) : Option Owner := ((s.image.bind fun i => i.bindings.find? fun b => b.point.toNat = p).bind (·.owner))
  match cls with
  | 0x01 =>
    if s.dioBit n 28 then some (code { kind := 2, number := n }) else (outOf (0x20000000 + n)).map code
  | 0x02 =>
    match (List.range 256).find? fun k =>
      let c := s.win .loop (k * 8) 0
      decide (fld c 25 24 = 1) && decide (fld c 18 16 = n) with
    | some k => some (code { kind := 1, number := k })
    | none => (outOf (0x40000100 + n)).map code
  | 0x03 =>
    if canBound s.image (n / 64) (n % 64) then some ((((outOf (0x70000300 + n)).map code).getD 0)) else some (code { kind := 3, number := 0 })
  | 0x05 => if bit (s.win .sv n 0) 31 then some (code { kind := 5, number := n }) else none
  | 0x06 => if n < 12 then some (code { kind := 6, number := n }) else if (s.dma n).claimed then some (code { kind := 3, number := 0 }) else none
  | 0x07 => if s.regBit (TB.CAP_CTRL n) 0 then some (code { kind := 3, number := 0 }) else none
  | 0x08 => if s.regBit TDC.FIFO_CFG 31 then some (code { kind := 3, number := 0 }) else none
  | _ => none

/-- COLLAR registers composed (Table FB-10). -/
def viewCollar (s : State) (a : Nat) : Word :=
  let n := s.regFld COLLAR.SEL 12 8
  let r := s.regFld COLLAR.SEL 3 0
  if a = COLLAR.STATUS then putBit (s.reg a) 31 s.fab.fence.isSome
  else if a = COLLAR.RULE_WIN 3 then
    BitVec.ofNat 32 (s.ruleHits n r * 65536 + b2n ((List.range 3).any fun w => decide (s.winStaged .collar (16 * n + r) w ≠ s.rule n r w)))
  else if COLLAR.RULE_WIN 0 ≤ a ∧ a ≤ COLLAR.RULE_WIN 2 then s.winStaged .collar (16 * n + r) (a - COLLAR.RULE_WIN 0)
  else if COLLAR.STAT 0 ≤ a ∧ a < COLLAR.GEN 0 then
    putFld (s.reg a) 31 16 (bitsOf ((List.range 16).map fun i => bit (s.rule (a - COLLAR.STAT 0) i 0) 31))
  else if COLLAR.HITS_SEL 0 ≤ a ∧ a ≤ COLLAR.HITS_SEL 7 then
    BitVec.ofNat 32 (s.ruleHits n (2 * (a - COLLAR.HITS_SEL 0)) * 65536 + s.ruleHits n (2 * (a - COLLAR.HITS_SEL 0) + 1))
  else if a = COLLAR.OWN_INFO then
    BitVec.ofNat 32 ((resourceOwner s (s.regFld COLLAR.OWN_SEL 31 24) (s.regFld COLLAR.OWN_SEL 15 0)).getD 0xFFFF)
  else s.reg a

/-- CUFF.STATUS (Table FB-11). -/
def viewCuff (s : State) (a : Nat) : Word :=
  if a = CUFF.STATUS then
    BitVec.ofNat 32 (bitsOf ((List.range 12).map fun n => s.regBit (CUFF.STAT n) 27) * 65536
      + bitsOf ((List.range 12).map fun n => s.regBit (CUFF.STAT n) 29 || s.regBit (CUFF.STAT n) 28))
  else s.reg a

/-- The value of the register at address `a`, read without side effects (R448). -/
def State.view (s : State) (a : Nat) : Word :=
  match a / 256 with
  | 0x00 => viewId s a
  | 0x04 => viewPower s a
  | 0x05 => viewLining s a
  | 0x70 => viewDma s a
  | 0x78 => viewCollar s a
  | 0x79 => viewCuff s a
  | 0x7E => viewUpd s a
  | 0x7F => viewSec s a
  | 0x01 => if a = MODE.STATUS then viewModeStatus s else s.reg a
  | 0x02 => viewPair s a
  | 0x03 => viewLock s a
  | 0x20 => viewFrame s a
  | 0x22 => viewImg s a
  | 0x10 => viewTb s a
  | 0x11 => viewPtp s a
  | 0x7C => viewEvr s a
  | 0x30 => viewAcq s a
  | 0x40 => viewTrg s a
  | 0x48 => viewLoop s a
  | 0x41 => viewTdc s a
  | 0x50 => viewDio s a
  | 0x58 => viewAo s a
  | 0x59 => viewHart s a
  | 0x60 => viewNet s a
  | 0x61 => viewPrp s a
  | 0x68 => viewCan s s.image 0 a
  | 0x69 => viewCan s s.image 1 a
  | 0x31 => viewAch s 0 a
  | 0x32 => viewAch s 1 a
  | 0x33 => viewAch s 2 a
  | 0x34 => viewAch s 3 a
  | 0x35 => viewAch s 4 a
  | 0x36 => viewAch s 5 a
  | 0x37 => viewAch s 6 a
  | 0x38 => viewAch s 7 a
  | _ => s.reg a

end Sys2Proof.Machine
end

