-- ==== Sys2Proof/Machine/Events.lean ====
section
/-!
DEFINITION. What every block shares: raising an event with its snapshot (R448, R449) into the intake queue (R450), moving the time base
forward, and sending a message.
-/

namespace Sys2Proof.Machine

open Reg

/-- Status and alarm registers of the block that raises a code, in that order (R449, list 0). -/
def blockStatusRegs (block : Nat) : List Nat :=
  match block with
  | 0x00 => [ID.STATUS]
  | 0x01 => [ MODE.STATUS]
  | 0x02 => [PAIR.STATUS]
  | 0x03 => [LOCK.STATUS]
  | 0x04 => [POWER.STATUS, POWER.ALARM]
  | 0x05 => [LINING.STATUS, LINING.ALARM]
  | 0x10 => [TB.STATUS, TB.ALARM]
  | 0x12 => [TREF.STATUS]
  | 0x20 => [FRAME.STATUS]
  | 0x22 => [IMG.STATUS]
  | 0x30 => [ACQ.STATUS, ACQ.ERRORS]
  | 0x40 => [TRG.STATUS, TRG.ALARM]
  | 0x41 => [TDC.STATUS, TDC.ALARM]
  | 0x48 => [LOOP.STATUS, LOOP.ALARM]
  | 0x50 => [DIO.STATUS, DIO.ALARM]
  | 0x58 => [AO.STATUS, AO.ALARM]
  | 0x59 => [HART.STATUS, HART.ALARM]
  | 0x60 => [NET.STATUS, NET.ALARM]
  | 0x61 => [PRP.STATUS, PRP.ALARM]
  | 0x68 => [CAN.STATUS 0, CAN.ALARM 0]
  | 0x69 => [CAN.STATUS 1, CAN.ALARM 1]
  | 0x70 => [DMA.STATUS, DMA.ALARM]
  | 0x78 => [COLLAR.STATUS, COLLAR.ALARM]
  | 0x79 => [CUFF.STATUS, CUFF.ALARM]
  | 0x7C => [EVR.STATUS, EVR.ALARM]
  | 0x7E => [UPD.STATUS, UPD.ALARM]
  | 0x7F => [SEC.STATUS, SEC.ALARM]
  | b => if 0x31 ≤ b ∧ b ≤ 0x38 then [ACH.STATUS (b - 0x31), ACH.ALARM (b - 0x31)] else []

/-- The registers a chapter names for the snapshot of a code (R449, list 0), for the raising instance `src`. -/
def namedSnapRegs (code src : Nat) : List Nat :=
  match code with
  | 0x0102 => [ MODE.SAFE_CAUSE]
  | 0x2205 => [IMG.STATUS, IMG.B_STATE (src % 2)]
  | 0x0301 => [LOCK.FAULT, LOCK.FAULT_PC, LOCK.FAULT_BITS]
  | 0x0302 => [LOCK.FAULT, LOCK.FAULT_PC, LOCK.FAULT_BITS]
  | 0x0303 => [LOCK.FAULT, LOCK.FAULT_PC, LOCK.FAULT_BITS]
  | 0x0206 => [PAIR.TAKEOVER_INFO]
  | 0x5008 => [DIO.GRP_SUPPLY (src % 4)]
  | 0x7001 => [DMA.HALT_INFO, DMA.HALT_ADDR]
  | 0x0402 => [POWER.PF_COMMIT_US, POWER.HU_V]
  | 0x0403 => [POWER.PF_RESULT]
  | _ => []

/-- Whether snapshot list `n` (1 to 7) is enabled and fits the event (R449, Table EV-2). -/
def snapListFits (s : State) (n code src : Nat) : Bool :=
  let w0 := s.win .snap n 0
  let w1 := s.win .snap n 1
  bit w1 31 &&
    decide ((BitVec.ofNat 16 code ^^^ BitVec.ofNat 16 (fld w0 31 16)) &&& BitVec.ofNat 16 (fld w0 15 0) = 0#16) &&
    (decide (fld w1 15 0 = 0xFFFF) || decide (fld w1 15 0 = src))

/-- The list the module uses: the first of 1 to 7 that fits, else 0 (R449). -/
def snapListOf (s : State) (code src : Nat) : Nat :=
  (([1, 2, 3, 4, 5, 6, 7] : List Nat).find? (fun n => snapListFits s n code src)).getD 0

/-- The addresses of snapshot list `n` (Table EV-2). -/
def snapListRegs (s : State) (n : Nat) : List Nat :=
  (List.range (fld (s.win .snap n 1) 28 24)).map fun k =>
    if k % 2 = 0 then fld (s.win .snap n (2 + k / 2)) 31 16 else fld (s.win .snap n (2 + k / 2)) 15 0

/-- The snapshot of an event: the values read now, without side effects, up to 16 (R448, R449). -/
def snapshotOf (s : State) (code src : Nat) : Nat × Nat × List Word :=
  match snapListOf s code src with
  | 0 => (0, 0, ((namedSnapRegs code src ++ blockStatusRegs (code / 256)).take 16).map s.view)
  | n => (n, fld (s.win .snap n 1) 23 16, ((snapListRegs s n).take 16).map s.view)

/-- The event as the intake queue holds it, with the given severity and snapshot values put in front of list 0's. -/
def eventNow (s : State) (code severity src : Nat) (extra : List Word) : RaisedEvent :=
  let sn := snapshotOf s code src
  { code := BitVec.ofNat 16 code
    severity := severity
    pleated := (eventKind code).pleated
    source := BitVec.ofNat 16 src
    role := s.role
    mode := s.mode
    opSec := s.reg LINING.OP_SEC
    powerCycles := s.reg LINING.POWER_CYCLES
    sec := secOf s.tb.now
    ns := nsOf s.tb.now
    quality := s.tb.quality
    powerLoss := decide (s.power.loss ≠ .none)
    tick := s.evr.ticks
    snapList := sn.1
    snapGen := sn.2.1
    snap := if sn.1 = 0 then (extra ++ sn.2.2).take 16 else sn.2.2 }

/-- The recorder after an event entered the intake queue, or was dropped because the queue is full (R450). -/
def Recorder.take (r : Recorder) (e : RaisedEvent) : Recorder :=
  if r.intake.length < 512 then
    { r with
      intake := r.intake ++ [e]
      intakeMax := maxWord r.intakeMax (BitVec.ofNat 32 (r.intake.length + 1)) }
  else
    { r with
      intakeLost := satInc r.intakeLost
      alarm := r.alarm ||| 4#32
      overflowDue := true }

/-- The retentive commit of a power loss has begun: events raised from then on are lost (R455). -/
def State.committing (s : State) : Bool := decide (s.power.loss = .committing) || decide (s.power.loss = .committed)

/-- An event raised with a severity its table leaves to the raising subsystem, and values its list-0 snapshot starts with. -/
def State.raiseWith (s : State) (code severity src : Nat) (extra : List Word) : State :=
  if s.committing then s else { s with evr := s.evr.take (eventNow s code severity src extra) }

/-- An event raised by instance `src` of its block (R445), with the severity of its table (R446). -/
def State.raise (s : State) (code src : Nat) : State :=
  s.raiseWith code (eventKind code).severity src []

/-- An event that concerns its block as a whole: SOURCE 0xFFFF (R445). -/
def State.raiseBlock (s : State) (code : Nat) : State := s.raise code 0xFFFF

/-- The time base moved forward to an instant; it never goes back, and the up-time moves with it. -/
def State.advanceTo (s : State) (t : Nat) : State :=
  if s.tb.now < t then { s with tb := { s.tb with now := t, up := s.tb.up + (t - s.tb.now) } } else s

/-- The time base moved so that the up-time reaches `u`. -/
def State.advanceUp (s : State) (u : Nat) : State := if s.tb.up < u then s.advanceTo (s.tb.now + (u - s.tb.up)) else s

/-- A message sent, unless its transmitter is cut off (R231). -/
def State.send (s : State) (kind : Message) (fields : List Nat) : State :=
  { s with sent := if s.lock.cutOff && kind.cut then s.sent else { kind := kind, fields := fields } :: s.sent }

end Sys2Proof.Machine
end

