-- ==== Sys2Proof/Machine/Bmca.lean ====
section
/-!
DEFINITION. The best master clock algorithm over the foreign masters, and the states of the PTP ports (R43, R49). Ports are numbered 0 to
4 for P1 to P5; registers and event sources use 1 to 5.
-/

namespace Sys2Proof.Machine

open Reg

/-- Whether port `p` is enabled for PTP (PTP.PORT_CFG [31]). -/
def State.ptpPortOn (s : State) (p : Nat) : Bool := s.regBit (PTP.PORT_CFG p) 31

/-- Counter `c` of PTP.COUNT moved on. -/
def State.ptpCount (s : State) (c : Nat) : State := s.incReg (PTP.COUNT c)

/-- The comparison of IEEE 1588-2019 that decides between two masters: priority1, class, accuracy, variance, priority2, identity, in that
order; the lower value is better. -/
def betterMaster (a b : ForeignMaster) : Bool :=
  if a.priority1 ≠ b.priority1 then decide (a.priority1 < b.priority1)
  else if a.clockClass ≠ b.clockClass then decide (a.clockClass < b.clockClass)
  else if a.accuracy ≠ b.accuracy then decide (a.accuracy < b.accuracy)
  else if a.variance ≠ b.variance then decide (a.variance < b.variance)
  else if a.priority2 ≠ b.priority2 then decide (a.priority2 < b.priority2)
  else if a.id ≠ b.id then decide (a.id.toNat < b.id.toNat)
  else decide (a.stepsRemoved < b.stepsRemoved)

/-- A master put into its place, best first. -/
def insertMaster (m : ForeignMaster) : List ForeignMaster → List ForeignMaster
  | [] => [m]
  | x :: rest => if betterMaster m x then m :: x :: rest else x :: insertMaster m rest

/-- The own clock as a candidate (R48, Table TB-6). -/
def ownClock (s : State) : ForeignMaster :=
  { id := BitVec.ofNat 64 (clockIdentity s)
    priority1 := s.regFld PTP.PRIORITY 15 8
    clockClass := announcedClass s
    accuracy := announcedAccuracy s
    variance := 0xFFFF
    priority2 := s.regFld PTP.PRIORITY 7 0
    stepsRemoved := 0
    port := 0
    timeSource := announcedSource s }

/-- Port `p` put into a state; a change raises event 0x1101 (Table TB-9). -/
def State.setPort (s : State) (p : Nat) (st : PortState) : State :=
  if (s.reg (PTP.PORT_STATE p)).toNat = st.code then s
  else (s.setReg (PTP.PORT_STATE p) (BitVec.ofNat 32 st.code)).raise 0x1101 (p + 1)

/-- The state the best master clock algorithm gives port `p` (R43, R49). -/
def bmcaState (s : State) (p : Nat) : PortState :=
  if !(s.ptpPortOn p) then .disabled
  else
    let here := s.ptp.masters.find? (fun m => m.port == p + 1)
    let slaveHere := s.ptpSlaveMode && decide ((s.ptp.masters.head?.map (·.port)) = some (p + 1))
    if slaveHere then .slave
    else if s.role ≠ .active ∧ s.role ≠ .solo then .listening
    else
      match here with
      | some m => if !(s.ptpSlaveMode) && betterMaster m (ownClock s) then .passive else .master
      | none => .master

/-- A master-only port that sees a better foreign master goes PASSIVE with event 0x1102 (R43). -/
def State.decidePort (s : State) (p : Nat) : State :=
  let st := bmcaState s p
  if st = .passive ∧ (s.reg (PTP.PORT_STATE p)).toNat ≠ PortState.passive.code then (s.setPort p st).raise 0x1102 (p + 1)
  else s.setPort p st

/-- The best master clock algorithm over all ports; PTP.SLAVE_PORT, the grandmaster's identity and stepsRemoved follow (R43). -/
def State.runBmca (s : State) : State :=
  let s1 := ((((s.decidePort 0).decidePort 1).decidePort 2).decidePort 3).decidePort 4
  let best := s1.ptp.masters.head?
  let slave := if s1.ptpSlaveMode then best else none
  let gm := match slave with
    | some m => m.id.toNat
    | none => clockIdentity s1
  (((s1.setReg PTP.SLAVE_PORT (BitVec.ofNat 32 ((slave.map (·.port)).getD 0))).setReg PTP.GM_CLOCK_ID_HI
    (BitVec.ofNat 32 (gm / 4294967296))).setReg PTP.GM_CLOCK_ID_LO (BitVec.ofNat 32 gm)).setReg PTP.STEPS_REMOVED
    (BitVec.ofNat 32 ((slave.map (fun m => m.stepsRemoved + 1)).getD 0))

/-- The list of foreign masters replaced, of which the four best are kept and compared (notes/assumptions/98.md); a change of the best one
counts (PTP.COUNT 10), then the algorithm runs. -/
def State.setMasters (s : State) (ms : List ForeignMaster) : State :=
  let changed := decide ((ms.head?.map (·.id)) ≠ (s.ptp.masters.head?.map (·.id)))
  let s1 := { s with ptp := { s.ptp with masters := ms.take 4 } }
  (if changed then s1.ptpCount 10 else s1).runBmca

end Sys2Proof.Machine
end

