-- ==== Sys2Proof/Machine/Crc.lean ====
section
/-!
DEFINITION. CRC-32C (used by QCP, the time-of-day message, event records), CRC-64 (R276) and the CRC-CCITT of IEEE C37.118.2 over lists of bytes, and the
big-endian form of numbers (R5).
-/

namespace Sys2Proof.Machine

/-- Eight shift steps of the reflected CRC-32C polynomial 0x82F6_3B78. -/
def crc32cShift : Nat → Word → Word
  | 0, c => c
  | n + 1, c => crc32cShift n (if c.getLsbD 0 then (c >>> 1) ^^^ 0x82F63B78#32 else c >>> 1)

/-- CRC-32C of a list of bytes, from a running remainder. -/
def crc32cFrom : Word → List Byte → Word
  | c, [] => c
  | c, b :: rest => crc32cFrom (crc32cShift 8 (c ^^^ b.zeroExtend 32)) rest

/-- CRC-32C of a list of bytes. -/
def crc32c (bs : List Byte) : Word := ~~~(crc32cFrom (BitVec.allOnes 32) bs)

/-- Eight shift steps of the CRC-64 polynomial 0x42F0_E1EB_A9EA_3693, most significant bit first (R276). -/
def crc64Shift : Nat → Dword → Dword
  | 0, c => c
  | n + 1, c => crc64Shift n (if c.getLsbD 63 then (c <<< 1) ^^^ 0x42F0E1EBA9EA3693#64 else c <<< 1)

/-- CRC-64 of a list of bytes, from a running remainder. -/
def crc64From : Dword → List Byte → Dword
  | c, [] => c
  | c, b :: rest => crc64From (crc64Shift 8 (c ^^^ (b.zeroExtend 64 <<< 56))) rest

/-- CRC-64 of a list of bytes (R276): initial value and final XOR all ones, no reflection. -/
def crc64 (bs : List Byte) : Dword := crc64From 0xFFFFFFFFFFFFFFFF#64 bs ^^^ 0xFFFFFFFFFFFFFFFF#64

/-- A big-endian number of the bytes (R5). -/
def beNat : List Byte → Nat
  | [] => 0
  | b :: rest => b.toNat * 256 ^ rest.length + beNat rest

/-- A number in `n` bytes, the most significant first (R5). -/
def beBytes (n v : Nat) : List Byte := (List.range n).map fun i => BitVec.ofNat 8 (v / 256 ^ (n - 1 - i))

/-- Fields, each with its width in bytes, as they stand on the wire (R5). -/
def wireBytes (l : List (Nat × Nat)) : List Byte := l.flatMap fun f => beBytes f.1 f.2

/-- Eight shift steps of the polynomial 0x1021, most significant bit first. -/
def ccittShift : Nat → Half → Half
  | 0, c => c
  | n + 1, c => ccittShift n (if c.getLsbD 15 then (c <<< 1) ^^^ 0x1021#16 else c <<< 1)

/-- CRC-CCITT of a list of bytes from a running remainder; the CHK of a C37.118.2 frame starts it at all ones (notes/assumptions/119.md). -/
def ccitt : Half → List Byte → Half
  | c, [] => c
  | c, b :: rest => ccitt (ccittShift 8 (c ^^^ (b.zeroExtend 16 <<< 8))) rest

end Sys2Proof.Machine
end

