-- ==== Sys2Proof/Machine/TimeBase.lean ====
section
/-!
DEFINITION. The time base, its references, steps, jumps, holdover, leap seconds, pair alignment and capture units (Time Base and
Reference Clock chapter). Each meaning acts only when the condition its rule states holds; otherwise nothing happens.
-/

namespace Sys2Proof.Machine

open Reg

/-- The signed rate correction, 2^-32 ns per tick (R16). -/
def State.rateCorr (s : State) : Int := (s.reg TB.RATE_CORR).toInt

/-- The largest magnitude of the rate correction (R17). -/
def State.slewLimit (s : State) : Int := fld (s.reg TB.SLEW_LIMIT) 19 0

/-- A rate correction within the slew limit (R17). -/
def clampRate (s : State) (r : Int) : Int :=
  if s.slewLimit < r then s.slewLimit else if r < -s.slewLimit then -s.slewLimit else r

/-- TB.RATE_CORR set, never beyond TB.SLEW_LIMIT (R17). -/
def State.setRate (s : State) (r : Int) : State := s.setReg TB.RATE_CORR (BitVec.ofInt 32 (clampRate s r))

/-- The rate correction at the limit, toward an offset (R24, R31). -/
def limitRate (s : State) (offset : Int) : Int := if offset < 0 then -s.slewLimit else s.slewLimit

/-- One tick of the time-base clock: the time gains 2.5 ns plus the rate correction (R16). -/
def clockTick (s : State) : State :=
  { s with tb := { s.tb with now := shiftTime s.tb.now (clockUnits + s.rateCorr), up := s.tb.up + clockUnits } }

/-- Reference `r` (0 1PPS, 1 IRIG-B, 2 PTP). -/
def State.ref (s : State) (r : Nat) : Reference := sparseGet {} s.tb.refs r

/-- Reference `r` replaced. -/
def State.setRef (s : State) (r : Nat) (x : Reference) : State :=
  { s with tb := { s.tb with refs := sparseSet {} s.tb.refs r x } }

/-- TREF.STATUS shows the state of reference `r` (Table TB-14). -/
def State.showRef (s : State) (r : Nat) (st : RefState) : State :=
  s.putReg TREF.STATUS (2 * r + 1) (2 * r) st.code

/-- Reference `r` put into a state, which TREF.STATUS shows. -/
def State.setRefState (s : State) (r : Nat) (st : RefState) : State :=
  (s.setRef r { s.ref r with state := st }).showRef r st

/-- The step threshold in 2^-8 ns (TB.STEP_THRESH is in ns). -/
def State.stepThresh (s : State) : Int := fld (s.reg TB.STEP_THRESH) 29 0 * 256

/-- The lock window in 2^-8 ns (TB.LOCK_CFG.LOCK_WIN is in ns). -/
def State.lockWin (s : State) : Int := fld (s.reg TB.LOCK_CFG) 31 16 * 256

/-- The time base follows the pair's leader: INIT, TRACK or STANDBY and not the leader itself (R44, R45). -/
def State.follower (s : State) : Bool :=
  (match s.role with
    | .init => true
    | .track => true
    | .standby => true
    | _ => false) && !s.timeLeader

/-- TB.UNCERT for a quality: 3.0 ns or 200 ns (amplitude-modulated IRIG-B) when LOCKED, unchanged in HOLDOVER, no bound otherwise
(R544, R42); in 2^-4 ns. -/
def uncertFor (s : State) (q : Quality) : Word :=
  match q with
  | .locked => if s.tb.selRef = 2 ∧ s.regBit TREF.IRIG_CFG 8 then 3200 else 48
  | .holdover => s.reg TB.UNCERT
  | _ => BitVec.allOnes 32

/-- The timeSource announced from now on (Table TB-6). -/
def lockedSource (s : State) : Nat :=
  match s.tb.selRef with
  | 1 => s.regFld TREF.TIMESOURCE 7 0
  | 2 => s.regFld TREF.TIMESOURCE 15 8
  | 3 => (s.ptp.masters.head?.map (·.timeSource)).getD 0x20
  | _ => s.ptp.timeSource

/-- LOCKED operation completed up to now, since the start (R55). -/
def State.lockedTime (s : State) : Nat :=
  s.tb.lockedTotal + if s.tb.quality = .locked then s.tb.up - s.tb.lockedSince else 0

/-- What a change of the quality changes in the time base: LOCKED operation is added up, and HOLDOVER takes e0 and starts t at 0
(R55, R57). -/
def TimeBase.toQuality (x : TimeBase) (q : Quality) (uncert : Word) : TimeBase :=
  { x with
    quality := q
    lockedTotal := x.lockedTotal + if x.quality = .locked then x.up - x.lockedSince else 0
    lockedSince := if q = .locked then x.up else x.lockedSince
    holdTime := if q = .holdover then 0 else x.holdTime
    holdE0 := if q = .holdover then uncert.toNat else x.holdE0 }

/-- HOLDOVER begins with the frequency uncertainty that the servo measured, and with e0 as the first estimate (R57). -/
def State.holdRegs (s : State) : State :=
  (s.setReg TB.HOLD_Y s.tb.servoY).setReg TB.HOLD_EST (BitVec.ofNat 32 (((s.reg TB.UNCERT).toNat + 15) / 16))

/-- A change of the time quality: event 0x1003, 2 when lower, with `TB.ALARM.QUALITY_DROP` (R21, Tables TB-9, TB-12, R544); the seconds since
LOCKED start again (Table TB-10); HOLDOVER takes its figures (R57). -/
def State.setQuality (s : State) (q : Quality) : State :=
  if s.tb.quality = q then s
  else
    let drop := decide (q.code < s.tb.quality.code)
    let sh := if q = Quality.holdover then s.holdRegs else s
    let s0 := sh.setReg TB.UNCERT (uncertFor s q)
    let s1 := if q = Quality.locked then s0.setReg (TB.SERVO_STAT 5) 0 else s0
    let s2 := if drop then s1.orReg TB.ALARM 2#32 else s1
    let s3 :=
      { s2 with
        tb := s2.tb.toQuality q (s.reg TB.UNCERT)
        acq := { s2.acq with unlockedAt := if q = Quality.locked then none else if s2.tb.quality = Quality.locked then some s2.tb.up else s2.acq.unlockedAt }
        ptp := { s2.ptp with timeSource := if q = Quality.locked then lockedSource s2 else s2.ptp.timeSource } }
    s3.raiseWith 0x1003 (if drop then 2 else 1) 0xFFFF []

/-- TB.UNCERT and the timeSource as the selected reference gives them while LOCKED (R42, R50, R544). -/
def State.lockedFigures (s : State) : State :=
  if s.tb.quality = .locked then
    let s1 := s.setReg TB.UNCERT (uncertFor s .locked)
    { s1 with ptp := { s1.ptp with timeSource := lockedSource s1 } }
  else s

/-- 1,000 s of LOCKED operation (R55). -/
def meanSpan : Nat := 1000 * secUnits

/-- The mean of the frequency parts taken over the last 1,000 s of LOCKED operation, rounded toward zero; the present rate where none was
taken (R55; notes/assumptions/97.md). -/
def meanFrequency (s : State) : Int :=
  let l := (s.tb.frequencies.filter fun e => decide (s.lockedTime < e.1 + meanSpan)).map (·.2)
  if l.length = 0 then s.rateCorr else (l.foldl (· + ·) 0).tdiv l.length

/-- The oven's temperature correction of the rate, which only the QC-880-1 has (R55). -/
def ovenCorrection (s : State) : Int := if s.regFld ID.ORDER 15 8 = 1 then s.tb.oven else 0

/-- Entry to HOLDOVER: the rate is frozen at its mean, with the oven's correction where fitted, e0 and y are taken (R55, R57). -/
def State.enterHoldover (s : State) : State := (s.setRate (meanFrequency s + ovenCorrection s)).setQuality .holdover

/-- What the servo measured for a holdover is noted (R55, R57). -/
def State.noteHold (s : State) (h : HoldoverEntry) : State :=
  { s with tb := { s.tb with servoY := h.uncertainty, oven := h.oven } }

/-- Whether the module's setting accepts the traceability that reference `r` declares (R37). -/
def State.refAcceptable (s : State) (r : Nat) : Bool := (s.ref r).traceable || s.regBit TREF.CTRL 4

/-- The reference codes in the order of TREF.PRIO (R34). -/
def State.refOrder (s : State) : List Nat :=
  [s.regFld TREF.PRIO 11 8, s.regFld TREF.PRIO 7 4, s.regFld TREF.PRIO 3 0]

/-- Whether the reference with code `c` (1 to 3) is qualified, enabled, and may take part: a 1PPS without message only after the
first step (R34, R40). -/
def State.refUsable (s : State) (c : Nat) : Bool :=
  decide (1 ≤ c ∧ c ≤ 3) && decide ((s.ref (c - 1)).state = .qualified) && s.refEnabled (c - 1) &&
    (decide (c ≠ 1) || s.regBit TREF.PPS_CFG 4 || s.tb.stepped)

/-- The usable reference that stands first in TREF.PRIO, 0 when there is none (R34). -/
def State.bestRef (s : State) : Nat := (s.refOrder.find? s.refUsable).getD 0

/-- The offset of the reference with code `c`, in 2^-8 ns. -/
def State.codeOffset (s : State) (c : Nat) : Int := (s.ref (c - 1)).offset

/-- A reference beyond the threshold is treated as a jump: the rate is kept, the confirmation time starts (R29, R32). -/
def State.startJump (s : State) (c : Nat) : State :=
  let s1 := (s.orReg TB.ALARM 8#32).incReg (TREF.REF_JUMPS (c - 1))
  let s2 := { s1 with tb := { s1.tb with jumpPending := true, jumpRef := c, jumpAt := s.tb.up, beyond := 0 } }
  s2.raiseBlock 0x1004

/-- The first step is behind the module: it was made, or given up and the time base has been synchronised since (R23, R24, Table TB-1). -/
def State.settled (s : State) : Bool := s.tb.stepped || (s.tb.stepGivenUp && decide (Quality.holdover.code ≤ s.tb.quality.code))

/-- A reference more than the threshold away, met by a module that has made its first step: the jump handling of R29, with HOLDOVER on the
frozen rate from LOCKED (Table TB-1, R32, R36). -/
def State.meetJump (s : State) (c : Nat) : State :=
  let s1 := s.startJump c
  let s2 := { s1 with tb := { s1.tb with slewing := false, limitSlew := false, jumpLocked := decide (s.tb.quality = .locked) } }
  if s.tb.quality = .locked then s2.enterHoldover else s2

/-- The module follows reference `c` from now on (Table TB-1, R24, R32, R36); the PTP ports and the figures of LOCKED follow the choice
(R42, R43, R50). -/
def State.follow (s : State) (c : Nat) : State :=
  let s1 := ({ s with tb := { s.tb with selRef := c, inWindow := 0, beyond := 0 } } : State).runBmca
  if s.settled then
    if (s.codeOffset c).natAbs ≤ s.stepThresh.natAbs then
      ({ s1 with tb := { s1.tb with slewing := decide (s.tb.quality = .free), limitSlew := false } } : State).lockedFigures
    else s1.meetJump c
  else if s.tb.stepGivenUp then
    (({ s1 with tb := { s1.tb with slewing := true, limitSlew := true } } : State).setRate (limitRate s (s.codeOffset c))).setQuality .free
  else { s1 with tb := { s1.tb with stepDue := some (s.codeOffset c * 16777216, .locked, false) } }

/-- A switch to another reference: counted, dated, event 0x1203; it never steps the time (R36). -/
def State.switchRef (s : State) (c : Nat) : State :=
  let s1 := (s.incReg TREF.SWITCH_COUNT).setReg TREF.LAST_SWITCH_SEC (secWord s.tb.now)
  (s1.raise 0x1203 (c - 1)).follow c

/-- The jump confirmation ends without a decision (R30): JUMP_PENDING clears. -/
def State.endJump (s : State) : State := { s with tb := { s.tb with jumpPending := false, jumpRef := 0, beyond := 0 } }

/-- No reference is selected any more; the PTP ports follow (R43). -/
def State.dropRef (s : State) : State :=
  ({ s with tb := { s.tb with selRef := 0, slewing := false, limitSlew := false } } : State).runBmca

/-- The selected reference is gone: another within LOCK_WIN keeps LOCKED, otherwise HOLDOVER; a further reference is then
followed under R32 (Table TB-1, R34). -/
def State.afterLoss (s : State) : State :=
  let c := s.bestRef
  if s.tb.quality = .locked then
    if c ≠ 0 ∧ (s.codeOffset c).natAbs ≤ s.lockWin.natAbs then s.switchRef c
    else
      let s1 := s.dropRef.enterHoldover
      if c ≠ 0 then s1.switchRef c else s1
  else if c ≠ 0 then s.switchRef c
  else s.dropRef

/-- A module that followed the pair's leader and follows it no more goes on from its aligned time with its own references, as after the
loss of its selected reference; before its first step it takes the first that qualified (R34, R45, R47). -/
def State.leadTime (s : State) : State :=
  if s.tb.selRef = 4 ∧ ¬ s.follower then
    if s.tb.quality = .locked then s.afterLoss
    else if s.bestRef = 0 then s.dropRef else s.follow s.bestRef
  else s

/-- Reference `r` is lost or disqualified: it leaves its state, event 0x1202 is raised, a jump confirmation of it ends, and the module
goes on without it (R30, R34, R37). Its labels start anew (R39). -/
def State.loseRef (s : State) (r : Nat) (dest : RefState) : State :=
  let s0 := s.setRef r { s.ref r with valid := 0, qualifiedFor := 0, label := none }
  let s1 := (s0.setRefState r dest).raise 0x1202 r
  let s2 := if s1.tb.jumpPending ∧ s1.tb.jumpRef = r + 1 then s1.endJump else s1
  if s2.tb.selRef = r + 1 then s2.afterLoss else s2

/-! ### 1PPS, time of day and IRIG-B -/

/-- The distance of two time values in units. -/
def timeDistance (a b : Nat) : Nat := if a ≤ b then b - a else a - b

/-- PPS_EDGE (R39, R40): the edge's spacing is judged; with a message its label gives the offset, corrected for the cable delay. -/
def execPpsEdge (stamp : Instant) (s : State) : Host.Outcome State Fault Refusal :=
  let t := ofInstant stamp
  let spaced := match s.tb.lastEdge with
    | none => false
    | some e => decide (timeDistance (e + secUnits) t ≤ 5000 * nsUnits)
  let label := if s.regBit TREF.PPS_CFG 4 then (s.tb.todLabel.map (·.2)).getD (secOf (t + secUnits / 2))
    else secOf (t + secUnits / 2)
  let offset : Int := ((label * secUnits : Nat) - (t : Int)) / 16777216 + (s.reg TREF.PPS_DELAY).toInt
  let s1 := s.setRef 0 { s.ref 0 with edge := some spaced, offset := offset, message := s.tb.todLabel }
  let s2 := { s1 with tb := { s1.tb with lastEdge := some t, todLabel := none } }
  .next (s2.setReg (TREF.REF_OFFSET 0) (satSigned offset))

/-- Whether a time-of-day message is correct: SYNC, VERSION and CRC (R38, R39). -/
def todCorrect (bytes : List Byte) : Bool :=
  decide (bytes.length = 20) && decide (bytes.getD 0 0 = 0x51#8) && decide (bytes.getD 1 0 = 0x54#8) &&
    decide (bytes.getD 2 0 = 0x01#8) && decide (beNat (bytes.drop 16) = (crc32c (bytes.take 16)).toNat)

/-- TB.UTC_OFFSET and TB.LEAP_CTRL taken from the selected reference (R53): `leap` is laid out as TB.LEAP_CTRL. -/
def State.takeUtc (s : State) (r : Nat) (offset : Option Nat) (leap : Word) : State :=
  let s1 := match offset with
    | some o => s.setReg (TREF.REF_UTC_RX r) (BitVec.ofNat 32 (o % 65536))
    | none => s
  let s2 := s1.setReg (TREF.REF_LEAP_RX r) leap
  if s2.tb.selRef = r + 1 then
    let s3 := match offset with
      | some o => s2.setReg TB.UTC_OFFSET (BitVec.ofNat 32 (o % 65536))
      | none => s2
    s3.setReg TB.LEAP_CTRL (putBit leap 29 true)
  else s2

/-- TOD_MESSAGE (R38, R39): a correct message that ended 10 to 900 ms after the previous edge labels the next edge. `since` is its end
in µs after the previous edge. With TOD_EN = 0 no message is used (R40). -/
def execTodMessage (bytes : List Byte) (since : Nat) (s : State) : Host.Outcome State Fault Refusal :=
  if s.regBit TREF.PPS_CFG 4 then
    let ok := todCorrect bytes
    let label := beNat ((bytes.drop 4).take 8)
    let timely := decide (10000 ≤ since ∧ since ≤ 900000)
    let next := match (s.ref 0).label with
      | some l => decide (label = l + 1)
      | none => true
    let s0 := if ok then s.setRef 0 { s.ref 0 with seen := some label } else s
    let s1 := { s0 with tb := { s0.tb with todLabel := some (ok && timely && next, label) } }
    if ok then
      let flags := (bytes.getD 3 0).toNat
      let day := beNat ((bytes.drop 14).take 2)
      let leap : Word := BitVec.ofNat 32
        (flags % 2 * 2147483648 + flags / 2 % 2 * 1073741824 + day)
      let s2 := s1.setReg TREF.TOD_LAST_FLAGS (BitVec.ofNat 32 flags)
      let s3 := s2.setRef 0 { s2.ref 0 with traceable := decide (flags / 4 % 2 = 1 ∧ flags / 8 % 2 = 0) }
      .next (s3.takeUtc 0 (some (beNat ((bytes.drop 12).take 2))) leap)
    else .next s1
  else .next s

/-! The control functions of the extension (IEEE C37.118.1-2011 Annex D), the first in bit 0: year in bits 0 to 8, leap second pending 9,
its sign 10, daylight saving 11 and 12, offset sign 13, offset hours 14 to 17, half hour 18, time quality 19 to 22 (notes/assumptions/100.md). -/

/-- The local time offset in seconds (R41, R42). -/
def irigOffset (f : IrigFrame) : Int :=
  let size := (f.controlFunctions.extractLsb 17 14).toNat * 3600 + b2n (f.controlFunctions.getLsbD 18) * 1800
  if f.controlFunctions.getLsbD 13 then -(size : Int) else size

/-- The time-quality code (R37, R41). -/
def irigQuality (f : IrigFrame) : Nat := (f.controlFunctions.extractLsb 22 19).toNat

/-- Whether the frame is one the module decodes: the code that TREF.IRIG_CFG selects, with the extension (R41). -/
def irigSupported (s : State) (f : IrigFrame) : Bool :=
  f.extended && decide (f.digit.val = s.regFld TREF.IRIG_CFG 3 0) && decide (f.modulated = s.regBit TREF.IRIG_CFG 8)

/-- The leap indication of a frame, laid out as TB.LEAP_CTRL. The frame carries no day: the UTC day in progress is taken
(notes/assumptions/99.md). -/
def irigLeap (f : IrigFrame) : Word :=
  if f.controlFunctions.getLsbD 9 then
    BitVec.ofNat 32 (2147483648 + b2n (f.controlFunctions.getLsbD 10) * 1073741824
      + ((f.seconds : Int) - irigOffset f).toNat / 86400 % 1048576)
  else BitVec.ofNat 32 (b2n (f.controlFunctions.getLsbD 10) * 1073741824)

/-- IRIG_FRAME (R41, R42): TAI is the frame's time minus its local offset plus TB.UTC_OFFSET. -/
def execIrigFrame (frame : IrigFrame) (stamp : Instant) (s : State) : Host.Outcome State Fault Refusal :=
  let t := ofInstant stamp
  let utcOffset : Int := (BitVec.ofNat 16 (s.regFld TB.UTC_OFFSET 15 0)).toInt
  let label := ((frame.seconds : Int) - irigOffset frame + utcOffset).toNat
  if irigSupported s frame then
    let offset : Int := ((label * secUnits : Nat) - (t : Int)) / 16777216 + (s.reg TREF.IRIG_DELAY).toInt
    let s1 := s.setRef 1
      { s.ref 1 with edge := some true, offset := offset, message := some (true, label), traceable := decide (irigQuality frame = 0) }
    let s2 := s1.setReg (TREF.REF_OFFSET 1) (satSigned offset)
    let s3 := s2.setReg TREF.IRIG_LAST_CF (frame.controlFunctions.zeroExtend 32)
    let s4 := s3.setReg (TREF.REF_CLASS_RX 1) (BitVec.ofNat 32 (irigQuality frame))
    .next (s4.takeUtc 1 none (irigLeap frame))
  else .next (s.setRef 1 { s.ref 1 with edge := some true, message := some (false, label) })

/-- How a second of a reference was (R39): valid with its label, invalid, or missing. -/
inductive SecondVerdict where
  | valid (label : Nat)
  | invalid
  | missing
  deriving DecidableEq, Repr

/-- The verdict on the second of 1PPS with time of day that ends now (R39, R40): without TOD_EN the edge alone counts, under the module's own
seconds count. -/
def ppsVerdict (s : State) : SecondVerdict :=
  let x := s.ref 0
  if s.regBit TREF.PPS_CFG 4 then
    match x.edge, x.message with
    | some true, some (true, l) => .valid l
    | none, none => if s.tb.todLabel.isSome then .invalid else .missing
    | _, _ => .invalid
  else
    match x.edge with
    | some true => .valid (secOf (s.tb.now + secUnits / 2))
    | some false => .invalid
    | none => .missing

/-- The verdict on the second of reference `r` that ends now (R34, R39, R40, R41). -/
def secondVerdict (s : State) (r : Nat) : SecondVerdict :=
  if r = 0 then ppsVerdict s
  else if r = 1 then
    match (s.ref 1).message with
    | none => .missing
    | some (true, l) => .valid l
    | some (false, _) => .invalid
  else if (s.ptp.sinceMeasured.map fun n => decide (n < s.ptp.syncSeconds)) = some true ∧ s.reg PTP.SLAVE_PORT ≠ 0 then .valid (secOf s.tb.now) else .invalid

/-- The label of the second that begins now: the one its message gave, else the one after the last (R39). -/
def nextLabel (x : Reference) (l : Option Nat) : Option Nat :=
  match l with
  | some n => some n
  | none => match x.seen with
    | some n => some n
    | none => x.label.map (· + 1)

/-- The state of a reference after a second that was not valid: one that sent something begins to qualify (notes/assumptions/101.md), one that
sends nothing is absent again (R34). -/
def stateAfterBad (s : State) (r : Nat) (arrived : Bool) : RefState :=
  let x := s.ref r
  if arrived then (if x.state = .absent ∧ (r ≠ 2 ∨ s.ptp.masters ≠ []) then .qualifying else x.state)
  else if x.state = .qualifying ∧ 1 ≤ x.bad then .absent else x.state

/-- The seconds of a reference that stays qualified, for the wait-to-restore (R35). -/
def stayedQualified (x : Reference) (st : RefState) : Nat := if st = .qualified then x.qualifiedFor + 1 else 0

/-- Reference `r` waits to be restored: it is the best, another is followed, and the module is revertive (R35). -/
def waitsToRestore (s : State) (r : Nat) : Bool :=
  s.regBit TREF.CTRL 8 && decide (s.bestRef = r + 1 ∧ s.tb.selRef ≠ r + 1 ∧ 1 ≤ s.tb.selRef ∧ s.tb.selRef ≤ 3)

/-- The seconds left to the qualification of reference `r`, or to its wait-to-restore (TREF.REF_REMAIN, R34, R35). -/
def secondsLeft (s : State) (r : Nat) : Nat :=
  if (s.ref r).state = .qualified then
    if waitsToRestore s r then (s.reg TREF.WTR).toNat - (s.ref r).qualifiedFor else 0
  else s.regFld TREF.QUAL_TIME 7 0 - (s.ref r).valid

/-- TREF.REF_STATE shows traceability and the run of valid seconds; TREF.REF_REMAIN the seconds left to qualification or restoring. -/
def State.showRun (s : State) (r : Nat) : State :=
  let x := s.ref r
  (s.setReg (TREF.REF_STATE r) (BitVec.ofNat 32 (b2n x.traceable * 2147483648 + satTo 65535 x.valid))).setReg
    (TREF.REF_REMAIN r) (BitVec.ofNat 32 (secondsLeft s r))

/-- REFERENCE_SECOND_CHECK (R39, R34): the counters, the run of valid seconds and event 0x1204 follow the verdict. -/
def execReferenceSecondCheck (r : Fin 3) (s : State) : Host.Outcome State Fault Refusal :=
  let x := s.ref r.val
  let cleared : Reference := { x with edge := none, message := none, seen := none }
  let s0 : State :=
    if r.val = 2 then
      { s with ptp :=
        { s.ptp with
          sinceMeasured := s.ptp.sinceMeasured.map (· + 1)
          masters := s.ptp.masters.map (fun m => { m with age := m.age + 1 }) } }
    else if r.val = 0 ∧ x.edge = none then { s with tb := { s.tb with todLabel := none } }
    else s
  match secondVerdict s r.val with
  | .valid l =>
    let st := if x.state = .absent ∨ x.state = .disqualified then RefState.qualifying else x.state
    let s1 := s0.setRef r.val
      { cleared with
        valid := x.valid + 1, bad := 0, label := nextLabel x (some l), state := st, qualifiedFor := stayedQualified x st }
    let s2 := ((s1.showRef r.val st).incReg (TREF.REF_VALID r.val)).setReg (TREF.REF_LAST_VALID r.val) (secWord s.tb.now)
    let s3 := (s2.setReg (TREF.REF_SEC_HI r.val) (BitVec.ofNat 32 (l / 4294967296))).setReg
      (TREF.REF_SEC_LO r.val) (BitVec.ofNat 32 l)
    .next (s3.showRun r.val)
  | .invalid =>
    let st := stateAfterBad s r.val true
    let s1 := (s0.setRef r.val
      { cleared with valid := 0, bad := x.bad + 1, label := nextLabel x none, state := st, qualifiedFor := stayedQualified x st }).showRef r.val st
    let s2 := s1.incReg (TREF.REF_INVALID r.val)
    let s3 :=
      if r.val = 0 then (s2.incReg TREF.TOD_ERRORS).raise 0x1204 0
      else if r.val = 1 then (s2.incReg TREF.IRIG_ERRORS).raise 0x1204 1
      else s2
    .next (s3.showRun r.val)
  | .missing =>
    let st := stateAfterBad s r.val false
    let s1 := (s0.setRef r.val
      { cleared with valid := 0, bad := x.bad + 1, label := nextLabel x none, state := st, qualifiedFor := stayedQualified x st }).showRef r.val st
    let s2 := if x.state = .qualifying ∨ x.state = .qualified then s1.incReg (TREF.REF_INVALID r.val) else s1
    .next (s2.showRun r.val)

/-! ### Selection, lock, jumps, holdover -/

/-- Another qualified reference differs by more than the threshold (TB.ALARM.REF_DISAGREE). -/
def refDisagrees (s : State) : Bool :=
  [1, 2, 3].any fun c =>
    decide (c ≠ s.tb.selRef) && s.refUsable c && decide (s.stepThresh.natAbs < (s.codeOffset c).natAbs)

/-- The code of a usable reference, other than the jumped one, that agrees with the time base within the threshold (R30). -/
def agreeingRef (s : State) : Nat :=
  (s.refOrder.find? fun c =>
    decide (c ≠ s.tb.jumpRef) && s.refUsable c && decide ((s.codeOffset c).natAbs ≤ s.stepThresh.natAbs)).getD 0

/-- The jumped reference is disqualified and the agreeing one is followed (R30, JUMP_OUTVOTED). -/
def State.outvote (s : State) (c : Nat) : State :=
  let r := s.tb.jumpRef - 1
  let s1 := ((s.setRef r { s.ref r with valid := 0, qualifiedFor := 0 }).setRefState r .disqualified).raise 0x1202 r
  s1.endJump.switchRef c

/-- The jump is dismissed: the jumped reference is within the threshold again. A module that was LOCKED is LOCKED again (R30, Table TB-1,
JUMP_DISMISSED); one that met the reference at its return follows it, and is LOCKED once synchronised (R32). -/
def State.dismissJump (s : State) : State :=
  let s1 := s.endJump
  if s.tb.quality = .holdover ∧ s.tb.jumpLocked then s1.setQuality .locked
  else { s1 with tb := { s1.tb with slewing := decide (s.tb.quality = .free), inWindow := 0 } }

/-- The frequency part of an update taken while LOCKED, of which those of the last 1,000 s of LOCKED operation are kept (R55). -/
def State.noteFrequency (s : State) (f : Int) : State :=
  if s.tb.quality = .locked then
    { s with tb := { s.tb with
      frequencies := (s.lockedTime, f) :: s.tb.frequencies.filter fun e => decide (s.lockedTime < e.1 + meanSpan) } }
  else s

/-- What one second at the limit removes of an offset, in 2^-8 ns (R17). -/
def secondAtLimit (s : State) : Nat := (s.slewLimit * 400000000 / 16777216).toNat

/-- The rate after an update: at the limit in a slew of R24 or R31 as long as a second at the limit does not pass the reference, else as the
servo asks, within the limit (R17; notes/assumptions/102.md). -/
def servoRate (s : State) (u : ServoInput) : Int :=
  if s.tb.limitSlew ∧ secondAtLimit s < u.offset.natAbs then limitRate s u.offset else u.rate

/-- An update's offset counted toward lock and toward a jump (R20, R29); a slew at the limit has come near once the offset is within the
threshold (R32). -/
def TimeBase.countUpdate (x : TimeBase) (off win thresh : Nat) : TimeBase :=
  { x with
    inWindow := if off ≤ win then x.inWindow + 1 else 0
    beyond := if thresh < off then x.beyond + 1 else 0
    limitSlew := x.limitSlew && decide (thresh < off) }

/-- The registers of an update: the offset, its maximum and the servo's figures (Tables TB-10, TB-14). -/
def State.showUpdate (s : State) (r : Nat) (u : ServoInput) : State :=
  let off := u.offset.natAbs
  let s1 := (s.setRef r { s.ref r with offset := u.offset }).setReg (TREF.REF_OFFSET r) (satSigned u.offset)
  let s2 := (s1.setReg TB.OFFSET (satSigned u.offset)).setReg (TREF.REF_MAX_OFS r)
    (maxWord (s1.reg (TREF.REF_MAX_OFS r)) (satWord off))
  let s3 := ((((s2.setReg (TB.SERVO_STAT 0) u.stats.mean).setReg (TB.SERVO_STAT 1) u.stats.rms).setReg
    (TB.SERVO_STAT 2) u.stats.peak).setReg (TB.SERVO_STAT 3) u.stats.frequency).setReg (TB.SERVO_STAT 4) u.stats.temperature
  s3.setReg (TREF.REF_RMS_OFS r) u.stats.rms

/-- SERVO_UPDATE (R20, R29, R30, R17): the offset is reported and counted; outside a jump confirmation the rate follows the servo, at the
limit in a slew of R24 or R31. -/
def execServoUpdate (u : ServoInput) (s : State) : Host.Outcome State Fault Refusal :=
  if s.tb.selRef = 0 ∨ 3 < s.tb.selRef then .next s
  else
    let off := u.offset.natAbs
    let s1 := ((s.showUpdate (s.tb.selRef - 1) u).noteFrequency u.frequency).noteHold u.hold
    let s5 := { s1 with tb := s1.tb.countUpdate off s.lockWin.natAbs s.stepThresh.natAbs }
    let s6 := if refDisagrees s5 then s5.orReg TB.ALARM 4#32 else s5
    if s.tb.jumpPending then
      if off ≤ s.stepThresh.natAbs then .next s6.dismissJump
      else if agreeingRef s6 ≠ 0 then .next (s6.outvote (agreeingRef s6))
      else .next s6
    else .next (s6.setRate (servoRate s6 u))

/-- REFERENCE_QUALIFIED (R34, R37, R23, R24, R32): the run of valid seconds has reached TREF.QUAL_TIME. -/
def execReferenceQualified (r : Fin 3) (s : State) : Host.Outcome State Fault Refusal :=
  let x := s.ref r.val
  if x.state = .qualifying ∧ s.regFld TREF.QUAL_TIME 7 0 ≤ x.valid ∧ s.refEnabled r.val ∧ s.refAcceptable r.val then
    let s1 := (s.setRefState r.val .qualified).raise 0x1201 r.val
    if s1.follower then .next s1
    else if s1.tb.jumpPending then
      if agreeingRef s1 ≠ 0 then .next (s1.outvote (agreeingRef s1)) else .next s1
    else if s1.tb.selRef = 0 ∨ s1.tb.selRef = 4 then
      let c := s1.bestRef
      if c = 0 then .next s1 else .next (s1.follow c)
    else .next s1
  else .next s

/-- REFERENCE_LOST (R34, R30, R37): two bad seconds, a PTP timeout, or a reference that now declares itself untraceable. -/
def execReferenceLost (r : Fin 3) (h : HoldoverEntry) (s : State) : Host.Outcome State Fault Refusal :=
  let x := s.ref r.val
  if x.state = .qualified ∨ (s.tb.selRef = r.val + 1 ∧ x.state ≠ .disqualified) then
    if !(s.refAcceptable r.val) then .next ((s.noteHold h).loseRef r.val .disqualified)
    else if 2 ≤ x.bad ∨ r.val = 2 then .next ((s.noteHold h).loseRef r.val .absent)
    else .next s
  else .next s

/-- WAIT_TO_RESTORE_EXPIRY (R35): a higher-priority reference that stayed qualified for TREF.WTR is selected again. -/
def execWaitToRestoreExpiry (s : State) : Host.Outcome State Fault Refusal :=
  let c := s.bestRef
  if s.regBit TREF.CTRL 8 ∧ c ≠ 0 ∧ c ≠ s.tb.selRef ∧ 1 ≤ s.tb.selRef ∧ s.tb.selRef ≤ 3 ∧ ¬ s.tb.jumpPending ∧
      (s.reg TREF.WTR).toNat ≤ (s.ref (c - 1)).qualifiedFor then
    .next (s.switchRef c)
  else .next s

/-- LOCK_ACHIEVED (R20, R33): the time base is synchronised after LOCK_COUNT updates within LOCK_WIN. -/
def execLockAchieved (s : State) : Host.Outcome State Fault Refusal :=
  if 1 ≤ s.tb.selRef ∧ s.tb.selRef ≤ 3 ∧ s.regFld TB.LOCK_CFG 7 0 ≤ s.tb.inWindow ∧ ¬ s.tb.jumpPending ∧
      s.tb.quality ≠ .locked then
    let s1 := { s with tb := { s.tb with slewing := false, limitSlew := false } }
    .next (s1.setQuality .locked)
  else .next s

/-- JUMP_DETECTED (R29): two consecutive updates beyond the threshold, after the first step. A slew at the limit toward a reference that lies
beyond the threshold is no jump of it (R24, R31). -/
def execJumpDetected (h : HoldoverEntry) (s : State) : Host.Outcome State Fault Refusal :=
  if s.settled ∧ 2 ≤ s.tb.beyond ∧ 1 ≤ s.tb.selRef ∧ s.tb.selRef ≤ 3 ∧ ¬ s.tb.jumpPending ∧ ¬ s.tb.limitSlew then
    .next ((s.noteHold h).meetJump s.tb.selRef)
  else .next s

/-- A jump confirmed (R31): quality FREE, and the module slews at the limit toward the reference. -/
def State.confirmJump (s : State) : State :=
  let s1 := (s.orReg TB.ALARM 16#32).setRate (limitRate s (s.codeOffset s.tb.jumpRef))
  let s2 := { s1 with tb := { s1.tb with jumpPending := false, jumpRef := 0, slewing := true, limitSlew := true, selRef := s.tb.jumpRef, inWindow := 0, beyond := 0 } }
  (s2.raiseBlock 0x1005).setQuality .free

/-- JUMP_CONFIRMATION_EXPIRY (R29, R31), TB.JUMP_CONFIRM seconds after the jump: it is confirmed. -/
def execJumpConfirmationExpiry (s : State) : Host.Outcome State Fault Refusal :=
  if s.tb.jumpPending then .next (s.advanceUp (s.tb.jumpAt + (s.reg TB.JUMP_CONFIRM).toNat * secUnits)).confirmJump else .next s

/-- The numerator of e0 + y·t + ½·a·t² in units of 1/172,800,000,000 ns (R57): e0 in 2^-4 ns, y in 10^-15, a in 10^-15 per day. -/
def holdNumerator (e0 y a t : Nat) : Nat := e0 * 10800000000 + y * t * 172800 + a * t * t

/-- The denominator that goes with `holdNumerator`. -/
def holdDenominator : Nat := 172800000000

/-- The bound of HOLDOVER is exceeded: quality FREE with event 0x1006; a reference that is being followed is slewed to (R33, R57). -/
def State.exceedBound (s : State) : State :=
  let s1 := { s with tb := { s.tb with slewing := decide (1 ≤ s.tb.selRef ∧ s.tb.selRef ≤ 3) && !s.tb.jumpPending } }
  ((s1.orReg TB.ALARM 32#32).raiseBlock 0x1006).setQuality .free

/-- HOLDOVER_ESTIMATE (R57): once per second in HOLDOVER; beyond TB.HOLD_BOUND the quality goes FREE with event 0x1006, but for a follower,
whose quality is the leader's (R21, R45; notes/assumptions/103.md). The register holds whole ns, rounded up (notes/assumptions/9.md). -/
def execHoldoverEstimate (s : State) : Host.Outcome State Fault Refusal :=
  if s.tb.quality = .holdover then
    let t := s.tb.holdTime + 1
    let n := holdNumerator s.tb.holdE0 (s.reg TB.HOLD_Y).toNat (s.reg TB.HOLD_A).toNat t
    let s1 := { s with tb := { s.tb with holdTime := t } }
    let s2 := s1.setReg TB.HOLD_EST (satWord ((n + holdDenominator - 1) / holdDenominator))
    if (s.reg TB.HOLD_BOUND).toNat * holdDenominator < n ∧ ¬ s.follower then .next s2.exceedBound else .next s2
  else .next s

/-! ### Steps -/

/-- The signed seconds of a step, truncated toward zero. -/
def stepSeconds (d : Int) : Int := d.tdiv secUnits

/-- The signed nanoseconds left of a step, truncated toward zero. -/
def stepNanos (d : Int) : Int := (d - stepSeconds d * secUnits).tdiv nsUnits

/-- The measured offsets after the time base moved by `d`: each reference is nearer by that amount. -/
def State.shiftOffsets (s : State) (d : Int) : State :=
  let move (x : Reference) : Reference := { x with offset := x.offset - d / 16777216 }
  let s1 := if (s.ref 0).state = .absent then s else s.setRef 0 (move (s.ref 0))
  let s2 := if (s1.ref 1).state = .absent then s1 else s1.setRef 1 (move (s1.ref 1))
  if (s2.ref 2).state = .absent then s2 else s2.setRef 2 (move (s2.ref 2))

/-- The time base loaded with the reference time of the tick instant (R25, R27, R28). -/
def State.applyStep (s : State) (d : Int) (q : Quality) (again : Bool) : State :=
  let s1 := { s with tb :=
    { s.tb with
      now := shiftTime s.tb.now d, stepDue := none, stepped := true, slewing := false, limitSlew := false, jumpPending := false, jumpRef := 0
      beyond := 0, inWindow := 0, lastEdge := s.tb.lastEdge.map (fun e => shiftTime e d) } }
  let s2 := (((s1.shiftOffsets d).incReg TB.STEP_COUNT).setReg TB.LAST_STEP_SEC (BitVec.ofInt 32 (stepSeconds d))).setReg
    TB.LAST_STEP_NS (BitVec.ofInt 32 (stepNanos d))
  let s3 := (s2.orReg TB.ALARM 1#32).incReg FRAME.LONG_FRAMES
  (s3.raiseBlock (if again then 0x1002 else 0x1001)).setQuality q

/-- The lining's RTC error is reported at the first step after the start: RTC minus time base, in µs (Table PW-11). -/
def State.noteRtcError (s : State) (d : Int) : State :=
  s.setReg LINING.RTC_ERR (satSigned ((-d).tdiv (1000 * nsUnits)))

/-- The source of a restep and the quality it gives, in the states that permit one (R28, Table TB-2). The partner's time is a source while
alignment exchanges arrive (R46). -/
def restepSource (s : State) : Option (Int × Quality) :=
  let fromRef : Option (Int × Quality) :=
    if 1 ≤ s.tb.selRef ∧ s.tb.selRef ≤ 3 ∧ s.refUsable s.tb.selRef then some (s.codeOffset s.tb.selRef * 16777216, .locked) else none
  let fromPair : Option (Int × Quality) :=
    if s.tb.alignOk ∧ s.tb.alignMisses < 100 then some (s.tb.pairOffset * 16777216, s.tb.leaderQuality) else none
  match s.role with
  | .solo => if s.mode = .stop then fromRef else none
  | .active => if s.mode = .stop then fromRef else none
  | .standby => fromPair
  | .out =>
    match fromRef with
    | some x => some x
    | none => fromPair
  | _ => none

/-! ### Leap seconds -/

/-- The signed TAI minus UTC (R53). -/
def State.utcOffset (s : State) : Int := (BitVec.ofNat 16 (s.regFld TB.UTC_OFFSET 15 0)).toInt

/-- The change a pending leap second makes (R54). -/
def State.leapDelta (s : State) : Int := if s.regBit TB.LEAP_CTRL 30 then -1 else 1

/-- The TAI second of the next day's 00:00:00 UTC after the leap day (R54). -/
def State.leapInstant (s : State) : Int :=
  (((s.regFld TB.LEAP_CTRL 19 0 + 1) * 86400 : Nat) : Int) + s.utcOffset + s.leapDelta

/-- LEAP_ANNOUNCE_START (R54): within the 12 h before a pending change, Announce carries leap61 or leap59. -/
def execLeapAnnounceStart (s : State) : Host.Outcome State Fault Refusal :=
  if s.regBit TB.LEAP_CTRL 31 ∧ s.leapInstant - 43200 ≤ secOf s.tb.now ∧ (secOf s.tb.now : Int) < s.leapInstant then
    .next { s with tb := { s.tb with leapAnnounced := true } }
  else .next s

/-- LEAP_SECOND_APPLY (R54): TB.UTC_OFFSET changes by one second; the pending indication is used up. -/
def execLeapSecondApply (s : State) : Host.Outcome State Fault Refusal :=
  if s.regBit TB.LEAP_CTRL 31 ∧ s.leapInstant ≤ secOf s.tb.now then
    let o : BitVec 16 := BitVec.ofInt 16 (s.utcOffset + s.leapDelta)
    let s1 := (s.setReg TB.UTC_OFFSET (o.zeroExtend 32)).putRegBit TB.LEAP_CTRL 31 false
    let s2 := { s1 with tb :=
      { s1.tb with leapAnnounced := false, leapAt := some (s.leapInstant.toNat * secUnits, s.regBit TB.LEAP_CTRL 30) } }
    .next ((s2.orReg TB.ALARM 128#32).raiseBlock 0x1008)
  else .next s

/-! ### Alignment within the pair -/

/-- The lower of two qualities (R19, R46). -/
def lowerQuality (a b : Quality) : Quality := if a.code ≤ b.code then a else b

/-- LEADER_DIFFERS (R45): an own qualified reference differs from the leader's time by more than 50 ns. -/
def leaderDiffers (s : State) : Bool :=
  [0, 1, 2].any fun r => decide ((s.ref r).state = .qualified) && decide (12800 < ((s.ref r).offset - s.tb.pairOffset).natAbs)

/-- PAIR_ALIGNMENT_EXCHANGE (R45): the follower's offset (leader minus own, 2^-8 ns), the link delay, the leader's quality, and how its servo
steers. Event 0x1009 is raised at each exchange at which the difference is seen (notes/assumptions/104.md). -/
def execPairAlignmentExchange (offset : Int) (delay : Word) (leader : Quality) (servo : PairServo) (s : State) :
    Host.Outcome State Fault Refusal :=
  let s1 := (s.setReg TB.PAIR_OFFSET (satSigned offset)).setReg TB.PAIR_DELAY delay
  let s2 := { s1 with tb :=
    { s1.tb with pairOffset := offset, alignMisses := 0, alignOk := true, leaderQuality := leader, servoY := servo.uncertainty } }
  if s.follower then
    let s3 := { s2 with tb := { s2.tb with selRef := 4, slewing := false, limitSlew := false } }
    if s.tb.stepped then
      let s4 := ((s3.setRate servo.rate).setQuality leader).runBmca
      .next (if leaderDiffers s4 then s4.raiseBlock 0x1009 else s4)
    else .next { s3 with tb := { s3.tb with stepDue := some (offset * 16777216, leader, false) } }
  else .next s2

/-- PAIR_ALIGNMENT_LOST (R46): 100 consecutive frames without an exchange; the follower free-runs. -/
def execPairAlignmentLost (s : State) : Host.Outcome State Fault Refusal :=
  if s.follower ∧ s.tb.alignOk ∧ 100 ≤ s.tb.alignMisses then
    let s1 := { s with tb := { s.tb with alignOk := false } }
    .next (((s1.orReg TB.ALARM 64#32).raiseBlock 0x1007).setQuality (lowerQuality s.tb.leaderQuality .holdover))
  else .next s

/-! ### Reads and captures -/

/-- The read of TB.TIME_SEC_HI: the whole time value and its quality are latched (R14). -/
def State.latchTime (s : State) : State :=
  let t := s.tb.now
  (((s.setReg TB.TIME_SEC_HI (BitVec.ofNat 32 (secOf t / 4294967296))).setReg TB.TIME_SEC_LO (secWord t)).setReg
    TB.TIME_NS (nsWord t)).setReg TB.TIME_FRAC (BitVec.ofNat 32 (s.tb.quality.code * 1073741824 + fracOf t))

/-- The three value registers of capture unit `n` loaded with a captured time; the event count stays (Table TB-10). -/
def State.loadCapture (s : State) (n t : Nat) : State :=
  ((s.setReg (TB.CAP_SEC n) (secWord t)).setReg (TB.CAP_NS n) (nsWord t)).putReg (TB.CAP_FRAC n) 15 0 (fracOf t)

/-- A capture into unit `n` (Table TB-13): quality and seconds [39:32] into its control register, DONE set, OVERRUN when a held capture
is replaced in continuous mode, ARM cleared otherwise; in continuous mode the values wait for a read of the control register. -/
def State.capture (s : State) (n : Nat) : State :=
  let c := s.reg (TB.CAP_CTRL n)
  if bit c 0 then
    let t := s.tb.now
    let s1 := s.satRegFld (TB.CAP_FRAC n) 31 16
    let c1 := putFld (putFld c 31 30 s.tb.quality.code) 23 16 (secOf t / 4294967296)
    let c2 := if bit c 2 then (if bit c 1 then putBit c1 3 true else c1) else putBit c1 0 false
    let s2 := s1.setReg (TB.CAP_CTRL n) (putBit c2 1 true)
    if bit c 2 then { s2 with tb := { s2.tb with shadows := sparseInsert s2.tb.shadows n (t, s.tb.quality) } }
    else s2.loadCapture n t
  else s

/-- The read of a capture unit's control register in continuous mode latches its values (Table TB-13). -/
def State.latchCapture (s : State) (n : Nat) : State :=
  match sparseFind s.tb.shadows n with
  | none => s
  | some (t, _) => s.loadCapture n t

/-- Unit `n` newly armed: the event count starts at 0, and source 0x00 captures at once (Table TB-13). -/
def State.armCapture (s : State) (n : Nat) : State :=
  let s1 := (s.putReg (TB.CAP_FRAC n) 31 16 0)
  let s2 := { s1 with tb := { s1.tb with shadows := sparseErase s1.tb.shadows n } }
  if s.regFld (TB.CAP_CTRL n) 12 8 = 0 then s2.capture n else s2

/-- The sources a capture unit may name (Table TB-13). -/
def captureSourceOk (src : Nat) : Bool :=
  decide (src ≤ 4) || decide (8 ≤ src ∧ src ≤ 0x14) || decide (0x18 ≤ src ∧ src ≤ 0x1C)

/-- TB_CAPTURE (R14, Table TB-13): the source event of unit `n` occurs. -/
def execTbCapture (n : Fin 16) (s : State) : Host.Outcome State Fault Refusal := .next (s.capture n.val)

end Sys2Proof.Machine
end

