-- ==== Sys2Proof/Machine/Digests.lean ====
section
/-!
DEFINITION. SM3 digests, HMAC-SM3 and SM4 in counter mode (R11, R322, R475, R479). The manual names the standards, GB/T 32905-2016 and GB/T
32907-2016; their arithmetic is theirs (PRESUMED, notes/assumptions/17.md).
-/

namespace Sys2Proof.Machine

/-- A 32-bit word rotated left. -/
def rot32 (x n : Nat) : Nat := ((x <<< (n % 32)) ||| (x >>> (32 - n % 32))) % 4294967296

/-- The big-endian words of a block. -/
def blockWords (n : Nat) (b : List Byte) : List Nat := (List.range n).map fun i => beNat ((b.drop (4 * i)).take 4)

/-! ### SM3 (GB/T 32905-2016) -/

/-- The message expansion: `n` words more, the latest first. -/
def sm3Expand : Nat → List Nat → List Nat
  | 0, l => l
  | n + 1, l =>
    let back (k : Nat) : Nat := l.getD (k - 1) 0
    let x := back 16 ^^^ back 9 ^^^ rot32 (back 3) 15
    sm3Expand n ((x ^^^ rot32 x 15 ^^^ rot32 x 23 ^^^ rot32 (back 13) 7 ^^^ back 6) :: l)

/-- The chaining words A to H. -/
structure Sm3Chain where
  a : Nat
  b : Nat
  c : Nat
  d : Nat
  e : Nat
  f : Nat
  g : Nat
  h : Nat
  deriving DecidableEq, Repr

/-- The chaining words in their order. -/
def Sm3Chain.words (v : Sm3Chain) : List Nat := [v.a, v.b, v.c, v.d, v.e, v.f, v.g, v.h]

/-- The boolean function FF of round `j`. -/
def sm3Maj (j x y z : Nat) : Nat := if j < 16 then x ^^^ y ^^^ z else (x &&& y) ||| (x &&& z) ||| (y &&& z)

/-- The boolean function GG of round `j`. -/
def sm3Pick (j x y z : Nat) : Nat := if j < 16 then x ^^^ y ^^^ z else (x &&& y) ||| ((x ^^^ 4294967295) &&& z)

/-- Round `j` with the words W and W'. -/
def sm3Round (v : Sm3Chain) (j w w' : Nat) : Sm3Chain :=
  let ss1 := rot32 ((rot32 v.a 12 + v.e + rot32 (if j < 16 then 0x79CC4519 else 0x7A879D8A) j) % 4294967296) 7
  let tt1 := (sm3Maj j v.a v.b v.c + v.d + (ss1 ^^^ rot32 v.a 12) + w') % 4294967296
  let tt2 := (sm3Pick j v.e v.f v.g + v.h + ss1 + w) % 4294967296
  { a := tt1, b := v.a, c := rot32 v.b 9, d := v.c, e := tt2 ^^^ rot32 tt2 9 ^^^ rot32 tt2 17, f := v.e, g := rot32 v.f 19, h := v.g }

/-- The 64 rounds over the expanded words. -/
def sm3Rounds : List Nat → Nat → Sm3Chain → Sm3Chain
  | [], _, v => v
  | w :: rest, j, v => if j < 64 then sm3Rounds rest (j + 1) (sm3Round v j w (w ^^^ rest.getD 3 0)) else v

/-- The compression of one 64-byte block. -/
def sm3Compress (v : Sm3Chain) (block : List Byte) : Sm3Chain :=
  let u := sm3Rounds (sm3Expand 52 (blockWords 16 block).reverse).reverse 0 v
  { a := v.a ^^^ u.a, b := v.b ^^^ u.b, c := v.c ^^^ u.c, d := v.d ^^^ u.d, e := v.e ^^^ u.e, f := v.f ^^^ u.f, g := v.g ^^^ u.g, h := v.h ^^^ u.h }

/-- The padded message: bit 1, zeros, and the length in bits. -/
def sm3Padded (bs : List Byte) : List Byte :=
  bs ++ 0x80#8 :: List.replicate ((119 - bs.length % 64) % 64) 0#8 ++ beBytes 8 (8 * bs.length)

/-- Bytes in blocks of `size`, the last one as long as the bytes go; `acc` is the block begun, its latest byte first, and `room` what it still takes
after its next byte. -/
def blocksFrom (size : Nat) : Nat → List Byte → List Byte → List (List Byte)
  | _, [], [] => []
  | _, a :: acc, [] => [(a :: acc).reverse]
  | 0, acc, b :: rest => (b :: acc).reverse :: blocksFrom size (size - 1) [] rest
  | room + 1, acc, b :: rest => blocksFrom size room (b :: acc) rest

/-- Bytes in blocks of `size`. -/
def blocksOf (size : Nat) (bs : List Byte) : List (List Byte) := blocksFrom size (size - 1) [] bs

/-- The SM3 digest. -/
def sm3 (bs : List Byte) : BitVec 256 :=
  let v := (blocksOf 64 (sm3Padded bs)).foldl sm3Compress
    { a := 0x7380166F, b := 0x4914B2B9, c := 0x172442D7, d := 0xDA8A0600, e := 0xA96F30BC, f := 0x163138AA, g := 0xE38DEE4D, h := 0xB0FB0E4E }
  BitVec.ofNat 256 (v.words.foldl (fun x w => 4294967296 * x + w) 0)

/-- A digest as bytes. -/
def digestOctets (d : BitVec 256) : List Byte := beBytes 32 d.toNat

/-- HMAC-SM3 (R322): the construction of RFC 2104 over SM3, for a key of one block or less. -/
def hmacSm3 (key bs : List Byte) : BitVec 256 :=
  let pad (x : Byte) : List Byte := (key ++ List.replicate (64 - key.length) 0#8).map (· ^^^ x)
  sm3 (pad 0x5C#8 ++ digestOctets (sm3 (pad 0x36#8 ++ bs)))

/-! ### SM4 (GB/T 32907-2016) -/

/-- The S-box, sixteen entries a row. -/
def sm4Rows : List Nat :=
  [0xd690e9fecce13db716b614c228fb2c05, 0x2b679a762abe04c3aa44132649860699, 0x9c4250f491ef987a33540b43edcfac62, 0xe4b31ca9c908e89580df94fa758f3fa6,
    0x4707a7fcf37317ba83593c19e6854fa8, 0x686b81b27164da8bf8eb0f4b70569d35, 0x1e240e5e6358d1a225227c3b01217887, 0xd40046579fd327524c3602e7a0c4c89e] ++
  [0xeabf8ad240c738b5a3f7f2cef96115a1, 0xe0ae5da49b341a55ad933230f58cb1e3, 0x1df6e22e8266ca60c02923ab0d534e6f, 0xd5db3745defd8e2f03ff6a726d6c5b51,
    0x8d1baf92bbddbc7f11d95c411f105ad8, 0x0ac13188a5cd7bbd2d74d012b8e5b4b0, 0x8969974a0c96777e65b9f109c56ec684, 0x18f07dec3adc4d2079ee5f3ed7cb3948]

/-- The S-box on each byte of a word. -/
def sm4Tau (x : Nat) : Nat :=
  (beBytes 4 x).foldl (fun a b => 256 * a + sm4Rows.getD (b.toNat / 16) 0 / 256 ^ (15 - b.toNat % 16) % 256) 0

/-- The round keys of a key: `n` more from round `i`, from the last four words, latest first. -/
def sm4Keys : Nat → Nat → Nat × Nat × Nat × Nat → List Nat
  | 0, _, _ => []
  | n + 1, i, (a, b, c, d) =>
    let ck := (List.range 4).foldl (fun x j => 256 * x + (4 * i + j) * 7 % 256) 0
    let t := sm4Tau (b ^^^ c ^^^ d ^^^ ck)
    let k := a ^^^ t ^^^ rot32 t 13 ^^^ rot32 t 23
    k :: sm4Keys n (i + 1) (b, c, d, k)

/-- The rounds over the round keys. -/
def sm4Rounds : List Nat → Nat × Nat × Nat × Nat → Nat × Nat × Nat × Nat
  | [], x => x
  | k :: rest, (a, b, c, d) =>
    let t := sm4Tau (b ^^^ c ^^^ d ^^^ k)
    sm4Rounds rest (b, c, d, a ^^^ t ^^^ rot32 t 2 ^^^ rot32 t 10 ^^^ rot32 t 18 ^^^ rot32 t 24)

/-- Word `i` of a 128-bit block, the first most significant. -/
def word128 (v i : Nat) : Nat := v / 4294967296 ^ (3 - i) % 4294967296

/-- The round keys of a 128-bit key. -/
def sm4Schedule (key : Nat) : List Nat :=
  sm4Keys 32 0 (word128 key 0 ^^^ 0xA3B1BAC6, word128 key 1 ^^^ 0x56AA3350, word128 key 2 ^^^ 0x677D9197, word128 key 3 ^^^ 0xB27022DC)

/-- One block enciphered. -/
def sm4Block (keys : List Nat) (v : Nat) : Nat :=
  let x := sm4Rounds keys (word128 v 0, word128 v 1, word128 v 2, word128 v 3)
  [x.2.2.2, x.2.2.1, x.2.1, x.1].foldl (fun a w => 4294967296 * a + w) 0

/-- Blocks combined with the key stream from a counter on. -/
def sm4Stream (keys : List Nat) : List (List Byte) → Nat → List Byte
  | [], _ => []
  | b :: rest, n => b.zipWith (· ^^^ ·) (beBytes 16 (sm4Block keys n)) ++ sm4Stream keys rest ((n + 1) % 2 ^ 128)

/-- SM4 in counter mode, the same for both directions (R479). -/
def sm4Ctr (key : BitVec 128) (iv : Nat) (bs : List Byte) : List Byte :=
  sm4Stream (sm4Schedule key.toNat) (blocksOf 16 bs) iv

/-- The body of a package or an image deciphered (R479): the header and the signature with its slot number stay; the IV is the first 16 bytes
of the header's digest. -/
def decipher (key : BitVec 128) (bs : List Byte) : List Byte :=
  bs.take 64 ++ sm4Ctr key ((sm3 (bs.take 64)).toNat / 2 ^ 128) ((bs.drop 64).take (bs.length - 132)) ++ bs.drop (bs.length - 68)

end Sys2Proof.Machine
end

