-- ==== Sys2Proof/Machine/Wire.lean ====
section
/-!
DEFINITION. The bytes of what the module sends and checks on its links (R5): QCP packets (R321, Table QP-2), QSP frames (R299, Table NW-3) and
heartbeats (R257, Table PR-2), each with its CRC-32C.
-/

namespace Sys2Proof.Machine

open Reg

/-- Bytes followed by their CRC-32C. -/
def sealed (bs : List Byte) : List Byte := bs ++ beBytes 4 (crc32c bs).toNat

/-! ### QCP packets -/

/-- Bytes of each field of a DONE reply's or notice's parameters, by opcode (Tables QP-6, QP-7, R346, R483). -/
def paramWidths (op : Nat) : List Nat :=
  match op with
  | 0x02 => List.replicate 25 4 ++ [2, 2]
  | 0x05 => [8, 4]
  | 0x06 => List.replicate 16 4
  | 0x10 => [4]
  | 0x12 => [4, 4]
  | 0x20 => [4, 4, 1]
  | 0x21 => [4, 4]
  | 0x30 => [8, 4]
  | 0x32 => [8, 4]
  | 0x40 => [4]
  | 0x42 => [4, 4]
  | 0x50 => [4, 4]
  | 0x51 => [4, 8, 4]
  | 0x60 => [4, 4, 4]
  | 0x70 => [4, 4, 1]
  | 0x71 => [4, 4]
  | 0x74 => [4, 4, 4, 4, 4]
  | 0x83 => List.replicate 8 4
  | _ => []

/-- Bytes of the fields of one entry of a payload, by opcode (Tables QP-7, QP-8, OC-6 and TG-8, R346, R349); the entries follow each other. -/
def payloadWidths (op : Nat) : List Nat :=
  match op with
  | 0x01 => [4, 4, 1, 1, 2, 1, 1, 2, 4, 4, 4, 4, 1, 1, 1, 1, 4, 4, 8]
  | 0x06 => [4, 1, 1, 2, 4, 2, 2]
  | 0x13 => [4]
  | 0x24 => [1, 1, 1, 1, 8, 4, 4, 4, 4]
  | 0x42 => [4, 8, 4, 2, 1, 1, 4]
  | 0x50 => [4, 1, 1, 2, 8, 4, 2, 2, 4, 2, 2]
  | 0x74 => [4]
  | 0x80 => [4, 1, 3, 12]
  | 0x82 => [4]
  | _ => [1]

/-- Fields as bytes, their widths taken in turn from a list that starts again at its end. -/
def entryBytes (all : List Nat) : List Nat → List Nat → List Byte
  | _, [] => []
  | [], v :: rest => beBytes (all.headD 1) v ++ entryBytes all all.tail rest
  | w :: ws, v :: rest => beBytes w v ++ entryBytes all ws rest

/-- The parameters of a reply or notice: those of its opcode, the eight bytes of a refusal (R327), or the versions that a wrong VERSION is answered with. -/
def replyParams (op : Nat) (r : Reply) : List Byte :=
  match r.status with
  | .done => wireBytes ((paramWidths op).zip r.fields)
  | .accepted => []
  | _ =>
    if !r.fields.isEmpty then r.fields.flatMap (beBytes 1)
    else if r.payload.isEmpty then wireBytes [(1, r.reason), (3, 0), (4, r.detail)] else []

/-- The payload of a reply or notice. -/
def replyPayload (op : Nat) (r : Reply) : List Byte := entryBytes (payloadWidths op) (payloadWidths op) r.payload

/-- FLAGS of a packet from this module (Table QP-3). -/
def packetFlags (s : State) (notice relayed : Bool) (session : Word) : Nat :=
  bitsOf [true, notice, decide (session ≠ 0), false, false, decide (s.lock.split ≠ 0), s.regBit LOCK.STATUS 15, s.pair.posB, false, relayed]

/-- A packet from this module (R321): header, parameters, payload, the MAC in a session (R322), and the CRC-32C. -/
def packetBytes (s : State) (op flags : Nat) (session seq : Word) (status ref : Nat) (params payload : List Byte) : List Byte :=
  let body := wireBytes [(4, 0x51435031), (1, 1), (1, op), (2, flags), (4, session.toNat), (4, seq.toNat), (2, params.length), (2, payload.length),
    (1, status), (1, s.role.code * 16 + s.mode.code), (2, s.pair.baseId.toNat), (4, ref), (4, 0)] ++ params ++ payload
  sealed (body ++ (if flags.testBit 2 then digestOctets (hmacSm3 (beBytes 32 (Config.sessionKey session).toNat) body) else []))

/-- A message sent as bytes, with the fields they carry, unless its transmitter is cut off (R231). -/
def State.sendWire (s : State) (kind : Message) (fields : List Nat) (bytes : List Byte) : State :=
  { s with sent := if s.lock.cutOff && kind.cut then s.sent else { kind := kind, fields := fields, bytes := bytes } :: s.sent }

/-- The ports of network `n` (0 process bus, 1 station bus) that its frames leave by: both with redundancy, else the lower one (R293). -/
def busPorts (s : State) (n : Nat) : List Nat := if (s.prp n).mode = 0 then [2 * n] else [2 * n, 2 * n + 1]

/-- One frame sent on each of the ports, counted (Tables NW-6 and NW-9). -/
def State.transmit (s : State) : List Nat → State
  | [] => s
  | p :: rest =>
    let s1 := s.incReg (NET.TX_FRAMES p)
    (if p = 4 then s1 else s1.incReg (if p % 2 = 0 then PRP.TX_A (p / 2) else PRP.TX_B (p / 2))).transmit rest

/-- A frame sent on ports P1 to P5, unless they are cut off (R231). -/
def State.emit (s : State) (kind : Message) (fields : List Nat) (bytes : List Byte) (ports : List Nat) : State :=
  if s.lock.cutOff then s else (s.sendWire kind fields bytes).transmit ports

/-- The MAC address of port `p`, 0 to 4: the base address plus p, the lower port's under redundancy (R295). -/
def portMac (s : State) (p : Nat) : Nat :=
  let low := if p < 4 ∧ (s.prp (p / 2)).mode ≠ 0 then p - p % 2 else p
  fld (s.reg ID.MAC_HI) 15 0 * 4294967296 + (s.reg ID.MAC_LO).toNat + low

/-- An Ethernet header: destination, source, the IEEE 802.1Q tag if any, and the EtherType (R299). -/
def etherBytes (dst src : Nat) (tag : Option Nat) (etype : Nat) : List Byte :=
  wireBytes ([(6, dst), (6, src)] ++ (match tag with
    | some t => [(2, 0x8100), (2, t)]
    | none => []) ++ [(2, etype)])

/-- A frame received on P5, counted; those of P1 to P4 are counted as PRP_FRAME_RECEIVED brings them (notes/assumptions/128.md). -/
def State.serviceFrame (s : State) (p : Nat) : State := if p = 4 then s.incReg (NET.RX_FRAMES 4) else s

/-! ### QSP frames -/

/-- The bytes of a QSP frame of this module (R299, Table NW-3). -/
def qspBytes (s : State) (type station stream flags : Nat) (seq : Word) (apply : Nat) (layout : Word) (payload : List Byte) : List Byte :=
  sealed (wireBytes [(1, 1), (1, type), (2, s.pair.baseId.toNat), (2, stream * 4096 + station), (1, flags), (1, s.regFld TB.STEP_COUNT 7 0), (4, seq.toNat),
    (2, apply), (2, payload.length), (4, layout.toNat), (4, s.tb.quality.code * 1073741824)] ++ payload)

/-- The Ethernet header of a QSP frame (R299, R304): the EtherType of NET.QSP_CFG, and its tag with VLAN_EN. -/
def qspHeader (s : State) (dst : BitVec 48) : List Byte :=
  etherBytes dst.toNat (portMac s 0)
    (if s.regBit NET.QSP_CFG 12 then some (s.regFld NET.QSP_CFG 15 13 * 8192 + s.regFld NET.QSP_CFG 11 0) else none) (s.regFld NET.QSP_CFG 31 16)

/-- The bytes of a received QSP frame before its CRC (R299, Table NW-3). -/
def frameBytes (f : QspFrame) : List Byte :=
  wireBytes [(1, f.version.toNat), (1, f.type.toNat), (2, f.pairId.toNat), (2, f.stream * 4096 + f.station), (1, f.flags.toNat), (1, f.step.toNat),
    (4, f.sequence.toNat), (2, f.apply.toNat), (2, f.payload.length), (4, f.layout.toNat), (4, f.timeQ.toNat)] ++ f.payload

/-- The CRC of a received QSP frame is right (R299). -/
def qspIntact (f : QspFrame) : Bool := decide (crc32c (frameBytes f) = f.crc)

/-! ### Heartbeats -/

/-- The FLAGS byte of a heartbeat (Table PR-2). -/
def heartbeatFlags (h : Heartbeat) : Byte :=
  BitVec.ofNat 8 (b2n h.split + 2 * b2n h.debug + 4 * b2n h.tested + 8 * b2n h.muted + 16 * b2n h.claim + 32 * b2n h.grant
    + 64 * b2n h.degraded + 128 * b2n h.posB)

/-- Bytes 0 to 27 of a heartbeat from its fields in the order of Table PR-2. -/
def heartbeatBytes (pairId roleMode flags index : Nat) (digest : Dword) (ovr : Option (Nat × Word)) (within ho : Half) : List Byte :=
  let o := ovr.getD (0xFF, 0)
  wireBytes [(2, pairId), (1, roleMode), (1, flags), (4, index), (8, digest.toNat), (1, o.1), (3, 0), (4, o.2.toNat), (2, within.toNat), (2, ho.toNat)]

/-- The CRC of a received heartbeat is right (R255, R258). -/
def heartbeatIntact (h : Heartbeat) : Bool :=
  decide (crc32c (heartbeatBytes h.pairId.toNat (h.role.code * 16 + h.mode.code) (heartbeatFlags h).toNat h.frameIndex.toNat h.digest h.overrun h.within
    h.hoState) = h.crc)

end Sys2Proof.Machine
end

