-- ==== Sys2Proof/Machine/Ptp.lean ====
section
/-!
DEFINITION. PTP: best master selection, port states, measurements, and the grandmaster's messages (R34, R43, R48 to R52, R60).
Ports are numbered 0 to 4 for P1 to P5 in operands; registers and event sources use 1 to 5.
-/

namespace Sys2Proof.Machine

open Reg

/-- PTP_ANNOUNCE_RECEIVED (R43, R34, R37, R50, R53). An Announce carries no day for its leap flags: the UTC day in progress is taken
(notes/assumptions/99.md). -/
def execPtpAnnounceReceived (p : Fin 5) (a : Announce) (s : State) : Host.Outcome State Fault Refusal :=
  let s := s.serviceFrame p.val
  if !(s.ptpPortOn p.val) then .next s
  else if a.domain.toNat ≠ fld s.ptp.domain 7 0 then
    .next ((s.ptpCount 14).incReg (PTP.RX_DISCARD p.val))
  else
    let s1 := (s.ptpCount 0).incReg (PTP.RX_ANN p.val)
    let m : ForeignMaster :=
      { id := a.id, priority1 := a.priority1.toNat, clockClass := a.clockClass.toNat, accuracy := a.accuracy.toNat
        variance := a.variance.toNat, priority2 := a.priority2.toNat, stepsRemoved := a.stepsRemoved.toNat
        port := p.val + 1, timeSource := a.timeSource.toNat, utcOffset := a.utcOffset.toNat }
    let others := s.ptp.masters.filter (fun x => !(decide (x.id = a.id ∧ x.port = p.val + 1)))
    let s2 := s1.setMasters (insertMaster m others)
    if (s2.ptp.masters.head?.map (·.id)) = some a.id ∧ s2.reg PTP.SLAVE_PORT ≠ 0 then
      let s3 := (s2.setReg (TREF.REF_CLASS_RX 2) (BitVec.ofNat 32 a.clockClass.toNat)).setRef 2
        { s2.ref 2 with traceable := decide (a.clockClass.toNat ≤ 7) }
      let s4 := if s3.tb.selRef = 3 ∧ s3.tb.quality = .locked then
        { s3 with ptp := { s3.ptp with timeSource := a.timeSource.toNat } } else s3
      let utcDay := ((secOf s.tb.now : Int) - s.utcOffset).toNat / 86400
      let leap : Word := BitVec.ofNat 32
        (b2n (a.leap61 || a.leap59) * 2147483648 + b2n a.leap59 * 1073741824
          + if a.leap61 || a.leap59 then utcDay % 1048576 else 0)
      .next (s4.takeUtc 2 (some a.utcOffset.toNat) leap)
    else .next s2

/-- A completed measurement on the slave port: reference minus time base in 2^-8 ns, from origin + correction − ingress plus the
link delay, the port's asymmetry and its ingress latency (R34, Table TB-15). -/
def State.ptpMeasured (s : State) (p : Nat) (delta : Int) : State :=
  let off := delta + (s.reg (PTP.MEAN_LINK_DELAY p)).toNat + (s.reg (PTP.DELAY_ASYM p)).toInt + (s.reg (PTP.INGRESS_LAT p)).toNat
  let s1 := (s.setRef 2 { s.ref 2 with offset := off }).setReg (TREF.REF_OFFSET 2) (satSigned off)
  { s1 with ptp := { s1.ptp with sinceMeasured := some 0, awaiting := none } }

/-- PTP_SYNC_RECEIVED (R34, R43): with a one-step master the measurement is complete; a two-step Sync waits for its Follow_Up. -/
def execPtpSyncReceived (p : Fin 5) (m : SyncMessage) (s : State) : Host.Outcome State Fault Refusal :=
  let s := s.serviceFrame p.val
  if !(s.ptpPortOn p.val) then .next s
  else if m.domain.toNat ≠ fld s.ptp.domain 7 0 then .next ((s.ptpCount 14).incReg (PTP.RX_DISCARD p.val))
  else
    let s1 := (s.ptpCount 1).incReg (PTP.RX_SYNC p.val)
    if (s.reg PTP.SLAVE_PORT).toNat = p.val + 1 ∧ (s.ptp.masters.head?.map (·.id)) = some m.id then
      let s2 := { s1 with ptp := { s1.ptp with syncSeconds := 2 ^ m.interval.toInt.toNat } }
      if m.twoStep then .next { s2 with ptp := { s2.ptp with awaiting := some (p.val, m.sequence.toNat) } }
      else .next (s2.ptpMeasured p.val m.delta)
    else .next s1

/-- PTP_FOLLOW_UP_RECEIVED (R34): completes the measurement of the Sync with the same sequence; another sequence is an error
(PTP.COUNT 12). -/
def execPtpFollowUpReceived (p : Fin 5) (sequence : Half) (delta : Int) (s : State) : Host.Outcome State Fault Refusal :=
  let s := s.serviceFrame p.val
  if !(s.ptpPortOn p.val) then .next s
  else
    let s1 := s.ptpCount 2
    match s.ptp.awaiting with
    | some (q, n) =>
      if q = p.val ∧ n = sequence.toNat then .next (s1.ptpMeasured p.val delta) else .next (s1.ptpCount 12)
    | none => .next (s1.ptpCount 12)

/-- The IEEE 802.1Q tag of the PTP messages sent: present, priority code point and VLAN identifier with PTP.CTRL.VLAN_EN (Table TB-5). -/
def vlanTag (s : State) : List Nat :=
  if bit s.ptp.ctrl 8 then [1, s.regFld PTP.VLAN 15 13, s.regFld PTP.VLAN 11 0] else [0, 0, 0]

/-- A PTP message sent on port `p`, its tag in front. -/
def State.sendPtp (s : State) (p : Nat) (kind : Message) (fields : List Nat) : State := s.emit kind (vlanTag s ++ fields) [] [p]

/-- A message inserted on the fly; an insertion that cannot complete aborts the frame (R51, ONE_STEP_INSERTION_ABORT). -/
def State.oneStepSend (s : State) (p count : Nat) (tx : Nat) (kind : Message) (fields : List Nat) (complete : Bool) : State :=
  if complete then ((s.ptpCount count).incReg tx).sendPtp p kind fields else s.incReg (PTP.TS_FAULT p)

/-- The turnaround of a Pdelay_Resp as its correctionField carries it, in 2^-16 ns: from the arrival of the request, corrected by the port's
ingress latency, to the response's start-of-frame delimiter, corrected by its egress latency (R51). -/
def turnaroundField (s : State) (p : Nat) (turn : Turnaround) : Nat :=
  turn.after / 65536 + ((s.reg (PTP.INGRESS_LAT p)).toNat + (s.reg (PTP.EGRESS_LAT p)).toNat) * 256

/-- PTP_PDELAY_REQ_RECEIVED (R49, R51): answered in every role, with the turnaround inserted. -/
def execPtpPdelayReqReceived (p : Fin 5) (turn : Turnaround) (s : State) : Host.Outcome State Fault Refusal :=
  let s := s.serviceFrame p.val
  if !(s.ptpPortOn p.val) then .next s
  else
    let s1 := (s.ptpCount 3).incReg (PTP.RX_PDELAY p.val)
    .next (s1.oneStepSend p.val 9 (PTP.TX_PDELAY p.val) .pdelayResp [p.val + 1, turnaroundField s p.val turn] turn.complete)

/-- PTP_PDELAY_RESP_RECEIVED (R48): the port's mean link delay and neighbour rate ratio. -/
def execPtpPdelayRespReceived (p : Fin 5) (delay : Word) (nrr : Word) (s : State) : Host.Outcome State Fault Refusal :=
  let s := s.serviceFrame p.val
  if !(s.ptpPortOn p.val) then .next s
  else
    let s1 := (s.ptpCount 4).incReg (PTP.RX_PDELAY p.val)
    .next ((s1.setReg (PTP.MEAN_LINK_DELAY p.val) delay).setReg (PTP.NRR p.val) nrr)

/-- PTP_PDELAY_REQ_SEND (R48). -/
def execPtpPdelayReqSend (p : Fin 5) (s : State) : Host.Outcome State Fault Refusal :=
  if !(s.ptpPortOn p.val) then .next s
  else .next (((s.ptpCount 8).incReg (PTP.TX_PDELAY p.val)).sendPtp p.val .pdelayReq [p.val + 1])

/-- The PTP reference goes: when it is qualified or selected, it is lost (R34). -/
def State.losePtp (s : State) : State :=
  if (s.ref 2).state = .qualified ∨ s.tb.selRef = 3 then s.loseRef 2 .absent
  else (s.setRef 2 { s.ref 2 with valid := 0 }).setRefState 2 .absent

/-- ANNOUNCE_RECEIPT_TIMEOUT (R34): the master leaves the list; a PTP reference it carried is lost. -/
def execAnnounceReceiptTimeout (id : Dword) (h : HoldoverEntry) (s : State) : Host.Outcome State Fault Refusal :=
  if s.ptp.masters.any (fun m => decide (m.id = id)) then
    let carried := decide ((s.ptp.masters.head?.map (·.id)) = some id ∧ s.reg PTP.SLAVE_PORT ≠ 0)
    let s1 := s.ptpCount 11
    let s2 := if carried then (s1.noteHold h).losePtp else s1
    .next (s2.setMasters (s2.ptp.masters.filter (fun m => !(decide (m.id = id)))))
  else .next s

/-- SYNC_RECEIPT_TIMEOUT (R34): three Sync intervals of the master without a Sync. -/
def execSyncReceiptTimeout (h : HoldoverEntry) (s : State) : Host.Outcome State Fault Refusal :=
  if s.reg PTP.SLAVE_PORT ≠ 0 then
    .next (({ s with ptp := { s.ptp with awaiting := none, sinceMeasured := none } }).noteHold h).losePtp
  else .next s

/-- Whether the module sends Announce and Sync on port `p` (R48, R49): grandmaster enabled, ACTIVE or SOLO, quality not UNSET, port
MASTER. -/
def mayAnnounce (s : State) (p : Nat) : Bool :=
  bit s.ptp.ctrl 31 && decide (s.role = .active ∨ s.role = .solo) && decide (s.tb.quality ≠ .unset) && s.ptpPortOn p &&
    decide (bmcaState s p = .master)

/-- priority1 and priority2 announced: PTP.PRIORITY (Table TB-6), or the parent's for a boundary clock (R50). -/
def announcedPriority (s : State) : Nat × Nat :=
  let own := (s.regFld PTP.PRIORITY 15 8, s.regFld PTP.PRIORITY 7 0)
  if s.tb.selRef = 3 ∧ s.tb.quality = .locked then (s.ptp.masters.head?.map fun m => (m.priority1, m.priority2)).getD own else own

/-- Announce carries leap61 or leap59: a leap second is pending, and its change is at most 12 h ahead (R54). -/
def leapFlagged (s : State) : Bool :=
  s.tb.leapAnnounced && s.regBit TB.LEAP_CTRL 31 &&
    decide (s.leapInstant - 43200 ≤ secOf s.tb.now ∧ (secOf s.tb.now : Int) < s.leapInstant)

/-- PTP_ANNOUNCE_SEND (R49, R50, Table TB-6, R54): clockClass, accuracy, variance, priorities, timeSource, traceable, the leap flags, the
interval in force, the grandmaster's identity, stepsRemoved and the C37.238 values. -/
def execPtpAnnounceSend (p : Fin 5) (s : State) : Host.Outcome State Fault Refusal :=
  if mayAnnounce s p.val then
    let s0 := s.setPort p.val .master
    let tlv : List Nat := if bit s.ptp.ctrl 24 then [s.regFld PTP.GM_ID 15 0, (announcedInaccuracy s).toNat] else []
    let leap := leapFlagged s
    let s1 := (s0.ptpCount 5).incReg (PTP.TX_ANN p.val)
    .next (s1.sendPtp p.val .announce
      ([p.val + 1, fld s.ptp.domain 7 0, announcedClass s, announcedAccuracy s, 0xFFFF, (announcedPriority s).1,
        (announcedPriority s).2, announcedSource s, b2n (announcedTraceable s), s.regFld TB.UTC_OFFSET 15 0,
        b2n (leap && !(s.regBit TB.LEAP_CTRL 30)), b2n (leap && s.regBit TB.LEAP_CTRL 30),
        fld s.ptp.intervals 15 8, (s.reg PTP.GM_CLOCK_ID_HI).toNat, (s.reg PTP.GM_CLOCK_ID_LO).toNat, (s.reg PTP.STEPS_REMOVED).toNat] ++ tlv))
  else .next s

/-- PTP_SYNC_SEND (R49, R51): a one-step Sync whose origin timestamp is the time base at the start-of-frame delimiter, corrected by the
port's egress latency. -/
def execPtpSyncSend (p : Fin 5) (complete : Bool) (s : State) : Host.Outcome State Fault Refusal :=
  if mayAnnounce s p.val then
    let t := s.tb.now + (s.reg (PTP.EGRESS_LAT p.val)).toNat * 16777216
    .next (s.oneStepSend p.val 6 (PTP.TX_SYNC p.val) .sync [p.val + 1, secOf t, nsOf t, fracOf t, fld s.ptp.intervals 23 16] complete)
  else .next s

/-- PTP_CONFIG_EFFECT (R60): PTP.CTRL, PTP.DOMAIN and PTP.INTERVALS take effect at the TAI second that follows their write. -/
def execPtpConfigEffect (s : State) : Host.Outcome State Fault Refusal :=
  match s.ptp.configAt with
  | none => .next s
  | some n =>
    let s0 := s.advanceTo (n * secUnits)
    let s1 :=
      { s0 with ptp :=
        { s0.ptp with ctrl := s.reg PTP.CTRL, domain := s.reg PTP.DOMAIN, intervals := s.reg PTP.INTERVALS, configAt := none } }
    .next s1.runBmca

end Sys2Proof.Machine
end

