-- ==== Sys2Proof/Machine/CanLock.lean ====
section
/-!
DEFINITION. The CAN buffers: storing a frame, the read lock and its release (R402, R404, R405), and the receipts of the bound receive
buffers (R407).
-/

namespace Sys2Proof.Machine

open Reg

/-- Channel `ch` replaced. -/
def State.setCan (s : State) (ch : Nat) (x : CanChannel) : State := if ch = 0 then { s with can0 := x } else { s with can1 := x }

/-- Buffer `b` of a channel replaced. -/
def State.setCanBuf (s : State) (ch b : Nat) (x : CanBuffer) : State :=
  s.setCan ch { s.can ch with buffers := sparseSet {} (s.can ch).buffers b x }

/-- The block number of a channel in its event codes (R416), with the low byte of the code. -/
def canEvent (ch low : Nat) : Nat := (0x68 + ch) * 256 + low

/-- An overrun of buffer `b` (R405). -/
def State.canOverrun (s : State) (ch b : Nat) : State :=
  (((s.setCanBuf ch b { s.canBuf ch b with overrun := true }).incReg (CAN.OVERRUN ch)).putRegBit (CAN.ALARM ch) 2 true).raise
    (canEvent ch 6) (64 * ch + b)

/-- A frame stored into an unlocked buffer (R402, R405). -/
def State.canFill (s : State) (ch b : Nat) (f : CanFrame) (sec ns : Word) : State :=
  let x := s.canBuf ch b
  let s1 := s.setCanBuf ch b { x with frame := f, sec := sec, ns := ns, isNew := true }
  if x.isNew then s1.canOverrun ch b else s1

/-- A received frame stored into buffer `b`, or into its shadow while it is locked (R404, R405). -/
def State.canStore (s : State) (ch b : Nat) (f : CanFrame) (sec ns : Word) : State :=
  let x := s.canBuf ch b
  let s1 := s.setCanBuf ch b { x with count := (x.count + 1) % 256, recent := satTo 255 (x.recent + 1), newest := some f }
  if ((s.can ch).locked.map (·.1)) = some b then
    let s2 := s1.setCanBuf ch b { s1.canBuf ch b with shadow := some (f, sec, ns) }
    if x.shadow.isSome then s2.canOverrun ch b else s2
  else s1.canFill ch b f sec ns

/-- The lock of a channel released; the shadowed frame moves into the buffer (R404, R405). -/
def State.canRelease (s : State) (ch : Nat) : State :=
  match (s.can ch).locked with
  | none => s
  | some (b, _, _) =>
    let s1 := s.setCan ch { s.can ch with locked := none }
    let x := s1.canBuf ch b
    match x.shadow with
    | none => s1
    | some (f, sec, ns) => (s1.setCanBuf ch b { x with shadow := none }).canFill ch b f sec ns

/-- Locks held by a session released (R405). -/
def State.canSessionEnds (s : State) (n : Word) : State :=
  let held (ch : Nat) (t : State) : Bool := decide ((t.can ch).locked.map (fun l => l.2.1) = some n)
  let s1 := if held 0 s then s.canRelease 0 else s
  if held 1 s1 then s1.canRelease 1 else s1

/-- A read of word `w` of the window by a session (R404): the first read of a receive buffer with NEW set locks it; a read of word 21 of the
locked buffer releases the lock and clears NEW first. -/
def State.canReadWindow (s : State) (ch w : Nat) (n : Word) : State :=
  let b := s.regFld (CAN.BUF_SEL ch) 5 0
  let s1 := match (s.can ch).locked with
    | some (b', n', _) => s.setCan ch { s.can ch with locked := some (b', n', s.tb.up) }
    | none =>
      if canRx s ch b ∧ (s.canBuf ch b).isNew then s.setCan ch { s.can ch with locked := some (b, n, s.tb.up) } else s
  if w = 21 ∧ (s1.can ch).locked.map (·.1) = some b then
    (s1.setCanBuf ch b { s1.canBuf ch b with isNew := false }).canRelease ch
  else s1

/-- Points of a receive buffer with their values at an input cutoff (R407, Table CN-3): the count of the cycle, and the newest frame. -/
def canPoints (s : State) (ch b : Nat) : List (Word × Option Word) :=
  let x := s.canBuf ch b
  let p (l : Nat) : Word := BitVec.ofNat 32 (0x60000000 + l)
  match x.newest with
  | none => [(p (0x300 + 64 * ch + b), some 0)]
  | some f =>
    (p (0x200 + 64 * ch + b), some f.ident) ::
      (p (0x300 + 64 * ch + b), some (BitVec.ofNat 32 (x.recent * 256 + b2n f.esi * 128 + b2n f.rtr * 64 + f.dlc % 16))) ::
      (List.range 16).map fun w => (p (0x400 + 0x400 * ch + 16 * b + w), some (canData f w))

/-- The bound receive buffers of a channel, by number. -/
def boundReceivers (s : State) (ch : Nat) : List Nat := (List.range 64).filter fun b => canRx s ch b && canBound s.image ch b

/-- The receipts of the CAN buffers at an input cutoff (R407), as streams 128 + 64·ch + b of station 0. -/
def canReceipts (s : State) : List Receipt :=
  ([0, 1] : List Nat).flatMap fun ch => (boundReceivers s ch).map fun b =>
    { entry := { station := 0, stream := 128 + 64 * ch + b, flags := 0, sequence := BitVec.ofNat 32 (s.canBuf ch b).count, crc := 0 },
      data := .points (canPoints s ch b) }

/-- Counts since the cutoff begin again (R407). -/
def State.canCutoff (s : State) : State :=
  let clear (c : CanChannel) : CanChannel := { c with buffers := sparseMap {} (fun x => { x with recent := 0 }) c.buffers }
  { s with can0 := clear s.can0, can1 := clear s.can1 }

end Sys2Proof.Machine
end

