-- ==== Sys2Proof/Machine/Protocol.lean ====
section
/-!
DEFINITION. The command protocol's shared operations (Command Packets chapter): sessions, sequence numbers, replies, notices, transfer
handles, window claims, and the receive checks 7 to 18 of Table QP-4 around every command.
-/

namespace Sys2Proof.Machine

open Reg

/-- A refusal with the reason and detail of R327. -/
def refusal (st : Status) (reason : Nat := 0) (detail : Nat := 0) : Reply := { status := st, reason := reason, detail := detail }

/-- DONE with the fields of the reply's parameters. -/
def doneWith (fields : List Nat) : Reply := { status := .done, fields := fields }

/-- DONE without parameters. -/
def done : Reply := { status := .done }

/-- ACCEPTED: a notice follows (R342). -/
def accepted : Reply := { status := .accepted }

/-- One millisecond of up-time, in 2^-32 ns. -/
def msUnits : Nat := 1000000 * 4294967296

/-- The protocol changed by `f`. -/
def State.updQcp (s : State) (f : Protocol → Protocol) : State := { s with qcp := f s.qcp }

/-- The statistics changed by `f` (R346). -/
def State.count (s : State) (f : QcpStats → QcpStats) : State := s.updQcp fun q => { q with stats := f q.stats }

/-- A QCP event: SOURCE is the low 16 bits of the session number, 0xFFFF for session 0 (R445). -/
def State.raiseQcp (s : State) (code : Nat) (n : Word) : State := s.raise code (if n = 0#32 then 0xFFFF else n.toNat % 65536)

/-- The open session with number `n`. -/
def State.session (s : State) (n : Word) : Option Session := s.qcp.sessions.find? (fun x => x.number = n)

/-- The session `n` changed by `f`. -/
def State.updSession (s : State) (n : Word) (f : Session → Session) : State :=
  s.updQcp fun q => { q with sessions := q.sessions.map (fun x => if x.number = n then f x else x) }

/-- The role of a session: 0 Viewer, 1 Operator, 2 Engineer, 3 Owner (R331); an ended session has none. -/
def State.sessionRole (s : State) (n : Word) : Option Nat := (s.session n).map (·.role)

/-- The port whose address answers on a path: P3 for the station bus, P5 for the service port. -/
def pathPort (path : Path) : Nat := if path.kind = 1 then 4 else 2

/-- A reply as bytes, `relayed` when it crossed the tandem link (R321, R323). -/
def replyBytes (s : State) (op : Nat) (rq : Requester) (relayed : Bool) (r : Reply) : List Byte :=
  packetBytes s op (packetFlags s false relayed rq.session) rq.session rq.seq r.status.code 0 (replyParams op r) (replyPayload op r)

/-- A QCP packet sent on a port, counted. -/
def State.packetOut (s : State) (port : Nat) : State :=
  (s.updQcp fun q =>
    { q with serviceOut := q.serviceOut + b2n (decide (port = 4)), busOut := q.busOut + b2n (decide (port ≠ 4)) }).count fun c =>
    { c with sent := c.sent + 1 }

/-- A packet sent to a client: opcode, session, sequence and reply. -/
def State.sendReply (s : State) (op : Nat) (rq : Requester) (r : Reply) (relayed : Bool := false) : State :=
  ((s.updQcp fun q => { q with reply := some r }).packetOut rq.port).sendWire .reply
    ([op, rq.session.toNat, rq.seq.toNat, r.status.code, r.reason, r.detail] ++ r.fields ++ r.payload) (replyBytes s op rq relayed r)

/-- A notice sent, or sent again (R342). -/
def State.sendNotice (s : State) (n : Notice) : State :=
  (s.packetOut (((s.session n.session).map fun x => pathPort x.path).getD 2)).sendWire .notice
    ([n.opcode, n.session.toNat, n.count, n.ref.toNat, n.reply.status.code, n.reply.reason, n.reply.detail] ++ n.reply.fields ++ n.reply.payload)
    (packetBytes s n.opcode (packetFlags s true false n.session) n.session (BitVec.ofNat 32 n.count) n.reply.status.code n.ref.toNat
      (replyParams n.opcode n.reply) (replyPayload n.opcode n.reply))

/-- The reply to a request of a session: sent, and held with the last 16 (R334). -/
def State.answer (s : State) (op : Nat) (rq : Requester) (r : Reply) (relayed : Bool := false) : State :=
  (s.updSession rq.session fun x => { x with held := ((rq.seq.toNat, rq.crc, r) :: x.held).take 16 }).sendReply op rq r relayed

/-- A reply that was owed until a later tick; not sent when the session has ended. -/
def State.lateAnswer (s : State) (op : Nat) (rq : Option Requester) (r : Reply) (relayed : Bool := false) : State :=
  match rq with
  | none => s
  | some q => if (s.session q.session).isSome then s.answer op q r relayed else s

/-- A completion notice (R342): numbered in its session, kept until acknowledged; not sent when the session has ended. -/
def State.notify (s : State) (op : Nat) (rq : Option Requester) (r : Reply) : State :=
  match rq with
  | none => s
  | some q =>
    match s.session q.session with
    | none => s
    | some x =>
      let n : Notice :=
        { session := q.session, count := x.notices + 1, opcode := op, ref := q.seq, reply := r, sentAt := s.tb.up }
      ((s.updSession q.session fun y => { y with notices := y.notices + 1 }).updQcp fun p => { p with notices := p.notices ++ [n] }).sendNotice n

/-! ### Transfer handles (R338, R339) -/

/-- The state of a component's other bank set in UPD.C_STATE (R468). -/
def State.setOtherBank (s : State) (k st : Nat) : State :=
  if 6 < k then s
  else if s.regBit (UPD.C_STATE k) 31 then s.putReg (UPD.C_STATE k) 30 28 st else s.putReg (UPD.C_STATE k) 26 24 st

/-- A transfer handle removed. An upload that was not finished leaves its bank EMPTY and raises event 0x604B (R339). -/
def State.dropHandle (s : State) (h : Handle) (finished : Bool) : State :=
  let s1 := s.updQcp fun q => { q with handles := q.handles.filter (fun x => x.id ≠ h.id) }
  if finished then s1
  else
    match h.kind with
    | .image b => (s1.setReg (IMG.B_STATE b) 0).raiseQcp 0x604B h.session
    | .component k => (s1.setOtherBank k 0).raiseQcp 0x604B h.session
    | .record _ _ _ => s1

/-- Every handle of a list closed. -/
def State.dropHandles (s : State) : List Handle → State
  | [] => s
  | h :: rest => (s.dropHandle h false).dropHandles rest

/-- The open handle `id` of session `n`. -/
def State.handle (s : State) (id : Nat) (n : Word) : Option Handle :=
  s.qcp.handles.find? (fun h => decide (h.id = id) && decide (h.session = n))

/-- A handle opened; identities count up (R338). -/
def State.openHandle (s : State) (n : Word) (kind : HandleKind) (size : Nat) (digest : BitVec 256) : State × Handle :=
  let h : Handle :=
    { id := s.qcp.nextHandle, session := n, kind := kind, size := size, digest := digest, chunks := (size + 1343) / 1344,
      lastAt := s.tb.up }
  (s.updQcp fun q => { q with handles := q.handles ++ [h], nextHandle := q.nextHandle + 1 }, h)

/-- A handle replaced by a changed copy. -/
def State.setHandle (s : State) (h : Handle) : State :=
  s.updQcp fun q => { q with handles := q.handles.map (fun x => if x.id = h.id then h else x) }

/-- NEXT moved over the chunks already received above it (R339). -/
def advanceNext : Nat → Nat → List Nat → Nat × List Nat
  | 0, n, ahead => (n, ahead)
  | fuel + 1, n, ahead => if n ∈ ahead then advanceNext fuel (n + 1) (ahead.filter (· ≠ n)) else (n, ahead)

/-- A chunk offered to an upload handle (R338, R339): the changed handle, or the refusal. -/
def offerChunk (h : Handle) (index : Nat) (data : List Byte) (now : Nat) : Except Reply Handle :=
  if h.chunks ≤ index ∨ h.next + 16 ≤ index then .error (refusal .outOfSequence)
  else if data.length ≠ (if index + 1 = h.chunks then h.size - 1344 * index else 1344) then .error (refusal .badLength)
  else if index < h.next ∨ index ∈ h.ahead then .ok { h with lastAt := now }
  else
    let n := advanceNext 16 h.next (index :: h.ahead)
    .ok { h with lastAt := now, stored := sparseInsert h.stored index data, next := n.1, ahead := n.2 }

/-- The number of handles of a session: uploads, then downloads (R339). -/
def State.handleCount (s : State) (n : Word) (upload : Bool) : Nat :=
  s.qcp.handles.countP fun h => decide (h.session = n) && (match h.kind with
    | .record _ _ _ => !upload
    | _ => upload)

/-! ### Sessions -/

/-- The end of a session (R332): event 0x6047; its handles close, its claims are released, its notices abandoned. -/
def State.endSession (s : State) (n : Word) : State :=
  let s1 := (s.canSessionEnds n).dropHandles (s.qcp.handles.filter (fun h => h.session = n))
  (s1.updQcp fun q =>
    { q with
      sessions := q.sessions.filter (fun x => x.number ≠ n)
      notices := q.notices.filter (fun x => x.session ≠ n)
      claims := q.claims.filter (fun c => c.2.1 ≠ n) }).raiseQcp 0x6047 n

/-- The end of every session of a list. -/
def State.endSessions (s : State) : List Word → State
  | [] => s
  | n :: rest => (s.endSession n).endSessions rest

/-- The end of all sessions. -/
def State.endAllSessions (s : State) : State := s.endSessions (s.qcp.sessions.map (·.number))

/-! ### Window claims (R348) -/

/-- The session other than `n` that holds a window, if any. -/
def State.windowHolder (s : State) (w : WindowId) (n : Word) : Option Word :=
  (s.qcp.claims.find? (fun c => decide (c.1 = w) && decide (c.2.1 ≠ n))).map (·.2.1)

/-- A window claimed, or its claim refreshed, by session `n`. -/
def State.claimWindow (s : State) (w : WindowId) (n : Word) : State :=
  s.updQcp fun q => { q with claims := (w, n, s.tb.up) :: q.claims.filter (fun c => c.1 ≠ w) }

/-- A window's claim released. -/
def State.releaseWindow (s : State) (w : WindowId) : State :=
  s.updQcp fun q => { q with claims := q.claims.filter (fun c => c.1 ≠ w) }

/-! ### Receiving a request (Table QP-4) -/

/-- What the sequence check finds (R334). -/
inductive SeqVerdict where
  | fresh
  | again (r : Reply)
  | replayed
  deriving DecidableEq, Repr

/-- The sequence check of R334. -/
def seqVerdict (x : Session) (seq : Nat) (crc : Word) : SeqVerdict :=
  if x.high < seq ∧ seq ≤ x.high + 65536 then .fresh
  else
    match x.held.find? (fun h => decide (h.1 = seq)) with
    | some h => if h.2.1 = crc then .again h.2.2 else .replayed
    | none => if seq ≤ x.high ∧ x.high ≤ seq + 63 ∧ seq ∉ x.seen then .fresh else .replayed

/-- The session with a sequence used up (R325, R334). -/
def useSeq (x : Session) (seq : Nat) : Session :=
  let h := if x.high < seq then seq else x.high
  { x with high := h, seen := (seq :: x.seen).filter (fun n => h ≤ n + 63) }

/-- The requests accepted in the 1,000 ms that end now (R336). -/
def recentOf (x : Session) (now : Nat) : List Nat := x.recent.filter (fun t => now < t + 1000 * msUnits)

/-- One packet received on a port, counted. -/
def State.received (s : State) (port : Nat) : State :=
  (s.updQcp fun q => { q with reply := none, serviceIn := q.serviceIn + b2n (decide (port = 4)) }).count fun c => { c with received := c.received + 1 }

/-- A MAC failure in a session (check 10): silence, counted, event 0x6042; kept with the session for R332. -/
def State.macFailure (s : State) (n : Word) : State :=
  ((s.count fun c => { c with macFailures := c.macFailures + 1 }).updSession n fun x =>
    { x with macFails := s.tb.up :: x.macFails.filter (fun t => s.tb.up < t + 1000 * msUnits) }).raiseQcp 0x6042 n

/-- The statistics that follow from a refusal's status (R346). -/
def State.countStatus (s : State) (st : Status) : State :=
  match st with
  | .badHeader => s.count fun c => { c with badHeader := c.badHeader + 1 }
  | .badLength => s.count fun c => { c with badHeader := c.badHeader + 1 }
  | .unknownOpcode => s.count fun c => { c with unknownOpcode := c.unknownOpcode + 1 }
  | .replayed => s.count fun c => { c with replayed := c.replayed + 1 }
  | .rateLimited => s.count fun c => { c with rateLimited := c.rateLimited + 1 }
  | .notAuthorized => s.count fun c => { c with notAuthorized := c.notAuthorized + 1 }
  | _ => s

/-- A refusal by a receive check: counted, with its pleated event where Table QP-4 names one. -/
def State.refuse (s : State) (op : Nat) (rq : Requester) (r : Reply) (event : Option Nat) : State :=
  let s1 := s.countStatus r.status
  let s2 := match event with
    | some e => s1.raiseQcp e rq.session
    | none => s1
  s2.answer op rq r

/-- A request passed to the partner (R323): refused for the opcodes 0x00 to 0x0F, and with WRONG_STATE, reason 2, while the tandem path
is lost. -/
def State.relayRequest (s : State) (op : Nat) (rq : Requester) : State :=
  if op < 16 then s.refuse op rq (refusal .badHeader) (some 0x6041)
  else if s.pair.tandem.up then
    (s.updQcp fun q => { q with relays := q.relays ++ [{ by_ := rq, opcode := op, sentAt := s.tb.up }] }).send .relayed
      [op, rq.session.toNat, rq.seq.toNat]
  else
    ((s.count fun c => { c with relayFailures := c.relayFailures + 1 }).raiseQcp 0x604F rq.session).answer op rq (refusal .wrongState 2)

/-- How a command answers: the state after it, and its reply (none: the reply is owed until a later tick). A refusal leaves the state
as it was but for the counters and events of the refusal (R325). -/
abbrev Body := State → Requester → State × Option Reply

/-- A body that refuses. -/
def Body.refuse (r : Reply) : Body := fun s _ => (s, some r)

/-- Checks 14 to 18 (Table QP-4): authority, owner lock, parameters, order, then the command itself. `auth` is the role number needed,
`lock` whether the owner lock refuses the command (R478), `params` what check 15 finds. -/
def State.runRequest (s : State) (op : Nat) (rq : Requester) (x : Session) (auth : Nat) (lock : Bool) (params : Option Reply)
    (body : Body) : State :=
  if x.role < auth then s.refuse op rq (refusal .notAuthorized) (some 0x6045)
  else if lock then s.refuse op rq (refusal .ownerLocked) (some 0x6045)
  else
    match params with
    | some r => s.refuse op rq r none
    | none =>
      if !x.confirmed then (s.refuse op rq (refusal .outOfSequence) none).raiseQcp 0x6048 rq.session
      else
        match body s rq with
        | (s1, some r) => (s1.countStatus r.status).answer op rq r
        | (s1, none) => s1

/-- Checks 7 to 12 of Table QP-4 for a request of a session; `next` continues with the accepted request. -/
def State.receive (s : State) (p : Pkt) (op : Nat) (next : State → Requester → Session → State) : State :=
  if s.committing then s else
  let s1 := s.received (pathPort p.path)
  let rq : Requester := { session := p.session, seq := p.seq, crc := p.crc, port := pathPort p.path }
  if p.pairId ≠ 0xFFFF#16 ∧ p.pairId ≠ s.pair.baseId then
    s1.sendReply op rq { status := .incompatible, reason := 1 }
  else if p.session = 0#32 then
    ((s1.countStatus .notAuthorized).raiseBlock 0x6045).sendReply op rq (refusal .notAuthorized)
  else
    match s.session p.session with
    | none => s1.sendReply op rq (refusal .sessionExpired)
    | some x =>
      if x.path ≠ p.path then s1.sendReply op rq (refusal .sessionExpired)
      else if p.mac ≠ MacCheck.correct then s1.macFailure p.session
      else if 200 ≤ (recentOf x s.tb.up).length then
        (s1.updSession p.session fun y => if seqVerdict y p.seq.toNat p.crc = .fresh then useSeq y p.seq.toNat else y).refuse op rq
          (refusal .rateLimited) (some 0x6044)
      else
        match seqVerdict x p.seq.toNat p.crc with
        | .again r => s1.sendReply op rq r
        | .replayed => ((s1.countStatus .replayed).raiseQcp 0x6043 p.session).sendReply op rq (refusal .replayed)
        | .fresh =>
          let s2 := s1.updSession p.session fun y =>
            { useSeq y p.seq.toNat with lastAt := s.tb.up, recent := s.tb.up :: recentOf y s.tb.up }
          if p.relay then s2.relayRequest op rq else next s2 rq x

/-- A request of a session, through every check (Table QP-4). -/
def State.request (s : State) (p : Pkt) (op auth : Nat) (lock : Bool) (params : Option Reply) (body : Body) : State :=
  s.receive p op fun s1 rq x => s1.runRequest op rq x auth lock params body

/-- Bit `i` of the owner lock (R478). -/
def State.lockBit (s : State) (i : Nat) : Bool := s.regBit SEC.LOCK i

/-- The role may command the plant's shared configuration: ACTIVE, SOLO or OUT (R160, R203, R368). -/
def State.mayConfigure (s : State) : Bool :=
  match s.role with
  | .active => true
  | .solo => true
  | .out => true
  | _ => false

/-- A command or tick sent to the STANDBY over the tandem link (R95, R104, R160). -/
def State.pass (s : State) (fields : List Nat) : State := if s.role = .active then s.send .passed fields else s

end Sys2Proof.Machine
end

