-- ==== Sys2Proof/Machine/Signatures.lean ====
section
/-!
DEFINITION. SM2 signatures (R340, R475, R477, R480): the check of GB/T 32918.2-2016 over the curve of GB/T 32918.5 (PRESUMED,
notes/assumptions/17.md).
-/

namespace Sys2Proof.Machine

/-! ### The curve -/

/-- The prime of the field, the coefficients, the order and the base point. -/
def curveP : Nat := 0xFFFFFFFEFFFFFFFFFFFFFFFFFFFFFFFFFFFFFFFF00000000FFFFFFFFFFFFFFFF
def curveA : Nat := curveP - 3
def curveB : Nat := 0x28E9FA9E9D9F5E344D5A9E4BCF6509A7F39789F515AB8F92DDBCBD414D940E93
def curveN : Nat := 0xFFFFFFFEFFFFFFFFFFFFFFFFFFFFFFFF7203DF6B21C6052B53BBF40939D54123
def curveGx : Nat := 0x32C4AE2C1F1981195F9904466A39C9948FE30BBFF2660BE1715A4589334C74C7
def curveGy : Nat := 0xBC3736A2F4F6779C59BDCEE36B692153D0A9877CC62A474002DF32E52139F0A0

/-- Product and difference in the field. -/
def fieldMul (a b : Nat) : Nat := a * b % curveP
def fieldSub (a b : Nat) : Nat := (a + curveP - b) % curveP

/-- A point in Jacobian coordinates; `z` = 0 is the point at infinity. -/
structure CurvePoint where
  x : Nat
  y : Nat
  z : Nat
  deriving DecidableEq, Repr

/-- The point at infinity. -/
def curveZero : CurvePoint := { x := 1, y := 1, z := 0 }

/-- A point doubled. -/
def CurvePoint.double (q : CurvePoint) : CurvePoint :=
  let zz := fieldMul q.z q.z
  let yy := fieldMul q.y q.y
  let m := fieldMul 3 (fieldMul (fieldSub q.x zz) (q.x + zz))
  let v := fieldMul 4 (fieldMul q.x yy)
  let x := fieldSub (fieldMul m m) (fieldMul 2 v)
  { x := x, y := fieldSub (fieldMul m (fieldSub v x)) (fieldMul 8 (fieldMul yy yy)), z := fieldMul 2 (fieldMul q.y q.z) }

/-- Two points added. -/
def CurvePoint.add (q r : CurvePoint) : CurvePoint :=
  if q.z = 0 then r
  else if r.z = 0 then q
  else
    let qz := fieldMul q.z q.z
    let rz := fieldMul r.z r.z
    let u := fieldMul q.x rz
    let w := fieldMul q.y (fieldMul r.z rz)
    let h := fieldSub (fieldMul r.x qz) u
    let k := fieldSub (fieldMul r.y (fieldMul q.z qz)) w
    if h = 0 then (if k = 0 then q.double else curveZero)
    else
      let hh := fieldMul h h
      let hhh := fieldMul h hh
      let v := fieldMul u hh
      let x := fieldSub (fieldSub (fieldMul k k) hhh) (fieldMul 2 v)
      { x := x, y := fieldSub (fieldMul k (fieldSub v x)) (fieldMul w hhh), z := fieldMul h (fieldMul q.z r.z) }

/-- k times `g` and l times `q` added up over the lowest bits of k and l, the most significant first; `both` is g + q. -/
def sumTimes (g q both : CurvePoint) (k l : Nat) : Nat → CurvePoint → CurvePoint
  | 0, acc => acc
  | n + 1, acc =>
    sumTimes g q both k l n (match k.testBit n, l.testBit n with
      | false, false => acc.double
      | true, false => acc.double.add g
      | false, true => acc.double.add q
      | true, true => acc.double.add both)

/-- A power in the field over the lowest bits of the exponent. -/
def fieldPow (b e : Nat) : Nat → Nat → Nat
  | 0, acc => acc
  | n + 1, acc => fieldPow b e n (if e.testBit n then fieldMul (fieldMul acc acc) b else fieldMul acc acc)

/-- The affine x of a point. -/
def CurvePoint.affineX (q : CurvePoint) : Nat :=
  let i := fieldPow q.z (curveP - 2) 256 1
  fieldMul q.x (fieldMul i i)

/-- Coordinates of a point of the curve. -/
def onCurve (x y : Nat) : Bool :=
  decide (x < curveP) && decide (y < curveP) &&
    decide (fieldMul y y = (fieldMul (fieldMul x x) x + fieldMul curveA x + curveB) % curveP)

/-! ### Signatures -/

/-- The halves x ‖ y of a public key, or r ‖ s of a signature. -/
def highHalf (v : BitVec 512) : Nat := v.toNat / 2 ^ 256
def lowHalf (v : BitVec 512) : Nat := v.toNat % 2 ^ 256

/-- The digest that stands for the signer in front of the message: identifier, curve and public key. -/
def signerDigest (ident : List Byte) (key : BitVec 512) : BitVec 256 :=
  sm3 (beBytes 2 (8 * ident.length) ++ ident ++
    ([curveA, curveB, curveGx, curveGy, highHalf key, lowHalf key].flatMap (beBytes 32)))

/-- Whether a signature r ‖ s over a digest value e verifies under a public key. -/
def signatureHolds (key signature : BitVec 512) (e : Nat) : Bool :=
  let r := highHalf signature
  let s := lowHalf signature
  let t := (r + s) % curveN
  let g : CurvePoint := { x := curveGx, y := curveGy, z := 1 }
  let q : CurvePoint := { x := highHalf key, y := lowHalf key, z := 1 }
  onCurve q.x q.y && decide (1 ≤ r ∧ r < curveN ∧ 1 ≤ s ∧ s < curveN) && decide (t ≠ 0) &&
    decide ((e + (sumTimes g q (g.add q) s t 256 curveZero).affineX) % curveN = r)

/-- An SM2 signature of a message by a signer. -/
def sm2Verifies (ident : List Byte) (key signature : BitVec 512) (message : List Byte) : Bool :=
  signatureHolds key signature (sm3 (digestOctets (signerDigest ident key) ++ message)).toNat

end Sys2Proof.Machine
end

