-- ==== Sys2Proof/Machine/Image.lean ====
section
/-!
DEFINITION. Control images (R69 to R77): banks, the image header, point references, admission, and what the registers show of the running
image.
-/

namespace Sys2Proof.Machine

open Reg

/-- The frame part of the state changed by `f`. -/
def State.updFrame (s : State) (f : Frame → Frame) : State := { s with frame := f s.frame }

/-- The image of a bank replaced. -/
def State.setBankImage (s : State) (b : Nat) (i : Option Image) : State :=
  s.updFrame fun f => if b = 0 then { f with bank0 := i } else { f with bank1 := i }

/-- A bank state set. -/
def State.setBankState (s : State) (b st : Nat) : State := s.setReg (IMG.B_STATE b) (BitVec.ofNat 32 st)

/-! ### The header (Table FX-3) -/

/-- A big-endian field of an image header. -/
def headField (h : List Byte) (from_ len : Nat) : Nat :=
  ((h.drop from_).take len).foldl (fun a b => a * 256 + b.toNat) 0

/-- The header check of R340 (Table FX-3) for an upload of `size` bytes. -/
def headerOk (h : List Byte) (size : Nat) : Bool :=
  decide (64 ≤ h.length) && decide (headField h 0 4 = 0x51494D31) && decide (headField h 4 2 = 1) &&
    decide (headField h 6 2 ≤ 1) && decide (headField h 28 4 = size) &&
    decide (3 ≤ headField h 32 4 ∧ headField h 32 4 ≤ 16) && decide (headField h 36 28 = 0)

/-! ### The section table (R70, Table FX-4) -/

/-- An entry of the section table. -/
structure Section where
  type : Nat
  flags : Nat
  offset : Nat
  length : Nat
  reserved : Nat
  deriving DecidableEq, Repr

/-- Entry `i` of the section table. -/
def sectionAt (h : List Byte) (i : Nat) : Section :=
  let o := 64 + 16 * i
  { type := headField h o 2, flags := headField h (o + 2) 2, offset := headField h (o + 4) 4, length := headField h (o + 8) 4
    reserved := headField h (o + 12) 4 }

/-- The section table. -/
def sectionsOf (h : List Byte) : List Section := (List.range (headField h 32 4)).map (sectionAt h)

/-- Sections that follow one another without overlap from `from_` on, within `size` bytes. -/
def sectionsFollow : List Section → Nat → Nat → Bool
  | [], _, _ => true
  | x :: rest, from_, size => decide (from_ ≤ x.offset) && decide (x.offset + x.length ≤ size) && sectionsFollow rest (x.offset + x.length) size

/-- The section table keeps R70 and Table FX-4 for an upload of `size` bytes: known types, each once; flags and reserved words 0; the sections behind
the table and in its order; the SIGNATURE section of 68 bytes last. -/
def sectionsOk (h : List Byte) (size : Nat) : Bool :=
  let l := sectionsOf h
  decide (64 + 16 * l.length ≤ h.length) &&
    l.all (fun x => ([0x0001, 0x0002, 0x0010, 0x0020, 0x0030, 0x0040, 0x00F0].contains x.type) && decide (x.flags = 0) && decide (x.reserved = 0)) &&
    decide ((l.map (·.type)).eraseDups.length = l.length) && sectionsFollow l (64 + 16 * l.length) size &&
    (match l.getLast? with
      | some x => decide (x.type = 0x00F0) && decide (x.length = 68) && decide (x.offset + x.length = size)
      | none => false)

/-- The bytes of the section of a type; none when the image holds no such section. -/
def sectionBytes (h : List Byte) (type : Nat) : List Byte :=
  match (sectionsOf h).find? (fun x => x.type = type) with
  | some x => (h.drop x.offset).take x.length
  | none => []

/-- An entry of the BUDGET section (Table FX-5); `reserved` joins its reserved bytes, and `sources` gives the releasing sources. -/
def budgetAt (h : List Byte) (sources : List (Nat × Nat)) (o : Nat) : Budget :=
  let t := headField h o 1
  { task := t, cls := headField h (o + 1) 1, core := headField h (o + 2) 1, flags := headField h (o + 3) 1
    budget := headField h (o + 4) 4, interarrival := headField h (o + 8) 4, deadline := headField h (o + 12) 4
    rank := headField h (o + 16) 1, quota := headField h (o + 17) 1, entry := headField h (o + 20) 4
    reserved := headField h (o + 18) 2 + headField h (o + 24) 8
    source := ((sources.find? (fun x => x.1 = t)).map (·.2)).getD 0 }

/-- The BUDGET section, one entry per 32 bytes. -/
def budgetsIn (h : List Byte) (sources : List (Nat × Nat)) : List Budget :=
  (List.range ((h.length + 31) / 32)).map fun i => budgetAt h sources (32 * i)

/-- An entry of the MIGRATION section (Table OC-2). -/
def migrationAt (h : List Byte) (o : Nat) : MigrationEntry :=
  { new := BitVec.ofNat 32 (headField h o 4), old := BitVec.ofNat 32 (headField h (o + 4) 4), action := headField h (o + 8) 1
    kind := headField h (o + 9) 1, flags := headField h (o + 10) 2, typeSig := BitVec.ofNat 32 (headField h (o + 12) 4) }

/-- The MIGRATION section (Tables OC-1 and OC-2). -/
def migrationIn (h : List Byte) : Migration :=
  { base := BitVec.ofNat 256 (headField h 0 32), count := headField h 32 4, reserved := headField h 36 4
    entries := (List.range ((h.length - 40) / 16)).map fun i => migrationAt h (40 + 16 * i), rest := (h.length - 40) % 16 }

/-- An SM4 key of decryption slots 1 to 3 (R479). -/
def State.cipherKey (s : State) (slot : Nat) : Option (BitVec 128) := sparseFind s.trust.decryption slot

/-- FLAGS [0] of an image (Table FX-3): the sections after the header are enciphered. -/
def imageSealed (bytes : List Byte) : Bool := decide (headField bytes 6 2 % 2 = 1)

/-- The bytes of an upload, deciphered with the key of decryption slot 1 when FLAGS [0] is set (R479). -/
def plainBytes (s : State) (bytes : List Byte) : List Byte :=
  if imageSealed bytes then decipher ((s.cipherKey 1).getD 0) bytes else bytes

/-- The image that an upload holds: its BUDGET and MIGRATION sections and the signing key slot as its bytes say, the rest as verification found
it. -/
def imageOf (s : State) (bytes : List Byte) (r : ImageVerdict) : Image :=
  let h := plainBytes s bytes
  { budgets := budgetsIn (sectionBytes h 0x0030) r.sources, bindings := r.bindings, retentiveSize := r.retentiveSize, instances := r.instances
    migration := migrationIn (sectionBytes h 0x0040), signer := headField (sectionBytes h 0x00F0) 64 4 }

/-! ### Signatures (R340, R475) -/

/-- The identifier that stands for a key's holder where none is enrolled: the one that GB/T 32918.2 gives as its example (notes/assumptions/17.md). -/
def plainIdent : BitVec 128 := 0x31323334353637383132333435363738

/-- The public key of a slot. -/
def State.publicKey (s : State) (slot : Nat) : Option PublicKey := sparseFind s.trust.keys slot

/-- Whether the key of a slot verifies a signature over the SM3 digest of some bytes (R475). -/
def State.keyVerifies (s : State) (slot : Nat) (signature : BitVec 512) (bytes : List Byte) : Bool :=
  match s.publicKey slot with
  | some k => sm2Verifies (beBytes 16 k.ident.toNat) k.key signature (digestOctets (sm3 bytes))
  | none => false

/-- Whether the key of a slot may sign images: it is present and not revoked, and it is the owner key or enrolled for image signing (Table UP-4). -/
def signsImages (s : State) (slot : Nat) : Bool :=
  let k := s.reg (SEC.KEY_INFO slot)
  decide (1 ≤ slot ∧ slot ≤ 14) && bit k 31 && !(bit k 30) && (decide (slot = 1) || bit k 25)

/-- The signature of 64 bytes that ends an image or a package, and the number of its key slot (Table FX-4, R465). -/
def endSignature (bytes : List Byte) : BitVec 512 × Nat :=
  let tail := bytes.drop (bytes.length - 68)
  (BitVec.ofNat 512 (beNat (tail.take 64)), beNat (tail.drop 64))

/-- An enrolled key verifies the signature that ends an image (R340). -/
def imageSigned (s : State) (bytes : List Byte) : Bool :=
  let g := endSignature bytes
  signsImages s g.2 && s.keyVerifies g.2 g.1 (bytes.take (bytes.length - 68))

/-! ### Point references (R72) -/

/-- Whether a local point of station 0 is defined (R72; Tables DI-2, AO-3, AO-9, CN-3 and R312). -/
def localDefined (l : Nat) : Bool :=
  decide (l < 0x20) || decide (0x40 ≤ l ∧ l < 0x44) || decide (0x60 ≤ l ∧ l < 0x80) || decide (0x100 ≤ l ∧ l < 0x110) ||
    decide (0x120 ≤ l ∧ l < 0x138) || (decide (0x180 ≤ l ∧ l < 0x1C0) && decide (l % 8 ≠ 7)) ||
    decide (0x200 ≤ l ∧ l < 0x280) || decide (0x300 ≤ l ∧ l < 0x380) || decide (0x400 ≤ l)

/-- A valid point reference (R72). -/
def pointValid (p : Word) : Bool :=
  let t := pointType p
  decide (1 ≤ t ∧ t ≤ 0xA) && decide (fld p 27 22 = 0) &&
    (if t = 9 then decide (pointStation p = 0)
     else if t = 0xA then decide (pointStation p = 0) && decide (fld p 11 8 ≤ 7) && decide (fld p 7 0 ≤ 0x0B)
     else decide (pointStation p ≠ 0) || localDefined (pointLocal p))

/-- The window word 0 of CAN buffer `b` of channel `ch` (Table CN-6). -/
def State.canWord (s : State) (ch b w : Nat) : Word := s.win (if ch = 0 then .can0 else .can1) b w

/-- Whether a CAN point of station 0 fits the enabled buffer's direction (R406). -/
def canPointOk (s : State) (t ch b : Nat) : Bool :=
  let w := s.canWord ch b 0
  bit w 31 && (if bit w 30 then decide (t = 7) else decide (t = 6))

/-- Whether a valid reference's type matches the definition of its point (Tables DI-2, AO-3, AO-9, CN-3, R312). -/
def pointTypeOk (s : State) (p : Word) : Bool :=
  let t := pointType p
  let l := pointLocal p
  if t = 9 ∨ t = 0xA ∨ pointStation p ≠ 0 then true
  else if l < 0x20 then decide (t = 1 ∨ t = 8) || (decide (t = 2) && s.dioBit l 30)
  else if l < 0x80 then decide (t = 1)
  else if l < 0x108 then decide (t = 4)
  else if l < 0x110 then decide (t = 7)
  else if l < 0x128 then decide (t = 3)
  else if l < 0x138 then decide (t = 1)
  else if l < 0x1C0 then
    (if l % 8 ≤ 4 then decide (t = 3) else if l % 8 = 5 then decide (t = 6) else decide (t = 1))
  else if l < 0x280 then canPointOk s t ((l - 0x200) / 64) (l % 64)
  else if l < 0x380 then canPointOk s t ((l - 0x300) / 64) (l % 64)
  else if l < 0xC00 then canPointOk s t ((l - 0x400) / 0x400) ((l - 0x400) % 0x400 / 16)
  else if l < 0xE00 then !(isOutputType t)
  else isOutputType t

/-- Bits a point takes in the process image (Table FX-6). -/
def pointBits (p : Word) : Nat :=
  match pointType p with
  | 1 => 1
  | 2 => 1
  | 8 => 96
  | _ => 32

/-- The size of the process image in bytes, packed. -/
def imagePoints (i : Image) : Nat := ((i.bindings.map (fun b => pointBits b.point)).foldl (· + ·) 0 + 7) / 8

/-- Bytes of non-retentive and retentive content are given by the image; this is its number of distinct remote stations. -/
def imageStations (i : Image) : Nat :=
  (((i.bindings.map (fun b => pointStation b.point)).filter (· ≠ 0)).eraseDups).length

/-- The binding of a point in an image. -/
def bindingIn (i : Image) (p : Word) : Option Binding := i.bindings.find? (fun b => b.point = p)

/-- The budget entry of a task in an image. -/
def taskIn (i : Image) (t : Nat) : Option Budget := i.budgets.find? (fun b => b.task = t)

/-- The binding of a point in the running image. -/
def State.binding (s : State) (p : Word) : Option Binding := s.image.bind (fun i => bindingIn i p)

/-! ### Task classes and priority (R64 to R66) -/

/-- Frames per cycle of class `c` (Table FX-2). -/
def classFrames (c : Nat) : Nat :=
  match c with
  | 0 => 1
  | 1 => 10
  | 2 => 100
  | 3 => 1000
  | 4 => 10000
  | _ => 100000

/-- The period of a task in frames: its class's, or the minimum interarrival of an E task (R75). -/
def taskPeriod (b : Budget) : Nat := if b.cls = 6 then b.interarrival else classFrames b.cls

/-- The deadline of a task in frames (R75). -/
def taskLimit (b : Budget) : Nat := if b.cls = 6 then b.deadline else classFrames b.cls

/-- The order of priority of R66: class, with an E task directly after the class of its rank, then the task number. -/
def taskLevel (b : Budget) : Nat := (if b.cls = 6 then 2 * b.rank + 1 else 2 * b.cls) * 16 + b.task

/-- A budget entry put at its place in the priority order. -/
def insertBudget (b : Budget) : List Budget → List Budget
  | [] => [b]
  | x :: rest => if (taskLevel b) < (taskLevel x) then b :: x :: rest else x :: insertBudget b rest

/-- The tasks of one core pair, by priority. -/
def tasksOf (i : Image) (core : Nat) : List Budget :=
  (i.budgets.filter (fun b => b.core = core)).foldl (fun l b => insertBudget b l) []

/-! ### Admission (R74 to R77) -/

/-- A refusal of admission: what IMG.ADMIT_RESULT, ADMIT_VALUE and ADMIT_LIMIT take (Table FX-20). -/
structure AdmitRefusal where
  status : Status
  reason : Nat
  task : Nat := 0xFF
  core : Nat := 0xFF
  value : Nat := 0
  limit : Nat := 0
  deriving DecidableEq, Repr

/-- The result of an admission: response times by task and each core pair's utilisation in 0.01%. -/
structure Admitted where
  resp : List (Nat × Nat)
  util0 : Nat
  util1 : Nat
  load : Word
  deriving DecidableEq, Repr

/-- A budget entry's own fields (R71): none, or the reason of the fault. -/
def budgetFault (b : Budget) : Option Nat :=
  if 15 < b.task ∨ 6 < b.cls ∨ 1 < b.core ∨ 3 < b.flags ∨ b.reserved ≠ 0 ∨ b.budget = 0 ∨ 999999999 < b.budget then some 0x04
  else if b.cls ≠ 6 then (if b.interarrival ≠ 0 ∨ b.deadline ≠ 0 ∨ b.rank ≠ 0 then some 0x04 else none)
  else if b.interarrival = 0 ∨ 100000 < b.interarrival ∨ b.deadline = 0 ∨ b.interarrival < b.deadline ∨ 5 < b.rank then some 0x0C
  else none

/-- Whether a list of task numbers holds no number twice. -/
def distinct : List Nat → Bool
  | [] => true
  | x :: rest => !(rest.contains x) && distinct rest

/-- The code of an owner (Table FX-20). -/
def ownerCode (o : Owner) : Nat := o.kind * 4096 + o.number % 4096

/-- The resource of the ownership table that a point of station 0 drives (Table FB-5): its class and number. -/
def pointResource (p : Word) : Option (Nat × Nat) :=
  let l := pointLocal p
  if pointStation p ≠ 0 then none
  else if pointType p = 2 ∧ l < 0x20 then some (1, l)
  else if pointType p = 4 ∧ 0x100 ≤ l ∧ l < 0x108 then some (2, l - 0x100)
  else if pointType p = 7 ∧ 0x200 ≤ l ∧ l < 0x280 then some (3, l - 0x200)
  else if pointType p = 7 ∧ 0x300 ≤ l ∧ l < 0x380 then some (3, l - 0x300)
  else if pointType p = 7 ∧ 0x400 ≤ l ∧ l < 0xC00 then some (3, (l - 0x400) / 16)
  else none

/-- A conflict over a resource of the ownership table refused (R438): both owners, the resource, the count and event 0x7805. -/
def State.noteConflict (s : State) (resource : Option (Nat × Nat)) (owners : Nat) : State :=
  match resource with
  | none => s
  | some (c, n) =>
    (((s.setReg COLLAR.CONFLICT_LAST (BitVec.ofNat 32 owners)).setReg COLLAR.CONFLICT_RES (BitVec.ofNat 32 (c * 16777216 + n))).incReg
      COLLAR.CONFLICT_COUNT).orReg COLLAR.ALARM 8 |>.raiseBlock 0x7805

/-- The owner of a point in an image that holds its claims: the running one, and the other bank's while it is ADMITTED (R438). -/
def State.imageOwner (s : State) (p : Word) : Option Owner :=
  match (s.binding p).bind (·.owner) with
  | some o => some o
  | none => if s.bankState s.otherBank = 3 then ((s.bankImage s.otherBank).bind fun i => bindingIn i p).bind (·.owner) else none

/-- Word 0 of page 0 of slot `k` in the commits that wait for their application tick: they hold their claims (R438). -/
def pendingSlotWord (s : State) (k : Nat) : List Word :=
  s.frame.applications.filterMap fun a => match a.effect with
    | .loopCommit j words => if j = k then sparseFind words 0 else none
    | _ => none

/-- Slot `k` names current-loop channel `n` as its destination (R204, R373). -/
def slotClaims (s : State) (k n : Nat) : Bool :=
  (s.win .loop (k * 8) 0 :: pendingSlotWord s k).any fun c => decide (fld c 25 24 = 1) && decide (fld c 18 16 = n)

/-- The slot that owns current-loop channel `n`. -/
def State.slotOfChannel (s : State) (n : Nat) : Option Nat := (List.range 256).find? fun k => slotClaims s k n

/-- TACK_OWNED of channel `c`, set or waiting for its application tick (R93, R438). -/
def tackOwned (s : State) (c : Nat) : Bool :=
  s.dioBit c 28 || s.frame.applications.any fun a => match a.effect with
    | .regWrite x v => decide (x = DIO.CH_CFG c) && bit v 28
    | _ => false

/-- The owner that a point already has beside the image: the tack queue for a tack-owned channel, a loop slot for its current-loop
channel (R69, R93, R362, R373). -/
def otherOwner (s : State) (p : Word) : Option Owner :=
  if pointStation p ≠ 0 then none
  else if pointType p = 2 ∧ pointLocal p < 0x20 then
    if tackOwned s (pointLocal p) then some { kind := 2, number := pointLocal p } else none
  else if pointType p = 4 ∧ 0x100 ≤ pointLocal p ∧ pointLocal p < 0x108 then
    (s.slotOfChannel (pointLocal p - 0x100)).map (fun k => { kind := 1, number := k })
  else none

/-- Whether the owner a binding names is right for its type (R69): reason 0x06 otherwise. -/
def ownerOk (i : Image) (b : Binding) : Bool :=
  let t := pointType b.point
  let exists_ : Bool := match b.owner with
    | none => false
    | some o => (decide (o.kind = 0) && (taskIn i o.number).isSome) || (decide (o.kind = 1) && decide (o.number < 256) && decide (t = 4))
  if isOutputType t then exists_
  else if t = 9 then
    b.owner.isNone || (exists_ && (decide (3 ≤ fld b.point 3 0 ∧ fld b.point 3 0 ≤ 9) || decide (fld b.point 3 0 = 15)))
  else b.owner.isNone

/-- Slots named as owner of more than one point (R215). -/
def slotsOnce (i : Image) : Bool :=
  distinct ((i.bindings.filterMap (fun b => b.owner)).filterMap (fun o => if o.kind = 1 then some o.number else none))

/-- Every point named in IN_POINT of a slot in a mode other than off is bound (R221). -/
def slotInputsBound (s : State) (i : Image) : Bool :=
  (List.range 256).all fun k =>
    decide (slotMode s k = 0) || decide (fld (s.win .loop (k * 8) 1) 31 28 ≠ 2) || (bindingIn i (s.win .loop (k * 8) 2)).isSome

/-! ### Station payloads (R301, R302) -/

/-- Bindings in ascending local point. -/
def insertBinding (b : Binding) : List Binding → List Binding
  | [] => [b]
  | x :: rest => if pointLocal b.point ≤ pointLocal x.point then b :: x :: rest else x :: insertBinding b rest

/-- The bindings of station `n` in ascending local point. -/
def stationBindings (i : Image) (n : Nat) : List Binding :=
  (i.bindings.filter fun b => pointStation b.point = n).foldr insertBinding []

/-- Boolean, four-byte and type 0x8 points of a direction, each in ascending local point (R301). -/
def directionPoints (i : Image) (n : Nat) (out : Bool) : List Binding × List Binding × List Binding :=
  let l := (stationBindings i n).filter fun b => isOutputType (pointType b.point) == out
  (l.filter fun b => pointType b.point = 1 ∨ pointType b.point = 2,
   l.filter fun b => pointType b.point ≠ 1 ∧ pointType b.point ≠ 2 ∧ pointType b.point ≠ 8,
   l.filter fun b => pointType b.point = 8)

/-- Bytes of the boolean part: one bit each, padded to four bytes (R301). -/
def boolBytes (n : Nat) : Nat := (n + 31) / 32 * 4

/-- Bytes of a payload in one direction (R301). -/
def payloadSize (i : Image) (n : Nat) (out : Bool) : Nat :=
  let p := directionPoints i n out
  boolBytes p.1.length + 4 * p.2.1.length + 12 * p.2.2.length

/-- Frames of a payload: at most 1,472 bytes each (R301). -/
def payloadFrames (i : Image) (n : Nat) (out : Bool) : Nat := (payloadSize i n out + 1471) / 1472

/-- Remote stations that the image binds. -/
def stationsOf (i : Image) : List Nat := ((i.bindings.map fun b => pointStation b.point).filter (· ≠ 0)).eraseDups

/-- The QSP load of a direction in bit/s (R302). -/
def qspLoad (i : Image) (out : Bool) : Nat :=
  ((stationsOf i).map fun n => (payloadSize i n out + 76 * payloadFrames i n out) * 8000).foldl (· + ·) 0

/-- The payloads keep to 16 streams and the load to 8 Gb/s in each direction (R301, R302). -/
def networkFits (i : Image) : Bool :=
  (stationsOf i).all (fun n => decide (payloadFrames i n true ≤ 16) && decide (payloadFrames i n false ≤ 16)) &&
    decide (qspLoad i true ≤ 8000000000) && decide (qspLoad i false ≤ 8000000000)

/-- NET.QSP_LOAD_ADMIT of an image: output and input in Mb/s. -/
def loadWord (i : Image) : Word := BitVec.ofNat 32 (qspLoad i true / 1000000 * 65536 + qspLoad i false / 1000000)

/-- The first output point bound twice, with its two owners (check 4). -/
def doubleOwner : List Binding → Option (Word × Owner × Owner)
  | [] => none
  | b :: rest =>
    if isOutputType (pointType b.point) ∨ pointType b.point = 9 then
      match b.owner, rest.find? (fun c => decide (c.point = b.point) && c.owner.isSome) with
      | some o, some c => some (b.point, o, c.owner.getD o)
      | _, _ => doubleOwner rest
    else doubleOwner rest

/-- A reference bound twice without a second owner (R354). -/
def boundTwice : List Binding → Bool
  | [] => false
  | b :: rest => rest.any (fun c => decide (c.point = b.point) && decide (c.owner = b.owner)) || boundTwice rest

/-- The first budget entry that breaks Table FX-5, a repeated task number included, with the reason (R71). -/
def firstBudgetFault : List Budget → List Nat → Option (Nat × Budget)
  | [], _ => none
  | b :: rest, seen =>
    match budgetFault b with
    | some r => some (r, b)
    | none => if seen.contains b.task then some (0x04, b) else firstBudgetFault rest (b.task :: seen)

/-- Checks 1 to 4 of Table FX-8. -/
def admitForm (s : State) (b : Nat) (i : Image) : Option AdmitRefusal :=
  let bad (r : Nat) : Option AdmitRefusal := some { status := .badParameter, reason := r }
  let rtk := fld (s.reg (UPD.C_STATE 2)) 15 0
  if 2097152 < i.retentiveSize ∨ 1048576 < imagePoints i ∨ 262144 < i.bindings.length then bad 0x05
  else
    match firstBudgetFault i.budgets [] with
    | some (r, f) => some { status := .badParameter, reason := r, task := f.task, core := f.core }
    | none =>
      if 16 < i.budgets.length then bad 0x04
      else if !(i.bindings.all (fun x => pointValid x.point) && networkFits i) then bad 0x05
      else if !(i.bindings.all (fun x => pointTypeOk s x.point && ownerOk i x)) ∨ boundTwice i.bindings ∨ !(slotsOnce i) ∨ !(slotInputsBound s i) then bad 0x06
      else if 256 < (i.budgets.map (·.quota)).foldl (· + ·) 0 then bad 0x0B
      else if rtk < fld (s.reg (IMG.B_RTK_IF b)) 31 16 ∨ fld (s.reg (IMG.B_RTK_IF b)) 15 0 < rtk then
        some { status := .incompatible, reason := 0x07 }
      else
        match i.budgets.find? (fun t => decide (t.flags % 2 = 1) && s.lock.split.getLsbD t.core) with
        | some t => some { status := .incompatible, reason := 0x08, task := t.task, core := t.core }
        | none =>
          match doubleOwner i.bindings with
          | some (p, o1, o2) =>
            some { status := .resourceConflict, reason := 0x09, value := p.toNat, limit := ownerCode o1 * 65536 + ownerCode o2 }
          | none =>
            (i.bindings.filterMap (fun x => (otherOwner s x.point).bind fun o => (x.owner.filter (· ≠ o)).map fun w => (x.point, o, w))).head?.map
              fun c => { status := .resourceConflict, reason := 0x09, value := c.1.toNat,
                         limit := ownerCode c.2.1 * 65536 + ownerCode c.2.2 }

/-- The effective budget of a task (R75), in ns. -/
def taskCost (b : Budget) : Nat := b.budget + 120

/-- Check 5: the first F task at which the demand of the F tasks crosses 6,700 ns, with the whole demand. -/
def fCross : List Budget → Nat → Option Nat
  | [], _ => none
  | b :: rest, sum =>
    if b.cls = 0 then (if 6700 < sum + (taskCost b) then some b.task else fCross rest (sum + (taskCost b))) else fCross rest sum

/-- The demand of a task and the tasks above it in `n` frames (R75). -/
def demand (b : Budget) (higher : List Budget) (n : Nat) : Nat :=
  (taskCost b) + (higher.map (fun h => ((n + (taskPeriod h) - 1) / (taskPeriod h)) * (taskCost h))).foldl (· + ·) 0

/-- The smallest number of frames from `n` on whose windows hold the demand; 0 when none of the next `fuel` does (R75). -/
def responseFrom (b : Budget) (higher : List Budget) : Nat → Nat → Nat
  | 0, _ => 0
  | fuel + 1, n => if demand b higher n ≤ n * 6700 then n else responseFrom b higher fuel (n + 1)

/-- Check 6 over the tasks of a core pair in priority order: the response times, or the first task without one. -/
def responses : List Budget → List Budget → List (Nat × Nat) → Except Budget (List (Nat × Nat))
  | [], _, acc => .ok acc
  | b :: rest, higher, acc =>
    match responseFrom b higher (taskLimit b) 1 with
    | 0 => .error b
    | n => responses rest (higher ++ [b]) (acc ++ [(b.task, n)])

/-- The utilisation of a core pair in 0.01%, rounded up (R76): c / (0.67 × period) of each task over a common denominator. -/
def utilisation (tasks : List Budget) : Nat :=
  let exact := tasks.foldl
    (fun (a : Nat × Nat) b => (a.1 * (6700 * taskPeriod b) + taskCost b * 10000 * a.2, a.2 * (6700 * taskPeriod b))) (0, 1)
  (exact.1 + exact.2 - 1) / exact.2

/-- Checks 5 to 7 for one core pair. -/
def admitCore (s : State) (i : Image) (core : Nat) : Except AdmitRefusal (List (Nat × Nat) × Nat) :=
  let tasks := tasksOf i core
  let fsum := ((tasks.filter (fun b => b.cls = 0)).map taskCost).foldl (· + ·) 0
  match fCross tasks 0 with
  | some t => .error { status := .budgetExceeded, reason := 0x01, task := t, core := core, value := fsum, limit := 6700 }
  | none =>
    match responses tasks [] [] with
    | .error b =>
      .error { status := .budgetExceeded, reason := 0x02, task := b.task, core := core,
               value := demand b (tasks.takeWhile (fun x => decide ((taskLevel x) < (taskLevel b)))) (taskLimit b), limit := (taskLimit b) * 6700 }
    | .ok r =>
      let u := utilisation tasks
      let lim := (s.reg IMG.UTIL_LIMIT).toNat
      if lim < u then .error { status := .budgetExceeded, reason := 0x03, core := core, value := u, limit := lim }
      else .ok (r, u)

/-- Admission of the image in bank `b` (Table FX-8). -/
def admitImage (s : State) (b : Nat) (i : Image) : Except AdmitRefusal Admitted :=
  match admitForm s b i with
  | some r => .error r
  | none =>
    match admitCore s i 0, admitCore s i 1 with
    | .ok (r0, u0), .ok (r1, u1) => .ok { resp := r0 ++ r1, util0 := u0, util1 := u1, load := loadWord i }
    | .error e, .ok _ => .error e
    | .ok _, .error e => .error e
    | .error e0, .error e1 => .error (if e1.reason < e0.reason then e1 else e0)

/-- The words stored from a start address on. -/
def State.setRegs (s : State) (a : Nat) : List Word → State
  | [] => s
  | v :: rest => (s.setReg a v).setRegs (a + 1) rest

/-- IMG.RESP for all sixteen tasks (R77). -/
def respWords (r : List (Nat × Nat)) : List Word :=
  (List.range 16).map fun t => BitVec.ofNat 32 (((r.find? (fun x => x.1 = t)).map (·.2)).getD 0)

/-- The result of an admission written to the IMG registers (R77), with event 0x2202 or 0x2201. `st` is the bank state after success. -/
def State.writeAdmission (s : State) (b st : Nat) (r : Except AdmitRefusal Admitted) : State :=
  match r with
  | .ok a =>
    ((((s.setBankState b st).setRegs (IMG.RESP 0) (respWords a.resp)).setReg (IMG.B_UTIL b)
      (BitVec.ofNat 32 (a.util1 * 65536 + a.util0))).setReg NET.QSP_LOAD_ADMIT (a.load)).raiseBlock 0x2202
  | .error e =>
    ((((s.setBankState b 5).setReg IMG.ADMIT_RESULT
      (BitVec.ofNat 32 (e.status.code * 16777216 + e.reason * 65536 + e.task * 256 + e.core))).setReg IMG.ADMIT_VALUE
      (BitVec.ofNat 32 e.value)).setReg IMG.ADMIT_LIMIT (BitVec.ofNat 32 e.limit)).incReg IMG.REFUSE_COUNT |>.raiseBlock 0x2201

/-! ### What the registers show of the running image (Tables FX-19 and FX-20) -/

/-- The TASK registers of a task that is in the image. -/
def State.showTask (s : State) (b : Budget) : State :=
  ((s.setReg (TASK.CFG b.task)
    (BitVec.ofNat 32 (2147483648 + (b.flags % 2) * 1073741824 + b.core * 268435456 + b.cls * 16777216 + b.rank * 1048576 + (taskLimit b)))).setReg
    (TASK.BUDGET b.task) (BitVec.ofNat 32 b.budget)).setReg (TASK.INTERARRIVAL b.task) (BitVec.ofNat 32 (taskPeriod b))

/-- The TASK registers of a list of tasks. -/
def State.showTasks (s : State) : List Budget → State
  | [] => s
  | b :: rest => (s.showTask b).showTasks rest

/-- The addresses of the eight registers of each task that the image does not hold (R101: they read 0). -/
def absentTaskRegs (i : Image) : List Nat :=
  ((List.range 16).filter (fun t => (taskIn i t).isNone)).flatMap fun t => (List.range 8).map (fun k => TASK.CFG t + k)

/-- The core map of IMG.CORE_MAP. -/
def coreMap (i : Image) : Nat :=
  (List.range 16).foldl (fun a t => a + (match taskIn i t with
    | some b => b.core
    | none => 3) * 4 ^ t) 0

/-- The registers that describe the running image (R101, R102), admitted or not. -/
def State.showImage (s : State) (i : Image) : State :=
  let s1 := (s.zeroRegs (absentTaskRegs i)).showTasks i.budgets
  let s2 := ((s1.setReg IMG.POINTS (BitVec.ofNat 32 i.bindings.length)).setReg IMG.PI_SIZE (BitVec.ofNat 32 (imagePoints i))).setReg
    IMG.RET_SIZE (BitVec.ofNat 32 i.retentiveSize)
  let safety := (i.budgets.filter (fun b => b.flags % 2 = 1)).foldl (fun a b => a + 2 ^ b.task) 0
  let s3 := ((s2.setReg IMG.STATIONS (BitVec.ofNat 32 (imageStations i))).setReg IMG.SAFETY (BitVec.ofNat 32 safety)).setReg
    IMG.CORE_MAP (BitVec.ofNat 32 (coreMap i))
  s3.setReg FRAME.UTIL_ADMIT (s3.reg (IMG.B_UTIL s3.frame.runBank))

end Sys2Proof.Machine
end

