-- ==== Sys2Proof/Machine/Points.lean ====
section
/-!
DEFINITION. The process image (R68, R88, R89, R311, R350, R542): point values, hem, forces, substitute policies.
-/

namespace Sys2Proof.Machine

open Reg

/-- A point of the process image. -/
def State.point (s : State) (p : Word) : PointVal := sparseGet {} s.frame.points p.toNat

/-- A point replaced. -/
def State.setPoint (s : State) (p : Word) (v : PointVal) : State :=
  s.updFrame fun f => { f with points := sparseSet {} f.points p.toNat v }

/-- The force on a point, if any (R350). -/
def State.force (s : State) (p : Word) : Option Word := sparseFind s.frame.forces p.toNat

/-- What an output point is committed as: its hem value while hem applies or its owner has not committed since the run tick, else its
force, else its owner's value (R89, R350, Table FX-12). -/
def outputValue (s : State) (b : Binding) : Word :=
  let v := s.point b.point
  if hemNow s || !v.committed then hemOf s b
  else (s.force b.point).getD v.own

/-- The owner of a point gives it a value (a task's write at its commit, a loop slot's output). -/
def State.ownPoint (s : State) (p : Word) (v : Word) : State :=
  s.setPoint p { s.point p with own := v, committed := true }

/-- The output points of the running image. -/
def State.outputs (s : State) : List Binding :=
  match s.image with
  | none => []
  | some i => i.bindings.filter (fun b => isOutputType (pointType b.point))

/-- Every output of a list committed. -/
def State.commitOutputs (s : State) : List Binding → State
  | [] => s
  | b :: rest => (s.setPoint b.point { s.point b.point with value := outputValue s b, bad := false }).commitOutputs rest

/-- No output counts as committed by its owner (Table FX-12, at the run tick). -/
def uncommitted (m : List (Nat × PointVal)) : List (Nat × PointVal) := sparseMap {} (fun v => { v with committed := false }) m

/-- An input point's value as a bad-quality input takes it (R311, R542): its policy, or 0 when it has never held a good value. -/
def substitute (s : State) (b : Binding) : Word :=
  let v := s.point b.point
  match b.policy with
  | .holdLast => if v.ever then v.own else 0
  | .fixed w => w
  | .hem => b.hem

/-- An input point receives a good value; a force replaces it (R350). For an input, `own` is the last good value. -/
def State.inputGood (s : State) (p v : Word) (stamp : Nat) : State :=
  s.setPoint p { value := (s.force p).getD v, own := v, stamp := stamp, bad := false, ever := true }

/-- An input point carries bad quality and takes its substitute (R311). -/
def State.inputBad (s : State) (b : Binding) : State :=
  s.setPoint b.point { s.point b.point with value := (s.force b.point).getD (substitute s b), bad := true }

/-- A point that an image binds afresh (R110, R542): an output stands at its hem value, an input at its substitute with bad quality. -/
def State.freshPoint (s : State) (b : Binding) : State :=
  if isOutputType (pointType b.point) then s.setPoint b.point { s.point b.point with value := hemOf s b, bad := false } else s.inputBad b

/-- Every point of a list bound afresh. -/
def State.freshPoints (s : State) : List Binding → State
  | [] => s
  | b :: rest => (s.freshPoint b).freshPoints rest

/-- The value of a point as a task or POINT_READ sees it: a slot word as its window shows it (R205, R349), any other as the process image has
it. -/
def pointNow (s : State) (p : Word) : Word :=
  if pointType p = 9 then s.pageWord (pointLocal p / 16) 0 (pointLocal p % 16) else (s.point p).value

/-- The bound points with their values. -/
def pointsNow (s : State) : List (Word × Word) :=
  match s.image with
  | none => []
  | some i => i.bindings.map fun b => (b.point, pointNow s b.point)

/-- An input of the running image takes a value, good or bad, when the image binds it; otherwise nothing is stored. -/
def State.feed (s : State) (p : Word) (v : Option (Word × Nat)) : State :=
  match s.binding p, v with
  | some _, some (w, t) => s.inputGood p w t
  | some b, none => s.inputBad b
  | none, _ => s

/-- A reference to a local point of station 0. -/
def localPoint (type l : Nat) : Word := BitVec.ofNat 32 (type * 268435456 + l)

/-- Quality of a point as POINT_READ reports it (R349): 0 good, 1 bad, 2 forced, 3 not bound. -/
def pointQuality (s : State) (p : Word) : Nat :=
  if (s.binding p).isNone then 3
  else if (s.force p).isSome ∧ ¬ (isOutputType (pointType p) ∧ hemNow s) then 2
  else b2n (s.point p).bad

end Sys2Proof.Machine
end

