-- ==== Sys2Proof/Machine/Tasks.lean ====
section
/-!
DEFINITION. Tasks (R61 to R68, R78, R79, R85): releases, the compute window, completion, overruns and the collection of outputs.
-/

namespace Sys2Proof.Machine

open Reg

/-- The time base moved to a phase of the frame in progress, given in ns from t0 (Table FX-1). -/
def State.phase (s : State) (ns : Nat) : State := s.advanceTo (s.frame.t0 + ns * nsUnits)

/-- The number of the frame in progress since the TAI epoch. -/
def State.frameNo (s : State) : Nat := s.frame.t0 / frameUnits

/-- The time index of class `c` in the frame in progress (R65). -/
def State.timeIndex (s : State) (c : Nat) : Nat := s.frameNo / classFrames c % 4294967296

/-- A cycle of class `c` begins at the frame tick in progress (R65); a step frame starts none but an F cycle, as its tick is no multiple
of a class period (R25). -/
def State.cycleStarts (s : State) (c : Nat) : Bool :=
  decide (s.frameNo % classFrames c = 0) && (decide (c = 0) || decide (s.frame.t0 % frameUnits = 0))

/-- The module runs tasks: in RUN, or as a tracking module from its join on (R61, R288); after a comparator fault it runs none (R233). -/
def State.executing (s : State) : Bool :=
  !s.regBit LOCK.STATUS 31 && (decide (s.mode = .run) || (decide (s.role = .track) && decide (7 ≤ s.pair.phase) && decide (s.pair.partnerMode = .run)))

/-- The E-task bookkeeping of task `t`. -/
def State.eTask (s : State) (t : Nat) : ETask := sparseGet {} s.frame.eTasks t

/-- The E-task bookkeeping of task `t` replaced. -/
def State.setETask (s : State) (t : Nat) (e : ETask) : State :=
  s.updFrame fun f => { f with eTasks := sparseSet {} f.eTasks t e }

/-- A task released at the frame tick in progress (R66, R85): its instance, with the first-scan flag when it is its first. -/
def State.release (s : State) (b : Budget) (stamp : Option Instant) : State :=
  let inst : TaskInstance :=
    { task := b.task, index := if b.cls = 6 then s.timeIndex 0 else s.timeIndex b.cls, released := s.frame.t0,
      commitFrame := s.frameNo + taskLimit b - 1, stamp := stamp, firstScan := s.frame.firstScan.contains b.task }
  (s.updFrame fun f =>
    { f with instances := f.instances ++ [inst], firstScan := f.firstScan.filter (· ≠ b.task) }).incReg (TASK.RELEASES b.task)

/-- Whether an E-task release is held for a switch whose tick is fixed (R116). -/
def heldForSwitch (s : State) (b : Budget) : Bool :=
  match s.frame.sw with
  | some w =>
    match w.tick with
    | some t => decide (t / frameUnits ≤ s.frameNo + taskLimit b - 1)
    | none => false
  | none => false

/-- The releases of an E task that are due, at the frame tick in progress (R67): the first is made, or those due are held for a switch (R116). -/
def State.releaseE (s : State) (b : Budget) : State :=
  let e := s.eTask b.task
  match e.due with
  | [] => s
  | r :: rest =>
    if r.frame ≤ s.frameNo then
      if heldForSwitch s b then s.setETask b.task { e with due := rest, held := e.held ++ [r] }
      else (s.setETask b.task { e with last := some s.frameNo, due := rest }).release b r.stamp
    else s

/-- The tasks whose cycles start at the tick, and the E tasks that are due, released (R66, R67). -/
def State.releaseTasks (s : State) : List Budget → State
  | [] => s
  | b :: rest =>
    (if b.cls = 6 then s.releaseE b else if s.cycleStarts b.cls then s.release b none else s).releaseTasks rest

/-- The frame of the last release of an E task, one that is set or held included (R67). -/
def ETask.latest (e : ETask) : Option Nat :=
  match (e.held ++ e.due).getLast? with
  | some r => some r.frame
  | none => e.last

/-- A releasing event of an E task (R67) whose first frame tick is that of frame `next`: its release is set for the first tick from there on at which
the interarrival has passed; a deferral raises event 0x2104, and a further event during it merges into it and is counted. -/
def State.eventForTask (s : State) (b : Budget) (stamp : Option Instant) (next : Nat) : State :=
  let e := s.eTask b.task
  if e.due.any (·.deferred) then s.satRegFld (TASK.FAULTS b.task) 31 16
  else
    match e.latest with
    | none => s.setETask b.task { e with due := [{ frame := next, stamp := stamp }] }
    | some l =>
      if l + b.interarrival ≤ next then s.setETask b.task { e with due := e.due ++ [{ frame := next, stamp := stamp }] }
      else
        (s.setETask b.task { e with due := e.due ++ [{ frame := l + b.interarrival, stamp := stamp, deferred := true }] }).raise 0x2104 b.task

/-- A releasing event for task `t` of the running image; nothing happens when it is not an E task there. -/
def State.eEvent (s : State) (t : Nat) (stamp : Option Instant) (next : Nat) : State :=
  match s.image.bind (fun i => taskIn i t) with
  | some b => if b.cls = 6 then s.eventForTask b stamp next else s
  | none => s

/-- A core pair runs no tasks: in HOLD, where LOCK.HOLD_PAIRS selects it (R86, R248), and after a comparator fault (R233). -/
def pairStands (s : State) (core : Nat) : Bool :=
  s.regBit LOCK.STATUS 31 || (decide (s.mode = .hold) && bit (s.reg LOCK.HOLD_PAIRS) core)

/-- The highest-priority instance of a core pair that is neither complete nor stopped (R66); none on a pair that stands. -/
def nextToRun (s : State) (core : Nat) : Option Nat :=
  match s.image with
  | none => none
  | some i =>
    if pairStands s core then none
    else ((tasksOf i core).map (·.task)).find? fun t =>
      s.frame.instances.any fun x => decide (x.task = t) && !x.done && !x.stopped

/-- The core pairs take up their highest-priority ready tasks. -/
def State.dispatch (s : State) : State :=
  s.updFrame fun f => { f with run0 := nextToRun s 0, run1 := nextToRun s 1 }

/-- The instances of task `t` changed by `f`. -/
def State.updInstance (s : State) (t : Nat) (g : TaskInstance → TaskInstance) : State :=
  s.updFrame fun f => { f with instances := f.instances.map (fun x => if x.task = t then g x else x) }

/-- The result of a decided overrun (Table FX-9), taken at the next frame tick (R80); SAFE outweighs OUT, and a decision after SAFE or OUT was
entered changes nothing (R79). -/
def State.decideOverrun (s : State) (r : OverrunResult) : State :=
  if s.mode = .safe ∨ s.role = .out then s
  else
  let old := s.frame.decision
  let new := match old, r with
    | some .safeCommon, _ => OverrunResult.safeCommon
    | some .safeLone, .out => OverrunResult.safeLone
    | _, x => x
  let s1 := s.putReg MODE.OVR_INFO 23 20 (match r with
    | .out => 1
    | _ => 2)
  let s2 := s1.raiseBlock (match r with
    | .out => 0x2102
    | _ => 0x2103)
  s2.updFrame fun f => { f with decision := some new }

/-- The partner takes part in overrun decisions: it is STANDBY or ACTIVE and not presumed failed (Table FX-9). -/
def partnerShares (s : State) : Bool :=
  !s.pair.partnerFailed && (decide (s.pair.partnerRole = .standby) || decide (s.pair.partnerRole = .active))

/-- A fixed switch notes an overrun of an instance whose commit frame is its switch frame (R122). -/
def markOverrun (commitFrame : Nat) (w : Switch) : Switch :=
  match w.tick with
  | some t => if (commitFrame + 1) * frameUnits = t then { w with overrun := true } else w
  | none => w

/-- An overrun of an instance (R78, R79): event 0x2101, counted, reported; decided at once without an eligible partner, or when the
partner has already reported the same cycle, else in its own window (Table FX-9). A tracking module that verifies decides nothing. -/
def State.overrun (s : State) (x : TaskInstance) : State :=
  let cls := ((s.image.bind (fun i => taskIn i x.task)).map (·.cls)).getD 0
  let report : Nat × Word := (cls, BitVec.ofNat 32 x.index)
  let s1 := ((s.satRegFld (TASK.FAULTS x.task) 15 0).setReg MODE.OVR_INFO
    (BitVec.ofNat 32 (cls * 268435456 + x.task * 16777216))).setReg MODE.OVR_INDEX report.2
  let s2 := (s1.raise 0x2101 x.task).updFrame fun f =>
    { f with reports := f.reports ++ [report].filter (fun r => r ∉ f.reports), sw := f.sw.map (markOverrun x.commitFrame) }
  if s.role = .track then s2
  else if (s.role = .active ∨ s.role = .standby) ∧ partnerShares s then
    if s.frame.peerReports.any (fun r => decide ((r.1, r.2.1) = report)) then s2.decideOverrun .safeCommon
    else
      s2.updFrame fun f =>
        { f with
          overruns := f.overruns ++
            [{ cls := cls, task := x.task, index := report.2, ends := f.count + s.regFld MODE.WD_CFG 3 0, commit := x.commitFrame }] }
  else s2.decideOverrun .safeLone

/-- The storage an instance number has (R107). -/
def State.storage (s : State) (n : Nat) : Option Storage := sparseFind s.frame.store n

/-- Instance storage written at the commit of the instance that computed it (R68, R85). -/
def State.writeStores (s : State) : List (Nat × Storage) → State
  | [] => s
  | (n, v) :: rest => (s.updFrame fun f => { f with store := sparseInsert f.store n v }).writeStores rest

/-! ### Timers and edge detectors (R111 to R113) -/

/-- A timer evaluated by an instance released at `now` with a preset in ns (R111, R112; notes/assumptions/110.md). The elapsed time is that from START
to the release tick. RUNNING and Q tell an on-delay or off-delay timer at rest from one that runs and one that has ended; a pulse that has ended
stays RUNNING until its input falls. -/
def evaluateTimer (t : Timer) (now : Nat) (input : Bool) (preset : Nat) : Timer :=
  let begun : Timer := { t with start := now, running := true }
  let reached (u : Timer) : Bool := decide (u.start + preset * nsUnits ≤ now)
  match t.kind with
  | 1 =>
    if !input then { t with running := false, q := false }
    else if t.q then t
    else
      let u := if t.running then t else begun
      if reached u then { u with running := false, q := true } else u
  | 2 =>
    if input then { t with running := false, q := true }
    else if !t.q then t
    else
      let u := if t.running then t else begun
      if reached u then { u with running := false, q := false } else u
  | 3 =>
    let u := if t.running then t else if input then { begun with q := true } else t
    let v := if u.q && reached u then { u with q := false } else u
    if !v.q && !input then { v with running := false } else v
  | _ => t

/-- Whether an edge detector of a type reports an edge (R113): rising, falling or both. -/
def edgeSeen (kind : Nat) (prev input : Bool) : Bool :=
  match kind with
  | 1 => !prev && input
  | 2 => prev && !input
  | 3 => prev != input
  | _ => false

/-- One evaluation carried out on the storage as the instance sees it; none when the instance cannot have had this outcome. -/
def evaluateOne (now : Nat) (m : List (Nat × Storage)) : Evaluation → Option (List (Nat × Storage))
  | .data n w =>
    match sparseFind m n with
    | some (.data old) => some (sparseInsert m n (.data (w.getD old)))
    | _ => none
  | .timer n input preset output =>
    match sparseFind m n with
    | some (.timer t) =>
      let u := evaluateTimer t now input preset
      if u.q = output then some (sparseInsert m n (.timer u)) else none
    | _ => none
  | .edge n input seen =>
    match sparseFind m n with
    | some (.edge prev k) => if edgeSeen k prev input = seen then some (sparseInsert m n (.edge input k)) else none
    | _ => none

/-- The evaluations of an instance in their order. -/
def evaluateAll (now : Nat) : List (Nat × Storage) → List Evaluation → Option (List (Nat × Storage))
  | m, [] => some m
  | m, e :: rest => (evaluateOne now m e).bind fun n => evaluateAll now n rest

/-- The instance an evaluation concerns. -/
def subjectOf : Evaluation → Nat
  | .data n _ => n
  | .timer n _ _ _ => n
  | .edge n _ _ => n

/-- The instances that evaluations concern, with their storage. -/
def evaluatedStores (m : List (Nat × Storage)) (l : List Evaluation) : List (Nat × Storage) :=
  m.filter fun x => l.any fun e => decide (subjectOf e = x.1)

/-- What an instance says it read agrees with what it sees (R68): the points as its cycle began, or its own writes. -/
def readsFit (x : TaskInstance) (r : TaskResult) : Bool :=
  r.reads.all fun p => (x.view.getD []).contains p || r.writes.contains p

/-- The committed writes of an instance: output points it owns, and slot words for the loop engine (type 0x9, R205). -/
def State.commitWrites (s : State) (t : Nat) : List (Word × Word) → State
  | [] => s
  | (p, v) :: rest =>
    let owned := match s.binding p with
      | some b => decide (b.owner = some { kind := 0, number := t })
      | none => false
    let s1 :=
      if !owned then s
      else if pointType p = 9 then
        { s with loop := { s.loop with taskWrites := s.loop.taskWrites ++ [(fld p 11 4, fld p 3 0, v)] } }
      else s.ownPoint p v
    s1.commitWrites t rest

/-- The instances whose commit frame has come: completed ones commit, the others are overruns (R68, R78). -/
def State.collect (s : State) : List TaskInstance → State
  | [] => s
  | x :: rest =>
    let s1 :=
      if x.stopped then s
      else if x.done then
        ((s.writeStores x.stores).commitWrites x.task x.writes).updFrame fun f => { f with within := f.within ||| BitVec.ofNat 16 (2 ^ x.task) }
      else s.overrun x
    s1.collect rest

/-- Step 7 of Table FX-1: the outputs of every cycle that ends in this frame are collected. -/
def State.collectEnding (s : State) : State :=
  let ending := s.frame.instances.filter (fun x => x.commitFrame ≤ s.frameNo)
  let s1 := s.updFrame fun f =>
    { f with instances := f.instances.filter (fun x => s.frameNo < x.commitFrame), within := 0 }
  s1.collect ending

/-- Execution time of an instance added for FRAME.UTIL_MEAS. -/
def State.busy (s : State) (core ns : Nat) : State :=
  s.updFrame fun f => if core = 0 then { f with busy0 := f.busy0 + ns } else { f with busy1 := f.busy1 + ns }

/-- Every unfinished instance abandoned, its writes discarded (R85). -/
def State.abandonTasks (s : State) : State :=
  s.updFrame fun f => { f with instances := [], run0 := none, run1 := none, eTasks := [] }

/-! ### Meanings -/

/-- The instance of a task that is neither complete nor stopped. -/
def openInstance (s : State) (t : Nat) : Option TaskInstance :=
  s.frame.instances.find? fun x => decide (x.task = t) && !x.done && !x.stopped

/-- A verdict on a switch is due in this frame (R123): no window opens before it is settled. -/
def verdictDue (s : State) : Bool := (s.frame.sw.bind (·.verdict)).isSome

/-- COMPUTE_WINDOW_OPEN (R62, Table FX-1): at 0.800 µs the window opens, once in a frame; the points are what the instances that begin now will see
(R68), and the highest-priority ready tasks run or resume. -/
def execComputeWindowOpen (s : State) : Host.Outcome State Fault Refusal :=
  if s.frame.stage ≠ 0 ∨ verdictDue s then .next s
  else
    let s0 := s.phase 800
    let s1 := s0.updFrame fun f =>
      { f with
        stage := 1, end0 := none, end1 := none
        instances := f.instances.map fun x => { x with view := some (x.view.getD (pointsNow s0)) } }
    .next s1.dispatch

/-- The task running on a core pair. -/
def runningOn (s : State) (core : Nat) : Option Nat := if core = 0 then s.frame.run0 else s.frame.run1

/-- The end of task activity on a core pair noted for the frame in progress. -/
def State.noteActivity (s : State) (core e : Nat) : State :=
  s.updFrame fun f => if core = 0 then { f with end0 := some e } else { f with end1 := some e }

/-- The time base in 2.5 ns ticks from t0, as far as the compute window reaches. -/
def windowTicks (s : State) : Nat :=
  let n := (s.tb.now - s.frame.t0) * 2 / (5 * nsUnits)
  if n < 320 then 320 else if 3000 < n then 3000 else n

/-- The instance of a task stopped at its budget (R78): its writes are discarded (R79), its time counts in TASK.MAX, and its core pair goes on with the
next one. -/
def State.stopAtBudget (s : State) (b : Budget) (x : TaskInstance) (e : Nat) : State :=
  let s1 := (s.busy b.core b.budget).updInstance b.task fun y => if y.done then y else { y with stopped := true }
  let s2 := (s1.setReg (TASK.MAX b.task) (maxWord (s.reg (TASK.MAX b.task)) (satWord b.budget))).noteActivity b.core e
  (s2.overrun x).dispatch

/-- What a completed instance leaves in the TASK registers (Table FX-19): its execution time and its time from the release tick. -/
def State.noteTimes (s : State) (t time resp : Nat) : State :=
  ((s.setReg (TASK.LAST t) (satWord time)).setReg (TASK.MAX t) (maxWord (s.reg (TASK.MAX t)) (satWord time))).setReg (TASK.RESP_MAX t)
    (maxWord (s.reg (TASK.RESP_MAX t)) (satWord resp))

/-- An instance completes (R68, R78): its writes and storage wait for its commit frame, and the first-scan bits of the instances it evaluated end
(R126). -/
def State.completeTask (s : State) (b : Budget) (r : TaskResult) (stores : List (Nat × Storage)) : State :=
  let s1 := s.updInstance b.task fun y =>
    if y.done ∨ y.stopped then y
    else { y with done := true, writes := r.writes, stores := stores, tacks := r.tacks, cancels := r.cancels, flags := r.flags }
  let s2 := s1.updFrame fun f =>
    { f with instanceFirst := f.instanceFirst.filter fun n => !(r.evaluations.any fun e => decide (subjectOf e = n)) }
  ((s2.noteActivity b.core r.finish).busy b.core r.time).dispatch

/-- TASK_INSTANCE_COMPLETE (R68, R78): the instance running on its core pair ends inside the compute window; within its budget it completes, beyond it
it is stopped. -/
def execTaskInstanceComplete (t : Fin 16) (r : TaskResult) (s : State) : Host.Outcome State Fault Refusal :=
  match s.image.bind (fun i => taskIn i t.val), openInstance s t.val with
  | some b, some x =>
    if s.frame.stage = 1 ∧ runningOn s b.core = some t.val ∧ 320 ≤ r.finish ∧ r.finish ≤ 3000 ∧ readsFit x r then
      match evaluateAll x.released s.frame.store r.evaluations with
      | none => .next s
      | some m =>
        let s1 := s.phase (r.finish * 5 / 2)
        if b.budget < r.time then .next (s1.stopAtBudget b x r.finish)
        else
          .next ((s1.noteTimes t.val r.time ((s.frame.t0 - x.released) / nsUnits + r.finish * 5 / 2)).completeTask b r
            (evaluatedStores m r.evaluations))
    else .next s
  | _, _ => .next s

/-- E_TASK_RELEASE_EVENT (R67): a releasing event of E task `t` arrives with its own timestamp. -/
def execETaskReleaseEvent (t : Fin 16) (stamp : Instant) (s : State) : Host.Outcome State Fault Refusal :=
  if s.executing then
    .next ((s.updFrame fun f => { f with ownItems := f.ownItems ++ [.release t.val stamp] }).eEvent t.val (some stamp) (s.frameNo + 1))
  else .next s

/-- BUDGET_STOP (R78): the instance running on its core pair stops as an overrun. -/
def execBudgetStop (t : Fin 16) (s : State) : Host.Outcome State Fault Refusal :=
  match s.image.bind (fun i => taskIn i t.val), openInstance s t.val with
  | some b, some x =>
    if s.frame.stage = 1 ∧ runningOn s b.core = some t.val then .next (s.stopAtBudget b x (windowTicks s)) else .next s
  | _, _ => .next s

/-- A core pair's end of activity recorded: FRAME.COMPUTE_END_MAX and the histogram (Table FX-18). -/
def State.noteEnd (s : State) (p : Nat) (running : Option Nat) (fin : Option Nat) : State :=
  match (if running.isSome then some 3000 else fin) with
  | none => s
  | some e =>
    let bin := if (e - 320) / 168 < 15 then (e - 320) / 168 else 15
    (s.setReg (FRAME.COMPUTE_END_MAX p) (maxWord (s.reg (FRAME.COMPUTE_END_MAX p)) (BitVec.ofNat 32 e))).incReg (FRAME.HIST p bin)

/-- COMPUTE_WINDOW_CLOSE (R62): at 7.500 µs the open window closes, and a task still running is suspended. -/
def execComputeWindowClose (s : State) : Host.Outcome State Fault Refusal :=
  if s.frame.stage ≠ 1 then .next s
  else
    let s1 := s.phase 7500
    let s2 := (s1.noteEnd 0 s.frame.run0 s.frame.end0).noteEnd 1 s.frame.run1 s.frame.end1
    .next (s2.updFrame fun f => { f with stage := 2, run0 := none, run1 := none, end0 := none, end1 := none })

end Sys2Proof.Machine
end

