-- ==== Sys2Proof/Machine/Modes.lean ====
section
/-!
DEFINITION. Run modes and pair roles (R81 to R87, R266 to R269): the one operation that changes each, what a change cancels, and the
requests for a mode.
-/

namespace Sys2Proof.Machine

open Reg

/-- The pair part of the state changed by `f`. -/
def State.updPair (s : State) (f : Pair → Pair) : State := { s with pair := f s.pair }

/-- The core-pair part of the state changed by `f`. -/
def State.updLock (s : State) (f : Lock → Lock) : State := { s with lock := f s.lock }

/-- Seconds and nanoseconds of a time value, as two fields. -/
def tickFields (t : Nat) : List Nat := [secOf t, nsOf t]

/-- The first frame tick at or after an instant. -/
def tickAtOrAfter (t : Nat) : Nat := (t + frameUnits - 1) / frameUnits * frameUnits

/-- The start of the first C2 cycle at or after an instant. -/
def c2AtOrAfter (t : Nat) : Nat := (t + 100 * frameUnits - 1) / (100 * frameUnits) * (100 * frameUnits)

/-! ### Cancelling a pending switch (R121) -/

/-- Releases of an E task set anew, as releasing events whose first frame tick is that of frame `next` or, when they were set for a later one, that
(R67, R116). -/
def State.releaseAnew (s : State) (b : Budget) (next : Nat) : List ERelease → State
  | [] => s
  | r :: rest => (s.eventForTask b r.stamp (if next < r.frame then r.frame else next)).releaseAnew b next rest

/-- The held releases of every E task go back to the old image's tasks, from the frame `next` on (R116). -/
def State.returnReleases (s : State) (next : Nat) : List (Nat × ETask) → State
  | [] => s
  | (t, e) :: rest =>
    (match s.image.bind (fun i => taskIn i t) with
      | some b => if e.held = [] then s else (s.setETask t { e with held := [], due := [] }).releaseAnew b next (e.held ++ e.due)
      | none => s).returnReleases next rest

/-- The fields of a switch notice (Table OC-6): status, reason, bank, tick, and the entries applied. -/
def switchNotice (status : Status) (reason bank : Nat) (tick : Option Nat) (counts : List Nat) : Reply :=
  { status := status, reason := reason,
    payload := [status.code, reason, bank, 0] ++ (match tick with
      | some t => tickFields t
      | none => [0, 0]) ++ counts }

/-- A pending switch is cancelled (R121): the other bank stays ADMITTED, held releases return, a still-queued tack that started it goes,
event 0x2206 is raised, and a notice with the reason of Table OC-6 is sent when IMAGE_SWITCH started it. -/
def State.cancelSwitch (s : State) (reason : Option Nat) : State :=
  match s.frame.sw with
  | none => s
  | some w =>
    let s1 := s.updFrame fun f =>
      { f with
        sw := none
        tacks := match w.tack with
          | some (id, _) => f.tacks.filter (fun t => t.id ≠ id)
          | none => f.tacks }
    let s2 := (s1.returnReleases (s.frameNo + 1) s.frame.eTasks).raiseBlock 0x2206
    match reason with
    | some r => s2.notify 0x24 w.by_ (switchNotice .wrongState r s.frame.runBank w.tick [0, 0, 0])
    | none => s2

/-! ### Run mode -/

/-- The pending change between STOP and RUN ends without effect (R83): its registers return to 0 and its notice carries WRONG_STATE. -/
def State.cancelRunChange (s : State) : State :=
  match s.frame.runChange with
  | none => s
  | some c =>
    (((s.updFrame fun f => { f with runChange := none }).setReg MODE.PEND_SEC 0).setReg MODE.PEND_NS 0).notify 0x30 c.by_
      (refusal .wrongState)

/-- The mode history and the registers of the last change (Table FX-15). -/
def State.logMode (s : State) (m : RunMode) (row : Nat) : State :=
  let h := (s.regFld MODE.HIST_PTR 3 0 + 1) % 16
  let s1 := ((s.setReg MODE.HIST_PTR (BitVec.ofNat 32 h)).setReg (MODE.HIST_INFO h)
    (BitVec.ofNat 32 (s.mode.code * 268435456 + m.code * 16777216 + s.role.code * 1048576 + row))).setReg (MODE.HIST_TIME h)
    (secWord s.tb.now)
  (((s1.setReg MODE.LAST_SEC (secWord s.tb.now)).setReg MODE.LAST_NS (nsWord s.tb.now)).incReg MODE.CHANGE_COUNT)

/-- On entry to RUN the states of every slot are +0.0 (R220). -/
def State.zeroSlots (s : State) : State :=
  { s with loop := { s.loop with slots := sparseMap {} (fun x => { x with states := List.replicate 11 0 }) s.loop.slots } }

/-- A module that enters RUN before its first step gives the step up, one that already waits for its tick included: it slews to the reference it
selected at the limit instead (R24). -/
def State.giveUpStep (s : State) : State :=
  if s.tb.stepped then s
  else
    let s1 := { s with tb := { s.tb with stepGivenUp := true, stepDue := none } }
    if s.tb.stepDue.isSome ∧ 1 ≤ s.tb.selRef ∧ s.tb.selRef ≤ 3 then s1.follow s.tb.selRef else s1

/-- What entry to RUN prepares (R85, R220, R24, Table FX-12). -/
def State.startTasks (s : State) : State :=
  let tasks := (s.image.map (fun i => i.budgets.map (·.task))).getD []
  let s0 := { s.zeroSlots with io := { s.io with loops := sparseMap {} (fun x => { x with committed := false }) s.io.loops } }
  let s1 := s0.updFrame fun f =>
    { f with
      firstScan := tasks, points := uncommitted f.points, everRun := true, instances := [], eTasks := [],
      overruns := [], decision := none, reports := [], reportNow := none }
  s1.giveUpStep

/-- Bits of LOCK.STATUS for the pairs that HOLD selects: HELD set, LOCKSTEP cleared (R248, Table LS-6). -/
def heldStatus (s : State) : Word :=
  let sel := s.regFld LOCK.HOLD_PAIRS 1 0
  let set : Word := BitVec.ofNat 32 (sel * 65536 + 32768)
  let clear : Word := BitVec.ofNat 32 (sel * 16777216 + 16384)
  (s.reg LOCK.STATUS &&& ~~~clear) ||| set

/-- Entry to HOLD (R248): the selected pairs lose lockstep, the loop engine halts, DEBUG is set, event 0x0306. -/
def State.enterHold (s : State) : State :=
  ((s.setReg LOCK.STATUS (heldStatus s)).updLock fun l => { l with heldSince := s.tb.up }).raiseBlock 0x0306

/-- The run mode changes to `m` by row `row` of Table FX-11: history, counters, event 0x0101 (and 0x0102 for SAFE), what the change
starts or abandons (R85, R86), and the pending switch it cancels (R87). -/
def State.enterMode (s : State) (m : RunMode) (row : Nat) : State :=
  if s.mode = m then s
  else
    let s1 := { s.logMode m row with mode := m }
    let s2 := s1.raiseBlock 0x0101
    let s3 := match m with
      | .run => s2.startTasks
      | .stop => s2.abandonTasks
      | .hold => s2.enterHold
      | .safe => (s2.abandonTasks).raiseBlock 0x0102
    let s4 := if s.mode = .hold then s3.updLock fun l => { l with restoring := true, debugAccess := 0 } else s3
    match m with
    | .run => s4
    | _ => s4.cancelSwitch (some 0x01)

/-- SAFE entered with a cause of Table FX-17; a pending change between STOP and RUN is cancelled (R83). -/
def State.enterSafe (s : State) (cause row : Nat) : State :=
  ((s.orReg MODE.SAFE_CAUSE (BitVec.ofNat 32 (2 ^ cause))).enterMode .safe row).cancelRunChange

/-! ### Pair role -/

/-- The pair's role history: entry 0 is the newest (Table PR-13). -/
def State.logRole (s : State) (r : Role) (cause : Nat) : State :=
  let infos := (List.range 7).map fun h => (s.reg (PAIR.HIST_INFO h), s.reg (PAIR.HIST_TIME h))
  let new : Word × Word :=
    (BitVec.ofNat 32 (s.role.code * 268435456 + r.code * 16777216 + s.mode.code * 1048576 + cause), secWord s.tb.now)
  s.setRegs (PAIR.HIST_INFO 0) ((new :: infos).flatMap (fun p => [p.1, p.2]))

/-- The mode a role change leaves behind when the new role may not hold the old one (Table FX-10, row 10 of Table FX-11). -/
def modeForRole (r : Role) (m : RunMode) : RunMode :=
  match r with
  | .init => .stop
  | .track => .stop
  | .standby => if m = .hold then .stop else m
  | .active => if m = .hold then .stop else m
  | .solo => m
  | .out => if m = .run then .stop else m

/-- The role changes to `r` by row `row` of Table PR-3; `out` is the cause of an entry into OUT (Table PR-4). The run mode follows
(R266), event 0x0201 is raised (R269), the claim is clamped in OUT, and a module that is not ACTIVE or SOLO then gives up its pending run tick
(R83). -/
def State.enterRole (s : State) (r : Role) (row : Nat) (out : Nat) : State :=
  if s.role = r then s
  else
    let track := decide (r = Role.track) && (decide (s.role ≠ .standby) || s.regBit PAIR.CFG 8)
    let s1 := { s.logRole r (if r = Role.out then out else row) with role := r }
    let s2 := s1.raiseWith 0x0201 (if r = Role.out ∨ r = Role.track then 2 else 1) 0xFFFF []
    let s3 := if r = Role.out then s2.setReg PAIR.OUT_CAUSE (BitVec.ofNat 32 out) else s2
    let s4 := s3.enterMode (modeForRole r s.mode) 10
    let s5 := s4.updPair fun p =>
      { p with
        clamped := decide (r = Role.out)
        reached := p.reached || decide (r = Role.active) || decide (r = Role.solo) || decide (r = Role.standby)
        claim := p.claim && (decide (r = Role.active) || decide (r = Role.solo) || decide (r = Role.standby))
        roleRequest := none
        phase := b2n track
        round := if r = Role.track then 1 else 0
        passedOver := 0
        trackSince := s.tb.up
        trackDue := false
        outDue := none
        grantLost := false
        mismatch := none
        unagreed := 0
        verified := false
        leverStanding := p.leverStanding && decide (r = Role.active)
        muted := p.muted && !(decide (r = Role.standby) || decide (r = Role.active) || decide (r = Role.solo)) }
    let s6 := s5.updFrame fun f => { f with autoRun := f.autoRun && !(decide (r = Role.standby) || decide (r = Role.out)) }
    let s7 := if track then s6.raiseBlock 0x020C else s6
    let s8 := if r = Role.active ∨ r = Role.solo then s7 else s7.cancelRunChange
    s8.leadTime.runBmca

/-! ### Requests for a mode (R82 to R84) -/

/-- The refusal conditions of the STOP-to-RUN row of Table FX-11, with R250. -/
def runRefused (s : State) : Bool :=
  !(decide (s.role = .active) || decide (s.role = .solo)) || !s.runnable ||
    (!s.tb.stepped && !s.regBit TB.CTRL 8) || !(s.regBit LOCK.STATUS 30) || s.lock.restoring

/-- The authority Table FX-11 gives for entering a mode from the present one. -/
def modeAuthority (s : State) (m : RunMode) : Nat :=
  match m with
  | .run => 1
  | .safe => 1
  | .hold => if s.role = .solo then 3 else 2
  | .stop => if s.mode = .hold ∨ s.mode = .safe then 2 else 1

/-- Whether the partner must confirm a tick: a STANDBY beside this ACTIVE module (R83, R118, R203). -/
def needsConfirm (s : State) : Bool := decide (s.role = .active) && decide (s.pair.partnerRole = .standby)

/-- A change between STOP and RUN accepted: the run tick is fixed, shown and sent to the STANDBY (R83). -/
def State.fixRunTick (s : State) (toRun : Bool) (by_ : Option Requester) : State :=
  let t := c2AtOrAfter (s.tb.now + 100000 * nsUnits)
  let s1 := s.updFrame fun f =>
    { f with autoRun := false, runChange := some { toRun := toRun, tick := t, by_ := by_, confirmed := !(needsConfirm s) } }
  ((s1.setReg MODE.PEND_SEC (secWord t)).setReg MODE.PEND_NS (nsWord t)).pass ([0x30, b2n toRun] ++ tickFields t)

/-- How a mode request is answered (Table FX-11, R83, R84, R119). -/
inductive ModeAnswer where
  | already
  | runTick (toRun : Bool)
  | nextTick (row : Nat)
  | refuse (st : Status)
  deriving DecidableEq, Repr

/-- The answer to a request for mode `m`: RUN and STOP are busy while a run tick is pending, before anything else (R83). -/
def modeAnswer (s : State) (m : RunMode) : ModeAnswer :=
  if !s.mayConfigure then .refuse .wrongState
  else if s.frame.runChange.isSome ∧ (m = .run ∨ m = .stop) then .refuse .busy
  else if s.mode = m then .already
  else
    match m with
    | .run =>
      if s.frame.sw.isSome then .refuse .busy
      else if s.mode ≠ .stop ∨ runRefused s then .refuse .wrongState
      else .runTick true
    | .stop =>
      if s.mode = .run then .runTick false
      else if s.mode = .safe ∧ s.reg MODE.SAFE_CAUSE ≠ 0 then .refuse .wrongState
      else .nextTick (if s.mode = .hold then 5 else 9)
    | .hold =>
      if (s.mode = .stop ∧ s.role ≠ .active) ∨ (s.mode = .run ∧ s.role = .solo) then .nextTick 4 else .refuse .wrongState
    | .safe => .nextTick 6

/-- A refused mode request: counted with its status in MODE.REFUSALS, event 0x0103 (R84). -/
def State.refuseMode (s : State) (st : Status) : State :=
  (s.setReg MODE.REFUSALS (BitVec.ofNat 32 (st.code * 16777216 + (s.regFld MODE.REFUSALS 23 0 + 1) % 16777216))).raiseBlock 0x0103

/-- A request for a mode carried out as far as acceptance goes (R82 to R84): the reply, or none when it is owed until the next frame
tick. -/
def State.requestMode (s : State) (m : RunMode) (by_ : Option Requester) : State × Option Reply :=
  match modeAnswer s m with
  | .refuse st => (s.refuseMode st, some (refusal st))
  | .already => (s, some done)
  | .runTick r => (s.fixRunTick r by_, some accepted)
  | .nextTick row =>
    (s.updFrame fun f => { f with autoRun := false, modeRequests := f.modeRequests ++ [{ mode := m, row := row, by_ := by_ }] }, none)

/-- A request that waited for this frame tick is judged again and takes effect or is refused (R81, R84): SAFE and HOLD cancel a pending run tick
(R83). -/
def State.takeRequest (s : State) (r : ModeRequest) : State :=
  match modeAnswer s r.mode with
  | .refuse st => (s.refuseMode st).lateAnswer 0x30 r.by_ (refusal st)
  | .already => s.lateAnswer 0x30 r.by_ done
  | .runTick toRun => (s.fixRunTick toRun none).lateAnswer 0x30 r.by_ done
  | .nextTick row =>
    (match r.mode with
      | .safe => s.enterSafe 2 row
      | .hold => (s.enterMode .hold row).cancelRunChange
      | m => s.enterMode m row).lateAnswer 0x30 r.by_ done

/-- The requests that wait for this frame tick, in their order. -/
def State.takeRequests (s : State) : List ModeRequest → State
  | [] => s
  | r :: rest => (s.takeRequest r).takeRequests rest

/-- The requests that wait for this frame tick taken. -/
def State.takeModeRequests (s : State) : State :=
  (s.updFrame fun f => { f with modeRequests := [] }).takeRequests s.frame.modeRequests

/-- The automatic RUN request made at a frame tick at which the module is ACTIVE or SOLO, in STOP, and nothing in Table FX-11 refuses it (R543). -/
def State.takeAutoRun (s : State) : State :=
  if s.frame.autoRun ∧ s.mode = .stop ∧ !(runRefused s) ∧ s.frame.runChange.isNone then s.fixRunTick true none else s

/-! ### Meanings -/

/-- RUN_TICK (R83): the pending change is made at its tick, or cancelled when its conditions no longer hold. -/
def execRunTick (s : State) : Host.Outcome State Fault Refusal :=
  match s.frame.runChange with
  | none => .next s
  | some c =>
    let s0 := s.advanceTo c.tick
    let leads := decide (s0.role = .active) || decide (s0.role = .solo) || decide (s0.role = .standby)
    let ok := leads && (if c.toRun then decide (s0.mode = .stop) && (decide (s0.role = .standby) || !(runRefused s0))
      else decide (s0.mode = .run))
    if ok then
      let s1 := ((s0.updFrame fun f => { f with runChange := none }).setReg MODE.PEND_SEC 0).setReg MODE.PEND_NS 0
      let s2 := if c.toRun then s1.enterMode .run 2 else s1.enterMode .stop 3
      .next (s2.notify 0x30 c.by_ { status := .done, fields := tickFields c.tick })
    else .next s0.cancelRunChange

/-- RUN_TICK_CONFIRM_DEADLINE (R83): 20 µs before the run tick, without confirmation the ACTIVE goes on alone, and the STANDBY drops to
TRACK. -/
def execRunTickConfirmDeadline (s : State) : Host.Outcome State Fault Refusal :=
  match s.frame.runChange with
  | none => .next s
  | some c =>
    let s0 := s.advanceTo (c.tick - 2 * frameUnits)
    if c.confirmed then .next s0
    else if s0.role = .standby then
      .next (s0.updPair fun p => { p with trackDue := true }).cancelRunChange
    else .next (s0.updFrame fun f => { f with runChange := some { c with confirmed := true } })

/-- MODE_SET_RUN (R83, R84). -/
def execModeSetRun (p : Pkt) (s : State) : Host.Outcome State Fault Refusal :=
  .next (s.request p 0x30 (modeAuthority s .run) false none fun t rq => t.requestMode .run (some rq))

/-- MODE_SET_STOP (R83, R84). -/
def execModeSetStop (p : Pkt) (s : State) : Host.Outcome State Fault Refusal :=
  .next (s.request p 0x30 (modeAuthority s .stop) false none fun t rq => t.requestMode .stop (some rq))

/-- MODE_SET_HOLD (R84, R86). -/
def execModeSetHold (p : Pkt) (s : State) : Host.Outcome State Fault Refusal :=
  .next (s.request p 0x30 (modeAuthority s .hold) false none fun t rq => t.requestMode .hold (some rq))

/-- MODE_SET_SAFE (R84). -/
def execModeSetSafe (p : Pkt) (s : State) : Host.Outcome State Fault Refusal :=
  .next (s.request p 0x30 (modeAuthority s .safe) false none fun t rq => t.requestMode .safe (some rq))

/-- A fatal fault of the control runtime (row 8 of Table FX-11): RUN or HOLD becomes SAFE at the next frame tick, cause RUNTIME_FATAL. -/
def State.runtimeFatal (s : State) : State :=
  if s.mode = .run ∨ s.mode = .hold then (s.advanceTo (tickAtOrAfter s.tb.now)).enterSafe 3 8 else s

/-- RUNTIME_FATAL_FAULT (R84). -/
def execRuntimeFatalFault (s : State) : Host.Outcome State Fault Refusal := .next s.runtimeFatal

/-- IMAGE_INTEGRITY_FAILURE (R84, row 8 of Table FX-11): the running bank failed its integrity check. -/
def execImageIntegrityFailure (s : State) : Host.Outcome State Fault Refusal :=
  if s.mode = .run ∨ s.mode = .hold then .next ((s.advanceTo (tickAtOrAfter s.tb.now)).enterSafe 4 8) else .next s

end Sys2Proof.Machine
end

