-- ==== Sys2Proof/Machine/Stations.lean ====
section
/-!
DEFINITION. Remote stations and their points (R301, R307 to R311): binding, layout, payloads.
-/

namespace Sys2Proof.Machine

open Reg

/-- The network part changed by `f`. -/
def State.updNet (s : State) (f : Net → Net) : State := { s with net := f s.net }

/-- Station `n` replaced. -/
def State.setStation (s : State) (n : Nat) (x : Station) : State :=
  s.updNet fun t => { t with stations := sparseSet {} t.stations n x }

/-- A station's state changes: the time of the change is kept (Table NW-7). -/
def State.changeStation (s : State) (n : Nat) (x : Station) : State := s.setStation n { x with changed := secWord s.tb.now }

/-- Station `n` unbound (R309). -/
def State.unbind (s : State) (n : Nat) : State :=
  if (s.station n).bound then s.changeStation n { s.station n with bound := false, absent := false, misses := 0 } else s

/-- The fields of a binding entry. -/
def bindingFields (b : Binding) : List Nat :=
  [b.point.toNat, b.hem.toNat,
    match b.owner with
    | some o => 1 + o.kind * 65536 + o.number
    | none => 0,
    match b.policy with
    | .holdLast => 0
    | .fixed v => 1 + v.toNat
    | .hem => 4294967297]

/-- LAYOUT of station `n` in an image (R301). -/
def stationLayout (i : Option Image) (n : Nat) : Word :=
  Config.layoutDigest (((i.map fun x => stationBindings x n).getD []).map bindingFields)

/-- Stations whose layout digest an image switch changes are unbound at the switch tick (R309). -/
def State.unbindChanged (s : State) (old new : Option Image) : List Nat → State
  | [] => s
  | n :: rest =>
    (if stationLayout old n ≠ stationLayout new n then s.unbind n else s).unbindChanged old new rest

/-- Boolean points fed from a payload: point `k` is bit `k`, least significant first. -/
def State.feedBools (s : State) (bytes : List Byte) (k : Nat) : List Binding → State
  | [] => s
  | b :: rest =>
    (s.inputGood b.point (BitVec.ofNat 32 (b2n ((bytes.getD (k / 8) 0).getLsbD (k % 8)))) s.tb.now).feedBools bytes (k + 1) rest

/-- Four-byte points fed from a payload. -/
def State.feedWords (s : State) (bytes : List Byte) : List Binding → State
  | [] => s
  | b :: rest => (s.inputGood b.point (BitVec.ofNat 32 (beNat (bytes.take 4))) s.tb.now).feedWords (bytes.drop 4) rest

/-- Type 0x8 points fed from a payload. -/
def State.feedStamped (s : State) (bytes : List Byte) : List Binding → State
  | [] => s
  | b :: rest =>
    let v := Config.stampedPoint (bytes.take 12)
    (if v.2.1 then s.inputGood b.point (BitVec.ofNat 32 (b2n v.1)) v.2.2 else s.inputBad b).feedStamped (bytes.drop 12) rest

/-- A station's input points take a complete payload (R301). -/
def State.feedStation (s : State) (i : Image) (n : Nat) (bytes : List Byte) : State :=
  let p := directionPoints i n false
  let nb := boolBytes p.1.length
  ((s.feedBools bytes 0 p.1).feedWords (bytes.drop nb) p.2.1).feedStamped (bytes.drop (nb + 4 * p.2.1.length)) p.2.2

/-- Every input point of a list of bindings carries bad quality and takes its substitute (R311). -/
def State.feedBad (s : State) : List Binding → State
  | [] => s
  | b :: rest => (if isOutputType (pointType b.point) then s else s.inputBad b).feedBad rest

/-- Big-endian bytes of a word (R5). -/
def wordBytes (w : Word) : List Byte :=
  [BitVec.ofNat 8 (w.toNat / 16777216), BitVec.ofNat 8 (w.toNat / 65536), BitVec.ofNat 8 (w.toNat / 256), BitVec.ofNat 8 w.toNat]

/-- Booleans packed least significant bit first into `n` bytes. -/
def packBools (v : List Bool) : Nat → List Byte
  | 0 => []
  | n + 1 => BitVec.ofNat 8 (bitsOf (v.take 8)) :: packBools (v.drop 8) n

/-- The output payload of a station (R301). -/
def outputPayload (s : State) (i : Image) (n : Nat) : List Byte :=
  let p := directionPoints i n true
  packBools (p.1.map fun b => bit (s.point b.point).value 0) (boolBytes p.1.length)
    ++ p.2.1.flatMap fun b => wordBytes (s.point b.point).value

end Sys2Proof.Machine
end

