-- ==== Sys2Proof/Machine/Switch.lean ====
section
/-!
DEFINITION. Loading, admitting and switching control images (Online Change; R74, R103 to R128, R338 to R340).
-/

namespace Sys2Proof.Machine

open Reg

/-- The SM3 digest of a bank, from IMG.B_DIGEST. -/
def State.bankDigest (s : State) (b : Nat) : BitVec 256 :=
  BitVec.ofNat 256 ((List.range 8).foldl (fun a i => a * 4294967296 + (s.reg (IMG.B_DIGEST b i)).toNat) 0)

/-- The eight words of a digest, most significant first. -/
def digestWords (d : BitVec 256) : List Word := (List.range 8).map fun i => BitVec.ofNat 32 (d.toNat / 2 ^ (32 * (7 - i)))

/-! ### Uploads -/

/-- The other bank opened for an upload (R103): its content and its claims go, its state is LOADING. -/
def State.openBank (s : State) (size : Nat) (digest : BitVec 256) : State :=
  let b := s.otherBank
  (((s.setBankImage b none).setBankState b 1).setReg (IMG.B_SIZE b) (BitVec.ofNat 32 size)).setRegs (IMG.B_DIGEST b 0)
    (digestWords digest)

/-- The session that holds the upload into a bank, if any. -/
def uploadHolder (s : State) (b : Nat) : Nat :=
  match s.qcp.handles.find? (fun h => decide (h.kind = .image b)) with
  | some h => h.session.toNat
  | none => 0

/-- IMAGE_BEGIN (R103, R338, Table FX-7). -/
def beginImage (size : Nat) (digest : BitVec 256) : Body := fun s rq =>
  if s.role = .standby then (s, some (refusal .wrongState))
  else if s.frame.sw.isSome then (s, some (refusal .busy))
  else if s.bankState s.otherBank = 1 then (s, some (refusal .busy 0 (uploadHolder s s.otherBank)))
  else if 2 ≤ s.handleCount rq.session true then (s, some (refusal .busy))
  else
    let b := s.otherBank
    let s1 := s.openBank size digest
    let r := s1.openHandle rq.session (.image b) size digest
    (r.1.pass ([0x20, size] ++ [digest.toNat]), some (doneWith [r.2.id, r.2.chunks, b]))

/-- IMAGE_BEGIN: Engineer authority; refused under the owner lock (R478). -/
def execImageBegin (p : Pkt) (size : Word) (digest : BitVec 256) (s : State) : Host.Outcome State Fault Refusal :=
  .next (s.request p 0x20 2 (s.lockBit 1) (if size.toNat = 0 ∨ 67108864 < size.toNat then some (refusal .badParameter) else none)
    (beginImage size.toNat digest))

/-- The handle of an image upload, from a session (R339): BAD_PARAMETER when it is not open or not its own. -/
def imageHandle (s : State) (id : Word) (rq : Requester) : Option (Handle × Nat) :=
  (s.handle id.toNat rq.session).bind fun h => match h.kind with
    | .image b => some (h, b)
    | _ => none

/-- IMAGE_CHUNK (R338, R339); a STANDBY takes none from a session (R104). -/
def execImageChunk (p : Pkt) (handle index : Word) (data : List Byte) (s : State) : Host.Outcome State Fault Refusal :=
  .next (s.request p 0x21 2 false none fun t rq =>
    if t.role = .standby then (t, some (refusal .wrongState))
    else
    match imageHandle t handle rq with
    | none => (t, some (refusal .badParameter))
    | some (h, _) =>
      match offerChunk h index.toNat data t.tb.up with
      | .error r => (t, some r)
      | .ok h1 => ((t.setHandle h1).pass ([0x21, index.toNat] ++ data.map (·.toNat)), some (doneWith [h1.id, h1.next])))

/-- The chunks of an upload joined in the order of their indices. -/
def joinChunks (chunks : List (Nat × List Byte)) : List Byte :=
  (chunks.foldl (fun m c => sparseInsert m c.1 c.2) ([] : List (Nat × List Byte))).flatMap (·.2)

/-- IMAGE_COMMIT (R340, R104): with chunks missing OUT_OF_SEQUENCE with NEXT; otherwise the verification starts and the upload ends. -/
def execImageCommit (p : Pkt) (handle : Word) (s : State) : Host.Outcome State Fault Refusal :=
  .next (s.request p 0x22 2 false none fun t rq =>
    if t.role = .standby then (t, some (refusal .wrongState))
    else
    match imageHandle t handle rq with
    | none => (t, some (refusal .badParameter))
    | some (h, _) =>
      if h.next < h.chunks then (t, some (refusal .outOfSequence 0 h.next))
      else
        let v : Verification := { size := h.size, digest := h.digest, bytes := joinChunks h.stored, by_ := some rq }
        (((t.dropHandle h true).updFrame fun f => { f with verification := some v }).pass [0x22], some accepted))

/-- What verification answers, in the order of R340: the reason of the refusal, or none. The sections of an enciphered image are read after its signature
has been checked, and only with a key in decryption slot 1 (R479). -/
def verifyRefusal (s : State) (v : Verification) : Option Reply :=
  if sm3 v.bytes ≠ v.digest then some (refusal .badParameter 0x01)
  else if !(headerOk v.bytes v.size) ∨ (!(imageSealed v.bytes) ∧ !(sectionsOk v.bytes v.size)) then some (refusal .badParameter 0x02)
  else if !(imageSigned s v.bytes) then some (refusal .notAuthorized 0x03)
  else if headField v.bytes 12 1 < s.regFld SEC.QIM_FLOOR 7 0 then some (refusal .replayed 0x04)
  else if imageSealed v.bytes ∧ (s.cipherKey 1).isNone then some (refusal .notAuthorized 0x05)
  else if !(sectionsOk (plainBytes s v.bytes) v.size) then some (refusal .badParameter 0x02)
  else none

/-- The registers of a bank after verification (Table FX-20). -/
def State.showBank (s : State) (b : Nat) (v : Verification) (i : Image) : State :=
  let w (from_ : Nat) : Word := BitVec.ofNat 32 (headField v.bytes from_ 4)
  let s1 := ((((s.setReg (IMG.B_SIZE b) (BitVec.ofNat 32 v.size)).setReg (IMG.B_VER b) (w 12)).setReg (IMG.B_RTK_IF b) (w 16)).setReg
    (IMG.B_BUILD b) (w 24)).setReg (IMG.B_ID b) (w 8)
  (s1.setRegs (IMG.B_DIGEST b 0) (digestWords v.digest)).setReg (IMG.B_TASKS b)
    (BitVec.ofNat 32 (i.budgets.foldl (fun a t => a ||| 2 ^ t.task) 0))

/-- IMAGE_VERIFY_COMPLETE (R340): the bank becomes VERIFIED, or EMPTY with the refusal in the notice. -/
def execImageVerifyComplete (r : ImageVerdict) (s : State) : Host.Outcome State Fault Refusal :=
  match s.frame.verification with
  | none => .next s
  | some v =>
    let b := s.otherBank
    let s0 := s.updFrame fun f => { f with verification := none, passedUpload := none }
    match verifyRefusal s v with
    | some e =>
      let s1 := s0.setBankState b 0
      let s2 := if e.reason = 0x03 then s1.orReg SEC.ALARM 1#32 else s1
      .next (s2.notify 0x22 v.by_ e)
    | none =>
      let i := imageOf s v.bytes r
      let s1 := (((s0.setBankImage b (some i)).setBankState b 2).showBank b v i).count fun c => { c with transfers := c.transfers + 1 }
      .next (((s1.incReg IMG.LOAD_COUNT).raiseQcp 0x604A ((v.by_.map (·.session)).getD 0)).notify 0x22 v.by_ done)

/-! ### Admission -/

/-- IMAGE_ADMIT (R74): accepted on a bank that is VERIFIED, ADMITTED or REFUSED. -/
def execImageAdmit (p : Pkt) (s : State) : Host.Outcome State Fault Refusal :=
  .next (s.request p 0x23 2 false none fun t rq =>
    if t.role = .standby ∨ t.bankState t.otherBank < 2 then (t, some (refusal .wrongState))
    else if t.frame.admission.isSome ∨ t.frame.sw.isSome then (t, some (refusal .busy))
    else ((t.updFrame fun f => { f with admission := some (some rq) }).pass [0x23], some accepted))

/-- The reply that an admission's result gives (R77, R327). -/
def admissionReply (s : State) (r : Except AdmitRefusal Admitted) : Reply :=
  match r with
  | .ok _ => done
  | .error e =>
    refusal e.status e.reason (match e.status with
      | .budgetExceeded => (s.reg IMG.ADMIT_RESULT).toNat
      | .resourceConflict => e.limit
      | _ => 0)

/-- Response times as two equal lists over all sixteen tasks (R104). -/
def sameResponses (a b : List (Nat × Nat)) : Bool :=
  (List.range 16).all fun t => decide ((a.find? (fun x => x.1 = t)).map (·.2) = (b.find? (fun x => x.1 = t)).map (·.2))

/-- ADMISSION_COMPLETE (R74, R77, R104): `partner` is the other module's result, when there is a pair. -/
def execAdmissionComplete (partner : Option PartnerAdmission) (s : State) : Host.Outcome State Fault Refusal :=
  match s.frame.admission, s.bankImage s.otherBank with
  | some by_, some i =>
    let b := s.otherBank
    let r := admitImage s b i
    let s1 := (s.writeAdmission b 3 r).updFrame fun f => { f with admission := none }
    let s2 := match r with
      | .error e => if e.status = Status.resourceConflict then s1.noteConflict (pointResource (BitVec.ofNat 32 e.value)) e.limit else s1
      | .ok _ => s1
    match r, partner with
    | .ok a, some q =>
      if q.ok ∧ sameResponses a.resp q.resp then .next (s2.notify 0x23 by_ done)
      else if s.role = .standby then .next (s2.setBankState b 5)
      else .next (s2.notify 0x23 by_ (refusal .incompatible))
    | _, _ => .next (s2.notify 0x23 by_ (admissionReply s2 r))
  | _, _ => .next (s.updFrame fun f => { f with admission := none })

/-! ### The switch -/

/-- How often an instance is named among the entries of given actions. -/
def named (es : List MigrationEntry) (n : Nat) (old : Bool) (actions : List Nat) : Nat :=
  es.countP fun e => actions.contains e.action && decide ((if old then e.old else e.new).toNat = n)

/-- A KEEP entry joins two instances that agree (R106). -/
def keepOk (old new : List InstanceDef) (e : MigrationEntry) : Bool :=
  decide (e.action ≠ 0) ||
    (match old.find? (fun i => i.number = e.old.toNat), new.find? (fun i => i.number = e.new.toNat) with
      | some a, some b =>
        decide (a.initial.kind = b.initial.kind) && decide (a.typeSig = b.typeSig) && decide (a.size = b.size) &&
          decide (a.retentive = b.retentive) && decide (e.kind = a.initial.kind) && decide (e.typeSig = a.typeSig) &&
          decide ((e.flags % 2 = 1) = a.retentive)
      | _, _ => false)

/-- A cold table (R106). -/
def coldTable (m : Migration) : Bool := decide (m.base = 0) && m.entries.all (fun e => decide (e.action ≠ 0))

/-- An instance number that stands for none (Table OC-2). -/
def noInstance : Word := 0xFFFFFFFF#32

/-- The order of the entries (R105): by NEW_INSTANCE, then the DROP entries by OLD_INSTANCE. -/
def entryPlace (e : MigrationEntry) : Nat := if e.action = 2 then 4294967296 + e.old.toNat else e.new.toNat

/-- A list of numbers that rises strictly. -/
def rising : List Nat → Bool
  | a :: b :: rest => decide (a < b) && rising (b :: rest)
  | _ => true

/-- The form of the MIGRATION section (R105, Tables OC-1 and OC-2): the count, the reserved fields, known actions and kinds, the markers of NEW
and DROP entries, and the order. -/
def migrationForm (m : Migration) : Bool :=
  decide (m.count = m.entries.length) && decide (m.count ≤ 1048576) && decide (m.reserved = 0) && decide (m.rest = 0) &&
    (m.entries.all fun e => decide (e.action ≤ 2) && decide (e.kind ≤ 2) && decide (e.flags ≤ 1) &&
      (decide (e.action ≠ 1) || decide (e.old = noInstance)) && (decide (e.action ≠ 2) || decide (e.new = noInstance))) &&
    rising (m.entries.map entryPlace)

/-- The check of the migration table (R106): the refusal, or none. -/
def migrationRefusal (s : State) (new : Image) : Option Reply :=
  let old := (s.image.map (·.instances)).getD []
  let m := new.migration
  let base := if s.image.isSome then s.bankDigest s.frame.runBank else 0
  if !(migrationForm m) ∨
      !(old.all (fun i => decide (named m.entries i.number true [0, 2] = 1))) ∨
      !(new.instances.all (fun i => decide (named m.entries i.number false [0, 1] = 1))) ∨
      !(m.entries.all (keepOk old new.instances)) then some (refusal .badParameter)
  else if m.base ≠ 0 ∧ m.base ≠ base then some (refusal .incompatible)
  else if coldTable m ∧ s.mode = .run then some (refusal .wrongState)
  else none

/-- An update or a trial is pending (Table OC-4, Table PR-8). -/
def updatePending (s : State) : Bool := s.trust.applying.isSome

/-- Table OC-4 in its order. `partnerBank` is the digest of the STANDBY partner's other bank when that is ADMITTED; `self` leaves out the
row of a pending switch, for the tack that started it (R120). -/
def switchRefusal (s : State) (partnerBank : Option (BitVec 256)) (self : Bool) : Option Reply :=
  match s.bankImage s.otherBank with
  | none => some (refusal .wrongState)
  | some i =>
    if s.role = .standby ∨ s.role = .track ∨ s.role = .init then some (refusal .wrongState)
    else if s.mode = .hold ∨ s.mode = .safe then some (refusal .wrongState)
    else if s.bankState s.otherBank ≠ 3 then some (refusal .wrongState)
    else if s.pair.partnerPresent ∧ s.pair.partnerRole = .track then some (refusal .wrongState)
    else if (s.frame.sw.isSome ∧ ¬ self) ∨ s.frame.runChange.isSome ∨ s.pair.handover.isSome ∨ updatePending s then
      some (refusal .busy)
    else if s.role = .active ∧ s.pair.partnerRole = .standby ∧ partnerBank ≠ some (s.bankDigest s.otherBank) then
      some (refusal .incompatible)
    else migrationRefusal s i

/-- A switch accepted: pending, and both modules prepare (R103, R118). -/
def State.startSwitch (s : State) (by_ : Option Requester) (tack : Option (Word × Nat)) : State :=
  (s.updFrame fun f => { f with sw := some { by_ := by_, tack := tack } }).pass [0x24]

/-- IMAGE_SWITCH (R117). -/
def execImageSwitch (p : Pkt) (partnerBank : Option (BitVec 256)) (s : State) : Host.Outcome State Fault Refusal :=
  .next (s.request p 0x24 2 false none fun t rq =>
    match switchRefusal t partnerBank false with
    | some r => (t, some r)
    | none => (t.startSwitch (some rq) none, some accepted))

/-- Frames of the longest class F to C5 that a task of either image uses (R115); 1 when neither uses one. -/
def longestCycle (s : State) : Nat :=
  let all := ((s.frame.bank0.map (·.budgets)).getD []) ++ ((s.frame.bank1.map (·.budgets)).getD [])
  all.foldl (fun n b => if b.cls < 6 ∧ n < classFrames b.cls then classFrames b.cls else n) 1

/-- The first switch tick at or after an instant (R115); in STOP every frame tick is one (R119). -/
def switchTickAfter (s : State) (t : Nat) : Nat :=
  let n := (if s.mode = .stop then 1 else longestCycle s) * frameUnits
  (t + n - 1) / n * n

/-- SWITCH_PREPARED (R118): both modules have prepared; the switch tick is fixed, event 0x2203, and sent to the STANDBY. -/
def execSwitchPrepared (s : State) : Host.Outcome State Fault Refusal :=
  match s.frame.sw with
  | none => .next s
  | some w =>
    if w.tick.isSome then .next s
    else if s.role = .standby then
      .next ((s.updFrame fun f => { f with sw := some { w with prepared := true } }).send .confirmed [0x24])
    else
      let earliest := s.tb.now + msUnits
      let t := switchTickAfter s (match w.tack with
        | some (_, at_) => if earliest < at_ then at_ else earliest
        | none => earliest)
      let s1 := s.updFrame fun f =>
        { f with sw := some { w with prepared := true, tick := some t, confirmed := !(needsConfirm s) } }
      .next ((s1.raiseBlock 0x2203).pass ([0x24] ++ tickFields t))

/-- SWITCH_TICK_CONFIRM_DEADLINE (R118): 20 µs before the switch tick without confirmation the ACTIVE cancels the switch. -/
def execSwitchTickConfirmDeadline (s : State) : Host.Outcome State Fault Refusal :=
  match s.frame.sw.bind (·.tick) with
  | none => .next s
  | some t =>
    let s0 := s.advanceTo (t - 2 * frameUnits)
    if (s.frame.sw.map (·.confirmed)) = some true ∨ s.role = .standby then .next s0 else .next (s0.cancelSwitch (some 0x03))

/-- SWITCH_FLIP (R122): in the guard of the switch frame the core pairs are pointed at the new image; the verdict is formed by 9.900 µs, but not
by a module with a comparator fault (R124). -/
def execSwitchFlip (acknowledged tableOk : Bool) (s : State) : Host.Outcome State Fault Refusal :=
  match s.frame.sw with
  | none => .next s
  | some w =>
    if w.tick = some (s.frame.t0 + frameUnits) ∧ s.frame.stage = 3 ∧ w.verdict = none ∧ !(s.regBit LOCK.STATUS 31) then
      let v : FlipVerdict :=
        if !acknowledged then .fail 0x10 else if !tableOk then .fail 0x11 else if w.overrun then .fail 0x12 else .ok
      .next ((s.phase 9900).updFrame fun f => { f with sw := some { w with verdict := some v } })
    else .next s

/-- Whether a module switches (Table OC-5): `partner` is the other module's verdict as it has arrived here by 0.800 µs, and `delivered` says that this
module's own has arrived there. Answers the reason of the revert, and whether the STANDBY also drops to TRACK. -/
def switchDecision (s : State) (own : FlipVerdict) (partner : Option Bool) (delivered : Bool) : Option (Nat × Bool) :=
  if s.role = .standby then
    match own, partner with
    | .ok, some true => none
    | .ok, some false => some (0x13, false)
    | .ok, none => some (0x13, true)
    | .fail r, some false => some (r, false)
    | .fail r, _ => some (r, !delivered)
  else
    match own with
    | .fail r => some (r, false)
    | .ok => if needsConfirm s ∧ partner = some false then some (0x13, false) else none

/-- The initial value of an instance (R107, R114): a timer starts at rest. -/
def freshStorage : Storage → Storage
  | .timer t => .timer { t with running := false }
  | x => x

/-- The instance storage after the switch (R107): KEEP entries keep their content, NEW ones take their initial value. -/
def migrate (old : List (Nat × Storage)) (new : Image) : List (Nat × Storage) :=
  new.instances.foldl (fun acc i =>
    match new.migration.entries.find? (fun e => decide (e.new.toNat = i.number) && decide (e.action = 0)) with
    | some e => sparseInsert acc i.number ((sparseFind old e.old.toNat).getD (freshStorage i.initial))
    | none => sparseInsert acc i.number (freshStorage i.initial)) []

/-- The part of a store that belongs to retentive instances of an image. -/
def retentivePart (i : Image) (m : List (Nat × Storage)) : List (Nat × Storage) :=
  m.filter fun x => i.instances.any fun d => decide (d.number = x.1) && d.retentive

/-! ### The retentive region (R109) -/

/-- The retentive region of the MRAM in bytes. -/
def retentiveRegion : Nat := 4194304

/-- A free piece of the region without a used one. -/
def cutPiece (free : Nat × Nat) (used : Nat × Nat) : List (Nat × Nat) :=
  let e := free.1 + free.2
  let a := if used.1 < e then used.1 else e
  let b := if used.1 + used.2 < free.1 then free.1 else used.1 + used.2
  (if free.1 < a then [(free.1, a - free.1)] else []) ++ (if b < e then [(if a < b then b else a, e - (if a < b then b else a))] else [])

/-- The pieces of the region that a placement leaves free. -/
def freePieces (placed : List (Nat × List (Nat × Nat))) : List (Nat × Nat) :=
  (placed.flatMap (·.2)).foldl (fun free u => free.flatMap fun f => if u.1 < f.1 + f.2 ∧ f.1 < u.1 + u.2 then cutPiece f u else [f])
    [(0, retentiveRegion)]

/-- `n` bytes taken from the front of free pieces: the pieces taken and those left. -/
def takeRoom : List (Nat × Nat) → Nat → List (Nat × Nat) × List (Nat × Nat)
  | free, 0 => ([], free)
  | [], _ => ([], [])
  | (o, l) :: rest, n + 1 =>
    if n + 1 < l then ([(o, n + 1)], (o + (n + 1), l - (n + 1)) :: rest)
    else
      let r := takeRoom rest (n + 1 - l)
      ((o, l) :: r.1, r.2)

/-- The placement after a switch (R109): retentive KEEP instances stay where they are, the others come into what the running image does not use. -/
def placeNew (placed : List (Nat × List (Nat × Nat))) (new : Image) : List (Nat × List (Nat × Nat)) :=
  let kept (d : InstanceDef) : Option (List (Nat × Nat)) :=
    (new.migration.entries.find? (fun e => decide (e.new.toNat = d.number) && decide (e.action = 0))).bind fun e => sparseFind placed e.old.toNat
  ((new.instances.filter (·.retentive)).foldl
    (fun (a : List (Nat × List (Nat × Nat)) × List (Nat × Nat)) d =>
      match kept d with
      | some ps => (sparseInsert a.1 d.number ps, a.2)
      | none =>
        let r := takeRoom a.2 d.size
        (sparseInsert a.1 d.number r.1, r.2)) ([], freePieces placed)).1

/-- The instances that start afresh in a new image (R107, R126). -/
def freshInstances (new : Image) : List Nat :=
  (new.migration.entries.filter (fun e => e.action = 1)).map (·.new.toNat)

/-- The task of an E task's number in the new image, if its releases go over to it (R116). -/
def heldTarget (old new : Image) (t : Nat) : Option Budget :=
  match taskIn old t, taskIn new t with
  | some a, some b => if b.cls = 6 ∧ a.source = b.source then some b else none
  | _, _ => none

/-- Event 0x2207 for every release of a list. -/
def State.dropReleases (s : State) (t : Nat) : List ERelease → State
  | [] => s
  | _ :: rest => (s.raise 0x2207 t).dropReleases t rest

/-- The releases that no longer fell before the switch, held or still set, go to the tasks of the new image, or are dropped (R116): the last release of a
task stays its last. -/
def State.moveReleases (s : State) (old new : Image) : List (Nat × ETask) → State
  | [] => s
  | (t, e) :: rest =>
    (match heldTarget old new t with
      | some b => (s.setETask t { last := e.last }).releaseAnew b s.frameNo (e.held ++ e.due)
      | none => (s.setETask t {}).dropReleases t (e.held ++ e.due)).moveReleases old new rest

/-- A tack stays in the queue over the switch (R127). -/
def tackStays (new : Image) (t : Tack) : Bool :=
  (match t.owner with
    | some o => (taskIn new o).isSome
    | none => true) &&
  (decide (t.action ≠ 3) || decide (((taskIn new t.target).map (·.cls)) = some 6))

/-- Event 0x2206 and a count for each tack the switch removes (R127). -/
def State.removeTacks (s : State) (new : Image) : List Tack → State
  | [] => s
  | t :: rest => (if tackStays new t then s else (s.raiseBlock 0x2206).incReg FRAME.TACK_CANCELLED).removeTacks new rest

/-- An empty image: what the running bank holds before any image was switched in. -/
def noImage : Image :=
  { budgets := [], bindings := [], retentiveSize := 0, instances := [], migration := { base := 0, count := 0, reserved := 0, entries := [], rest := 0 }, signer := 0 }

/-- Digital outputs and current-loop channels of station 0 that an image binds, as output points. -/
def localOutputs (i : Image) : List Word :=
  (i.bindings.map (·.point)).filter fun p =>
    decide (pointStation p = 0) && ((decide (pointType p = 2) && decide (pointLocal p < 0x20)) ||
      (decide (pointType p = 4) && decide (0x100 ≤ pointLocal p ∧ pointLocal p < 0x108)))

/-- A current-loop channel counts as not committed by its owner: it stands at its hem value until the next command (Table FX-12). -/
def State.uncommitLoop (s : State) (n : Nat) : State :=
  { s with io := { s.io with loops := sparseSet {} s.io.loops n { s.ao n with committed := false } } }

/-- The local outputs that the new image no longer binds go to hem at its first output commit (R110): digital outputs are noted, current-loop channels
count as not committed. -/
def State.unbindOutputs (s : State) (old new : Image) : State :=
  let gone := (localOutputs old).filter fun p => p ∉ localOutputs new
  let channels := gone.filterMap fun p => if pointType p = 2 then some (pointLocal p) else none
  let s1 := s.updFrame fun f =>
    { f with unbound := (f.unbound.filter fun c => localPoint 2 c ∉ localOutputs new) ++ channels.filter (fun c => c ∉ f.unbound) }
  gone.foldl (fun t p => if pointType p = 4 then t.uncommitLoop (pointLocal p - 0x100) else t) s1

/-- The instance table, the data and the queues under the new image (R107, R109, R110, R116, R125 to R127, R350): the store and the MRAM's retentive data
go over by the migration table, points and forces by reference. -/
def switchedFrame (f : Frame) (b : Nat) (old new : Image) : Frame :=
  let stays (p : Nat) : Bool := (bindingIn new (BitVec.ofNat 32 p)).isSome && (bindingIn old (BitVec.ofNat 32 p)).isSome
  { f with
    runBank := b
    sw := none
    store := migrate f.store new
    retained := retentivePart new (migrate f.retained new)
    placement := placeNew f.placement new
    instanceFirst := freshInstances new
    firstScan := (new.budgets.map (·.task)).filter (fun t => (taskIn old t).isNone || f.firstScan.contains t)
    points := f.points.filter fun p => stays p.1
    forces := f.forces.filter fun p => stays p.1
    tacks := f.tacks.filter (tackStays new) }

/-- The switch becomes final (R125 to R127, R110, R350): the bank marker, the banks' states, the storage, points, forces, E releases and
tacks follow, event 0x2204 is raised and the notice of Table OC-6 is sent. -/
def State.finalSwitch (s : State) (w : Switch) : State :=
  match s.bankImage s.otherBank with
  | none => s
  | some new =>
    let b := s.otherBank
    let old := s.image.getD noImage
    let oldState := if s.image.isSome then 3 else s.bankState s.frame.runBank
    let s1 := ((s.removeTacks new s.frame.tacks).setBankState s.frame.runBank oldState).setBankState b 4
    let s2 := (s1.updFrame fun f => switchedFrame f b old new).moveReleases old new s.frame.eTasks
    let s3 := (s2.freshPoints (new.bindings.filter fun x => (bindingIn old x.point).isNone)).unbindOutputs old new
    let count (a : Nat) : Nat := new.migration.entries.countP (fun e => e.action = a)
    let s4 := (((s3.showImage new).unbindChanged s.image (some new) (s.net.stations.map (·.1))).incReg IMG.SWITCH_COUNT).raiseBlock 0x2204
    s4.notify 0x24 w.by_ (switchNotice .done 0 b w.tick [count 0, count 1, count 2])

/-- The status that goes with a reason of Table OC-6. -/
def switchStatus (reason : Nat) : Status :=
  if reason = 0 then .done
  else if reason ≤ 0x06 then .wrongState
  else if reason = 0x12 then .budgetExceeded
  else if reason = 0x13 then .incompatible
  else .internalFault

/-- A switch reverted (R124): the old image goes on; the other bank is REFUSED after a failed flip or check; event 0x2205. -/
def State.revertSwitch (s : State) (w : Switch) (reason : Nat) : State :=
  let s1 := if reason = 0x10 ∨ reason = 0x11 then s.setBankState s.otherBank 5 else s
  let s2 := ((s1.updFrame fun f => { f with sw := none }).returnReleases s.frameNo s.frame.eTasks).raise 0x2205 s.otherBank
  s2.notify 0x24 w.by_ (switchNotice (switchStatus reason) reason s.frame.runBank w.tick [0, 0, 0])

/-- The tasks of the running image whose cycles start at the tick in progress released, when the module executes. -/
def State.releaseNow (s : State) : State :=
  if s.executing then
    match s.image with
    | some i => s.releaseTasks (tasksOf i 0 ++ tasksOf i 1)
    | none => s
  else s

/-- SWITCH_OUTCOME (R123 to R126): at 0.800 µs of the first new frame the verdicts decide; the tasks of the image that goes on are
released for the frame. -/
def execSwitchOutcome (partner : Option Bool) (delivered : Bool) (s : State) : Host.Outcome State Fault Refusal :=
  match s.frame.sw with
  | none => .next s
  | some w =>
    match w.verdict with
    | none => .next s
    | some v =>
      let s0 := s.phase 800
      match switchDecision s v partner delivered with
      | none => .next (s0.finalSwitch w).releaseNow
      | some (reason, track) =>
        let s1 := (s0.revertSwitch w reason).releaseNow
        .next (if track then s1.updPair fun p => { p with trackDue := true } else s1)

/-! ### Abort -/

/-- IMAGE_ABORT (R121, R339): handle 0 cancels a pending switch up to 20 µs before its tick; another handle ends its upload. -/
def execImageAbort (p : Pkt) (handle : Word) (s : State) : Host.Outcome State Fault Refusal :=
  .next (s.request p 0x25 2 false none fun t rq =>
    if t.role = .standby then (t, some (refusal .wrongState))
    else if handle = 0 then
      match t.frame.sw with
      | none => (t, some (refusal .wrongState))
      | some w =>
        match w.tick with
        | some tick =>
          if tick < t.tb.now + 2 * frameUnits then (t, some (refusal .wrongState)) else ((t.cancelSwitch (some 0x02)).pass [0x25], some done)
        | none => ((t.cancelSwitch (some 0x02)).pass [0x25], some done)
    else
      match imageHandle t handle rq with
      | none => (t, some (refusal .badParameter))
      | some (h, _) => ((t.dropHandle h false).pass [0x25], some done))

end Sys2Proof.Machine
end

