-- ==== Sys2Proof/Machine/Tacks.lean ====
section
/-!
DEFINITION. The tack queue (R90 to R97): scheduling, cancelling, listing, and which tacks are due.
-/

namespace Sys2Proof.Machine

open Reg

/-- A tack put at its place: by time, then by identity (R93). -/
def insertTack (t : Tack) : List Tack → List Tack
  | [] => [t]
  | x :: rest => if t.time < x.time ∨ (t.time = x.time ∧ t.id.toNat < x.id.toNat) then t :: x :: rest else x :: insertTack t rest

/-- The next identity after one: after 0xFFFF_FFFF the count continues at 1 and skips identities still queued (R90). -/
def nextTackId (queue : List Tack) : Nat → Word → Word
  | 0, i => i
  | fuel + 1, i =>
    let n : Word := if i = BitVec.allOnes 32 then 1 else i + 1
    if queue.any (fun t => t.id = n) then nextTackId queue fuel n else n

/-- The instant of a request as a time value. -/
def TackRequest.time (t : TackRequest) : Nat := t.sec * secUnits + t.ns * nsUnits + t.frac * 65536

/-- FRAME.TACK_LEAD in units of time. -/
def State.tackLead (s : State) : Nat := (s.reg FRAME.TACK_LEAD).toNat * nsUnits

/-- What check 15 finds in a tack request (R91, Table FX-13): BAD_PARAMETER with the offset of the first rejected field. -/
def tackParams (s : State) (t : TackRequest) : Option Reply :=
  let bad (o : Nat) : Option Reply := some (refusal .badParameter 0 o)
  let comp := decide (t.action = 1) && decide (t.target < 32) && s.dioBit t.target 27
  let lead := s.tackLead + (if comp then 30000 * nsUnits else 0)
  if 1000000000 ≤ t.ns then bad 8
  else if t.frac ≠ 0 ∧ t.frac ≠ 0x8000 then bad 12
  else if (2 * t.ns + t.frac / 0x8000) % 5 ≠ 0 then bad 8
  else if s.tb.quality ≠ .unset ∧ TackRequest.time t < s.tb.now + lead then bad 0
  else
    match t.action with
    | 1 => if 32 ≤ t.target then bad 15 else if 1 < t.value.toNat then bad 16 else none
    | 2 => if 8 ≤ t.target then bad 15 else if t.value.toNat = 0 ∨ 4000 < t.value.toNat then bad 16 else none
    | 3 => if 16 ≤ t.target then bad 15 else none
    | 4 => if 32 ≤ t.target then bad 15 else if 1 < t.value.toNat then bad 16 else none
    | 5 => if 3 < t.value.toNat then bad 16 else none
    | 6 => if 1 < t.target then bad 15 else none
    | _ => bad 14

/-- An enabled output that the tack queue owns (R93, R361). -/
def tackChannel (s : State) (c : Nat) : Bool := s.dioBit c 31 && s.dioBit c 30 && s.dioBit c 28

/-- What roles, the time, resources and the target's state refuse (R90, R91, R93, R95, R120). -/
def tackRefusal (s : State) (t : TackRequest) (partnerBank : Option (BitVec 256)) : Option Reply :=
  if !s.mayConfigure then some (refusal .wrongState)
  else if s.tb.quality = .unset then some (refusal .wrongState)
  else if t.action = 1 ∧ !(tackChannel s t.target) then some (refusal .wrongState)
  else if 256 ≤ s.frame.tacks.countP (fun x => x.owner.isNone) then some (refusal .busy)
  else if t.action = 6 then
    (if t.target ≠ s.otherBank then some (refusal .wrongState) else switchRefusal s partnerBank false)
  else none

/-- A tack queued under the next identity; the one of an image switch starts the preparation (R120). -/
def State.queueTack (s : State) (t : TackRequest) (id : Word) (owner : Option Nat) : State :=
  let x : Tack := { id := id, time := TackRequest.time t, action := t.action, target := t.target, value := t.value, owner := owner }
  let s1 := s.updFrame fun f => { f with tacks := insertTack x f.tacks }
  let s2 := s1.updFrame fun f => { f with nextTack := nextTackId f.tacks 512 id }
  if t.action = 6 then s2.startSwitch none (some (id, x.time)) else s2

/-- The authority of a tack request (Table QP-7): Operator; for action 0x05 that of Table FX-11; for action 0x06 Engineer. -/
def tackAuthority (s : State) (t : TackRequest) : Nat :=
  if t.action = 6 then 2
  else if t.action = 5 then
    modeAuthority s (match t.value.toNat with
      | 0 => .stop
      | 1 => .run
      | 2 => .hold
      | _ => .safe)
  else 1

/-- TACK_SCHEDULE (R90 to R95): a checked action is queued under the next identity, and passed to the STANDBY. -/
def execTackSchedule (p : Pkt) (t : TackRequest) (partnerBank : Option (BitVec 256)) (s : State) : Host.Outcome State Fault Refusal :=
  .next (s.request p 0x40 (tackAuthority s t) false none fun u rq =>
    let _ := rq
    match (tackParams u t).or (tackRefusal u t partnerBank) with
    | some r => (u.incReg FRAME.TACK_REFUSED, some r)
    | none =>
      let id := u.frame.nextTack
      ((u.queueTack t id none).pass [0x40, id.toNat, t.sec, t.ns, t.frac, t.action, t.target, t.value.toNat],
        some (doneWith [id.toNat])))

/-- A tack removed by its identity; one that started a switch cancels it (R96, R121). -/
def State.removeTack (s : State) (id : Word) : State :=
  match s.frame.sw.bind (·.tack) with
  | some (i, _) =>
    if i = id then (s.cancelSwitch none).updFrame fun f => { f with tacks := f.tacks.filter (fun t => t.id ≠ id) }
    else s.updFrame fun f => { f with tacks := f.tacks.filter (fun t => t.id ≠ id) }
  | none => s.updFrame fun f => { f with tacks := f.tacks.filter (fun t => t.id ≠ id) }

/-- TACK_CANCEL (R96). -/
def execTackCancel (p : Pkt) (id : Word) (s : State) : Host.Outcome State Fault Refusal :=
  .next (s.request p 0x41 1 false none fun u rq =>
    if !u.mayConfigure then (u, some (refusal .wrongState))
    else
      match u.frame.tacks.find? (fun t => t.id = id) with
      | none => (u, some (refusal .badParameter))
      | some t =>
        if t.owner.isSome ∧ u.sessionRole rq.session = some 1 then (u, some (refusal .notAuthorized))
        else if t.time < u.tb.now + u.tackLead then (u, some (refusal .wrongState))
        else (((u.removeTack id).incReg FRAME.TACK_CANCELLED).pass [0x41, id.toNat], some done))

/-- An entry of TACK_LIST (Table QP-7): identity, seconds, nanoseconds, fraction, action, target, value. -/
def tackEntry (t : Tack) : List Nat := [t.id.toNat, secOf t.time, nsOf t.time, fracOf t.time, t.action, t.target, t.value.toNat]

/-- TACK_LIST (R90): queued tacks with identities from the first one given, in ascending identity; at most 56. -/
def execTackList (p : Pkt) (first : Word) (s : State) : Host.Outcome State Fault Refusal :=
  .next (s.request p 0x42 0 false none fun u rq =>
    let _ := rq
    let all := (u.frame.tacks.filter (fun t => first.toNat ≤ t.id.toNat)).foldl
      (fun l t => sparseInsert l t.id.toNat t) ([] : List (Nat × Tack))
    let shown := all.take 56
    (u, some { status := .done, fields := [shown.length, ((all.drop 56).head?.map (·.1)).getD 0],
               payload := shown.flatMap (fun e => tackEntry e.2) }))

/-- A tack discarded when it falls due: counted, event 0x2012, or 0x2206 for a switch (R93, R94, R120). -/
def State.discardTack (s : State) (event : Nat) : State := (s.incReg FRAME.TACK_DISCARDED).raiseBlock event

/-- Restored tacks judged at the first frame tick with a time quality other than UNSET (R97): those whose time has passed are dropped,
counted and logged. -/
def State.judgeRestored (s : State) : State :=
  if s.frame.restored ∧ s.tb.quality ≠ .unset then
    let gone (t : Tack) : Bool := decide (t.time < s.tb.now) && s.frame.restoredIds.contains t.id
    let n := (s.frame.tacks.filter gone).length
    let s1 := s.updFrame fun f =>
      { f with tacks := f.tacks.filter (fun t => !(gone t)), restored := false, restoredIds := [] }
    (List.range n).foldl (fun t _ => t.raiseBlock 0x2013) (s1.addReg FRAME.TACK_DROPPED n)
  else s

/-- Until the restored tacks are judged, none of them executes (R97). -/
def tackReady (s : State) (t : Tack) : Bool := !(s.frame.restored && s.frame.restoredIds.contains t.id)

end Sys2Proof.Machine
end

