-- ==== Sys2Proof/Machine/Roles.lean ====
section
/-!
DEFINITION. The pair (The Redundant Pair): heartbeats and paths (R257 to R259), role transitions (R266 to R269), digest mismatch (R278),
overrun decisions from the partner's reports (R79), handover (R279, R280), the extraction lever (R270, R499, R500), tracking (R286 to
R290) and the tandem lanes (R256).
-/

namespace Sys2Proof.Machine

open Reg

/-! ### The partner as its heartbeats show it -/

/-- The partner's role as its last heartbeat shows it; none before any heartbeat, and none once it is presumed failed. -/
def State.shown (s : State) : Option Role :=
  if s.pair.heardAt.isSome ∧ ¬ s.pair.partnerFailed then some s.pair.partnerRole else none

/-- The partner's heartbeat shows ACTIVE or SOLO. -/
def State.partnerLeads (s : State) : Bool := decide (s.shown = some .active) || decide (s.shown = some .solo)

/-- The start-up test has passed since the start (LOCK.STATUS.TESTED). -/
def State.tested (s : State) : Bool := s.regBit LOCK.STATUS 30

/-- When the claim is asserted (R263). -/
def claimWanted (s : State) : Bool :=
  !s.pair.clamped && !s.lock.cutOff &&
    (match s.role with
      | .active => true
      | .solo => true
      | .standby => s.tested && !s.pair.muted && decide (s.pair.unagreed < 3)
      | _ => false)

/-- The claim dropped when its conditions no longer hold (R263); it rises only with a refresh (R260). -/
def State.dropClaim (s : State) : State := s.updPair fun p => { p with claim := p.claim && claimWanted s }

/-- The first `n` frames without a disagreement have passed (Table PR-8). -/
def State.disagreed (s : State) : State := s.updPair fun p => { p with cleanFrames := 0 }

/-! ### Handover (R279, R280) -/

/-- PAIR.HO_STATUS set: state and status of the result (Table PR-13). -/
def State.showHandover (s : State) (st : Nat) (status : Status) : State :=
  s.setReg PAIR.HO_STATUS (BitVec.ofNat 32 (st * 268435456 + status.code))

/-- A pending handover cancelled (R280): notice WRONG_STATE, event 0x0208. -/
def State.cancelHandover (s : State) : State :=
  match s.pair.handover with
  | none => s
  | some h =>
    if h.sharing then s
    else
      let s1 := s.updPair fun p =>
        { p with handover := none, hoConfirm := 0, leverOut := false, leverStanding := p.leverStanding || (h.lever && p.lever) }
      if h.giver then ((s1.showHandover 4 .wrongState).raiseBlock 0x0208).notify 0x32 h.by_ (refusal .wrongState) else s1

/-- Table PR-8 in its order. -/
def handoverRefusal (s : State) : Option Status :=
  let p := s.pair
  if s.role ≠ .active then some .wrongState
  else if s.shown ≠ some .standby ∨ p.partnerFlags.getLsbD 3 ∨ ¬ p.partnerFlags.getLsbD 4 then some .wrongState
  else if ¬ p.tandem.up ∨ ¬ p.pulse.up ∨ p.cleanFrames < 100 then some .wrongState
  else if p.handover.isSome ∨ s.frame.runChange.isSome ∨ updatePending s ∨ s.frame.sw.isSome then some .busy
  else none

/-- The handover tick fixed, shown and sent (R280). -/
def State.acceptHandover (s : State) (by_ : Option Requester) (lever : Bool) : State :=
  let h := tickAtOrAfter (s.tb.now + 1000000 * nsUnits)
  let s1 := s.updPair fun p => { p with handover := some { tick := h, by_ := by_, giver := true, lever := lever } }
  (((s1.showHandover 1 .accepted).setReg PAIR.HO_TICK_SEC (secWord h)).setReg PAIR.HO_TICK_NS (nsWord h)).pass
    ([0x32] ++ tickFields h)

/-- A handover refused: shown with its status, event 0x0208. -/
def State.refuseHandover (s : State) (st : Status) : State := (s.showHandover 5 st).raiseBlock 0x0208

/-- HANDOVER (R279, R280). -/
def execHandover (p : Pkt) (s : State) : Host.Outcome State Fault Refusal :=
  .next (s.request p 0x32 2 false none fun t rq =>
    match handoverRefusal t with
    | some st => (t.refuseHandover st, some (refusal st))
    | none => (t.acceptHandover (some rq) false, some accepted))

/-- HANDOVER_CONFIRM_DEADLINE (R280): without the STANDBY's confirmation 20 µs before H the handover is cancelled. -/
def execHandoverConfirmDeadline (s : State) : Host.Outcome State Fault Refusal :=
  match s.pair.handover with
  | none => .next s
  | some h =>
    let s0 := s.advanceTo (h.tick - 2 * frameUnits)
    if h.confirmed ∨ h.sharing then .next s0 else .next s0.cancelHandover

/-! ### Takeover and role transitions (Table PR-3) -/

/-- At a failover a module that is no PTP slave drops the foreign masters it heard, the failed ACTIVE's clock among them, and so sends Announce
and Sync from its first ACTIVE frame on (R52; notes/assumptions/106.md). -/
def State.dropHeardMasters (s : State) : State := if s.ptpSlaveMode then s else s.setMasters []

/-- TAKEOVER (R282): the STANDBY leads. -/
def State.takeOver (s : State) : State :=
  let cause := if s.pair.selfTaken then 3 else if s.pair.takeoverIn then 2 else 1
  let s1 := s.cancelHandover.enterRole .active 10 0
  let s2 := (((s1.setReg PAIR.TAKEOVER_INFO (BitVec.ofNat 32 (cause * 268435456 + satTo 65535 s.pair.gap))).setReg PAIR.TAKEOVER_SEC
    (secWord s.tb.now)).setReg PAIR.TAKEOVER_NS (nsWord s.tb.now)).incReg PAIR.FAILOVERS
  (((s2.raiseBlock 0x0206).updPair fun p => { p with selfTaken := false }).cancelSwitch none).dropHeardMasters

/-- INIT may become SOLO (Table PR-3, R254). -/
def mayGoSolo (s : State) : Bool :=
  s.regBit PAIR.CFG 31 && !(soloBlocked s) && !s.partnerLeads &&
    (decide (s.pair.posB = s.regBit PAIR.CFG 30) || decide (s.shown = some .out) || s.pair.waited)

/-- What keeps a module in INIT whatever Table PR-3 says: a failed check of R488 or R496, the tamper latch with TAMPER_ACT (R524), or a
settings store newer than the MFW (R481). -/
def keptInInit (s : State) : Bool :=
  decide (s.regFld ID.CONN_FAULT 31 28 ≠ 0) || (s.regBit LINING.BOOT_CFG_NOW 8 && s.regBit LINING.TAMPER 30) || s.trust.initHeld

/-- The rows of Table PR-3 for INIT. -/
def State.initRows (s : State) : State :=
  match s.pair.outDue with
  | some c => s.enterRole .out 2 c
  | none =>
    if s.pair.windowRefused then s.enterRole .out 3 0x0A
    else if !s.tested ∨ s.pair.baseId = 0 ∨ s.pair.baseId = 0xFFFF ∨ keptInInit s then s
    else if s.partnerLeads ∧ s.pair.partnerMode ≠ .hold ∧ ¬ s.pair.partnerSwitch then s.enterRole .track 4 0
    else if s.partnerLeads ∧ s.pair.partnerSwitch then s
    else if mayGoSolo s then s.enterRole .solo 5 0
    else s

/-- STANDBY with the partner's run mode (row 6, R82). -/
def State.becomeStandby (s : State) : State :=
  let s1 := (s.enterRole .standby 6 0).enterMode (modeForRole .standby s.pair.partnerMode) 11
  (s1.raiseBlock 0x020D).updPair fun p => { p with storedId := p.baseId }

/-- The rows of Table PR-3 for TRACK. -/
def State.trackRows (s : State) : State :=
  match s.pair.outDue with
  | some c => s.enterRole .out 9 c
  | none =>
    if s.pair.verified then s.becomeStandby
    else if !s.partnerLeads then s.enterRole .out 7 0x08
    else if s.pair.partnerMode = .hold then s.enterRole .init 8 0
    else s

/-- The rows of Table PR-3 for STANDBY. -/
def State.standbyRows (s : State) : State :=
  if s.pair.grant ∧ ¬ s.pair.grantPartner then s.takeOver
  else
    match s.pair.outDue with
    | some c => s.enterRole .out 12 c
    | none => if s.pair.trackDue ∨ 3 ≤ s.pair.unagreed then (s.enterRole .track 13 0).cancelSwitch none else s

/-- Two leaders are seen and this module holds no grant (row 14); after a handover, judged on heartbeats sent since (R266). -/
def twoLeaders (s : State) : Bool :=
  s.partnerLeads && !s.pair.grant && (match s.pair.hoFrame with
    | some f => decide (f ≤ s.pair.heardFrame)
    | none => true)

/-- The rows of Table PR-3 for ACTIVE and SOLO. -/
def State.leaderRows (s : State) : State :=
  if twoLeaders s then ((s.raiseBlock 0x0211).enterRole .out 14 0x07).cancelSwitch none
  else if s.role = .active then
    if s.pair.grantLost then ((s.raiseBlock 0x0210).enterRole .out 15 0x06).cancelSwitch none
    else
      match s.pair.outDue with
      | some c => (s.enterRole .out 16 c).cancelSwitch none
      | none =>
        if s.pair.partnerFailed ∨ s.shown = some .init ∨ s.shown = some .track ∨ s.shown = some .out then
          (s.enterRole .solo 18 0).cancelSwitch (some 0x04)
        else s
  else
    match s.pair.outDue with
    | some c => s.enterRole .out 19 c
    | none => if s.shown = some .standby then s.enterRole .active 20 0 else s

/-- The conditions of ROLE_REQUEST INIT (Table PR-3, last row). -/
def mayReturn (s : State) : Bool :=
  decide (s.role = .out) && decide (s.mode = .stop) && s.tested && !s.regBit LOCK.STATUS 31 && !s.regBit LOCK.STATUS 28

/-- A requested role is taken (R268): OUT becomes a cause of OUT, INIT the last row of Table PR-3. Answered when the change is made. -/
def State.takeRoleRequest (s : State) : State :=
  match s.pair.roleRequest with
  | none => s
  | some (r, by_) =>
    let s1 := s.updPair fun p => { p with roleRequest := none }
    if r = Role.out then
      let row := match s.role with
        | .standby => 12
        | .active => 16
        | .solo => 19
        | _ => 2
      (s1.enterRole .out row 0x0B).lateAnswer 0x31 by_ done
    else if mayReturn s then ((s1.enterRole .init 21 0).updPair fun p => { p with waited := false, testedAt := s.tb.up }).lateAnswer 0x31 by_ done
    else s1.lateAnswer 0x31 by_ (refusal .wrongState)

/-- ROLE_TRANSITION (R266): the causes of Table PR-3, in its order, for the present role; at a handover tick they rest. -/
def State.roleRows (s : State) : State :=
  if s.pair.hoFrame = some s.frameNo then s
  else
    match s.role with
    | .init => s.initRows
    | .track => s.trackRows
    | .standby => s.standbyRows
    | .active => s.leaderRows
    | .solo => s.leaderRows
    | .out => s

/-- Both paths lost: the partner is presumed failed (R259). -/
def State.presumeFailed (s : State) : State :=
  if s.pair.tandem.lost ∧ s.pair.pulse.lost ∧ ¬ s.pair.partnerFailed then
    (s.updPair fun p => { p with partnerFailed := true }).raiseBlock 0x0205
  else s

/-- Role checks of a frame tick: the partner's presumed failure, then requests and Table PR-3. -/
def State.checkRoles (s : State) : State := s.presumeFailed.takeRoleRequest.roleRows.dropClaim

/-! ### Role requests -/

/-- The authority and the status of a request for OUT (R268): from SOLO Owner, from the other roles Engineer. -/
def roleAuthority (s : State) (r : Role) : Nat := if r = Role.out ∧ s.role = .solo then 3 else 2

/-- Whether a role may be requested now (R268). -/
def roleRefused (s : State) (r : Role) : Bool :=
  match r with
  | .out =>
    (match s.role with
      | .active => decide (s.shown ≠ some .standby)
      | .out => true
      | _ => false)
  | .init => !(mayReturn s)
  | _ => true

/-- A role request accepted: it takes effect at the next frame tick. -/
def State.requestRole (s : State) (r : Role) (by_ : Option Requester) : State × Option Reply :=
  if roleRefused s r then (s, some (refusal .wrongState))
  else (s.updPair fun p => { p with roleRequest := some (r, by_) }, none)

/-- ROLE_REQUEST_OUT (R268). -/
def execRoleRequestOut (p : Pkt) (s : State) : Host.Outcome State Fault Refusal :=
  .next (s.request p 0x31 (roleAuthority s .out) false none fun t rq => t.requestRole .out (some rq))

/-- ROLE_REQUEST_INIT (R268). -/
def execRoleRequestInit (p : Pkt) (s : State) : Host.Outcome State Fault Refusal :=
  .next (s.request p 0x31 (roleAuthority s .init) false none fun t rq => t.requestRole .init (some rq))

/-- SOLO_WAIT_EXPIRY (Table PR-3): no path has carried a heartbeat for PAIR.SOLO_WAIT since the test passed; the roles are checked at
the frame tick in progress. -/
def execSoloWaitExpiry (s : State) : Host.Outcome State Fault Refusal :=
  let from_ := match s.pair.heardAt with
    | some h => if s.pair.testedAt < h then h else s.pair.testedAt
    | none => s.pair.testedAt
  let due := from_ + (s.reg PAIR.SOLO_WAIT).toNat * msUnits
  if s.role = .init ∧ s.tested then
    let s1 := if s.tb.up < due then s.advanceTo (s.tb.now + (due - s.tb.up)) else s
    .next (s1.updPair fun p => { p with waited := true }).checkRoles
  else .next s

/-! ### Paths (R258, R259) -/

/-- A path after a frame: 3 misses lose it, 10 frames without a miss restore it (R258). -/
def HeartPath.after (h : HeartPath) (good : Bool) : HeartPath :=
  if good then
    let n := h.good + 1
    { h with seen := false, misses := 0, good := n, up := h.up || decide (10 ≤ n), lost := h.lost && decide (n < 10) }
  else
    let n := h.misses + 1
    { h with seen := false, misses := n, good := 0, up := h.up && decide (n < 3), lost := h.lost || (h.up && decide (3 ≤ n)) }

/-- Tracking stops with the tandem path, and starts afresh when it is restored (R289). -/
def State.trackPath (s : State) (lost restored : Bool) : State :=
  if s.role = .track ∧ lost then s.updPair fun p => { p with phase := 0 }
  else if s.role = .track ∧ restored ∧ s.pair.phase = 0 then s.updPair fun p => { p with phase := 1, trackSince := s.tb.up }
  else s

/-- What follows from a change of the paths (R259): degraded, the events, the partner's presumed failure cleared, a pending handover
cancelled (R280). -/
def State.pathsChanged (s : State) (before : Pair) : State :=
  let p := s.pair
  let lostTandem := p.tandem.lost && !before.tandem.lost
  let lostPulse := p.pulse.lost && !before.pulse.lost
  let back := (before.tandem.lost && !p.tandem.lost) || (before.pulse.lost && !p.pulse.lost)
  let one := p.tandem.lost != p.pulse.lost
  let s1 := s.updPair fun q => { q with degraded := one, partnerFailed := q.partnerFailed && !back }
  let s2 := if one && !before.degraded && (lostTandem || lostPulse) then
      (s1.incReg PAIR.DEGRADED_COUNT).raiseBlock (if lostTandem then 0x0202 else 0x0203)
    else s1
  let s3 := if back && !p.tandem.lost && !p.pulse.lost then s2.raiseBlock 0x0204 else s2
  let s4 := if lostTandem || lostPulse then s3.cancelHandover else s3
  s4.trackPath lostTandem (before.tandem.lost && !p.tandem.lost)

/-- HEARTBEAT_DEADLINE (R258): at 9.700 µs the tandem path is judged for the frame. -/
def execHeartbeatDeadline (s : State) : Host.Outcome State Fault Refusal :=
  let s0 := s.phase 9700
  let good := s0.pair.tandem.seen
  let s1 := if good then s0 else s0.incReg PAIR.TANDEM_MISSES
  .next ((s1.updPair fun p => { p with tandem := p.tandem.after good }).pathsChanged s0.pair)

/-- PULSE_TOGGLE_RECEIVED (R258): a toggle within ±100 ns of the frame tick counts for it. -/
def execPulseToggleReceived (offset : Int) (s : State) : Host.Outcome State Fault Refusal :=
  if offset.natAbs ≤ 100 then
    .next (s.updPair fun p => { p with partnerPresent := true, pulse := { p.pulse with seen := true } })
  else .next s

/-- PULSE_WINDOW_EXPIRY (R258): 100 ns after the tick the pulse path is judged for it; a partner lost with it is judged at once for this
tick (Sequence PR-2, step 10). -/
def execPulseWindowExpiry (s : State) : Host.Outcome State Fault Refusal :=
  let s0 := s.phase 100
  let good := s0.pair.pulse.seen
  let s1 := if good then s0 else s0.incReg PAIR.PULSE_MISSES
  let s2 := (s1.updPair fun p => { p with pulse := p.pulse.after good }).pathsChanged s0.pair
  if s2.pair.pulse.lost ∧ ¬ s0.pair.pulse.lost ∧ s2.pair.tandem.lost then .next s2.checkRoles else .next s2

/-! ### Digests (R276 to R278) -/

/-- The digests of a frame are compared: an ACTIVE with a STANDBY, either way round, or a tracking module that verifies. -/
def digestsCompared (s : State) : Bool :=
  (decide (s.role = .active) && decide (s.pair.partnerRole = .standby)) ||
    (decide (s.role = .standby) && decide (s.pair.partnerRole = .active))

/-- DIGEST_MISMATCH (R277, R278): event 0x0209, the STANDBY is muted, the module runs its self-check. `recheck` says that the digest
recomputed from its memory differs. -/
def State.digestMismatch (s : State) (recheck : Bool) : State :=
  let fail := s.pair.memoryError || recheck
  let s1 := (s.incReg PAIR.DIGEST_MISMATCH).raiseBlock 0x0209
  let s2 := s1.setReg PAIR.SELFCHECK
    (BitVec.ofNat 32 ((if fail then 2 else 1) * 268435456 + b2n s.pair.memoryError * 2 + b2n recheck))
  let s3 := s2.updPair fun p =>
    { p with
      muted := p.muted || decide (s.role = .standby), cleanFrames := 0, differNow := true, selfCheck := some (!fail),
      mismatch := some (p.mismatch.getD { at_ := s.frame.count }) }
  s3.dropClaim.cancelHandover

/-- TRACKING_ROUND_FAILED (R286): back to phase 5 with every page dirty, or OUT with cause 0x09 after MAX_ROUNDS. -/
def State.roundFailed (s : State) : State :=
  let s1 := (s.incReg PAIR.TRACK_FAILS).raiseBlock 0x020E
  if s.regFld PAIR.TRACK_CFG 15 8 ≤ s.pair.round then s1.updPair fun p => { p with phase := 0, outDue := some 0x09 }
  else
    (s1.setReg PAIR.TRACK_DONE 0).updPair fun p =>
      { p with phase := 5, round := p.round + 1, dirty := List.range p.pageCount, verifyFrames := 0, slotsSeen := [], verified := false }

/-- The two digests of the frame compared once both are there (R277, R278, Table PR-10 phase 7). -/
def State.compareDigests (s : State) (recheck : Bool) : State :=
  match s.pair.ownNow, s.pair.peerNow with
  | some a, some b =>
    if digestsCompared s then
      if a = b then s.updPair fun p => { p with memoryError := false } else s.digestMismatch recheck
    else if s.role = .track ∧ s.pair.phase = 7 then
      if a = b then s.updPair fun p => { p with verifyFrames := p.verifyFrames + 1 } else s.roundFailed
    else s
  | _, _ => s

/-- SELF_CHECK_DECISION (R278, Table PR-7): the outcome of a digest mismatch; a missing partner result counts as a pass. -/
def execSelfCheckDecision (s : State) : Host.Outcome State Fault Refusal :=
  match s.pair.mismatch with
  | none => .next s
  | some m =>
    if s.frame.count < m.at_ + s.regFld PAIR.DIGEST_CFG 3 0 then .next s
    else
      let own := s.pair.selfCheck.getD true
      let other := m.partner.getD true
      let s1 := (s.putReg PAIR.SELFCHECK 27 24 (match m.partner with
        | none => 0
        | some true => 1
        | some false => 2)).raiseBlock 0x020A
      .next (s1.updPair fun p =>
        { p with
          mismatch := none, selfCheck := none
          outDue := if own then p.outDue else some 0x05
          trackDue := p.trackDue || (decide (s.role = .standby) && own && other)
          muted := p.muted && !(decide (s.role = .standby) && own && !other)
          selfTaken := p.selfTaken || (decide (s.role = .standby) && own && !other) })

/-! ### Overrun reports of the partner (R79) -/

/-- An open overrun after a heartbeat (Table FX-9): a module that waits after its window takes any heartbeat of a STANDBY or ACTIVE partner as a cycle
completed; within the window it decides when the partner reports the same cycle or completed it; otherwise the heartbeat is noted. -/
def overrunHeard (h : Heartbeat) (c : OverrunCase) : OverrunCase ⊕ OverrunResult :=
  if c.waiting then (if h.role = Role.standby ∨ h.role = Role.active then .inr .out else .inl c)
  else if h.overrun = some (c.cls, c.index) then .inr .safeCommon
  else if h.within.getLsbD c.task ∧ h.frameIndex = BitVec.ofNat 32 c.commit then .inr .out
  else .inl { c with heard := true }

/-- Every open overrun judged with a heartbeat. -/
def State.judgeOverruns (s : State) (h : Heartbeat) : List OverrunCase → State
  | [] => s
  | c :: rest =>
    match overrunHeard h c with
    | .inl d => (s.updFrame fun f => { f with overruns := f.overruns ++ [d] }).judgeOverruns h rest
    | .inr r => (s.decideOverrun r).judgeOverruns h rest

/-- The partner's overrun report kept for an overrun of this module that is detected later. -/
def State.keepReport (s : State) (h : Heartbeat) : State :=
  match h.overrun with
  | none => s
  | some (c, i) =>
    s.updFrame fun f =>
      { f with peerReports := (c, i, f.count) :: f.peerReports.filter (fun r => decide (f.count ≤ r.2.2 + 10)) }

/-- Windows of overruns end (R79). A partner that was heard counts as having completed the cycle; one that was not
leaves the module waiting. -/
def State.endWindows (s : State) : List OverrunCase → State
  | [] => s
  | c :: rest =>
    if c.waiting then (s.updFrame fun f => { f with overruns := f.overruns ++ [c] }).endWindows rest
    else if c.heard then (s.decideOverrun .out).endWindows rest
    else (s.updFrame fun f => { f with overruns := f.overruns ++ [{ c with waiting := true }] }).endWindows rest

/-- OVERRUN_WINDOW_EXPIRY (R79, Table FX-9): the windows that have ended by the frame in progress are judged. -/
def execOverrunWindowExpiry (s : State) : Host.Outcome State Fault Refusal :=
  let ended (c : OverrunCase) : Bool := !c.waiting && decide (c.ends ≤ s.frame.count)
  .next ((s.updFrame fun f => { f with overruns := f.overruns.filter fun c => !(ended c) }).endWindows (s.frame.overruns.filter ended))

/-- Waiting overruns are SAFE once the module has lost its STANDBY or ACTIVE partner (Table FX-9). -/
def State.decideWaiting (s : State) : State :=
  if partnerShares s then s
  else if s.frame.overruns.isEmpty then s
  else (s.updFrame fun f => { f with overruns := [] }).decideOverrun .safeLone

/-- SAFE_OR_OUT_ENTRY (R80): the first frame tick after the decision; a decision after SAFE or OUT changes nothing (R79). While the outcome of a flip is
to be settled in this frame, the decision waits: a revert comes first (R124). -/
def State.takeDecision (s : State) : State :=
  if verdictDue s then s
  else
  match s.frame.decision with
  | none => s
  | some d =>
    let s1 := s.updFrame fun f => { f with decision := none }
    if s.mode ≠ .run then s1
    else
      match d with
      | .out => s1.updPair fun p => { p with outDue := some 0x04 }
      | .safeCommon => s1.enterSafe 0 7
      | .safeLone => s1.enterSafe 1 7

/-! ### Heartbeats -/

/-- The partner as a heartbeat shows it (Table PR-13, PAIR.PARTNER). -/
def State.hear (s : State) (h : Heartbeat) : State :=
  s.updPair fun p =>
    { p with
      partnerPresent := true, partnerRole := h.role, partnerMode := h.mode, partnerFlags := heartbeatFlags h, partnerId := h.pairId,
      partnerSwitch := h.switchPending, heardAt := some s.tb.up, heard := true,
      heardFrame := s.frameNo, tandem := { p.tandem with seen := true },
      handover := p.handover.map (fun o => if o.giver ∧ ¬ o.sharing ∧ h.hoState ≠ 0 then { o with confirmed := true } else o),
      mismatch := p.mismatch.map (fun m => { m with partner := match h.selfCheck with
        | some r => some r
        | none => m.partner }) }

/-- A STANDBY takes its ACTIVE partner's run mode (R82). -/
def State.followPartner (s : State) (h : Heartbeat) : State :=
  if s.role = .standby ∧ (h.role = Role.active) ∧ h.mode ≠ s.mode ∧ s.frame.runChange.isNone then
    s.updFrame fun f => { f with followMode := some (modeForRole .standby h.mode) }
  else s

/-- A heartbeat with a wrong CRC is discarded and counted on its lane (R255). -/
def State.discardCell (s : State) (lane : Nat) : State := s.incReg (PAIR.LANE1 lane)

/-- A partner in INIT stays there while this module's switch is pending (R128): event 0x2208, once for a switch. -/
def State.noteHeld (s : State) (h : Heartbeat) : State :=
  let held := decide (h.role = .init) && s.frame.sw.isSome
  (if held && !s.pair.heldNoted then s.raiseBlock 0x2208 else s).updPair fun p => { p with heldNoted := held }

/-- HEARTBEAT_RECEIVED (R257, R258, R277, R278, R79): `recheck` is the result of recomputing this module's digest, if it comes to a
self-check. -/
def execHeartbeatReceived (h : Heartbeat) (recheck : Bool) (s : State) : Host.Outcome State Fault Refusal :=
  if !heartbeatIntact h then .next (s.discardCell h.lane.val)
  else
    let s1 := (s.hear h).noteHeld h
    let open_ := s1.frame.overruns
    let s2 := ((s1.updFrame fun f => { f with overruns := [] }).judgeOverruns h open_).keepReport h
    let s3 := s2.followPartner h
    if h.frameIndex = BitVec.ofNat 32 (s.timeIndex 0) then
      .next ((s3.updPair fun p => { p with peerNow := some h.digest, digestPeer := h.digest }).compareDigests recheck)
    else .next s3

/-- TAKEOVER_LINE_ASSERTED (R282): the partner's takeover line; it only records the cause. -/
def execTakeoverLineAsserted (s : State) : Host.Outcome State Fault Refusal :=
  .next (s.updPair fun p => { p with takeoverIn := true })

/-! ### The claim (R260, R263) -/

/-- CLAIM_REFRESH (R260): on the whole microseconds the supervisor refreshes the pump while the claim is wanted. -/
def execClaimRefresh (s : State) : Host.Outcome State Fault Refusal :=
  let t := (s.tb.now + 1000 * nsUnits - 1) / (1000 * nsUnits) * (1000 * nsUnits)
  let s1 := s.advanceTo t
  if claimWanted s1 then .next (s1.updPair fun p => { p with claim := true, refreshed := s1.tb.up }) else .next s1

/-- CLAIM_DECAY (R260): at least 3 µs after the last refresh the claim falls. -/
def execClaimDecay (s : State) : Host.Outcome State Fault Refusal :=
  let due := s.pair.refreshed + 3000 * nsUnits
  let s1 := if s.tb.up < due then s.advanceTo (s.tb.now + (due - s.tb.up)) else s
  .next (s1.updPair fun p => { p with claim := false })

/-! ### The extraction lever (R270, R499, R500) -/

/-- The lever's handover request (R270): refused under Table PR-8 it stands. -/
def State.leverHandover (s : State) : State :=
  match handoverRefusal s with
  | some st => (s.refuseHandover st).updPair fun p => { p with leverStanding := true, leverAt := s.tb.up }
  | none => (s.acceptHandover none true).updPair fun p => { p with leverStanding := false, leverOut := true }

/-- What pulling the lever does by role (R270, Table PR-15). -/
def State.leverAction (s : State) : State :=
  match s.role with
  | .active => if s.regBit PAIR.CFG 29 then s.leverHandover else s.raiseBlock 0x0213
  | .solo => s.raiseBlock 0x0213
  | .out => s
  | _ => s.updPair fun p => { p with outDue := some (p.outDue.getD 0x0C) }

/-- LEVER_OPENED (R499, R270). -/
def execLeverOpened (s : State) : Host.Outcome State Fault Refusal :=
  .next (((s.updPair fun p => { p with lever := true }).raiseBlock 0x0001).incReg ID.LEVER_COUNT).leverAction

/-- LEVER_CLOSED (R499 to R501): a module held in reset for the lever begins its start delay. -/
def execLeverClosed (s : State) : Host.Outcome State Fault Refusal :=
  if s.power.supply = .off ∧ s.power.powered then
    .next (({ s with power := { s.power with supply := .delay, delaySince := s.tb.up, inserted := true } }).updPair fun p =>
      { p with lever := false })
  else
  let s1 := (s.updPair fun p => { p with lever := false, leverStanding := false, leverOut := false }).raiseBlock 0x0002
  if s.role = .out ∧ s.reg PAIR.OUT_CAUSE = 0x0C ∧ mayReturn s then .next (s1.requestRole .init none).1 else .next s1

/-- LEVER_HANDOVER_RETRY (R270): the standing request is made again, a second after the last one was refused. -/
def execLeverHandoverRetry (s : State) : Host.Outcome State Fault Refusal :=
  if s.pair.lever ∧ s.pair.leverStanding ∧ s.role = .active then .next (s.advanceUp (s.pair.leverAt + secUnits)).leverHandover else .next s

/-! ### Tandem lanes (R255, R256) -/

/-- A lane's state bit in the pair. -/
def State.setLane (s : State) (l : Nat) (up : Bool) : State :=
  s.updPair fun p => if l = 0 then { p with lane0 := up } else { p with lane1 := up }

/-- LANE_FAILURE (R256). -/
def execLaneFailure (l : Fin 2) (s : State) : Host.Outcome State Fault Refusal :=
  .next ((((s.setLane l.val false).setReg (PAIR.LANE0 l.val) 0).incReg (PAIR.LANE3 l.val)).setReg (PAIR.LANE7 l.val)
    (secWord s.tb.now))

/-- LANE_RESTORED (R256). -/
def execLaneRestored (l : Fin 2) (s : State) : Host.Outcome State Fault Refusal :=
  .next ((s.setLane l.val true).setReg (PAIR.LANE0 l.val) 0xC0000000)

end Sys2Proof.Machine
end

