-- ==== Sys2Proof/Machine/Lockstep.lean ====
section
/-!
DEFINITION. Core pairs and comparison (R226 to R252): the fault reaction, restart counting and lockout, the start-up and background tests,
the safety readback, and the end of HOLD.
-/

namespace Sys2Proof.Machine

open Reg

/-- Unit `p` (0 to 2 the core pairs, 3 the loop engine) has its lanes enabled (R229, R242, R248). -/
def State.unitCompared (s : State) (p : Nat) : Bool :=
  if p = 3 then !(decide (s.mode = .hold) || s.lock.restoring)
  else !(s.lock.split.toNat.testBit p) && !s.regBit LOCK.STATUS (16 + p)

/-- Operating seconds of `LOCK.RESTART_WINDOW` hours (R236). -/
def restartWindow (s : State) : Nat := (s.reg LOCK.RESTART_WINDOW).toNat * 3600

/-- The faults that still count: those within the window (R236). -/
def countedFaults (s : State) : List Nat :=
  s.lock.faultTimes.filter fun t => decide ((s.reg LINING.OP_SEC).toNat < t + restartWindow s)

/-- A fault counted; above the limit the module is locked out (R236). -/
def State.countFault (s : State) : State :=
  let times := (s.reg LINING.OP_SEC).toNat :: countedFaults s
  let s1 := (s.updLock fun l => { l with faultTimes := times }).setReg LOCK.RESTARTS
    (BitVec.ofNat 32 ((s.regFld LOCK.RESTARTS 31 16 + 1) % 65536 * 65536 + satTo 65535 times.length))
  if s.regFld LOCK.CFG 23 16 < times.length then (s1.orReg LOCK.STATUS (BitVec.ofNat 32 (2 ^ 28))).raiseBlock 0x0308 else s1

/-- The diagnostic registers of a fault (R233, Table LS-7). -/
def State.noteFault (s : State) (unit cause : Nat) : State :=
  ((s.setReg LOCK.FAULT
    (BitVec.ofNat 32 (unit * 268435456 + cause * 16777216 + s.role.code * 1048576 + s.mode.code * 65536))).setReg LOCK.FAULT_SEC
    (secWord s.tb.now)).setReg LOCK.FAULT_NS (qualityNs s.tb.quality s.tb.now)

/-- Word `i` of 128 lanes. -/
def laneWord (lanes : BitVec 128) (i : Nat) : Word := BitVec.ofNat 32 (lanes.toNat / 2 ^ (32 * i))

/-- The four lane words of a unit written from `a`; the loop engine has one (R252). -/
def State.setLanes (s : State) (a : Nat) (p : Nat) (lanes : BitVec 128) : State :=
  let w (i : Nat) : Word := if p = 3 ∧ 1 ≤ i then 0 else laneWord lanes i
  (((s.setReg a (w 0)).setReg (a + 1) (w 1)).setReg (a + 2) (w 2)).setReg (a + 3) (w 3)

/-- What the safety logic does on any comparator fault (R231, R232): outputs, transmitters and heartbeat are cut off, the claim is clamped,
the takeover line asserted; the tasks stop (R233), a pending handover is cancelled (R280), a flip in progress gets no verdict (R234). -/
def State.cutOffOutputs (s : State) : State :=
  (((s.updLock fun l => { l with cutOff := true, toOut := true, faultAt := s.tb.up }).updPair fun p =>
    { p with claim := false, clamped := true, takeoverOut := true }).updFrame fun f =>
    { f with sw := f.sw.map (fun w => { w with verdict := none }), run0 := none, run1 := none }).cancelHandover

/-- A comparator fault of `unit` with its cause (R231 to R236): once latched, a further one changes nothing. -/
def State.comparatorFault (s : State) (unit cause event : Nat) (diag : State → State) : State :=
  if s.regBit LOCK.STATUS 31 then s
  else
    let s1 := (diag (s.noteFault unit cause)).orReg LOCK.STATUS (BitVec.ofNat 32 (2 ^ 31))
    let s2 := if unit = 3 then s1.putRegBit LOCK.STATUS 14 false else s1
    (s2.countFault.cutOffOutputs).raise event unit

/-- The lanes of a unit that show differing values: 128 of a core pair, 32 of the loop engine (R228). -/
def differingLanes (m : Mismatch) : BitVec 128 := if m.unit.val = 3 then m.lanes &&& 0xFFFFFFFF#128 else m.lanes

/-- The first of the lanes. -/
def firstLane (lanes : BitVec 128) : Nat := ((List.range 128).find? fun i => lanes.getLsbD i).getD 0

/-- COMPARATOR_MISMATCH (R229, R231 to R236): at a core clock edge of the frame, 1.25 ns each, lanes of a compared unit differ; the fault is raised 5 ns
later (Table LS-3). -/
def execComparatorMismatch (m : Mismatch) (s : State) : Host.Outcome State Fault Refusal :=
  if s.unitCompared m.unit.val ∧ differingLanes m ≠ 0 then
    let s0 := s.advanceTo (s.frame.t0 + m.cycle.toNat * (clockUnits / 2) + 5 * nsUnits)
    .next (s0.comparatorFault m.unit.val 1 0x0301 fun t =>
      ((((t.putReg LOCK.FAULT 6 0 (firstLane (differingLanes m))).setReg LOCK.FAULT_CYCLE (m.cycle.zeroExtend 32)).setReg LOCK.FAULT_PC m.pc).setReg
        LOCK.FAULT_BITS (m.bits.zeroExtend 32)).setLanes (LOCK.LANE_FAULT m.unit.val 0) m.unit.val (differingLanes m))
  else .next s

/-- The row of Table PR-3 that a comparator fault takes from each role. -/
def faultRow (r : Role) : Nat :=
  match r with
  | .standby => 12
  | .active => 16
  | .solo => 19
  | _ => 2

/-- COMPARATOR_FAULT_TO_OUT (R233): within 1 ms, role OUT and run mode STOP from whatever mode it was in. -/
def execComparatorFaultToOut (s : State) : Host.Outcome State Fault Refusal :=
  if s.lock.toOut then
    let s1 := (s.updLock fun l => { l with toOut := false }).enterMode .stop 12
    .next ((s1.cancelRunChange.cancelSwitch (some 0x01)).enterRole .out (faultRow s.role) 0x01)
  else .next s

/-! ### Tests -/

/-- The lanes of a test that count: those of a split pair are skipped (R242). -/
def testedLanes (s : State) (p : Nat) (lanes : BitVec 128) : BitVec 128 := if p < 3 ∧ s.lock.split.toNat.testBit p then 0 else lanes

/-- The failed lanes of unit `p` in a test result. -/
def failedLanes (s : State) (r : TestResult) (p : Nat) : BitVec 128 :=
  match p with
  | 0 => testedLanes s 0 r.cx0
  | 1 => testedLanes s 1 r.cx1
  | 2 => testedLanes s 2 r.cx2
  | _ => r.loop.zeroExtend 128

/-- The units with a failed lane. -/
def failedUnits (s : State) (r : TestResult) : List Nat := [0, 1, 2, 3].filter fun p => failedLanes s r p ≠ 0

/-- LOCK.STATUS bits of lockstep in force: the pairs that are not split, and the loop engine's comparison (Table LS-6). -/
def lockstepBits (s : State) : Word := BitVec.ofNat 32 ((7 - s.lock.split.toNat) * 16777216 + 16384)

/-- A start-up test's result taken (R237, R238): the lanes that failed, the state and duration; a pass clears the latched fault, sets
TESTED and ends the cut-off unless the module is locked out; a fail sends the module to OUT with cause 0x02. -/
def State.takeTest (s : State) (r : TestResult) : State :=
  let s1 := ([0, 1, 2, 3] : List Nat).foldl (fun t p => t.setLanes (LOCK.TEST_FAIL p 0) p (failedLanes s r p)) s
  let bad := failedUnits s r
  let s2 := s1.setReg LOCK.TEST_STATUS (BitVec.ofNat 32 ((if bad = [] then 2 else 3) * 268435456 + r.micros.toNat))
  match bad with
  | [] =>
    let s3 := s2.setReg LOCK.STATUS
      (((s2.reg LOCK.STATUS &&& 0x7FFFFFFF#32) ||| 0x40000000#32) ||| lockstepBits s2)
    let locked := s.regBit LOCK.STATUS 28
    let s4 := s3.updLock fun l => { l with cutOff := locked, toOut := false }
    (s4.updPair fun p => { p with clamped := locked || decide (s.role = .out), takeoverOut := false, testedAt := s.tb.up }).raiseBlock 0x0304
  | u :: _ =>
    let s3 := (((s2.putRegBit LOCK.STATUS 30 false).noteFault u 3).putReg LOCK.FAULT 6 0 (firstLane (failedLanes s r u))).updLock fun l =>
      { l with cutOff := true }
    (s3.updPair fun p => { p with outDue := some 0x02, claim := false, clamped := true }).raiseBlock 0x0302

/-- STARTUP_TEST_COMPLETE (R238): in INIT after a start, where a module in lockout goes to OUT with cause 0x03 (R236), or in OUT after a write of
LOCK.TEST_RUN; a module that is OUT already stays so. -/
def execStartupTestComplete (r : TestResult) (s : State) : Host.Outcome State Fault Refusal :=
  if s.role = .init ∧ s.regFld LOCK.TEST_STATUS 31 28 < 2 then
    let s1 := s.takeTest r
    .next (if s1.regBit LOCK.STATUS 28 then s1.updPair fun p => { p with outDue := some (p.outDue.getD 0x03) } else s1)
  else if s.role = Role.out ∧ s.regFld LOCK.TEST_STATUS 31 28 = 1 then .next ((s.takeTest r).updPair fun p => { p with outDue := none })
  else .next s

/-- The lane of unit `p` that the rotation tests in lane step `n`. -/
def rotationLane (p n : Nat) : Nat := if p = 3 then n % 32 else n

/-- Units whose injected difference was not detected: `detected` has one bit per unit (R239). -/
def undetected (s : State) (detected : BitVec 4) : List Nat :=
  ([0, 1, 2, 3] : List Nat).filter fun p => s.unitCompared p && !(detected.toNat.testBit p)

/-- The rotation moved on by one lane; a full one is counted for every compared unit (R239, Table LS-5). -/
def State.nextLane (s : State) : State :=
  let n := (s.lock.lane + 1) % 128
  let s1 := s.updLock fun l => { l with lane := n }
  if n = 0 then
    (([0, 1, 2, 3] : List Nat).filter s.unitCompared).foldl (fun t p => t.incReg (LOCK.BG_ROUNDS p)) s1
  else s1

/-- BACKGROUND_LANE_TEST (R239): at 9.600 µs, once in a frame, one lane of each unit; one that does not detect is a comparator fault with cause 2. -/
def execBackgroundLaneTest (detected : BitVec 4) (s : State) : Host.Outcome State Fault Refusal :=
  let s0 := (s.phase 9600).updFrame fun f => { f with stage := 4 }
  if s.frame.stage ≠ 3 then .next s
  else if s0.regBit LOCK.CFG 4 ∧ s0.tested then
    match undetected s0 detected with
    | [] => .next s0.nextLane
    | u :: _ =>
      .next (s0.nextLane.comparatorFault u 2 0x0303 fun t =>
        (t.putReg LOCK.FAULT 6 0 (rotationLane u s0.lock.lane)).setLanes (LOCK.LANE_FAULT u 0) u (BitVec.ofNat 128 (2 ^ rotationLane u s0.lock.lane)))
  else .next s0

/-- The commanded levels of the safety outputs: output enables [2], yoke clamp [1], takeover line [0] (R240). -/
def safetyLevels (s : State) : BitVec 3 :=
  BitVec.ofNat 3 (b2n s.stagesOn * 4 + b2n s.pair.clamped * 2 + b2n s.pair.takeoverOut)

/-- SAFETY_READBACK (R240): at 9.750 µs, once in a frame, the levels read are held against those commanded; two disagreements in a row are a comparator
fault with cause 4. -/
def execSafetyReadback (levels : BitVec 3) (s : State) : Host.Outcome State Fault Refusal :=
  if 4 < s.frame.stage ∨ (s.frame.stage < 3 ∧ !s.regBit LOCK.STATUS 31) then .next s
  else
    let agrees := decide (levels = safetyLevels s)
    let s1 := ((s.phase 9750).updFrame fun f => { f with stage := 5 }).putRegBit LOCK.STATUS 13 agrees
    let s2 := s1.updLock fun l => { l with disagree := if agrees then 0 else l.disagree + 1 }
    .next (if 2 ≤ s2.lock.disagree then s2.comparatorFault 4 4 0x0303 id else s2)

/-- HOLD_EXIT_RESTORE (R250): lockstep is restored and the start-up test runs; a pass ends DEBUG and HELD. -/
def execHoldExitRestore (r : TestResult) (s : State) : Host.Outcome State Fault Refusal :=
  if s.lock.restoring then
    let s1 := s.takeTest r
    if failedUnits s r = [] then
      .next (((s1.clearBits LOCK.STATUS (BitVec.ofNat 32 (0x70000 + 0x8000))).updLock fun l => { l with restoring := false, debugAccess := 0 }).raiseBlock 0x0307)
    else .next s1
  else .next s

end Sys2Proof.Machine
end

