-- ==== Sys2Proof/Machine/Reductions.lean ====
section
/-!
DEFINITION. The six reductions of one channel (R130 to R145) over the calibrated codes that the conversion chain gives: what each computes from
the samples, and the rings it is kept in.
-/

namespace Sys2Proof.Machine

open Reg

/-- Units of 2^-32 ns in a microsecond. -/
def microUnits : Nat := 1000 * 4294967296

/-! ### Codes and engineering units -/

/-- A code as the converter holds it (R130). -/
def saturate (c : Int) : Int := if c < -32768 then -32768 else if 32767 < c then 32767 else c

/-- A sample at either end of the codes is overrange (R131). -/
def overCode (c : Int) : Bool := decide (c = -32768) || decide (c = 32767)

/-- num / den · 2^e LSB in engineering units (R131, R132): code × range / 32,768 × RATIO, rounded once to binary32. -/
def engineering (ratio : Word) (range : Bool) (num : Int) (den : Nat) (e : Int) : Word :=
  match f32 ratio with
  | some r =>
    BitVec.ofNat 32 (roundFlt 8 23 (decide (num < 0) != r.neg) (num.natAbs * (if range then 2 else 10) * r.m) den (r.e + e - 15))
  | none => 0x7FC00000#32

/-- A quotient rounded to the nearest whole number, ties to even. -/
def roundEven (n : Int) (d : Nat) : Int := if n < 0 then -(roundDiv n.natAbs d : Int) else (roundDiv n.natAbs d : Int)

/-- The sum of a list. -/
def sumInt (l : List Int) : Int := l.foldl (· + ·) 0

/-- The largest whole number whose square is at most `n`, built from bit `k - 1` down on `r`. -/
def sqrtFrom (n : Nat) : Nat → Nat → Nat
  | 0, r => r
  | k + 1, r => if (r + 2 ^ k) * (r + 2 ^ k) ≤ n then sqrtFrom n k (r + 2 ^ k) else sqrtFrom n k r

/-- The whole square root of a number below 2^160. -/
def sqrtNat (n : Nat) : Nat := sqrtFrom n 80 0

/-! ### DEC (R140) -/

/-- A DEC entry from its 50 codes. -/
def decEntry (at_ up : Nat) (codes : List Int) (calBad mark settling : Bool) : DecEntry :=
  { at_ := at_, up := up, lo := codes.foldl min (codes.headD 0), hi := codes.foldl max (codes.headD 0)
    mean := roundEven (sumInt codes * 256) 50
    flags := BitVec.ofNat 4 (bitsOf [codes.any overCode, calBad, mark, settling]) }

/-- The 8 bytes of a DEC entry. -/
def decBytes (e : DecEntry) : List Byte :=
  let wide (n : Nat) (v : Int) : List Byte := (List.range n).map fun i => BitVec.ofInt 8 (v / 2 ^ (8 * (n - 1 - i)))
  wide 2 e.lo ++ wide 2 e.hi ++ wide 3 e.mean ++ [e.flags.zeroExtend 8]

/-- The 1 µs interval from `at_` overlaps the 20 µs of settling that a change began (R152). -/
def settlingAt (c : AcqChannel) (at_ : Nat) : Bool :=
  match c.settleAt with
  | some t => decide (at_ < t + 20 * microUnits ∧ t < at_ + microUnits)
  | none => false

/-- The ten DEC entries of a frame, newest first. -/
def frameDec (c : AcqChannel) (f : RawFrame) (calBad mark : Bool) : List DecEntry :=
  ((List.range 10).map fun j =>
    decEntry (f.at_ + j * microUnits) (f.up + j * microUnits) ((f.codes.drop (50 * j)).take 50) calBad (mark && decide (j = 0))
      (settlingAt c (f.at_ + j * microUnits))).reverse

/-! ### WAV (R141) -/

/-- Half the length of the WAV filter in DEC entries: its group delay (R141). -/
def wavHalf : Nat := 1200

/-- The filtered code at the middle of the newest 2,400 DEC entries: a linear-phase filter weighs the entries at equal distance before and
after it alike. -/
def wavCode (dec : List DecEntry) : Int :=
  let after := (dec.take wavHalf).reverse
  let before := (dec.drop wavHalf).take wavHalf
  sumInt (((after.zip before).zip (List.range wavHalf)).map fun x => Config.wavTap x.2 * (x.1.1.mean + x.1.2.mean))

/-- The WAV sample that a new DEC history completes: labelled 1.2 ms before the end of its newest entry. Until the filter has filled it carries the
discontinuity flag (notes/assumptions/115.md). -/
def wavEntry (ratio : Word) (c : AcqChannel) : Option WavEntry :=
  match c.dec with
  | [] => none
  | d :: _ =>
    let used := c.dec.take (2 * wavHalf)
    let flags := used.foldl (fun (w : BitVec 4) x => w ||| x.flags) (if used.length < 2 * wavHalf then 4 else 0)
    let code := wavCode c.dec
    some { at_ := d.at_ + microUnits - wavHalf * microUnits, up := d.up + microUnits - wavHalf * microUnits, code := code
           value := engineering ratio c.range code 1 (-40), flags := flags }

/-! ### CYC (R142, R143) -/

/-- Spacing of WAV samples. -/
def wavStep : Nat := 100 * microUnits

/-- The instant at which the line through two WAV samples passes zero (R142). -/
def zeroBetween (a b : WavEntry) : Nat := a.at_ + (wavStep * a.code.natAbs) / (a.code.natAbs + b.code.natAbs)

/-- The longest power cycle (R143). -/
def cycleMax : Nat := 25000 * microUnits

/-- A positive-going zero crossing at `z`: it ends the cycle in progress, after one of 25 ms without a crossing when that has passed, and begins the
next (R142, R143). -/
def AcqChannel.cross (c : AcqChannel) (z : Nat) : AcqChannel :=
  match c.cycleStart with
  | none => { c with cycleStart := some z, sinceCrossing := true }
  | some t =>
    if z ≤ t then c
    else
      let timeout := decide (t + cycleMax < z)
      let first := if timeout then [{ start := t, finish := t + cycleMax, crossed := false }] else []
      let last := if !timeout && c.sinceCrossing then [{ start := t, finish := z, crossed := true }] else []
      { c with closed := c.closed ++ first ++ last, cycleStart := some z, sinceCrossing := true }

/-- 25 ms have passed since the last cycle start without a crossing (R143): seen when the WAV samples reach 0.8 ms beyond, that is 2 ms after the end of
the cycle. -/
def AcqChannel.timeOut (c : AcqChannel) (label : Nat) : AcqChannel :=
  match c.cycleStart with
  | none => { c with cycleStart := some label, sinceCrossing := false }
  | some t =>
    if t + cycleMax + 800 * microUnits ≤ label then
      { c with
        closed := c.closed ++ [{ start := t, finish := t + cycleMax, crossed := false }]
        cycleStart := some (t + cycleMax), sinceCrossing := false }
    else c

/-- A new WAV sample watched for a crossing (R142): it counts when the signal has been below −h and then rises above +h; the zero crossing is the last one
before that. -/
def AcqChannel.watch (c : AcqChannel) (hyst : Nat) (new : WavEntry) : AcqChannel :=
  let h : Int := hyst * 2 ^ 40
  let below := decide (new.code < -h)
  let zero := match c.wav with
    | [] => none
    | old :: _ => if old.code < 0 ∧ 0 ≤ new.code then some (zeroBetween old new) else none
  let c1 := { c with
    armed := c.armed || below
    zeroAt := if below then none else if c.armed ∧ zero.isSome then zero else c.zeroAt }
  match c1.zeroAt with
  | some z => if c1.armed ∧ h < new.code then { c1.cross z with armed := false, zeroAt := none } else c1
  | none => c1

/-- A WAV sample added to its ring, with what it means for the power cycles. -/
def AcqChannel.addWav (c : AcqChannel) (hyst : Nat) (w : WavEntry) : AcqChannel :=
  let c1 := (c.watch hyst w).timeOut w.at_
  { c1 with wav := (w :: c1.wav).take 1048576 }

/-- What a cycle measures (R142): the sums of weight, weighted code and weighted square over the WAV samples whose 100 µs it overlaps, the
largest magnitude and the flags. -/
structure CycleSums where
  weight : Nat := 0
  linear : Int := 0
  square : Nat := 0
  peak : Nat := 0
  flags : BitVec 4 := 0
  deriving DecidableEq, Repr

/-- The part of a WAV sample's 100 µs that lies in a cycle. -/
def overlap (c : CycleSpan) (at_ : Nat) : Nat :=
  (if c.finish < at_ + wavStep then c.finish else at_ + wavStep) - (if at_ < c.start then c.start else at_)

/-- The sums of a cycle. -/
def cycleSums (c : CycleSpan) (wav : List WavEntry) : CycleSums :=
  wav.foldl (fun m w =>
    let k := overlap c w.at_
    if k = 0 then m
    else
      { weight := m.weight + k, linear := m.linear + k * w.code, square := m.square + k * (w.code.natAbs * w.code.natAbs)
        peak := if m.peak < w.code.natAbs then w.code.natAbs else m.peak, flags := m.flags ||| w.flags }) {}

/-- Flag bits as a word. -/
def flagWord (bits : List Bool) : Word := BitVec.ofNat 32 (bitsOf bits)

/-- The words of a CYC entry (Table AQ-4). -/
def cycEntry (ratio : Word) (c : AcqChannel) (x : CycleSpan) (q : Quality) (calBad : Bool) : List Word :=
  let m := cycleSums x c.wav
  let period := x.finish - x.start
  let out := x.crossed && (decide (period < 14286 * microUnits) || decide (cycleMax < period))
  let eng (n : Int) (d : Nat) : Word := engineering ratio c.range n d (-40)
  [secWord x.start, qualityNs q x.start, ratTo32 period (1000000000 * nsUnits),
    if x.crossed ∧ period ≠ 0 then ratTo32 (1000000000 * nsUnits : Nat) period else 0,
    eng (sqrtNat (m.square / m.weight)) 1, eng m.linear m.weight, eng m.peak 1,
    flagWord [out, !x.crossed, m.flags.getLsbD 0, calBad || m.flags.getLsbD 1, m.flags.getLsbD 2, m.flags.getLsbD 3]]

/-! ### PHA (R144, R153, R154) -/

/-- Half a phasor window in µs (R153, Table AQ-7): the measurement latency less the 0.5 ms of computing. -/
def phaHalf (mClass sixty : Bool) (rate : Nat) : Nat := if mClass then 3500000 / rate else if sixty then 16667 else 20000

/-- The measurement latency in units of 2^-32 ns (Table AQ-7). -/
def phaLatency (mClass sixty : Bool) (rate : Nat) : Nat :=
  if mClass then (3500000000 / rate + 500000) * nsUnits else if sixty then 17200 * microUnits else 20500 * microUnits

/-- The reporting instant that falls at `t` or last before it, by its TAI second and its index (R144). -/
def reportingInstant (rate t : Nat) : Nat × Nat := (secOf t, t % secUnits * rate / secUnits)

/-- The time of a reporting instant, S + i/Fs. -/
def instantAt (rate : Nat) (x : Nat × Nat) : Nat := x.1 * secUnits + x.2 * secUnits / rate

/-- The DEC entries of the window around an instant, newest first. -/
def phaWindow (c : AcqChannel) (half t : Nat) : List DecEntry :=
  match c.dec with
  | [] => []
  | d :: _ => (c.dec.drop ((d.at_ + microUnits - t) / microUnits - half)).take (2 * half)

/-- FREQ lies beyond F_NOM ±5 Hz, or is no number (R154). -/
def freqOff (sixty : Bool) (f : Word) : Bool :=
  !finite32 f || lt32 f (ratTo32 (if sixty then 55 else 45) 1) || lt32 (ratTo32 (if sixty then 65 else 55) 1) f

/-- The words of a PHA entry (Table AQ-5). -/
def phaWords (x : Nat × Nat) (rate : Nat) (q : Quality) (slewing : Bool) (values : List Word)
    (invalid low ovr calBad mark settling : Bool) : List Word :=
  [BitVec.ofNat 32 x.1, BitVec.ofNat 32 (q.code * 1073741824 + x.2 * 1000000000 / rate)] ++ values ++
    [0, flagWord [invalid, low, ovr, calBad, mark, settling, decide (q ≠ .locked), slewing]]

/-- The PHA entry of a channel for a reporting instant. -/
def phaEntry (ratio : Word) (c : AcqChannel) (mClass sixty : Bool) (rate : Nat) (x : Nat × Nat) (q : Quality) (slewing calBad : Bool) :
    List Word :=
  let half := phaHalf mClass sixty rate
  let w := phaWindow c half (instantAt rate x)
  let means := w.map (·.mean)
  let has (i : Nat) : Bool := w.any fun d => d.flags.getLsbD i
  let mag := Config.phasorMagnitude mClass sixty rate x.2 means
  let f := Config.phasorWord mClass sixty rate x.2 means 1
  phaWords x rate q slewing
    [engineering ratio c.range mag 1 (-40), Config.phasorWord mClass sixty rate x.2 means 0, f,
      Config.phasorWord mClass sixty rate x.2 means 2]
    (freqOff sixty f || has 2 || decide (w.length < 2 * half)) (decide (mag * 100 < 32768 * 2 ^ 40)) (has 0) (calBad || has 1) (has 2) (has 3)

/-! ### TWE (R145) -/

/-- The place in a window of codes, in samples as a fraction, at which the signal first comes to `level` in the sense of the step: 0 when its first code is
there already; none when it does not come there. -/
def passes (rising : Bool) (level : Int) : Nat → List Int → Option (Int × Nat)
  | _, [] => none
  | k, [a] => if (if rising then decide (level ≤ a) else decide (a ≤ level)) then some ((k : Int), 1) else none
  | k, a :: b :: rest =>
    if (if rising then decide (level ≤ a) else decide (a ≤ level)) then some ((k : Int), 1)
    else if (if rising then decide (level ≤ b) else decide (b ≤ level)) then
      some ((k : Int) * (b - a).natAbs + (level - a).natAbs, (b - a).natAbs)
    else passes rising level (k + 1) (b :: rest)

/-- AMPLITUDE, RISE and SLOPE from the codes around a firing (R145). Codes are scaled by 100, so that 10% and 90% of a step between two means of ten are
whole numbers. -/
def tweValues (ratio : Word) (range : Bool) (before after : List Int) : List Word :=
  let b := before.take 10 |>.map saturate
  let a := after.take 10 |>.map saturate
  let step := sumInt a - sumInt b
  let w := (b ++ a).map (· * 100)
  let largest := (w.zip w.tail).foldl (fun m x => if m < (x.2 - x.1).natAbs then (x.2 - x.1).natAbs else m) 0
  let rising := decide (0 ≤ step)
  let rise := match passes rising (10 * sumInt b + step) 0 w, passes rising (10 * sumInt b + 9 * step) 0 w with
    | some p, some q => ratTo32 (20 * (q.1 * p.2 - p.1 * q.2)) (p.2 * q.2)
    | _, _ => Config.riseUnstated (b ++ a)
  [engineering ratio range step 10 0, rise, engineering ratio range (largest * 50) 100 0]

/-! ### A frame of samples -/

/-- A frame of samples entered into the RAW, DEC and WAV rings of a channel, and what the WAV sample means for its cycles (R138 to R143). -/
def AcqChannel.takeFrame (c : AcqChannel) (ratio : Word) (hyst rawFrames : Nat) (f : RawFrame) (calBad mark : Bool) : AcqChannel :=
  let c1 := { c with raw := (f :: c.raw).take rawFrames, dec := (frameDec c f calBad mark ++ c.dec).take 8388608 }
  if (f.at_ + frameUnits) % wavStep = 0 then
    match wavEntry ratio c1 with
    | some w => c1.addWav hyst w
    | none => c1
  else c1

/-! ### Snapshots (R147, R148) -/

/-- Word `w` of the newest entry of a ring, 0 when it is empty. -/
def newestWord (ring : List (List Word)) (w : Nat) : Word := (ring.head?.bind (fun e => e[w]?)).getD 0

/-- The entry is flagged in one of the given bits, or there is none (R148). -/
def newestBad (ring : List (List Word)) (mask : Word) : Bool := ring.isEmpty || decide (newestWord ring 7 &&& mask ≠ 0)

/-- The twelve items of a channel with their bad quality (Table AQ-8, R148, R150); frequency and ROCOF of a signal below 1% of range are invalid too (Table
AQ-9). -/
def snapshotItems (ratio : Word) (c : AcqChannel) (calBad : Bool) (edges : Word) : List (Word × Bool) :=
  let eng (n : Int) : Word := engineering ratio c.range n 1 (-8)
  let dec : Word × Word × Word × Bool := match c.dec with
    | [] => (0, 0, 0, true)
    | d :: _ => (eng (d.lo * 256), eng (d.hi * 256), eng d.mean, !c.on || calBad || d.flags.getLsbD 1 || d.flags.getLsbD 3)
  let wav : Word × Bool := match c.wav with
    | [] => (0, true)
    | w :: _ => (w.value, !c.on || calBad || w.flags.getLsbD 1 || w.flags.getLsbD 3)
  let cyc := !c.on || newestBad c.cyc 0x38
  let pha := !c.on || newestBad c.pha 0x29
  let rate := !c.on || newestBad c.pha 0x2B
  [(dec.1, dec.2.2.2), (dec.2.1, dec.2.2.2), (dec.2.2.1, dec.2.2.2), wav, (newestWord c.cyc 4, cyc), (newestWord c.cyc 3, cyc),
    (newestWord c.cyc 5, cyc), (newestWord c.pha 2, pha), (newestWord c.pha 3, pha), (newestWord c.pha 4, rate), (newestWord c.pha 5, rate),
    (edges, !c.on)]

end Sys2Proof.Machine
end

