-- ==== Sys2Proof/Machine/Acquisition.lean ====
section
/-!
DEFINITION. Analogue acquisition (R130 to R166): the effects of a TAI second, the samples of a frame, entries of the CYC, PHA and TWE rings,
snapshots, PMU streams and sampled-value subscriptions.
-/

namespace Sys2Proof.Machine

open Reg

/-- The acquisition part changed by `f`. -/
def State.updAcq (s : State) (f : Acq → Acq) : State := { s with acq := f s.acq }

/-- Channel `n` replaced. -/
def State.setChan (s : State) (n : Nat) (c : AcqChannel) : State :=
  s.updAcq fun a => { a with channels := sparseSet {} a.channels n c }

/-- The channel is enabled: what is in force of ACH.CFG.EN (R139). -/
def State.chanOn (s : State) (n : Nat) : Bool := (s.achan n).on

/-- The time base moved to the next TAI second, unless it stands at one. -/
def State.advanceSecond (s : State) : State := s.advanceTo ((s.tb.now + secUnits - 1) / secUnits * secUnits)

/-! ### Delays and calibration (R134 to R137) -/

/-- Steps of 50 ps in a delay given in 2^-8 ns (R134). -/
def phaseSteps (d : Nat) : Nat := d * 20 / 256

/-- The samples that a result is labelled earlier than its conversion slot, m of R134, and the phase setting in steps of 50 ps, r of R134. -/
def AcqChannel.slotLead (c : AcqChannel) : Nat × Nat := (c.phase / 400, c.phase % 400)

/-- D of R134: path delay plus the external delay in force, 2^-8 ns. -/
def totalDelay (s : State) (n : Nat) : Nat := (s.reg (ACH.AFE_DELAY n)).toNat + (s.achan n).ext

/-- The conversion phase set to a number of steps; PHASE_OK says that it stands at D, which TOTAL_DELAY shows (R134, Table AQ-18). -/
def State.putPhase (s : State) (n p : Nat) : State :=
  ((s.setChan n { s.achan n with phase := p, phaseSet := true }).putRegBit (ACH.STATUS n) 27
    (decide (p = phaseSteps (totalDelay s n)))).setReg (ACH.TOTAL_DELAY n) (satWord (totalDelay s n))

/-- The conversion phase set to D at once (R134, R152). -/
def State.setPhase (s : State) (n : Nat) : State := s.putPhase n (phaseSteps (totalDelay s n))

/-- The conversion phase moved by at most one step of 50 ps toward D (R136); the first setting after a start is D itself. -/
def State.movePhase (s : State) (n : Nat) : State :=
  let c := s.achan n
  let goal := phaseSteps (totalDelay s n)
  s.putPhase n (if !c.phaseSet then goal else if c.phase < goal then c.phase + 1 else if goal < c.phase then c.phase - 1 else c.phase)

/-- The eight words of an AFE table. -/
def afeWords (t : AfeTable) : List Word :=
  [t.gain, t.offset, t.delay, t.twDelay, t.gainTc, t.offsetTc, t.delayTc, t.twTc]

/-- The AFE table of channel `n` on the range in force. -/
def State.afeTable (s : State) (n : Nat) : Option AfeTable := s.acq.afe[2 * n + b2n (s.achan n).range]?

/-- The AFE values of channel `n` applied at the measured temperature (R136). -/
def State.applyAfe (s : State) (n : Nat) : State :=
  match s.afeTable n with
  | none => s
  | some t =>
    let v (k : Nat) : Word := Config.afeApplied (afeWords t) (s.reg ACQ.AFE_TEMP) k
    ((((s.setReg (ACH.AFE_GAIN n) (v 0)).setReg (ACH.AFE_OFFSET n) (v 1)).setReg (ACH.AFE_DELAY n) (v 2)).setReg (ACH.AFE_TW_DELAY n) (v 3)).setReg
      (ACH.AFE_TC n) (v 4)

/-- CALIBRATION_UPDATE (R136): at each TAI second, the AFE tables applied at the measured temperature. -/
def execCalibrationUpdate (temp : Word) (s : State) : Host.Outcome State Fault Refusal :=
  .next ((List.range 8).foldl (fun t n => (t.applyAfe n).movePhase n) (s.advanceSecond.setReg ACQ.AFE_TEMP temp))

/-- A reading of the calibration check passes (R137): the gain agrees within 0.1% and the offset lies within 0.05% of range. Full scale is 32,768 LSB of 256. -/
def readingPasses (r : CalReading) : Bool :=
  let full : Nat := 32768 * 256
  decide ((10 * (r.high - r.zero) - 9 * (full : Int)).natAbs * 1000 ≤ 9 * full) && decide (r.zero.natAbs * 10000 ≤ 5 * full)

/-- Channel `n` passes on both ranges; a reading that is missing fails. -/
def channelPasses (c : CalibrationCheck) (n : Nat) : Bool :=
  (c.readings[2 * n]?).any readingPasses && (c.readings[2 * n + 1]?).any readingPasses

/-- The result of a calibration check (R137): the AFE tables are taken, and the channels that fail have their faults, alarms and events. -/
def State.takeCalibration (s : State) (c : CalibrationCheck) : State :=
  let s1 := (((s.putRegBit ACQ.STATUS 29 c.afeOk).setReg ACQ.AFE_INFO c.afeInfo).setReg ACQ.AFE_TEMP c.temperature).updAcq fun a =>
    { a with afe := if c.afeOk then c.tables else [] }
  (List.range 8).foldl (fun t n =>
    let bad := !channelPasses c n || !c.afeOk
    let t1 := ((t.applyAfe n).setPhase n).putRegBit (ACH.STATUS n) 28 bad
    if bad then (t1.orReg (ACH.ALARM n) 8).raise (0x3102 + 0x100 * n) n else t1) s1

/-! ### The set of channels and their ranges (R139, R152) -/

/-- The smallest power of two from 1 to 8 that is at least the number of enabled channels (R139). -/
def rawDivisor (n : Nat) : Nat := if n ≤ 1 then 1 else if n ≤ 2 then 2 else if n ≤ 4 then 4 else 8

/-- Enabled channels. -/
def State.chansOn (s : State) : Nat := (List.range 8).countP s.chanOn

/-- Bytes of RAW ring per channel (R139, Table AQ-3). -/
def rawShare (s : State) : Nat := 536870912 / rawDivisor s.chansOn

/-- The trigger part changed by `f`. -/
def State.updTrg (s : State) (f : Trig → Trig) : State := { s with trg := f s.trg }

/-- Open records lose the rest of their RAW samples when the ring is reallocated (R139). -/
def State.truncateRaw (s : State) : State :=
  s.updTrg fun t =>
    { t with records := t.records.map (fun r =>
        if r.isOpen ∧ ¬ r.written ∧ ¬ r.rawOmit ∧ bit ((r.words[0]?).getD 0) 29 then { r with rawTrunc := true, rawEnd := some s.tb.up } else r) }

/-- ACH.CFG.EN of channel `n` put in force; RAW contents are discarded (R139). -/
def State.enableChannel (s : State) (n : Nat) : State := s.setChan n { s.achan n with on := s.regBit (ACH.CFG n) 31, raw := [] }

/-- ACH.CFG.RANGE and ACH.EXT_DELAY of channel `n` put in force (R152). -/
def State.takeRange (s : State) (n : Nat) : State :=
  s.setChan n { s.achan n with range := s.regBit (ACH.CFG n) 8, ext := (s.reg (ACH.EXT_DELAY n)).toNat }

/-- RAW_RING_REALLOCATE (R139): at the TAI second after a change of the channel set, the set is in force, and all RAW contents are discarded. -/
def execRawRingReallocate (s : State) : Host.Outcome State Fault Refusal :=
  if s.acq.reallocDue then
    let s1 := (List.range 8).foldl State.enableChannel s.advanceSecond
    let s2 := (s1.updAcq fun a => { a with reallocDue := false, rawSince := s1.tb.now }).setReg ACQ.RAW_SHARE
      (BitVec.ofNat 32 (rawShare s1))
    .next ((s2.truncateRaw.orReg ACQ.ERRORS 1#32).raiseBlock 0x3001)
  else .next s

/-- RANGE_CHANGE_EFFECT (R152): at the next TAI second the change takes effect and settling begins. -/
def execRangeChangeEffect (n : Fin 8) (s : State) : Host.Outcome State Fault Refusal :=
  if (s.achan n.val).settleDue then
    let s1 := (s.advanceSecond.takeRange n.val).applyAfe n.val
    let s2 := s1.setChan n.val { s1.achan n.val with settleDue := false, settleAt := some s1.tb.now }
    .next ((s2.setPhase n.val).putRegBit (ACH.STATUS n.val) 29 true)
  else .next s

/-- SETTLING_END (R152): 20 µs later. -/
def execSettlingEnd (n : Fin 8) (s : State) : Host.Outcome State Fault Refusal :=
  if s.regBit (ACH.STATUS n.val) 29 then
    let at_ := ((s.achan n.val).settleAt).getD s.tb.now
    let s1 := (s.advanceTo (at_ + 20 * microUnits)).putRegBit (ACH.STATUS n.val) 29 false
    .next (((s1.orReg (ACH.ALARM n.val) 4#32).setReg (ACH.SETTLE_SEC n.val) (secWord at_)).raise (0x3104 + 0x100 * n.val) n.val)
  else .next s

/-- What acquisition sets up at a start: the configuration that is in force, the RAW ring's shares, and what the registers ask for of PHA; acquisition
runs (R137, R139, R158, Table AQ-14). -/
def State.startAcq (s : State) : State :=
  let s1 := (List.range 8).foldl (fun t n => (t.enableChannel n).takeRange n) s
  let s2 := s1.updAcq fun a =>
    { a with
      rawSince := s1.tb.now
      phaClaims := (List.range 8).filterMap fun n =>
        let r := s1.reg (ACH.PHA_CFG n)
        if bit r 31 ∧ ¬ bit r 29 then some (n, (bit r 30, fld r 15 0)) else none }
  (s2.setReg ACQ.RAW_SHARE (BitVec.ofNat 32 (rawShare s2))).putRegBit ACQ.STATUS 31 true

/-! ### What held at a past instant -/

/-- The mark in force at a time. -/
def State.markAt (s : State) (t : Nat) : Option TickMark := s.acq.ticks.find? fun m => decide (m.at_ ≤ t)

/-- The time quality at an instant (Tables AQ-4 to AQ-6). -/
def State.qualityAt (s : State) (t : Nat) : Quality := ((s.markAt t).map (·.quality)).getD s.tb.quality

/-- TB.STATUS.SLEWING at an instant (R151). -/
def State.slewingAt (s : State) (t : Nat) : Bool := ((s.markAt t).map (·.slewing)).getD s.tb.slewing

/-- The UTC offset at an instant (R156). -/
def State.utcAt (s : State) (t : Nat) : Int := ((s.markAt t).map (·.utc)).getD (BitVec.ofNat 16 (s.regFld TB.UTC_OFFSET 15 0)).toInt

/-- The levels of the digital channels at the frame tick after an instant (Table AQ-10). -/
def State.levelsAfter (s : State) (t : Nat) : Word :=
  ((s.markAt ((t / frameUnits + 1) * frameUnits)).map (·.levels)).getD (s.reg DIO.IN_LEVEL)

/-- The module leads the plant: ACTIVE or SOLO. -/
def State.leads (s : State) : Bool := decide (s.role = .active) || decide (s.role = .solo)

/-- The tick of the first frame in which the module leads without a break since then (R159). -/
def State.leadsFrom (s : State) : Option Nat := ((s.acq.ticks.takeWhile (·.leads)).getLast?).map (·.at_)

/-- What holds at a frame tick marked, where it differs from the last mark. -/
def State.noteTick (s : State) : State :=
  let m : TickMark :=
    { at_ := s.tb.now, up := s.tb.up, quality := s.tb.quality, slewing := s.tb.slewing
      utc := (BitVec.ofNat 16 (s.regFld TB.UTC_OFFSET 15 0)).toInt, levels := s.reg DIO.IN_LEVEL, leads := s.leads }
  let same := s.acq.ticks.head?.any fun o => decide ({ o with at_ := m.at_, up := m.up } = m)
  if same then s else s.updAcq fun a => { a with ticks := (m :: a.ticks).take 65536 }

/-! ### Entries -/

/-- A CYC entry written (Table AQ-4). -/
def State.writeCyc (s : State) (n : Nat) (x : CycleSpan) : State :=
  let c := s.achan n
  let e := cycEntry (s.reg (ACH.RATIO n)) c x (s.qualityAt x.start) (s.calInvalid n)
  ((s.setChan n
    { c with cyc := (e :: c.cyc).take 65536, cycUp := ((s.tb.up - (s.tb.now - x.start)) :: c.cycUp).take 65536, closed := c.closed.drop 1 }).incReg
      (ACH.CYC_HEAD n)).putRegBit (ACH.STATUS n) 25 (decide (e.getD 7 0 = 0))

/-- The cycle of a channel that waits longest for its entry, when 2.000 ms have passed since it ended (Table AQ-2). -/
def State.cycleDue (s : State) (n : Nat) : Option CycleSpan :=
  if s.chanOn n then (s.achan n).closed.head?.filter fun x => decide (x.finish + 2000 * microUnits ≤ s.tb.now) else none

/-- CYCLE_ZERO_CROSSING (R142, R143): the entry of a cycle that a crossing closed. -/
def execCycleZeroCrossing (n : Fin 8) (s : State) : Host.Outcome State Fault Refusal :=
  match s.cycleDue n.val with
  | some x => if x.crossed then .next (s.writeCyc n.val x) else .next s
  | none => .next s

/-- CYCLE_NO_CROSSING (R143): the entry of 25 ms after the last cycle start without a crossing. -/
def execCycleNoCrossing (n : Fin 8) (s : State) : Host.Outcome State Fault Refusal :=
  match s.cycleDue n.val with
  | some x => if x.crossed then .next s else .next (s.writeCyc n.val x)
  | none => .next s

/-- The phasor half-words present in PMU `m` (Table AQ-13). -/
def pmuPhasors (s : State) (m : Nat) : List Nat :=
  ((List.range 16).map fun k => if k % 2 = 0 then s.winFld .pmu m (4 + k / 2) 31 16 else s.winFld .pmu m (4 + k / 2) 15 0).filter
    (fun h => decide (0x8000 ≤ h))

/-- The first enabled PMU that uses position `c` of stream `k` (R158, Table AQ-13). -/
def streamPmu (s : State) (k c : Nat) : Option Nat :=
  (List.range 16).find? fun m =>
    s.winBit .pmu m 0 31 && (pmuPhasors s m).any fun h => decide (h / 4096 % 2 = 1 ∧ h / 64 % 64 = k ∧ h % 8 = c)

/-- Samples per second of a format (Table AQ-11). -/
def svRate (format : Nat) : Nat :=
  match format with
  | 1 => 14400
  | 2 => 4000
  | _ => 4800

/-- The phasor of position `c` of stream `k` for a reporting instant (R153, R162, R163): invalid when more than 1% of the window's samples are missing, the
samples are unsynchronised or the stream is not received. -/
def streamEntry (s : State) (k c : Nat) (mClass : Bool) (rate : Nat) (x : Nat × Nat) : List Word :=
  let sixty := s.regBit ACQ.CFG 8
  let st := sparseGet {} s.acq.streams k
  let half := phaHalf mClass sixty rate * microUnits
  let t := instantAt rate x
  let w := (st.samples.filter fun a => decide (t < a.at_ + half ∧ a.at_ < t + half)).map fun a => (a.values[c]?).getD none
  let wanted := svRate (s.winFld .sv k 0 30 28) * (2 * half) / secUnits
  let v (i : Nat) : Word := Config.streamPhasor mClass sixty rate x.2 w i
  let have_ := w.countP Option.isSome
  let bad := freqOff sixty (v 2) || decide (have_ * 100 < wanted * 99) || decide (st.synch = 0) || decide (s.winFld .sv k 13 31 24 ≠ 2)
  phaWords x rate (s.qualityAt t) (s.slewingAt t) [v 0, v 1, v 2, v 3] bad false false false false false

/-- The entry describes the reporting instant `x` (Table AQ-5). -/
def entryOf (rate : Nat) (x : Nat × Nat) (e : List Word) : Bool :=
  decide (e.getD 0 0 = BitVec.ofNat 32 x.1) && decide (fld (e.getD 1 0) 29 0 = x.2 * 1000000000 / rate)

/-- PHA_ENTRY_COMPLETE (R144, R151): the entry of the last reporting instant whose measurement latency has passed is written, once; for a
sampled-value source it is kept for the PMUs. -/
def execPhaEntryComplete (src : PhasorSource) (s : State) : Host.Outcome State Fault Refusal :=
  let sixty := s.regBit ACQ.CFG 8
  match src with
  | .channel n =>
    let c := s.achan n.val
    let mClass := s.regBit (ACH.PHA_CFG n.val) 30
    let rate := s.regFld (ACH.PHA_CFG n.val) 15 0
    let x := reportingInstant rate (s.tb.now - phaLatency mClass sixty rate)
    if s.chanOn n.val ∧ s.regBit (ACH.PHA_CFG n.val) 31 ∧ rate ≠ 0 ∧ phaLatency mClass sixty rate ≤ s.tb.now ∧ ¬ c.pha.head?.any (entryOf rate x) then
      let t := instantAt rate x
      let e := phaEntry (s.reg (ACH.RATIO n.val)) c mClass sixty rate x (s.qualityAt t) (s.slewingAt t) (s.calInvalid n.val)
      let flags := e.getD 7 0
      let s1 := (s.setChan n.val
        { c with pha := (e :: c.pha).take 131072, phaUp := ((s.tb.up - (s.tb.now - t)) :: c.phaUp).take 131072 }).incReg (ACH.PHA_HEAD n.val)
      let s2 := (s1.putRegBit (ACH.STATUS n.val) 26 (!bit flags 0 && !bit flags 3)).putRegBit (ACH.STATUS n.val) 23 (bit flags 1)
      .next (if bit flags 0 then s2.orReg (ACH.ALARM n.val) 32#32 else s2)
    else .next s
  | .stream k c =>
    match streamPmu s k.val c.val with
    | none => .next s
    | some m =>
      let mClass := s.winBit .pmu m 0 30
      let rate := s.winFld .pmu m 1 31 16
      let x := reportingInstant rate (s.tb.now - phaLatency mClass sixty rate)
      let held := (sparseFind s.acq.svPhasors (k.val * 8 + c.val)).getD []
      if rate ≠ 0 ∧ phaLatency mClass sixty rate ≤ s.tb.now ∧ ¬ held.head?.any (entryOf rate x) then
        .next (s.updAcq fun a =>
          { a with svPhasors := sparseInsert a.svPhasors (k.val * 8 + c.val) ((streamEntry s k.val c.val mClass rate x :: held).take 256) })
      else .next s

/-- The stamp of a firing with the travelling-wave path delay taken off (R135). -/
def firingTime (s : State) (n : Nat) (stamp : Instant) : Nat :=
  ofInstant stamp - ((s.reg (ACH.AFE_TW_DELAY n)).toNat + (s.achan n).ext) * 16777216

/-- The previous TWE entry marked MERGED (R145). -/
def markMerged : List (List Word) → List (List Word)
  | ([a, b, c, d, e, f, g, h]) :: rest => [a, b, c ||| 2#32, d, e, f, g, h] :: rest
  | l => l

/-- The input falls at the firing. -/
def falls (f : Firing) : Bool := bit f.slope 31

/-- The words of a TWE entry (Table AQ-6); FRAC is in bytes 8–9 and FLAGS in bytes 10–11. A window that a step lies in carries the discontinuity flag. -/
def tweEntry (s : State) (n t : Nat) (f : Firing) : List Word :=
  let c := s.achan n
  let ovr := (f.before ++ f.after).any fun x => overCode (saturate x)
  let mark := s.acq.steppedAt.any fun u => decide (s.tb.up - (s.tb.now - t) < u + 200 * nsUnits ∧ u < s.tb.up - (s.tb.now - t) + 200 * nsUnits)
  [secWord t, qualityNs (s.qualityAt t) t,
    BitVec.ofNat 32 (fracOf t * 65536 + bitsOf [falls f, false, ovr, s.calInvalid n, mark])]
    ++ tweValues (s.reg (ACH.RATIO n)) c.range f.before f.after ++ [s.reg (ACH.TWE_HEAD n), 0]

/-- The polarity that TWE_CFG permits (Table AQ-16). -/
def polarityOk (s : State) (n : Nat) (falling : Bool) : Bool :=
  match s.regFld (ACH.TWE_CFG n) 17 16 with
  | 1 => !falling
  | 2 => falling
  | _ => true

/-- The slope at the terminal exceeds TWE_THRESH (R145). -/
def slopeExceeds (s : State) (n : Nat) (slope : Word) : Bool :=
  lt32 (s.reg (ACH.TWE_THRESH n)) (slope &&& 0x7FFFFFFF#32)

/-- The comparator of channel `n` fires on a slope: enabled, in a polarity permitted, and steep enough (R145). -/
def fires (s : State) (n : Nat) (f : Firing) : Bool :=
  s.chanOn n && s.regBit (ACH.TWE_CFG n) 31 && polarityOk s n (falls f) && slopeExceeds s n f.slope

/-- A firing lost because the second is full (R146, TWE_OVERFLOW). -/
def State.loseFiring (s : State) (n : Nat) (first : Bool) : State :=
  let s1 := (s.incReg (ACH.TWE_LOST n)).orReg (ACH.ALARM n) 16#32
  if first then s1.raise (0x3103 + 0x100 * n) n else s1

/-- TWE_FIRING (R145, R146, R135). -/
def execTweFiring (n : Fin 8) (f : Firing) (s : State) : Host.Outcome State Fault Refusal :=
  if fires s n.val f then
    let c := s.achan n.val
    let t := firingTime s n.val f.stamp
    let near := match c.lastFiring with
      | some l => decide (t < l + s.regFld (ACH.TWE_CFG n.val) 15 0 * clockUnits)
      | none => false
    if near then .next (s.setChan n.val { c with twe := markMerged c.twe })
    else
      let count := if secOf t = c.tweSec then c.tweCount else 0
      if 4096 ≤ count then
        .next ((s.setChan n.val { c with tweSec := secOf t, tweCount := count + 1 }).loseFiring n.val (decide (count = 4096)))
      else
        .next ((s.setChan n.val
          { c with twe := (tweEntry s n.val t f :: c.twe).take 65536, tweUp := ((s.tb.up - (s.tb.now - t)) :: c.tweUp).take 65536, tweSec := secOf t, tweCount := count + 1, lastFiring := some t }).incReg
            (ACH.TWE_HEAD n.val))
  else .next s

/-! ### Snapshots (R147 to R149) -/

/-- The reference of snapshot item `i` of channel `n` (R72). -/
def snapshotPoint (n i : Nat) : Word := BitVec.ofNat 32 (0xA0000000 + n * 256 + i)

/-- The items published: registers, and points bound in the running image. -/
def State.publishItems (s : State) (n i : Nat) : List (Word × Bool) → State
  | [] => s
  | (v, bad) :: rest =>
    ((s.setReg (ACH.ITEM n i) v).feed (snapshotPoint n i) (if bad then none else some (v, s.frame.t0))).publishItems n (i + 1) rest

/-- OVERRANGE (R131) of channel `n`: the frame held an overrange sample. -/
def State.noteOverrange (s : State) (n : Nat) (ovr : Bool) : State :=
  let s1 := s.putRegBit (ACH.STATUS n) 30 ovr
  if ovr then ((s1.incReg (ACH.OVR_COUNT n)).orReg (ACH.ALARM n) 1#32).raise (0x3101 + 0x100 * n) n else s1

/-- The samples of the frame that has ended enter the reductions of an enabled channel (R138), whose heads move on. -/
def State.sampleChannel (s : State) (n : Nat) (x : ChannelInput) : State :=
  let s0 := s.setChan n { s.achan n with commonModeOk := x.commonModeOk }
  match s.acq.frameFrom with
  | none => s0
  | some (at_, up) =>
    if !s.chanOn n then s0.putRegBit (ACH.STATUS n) 30 false
    else
      let codes := (x.codes.take 500).map saturate
      let c := (s0.achan n).takeFrame (s.reg (ACH.RATIO n)) (s.regFld (ACH.CYC_CFG n) 15 0) (rawShare s / 1000 + 1)
        { at_ := at_, up := up, codes := codes } (s.calInvalid n) s.acq.markNext
      let s1 := ((s0.setChan n c).setReg (ACH.RAW_LAST n) (BitVec.ofInt 16 (codes.getLast?.getD 0) |>.zeroExtend 32)).addReg (ACH.DEC_HEAD n) 10
      let s2 := if (at_ + frameUnits) % wavStep = 0 then s1.incReg (ACH.WAV_HEAD n) else s1
      s2.noteOverrange n (codes.any overCode)

/-- REDUCTION_SNAPSHOT (R147): the items of one channel at a frame tick. -/
def State.snapshotChannel (s : State) (n : Nat) : State :=
  let items := snapshotItems (s.reg (ACH.RATIO n)) (s.achan n) (s.calInvalid n) (s.reg (ACH.TWE_HEAD n))
  (s.setChan n { s.achan n with itemsBad := BitVec.ofNat 12 (bitsOf (items.map (·.2))) }).publishItems n 0 items

/-- The channels of a list sampled and snapshotted, from `n` on. -/
def State.snapshotAll (s : State) (n : Nat) : List ChannelInput → State
  | [] => s
  | r :: rest => ((s.sampleChannel n r).snapshotChannel n).snapshotAll (n + 1) rest

/-- The RAW ring's newest and oldest sample (Table AQ-14) at a frame tick: the newest is the last one of the frame that has ended. -/
def State.moveRaw (s : State) : State :=
  let step := 20 * nsUnits
  let head := s.tb.now - step
  let len := (rawShare s / 2 - 1) * step
  let tail := if head - len < s.acq.rawSince then s.acq.rawSince else head - len
  (((s.setReg ACQ.RAW_HEAD_SEC (secWord head)).setReg ACQ.RAW_HEAD_IDX (BitVec.ofNat 32 (nsOf head / 20))).setReg
    ACQ.RAW_TAIL_SEC (secWord tail)).setReg ACQ.RAW_TAIL_IDX (BitVec.ofNat 32 (nsOf tail / 20))

/-- Whether an enabled PMU uses local channel `n`. -/
def pmuUses (s : State) (n : Nat) : Bool := (List.range 16).any fun m => decide (n ∈ pmuSources s m)

/-- The PHA configuration of the local channels as PMU `m` claims it (R158): enabled, with its class and rate; PMU_OWNED goes where no
PMU uses the channel any more, and EN with it unless the registers ask for phasors too (notes/assumptions/120.md). -/
def State.claimPha (s : State) (m : Nat) : State :=
  (List.range 8).foldl (fun t n =>
    if n ∈ pmuSources t m then
      t.setReg (ACH.PHA_CFG n)
        (BitVec.ofNat 32 (0xA0000000 + t.winFld .pmu m 0 30 30 * 1073741824 + t.winFld .pmu m 1 31 16))
    else if pmuUses t n ∨ ¬ t.regBit (ACH.PHA_CFG n) 29 then t
    else (t.putRegBit (ACH.PHA_CFG n) 29 false).putRegBit (ACH.PHA_CFG n) 31 (sparseFind t.acq.phaClaims n).isSome) s

/-- The TCP connections of PMU `m` ended (R155, R159): event 0x3005 for each client. -/
def State.endPmuClients (s : State) (m : Nat) : State :=
  (List.range (s.regFld (ACQ.PMU_STATE m) 23 16)).foldl (fun t _ => t.raise 0x3005 m) (s.putReg (ACQ.PMU_STATE m) 23 16 0)

/-- The state of a PMU after a commit: its connections stay where it is served on the same TCP port as before (notes/assumptions/120.md). -/
def State.restartPmu (s : State) (m : Nat) (words : List Word) : State :=
  let tcp (w0 : Word) : Bool := bit w0 31 && decide (fld w0 29 28 ≠ 3)
  if tcp (words.getD 0 0) ∧ tcp (s.win .pmu m 0) ∧ fld (words.getD 2 0) 31 16 = s.winFld .pmu m 2 31 16 then s
  else (s.endPmuClients m).putReg (ACQ.PMU_STATE m) 31 28
    (if !(bit (words.getD 0 0) 31) then 0 else if fld (words.getD 0 0) 29 28 = 3 then 2 else 1)

/-- Accepted configurations applied at the frame tick (R165): each PMU's words, with the change flag, the count and event 0x3004. -/
def State.applyPmus (s : State) : List (Nat × PmuStream) → State
  | [] => s
  | (m, p) :: rest =>
    match p.due with
    | none => s.applyPmus rest
    | some words =>
      let s0 := s.restartPmu m words
      let s1 := ((List.range 13).foldl (fun t w => t.setWin .pmu m w ((words[w]?).getD 0)) s0).setWin .pmu m 13 (s.win .pmu m 13 + 1)
      let s2 := s1.updAcq fun a => { a with pmus := sparseSet {} a.pmus m { p with due := none, changed := true, committedAt := s.tb.up } }
      ((s2.claimPha m).raise 0x3004 m).applyPmus rest

/-- Accepted subscriptions applied at the frame tick (R165). -/
def State.applySvs (s : State) : List (Nat × List Word) → State
  | [] => s
  | (k, words) :: rest =>
    let s1 := (List.range 13).foldl (fun t w => t.setWin .sv k w ((words[w]?).getD 0)) s
    let st := if bit ((words[0]?).getD 0) 31 then 1 else 0
    ((s1.setWin .sv k 13 (BitVec.ofNat 32 (st * 16777216))).updAcq fun a => { a with streams := sparseErase a.streams k }).applySvs rest

/-- The acquisition part of a frame tick: what was accepted for it, then the samples of the frame that has ended; the sample clock follows the time
base from the first tick on (Table AQ-14). -/
def State.acqTick (s : State) (r : List ChannelInput) : State :=
  let s1 := s.applyPmus s.acq.pmus
  let s2 := (s1.applySvs s1.acq.svDue).updAcq fun a => { a with svDue := [] }
  let s3 := s2.moveRaw.snapshotAll 0 (r.take 8)
  (s3.updAcq fun a => { a with frameFrom := some (s.tb.now, s.tb.up), markNext := false }).putRegBit ACQ.STATUS 30 true

/-- A step of the time base (R150): the rings are marked at the step tick, open records straddle it, CYC restarts, and each channel is
discontinuous. -/
def State.acqStep (s : State) : State :=
  let s1 := (s.updAcq fun a => { a with steppedAt := some s.tb.up, markNext := true }).updTrg fun t =>
    { t with records := t.records.map fun r => if r.isOpen && !r.written then { r with discontinuity := true } else r }
  (List.range 8).foldl (fun t n =>
    (t.setChan n { t.achan n with armed := false, zeroAt := none, cycleStart := none, closed := [] }).orReg (ACH.ALARM n) 2#32) s1

/-! ### Entry windows (R166) -/

/-- The entry `e` of a ring of which `head` entries were written: none when it is not held or not yet written. -/
def ringEntry (ring : List (List Word)) (head e : Nat) : Option (List Word) := if e < head then ring[head - 1 - e]? else none

/-- An entry loaded into a window: the select register, then the eight words from `win` (R166). -/
def State.loadEntry (s : State) (sel win : Nat) (e : Nat) (found : Option (List Word)) : State :=
  let s1 := s.setReg sel (BitVec.ofNat 32 (e % 2147483648 + b2n found.isNone * 2147483648))
  (List.range 8).foldl (fun t w => t.setReg (win + w) ((found.bind (fun l => l[w]?)).getD 0)) s1

end Sys2Proof.Machine
end

