-- ==== Sys2Proof/Machine/Records.lean ====
section
/-!
DEFINITION. Disturbance records (R185 to R190): their windows, what they capture of the reductions, how they open, extend, end and are committed.
-/

namespace Sys2Proof.Machine

open Reg

/-! ### The windows of a record profile (Table TG-15) -/

/-- Word `w` of a profile. -/
def profWord (words : List Word) (w : Nat) : Word := (words[w]?).getD 0

/-- The longest pre-window of a profile, from the reductions it records: RAW to TWE (Table TG-15). -/
def preWindow (words : List Word) : Nat :=
  let w (n : Nat) : Nat := (profWord words n).toNat
  let all := [w 1 * 1000, w 3 / 65536 * 1000000, w 4 / 65536 * 10000000, w 5 / 65536 * 25000000, w 6 / 65536 * 100000000, w 7 / 65536 * 10000]
  ((List.range 6).map fun i => if bit (profWord words 0) (29 - i) then all.getD i 0 * nsUnits else 0).foldl Nat.max 0

/-- The longest post-window of a profile; a power cycle lasts at most 25 ms (Table TG-15, R143). -/
def postWindow (words : List Word) : Nat :=
  let w (n : Nat) : Nat := (profWord words n).toNat
  let all := [w 2 * 1000, w 3 % 65536 * 1000000, w 4 % 65536 * 10000000, w 5 % 65536 * 25000000, w 6 % 65536 * 100000000, w 7 % 65536 * 10000]
  ((List.range 6).map fun i => if bit (profWord words 0) (29 - i) then all.getD i 0 * nsUnits else 0).foldl Nat.max 0

/-! ### Opening and extending (R185 to R188) -/

/-- Bits set in the low eight of a number. -/
def ones (n : Nat) : Nat := (List.range 8).countP fun i => n.testBit i

/-- Bytes of RAW per channel and µs: 50 samples of 2 bytes (R186). -/
def rawBytes (words : List Word) (micros : Nat) : Nat := ones (fld ((words[0]?).getD 0) 23 16) * 100 * micros

/-- The RAW need of a record at its start; 0 when RAW is not recorded (R188). -/
def rawNeed (words : List Word) : Nat :=
  if bit (profWord words 0) 29 then rawBytes words ((profWord words 1).toNat + (profWord words 2).toNat) else 0

/-- Free staging space (R188): 256 MB less what open records hold. -/
def stagingFree (s : State) : Nat :=
  268435456 - ((s.trg.records.filter (fun r => r.isOpen)).map (·.staging)).foldl (· + ·) 0

/-- The committed words of profile `k`. -/
def profileWords (s : State) (k : Nat) : List Word := (List.range 11).map fun w => s.win .records k w

/-- A RAW part omitted or truncated (R188): event 0x4006, counted, alarmed. -/
def State.noteRaw (s : State) (k : Nat) : State :=
  ((s.satRegFld TRG.REC_LOST 31 16).orReg TRG.ALARM 4#32).raise 0x4006 k

/-- The smallest time quality code of C37.118.2-2011 whose bound covers a number of ns, from 1 (1 ns) by decades (R156). -/
def timeQualityCode (ns : Nat) : Nat :=
  if ns ≤ 1 then 1 else if ns ≤ 10 then 2 else if ns ≤ 100 then 3 else if ns ≤ 1000 then 4 else if ns ≤ 10000 then 5
  else if ns ≤ 100000 then 6 else if ns ≤ 1000000 then 7 else if ns ≤ 10000000 then 8 else if ns ≤ 100000000 then 9
  else if ns ≤ 1000000000 then 10 else 11

/-- Codes of the time quality as COMTRADE gives it, the one of C37.118.2: 0 LOCKED, 4 bits (R192). -/
def tmqCode (s : State) : Nat :=
  match s.tb.quality with
  | .locked => 0
  | .holdover => timeQualityCode (s.reg TB.HOLD_EST).toNat
  | _ => 15

/-- leapsec of COMTRADE: 0 none, 1 a second is added, 2 one is removed (R192). -/
def leapCode (s : State) : Nat := if s.regBit TB.LEAP_CTRL 31 then (if s.regBit TB.LEAP_CTRL 30 then 2 else 1) else 0

/-- The channels of a profile's mask as they stand at the start of a record. -/
def startChannels (s : State) (words : List Word) : List RecordChannel :=
  ((List.range 8).filter fun n => bit (profWord words 0) (16 + n)).map fun n =>
    { n := n, range := (s.achan n).range, ratio := s.reg (ACH.RATIO n), unit := s.regFld (ACH.CFG n) 1 0
      rate := if s.regBit (ACH.PHA_CFG n) 31 then s.regFld (ACH.PHA_CFG n) 15 0 else 0 }

/-- Units of up-time of the pre-window (false) or post-window of reduction `i` (RAW, DEC, WAV, CYC, PHA, TWE; CYC at its longest), 0 where the profile does
not record it. -/
def windowOf (words : List Word) (post : Bool) (i : Nat) : Nat :=
  let w (n : Nat) : Nat := (profWord words n).toNat
  let half (n : Nat) : Nat := if post then w n % 65536 else w n / 65536
  let ns := match i with
    | 0 => w (if post then 2 else 1) * 1000
    | 1 => half 3 * 1000000
    | 2 => half 4 * 10000000
    | 3 => half 5 * 25000000
    | 4 => half 6 * 100000000
    | _ => half 7 * 10000
  if bit (profWord words 0) (29 - i) then ns * nsUnits else 0

/-- The record holds reduction `i`. -/
def recorded (words : List Word) (i : Nat) : Bool := bit (profWord words 0) (29 - i)

/-- Up-time of an instant of the time base not after now. -/
def upAt (s : State) (t : Nat) : Nat := s.tb.up - (s.tb.now - t)

/-- The entries of a ring, newest first, that are newer than the newest one held. -/
def fresher {α : Type} (up : α → Nat) (ring held : List α) : List α :=
  ring.takeWhile fun e => match held with
    | [] => true
    | h :: _ => decide (up h < up e)

/-- The entries of a ring that a record takes: newer than those it holds, and in its window. -/
def taken {α : Type} (up : α → Nat) (lo hi : Nat) (ring held : List α) : List α :=
  (fresher up ring held).filter (fun e => decide (lo ≤ up e ∧ up e < hi)) ++ held

/-- CYC entries that a record takes (R186): before the trigger the last `pre` cycles, after the last trigger time `post` cycles, and all between. -/
def takenCycles (pre post trig last : Nat) (ring held : List (Nat × List Word)) : List (Nat × List Word) :=
  let new := (fresher (·.1) ring held).reverse
  let early := new.filter fun e => decide (e.1 < trig)
  let late := new.filter fun e => decide (trig ≤ e.1)
  let h0 := early.foldl (fun l e => e :: l) held
  late.foldl (fun l e => if l.countP (fun x => decide (last ≤ x.1)) < post ∨ e.1 < last then e :: l else l)
    (if h0.any (fun e => decide (trig ≤ e.1)) then h0 else h0.take pre)

/-- What an open record takes of one channel's rings now (R186). -/
def captureChannel (s : State) (r : TrigRecord) (x : RecordChannel) : RecordChannel :=
  let c := s.achan x.n
  let lo (i : Nat) : Nat := r.trigUp - windowOf r.words false i
  let hi (i : Nat) : Nat := r.lastUp + windowOf r.words true i
  let rawHi := match r.rawEnd with
    | some e => if e < hi 0 then e else hi 0
    | none => hi 0
  let on (i : Nat) : Bool := recorded r.words i
  { x with
    raw := if on 0 && !r.rawOmit then
        (fresher RawFrame.up c.raw x.raw).filter (fun f => decide (lo 0 < f.up + frameUnits ∧ f.up < rawHi)) ++ x.raw
      else []
    dec := if on 1 then taken DecEntry.up (lo 1) (hi 1) c.dec x.dec else []
    wav := if on 2 then taken WavEntry.up (lo 2) (hi 2) c.wav x.wav else []
    cyc := if on 3 then
        takenCycles ((profWord r.words 5).toNat / 65536) ((profWord r.words 5).toNat % 65536) r.trigUp r.lastUp (c.cycUp.zip c.cyc) x.cyc
      else []
    pha := if on 4 then taken (·.1) (lo 4) (hi 4) (c.phaUp.zip c.pha) x.pha else []
    twe := if on 5 then taken (·.1) (lo 5) (hi 5) (c.tweUp.zip c.twe) x.twe else [] }

/-- An entry of word 7 flags or of DEC flags that a record's summary carries: discontinuity, and settling or calibration invalid (R190). -/
def RecordChannel.flagged (x : RecordChannel) : Bool × Bool :=
  let words := (x.cyc.map (·.2)) ++ (x.pha.map (·.2))
  let d := (x.dec.map (·.flags)) ++ (x.wav.map (·.flags))
  (d.any (·.getLsbD 2) || words.any (fun e => bit (e.getD 7 0) 4) || x.twe.any (fun e => bit (e.2.getD 2 0) 4),
    d.any (fun f => f.getLsbD 1 || f.getLsbD 3) || words.any (fun e => bit (e.getD 7 0) 3 || bit (e.getD 7 0) 5) ||
      x.twe.any (fun e => bit (e.2.getD 2 0) 3))

/-- The levels of the digital channels that a record keeps: those at its earliest pre-window and every change since (R191). -/
def captureLevels (s : State) (r : TrigRecord) : List (Nat × Word) :=
  let from_ := r.trigUp - (if windowOf r.words false 1 < windowOf r.words false 2 then windowOf r.words false 2 else windowOf r.words false 1)
  let marks := s.acq.ticks.map fun m => (m.up, m.levels)
  marks.takeWhile (fun m => decide (from_ < m.1)) ++ (marks.dropWhile fun m => decide (from_ < m.1)).take 1

/-- An open record takes what the rings hold for its windows (R186); the flags of its entries go into its summary (R190). -/
def captureRecord (s : State) (r : TrigRecord) : TrigRecord :=
  if r.isOpen ∧ ¬ r.written then
    let cs := r.channels.map (captureChannel s r)
    { r with
      channels := cs, levels := captureLevels s r
      discontinuity := r.discontinuity || cs.any (fun x => x.flagged.1), badData := r.badData || cs.any fun x => x.flagged.2 }
  else r

/-- The open records at a frame tick. -/
def State.recordTick (s : State) : State :=
  s.updTrg fun t => { t with records := t.records.map (captureRecord s) }

/-- A new record of profile `k` (R185, R186, R188); a step within its pre-windows makes it discontinuous (R190). -/
def State.newRecord (s : State) (k trig source : Nat) (stepA unit : Option Nat) (q : Quality) : State :=
  let words := profileWords s k
  let need := rawNeed words
  let omit_ := decide (stagingFree s < need)
  let r : TrigRecord :=
    { number := s.trg.nextRecord, profile := k, source := source, protected_ := bit (profWord words 0) 30, rawOmit := omit_,
      fused := decide (96 ≤ source ∧ source < 128), trigger := trig, quality := q.code, stepA := stepA, unit := unit
      discontinuity := s.acq.steppedAt.any fun u => decide (s.tb.up ≤ u + preWindow words)
      badData := (List.range 8).any (fun n => (profWord words 0).getLsbD (16 + n) && (s.calInvalid n || s.regBit (ACH.STATUS n) 29)),
      startedAt := s.tb.up, last := trig, trigUp := upAt s trig, lastUp := upAt s trig, words := words, staging := if omit_ then 0 else need
      uncert := s.reg TB.UNCERT, utc := (BitVec.ofNat 16 (s.regFld TB.UTC_OFFSET 15 0)).toInt, tmq := tmqCode s, leap := leapCode s
      sixty := s.regBit ACQ.CFG 8, channels := startChannels s words }
  let s1 := s.updTrg fun t => { t with records := t.records ++ [captureRecord s r], nextRecord := t.nextRecord + 1 }
  if omit_ then s1.noteRaw k else s1

/-- An open record replaced by a changed copy. -/
def State.setRecord (s : State) (r : TrigRecord) : State :=
  s.updTrg fun t => { t with records := t.records.map (fun x => if x.number = r.number then r else x) }

/-- A further start of a profile whose record is open (R187): an extension, or an ignored trigger. On the tick of the start it is the same
record, which takes the earliest trigger time and the lowest source (R185). -/
def State.extendRecord (s : State) (r : TrigRecord) (trig source : Nat) : State :=
  if r.startedAt = s.tb.up then
    let first := if trig < r.trigger then trig else r.trigger
    s.setRecord { r with trigger := first, trigUp := upAt s first, source := if source < r.source then source else r.source }
  else if r.extensions < fld (profWord r.words 0) 7 0 ∧ trig ≤ r.trigger + (profWord r.words 9).toNat * 1000000 * nsUnits then
    let more := if bit (profWord r.words 0) 29 ∧ ¬ r.rawOmit ∧ ¬ r.rawTrunc then rawBytes r.words ((trig - r.last) / (1000 * nsUnits)) else 0
    let fits := decide (more ≤ stagingFree s)
    let r1 := { r with
      extensions := r.extensions + 1, extended := true, last := trig, lastUp := upAt s trig, staging := if fits then r.staging + more else r.staging }
    if fits then s.setRecord (captureRecord s r1)
    else (s.setRecord (captureRecord s { r1 with rawTrunc := true, rawEnd := some (r.lastUp + windowOf r.words true 0) })).noteRaw r.profile
  else s.setRecord { r with ignored := satTo 65535 (r.ignored + 1) }

/-- RECORD_OPEN (R185): a profile opens a record, or extends its open one; a disabled one opens nothing. -/
def State.openRecord (s : State) (k trig source : Nat) (stepA unit : Option Nat) (q : Quality) : State :=
  if s.winBit .records k 0 31 then
    match s.trg.records.find? (fun r => r.isOpen && !r.written && decide (r.profile = k)) with
    | some r => s.extendRecord r trig source
    | none => s.newRecord k trig source stepA unit q
  else s

/-! ### The end of a record (R186, R188, R189) -/

/-- The cycles after the last trigger time are captured, or would be at their longest (R186, R143). -/
def cyclesDone (s : State) (r : TrigRecord) : Bool :=
  let n := (profWord r.words 5).toNat % 65536
  decide (r.lastUp + windowOf r.words true 3 + 27000 * microUnits ≤ s.tb.up) ||
    r.channels.all fun x => decide (n ≤ x.cyc.countP fun e => decide (r.lastUp ≤ e.1))

/-- The last window of a record has passed, with the time that each reduction takes to be there (Table AQ-2, Table AQ-7). -/
def windowsDone (s : State) (r : TrigRecord) : Bool :=
  let past (i extra : Nat) : Bool := !recorded r.words i || decide (r.lastUp + windowOf r.words true i + extra * microUnits ≤ s.tb.up)
  past 0 1 && past 1 1 && past 2 1200 && (!recorded r.words 3 || cyclesDone s r) && past 5 5 &&
    r.channels.all fun x => decide (x.rate = 0) || past 4 ((phaLatency (s.regBit (ACH.PHA_CFG x.n) 30) r.sixty x.rate) / microUnits + 1)

/-- RECORD_WINDOW_END (R186, R188): the last window of a record has been written; its staging space is free again. -/
def execRecordWindowEnd (number : Word) (s : State) : Host.Outcome State Fault Refusal :=
  match s.trg.records.find? (fun r => r.isOpen && !r.written && decide (r.number = number.toNat)) with
  | some r =>
    if windowsDone s r then .next (s.setRecord { captureRecord s r with written := true, staging := 0 }) else .next s
  | none => .next s

/-- A record has an open download handle (R341). -/
def downloading (s : State) (number : Nat) : Bool :=
  s.qcp.handles.any fun h => match h.kind with
    | .record n _ _ => decide (n = number)
    | _ => false

/-- The store is too full for another record of `kb` kilobytes (R189). -/
def storeFull (s : State) (kb : Nat) : Bool :=
  decide (4096 ≤ (committedRecords s).length) ||
    decide (8388608 < ((committedRecords s).map recordKb).foldl (· + ·) 0 + kb)

/-- The oldest committed records that are not protected deleted until there is room (R189, R341). -/
def State.makeRoom (s : State) (kb : Nat) : List TrigRecord → State
  | [] => s
  | r :: rest =>
    if storeFull s kb then
      (s.updTrg fun t => { t with records := t.records.filter (fun x => x.number ≠ r.number) }).makeRoom kb rest
    else s

/-- RECORD_COMMITTED (R189): the index entry is written, or the record is dropped when only protected ones remain. -/
def execRecordCommitted (number : Word) (s : State) : Host.Outcome State Fault Refusal :=
  match s.trg.records.find? (fun r => r.isOpen && r.written && decide (r.number = number.toNat)) with
  | none => .next s
  | some r =>
    let s1 := s.makeRoom (recordKb r) ((committedRecords s).filter (fun x => !x.protected_ && !downloading s x.number))
    if storeFull s1 (recordKb r) then
      .next ((((s1.updTrg fun t => { t with records := t.records.filter (fun x => x.number ≠ r.number) }).satRegFld TRG.REC_LOST 15 0).orReg
        TRG.ALARM 8#32).raise 0x4005 r.profile)
    else .next ((s1.setRecord { r with isOpen := false }).raise 0x4004 r.profile)

end Sys2Proof.Machine
end

