-- ==== Sys2Proof/Machine/Pmu.lean ====
section
/-!
DEFINITION. PMU data streams (R155 to R159) and sampled-value subscriptions (R161 to R163).
-/

namespace Sys2Proof.Machine

open Reg

/-! ### PMUs (R155 to R159) -/

/-- PMU `m`. -/
def State.pmu (s : State) (m : Nat) : PmuStream := sparseGet {} s.acq.pmus m

/-- PMU `m` replaced. -/
def State.setPmu (s : State) (m : Nat) (p : PmuStream) : State := s.updAcq fun a => { a with pmus := sparseSet {} a.pmus m p }

/-- FRACSEC [31:24] (R156): leap direction (bit 6), leap occurred (bit 5: within the day after a leap second), leap pending (bit 4) and the time quality
code. -/
def fracsecHigh (s : State) (t : Nat) : Nat :=
  let lead := if s.regBit TB.LEAP_CTRL 31 then 16 + 64 * b2n (s.regBit TB.LEAP_CTRL 30) else 0
  let past := match s.tb.leapAt with
    | some (at_, removed) => if at_ ≤ t ∧ t < at_ + 86400 * secUnits then 32 + (if lead = 0 then 64 * b2n removed else 0) else 0
    | none => 0
  lead + past + (match s.tb.quality with
    | .locked => 0
    | .holdover => timeQualityCode (s.reg TB.HOLD_EST).toNat
    | _ => 15)

/-- STAT [8:6] (R157): 1 below 100 ns, and one more for each decade up to 7. -/
def pmuTimeQuality (s : State) : Nat :=
  let code (ns16 : Nat) : Nat :=
    if ns16 < 1600 then 1 else if ns16 < 16000 then 2 else if ns16 < 160000 then 3 else if ns16 < 1600000 then 4
    else if ns16 < 16000000 then 5 else if ns16 < 160000000 then 6 else 7
  match s.tb.quality with
  | .locked => code (s.reg TB.UNCERT).toNat
  | .holdover => code ((s.reg TB.HOLD_EST).toNat * 16)
  | _ => 7

/-- STAT [5:4]: the time since the quality left LOCKED: below 10 s, 100 s, 1,000 s, or longer (R157). -/
def unlockedCode (s : State) : Nat :=
  match s.acq.unlockedAt with
  | none => if s.tb.quality = Quality.locked then 0 else 3
  | some t =>
    let d := (s.tb.up - t) / secUnits
    if d < 10 then 0 else if d < 100 then 1 else if d < 1000 then 2 else 3

/-- The phasor entry of a source half-word of Table AQ-13 for a reporting instant. -/
def sourceEntry (s : State) (rate : Nat) (x : Nat × Nat) (h : Nat) : List Word :=
  let ring := if h / 4096 % 2 = 1 then (sparseFind s.acq.svPhasors (h / 64 % 64 * 8 + h % 8)).getD [] else (s.achan (h % 8)).pha
  (ring.find? (entryOf rate x)).getD []

/-- The entry is flagged invalid or is missing. -/
def entryInvalid (e : List Word) : Bool := decide ((e[7]?).getD 1#32 &&& 1#32 ≠ 0)

/-- A source of the PMU is a stream with local synchronisation (R162). -/
def localSynch (s : State) (m : Nat) : Bool :=
  (pmuPhasors s m).any fun h => decide (h / 4096 % 2 = 1) && decide ((sparseGet {} s.acq.streams (h / 64 % 64)).synch = 1)

/-- The reporting rate of PMU `m`. -/
def pmuRate (s : State) (m : Nat) : Nat := s.winFld .pmu m 1 31 16

/-- The measurement latency of PMU `m` (Table AQ-7). -/
def pmuLatency (s : State) (m : Nat) : Nat := phaLatency (s.winBit .pmu m 0 30) (s.regBit ACQ.CFG 8) (pmuRate s m)

/-- An instant lies within a record's trigger window (R157): from its longest pre-window before the trigger to its longest post-window after the
last one (notes/assumptions/121.md). -/
def inTriggerWindow (s : State) (t : Nat) : Bool :=
  s.trg.records.any fun r => decide (r.trigger ≤ t + preWindow r.words) && decide (t ≤ r.last + postWindow r.words)

/-- The STAT word (R157). -/
def pmuStat (s : State) (m : Nat) (x : Nat × Nat) : Nat :=
  b2n ((pmuPhasors s m).any (fun h => entryInvalid (sourceEntry s (pmuRate s m) x h))) * 32768
    + b2n (decide (s.tb.quality ≠ .locked) || localSynch s m) * 8192 + b2n (inTriggerWindow s (instantAt (pmuRate s m) x)) * 2048
    + b2n (s.pmu m).changed * 1024 + pmuTimeQuality s * 64 + unlockedCode s * 16

/-- The UTC second of a TAI second (R6), with the offset in force at the instant. -/
def utcOf (s : State) (t : Nat) : Nat := ((secOf t : Int) - s.utcAt t).toNat

/-- A binary32 number times num/den as a signed 16-bit number, saturating; 0x8000 where it is no number (notes/assumptions/119.md). -/
def int16Of (w : Word) (num den : Nat) : Nat :=
  match f32 w with
  | none => 32768
  | some x =>
    let n := roundDiv (x.m * 2 ^ x.e.toNat * num) (2 ^ (-x.e).toNat * den)
    let v : Int := if x.neg then -(n : Int) else n
    ((if v < -32767 then -32767 else if 32767 < v then 32767 else v) % 65536).toNat

/-- A magnitude times num/den as an unsigned 16-bit number, saturating. -/
def uint16Of (w : Word) (num den : Nat) : Nat :=
  match f32 w with
  | none => 32768
  | some x => satTo 65535 (roundDiv (x.m * 2 ^ x.e.toNat * num) (2 ^ (-x.e).toNat * den))

/-- A phasor in the format of a data frame (Table AQ-10): FORMAT [0] polar, [1] binary32. -/
def phasorFields (s : State) (m k : Nat) (e : List Word) : List (Nat × Nat) :=
  let f := s.win .pmu m 1
  let mag := e.getD 2 0
  let ang := e.getD 3 0
  let re := Config.rectangular mag ang false
  let im := Config.rectangular mag ang true
  let unit := Config.phasorUnit m k
  match bit f 1, bit f 0 with
  | true, true => [(4, mag.toNat), (4, ang.toNat)]
  | true, false => [(4, re.toNat), (4, im.toNat)]
  | false, true => [(2, uint16Of mag 100000 unit), (2, int16Of ang 10000 1)]
  | false, false => [(2, int16Of re 100000 unit), (2, int16Of im 100000 unit)]

/-- FREQ and DFREQ (Table AQ-10): binary32 when FORMAT [3] is 1, else the deviation from nominal in mHz and ROCOF times 100. -/
def freqFields (s : State) (m : Nat) (freq rocof : Word) : List (Nat × Nat) :=
  if bit (s.win .pmu m 1) 3 then [(4, freq.toNat), (4, rocof.toNat)]
  else
    let nominal : Word := if s.regBit ACQ.CFG 8 then 0xC2700000 else 0xC2480000
    let d := match f32 freq, f32 nominal with
      | some x, some y => to32 (addFlt x y)
      | _, _ => 0x7FC00000#32
    [(2, int16Of d 1000 1), (2, int16Of rocof 100 1)]

/-- The channels whose CYC RMS are the analogue values (Table AQ-13). -/
def pmuAnalogs (s : State) (m : Nat) : List Nat := (List.range 8).filter fun n => s.winBit .pmu m 12 n

/-- An analogue value: binary32 when FORMAT [2] is 1. -/
def analogField (s : State) (m n : Nat) : Nat × Nat :=
  let v := newestWord (s.achan n).cyc 4
  if bit (s.win .pmu m 1) 2 then (4, v.toNat) else (2, int16Of v 1 (Config.analogUnit m n))

/-- The digital words of a data frame: levels of DIO channels 0 to 15 and 16 to 31 at the tick after the instant (Table AQ-10). -/
def pmuDigitals (s : State) (m t : Nat) : List (Nat × Nat) :=
  let l := s.levelsAfter t
  ([(2, fld l 15 0), (2, fld l 31 16)] : List (Nat × Nat)).take (s.winFld .pmu m 12 9 8)

/-- What follows STAT in a data frame (R155). -/
def pmuValues (s : State) (m : Nat) (x : Nat × Nat) : List (Nat × Nat) :=
  let hs := pmuPhasors s m
  let entry (h : Nat) : List Word := sourceEntry s (pmuRate s m) x h
  let f := match hs[s.winFld .pmu m 12 19 16]? with
    | some h => entry h
    | none => []
  (hs.zip (List.range 16)).flatMap (fun h => phasorFields s m h.2 (entry h.1)) ++ freqFields s m (f.getD 4 0) (f.getD 5 0)
    ++ (pmuAnalogs s m).map (analogField s m) ++ pmuDigitals s m (instantAt (pmuRate s m) x)

/-- Bytes of a list of fields. -/
def fieldBytes (l : List (Nat × Nat)) : Nat := (l.map (·.1)).foldl (· + ·) 0

/-- Bytes of a data frame (worked example of the chapter). -/
def pmuFrameSize (s : State) (m : Nat) (x : Nat × Nat) : Nat := 18 + fieldBytes (pmuValues s m x)

/-- The fields of a data frame before CHK (R156, R157). -/
def pmuData (s : State) (m : Nat) (x : Nat × Nat) : List (Nat × Nat) :=
  let rate := pmuRate s m
  let t := instantAt rate x
  [(2, 0xAA02), (2, pmuFrameSize s m x), (2, s.winFld .pmu m 0 15 0), (4, utcOf s t),
    (4, fracsecHigh s t * 16777216 + x.2 * 1000000 / rate), (2, pmuStat s m x)] ++ pmuValues s m x

/-- A C37.118.2 frame sent: its bytes, then CHK (R5, notes/assumptions/119.md). -/
def State.sendPmu (s : State) (kind : Message) (bytes : List Byte) : State :=
  s.emit kind ((bytes ++ beBytes 2 (ccitt 0xFFFF bytes).toNat).map (·.toNat)) [] (busPorts s 1)

/-- The state of PMU `m` (Table AQ-14). -/
def State.pmuState (s : State) (m : Nat) : Nat := s.regFld (ACQ.PMU_STATE m) 31 28

/-- The reporting instant whose data frame is due: the last one whose latency has passed, when it is later than the last one sent and its send time is not
before the first frame in which the module leads (R159). -/
def pmuDue (s : State) (m : Nat) : Option (Nat × Nat) :=
  let rate := pmuRate s m
  if rate = 0 ∨ s.tb.now < pmuLatency s m then none
  else
    let x := reportingInstant rate (s.tb.now - pmuLatency s m)
    let t := instantAt rate x
    let early := s.leadsFrom.any fun f => decide (t + pmuLatency s m < f)
    if early ∨ (s.pmu m).lastSent.any (fun l => decide (t ≤ l)) then none else some x

/-- PMU_DATA_FRAME_SEND (R155 to R159): the leader sends the frame of the instant that is due; at most 0.5 ms after the latency, one that
missed its send time is counted. -/
def execPmuDataFrameSend (m : Fin 16) (s : State) : Host.Outcome State Fault Refusal :=
  if s.leads ∧ s.winBit .pmu m.val 0 31 ∧ s.pmuState m.val = 2 then
    match pmuDue s m.val with
    | none => .next s
    | some x =>
      let t := instantAt (pmuRate s m.val) x
      let s1 := s.setPmu m.val { s.pmu m.val with lastSent := some t }
      if t + pmuLatency s m.val + 500 * microUnits < s.tb.now then
        .next (((s1.satRegFld (ACQ.PMU_STATE m.val) 15 0).orReg ACQ.ERRORS 2#32).raise 0x3007 m.val)
      else .next (s1.sendPmu .pmuData (wireBytes (pmuData s m.val x)))
  else .next s

/-- The phasor type of a source half-word: the channel's UNIT declares it for a local channel (R132), the window for a stream and for a channel
that carries neither voltage nor current. -/
def phasorIsCurrent (s : State) (h : Nat) : Bool :=
  let unit := s.regFld (ACH.CFG (h % 8)) 1 0
  if h / 4096 % 2 = 0 ∧ unit ≤ 1 then decide (unit = 1) else decide (h / 8192 % 4 = 1)

/-- The head of a C37.118.2 frame sent now: SYNC, FRAMESIZE, IDCODE, SOC and FRACSEC. -/
def pmuHead (s : State) (m sync size : Nat) : List Byte :=
  wireBytes [(2, sync), (2, size), (2, s.winFld .pmu m 0 15 0), (4, utcOf s s.tb.now),
    (4, fracsecHigh s s.tb.now * 16777216 + nsOf s.tb.now / 1000)]

/-- The body of a CFG-1 or CFG-2 frame (notes/assumptions/119.md). -/
def pmuConfigBody (s : State) (m : Nat) : List Byte :=
  let hs := pmuPhasors s m
  let as := pmuAnalogs s m
  let ds := s.winFld .pmu m 12 9 8
  wireBytes [(4, 1000000), (2, 1)] ++ Config.pmuName m 0
    ++ wireBytes [(2, s.winFld .pmu m 0 15 0), (2, s.winFld .pmu m 1 15 0), (2, hs.length), (2, as.length), (2, ds)]
    ++ (List.range (hs.length + as.length + 16 * ds)).flatMap (fun k => Config.pmuName m (k + 1))
    ++ wireBytes ((hs.zip (List.range 16)).map (fun h => (4, b2n (phasorIsCurrent s h.1) * 16777216 + Config.phasorUnit m h.2 % 16777216)))
    ++ wireBytes (as.map (fun n => (4, 16777216 + Config.analogUnit m n % 16777216)))
    ++ wireBytes (List.replicate ds (4, 0xFFFF))
    ++ wireBytes [(2, b2n (!s.regBit ACQ.CFG 8)), (2, fld (s.win .pmu m 13) 15 0), (2, pmuRate s m)]

/-- A configuration frame: CFG-1, CFG-2 or CFG-3 (Table AQ-10). -/
def pmuConfig (s : State) (m kind : Nat) : List Byte :=
  let cfg2 := pmuConfigBody s m
  let body := if kind = 3 then Config.pmuCfg3 cfg2 else cfg2
  pmuHead s m (if kind = 1 then 0xAA22 else if kind = 2 then 0xAA32 else 0xAA52) (16 + body.length) ++ body

/-- The header frame. -/
def pmuHeader (s : State) (m : Nat) : List Byte := pmuHead s m 0xAA12 (16 + (Config.pmuHeaderText m).length) ++ Config.pmuHeaderText m

/-- PMU_COMMAND_RECEIVED (R155, Table AQ-10): off 1, on 2, HDR 3, CFG-1 4, CFG-2 5, CFG-3 6; an extended frame 8 is only counted. -/
def execPmuCommandReceived (m : Fin 16) (idcode command : Half) (s : State) : Host.Outcome State Fault Refusal :=
  if s.leads ∧ s.winBit .pmu m.val 0 31 ∧ idcode.toNat = s.winFld .pmu m.val 0 15 0 then
    match command.toNat with
    | 1 => .next (s.putReg (ACQ.PMU_STATE m.val) 31 28 3)
    | 2 => .next (s.putReg (ACQ.PMU_STATE m.val) 31 28 2)
    | 3 => .next (s.sendPmu .pmuHeader (pmuHeader s m.val))
    | 4 => .next (s.sendPmu .pmuConfig (pmuConfig s m.val 1))
    | 5 => .next (s.sendPmu .pmuConfig (pmuConfig s m.val 2))
    | 6 => .next (s.sendPmu .pmuConfig (pmuConfig s m.val 3))
    | 8 => .next (s.setPmu m.val { s.pmu m.val with extended := (s.pmu m.val).extended + 1 })
    | _ => .next s
  else .next s

/-- PMU_TCP_CONNECT (R155, R159): up to four clients; a fifth connection is refused. -/
def execPmuTcpConnect (m : Fin 16) (s : State) : Host.Outcome State Fault Refusal :=
  let n := s.regFld (ACQ.PMU_STATE m.val) 23 16
  if s.leads ∧ s.winBit .pmu m.val 0 31 ∧ s.winFld .pmu m.val 0 29 28 ≠ 3 ∧ n < 4 then
    let s1 := s.putReg (ACQ.PMU_STATE m.val) 23 16 (n + 1)
    .next ((if s.pmuState m.val = 1 then s1.putReg (ACQ.PMU_STATE m.val) 31 28 3 else s1).raise 0x3005 m.val)
  else .next s

/-- PMU_TCP_DISCONNECT (R155). -/
def execPmuTcpDisconnect (m : Fin 16) (s : State) : Host.Outcome State Fault Refusal :=
  let n := s.regFld (ACQ.PMU_STATE m.val) 23 16
  if n = 0 then .next s
  else
    let s1 := s.putReg (ACQ.PMU_STATE m.val) 23 16 (n - 1)
    .next ((if n = 1 then s1.putReg (ACQ.PMU_STATE m.val) 31 28 1 else s1).raise 0x3005 m.val)

/-- Every PMU connection ended, at a failover or when the role is left (R159). -/
def State.dropPmuClients (s : State) : State :=
  (List.range 16).foldl (fun t m =>
    if t.winBit .pmu m 0 31 ∧ t.winFld .pmu m 0 29 28 ≠ 3 then (t.endPmuClients m).putReg (ACQ.PMU_STATE m) 31 28 1 else t) s

/-- PMU_CFG_FLAG_EXPIRY (R157): 60 s after a commit. -/
def execPmuCfgFlagExpiry (m : Fin 16) (s : State) : Host.Outcome State Fault Refusal :=
  if (s.pmu m.val).committedAt + 60 * secUnits ≤ s.tb.up then .next (s.setPmu m.val { s.pmu m.val with changed := false }) else .next s

/-! ### Sampled values (R161 to R163) -/

/-- The 32 bytes of svID in words 4 to 11 of subscription `k` (Table AQ-15). -/
def svIdBytes (s : State) (k : Nat) : List Byte :=
  (List.range 32).map fun i => BitVec.ofNat 8 ((s.win .sv k (4 + i / 4)).toNat / 256 ^ (3 - i % 4))

/-- An svID padded with zeros to 32 bytes. -/
def padId (l : List Byte) : List Byte := (l ++ List.replicate 32 0).take 32

/-- The frame belongs to subscription `k` (R161). -/
def svMatches (s : State) (f : SvFrame) (k : Nat) : Bool :=
  s.winBit .sv k 0 31 && decide (s.winFld .sv k 0 15 0 = f.appid.toNat) &&
    decide ((s.win .sv k 1).toNat * 65536 + s.winFld .sv k 2 31 16 = f.mac.toNat) &&
    (!s.winBit .sv k 2 12 || decide (s.winFld .sv k 2 11 0 = f.vlan.toNat % 4096)) && decide (svIdBytes s k = padId f.svId)

/-- Samples missed between the last count and this one. -/
def svMissed (rate : Nat) (last : Option Nat) (cnt : Nat) : Nat :=
  match last with
  | some l => (cnt + rate - (l + 1) % rate) % rate
  | none => 0

/-- A discarded frame counted (Table AQ-14). -/
def State.svDiscard (s : State) : State := s.incReg ACQ.SV_ERR_COUNT

/-- Lost samples of subscription `k` counted, saturating. -/
def State.svLose (s : State) (k n : Nat) : State :=
  s.setWin .sv k 13 (putFld (s.win .sv k 13) 15 0 (satTo 65535 (s.winFld .sv k 13 15 0 + n)))

/-- The instant of a sample (R162): S + smpCnt / rate of the second it was received in, or of the second before when the count has not wrapped in it
yet. -/
def svInstant (s : State) (rate cnt : Nat) : Nat :=
  let t := secOf s.tb.now * secUnits + cnt * secUnits / rate
  if s.tb.now < t then t - secUnits else t

/-- The ASDUs of a frame placed in time: instant, and per position the value unless its quality is not good (R162). -/
def svPlaced (s : State) (rate : Nat) (f : SvFrame) : List SvSample :=
  (f.samples.zip (List.range f.samples.length)).map fun a =>
    { at_ := svInstant s rate ((f.smpCnt + a.2) % rate), values := a.1.map fun x => if x.2 then some x.1 else none }

/-- A sample arrives more than MAX_DELAY after its instant (R163). -/
def svLate (s : State) (k : Nat) (a : SvSample) : Bool := decide (a.at_ + s.winFld .sv k 12 15 0 * microUnits < s.tb.now)

/-- The state of a subscription (Table AQ-15). -/
def State.setSvState (s : State) (k st : Nat) : State := s.setWin .sv k 13 (putFld (s.win .sv k 13) 31 24 st)

/-- A frame of a stream that is not synchronised as it is accepted: state 3, SV_SYNC, and event 0x3003 when that begins (R162). -/
def State.svUnsynchronised (s : State) (k : Nat) : State :=
  let s1 := (s.setSvState k 3).orReg ACQ.ERRORS 4#32
  if s.winFld .sv k 13 31 24 = 3 then s1 else s1.raise 0x3003 k

/-- What a frame with local synchronisation that is accepted shows: the stream is received, SV_SYNC, and event 0x3003 when that begins (R162). -/
def State.svLocal (s : State) (k : Nat) (before : Nat) : State :=
  let s1 := (s.setSvState k 2).orReg ACQ.ERRORS 4#32
  if before = 1 then s1 else s1.raise 0x3003 k

/-- The samples of an accepted frame stored, those that are late or not good counted as missing (R162, R163). -/
def State.svStore (s : State) (k rate : Nat) (f : SvFrame) : State :=
  let st := sparseGet {} s.acq.streams k
  let all := svPlaced s rate f
  let late := all.filter (svLate s k)
  let kept := all.filter fun a => !svLate s k a
  let bad := kept.countP fun a => a.values.any Option.isNone
  let s1 := (s.svLose k (svMissed rate st.lastCount f.smpCnt + bad + late.length)).updAcq fun a =>
    { a with streams := sparseInsert a.streams k {
        lastCount := some ((f.smpCnt + f.samples.length - 1) % rate), samples := (kept.reverse ++ st.samples).take 131072
        synch := f.smpSynch, arrived := s.tb.up } }
  let s2 := if late = [] then s1 else (s1.orReg ACQ.ERRORS 8#32).raise 0x3006 k
  if kept = [] ∧ late ≠ [] then s2.svDiscard else s2.incReg ACQ.SV_RX_COUNT

/-- SV_FRAME_RECEIVED (R161 to R163). -/
def execSvFrameReceived (f : SvFrame) (s : State) : Host.Outcome State Fault Refusal :=
  match (List.range 64).find? (svMatches s f) with
  | none => .next s
  | some k =>
    if f.malformed ∨ f.confRev ≠ s.win .sv k 3 then .next s.svDiscard
    else
      let rate := svRate (s.winFld .sv k 0 30 28)
      let before := (sparseGet {} s.acq.streams k).synch
      if f.smpSynch = 1 ∧ ¬ s.winBit .sv k 0 27 then
        .next ((s.svUnsynchronised k).updAcq fun a =>
          { a with streams := sparseUpd {} a.streams k fun st => { st with arrived := s.tb.up } })
      else
        let s1 := s.svStore k rate f
        if f.smpSynch = 2 then .next (s1.setSvState k 2)
        else if f.smpSynch = 1 then .next (s1.svLocal k before)
        else .next (s1.svUnsynchronised k)

/-- SV_STREAM_TIMEOUT (R163): 100 ms without a frame. -/
def execSvStreamTimeout (k : Fin 64) (s : State) : Host.Outcome State Fault Refusal :=
  if s.winBit .sv k.val 0 31 ∧ 2 ≤ s.winFld .sv k.val 13 31 24 ∧ (sparseGet {} s.acq.streams k.val).arrived + 100 * msUnits ≤ s.tb.up then
    .next ((s.setSvState k.val 1).raise 0x3002 k.val)
  else .next s

end Sys2Proof.Machine
end

