-- ==== Sys2Proof/Machine/TriggerUnits.lean ====
section
/-!
DEFINITION. Trigger units over the calibrated codes of their channel (R168 to R172, Table TG-1). Places in the stream of samples count from the
unit's restart in 2^-16 ns: sample k, from 0, stands at k · 20 ns.
-/

namespace Sys2Proof.Machine

open Reg

/-- 20 ns in 2^-16 ns. -/
def samplePitch : Nat := 20 * 65536

/-- The configuration of a unit (Table TG-13): KIND, POLARITY, HYST, the two levels, TIME_A and TIME_B. -/
structure UnitConfig where
  kind : Nat
  polarity : Nat
  hyst : Int
  hi : Int
  lo : Int
  timeA : Nat
  timeB : Nat
  deriving DecidableEq, Repr

/-- The configuration of unit `u`. -/
def unitConfig (s : State) (u : Nat) : UnitConfig :=
  let w := s.reg (TRG.U_CFG u)
  { kind := fld w 30 28, polarity := fld w 27 26, hyst := fld w 15 0
    hi := (BitVec.ofNat 16 (s.regFld (TRG.U_LEVEL u) 31 16)).toInt, lo := (BitVec.ofNat 16 (s.regFld (TRG.U_LEVEL u) 15 0)).toInt
    timeA := (s.reg (TRG.U_TIME_A u)).toNat, timeB := (s.reg (TRG.U_TIME_B u)).toNat }

/-- The place at which the line from code `p` at sample `k - 1` to code `y` at sample `k` passes level `l`, rounded down (R172). -/
def crossingAt (k : Nat) (p y l : Int) : Nat :=
  (k - 1) * samplePitch + samplePitch * (l - p).natAbs / (y - p).natAbs

/-- What a sense of a unit makes of a sample: its state, and the places of its events. -/
abbrev SenseStep := SenseState × List Nat

/-- Kind 1 on the rising sense: `p` is the code before, `y` the code of sample `k`. -/
def levelStep (l hyst : Int) (k : Nat) (p y : Int) (x : SenseState) : SenseStep :=
  if x.armed ∧ l ≤ y ∧ p < l then ({ x with armed := false }, [crossingAt k p y l])
  else ({ x with armed := x.armed || decide (y < l ∧ y ≤ l - hyst) }, [])

/-- Kinds 3 and 4 on the rising sense: a pulse beyond the level from its leading crossing to its trailing one. `inside` says which widths fire. -/
def pulseStep (inside : Bool) (l hyst : Int) (ta tb k : Nat) (p y : Int) (x : SenseState) : SenseStep :=
  match x.lead with
  | none =>
    let r := levelStep l hyst k p y x
    (match r.2 with
      | [at_] => ({ r.1 with lead := some at_, long := false }, [])
      | _ => (r.1, []))
  | some at_ =>
    if y < l then
      let stop := crossingAt k p y l
      let w := stop - at_
      let ovr := decide (tb * samplePitch < w)
      let fires := if inside then decide (ta * samplePitch ≤ w) && !ovr else decide (w < ta * samplePitch) || (ovr && !x.long)
      ({ armed := decide (y ≤ l - hyst) }, if fires then [if !inside && ovr then at_ + tb * samplePitch else stop] else [])
    else if !inside ∧ !x.long ∧ at_ + tb * samplePitch < k * samplePitch then ({ x with long := true }, [at_ + tb * samplePitch])
    else (x, [])

/-- Kind 5 on the rising sense: from level `l` toward level `far`, and back without reaching it. -/
def runtStep (l far hyst : Int) (k : Nat) (p y : Int) (x : SenseState) : SenseStep :=
  match x.lead with
  | none =>
    let r := levelStep l hyst k p y x
    (match r.2 with
      | [at_] => if far ≤ y then (r.1, []) else ({ r.1 with lead := some at_ }, [])
      | _ => (r.1, []))
  | some _ =>
    if far ≤ y then ({ armed := false }, [])
    else if y < l then ({ armed := decide (y ≤ l - hyst) }, [crossingAt k p y l])
    else (x, [])

/-- Kind 2 on the rising sense: `d` is the difference over the span. -/
def slewStep (l hyst : Int) (k : Nat) (d : Int) (x : SenseState) : SenseStep :=
  if x.armed ∧ l ≤ d then ({ x with armed := false }, [k * samplePitch])
  else ({ x with armed := x.armed || decide (d < l - hyst) }, [])

/-- A sense of a unit that is edge-like: kinds 1 to 5; the falling sense is the rising one of the negated signal with its levels negated, which for a runt
change places. -/
def senseStep (c : UnitConfig) (falling : Bool) (k : Nat) (old : List Int) (y : Int) (x : SenseState) : SenseStep :=
  let v (z : Int) : Int := if falling then -z else z
  let p := v (old.headD y)
  let first := if falling then -c.hi else c.lo
  let far := if falling then -c.lo else c.hi
  match c.kind with
  | 2 =>
    (match old[c.timeA - 1]? with
      | some z => slewStep c.hi c.hyst k (v y - v z) x
      | none => (x, []))
  | 3 => pulseStep true (v c.hi) c.hyst c.timeA c.timeB k p (v y) x
  | 4 => pulseStep false (v c.hi) c.hyst c.timeA c.timeB k p (v y) x
  | 5 => runtStep first far c.hyst k p (v y) x
  | _ => levelStep (v c.hi) c.hyst k p (v y) x

/-- Kind 7: leaving and entering the band; each is armed by a code HYST inside or outside of it. -/
def bandStep (c : UnitConfig) (k : Nat) (p y : Int) (x : UnitTracker) : UnitTracker × List Nat :=
  let isIn := decide (c.lo ≤ y ∧ y ≤ c.hi)
  let leaves := x.inside && !isIn
  let enters := x.outside && isIn
  let edge := if leaves then (if c.hi < y then c.hi else c.lo) else (if c.hi < p then c.hi else c.lo)
  let x1 := { x with
    inside := (x.inside && !leaves) || decide (c.lo + c.hyst ≤ y ∧ y ≤ c.hi - c.hyst)
    outside := (x.outside && !enters) || decide (¬ isIn ∧ (c.hi + c.hyst ≤ y ∨ y ≤ c.lo - c.hyst)) }
  (x1, if (leaves ∧ c.polarity ≠ 1) ∨ (enters ∧ c.polarity ≠ 0) then [crossingAt k p y edge] else [])

/-- One sample seen by a unit: its tracker, and the places of its events (Table TG-1). -/
def unitSample (c : UnitConfig) (x : UnitTracker) (y : Int) : UnitTracker × List Nat :=
  let k := x.count
  let up := if c.polarity ≠ 1 then senseStep c false k x.codes y x.rise else (x.rise, [])
  let down := if c.polarity ≠ 0 then senseStep c true k x.codes y x.fall else (x.fall, [])
  let seen (z : UnitTracker) : UnitTracker := { z with count := k + 1, codes := (y :: z.codes).take 1024 }
  match c.kind with
  | 0 => (seen x, [])
  | 6 =>
    let base := (up.2 ++ down.2).foldl Nat.max x.base
    let ovr := decide (base + c.timeA * samplePitch ≤ k * samplePitch)
    (seen { x with rise := up.1, fall := down.1, base := if ovr then base + c.timeA * samplePitch else base },
      if ovr then [base + c.timeA * samplePitch] else [])
  | 7 =>
    let b := bandStep c k (x.codes.headD y) y x
    (seen b.1, b.2)
  | _ => (seen { x with rise := up.1, fall := down.1 }, up.2 ++ down.2)

/-- A run of samples seen by a unit. -/
def unitSamples (c : UnitConfig) : UnitTracker → List Int → UnitTracker × List Nat
  | x, [] => (x, [])
  | x, y :: rest =>
    let r := unitSample c x y
    let q := unitSamples c r.1 rest
    (q.1, r.2 ++ q.2)

/-- The time of a place in the stream, from the time of the newest sample, which is sample `count - 1`. -/
def placeTime (newest count place : Nat) : Nat := newest - ((count - 1) * samplePitch - place) * 65536 + (place - (count - 1) * samplePitch) * 65536

/-- A trigger unit is active: enabled, and its channel on and valid (R168). -/
def unitActive (s : State) (u : Nat) : Bool :=
  s.regBit (TRG.U_CFG u) 31 && bit (viewAch s (u / 4) (ACH.STATUS (u / 4))) 31

end Sys2Proof.Machine
end

