-- ==== Sys2Proof/Machine/Triggers.lean ====
section
/-!
DEFINITION. Trigger units, pattern units and trigger lines (R168 to R185, R194).
-/

namespace Sys2Proof.Machine

open Reg

/-! ### Trigger lines (R182) -/

/-- A pattern pulse on each line of a mask that DRIVE_EN permits, from a decision at up-time `at_` for WIDTH (R182). -/
def State.drive (s : State) (mask at_ : Nat) : State :=
  if s.role = .init ∨ s.role = .out then s
  else
    let on := (List.range 8).filter fun l => mask.testBit l && s.regBit TRG.TL_CFG (16 + l)
    let stop := at_ + s.regFld TRG.TL_CFG 15 0 * clockUnits
    (s.updTrg fun t => { t with pulses := on.foldl (fun m l => sparseInsert m l stop) t.pulses }).send .triggerLine
      [bitsOf ((List.range 8).map fun l => on.contains l), s.regFld TRG.TL_CFG 15 0]

/-- A tack's pulse with its own width, whatever DRIVE_EN says (R182, Table FX-13). -/
def State.tackPulse (s : State) (l width : Nat) : State :=
  if s.role = .init ∨ s.role = .out then s
  else
    let stop := s.tb.up + width * clockUnits
    (s.updTrg fun t =>
      { t with tackPulses := sparseInsert t.tackPulses l (if stop < (sparseFind t.tackPulses l).getD 0 then (sparseFind t.tackPulses l).getD 0 else stop) }).send
        .triggerLine [2 ^ l, width]

/-- TRIGGER_LINE_PULSE_END (R182): the pulse on a line that ends first. -/
def execTriggerLinePulseEnd (l : Fin 8) (s : State) : Host.Outcome State Fault Refusal :=
  let wait (t : Nat) : State := if s.tb.up < t then s.advanceTo (s.tb.now + (t - s.tb.up)) else s
  match sparseFind s.trg.pulses l.val, sparseFind s.trg.tackPulses l.val with
  | some a, some b =>
    if a ≤ b then .next ((wait a).updTrg fun t => { t with pulses := sparseErase t.pulses l.val })
    else .next ((wait b).updTrg fun t => { t with tackPulses := sparseErase t.tackPulses l.val })
  | some a, none => .next ((wait a).updTrg fun t => { t with pulses := sparseErase t.pulses l.val })
  | none, some b => .next ((wait b).updTrg fun t => { t with tackPulses := sparseErase t.tackPulses l.val })
  | none, none => .next s

/-- Profiles opened by the lines of a mask. -/
def State.lineStarts (s : State) (mask trig : Nat) : List Nat → State
  | [] => s
  | k :: rest =>
    (if (List.range 8).any (fun l => mask.testBit l && s.winBit .records k 0 (8 + l)) then s.openRecord k trig 0xFE none none s.tb.quality else s).lineStarts
      mask trig rest

/-- An instant at the 2.5 ns resolution of the time-base clock, rounded down (R185). -/
def clockInstant (i : Instant) : Nat := ofInstant i / clockUnits * clockUnits

/-- TRIGGER_LINE_ASSERTED (R185): the levels of the chassis lines; a line newly asserted opens the records that its profiles' start masks
name. -/
def execTriggerLineAsserted (levels : Byte) (stamp : Instant) (s : State) : Host.Outcome State Fault Refusal :=
  let fresh := levels &&& ~~~s.trg.lineLevels
  .next ((s.updTrg fun t => { t with lineLevels := levels }).lineStarts fresh.toNat (clockInstant stamp) (List.range 8))

/-! ### Fault-location starts (R194) -/

/-- Fault-location line `l`. -/
def State.flLine (s : State) (l : Nat) : FlLine := sparseGet {} s.trg.lines l

/-- Line `l` replaced. -/
def State.setFlLine (s : State) (l : Nat) (x : FlLine) : State := s.updTrg fun t => { t with lines := sparseSet {} t.lines l x }

/-- Milliseconds of REMOTE_WAIT in units of up-time. -/
def remoteWait (s : State) (l : Nat) : Nat := s.winFld .fl l 6 31 16 * msUnits

/-- A start within REMOTE_WAIT of the line's report adds none (R194). -/
def State.startLine (s : State) (l ts : Nat) : State :=
  let x := s.flLine l
  let again := match x.reportedAt with
    | some t => decide (s.tb.up ≤ t + remoteWait s l)
    | none => false
  let recent := match x.remoteAt with
    | some t => decide (s.tb.up ≤ t + remoteWait s l)
    | none => false
  if again then s
  else s.setFlLine l { start := some ts, startUp := s.tb.up, remote := if recent then x.remote else none, remoteAt := if recent then x.remoteAt else none }

/-- The lines whose start pattern unit fired. -/
def State.startLines (s : State) (u ts : Nat) : List Nat → State
  | [] => s
  | l :: rest =>
    (if s.winBit .fl l 0 31 ∧ s.winFld .fl l 0 10 8 = u then s.startLine l ts else s).startLines u ts rest

/-! ### Pattern units (R173 to R180) -/

/-- Pattern unit `u`. -/
def State.pattern (s : State) (u : Nat) : PatternUnit := sparseGet {} s.trg.patterns u

/-- Pattern unit `u` replaced. -/
def State.setPattern (s : State) (u : Nat) (p : PatternUnit) : State :=
  s.updTrg fun t => { t with patterns := sparseSet {} t.patterns u p }

/-- A 128-bit mask of a pattern window, from word `w` (Table TG-14). -/
def patMask (s : State) (u w : Nat) : BitVec 128 :=
  BitVec.ofNat 128 ((s.win .pat u w).toNat + (s.win .pat u (w + 1)).toNat * 2 ^ 32 + (s.win .pat u (w + 2)).toNat * 2 ^ 64
    + (s.win .pat u (w + 3)).toNat * 2 ^ 96)

/-- The partner sources of a mask. -/
def partnerMask : BitVec 128 := BitVec.ofNat 128 ((2 ^ 32 - 1) * 2 ^ 96)

/-- The CARE mask in force: without valid partner sources FUSED_LOSS decides (R178); none when the unit cannot fire. -/
def careInForce (s : State) (care : BitVec 128) : Option (BitVec 128) :=
  if s.trg.partnerValid ∨ care &&& partnerMask = 0 then some care
  else if s.regBit TRG.CTRL 8 then none
  else some (care &&& ~~~partnerMask)

/-- The sources as pattern unit `u` sees them: with ALIGN, its local ones 150 ns late (R179). -/
def seenSources (s : State) (u : Nat) : BitVec 128 :=
  if s.winBit .pat u 0 29 then (s.trg.aligned &&& ~~~partnerMask) ||| (s.trg.sources &&& partnerMask) else s.trg.sources

/-- A step matches: every cared source has its value (R174). -/
def stepMatches (s : State) (u : Nat) (care value : BitVec 128) : Bool :=
  match careInForce s care with
  | some c => decide ((seenSources s u ^^^ value) &&& c = 0)
  | none => false

/-- Pattern unit `u` runs: enabled, and the role is not INIT (R180). -/
def patternRuns (s : State) (u : Nat) : Bool := s.winBit .pat u 0 31 && decide (s.role ≠ .init)

/-- The trigger time and the source of a firing (R176): among the changed sources of a step, the latest stamp and the lowest number. -/
def firingSource (s : State) (care : BitVec 128) (changed : List Nat) : Nat × Nat :=
  let mine := changed.filter fun i => care.getLsbD i
  (mine.foldl (fun t i => if t < (sparseFind s.trg.stamps i).getD 0 then (sparseFind s.trg.stamps i).getD 0 else t) 0,
    mine.foldl (fun n i => if i < n then i else n) (mine.head?.getD 0))

/-- Quality that TDC-based stamps carry: FREE after a failed calibration (R184). -/
def stampQuality (s : State) : Quality := if s.trg.calBad then .free else s.tb.quality

/-- Quality of the stamp that source `i` carries: the TDC stamps the digital channels (Table TG-2, R184). -/
def sourceQuality (s : State) (i : Nat) : Quality := if 32 ≤ i ∧ i < 64 then stampQuality s else s.tb.quality

/-- PATTERN_UNIT_FIRE (R176, R181, R182, R185, R194), decided at up-time `at_`. -/
def State.firePattern (s : State) (at_ u : Nat) (care : BitVec 128) (changed : List Nat) (stepA : Option Nat) : State :=
  let f := firingSource s care changed
  let q := sourceQuality s f.2
  let mask := s.winFld .pat u 0 23 16
  let lines := bitsOf ((List.range 8).map fun l => mask.testBit l && s.regBit TRG.TL_CFG (16 + l))
  let s1 := (s.setPattern u { s.pattern u with armed := none, holdoff := at_ + (s.win .pat u 2).toNat * clockUnits }).incReg TRG.FIRE_COUNT
  let s2 := (((s1.setReg TRG.LAST_FIRE
    (BitVec.ofNat 32 (u * 268435456 + b2n stepA.isSome * 134217728 + f.2 * 65536 + lines))).setReg TRG.LAST_SEC (secWord f.1)).setReg
    TRG.LAST_NS (qualityNs q f.1)).setReg TRG.LAST_FRAC (BitVec.ofNat 32 (fracOf f.1))
  let s3 := ((s2.orReg TRG.ALARM 1#32).raise 0x4001 u).drive mask at_
  let s4 := if s.winBit .pat u 0 15 then s3.openRecord (s.winFld .pat u 0 10 8) f.1 f.2 stepA (some u) q else s3
  s4.startLines u f.1 (List.range 8)

/-- The events of unit `u` after sources changed at up-time `at_` (R174 to R176). -/
def State.evaluatePattern (s : State) (at_ u : Nat) (changed : List Nat) : State :=
  if patternRuns s u then
    let p := s.pattern u
    let careA := patMask s u 3
    let careB := patMask s u 11
    let seq := s.winBit .pat u 0 30
    let a := stepMatches s u careA (patMask s u 7)
    let b := seq && stepMatches s u careB (patMask s u 15)
    let held := decide (at_ < p.holdoff)
    let eventA := a && !p.matchA && !held
    let eventB := b && !p.matchB && !held
    let s1 := s.setPattern u { p with matchA := a, matchB := b }
    if !seq then (if eventA then s1.firePattern at_ u careA changed none else s1)
    else
      let ready := match p.armed with
        | some (t, _) => decide (t + clockUnits ≤ at_ ∧ at_ ≤ t + (s.win .pat u 1).toNat * clockUnits)
        | none => false
      if eventB && ready then s1.firePattern at_ u careB changed (p.armed.map (·.2))
      else if eventA then s1.setPattern u { s1.pattern u with armed := some (at_, (firingSource s careA changed).1) }
      else s1
  else s

/-- Every pattern unit of a list evaluated. -/
def State.evaluatePatterns (s : State) (at_ : Nat) (changed : List Nat) : List Nat → State
  | [] => s
  | u :: rest => (s.evaluatePattern at_ u changed).evaluatePatterns at_ changed rest

/-- A source set or cleared in a set of sources. -/
def putSource (b : BitVec 128) (x : Nat × Bool × Nat) : BitVec 128 :=
  let bit_ : BitVec 128 := BitVec.ofNat 128 (2 ^ x.1)
  if x.2.1 then b ||| bit_ else b &&& ~~~bit_

/-- The pattern units with ALIGN set (true) or clear. -/
def alignedUnits (s : State) (align : Bool) : List Nat := (List.range 8).filter fun u => s.winBit .pat u 0 29 == align

/-- 150 ns, by which ALIGN delays local sources (R179). -/
def alignDelay : Nat := 150 * nsUnits

/-- The delayed local changes that are due by now reach the units with ALIGN, at their own up-times (R179). -/
def State.flushAligned (s : State) : List (Nat × List (Nat × Bool × Nat)) → State
  | [] => s
  | (at_, l) :: rest =>
    if at_ ≤ s.tb.up then
      (((s.updTrg fun t => { t with aligned := l.foldl putSource t.aligned, delayed := rest }).evaluatePatterns at_ (l.map (·.1)) (alignedUnits s true))).flushAligned
        rest
    else s

/-- Sources set with their stamps, without evaluation. -/
def Trig.setSources (t : Trig) : List (Nat × Bool × Nat) → Trig
  | [] => t
  | x :: rest => { t with sources := putSource t.sources x, stamps := sparseInsert t.stamps x.1 x.2.2 }.setSources rest

/-- The forwarded sources of this module: trigger units, digital channels or internal flags (R177). -/
def forwarded (s : State) (i : Nat) : Bool := decide (i < 96) && decide (i / 32 = s.regFld TRG.CTRL 1 0)

/-- Own source changes that the group selects sent to the partner (R177). -/
def State.forwardSources (s : State) : List (Nat × Bool × Nat) → State
  | [] => s
  | (i, level, stamp) :: rest =>
    (if forwarded s i then s.send .sourceChange [i % 32, b2n level, secOf stamp, nsOf stamp, fracOf stamp] else s).forwardSources rest

/-- The sources of a newly selected group sent to the partner where they differ from those of the old one (R177). -/
def State.forwardGroup (s : State) (old : Nat) : State :=
  let new := s.regFld TRG.CTRL 1 0
  (List.range 32).foldl (fun t i =>
    if t.trg.sources.getLsbD (32 * old + i) = t.trg.sources.getLsbD (32 * new + i) then t
    else t.forwardSources [(32 * new + i, t.trg.sources.getLsbD (32 * new + i), (sparseFind t.trg.stamps (32 * new + i)).getD 0)]) s

/-- Sources change at one tick: forwarded, and evaluated by every pattern unit; those with ALIGN see local changes 150 ns later (R173 to R179). -/
def State.sourcesChange (s : State) (l : List (Nat × Bool × Nat)) : State :=
  let s0 := s.flushAligned s.trg.delayed
  let fresh := l.filter fun x => decide (s0.trg.sources.getLsbD x.1 ≠ x.2.1)
  let s1 := (s0.updTrg fun t => t.setSources l).forwardSources fresh
  if fresh = [] then s1
  else
    let own := fresh.filter fun x => decide (x.1 < 96)
    let far := fresh.filter fun x => decide (96 ≤ x.1)
    let s2 := s1.evaluatePatterns s1.tb.up (fresh.map (·.1)) (alignedUnits s1 false)
    let s3 := if far = [] then s2 else s2.evaluatePatterns s2.tb.up (far.map (·.1)) (alignedUnits s2 true)
    if own = [] then s3 else s3.updTrg fun t => { t with delayed := t.delayed ++ [(s3.tb.up + alignDelay, own)] }

/-- PATTERN_ARM_EXPIRY (R175): T after step A the unit disarms. -/
def execPatternArmExpiry (u : Fin 8) (s : State) : Host.Outcome State Fault Refusal :=
  match (s.pattern u.val).armed with
  | none => .next s
  | some (t, _) =>
    let stop := t + (s.win .pat u.val 1).toNat * clockUnits
    let s1 := if s.tb.up < stop then s.advanceTo (s.tb.now + (stop - s.tb.up)) else s
    .next (s1.setPattern u.val { s1.pattern u.val with armed := none })

/-- PATTERN_HOLDOFF_EXPIRY (R176). -/
def execPatternHoldoffExpiry (u : Fin 8) (s : State) : Host.Outcome State Fault Refusal :=
  let stop := (s.pattern u.val).holdoff
  if s.tb.up < stop then .next (s.advanceTo (s.tb.now + (stop - s.tb.up))) else .next s

/-- PARTNER_SOURCE_CHANGE (R177). -/
def execPartnerSourceChange (i : Fin 32) (level : Bool) (stamp : Instant) (s : State) : Host.Outcome State Fault Refusal :=
  if s.trg.partnerValid then .next (s.sourcesChange [(96 + i.val, level, ofInstant stamp)]) else .next s

/-- The partner sources with given states loaded without an event: matches are taken as they then stand (R178). -/
def State.loadPartner (s : State) (states : Word) : State :=
  let s1 := s.updTrg fun t =>
    { t with sources := (t.sources &&& ~~~partnerMask) ||| BitVec.ofNat 128 (states.toNat * 2 ^ 96) }
  (List.range 8).foldl (fun t u =>
    if patternRuns t u then
      t.setPattern u
        { t.pattern u with
          matchA := stepMatches t u (patMask t u 3) (patMask t u 7)
          matchB := t.winBit .pat u 0 30 && stepMatches t u (patMask t u 11) (patMask t u 15) }
    else t) s1

/-- Partner sources stand: the tandem link carries heartbeats and the partner is in TRACK, STANDBY or ACTIVE (R177). -/
def partnerStands (s : State) : Bool :=
  s.pair.tandem.up && (decide (s.shown = some .track) || decide (s.shown = some .standby) || decide (s.shown = some .active))

/-- PARTNER_SOURCES_LOST (R177, R178). -/
def execPartnerSourcesLost (s : State) : Host.Outcome State Fault Refusal :=
  if s.trg.partnerValid ∧ ¬ partnerStands s then
    .next ((((s.updTrg fun t => { t with partnerValid := false }).loadPartner 0).orReg TRG.ALARM 2#32).raiseBlock 0x4002)
  else .next s

/-- PARTNER_SOURCES_RESTORED (R177, R178). -/
def execPartnerSourcesRestored (states : Word) (s : State) : Host.Outcome State Fault Refusal :=
  if !s.trg.partnerValid ∧ partnerStands s then
    .next (((s.updTrg fun t => { t with partnerValid := true }).loadPartner states).raiseBlock 0x4003)
  else .next s

/-- Accepted pattern units applied at a frame tick: armed state and holdoff are cleared (R180). -/
def State.applyPatterns (s : State) : List (Nat × List Word) → State
  | [] => s
  | (u, words) :: rest =>
    let s1 := (List.range 19).foldl (fun t w => t.setWin .pat u w ((words[w]?).getD 0)) s
    let s2 := s1.setPattern u
      { matchA := stepMatches s1 u (patMask s1 u 3) (patMask s1 u 7)
        matchB := s1.winBit .pat u 0 30 && stepMatches s1 u (patMask s1 u 11) (patMask s1 u 15) }
    s2.applyPatterns rest

/-- Committed words of a window's units set from accepted commits: words 0 to `n - 1`. -/
def State.applyWords (s : State) (w : WinId) (n : Nat) : List (Nat × List Word) → State
  | [] => s
  | (u, words) :: rest => ((List.range n).foldl (fun t i => t.setWin w u i (words.getD i 0)) s).applyWords w n rest

/-! ### Trigger units (R168 to R172) -/

/-- A unit's output goes true, or its stretch restarts (R171); the source carries the time of the latest event. -/
def State.unitEvent (s : State) (u stamp : Nat) : State :=
  let stop := s.tb.up + s.regFld (TRG.U_CFG u) 23 16 * 100 * nsUnits
  (s.updTrg fun t => { t with stretch := sparseInsert t.stretch u stop }).sourcesChange [(u, true, stamp)]

/-- The samples that an active unit sees: its tracker moves on, and each event goes out with its time, the latest last (R169, R171, R172). -/
def State.unitSees (s : State) (u : Nat) (x : UnitSamples) : State :=
  let r := unitSamples (unitConfig s u) (sparseGet {} s.trg.trackers u) x.codes
  let s1 := s.updTrg fun t => { t with trackers := sparseSet {} t.trackers u r.1 }
  r.2.foldl (fun t p => t.unitEvent u (placeTime (ofInstant x.newest) r.1.count p)) s1

/-- TRIGGER_UNIT_EVENT (R169, R172): samples of the channel up to one that completes an event. -/
def execTriggerUnitEvent (u : Fin 32) (x : UnitSamples) (s : State) : Host.Outcome State Fault Refusal :=
  if unitActive s u.val then .next (s.unitSees u.val x) else .next s

/-- TRIGGER_UNIT_TIMEOUT (R169): samples without a further edge, up to the one that reaches TIME_A of a timeout unit or TIME_B of a unit that waits for the
end of a pulse. -/
def execTriggerUnitTimeout (u : Fin 32) (x : UnitSamples) (s : State) : Host.Outcome State Fault Refusal :=
  let kind := s.regFld (TRG.U_CFG u.val) 30 28
  if unitActive s u.val ∧ (kind = 4 ∨ kind = 6) then .next (s.unitSees u.val x) else .next s

/-- STRETCH_EXPIRY (R171): the stretch of a unit ends and its output returns false. -/
def execStretchExpiry (u : Fin 32) (s : State) : Host.Outcome State Fault Refusal :=
  match sparseFind s.trg.stretch u.val with
  | none => .next s
  | some stop =>
    let s1 := if s.tb.up < stop then s.advanceTo (s.tb.now + (stop - s.tb.up)) else s
    .next ((s1.updTrg fun t => { t with stretch := sparseErase t.stretch u.val }).sourcesChange
      [(u.val, false, (sparseFind s.trg.stamps u.val).getD 0)])

/-- A unit restarts unarmed with its output false (R170). -/
def State.restartUnit (s : State) (u : Nat) : State :=
  (s.updTrg fun t => { t with stretch := sparseErase t.stretch u, trackers := sparseErase t.trackers u }).sourcesChange
    [(u, false, (sparseFind s.trg.stamps u).getD 0)]

/-- The units whose channel is off or not valid are inactive: their outputs are false (R168). -/
def State.stopInactive (s : State) : State :=
  (List.range 32).foldl (fun t u =>
    if !unitActive t u ∧ ((sparseFind t.trg.trackers u).isSome ∨ (sparseFind t.trg.stretch u).isSome ∨ t.trg.sources.getLsbD u = true)
    then t.restartUnit u else t) s

/-- The trigger part of a frame tick: pattern units, record profiles and fault-location lines accepted since the last one, inactive units, and what open
records take of the reductions. -/
def State.trgTick (s : State) : State :=
  let s1 := (((s.flushAligned s.trg.delayed).applyPatterns s.trg.patDue).applyWords .records 11 s.trg.recDue).applyWords .fl 7 s.trg.flDue
  (s1.updTrg fun t => { t with patDue := [], recDue := [], flDue := [] }).stopInactive.recordTick

/-- Internal flags set to a word at an instant (Table TG-2): the register and the sources that change. -/
def State.setFlags (s : State) (w : Word) (stamp : Nat) : State :=
  let old := s.reg TRG.FLAGS
  let changed := (List.range 32).filter fun f => decide (bit old f ≠ bit w f)
  (s.setReg TRG.FLAGS w).sourcesChange (changed.map fun f => (64 + f, bit w f, stamp))

end Sys2Proof.Machine
end

