-- ==== Sys2Proof/Machine/FaultLocation.lean ====
section
/-!
DEFINITION. Fault location (R193 to R196) and the time-to-digital converter (R183, R184, R199).
-/

namespace Sys2Proof.Machine

open Reg

/-! ### Exact ratios -/

/-- A ratio: a signed numerator over a positive denominator. -/
structure Ratio where
  num : Int
  den : Nat
  deriving DecidableEq, Repr

/-- The ratio a binary32 word stands for; none when it is not finite. -/
def ratio32 (w : Word) : Option Ratio :=
  (f32 w).map fun x =>
    let s : Int := if x.neg then -1 else 1
    if 0 ≤ x.e then ⟨s * (x.m * 2 ^ x.e.toNat : Nat), 1⟩ else ⟨s * (x.m : Nat), 2 ^ (-x.e).toNat⟩

/-- The sum of two ratios. -/
def addRatio (a b : Ratio) : Ratio := ⟨a.num * b.den + b.num * a.den, a.den * b.den⟩
/-- The product of two ratios. -/
def mulRatio (a b : Ratio) : Ratio := ⟨a.num * b.num, a.den * b.den⟩
/-- a ≤ b. -/
def leRatio (a b : Ratio) : Bool := decide (a.num * b.den ≤ b.num * a.den)
/-- A ratio as binary32, rounded once. -/
def ratioTo32 (a : Ratio) : Word := ratTo32 a.num a.den

/-- A difference of two time values in ns. -/
def nsRatio (a b : Nat) : Ratio := ⟨(a : Int) - b, 4294967296⟩

/-! ### Arrivals (R194) -/

/-- The time of a TWE entry (Table AQ-6): its seconds are taken nearest below now. -/
def tweTime (s : State) (e : List Word) : Nat :=
  let sec := ((e[0]?).getD 0).toNat
  let high := (secOf s.tb.now - sec) / 4294967296 * 4294967296
  (high + sec) * secUnits + fld ((e[1]?).getD 0) 29 0 * nsUnits + fld ((e[2]?).getD 0) 31 16 * 65536

/-- The magnitude of a binary32 word, as an ordered number. -/
def magnitude (w : Word) : Nat := w.toNat % 2147483648

/-- The TWE entries on a line's channels in a span of time, with enough amplitude (R194). -/
def arrivals (s : State) (l lo hi : Nat) : List (Nat × List Word) :=
  let chans := (List.range 8).filter fun n => s.winBit .fl l 0 (16 + n)
  (chans.flatMap fun n => (s.achan n).twe.map (fun e => (tweTime s e, e))).filter fun x =>
    decide (lo ≤ x.1 ∧ x.1 ≤ hi) && decide (magnitude (s.win .fl l 5) ≤ magnitude ((x.2[3]?).getD 0))

/-- The earliest of a list of entries. -/
def earliest : List (Nat × List Word) → Option (Nat × List Word)
  | [] => none
  | x :: rest =>
    match earliest rest with
    | some y => if y.1 < x.1 then some y else some x
    | none => some x

/-- UNC of a report (Table TG-10), ns, by the time quality at the arrival. -/
def reportUnc (s : State) (q : Quality) : Word :=
  match q with
  | .locked => ratTo32 ((s.reg TB.UNCERT).toNat + 32) 16
  | .holdover => ratTo32 ((s.reg TB.HOLD_EST).toNat + 2) 1
  | _ => 0x7F800000

/-- The state and the results of a line (Table TG-16, word 7). -/
def State.showLine (s : State) (l st : Nat) (result : Bool) : State :=
  s.setWin .fl l 7 (BitVec.ofNat 32 (st * 16777216 + (s.winFld .fl l 7 15 0 + b2n result) % 65536))

/-- A location that failed: state 4, event 0x4008. -/
def State.failLine (s : State) (l : Nat) : State :=
  let x := s.flLine l
  ((((s.setFlLine l { reportedAt := x.reportedAt }).showLine l 4 false).setReg TRG.FL_LAST_INFO (BitVec.ofNat 32 (l * 268435456 + 4 * 16777216))).orReg
    TRG.ALARM 32#32).raise 0x4008 l

/-- The fields of a report (Table TG-10). -/
def reportFields (s : State) (l : Nat) (a : Arrival) (ts : Nat) : List Nat :=
  [s.pair.baseId.toNat, s.winFld .fl l 0 2 0, b2n a.falling + 2 * b2n a.notLocked, secOf a.time,
    (s.qualityAt a.time).code * 1073741824 + nsOf a.time, fracOf a.time, a.uncertainty.toNat, a.amplitude.toNat, secOf ts, nsOf ts]

/-- TW_ARRIVAL_WAIT_END (R194): 5 µs after the start the local arrival is searched; the leader sends the report. -/
def execTwArrivalWaitEnd (l : Fin 8) (s : State) : Host.Outcome State Fault Refusal :=
  let x := s.flLine l.val
  match x.start, x.local_ with
  | some ts, none =>
    if s.tb.up < x.startUp + 5 * microUnits then .next s else
    let lo := ts - s.winFld .fl l.val 4 31 16 * 1000 * nsUnits
    match earliest (arrivals s l.val lo ts) with
    | none => .next (s.failLine l.val)
    | some (t, e) =>
      let a : Arrival :=
        { time := t, falling := ((e[2]?).getD 0).getLsbD 0, uncertainty := reportUnc s (s.qualityAt t), notLocked := decide (s.qualityAt t ≠ .locked),
          amplitude := (e[3]?).getD 0 }
      let s1 := (s.setFlLine l.val { x with local_ := some a, reportedAt := some s.tb.up }).showLine l.val 1 false
      .next (if s.leads then s1.send .twReport (reportFields s l.val a ts) else s1)
  | _, _ => .next s

/-- A new leader sends the reports whose start lies within REMOTE_WAIT before its first frame as leader (R194). -/
def State.sendHeldReports (s : State) : State :=
  (List.range 8).foldl (fun t l =>
    let x := t.flLine l
    match x.start, x.local_ with
    | some ts, some a => if t.tb.up ≤ x.startUp + remoteWait t l then t.send .twReport (reportFields t l a ts) else t
    | _, _ => t) s

/-- Records that the start of a line opened take the result (Table TG-8, FLAGS [6], R192). -/
def State.attachResult (s : State) (u ts : Nat) (f : FlResult) : State :=
  s.updTrg fun t =>
    { t with records := t.records.map (fun r =>
        if r.trigger = ts ∧ s.winBit .pat u 0 15 ∧ r.profile = s.winFld .pat u 0 10 8 then { r with located := true, results := r.results ++ [f] } else r) }

/-- A result written (R195, Table TG-12). -/
def State.writeResult (s : State) (l st : Nat) (dist unc : Word) (clamped notLocked : Bool) (ts : Nat) (t : Nat) : State :=
  let info := l * 268435456 + st * 16777216 + b2n (decide (st = 3)) * 8388608 + b2n clamped * 4194304 + b2n notLocked * 2097152
  let s1 := (((s.setReg TRG.FL_LAST_INFO (BitVec.ofNat 32 info)).setReg TRG.FL_LAST_DIST dist).setReg TRG.FL_LAST_UNC unc).setReg
    TRG.FL_LAST_SEC (secWord t)
  let s2 := (s1.showLine l st true).attachResult (s.winFld .fl l 0 10 8) ts
    { line := l, state := st, distance := dist, uncertainty := unc, clamped := clamped, notLocked := notLocked }
  (s2.setFlLine l { reportedAt := (s.flLine l).reportedAt, remoteAt := (s.flLine l).remoteAt }).raise 0x4007 l

/-- |r|. -/
def absRatio (r : Ratio) : Ratio := ⟨r.num.natAbs, r.den⟩

/-- FAULT_LOCATION_RESULT (R195): x = (L + v·(tL − tR)) / 2 with |tL − tR| ≤ L/v + MARGIN; outside 0 to L it is set to the end. -/
def execFaultLocationResult (l : Fin 8) (s : State) : Host.Outcome State Fault Refusal :=
  let x := s.flLine l.val
  match x.start, x.local_, x.remote, ratio32 (s.win .fl l.val 1), ratio32 (s.win .fl l.val 2) with
  | some ts, some a, some b, some len, some v =>
    let dt := nsRatio a.time b.time
    let perNs := mulRatio v ⟨1, 1000⟩
    let way := mulRatio perNs dt
    let margin := mulRatio perNs ⟨(s.winFld .fl l.val 4 15 0 * 1000 : Nat), 1⟩
    if leRatio (absRatio way) (addRatio len margin) then
      let raw := mulRatio (addRatio len way) ⟨1, 2⟩
      let low := decide (raw.num < 0)
      let high := !(leRatio raw len)
      let dist := if low then 0 else ratioTo32 (if high then len else raw)
      let unc := match ratio32 a.uncertainty, ratio32 b.uncertainty with
        | some p, some q => ratioTo32 (mulRatio (mulRatio perNs ⟨1, 2⟩) (addRatio p q))
        | _, _ => 0x7F800000#32
      .next (s.writeResult l.val 2 dist unc (low || high) b.notLocked ts a.time)
    else .next (s.setFlLine l.val { x with remote := none })
  | _, _, _, _, _ => .next s

/-- REMOTE_WAIT_EXPIRY (R196): without a valid remote report, a single-ended location from the reflection, or a failure. -/
def execRemoteWaitExpiry (l : Fin 8) (s : State) : Host.Outcome State Fault Refusal :=
  let x := s.flLine l.val
  match x.start, x.local_ with
  | some ts, some a =>
    if x.reportedAt.any (fun u => decide (s.tb.up < u + remoteWait s l.val)) then .next s else
    match ratio32 (s.win .fl l.val 1), ratio32 (s.win .fl l.val 2) with
    | some len, some v =>
      let perNs := mulRatio v ⟨1, 1000⟩
      let fits (t : Nat) : Bool := leRatio (mulRatio perNs (nsRatio t a.time)) (mulRatio len ⟨2, 1⟩)
      let later := (arrivals s l.val (a.time + 1) s.tb.now).filter fun y =>
        fits y.1 && (((y.2[2]?).getD 0).getLsbD 0 == a.falling)
      match s.winBit .fl l.val 0 30, earliest later with
      | true, some (t2, _) =>
        let dist := ratioTo32 (mulRatio (mulRatio perNs ⟨1, 2⟩) (nsRatio t2 a.time))
        let unc := ratioTo32 (mulRatio perNs ⟨2, 10⟩)
        .next (s.writeResult l.val 3 dist unc false false ts a.time)
      | _, _ => .next (s.failLine l.val)
    | _, _ => .next (s.failLine l.val)
  | _, _ => .next s

/-- TW_EXCHANGE (R193 to R195): only the leader accepts a report; an unknown or disabled line, or a wrong pair identity, is refused with
event 0x400A; the first report per line is held. -/
def execTwExchange (p : Pkt) (r : TwReport) (s : State) : Host.Outcome State Fault Refusal :=
  .next (s.request p 0x54 1 false none fun t rq =>
    let _ := rq
    let l := r.line.toNat
    if !t.leads then (t, some (refusal .wrongState))
    else if 8 ≤ l ∨ ¬ t.winBit .fl l 0 31 ∨ t.winFld .fl l 6 15 0 ≠ r.pairId.toNat then
      (t.raise 0x400A (if l < 8 then l else 0xFFFF), some (refusal .badParameter))
    else
      let x := t.flLine l
      let again := match x.remoteAt with
        | some u => decide (t.tb.up ≤ u + remoteWait t l)
        | none => false
      if again then (t, some done)
      else
        let a : Arrival :=
          { time := ofInstant r.arrival, falling := r.falling, uncertainty := r.uncertainty, notLocked := r.notLocked,
            amplitude := r.amplitude }
        (t.setFlLine l { x with remote := some a, remoteAt := some t.tb.up }, some done))

/-! ### The time-to-digital converter -/

/-- Input `i` is enabled and timestamping is on (R183, Table TG-17). -/
def tdcEnabled (s : State) (i : Nat) : Bool :=
  s.regBit TDC.CTRL 0 && (if i < 32 then s.regBit TDC.EN_LO i else s.regBit TDC.EN_HI (i - 32))

/-- The path delays of an input's source in 2^-8 ns, beside its factory delay (R183, R135). -/
def sourceDelay (s : State) (i : Nat) : Int :=
  if i < 8 then ((s.reg (ACH.AFE_TW_DELAY i)).toNat + (s.achan i).ext : Nat)
  else if i = 40 then (s.reg TREF.PPS_DELAY).toInt
  else if i = 41 then (s.reg TREF.IRIG_DELAY).toInt
  else 0

/-- Input `i`. -/
def State.tdcInput (s : State) (i : Nat) : TdcInput := sparseGet {} s.trg.inputs i

/-- An edge stamped: counters, the last stamp of the input, and the FIFO of the selected input (R183, R199). -/
def State.stampEdge (s : State) (i t up : Nat) : State :=
  let x := s.tdcInput i
  let q := (stampQuality s).code
  let s1 := (((s.updTrg fun u =>
    { u with inputs := sparseSet {} u.inputs i { x with count := x.count + 1, last := some (t, q), lastUp := some up } }).incReg
      TDC.EVENTS).incReg (TDC.GRP_COUNT (i / 8)))
  if s.regBit TDC.FIFO_CFG 31 ∧ s.regFld TDC.FIFO_CFG 5 0 = i then
    s1.updTrg fun u =>
      if u.fifo.length < 64 then { u with fifo := u.fifo ++ [(t, q)] } else { u with fifoOverflow := true }
  else s1

/-- The corrected stamp of an edge of input `i` (R183). -/
def tdcTime (s : State) (i : Nat) (stamp : Instant) : Nat :=
  shiftTime (ofInstant stamp) (-(((s.tdcInput i).delay.toInt + sourceDelay s i) * 16777216))

/-- Up-time of an edge, which the stamp of an instant not far from now gives: a step of the time base does not move it. -/
def edgeUp (s : State) (stamp : Instant) : Nat := s.tb.up + ofInstant stamp - s.tb.now

/-- An edge of input `i` (R183): one closer than 10 ns to the last one of its input is lost. -/
def State.tdcEdge (s : State) (i : Nat) (stamp : Instant) : State :=
  if tdcEnabled s i then
    let up := edgeUp s stamp
    let lost := (s.tdcInput i).lastUp.any fun l => decide (up < l + 10 * nsUnits)
    if lost then ((s.incReg TDC.LOST).orReg TDC.ALARM 2#32).raise 0x4102 i else s.stampEdge i (tdcTime s i stamp) up
  else s

/-- TDC_EDGE (R183). -/
def execTdcEdge (i : Fin 48) (stamp : Instant) (s : State) : Host.Outcome State Fault Refusal := .next (s.tdcEdge i.val stamp)

/-- The calibration interval has passed since the last calibration (R184). -/
def calibrationDue (s : State) : Bool :=
  s.trg.calTriedAt.all fun t => decide (t + (s.reg TDC.CAL_CFG).toNat * secUnits ≤ s.tb.up)

/-- TDC_CALIBRATION (R184, Table TG-6), every TDC.CAL_CFG seconds: the LSB is at most 50 ps and the non-linearity at most 35 ps. -/
def execTdcCalibration (m : TdcCalibration) (s : State) : Host.Outcome State Fault Refusal :=
  if !calibrationDue s then .next s
  else
    let s0 := s.updTrg fun t => { t with calTriedAt := some s.tb.up }
    let s1 := (((s0.setReg TDC.LSB_MEAS m.lsb).setReg TDC.PREC_MEAS m.precision).setReg TDC.INL_MAX m.nonLinearity).setReg TDC.TEMP
      m.temperature
    if m.lsb.toNat ≤ 50000 ∧ m.nonLinearity.toNat ≤ 35000 then
      .next (s1.updTrg fun t => { t with calibratedAt := some s.tb.up, calBad := false })
    else .next (((s1.updTrg fun t => { t with calBad := true }).orReg TDC.ALARM 1#32).raiseBlock 0x4101)

/-- A read of TDC.FIFO_SEC: the value, and the oldest entry latched for the next two reads (R199). -/
def State.readFifoSec (s : State) : State := s.updTrg fun t => { t with fifoLatch := t.fifo.head? }

/-- A read of TDC.FIFO_FRAC removes the oldest entry (R199). -/
def State.readFifoFrac (s : State) : State := s.updTrg fun t => { t with fifo := t.fifo.drop 1 }

end Sys2Proof.Machine
end

