-- ==== Sys2Proof/Machine/LoopEngine.lean ====
section
/-!
DEFINITION. The closed-loop engine (R200 to R225): evaluation, commits and their checks, and notch design.
-/

namespace Sys2Proof.Machine

open Reg

/-- The loop part changed by `f`. -/
def State.updLoop (s : State) (f : Loop → Loop) : State := { s with loop := f s.loop }

/-- Slot `k` replaced. -/
def State.setSlot (s : State) (k : Nat) (x : Slot) : State := s.updLoop fun l => { l with slots := sparseSet {} l.slots k x }

/-- All states of a slot at +0.0. -/
def zeroStates : List Dword := List.replicate 11 0

/-! ### Sections (R206 to R208) -/

/-- A section of a slot in binary64: its order (0 off), b0 to b3 and a1 to a3 (R207, Table LE-6). -/
structure Sect where
  order : Nat
  b : List Dword
  a : List Dword
  deriving DecidableEq, Repr

/-- A stored coefficient with its reference added when the offset form is selected (R207). -/
def coefficient (offset : Bool) (ref : Int) (w : Word) : Dword := if offset then add64 (ofInt64 ref) (widen w) else widen w

/-- References of the ak (R207). -/
def refsA (order : Nat) : List Int := if order = 3 then [-3, 3, -1] else [-2, 1]
/-- References of the bk (R207). -/
def refsB (order : Nat) : List Int := if order = 3 then [1, -3, 3, -1] else [1, -2, 1]

/-- Coefficients from a list of references and words. -/
def coefficients (offset : Bool) : List Int → List Word → List Dword
  | r :: rs, w :: ws => coefficient offset r w :: coefficients offset rs ws
  | _, _ => []

/-- The section on page `p` (1 to 3 C1 to C3, 4 the notch) of a slot. -/
def sectOf (s : State) (k p : Nat) : Sect :=
  let w0 := s.slotWord k p 0
  let w (i : Nat) : Word := s.slotWord k p i
  let order := if p = 4 then (if bit w0 31 then 2 else 0) else fld w0 29 28
  { order := order
    b := coefficients (bit w0 25) (refsB order) (if p = 4 then [w 1, w 2, w 3] else [w 1, w 2, w 3, w 4])
    a := coefficients (bit w0 24) (refsA order) (if p = 4 then [w 4, w 5] else [w 5, w 6, w 7]) }

/-- A member of a list of binary64 words, +0.0 beyond its end. -/
def at64 (l : List Dword) (i : Nat) : Dword := (l[i]?).getD 0

/-- The inner loop of R208: the states s1 to s(ord−1) from x and v. -/
def innerStates (q : Sect) (x v : Dword) (st : List Dword) : Nat → Nat → List Dword
  | 0, _ => []
  | fuel + 1, i =>
    if i < q.order then
      fma64 (at64 q.b i) x (fma64 (neg64 (at64 q.a (i - 1))) v (at64 st i)) :: innerStates q x v st fuel (i + 1)
    else []

/-- One section (R208): its output and its new states. -/
def runSect (q : Sect) (x : Dword) (st : List Dword) : Dword × List Dword :=
  if q.order = 0 then (x, st)
  else
    let v := fma64 (at64 q.b 0) x (at64 st 0)
    let last := fma64 (at64 q.b q.order) x (mul64 (neg64 (at64 q.a (q.order - 1))) v)
    (v, innerStates q x v st q.order 1 ++ [last] ++ st.drop q.order)

/-- The states of the section on page `p` among a slot's eleven. -/
def sectStates (st : List Dword) (p : Nat) : List Dword := (st.drop ((p - 1) * 3)).take (if p = 4 then 2 else 3)

/-- All sections in the order C1, C2, C3, N (R208): the output and the eleven states. -/
def runSects (s : State) (k : Nat) (x : Dword) (st : List Dword) : Dword × List Dword :=
  let r1 := runSect (sectOf s k 1) x (sectStates st 1)
  let r2 := runSect (sectOf s k 2) r1.1 (sectStates st 2)
  let r3 := runSect (sectOf s k 3) r2.1 (sectStates st 3)
  let r4 := runSect (sectOf s k 4) r3.1 (sectStates st 4)
  (r4.1, r1.2 ++ r2.2 ++ r3.2 ++ r4.2)

/-- Back-calculation into s1 of the section `aw` (R208). -/
def backCalculate (aw : Nat) (kb w : Dword) (st : List Dword) : List Dword :=
  if aw = 0 then st
  else st.set ((aw - 1) * 3) (fma64 kb w (at64 st ((aw - 1) * 3)))

/-- The result of an evaluation: u, us and the states. -/
structure Evaluated where
  u : Dword
  us : Dword
  states : List Dword
  deriving DecidableEq, Repr

/-- Operation revision 1 (R208) on input `y`. -/
def evaluate (s : State) (k : Nat) (y : Dword) (st : List Dword) : Evaluated :=
  let w (i : Nat) : Dword := widen (s.slotWord k 0 i)
  let e := sub64 (w 3) y
  let x := mul64 (w 5) e
  let r := runSects s k x st
  let u := add64 r.1 (w 4)
  let us0 := if slotMode s k = 3 then w 9 else u
  let us := min64 (max64 us0 (w 6)) (w 7)
  { u := u, us := us, states := backCalculate (fld (s.slotWord k 0 0) 10 8) (w 8) (sub64 us u) r.2 }

/-! ### Inputs (R211 to R213) -/

/-- An input: its value, whether it is a substitute, and whether it came from an earlier frame (cascade). -/
structure SlotInput where
  y : Dword
  subst : Bool := false
  prev : Bool := false
  deriving DecidableEq, Repr

/-- The adopted seam value of a snapshot item, if the proposal carries one (R149, R271). -/
def seamValue (s : State) (p : Word) : Option Word :=
  s.frame.seamItems.findSome? fun i => match i with
    | .snapshot q v => if q = p then some v else none
    | _ => none

/-- The item of channel `n`'s DEC mean is of bad quality in this module (R148). -/
def decBad (s : State) (n : Nat) : Bool := (s.achan n).itemsBad.getLsbD 2 || !s.chanOn n

/-- The NaN that a proposal carries for an item of bad quality that the running image does not bind (notes/assumptions/122.md). -/
def badItem : Word := 0x7FC00000

/-- The value of a snapshot item in this module, as it enters its proposal (R149): a bound item as the point stands, with its substitute. -/
def snapshotValue (s : State) (p : Word) : Word :=
  let n := p.toNat / 256 % 16 % 8
  if (s.binding p).isSome then (s.point p).value else if decBad s n then badItem else s.reg (ACH.ITEM n 2)

/-- Input kind 1 (Table LE-4, R213): the value that both modules adopted where the pair exchanged it (R149), else this module's; a bad item that the
running image does not bind gives the last good input. -/
def decInput (s : State) (k : Nat) : SlotInput :=
  let n := fld (s.slotWord k 0 1) 10 8
  let p : Word := BitVec.ofNat 32 (0xA0000000 + n * 256 + 2)
  let v := (seamValue s p).getD (snapshotValue s p)
  if v = badItem then { y := (s.slot k).lastGood, subst := true } else { y := widen v, subst := decBad s n }

/-- Input kind 2: a point's value (R206). -/
def pointInput (s : State) (p : Word) : SlotInput :=
  let v := s.point p
  let y := match pointType p with
    | 5 => ofInt64 v.value.toNat
    | 6 => ofInt64 v.value.toInt
    | 7 => ofInt64 v.value.toInt
    | _ => widen v.value
  { y := y, subst := v.bad && !isOutputType (pointType p) }

/-- Input kind 3: a cascade (R212). -/
def cascadeInput (s : State) (k src : Nat) : SlotInput :=
  let x := s.slot src
  if slotMode s src = 0 then { y := 0 }
  else { y := x.us, prev := !(decide (x.evaluated = some s.frameNo) && decide (src % 4 = k % 4) && decide (src ≠ k)) }

/-- The input of slot `k` (Table LE-4). -/
def slotInput (s : State) (k : Nat) : SlotInput :=
  match fld (s.slotWord k 0 1) 31 28 with
  | 1 => decInput s k
  | 2 => pointInput s (s.slotWord k 0 2)
  | 3 => cascadeInput s k (fld (s.slotWord k 0 1) 7 0)
  | _ => { y := 0 }

/-- Words 3 to 9 of page 0 are finite and U_MIN ≤ U_MAX (R213). -/
def wordsGood (s : State) (k : Nat) : Bool :=
  (([3, 4, 5, 6, 7, 8, 9] : List Nat).all fun w => finite32 (s.slotWord k 0 w)) && !(lt32 (s.slotWord k 0 7) (s.slotWord k 0 6))

/-! ### Schedule (R216, R217, R220) -/

/-- A slot takes its place on its lane in this frame (R217): due, in auto or track, not in state fault; a tracking module also waits for
its streamed state (R288). -/
def slotDue (s : State) (k : Nat) : Bool :=
  s.executing && (decide (slotMode s k = 1) || decide (slotMode s k = 3)) && !(s.slot k).stateFault &&
    s.cycleStarts (fld (s.slotWord k 0 0) 28 26) &&
    (decide (s.role ≠ .track) || decide (k ∈ s.pair.slotsSeen))

/-- Slot `k` has been taken in this frame. -/
def slotTaken (s : State) (k : Nat) : Bool :=
  match (s.slot k).taken with
  | some (f, _) => decide (f = s.frameNo)
  | none => false

/-- The next slot of a lane: fixed-phase slots first, ascending (R217). -/
def nextOnLane (s : State) (l : Nat) : Option Nat :=
  ((List.range 64).map (laneSlot l)).find? fun k => slotDue s k && !slotTaken s k

/-- The destination's hem value of a slot in state fault (R214, R88); +0.0 for an internal output. -/
def slotHem (s : State) (k : Nat) : Dword :=
  match fld (s.slotWord k 0 0) 25 24 with
  | 1 => widen (aoHem s (fld (s.slotWord k 0 0) 18 16))
  | 2 => ((slotPoint s k).map (fun b => widen (hemOf s b))).getD 0
  | _ => 0

/-- An input fault (R213): the place is kept, nothing is evaluated. -/
def State.inputFault (s : State) (k : Nat) (x : Slot) : State :=
  (((s.setSlot k { x with inFault := true, writeDue := true }).incReg LOOP.IN_FAULTS).orReg LOOP.ALARM 2#32).raise 0x4802 k

/-- A state fault (R214). -/
def State.stateFault (s : State) (k : Nat) (x : Slot) : State :=
  (((s.setSlot k { x with states := zeroStates, us := slotHem s k, stateFault := true, writeDue := true }).incReg LOOP.STATE_FAULTS).orReg
    LOOP.ALARM 1#32).raise 0x4801 k

/-- The end of the evaluation at place `n` of a lane, in 2.5 ns ticks from t0 (R217). -/
def evalEnd (n : Nat) : Nat := 360 + 32 * n

/-- The lane's bookkeeping after slot `k` took place `n` (Table LE-10). -/
def State.takePlace (s : State) (k n : Nat) : State :=
  let l := k % 4
  let e := evalEnd n
  let s1 := s.updLoop fun x => { x with lanes := x.lanes.set l n, endNow := if x.endNow < e then e else x.endNow }
  if s.regBit LOOP.CTRL 0 then s1
  else
    (s1.setReg (LOOP.LANE_END l) (maxWord (s.reg (LOOP.LANE_END l)) (BitVec.ofNat 32 e))).setReg LOOP.EVAL_END_MAX
      (maxWord (s.reg LOOP.EVAL_END_MAX) (BitVec.ofNat 32 e))

/-- SLOT_EVALUATION (R208 to R217): the slot whose turn it is on its lane. -/
def execSlotEvaluation (k : Byte) (s : State) : Host.Outcome State Fault Refusal :=
  let k := k.toNat
  if nextOnLane s (k % 4) = some k then
    let n := (s.loop.lanes[k % 4]?).getD 0 + 1
    let s0 := (s.phase (evalEnd n * 5 / 2)).takePlace k n
    let i := slotInput s k
    let x := { s.slot k with taken := some (s.frameNo, n), subst := i.subst, cascPrev := i.prev, inFault := false }
    if !finite64 i.y ∨ ¬ wordsGood s k then .next (s0.inputFault k x)
    else
      let r := evaluate s k i.y x.states
      let y := { x with y := i.y, evaluated := some s.frameNo, lastGood := if i.subst then x.lastGood else i.y }
      let s1 := s0.incReg LOOP.EVALS
      if !(finite64 r.u && finite64 r.us && r.states.all finite64) then .next (s1.stateFault k y)
      else
        let hi := lt64 (widen (s.slotWord k 0 7)) r.u
        let lo := lt64 r.u (widen (s.slotWord k 0 6))
        let s2 := s1.setSlot k { y with states := r.states, us := r.us, satHi := hi, satLo := lo, writeDue := true }
        .next (if hi ∨ lo then s2.incReg LOOP.SAT_EVALS else s2)
  else .next s

/-! ### Commits (R203 to R205) -/

/-- Words staged for a slot: page * 16 + word, and value, ascending. -/
def stagedWords (s : State) (k : Nat) : List (Nat × Word) :=
  (s.staged.filter fun e => decide (e.1 / 65536 = WinId.loop.code) && decide (e.1 % 65536 / 256 = k)).map fun e =>
    (e.1 % 256 / 32 * 16 + e.1 % 32, e.2)

/-- Word `page * 16 + w` as it would stand after a commit. -/
def wordAfter (s : State) (k : Nat) (words : List (Nat × Word)) (page w : Nat) : Word :=
  (sparseFind words (page * 16 + w)).getD (s.slotWord k page w)

/-- Input kind 2 names a point that the running image does not bind or whose type is not 0x3 to 0x7 or 0xA (R204). -/
def badInPoint (s : State) (kind : Nat) (p : Word) : Bool :=
  decide (kind = 2) && ((s.binding p).isNone || !((decide (3 ≤ pointType p ∧ pointType p ≤ 7)) || decide (pointType p = 0xA)))

/-- What makes a word of a commit a bad parameter (R204, Tables LE-2 and LE-6). -/
def badWord (s : State) (k : Nat) (words : List (Nat × Word)) (page w : Nat) (v : Word) : Bool :=
  let after (p i : Nat) : Word := wordAfter s k words p i
  if page = 0 then
    match w with
    | 0 => decide (4 ≤ fld v 31 29) || decide (6 ≤ fld v 28 26) || decide (3 ≤ fld v 25 24) || decide (4 ≤ fld v 10 8) ||
        (decide (1 ≤ fld v 10 8) && decide (fld (after (fld v 10 8) 0) 29 28 = 0))
    | 1 => decide (4 ≤ fld v 31 28) || badInPoint s (fld v 31 28) (after 0 2)
    | 2 => badInPoint s (fld (after 0 1) 31 28) v
    | 6 => !finite32 v || lt32 (after 0 7) v
    | 7 => !finite32 v || lt32 v (after 0 6)
    | 10 => if 240 ≤ k then !(decide (800 ≤ v.toNat ∧ v.toNat ≤ 3600)) else decide (v ≠ 0)
    | n => decide (3 ≤ n ∧ n ≤ 9) && !finite32 v
  else if page ≤ 3 then
    match w with
    | 0 => decide (fld v 29 28 = 1) ||
        (decide (fld v 29 28 = 2) && (decide (after page 4 &&& 0x7FFFFFFF#32 ≠ 0) || decide (after page 7 &&& 0x7FFFFFFF#32 ≠ 0))) ||
        (decide (fld v 29 28 = 0) && decide (fld (after 0 0) 10 8 = page))
    | 4 => !finite32 v || (decide (fld (after page 0) 29 28 = 2) && decide (v &&& 0x7FFFFFFF#32 ≠ 0))
    | 7 => !finite32 v || (decide (fld (after page 0) 29 28 = 2) && decide (v &&& 0x7FFFFFFF#32 ≠ 0))
    | n => decide (1 ≤ n ∧ n ≤ 7) && !finite32 v
  else decide (1 ≤ w ∧ w ≤ 5) && !finite32 v

/-- The owners in conflict over a current-loop channel that the commit claims, or over a task-owned slot word it changes (R204, R69). -/
def commitConflict (s : State) (k : Nat) (words : List (Nat × Word)) : Option (Nat × Owner × Owner) :=
  let me : Owner := { kind := 1, number := k }
  let c := wordAfter s k words 0 0
  let ch := fld c 18 16
  let channel : Option (Nat × Owner × Owner) :=
    if fld c 25 24 = 1 then
      match (List.range 256).find? fun j => decide (j ≠ k) && slotClaims s j ch with
      | some j => some (0, { kind := 1, number := j }, me)
      | none =>
        match s.imageOwner (localPoint 4 (0x100 + ch)) with
        | some o => if o ≠ me then some (0, o, me) else none
        | none => none
    else none
  match channel with
  | some x => some x
  | none =>
    (words.filterMap fun e =>
      if e.1 < 16 ∧ e.2 ≠ s.slotWord k 0 e.1 then
        match (s.binding (BitVec.ofNat 32 (0x90000000 + k * 16 + e.1))).bind (·.owner) with
        | some o => if o.kind = 0 then some (e.1, o, me) else none
        | none => none
      else none).head?

/-- The first refused word of a commit: status, page * 16 + word, and the owners of a conflict (R204). -/
def loopRefusal (s : State) (k : Nat) (words : List (Nat × Word)) : Option (Status × Nat × Option (Owner × Owner)) :=
  match words.find? fun e => badWord s k words (e.1 / 16) (e.1 % 16) e.2 with
  | some e => some (.badParameter, e.1, none)
  | none =>
    match commitConflict s k words with
    | some (w, a, b) => some (.resourceConflict, w, some (a, b))
    | none => none

/-- LOOP.COMMIT_RESULT (Table LE-10). -/
def State.showCommit (s : State) (st : Status) (page w k : Nat) : State :=
  s.setReg LOOP.COMMIT_RESULT (BitVec.ofNat 32 (st.code * 16777216 + page * 65536 + w * 256 + k))

/-- A commit refused: the staged words stay (R203); a conflict over a current-loop channel is one of the ownership table (R438). -/
def State.refuseCommit (s : State) (k : Nat) (r : Status × Nat × Option (Owner × Owner)) : State :=
  let s1 := match r.2.2 with
    | some (a, b) =>
      let owners := ownerCode a * 65536 + ownerCode b
      let channel := fld (wordAfter s k (stagedWords s k) 0 0) 18 16
      (s.setReg LOOP.CONFLICT (BitVec.ofNat 32 owners)).noteConflict (if r.2.1 = 0 then some (2, channel) else none) owners
    | none => s
  ((s1.showCommit r.1 (r.2.1 / 16) (r.2.1 % 16) k).orReg LOOP.ALARM 4#32).raise 0x4804 k

/-- Whether section `p`'s order, enable or offset form changes with new committed words (R205). -/
def sectChanged (old new : State) (k p : Nat) : Bool :=
  decide (old.slotWord k p 0 &&& 0xB3000000#32 ≠ new.slotWord k p 0 &&& 0xB3000000#32)

/-- States after a commit or a task write (R205): those of changed sections, or all of them when the slot leaves mode off or changes its
class, at +0.0. -/
def statesAfter (old new : State) (k : Nat) (st : List Dword) : List Dword :=
  if (slotMode old k = 0 ∧ slotMode new k ≠ 0) ∨ fld (old.slotWord k 0 0) 28 26 ≠ fld (new.slotWord k 0 0) 28 26 then zeroStates
  else
    let keep (p : Nat) : List Dword := if sectChanged old new k p then List.replicate (if p = 4 then 2 else 3) 0 else sectStates st p
    keep 1 ++ keep 2 ++ keep 3 ++ keep 4

/-- Words written into a slot's committed pages. -/
def State.writeWords (s : State) (k : Nat) : List (Nat × Word) → State
  | [] => s
  | (pw, v) :: rest => (s.setWin .loop (k * 8 + pw / 16) (pw % 16) v).writeWords k rest

/-- A commit applied (R205, R214): page 0 ends a state fault. -/
def State.applyLoop (s : State) (k : Nat) (words : List (Nat × Word)) : State :=
  let s1 := s.writeWords k words
  let x := s.slot k
  let resume := x.stateFault && words.any (fun e => decide (e.1 < 16))
  let st := if resume then zeroStates else statesAfter s s1 k x.states
  ((s1.setSlot k { x with states := st, stateFault := x.stateFault && !resume }).incReg LOOP.COMMITS).raise 0x4803 k

/-- A state fault cleared (R214): the slot resumes with zero states. -/
def State.clearSlotFault (s : State) (k : Nat) : State :=
  let x := s.slot k
  if x.stateFault then s.setSlot k { x with stateFault := false, states := zeroStates } else s

/-- The bits of a slot word that a task's write keeps: TASK_MODE has reserved bits (Table LE-1, R8). -/
def taskWordMask (w : Nat) : Word := if w = 15 then 0x80000003 else 0xFFFFFFFF

/-- Task writes committed in the last frame take effect (R205). -/
def State.applyTaskWrites (s : State) : List (Nat × Nat × Word) → State
  | [] => s
  | (k, w, v) :: rest =>
    let s1 := s.setWin .loop (k * 8) w (v &&& taskWordMask w)
    (s1.setSlot k { s.slot k with states := statesAfter s s1 k (s.slot k).states }).applyTaskWrites rest

/-- The loop engine at a frame tick: committed task writes take effect, the lanes start afresh, EVAL_END shows the last frame. -/
def State.loopTick (s : State) : State :=
  let s1 := (s.applyTaskWrites s.loop.committed).setReg LOOP.EVAL_END (BitVec.ofNat 32 s.loop.endNow)
  s1.updLoop fun l => { l with committed := [], lanes := [0, 0, 0, 0], endNow := 0 }

/-- TASK_SLOT_WORD_WRITE (R205): at the output commit the writes collected in it are committed. -/
def State.commitTaskWrites (s : State) : State :=
  s.updLoop fun l => { l with committed := l.committed ++ l.taskWrites, taskWrites := [] }

/-! ### Notch design (R222, R223) -/

/-- Frames per second of a class over 10^0 to 10^5 (R222): 100,000 Hz for F down to 1 Hz for C5. -/
def slotRate (s : State) (k : Nat) : Nat := 100000 / classFrames (fld (s.slotWord k 0 0) 28 26)

/-- The rounded quotient of two binary64 numbers; not finite when the divisor is zero. -/
def div64 (a b : Dword) : Dword :=
  match f64 a, f64 b with
  | some x, some y =>
    if y.m = 0 then nan64 else BitVec.ofNat 64 (roundFlt 11 52 (x.neg != y.neg) x.m y.m (x.e - y.e))
  | _, _ => nan64

/-- The conditions of R222. -/
def designOk (s : State) (d : Design) : Bool :=
  match ratio32 d.f0, ratio32 d.width, ratio32 d.depth with
  | some f, some w, some dep =>
    decide (0 < f.num) && leRatio f ⟨(slotRate s d.slot * 45 : Nat), 100⟩ && decide (0 < w.num) && leRatio w f &&
      leRatio ⟨1, 1⟩ dep && leRatio dep ⟨80, 1⟩ && decide (slotRate s d.slot ≠ 0)
  | _, _, _ => false

/-- The binary64 value of π. -/
def pi64 : Dword := 0x400921FB54442D18

/-- The stored words b0, b1, b2, a1, a2 of a design (R222): offset form, each coefficient less its reference, rounded to binary32. -/
def designWords (s : State) (d : Design) : List Word :=
  let one := ofInt64 1
  let two := ofInt64 2
  let w0 := Config.tangent (div64 (mul64 pi64 (widen d.f0)) (ofInt64 (slotRate s d.slot)))
  let zp := div64 (widen d.width) (mul64 two (widen d.f0))
  let zz := mul64 zp (Config.powerOfTen (div64 (neg64 (widen d.depth)) (ofInt64 20)))
  let ww := mul64 w0 w0
  let tp := mul64 (mul64 two zp) w0
  let tz := mul64 (mul64 two zz) w0
  let a0 := add64 (add64 one tp) ww
  let b0 := div64 (add64 (add64 one tz) ww) a0
  let b1 := div64 (add64 (ofInt64 (-2)) (mul64 (mul64 two w0) w0)) a0
  let b2 := div64 (add64 (sub64 one tz) ww) a0
  let a2 := div64 (add64 (sub64 one tp) ww) a0
  [narrow (sub64 b0 one), narrow (sub64 b1 (ofInt64 (-2))), narrow (sub64 b2 one), narrow (sub64 b1 (ofInt64 (-2))), narrow (sub64 a2 one)]

/-- Real and imaginary parts of z times a stored section at the angle w, from its stored words c0, c1, c2 (coefficients less 1, −2, 1): with
1 − cos w written as 2·sin²(w/2), so that nothing near 1 cancels (notes/assumptions/25.md). -/
def onCircle (c0 c1 c2 w : Dword) : Dword × Dword :=
  let h := Config.sine (div64 w (ofInt64 2))
  let outer := add64 (add64 c0 c2) (ofInt64 2)
  (sub64 (add64 (add64 c0 c1) c2) (mul64 (mul64 (ofInt64 2) outer) (mul64 h h)), mul64 (sub64 c0 c2) (Config.sine w))

/-- The square of a magnitude. -/
def normSq (z : Dword × Dword) : Dword := add64 (mul64 z.1 z.1) (mul64 z.2 z.2)

/-- The achieved centre, width and depth of a design (R223), from its stored words b0, b1, b2, a1, a2, the requested f0 and the rate. -/
def designAchieved (c : List Word) (f0 : Word) (rate : Nat) : Word × Word × Word :=
  let w (i : Nat) : Dword := widen (c.getD i 0)
  let a1 := add64 (ofInt64 (-2)) (w 3)
  let a2 := add64 (ofInt64 1) (w 4)
  let perTurn := div64 (ofInt64 rate) (mul64 (ofInt64 2) pi64)
  let angle := div64 (mul64 (mul64 (ofInt64 2) pi64) (widen f0)) (ofInt64 rate)
  let gainSq := div64 (normSq (onCircle (w 0) (w 1) (w 2) angle)) (normSq (onCircle 0 (w 3) (w 4) angle))
  (narrow (mul64 (Config.arcCosine (div64 (neg64 a1) (mul64 (ofInt64 2) (Config.squareRoot a2)))) perTurn),
    narrow (mul64 (neg64 (Config.naturalLog a2)) perTurn), narrow (mul64 (ofInt64 (-10)) (Config.commonLog gainSq)))

/-- The words of the page that a design applies (R223): page * 16 + word; a compensator takes order 2 with b3 and a3 at 0.0. -/
def designPage (sect : Nat) (c : List Word) : List (Nat × Word) :=
  let w := fun (i : Nat) => c.getD i (0 : Word)
  if sect = 0 then [(64, 0x83000000), (65, w 0), (66, w 1), (67, w 2), (68, w 3), (69, w 4)]
  else
    let b := sect * 16
    [(b, 0x23000000), (b + 1, w 0), (b + 2, w 1), (b + 3, w 2), (b + 4, 0), (b + 5, w 3), (b + 6, w 4), (b + 7, 0)]

/-- LOOP.ND_STATUS (Table LE-10). -/
def State.showDesign (s : State) (busy : Bool) (st : Status) : State :=
  s.setReg LOOP.ND_STATUS (BitVec.ofNat 32 (b2n busy * 2147483648 + st.code))

/-- A design started, or refused (R222, R223): what is refused is answered at once. -/
def State.startDesign (s : State) (d : Design) : State × Option Reply :=
  if s.loop.design.isSome then (s, some (refusal .busy))
  else if !designOk s d then (s.showDesign false .badParameter, some (refusal .badParameter))
  else if d.apply ∧ stagedWords s d.slot ≠ [] then (s.showDesign false .busy, some (refusal .busy))
  else ((s.showDesign true .done).updLoop fun l => { l with design := some d }, none)

end Sys2Proof.Machine
end

