-- ==== Sys2Proof/Machine/Digital.lean ====
section
/-!
DEFINITION. The digital channels (R353 to R370): raw edges, debouncing, the latches at the output commit, faults, field supplies and the
staged release.
-/

namespace Sys2Proof.Machine

open Reg

/-- The field-side part changed by `f`. -/
def State.updIo (s : State) (f : Io → Io) : State := { s with io := f s.io }

/-- Digital channel `c` replaced. -/
def State.setDio (s : State) (c : Nat) (x : DioChannel) : State := s.updIo fun i => { i with channels := sparseSet {} i.channels c x }

/-- Group `g` replaced. -/
def State.setDioGroup (s : State) (g : Nat) (x : DioGroup) : State := s.updIo fun i => { i with groups := sparseSet {} i.groups g x }

/-- One microsecond of time. -/
def usUnits : Nat := 1000 * 4294967296

/-! ### Faults (R363) -/

/-- A fault of an output recorded: DIO.FAULT, DIO.LAST_FAULT and the channel's fault count (Table DI-8). -/
def State.dioFaulted (s : State) (c code : Nat) : State :=
  ((((s.putRegBit DIO.FAULT c true).setReg DIO.LAST_FAULT (BitVec.ofNat 32 (code % 256 * 16777216 + c))).setReg DIO.LAST_FAULT_SEC
    (secWord s.tb.now)).satRegFld (DIO.CH_COUNT c) 15 0)

/-- The outputs of group `g`. -/
def groupOutputs (s : State) (g : Nat) : List Nat := ((List.range 8).map (8 * g + ·)).filter s.isOut

/-- A fault of a whole group recorded for each of its outputs. -/
def State.groupFaulted (s : State) (code : Nat) : List Nat → State
  | [] => s
  | c :: rest => (s.dioFaulted c code).groupFaulted code rest

/-- Outputs set to await their release (R366). -/
def State.unrelease (s : State) : List Nat → State
  | [] => s
  | c :: rest => (s.setDio c { s.dio c with unreleased := true }).unrelease rest

/-- Every digital output awaits its release: the pair base's power-up or unheld state (R265, R366). -/
def State.unreleaseAll (s : State) : State := s.unrelease ((List.range 32).filter s.isOut)

/-! ### Latches (R359 to R361) -/

/-- The latch of an output set. A change starts the measurement of the switching delay (R360); an output commanded on ends FORCED_ON
(Table DI-5). -/
def State.setLatch (s : State) (c : Nat) (v : Bool) : State :=
  let x := s.dio c
  if x.latch = v then s
  else
    let y := { x with
      latch := v, measuring := some (v, s.tb.now, s.tb.up), offSince := if v then x.offSince else s.tb.up
      highTicks := 0, lowTicks := 0, forcedOn := x.forcedOn && !v }
    let s1 := (s.setDio c y).send .digitalOutput [c, b2n v, secOf s.tb.now, nsOf s.tb.now]
    if x.forcedOn ∧ v then s1.raise 0x500A c else s1

/-- What an output's latch takes at the output commit (R359, R361, R362): its hem value while hem is in force or when a switch left it unbound
(R110); the tack queue's channels and other unbound ones keep their level; else the committed value. -/
def committedLevel (s : State) (c : Nat) : Bool :=
  if hemNow s then bit (s.reg DIO.HEM) c
  else if s.dioBit c 28 then (s.dio c).latch
  else if (s.binding (localPoint 2 c)).isSome then bit (s.point (localPoint 2 c)).value 0
  else if s.frame.unbound.contains c then bit (s.reg DIO.HEM) c
  else (s.dio c).latch

/-- The latches written at the output commit, for the channels of a list (R359). -/
def State.writeLatches (s : State) : List Nat → State
  | [] => s
  | c :: rest => (if s.isOut c ∧ s.dioBit c 31 then s.setLatch c (committedLevel s c) else s).writeLatches rest

/-- The latches of the pair base take the committed values: the holder writes them; for a STANDBY they are its partner's equal values
(R359; notes/assumptions/60.md). -/
def State.commitDio (s : State) : State :=
  if s.stagesOn ∨ (s.role = .standby ∧ s.pair.grantPartner) then s.writeLatches (List.range 32) else s

/-! ### Raw edges and debouncing (R355 to R358) -/

/-- DEBOUNCE of channel `c` as a time. -/
def debounceOf (s : State) (c : Nat) : Nat := s.regFld (DIO.CH_CFG c) 15 0 * usUnits

/-- The first raw readback edge in the new sense gives the switching delay in 10 ns (R360). -/
def State.measureDelay (s : State) (c : Nat) (level : Bool) (t : Nat) : State :=
  match (s.dio c).measuring with
  | some (v, t0, up0) =>
    if v = level ∧ s.tb.up ≤ up0 + 100 * usUnits then
      let d := (t - t0) / (10 * nsUnits)
      (if v then s.putReg (DIO.CH_TIMING c) 31 16 d else s.putReg (DIO.CH_TIMING c) 15 0 d).setDio c { s.dio c with measuring := none }
    else s
  | none => s

/-- DIO_RAW_EDGE (R355, R356, R360). -/
def execDioRawEdge (c : Fin 32) (level : Bool) (stamp : Instant) (s : State) : Host.Outcome State Fault Refusal :=
  let t := tdcTime s (8 + c.val) stamp
  let s1 := (s.tdcEdge (8 + c.val) stamp).measureDelay c.val level t
  let x := s1.dio c.val
  let run := match x.run with
    | some (t0, _) => some (t0, s.tb.up)
    | none => if level = x.level then none else some (t, s.tb.up)
  .next (s1.setDio c.val { x with raw := level, run := run })

/-- READBACK_DELAY_TIMEOUT (R360): 100 µs after the latch change. -/
def execReadbackDelayTimeout (c : Fin 32) (s : State) : Host.Outcome State Fault Refusal :=
  match (s.dio c.val).measuring with
  | none => .next s
  | some (v, _, up0) =>
    let s1 := s.advanceUp (up0 + 100 * usUnits)
    .next ((if v then s1.putReg (DIO.CH_TIMING c.val) 31 16 0xFFFF else s1.putReg (DIO.CH_TIMING c.val) 15 0 0xFFFF).setDio c.val
      { s1.dio c.val with measuring := none })

/-- A transition in the sense that COS selects is counted (R358). -/
def State.countCos (s : State) (c : Nat) (level : Bool) : State :=
  if s.dioBit c (if level then 24 else 25) then s.incReg DIO.COS_COUNT else s

/-- DEBOUNCE_ACCEPT (R356 to R358): DEBOUNCE after the last raw edge of a run that ended away from the accepted level. While the group's
supply is low no transition is accepted (Table DI-6). -/
def execDebounceAccept (c : Fin 32) (s : State) : Host.Outcome State Fault Refusal :=
  let x := s.dio c.val
  match x.run with
  | none => .next s
  | some (t, since) =>
    if x.raw = x.level ∨ (s.dioGroup (c.val / 8)).low then .next s
    else
      let s1 := s.advanceUp (since + debounceOf s c.val + 60 * nsUnits)
      let s2 := (s1.setDio c.val { x with level := x.raw, stamp := t, run := none }).putReg (DIO.CH_COUNT c.val) 31 16
        (s.regFld (DIO.CH_COUNT c.val) 31 16 + 1)
      if s.dioBit c.val 31 then
        .next (((s2.updIo fun i => { i with transitions := i.transitions ++ [(c.val, x.raw, t)] }).countCos c.val x.raw).sourcesChange
          [(32 + c.val, x.raw, t)])
      else .next s2

/-- DEBOUNCE_DISCARD (R356): DEBOUNCE after a run's level returned to the accepted one. -/
def execDebounceDiscard (c : Fin 32) (s : State) : Host.Outcome State Fault Refusal :=
  let x := s.dio c.val
  match x.run with
  | none => .next s
  | some (_, since) =>
    if x.raw = x.level then
      .next (((s.advanceUp (since + debounceOf s c.val)).setDio c.val { x with run := none }).incReg DIO.GLITCH_COUNT)
    else .next s

/-! ### Output faults (Table DI-5) -/

/-- OVERLOAD_DETECT: the current limit of a switch that is on. -/
def execOverloadDetect (c : Fin 32) (s : State) : Host.Outcome State Fault Refusal :=
  if s.dioDriving c.val ∧ (s.dio c.val).latch ∧ !(s.dio c.val).overload then
    .next (((s.setDio c.val { s.dio c.val with overload := true }).dioFaulted c.val 0x5005).raise 0x5005 c.val)
  else .next s

/-- THERMAL_SHUTDOWN: the switch is off until it has cooled. -/
def execThermalShutdown (c : Fin 32) (s : State) : Host.Outcome State Fault Refusal :=
  if s.isOut c.val then
    .next (((s.setDio c.val { s.dio c.val with thermal := true, hot := true }).dioFaulted c.val 0x5006).raise 0x5006 c.val)
  else .next s

/-- THERMAL_RESTART: at 140 °C, while commanded on. -/
def execThermalRestart (c : Fin 32) (s : State) : Host.Outcome State Fault Refusal :=
  if (s.dio c.val).hot ∧ (s.dio c.val).latch then .next (s.setDio c.val { s.dio c.val with hot := false, restartAt := s.tb.up }) else .next s

/-- OPEN_LOAD_DETECT: with OPEN_DET, an output that is on. -/
def execOpenLoadDetect (c : Fin 32) (s : State) : Host.Outcome State Fault Refusal :=
  if s.dioBit c.val 26 ∧ s.dioDriving c.val ∧ (s.dio c.val).latch ∧ !(s.dio c.val).openLoad then
    .next (((s.setDio c.val { s.dio c.val with openLoad := true }).dioFaulted c.val 0x5007).raise 0x5007 c.val)
  else .next s

/-- The trips of the last 60 s. -/
def recentTrips (s : State) (g : Nat) : List Nat := (s.dioGroup g).trips.filter fun t => s.tb.up < t + 60 * secUnits

/-- GROUP_OVER_TRIP, for a mean group current above 2.2 A, in mA: all outputs of the group off; after RETRY_LIMIT trips within 60 s they stay off. -/
def execGroupOverTrip (g : Fin 4) (current : Half) (s : State) : Host.Outcome State Fault Refusal :=
  let x := s.dioGroup g.val
  if x.tripped.isSome ∨ x.latchedOff ∨ current.toNat ≤ 2200 then .next s
  else
    let trips := s.tb.up :: recentTrips s g.val
    let stay := decide (s.regFld (DIO.GRP_CFG g.val) 3 0 ≤ trips.length)
    let s1 := (((s.setDioGroup g.val { x with tripped := some s.tb.up, latchedOff := stay, trips := trips }).unrelease
      (groupOutputs s g.val)).putReg (DIO.GRP_SUPPLY g.val) 15 0 current.toNat).groupFaulted 0x5008 (groupOutputs s g.val)
    let s2 := ((s1.putRegBit DIO.ALARM (8 + g.val) true).satRegFld (DIO.GRP_COUNT g.val) 15 0).raise 0x5008 g.val
    .next (if stay then s2.raise 0x5009 g.val else s2)

/-- GROUP_OVER_RETRY: RETRY ms after the trip the group may be released again. -/
def execGroupOverRetry (g : Fin 4) (s : State) : Host.Outcome State Fault Refusal :=
  let x := s.dioGroup g.val
  match x.tripped with
  | none => .next s
  | some t =>
    if x.latchedOff then .next s
    else
      let s1 := s.advanceUp (t + s.regFld (DIO.GRP_CFG g.val) 31 16 * msUnits)
      .next ((s1.setDioGroup g.val { x with tripped := none }).raise 0x500A g.val)

/-- DIO_FAULT_CLEAR: a fault's own clearing condition is met; THERMAL clears 1 s after the switch has restarted. -/
def execDioFaultClear (c : Fin 32) (f : DioFault) (s : State) : Host.Outcome State Fault Refusal :=
  let x := s.dio c.val
  match f with
  | .overload => .next (if x.overload then (s.setDio c.val { x with overload := false }).raise 0x500A c.val else s)
  | .thermal => .next (if x.thermal ∧ !x.hot then ((s.advanceUp (x.restartAt + secUnits)).setDio c.val { x with thermal := false }).raise 0x500A c.val else s)
  | .openLoad => .next (if x.openLoad then (s.setDio c.val { x with openLoad := false }).raise 0x500A c.val else s)

/-- The effect of a group bit of DIO.CLEAR (Table DI-5): the latch-off ends. -/
def State.dioClearGroup (s : State) (g : Nat) : State :=
  let x := s.dioGroup g
  if x.latchedOff then (s.setDioGroup g { x with latchedOff := false, tripped := none, trips := [] }).raise 0x500A g else s

/-- The effect of DIO.CLEAR [8] (Table DI-8). -/
def State.dioClearCounters (s : State) : State :=
  s.zeroRegs (DIO.COS_COUNT :: DIO.GLITCH_COUNT :: (List.range 32).map DIO.CH_COUNT)

/-! ### Field supplies (R365) -/

/-- SUPPLY_WARN (Table DI-6): below 19.2 V or above 33.0 V, in mV. -/
def execSupplyWarn (g : Fin 4) (mv : Half) (s : State) : Host.Outcome State Fault Refusal :=
  let x := s.dioGroup g.val
  let y := { x with warn := decide (mv.toNat < 19200), high := decide (33000 < mv.toNat) }
  if (y.warn ∧ !x.warn) ∨ (y.high ∧ !x.high) then
    .next ((((s.setDioGroup g.val y).putReg (DIO.GRP_SUPPLY g.val) 31 16 mv.toNat).putRegBit DIO.ALARM (4 + g.val) true).raise 0x5001 g.val)
  else .next s

/-- SUPPLY_WARN_CLEAR (R365). -/
def execSupplyWarnClear (g : Fin 4) (mv : Half) (s : State) : Host.Outcome State Fault Refusal :=
  if 19200 ≤ mv.toNat ∧ mv.toNat ≤ 33000 then
    .next ((s.setDioGroup g.val { s.dioGroup g.val with warn := false, high := false }).putReg (DIO.GRP_SUPPLY g.val) 31 16 mv.toNat)
  else .next s

/-- SUPPLY_LOW (Table DI-6): the switches of the group go off and unreleased; its inputs are invalid from the next frame tick. -/
def execSupplyLow (g : Fin 4) (mv : Half) (s : State) : Host.Outcome State Fault Refusal :=
  if (s.dioGroup g.val).low ∨ 15000 ≤ mv.toNat then .next s
  else
    let s1 := (((s.setDioGroup g.val { s.dioGroup g.val with low := true }).unrelease (groupOutputs s g.val)).putReg
      (DIO.GRP_SUPPLY g.val) 31 16 mv.toNat).groupFaulted 0x5002 (groupOutputs s g.val)
    .next (((s1.putRegBit DIO.ALARM g.val true).satRegFld (DIO.GRP_COUNT g.val) 31 16).raise 0x5002 g.val)

/-- SUPPLY_RECOVERED (Table DI-6). -/
def execSupplyRecovered (g : Fin 4) (mv : Half) (s : State) : Host.Outcome State Fault Refusal :=
  if (s.dioGroup g.val).low ∧ 18000 < mv.toNat then
    .next (((s.setDioGroup g.val { s.dioGroup g.val with low := false }).putReg (DIO.GRP_SUPPLY g.val) 31 16 mv.toNat).raise 0x5003 g.val)
  else .next s

/-! ### The frame tick -/

/-- FORCED_ON (Table DI-5) judged for one output at a frame tick. -/
def State.judgeForced (s : State) (c : Nat) : State :=
  let x := s.dio c
  if !s.isOut c ∨ x.latch ∨ s.tb.up < x.offSince + 50 * usUnits then s
  else if x.level then
    let n := x.highTicks + 1
    let y := { x with highTicks := satTo 3 n, lowTicks := 0, forcedOn := x.forcedOn || decide (3 ≤ n) }
    if 3 ≤ n ∧ !x.forcedOn then ((s.setDio c y).dioFaulted c 0x5004).raise 0x5004 c else s.setDio c y
  else
    let n := x.lowTicks + 1
    let y := { x with lowTicks := satTo 3 n, highTicks := 0, forcedOn := x.forcedOn && decide (n < 3) }
    if x.forcedOn ∧ 3 ≤ n then (s.setDio c y).raise 0x500A c else s.setDio c y

/-- A digital channel's points latched at t0 (R357, Table DI-2). -/
def State.latchDio (s : State) (c : Nat) : State :=
  let v : Word := BitVec.ofNat 32 (b2n (s.dioLevel c))
  let given := if s.dioBit c 31 ∧ !(s.dioGroup (c / 8)).invalid then some (v, (s.dio c).stamp) else none
  ((s.feed (localPoint 1 c) given).feed (localPoint 8 c) given).feed (localPoint 1 (0x60 + c))
    (some (BitVec.ofNat 32 (b2n (decide (fld (viewDioStat s c) 7 2 ≠ 0))), s.tb.now))

/-- A group's inputs become valid or invalid, and its supply point is latched (Tables DI-2, DI-6). -/
def State.latchGroup (s : State) (g : Nat) : State :=
  (s.setDioGroup g { s.dioGroup g with invalid := (s.dioGroup g).low }).feed (localPoint 1 (0x40 + g))
    (some (BitVec.ofNat 32 (b2n (s.supplyValid g)), s.tb.now))

/-- STAGED_RELEASE_DIO (R366): while a module holds a grant, the lowest output that may be released is released. -/
def State.releaseDio (s : State) : State :=
  if s.pair.grant || s.pair.grantPartner then
    match (List.range 32).find? fun c =>
        s.isOut c && (s.dio c).unreleased && !s.pair.unheld && !(s.dioGroup (c / 8)).low && (s.dioGroup (c / 8)).tripped.isNone with
    | some c => s.setDio c { s.dio c with unreleased := false }
    | none => s
  else s

/-- What the digital channels do at a frame tick (R357, R363, R366). -/
def State.dioTick (s : State) : State :=
  let s1 := (List.range 4).foldl (fun t g => t.latchGroup g) s
  let s2 := (List.range 32).foldl (fun t c => (t.judgeForced c).latchDio c) s1
  ((s2.setReg DIO.IN_LEVEL (dioWord s2.dioLevel)).updIo fun i => { i with transitions := [] }).releaseDio

/-- DIO.CH_CFG applied (R362, R368): a change from output to input first turns the channel off. -/
def State.applyDioCfg (s : State) (c : Nat) (v : Word) : State :=
  let s1 := if s.isOut c ∧ !bit v 30 then s.setLatch c false else s
  let s2 := s1.setReg (DIO.CH_CFG c) v
  s2.sourcesChange [(32 + c, s2.dioLevel c, (s2.dio c).stamp)]

end Sys2Proof.Machine
end

