-- ==== Sys2Proof/Machine/CurrentLoops.lean ====
section
/-!
DEFINITION. The current-loop outputs (R371 to R387): commands, the values driven and their way to the converter, faults, and the staged
release.
-/

namespace Sys2Proof.Machine

open Reg

/-- Current-loop channel `n` replaced. -/
def State.setAo (s : State) (n : Nat) (x : AoChannel) : State := s.updIo fun i => { i with loops := sparseSet {} i.loops n x }

/-- All current-loop channels await their release (R265, R378). -/
def State.unreleaseAo (s : State) : State := (List.range 8).foldl (fun t n => t.setAo n { t.ao n with unreleased := true }) s

/-- A write to a channel (R374, R377): the value decided now starts on its way to the converter. A change of the value while COMPLIANCE
holds FAIL_LO begins a try (R381). -/
def State.writeAo (s : State) (n : Nat) : State :=
  let x := s.ao n
  let d := aoDriven s n
  if d.1 = 1 then s
  else if d.1 = 5 ∧ (aoWanted s n).2 ≠ x.target then
    s.setAo n { x with
      target := (aoWanted s n).2, trying := some s.tb.up, reached := false, triedAt := s.tb.up
      writes := x.writes ++ [(s.tb.up, (aoWanted s n).2)] }
  else
    let wanted := (aoWanted s n).2
    let keep := if d.1 = 5 then wanted else d.2
    if x.writes.getLast?.map (·.2) = some d.2 ∨ (x.writes = [] ∧ x.converter = d.2) then s.setAo n { x with target := keep }
    else s.setAo n { x with target := keep, writes := x.writes ++ [(s.tb.up, d.2)] }

/-- Every channel written (R377). -/
def State.writeAllAo (s : State) : State := (List.range 8).foldl (fun t n => t.writeAo n) s

/-- A fault recorded: AO.LAST_FAULT, the count, and the event (Table AO-10). -/
def State.aoCounted (s : State) (n code : Nat) : State :=
  (((s.setReg AO.LAST_FAULT (BitVec.ofNat 32 (code % 256 * 16777216 + n))).setReg AO.LAST_FAULT_SEC (secWord s.tb.now)).satRegFld (AO.COUNT n)
    31 16).raise code n

/-- A command from the channel's owner (R375): one that is not finite is ignored and sets CMD_INVALID. -/
def State.commandAo (s : State) (n : Nat) (v : Word) : State :=
  let x := s.ao n
  if finite32 v then s.setAo n { x with cmd := v, committed := true, cmdInvalid := decide (2 < x.request) }
  else if x.cmdInvalid then s.raise 0x5804 n
  else (s.setAo n { x with cmdInvalid := true }).aoCounted n 0x5804

/-- The failure request of a channel (Table AO-3): other values than 0, 1 and 2 act as 0 and set CMD_INVALID. -/
def State.requestAo (s : State) (n : Nat) : State :=
  let p := localPoint 7 (0x108 + n)
  if (s.binding p).isSome ∧ !hemNow s then
    let r := (s.point p).value.toNat
    s.setAo n { s.ao n with request := r, cmdInvalid := (s.ao n).cmdInvalid || decide (2 < r) }
  else s

/-- The command point of a channel at the output commit, when its owner has committed it (R373). -/
def State.takeCommand (s : State) (n : Nat) : State :=
  let p := localPoint 4 (0x100 + n)
  if (s.binding p).isSome ∧ (s.point p).committed ∧ !hemNow s then (s.requestAo n).commandAo n (s.point p).own else s.requestAo n

/-- The current loops at the output commit (R374, R377). -/
def State.commitAo (s : State) : State := ((List.range 8).foldl (fun t n => t.takeCommand n) s).writeAllAo

/-- A value reaches the converter, through the low-pass with HART (R394). -/
def State.passAo (s : State) (n : Nat) (v : Word) : State :=
  let p := aoPassed s n
  if aoFiltered s n then s.setAo n { s.ao n with converter := v, passed := p.1, slope := p.2, passedAt := s.tb.up }
  else s.setAo n { s.ao n with converter := v, passed := v, slope := 0, passedAt := s.tb.up }

/-- AO_CONVERTER_UPDATE (R377): 400 ns after the oldest write on its way. -/
def execAoConverterUpdate (n : Fin 8) (s : State) : Host.Outcome State Fault Refusal :=
  match (s.ao n.val).writes with
  | [] => .next s
  | (t, v) :: rest =>
    let s1 := s.advanceUp (t + 400 * nsUnits)
    .next ((s1.passAo n.val v).setAo n.val { (s1.passAo n.val v).ao n.val with writes := rest })

/-! ### Faults (Table AO-6) -/

/-- A fault recorded with its AO.ALARM bit. -/
def State.aoFaulted (s : State) (n alarm code : Nat) : State := (s.putRegBit AO.ALARM alarm true).aoCounted n code

/-- Short of compliance (R381): more than 0.1% of span below the value, with the supply at 28.0 V or, sinking, less than 3.0 V across the
terminals. -/
def aoShort (s : State) (n : Nat) (m : LoopMeasure) : Bool :=
  lt32 m.current (aoSought s n) && !aoNear s n m.current (aoSought s n) 100 &&
    (if s.regBit (AO.CH_CFG n) 30 then decide (fld m.supply 15 0 < 3000) else decide (28000 ≤ fld m.supply 31 16))

/-- Wired to an external supply or with current flowing in (R382, R383): the terminal of a sourcing channel lies above its supply, or the current is
negative. The reverse polarity of a sinking channel shows in its current. -/
def aoMiswired (s : State) (n : Nat) (m : LoopMeasure) : Bool :=
  m.current.getLsbD 31 && decide (fld m.current 30 0 ≠ 0) || (!s.regBit (AO.CH_CFG n) 30 && decide (fld m.supply 31 16 < fld m.supply 15 0))

/-- The adaptive supply's target in mV (R379, R382): 2.0 V above the terminal, from 6.0 to 28.0 V; 28.0 V while it shunts a reverse current. -/
def aoSupplyTarget (s : State) (n : Nat) (m : LoopMeasure) : Nat :=
  if (s.ao n).miswire ∧ !s.regBit (AO.CH_CFG n) 27 then 28000 else min 28000 (max 6000 (fld m.supply 15 0 + 2000))

/-- How far the adaptive supply of a sourcing channel lies from its target, mV; none in sinking mode, where it is off (R379). -/
def aoSupplyError (s : State) (n : Nat) (m : LoopMeasure) : Nat :=
  let want := aoSupplyTarget s n m
  let have' := fld m.supply 31 16
  if s.regBit (AO.CH_CFG n) 30 then 0 else max (want - have') (have' - want)

/-- COMPLIANCE_DETECT (R381): short of compliance for 50 µs. In a try that had come to its value, the channel returns to FAIL_LO. -/
def execComplianceDetect (n : Fin 8) (m : LoopMeasure) (s : State) : Host.Outcome State Fault Refusal :=
  let x := s.ao n.val
  if !aoShort s n.val m then .next s
  else if x.compliance then
    if x.reached then .next ((s.setAo n.val { x with trying := none, reached := false, triedAt := s.tb.up }).writeAo n.val) else .next s
  else
    let s1 := s.setAo n.val { x with compliance := true, trying := none, reached := false, triedAt := s.tb.up }
    .next (((s1.satRegFld (AO.COUNT n.val) 15 0).aoFaulted n.val 1 0x5802).writeAo n.val)

/-- COMPLIANCE_RETRY (R381): every 1 s the value is tried. -/
def execComplianceRetry (n : Fin 8) (s : State) : Host.Outcome State Fault Refusal :=
  let x := s.ao n.val
  if x.compliance ∧ s.regBit (AO.CH_CFG n.val) 26 ∧ x.trying.isNone then
    let s1 := s.advanceUp (x.triedAt + secUnits)
    .next ((s1.setAo n.val { x with trying := some s1.tb.up, reached := false, triedAt := s1.tb.up }).writeAo n.val)
  else .next s

/-- COMPLIANCE_RETRY_END (R381): a try that has not come within 0.1% of span of the value ends after 100 µs; one that has goes on. -/
def execComplianceRetryEnd (n : Fin 8) (current : Word) (s : State) : Host.Outcome State Fault Refusal :=
  let x := s.ao n.val
  match x.trying with
  | none => .next s
  | some t =>
    if x.reached then .next s
    else
      let s1 := s.advanceUp (t + 100 * usUnits)
      if aoNear s1 n.val current (aoSought s1 n.val) 100 then .next (s1.setAo n.val { s1.ao n.val with reached := true })
      else .next ((s1.setAo n.val { s1.ao n.val with trying := none }).writeAo n.val)

/-- COMPLIANCE_CLEAR (R381): within 0.05% of span for 10 ms. With COMP_FAIL the channel clears only while it drives the value tried. -/
def execComplianceClear (n : Fin 8) (current : Word) (s : State) : Host.Outcome State Fault Refusal :=
  let x := s.ao n.val
  if x.compliance ∧ (!s.regBit (AO.CH_CFG n.val) 26 ∨ x.trying.isSome) ∧ aoNear s n.val current (aoSought s n.val) 50 then
    let s1 := s.advanceUp (x.triedAt + 10 * msUnits)
    .next (((s1.setAo n.val { x with compliance := false, trying := none, reached := false }).raise 0x5806 n.val).writeAo n.val)
  else .next s

/-- MISWIRE_DETECT (R382, R383): the terminal above the supply for 50 µs, or current flowing in. -/
def execMiswireDetect (n : Fin 8) (m : LoopMeasure) (s : State) : Host.Outcome State Fault Refusal :=
  let x := s.ao n.val
  if !aoMiswired s n.val m then .next s
  else if x.miswire then .next (s.setAo n.val { x with miswireAt := s.tb.up })
  else .next (((s.setAo n.val { x with miswire := true, miswireAt := s.tb.up }).aoFaulted n.val 0 0x5801).writeAo n.val)

/-- MISWIRE_CLEAR (Table AO-6): no reverse current and the terminal below the supply for 1 s. -/
def execMiswireClear (n : Fin 8) (m : LoopMeasure) (s : State) : Host.Outcome State Fault Refusal :=
  let x := s.ao n.val
  if x.miswire ∧ !aoMiswired s n.val m then
    let s1 := s.advanceUp (x.miswireAt + secUnits)
    .next (((s1.setAo n.val { x with miswire := false }).raise 0x5806 n.val).writeAo n.val)
  else .next s

/-- AO_THERMAL_FOLDBACK (R380): the stage temperature in 0.1 °C and the measured current. Above 150 °C the foldback is active; it holds the current
while that lies below the value. -/
def execAoThermalFoldback (n : Fin 8) (temp : Half) (current : Word) (s : State) : Host.Outcome State Fault Refusal :=
  let x := s.ao n.val
  let active := decide (1500 < temp.toInt)
  let y := { x with
    foldback := active, thermal := x.thermal || (active && lt32 current (aoSought s n.val))
    coolSince := if x.foldback ∨ active then s.tb.up else x.coolSince }
  if y.thermal ∧ !x.thermal then .next ((s.setAo n.val y).aoFaulted n.val 2 0x5803) else .next (s.setAo n.val y)

/-- SENSE_FAULT (Table AO-6): more than 0.5% of span from the value driven for 1 ms, without COMPLIANCE, THERMAL or MISWIRE. -/
def execSenseFault (n : Fin 8) (current : Word) (s : State) : Host.Outcome State Fault Refusal :=
  let x := s.ao n.val
  if x.compliance ∨ x.thermal ∨ x.miswire ∨ aoNear s n.val current (aoValue s n.val).2 500 then .next s
  else if x.senseFault then .next (s.setAo n.val { x with senseAt := s.tb.up })
  else .next ((s.setAo n.val { x with senseFault := true, senseAt := s.tb.up }).aoFaulted n.val 3 0x5805)

/-- SUPPLY_FAULT (Table AO-6): the adaptive supply more than 1.0 V from its target for 1 ms. -/
def execSupplyFault (n : Fin 8) (m : LoopMeasure) (s : State) : Host.Outcome State Fault Refusal :=
  let x := s.ao n.val
  if aoSupplyError s n.val m ≤ 1000 then .next s
  else if x.supplyFault then .next (s.setAo n.val { x with supplyAt := s.tb.up })
  else .next ((s.setAo n.val { x with supplyFault := true, supplyAt := s.tb.up }).aoFaulted n.val 3 0x5805)

/-- CHANNEL_FAULT_CLEARED (Table AO-6, R380): after 1 s without foldback, within 0.1% of span of the value, or within 0.5 V of the target. -/
def execChannelFaultCleared (n : Fin 8) (f : AoFault) (m : LoopMeasure) (s : State) : Host.Outcome State Fault Refusal :=
  let x := s.ao n.val
  match f with
  | .thermal =>
    if x.thermal ∧ !x.foldback then
      .next (((s.advanceUp (x.coolSince + secUnits)).setAo n.val { x with thermal := false }).raise 0x5806 n.val)
    else .next s
  | .sense =>
    if x.senseFault ∧ aoNear s n.val m.current (aoValue s n.val).2 100 then
      .next (((s.advanceUp (x.senseAt + secUnits)).setAo n.val { x with senseFault := false }).raise 0x5806 n.val)
    else .next s
  | .supply =>
    if x.supplyFault ∧ aoSupplyError s n.val m ≤ 500 then
      .next (((s.advanceUp (x.supplyAt + secUnits)).setAo n.val { x with supplyFault := false }).raise 0x5806 n.val)
    else .next s

/-- The effect of AO.CLEAR (Table AO-10). -/
def State.aoClear (s : State) : State :=
  s.zeroRegs (AO.SHARE_ERR_MAX :: AO.HOLD_DROOP_MAX :: AO.HANDOVERS :: AO.GAPS :: (List.range 8).map AO.COUNT)

/-! ### The frame tick and the yoke -/

/-- One channel's measurement latched at t0, with its points (R385, Table AO-3). -/
def State.latchAo (s : State) (n : Nat) (m : LoopMeasure) : State :=
  let s2 := (((s.setReg (AO.MEAS n) m.current).setReg (AO.SUPPLY n) m.supply).setReg (AO.THERM n) m.therm).setReg (AO.LOAD n) m.load
  let t := s.tb.now
  ((s2.feed (localPoint 3 (0x120 + n)) (some (m.current, t))).feed (localPoint 1 (0x128 + n))
    (some (BitVec.ofNat 32 (b2n (decide (fld (viewAoStat s2 n) 7 1 ≠ 0))), t))).feed (localPoint 1 (0x130 + n))
    (some (BitVec.ofNat 32 (b2n (s2.ao n).compliance), t))

/-- The measurements of a frame tick, by channel. -/
def State.latchAllAo (s : State) (n : Nat) : List LoopMeasure → State
  | [] => s
  | m :: rest => if n < 8 then (s.latchAo n m).latchAllAo (n + 1) rest else s

/-- STAGED_RELEASE_AO (R378): the holder releases one channel per frame tick in ascending order; its value is written. -/
def State.releaseAo (s : State) : State :=
  if s.stagesOn ∧ !s.pair.unheld then
    match (List.range 8).find? fun n => (s.ao n).unreleased with
    | some n => (s.setAo n { s.ao n with unreleased := false }).writeAo n
    | none => s
  else s

/-- The largest deviation of a share window, in 0.001% of span (R386). -/
def State.recordShare (s : State) (err : Word) : State :=
  let s1 := (s.incReg AO.HANDOVERS).setReg AO.SHARE_ERR_MAX (maxWord (s.reg AO.SHARE_ERR_MAX) err)
  if 100 < err.toNat then (s1.putRegBit AO.ALARM 4 true).raiseBlock 0x5807 else s1

/-- The largest droop of a gap, recorded by the new holder (R386). -/
def State.recordDroop (s : State) (err : Word) : State :=
  let s1 := (s.incReg AO.GAPS).setReg AO.HOLD_DROOP_MAX (maxWord (s.reg AO.HOLD_DROOP_MAX) err)
  if 1000 < err.toNat then (s1.putRegBit AO.ALARM 4 true).raiseBlock 0x5807 else s1

end Sys2Proof.Machine
end

