-- ==== Sys2Proof/Machine/Networks.lean ====
section
/-!
DEFINITION. Networks: the agreement of station inputs (R274), QSP frames and cycles (R299 to R306), roll-calls and binding (R307 to R311).
-/

namespace Sys2Proof.Machine

open Reg

/-- The first C2 cycle start after an instant (R65: every 1 ms). -/
def nextC2 (t : Nat) : Nat := (t / msUnits + 1) * msUnits

/-- The first C2 cycle start at or after an instant. -/
def c2At (t : Nat) : Nat := (t + msUnits - 1) / msUnits * msUnits

/-- The time index of the C2 cycle that starts at an instant (R65). -/
def c2Index (t : Nat) : Word := BitVec.ofNat 32 (t / msUnits)

/-- The cycle whose input reception is open: its cutoff, 50 µs before it starts, has not passed (R303). -/
def openCycle (s : State) : Nat :=
  let t := nextC2 s.tb.now
  if t ≤ s.tb.now + 50 * usUnits ∨ s.net.closedFor = some t then t + msUnits else t

/-! ### Receipt lists (R274, Table PR-6) -/

/-- A receipt entered into a list: the first copy of a station's stream stands; a stream of station 0 takes the later one. -/
def enterReceipt (r : Receipt) (l : List Receipt) : List Receipt :=
  if r.entry.station = 0 then
    l.filter (fun x => ¬ (x.entry.station = 0 ∧ x.entry.stream = r.entry.stream)) ++ [r]
  else if l.any (fun x => decide (x.entry.station = r.entry.station) && decide (x.entry.stream = r.entry.stream)) then l
  else l ++ [r]

/-- Values of points of station 0 enter the receipt list as a stream (R314, R391). -/
def State.enterPoints (s : State) (stream : Nat) (sequence : Word) (values : List (Word × Option Word)) : State :=
  s.updNet fun n =>
    { n with receipts := enterReceipt { entry := { station := 0, stream := stream, flags := 0, sequence := sequence, crc := 0 },
                                        data := .points values } n.receipts }

/-- The fields of a receipt-list entry. -/
def entryFields (e : ReceiptEntry) : List Nat := [e.station, e.stream, e.flags.toNat, e.sequence.toNat, e.crc.toNat]

/-- The module exchanges receipts with a partner (R274). -/
def exchanges (s : State) : Bool := (decide (s.role = .active) || decide (s.role = .standby)) && s.pair.tandem.up

/-- INPUT_CUTOFF (R274): at T − 50 µs the list is closed and sent to the partner. -/
def execInputCutoff (s : State) : Host.Outcome State Fault Refusal :=
  let t0 := nextC2 s.tb.now
  let t := if s.net.closedFor = some t0 then t0 + msUnits else t0
  let s1 := s.advanceTo (t - 50 * usUnits)
  let s2 := (s1.updNet fun n => { n with closed := n.receipts ++ canReceipts s1, receipts := [], closedFor := some t }).canCutoff
  .next (if exchanges s then s2.send .receiptList (s2.net.closed.flatMap fun r => entryFields r.entry) else s2)

/-- A sequence is newer than another, modulo 2^32. -/
def newer (a b : Word) : Bool := decide (a ≠ b) && decide ((a - b).toNat < 2147483648)

/-- What this module does about one own receipt once it has seen the partner's list (R274): a frame that the partner lacks, or has older,
is sent to it; on a conflict the ACTIVE keeps its own copy and counts it. -/
def State.answerReceipt (s : State) (theirs : List ReceiptEntry) (r : Receipt) : State :=
  let copy := s.send .stationCopy (entryFields r.entry)
  match theirs.find? fun e => decide (e.station = r.entry.station) && decide (e.stream = r.entry.stream) with
  | none => copy
  | some e =>
    if e.sequence = r.entry.sequence ∧ e.crc ≠ r.entry.crc then
      (if s.role = .active then (copy.incReg PAIR.RX_CONFLICT).raise 0x0212 r.entry.station else s)
    else if newer r.entry.sequence e.sequence then copy
    else s

/-- The own receipts answered one by one. -/
def State.answerReceipts (s : State) (theirs : List ReceiptEntry) : List Receipt → State
  | [] => s
  | r :: rest => (s.answerReceipt theirs r).answerReceipts theirs rest

/-- RECEIPT_LIST_RECEIVED (R274). -/
def execReceiptListReceived (theirs : List ReceiptEntry) (s : State) : Host.Outcome State Fault Refusal :=
  if exchanges s then .next (s.answerReceipts theirs s.net.closed) else .next s

/-- A partner's copy taken into the closed list (R274): where this module lacks the frame, where the copy is newer, and, in the STANDBY,
where the two differ. -/
def takesCopy (s : State) (r : Receipt) : Bool :=
  match s.net.closed.find? fun x => decide (x.entry.station = r.entry.station) && decide (x.entry.stream = r.entry.stream) with
  | none => true
  | some x =>
    newer r.entry.sequence x.entry.sequence ||
      (decide (r.entry.sequence = x.entry.sequence) && decide (r.entry.crc ≠ x.entry.crc) && decide (s.role = .standby))

/-- STATION_FRAME_COPY_RECEIVED (R274): before the settled set is formed. -/
def execStationFrameCopyReceived (r : Receipt) (s : State) : Host.Outcome State Fault Refusal :=
  if s.net.closedFor.isSome ∧ s.net.settledFor ≠ s.net.closedFor ∧ takesCopy s r then
    .next ((s.updNet fun n =>
      { n with closed := n.closed.filter (fun x => ¬ (x.entry.station = r.entry.station ∧ x.entry.stream = r.entry.stream)) ++ [r] }).incReg
      PAIR.RX_COPIED)
  else .next s

/-- SETTLED_SET_FORMED (R274): at T − 10 µs. -/
def execSettledSetFormed (s : State) : Host.Outcome State Fault Refusal :=
  match s.net.closedFor with
  | none => .next s
  | some t =>
    .next ((s.advanceTo (t - 10 * usUnits)).updNet fun n => { n with settled := n.closed, settledFor := some t })

/-! ### QSP frames -/

/-- A received frame discarded and counted on its port (R299). -/
def State.discardFrame (s : State) (p : Nat) : State := s.incReg (NET.RX_DISCARD p)

/-- A QSP frame that R299 discards on any port: bad CRC, or an unknown VERSION or TYPE. -/
def qspBad (f : QspFrame) : Bool :=
  !qspIntact f || decide (f.version ≠ 1) || !(([0x01, 0x02, 0x03, 0x10, 0x20] : List Nat).contains f.type.toNat)

/-- The sequence space of a station's INPUT frames (R27): frames received under another STEP are given up. -/
def State.sequenceSpace (s : State) (f : QspFrame) : State :=
  let x := s.station f.station
  if x.step = f.step then s
  else (s.setStation f.station { x with step := f.step }).updNet fun n => { n with receipts := n.receipts.filter fun r => r.entry.station ≠ f.station }

/-- QSP_INPUT_FRAME (R299, R303), on port P1 or P2 (p 0 or 1). -/
def execQspInputFrame (p : Fin 2) (f : QspFrame) (s : State) : Host.Outcome State Fault Refusal :=
  if !s.regBit NET.CFG 31 then .next s
  else if qspBad f ∨ f.type ≠ 0x10 ∨ f.pairId ≠ s.pair.baseId then .next (s.discardFrame p.val)
  else if f.sequence ≠ c2Index (openCycle s) then
    .next (((s.incReg NET.QSP_LATE).putRegBit NET.ALARM 3 true).raise 0x6006 f.station)
  else if (s.station f.station).bound then
    .next ((s.sequenceSpace f).updNet fun n =>
      { n with receipts := enterReceipt { entry := { station := f.station, stream := f.stream, flags := f.flags, sequence := f.sequence,
                                                     crc := f.crc },
                                          data := .payload f.payload } n.receipts })
  else .next s

/-- The settled receipts of station `n` in ascending stream. -/
def stationStreams (s : State) (n : Nat) : List Receipt :=
  (List.range 16).filterMap fun k => s.net.settled.find? fun r => decide (r.entry.station = n) && decide (r.entry.stream = k)

/-- The input payload of station `n` when its set is complete (R301, R310): streams 0 to the last one, which carries FLAGS [5]. -/
def completePayload (s : State) (n : Nat) : Option (List Byte) :=
  let l := stationStreams s n
  match l.getLast? with
  | none => none
  | some last =>
    if last.entry.stream + 1 = l.length ∧ last.entry.flags.getLsbD 5 then
      some (l.flatMap fun r => match r.data with
        | .payload b => b
        | .points _ => [])
    else none

/-- One station at a C2 cycle start: its points, ABSENT and present again (R310, R311). -/
def State.stationTick (s : State) (i : Image) (n : Nat) : State :=
  let x := s.station n
  let pts := stationBindings i n
  match (if x.bound then completePayload s n else none) with
  | some bytes =>
    let s1 := s.feedStation i n bytes
    if x.absent then (s1.changeStation n { x with absent := false, misses := 0 }).raise 0x6005 n
    else if x.misses = 0 then s1 else s1.setStation n { x with misses := 0 }
  | none =>
    let s1 := s.feedBad pts
    if x.bound then
      let m := x.misses + 1
      if s.regFld NET.CFG 3 0 ≤ m ∧ !x.absent then
        ((s1.changeStation n { x with absent := true, misses := m }).putRegBit NET.ALARM 2 true).raise 0x6004 n
      else s1.setStation n { x with misses := m }
    else s1

/-- Remote stations named by the image or bound. -/
def stationNumbers (s : State) (i : Image) : List Nat :=
  ((i.bindings.map fun b => pointStation b.point) ++ s.net.stations.map (·.1)).eraseDups.filter (· ≠ 0)

/-- Settled values of station 0 fed to their points (R314, R391). -/
def State.feedValues (s : State) : List (Word × Option Word) → State
  | [] => s
  | (p, v) :: rest => (s.feed p (v.map fun w => (w, s.tb.now))).feedValues rest

/-- Settled streams of station 0 fed. -/
def State.feedLocal (s : State) : List Receipt → State
  | [] => s
  | r :: rest => (match r.data with
      | .points v => if r.entry.station = 0 then s.feedValues v else s
      | .payload _ => s).feedLocal rest

/-- Whether hem holds for the outputs of a frame (R304). -/
def qspFlags (s : State) (last : Bool) : Nat :=
  b2n (decide (s.lock.split ≠ 0)) + b2n (s.regBit LOCK.STATUS 15) * 2 + b2n s.pair.posB * 4 + b2n (decide (s.role = .standby)) * 8
    + b2n (hemNow s) * 16 + b2n last * 32

/-- A BIND frame (R308): station, identity, time index of the bind cycle, IN_LEAD and OUT_TIMEOUT. -/
def State.sendBind (s : State) (n t : Nat) : State :=
  let fields := [(s.win .station n 1).toNat, (s.win .station n 2).toNat, (c2Index t).toNat, fld s.net.timing 31 16, s.winFld .station n 3 15 0]
  s.emit .qspBind (n :: fields)
    (qspHeader s (s.station n).mac ++ qspBytes s 0x02 n 0 (qspFlags s false &&& 0x0F) (c2Index s.frame.t0) 0 (stationLayout s.image n) (wireBytes (([4, 4, 4, 2, 2] : List Nat).zip fields)))
    (busPorts s 0)

/-- BIND frames to every bound station (R306). -/
def State.sendBinds (s : State) (t : Nat) : List Nat → State
  | [] => s
  | n :: rest => (if (s.station n).bound ∧ s.leadsBus then s.sendBind n t else s).sendBinds t rest

/-- QSP_TIMING_EFFECT (R306): at a C2 cycle start a changed timing takes effect. -/
def State.timingTick (s : State) : State :=
  if s.net.timing = s.reg NET.QSP_TIMING then s
  else
    let s1 := s.updNet fun n => { n with timing := s.reg NET.QSP_TIMING }
    s1.sendBinds s.frame.t0 (s1.net.stations.map (·.1))

/-- What the network inputs do at a frame tick that starts a C2 cycle (R274, R306, R310, R311). The settled set is used when it is the one
for this cycle. -/
def State.networkTick (s : State) : State :=
  if s.cycleStarts 2 then
    let fresh := decide (s.net.settledFor = some s.frame.t0)
    let s1 := if fresh then s else s.updNet fun n => { n with settled := [] }
    let s2 := (s1.feedLocal s1.net.settled).timingTick
    match s2.image with
    | some i => (stationNumbers s2 i).foldl (fun t n => t.stationTick i n) s2
    | none => s2
  else s

/-- The OUTPUT frames of one station (R301, R304): cut into streams of 1,472 bytes. -/
def State.sendStreams (s : State) (n k : Nat) (bytes : List Byte) : Nat → State
  | 0 => s
  | fuel + 1 =>
    let rest := bytes.drop 1472
    let apply := fld s.net.timing 15 0
    let s1 := s.emit .qspOutput ([n, k, qspFlags s rest.isEmpty, fld (s.reg TB.STEP_COUNT) 7 0,
      (c2Index s.frame.t0).toNat, apply, (bytes.take 1472).length, (stationLayout s.image n).toNat, s.tb.quality.code]
      ++ (bytes.take 1472).map (·.toNat))
      (qspHeader s (s.station n).mac ++ qspBytes s 0x20 n k (qspFlags s rest.isEmpty) (c2Index s.frame.t0) apply (stationLayout s.image n) (bytes.take 1472)) (busPorts s 0)
    if rest.isEmpty then s1 else s1.sendStreams n (k + 1) rest fuel

/-- The OUTPUT frames of every bound station (R304). -/
def State.sendOutputs (s : State) (i : Image) : List Nat → State
  | [] => s
  | n :: rest => (if (s.station n).bound then s.sendStreams n 0 (outputPayload s i n) 16 else s).sendOutputs i rest

/-- QSP_OUTPUT_SEND (R304): the frames of the C2 cycle whose last frame it is, when the module sends any (R89). -/
def State.qspSend (s : State) : State :=
  if s.runsQsp ∧ (s.frameNo + 1) % classFrames 2 = 0 then
    match s.image with
    | some i => s.sendOutputs i (s.net.stations.map (·.1))
    | none => s
  else s

/-- STANDBY_QSP_SEND (R277): at 9.700 µs, unless it is muted or the ACTIVE's digest of the frame disagrees. -/
def execStandbyQspSend (s : State) : Host.Outcome State Fault Refusal :=
  let s1 := s.phase 9700
  if s1.role = .standby ∧ !s1.pair.muted ∧ !s1.pair.differNow then .next s1.qspSend else .next s1

/-! ### Roll-calls and binding (R308, R309) -/

/-- Identity, type code and version of a ROLL_CALL payload. -/
def rollIdentity (f : QspFrame) : Dword := BitVec.ofNat 64 (beNat (f.payload.take 8))
/-- The type code. -/
def rollType (f : QspFrame) : Nat := beNat ((f.payload.drop 8).take 2)

/-- The reason of Table NW-4 that refuses a roll-call, if any. -/
def rollRefusal (s : State) (f : QspFrame) : Option Nat :=
  let n := f.station
  if f.version ≠ 1 then some 0x05
  else if f.pairId ≠ s.pair.baseId then some 0x06
  else if n = 0 ∨ 1023 < n ∨ !stationOn s n then some 0x01
  else if rollIdentity f ≠ BitVec.ofNat 64 ((s.win .station n 1).toNat * 4294967296 + (s.win .station n 2).toNat) then some 0x02
  else if rollType f ≠ s.winFld .station n 0 15 0 then some 0x03
  else if f.layout ≠ stationLayout s.image n then some 0x04
  else none

/-- A REFUSE frame, at most once per 10 s for each identity (R308). -/
def State.sendRefuse (s : State) (f : QspFrame) (reason : Nat) : State :=
  let id := rollIdentity f
  let recent := match s.net.refusals.find? (fun e => e.1 = id) with
    | some (_, t) => decide (s.tb.up < t + 10 * secUnits)
    | none => false
  if recent then s
  else (s.updNet fun n => { n with refusals := (id, s.tb.up) :: n.refusals.filter (fun e => e.1 ≠ id) }).emit .bindReply
    [id.toNat, reason]
    (qspHeader s f.mac ++ qspBytes s 0x03 f.station 0 (qspFlags s false &&& 0x0F) (c2Index s.frame.t0) 0 (stationLayout s.image f.station) (beBytes 8 id.toNat ++ beBytes 1 reason))
    (busPorts s 0)

/-- A roll-call refused (R308). -/
def State.refuseRoll (s : State) (f : QspFrame) (reason : Nat) : State :=
  let s1 := ((s.incReg NET.ST_REFUSED).setReg NET.ST_LAST_REFUSE (BitVec.ofNat 32 (reason * 16777216 + f.station % 1024))).putRegBit
    NET.ALARM 1 true
  let s2 := (s1.raise 0x6003 f.station).sendRefuse f reason
  if 2 ≤ reason ∧ reason ≤ 4 ∧ !(s.station f.station).bound then s2.changeStation f.station { s2.station f.station with refused := true } else s2

/-- A bind cycle fixed: the first C2 cycle start at least 2 ms later (R308). -/
def State.fixBind (s : State) (f : QspFrame) : State :=
  let x := s.station f.station
  let t := c2At (s.tb.now + 2 * msUnits)
  (s.setStation f.station { x with bindAt := some t, rebind := x.bound, newMac := f.mac }).pass [0x60, f.station, t, f.mac.toNat]

/-- ROLL_CALL (R308, R309): only the ACTIVE or SOLO module answers. -/
def execRollCall (p : Fin 2) (f : QspFrame) (s : State) : Host.Outcome State Fault Refusal :=
  if !qspIntact f ∨ f.type ≠ 1 then .next (s.discardFrame p.val)
  else if !s.leadsBus ∨ !s.regBit NET.CFG 31 then .next s
  else if (s.station f.station).bindAt.isSome then .next s
  else
    match rollRefusal s f with
    | some r => .next (s.refuseRoll f r)
    | none => .next (s.fixBind f)

/-- BIND_CYCLE (R308): the station is bound at its tick, and the leader sends the BIND frame. -/
def execBindCycle (n : BitVec 10) (s : State) : Host.Outcome State Fault Refusal :=
  let x := s.station n.toNat
  match x.bindAt with
  | none => .next s
  | some t =>
    let s1 := s.advanceTo t
    let s2 := (s1.changeStation n.toNat
      { x with bound := true, absent := false, refused := false, bindAt := none, rebind := false, mac := x.newMac, misses := 0 }).putRegBit
      NET.ALARM 0 true
    let s3 := s2.raise (if x.rebind then 0x6002 else 0x6001) n.toNat
    .next (if s3.leadsBus then s3.sendBind n.toNat t else s3)

/-- A station window accepted (R307): in effect at the first C2 cycle start at least 2 ms later. -/
def State.commitStation (s : State) (n : Nat) (words : List Word) (tick : Nat) : State :=
  s.updNet fun t => { t with stationDue := t.stationDue.filter (fun d => d.station ≠ n) ++ [{ tick := tick, station := n, words := words }] }

/-- Words of a station's window stored. -/
def State.setStationWords (s : State) (n : Nat) (words : List Word) : State :=
  (List.range 4).foldl (fun t w => t.setWin .station n w (words.getD w 0)) s

/-- STATION_COMMIT_EFFECT (R307, R309): a change of identity or type unbinds the station. -/
def execStationCommitEffect (s : State) : Host.Outcome State Fault Refusal :=
  match s.net.stationDue with
  | [] => .next s
  | d :: rest =>
    let s1 := (s.advanceTo d.tick).updNet fun t => { t with stationDue := rest }
    let same := decide (d.words.getD 0 0 &&& 0x8000FFFF#32 = s1.win .station d.station 0 &&& 0x8000FFFF#32) &&
      decide (d.words.getD 1 0 = s1.win .station d.station 1) && decide (d.words.getD 2 0 = s1.win .station d.station 2)
    let s2 := s1.setStationWords d.station d.words
    .next (if same then s2 else (s2.unbind d.station).changeStation d.station { (s2.unbind d.station).station d.station with refused := false })

end Sys2Proof.Machine
end

