-- ==== Sys2Proof/Machine/NetServices.lean ====
section
/-!
DEFINITION. GOOSE (R312 to R314), the pair address (R296), ARP and ICMP (R295), parallel redundancy (R297, R298), ports and transceivers
(R294).
-/

namespace Sys2Proof.Machine

open Reg

/-! ### GOOSE -/

/-- Publisher `m` replaced. -/
def State.setPublisher (s : State) (m : Nat) (x : Publisher) : State :=
  s.updNet fun t => { t with publishers := sparseSet {} t.publishers m x }

/-- Subscription `k` replaced. -/
def State.setSubscription (s : State) (k : Nat) (x : Subscription) : State :=
  s.updNet fun t => { t with subscriptions := sparseSet {} t.subscriptions k x }

/-- T1 and T0 in ms (Table NW-6). -/
def gooseT1 (s : State) : Nat := s.regFld NET.GOOSE_CFG 15 0
/-- T0 in ms. -/
def gooseT0 (s : State) : Nat := s.regFld NET.GOOSE_CFG 31 16

/-- The output point of station 0 that a local point names (R312): the first binding with an output type. -/
def outputAt (s : State) (l : Nat) : Word :=
  ((s.outputs.find? fun b => decide (pointStation b.point = 0) && decide (pointLocal b.point = l)).map fun b => (s.point b.point).value).getD 0

/-- The members of publisher `m` (R312). -/
def gooseMembers (s : State) (m : Nat) : List Word :=
  (List.range (s.winFld .goose m 0 21 16)).map fun i => outputAt s (0xE00 + 32 * m + i)

/-- The type of a GOOSE member (R312): 1 BOOLEAN, 2 FLOAT32, 3 INT32U, 4 INT32, by the type of the bound point. -/
def memberType (p : Nat) : Nat :=
  match p with
  | 1 => 1
  | 2 => 1
  | 8 => 1
  | 3 => 2
  | 4 => 2
  | 5 => 3
  | _ => 4

/-- The types of the members of publisher `m`; an unbound one has none (0). -/
def gooseTypes (s : State) (m : Nat) : List Nat :=
  (List.range (s.winFld .goose m 0 21 16)).map fun i =>
    ((s.outputs.find? fun b => decide (pointStation b.point = 0) && decide (pointLocal b.point = 0xE00 + 32 * m + i)).map fun b =>
      memberType (pointType b.point)).getD 0

/-- The destination of a GOOSE control block (Table NW-8). -/
def gooseMac (s : State) (u : Nat) : Nat := (s.win .goose u 1).toNat * 65536 + s.winFld .goose u 2 31 16

/-- A GOOSE message of publisher `m`, sent by the ACTIVE or SOLO module only (Table PR-9) on its network, from the pair's address (R296). Its
timeAllowedToLive is twice the interval to the next message (R313). The fields: control block, stNum, sqNum, t, timeAllowedToLive, test, destination,
source, APPID, confRev, and each member's type and value. -/
def State.sendGoose (s : State) (m : Nat) : State :=
  let x := s.publisher m
  if s.leadsBus then
    s.emit .goose ([m, x.stNum.toNat, x.sqNum.toNat, secOf x.since, nsOf x.since, 2 * x.interval, b2n (s.winBit .goose m 0 29), gooseMac s m,
      (viewNet s NET.PAIR_MAC_HI).toNat % 65536 * 4294967296 + (viewNet s NET.PAIR_MAC_LO).toNat, s.winFld .goose m 0 15 0, (s.win .goose m 3).toNat]
      ++ ((gooseTypes s m).zip x.last).flatMap fun e => [e.1, e.2.toNat]) [] (busPorts s (b2n (s.winBit .goose m 0 27)))
  else s

/-- GOOSE_PUBLISH (R313) for one publisher at an output commit. -/
def State.publish (s : State) (m : Nat) : State :=
  let x := s.publisher m
  if s.winBit .goose m 0 31 ∧ (x.stNum = 0 ∨ gooseMembers s m ≠ x.last) then
    (s.setPublisher m
      { stNum := x.stNum + 1, sqNum := 0, last := gooseMembers s m, since := s.tb.now, interval := gooseT1 s, sentAt := s.tb.up }).sendGoose m
  else s

/-- Every publisher at an output commit, in the roles that compute GOOSE (Table PR-9). -/
def State.publishAll (s : State) : State :=
  if s.leadsBus ∨ s.role = .standby then (List.range 16).foldl (fun t m => t.publish m) s else s

/-- GOOSE_REPEAT (R313): sqNum counts, and the interval doubles up to T0. -/
def execGooseRepeat (m : Fin 16) (s : State) : Host.Outcome State Fault Refusal :=
  let x := s.publisher m.val
  if s.winBit .goose m.val 0 31 ∧ x.stNum ≠ 0 ∧ (s.leadsBus ∨ s.role = .standby) then
    let s1 := s.advanceUp (x.sentAt + x.interval * msUnits)
    .next ((s1.setPublisher m.val
      { x with sqNum := x.sqNum + 1, interval := satTo (gooseT0 s) (2 * x.interval), sentAt := s1.tb.up }).sendGoose m.val)
  else .next s

/-- The 32 bytes of a string of a GOOSE window, from word `w`. -/
def windowString (s : State) (u w : Nat) : List Byte := (List.range 8).flatMap fun i => wordBytes (s.win .goose u (w + i))

/-- A received string padded with zeros to 32 bytes. -/
def padded (b : List Byte) : List Byte := b ++ List.replicate (32 - b.length) 0

/-- A message matches subscription `k` (R314). -/
def gooseMatches (s : State) (k : Nat) (m : GooseMessage) : Bool :=
  let u := 16 + k
  decide (m.mac.toNat = gooseMac s u) && decide (m.process = s.winBit .goose u 0 27) && decide (padded m.goId = windowString s u 4) &&
    decide (padded m.gocbRef = windowString s u 12) && decide (padded m.datSet = windowString s u 20) &&
    decide (m.confRev = s.win .goose u 3) && decide (m.entries = s.winFld .goose u 0 21 16)

/-- The input point that member `i` of subscription `k` feeds (R312). -/
def gooseInput (s : State) (k i : Nat) : Option Word :=
  s.image.bind fun im => (im.bindings.find? fun b =>
    decide (pointStation b.point = 0) && decide (pointLocal b.point = 0xC00 + 8 * k + i) && !isOutputType (pointType b.point)).map (·.point)

/-- Values for the members of subscription `k`, by member. -/
def memberValues (s : State) (k : Nat) (v : List (Option Word)) : List (Word × Option Word) :=
  (List.range v.length).filterMap fun i => (gooseInput s k i).map fun p => (p, v.getD i none)

/-- All members of a subscription bad (R314). -/
def State.gooseLost (s : State) (k : Nat) (x : Subscription) : State :=
  (((s.setSubscription k { x with state := 3 }).enterPoints k x.stNum
    (memberValues s k (List.replicate (s.winFld .goose (16 + k) 0 21 16) none))).putRegBit NET.ALARM 5 true).raise 0x6008 (16 + k)

/-- An accepted message (R314): its values enter the receipt list; a message after a loss raises 0x6009. -/
def State.gooseAccept (s : State) (k : Nat) (m : GooseMessage) : State :=
  let x := s.subscription k
  let y : Subscription := { state := 2, stNum := m.stNum, sqNum := m.sqNum, expires := s.tb.up + m.live * msUnits }
  if m.ndsCom then (if x.state = 3 then s else s.gooseLost k x)
  else
    let v := m.members.map fun e => if e.2 ∨ !s.winBit .goose (16 + k) 0 26 then some e.1 else none
    let s1 := (s.setSubscription k y).enterPoints k m.stNum (memberValues s k v)
    if x.state = 3 then s1.raise 0x6009 (16 + k) else s1

/-- The enabled subscriptions with the APPID of a message, but for those that ignore it for its simulation bit or test flag (R314). -/
def gooseHearers (s : State) (m : GooseMessage) : List Nat :=
  (List.range 64).filter fun k =>
    s.winBit .goose (16 + k) 0 31 && decide (s.winFld .goose (16 + k) 0 15 0 = m.appid.toNat) && (!m.simulation || s.winBit .goose (16 + k) 0 28) &&
      (!m.test || s.winBit .goose (16 + k) 0 29)

/-- GOOSE_RECEIVED (R314): accepted by every subscription that it matches; where it matches none of those with its APPID, each shows the mismatch. -/
def execGooseReceived (m : GooseMessage) (s : State) : Host.Outcome State Fault Refusal :=
  match (gooseHearers s m).filter fun k => gooseMatches s k m with
  | [] => .next ((gooseHearers s m).foldl (fun t k => (t.setSubscription k { t.subscription k with state := 4 }).raise 0x600A (16 + k)) s)
  | l => .next (l.foldl (fun t k => t.gooseAccept k m) s)

/-- GOOSE_TAL_EXPIRY (R314). -/
def execGooseTalExpiry (k : Fin 64) (s : State) : Host.Outcome State Fault Refusal :=
  let x := s.subscription k.val
  if x.state = 2 ∨ (x.state = 4 ∧ x.expires ≠ 0) then .next ((s.advanceUp x.expires).gooseLost k.val x) else .next s

/-- Accepted GOOSE control blocks applied at a frame tick (Table NW-6, GO_COMMIT). -/
def State.applyGoose (s : State) : List (Nat × List Word) → State
  | [] => s
  | (u, words) :: rest =>
    let s1 := (List.range 28).foldl (fun t w => t.setWin .goose u w (words.getD w 0)) s
    let s2 :=
      if u < 16 then s1
      else s1.setSubscription (u - 16) { state := b2n (s1.winBit .goose u 0 31) }
    s2.applyGoose rest

/-- What GOOSE does at a frame tick. -/
def State.gooseTick (s : State) : State := (s.applyGoose s.net.gooseDue).updNet fun n => { n with gooseDue := [] }

/-! ### The pair address (R295, R296) -/

/-- The start of leading noted at a frame tick: the pair address is taken (R296). -/
def State.leadTick (s : State) : State :=
  if s.leadsBus then
    if s.net.leading.isSome then s
    else
      let s1 := s.updNet fun n => { n with leading := some s.tb.up, arps := 0 }
      if s.reg NET.PAIR_IP = 0 then s1 else (s1.putRegBit NET.ALARM 6 true).raiseBlock 0x600B
  else s.updNet fun n => { n with leading := none, arps := 0 }

/-- GRATUITOUS_ARP (R296): in the first frame, 100 ms later and 1 s later. -/
def execGratuitousArp (s : State) : Host.Outcome State Fault Refusal :=
  match s.net.leading with
  | none => .next s
  | some t =>
    if s.reg NET.PAIR_IP = 0 ∨ !s.regBit NET.CFG 8 ∨ 3 ≤ s.net.arps then .next s
    else
      let due := t + (match s.net.arps with
        | 0 => 0
        | 1 => 100 * msUnits
        | _ => secUnits)
      .next (((s.advanceUp due).updNet fun n => { n with arps := n.arps + 1 }).emit .gratuitousArp [(s.reg NET.PAIR_IP).toNat, portMac s 2] []
        (busPorts s 1))

/-- An address this module answers for on port `p` (0 to 4): its own, and on the station bus the pair address while it leads (R296). -/
def answersFor (s : State) (p : Nat) (ip : Word) : Bool :=
  decide (ip ≠ 0) && (decide (ip = viewNet s (NET.PORT_IP p)) ||
    ((decide (p = 2) || decide (p = 3)) && s.leadsBus && decide (ip = s.reg NET.PAIR_IP)))

/-- The ports that an answer on port `p` leaves by. -/
def answerPorts (s : State) (p : Nat) : List Nat := if p = 4 then [4] else busPorts s (p / 2)

/-- ARP_REQUEST (R295, R296): answered with the port's MAC address. -/
def execArpRequest (p : Fin 5) (ip : Word) (s : State) : Host.Outcome State Fault Refusal :=
  let s1 := s.serviceFrame p.val
  .next (if answersFor s p.val ip then s1.emit .arpReply [p.val, ip.toNat, portMac s p.val] [] (answerPorts s p.val) else s1)

/-- ICMP_ECHO (R295). -/
def execIcmpEcho (p : Fin 5) (ip : Word) (s : State) : Host.Outcome State Fault Refusal :=
  let s1 := s.serviceFrame p.val
  .next (if answersFor s p.val ip then s1.emit .icmpReply [p.val, ip.toNat] [] (answerPorts s p.val) else s1)

/-! ### Parallel redundancy (R297, R298) -/

/-- Redundancy network `n` replaced. -/
def State.setPrp (s : State) (n : Nat) (x : Redundancy) : State :=
  s.updNet fun t => if n = 0 then { t with net0 := x } else { t with net1 := x }

/-- Duplicate window and node table sizes (Table NW-2). -/
def duplicateLimit : Nat := 4096
/-- Node table size. -/
def nodeLimit : Nat := 1024

/-- Entries of the duplicate window that have ended leave it; those seen on one LAN only count there (Table NW-9). -/
def State.expireWindow (s : State) (n : Nat) : State :=
  let x := s.prp n
  let ended (d : Duplicate) : Bool := decide (d.first + s.regFld PRP.DD_CFG 31 0 * msUnits ≤ s.tb.up)
  let gone := x.window.filter ended
  ((s.setPrp n { x with window := x.window.filter fun d => !ended d }).addReg (PRP.UNIQUE_A n) (gone.countP fun d => decide (d.onB = 0))).addReg
    (PRP.UNIQUE_B n) (gone.countP fun d => decide (d.onA = 0))

/-- A LAN from which a frame arrives is up (Table NW-2). -/
def State.lanSeen (s : State) (n : Nat) (onB : Bool) : State :=
  let x := s.prp n
  let was := if onB then x.upB else x.upA
  let y := if onB then { x with upB := true, seenB := s.tb.up } else { x with upA := true, seenA := s.tb.up }
  if was then s.setPrp n y
  else
    (((s.setPrp n { y with changedAt := s.tb.up }).putRegBit PRP.ALARM 1 true).setReg PRP.LAST_CHANGE (secWord s.tb.now)).raise 0x6102 n

/-- The number that NODE_INFO shows for a sender. -/
def nodeCode (f : PrpFrame) : Nat :=
  match f.kind with
  | .danp => 1
  | .danh => 2
  | .single => if f.onB then 4 else 3

/-- The sender entered into the node table, or counted when the table is full (Table NW-2). Answers whether it is in the table. -/
def State.enterNode (s : State) (n : Nat) (f : PrpFrame) : State × Bool :=
  let x := s.prp n
  if x.nodes.any fun d => d.mac = f.source then
    (s.setPrp n { x with nodes := x.nodes.map fun d => if d.mac = f.source then { d with seen := s.tb.up, kind := nodeCode f } else d }, true)
  else if x.nodes.length < nodeLimit then
    let s1 := s.setPrp n { x with nodes := x.nodes ++ [{ mac := f.source, kind := nodeCode f, seen := s.tb.up }] }
    (if f.kind = .single then s1.incReg (if f.onB then PRP.SAN_B n else PRP.SAN_A n) else s1, true)
  else (((s.incReg (PRP.NODE_OVF n)).putRegBit PRP.ALARM 3 true).raise 0x6104 n, false)

/-- Duplicate discard for a frame of a sender in the node table (Table NW-2): a frame seen before in the window is discarded. -/
def State.checkDuplicate (s : State) (n : Nat) (f : PrpFrame) : State :=
  let x := s.prp n
  let same (d : Duplicate) : Bool := decide (d.mac = f.source) && decide (d.sequence = f.sequence)
  match x.window.find? same with
  | some d =>
    let e := { d with onA := d.onA + b2n (!f.onB), onB := d.onB + b2n f.onB }
    let s1 := (s.setPrp n { x with window := x.window.map fun y => if same y then e else y }).incReg (PRP.DUPLICATE n)
    if d.onA + d.onB = 2 then s1.incReg (PRP.MULTI n) else s1
  | none =>
    let e : Duplicate := { mac := f.source, sequence := f.sequence, first := s.tb.up, onA := b2n (!f.onB), onB := b2n f.onB }
    if x.window.length < duplicateLimit then s.setPrp n { x with window := x.window ++ [e] }
    else (s.setPrp n { x with window := x.window.drop 1 ++ [e] }).incReg (PRP.DD_OVERFLOW n)

/-- A frame of the ring sent on by the other port (R298). As a peer-to-peer transparent clock the module adds a PTP event message's residence and the link
delay of its ingress port, 2^-8 ns, to its correctionField (Table TB-5). -/
def State.forward (s : State) (n : Nat) (f : PrpFrame) : State :=
  let inPort := 2 * n + b2n f.onB
  s.emit .forwarded
    ([f.source.toNat, f.sequence.toNat] ++ match f.correction with
      | some (c, r) => [c + r + (s.reg (PTP.MEAN_LINK_DELAY inPort)).toNat * 256]
      | none => []) [] [2 * n + b2n (!f.onB)]

/-- A good frame of a network in redundancy: counted, LAN check, ring forwarding, node table and duplicate discard. -/
def State.prpAccept (s : State) (n : Nat) (f : PrpFrame) : State :=
  let s1 := (s.lanSeen n f.onB).incReg (if f.onB then PRP.RX_B n else PRP.RX_A n)
  let wrong := match f.lan with
    | some l => decide (l ≠ f.onB)
    | none => false
  let s2 := if wrong then
      ((s1.incReg (if f.onB then PRP.ERR_WRONG_LAN_B n else PRP.ERR_WRONG_LAN_A n)).putRegBit PRP.ALARM 2 true).raise 0x6103 n
    else s1
  if (s2.prp n).mode = 2 ∧ f.own then
    let x := s2.prp n
    (s2.setPrp n { x with backA := x.backA || !f.onB, backB := x.backB || f.onB }).incReg (PRP.HSR_OWN n)
  else
    let s3 := if (s2.prp n).mode = 2 ∧ !f.toUs then (s2.incReg (PRP.HSR_FWD n)).forward n f else s2
    let s4 := if f.supervision then s3.incReg (PRP.SUP_RX n) else s3
    let e := s4.enterNode n f
    if e.2 ∧ f.kind ≠ .single then e.1.checkDuplicate n f else e.1

/-- The longest frame accepted: 1,522 bytes, and 6 more with a PRP trailer or an HSR tag (R294). -/
def longest (f : PrpFrame) : Nat := if f.lan.isSome ∨ f.kind = .danh then 1528 else 1522

/-- PRP_FRAME_RECEIVED (R294, R297, R298), counted on its port. In mode alone the lower port only counts (R318). -/
def execPrpFrameReceived (n : Fin 2) (f : PrpFrame) (s : State) : Host.Outcome State Fault Refusal :=
  let port := 2 * n.val + b2n f.onB
  let s1 := (s.expireWindow n.val).incReg (NET.RX_FRAMES port)
  if (s1.prp n.val).mode = 0 ∧ f.onB then .next s1
  else if longest f < f.length then .next (s1.incReg (NET.RX_ERRORS port))
  else if !f.checkOk ∨ !f.tagOk then
    let s2 := (s1.incReg (if f.onB then PRP.ERR_B n.val else PRP.ERR_A n.val)).incReg (NET.RX_ERRORS port)
    .next (if !f.tagOk then s2.incReg PRP.TAG_ERRORS else s2)
  else if (s1.prp n.val).mode = 0 then .next ((s1.lanSeen n.val false).incReg (PRP.RX_A n.val))
  else .next (s1.prpAccept n.val f)

/-- PRP_SUPERVISION_SEND (R297), every interval on a network in redundancy. -/
def execPrpSupervisionSend (n : Fin 2) (s : State) : Host.Outcome State Fault Refusal :=
  let s1 := s.expireWindow n.val
  if (s1.prp n.val).mode = 0 then .next s1
  else
    let s2 := s1.advanceUp ((s1.prp n.val).supervisedAt + s1.regFld PRP.SUP_CFG 31 16 * secUnits)
    .next (((s2.setPrp n.val { s2.prp n.val with supervisedAt := s2.tb.up }).incReg (PRP.SUP_TX n.val)).emit .prpSupervision
      [n.val, 0x01154E000100 + s1.regFld PRP.SUP_CFG 7 0] [] (busPorts s1 n.val))

/-- PRP_LAN_TIMEOUT (R297): LAN B or A of a network is down. A LAN of a network in mode alone is its lower port only. -/
def execPrpLanTimeout (n : Fin 2) (lanB : Bool) (s : State) : Host.Outcome State Fault Refusal :=
  let x := s.prp n.val
  if (if lanB then x.upB else x.upA) then
    let seen := if lanB then x.seenB else x.seenA
    let s1 := s.advanceUp (seen + (s.reg PRP.LAN_TIMEOUT).toNat * msUnits)
    let y := if lanB then { x with upB := false, changedAt := s1.tb.up, backA := false, backB := false, brokenAt := s1.tb.up }
      else { x with upA := false, changedAt := s1.tb.up, backA := false, backB := false, brokenAt := s1.tb.up }
    .next (((((s1.setPrp n.val y).incReg (if lanB then PRP.DOWN_B n.val else PRP.DOWN_A n.val)).putRegBit PRP.ALARM 0 true).setReg
      PRP.LAST_CHANGE (secWord s1.tb.now)).raise 0x6101 n.val)
  else .next s

/-! ### Ports (R294, R316) -/

/-- A link shown up or down; a change raises 0x6007. Ports are numbered from 1 in events (R445). -/
def State.setLink (s : State) (p : Nat) (up : Bool) (speed : Nat) : State :=
  let was := s.regBit (NET.PORT_STATUS p) 31
  let s1 := (s.putRegBit (NET.PORT_STATUS p) 31 up).putReg (NET.PORT_STATUS p) 27 24 (if up then speed else 0)
  if was = up then s1 else (s1.putRegBit NET.ALARM 4 true).raise 0x6007 (p + 1)

/-- A medium that Table NW-1 gives port `p`, by the code of ID.SFP [27:24]: 10GBASE-SR or LR for P1 and P2; 1000BASE-SX, LX or T for P3 and P4. -/
def mediumFits (p : Nat) (info : Word) : Bool :=
  if p < 2 then decide (1 ≤ fld info 27 24 ∧ fld info 27 24 ≤ 2) else decide (3 ≤ fld info 27 24 ∧ fld info 27 24 ≤ 5)

/-- TRANSCEIVER_INSERTED (R294, R489): a type that Table NW-1 does not give leaves the port down. -/
def execTransceiverInserted (p : Fin 4) (info : Word) (s : State) : Host.Outcome State Fault Refusal :=
  let fits := mediumFits p.val info
  let s1 := (s.setReg (ID.SFP p.val) ((info &&& 0x0F00FFFF#32) ||| BitVec.ofNat 32 (2147483648 + b2n fits * 1073741824))).setReg
    (NET.PORT_STATUS p.val) ((s.reg (NET.PORT_STATUS p.val) &&& 0x8F000000#32) ||| BitVec.ofNat 32 (1073741824 + b2n fits * 536870912))
  let s2 := s1.updNet fun n => { n with cages := sparseInsert n.cages p.val true }
  if fits then .next s2
  else .next ((((s2.putRegBit (NET.PORT_STATUS p.val) 31 false).putReg (NET.PORT_STATUS p.val) 27 24 0).putRegBit NET.ALARM 4 true).raise
    0x6007 (p.val + 1))

/-- TRANSCEIVER_REMOVED (R489): the port goes down, and ID.SFP shows the cage empty. -/
def execTransceiverRemoved (p : Fin 4) (s : State) : Host.Outcome State Fault Refusal :=
  let s1 := (s.setLink p.val false 0).setReg (ID.SFP p.val) 0x00008000
  .next ((s1.setReg (NET.PORT_STATUS p.val) 0).updNet fun n => { n with cages := sparseErase n.cages p.val })

/-- PORT_LINK_CHANGE (R294, R316): a disabled port, or a cage without a supported transceiver, stays down. The speed follows from the medium; P5 has
the one it is set to, or what it negotiates (Table NW-1). -/
def execPortLinkChange (p : Fin 5) (up : Bool) (speed : Fin 4) (s : State) : Host.Outcome State Fault Refusal :=
  let may := s.regBit (NET.PORT_CFG p.val) 31 && (decide (p.val = 4) || s.regBit (NET.PORT_STATUS p.val) 29)
  let own := s.regFld (NET.PORT_CFG 4) 1 0
  .next (s.setLink p.val (up && may) (if p.val < 2 then 3 else if p.val < 4 then 2 else if own = 0 then speed.val else own))

/-! ### Discovery (R315, R344) -/

/-- The fields of the BEACON payload for port `p` (Table QP-8). -/
def beaconPayload (s : State) (p : Nat) : List Nat :=
  [(s.reg ID.SERIAL_HI).toNat, (s.reg ID.SERIAL_LO).toNat, fld (s.reg ID.ORDER) 7 0, b2n s.pair.posB, s.pair.baseId.toNat,
    s.role.code * 16 + s.mode.code, s.tb.quality.code * 64,
    b2n (decide (s.lock.split ≠ 0)) + b2n (s.regBit LOCK.STATUS 15) * 2 + b2n (s.regBit LOCK.STATUS 28) * 4
      + b2n (decide (s.reg SEC.LOCK ≠ 0)) * 8 + b2n (decide (s.qcp.sessions.length = 8)) * 16,
    (s.reg (UPD.C_VER_RUN 1)).toNat, (s.reg (UPD.C_VER_RUN 2)).toNat, (s.reg (NET.PORT_IP p)).toNat, (s.reg NET.PAIR_IP).toNat, 1, 1,
    s.qcp.sessions.length, 0, (s.reg (SEC.DEVICE_KEY_ID 0)).toNat, (s.reg (SEC.DEVICE_KEY_ID 1)).toNat, secOf s.tb.now]

/-- A BEACON from port `p` (R344): the sequence counts beacons since the start; `ref` is the sequence of the HELLO it answers. -/
def State.sendBeacon (s : State) (p ref : Nat) : State :=
  let s1 := s.updQcp fun q => { q with beacons := q.beacons + 1 }
  (s1.packetOut p).sendWire .beacon ([p, s1.qcp.beacons] ++ beaconPayload s1 p)
    (packetBytes s 0x01 (packetFlags s false false 0) 0 (BitVec.ofNat 32 s1.qcp.beacons) 0 ref []
      (entryBytes (payloadWidths 0x01) (payloadWidths 0x01) (beaconPayload s1 p)))

/-- BEACON_SEND (R315): every INTERVAL seconds, broadcast on the station bus and on P5, as enabled. -/
def execBeaconSend (s : State) : Host.Outcome State Fault Refusal :=
  let s0 := s.advanceUp (s.net.beaconAt + s.regFld NET.BEACON_CFG 31 16 * secUnits)
  let s1 := s0.updNet fun n => { n with beaconAt := s0.tb.up }
  let s2 := if s.regBit NET.BEACON_CFG 0 then s1.sendBeacon 2 0 else s1
  .next (if s.regBit NET.BEACON_CFG 1 then s2.sendBeacon 4 0 else s2)

end Sys2Proof.Machine
end

