-- ==== Sys2Proof/Machine/Hart.lean ====
section
/-!
DEFINITION. HART (R388 to R395): the transaction queue of each channel, decoding, and the window.
-/

namespace Sys2Proof.Machine

open Reg

/-- HART channel `n` replaced. -/
def State.setHart (s : State) (n : Nat) (x : HartChannel) : State := s.updIo fun i => { i with hart := sparseSet {} i.hart n x }

/-- The field [31:28] of HART.WIN_RESULT set. -/
def State.showWindow (s : State) (st : Nat) : State := s.putReg HART.WIN_RESULT 31 28 st

/-- The jobs of a queue, with those of the window first (R390). -/
def windowFirst (q : List HartJob) : List HartJob := q.filter (· = .window) ++ q.filter (· ≠ .window)

/-- The device at the window's poll address is the one whose identity the channel holds. -/
def hartKnown (s : State) (n : Nat) : Bool :=
  decide (s.reg (HART.CH_DEV_TYPE n) ≠ 0 ∧ s.regFld (HART.CH_DEV_TYPE n) 5 0 = s.regFld HART.WIN_SEL 5 0)

/-- The bytes of a request (R388, Table AO-7): the preambles, then a short frame with the poll address for command 0, else a long frame with the address
that command 0 gave; a number above 253 is carried in command 31. The frame's own layout is that of the HART standard (notes/assumptions/127.md). -/
def hartBytes (s : State) (n c address : Nat) (data : List Byte) : List Byte :=
  let ext := decide (253 < c)
  let body := (if ext then beBytes 2 c else []) ++ data
  let to' := if c = 0 then wireBytes [(1, 0x02), (1, 0x80 + address)]
    else wireBytes [(1, 0x82), (2, 0x8000 + s.regFld (HART.CH_DEV_TYPE n) 31 16 % 0x4000), (3, s.regFld (HART.CH_DEV_ID n) 23 0)]
  let frame := to' ++ wireBytes [(1, if ext then 31 else c), (1, body.length)] ++ body
  List.replicate (s.regFld HART.CFG 4 0) 0xFF ++ frame ++ [frame.foldl (· ^^^ ·) 0]

/-- A request transmitted (R389). -/
def State.hartSend (s : State) (n c address : Nat) (data : List Byte) : State :=
  s.sendWire .hartRequest [n, c, address] (hartBytes s n c address data)

/-- The window's request data: its first bytes (Table AO-13). -/
def hartWindowData (s : State) : List Byte :=
  ((List.range 8).flatMap fun w => beBytes 4 (s.reg (HART.WIN_DATA w)).toNat).take (s.regFld HART.WIN_CMD 7 0)

/-- The window's transaction started (R395). -/
def State.hartStartWindow (s : State) (n : Nat) : State :=
  ((s.setHart n { s.hart n with job := some .window }).showWindow 2).hartSend n (s.regFld HART.WIN_CMD 31 16) (s.regFld HART.WIN_SEL 5 0)
    (hartWindowData s)

/-- The next transaction of a channel started, when the module holds the grant and none is in progress (R389, R390). -/
def State.hartStart (s : State) (n : Nat) : State :=
  let x := s.hart n
  if !s.pair.grant ∨ x.job.isSome then s
  else
    match windowFirst x.queue with
    | [] => s
    | j :: rest =>
      match j with
      | .scan c => (s.setHart n { x with job := some j, queue := rest }).hartSend n c (s.regFld (HART.CH_CFG n) 21 16) []
      | _ =>
        if s.regFld HART.WIN_CMD 31 16 ≠ 0 ∧ j = .window ∧ !hartKnown s n then
          ((s.setHart n { x with job := some .ask, queue := rest }).showWindow 2).hartSend n 0 (s.regFld HART.WIN_SEL 5 0) []
        else (s.setHart n { x with queue := rest }).hartStartWindow n

/-- A scan's transaction queued, unless one is queued or in progress already. -/
def State.hartQueue (s : State) (n c : Nat) : State :=
  let x := s.hart n
  if x.job = some (.scan c) ∨ x.queue.contains (.scan c) then s
  else (s.setHart n { x with queue := x.queue ++ [.scan c] }).hartStart n

/-- HART_SCAN_POLL (R390): every SCAN_INT; the device is identified first. -/
def execHartScanPoll (n : Fin 8) (s : State) : Host.Outcome State Fault Refusal :=
  if s.regBit (HART.CH_CFG n.val) 31 ∧ s.regBit (HART.CH_CFG n.val) 28 then
    let x := s.hart n.val
    let s1 := s.advanceUp (x.polledAt + s.regFld (HART.CH_CFG n.val) 15 0 * msUnits)
    .next ((s1.setHart n.val { x with polledAt := s1.tb.up }).hartQueue n.val (if x.identified then 3 else 0))
  else .next s

/-- The points of Table AO-9 with their values; without communication the values are bad and point 6 reads 0. -/
def hartPoints (n : Nat) (x : HartChannel) : List (Word × Option Word) :=
  let p (t k : Nat) : Word := localPoint t (0x180 + 8 * n + k)
  let v (k : Nat) : Option Word := if x.good then some (x.values.getD k 0) else none
  [(p 3 0, v 0), (p 3 1, v 1), (p 3 2, v 2), (p 3 3, v 3), (p 3 4, v 4), (p 6 5, v 5), (p 1 6, some (BitVec.ofNat 32 (b2n x.good)))]

/-- The decoded values of a channel enter the receipt list (R391). -/
def State.hartReceipt (s : State) (n : Nat) : State := s.enterPoints (64 + n) (secWord s.tb.now) (hartPoints n (s.hart n))

/-- A frame's values over those held. -/
def takeValues (old : List Word) : List (Fin 5 × Word) → List Word
  | [] => old
  | (k, v) :: rest => takeValues (old.set k.val v) rest

/-- A frame decoded (R388, R391): values, status, identity, and the events that follow. -/
def State.hartDecode (s : State) (n : Nat) (f : HartFrame) : State :=
  let x := s.hart n
  let ident := decide (f.command = 0)
  let scans := s.regBit (HART.CH_CFG n) 28
  let scanned := !scans || decide (f.address.toNat = s.regFld (HART.CH_CFG n) 21 16)
  let values := (takeValues x.values f.values).set 5 (BitVec.ofNat 32 (f.status.toNat * 256 + f.extended.toNat))
  let known := if ident then scanned else x.identified
  let y := { x with
    state := if f.burst then 4 else if scans then (if known then 2 else 1) else if s.regBit (HART.CH_CFG n) 29 then 4 else 0
    identified := known, secondary := f.secondary, lastCode := f.code, lastStatus := f.status
    values := if scanned then values else x.values, good := x.good || scanned }
  let s1 := (s.setHart n y).setReg (HART.CH_LAST_SEC n) (secWord s.tb.now)
  let s2 := if ident then
      ((s1.setReg (HART.CH_DEV_ID n) (f.deviceId.zeroExtend 32)).setReg (HART.CH_DEV_TYPE n)
        (BitVec.ofNat 32 (f.deviceType.toNat * 65536 + f.revision.toNat * 256 + f.address.toNat)))
    else s1
  let s3 := if ident ∧ !x.identified then s2.raise 0x5901 n else s2
  let s4 := if x.state = 3 then (s3.putRegBit HART.ALARM 1 true).raise 0x5903 n else s3
  let s5 := if f.status.getLsbD 7 ∨ f.status.getLsbD 6 then (s4.putRegBit HART.ALARM 3 true).raise 0x5904 n else s4
  s5.hartReceipt n

/-- The response of the window (R395, Table AO-13): its data replaces the request. -/
def State.hartWindow (s : State) (f : HartFrame) : State :=
  let bytes := (f.data ++ List.replicate 32 0).take 32
  let s1 := (List.range 8).foldl (fun t w => t.setReg (HART.WIN_DATA w) (BitVec.ofNat 32 (beNat ((bytes.drop (4 * w)).take 4)))) s
  s1.setReg HART.WIN_RESULT (BitVec.ofNat 32 ((if 32 < f.data.length then 6 else 3) * 268435456 + f.code.toNat * 65536 + f.status.toNat * 256
    + satTo 32 f.data.length))

/-- HART_TRANSACTION_COMPLETE (R391): the next one starts; with more status available command 48 follows (Table AO-7). -/
def execHartTransactionComplete (n : Fin 8) (f : HartFrame) (s : State) : Host.Outcome State Fault Refusal :=
  let x := s.hart n.val
  match x.job with
  | none => .next s
  | some j =>
    let s1 := ((s.setHart n.val { x with job := none }).satRegFld (HART.CH_COUNT n.val) 31 16).hartDecode n.val f
    let s2 := if j = .window then s1.hartWindow f else s1
    let s3 := if f.status.getLsbD 4 ∧ j ≠ .scan 48 then s2.hartQueue n.val 48 else s2
    .next (if j = .ask ∧ (s3.hart n.val).job.isNone then s3.hartStartWindow n.val else s3.hartStart n.val)

/-- HART_TRANSACTION_FAILED (R391). -/
def execHartTransactionFailed (n : Fin 8) (s : State) : Host.Outcome State Fault Refusal :=
  let x := s.hart n.val
  match x.job with
  | none => .next s
  | some j =>
    let s1 := ((s.setHart n.val { x with job := none, state := 3, good := false }).satRegFld (HART.CH_COUNT n.val) 31 16).satRegFld
      (HART.CH_COUNT n.val) 15 0
    let s2 := if x.state = 3 then s1 else (s1.putRegBit HART.ALARM 0 true).raise 0x5902 n.val
    let s3 := if j = .window ∨ j = .ask then s2.showWindow 4 else s2
    .next ((s3.hartReceipt n.val).hartStart n.val)

/-- HART_FRAME_RECEIVED (R388, R389): burst frames of commands 1, 2, 3 and 9 while BURST_LISTEN is set, and frames of the other
module's transactions. -/
def execHartFrameReceived (n : Fin 8) (f : HartFrame) (s : State) : Host.Outcome State Fault Refusal :=
  let on := s.regBit (HART.CH_CFG n.val) 31
  let burst := s.regBit (HART.CH_CFG n.val) 29 && ([1, 2, 3, 9] : List Nat).contains f.command.toNat
  if on ∧ (if f.burst then burst else (s.hart n.val).job.isNone) then .next (s.hartDecode n.val f) else .next s

/-- A channel's transaction abandoned when the grant moves (R392): the scan's is sent again later, the window's is not. -/
def State.hartAbandon (s : State) (n : Nat) : State :=
  let x := s.hart n
  match x.job with
  | none => s
  | some (.scan c) => s.setHart n { x with job := none, queue := .scan c :: x.queue }
  | some _ => (((s.setHart n { x with job := none }).showWindow 5).putRegBit HART.ALARM 2 true).raise 0x5905 n

/-- Every channel's transaction abandoned. -/
def State.hartAbandonAll (s : State) : State := (List.range 8).foldl (fun t n => t.hartAbandon n) s

/-- The queues of a new holder started (R389). -/
def State.hartStartAll (s : State) : State := (List.range 8).foldl (fun t n => t.hartStart n) s

/-- The low-pass of a channel is set to what the converter holds when it comes to stand before it (R394). -/
def State.startLowPass (s : State) (n : Nat) : State :=
  s.setAo n { s.ao n with passed := aoConverter s n, slope := 0, passedAt := s.tb.up }

/-- HART.CH_CFG applied (R387): a channel switched off loses its state; one switched on begins by identifying or listening. -/
def State.applyHartCfg (s : State) (n : Nat) (v : Word) : State :=
  let s1 := (if aoFiltered s n then s else s.startLowPass n).setReg (HART.CH_CFG n) v
  if !bit v 31 then s1.setHart n {}
  else if !s.regBit (HART.CH_CFG n) 31 then s1.setHart n { state := if bit v 28 then 1 else if bit v 29 then 4 else 0, polledAt := s.tb.up }
  else s1

/-- The effect of HART.WIN_GO (R395): the window's transaction queued, unless one is queued or in progress. -/
def State.hartGo (s : State) : State × Status :=
  if s.regFld HART.WIN_RESULT 31 28 = 1 ∨ s.regFld HART.WIN_RESULT 31 28 = 2 then (s, .busy)
  else if 32 < s.regFld HART.WIN_CMD 7 0 ∨ 63 < s.regFld HART.WIN_SEL 5 0 then (s, .badParameter)
  else
    let n := s.regFld HART.WIN_SEL 18 16
    let x := s.hart n
    if !s.regBit (HART.CH_CFG n) 31 then (s, .wrongState)
    else (((s.setReg HART.WIN_RESULT 0x10000000).setHart n { x with queue := x.queue ++ [.window] }).hartStart n, .done)

/-- The effect of HART.CLEAR (Table AO-13). -/
def State.hartClear (s : State) : State := s.zeroRegs ((List.range 8).map HART.CH_COUNT)

end Sys2Proof.Machine
end

