-- ==== Sys2Proof/Machine/Applications.lean ====
section
/-!
DEFINITION. Effects that wait for an application tick: loop commits, forces, notch sections and register writes (Closed-Loop Engine;
Command Packets, Points; R368).
-/

namespace Sys2Proof.Machine

open Reg

/-- The application tick (R203): the next frame tick, or for an ACTIVE the first one at least 20 µs after acceptance. -/
def applicationAt (s : State) : Nat :=
  if s.role = .active then tickAtOrAfter (s.tb.now + 2 * frameUnits) else (s.tb.now / frameUnits + 1) * frameUnits

/-- The fields of an effect as it is passed to the STANDBY. -/
def effectFields : AppEffect → List Nat
  | .loopCommit k words => [0, k] ++ words.flatMap fun e => [e.1, e.2.toNat]
  | .force p v => [1, p.toNat, v.toNat]
  | .release p => [2, p.toNat]
  | .releaseAll => [3]
  | .regWrite a v => [4, a, v.toNat]

/-- An effect accepted: its tick is fixed and sent to the STANDBY (R203). -/
def State.fixApplication (s : State) (e : AppEffect) (by_ : Option Requester) : State :=
  let t := applicationAt s
  (s.updFrame fun f =>
    { f with applications := f.applications ++ [{ tick := t, effect := e, confirmed := !(needsConfirm s), by_ := by_ }] }).pass
    ([0x1A] ++ tickFields t ++ effectFields e)

/-! ### Forces -/

/-- An input shows its force, or its own value once released (R350). -/
def State.showForce (s : State) (p : Word) : State :=
  if isOutputType (pointType p) then s
  else
    match s.binding p with
    | none => s
    | some b =>
      let v := s.point p
      s.setPoint p { v with value := (s.force p).getD (if v.bad then substitute s b else v.own) }

/-- The force list changed. -/
def State.setForces (s : State) (l : List (Nat × Word)) : State := s.updFrame fun f => { f with forces := l }

/-- Every point of a list shows its value again. -/
def State.showForces (s : State) : List Nat → State
  | [] => s
  | p :: rest => (s.showForce (BitVec.ofNat 32 p)).showForces rest

/-- The session named in the events of an effect; none for one that the ACTIVE passed. -/
def requesterSession (by_ : Option Requester) : Word := (by_.map (·.session)).getD 0

/-- The effect of an application at its tick, with the reply owed for it (R203, R350, R368). -/
def State.applyEffect (s : State) (e : AppEffect) (by_ : Option Requester) : State :=
  match e with
  | .loopCommit k words => s.applyLoop k words
  | .force p v =>
    (((s.setForces (sparseInsert s.frame.forces p.toNat v)).showForce p).raiseQcp 0x604D (requesterSession by_)).lateAnswer 0x81 by_ done
  | .release p =>
    (((s.setForces (sparseErase s.frame.forces p.toNat)).showForce p).raiseQcp 0x604D (requesterSession by_)).lateAnswer 0x81 by_ done
  | .releaseAll =>
    (((s.setForces []).showForces (s.frame.forces.map (·.1))).raiseQcp 0x604D (requesterSession by_)).lateAnswer 0x81 by_ done
  | .regWrite a v =>
    match (List.range 32).find? fun c => decide (a = DIO.CH_CFG c), (List.range 8).find? fun n => decide (a = HART.CH_CFG n) with
    | some c, _ => s.applyDioCfg c v
    | none, some n => s.applyHartCfg n v
    | none, none => s.setReg a v

/-- Applications applied in their order. -/
def State.applyAll (s : State) : List Application → State
  | [] => s
  | a :: rest => (s.applyEffect a.effect a.by_).applyAll rest

/-- The earliest tick of a list of applications. -/
def firstTick (l : List Application) : Option Nat :=
  l.foldl (fun m a => match m with
    | none => some a.tick
    | some t => some (if a.tick < t then a.tick else t)) none

/-- APPLICATION_TICK (R203): everything fixed for the earliest tick takes effect. -/
def execApplicationTick (s : State) : Host.Outcome State Fault Refusal :=
  match firstTick s.frame.applications with
  | none => .next s
  | some t =>
    let due := s.frame.applications.filter fun a => a.tick = t
    .next (((s.advanceTo t).updFrame fun f => { f with applications := f.applications.filter fun a => a.tick ≠ t }).applyAll due)

/-- An unconfirmed application at its deadline: whether it is of a loop commit (event 0x4806). -/
def isLoopCommit (a : Application) : Bool :=
  match a.effect with
  | .loopCommit _ _ => true
  | _ => false

/-- The STANDBY drops to TRACK because its confirmation did not come in time (R203, R350). -/
def State.dropUnconfirmed (s : State) (loop : Bool) : State :=
  let s1 := s.updPair fun p => { p with trackDue := true }
  if loop then s1.raiseBlock 0x4806 else s1

/-- APPLICATION_CONFIRM_DEADLINE (R203): 10 µs before the earliest unconfirmed tick the ACTIVE goes on alone, and the STANDBY drops to
TRACK. -/
def execApplicationConfirmDeadline (s : State) : Host.Outcome State Fault Refusal :=
  match firstTick (s.frame.applications.filter fun a => !a.confirmed) with
  | none => .next s
  | some t =>
    let s0 := s.advanceTo (t - frameUnits)
    let late := s.frame.applications.filter fun a => decide (a.tick = t) && !a.confirmed
    if s.role = .standby then
      .next ((s0.updFrame fun f => { f with applications := f.applications.filter fun a => !(decide (a.tick = t) && !a.confirmed) }).dropUnconfirmed
        (late.any isLoopCommit))
    else
      let s1 := s0.updFrame fun f =>
        { f with applications := f.applications.map fun a => if a.tick = t then { a with confirmed := true } else a }
      .next (if late.any isLoopCommit then s1.raiseBlock 0x4806 else s1)

/-! ### Points -/

/-- Point references of a type that POINT_READ refuses (R349): 0x0 and 0xB to 0xF. -/
def readableType (p : Word) : Bool := decide (1 ≤ pointType p ∧ pointType p ≤ 0xA)

/-- The first reference of a list that is refused, by its byte offset. -/
def badReference : List Word → Nat → Option Nat
  | [], _ => none
  | p :: rest, o => if readableType p then badReference rest (o + 4) else some o

/-- An entry of POINT_READ (R349): reference, quality and value, with the time of a type 0x8 point; a slot word reads as committed. -/
def pointEntry (s : State) (p : Word) : List Nat :=
  let v := s.point p
  [p.toNat, pointQuality s p, 0,
    if pointType p = 8 then Config.stampedBytes (pointNow s p) (decide (pointQuality s p = 0)) v.stamp else (pointNow s p).toNat * 2 ^ 64]

/-- POINT_READ (R349). -/
def execPointRead (p : Pkt) (refs : List Word) (s : State) : Host.Outcome State Fault Refusal :=
  let bad := if refs = [] ∨ 64 < refs.length then some (refusal .badParameter 0 0)
    else (badReference refs 0).map fun o => refusal .badParameter 0 o
  .next (s.request p 0x80 0 false bad fun t _ => (t, some { status := .done, payload := refs.flatMap (pointEntry t) }))

/-- A point that POINT_FORCE accepts (R350): bound, and of types 0x1 to 0x7. -/
def forcible (s : State) (p : Word) : Bool := decide (1 ≤ pointType p ∧ pointType p ≤ 7) && (s.binding p).isSome

/-- The points forced now or by an accepted force. -/
def forcedPoints (s : State) : List Nat :=
  ((s.frame.forces.map (·.1)) ++ s.frame.applications.filterMap fun a => match a.effect with
    | .force q _ => some q.toNat
    | _ => none).eraseDups

/-- POINT_FORCE with an effect that passed its checks: the reply comes after the application tick (R350). -/
def applyLater (e : AppEffect) : Body := fun t rq =>
  if !t.mayConfigure then (t, some (refusal .wrongState))
  else (t.fixApplication e (some rq), none)

/-- POINT_FORCE with action 1 (R350): `zero` holds bytes 5 to 7. -/
def execPointForceSet (p : Pkt) (point value : Word) (zero : BitVec 24) (s : State) : Host.Outcome State Fault Refusal :=
  let bad := if !forcible s point then some (refusal .badParameter 0 0)
    else if zero ≠ 0#24 then some (refusal .badParameter 0 5) else none
  .next (s.request p 0x81 2 false bad fun t rq =>
    if t.mayConfigure ∧ 256 ≤ (forcedPoints t).length ∧ point.toNat ∉ forcedPoints t then (t, some (refusal .busy))
    else applyLater (.force point value) t rq)

/-- POINT_FORCE with action 0 (R350). -/
def execPointRelease (p : Pkt) (point : Word) (zero : BitVec 24) (s : State) : Host.Outcome State Fault Refusal :=
  let bad := if !forcible s point then some (refusal .badParameter 0 0)
    else if zero ≠ 0#24 then some (refusal .badParameter 0 5) else none
  .next (s.request p 0x81 2 false bad (applyLater (.release point)))

/-- POINT_FORCE with action 2 (R350). -/
def execPointReleaseAll (p : Pkt) (zero : BitVec 24) (s : State) : Host.Outcome State Fault Refusal :=
  .next (s.request p 0x81 2 false (if zero ≠ 0#24 then some (refusal .badParameter 0 5) else none) (applyLater .releaseAll))

/-! ### The slot window -/

/-- The bits of a slot word that a write sets (Tables LE-1, LE-2, LE-5, LE-6); 0 for a read-only word. -/
def loopMask (page w : Nat) : Word :=
  if page = 0 then
    (match w with
    | 0 => 0xFF070700
    | 1 => 0xF00007FF
    | 10 => 0x00000FFF
    | 15 => 0x80000003
    | n => if n ≤ 9 then 0xFFFFFFFF else 0)
  else if page ≤ 3 then (if w = 0 then 0x33000000 else if w ≤ 7 then 0xFFFFFFFF else 0)
  else if page = 4 then (if w = 0 then 0x83000000 else if w ≤ 5 then 0xFFFFFFFF else 0)
  else 0

/-- The staged words of a slot dropped (R202). -/
def State.dropLoop (s : State) (k : Nat) : State :=
  { s with staged := s.staged.filter fun e => !(decide (e.1 / 65536 = WinId.loop.code) && decide (e.1 % 65536 / 256 = k)) }

/-- A slot and page selected (R202): staged words of another slot go. -/
def State.selectLoop (s : State) (k page : Nat) : State :=
  let old := s.regFld LOOP.SEL 15 8
  (if old = k then s else s.dropLoop old).setReg LOOP.SEL (BitVec.ofNat 32 (k * 256 + page))

/-- A word of a slot's page staged; a write to a read-only word has no effect. -/
def State.stageLoop (s : State) (k page w : Nat) (v : Word) : State :=
  if loopMask page w = 0 then s else s.stageWord .loop (k * 8 + page) w (v &&& loopMask page w)

/-- Words of a page staged from word `w` on. -/
def State.stagePage (s : State) (k page w : Nat) : List Word → State
  | [] => s
  | v :: rest => (s.stageLoop k page w v).stagePage k page (w + 1) rest

/-- The page as the window shows it (R202). -/
def pageWords (s : State) (k page : Nat) : List Nat :=
  (List.range 16).map fun w => ((sparseFind s.staged (winKey .loop (k * 8 + page) w)).getD (s.pageWord k page w)).toNat

/-- The commit of a slot (R203, R204): accepted with its application tick, or the reason it was refused for. -/
def State.commitLoop (s : State) (k : Nat) : State × Option (Status × Nat × Option (Owner × Owner)) :=
  let words := stagedWords s k
  match loopRefusal s k words with
  | some r => (s.refuseCommit k r, some r)
  | none => ((((s.dropLoop k).fixApplication (.loopCommit k words) none).showCommit .done 0 0xFF k).releaseWindow .loop, none)

/-- The reply that a refused commit gives: the owners of a conflict, or where the refused word stands. -/
def commitReply (r : Status × Nat × Option (Owner × Owner)) (offset : Nat) : Reply :=
  match r.2.2 with
  | some (a, b) => refusal r.1 0 (ownerCode a * 65536 + ownerCode b)
  | none => refusal r.1 0 offset

/-- What check 15 finds in LOOP_WINDOW. -/
def windowParams (page zero : Byte) : Option Reply :=
  if 4 < page.toNat then some (refusal .badParameter 0 1) else if zero ≠ 0#8 then some (refusal .badParameter 0 3) else none

/-- LOOP_WINDOW with action 0 (R202). -/
def execLoopWindowRead (p : Pkt) (slot page zero : Byte) (s : State) : Host.Outcome State Fault Refusal :=
  .next (s.request p 0x82 0 false (windowParams page zero) fun t _ =>
    (t, some { status := .done, payload := pageWords t slot.toNat page.toNat }))

/-- Staging by LOOP_WINDOW (R202, R203, R348): refused by role, and while another session holds the window. -/
def stageWindow (slot page : Nat) (words : List Word) (next : State → State × Reply) : Body := fun t rq =>
  if !t.mayConfigure then (t, some (refusal .wrongState))
  else
    match t.windowHolder .loop rq.session with
    | some h => (t, some (refusal .busy 0 h.toNat))
    | none =>
      let o := next (((t.claimWindow .loop rq.session).selectLoop slot page).stagePage slot page 0 words)
      (o.1, some o.2)

/-- LOOP_WINDOW with action 1 (R202, R348). -/
def execLoopWindowStage (p : Pkt) (slot page zero : Byte) (words : List Word) (s : State) : Host.Outcome State Fault Refusal :=
  let bad := if words.length ≠ 16 then some (refusal .badLength) else windowParams page zero
  .next (s.request p 0x82 2 false bad (stageWindow slot.toNat page.toNat words fun t =>
    (t, { status := .done, payload := pageWords t slot.toNat page.toNat })))

/-- LOOP_WINDOW with action 2 (R203): the reply's status is that of the commit. -/
def execLoopWindowCommit (p : Pkt) (slot page zero : Byte) (words : List Word) (s : State) : Host.Outcome State Fault Refusal :=
  let bad := if words.length ≠ 16 then some (refusal .badLength) else windowParams page zero
  .next (s.request p 0x82 2 false bad (stageWindow slot.toNat page.toNat words fun t =>
    match t.commitLoop slot.toNat with
    | (t1, some r) => (t1, commitReply r (4 + 4 * (r.2.1 % 16)))
    | (t1, none) => (t1, { status := .done, payload := pageWords t1 slot.toNat page.toNat })))

/-! ### Notch design -/

/-- NOTCH_DESIGN (R222, R223, R348): `zero` is byte 15. -/
def execNotchDesign (p : Pkt) (f0 width depth : Word) (slot sect apply zero : Byte) (s : State) : Host.Outcome State Fault Refusal :=
  let bad := if 3 < sect.toNat then some (refusal .badParameter 0 13)
    else if 1 < apply.toNat then some (refusal .badParameter 0 14)
    else if zero ≠ 0#8 then some (refusal .badParameter 0 15) else none
  .next (s.request p 0x83 2 false bad fun t rq =>
    if !t.mayConfigure then (t, some (refusal .wrongState))
    else
      match t.windowHolder .loopNd rq.session with
      | some h => (t, some (refusal .busy 0 h.toNat))
      | none =>
        (t.claimWindow .loopNd rq.session).startDesign
          { by_ := some rq, slot := slot.toNat, sect := sect.toNat, apply := decide (apply = 1#8), f0 := f0, width := width, depth := depth })

/-- The commit that a design with APPLY makes (R223): its page, enabled, under R203 to R205. -/
def State.applyDesign (s : State) (d : Design) (c : List Word) : State × Option Reply :=
  let words := designPage d.sect c
  if stagedWords s d.slot ≠ [] then (s, some (refusal .busy))
  else
    match loopRefusal s d.slot words with
    | some r => (s.refuseCommit d.slot r, some (commitReply r 0))
    | none => ((s.fixApplication (.loopCommit d.slot words) none).showCommit .done 0 0xFF d.slot, none)

/-- NOTCH_DESIGN_COMPLETE (R223): the stored words, the achieved values and the rate; with APPLY the section is committed. -/
def execNotchDesignComplete (s : State) : Host.Outcome State Fault Refusal :=
  match s.loop.design with
  | none => .next s
  | some d =>
    let c := designWords s d
    let rate := slotRate s d.slot
    let (f, w, dep) := designAchieved c d.f0 rate
    let s1 := ((s.updLoop fun l => { l with design := none }).setRegs (LOOP.ND_COEF 0) c).setRegs LOOP.ND_FLAGS
      [0x03000000, f, dep, w, narrow (ofInt64 rate)]
    let s2 := ((s1.orReg LOOP.ALARM 8#32).raise 0x4805 d.slot).releaseWindow .loopNd
    let o := if d.apply then s2.applyDesign d c else (s2, none)
    let r := o.2.getD (doneWith (c.map (·.toNat) ++ [f.toNat, w.toNat, dep.toNat]))
    .next ((o.1.showDesign false r.status).lateAnswer 0x83 d.by_ r)

end Sys2Proof.Machine
end

