-- ==== Sys2Proof/Machine/Can.lean ====
section
/-!
DEFINITION. The CAN FD channels (R399 to R417).
-/

namespace Sys2Proof.Machine

open Reg

/-- The stamp of a frame (R409): the start of frame less CAN.RX_DELAY. -/
def canStamp (s : State) (ch : Nat) (stamp : Instant) : Nat := shiftTime (ofInstant stamp) (-((s.reg (CAN.RX_DELAY ch)).toNat * 16777216 : Nat))

/-- The buffer of a received frame (R402): identifiers are compared under MASK, for a base frame in [28:18] only. -/
def canMatch (s : State) (ch : Nat) (f : CanFrame) (b : Nat) : Bool :=
  let w1 := s.win (canWin ch) b 1
  let care := if bit f.ident 31 then 0x1FFFFFFF#32 else 0x1FFC0000#32
  canRx s ch b && decide ((f.ident ^^^ w1) &&& s.win (canWin ch) b 2 &&& care = 0) &&
    (!canBit s ch b 29 || (bit f.ident 31 == bit w1 31))

/-- A module in bus monitoring drops its pending frames that equal a received one (R414). -/
def State.canMonitor (s : State) (ch : Nat) (f : CanFrame) : List Nat → State
  | [] => s
  | b :: rest =>
    let x := s.canBuf ch b
    let same := match x.pending with
      | some g => decide (g.ident = f.ident) && (g.rtr == f.rtr) && decide (g.dlc = f.dlc) &&
          decide ((List.range 16).map (canData g) = (List.range 16).map (canData f))
      | none => false
    (if same then s.setCanBuf ch b { x with pending := none } else s).canMonitor ch f rest

/-- CAN_FRAME_RECEIVED (R402, R409, R414). -/
def execCanFrameReceived (ch : Fin 2) (f : CanFrame) (stamp : Instant) (s : State) : Host.Outcome State Fault Refusal :=
  if s.regBit (CAN.CTRL ch.val) 31 then
    let t := canStamp s ch.val stamp
    let s1 := ((s.incReg (CAN.RX_COUNT ch.val)).setReg (CAN.LAST_RX_SEC ch.val) (secWord t)).setReg (CAN.LAST_RX_NS ch.val)
      (qualityNs s.tb.quality t)
    let s2 := if (s.can ch.val).part then s1 else s1.canMonitor ch.val f (List.range 64)
    match (List.range 64).find? (canMatch s ch.val f) with
    | some b => .next (s2.canStore ch.val b f (secWord t) (qualityNs s.tb.quality t))
    | none => .next (s2.incReg (CAN.UNMATCHED ch.val))
  else .next s

/-- The order in which the bus arbitrates (R403): the leading 11 bits, a base identifier before an extended one, the rest, then the buffer number. -/
def canRank (f : CanFrame) (b : Nat) : Nat :=
  ((fld f.ident 28 18 * 2 + b2n (bit f.ident 31)) * 262144 + (if bit f.ident 31 then fld f.ident 17 0 else 0)) * 64 + b

/-- Buffer `b` wins among the buffers that were pending at a start of frame `t` (R403). -/
def canWins (s : State) (ch b t : Nat) (f : CanFrame) : Bool :=
  (s.can ch).buffers.all fun e => match e.2.pending with
    | some g => decide (t ≤ e.2.pendingAt) || decide (canRank f b ≤ canRank g e.1)
    | none => true

/-- CAN_FRAME_TRANSMITTED (R403, R409, R414): the frame of buffer `b`, which was pending at its start of frame and won the arbitration, has completed on
the bus (notes/assumptions/63.md). -/
def execCanFrameTransmitted (ch : Fin 2) (b : Fin 64) (stamp : Instant) (s : State) : Host.Outcome State Fault Refusal :=
  let x := s.canBuf ch.val b.val
  match x.pending with
  | none => .next s
  | some f =>
    let t := canStamp s ch.val stamp
    if !(s.can ch.val).part ∨ s.regBit (CAN.CTRL ch.val) 29 ∨ s.regFld (CAN.AB_RESULT ch.val) 31 28 = 1 ∨ !(canWins s ch.val b.val t f) ∨ (s.can ch.val).quietFrom.any (fun h => decide (h ≤ t)) = true then .next s
    else
      let s1 := s.setCanBuf ch.val b.val { x with pending := none, count := (x.count + 1) % 256 }
      .next ((((s1.incReg (CAN.TX_COUNT ch.val)).setReg (CAN.LAST_TX_SEC ch.val) (secWord t)).setReg (CAN.LAST_TX_NS ch.val)
        (qualityNs s.tb.quality t)).send .canFrame [ch.val, b.val, f.ident.toNat, b2n f.rtr, f.dlc])

/-- Errors counted by their codes (Table CN-5). -/
def State.canErrors (s : State) (ch : Nat) : List (Fin 7 × Bool) → State
  | [] => s
  | (e, phase) :: rest =>
    let s1 := s.setReg (CAN.LAST_ERR ch) (BitVec.ofNat 32 (e.val * 268435456 + b2n phase * 134217728))
    let s2 := if e.val = 0 then s1 else s1.incReg (CAN.ERR_COUNT ch (e.val - 1))
    (if phase then s2.incReg (CAN.DATA_ERRORS ch) else s2).canErrors ch rest

/-- The state that the error counters stand for (R410): the limits are those of ISO 11898-1 (PRESUMED, notes/assumptions/129.md). -/
def canErrorState (tec rec_ : Nat) : Nat := if 256 ≤ tec then 2 else if 128 ≤ tec ∨ 128 ≤ rec_ then 1 else 0

/-- CAN_ERROR_STATE_CHANGE (R410, R411). -/
def execCanErrorStateChange (ch : Fin 2) (e : CanErrors) (s : State) : Host.Outcome State Fault Refusal :=
  let c := s.can ch.val
  if c.part then
    let st := canErrorState e.tec e.rec_
    let s1 := (s.canErrors ch.val e.errors).setCan ch.val
      { c with state := st, tec := e.tec, rec_ := e.rec_
               recovering := decide (st = 2) && (c.recovering || s.regBit (CAN.CTRL ch.val) 28) }
    if st = c.state then .next s1
    else
      match st with
      | 0 => .next (s1.raise (canEvent ch.val 3) ch.val)
      | 1 => .next (((s1.incReg (CAN.PASSIVE_COUNT ch.val)).putRegBit (CAN.ALARM ch.val) 0 true).raise (canEvent ch.val 1) ch.val)
      | _ => .next (((s1.incReg (CAN.BUSOFF_COUNT ch.val)).putRegBit (CAN.ALARM ch.val) 1 true).raise (canEvent ch.val 2) ch.val)
  else .next s

/-- CAN_BUS_OFF_RECOVERED (R411), once recovery has started. -/
def execCanBusOffRecovered (ch : Fin 2) (s : State) : Host.Outcome State Fault Refusal :=
  let c := s.can ch.val
  if c.part ∧ c.state = 2 ∧ c.recovering then
    .next ((s.setCan ch.val { c with state := 0, tec := 0, rec_ := 0, recovering := false }).raise (canEvent ch.val 3) ch.val)
  else .next s

/-- The effect of BO_RECOVER (R411). -/
def State.canRecover (s : State) (ch : Nat) : State :=
  if (s.can ch).state = 2 then s.setCan ch { s.can ch with recovering := true } else s

/-- CAN_INTEGRATION_COMPLETE (R413): the grant holder takes part, error-active with both counters at 0. -/
def execCanIntegrationComplete (ch : Fin 2) (s : State) : Host.Outcome State Fault Refusal :=
  if s.regBit (CAN.CTRL ch.val) 31 ∧ s.pair.grant ∧ !(s.can ch.val).part then
    .next (s.setCan ch.val { s.can ch.val with part := true, state := 0, tec := 0, rec_ := 0, recovering := false, quietFrom := none })
  else .next s

/-- Both channels leave the bus: the grant has moved (R413). -/
def State.canLeave (s : State) : State :=
  let out (c : CanChannel) : CanChannel := { c with part := false, quietFrom := none }
  { s with can0 := out s.can0, can1 := out s.can1 }

/-- From H on the outgoing module starts no transmission (R414). -/
def State.canQuiet (s : State) (h : Nat) : State :=
  { s with can0 := { s.can0 with quietFrom := some h }, can1 := { s.can1 with quietFrom := some h } }

/-- A refusal under R408: the image owns the buffer; CAN.OWNER names the owner of its status point and the register configuration. -/
def State.canOwned (s : State) (ch b : Nat) : State :=
  let owner := (s.binding (BitVec.ofNat 32 (0x70000000 + 0x300 + 64 * ch + b))).bind (·.owner)
  let owners := ownerCode (owner.getD { kind := 0, number := 0 }) * 65536 + ownerCode { kind := 3, number := 0 }
  (s.setReg (CAN.OWNER ch) (BitVec.ofNat 32 owners)).noteConflict (some (3, 64 * ch + b)) owners

/-- A frame queued in a transmit buffer (R403, R408). -/
def State.canPend (s : State) (ch b : Nat) (f : CanFrame) : State :=
  s.setCanBuf ch b { s.canBuf ch b with pending := some f, pendingAt := s.tb.now }

/-- TX_CMD send (R403, R408): the frame that the buffer holds is queued. -/
def State.canSend (s : State) (ch b : Nat) : State × Status :=
  let x := s.canBuf ch b
  if canBound s.image ch b then (s.canOwned ch b, .resourceConflict)
  else if !canTx s ch b then (s, .wrongState)
  else if x.pending.isSome then (s, .busy)
  else (s.canPend ch b { x.frame with ident := s.win (canWin ch) b 1 }, .done)

/-- TX_CMD abort (R403): `started` says that the start of frame is on the bus already. -/
def State.canAbort (s : State) (ch b : Nat) (started : Bool) : State × Status :=
  let x := s.canBuf ch b
  if canBound s.image ch b then (s.canOwned ch b, .resourceConflict)
  else if started then (s, .done)
  else (s.setCanBuf ch b { x with pending := none }, .done)

/-- The value of an output point of station 0 at a local point, and whether it is bound. -/
def canOutput (s : State) (l : Nat) : Word := (s.point (BitVec.ofNat 32 (0x70000000 + l))).value

/-- The frame that the points of a bound transmit buffer hold (Table CN-3). -/
def committedFrame (s : State) (ch b : Nat) : CanFrame :=
  let st := canOutput s (0x300 + 64 * ch + b)
  { ident := canOutput s (0x200 + 64 * ch + b), rtr := bit st 6, esi := false, dlc := fld st 3 0
    data := (List.range 16).map fun w => canOutput s (0x400 + 0x400 * ch + 16 * b + w) }

/-- CAN_TX_QUEUE_AT_COMMIT (R408) for one buffer. -/
def State.canQueue (s : State) (ch b : Nat) : State :=
  if canTx s ch b ∧ (s.binding (BitVec.ofNat 32 (0x70000000 + 0x300 + 64 * ch + b))).isSome ∧ bit (canOutput s (0x300 + 64 * ch + b)) 31 then
    let x := s.canBuf ch b
    let s1 := s.canPend ch b (committedFrame s ch b)
    if x.pending.isSome then s1.incReg (CAN.TX_REPLACED ch) else s1
  else s

/-- Every transmit buffer at an output commit. -/
def State.canCommit (s : State) : State :=
  (List.range 64).foldl (fun t b => t.canQueue 1 b) ((List.range 64).foldl (fun t b => t.canQueue 0 b) s)

/-- CAN_LOCK_TIMEOUT (R405): 1 ms without a read of the window. -/
def execCanLockTimeout (ch : Fin 2) (s : State) : Host.Outcome State Fault Refusal :=
  match (s.can ch.val).locked with
  | none => .next s
  | some (b, _, t) =>
    let s1 := s.advanceUp (t + msUnits)
    .next ((((s1.canRelease ch.val).incReg (CAN.LOCK_TIMEOUTS ch.val)).putRegBit (CAN.ALARM ch.val) 3 true).raise (canEvent ch.val 7)
      (64 * ch.val + b))

/-- A write of CAN.BUF_SEL (R405): any lock is released. Words staged for a buffer stay staged until its commit. -/
def State.canSelect (s : State) (ch b : Nat) : State := (s.canRelease ch).setReg (CAN.BUF_SEL ch) (BitVec.ofNat 32 (b % 64))

/-- A write of window word `w` of the selected buffer (R417): words 0 to 2 are staged, the others act at once. Of an image-owned buffer only OVERRUN of a
receive buffer may be written (R408). -/
def State.canWriteWindow (s : State) (ch w : Nat) (v : Word) : State × Status :=
  let b := s.regFld (CAN.BUF_SEL ch) 5 0
  let x := s.canBuf ch b
  let tx := canTx s ch b
  if canBound s.image ch b ∧ (w ≠ 3 ∨ tx) then (s.canOwned ch b, .resourceConflict)
  else if w ≤ 2 then (s.stageWord (canWin ch) b w v, .done)
  else if w = 3 then
    if tx then
      (if x.pending.isSome then (s, .busy)
       else (s.setCanBuf ch b { x with frame := { x.frame with rtr := bit v 29, dlc := fld v 3 0 }, overrun := x.overrun && !bit v 30 }, .done))
    else (s.setCanBuf ch b { x with overrun := x.overrun && !bit v 30 }, .done)
  else if 6 ≤ w ∧ tx then
    (if x.pending.isSome then (s, .busy)
     else
      let data := (x.frame.data ++ List.replicate (16 - x.frame.data.length) 0).set (w - 6) v
      (s.setCanBuf ch b { x with frame := { x.frame with data := data } }, .done))
  else (s, .done)

/-- A configuration commit of the selected buffer (R408, R417): refused when it changes the direction of an image-owned buffer or disables
it; else applied at the next frame tick. -/
def State.canCommitBuffer (s : State) (ch : Nat) : State × Status :=
  let b := s.regFld (CAN.BUF_SEL ch) 5 0
  let words := (List.range 3).map fun w => s.winStaged (canWin ch) b w
  let w0 := words.getD 0 0
  if canBound s.image ch b ∧ (bit w0 31 = false ∨ bit w0 30 ≠ canBit s ch b 30) then (s.canOwned ch b, .resourceConflict)
  else ((s.setCan ch { s.can ch with due := sparseInsert (s.can ch).due b words }).dropStaged (canWin ch) b, .done)

/-- Accepted buffer configurations applied at a frame tick: a buffer newly enabled, or changed in direction, starts empty. -/
def State.applyCan (s : State) (ch : Nat) : List (Nat × List Word) → State
  | [] => s
  | (b, words) :: rest =>
    let s1 := (List.range 3).foldl (fun t w => t.setWin (canWin ch) b w (words.getD w 0)) s
    (if s.win (canWin ch) b 0 &&& 0xC0000000#32 = s1.win (canWin ch) b 0 &&& 0xC0000000#32 then s1 else s1.setCanBuf ch b {}).applyCan ch rest

/-- What the channels do at a frame tick. -/
def State.canTick (s : State) : State :=
  let s1 := (s.applyCan 0 s.can0.due).applyCan 1 s.can1.due
  { s1 with can0 := { s1.can0 with due := [] }, can1 := { s1.can1 with due := [] } }

/-! ### Automatic bit-rate detection (R412) -/

/-- The nominal rates of AB_CFG by bit: kbit/s, and CAN.NBT of Table CN-2. -/
def nominalRate (r : Nat) : Nat × Word :=
  match r with
  | 0 => (125, 0x083F1010)
  | 1 => (250, 0x043F1010)
  | 2 => (500, 0x023F1010)
  | 3 => (800, 0x014F1414)
  | _ => (1000, 0x013F1010)

/-- The data rates of Table CN-2: Mbit/s, and CAN.DBT. -/
def dataRate (r : Nat) : Nat × Word :=
  match r with
  | 0 => (1, 0x021D0A0A)
  | 1 => (2, 0x011D0A0A)
  | 2 => (4, 0x010E0505)
  | _ => (5, 0x010B0404)

/-- The detection starts when AUTOBAUD is set on an enabled channel. -/
def State.canDetect (s : State) (ch : Nat) : State :=
  (s.setReg (CAN.AB_RESULT ch) 0x10000000).setCan ch { s.can ch with abSince := s.tb.up }

/-- CAN_AUTOBAUD_NOMINAL_DETECTED (R412): the channel stays listen-only afterwards. -/
def execCanAutobaudNominalDetected (ch : Fin 2) (r : Fin 5) (s : State) : Host.Outcome State Fault Refusal :=
  if s.regFld (CAN.AB_RESULT ch.val) 31 28 = 1 ∧ s.regBit (CAN.AB_CFG ch.val) r.val then
    let n := nominalRate r.val
    .next (((((s.setReg (CAN.NBT ch.val) n.2).setReg (CAN.AB_RESULT ch.val) (BitVec.ofNat 32 (0x20000000 + n.1))).putRegBit
      (CAN.CTRL ch.val) 29 true).putRegBit (CAN.ALARM ch.val) 4 true).raise (canEvent ch.val 4) ch.val)
  else .next s

/-- CAN_AUTOBAUD_DATA_DETECTED (R412): on the first FD frame with BRS after the nominal rate. -/
def execCanAutobaudDataDetected (ch : Fin 2) (r : Fin 4) (s : State) : Host.Outcome State Fault Refusal :=
  if s.regFld (CAN.AB_RESULT ch.val) 31 28 = 2 ∧ s.regFld (CAN.AB_RESULT ch.val) 27 24 = 0 ∧ s.regBit (CAN.CTRL ch.val) 27 then
    let n := dataRate r.val
    let s1 := (s.setReg (CAN.DBT ch.val) n.2).putReg (CAN.AB_RESULT ch.val) 27 24 n.1
    let s2 := if 2 ≤ n.1 then s1.putRegBit (CAN.TDC ch.val) 31 true else s1
    .next ((s2.putRegBit (CAN.ALARM ch.val) 4 true).raise (canEvent ch.val 4) ch.val)
  else .next s

/-- CAN_AUTOBAUD_TIMEOUT (R412). -/
def execCanAutobaudTimeout (ch : Fin 2) (s : State) : Host.Outcome State Fault Refusal :=
  if s.regFld (CAN.AB_RESULT ch.val) 31 28 = 1 then
    let s1 := s.advanceUp ((s.can ch.val).abSince + s.regFld (CAN.AB_CFG ch.val) 31 16 * secUnits)
    .next (((s1.setReg (CAN.AB_RESULT ch.val) 0x30000000).putRegBit (CAN.ALARM ch.val) 5 true).raise (canEvent ch.val 5) ch.val)
  else .next s

/-- The effect of CAN.CLEAR (Table CN-5). -/
def State.canClear (s : State) (ch : Nat) : State :=
  s.zeroRegs ([CAN.RX_COUNT ch, CAN.TX_COUNT ch, CAN.UNMATCHED ch, CAN.OVERRUN ch] ++ (List.range 6).map (CAN.ERR_COUNT ch)
    ++ [CAN.DATA_ERRORS ch, CAN.PASSIVE_COUNT ch, CAN.TX_REPLACED ch, CAN.LOCK_TIMEOUTS ch])

end Sys2Proof.Machine
end

