-- ==== Sys2Proof/Machine/Sessions.lean ====
section
/-!
DEFINITION. Sessions, session-free requests, notices, relays and the protocol's time limits (Command Packets, R319 to R346).
-/

namespace Sys2Proof.Machine

open Reg

/-! ### Session-free requests (R328) -/

/-- A session-free packet within the limits of R328, or one that gets no answer: counted, event 0x604E. -/
def State.admitFree (s : State) (path : Path) : State × Bool :=
  let recent := s.qcp.freeRecent.filter (fun r => s.tb.up < r.1 + 1000 * msUnits)
  if 10 ≤ recent.countP (fun r => r.2 = path.ip) ∨ 50 ≤ recent.length then
    (((s.updQcp fun q => { q with freeRecent := recent }).count fun c => { c with freeUnanswered := c.freeUnanswered + 1 }).raiseBlock 0x604E,
      false)
  else (s.updQcp fun q => { q with freeRecent := (s.tb.up, path.ip) :: recent }, true)

/-- A session-free request of session 0 (R328): the limits, check 7, and R323's refusal to relay. -/
def State.freeRequest (s : State) (p : Pkt) (op : Nat) (next : State → Requester → State) : State :=
  if s.committing then s else
  let rq : Requester := { session := 0, seq := p.seq, crc := p.crc, port := pathPort p.path }
  match (s.received (pathPort p.path)).admitFree p.path with
  | (s1, false) => s1
  | (s1, true) =>
    if p.pairId ≠ 0xFFFF#16 ∧ p.pairId ≠ s.pair.baseId then s1.sendReply op rq { status := .incompatible, reason := 1 }
    else if p.relay then (((s1.countStatus .badHeader).raiseBlock 0x6041)).sendReply op rq (refusal .badHeader)
    else next s1 rq

/-- A HELLO for this module (R315, Table QP-7): a unicast BEACON, at most 10 a second; none when another identity is wanted. -/
def State.answerHello (s : State) (path : Path) (wanted : Half) (ref : Nat) : State :=
  if wanted ≠ 0xFFFF#16 ∧ wanted ≠ s.pair.baseId then s
  else
    let recent := s.net.hellos.filter (fun t => s.tb.up < t + 1000 * msUnits)
    if 10 ≤ recent.length then
      (s.updNet fun n => { n with hellos := recent }).count fun c => { c with freeUnanswered := c.freeUnanswered + 1 }
    else (s.updNet fun n => { n with hellos := s.tb.up :: recent }).sendBeacon (pathPort path) ref

/-- HELLO (R315, R328). -/
def execHello (p : Pkt) (wanted : Half) (s : State) : Host.Outcome State Fault Refusal :=
  if p.session = 0#32 then .next (s.freeRequest p 0x00 fun t _ => t.answerHello p.path wanted p.seq.toNat)
  else .next (s.request p 0x00 0 false none fun t _ => (t.answerHello p.path wanted p.seq.toNat, none))

/-- A datagram discarded in silence by checks 1 or 3 (Table QP-4). -/
def State.discardSilently (s : State) (port : Nat) : State := ((s.received port).count fun c => { c with silent := c.silent + 1 }).raiseBlock 0x6041

/-- BEACON (R343): a packet with REPLY set is dropped in silence by check 3. -/
def execBeacon (s : State) : Host.Outcome State Fault Refusal := .next (if s.committing then s else s.discardSilently 2)

/-- The parameters of PING's reply: the time base and its quality at the reply (Table QP-7). -/
def pingReply (s : State) (payload : List Byte) : Reply :=
  { status := .done, fields := [secOf s.tb.now, (qualityNs s.tb.quality s.tb.now).toNat], payload := payload.map (·.toNat) }

/-- PING (R328): free in session 0, Viewer in a session; the payload of at most 64 bytes is echoed. -/
def execPing (p : Pkt) (payload : List Byte) (s : State) : Host.Outcome State Fault Refusal :=
  let bad : Option Reply := if 64 < payload.length then some (refusal .badParameter) else none
  if p.session = 0#32 then .next (s.freeRequest p 0x05 fun t rq => t.sendReply 0x05 rq (bad.getD (pingReply t payload)))
  else .next (s.request p 0x05 0 false bad fun t _ => (t, some (pingReply t payload)))

/-! ### Opening and closing (R329 to R332) -/

/-- Whether a key slot gives a role on a path (R330, Tables UP-4 and UP-7): present, not revoked, for sessions or the owner key, the role enrolled; the
commissioning key on P5 only, and Owner only from the slot that SEC.OWNER_SLOT names. -/
def slotAllows (s : State) (slot role : Nat) (path : Path) : Bool :=
  let k := s.reg (SEC.KEY_INFO slot)
  bit k 31 && !(bit k 30) && (bit k 24 || decide (slot = 1)) && decide (role ≤ fld k 29 28) && (decide (slot ≠ 15) || decide (path.kind = 1)) &&
    (decide (role ≠ 3) || decide (fld (s.view SEC.OWNER_SLOT) 3 0 = slot))

/-- A session number (R329): from a random one, the next that is neither 0 nor 0xFFFF_FFFF nor open. -/
def pickNumber (s : State) : Nat → Word → Word
  | 0, w => w
  | fuel + 1, w =>
    if w = 0#32 ∨ w = BitVec.allOnes 32 ∨ (s.session w).isSome then pickNumber s fuel (w + 1) else w

/-- The random words of a SESSION_OPEN reply: RB and SB (Table QP-6). -/
def keyWords (n : Nat) : List Nat := (List.range 24).map fun i => (Config.sessionKeyWord (n + 1 + i)).toNat

/-- A session opened (R329): its number and reply, event 0x6046 with slot and role in the snapshot. -/
def State.openSession (s : State) (path : Path) (slot role : Nat) (rq : Requester) : State :=
  let n := pickNumber s 12 (Config.sessionNumber s.freeCtr)
  let x : Session := { number := n, slot := slot, role := role, path := path, openedAt := s.tb.up, lastAt := s.tb.up
                       cursor := (s.evr.records.head?.map (·.index)).getD (s.evr.newest + 1) }
  let s1 := ({ s with freeCtr := s.freeCtr + 25 }.updQcp fun q => { q with sessions := q.sessions ++ [x] }).count fun c =>
    { c with opened := c.opened + 1 }
  (s1.raiseWith 0x6046 1 (n.toNat % 65536) [BitVec.ofNat 32 slot, BitVec.ofNat 32 role]).sendReply 0x02 rq
    (doneWith ([n.toNat] ++ keyWords s.freeCtr ++ [60, 480]))

/-- A refused SESSION_OPEN: event 0x6048 (R330). -/
def State.refuseOpen (s : State) (rq : Requester) (r : Reply) : State := ((s.countStatus r.status).raiseBlock 0x6048).sendReply 0x02 rq r

/-- SESSION_OPEN (R329, R330): `zero` holds bytes 2 to 3 and `ra` the point RA, which has to lie on the curve. -/
def execSessionOpen (p : Pkt) (slot role : Byte) (zero : Half) (ra : BitVec 512) (s : State) : Host.Outcome State Fault Refusal :=
  if p.session ≠ 0#32 then .next (s.request p 0x02 0 false none fun t rq => (t.raiseQcp 0x6048 rq.session, some (refusal .outOfSequence)))
  else
    .next (s.freeRequest p 0x02 fun t rq =>
      if 15 < slot.toNat then t.refuseOpen rq (refusal .badParameter 0 0)
      else if 3 < role.toNat then t.refuseOpen rq (refusal .badParameter 0 1)
      else if zero ≠ 0#16 then t.refuseOpen rq (refusal .badParameter 0 2)
      else if !(onCurve (highHalf ra) (lowHalf ra)) then t.refuseOpen rq (refusal .badParameter 0 4)
      else if !(slotAllows t slot.toNat role.toNat p.path) then t.refuseOpen rq (refusal .notAuthorized)
      else if 8 ≤ t.qcp.sessions.length then t.refuseOpen rq (refusal .busy)
      else t.openSession p.path slot.toNat role.toNat rq)

/-- The reply to a SESSION_CONFIRM that passed the receive checks (R330). -/
def State.confirmSession (s : State) (rq : Requester) (x : Session) (saOk : Bool) : State :=
  if x.confirmed then (s.answer 0x03 rq (refusal .outOfSequence)).raiseQcp 0x6048 rq.session
  else if saOk then (s.updSession rq.session fun y => { y with confirmed := true }).answer 0x03 rq done
  else (((s.countStatus .notAuthorized).raiseQcp 0x6048 rq.session).answer 0x03 rq (refusal .notAuthorized)).endSession rq.session

/-- SESSION_CONFIRM (R329, R330): `saOk` is what the check of SA found. -/
def execSessionConfirm (p : Pkt) (saOk : Bool) (s : State) : Host.Outcome State Fault Refusal :=
  .next (s.receive p 0x03 fun t rq x => t.confirmSession rq x saOk)

/-- SESSION_CLOSE (R332): DONE, then the session ends. -/
def execSessionClose (p : Pkt) (s : State) : Host.Outcome State Fault Refusal :=
  .next (s.request p 0x04 0 false none fun t rq => ((t.answer 0x04 rq done).endSession rq.session, none))

/-- The counters of QCP_STATS in the order of R346. -/
def statFields (c : QcpStats) : List Nat :=
  [c.received, c.sent, c.crcFailures, c.badHeader, c.unknownOpcode, c.macFailures, c.replayed, c.rateLimited, c.notAuthorized, c.silent,
    c.freeUnanswered, c.opened, c.endedByTimeout, c.noticesDropped, c.relayFailures, c.transfers]

/-- The entry of a session in QCP_STATS (R346). -/
def sessionFields (now : Nat) (x : Session) : List Nat :=
  [x.number.toNat, x.role, x.path.kind.val, (now - x.lastAt) / secUnits, x.path.ip.toNat, x.path.port.toNat, (recentOf x now).length]

/-- QCP_STATS (R346). -/
def execQcpStats (p : Pkt) (s : State) : Host.Outcome State Fault Refusal :=
  .next (s.request p 0x06 0 false none fun t _ =>
    (t, some { status := .done, fields := (statFields t.qcp.stats).map (· % 4294967296),
               payload := t.qcp.sessions.flatMap (sessionFields t.tb.up) }))

/-- NOTICE_ACK (R342): the notice is not sent again. It is never answered, so what its checks would have answered is not sent. -/
def execNoticeAck (p : Pkt) (n : Word) (s : State) : Host.Outcome State Fault Refusal :=
  let t := s.request p 0x07 0 false none fun t rq =>
    (t.updQcp fun q => { q with notices := q.notices.filter (fun x => !(decide (x.session = rq.session) && decide (x.count = n.toNat))) },
      none)
  .next (({ t with sent := s.sent }.updQcp fun q => { q with reply := none }).count fun c => { c with sent := s.qcp.stats.sent })

/-- Roles in which RESTART is accepted (R345). -/
def mayRestart (s : State) : Bool :=
  match s.role with
  | .active => false
  | .solo => decide (s.mode = .stop)
  | _ => true

/-- RESTART (R345): DONE, every session ends, and a warm restart follows at the next frame tick. -/
def execRestart (p : Pkt) (key : Half) (s : State) : Host.Outcome State Fault Refusal :=
  .next (s.request p 0x08 2 false (if key = 0x5253#16 then none else some (refusal .badParameter)) fun t rq =>
    if mayRestart t then (((t.answer 0x08 rq done).endAllSessions).updFrame fun f => { f with restartDue := true }, none)
    else (t, some (refusal .wrongState)))

/-! ### Time limits -/

/-- A session ended by a time limit at up-time `due`. -/
def State.timeOut (s : State) (n : Word) (due : Nat) : State :=
  ((s.advanceUp due).count fun c => { c with endedByTimeout := c.endedByTimeout + 1 }).endSession n

/-- SESSION_IDLE_TIMEOUT (R332): 60 s without an accepted request. -/
def execSessionIdleTimeout (n : Word) (s : State) : Host.Outcome State Fault Refusal :=
  match s.session n with
  | none => .next s
  | some x => .next (s.timeOut n (x.lastAt + 60 * secUnits))

/-- SESSION_LIFETIME_EXPIRY (R332): 480 min after SESSION_OPEN. -/
def execSessionLifetimeExpiry (n : Word) (s : State) : Host.Outcome State Fault Refusal :=
  match s.session n with
  | none => .next s
  | some x => .next (s.timeOut n (x.openedAt + 28800 * secUnits))

/-- SESSION_CONFIRM_TIMEOUT (R330): 5 s after the SESSION_OPEN reply without confirmation. -/
def execSessionConfirmTimeout (n : Word) (s : State) : Host.Outcome State Fault Refusal :=
  match s.session n with
  | none => .next s
  | some x => if x.confirmed then .next s else .next (s.timeOut n (x.openedAt + 5 * secUnits))

/-- MAC_FAILURE_LIMIT (R332): 16 MAC failures within 1 s end the session, event 0x6049. -/
def execMacFailureLimit (n : Word) (s : State) : Host.Outcome State Fault Refusal :=
  match s.session n with
  | none => .next s
  | some x =>
    if 16 ≤ (x.macFails.filter (fun t => s.tb.up < t + 1000 * msUnits)).length then
      .next (((s.count fun c => { c with endedByTimeout := c.endedByTimeout + 1 }).raiseQcp 0x6049 n).endSession n)
    else .next s

/-- When a notice is sent again after its first send, in ms (R342). -/
def resendMs (n : Nat) : Nat :=
  match n with
  | 0 => 100
  | 1 => 300
  | 2 => 700
  | _ => 1500

/-- NOTICE_RESEND (R342): an unacknowledged notice is sent again at 100, 300, 700 and 1,500 ms; after the last it is dropped with event
0x604C. -/
def execNoticeResend (n : Word) (count : Word) (s : State) : Host.Outcome State Fault Refusal :=
  match s.qcp.notices.find? (fun x => decide (x.session = n) && decide (x.count = count.toNat)) with
  | none => .next s
  | some x =>
    let t := s.advanceUp (x.sentAt + resendMs x.resends * msUnits)
    let s1 := (t.updQcp fun q =>
      { q with notices := q.notices.map (fun y => if y = x then { y with resends := y.resends + 1 } else y) }).sendNotice x
    if x.resends < 3 then .next s1
    else
      .next (((s1.updQcp fun q => { q with notices := q.notices.filter (fun y => !(decide (y.session = n) && decide (y.count = count.toNat))) }).count
        fun c => { c with noticesDropped := c.noticesDropped + 1 }).raiseQcp 0x604C n)

/-- The relayed request of a session and sequence that awaits its reply. -/
def relayOf (s : State) (n seq : Word) : Option Relay :=
  s.qcp.relays.find? (fun r => decide (r.by_.session = n) && decide (r.by_.seq = seq))

/-- A relayed request no longer awaited. -/
def State.dropRelay (s : State) (r : Relay) : State := s.updQcp fun q => { q with relays := q.relays.filter (fun x => x ≠ r) }

/-- RELAY_REPLY (R323): the partner's reply goes to the client. -/
def execRelayReply (n seq : Word) (status : Status) (reason : Byte) (detail : Word) (fields payload : List Word) (s : State) :
    Host.Outcome State Fault Refusal :=
  match relayOf s n seq with
  | none => .next s
  | some r =>
    .next ((s.dropRelay r).lateAnswer r.opcode (some r.by_)
      { status := status, reason := reason.toNat, detail := detail.toNat, fields := fields.map (·.toNat), payload := payload.map (·.toNat) } true)

/-- RELAY_TIMEOUT (R323): no reply within 10 ms: WRONG_STATE with reason 2, event 0x604F. -/
def execRelayTimeout (n seq : Word) (s : State) : Host.Outcome State Fault Refusal :=
  match relayOf s n seq with
  | none => .next s
  | some r =>
    .next (((((s.advanceUp (r.sentAt + 10 * msUnits)).dropRelay r).count fun c => { c with relayFailures := c.relayFailures + 1 }).raiseQcp
      0x604F n).lateAnswer r.opcode (some r.by_) (refusal .wrongState 2))

/-- HANDLE_IDLE_TIMEOUT (R339): a handle idle for 60 s is closed. -/
def execHandleIdleTimeout (id : Word) (s : State) : Host.Outcome State Fault Refusal :=
  match s.qcp.handles.find? (fun h => h.id = id.toNat) with
  | none => .next s
  | some h => .next ((s.advanceUp (h.lastAt + 60 * secUnits)).dropHandle h false)

/-- WINDOW_CLAIM_TIMEOUT (R348): 10 s without an access by the claiming session. -/
def execWindowClaimTimeout (w : WindowId) (s : State) : Host.Outcome State Fault Refusal :=
  match s.qcp.claims.find? (fun c => c.1 = w) with
  | none => .next s
  | some c => .next ((s.advanceUp (c.2.2 + 10 * secUnits)).releaseWindow w)

/-! ### Malformed packets (Table QP-4, checks 1 to 6 and 13) -/

/-- The opcodes that a request may have (Table QP-7). -/
def definedOpcodes : List Nat :=
  [0x00, 0x02, 0x03, 0x04, 0x05, 0x06, 0x07, 0x08, 0x10, 0x11, 0x12, 0x13, 0x20, 0x21, 0x22, 0x23, 0x24, 0x25, 0x30, 0x31, 0x32, 0x40, 0x41, 0x42, 0x50,
    0x51, 0x52, 0x53, 0x54, 0x55, 0x60, 0x61, 0x62, 0x70, 0x71, 0x72, 0x73, 0x74, 0x80, 0x81, 0x82, 0x83, 0x90, 0x91, 0x92]

/-- A field of a datagram: `n` bytes from byte `i`, big-endian (R321). -/
def packetField (bs : List Byte) (i n : Nat) : Nat := beNat ((bs.drop i).take n)

/-- FLAGS of a datagram (Table QP-3). -/
def packetFlag (bs : List Byte) (i : Nat) : Bool := (packetField bs 6 2).testBit i

/-- The first of checks 1 to 6 and 13 of Table QP-4 that a datagram fails. -/
def packetFault (bs : List Byte) (fragment : Bool) : Option MalformedPacket :=
  let n := bs.length
  if n < 36 ∨ 1468 < n then some .length
  else if fragment then some .fragment
  else if crc32c (bs.take (n - 4)) ≠ BitVec.ofNat 32 (packetField bs (n - 4) 4) then some .crc
  else if packetField bs 0 4 ≠ 0x51435031 ∨ packetFlag bs 0 then some .magic
  else if packetField bs 4 1 ≠ 1 then some .version
  else if packetField bs 6 2 / 1024 ≠ 0 ∨ packetFlag bs 3 ∨ packetFlag bs 4 ∨ packetField bs 20 1 ≠ 0 ∨ packetField bs 24 8 ≠ 0 then some .header
  else if n ≠ 36 + packetField bs 16 2 + packetField bs 18 2 + 32 * b2n (packetFlag bs 2) ∨ 1400 < packetField bs 16 2 + packetField bs 18 2 then
    some .lengths
  else if (packetField bs 5 1) ∉ definedOpcodes then some .opcode
  else none

/-- The envelope of a datagram (Table QP-2), with what the check of its MAC found. -/
def packetEnvelope (path : Path) (bs : List Byte) (mac : MacCheck) : Pkt :=
  { path := path, session := BitVec.ofNat 32 (packetField bs 8 4), seq := BitVec.ofNat 32 (packetField bs 12 4),
    crc := BitVec.ofNat 32 (packetField bs (bs.length - 4) 4), pairId := BitVec.ofNat 16 (packetField bs 22 2),
    mac := if packetFlag bs 2 then mac else .absent, relay := packetFlag bs 8 }

/-- A datagram that fails checks 1 to 3: silence, with its count and event. -/
def State.dropSilently (s : State) (port : Nat) (f : MalformedPacket) : State :=
  match f with
  | .crc => ((s.received port).count fun c => { c with crcFailures := c.crcFailures + 1 }).raiseBlock 0x6040
  | _ => s.discardSilently port

/-- A datagram that fails checks 4 to 6: answered, without a session. -/
def State.answerMalformed (s : State) (op : Nat) (rq : Requester) (r : Reply) : State :=
  (((s.received rq.port).countStatus r.status).raiseQcp 0x6041 rq.session).sendReply op rq r

/-- MALFORMED_PACKET (R320, R324): a datagram to port 23880 by its bytes, `fragment` when it is an IPv4 fragment, `mac` as its MAC is found. It is dropped
or answered at the first of checks 1 to 6 that it fails, or as an opcode that is not defined (check 13, after checks 7 to 12); one that fails none of these
is no malformed packet and comes as its own command. -/
def execMalformedPacket (path : Path) (bytes : List Byte) (fragment : Bool) (mac : MacCheck) (s : State) : Host.Outcome State Fault Refusal :=
  if s.committing then .next s else
  let p := packetEnvelope path bytes mac
  let op := packetField bytes 5 1
  let rq : Requester := { session := p.session, seq := p.seq, crc := p.crc, port := pathPort path }
  match packetFault bytes fragment with
  | none => .next s
  | some .version => .next (s.answerMalformed op rq { status := .badHeader, fields := [1, 1] })
  | some .header => .next (s.answerMalformed op rq (refusal .badHeader))
  | some .lengths => .next (s.answerMalformed op rq (refusal .badLength))
  | some .opcode => .next (s.receive p op fun t q _ => t.refuse op q (refusal .unknownOpcode) (some 0x6041))
  | some f => .next (s.dropSilently rq.port f)

end Sys2Proof.Machine
end

