-- ==== Sys2Proof/Machine/EventLog.lean ====
section
/-!
DEFINITION. Recording, reading and clearing the event log (Event Recorder, R443 to R460).
-/

namespace Sys2Proof.Machine

open Reg

/-- The recorder changed by `f`. -/
def State.updEvr (s : State) (f : Recorder → Recorder) : State := { s with evr := f s.evr }

/-- Records the log holds at most (R453). -/
def logSize : Nat := 16384

/-- Frame ticks in one second (R450, R453). -/
def tickSecond : Nat := 100000

/-! ### The record as bytes (Table EV-1) -/

/-- A 16-bit field, big-endian. -/
def halfBytes (n : Nat) : List Byte := [BitVec.ofNat 8 (n / 256), BitVec.ofNat 8 n]

/-- A 64-bit field, big-endian. -/
def dwordBytes (n : Nat) : List Byte := wordBytes (BitVec.ofNat 32 (n / 4294967296)) ++ wordBytes (BitVec.ofNat 32 n)

/-- Bytes 0 to 123 of a record. -/
def recordHead (r : EventRecord) : List Byte :=
  halfBytes r.code.toNat
    ++ [BitVec.ofNat 8 (r.severity * 32 + b2n r.timeValid * 16 + b2n r.partner * 8 + b2n r.repeatSat * 4 + b2n r.powerLoss * 2),
        BitVec.ofNat 8 (r.role * 16 + r.mode)]
    ++ halfBytes r.source.toNat ++ halfBytes r.repeats ++ wordBytes (BitVec.ofNat 32 r.index) ++ wordBytes r.opSec
    ++ wordBytes r.powerCycles ++ dwordBytes r.firstSec ++ wordBytes (BitVec.ofNat 32 (r.firstQuality * 1073741824 + r.firstNs))
    ++ wordBytes (BitVec.ofNat 32 r.lastDsec) ++ wordBytes (BitVec.ofNat 32 (r.lastQuality * 1073741824 + r.lastNs))
    ++ [BitVec.ofNat 8 r.snapList, BitVec.ofNat 8 r.snap.length, BitVec.ofNat 8 r.snapGen, 0#8]
    ++ (r.snap ++ List.replicate (16 - r.snap.length) 0#32).flatMap wordBytes ++ wordBytes r.lastOpSec
    ++ wordBytes (BitVec.ofNat 32 r.originIndex) ++ List.replicate 8 0#8

/-- The 128 bytes of a record, with its CRC-32C. -/
def recordBytes (r : EventRecord) : List Byte := recordHead r ++ wordBytes (crc32c (recordHead r))

/-- Word `w` of a record's copy: byte 4w stands in [31:24] (R458). -/
def recordWord (r : EventRecord) (w : Nat) : Word := BitVec.ofNat 32 (beNat (((recordBytes r).drop (4 * w)).take 4))

/-! ### Recording (R450 to R453) -/

/-- The held record with the lowest INDEX at or above `v` (R457). -/
def recordFrom (s : State) (v : Nat) : Option EventRecord := s.evr.records.find? (fun r => decide (v ≤ r.index))

/-- A cursor set to the lowest held INDEX at or above `v`, else at end (R457). -/
def cursorAt (s : State) (v : Nat) : Nat := ((recordFrom s v).map (·.index)).getD (s.evr.newest + 1)

/-- A record put into the log as the newest one; the window at end takes its copy, and a fatal one sets FATAL (R458, R459). -/
def State.addRecord (s : State) (r : EventRecord) : State :=
  s.updEvr fun e =>
    { e with
      records := e.records ++ [r]
      newest := r.index
      winCopy := if e.winCopy.isNone ∧ e.winCursor = r.index then some r else e.winCopy
      alarm := (if r.severity = 4 then e.alarm ||| 16#32 else e.alarm) ||| (if e.records.length + 1 = logSize then 1#32 else 0#32) }

/-- The field of EVR.LOSS_SEV for a severity (Table EV-4). -/
def lossField (severity : Nat) : Nat × Nat :=
  match severity with
  | 4 => (31, 24)
  | 3 => (23, 16)
  | 2 => (15, 8)
  | _ => (7, 0)

/-- A record dropped (R453): counted; 0x7C02 at most once a second. -/
def State.dropRecord (s : State) (severity : Nat) : State :=
  let due : Bool := match s.evr.dropAt with
    | some t => decide (t + tickSecond ≤ s.evr.ticks)
    | none => true
  let s1 := s.updEvr fun e =>
    { e with
      loss := satInc e.loss
      lossSev := satIncFld e.lossSev (lossField severity).1 (lossField severity).2
      alarm := e.alarm ||| 2#32
      dropAt := if due then some e.ticks else e.dropAt }
  if due then s1.raiseBlock 0x7C02 else s1

/-- A new record, with room or by overwriting (R453); whether it was made. -/
def State.makeRecord (s : State) (r : EventRecord) : State × Bool :=
  if s.evr.records.length < logSize then (s.addRecord r, true)
  else
    match s.evr.records.find? (fun x => decide (x.severity ≤ r.severity) && decide (x.severity ≠ 4)) with
    | some x =>
      ((s.updEvr fun e => { e with records := e.records.filter (fun y => y.index ≠ x.index), overwritten := e.overwritten + 1 }).addRecord r, true)
    | none => (s.dropRecord r.severity, false)

/-- The record of an event (R444, R447). -/
def eventRecordOf (s : State) (e : RaisedEvent) : EventRecord :=
  let valid := decide (e.quality ≠ .unset)
  { index := s.evr.newest + 1, code := e.code, severity := e.severity, timeValid := valid, partner := false, repeatSat := false
    powerLoss := e.powerLoss, role := e.role.code, mode := e.mode.code, source := e.source, repeats := 1, opSec := e.opSec
    powerCycles := e.powerCycles, firstSec := if valid then e.sec else 0, firstNs := e.ns, firstQuality := e.quality.code, lastDsec := 0
    lastNs := e.ns, lastQuality := e.quality.code, snapList := e.snapList, snapGen := e.snapGen, snap := e.snap, lastOpSec := e.opSec
    originIndex := 0 }

/-- The record an event folds into (R451). -/
def foldTarget (s : State) (e : RaisedEvent) : Option EventRecord :=
  let win := s.regFld EVR.CFG 31 16
  match s.evr.foldable with
  | none => none
  | some (i, t) =>
    if e.pleated ∧ win ≠ 0 ∧ e.tick ≤ t + 100 * win then
      s.evr.records.find? (fun r => decide (r.index = i) && decide (r.code = e.code) && decide (r.source = e.source))
    else none

/-- A record with one more occurrence (R451, R452). -/
def folded (r : EventRecord) (e : RaisedEvent) : EventRecord :=
  { r with
    repeats := if r.repeats = 65535 then 65535 else r.repeats + 1
    repeatSat := r.repeatSat || decide (r.repeats = 65535)
    lastDsec := if r.timeValid then satTo 0xFFFFFFFF (e.sec - r.firstSec) else 0
    lastNs := e.ns
    lastQuality := e.quality.code
    lastOpSec := e.opSec }

/-- An own record forwarded to the partner (R456): its fields as Table EV-1 orders them. -/
def State.forwardRecord (s : State) (r : EventRecord) : State :=
  if s.regFld EVR.CFG 10 8 ≤ r.severity ∧ s.pair.tandem.up then s.send .partnerRecord ((recordBytes r).map (·.toNat)) else s

/-- An event taken from the queue: folded, or made into a record (R451 to R453, R456). -/
def State.recordEvent (s : State) (e : RaisedEvent) : State :=
  match foldTarget s e with
  | some r =>
    s.updEvr fun x =>
      { x with
        records := x.records.map (fun y => if y.index = r.index then folded y e else y)
        folded := x.folded + 1
        foldable := some (r.index, e.tick) }
  | none =>
    let r := eventRecordOf s e
    match s.makeRecord r with
    | (s1, true) => (s1.updEvr fun x => { x with foldable := some (r.index, e.tick) }).forwardRecord r
    | (s1, false) => s1

/-- EVENT_RAISED (R450): an event of a subsystem enters the intake with its snapshot. -/
def execEventRaised (code source : Half) (s : State) : Host.Outcome State Fault Refusal := .next (s.raise code.toNat source.toNat)

/-- EVENT_RECORDED (R451): the oldest event of the queue. -/
def execEventRecorded (s : State) : Host.Outcome State Fault Refusal :=
  match s.evr.intake with
  | [] => .next s
  | e :: rest => .next ((s.updEvr fun x => { x with intake := rest }).recordEvent e)

/-- INTAKE_OVERFLOW_REPORT (R450): 0x7C04 once the queue has room again, at most once a second. -/
def execIntakeOverflowReport (s : State) : Host.Outcome State Fault Refusal :=
  let again : Bool := match s.evr.overflowAt with
    | some t => decide (t + tickSecond ≤ s.evr.ticks)
    | none => true
  if s.evr.overflowDue ∧ s.evr.intake.length < 512 ∧ again then
    .next ((s.updEvr fun x => { x with overflowDue := false, overflowAt := some x.ticks }).raiseBlock 0x7C04)
  else .next s

/-- PARTNER_RECORD_RECEIVED (R456): a copy with an own INDEX, the sender's in ORIGIN_INDEX. -/
def execPartnerRecordReceived (r : EventRecord) (s : State) : Host.Outcome State Fault Refusal :=
  .next (s.makeRecord { r with index := s.evr.newest + 1, partner := true, originIndex := r.index }).1

/-! ### Reading through a session (R457) -/

/-- The parameters of EVR_CURSOR's reply. -/
def cursorReply (s : State) (c : Nat) : Reply := doneWith [c, s.evr.records.length, s.evr.loss.toNat]

/-- EVR_CURSOR with a new cursor, or a report (R457). -/
def setCursor (f : State → Session → Nat) (p : Pkt) (s : State) : State :=
  s.request p 0x60 0 false none fun t rq =>
    match t.session rq.session with
    | none => (t, some done)
    | some x =>
      let c := f t x
      (t.updSession rq.session fun y => { y with cursor := c }, some (cursorReply t c))

/-- EVR_CURSOR, mode 0. -/
def execEvrCursorReport (p : Pkt) (s : State) : Host.Outcome State Fault Refusal := .next (setCursor (fun t x => cursorAt t x.cursor) p s)

/-- EVR_CURSOR, mode 1. -/
def execEvrCursorOldest (p : Pkt) (s : State) : Host.Outcome State Fault Refusal := .next (setCursor (fun t _ => cursorAt t 0) p s)

/-- EVR_CURSOR, mode 2. -/
def execEvrCursorNewest (p : Pkt) (s : State) : Host.Outcome State Fault Refusal :=
  .next (setCursor (fun t _ => (t.evr.records.getLast?.map (·.index)).getD (t.evr.newest + 1)) p s)

/-- EVR_CURSOR, mode 3. -/
def execEvrCursorSet (p : Pkt) (v : Word) (s : State) : Host.Outcome State Fault Refusal :=
  .next (setCursor (fun t _ => cursorAt t v.toNat) p s)

/-- EVR_READ (R457): up to ten records from the cursor, which moves past the last one. -/
def execEvrRead (p : Pkt) (count : Byte) (s : State) : Host.Outcome State Fault Refusal :=
  let bad : Option Reply := if 1 ≤ count.toNat ∧ count.toNat ≤ 10 then none else some (refusal .badParameter)
  .next (s.request p 0x61 0 false bad fun t rq =>
    match t.session rq.session with
    | none => (t, some done)
    | some x =>
      let rs := (t.evr.records.filter (fun r => decide (x.cursor ≤ r.index))).take count.toNat
      let c := match rs.getLast? with
        | some r => r.index + 1
        | none => x.cursor
      (t.updSession rq.session fun y => { y with cursor := c },
        some { status := .done, payload := (rs.flatMap recordBytes).map (·.toNat) }))

/-! ### The register window (R458) -/

/-- A write of EVR.CURSOR. -/
def State.setWinCursor (s : State) (v : Nat) : State :=
  s.updEvr fun e => { e with winCursor := cursorAt s v, winCopy := recordFrom s v }

/-- What a read of EVR.WIN_DATA returns. -/
def winData (s : State) : Word := ((s.evr.winCopy).map (fun r => recordWord r s.evr.winPtr)).getD 0

/-- The effect of a read of EVR.WIN_DATA. -/
def State.advanceWindow (s : State) : State :=
  match s.evr.winCopy with
  | none => s
  | some r =>
    if s.evr.winPtr < 31 then s.updEvr fun e => { e with winPtr := e.winPtr + 1 }
    else (s.setWinCursor (r.index + 1)).updEvr fun e => { e with winPtr := 0 }

/-! ### Clearing (R459, R460) -/

/-- The fatal records are acknowledged (R459). -/
def State.ackFatal (s : State) : State := s.updEvr fun e => { e with alarm := e.alarm &&& ~~~16#32, ackIndex := e.newest }

/-- A write to EVR.CLEAR (R459, Table EV-4). -/
def State.evrClear (s : State) : State := s.updEvr fun e => { e with alarm := 0, ackIndex := e.newest, intakeMax := 0 }

/-- The owner clear (R460): every record and the six counters; 0x7C01 with the counters in its snapshot; every cursor at end. -/
def State.ownerClear (s : State) : State :=
  let e := s.evr
  let s1 := s.updEvr fun x =>
    { x with
      records := [], intake := [], loss := 0, lossSev := 0, intakeLost := 0, overwritten := 0, folded := 0, discarded := 0
      foldable := none, alarm := x.alarm &&& ~~~16#32, ackIndex := x.newest, winCursor := x.newest + 1, winCopy := none }
  let s2 := s1.updQcp fun q => { q with sessions := q.sessions.map (fun x => { x with cursor := e.newest + 1 }) }
  s2.raiseWith 0x7C01 2 0xFFFF [e.loss, e.lossSev, e.intakeLost, e.overwritten, e.folded, e.discarded]

/-- EVR_CLEAR (R460). -/
def execEvrClear (p : Pkt) (key : Half) (s : State) : Host.Outcome State Fault Refusal :=
  .next (s.request p 0x62 3 false (if key = 0x4543#16 then none else some (refusal .badParameter)) fun t _ => (t.ownerClear, some done))

/-- The staged words of snapshot list `n`. -/
def stagedList (s : State) (n : Nat) : List Word := (List.range 10).map fun w => s.winStaged .snap n w

/-- A commit of a snapshot list (R449): refused for a count above 16 or an address that is not implemented; else in force with the next
generation, event 0x7C05. -/
def State.commitSnap (s : State) (n : Nat) : State × Status :=
  let ws := stagedList s n
  let count := fld (ws.getD 1 0) 28 24
  let addrs := (List.range count).map fun k =>
    if k % 2 = 0 then fld (ws.getD (2 + k / 2) 0) 31 16 else fld (ws.getD (2 + k / 2) 0) 15 0
  if 16 < count ∨ !(addrs.all implemented) then (s, .badParameter)
  else
    let gen := (s.winFld .snap n 1 23 16 + 1) % 256
    let s1 := (List.range 10).foldl (fun t w => t.setWin .snap n w (if w = 1 then putFld (ws.getD 1 0) 23 16 gen else ws.getD w 0)) s
    ((s1.dropStaged .snap n).raiseBlock 0x7C05, .done)

end Sys2Proof.Machine
end

