-- ==== Sys2Proof/Machine/Memory.lean ====
section
/-!
DEFINITION. The fabric address space (R418): bytes of memory, and the register blocks as they stand in it. Memory that nothing has written
reads as 0 (notes/assumptions/64.md).
-/

namespace Sys2Proof.Machine

/-- The canonical form of memory: addresses strictly rising, no byte equal to what an unlisted address reads as. -/
def Memory.wf (m : List Host.Cell) : Bool := sparseWf (fun _ => 0#8) m

/-- A byte of memory. -/
def memRead (m : List Host.Cell) (a : Nat) : Byte := sparseGet 0#8 m a

/-- A byte of memory written. -/
def memWrite (m : List Host.Cell) (a : Nat) (b : Byte) : List Host.Cell := sparseSet 0#8 m a b

/-- First fabric address of the register blocks (R540). -/
def registerBase : Nat := 0xD8000000

/-- The register that a fabric address lies in (R540), if it lies in a register block. -/
def registerAt (a : Nat) : Option Nat :=
  if registerBase ≤ a ∧ implemented ((a - registerBase) / 4) then some ((a - registerBase) / 4) else none

/-- A byte as the fabric reads it: memory, or a register's byte, big-endian (R5). -/
def State.fabricByte (s : State) (a : Nat) : Byte :=
  match registerAt a with
  | some r => BitVec.ofNat 8 ((s.view r).toNat / 256 ^ (3 - a % 4))
  | none => memRead s.fab.mem a

end Sys2Proof.Machine
end

