-- ==== Sys2Proof/Machine/Fabric.lean ====
section
/-!
DEFINITION. Collars, the fence, DMA and cuffs (DMA, Collars and Cuffs, R418 to R442).
-/

namespace Sys2Proof.Machine

open Reg

/-- The fabric part of the state changed by `f`. -/
def State.updFab (s : State) (f : Fabric → Fabric) : State := { s with fab := f s.fab }

/-! ### Targets and judgement (R418 to R423) -/

/-- The collar of a register block (Table CH-9). -/
def blockCollar (b : Nat) : Option Nat :=
  if b ≤ 0x05 then some 13
  else if 0x10 ≤ b ∧ b ≤ 0x12 then some 14
  else if 0x20 ≤ b ∧ b ≤ 0x22 then some 15
  else if 0x30 ≤ b ∧ b ≤ 0x38 then some 16
  else if b = 0x40 ∨ b = 0x41 then some 17
  else if b = 0x48 then some 18
  else if b = 0x50 ∨ b = 0x58 ∨ b = 0x59 then some 19
  else if b = 0x60 ∨ b = 0x61 then some 20
  else if b = 0x68 ∨ b = 0x69 then some 21
  else if b = 0x70 ∨ b = 0x78 ∨ b = 0x79 then some 22
  else if b = 0x7C ∨ b = 0x7E ∨ b = 0x7F then some 23
  else none

/-- The ranges of collars 0 to 12 (Table FB-1). -/
def collarRange (n : Nat) : Nat × Nat :=
  match n with
  | 0 => (0x00000000, 0xBFFFFFFF)
  | 1 => (0xC0000000, 0xC0FFFFFF)
  | 2 => (0xC1000000, 0xC1FFFFFF)
  | 3 => (0xC2000000, 0xC200FFFF)
  | 4 => (0xC3000000, 0xC3FFFFFF)
  | 5 => (0xC4000000, 0xC40FFFFF)
  | 6 => (0xC5000000, 0xC53FFFFF)
  | 7 => (0xC6000000, 0xC61FFFFF)
  | 8 => (0xC7000000, 0xC71FFFFF)
  | 9 => (0xC8000000, 0xC800FFFF)
  | 10 => (0xC9000000, 0xC90FFFFF)
  | 11 => (0xCA000000, 0xCA0FFFFF)
  | _ => (0xCB000000, 0xCB03FFFF)

/-- The collar of a fabric address, none for an unmapped one (R418). -/
def collarOf (a : Nat) : Option Nat :=
  if registerBase ≤ a then blockCollar ((a - registerBase) / 1024)
  else (List.range 13).find? fun n => decide ((collarRange n).1 ≤ a ∧ a ≤ (collarRange n).2)

/-- The access kinds a collar's default map grants (Table FB-1): 1 read, 2 write, 4 fetch. -/
def defaultMap (n : Nat) : Nat :=
  match n with
  | 0 => 7
  | 3 => 0
  | 12 => 5
  | _ => 3

/-- An address lies in a locked region (Table FB-3), and whether the access is admitted there. -/
def lockedRegion (a : Nat) (master : Nat) (priv : Bool) (kind : Nat) : Option Bool :=
  if 0xC2000000 ≤ a ∧ a ≤ 0xC200FFFF then some (decide (master = 0x0C) && decide (kind ≤ 2))
  else if 0xC1000000 ≤ a ∧ a ≤ 0xC17FFFFF then
    some ((decide (master = 2) && priv && decide (kind ≤ 2)) || (decide (master = 0x0C) && decide (kind = 1)))
  else if 0xC0FFF000 ≤ a ∧ a ≤ 0xC0FFFFFF then some (decide (master = 2) && priv && decide (kind ≤ 2))
  else none

/-- A debug certificate is in force: enrolled and not past its not-after (R480). -/
def certInForce (s : State) : Bool := s.trust.cert.any fun c => decide (secOf s.tb.now ≤ c.2)

/-- The privilege an access carries (R419). -/
def privilege (s : State) (x : Access) : Bool :=
  let m := x.master.toNat
  if m ≤ 2 then x.privileged
  else if 0x10 ≤ m ∧ m ≤ 0x1F then bit (s.dma (m - 0x10)).ctrl 27
  else if m = 0x0D then certInForce s
  else true

/-- Rule `r` of collar `n` is enabled and matches (R420, Table FB-8). -/
def ruleMatches (s : State) (n r : Nat) (x : Access) (priv : Bool) : Bool :=
  let w := s.rule n r 0
  let p := fld w 30 29
  bit w 31 && (decide (p = 0) || (decide (p = 1) && priv) || (decide (p = 2) && !priv)) &&
    decide ((x.master ^^^ BitVec.ofNat 6 (fld w 21 16)) &&& BitVec.ofNat 6 (fld w 13 8) = 0#6) &&
    decide (fld (s.rule n r 1) 31 10 ≤ x.address.toNat / 1024) && decide (x.address.toNat / 1024 ≤ fld (s.rule n r 2) 31 10)

/-- A rule grants an access kind. -/
def ruleGrants (s : State) (n r : Nat) (kind : Nat) : Bool :=
  let w := s.rule n r 0
  if kind = 1 then bit w 28 else if kind = 2 then bit w 27 else bit w 26

/-- What judges an access: the rule (0x10 default map, 0x11 locked region, 0x12 unmapped address) and whether it passes (R420). -/
def judge (s : State) (x : Access) : Nat × Bool :=
  let priv := privilege s x
  let kind := x.kind.toNat
  match collarOf x.address.toNat with
  | none => (0x12, false)
  | some n =>
    match lockedRegion x.address.toNat x.master.toNat priv kind with
    | some ok => (0x11, ok)
    | none =>
      match (List.range 16).find? (fun r => ruleMatches s n r x priv) with
      | some r => (r, ruleGrants s n r kind)
      | none => (0x10, priv && decide (defaultMap n &&& kind ≠ 0))

/-- The attributes of a collar's default map (Table FB-1): cacheable, and the order. -/
def defaultAttributes (n : Nat) : Bool × Nat :=
  if n = 0 ∨ n = 12 then (true, 0) else if n = 5 ∨ n = 9 ∨ n = 10 ∨ 13 ≤ n then (false, 2) else (false, 1)

/-- The attributes that the deciding rule delivers with an access (R422, Table FB-8); the default map's where a locked region or no rule decides. -/
def attributesOf (s : State) (n r : Nat) : Bool × Nat :=
  if r < 16 then (bit (s.rule n r 0) 25, fld (s.rule n r 0) 24 23) else defaultAttributes n

/-- What an access gets from the collar that judges it (R420 to R422): a read that passes its word, a faulting one 0. -/
def passageOf (s : State) (x : Access) : Passage :=
  let j := judge s x
  let n := (collarOf x.address.toNat).getD 0x1F
  let word := BitVec.ofNat 32 (beNat ((List.range 4).map fun i => s.fabricByte (x.address.toNat / 4 * 4 + i)))
  { access := x, rule := j.1, passed := j.2, cacheable := (attributesOf s n j.1).1, order := (attributesOf s n j.1).2
    value := if j.2 ∧ x.kind ≠ 2 then word else 0 }

/-! ### DMA (R428 to R432) -/

/-- A DMA channel replaced. -/
def State.setDma (s : State) (c : Nat) (x : DmaChannel) : State :=
  s.updFab fun f => { f with channels := sparseSet {} f.channels c x }

/-- The sleeve moves into the active set and the transfer starts (R428). -/
def State.dmaStart (s : State) (c : Nat) : State :=
  s.setDma c
    { s.dma c with
      state := 1, loaded := false, named := false, prefetchLost := false, ctrl := s.reg (DMA.CH_CTRL c), moved := 0
      src := (s.reg (DMA.SL_SRC c)).toNat, dst := (s.reg (DMA.SL_DST c)).toNat, len := (s.reg (DMA.SL_LEN c)).toNat }

/-- A wrap field's value is allowed and the address is aligned to it (R429). -/
def wrapOk (w a : Nat) : Bool := decide (w = 0) || (decide (8 ≤ w ∧ w ≤ 30) && decide (a % 2 ^ w = 0))

/-- An ARM refused (R428, R429, Table FB-7), with CH_CTRL as `v`. -/
def armRefused (s : State) (c : Nat) (v : Word) : Bool :=
  !(wrapOk (fld v 23 19) (s.reg (DMA.SL_SRC c)).toNat) || !(wrapOk (fld v 18 14) (s.reg (DMA.SL_DST c)).toNat) ||
    decide (s.reg (DMA.SL_LEN c) = 0)

/-- A firmware channel's sleeve asked for from a session (R438): a conflict between the firmware function and the register configuration. -/
def State.dmaConflict (s : State) (c : Nat) : State :=
  s.noteConflict (some (6, c)) ((6 * 4096 + c) * 65536 + ownerCode { kind := 3, number := 0 })

/-- A write to a sleeve register of channel `c` (R428, R438), by `f` where it is accepted. -/
def State.sleeveWrite (s : State) (c : Nat) (f : State → State × Status) : State × Status :=
  if c < 12 then (s.dmaConflict c, .resourceConflict)
  else if (s.dma c).loaded then (s, .wrongState)
  else f (s.setDma c { s.dma c with claimed := true })

/-- A write of CH_CTRL (R428, Table FB-9): with ARM the sleeve is loaded, and starts when the channel is idle or aborted. -/
def State.dmaControl (s : State) (c : Nat) (v : Word) : State × Status :=
  if bit v 31 ∧ armRefused s c v then (s, .badParameter)
  else
    s.sleeveWrite c fun t =>
      let t1 := t.setReg (DMA.CH_CTRL c) (v &&& 0x78FFFF00#32)
      if !(bit v 31) then (t1, .done)
      else
        let t2 := t1.setDma c { t1.dma c with loaded := true }
        (if ((t2.dma c).state = 0 ∨ (t2.dma c).state = 3) ∧ t2.regBit DMA.CTRL 0 ∧ !(t2.regBit DMA.STATUS 31) then t2.dmaStart c else t2, .done)

/-- A channel aborted (R432): its active set is cleared and its sleeve kept; event 0x7003. -/
def State.abortChannel (s : State) (c : Nat) : State :=
  ((s.setDma c { s.dma c with state := 3, loaded := false, ctrl := 0, src := 0, dst := 0, len := 0, moved := 0 }).orReg DMA.ALARM 4).raise
    0x7003 c

/-- A sleeve loaded while the engine could not take it moves into its idle channel (R428). -/
def State.startLoaded (s : State) : State :=
  (List.range 16).foldl (fun t c => if (t.dma c).loaded ∧ (t.dma c).state = 0 then t.dmaStart c else t) s

/-- A halted channel after ALL_HALT (R432): in the mask it runs again from its restart point, else it is aborted. -/
def State.recoverChannel (s : State) (mask c : Nat) : State :=
  if (s.dma c).state = 2 then (if mask.testBit c then s.setDma c { s.dma c with state := 1 } else s.abortChannel c) else s

/-- The recovery of R432; event 0x7002. -/
def State.dmaRecover (s : State) (mask : Nat) : State :=
  let s1 := ((List.range 16).foldl (fun t c => t.recoverChannel mask c) s).startLoaded
  ((((s1.putRegBit DMA.STATUS 31 false).putRegBit DMA.STATUS 30 false).putRegBit DMA.STATUS 29 false).orReg DMA.ALARM 2).raiseBlock 0x7002

/-- The effect of DMA.RECOVER with its key (R432). -/
def State.dmaRecoverCmd (s : State) (mask : Nat) : State × Status :=
  if s.regBit DMA.STATUS 30 then (s.dmaRecover mask, .done) else (s, .wrongState)

/-- DMA_AUTO_RECOVER (R432): CX2 resumes every channel but a named failing one. -/
def execDmaAutoRecover (s : State) : Host.Outcome State Fault Refusal :=
  if s.regBit DMA.CTRL 8 ∧ s.regBit DMA.STATUS 30 then
    let ch := s.regFld DMA.HALT_INFO 7 0
    .next (s.dmaRecover (if ch = 0xFF then 0xFFFF else 0xFFFF - 2 ^ (ch % 16)))
  else .next s

/-- The effect of DMA.ABORT_CMD (R438, Table FB-7): refused when it names a firmware channel; claims are released. -/
def State.dmaAbort (s : State) (mask : Nat) : State × Status :=
  match (List.range 12).find? (fun c => mask.testBit c) with
  | some c => (s.dmaConflict c, .resourceConflict)
  | none =>
    (([12, 13, 14, 15] : List Nat).foldl (fun t c =>
      if mask.testBit c then
        let t1 := if (t.dma c).state = 1 ∨ (t.dma c).state = 2 then t.abortChannel c else t
        t1.setDma c { t1.dma c with claimed := false }
      else t) s, .done)

/-- The effect of DMA.CLEAR (Table FB-7). -/
def State.dmaClear (s : State) : State := s.zeroRegs (DMA.KBYTES :: (List.range 16).map DMA.CH_KB)

/-! ### Collar faults (R421, R423) -/

/-- An access that passed: a hit of its rule, or a use of the default map. -/
def State.countHit (s : State) (n r : Nat) : State :=
  if r < 16 then s.updFab fun f => { f with hits := sparseSet 0 f.hits (16 * n + r) (sparseGet 0 f.hits (16 * n + r) + 1) }
  else if r = 0x10 then s.incReg COLLAR.DEFAULT_USES
  else s

/-- The record of a fault in LAST_FAULT and its event: kept quiet for a privileged master with COLLAR.CTRL [0] clear (Table FB-10). -/
def State.logFault (s : State) (n r : Nat) (x : Access) (priv : Bool) : State :=
  if priv ∧ !(s.regBit COLLAR.CTRL 0) then s
  else
    (((s.setReg COLLAR.LAST_FAULT
      (BitVec.ofNat 32 (n * 134217728 + x.master.toNat * 65536 + b2n priv * 32768 + x.kind.toNat * 4096 + r))).setReg COLLAR.LAST_FAULT_ADDR
      x.address).setReg COLLAR.LAST_FAULT_SEC (secWord s.tb.now)).raise 0x7801 n

/-- The counts of a fault: in all, by master, by collar (Table FB-10). -/
def State.countCollarFault (s : State) (n : Nat) (master : Nat) : State :=
  let s1 := (s.incReg COLLAR.FAULTS).orReg COLLAR.ALARM 1
  let s2 := if master ≤ 0x0D then s1.incReg (COLLAR.MASTER_FAULTS master)
    else if 0x10 ≤ master ∧ master ≤ 0x1F then s1.incReg (COLLAR.MASTER_FAULTS 15) else s1
  if n < 24 then s2.satRegFld (COLLAR.STAT n) 15 0 else s2

/-! ### Rules and fences (R424 to R427) -/

/-- Master identities of Table FB-2. -/
def masterExists (m : Nat) : Bool := decide (m ≤ 0x0D) || decide (0x10 ≤ m ∧ m ≤ 0x1F)

/-- The range of a collar: its memory range, or the blocks of a register collar in the fabric (R540). -/
def inCollar (n a : Nat) : Bool := decide (collarOf a = some n)

/-- A staged rule is allowed (R424, Table FB-8). -/
def ruleOk (n : Nat) (w0 w1 w2 : Word) : Bool :=
  decide (fld w0 30 29 ≠ 3) && decide (fld w0 24 23 ≠ 3) && decide (fld w1 31 10 ≤ fld w2 31 10) && inCollar n (fld w1 31 10 * 1024) &&
    inCollar n (fld w2 31 10 * 1024 + 1023) &&
    (List.range 64).all fun m =>
      masterExists m || decide ((BitVec.ofNat 6 m ^^^ BitVec.ofNat 6 (fld w0 21 16)) &&& BitVec.ofNat 6 (fld w0 13 8) ≠ 0#6)

/-- Whether a rule has staged words. -/
def ruleStaged (s : State) (n r : Nat) : Bool :=
  (List.range 3).any fun w => (sparseFind s.staged (winKey .collar (16 * n + r) w)).isSome

/-- The words 0 to 2 of rules 8 to 15 of a collar as staged. -/
def stagedRules (s : State) (n : Nat) : List Word :=
  (List.range 8).flatMap fun i => (List.range 3).map fun w => s.winStaged .collar (16 * n + 8 + i) w

/-- The effect of COLLAR.COMMIT (R424, R427): refused, or in force at the next frame tick, at the STANDBY too. -/
def State.collarCommit (s : State) : State × Status :=
  let n := s.regFld COLLAR.SEL 12 8
  let bad := ([8, 9, 10, 11, 12, 13, 14, 15] : List Nat).any fun r =>
    ruleStaged s n r && !(ruleOk n (s.winStaged .collar (16 * n + r) 0) (s.winStaged .collar (16 * n + r) 1) (s.winStaged .collar (16 * n + r) 2))
  if bad then (s, .badParameter)
  else
    let ws := stagedRules s n
    let s1 := (List.range 16).foldl (fun t r => t.dropStaged .collar (16 * n + r)) s
    ((s1.updFab fun f => { f with rulesDue := sparseInsert f.rulesDue n ws }).pass ([0x11, COLLAR.COMMIT, n] ++ ws.map (·.toNat)), .done)

/-- A collar's rules replaced at the commit edge (R425): GEN, hits from 0, event 0x7802. -/
def State.applyRules (s : State) (n : Nat) (ws : List Word) : State :=
  let s1 := (List.range 8).foldl (fun t i =>
    (List.range 3).foldl (fun u w => u.setWin .collar (16 * n + 8 + i) w (ws.getD (3 * i + w) 0)) t) s
  let s2 := s1.updFab fun f => { f with hits := f.hits.filter (fun e => e.1 / 16 ≠ n) }
  ((s2.incReg (COLLAR.GEN n)).putReg COLLAR.STATUS 4 0 n).raise 0x7802 n

/-- Commits that wait for this frame tick (R427). -/
def State.fabricTick (s : State) : State :=
  let due := s.fab.rulesDue
  due.foldl (fun t e => t.applyRules e.1 e.2) (s.updFab fun f => { f with rulesDue := [] })

/-- The larger latency bound of a cuff (Table FB-4), in 0.1 ns. -/
def cuffBound (n : Nat) : Nat :=
  match n with
  | 0 => 100
  | 1 => 242
  | 2 => 290
  | 3 => 425
  | 10 => 915577
  | 11 => 143
  | _ => 650

/-- The cuffs behind which a collar's targets lie (R426, Table FB-4). -/
def collarCuffs (n : Nat) : List Nat :=
  match n with
  | 4 => [9]
  | 6 => [1]
  | 7 => [2]
  | 8 => [11]
  | 9 => [3]
  | 10 => [4, 5, 6, 7, 8]
  | 13 => [10]
  | 16 => [9]
  | 19 => [4, 5, 6, 7, 8]
  | 20 => [1, 2]
  | 21 => [3]
  | _ => []

/-- The fence limit of a mask of collars, in 0.1 ns (R426). -/
def fenceLimit (s : State) (mask : Nat) : Nat :=
  ((List.range 24).filter mask.testBit).foldl (fun a n =>
    (collarCuffs n).foldl (fun b k => max b (cuffBound k + (s.reg (CUFF.TIMEOUT k)).toNat * 10 + 100000)) a) 200000

/-- A write of COLLAR.FENCE (R426): it completes with the fence. -/
def State.startFence (s : State) (mask : Nat) (by_ : Option (Nat × Requester)) : State :=
  s.updFab fun f => { f with fence := some (mask, s.tb.up, by_) }

/-- The answer to the write that started a fence; a REG_MODIFY's holds the register's value before and after, which reads 0 (R8, R347). -/
def State.answerFence (s : State) (by_ : Option (Nat × Requester)) (r : Reply) : State :=
  match by_ with
  | some (op, rq) => s.lateAnswer op (some rq) (if op = 0x12 ∧ r.status = .done then doneWith [0, 0] else r)
  | none => s

/-- A fence that has not completed after its limit (R426): the write ends with a bus error, event 0x7804. -/
def State.endFence (s : State) : State :=
  match s.fab.fence with
  | none => s
  | some (mask, t, by_) =>
    let ns := fenceLimit s mask / 10
    let s1 := ((s.advanceUp (t + ns * nsUnits)).updFab fun f => { f with fence := none })
    (((s1.setReg COLLAR.FENCE_MAX (maxWord (s1.reg COLLAR.FENCE_MAX) (BitVec.ofNat 32 ns))).orReg COLLAR.ALARM 4).raiseBlock 0x7804).answerFence by_
      (refusal .internalFault)

/-- FENCE_COMPLETE (R426), `ns` after the write; a fence that would take longer than its limit has timed out. -/
def execFenceComplete (ns : Word) (s : State) : Host.Outcome State Fault Refusal :=
  match s.fab.fence with
  | none => .next s
  | some (mask, t, by_) =>
    if fenceLimit s mask < 10 * ns.toNat then .next s.endFence
    else
      let s1 := ((s.advanceUp (t + ns.toNat * nsUnits)).updFab fun f => { f with fence := none })
      .next ((s1.setReg COLLAR.FENCE_MAX (maxWord (s1.reg COLLAR.FENCE_MAX) ns)).answerFence by_ done)

/-- FENCE_TIMEOUT (R426). -/
def execFenceTimeout (s : State) : Host.Outcome State Fault Refusal := .next s.endFence

/-- The effect of COLLAR.CLEAR (Table FB-10). -/
def State.collarClear (s : State) : State :=
  (List.range 24).foldl (fun t n => t.putReg (COLLAR.STAT n) 15 0 0)
    (s.zeroRegs [COLLAR.FAULTS, COLLAR.CONFLICT_COUNT, COLLAR.DEFAULT_USES, COLLAR.FENCE_MAX])

/-! ### Cuffs (R433 to R436) -/

/-- What a cuff's last failure was (Table FB-11). -/
def State.noteCuff (s : State) (cause n master failed : Nat) : State :=
  (s.setReg CUFF.LAST_INFO (BitVec.ofNat 32 (cause * 268435456 + n * 16777216 + master * 65536 + satTo 65535 failed))).setReg CUFF.LAST_SEC
    (secWord s.tb.now)

/-- CUFF_SIDE_RESET (R436): the queue is flushed with bus errors, event 0x7902. -/
def execCuffSideReset (n : Fin 12) (fabricSide : Bool) (failed : Half) (s : State) : Host.Outcome State Fault Refusal :=
  .next (((((s.noteCuff 2 n.val 0 failed.toNat).putRegBit (CUFF.STAT n.val) (if fabricSide then 29 else 28) true).satRegFld (CUFF.COUNT n.val) 15 0).orReg
    CUFF.ALARM (BitVec.ofNat 32 (65536 * 2 ^ n.val))).raise 0x7902 n.val)

/-- CUFF_SIDE_RUNNING (R435, R436): the side's clock runs and the flush is acknowledged; event 0x7903 when STOPPED clears. -/
def execCuffSideRunning (n : Fin 12) (fabricSide : Bool) (s : State) : Host.Outcome State Fault Refusal :=
  let s1 := (s.putRegBit (CUFF.STAT n.val) (if fabricSide then 29 else 28) false).putRegBit (CUFF.STAT n.val) (if fabricSide then 31 else 30) true
  if s.regBit (CUFF.STAT n.val) 27 ∧ !fabricSide then .next ((s1.putRegBit (CUFF.STAT n.val) 27 false).raise 0x7903 n.val) else .next s1

/-- The bounds of CUFF.TIMEOUT (R434), in ns: the larger of 100 and twice the larger bound, up to 1,000,000. -/
def cuffTimeoutOk (n : Nat) (v : Word) : Bool :=
  decide (100 ≤ v.toNat) && decide (2 * cuffBound n ≤ v.toNat * 10) && decide (v.toNat ≤ 1000000)

/-- The effect of CUFF.CLEAR (Table FB-11). -/
def State.cuffClear (s : State) : State :=
  s.zeroRegs ([CUFF.LAT_MAX_OUT, CUFF.LAT_MAX_IN, CUFF.FILL_MAX, CUFF.TRANSFERS] ++ (List.range 12).map CUFF.COUNT)

end Sys2Proof.Machine
end

