-- ==== Sys2Proof/Machine/TackRun.lean ====
section
/-!
DEFINITION. Tacks that fall due (R92 to R97, R120, R182, R361, R367), and the tacks that tasks schedule (R90, R96).
-/

namespace Sys2Proof.Machine

open Reg

/-- A hardware action: an output edge or a trigger-line pulse (Table FX-13). -/
def isHardware (t : Tack) : Bool := decide (t.action = 1) || decide (t.action = 2)

/-- A late tack (Table FX-18): event 0x2011, counted, with its identity and lag in ns. -/
def State.noteLate (s : State) (t : Tack) : State :=
  (((s.incReg FRAME.TACK_LATE).setReg FRAME.TACK_LAST_LATE_ID t.id).setReg FRAME.TACK_LAST_LATE_NS
    (satWord ((s.tb.now - t.time) / nsUnits))).raiseBlock 0x2011

/-- Another tack of the same time acts on the same target (R93). -/
def conflicting (s : State) (t : Tack) : Bool :=
  s.frame.tacks.any fun x =>
    decide (x.id ≠ t.id) && decide (x.time = t.time) && decide (x.action = t.action) && decide (x.target = t.target)

/-- The mode that a mode code names. -/
def modeOf (v : Nat) : RunMode :=
  match v with
  | 0 => .stop
  | 1 => .run
  | 2 => .hold
  | _ => .safe

/-- What a tack's action does (Table FX-13, R95). Only the pair base's latches and the trigger lines see the hardware actions. -/
def State.actTack (s : State) (t : Tack) : State :=
  match t.action with
  | 1 => s.setLatch t.target (decide (t.value.toNat = 1))
  | 2 => s.tackPulse t.target t.value.toNat
  | 3 => s.eEvent t.target (some { sec := secOf t.time, ns := nsOf t.time, frac := fracOf t.time }) s.frameNo
  | 4 => s.setFlags (putBit (s.reg TRG.FLAGS) t.target (decide (t.value.toNat = 1))) s.tb.now
  | 5 => if s.mayConfigure then (s.requestMode (modeOf t.value.toNat) none).1 else s
  | _ => s

/-- A tack whose time has come leaves the queue: it is discarded by the run mode, by its target's state or by Table OC-4, or executed
(R93, R94, R120). `late` says that it is logged late. -/
def State.fireTack (s : State) (t : Tack) (late : Bool) : State :=
  let s0 := if conflicting s t then s.incReg FRAME.TACK_CONFLICTS else s
  let s1 := s0.updFrame fun f => { f with tacks := f.tacks.filter (fun x => x.id ≠ t.id) }
  if (t.action = 1 ∨ t.action = 3) ∧ s.mode ≠ .run then s1.discardTack 0x2012
  else if t.action = 1 ∧ !(tackChannel s t.target) then s1.discardTack 0x2012
  else if t.action = 6 ∧ s.mayConfigure ∧ (switchRefusal s s.frame.partnerBank true).isSome then
    (if s1.frame.sw.isSome then (s1.cancelSwitch none).incReg FRAME.TACK_DISCARDED else s1.discardTack 0x2206)
  else
    let s2 := (s1.actTack t).incReg FRAME.TACK_EXECUTED
    if late then s2.noteLate t else s2

/-- When a hardware tack acts (R361): with TACK_COMP earlier by the last measured delay in the new sense; 0 and 0xFFFF stand for none. -/
def tackInstant (s : State) (t : Tack) : Nat :=
  if t.action = 1 ∧ s.dioBit t.target 27 then
    let d := if t.value.toNat = 1 then s.regFld (DIO.CH_TIMING t.target) 31 16 else s.regFld (DIO.CH_TIMING t.target) 15 0
    if d = 0xFFFF then t.time else t.time - d * 10 * nsUnits
  else t.time

/-- No stages drive between two grants (R367): a tack on an output waits for the new holder's. -/
def inGap (s : State) : Bool := !s.pair.grant && !s.pair.grantPartner && !s.pair.unheld

/-- The first of two hardware tacks to act; the queue's order decides between equals. -/
def sooner (s : State) (m : Option Tack) (t : Tack) : Option Tack :=
  match m with
  | none => some t
  | some x => if tackInstant s t < tackInstant s x then some t else some x

/-- The hardware tack that acts next. -/
def nextHardware (s : State) : Option Tack :=
  (s.frame.tacks.filter fun t => isHardware t && tackReady s t && !(decide (t.action = 1) && inGap s)).foldl (sooner s) none

/-- TACK_DUE_HARDWARE (R92, R361, R367): at its time; one that the gap held back, or whose time a step skipped, is logged late. -/
def execTackDueHardware (s : State) : Host.Outcome State Fault Refusal :=
  match nextHardware s with
  | none => .next s
  | some t =>
    let late := decide (tackInstant s t < s.tb.now)
    .next ((s.advanceTo (tackInstant s t)).fireTack t late)

/-- The software tacks due at a frame tick executed in order (R92, R93), with the largest lag. -/
def State.runSoftware (s : State) (stepped : Bool) : List Tack → State
  | [] => s
  | t :: rest =>
    let lag := (s.tb.now - t.time) / nsUnits
    let s1 := s.fireTack t (stepped || decide (10000 < lag))
    (s1.setReg FRAME.TACK_MAX_LAG (maxWord (s1.reg FRAME.TACK_MAX_LAG) (satWord lag))).runSoftware stepped rest

/-- The software tacks due at the frame tick in progress. -/
def State.softwareTacks (s : State) : State :=
  s.runSoftware false (s.frame.tacks.filter fun t => !isHardware t && decide (t.time ≤ s.tb.now) && tackReady s t)

/-- Hardware tacks of a list executed late. -/
def State.fireLate (s : State) : List Tack → State
  | [] => s
  | t :: rest => (s.fireTack t true).fireLate rest

/-- The tacks whose times a forward step skipped (R26): executed, and each logged late. -/
def State.skippedTacks (s : State) (before : Nat) : State :=
  let due := s.frame.tacks.filter fun t => decide (before ≤ t.time) && decide (t.time < s.tb.now) && tackReady s t
  (s.fireLate (due.filter isHardware)).runSoftware true (due.filter fun t => !isHardware t)

/-! ### Tacks of tasks -/

/-- The quota of a task in the running image. -/
def tackQuota (s : State) (task : Nat) : Nat := ((s.image.bind fun i => taskIn i task).map (·.quota)).getD 0

/-- Whether the runtime accepts a task's tack (R90, R91, R93, R120): within its quota and the tasks' share of the queue. -/
def taskTackOk (s : State) (task : Nat) (t : TackRequest) : Bool :=
  (tackParams s t).isNone && decide (s.tb.quality ≠ .unset) && !(decide (t.action = 1) && !(tackChannel s t.target)) &&
    decide (s.frame.tacks.countP (fun x => decide (x.owner = some task)) < tackQuota s task) &&
    decide (s.frame.tacks.countP (fun x => x.owner.isSome) < 256) &&
    (decide (t.action ≠ 6) ||
      (decide (t.target = s.otherBank) && (switchRefusal s s.frame.partnerBank false).isNone))

/-- The tacks that a task asks for, queued or refused. -/
def State.scheduleTacks (s : State) (task : Nat) : List TackRequest → State
  | [] => s
  | t :: rest =>
    (if taskTackOk s task t then s.queueTack t s.frame.nextTack (some task) else s.incReg FRAME.TACK_REFUSED).scheduleTacks task rest

/-- The tacks that a task cancels: its own only, with at least TACK_LEAD left (R96). -/
def State.cancelTacks (s : State) (task : Nat) : List Word → State
  | [] => s
  | id :: rest =>
    (match s.frame.tacks.find? (fun (t : Tack) => t.id = id) with
      | some t =>
        if t.owner = some task ∧ s.tb.now + s.tackLead ≤ t.time then (s.removeTack id).incReg FRAME.TACK_CANCELLED else s
      | none => s).cancelTacks task rest

/-- The requests of the instances whose writes are committed now. -/
def State.taskTacks (s : State) : List TaskInstance → State
  | [] => s
  | x :: rest => (if x.done ∧ ¬ x.stopped then (s.cancelTacks x.task x.cancels).scheduleTacks x.task x.tacks else s).taskTacks rest

end Sys2Proof.Machine
end

