-- ==== Sys2Proof/Machine/RegChecks.lean ====
section
/-!
DEFINITION. What a register write is checked for before it acts (R7 to R9, R347, R541): its authority, its key, its value, the state
that its block or register asks for, and the window it belongs to (R348).
-/

namespace Sys2Proof.Machine

open Reg

/-- The place of an address in an array of registers: first address, distance and number. -/
def indexIn (base stride count a : Nat) : Option Nat :=
  if base ≤ a ∧ (a - base) % stride = 0 ∧ (a - base) / stride < count then some ((a - base) / stride) else none

/-- Whether an address lies in an array of registers. -/
def isIn (base stride count a : Nat) : Bool := (indexIn base stride count a).isSome

/-- The run mode a code names (R81). -/
def modeCode (v : Nat) : Option RunMode :=
  match v with
  | 0 => some .stop
  | 1 => some .run
  | 2 => some .hold
  | 3 => some .safe
  | _ => none

/-- The role that ROLE_REQUEST accepts as a target under a code (R268). -/
def roleTarget (v : Nat) : Option Role :=
  match v with
  | 0 => some .init
  | 5 => some .out
  | _ => none

/-- The value a register would hold: the fields that a write sets, with the written 1s of W1C fields cleared (R8, R9). -/
def written (r : RegRow) (old v : Word) : Word := merge r.w old v &&& ~~~(v &&& r.w1c)

/-! ### Authority (R347, R541) -/

/-- The authority a write of `v` to the register at `a` needs. A capture unit's register holds RW and W1C fields: a write that changes
no RW field needs only what its W1C fields need (R9). -/
def writeAuthority (s : State) (a : Nat) (v : Word) : Nat :=
  if a = MODE.REQUEST then
    match modeCode (fld v 3 0) with
    | some m => modeAuthority s m
    | none => 2
  else if a = PAIR.ROLE_REQ then
    match roleTarget (fld v 3 0) with
    | some r => roleAuthority s r
    | none => 2
  else if a = LOCK.CLEAR ∧ bit v 8 then 3
  else
    match regRow a with
    | none => 0
    | some r => if isIn (TB.CAP_CTRL 0) 4 16 a ∧ written r (s.reg a) v &&& r.w = s.reg a &&& r.w then 1 else r.auth

/-! ### Keys (R541) -/

/-- The key of a register that acts on one value only. -/
def wholeKey (a : Nat) : Option Nat :=
  if a = TB.RESTEP then some 0x5354
  else if a = PAIR.ID_ADOPT then some 0x4144
  else if a = LOCK.TEST_RUN then some 0x5445
  else if a = EVR.OWNER_CLEAR then some 0x4543
  else if a = LINING.TAMPER_ACK then some 0x5441
  else if a = UPD.REVERT then some 0x5256
  else none

/-- The key of a register that carries it in [31:16]. -/
def fieldKey (a : Nat) : Option Nat :=
  if a = MODE.REQUEST then some 0x4D44
  else if a = PAIR.ROLE_REQ then some 0x524C
  else if a = PAIR.ID_SET then some 0x5049
  else if a = DMA.RECOVER then some 0x5243
  else if a = SEC.LOCK then some 0x4F4C
  else if a = SEC.FUSE_CMD then some 0x4655
  else none

/-- The key of a write is right, or the register has none. -/
def keyOk (a : Nat) (v : Word) : Bool :=
  (match wholeKey a with
    | some k => decide (v.toNat = k)
    | none => true) &&
  (match fieldKey a with
    | some k => decide (fld v 31 16 = k)
    | none => true)

/-! ### Values -/

/-- Reporting rates of a class at a nominal frequency (Table AQ-7). -/
def rateOk (hz60 mClass : Bool) (rate : Nat) : Bool :=
  if hz60 then
    decide (rate ∈ [1, 2, 3, 4, 5, 6, 10, 12, 15, 20, 30, 60]) || (!mClass && decide (rate ∈ [120, 240]))
  else decide (rate ∈ [1, 2, 5, 10, 25, 50]) || (!mClass && decide (rate ∈ [100, 200]))

/-- A binary32 value lies between two others. -/
def between32 (lo hi v : Word) : Bool := finite32 v && !(lt32 v lo) && !(lt32 hi v)

/-- A signed byte lies between two bounds. -/
def signedByte (v hi lo : Nat) (w : Word) : Bool :=
  let x := fld w (v + 7) v
  if x < 128 then decide (x ≤ hi) else decide (256 - x ≤ lo)

/-- Levels and times of a trigger unit keep the order of Table TG-1, and its times lie within 1 to 50,000,000 samples (R170). -/
def unitOk (cfg level ta tb : Word) : Bool :=
  let kind := fld cfg 30 28
  let hi : Int := (BitVec.ofNat 16 (fld level 31 16)).toInt
  let lo : Int := (BitVec.ofNat 16 (fld level 15 0)).toInt
  let time (t : Word) : Bool := decide (1 ≤ t.toNat ∧ t.toNat ≤ 50000000)
  time ta && time tb &&
    (match kind with
      | 2 => decide (ta.toNat ≤ 1024)
      | 3 => decide (ta.toNat ≤ tb.toNat)
      | 4 => decide (ta.toNat ≤ tb.toNat)
      | 5 => decide (lo < hi)
      | 7 => decide (lo < hi)
      | _ => true)

/-- The trigger unit that an address belongs to. -/
def unitOf (a : Nat) : Option Nat := if TRG.U_CFG 0 ≤ a ∧ a < TRG.U_CFG 32 then some ((a - TRG.U_CFG 0) / 4) else none

/-- The four registers of a trigger unit as they would stand after a write. -/
def unitAfter (s : State) (u a : Nat) (v : Word) : Word × Word × Word × Word :=
  let g (b : Nat) : Word := if b = a then v else s.reg b
  (g (TRG.U_CFG u), g (TRG.U_LEVEL u), g (TRG.U_TIME_A u), g (TRG.U_TIME_B u))

/-- A value that its register accepts beside the bounds of its fields: orders of fields, binary32 ranges, signed ranges, and the rules of
trigger units (R170). -/
def valueOk (s : State) (a : Nat) (v : Word) : Bool :=
  match a / 256 with
  | 0x00 => !(decide (a = ID.LOCATE)) || decide (v.toNat % 65536 ≤ 3600)
  | 0x01 => !(decide (a = MODE.REQUEST)) || (modeCode (fld v 3 0)).isSome
  | 0x02 =>
    if a = PAIR.ROLE_REQ then (roleTarget (fld v 3 0)).isSome
    else !(decide (a = PAIR.ID_SET)) || decide (1 ≤ fld v 15 0 ∧ fld v 15 0 ≤ 0xFFFE)
  | 0x03 => !(decide (a = LOCK.HOLD_PAIRS)) || decide (fld v 1 0 ≠ 0)
  | 0x05 =>
    !(decide (a = LINING.CALIB)) || decide (-1000 ≤ v.toInt ∧ v.toInt ≤ 1000)
  | 0x10 => !(isIn (TB.CAP_CTRL 0) 4 16 a) || captureSourceOk (fld v 12 8)
  | 0x11 => !(decide (a = PTP.INTERVALS)) || (signedByte 16 1 4 v && signedByte 8 1 0 v && signedByte 0 1 0 v)
  | 0x12 =>
    !(decide (a = TREF.PRIO)) ||
      decide ([fld v 11 8, fld v 7 4, fld v 3 0] ∈ [[1, 2, 3], [1, 3, 2], [2, 1, 3], [2, 3, 1], [3, 1, 2], [3, 2, 1]])
  | 0x40 =>
    match unitOf a with
    | none => true
    | some u =>
      let q := unitAfter s u a v
      !(bit q.1 31) || unitOk q.1 q.2.1 q.2.2.1 q.2.2.2
  | 0x48 => !(decide (a = LOOP.SEL)) || decide (fld v 2 0 ≤ 4)
  | 0x58 =>
    if isIn (AO.HEM 0) 1 8 a then between32 0 0x41C00000 v
    else !(isIn (AO.FAIL_LVL 0) 8 8 a) || decide (fld v 15 0 ≤ 3600 ∧ 21000 ≤ fld v 31 16 ∧ fld v 31 16 ≤ 24000)
  | 0x60 =>
    if a = NET.QSP_TIMING then
      decide (60 ≤ fld v 31 16 ∧ fld v 31 16 ≤ 900 ∧ 20 ≤ fld v 15 0 ∧ fld v 15 0 ≤ 900)
    else !(decide (a = NET.GO_SEL)) || decide (fld v 6 0 < 0x50)
  | 0x79 =>
    match indexIn (CUFF.TIMEOUT 0) 3 12 a with
    | some n => cuffTimeoutOk n v
    | none => true
  | 0x7F => !(decide (a = SEC.QIM_FLOOR)) || decide (fld (s.reg a) 7 0 ≤ fld v 7 0)
  | b =>
    if b = 0x68 ∨ b = 0x69 then
      if a = CAN.NBT (b - 0x68) then decide (1 ≤ fld v 6 0 ∧ fld v 6 0 ≤ fld v 14 8)
      else !(decide (a = CAN.DBT (b - 0x68))) || decide (1 ≤ fld v 4 0 ∧ fld v 4 0 ≤ fld v 12 8)
    else if 0x31 ≤ b ∧ b ≤ 0x38 then
      let n := b - 0x31
      if a = ACH.RATIO n then finite32 v && lt32 0 v
      else if a = ACH.TWE_THRESH n then between32 0x3D4CCCCD 0x43FA0000 v
      else if a = ACH.PHA_CFG n then
        (!(bit v 31) && decide (fld v 15 0 = 0)) || rateOk (s.regBit ACQ.CFG 8) (bit v 30) (fld v 15 0)
      else true
    else true

/-- What check 15 finds in a write of `v` to `a`; `off` is the byte of the request at which the value stands. -/
def writeParams (s : State) (a : Nat) (v : Word) (off : Nat) : Option Reply :=
  match regRow a with
  | none => some (refusal .badParameter)
  | some r =>
    if !(keyOk a v) then some (refusal .badParameter 0 off)
    else if r.w = 0 ∧ r.w1c = 0 then
      if valueOk s a v then none else some (refusal .badParameter 0 off)
    else if inBounds a v && valueOk s a v then none
    else some (refusal .badParameter 0 off)

/-- Registers that hold nothing and act on what is written: the WO registers, the keyed RWO registers, PTP.COUNT[15] and the window words
(first address, distance, number). -/
def actingRegs : List (Nat × Nat × Nat) := [
  (0x1019, 1, 1), (0x121F, 16, 3), (0x113F, 16, 5), (0x0101, 1, 1), (0x2007, 1, 1), (0x201F, 1, 1),
  (0x220F, 1, 1), (0x300F, 1, 1), (0x3011, 1, 14), (0x301F, 1, 1), (0x3021, 1, 14), (0x302F, 1, 1),
  (0x3133, 256, 8), (0x400E, 1, 1), (0x400F, 1, 1), (0x4091, 1, 19), (0x40A4, 1, 1), (0x40A6, 1, 11),
  (0x40B1, 1, 1), (0x40B3, 1, 8), (0x40BB, 1, 1), (0x4119, 1, 1), (0x4803, 1, 1), (0x4804, 1, 16),
  (0x481E, 1, 1), (0x4824, 1, 1), (0x030D, 1, 1), (0x030F, 1, 1), (0x0203, 1, 1), (0x0204, 1, 1),
  (0x0222, 1, 1), (0x022F, 1, 1), (0x600F, 1, 1), (0x6039, 1, 6), (0x603F, 1, 1), (0x6041, 1, 30),
  (0x605F, 1, 1), (0x6106, 1, 1), (0x500B, 1, 1), (0x5803, 1, 1), (0x5903, 1, 1), (0x5906, 1, 1),
  (0x680F, 256, 2), (0x6815, 256, 2), (0x6819, 1, 22), (0x6919, 1, 22), (0x682F, 256, 2), (0x7006, 1, 1),
  (0x700C, 1, 1), (0x700D, 1, 1), (0x7803, 1, 4), (0x7807, 1, 1), (0x7808, 1, 1), (0x780F, 1, 1),
  (0x7904, 1, 1), (0x7C0D, 1, 1), (0x7C0E, 1, 1), (0x7C11, 1, 10), (0x7C1B, 1, 1), (0x7E06, 1, 1),
  (0x7E0F, 1, 1), (0x7F01, 1, 1), (0x7F03, 1, 1), (0x0403, 1, 1), (0x040F, 1, 1), (0x050E, 1, 1),
  (0x112F, 1, 1)]

/-- A write to the register at `a` can have an effect: it has fields that a write sets or clears, or it acts on the written value (R347). -/
def acts (a : Nat) : Bool :=
  (match regRow a with
    | some r => decide (r.w ≠ 0 ∨ r.w1c ≠ 0)
    | none => false) ||
  actingRegs.any fun r => isIn r.1 r.2.1 r.2.2 a

/-! ### Blocks that only the leading or lone module configures (R160, R167, R203, R307, R368, R387, R415) -/

/-- The write is one that a module in role STANDBY, TRACK or INIT refuses from a session, and that the ACTIVE passes on. -/
def sharedWrite (a : Nat) : Bool :=
  let b := a / 256
  decide (0x30 ≤ b ∧ b ≤ 0x38) || decide (b = 0x50 ∨ b = 0x58 ∨ b = 0x59 ∨ b = 0x68 ∨ b = 0x69) ||
    decide (TRG.FL_SEL ≤ a ∧ a ≤ TRG.FL_COMMIT) || decide (NET.ST_SEL ≤ a ∧ a ≤ NET.ST_COMMIT)

/-- A write of the loop window that such a module refuses (R203); its effect reaches the partner through the application tick. -/
def loopWrite (a : Nat) : Bool := decide (LOOP.COMMIT ≤ a ∧ a ≤ LOOP.WIN 15) || decide (a = LOOP.ND_CMD)

/-- A field with access RWS changes, outside STOP (R9). -/
def stopRefused (s : State) (a : Nat) (v : Word) : Bool :=
  match regRow a with
  | none => false
  | some r => decide (r.guard = .stop ∧ s.mode ≠ .stop ∧ written r (s.reg a) v ≠ s.reg a)

/-! ### Windows (R348, R395, R415, R458) -/

/-- The window that a register belongs to, for claims. -/
def claimOf (a : Nat) : Option WindowId :=
  if ACQ.PMU_SEL ≤ a ∧ a ≤ ACQ.PMU_COMMIT then some .acqPmu
  else if ACQ.SV_SEL ≤ a ∧ a ≤ ACQ.SV_COMMIT then some .acqSv
  else if TRG.PAT_SEL ≤ a ∧ a ≤ TRG.PAT_COMMIT then some .trgPat
  else if TRG.REC_SEL ≤ a ∧ a ≤ TRG.REC_COMMIT then some .trgRec
  else if TRG.FL_SEL ≤ a ∧ a ≤ TRG.FL_COMMIT then some .trgFl
  else if LOOP.SEL ≤ a ∧ a ≤ LOOP.WIN 15 then some .loop
  else if LOOP.ND_SLOT ≤ a ∧ a ≤ LOOP.ND_CMD then some .loopNd
  else if NET.ST_SEL ≤ a ∧ a ≤ NET.ST_COMMIT then some .netSt
  else if NET.GO_SEL ≤ a ∧ a ≤ NET.GO_COMMIT then some .netGo
  else if a = EVR.CURSOR ∨ a = EVR.WIN_PTR ∨ a = EVR.WIN_DATA then some .evr
  else if HART.WIN_SEL ≤ a ∧ a ≤ HART.WIN_DATA 7 then some .hart
  else if CAN.BUF_SEL 0 ≤ a ∧ a ≤ CAN.BUF_COMMIT 0 then some .can0
  else if CAN.BUF_SEL 1 ≤ a ∧ a ≤ CAN.BUF_COMMIT 1 then some .can1
  else none

/-- The registers that a window's select register belongs to: window, unit, word, and the bits of the word that a write sets. -/
structure WindowWord where
  win : WinId
  unit : Nat
  word : Nat
  mask : Word
  deriving DecidableEq, Repr

/-- Bits of the words of a window that a write sets (Tables AQ-13, AQ-15, TG-14, TG-15, TG-16, NW-7, NW-8, EV-2 and FB-8). -/
def windowMask (w : WinId) (word : Nat) : Word :=
  match w with
  | .pmu =>
    if word = 0 then 0xF300FFFF else if word ≤ 3 then 0xFFFFFFFF else if word ≤ 11 then 0xFFC7FFC7
    else if word = 12 then 0x000F03FF else 0
  | .sv =>
    if word = 0 then 0xF80FFFFF else if word = 2 then 0xFFFF1FFF else if word ≤ 11 then 0xFFFFFFFF
    else if word = 12 then 0x0000FFFF else 0
  | .pat => if word = 0 then 0xE0FF8700 else 0xFFFFFFFF
  | .records => if word ≤ 9 then 0xFFFFFFFF else 0
  | .fl => if word = 0 then 0xC0FF0707 else if word ≤ 6 then 0xFFFFFFFF else 0
  | .station =>
    if word = 0 then 0x8000FFFF else if word ≤ 2 then 0xFFFFFFFF else if word = 3 then 0x0000FFFF else 0
  | .goose => if word = 0 then 0xBC3FFFFF else if word ≤ 27 then 0xFFFFFFFF else 0
  | .snap => if word = 1 then 0x9F00FFFF else 0xFFFFFFFF
  | .collar => if word = 0 then 0xFFBF3F00 else if word ≤ 2 then 0xFFFFFC00 else 0
  | _ => 0

/-- The window word that a register shows now, for the windows that are staged by plain words. -/
def windowWordAt (s : State) (a : Nat) : Option WindowWord :=
  let mk (w : WinId) (unit word : Nat) : Option WindowWord := some { win := w, unit := unit, word := word, mask := windowMask w word }
  if isIn (ACQ.PMU_WIN 0) 1 14 a then mk .pmu (s.regFld ACQ.PMU_SEL 3 0) (a - ACQ.PMU_WIN 0)
  else if isIn (ACQ.SV_WIN 0) 1 14 a then mk .sv (s.regFld ACQ.SV_SEL 5 0) (a - ACQ.SV_WIN 0)
  else if isIn (TRG.PAT_WIN 0) 1 19 a then mk .pat (s.regFld TRG.PAT_SEL 2 0) (a - TRG.PAT_WIN 0)
  else if isIn (TRG.REC_WIN 0) 1 11 a then mk .records (s.regFld TRG.REC_SEL 2 0) (a - TRG.REC_WIN 0)
  else if isIn (TRG.FL_WIN 0) 1 8 a then mk .fl (s.regFld TRG.FL_SEL 2 0) (a - TRG.FL_WIN 0)
  else if isIn (NET.ST_WIN 0) 1 6 a then mk .station (s.regFld NET.ST_SEL 9 0) (a - NET.ST_WIN 0)
  else if isIn (NET.GO_WIN 0) 1 30 a then mk .goose (s.regFld NET.GO_SEL 6 0) (a - NET.GO_WIN 0)
  else if isIn (EVR.SNAP_WIN 0) 1 10 a then mk .snap (s.regFld EVR.SNAP_SEL 2 0) (a - EVR.SNAP_WIN 0)
  else if isIn (COLLAR.RULE_WIN 0) 1 4 a then
    let r := s.regFld COLLAR.SEL 3 0
    some { win := .collar, unit := 16 * s.regFld COLLAR.SEL 12 8 + r, word := a - COLLAR.RULE_WIN 0
           mask := if r < 8 then 0 else windowMask .collar (a - COLLAR.RULE_WIN 0) }
  else none

end Sys2Proof.Machine
end

