-- ==== Sys2Proof/Machine/Commits.lean ====
section
/-!
DEFINITION. What a write of 1 to a window's commit register does (R158, R161, R165, R174, R186, R193, R203, R222, R307, R312, R449): the
checks of the staged words, and the accepted words that wait for their tick. A refused commit leaves the staged words in place.
-/

namespace Sys2Proof.Machine

open Reg

/-- The state after a command, and its reply. -/
abbrev Answer := State × Option Reply

/-- DONE. -/
def State.ok (s : State) : Answer := (s, some done)

/-- A status with its state. -/
def answered (r : State × Status) : Answer := (r.1, some (refusal r.2))

/-- A value refused: byte 4 of REG_WRITE holds it (R327). -/
def State.badParameter (s : State) : Answer := (s, some (refusal .badParameter 0 4))

/-- The words of a window unit with the staged ones over the committed ones. -/
def windowWords (s : State) (w : WinId) (unit n : Nat) : List Word := (List.range n).map fun i => s.winStaged w unit i

/-- A conflict between two owners of a resource refused (R438): recorded, and named in the reply (R327). -/
def State.conflict (s : State) (resource : Nat × Nat) (x y : Owner) : Answer :=
  let c := ownerCode x * 65536 + ownerCode y
  (s.noteConflict (some resource) c, some (refusal .resourceConflict 0 c))

/-- A conflict of R158 or R161: also shown in ACQ.CONFLICT. -/
def State.acqConflict (s : State) (resource : Nat × Nat) (x y : Owner) : Answer :=
  (s.setReg ACQ.CONFLICT (BitVec.ofNat 32 (ownerCode x * 65536 + ownerCode y))).conflict resource x y

/-! ### PMUs (R158) -/

/-- The words of a PMU as its claims stand: an accepted commit that waits counts (R438). -/
def pmuWords (s : State) (m : Nat) : List Word :=
  match (s.pmu m).due with
  | some ws => ws
  | none => (List.range 13).map fun i => s.win .pmu m i

/-- The phasor half-words present in an enabled PMU's words (Table AQ-13). -/
def presentHalves (ws : List Word) : List Nat :=
  if bit (ws.getD 0 0) 31 then
    ((List.range 16).map fun k => if k % 2 = 0 then fld (ws.getD (4 + k / 2) 0) 31 16 else fld (ws.getD (4 + k / 2) 0) 15 0).filter
      fun h => decide (0x8000 ≤ h)
  else []

/-- A half-word's source without presence and type. -/
def sourceOf (h : Nat) : Nat := if h / 0x1000 % 2 = 0 then h % 8 else h % 0x2000

/-- Class and rate that a PMU's words ask for. -/
def classRate (ws : List Word) : Bool × Nat := (bit (ws.getD 0 0) 30, fld (ws.getD 1 0) 31 16)

/-- The words of a PMU keep to Tables AQ-7 and AQ-13. -/
def pmuOk (s : State) (ws : List Word) : Bool :=
  decide (fld (ws.getD 0 0) 29 28 ≠ 2) && rateOk (s.regBit ACQ.CFG 8) (classRate ws).1 (classRate ws).2 &&
    (presentHalves ws).all (fun h => decide (h / 0x2000 % 4 ≤ 1)) && decide (fld (ws.getD 12 0) 9 8 ≠ 3)

/-- The claimant of a local channel's PHA that asks for another class or rate than PMU `m` (R158): another PMU, or the registers. -/
def phaClaimant (s : State) (m : Nat) (ws : List Word) (n : Nat) : Option Owner :=
  match (List.range 16).find? fun k =>
      decide (k ≠ m) && decide (n ∈ (presentHalves (pmuWords s k)).map sourceOf) && decide (classRate (pmuWords s k) ≠ classRate ws) with
  | some k => some { kind := 4, number := k }
  | none =>
    match sparseFind s.acq.phaClaims n with
    | some c => if c ≠ classRate ws then some { kind := 3, number := n } else none
    | none => none

/-- Phasor sources in use once PMU `m` takes the words `ws` (R158). -/
def sourcesWith (s : State) (m : Nat) (ws : List Word) : Nat :=
  (((List.range 16).flatMap fun k => (presentHalves (if k = m then ws else pmuWords s k)).map sourceOf) ++
    ((List.range 8).filter fun n => s.regBit (ACH.PHA_CFG n) 31)).eraseDups.length

/-- A PMU commit (R158, R165). -/
def State.commitPmu (s : State) (m : Nat) : Answer :=
  let ws := windowWords s .pmu m 13
  if !pmuOk s ws then s.badParameter
  else
    match ((presentHalves ws).map sourceOf).filter (fun h => h < 8) |>.findSome? (fun n => (phaClaimant s m ws n).map fun o => (n, o)) with
    | some (n, o) => s.acqConflict (4, n) o { kind := 4, number := m }
    | none =>
      if 128 < sourcesWith s m ws then (s, some (refusal .busy))
      else (((s.setPmu m { s.pmu m with due := some ws }).dropStaged .pmu m).releaseWindow .acqPmu).ok

/-! ### Sampled-value subscriptions (R161) -/

/-- The words of a subscription as its claims stand. -/
def svWords (s : State) (k : Nat) : List Word :=
  (sparseFind s.acq.svDue k).getD ((List.range 13).map fun i => s.win .sv k i)

/-- The identity of a stream: destination address, APPID and svID (R161). -/
def svIdentity (ws : List Word) : List Nat :=
  [(ws.getD 1 0).toNat, fld (ws.getD 2 0) 31 16, fld (ws.getD 0 0) 15 0] ++ (List.range 8).map fun i => (ws.getD (4 + i) 0).toNat

/-- The words of a subscription keep to Tables AQ-11 and AQ-15. -/
def svOk (ws : List Word) : Bool :=
  decide (fld (ws.getD 0 0) 30 28 ≤ 3) && decide (1 ≤ fld (ws.getD 0 0) 19 16 ∧ fld (ws.getD 0 0) 19 16 ≤ 8) &&
    decide (250 ≤ fld (ws.getD 12 0) 15 0 ∧ fld (ws.getD 12 0) 15 0 ≤ 10000)

/-- A commit of a subscription: a second one with the same identity is refused (R161). -/
def State.commitSv (s : State) (k : Nat) : Answer :=
  let ws := windowWords s .sv k 13
  if !svOk ws then s.badParameter
  else
    match (List.range 64).find? fun j =>
        bit (ws.getD 0 0) 31 && decide (j ≠ k) && bit ((svWords s j).getD 0 0) 31 && decide (svIdentity (svWords s j) = svIdentity ws) with
    | some j => s.acqConflict (5, j) { kind := 5, number := j } { kind := 5, number := k }
    | none =>
      (((s.updAcq fun a => { a with svDue := sparseInsert a.svDue k ws }).dropStaged .sv k).releaseWindow .acqSv).ok

/-! ### Pattern units, record profiles and lines -/

/-- A word lies between two bounds. -/
def inRange (lo hi v : Nat) : Bool := decide (lo ≤ v ∧ v ≤ hi)

/-- The words of a pattern unit are accepted (R174, Table TG-14). -/
def patternOk (ws : List Word) : Bool :=
  let zero (a : Nat) : Bool := (List.range 4).all fun i => decide (ws.getD (a + i) 0 = 0)
  !(zero 3) && !(bit (ws.getD 0 0) 30 && zero 11) && inRange 1 400000000 (ws.getD 1 0).toNat && inRange 40 400000000 (ws.getD 2 0).toNat

/-- A commit of a pattern unit (R180). -/
def State.commitPattern (s : State) (u : Nat) : Answer :=
  let ws := windowWords s .pat u 19
  if !patternOk ws then s.badParameter
  else (((s.updTrg fun t => { t with patDue := sparseInsert t.patDue u ws }).dropStaged .pat u).releaseWindow .trgPat).ok

/-- The words of a record profile keep to Table TG-7. -/
def profileOk (ws : List Word) : Bool :=
  let two (w hi lo : Nat) : Bool := decide (fld (ws.getD w 0) 31 16 ≤ hi) && decide (fld (ws.getD w 0) 15 0 ≤ lo)
  decide ((ws.getD 1 0).toNat ≤ 100000) && decide ((ws.getD 2 0).toNat ≤ 500000) && decide (rawNeed ws ≤ 268435456) &&
    two 3 1000 10000 && two 4 6000 30000 && two 5 10000 30000 && two 6 600 3000 && two 7 10000 10000 && inRange 1 600000 (ws.getD 9 0).toNat

/-- Bytes of one record of a profile without extensions: for each enabled reduction and channel its entries (Table AQ-2) over both
windows; TWE at the most entries that a second admits (R146). -/
def profileBytes (s : State) (ws : List Word) : Nat :=
  let both (w : Nat) : Nat := fld (ws.getD w 0) 31 16 + fld (ws.getD w 0) 15 0
  let on (b : Nat) : Nat := b2n (bit (ws.getD 0 0) b)
  let chans := ones (fld (ws.getD 0 0) 23 16)
  let pha := ((List.range 8).filter fun n => bit (ws.getD 0 0) (16 + n) && s.regBit (ACH.PHA_CFG n) 31).map fun n =>
    both 6 * s.regFld (ACH.PHA_CFG n) 15 0 / 10 * 32
  rawNeed ws + on 28 * chans * both 3 * 8000 + on 27 * chans * both 4 * 400 + on 26 * chans * both 5 * 32 +
    on 25 * pha.foldl (· + ·) 0 + on 24 * chans * (if both 7 = 0 then 0 else 4096 * 32)

/-- A commit of a record profile (R186). -/
def State.commitProfile (s : State) (k : Nat) : Answer :=
  let ws := windowWords s .records k 10
  if !profileOk ws then s.badParameter
  else
    let size := BitVec.ofNat 32 ((profileBytes s ws + 1023) / 1024)
    (((s.updTrg fun t => { t with recDue := sparseInsert t.recDue k (ws ++ [size]) }).dropStaged .records k).releaseWindow .trgRec).ok

/-- The words of a fault-location line keep to Table TG-16. -/
def lineOk (ws : List Word) : Bool :=
  between32 0x42C80000 0x43960000 (ws.getD 2 0) && inRange 1 10000 (fld (ws.getD 4 0) 31 16) && decide (fld (ws.getD 4 0) 15 0 ≤ 1000) &&
    inRange 50 5000 (fld (ws.getD 6 0) 31 16)

/-- A commit of a fault-location line (R193). -/
def State.commitLine (s : State) (l : Nat) : Answer :=
  let ws := windowWords s .fl l 7
  if !lineOk ws then s.badParameter
  else (((s.updTrg fun t => { t with flDue := sparseInsert t.flDue l ws }).dropStaged .fl l).releaseWindow .trgFl).ok

/-! ### The loop engine -/

/-- A commit of the selected slot by LOOP.COMMIT (R203). -/
def State.commitSelected (s : State) : Answer :=
  match s.commitLoop (s.regFld LOOP.SEL 15 8) with
  | (s1, some r) => (s1, some (commitReply r 4))
  | (s1, none) => s1.ok

/-- A notch design from the ND registers (R222): nobody gets a notice. -/
def State.designFromRegs (s : State) : Answer :=
  let d : Design :=
    { by_ := none, slot := s.regFld LOOP.ND_SLOT 7 0, sect := s.regFld LOOP.ND_SLOT 25 24, apply := s.regBit LOOP.ND_SLOT 31
      f0 := s.reg LOOP.ND_F0, width := s.reg LOOP.ND_WIDTH, depth := s.reg LOOP.ND_DEPTH }
  match s.startDesign d with
  | (s1, some r) => (s1, some r)
  | (s1, none) => s1.ok

/-! ### Networks -/

/-- A commit of a station (R307): in effect at the first C2 cycle start at least 2 ms later, which the STANDBY is told. -/
def State.commitStationWindow (s : State) (n : Nat) : Answer :=
  let ws := windowWords s .station n 4
  if !(inRange 1 1000 (fld (ws.getD 3 0) 15 0)) then s.badParameter
  else
    let tick := c2At (s.tb.now + 2 * msUnits)
    ((((s.commitStation n ws tick).dropStaged .station n).releaseWindow .netSt).pass
      ([0x11, NET.ST_COMMIT, n] ++ tickFields tick ++ ws.map (·.toNat))).ok

/-- A commit of a GOOSE control block (Tables NW-6 and NW-8): at most 32 members of a publisher and 8 of a subscription. -/
def State.commitGoose (s : State) (u : Nat) : Answer :=
  let ws := windowWords s .goose u 28
  if !(inRange 1 (if u < 16 then 32 else 8) (fld (ws.getD 0 0) 21 16)) then s.badParameter
  else (((s.updNet fun n => { n with gooseDue := sparseInsert n.gooseDue u ws }).dropStaged .goose u).releaseWindow .netGo).ok

/-! ### CAN -/

/-- A configuration commit of a channel's selected buffer (R408, R417): a refusal names the owners of CAN.OWNER. -/
def State.commitCanBuffer (s : State) (ch : Nat) : Answer :=
  match s.canCommitBuffer ch with
  | (s1, .done) => (s1.releaseWindow (if ch = 0 then .can0 else .can1)).ok
  | (s1, st) => (s1, some (refusal st 0 (if st = .resourceConflict then (s1.reg (CAN.OWNER ch)).toNat else 4)))

end Sys2Proof.Machine
end

