-- ==== Sys2Proof/Machine/Tracking.lean ====
section
/-!
DEFINITION. Tracking (R286 to R290): the phases of Table PR-10 with their checks, what tracking copies, the write mirror, the join tick and the slot
states.
-/

namespace Sys2Proof.Machine

open Reg

/-! ### Tracking (R286 to R290) -/

/-- Phase 5 entered: the pages to copy, all dirty (Table PR-10). -/
def State.startPrecopy (s : State) (r : PhaseResult) : State :=
  ((s.setReg PAIR.TRACK_TOTAL r.kilobytes).setReg PAIR.TRACK_DONE 0).updPair fun p =>
    { p with phase := 5, pageCount := r.pages, dirty := List.range r.pages }

/-- Frames of verification needed: VERIFY cycles of the longest class, at least 100 (Table PR-10). -/
def verifyNeeded (s : State) : Nat :=
  let n := s.regFld PAIR.TRACK_CFG 7 0 * longestCycle s
  if n < 100 then 100 else n

/-- The leader's versions of MFW, RTK, FSD and FSA lie within the pair window of this module's (R473, Table PR-10, phase 1). -/
def pairWindowOk (s : State) (versions : List Word) : Bool :=
  (List.range 4).all fun i => inWindow (s.reg (UPD.C_VER_RUN (i + 1))) (versions.getD i 0)

/-- A window whose words tracking copies: those of ACQ, LOOP, the fault-location lines, the stations and the CAN buffers, and collar rules 8 to 15
(Table PR-10, phase 3, R160, R167, R307, R415, R427). -/
def copiedWindow (key : Nat) : Bool :=
  let w := key / 65536
  ([WinId.pmu, .sv, .loop, .fl, .station, .can0, .can1].map WinId.code).contains w || (decide (w = WinId.collar.code) && decide (8 ≤ key % 512 / 32))

/-- The configuration as copied: the shared registers and windows, as address or key and value (Table PR-10, phase 3). -/
def copiedFields (s : State) : List Nat :=
  ((s.regs.filter fun e => sharedWrite e.1) ++ (s.wins.filter fun e => copiedWindow e.1)).flatMap fun e => [e.1, e.2.toNat]

/-- The CRC-32C over the configuration copied; the layout it is taken over is not given (notes/assumptions/62.md). -/
def configurationCrc (s : State) : Word := crc32c (Config.digestBytes (copiedFields s))

/-- The digest that IMG.B_DIGEST shows of a bank. -/
def bankDigest (s : State) (b : Nat) : BitVec 256 :=
  (List.range 8).foldl (fun d i => d * 4294967296 + (s.reg (IMG.B_DIGEST b i)).zeroExtend 256) 0

/-- The response times that admission computes here for an image in a bank (R104); none for an image it refuses. -/
def admittedResponses (s : State) (b : Nat) (i : Image) : List (Nat × Nat) :=
  match admitImage s b i with
  | .ok a => a.resp
  | .error _ => []

/-- The images copied are the leader's (R104, Table PR-10, phase 4): for each bank that holds an image here, the digest and the response times equal the
leader's. -/
def imagesEqual (s : State) (r : PhaseResult) : Bool :=
  (List.range 2).all fun b =>
    match s.bankImage b with
    | none => true
    | some i =>
      decide (r.digests[b]? = some (bankDigest s b)) &&
        (match s.bankState b with
          | 2 => true
          | _ => sameResponses (admittedResponses s b i) ((r.responses[b]?).getD []))

/-- TRACKING_PHASE_COMPLETE (R286, Table PR-10). -/
def execTrackingPhaseComplete (r : PhaseResult) (s : State) : Host.Outcome State Fault Refusal :=
  if s.role ≠ .track then .next s
  else
    match s.pair.phase with
    | 1 =>
      let s1 := s.updPair fun p => { p with partnerVersions := r.versions }
      if !pairWindowOk s r.versions then .next (s1.updPair fun p => { p with windowRefused := true, outDue := some 0x0A })
      else if s.pair.partnerId = s.pair.baseId ∧ ¬ s.pair.partnerSwitch then .next (s1.updPair fun p => { p with phase := 2 })
      else .next s1
    | 2 => if s.tb.alignOk then .next (s.updPair fun p => { p with phase := 3 }) else .next s
    | 3 => if r.crc = configurationCrc s then .next (s.updPair fun p => { p with phase := 4 }) else .next s
    | 4 => if imagesEqual s r then .next (s.startPrecopy r) else .next s
    | 5 => if s.pair.dirty = [] then .next (s.updPair fun p => { p with phase := 6 }) else .next s
    | 7 =>
      if verifyNeeded s ≤ s.pair.verifyFrames then .next (s.updPair fun p => { p with verified := true }) else .next s
    | _ => .next s

/-- Instances copied into the store. -/
def copyStores (m : List (Nat × Storage)) : List (Nat × Storage) → List (Nat × Storage)
  | [] => m
  | (n, v) :: rest => copyStores (sparseInsert m n v) rest

/-- Points copied into the process image: value and bad quality. -/
def State.copyPoints (s : State) : List (Word × Word × Bool) → State
  | [] => s
  | (p, v, bad) :: rest =>
    (s.setPoint p { s.point p with value := v, own := v, bad := bad, ever := (s.point p).ever || !bad, committed := true }).copyPoints rest

/-- Decoded data of the leader stored (R286, R287). -/
def State.copyData (s : State) (d : CopiedData) : State :=
  (s.updFrame fun f => { f with store := copyStores f.store d.stores }).copyPoints d.points

/-- Registers copied one by one: those of the blocks whose writes the ACTIVE passes (Table PR-10, phase 3); TRG and TDC are each module's own (R167). -/
def State.copyRegs (s : State) : List (Nat × Word) → State
  | [] => s
  | (a, v) :: rest => (if sharedWrite a then s.setReg a v else s).copyRegs rest

/-- Window words copied, by their keys. -/
def State.copyWins (s : State) : List (Nat × Word) → State
  | [] => s
  | (k, v) :: rest => (if copiedWindow k then ({ s with wins := sparseSet 0 s.wins k v } : State) else s).copyWins rest

/-- The acquisition configuration copied is in force as it is at the leader (R160). -/
def State.takeCopiedChannels (s : State) : State := (List.range 8).foldl (fun t n => (t.enableChannel n).takeRange n) s

/-- A frame pending in a CAN buffer of the leader (R415). -/
def State.copyPending (s : State) (ch b : Nat) (f : Option CanFrame) : State :=
  s.setCanBuf ch b { s.canBuf ch b with pending := f, pendingAt := s.tb.now }

/-- A register of the SEC block that tracking copies: the owner lock, the key slots and the QIM floor (R486). -/
def copiedKeyReg (a : Nat) : Bool := decide (a = SEC.LOCK ∨ a = SEC.QIM_FLOOR) || isIn (SEC.KEY_INFO 0) 1 32 a

/-- The key store copied (R478, R486). -/
def State.copyKeys (s : State) (keys : List (Nat × PublicKey)) (dec : List (Nat × BitVec 128)) : List (Nat × Word) → State
  | [] =>
    ({ s with trust := { s.trust with keys := keys, decryption := dec } } : State).putReg SEC.STATUS 3 0
      (dec.foldl (fun m d => m ||| 2 ^ (d.1 % 4)) 1)
  | (a, v) :: rest => (if copiedKeyReg a then s.setReg a v else s).copyKeys keys dec rest

/-- The digest of a bank written to IMG.B_DIGEST. -/
def State.setBankDigest (s : State) (b : Nat) (d : BitVec 256) : State :=
  (List.range 8).foldl (fun t i => t.setReg (IMG.B_DIGEST b i) (BitVec.ofNat 32 (d.toNat / 2 ^ (32 * (7 - i))))) s

/-- A tack of the leader's queue at its place (R90, R93). -/
def copyTack (f : Frame) (t : Tack) : Frame :=
  let q := insertTack t (f.tacks.filter (fun x => x.id ≠ t.id))
  { f with tacks := q, nextTack := if f.nextTack.toNat ≤ t.id.toNat then nextTackId q 512 t.id else f.nextTack }

/-- A bank of the leader taken over; one that is ADMITTED or RUNNING there is admitted here too, and the running bank is the leader's
(Table PR-10, phase 4). -/
def State.copyBank (s : State) (b st : Nat) (d : BitVec 256) (i : Image) : State :=
  let s1 := ((s.setBankImage b (some i)).setBankState b st).setBankDigest b d
  if st = 3 then s1.writeAdmission b 3 (admitImage s1 b i)
  else if st = 4 then
    let s2 := s1.updFrame fun f => { f with runBank := b }
    (s2.writeAdmission b 4 (admitImage s2 b i)).showImage i
  else s1

/-- TRACKING_COPY_RECEIVED (R286, Table PR-10). -/
def execTrackingCopyReceived (c : TrackingCopy) (s : State) : Host.Outcome State Fault Refusal :=
  if s.role ≠ .track then .next s
  else
    match c with
    | .forces v => .next (s.updFrame fun f => { f with forces := v.foldl (fun m e => sparseInsert m e.1.toNat e.2) [] })
    | .canPending c b f => .next (s.copyPending c.val b f)
    | .keys ids dec v => .next (s.copyKeys ids dec v)
    | .registers v => .next (s.copyRegs v).takeCopiedChannels
    | .windows v => .next (s.copyWins v)
    | .tack id time action target value owner =>
      .next (s.updFrame fun f =>
        copyTack f { id := id, time := time, action := action, target := target, value := value, owner := owner })
    | .nextTack id => .next (s.updFrame fun f => { f with nextTack := id })
    | .bank b st d i => .next (s.copyBank b.val st.val d i)
    | .page n d =>
      .next (((s.copyData d).setReg PAIR.TRACK_DONE (s.reg PAIR.TRACK_DONE + 4)).updPair fun p =>
        { p with dirty := p.dirty.filter (· ≠ n) })

/-- WRITE_MIRROR_RECEIVED (R287): `lost` says that the mirror of a frame was lost, which fails the round (R286); `pages` are pages the
leader marks dirty because it could not mirror a write. -/
def execWriteMirrorReceived (d : CopiedData) (pages : List Nat) (lost : Bool) (s : State) : Host.Outcome State Fault Refusal :=
  if s.role = .track ∧ 5 ≤ s.pair.phase then
    if lost then .next s.roundFailed
    else .next ((s.copyData d).updPair fun p => { p with dirty := p.dirty ++ pages.filter (fun n => n ∉ p.dirty) })
  else .next s

/-- Loop slots that are not off. -/
def State.slotsOn (s : State) : Nat := (List.range 256).countP fun k => decide (slotMode s k ≠ 0)

/-- The capture frame fits Table PR-11: two lanes, or one lane with at most 96 slots; `mirror` bytes were mirrored in it. -/
def joinFits (s : State) (mirror : Nat) : Bool :=
  if s.pair.lane0 && s.pair.lane1 then decide (mirror ≤ 12000)
  else (s.pair.lane0 || s.pair.lane1) && decide (mirror ≤ 6000) && decide (s.slotsOn ≤ 96)

/-- JOIN_TICK (R288): at a switch tick with no page dirty, the tracking module joins, or the tick is passed over. -/
def execJoinTick (mirror : Nat) (s : State) : Host.Outcome State Fault Refusal :=
  if s.role = .track ∧ s.pair.phase = 6 then
    let t := switchTickAfter s s.tb.now
    let s1 := s.advanceTo t
    if s1.pair.dirty = [] ∧ joinFits s1 mirror then
      let s2 := (s1.setReg PAIR.JOIN_SEC (secWord t)).setReg PAIR.JOIN_NS (nsWord t)
      .next (s2.updPair fun p => { p with phase := 7, verifyFrames := 0, hoConfirm := 0 })
    else if s1.pair.dirty = [] then .next (s1.updPair fun p => { p with passedOver := p.passedOver + 1 })
    else .next (s1.updPair fun p => { p with phase := 5 })
  else .next s

/-- SLOT_STATE_STREAM_RECEIVED (R288): the state of a slot from the capture frame. -/
def execSlotStateStreamReceived (slot : Byte) (states : List Dword) (s : State) : Host.Outcome State Fault Refusal :=
  if s.role = .track ∧ 6 ≤ s.pair.phase then
    let k := slot.toNat
    let old := sparseGet {} s.loop.slots k
    .next ({ s with loop :=
      { s.loop with slots := sparseSet {} s.loop.slots k { old with states := (states ++ List.replicate 11 0).take 11 } } }.updPair
        fun p => { p with slotsSeen := k :: p.slotsSeen.filter (· ≠ k) })
  else .next s

end Sys2Proof.Machine
end

