-- ==== Sys2Proof/Machine/Updates.lean ====
section
/-!
DEFINITION. Component updates, settings, keys and certificates (Firmware Update and Trust, R463 to R483).
-/

namespace Sys2Proof.Machine

open Reg

/-- The trust part of the state changed by `f`. -/
def State.updTrust (s : State) (f : Trust → Trust) : State := { s with trust := f s.trust }

/-- The power part of the state changed by `f`. -/
def State.updPower (s : State) (f : Power → Power) : State := { s with power := f s.power }

/-! ### Banks (R463, R468) -/

/-- The running bank of a component (0 A, 1 B). -/
def runningBank (s : State) (k : Nat) : Nat := b2n (s.regBit (UPD.C_STATE k) 31)

/-- The state of bank `b` of a component (R468). -/
def componentState (s : State) (k b : Nat) : Nat := if b = 0 then s.regFld (UPD.C_STATE k) 30 28 else s.regFld (UPD.C_STATE k) 26 24

/-- The state of a component's other bank. -/
def otherState (s : State) (k : Nat) : Nat := componentState s k (1 - runningBank s k)

/-- The state of bank `b` of a component set. -/
def State.setComponentState (s : State) (k b st : Nat) : State :=
  if b = 0 then s.putReg (UPD.C_STATE k) 30 28 st else s.putReg (UPD.C_STATE k) 26 24 st

/-- The package header of bank `b` of a component. -/
def package (s : State) (k b : Nat) : Package := sparseGet {} s.trust.packages (2 * k + b)

/-- The package in the running bank. -/
def runningPackage (s : State) (k : Nat) : Package := package s k (runningBank s k)

/-- The package in the other bank. -/
def otherPackage (s : State) (k : Nat) : Package := package s k (1 - runningBank s k)

/-- C_STATE [15:0], C_VER_RUN and C_VER_OTHER of a component from its banks (Table UP-6). -/
def State.showComponent (s : State) (k : Nat) : State :=
  (((s.putReg (UPD.C_STATE k) 15 0 (runningPackage s k).provided).setReg (UPD.C_VER_RUN k) (runningPackage s k).version).setReg
    (UPD.C_VER_OTHER k) (if otherState s k = 0 then 0 else (otherPackage s k).version))

/-- A package stored for bank `b` of a component. -/
def State.setPackage (s : State) (k b : Nat) (x : Package) : State :=
  (s.updTrust fun t => { t with packages := sparseSet {} t.packages (2 * k + b) x }).showComponent k

/-! ### Refusals (Table UP-3) -/

/-- A refusal recorded in UPD.REFUSE and UPD.ALARM.REFUSED. -/
def State.noteRefusal (s : State) (k : Nat) (r : Reply) : State :=
  (s.setReg UPD.REFUSE (BitVec.ofNat 32 (r.status.code * 16777216 + r.reason * 65536 + k % 8))).orReg UPD.ALARM 1

/-- The hold-up bank is below 80% of rated energy, or the lining cell is low (R337, R513, R526). -/
def holdupLow (s : State) : Bool := decide (s.regFld POWER.HU_ENERGY 31 16 < 8000) || s.regBit LINING.STATUS 28

/-- Role and mode permit an update (Table UP-3). -/
def updateRole (s : State) : Bool :=
  match s.role with
  | .active => false
  | .solo => decide (s.mode = .stop)
  | _ => true

/-- Role and mode permit a settings import (R482). -/
def importRole (s : State) : Bool := (decide (s.role = .out) || decide (s.role = .solo)) && decide (s.mode = .stop)

/-- The session, other than `n`, or the own one with an open upload handle for component `k`. -/
def componentHandle (s : State) (k : Nat) : Option Handle := s.qcp.handles.find? (fun h => h.kind = .component k)

/-- What Table UP-3 and R482 find against UPD_BEGIN. -/
def beginRefusal (s : State) (k : Nat) (rq : Requester) : Option Reply :=
  if (if k = 7 then !(importRole s) else !(updateRole s)) then some (refusal .wrongState)
  else if holdupLow s then some (refusal .refusedHoldup)
  else if k < 7 ∧ (otherState s k = 4 ∨ otherState s k = 6) then some (refusal .busy)
  else
    match componentHandle s k with
    | some h => if h.session ≠ rq.session then some (refusal .busy) else none
    | none => if 2 ≤ s.handleCount rq.session true then some (refusal .busy) else none

/-- The upload of a component opened (R468): an upload of the same session to the same bank is replaced. -/
def State.openComponent (s : State) (k size : Nat) (digest : BitVec 256) (rq : Requester) : State × Reply :=
  let s1 := match componentHandle s k with
    | some h => s.dropHandle h true
    | none => s
  let s2 := s1.setOtherBank k 1
  let o := s2.openHandle rq.session (.component k) size digest
  (o.1, doneWith [o.2.id, o.2.chunks, if k < 7 then 1 - runningBank s k else 0])

/-- UPD_BEGIN (R464, R468, R469, R482): Engineer, and Owner for the settings import. -/
def execUpdBegin (p : Pkt) (component : Byte) (zero : BitVec 24) (size : Word) (digest : BitVec 256) (s : State) :
    Host.Outcome State Fault Refusal :=
  let k := component.toNat
  let bad : Option Reply := if k = 6 ∨ 7 < k then some (refusal .badParameter 0 0)
    else if zero ≠ 0#24 then some (refusal .badParameter 0 1)
    else if size = 0#32 then some (refusal .badParameter 0 4) else none
  .next (s.request p 0x70 (if k = 7 then 3 else 2) (s.lockBit 0 || (decide (k = 7) && s.lockBit 3)) bad fun t rq =>
    match beginRefusal t k rq with
    | some r => (t.noteRefusal k r, some r)
    | none =>
      let o := t.openComponent k size.toNat digest rq
      (o.1, some o.2))

/-- The open component upload that a command names (R339). -/
def updateHandle (s : State) (id : Word) (rq : Requester) : Option (Handle × Nat) :=
  match s.handle id.toNat rq.session with
  | some h => match h.kind with
    | .component k => some (h, k)
    | _ => none
  | none => none

/-- UPD_CHUNK (R338, R339). -/
def execUpdChunk (p : Pkt) (handle index : Word) (data : List Byte) (s : State) : Host.Outcome State Fault Refusal :=
  .next (s.request p 0x71 2 false none fun t rq =>
    match updateHandle t handle rq with
    | none => (t, some (refusal .badParameter))
    | some (h, _) =>
      match offerChunk h index.toNat data t.tb.up with
      | .error r => (t, some r)
      | .ok h' => (t.setHandle h', some (doneWith [h'.id, h'.next])))

/-- UPD_VERIFY (R340, R468): ACCEPTED, and the checks run. -/
def execUpdVerify (p : Pkt) (handle : Word) (s : State) : Host.Outcome State Fault Refusal :=
  .next (s.request p 0x72 2 false none fun t rq =>
    match updateHandle t handle rq with
    | none => (t, some (refusal .badParameter))
    | some (h, k) =>
      if k = 7 ∧ !(importRole t) then (t, some (refusal .wrongState))
      else if h.next < h.chunks then (t, some (refusal .outOfSequence 0 h.next))
      else if t.trust.checking.isSome then (t, some (refusal .busy))
      else
        ((t.dropHandle h true).updTrust fun x =>
          { x with checking := some { component := k, size := h.size, digest := h.digest, bytes := joinChunks h.stored, by_ := some rq } },
          some accepted))

/-- The package header of Table UP-2 decoded. -/
def packageOf (h : List Byte) : Package :=
  { version := BitVec.ofNat 32 (headField h 8 4), provided := headField h 12 2, epoch := headField h 14 2
    requires := (List.range 7).map fun k => BitVec.ofNat 32 (headField h (16 + 4 * k) 4)
    encrypted := decide (headField h 5 1 % 2 = 1), decryptSlot := headField h 5 1 / 2 % 4 }

/-- The header check of R468 (Table UP-2) for component `k`. -/
def packageHeaderOk (s : State) (h : List Byte) (k size : Nat) : Bool :=
  decide (64 ≤ h.length) && decide (headField h 0 4 = 0x51555044) && decide (headField h 4 1 = k) && decide (headField h 5 1 < 8) &&
    decide (headField h 6 2 = 1) && decide (headField h 44 4 = size) && decide (headField h 48 16 = 0) &&
    decide ((packageOf h).version ≠ (runningPackage s k).version)

/-- The floor of a component: the higher of its fused epoch and its MRAM counter (R476). -/
def epochFloor (s : State) (k : Nat) : Nat :=
  let e := s.reg (UPD.C_EPOCH k)
  if fld e 15 0 < fld e 31 16 then fld e 31 16 else fld e 15 0

/-- The vendor's key verifies the signature that ends a package (R465, R475, Table UP-4). -/
def packageSigned (s : State) (bytes : List Byte) : Bool :=
  let g := endSignature bytes
  decide (g.2 = 0) && s.keyVerifies 0 g.1 (bytes.take (bytes.length - 68))

/-- A decryption slot holds a key (R475, R479): slot 0 always does. -/
def slotLoaded (s : State) (slot : Nat) : Bool := decide (slot = 0) || (s.cipherKey slot).isSome

/-- What a verification refuses with (R340, R468, R476, R479, R482). -/
def packageRefusal (s : State) (c : PackageCheck) (r : PackageVerdict) : Option Reply :=
  if sm3 c.bytes ≠ c.digest then some (refusal .badParameter 0x01)
  else if c.component = 7 then (if r.importOk then none else some (refusal .badParameter 0x02))
  else if !(packageHeaderOk s c.bytes c.component c.size) then some (refusal .badParameter 0x02)
  else if !(packageSigned s c.bytes) then some (refusal .notAuthorized 0x03)
  else if (packageOf c.bytes).epoch < epochFloor s c.component then some (refusal .replayed 0x04)
  else if (packageOf c.bytes).encrypted ∧ !(slotLoaded s (packageOf c.bytes).decryptSlot) then some (refusal .notAuthorized 0x05)
  else none

/-- UPD_VERIFY_COMPLETE (R340, R468): the bank becomes VERIFIED, event 0x604A, or EMPTY with the refusal's notice; a settings file that passes
is loaded (Table UP-6, IMPORT_RESULT). -/
def execUpdVerifyComplete (r : PackageVerdict) (s : State) : Host.Outcome State Fault Refusal :=
  match s.trust.checking with
  | none => .next s
  | some c =>
    let s0 := s.updTrust fun t => { t with checking := none }
    match packageRefusal s c r with
    | some e =>
      let s1 := (s0.setOtherBank c.component 0).noteRefusal c.component e
      let s2 := if e.reason = 0x03 then (s1.orReg SEC.ALARM 1).raiseBlock 0x7F04 else s1
      let s3 := if c.component = 7 then s2.setReg UPD.IMPORT_RESULT (BitVec.ofNat 32 (3 * 268435456 + r.format.toNat))
        else s2.setPackage c.component (1 - runningBank s c.component) {}
      .next (s3.notify 0x72 c.by_ e)
    | none =>
      let s1 := s0.count fun q => { q with transfers := q.transfers + 1 }
      let s2 := if c.component = 7 then
          ((s1.setReg UPD.IMPORT_RESULT (BitVec.ofNat 32 (268435456 + r.format.toNat))).setReg UPD.IMPORT_UNMAPPED
            (BitVec.ofNat 32 r.unmapped.length)).updTrust fun t => { t with unmapped := r.unmapped }
        else (s1.setOtherBank c.component 2).setPackage c.component (1 - runningBank s c.component) (packageOf c.bytes)
      .next ((s2.raiseQcp 0x604A ((c.by_.map (·.session)).getD 0)).notify 0x72 c.by_ done)

/-! ### The compatibility matrix and the pair window (R466, R467, R473) -/

/-- The package of component `j` in the installed set with component `k` taken from its other bank. -/
def installed (s : State) (k j : Nat) : Package := if j = k then otherPackage s j else runningPackage s j

/-- The first requirement of a list of words that the set does not meet: required component and range. -/
def unmetIn (provided : Nat → Nat) : Nat → List Word → Option (Nat × Word)
  | _, [] => none
  | j, w :: rest => if provided j < fld w 31 16 ∨ fld w 15 0 < provided j then some (j, w) else unmetIn provided (j + 1) rest

/-- The RTK range that a bank's image requires, when its state says that it counts (R466). -/
def imageRequires (s : State) (b st : Nat) : Option Word := if s.bankState b = st then some (s.reg (IMG.B_RTK_IF b)) else none

/-- What the installed set with component `k` taken from its other bank does not meet: requiring component, required component, range. -/
def matrixBlocker (s : State) (k : Nat) : Option (Nat × Nat × Word) :=
  let provided := fun (j : Nat) => (installed s k j).provided
  match (List.range 6).findSome? fun i => (unmetIn provided 0 (installed s k i).requires).map fun u => (i, u.1, u.2) with
  | some b => some b
  | none =>
    ([imageRequires s s.frame.runBank 4, imageRequires s s.otherBank 3].filterMap id).findSome? fun w =>
      if provided 2 < fld w 31 16 ∨ fld w 15 0 < provided 2 then some (6, 2, w) else none

/-- The matrix blocker shown (R467). -/
def State.showBlocker (s : State) (k : Nat) : State :=
  match matrixBlocker s k with
  | none => s
  | some (i, j, w) =>
    (s.setReg UPD.BLOCKER (BitVec.ofNat 32 (i * 268435456 + j * 16777216 + (installed s k j).provided))).setReg UPD.BLOCK_RANGE w

/-- What Table UP-3 finds against UPD_APPLY; `partner` is the partner's running version of the component. -/
def applyRefusal (s : State) (k : Nat) (partner : Option Word) : Option Reply :=
  if !(updateRole s) then some (refusal .wrongState)
  else if holdupLow s then some (refusal .refusedHoldup)
  else if (if k = 7 then decide (s.regFld UPD.IMPORT_RESULT 31 28 ≠ 1) else decide (otherState s k ≠ 2)) then some (refusal .wrongState)
  else if s.trust.applying.isSome ∨ s.frame.sw.isSome ∨ s.frame.runChange.isSome ∨ s.pair.handover.isSome ∨ s.trust.trial.isSome then
    some (refusal .busy)
  else if k = 7 then none
  else if (matrixBlocker s k).isSome then some (refusal .incompatible)
  else
    match partner with
    | some v =>
      if 1 ≤ k ∧ k ≤ 4 ∧ s.pair.partnerPresent ∧ !(inWindow (otherPackage s k).version v) then some (refusal .incompatible)
      else if (otherPackage s k).epoch < epochFloor s k then some (refusal .replayed 0x04) else none
    | none => if (otherPackage s k).epoch < epochFloor s k then some (refusal .replayed 0x04) else none

/-- An accepted apply (R470): the other bank is STAGED, the bank marker is committed, and MFW and RTK restart the module at the next frame
tick (Table UP-1). -/
def State.startApply (s : State) (k : Nat) (rq : Requester) : State :=
  let s1 := (s.setOtherBank k 3).updTrust fun t => { t with applying := some (k, some rq) }
  let s2 := s1.putReg UPD.STATUS 26 24 k
  if k = 1 ∨ k = 2 then s2.updFrame fun f => { f with restartDue := true } else s2

/-- The partner's running version of a component noted (R473). -/
def State.notePartner (s : State) (k : Nat) (partner : Option Word) : State :=
  match partner with
  | some v => if 1 ≤ k ∧ k ≤ 4 then
      s.updPair fun p => { p with partnerVersions := (List.range 4).map fun i => if i = k - 1 then v else p.partnerVersions.getD i 0 }
    else s
  | none => s

/-- UPD_APPLY (R467, R469, R470, R478); a matrix that refuses is named in UPD.BLOCKER. -/
def execUpdApply (p : Pkt) (component : Byte) (partner : Option Word) (s : State) : Host.Outcome State Fault Refusal :=
  let k := component.toNat
  .next (s.request p 0x73 2 (s.lockBit 0 || (decide (k = 7) && s.lockBit 3)) (if k = 6 ∨ 7 < k then some (refusal .badParameter) else none) fun t0 rq =>
    let t := t0.notePartner k partner
    match applyRefusal t k partner with
    | some r =>
      let t1 := if r.status = Status.incompatible then t.showBlocker k else t
      ((t1.noteRefusal k r).raiseBlock 0x7E04, some r)
    | none => (t.startApply k rq, some accepted))

/-! ### Trial and revert (R470 to R472) -/

/-- The applied bank runs in TRIAL and the bank that ran becomes FALLBACK (R470): event 0x7E01. -/
def State.enterTrial (s : State) (k : Nat) : State :=
  let b := runningBank s k
  let s1 := ((s.setComponentState k (1 - b) 4).setComponentState k b 6).putRegBit (UPD.C_STATE k) 31 (decide (b = 0))
  let s2 := (s1.showComponent k).updTrust fun t => { t with applying := none, trial := some k, trialStarts := 0 }
  let s3 := (s2.setReg UPD.TRIAL_LEFT (BitVec.ofNat 32 (s2.regFld UPD.CTRL 15 0))).satRegFld UPD.APPLIES 15 0
  (s3.setReg UPD.LAST_SEC (secWord s3.tb.now)).raiseBlock 0x7E01

/-- UPD_APPLY_COMPLETE (R470, Table UP-1): TRIAL, a notice. The field sides have restarted; the acquisition component takes effect at the next TAI
second and repeats the calibration check of R137. BOOT, MFW and RTK enter their trial at the start that activates them. -/
def execUpdApplyComplete (c : CalibrationCheck) (s : State) : Host.Outcome State Fault Refusal :=
  match s.trust.applying with
  | none => .next s
  | some (k, by_) =>
    if 3 ≤ k ∧ k ≤ 5 then
      let s1 := (if k = 5 then s.advanceTo ((secOf s.tb.now + 1) * secUnits) else s).enterTrial k
      let s2 := if k = 5 then s1.takeCalibration c else s1
      .next (s2.notify 0x73 by_ done)
    else .next s

/-- TRIAL_END (R471, R476), when no second of the trial is left: RUNNING, the old bank is VERIFIED, and the floor rises; event 0x7E02. -/
def execTrialEnd (s : State) : Host.Outcome State Fault Refusal :=
  match s.trust.trial with
  | none => .next s
  | some k =>
    let b := runningBank s k
    if s.reg UPD.TRIAL_LEFT ≠ 0 then .next s else
    let s1 := (s.setComponentState k b 5).setComponentState k (1 - b) 2
    let e := (runningPackage s k).epoch
    let s2 := if s1.regFld (UPD.C_EPOCH k) 15 0 < e then s1.putReg (UPD.C_EPOCH k) 15 0 e else s1
    let s3 := (s2.updTrust fun t => { t with trial := none, trialStarts := 0, original := none }).setReg UPD.TRIAL_LEFT 0
    .next ((s3.putReg UPD.SET_VER 15 0 0).raiseBlock 0x7E02)

/-- The settings store kept as original is in force again (R471, R481): the settings of every register, and the committed windows. -/
def State.restoreStore (s : State) : State :=
  match s.trust.original with
  | none => s
  | some o =>
    let s1 := { s with wins := o.wins }
    let s2 := (s.regs ++ o.regs).foldl (fun t e =>
      t.setReg e.1 (merge (settingMask e.1) (s.reg e.1) (sparseGet (regReset e.1) o.regs e.1))) s1
    (s2.setReg UPD.SET_VER (BitVec.ofNat 32 (o.version * 65536))).updTrust fun t => { t with original := none }

/-- The component in TRIAL reverts (R471): the marker goes back, its start takes place as Table UP-1 says, event 0x7E03. -/
def State.revert (s : State) (k : Nat) : State :=
  let b := runningBank s k
  let s1 := (((s.restoreStore.setComponentState k b 2).setComponentState k (1 - b) 5).putRegBit (UPD.C_STATE k) 31 (decide (b = 0))).showComponent k
  let s2 := (s1.updTrust fun t => { t with trial := none, trialStarts := 0 }).setReg UPD.TRIAL_LEFT 0
  let s3 := ((s2.satRegFld UPD.APPLIES 31 16).setReg UPD.LAST_SEC (secWord s.tb.now)).orReg UPD.ALARM 2
  let s4 := if k ≤ 2 then s3.updFrame fun f => { f with restartDue := true } else s3
  s4.raiseBlock 0x7E03

/-- A cause of R471 has come about since the component was applied: the start-up test failed, a record of severity 4 was made since, the migration of
this start failed, tracking ended in OUT with cause 0x09, or a third start in TRIAL has not reached STANDBY, ACTIVE or SOLO. -/
def trialFailed (s : State) (c : TrialFailure) : Bool :=
  match c with
  | .startupTest => decide (s.regFld LOCK.TEST_STATUS 31 28 = 3)
  | .fatalEvent => s.evr.records.any fun r => decide (r.severity = 4) && decide ((s.reg UPD.LAST_SEC).toNat ≤ r.firstSec % 4294967296)
  | .migration => s.regBit UPD.ALARM 2
  | .tracking => decide (s.role = .out) && decide (s.reg PAIR.OUT_CAUSE = 9)
  | .starts => decide (3 ≤ s.trust.trialStarts) && !s.pair.reached

/-- TRIAL_FAILURE_REVERT (R471), when the cause it names has come about. -/
def execTrialFailureRevert (cause : TrialFailure) (s : State) : Host.Outcome State Fault Refusal :=
  match s.trust.trial with
  | none => .next s
  | some k => .next (if trialFailed s cause then s.revert k else s)

/-- The effect of an accepted UPD.REVERT (R472). -/
def State.revertNow (s : State) : State :=
  match s.trust.trial with
  | none => s
  | some k => s.revert k

/-- The effect of UPD.CLEAR (Table UP-6). -/
def State.updClear (s : State) : State := s.zeroRegs [UPD.REFUSE, UPD.BLOCKER, UPD.BLOCK_RANGE]

/-- UPD_STATUS (R483). -/
def execUpdStatus (p : Pkt) (component : Byte) (s : State) : Host.Outcome State Fault Refusal :=
  let k := component.toNat
  .next (s.request p 0x74 0 false (if 7 < k then some (refusal .badParameter) else none) fun t _ =>
    let regs := if k = 7 then [t.view UPD.STATUS, t.view UPD.IMPORT_RESULT]
      else [t.view UPD.STATUS, t.view (UPD.C_STATE k), t.view (UPD.C_VER_RUN k), t.view (UPD.C_VER_OTHER k), t.view (UPD.C_EPOCH k)]
    (t, some { status := .done, fields := regs.map (·.toNat), payload := (t.trust.unmapped.take 256).map (·.toNat) }))

/-- SETTINGS_IMPORT (R482): the migrated settings wait for the next warm restart, every current-loop channel with COMPAT set; or the chain
fails. -/
def execSettingsImport (values : Option (List (Nat × Word))) (steps : Half) (s : State) : Host.Outcome State Fault Refusal :=
  match s.trust.applying with
  | some (7, by_) =>
    let s1 := (s.updTrust fun t => { t with applying := none }).putReg UPD.SET_CHAIN 15 0 steps.toNat
    match values with
    | some v =>
      let compat := (List.range 8).map fun n =>
        (AO.CH_CFG n, putBit (((v.find? (fun x => x.1 = AO.CH_CFG n)).map (·.2)).getD (s.reg (AO.CH_CFG n))) 27 true)
      let s2 := (s1.updTrust fun t => { t with nextStore := some (v.filter (fun x => !(compat.any (fun c => c.1 = x.1))) ++ compat) }).putReg
        UPD.IMPORT_RESULT 31 28 2
      .next ((s2.raiseBlock 0x7E06).notify 0x73 by_ done)
    | none =>
      .next (((s1.putReg UPD.IMPORT_RESULT 31 28 3).orReg UPD.ALARM 4).notify 0x73 by_ (refusal .internalFault))
  | _ => .next s

/-! ### Keys (R475 to R480) -/

/-- Sessions opened with a key slot end (R477). -/
def State.endSlotSessions (s : State) (slot : Nat) : State :=
  s.endSessions ((s.qcp.sessions.filter (fun x => x.slot = slot)).map (·.number))

/-- A change of a key (Table UP-5, SEC.ALARM). -/
def State.keyChanged (s : State) : State := (s.orReg SEC.ALARM 4).raiseBlock 0x7F01

/-- The key slots that KEY_ENROL may write: 1 to 14. -/
def keySlotOk (slot : Byte) : Bool := decide (1 ≤ slot.toNat ∧ slot.toNat ≤ 14)

/-- The public key that a KEY_ENROL carries (R477). -/
def keyPoint (k : KeyRequest) : BitVec 512 := BitVec.ofNat 512 (beNat (k.payload.take 64))

/-- The serial identity of the module (Table HW-9). -/
def serialOf (s : State) : Nat := (s.reg ID.SERIAL_HI).toNat * 4294967296 + (s.reg ID.SERIAL_LO).toNat

/-- The proof of a KEY_ENROL (R477): a signature by the key itself over the serial identity of the module. -/
def keyProofOk (s : State) (k : KeyRequest) : Bool :=
  decide (k.payload.length = 128) &&
    sm2Verifies (beBytes 16 k.ident.toNat) (keyPoint k) (BitVec.ofNat 512 (beNat (k.payload.drop 64))) (beBytes 8 (serialOf s))

/-- The first four bytes of the SM3 digest of a public key (SEC.KEY_ID). -/
def keyIdOf (key : BitVec 512) : Word := BitVec.ofNat 32 ((sm3 (beBytes 64 key.toNat)).toNat / 2 ^ 224)

/-- A public key put into a slot; the first of slot 1 erases slot 15 (R477). -/
def State.enrolKey (s : State) (slot : Nat) (k : KeyRequest) : State :=
  let n := satTo 65535 (s.regFld (SEC.KEY_INFO slot) 15 0 + 1)
  let s1 := (s.setReg (SEC.KEY_INFO slot)
    (BitVec.ofNat 32 (2147483648 + k.role.toNat * 268435456 + k.usage.toNat * 16777216 + n))).setReg (SEC.KEY_ID slot) (keyIdOf (keyPoint k))
  let s2 := s1.updTrust fun t => { t with keys := sparseInsert t.keys slot { ident := k.ident, key := keyPoint k } }
  if slot = 1 then (s2.zeroRegs [SEC.KEY_INFO 15, SEC.KEY_ID 15]).updTrust fun t => { t with keys := t.keys.filter (fun x => x.1 ≠ 15) } else s2

/-- KEY_ENROL with action 0 (R477). -/
def execKeyEnrol (p : Pkt) (slot : Byte) (k : KeyRequest) (s : State) : Host.Outcome State Fault Refusal :=
  let bad : Option Reply := if !(keySlotOk slot) then some (refusal .badParameter 0 1)
    else if 3 < k.role.toNat then some (refusal .badParameter 0 2)
    else if 3 < k.usage.toNat then some (refusal .badParameter 0 3) else none
  .next (s.request p 0x90 3 false bad fun t rq =>
    if !(keyProofOk t k) then ((t.orReg SEC.ALARM 1).raiseBlock 0x7F04, some (refusal .notAuthorized))
    else
      let t1 := ((t.enrolKey slot.toNat k).keyChanged).answer 0x90 rq done
      let t2 := t1.endSlotSessions slot.toNat
      (if slot.toNat = 1 then t2.endSlotSessions 15 else t2, none))

/-- KEY_ENROL with action 1 (R477): the slot is revoked and its sessions end. -/
def execKeyRevoke (p : Pkt) (slot : Byte) (s : State) : Host.Outcome State Fault Refusal :=
  .next (s.request p 0x90 3 false (if keySlotOk slot then none else some (refusal .badParameter 0 1)) fun t rq =>
    ((((t.putRegBit (SEC.KEY_INFO slot.toNat) 30 true).keyChanged).answer 0x90 rq done).endSlotSessions slot.toNat, none))

/-- KEY_ENROL with action 2 (R475, R477): decryption slots 1 to 3; `opened` is the key that the device's private key opens from the payload, if it
opens one. -/
def execKeyLoadDecryption (p : Pkt) (slot : Byte) (opened : Option (BitVec 128)) (s : State) : Host.Outcome State Fault Refusal :=
  .next (s.request p 0x90 3 false (if 1 ≤ slot.toNat ∧ slot.toNat ≤ 3 then none else some (refusal .badParameter 0 1)) fun t _ =>
    match opened with
    | none => (t, some (refusal .badParameter))
    | some key =>
      (((t.updTrust fun x => { x with decryption := sparseInsert x.decryption slot.toNat key }).putRegBit SEC.STATUS slot.toNat true).keyChanged,
        some done))

/-- The owner lock set to a mask: event 0x7F02 (R478). -/
def State.setLock (s : State) (mask : Nat) : State := ((s.putReg SEC.LOCK 3 0 mask).orReg SEC.ALARM 2).raiseBlock 0x7F02

/-- OWNER_LOCK (R478). -/
def execOwnerLock (p : Pkt) (key : Half) (mask : Byte) (s : State) : Host.Outcome State Fault Refusal :=
  let bad : Option Reply := if key ≠ 0x4F4C#16 then some (refusal .badParameter 0 0)
    else if 15 < mask.toNat then some (refusal .badParameter 0 2) else none
  .next (s.request p 0x91 3 false bad fun t _ => (t.setLock mask.toNat, some done))

/-- Debug access ends (R249): the held pairs stay held. -/
def State.endDebugAccess (s : State) : State := s.updLock fun l => { l with debugAccess := 0 }

/-- The debug certificate in force ends (R480): event 0x7F03. -/
def State.endCert (s : State) : State :=
  match s.trust.cert with
  | none => s
  | some _ =>
    (((s.updTrust fun t => { t with cert := none }).zeroRegs [SEC.DEBUG_INFO, SEC.DEBUG_UNTIL]).endDebugAccess).raiseBlock 0x7F03

/-- The certificate of a DEBUG_CERT payload (R480): its pairs permitted, serial identity, not-before and not-after. -/
def certPairs (c : List Byte) : Nat := headField c 1 1
def certSerial (c : List Byte) : Nat := headField c 8 8
def certBegin (c : List Byte) : Nat := headField c 16 8
def certEnd (c : List Byte) : Nat := headField c 24 8

/-- The form of a DEBUG_CERT payload (R480): 96 bytes of certificate with its version and zeros, and 64 bytes of signature. -/
def certForm (c : List Byte) : Bool :=
  decide (c.length = 160) && decide (headField c 0 1 = 1) && decide (certPairs c ≤ 3) && decide (headField c 2 6 = 0) && decide (headField c 32 64 = 0)

/-- The slot whose key gives Owner authority (SEC.OWNER_SLOT). -/
def ownerSlot (s : State) : Nat := fld (s.view SEC.OWNER_SLOT) 3 0

/-- What refuses a debug certificate (R480). -/
def certRefusal (s : State) (c : List Byte) : Option Reply :=
  if !(certForm c) then some (refusal .badParameter)
  else if certSerial c ≠ serialOf s ∨ 604800 < certEnd c - certBegin c then some (refusal .badParameter)
  else if !(s.keyVerifies (ownerSlot s) (BitVec.ofNat 512 (beNat (c.drop 96))) (c.take 96)) then some (refusal .notAuthorized)
  else if s.tb.quality.code ≤ 1 ∨ secOf s.tb.now < certBegin c ∨ certEnd c < secOf s.tb.now then some (refusal .wrongState)
  else none

/-- A debug certificate put in force (R480): event 0x7F03. -/
def State.takeCert (s : State) (c : List Byte) : State :=
  (((s.updTrust fun x => { x with cert := some (certPairs c, certEnd c) }).setReg SEC.DEBUG_INFO
    (BitVec.ofNat 32 (ownerSlot s * 16777216 + certPairs c))).setReg SEC.DEBUG_UNTIL (BitVec.ofNat 32 (certEnd c))).raiseBlock 0x7F03

/-- DEBUG_CERT (R480). -/
def execDebugCert (p : Pkt) (payload : List Byte) (s : State) : Host.Outcome State Fault Refusal :=
  .next (s.request p 0x92 3 (s.lockBit 2) none fun t _ =>
    match certRefusal t payload with
    | some r => (if r.status = Status.notAuthorized then (t.orReg SEC.ALARM 1).raiseBlock 0x7F04 else t, some r)
    | none => (t.takeCert payload, some done))

/-- DEBUG_CERT without payload (R480). -/
def execDebugCertEnd (p : Pkt) (s : State) : Host.Outcome State Fault Refusal :=
  .next (s.request p 0x92 3 (s.lockBit 2) none fun t _ => (t.endCert, some done))

/-- DEBUG_CERT_EXPIRY (R480): not-after. -/
def execDebugCertExpiry (s : State) : Host.Outcome State Fault Refusal :=
  match s.trust.cert with
  | none => .next s
  | some (_, t) => .next ((s.advanceTo (t * secUnits)).endCert)

/-- DEBUG_REQUEST (R249): accepted in HOLD on a held pair under a valid certificate that permits it; otherwise event 0x030A. -/
def execDebugRequest (pair : Fin 2) (s : State) : Host.Outcome State Fault Refusal :=
  match s.trust.cert with
  | some (pairs, _) =>
    if s.mode = .hold ∧ s.regBit LOCK.STATUS (16 + pair.val) ∧ pairs.testBit pair.val ∧ certInForce s then
      .next (s.updLock fun l => { l with debugAccess := l.debugAccess ||| 2 ^ pair.val })
    else .next (s.raiseBlock 0x030A)
  | none => .next (s.raiseBlock 0x030A)

/-- The effect of SEC.FUSE_CMD with its key (R476): the running epoch of a component is fused; refused for no component and for an epoch
below the MRAM counter. What is fused already stays. -/
def State.fuseEpoch (s : State) (v : Word) : State × Status :=
  let k := fld v 10 8
  let e := fld v 7 0
  if 6 < k ∨ e < s.regFld (UPD.C_EPOCH k) 15 0 then (s, .badParameter)
  else (((s.putReg (UPD.C_EPOCH k) 31 16 (if e < s.regFld (UPD.C_EPOCH k) 31 16 then s.regFld (UPD.C_EPOCH k) 31 16 else e)).orReg SEC.ALARM 8).raiseBlock 0x7F05, .done)

end Sys2Proof.Machine
end

