-- ==== Sys2Proof/Machine/Power.lean ====
section
/-!
DEFINITION. The supply, the hold-up bank and the power-loss sequence (R506 to R519), and the front panel's lamp test and locate (R491).
-/

namespace Sys2Proof.Machine

open Reg

/-! ### A start from main power (R509, Sequence HW-1) -/

/-- POWER_APPLIED (R509): the input rises above 35.0 V; the start delay of the slot begins unless the lever is open (R499). -/
def execPowerApplied (slot : BitVec 5) (s : State) : Host.Outcome State Fault Refusal :=
  let s1 := s.setReg POWER.START_DELAY (BitVec.ofNat 32 (40 * slot.toNat))
  .next (s1.updPower fun p =>
    { p with powered := true, supply := if s.pair.lever then .off else .delay, delaySince := s.tb.up })

/-- START_DELAY_EXPIRY (R509): D has passed, and the bank charges. -/
def execStartDelayExpiry (s : State) : Host.Outcome State Fault Refusal :=
  if s.power.supply = .delay then
    .next ((s.advanceUp (s.power.delaySince + (s.reg POWER.START_DELAY).toNat * msUnits)).updPower fun p => { p with supply := .charging })
  else .next s

/-- Rails 0 to 9 on and in regulation, with the housekeeping rails 10 and 11 (R509). -/
def State.railsOn (s : State) : State :=
  (List.range 12).foldl (fun t r => t.setReg (POWER.RAIL_STAT r) ((s.reg (POWER.RAIL_STAT r) &&& 0x0000FFFF#32) ||| 0xC0000000#32))
    (s.putReg POWER.STATUS 11 0 0xFFF)

/-- HOLDUP_BANK_CHARGED (R509, R511): the bank is at 95.0 V, and the rails start in ascending order. -/
def execHoldupBankCharged (s : State) : Host.Outcome State Fault Refusal :=
  if s.power.supply = .charging then
    .next ((((s.putRegBit POWER.STATUS 30 true).setReg POWER.HU_V 95000).railsOn).updPower fun p => { p with supply := .rails })
  else .next s

/-- RESET_RELEASE (R509, R491, Sequence HW-1): the module leaves reset and the lamp test begins; a start released by the lever counts as an
insertion. -/
def execResetRelease (s : State) : Host.Outcome State Fault Refusal :=
  if s.power.supply = .rails then
    let s1 := s.updPower fun p => { p with supply := .running, lamp := true, inserted := false }
    .next (if s.power.inserted then s1.incReg ID.INSERTIONS else s1)
  else .next s

/-- LAMP_TEST_END (R491). -/
def execLampTestEnd (s : State) : Host.Outcome State Fault Refusal := .next (s.updPower fun p => { p with lamp := false })

/-- ID.LOCATE written with a number of seconds (R491): 1 to 3,600 begin the blinking with event 0x0004, 0 ends it. -/
def State.locate (s : State) (v : Nat) : State × Status :=
  if 3600 < v then (s, .badParameter)
  else
    let s1 := s.updPower fun p => { p with locateEnd := if v = 0 then 0 else s.tb.up + v * secUnits }
    (if v = 0 then s1 else s1.raiseBlock 0x0004, .done)

/-- LOCATE_END (R491). -/
def execLocateEnd (s : State) : Host.Outcome State Fault Refusal :=
  .next ((s.advanceUp s.power.locateEnd).updPower fun p => { p with locateEnd := 0 })

/-! ### Input warnings and rails (R506, R507, R530) -/

/-- The input voltage measured: its extremes and the range bits of POWER.STATUS (Tables PW-1, PW-9 and PW-10). -/
def State.inputVolts (s : State) (mv : Nat) : State :=
  let least := s.reg POWER.IN_MIN
  let s1 := (s.setReg POWER.IN_V (BitVec.ofNat 32 mv)).setReg POWER.IN_MIN
    (if least = 0 ∨ mv < least.toNat then BitVec.ofNat 32 mv else least)
  let s2 := s1.setReg POWER.IN_MAX (maxWord (s1.reg POWER.IN_MAX) (BitVec.ofNat 32 mv))
  (s2.putRegBit POWER.STATUS 25 (decide (33000 ≤ mv ∧ mv < 36000))).putRegBit POWER.STATUS 24 (decide (60000 < mv))

/-- The severity of event 0x0406: 2, or 1 when POWER.CFG says so (Tables PW-8 and PW-9). -/
def inputSeverity (s : State) : Nat := if s.regBit POWER.CFG 0 then 1 else 2

/-- INPUT_LOW_WARNING (R506): 33.0 to 36.0 V. -/
def execInputLowWarning (mv : BitVec 17) (s : State) : Host.Outcome State Fault Refusal :=
  if 33000 ≤ mv.toNat ∧ mv.toNat < 36000 then
    .next (((s.inputVolts mv.toNat).orReg POWER.ALARM 1).raiseWith 0x0406 (inputSeverity s) 0xFFFF [])
  else .next s

/-- INPUT_HIGH_WARNING (R530): above 60.0 V. -/
def execInputHighWarning (mv : BitVec 17) (s : State) : Host.Outcome State Fault Refusal :=
  if 60000 < mv.toNat then
    .next (((s.inputVolts mv.toNat).orReg POWER.ALARM 2).raiseWith 0x0406 (inputSeverity s) 0xFFFF [])
  else .next s

/-- BROWNOUT (R507): a bridged dip is counted and has no other effect. -/
def execBrownout (s : State) : Host.Outcome State Fault Refusal := .next (s.incReg POWER.BROWNOUTS)

/-- RAIL_FAULT (R530): counted, event 0x0407. -/
def execRailFault (r : Fin 12) (s : State) : Host.Outcome State Fault Refusal :=
  .next (((((s.putRegBit POWER.STATUS r.val false).putRegBit (POWER.RAIL_STAT r.val) 30 false).incReg (POWER.RAIL_FAULTS r.val)).orReg
    POWER.ALARM 16).raise 0x0407 r.val)

/-- The effect of POWER.CLEAR (Table PW-9). -/
def State.powerClear (s : State) : State :=
  s.zeroRegs ([POWER.IN_MIN, POWER.IN_MAX, POWER.BROWNOUTS, POWER.INRUSH_PEAK] ++ (List.range 12).map POWER.RAIL_P_MAX)

/-- OVEN_WARM_UP_END (R508): the QC-880-1 oven is warm; there is no oven in the QC-880-0. -/
def execOvenWarmUpEnd (s : State) : Host.Outcome State Fault Refusal :=
  if s.regFld ID.ORDER 15 8 = 1 then .next (s.putRegBit POWER.OVEN 31 true) else .next s

/-! ### The hold-up measurement (R511 to R513) -/

/-- A measurement begun: the charger stops and the load is drawn; one at a time, and none during a power-loss sequence (R512). -/
def State.startMeasurement (s : State) : State :=
  if s.power.measuring.isSome ∨ s.power.loss ≠ .none then s
  else s.updPower fun p => { p with measuring := some s.tb.up }

/-- HOLDUP_MEASUREMENT_START (R512): at a start once the bank is charged, and every POWER.HU_INT hours after the last one. -/
def execHoldupMeasurementStart (s : State) : Host.Outcome State Fault Refusal :=
  match s.power.measuredAt with
  | some t => .next (s.advanceUp (t + (s.reg POWER.HU_INT).toNat * 3600 * secUnits)).startMeasurement
  | none => .next s.startMeasurement

/-- The capacitance of a measurement in 0.1 µF: 50 µC, or 0.05 µC for each 0.1 µs of a load ended at 1.000 V, over the drop (R512). -/
def holdupCap (r : HoldupResult) : Nat :=
  match r.early with
  | some t => t.val / 2
  | none => 5000000 / r.drop.toNat

/-- The usable energy as a share of the rated energy in 0.01%, and in mJ, from the capacitance in 0.1 µF (R511, R513). -/
def holdupEnergy (cap : Nat) : Nat × Nat := (satTo 65535 (cap * 10 / 3), satTo 65535 ((cap * 37125 + 50000) / 100000))

/-- The share class of Table PW-3: 1 at or above 80%, 2 from 30% to 80%, 3 below 30% or when the load ended early (R512). -/
def holdupClass (r : HoldupResult) (share : Nat) : Nat := if r.early.isSome ∨ share < 3000 then 3 else if share < 8000 then 2 else 1

/-- A health flag of POWER.STATUS as a measurement leaves it: when it becomes set, its alarm bit and event follow (Table PW-3). -/
def State.healthFlag (s : State) (b alarm code : Nat) (v : Bool) : State :=
  let s1 := s.putRegBit POWER.STATUS b v
  if v ∧ ¬ s.regBit POWER.STATUS b then (s1.putRegBit POWER.ALARM alarm true).raiseBlock code else s1

/-- HOLDUP_MEASUREMENT_END (R512, R513). -/
def execHoldupMeasurementEnd (r : HoldupResult) (s : State) : Host.Outcome State Fault Refusal :=
  match s.power.measuring with
  | none => .next s
  | some t =>
    let s0 := s.advanceUp (t + (match r.early with
      | some x => x.val
      | none => 1000) * (nsUnits * 100))
    let cap := holdupCap r
    let e := holdupEnergy cap
    let cls := holdupClass r e.1
    let s1 := ((s0.setReg POWER.HU_CAP (BitVec.ofNat 32 cap)).setReg POWER.HU_ENERGY (BitVec.ofNat 32 (e.1 * 65536 + e.2))).setReg
      POWER.HU_RESULT (BitVec.ofNat 32 (cls * 268435456 + (if r.early.isSome then 10000 else r.drop.toNat)))
    let s2 := s1.updPower fun p => { p with measuring := none, measuredAt := some s1.tb.up }
    .next ((s2.healthFlag 29 2 0x0404 (decide (2 ≤ cls))).healthFlag 28 3 0x0405 (decide (cls = 3)))

/-! ### Power loss (R514 to R519) -/

/-- A power loss detected (R514): PF, its counters and event 0x0401; a hold-up measurement is abandoned (R512) and a pending handover
and a pending switch are cancelled (R519, R121). -/
def State.losePower (s : State) : State :=
  if s.power.loss = .none then
    let s1 := s.updPower fun p =>
      { p with loss := .detected, lossAt := s.tb.up, measuring := none }
    let s2 := if s.power.measuring.isSome then s1.setReg POWER.HU_RESULT 0x40000000 else s1
    let s3 := ((s2.incReg POWER.PF_COUNT).setReg POWER.PF_LAST_SEC (secWord s.tb.now)).setReg POWER.PF_LAST_NS (qualityNs s.tb.quality s.tb.now)
    ((s3.raiseBlock 0x0401).cancelHandover).cancelSwitch none
  else s

/-- POWER_LOSS_DETECTED (R514). -/
def execPowerLossDetected (s : State) : Host.Outcome State Fault Refusal := .next s.losePower

/-- OVERVOLTAGE (R506): the input is disconnected and the power-loss sequence runs. -/
def execOvervoltage (s : State) : Host.Outcome State Fault Refusal :=
  .next ((s.putRegBit POWER.STATUS 24 true).updPower fun p => { p with powered := false }).losePower

/-- A load shed: its rail is off (R514). -/
def State.shed (s : State) (r : Nat) : State :=
  (s.setReg (POWER.RAIL_STAT r) 0x20000000).putRegBit POWER.STATUS r false

/-- The claim dropped for good in a power loss (R515). -/
def State.releaseYoke (s : State) : State := s.updPair fun p => { p with claim := false, clamped := true }

/-- POWER_LOSS_TICK (R514, R515): at the next frame tick no task is released and the loop engine halts, the services and sessions stop,
loads are shed, the commit begins, and the yoke is released or kept by role. -/
def execPowerLossTick (s : State) : Host.Outcome State Fault Refusal :=
  if s.power.loss = .detected then
    let s0 := s.advanceTo (tickAtOrAfter (s.frame.t0 + frameUnits))
    let keep := (decide (s.role = .active) && !s.pair.claimPartner) || decide (s.role = .solo)
    let s1 := s0.endAllSessions.abandonTasks
    let s2 := (([4, 5, 6, 7] : List Nat).foldl State.shed s1).updNet fun n => { n with leading := none }
    let s3 := (List.range 5).foldl (fun t p => t.setLink p false 0) s2
    let s4 := s3.updPower fun p =>
      { p with loss := .committing, lossTick := s3.tb.up, lossRole := s.role, yokeKept := keep }
    .next (if keep then s4 else s4.releaseYoke)
  else .next s

/-- The instances of the running image whose storage is retentive (R107, R516). -/
def retentiveStore (s : State) : List (Nat × Storage) :=
  match s.image with
  | none => []
  | some i => retentivePart i s.frame.store

/-- The retentive data, the tack queue and the lining counters copied to MRAM (R516, R523, R97). -/
def State.retain (s : State) : State :=
  let s1 := s.updFrame fun f => { f with retained := retentiveStore s, retainedTacks := f.tacks }
  (s1.updPower fun p =>
    { p with copySec := s.reg LINING.OP_SEC, copyCycles := s.reg LINING.POWER_CYCLES, copyBoot := BitVec.ofNat 16 (s.regFld LINING.BOOT_CFG 15 0)
             copyAt := s.tb.up }).setReg LINING.MIRROR_SEC (secWord s.tb.now)

/-- RETENTIVE_COMMIT_COMPLETE (R516, R455, R515): `us` after the power-loss tick the marker is switched, the power-loss record is the last
one, and a yoke that was kept is released; a comparator fault stops the commit (R234). -/
def execRetentiveCommitComplete (us bytes : Word) (s : State) : Host.Outcome State Fault Refusal :=
  if s.power.loss = .committing ∧ !(s.regBit LOCK.STATUS 31) then
    let s0 := s.advanceUp (s.power.lossTick + us.toNat * (1000 * nsUnits))
    let s1 := ((s0.retain.setReg POWER.PF_COMMIT_US us).setReg POWER.PF_BYTES bytes).setReg POWER.PF_RESULT
      (BitVec.ofNat 32 (268435456 + s.power.lossRole.code * 16777216 + b2n s.power.yokeKept))
    let s2 := s1.recordEvent (eventNow s1 0x0402 (eventKind 0x0402).severity 0xFFFF [])
    .next ((s2.updPower fun p => { p with loss := .committed }).releaseYoke)
  else .next s

/-- POWER_LOSS_SEQUENCE_END (R517, R518): the module is in reset; with the input back it starts again with D = 0. A commit that did not
reach its marker leaves the previous one in force. -/
def execPowerLossSequenceEnd (e : LossEnd) (s : State) : Host.Outcome State Fault Refusal :=
  if s.power.loss = .committing ∨ s.power.loss = .committed then
    let done := decide (s.power.loss = .committed)
    let cause := if done then 1 else if s.regBit LOCK.STATUS 31 then 3 else 2
    let s0 := s.advanceUp (s.power.lossAt + e.holdMicros.toNat * (1000 * nsUnits))
    let s1 := (((s0.setReg POWER.PF_RESULT
      (BitVec.ofNat 32 (cause * 268435456 + s.power.lossRole.code * 16777216 + b2n s.power.yokeKept))).setReg POWER.PF_HOLD_US e.holdMicros).setReg
      POWER.SHED_P e.draw).setReg POWER.HU_MIN_V e.lowest
    let s2 := s1.releaseYoke.updPower fun p =>
      { p with loss := .none, afterLoss := true, stale := !done, powered := e.inputBack, delaySince := s0.tb.up
               supply := if e.inputBack then .delay else .off }
    let s3 := (s2.setReg POWER.START_DELAY 0).updEvr fun x => { x with intake := [] }
    .next (s3.updPair fun p => { p with share := false, takeoverOut := false, grant := false })
  else .next s

end Sys2Proof.Machine
end

