-- ==== Sys2Proof/Machine/Lining.lean ====
section
/-!
DEFINITION. The lining (R520 to R528): the cell, the drawer, the tamper latch, the RTC and the MRAM copies; partner presence (R501) and logged
memory errors (R278).
-/

namespace Sys2Proof.Machine

open Reg

/-- The lining's STATUS bit `b` set, with its alarm bit and event when it becomes set (R526). -/
def State.cellFlag (s : State) (b alarm code : Nat) : State :=
  if s.regBit LINING.STATUS b then s
  else ((s.putRegBit LINING.STATUS b true).putRegBit LINING.ALARM alarm true).raiseBlock code

/-- A cell test's result (R526), with the cell voltage under load (0 without a cell) and the supercapacitor's, mV. -/
def State.testCell (s : State) (cell cap : Nat) : State :=
  let s1 := (s.setReg LINING.CELL (BitVec.ofNat 32 (cell * 65536 + cap))).setReg LINING.CELL_TEST_SEC (secWord s.tb.now)
  let s2 := if cell < 3300 then s1.cellFlag 28 0 0x0501 else s1
  let s3 := if cell < 3000 then s2.cellFlag 27 1 0x0502 else s2
  if 3400 ≤ cell then (s3.putRegBit LINING.STATUS 28 false).putRegBit LINING.STATUS 27 false else s3

/-- CELL_TEST (R526): the daily test, while main power is present, a day after the last one of this start. -/
def execCellTest (cell cap : Half) (s : State) : Host.Outcome State Fault Refusal :=
  if s.power.powered then
    let s1 := match s.power.cellAt with
      | some t => s.advanceUp (t + 86400 * secUnits)
      | none => s
    .next ((s1.updPower fun p => { p with cellAt := some s1.tb.up }).testCell cell.toNat cap.toNat)
  else .next s

/-- DRAWER_CLOSED (R526): every closing triggers a cell test while main power is present. -/
def execDrawerClosed (cell cap : Half) (s : State) : Host.Outcome State Fault Refusal :=
  let s1 := s.putRegBit ID.STATUS 30 true
  if s.power.powered then .next (s1.testCell cell.toNat cap.toNat) else .next s1

/-- DRAWER_OPENED (R527): counted while main power is off (Table PW-11). -/
def execDrawerOpened (s : State) : Host.Outcome State Fault Refusal :=
  let s1 := s.putRegBit ID.STATUS 30 false
  if s.power.powered then .next s1 else .next (s1.incReg LINING.CELL_CHANGES)

/-- TAMPER_OPENING (R524): every opening is counted, the first one latched with its RTC time; the event is raised at once while the module
runs, else at the next start. -/
def execTamperOpening (s : State) : Host.Outcome State Fault Refusal :=
  let s1 := (s.satRegFld LINING.TAMPER 15 0).updPower fun p => { p with tamperOpen := true }
  let s2 := if s.regBit LINING.TAMPER 30 then s1
    else (s1.putRegBit LINING.TAMPER 30 true).setReg LINING.TAMPER_SEC (BitVec.ofNat 32 (rtcNow s / 32768))
  if s.power.supply = .running then .next ((s2.orReg LINING.ALARM 4).raiseBlock 0x0503)
  else .next (s2.updPower fun p => { p with tamperDue := true })

/-- The effect of LINING.TAMPER_ACK with its key (R524): the latch is cleared. -/
def State.ackTamper (s : State) : State := s.putRegBit LINING.TAMPER 30 false

/-- LINING_MIRROR (R523): every hour both counters and the boot configuration word are copied into MRAM. -/
def execLiningMirror (s : State) : Host.Outcome State Fault Refusal :=
  let s1 := s.advanceUp (s.power.copyAt + 3600 * secUnits)
  .next ((s1.updPower fun p =>
    { p with copySec := s1.reg LINING.OP_SEC, copyCycles := s1.reg LINING.POWER_CYCLES
             copyBoot := BitVec.ofNat 16 (s1.regFld LINING.BOOT_CFG 15 0), copyAt := s1.tb.up }).setReg LINING.MIRROR_SEC (secWord s1.tb.now))

/-- RTC_WRITE (R22, R521): at the TAI second, while the quality is not UNSET. -/
def execRtcWrite (s : State) : Host.Outcome State Fault Refusal :=
  let s1 := s.advanceTo ((s.tb.now + secUnits - 1) / secUnits * secUnits)
  if s1.tb.quality = Quality.unset then .next s1
  else
    let n := secOf s1.tb.now
    .next ((((((s1.setReg LINING.RTC_SEC_HI (BitVec.ofNat 32 (n / 4294967296 % 65536))).setReg LINING.RTC_SEC_LO (BitVec.ofNat 32 n)).setReg
      LINING.RTC_SUB 0).putRegBit LINING.STATUS 31 true)).updPower fun p => { p with rtcAt := s1.tb.up })

/-- PARTNER_PRESENCE_CHANGE (R501, R502, R494): an absent partner shows no claim, no SHARE, no takeover, and holds no grant. -/
def execPartnerPresenceChange (present : Bool) (s : State) : Host.Outcome State Fault Refusal :=
  .next (s.updPair fun p =>
    if present then { p with partnerPresent := true }
    else { p with partnerPresent := false, claimPartner := false, sharePartner := false, takeoverIn := false, grantPartner := false })

/-- MEMORY_ERROR (R278): a logged memory error, which a later self-check fails on. -/
def execMemoryError (s : State) : Host.Outcome State Fault Refusal := .next (s.updPair fun p => { p with memoryError := true })

end Sys2Proof.Machine
end

