-- ==== Sys2Proof/Machine/Clears.lean ====
section
/-!
DEFINITION. What a write of 1 to a CLEAR register does, for the blocks whose own files do not hold it (R165, R166, R198, R199, R225,
R236, R252, R292, R317, Tables FX-18, FX-20, TB-14, TB-15 and NW-9).
-/

namespace Sys2Proof.Machine

open Reg

/-- PAIR.CLEAR (Table PR-13): the lane counters go, a lane's state stays. -/
def State.pairClear (s : State) : State :=
  let lanes : List Nat := [PAIR.LANE0 0, PAIR.LANE0 1]
  let kept := lanes.map fun a => (a, s.reg a &&& 0xC0000000#32)
  let s1 := s.zeroRegs ([PAIR.TANDEM_MISSES, PAIR.PULSE_MISSES, PAIR.DEGRADED_COUNT, PAIR.SEAM_LATE, PAIR.SEAM_DIFF, PAIR.RX_COPIED,
    PAIR.RX_CONFLICT, PAIR.MIRROR_MAX, PAIR.MIRROR_OVF] ++ (List.range 32).map fun i => 0x0240 + i)
  kept.foldl (fun t e => t.setReg e.1 e.2) s1

/-- FRAME.CLEAR [0] (Table FX-18). -/
def State.frameClear (s : State) : State :=
  s.zeroRegs ([FRAME.SEAM_END_MAX, FRAME.UNAGREED_COUNT, FRAME.COMPUTE_END_MAX 0, FRAME.COMPUTE_END_MAX 1] ++
    (List.range 32).map fun i => 0x2020 + i)

/-- FRAME.CLEAR [1] (Tables FX-18 and FX-19): the TASK statistics. -/
def State.taskClear (s : State) : State :=
  s.zeroRegs ((List.range 16).flatMap fun t => [TASK.LAST t, TASK.MAX t, TASK.RESP_MAX t, TASK.RELEASES t, TASK.FAULTS t])

/-- FRAME.TACK_CLEAR (Table FX-18). -/
def State.tackClear (s : State) : State :=
  s.zeroRegs [FRAME.TACK_EXECUTED, FRAME.TACK_LATE, FRAME.TACK_REFUSED, FRAME.TACK_DISCARDED, FRAME.TACK_MAX_LAG,
    FRAME.TACK_CONFLICTS, FRAME.TACK_CANCELLED, FRAME.TACK_LAST_LATE_ID, FRAME.TACK_LAST_LATE_NS]

/-- IMG.CLEAR (Table FX-20). -/
def State.imgClear (s : State) : State := s.zeroRegs [IMG.LOAD_COUNT, IMG.REFUSE_COUNT, IMG.SWITCH_COUNT]

/-- TREF.REF_CLEAR of reference `r` (Table TB-14). -/
def State.refClear (s : State) (r : Nat) : State :=
  s.zeroRegs [TREF.REF_VALID r, TREF.REF_INVALID r, TREF.REF_JUMPS r, TREF.REF_MAX_OFS r, TREF.REF_RMS_OFS r]

/-- PTP.PORT_CLEAR of port `p` (Table TB-15). -/
def State.portClear (s : State) (p : Nat) : State := s.zeroRegs ((List.range 8).map fun i => PTP.PORT_CLEAR p - 8 + i)

/-- A write to PTP.COUNT[15] (Table TB-15). -/
def State.ptpClear (s : State) : State := s.zeroRegs ((List.range 15).map PTP.COUNT)

/-- ACQ.CLEAR (Table AQ-14): the sampled-value counters and the lost-sample counts. -/
def State.acqClear (s : State) : State :=
  (List.range 64).foldl (fun t k => t.setWin .sv k 13 (t.win .sv k 13 &&& 0xFF000000#32)) (s.zeroRegs [ACQ.SV_RX_COUNT, ACQ.SV_ERR_COUNT])

/-- ACH.CLEAR of channel `n` (Table AQ-16). -/
def State.achClear (s : State) (n : Nat) : State := s.zeroRegs [ACH.OVR_COUNT n, ACH.TWE_LOST n]

/-- TRG.CLEAR (Table TG-12). -/
def State.trgClear (s : State) : State := s.zeroRegs [TRG.FIRE_COUNT, TRG.REC_LOST]

/-- TDC.CLEAR (Table TG-17): the count of an input is that of the input selected. -/
def State.tdcClear (s : State) : State :=
  (s.zeroRegs ([TDC.EVENTS, TDC.LOST] ++ (List.range 6).map TDC.GRP_COUNT)).updTrg fun t =>
    { t with inputs := sparseUpd {} t.inputs (s.regFld TDC.IN_SEL 5 0) fun i => { i with count := 0 } }

/-- LOOP.CLEAR (Table LE-10). -/
def State.loopClear (s : State) : State :=
  s.zeroRegs ([LOOP.EVAL_END_MAX, LOOP.EVALS, LOOP.IN_FAULTS, LOOP.STATE_FAULTS, LOOP.SAT_EVALS] ++ (List.range 4).map LOOP.LANE_END)

/-- LOCK.CLEAR [0] (Table LS-5): the statistics. -/
def State.lockClear (s : State) : State := s.zeroRegs ((List.range 16).map fun i => 0x0330 + i)

/-- LOCK.CLEAR [8] (R236): the lockout ends, and the count of faults starts afresh. -/
def State.endLockout (s : State) : State :=
  ((s.putRegBit LOCK.STATUS 28 false).putReg LOCK.RESTARTS 15 0 0).updLock fun l => { l with faultTimes := [] }

/-- NET.CLEAR (Table NW-6). -/
def State.netClear (s : State) : State :=
  (s.zeroRegs ([NET.ST_REFUSED, NET.QSP_LATE] ++
    (List.range 5).flatMap fun p => [NET.RX_FRAMES p, NET.TX_FRAMES p, NET.RX_ERRORS p, NET.RX_DISCARD p])).updQcp fun q =>
    { q with serviceIn := 0, serviceOut := 0, busOut := 0 }

/-- PRP.CLEAR (Table NW-9): the counters of both networks. -/
def State.prpClear (s : State) : State :=
  s.zeroRegs (PRP.TAG_ERRORS :: (List.range 2).flatMap fun n => (List.range 23).map fun i => PRP.NET_STATUS n + 1 + i)

end Sys2Proof.Machine
end

