-- ==== Sys2Proof/Machine/RegEffects.lean ====
section
/-!
DEFINITION. What an accepted register write does (R347, Table SC-1, and the register maps of every block).
-/

namespace Sys2Proof.Machine

open Reg

/-- A write to a register without a further effect: the fields a write sets, and the W1C bits (R8, R9). -/
def State.writePlain (s : State) (a : Nat) (v : Word) : State :=
  match regRow a with
  | some r => s.setReg a (written r (s.reg a) v)
  | none => s

/-- Every staged word of a window dropped. -/
def State.dropWindow (s : State) (w : WinId) : State :=
  { s with staged := s.staged.filter fun e => decide (e.1 / 65536 ≠ w.code) }

/-- A select register written: the window loads the committed words of the unit selected (R165). -/
def State.selectUnit (s : State) (a : Nat) (v : Word) (w : WinId) : Answer := ((s.writePlain a v).dropWindow w).ok

/-- A word of a window staged; a read-only word stays. -/
def State.writeWindow (s : State) (x : WindowWord) (v : Word) : Answer :=
  if x.mask = 0 then s.ok else (s.stageWord x.win x.unit x.word (merge x.mask (s.winStaged x.win x.unit x.word) v)).ok

/-- The effect of writing 1; other values have none. -/
def State.onOne (s : State) (v : Word) (f : State → Answer) : Answer := if bit v 0 then f s else s.ok

/-- A status with its state; a conflict names the owners last recorded (R438). -/
def answeredOwners (r : State × Status) : Answer :=
  (r.1, some (refusal r.2 0 (if r.2 = .resourceConflict then (r.1.reg COLLAR.CONFLICT_LAST).toNat else 0)))

/-- A request accepted through a register is answered DONE at once (R347); what is refused is answered as it stands. -/
def registerAnswer (r : State × Option Reply) : Answer :=
  match r with
  | (s1, some x) => if x.status = .accepted then s1.ok else (s1, some x)
  | (s1, none) => s1.ok

/-! ### Time base, references and PTP -/

/-- TB.RESTEP with its key (R28): the source of Table TB-2, a step at the next frame tick; the STANDBY drops to TRACK, the ACTIVE's
partner steps by the same amount, and a pending switch is cancelled (Table OC-6). -/
def State.restep (s : State) : Answer :=
  match restepSource s with
  | none => (s, some (refusal .wrongState))
  | some (d, q) =>
    let s1 := s.cancelSwitch (some 0x06)
    let s2 := { s1 with tb := { s1.tb with stepDue := some (d, q, true), slewing := false, jumpPending := false, jumpRef := 0 } }
    let s3 := if s.role = .standby then s2.updPair fun p => { p with trackDue := true } else s2
    (s3.pass [0x10, TB.RESTEP, d.natAbs, b2n (decide (d < 0))]).ok

/-- A capture unit's control register (Table TB-13): ARM going from 0 to 1 arms it. -/
def State.writeCapture (s : State) (n : Nat) (v : Word) : Answer :=
  let s1 := s.writePlain (TB.CAP_CTRL n) v
  (if bit v 0 ∧ !(s.regBit (TB.CAP_CTRL n) 0) then s1.armCapture n else s1).ok

/-- Block TB. -/
def State.writeTb (s : State) (a : Nat) (v : Word) : Answer :=
  if a = TB.RESTEP then s.restep
  else if a = TB.SLEW_LIMIT then
    let s1 := s.writePlain a v
    (s1.setRate (rateCorr s1)).ok
  else
    match indexIn (TB.CAP_CTRL 0) 4 16 a with
    | some n => s.writeCapture n v
    | none => (s.writePlain a v).ok

/-- Block PTP: a change of PROFILE loads the default domain of the profile (R48). -/
def State.writePtp (s : State) (a : Nat) (v : Word) : Answer :=
  if a = PTP.COUNT 15 then s.ptpClear.ok
  else if a = PTP.CTRL ∨ a = PTP.DOMAIN ∨ a = PTP.INTERVALS then
    let s1 := s.writePlain a v
    let s2 := if a = PTP.CTRL ∧ bit v 24 ≠ s.regBit PTP.CTRL 24 then s1.setReg PTP.DOMAIN (if bit v 24 then 254 else 0) else s1
    ({ s2 with ptp := { s2.ptp with configAt := some (secOf s.tb.now + 1) } }).ok
  else if (indexIn (PTP.PORT_CFG 0) 16 5 a).isSome then
    let s1 := s.writePlain a v
    (s1.setMasters (s1.ptp.masters.filter fun m => s1.ptpPortOn (m.port - 1))).ok
  else
    match indexIn (PTP.PORT_CLEAR 0) 16 5 a with
    | some p => s.onOne v fun t => (t.portClear p).ok
    | none => (s.writePlain a v).ok

/-- References that TREF.CTRL no longer enables are lost: absent, and a selected one is left (notes/assumptions/105.md). -/
def State.dropDisabled (s : State) (r : Nat) : State :=
  if s.refEnabled r ∨ (s.ref r).state = .absent then s
  else if (s.ref r).state = .qualified ∨ s.tb.selRef = r + 1 then s.loseRef r .absent
  else (s.setRef r { s.ref r with valid := 0 }).setRefState r .absent

/-- Block TREF: the figures of LOCKED follow TREF.IRIG_CFG and TREF.TIMESOURCE (R42, R544, Table TB-6). -/
def State.writeTref (s : State) (a : Nat) (v : Word) : Answer :=
  match indexIn (TREF.REF_CLEAR 0) 16 3 a with
  | some r => s.onOne v fun t => (t.refClear r).ok
  | none =>
    let s1 := s.writePlain a v
    if a = TREF.CTRL then (((s1.dropDisabled 0).dropDisabled 1).dropDisabled 2).ok
    else if a = TREF.IRIG_CFG ∨ a = TREF.TIMESOURCE then s1.lockedFigures.ok
    else s1.ok

/-! ### Modes, pair and core pairs -/

/-- Block MODE. -/
def State.writeMode (s : State) (a : Nat) (v : Word) : Answer :=
  if a = MODE.REQUEST then
    match modeCode (fld v 3 0) with
    | some m => registerAnswer (s.requestMode m none)
    | none => s.badParameter
  else (s.writePlain a v).ok

/-- Block PAIR: the identity of the pair base's store is set or adopted (R254), a role is requested (R268). -/
def State.writePair (s : State) (a : Nat) (v : Word) : Answer :=
  if a = PAIR.ID_SET then (s.updPair fun p => { p with baseId := v.setWidth 16 }).ok
  else if a = PAIR.ID_ADOPT then (s.updPair fun p => { p with storedId := p.baseId }).ok
  else if a = PAIR.ROLE_REQ then
    match roleTarget (fld v 3 0) with
    | some r => registerAnswer (s.requestRole r none)
    | none => s.badParameter
  else if a = PAIR.CLEAR then s.onOne v fun t => t.pairClear.ok
  else (s.writePlain a v).ok

/-- Block LOCK: clearing BG_TEST raises an event (R239); the start-up test runs again in OUT and STOP (R238). -/
def State.writeLock (s : State) (a : Nat) (v : Word) : Answer :=
  if a = LOCK.TEST_RUN then
    if s.role = .out ∧ s.mode = .stop then (s.setReg LOCK.TEST_STATUS 0x10000000).ok else (s, some (refusal .wrongState))
  else if a = LOCK.CLEAR then
    let s1 := if bit v 8 then s.endLockout else s
    (if bit v 0 then s1.lockClear else s1).ok
  else if a = LOCK.CFG then
    let s1 := s.writePlain a v
    (if s.regBit LOCK.CFG 4 ∧ !(s1.regBit LOCK.CFG 4) then s1.raiseBlock 0x030B else s1).ok
  else (s.writePlain a v).ok

/-- Block FRAME. -/
def State.writeFrame (s : State) (a : Nat) (v : Word) : Answer :=
  if a = FRAME.CLEAR then
    let s1 := if bit v 1 then s.taskClear else s
    (if bit v 0 then s1.frameClear else s1).ok
  else if a = FRAME.TACK_CLEAR then s.onOne v fun t => t.tackClear.ok
  else (s.writePlain a v).ok

/-- Block IMG. -/
def State.writeImg (s : State) (a : Nat) (v : Word) : Answer :=
  if a = IMG.CLEAR then s.onOne v fun t => t.imgClear.ok else (s.writePlain a v).ok

/-! ### Module, power, lining, updates and trust -/

/-- Block ID. -/
def State.writeId (s : State) (a : Nat) (v : Word) : Answer :=
  if a = ID.LOCATE then answered (s.locate (v.toNat % 65536)) else (s.writePlain a v).ok

/-- Block POWER. -/
def State.writePower (s : State) (a : Nat) (v : Word) : Answer :=
  if a = POWER.CLEAR then s.onOne v fun t => t.powerClear.ok
  else if a = POWER.HU_MEAS then s.onOne v fun t => t.startMeasurement.ok
  else (s.writePlain a v).ok

/-- Block LINING. -/
def State.writeLining (s : State) (a : Nat) (v : Word) : Answer :=
  if a = LINING.TAMPER_ACK then s.ackTamper.ok
  else if a = LINING.BOOT_CFG then ((s.writePlain a v).raiseBlock 0x0505).ok
  else (s.writePlain a v).ok

/-- Block UPD. -/
def State.writeUpd (s : State) (a : Nat) (v : Word) : Answer :=
  if a = UPD.REVERT then (if s.trust.trial.isSome then s.revertNow.ok else (s, some (refusal .wrongState)))
  else if a = UPD.CLEAR then s.onOne v fun t => t.updClear.ok
  else (s.writePlain a v).ok

/-- Block SEC. -/
def State.writeSec (s : State) (a : Nat) (v : Word) : Answer :=
  if a = SEC.LOCK then (s.setLock (fld v 3 0)).ok
  else if a = SEC.FUSE_CMD then answered (s.fuseEpoch v)
  else (s.writePlain a v).ok

/-! ### Acquisition and triggers -/

/-- A PMU whose rate has become invalid disabled, with event 0x3004 (Table AQ-14, ACQ.CFG). -/
def State.disablePmu (s : State) (m : Nat) : State :=
  ((((s.setWin .pmu m 0 (putBit (s.win .pmu m 0) 31 false)).setReg (ACQ.PMU_STATE m) 0).claimPha m).raise 0x3004 m)

/-- ACQ.CFG: a change of F_NOM disables the PMUs whose rate becomes invalid. -/
def State.writeAcqCfg (s : State) (v : Word) : State :=
  let s1 := s.writePlain ACQ.CFG v
  if s1.regBit ACQ.CFG 8 = s.regBit ACQ.CFG 8 then s1
  else
    (List.range 16).foldl (fun t m =>
      if t.winBit .pmu m 0 31 ∧ !(rateOk (t.regBit ACQ.CFG 8) (t.winBit .pmu m 0 30) (t.winFld .pmu m 1 31 16)) then t.disablePmu m else t) s1

/-- Block ACQ. -/
def State.writeAcq (s : State) (a : Nat) (v : Word) : Answer :=
  if a = ACQ.CFG then (s.writeAcqCfg v).ok
  else if a = ACQ.CLEAR then s.onOne v fun t => t.acqClear.ok
  else if a = ACQ.PMU_SEL then s.selectUnit a v .pmu
  else if a = ACQ.SV_SEL then s.selectUnit a v .sv
  else if a = ACQ.PMU_COMMIT then s.onOne v fun t => t.commitPmu (t.regFld ACQ.PMU_SEL 3 0)
  else if a = ACQ.SV_COMMIT then s.onOne v fun t => t.commitSv (t.regFld ACQ.SV_SEL 5 0)
  else (s.writePlain a v).ok

/-- ACH.CFG and ACH.EXT_DELAY of channel `n`: what differs from what is in force takes effect at the next TAI second (R139, R152). -/
def State.writeChannel (s : State) (n a : Nat) (v : Word) : State :=
  let s1 := s.writePlain a v
  let c := s1.achan n
  let s2 := s1.updAcq fun q =>
    { q with reallocDue := (List.range 8).any fun k => decide (s1.chanOn k ≠ s1.regBit (ACH.CFG k) 31) }
  s2.setChan n { c with settleDue := decide (c.range ≠ s1.regBit (ACH.CFG n) 8 ∨ c.ext ≠ (s1.reg (ACH.EXT_DELAY n)).toNat) }

/-- ACH.PHA_CFG: a channel that a PMU claims keeps its class and rate (Table AQ-17); what the registers ask for is a claim of its own (R158). -/
def State.writePha (s : State) (n : Nat) (v : Word) : Answer :=
  let r := s.reg (ACH.PHA_CFG n)
  if bit r 29 ∧ (bit r 30, fld r 15 0) ≠ (bit v 30, fld v 15 0) then
    let m := ((List.range 16).find? fun k => decide (n ∈ pmuSources s k)).getD 0
    s.acqConflict (4, n) { kind := 4, number := m } { kind := 3, number := n }
  else
    ((s.writePlain (ACH.PHA_CFG n) v).updAcq fun a =>
      { a with phaClaims := if bit v 31 then sparseInsert a.phaClaims n (bit v 30, fld v 15 0) else sparseErase a.phaClaims n }).ok

/-- Block ACH of channel `n`. -/
def State.writeAch (s : State) (n a : Nat) (v : Word) : Answer :=
  let e := fld v 30 0
  let c := s.achan n
  if a = ACH.CFG n ∨ a = ACH.EXT_DELAY n then (s.writeChannel n a v).ok
  else if a = ACH.PHA_CFG n then s.writePha n v
  else if a = ACH.TWE_SEL n then (s.loadEntry a (ACH.TWE_WIN n 0) e (ringEntry c.twe (s.reg (ACH.TWE_HEAD n)).toNat e)).ok
  else if a = ACH.CYC_SEL n then (s.loadEntry a (ACH.CYC_WIN n 0) e (ringEntry c.cyc (s.reg (ACH.CYC_HEAD n)).toNat e)).ok
  else if a = ACH.PHA_SEL n then (s.loadEntry a (ACH.PHA_WIN n 0) e (ringEntry c.pha (s.reg (ACH.PHA_HEAD n)).toNat e)).ok
  else if a = ACH.CLEAR n then s.onOne v fun t => (t.achClear n).ok
  else (s.writePlain a v).ok

/-- Block TRG: a write that enables or changes an enabled trigger unit restarts it (R170); flags are set at once (R173). -/
def State.writeTrg (s : State) (a : Nat) (v : Word) : Answer :=
  if a = TRG.FLAGS then (s.setFlags v s.tb.now).ok
  else if a = TRG.REC_MANUAL then (s.openRecord (fld v 2 0) s.tb.now 0xFF none none s.tb.quality).ok
  else if a = TRG.CTRL then ((s.writePlain a v).forwardGroup (s.regFld TRG.CTRL 1 0)).ok
  else if a = TRG.CLEAR then s.onOne v fun t => t.trgClear.ok
  else if a = TRG.PAT_SEL then s.selectUnit a v .pat
  else if a = TRG.REC_SEL then s.selectUnit a v .records
  else if a = TRG.FL_SEL then s.selectUnit a v .fl
  else if a = TRG.PAT_COMMIT then s.onOne v fun t => t.commitPattern (t.regFld TRG.PAT_SEL 2 0)
  else if a = TRG.REC_COMMIT then s.onOne v fun t => t.commitProfile (t.regFld TRG.REC_SEL 2 0)
  else if a = TRG.FL_COMMIT then s.onOne v fun t => t.commitLine (t.regFld TRG.FL_SEL 2 0)
  else
    let s1 := s.writePlain a v
    match unitOf a with
    | some u => (if s.regBit (TRG.U_CFG u) 31 ∨ s1.regBit (TRG.U_CFG u) 31 then s1.restartUnit u else s1).ok
    | none => s1.ok

/-- Block TDC. -/
def State.writeTdc (s : State) (a : Nat) (v : Word) : Answer :=
  if a = TDC.CLEAR then s.onOne v fun t => t.tdcClear.ok else (s.writePlain a v).ok

/-! ### Loop engine and networks -/

/-- The slots of a word of LOOP.FAULT whose bit is written 1 resumed (R214). -/
def State.resumeSlots (s : State) (w : Nat) (v : Word) : State :=
  (List.range 32).foldl (fun t i => if bit v i then t.clearSlotFault (32 * w + i) else t) s

/-- Block LOOP. -/
def State.writeLoop (s : State) (a : Nat) (v : Word) : Answer :=
  if a = LOOP.SEL then (s.selectLoop (fld v 15 8) (fld v 2 0)).ok
  else if a = LOOP.COMMIT then s.onOne v fun t => t.commitSelected
  else if a = LOOP.ND_CMD then s.onOne v fun t => t.designFromRegs
  else if a = LOOP.CLEAR then s.onOne v fun t => t.loopClear.ok
  else if isIn (LOOP.WIN 0) 1 16 a then (s.stageLoop (s.regFld LOOP.SEL 15 8) (s.regFld LOOP.SEL 2 0) (a - LOOP.WIN 0) v).ok
  else
    match indexIn (LOOP.FAULT 0) 1 8 a with
    | some w => (s.resumeSlots w v).ok
    | none => (s.writePlain a v).ok

/-- An address register of the upper port of a network in redundancy (R295). -/
def upperAddress (s : State) (a : Nat) : Bool :=
  (decide (s.net.net0.mode ≠ 0) && decide (a = NET.PORT_IP 1 ∨ a = NET.PORT_GW 1)) ||
    (decide (s.net.net1.mode ≠ 0) && decide (a = NET.PORT_IP 3 ∨ a = NET.PORT_GW 3))

/-- Block NET: a port switched off goes down (R316). -/
def State.writeNet (s : State) (a : Nat) (v : Word) : Answer :=
  if upperAddress s a then (s, some (refusal .wrongState))
  else if a = NET.ST_SEL then s.selectUnit a v .station
  else if a = NET.GO_SEL then s.selectUnit a v .goose
  else if a = NET.ST_COMMIT then s.onOne v fun t => t.commitStationWindow (t.regFld NET.ST_SEL 9 0)
  else if a = NET.GO_COMMIT then s.onOne v fun t => t.commitGoose (t.regFld NET.GO_SEL 6 0)
  else if a = NET.CLEAR then s.onOne v fun t => t.netClear.ok
  else
    match indexIn (NET.PORT_CFG 0) 8 5 a with
    | some p =>
      let s1 := s.writePlain a v
      (if s1.regBit a 31 then s1 else s1.setLink p false 0).ok
    | none => (s.writePlain a v).ok

/-- Block PRP. -/
def State.writePrp (s : State) (a : Nat) (v : Word) : Answer :=
  if a = PRP.CLEAR then s.onOne v fun t => t.prpClear.ok else (s.writePlain a v).ok

/-! ### Field inputs and outputs -/

/-- An accepted write that takes effect at an application tick (R368, R387). -/
def State.writeLater (s : State) (a : Nat) (v : Word) : Answer :=
  match regRow a with
  | some r => (s.fixApplication (.regWrite a (written r (s.reg a) v)) none).ok
  | none => s.ok

/-- DIO.CH_CFG: TACK_OWNED, or DIR as input, on a channel that an image drives is a conflict (R362). -/
def State.writeDioChannel (s : State) (c a : Nat) (v : Word) : Answer :=
  match s.imageOwner (localPoint 2 c) with
  | some o =>
    if bit v 28 then s.conflict (1, c) o { kind := 2, number := c }
    else if !(bit v 30) then s.conflict (1, c) o { kind := 3, number := c }
    else s.writeLater a v
  | none => s.writeLater a v

/-- Block DIO. -/
def State.writeDio (s : State) (a : Nat) (v : Word) : Answer :=
  if a = DIO.CLEAR then
    let s1 := (List.range 4).foldl (fun t g => if bit v g then t.dioClearGroup g else t) s
    (if bit v 8 then s1.dioClearCounters else s1).ok
  else if a = DIO.HEM ∨ isIn (DIO.GRP_CFG 0) 1 4 a then s.writeLater a v
  else
    match indexIn (DIO.CH_CFG 0) 4 32 a with
    | some c => s.writeDioChannel c a v
    | none => (s.writePlain a v).ok

/-- Block AO. -/
def State.writeAoBlock (s : State) (a : Nat) (v : Word) : Answer :=
  if a = AO.CLEAR then s.onOne v fun t => t.aoClear.ok
  else if isIn (AO.CH_CFG 0) 8 8 a || isIn (AO.HEM 0) 1 8 a || isIn (AO.FAIL_LVL 0) 8 8 a then s.writeLater a v
  else (s.writePlain a v).ok

/-- Block HART. -/
def State.writeHart (s : State) (a : Nat) (v : Word) : Answer :=
  if a = HART.CLEAR then s.onOne v fun t => t.hartClear.ok
  else if a = HART.WIN_GO then
    s.onOne v fun t =>
      match t.hartGo with
      | (t1, .done) => (t1.releaseWindow .hart).ok
      | r => answered r
  else if isIn (HART.CH_CFG 0) 6 8 a then s.writeLater a v
  else (s.writePlain a v).ok

/-! ### CAN -/

/-- CAN.CTRL (R411 to R413): a channel switched off leaves the bus; AUTOBAUD set on an enabled channel starts the detection; BO_RECOVER
starts the recovery from bus-off. -/
def State.writeCanCtrl (s : State) (ch : Nat) (v : Word) : State :=
  let a := CAN.CTRL ch
  let s1 := s.writePlain a v
  let s2 := if s.regBit a 31 ∧ !(s1.regBit a 31) then s1.setCan ch { s1.can ch with part := false } else s1
  let on (t : State) : Bool := t.regBit a 31 && t.regBit a 27
  let s3 := if on s1 ∧ !(on s) then s2.canDetect ch else s2
  if bit v 0 then s3.canRecover ch else s3

/-- CAN.TX_CMD (R403): send, or abort; `started` says that the start of frame is on the bus already. -/
def State.writeTxCmd (s : State) (ch : Nat) (v : Word) (started : Bool) : Answer :=
  let b := fld v 5 0
  let r := if bit v 31 then s.canAbort ch b started else s.canSend ch b
  (r.1, some (refusal r.2 0 (if r.2 = .resourceConflict then (r.1.reg (CAN.OWNER ch)).toNat else 0)))

/-- Block CAN of channel `ch`; the bit timings are set while the channel is off (R400). -/
def State.writeCan (s : State) (ch a : Nat) (v : Word) (started : Bool) : Answer :=
  if a = CAN.CTRL ch then (s.writeCanCtrl ch v).ok
  else if a = CAN.NBT ch ∨ a = CAN.DBT ch ∨ a = CAN.TDC ch then
    (if s.regBit (CAN.CTRL ch) 31 then (s, some (refusal .wrongState)) else (s.writePlain a v).ok)
  else if a = CAN.TX_CMD ch then s.writeTxCmd ch v started
  else if a = CAN.BUF_SEL ch then (s.canSelect ch (fld v 5 0)).ok
  else if isIn (CAN.BUF_WIN ch 0) 1 22 a then answered (s.canWriteWindow ch (a - CAN.BUF_WIN ch 0) v)
  else if a = CAN.BUF_COMMIT ch then s.onOne v fun t => t.commitCanBuffer ch
  else if a = CAN.CLEAR ch then s.onOne v fun t => (t.canClear ch).ok
  else (s.writePlain a v).ok

/-! ### Fabric and recorder -/

/-- Block DMA. -/
def State.writeDma (s : State) (a : Nat) (v : Word) : Answer :=
  if a = DMA.RECOVER then answeredOwners (s.dmaRecoverCmd (fld v 15 0))
  else if a = DMA.ABORT_CMD then answeredOwners (s.dmaAbort (fld v 15 0))
  else if a = DMA.CLEAR then s.onOne v fun t => t.dmaClear.ok
  else if a = DMA.CTRL then
    let s1 := s.writePlain a v
    (if bit v 0 ∧ !(s1.regBit DMA.STATUS 31) then s1.startLoaded else s1).ok
  else
    match indexIn (DMA.CH_CTRL 0) 8 16 a with
    | some c => answeredOwners (s.dmaControl c v)
    | none =>
      if isIn (DMA.SL_SRC 0) 8 16 a || isIn (DMA.SL_DST 0) 8 16 a || isIn (DMA.SL_LEN 0) 8 16 a then
        answeredOwners (s.sleeveWrite ((a - DMA.CH_CTRL 0) / 8) fun t => (t.writePlain a v, .done))
      else (s.writePlain a v).ok

/-- COLLAR.SEL: staged rules of other collars are dropped; those of the collar selected wait for its commit (R424, R441). -/
def State.selectCollar (s : State) (v : Word) : State :=
  let n := fld v 12 8
  let s1 := s.writePlain COLLAR.SEL v
  { s1 with staged := s1.staged.filter fun e => decide (e.1 / 65536 ≠ WinId.collar.code ∨ e.1 / 512 % 128 = n) }

/-- Block COLLAR: a fence answers when it completes (R426). -/
def State.writeCollar (s : State) (a : Nat) (v : Word) (by_ : Option (Nat × Requester)) : Answer :=
  if a = COLLAR.SEL then (s.selectCollar v).ok
  else if a = COLLAR.COMMIT then s.onOne v fun t => answered t.collarCommit
  else if a = COLLAR.FENCE then
    (if s.fab.fence.isSome then (s, some (refusal .busy)) else (s.startFence (fld v 23 0) by_, none))
  else if a = COLLAR.CLEAR then s.onOne v fun t => t.collarClear.ok
  else (s.writePlain a v).ok

/-- Block CUFF. -/
def State.writeCuff (s : State) (a : Nat) (v : Word) : Answer :=
  if a = CUFF.CLEAR then s.onOne v fun t => t.cuffClear.ok else (s.writePlain a v).ok

/-- EVR.ALARM, held by the recorder: a 1 clears its bit, and clearing FATAL acknowledges the fatal records (R459). -/
def State.writeEvrAlarm (s : State) (v : Word) : State :=
  let s1 := s.updEvr fun r => { r with alarm := r.alarm &&& ~~~(v &&& 0x0F#32) }
  if bit v 4 then s1.ackFatal else s1

/-- Block EVR. -/
def State.writeEvr (s : State) (a : Nat) (v : Word) : Answer :=
  if a = EVR.CURSOR then (s.setWinCursor v.toNat).ok
  else if a = EVR.WIN_PTR then (s.updEvr fun r => { r with winPtr := fld v 4 0 }).ok
  else if a = EVR.ALARM then (s.writeEvrAlarm v).ok
  else if a = EVR.OWNER_CLEAR then s.ownerClear.ok
  else if a = EVR.CLEAR then s.onOne v fun t => t.evrClear.ok
  else if a = EVR.SNAP_SEL then s.selectUnit a v .snap
  else if a = EVR.SNAP_COMMIT then s.onOne v fun t => answered (t.commitSnap (t.regFld EVR.SNAP_SEL 2 0))
  else (s.writePlain a v).ok

/-! ### Every block -/

/-- An accepted write of `v` to the register at `a`. `started` is for an abort of a CAN frame (R403), `by_` for a fence (R426). -/
def State.writeReg (s : State) (a : Nat) (v : Word) (started : Bool) (by_ : Option (Nat × Requester)) : Answer :=
  match windowWordAt s a with
  | some x => s.writeWindow x v
  | none =>
    match a / 256 with
    | 0x00 => s.writeId a v
    | 0x01 => s.writeMode a v
    | 0x02 => s.writePair a v
    | 0x03 => s.writeLock a v
    | 0x04 => s.writePower a v
    | 0x05 => s.writeLining a v
    | 0x10 => s.writeTb a v
    | 0x11 => s.writePtp a v
    | 0x12 => s.writeTref a v
    | 0x20 => s.writeFrame a v
    | 0x22 => s.writeImg a v
    | 0x30 => s.writeAcq a v
    | 0x31 => s.writeAch 0 a v
    | 0x32 => s.writeAch 1 a v
    | 0x33 => s.writeAch 2 a v
    | 0x34 => s.writeAch 3 a v
    | 0x35 => s.writeAch 4 a v
    | 0x36 => s.writeAch 5 a v
    | 0x37 => s.writeAch 6 a v
    | 0x38 => s.writeAch 7 a v
    | 0x40 => s.writeTrg a v
    | 0x41 => s.writeTdc a v
    | 0x48 => s.writeLoop a v
    | 0x50 => s.writeDio a v
    | 0x58 => s.writeAoBlock a v
    | 0x59 => s.writeHart a v
    | 0x60 => s.writeNet a v
    | 0x61 => s.writePrp a v
    | 0x68 => s.writeCan 0 a v started
    | 0x69 => s.writeCan 1 a v started
    | 0x70 => s.writeDma a v
    | 0x78 => s.writeCollar a v by_
    | 0x79 => s.writeCuff a v
    | 0x7C => s.writeEvr a v
    | 0x7E => s.writeUpd a v
    | 0x7F => s.writeSec a v
    | _ => (s.writePlain a v).ok

/-- A register whose write the ACTIVE passes with its tick, by its own effect. -/
def passesItself (a : Nat) : Bool :=
  decide (a = NET.ST_COMMIT ∨ a = DIO.HEM) || isIn (DIO.GRP_CFG 0) 1 4 a || isIn (DIO.CH_CFG 0) 4 32 a || isIn (AO.CH_CFG 0) 8 8 a ||
    isIn (AO.HEM 0) 1 8 a || isIn (AO.FAIL_LVL 0) 8 8 a || isIn (HART.CH_CFG 0) 6 8 a

/-- What the ACTIVE passes to the STANDBY of an accepted write of a shared block (R160, R167, R307, R368, R387, R415). -/
def State.passWrite (r : Answer) (a : Nat) (v : Word) : Answer :=
  if sharedWrite a ∧ !(passesItself a) ∧ r.2.map (·.status) = some Status.done then (r.1.pass [0x11, a, v.toNat], r.2) else r

/-- A write from a session once its authority and its parameters are accepted: the state it needs, the window it claims, its effect. -/
def writeBody (op a : Nat) (v : Word) (started : Bool) : Body := fun s rq =>
  if !(acts a) then s.ok
  else if (sharedWrite a || loopWrite a) && !s.mayConfigure then (s, some (refusal .wrongState))
  else if stopRefused s a v then (s, some (refusal .wrongState))
  else
    match claimOf a with
    | none => State.passWrite (s.writeReg a v started (some (op, rq))) a v
    | some w =>
      match s.windowHolder w rq.session with
      | some n => (s, some (refusal .busy 0 n.toNat))
      | none => State.passWrite ((s.claimWindow w rq.session).writeReg a v started (some (op, rq))) a v

end Sys2Proof.Machine
end

