-- ==== Sys2Proof/Machine/RegCommands.lean ====
section
/-!
DEFINITION. The register commands of the protocol (opcodes 0x10 to 0x13; R347) and the rows of the command table that are writes or
reads of one register. A row that is a write of one register is the REG_WRITE of that register; its value is an operand, so that a wrong
key or a value without effect is a case of the row too.
-/

namespace Sys2Proof.Machine

open Reg

/-- A REG_WRITE of `v` to `a` as it arrives (R347); the value stands at byte `off` of the request. -/
def State.writeRequest (s : State) (p : Pkt) (op a : Nat) (v : Word) (off : Nat) (started : Bool) : State :=
  s.request p op (writeAuthority s a v) false (writeParams s a v off) (writeBody op a v started)

/-! ### Reads with side effects -/

/-- A claim of the window that a register belongs to refreshed by its holder's access (R348). -/
def State.refreshClaim (s : State) (a : Nat) (n : Word) : State :=
  match claimOf a with
  | none => s
  | some w => if s.qcp.claims.any (fun c => decide (c.1 = w) && decide (c.2.1 = n)) then s.claimWindow w n else s

/-- The read of one register by a session: the state after its side effects, and its value; or the reply that refuses it (R14, R199,
R404, R458, Table TB-13). -/
def State.readReg (s : State) (a : Nat) (rq : Requester) : Except Reply (State × Word) :=
  if a = EVR.WIN_DATA then
    match s.windowHolder .evr rq.session with
    | some n => .error (refusal .busy 0 n.toNat)
    | none => .ok ((s.claimWindow .evr rq.session).advanceWindow, winData s)
  else
    let t := s.refreshClaim a rq.session
    if a = TB.TIME_SEC_HI then .ok (t.latchTime, t.latchTime.view a)
    else if a = TDC.FIFO_SEC then .ok (t.readFifoSec, t.view a)
    else if a = TDC.FIFO_FRAC then .ok (t.readFifoFrac, t.view a)
    else
      match indexIn (TB.CAP_CTRL 0) 4 16 a with
      | some n => let t1 := if t.regBit a 2 then t.latchCapture n else t; .ok (t1, t1.view a)
      | none =>
        if isIn (CAN.BUF_WIN 0 0) 1 22 a then .ok (t.canReadWindow 0 (a - CAN.BUF_WIN 0 0) rq.session, t.view a)
        else if isIn (CAN.BUF_WIN 1 0) 1 22 a then .ok (t.canReadWindow 1 (a - CAN.BUF_WIN 1 0) rq.session, t.view a)
        else .ok (t, t.view a)

/-- A read of one register as a command's body. -/
def readBody (a : Nat) : Body := fun s rq =>
  match s.readReg a rq with
  | .error r => (s, some r)
  | .ok (t, v) => (t, some (doneWith [v.toNat]))

/-- A REG_READ of `a` as it arrives. -/
def State.readRequest (s : State) (p : Pkt) (a : Nat) : State :=
  s.request p 0x10 0 false (if implemented a then none else some (refusal .badParameter)) (readBody a)

/-- The registers of a block read in ascending order; a refusal leaves the state as it was (R347). -/
def State.readAll (s : State) (rq : Requester) : List Nat → Except Reply (State × List Nat)
  | [] => .ok (s, [])
  | a :: rest =>
    match s.readReg a rq with
    | .error r => .error r
    | .ok (t, v) =>
      match t.readAll rq rest with
      | .error r => .error r
      | .ok (u, l) => .ok (u, v.toNat :: l)

/-- What check 15 finds in a REG_BLOCK_READ: every address implemented, in one block, and 1 to 256 of them (R347). -/
def blockParams (a count : Nat) : Option Reply :=
  if count = 0 ∨ 256 < count then some (refusal .badParameter 0 2)
  else if (a + count - 1) / 256 ≠ a / 256 ∨ !((List.range count).all fun i => implemented (a + i)) then some (refusal .badParameter)
  else none

/-- REG_READ (R347). -/
def execRegRead (p : Pkt) (addr zero : Half) (s : State) : Host.Outcome State Fault Refusal :=
  let a := addr.toNat
  let bad : Option Reply :=
    if zero ≠ 0#16 then some (refusal .badParameter 0 2)
    else if implemented a then none
    else some (refusal .badParameter)
  .next (s.request p 0x10 0 false bad (readBody a))

/-- REG_WRITE (R347). -/
def execRegWrite (p : Pkt) (addr zero : Half) (value : Word) (started : Bool) (s : State) : Host.Outcome State Fault Refusal :=
  let a := addr.toNat
  let bad : Option Reply := if zero ≠ 0#16 then some (refusal .badParameter 0 2) else writeParams s a value 4
  .next (s.request p 0x11 (writeAuthority s a value) false bad (writeBody 0x11 a value started))

/-- The value that a REG_MODIFY writes (R347): the masked bits replaced; in W1C fields only the bits set in both. -/
def modified (r : RegRow) (old mask value : Word) : Word := (old &&& ~~~mask &&& ~~~r.w1c) ||| (value &&& mask)

/-- REG_MODIFY's body: the register read with its side effects, then written; the reply holds the value before and after. -/
def modifyBody (a : Nat) (mask value : Word) (started : Bool) : Body := fun s rq =>
  match regRow a, s.readReg a rq with
  | some r, .ok (t, old) =>
    match writeBody 0x12 a (modified r old mask value) started t rq with
    | (u, some x) => if x.status = .done then (u, some (doneWith [old.toNat, (u.view a).toNat])) else (s, some x)
    | (u, none) => (u, none)
  | _, .error r => (s, some r)
  | none, .ok _ => (s, some (refusal .badParameter))

/-- The value that a REG_MODIFY would write, for its authority and value checks. -/
def modifyValue (s : State) (a : Nat) (mask value : Word) : Word :=
  match regRow a with
  | some r => modified r (s.view a) mask value
  | none => 0

/-- REG_MODIFY (R347). -/
def execRegModify (p : Pkt) (addr zero : Half) (mask value : Word) (started : Bool) (s : State) : Host.Outcome State Fault Refusal :=
  let a := addr.toNat
  let v := modifyValue s a mask value
  let bad : Option Reply := if zero ≠ 0#16 then some (refusal .badParameter 0 2) else writeParams s a v 8
  .next (s.request p 0x12 (writeAuthority s a v) false bad (modifyBody a mask value started))

/-- REG_BLOCK_READ's body. -/
def blockBody (a count : Nat) : Body := fun s rq =>
  match s.readAll rq ((List.range count).map fun i => a + i) with
  | .error r => (s, some r)
  | .ok (t, l) => (t, some { status := .done, payload := l })

/-- REG_BLOCK_READ (R347). -/
def execRegBlockRead (p : Pkt) (addr count : Half) (s : State) : Host.Outcome State Fault Refusal :=
  .next (s.request p 0x13 0 false (blockParams addr.toNat count.toNat) (blockBody addr.toNat count.toNat))

/-- A REG_WRITE to a register without behaviour of its own (R9). -/
def execRegisterWritePlain (p : Pkt) (addr : Half) (value : Word) (s : State) : Host.Outcome State Fault Refusal :=
  .next (s.writeRequest p 0x11 addr.toNat value 4 false)

/-! ### Reads of one register -/

/-- TB.TIME_SEC_HI read (R14). -/
def execTbTimeSecHiRead (p : Pkt) (s : State) : Host.Outcome State Fault Refusal := .next (s.readRequest p TB.TIME_SEC_HI)

/-- TDC.FIFO_SEC read (R199). -/
def execTdcFifoSecRead (p : Pkt) (s : State) : Host.Outcome State Fault Refusal := .next (s.readRequest p TDC.FIFO_SEC)

/-- TDC.FIFO_FRAC read (R199). -/
def execTdcFifoFracRead (p : Pkt) (s : State) : Host.Outcome State Fault Refusal := .next (s.readRequest p TDC.FIFO_FRAC)

/-- Word `w` of the buffer window of channel `ch` read (R404). -/
def execCanBufWindowRead (p : Pkt) (ch : Fin 2) (w : Fin 22) (s : State) : Host.Outcome State Fault Refusal :=
  .next (s.readRequest p (CAN.BUF_WIN ch.val w.val))

/-- Word 21 of the buffer window of channel `ch` read (R404). -/
def execCanBufWord21Read (p : Pkt) (ch : Fin 2) (s : State) : Host.Outcome State Fault Refusal :=
  .next (s.readRequest p (CAN.BUF_WIN ch.val 21))

/-- EVR.WIN_DATA read (R458). -/
def execEvrWinDataRead (p : Pkt) (s : State) : Host.Outcome State Fault Refusal := .next (s.readRequest p EVR.WIN_DATA)

/-! ### Writes of one register -/

/-- POWER.HU_MEAS written (R512). -/
def execPowerHuMeas (p : Pkt) (value : Word) (s : State) : Host.Outcome State Fault Refusal :=
  .next (s.writeRequest p 0x11 POWER.HU_MEAS value 4 false)

/-- LINING.TAMPER_ACK written with its key (R524). -/
def execLiningTamperAck (p : Pkt) (value : Word) (s : State) : Host.Outcome State Fault Refusal :=
  .next (s.writeRequest p 0x11 LINING.TAMPER_ACK value 4 false)

/-- LINING.BOOT_CFG written (R525). -/
def execLiningBootCfg (p : Pkt) (value : Word) (s : State) : Host.Outcome State Fault Refusal :=
  .next (s.writeRequest p 0x11 LINING.BOOT_CFG value 4 false)

/-- TB.RESTEP written with its key (R28). -/
def execTbRestep (p : Pkt) (value : Word) (s : State) : Host.Outcome State Fault Refusal :=
  .next (s.writeRequest p 0x11 TB.RESTEP value 4 false)

/-- TB.CAP_CTRL of unit `n` written (R14, Table TB-13). -/
def execTbCapArm (p : Pkt) (n : Fin 16) (value : Word) (s : State) : Host.Outcome State Fault Refusal :=
  .next (s.writeRequest p 0x11 (TB.CAP_CTRL n.val) value 4 false)

/-- LOCK.TEST_RUN written with its key (R238). -/
def execLockTestRun (p : Pkt) (value : Word) (s : State) : Host.Outcome State Fault Refusal :=
  .next (s.writeRequest p 0x11 LOCK.TEST_RUN value 4 false)

/-- LOCK.CLEAR written, for its bit 8 (R236). -/
def execLockClearLockout (p : Pkt) (value : Word) (s : State) : Host.Outcome State Fault Refusal :=
  .next (s.writeRequest p 0x11 LOCK.CLEAR value 4 false)

/-- LOCK.CLEAR written, for its bit 0 (R252). -/
def execLockClearStats (p : Pkt) (value : Word) (s : State) : Host.Outcome State Fault Refusal :=
  .next (s.writeRequest p 0x11 LOCK.CLEAR value 4 false)

/-- ACQ.PMU_SEL written (R165). -/
def execAcqPmuSel (p : Pkt) (value : Word) (s : State) : Host.Outcome State Fault Refusal :=
  .next (s.writeRequest p 0x11 ACQ.PMU_SEL value 4 false)

/-- ACQ.PMU_COMMIT written (R158). -/
def execAcqPmuCommit (p : Pkt) (value : Word) (s : State) : Host.Outcome State Fault Refusal :=
  .next (s.writeRequest p 0x11 ACQ.PMU_COMMIT value 4 false)

/-- ACQ.SV_SEL written (R165). -/
def execAcqSvSel (p : Pkt) (value : Word) (s : State) : Host.Outcome State Fault Refusal :=
  .next (s.writeRequest p 0x11 ACQ.SV_SEL value 4 false)

/-- ACQ.SV_COMMIT written (R161). -/
def execAcqSvCommit (p : Pkt) (value : Word) (s : State) : Host.Outcome State Fault Refusal :=
  .next (s.writeRequest p 0x11 ACQ.SV_COMMIT value 4 false)

/-- ACQ.CFG written (R165). -/
def execAcqCfgWrite (p : Pkt) (value : Word) (s : State) : Host.Outcome State Fault Refusal :=
  .next (s.writeRequest p 0x11 ACQ.CFG value 4 false)

/-- ACQ.CLEAR written (R165). -/
def execAcqClear (p : Pkt) (value : Word) (s : State) : Host.Outcome State Fault Refusal :=
  .next (s.writeRequest p 0x11 ACQ.CLEAR value 4 false)

/-- ACH.TWE_SEL of channel `n` written (R166). -/
def execAchTweSel (p : Pkt) (n : Fin 8) (value : Word) (s : State) : Host.Outcome State Fault Refusal :=
  .next (s.writeRequest p 0x11 (ACH.TWE_SEL n.val) value 4 false)

/-- ACH.CYC_SEL of channel `n` written (R166). -/
def execAchCycSel (p : Pkt) (n : Fin 8) (value : Word) (s : State) : Host.Outcome State Fault Refusal :=
  .next (s.writeRequest p 0x11 (ACH.CYC_SEL n.val) value 4 false)

/-- ACH.PHA_SEL of channel `n` written (R166). -/
def execAchPhaSel (p : Pkt) (n : Fin 8) (value : Word) (s : State) : Host.Outcome State Fault Refusal :=
  .next (s.writeRequest p 0x11 (ACH.PHA_SEL n.val) value 4 false)

/-- ACH.CLEAR of channel `n` written (R166). -/
def execAchClear (p : Pkt) (n : Fin 8) (value : Word) (s : State) : Host.Outcome State Fault Refusal :=
  .next (s.writeRequest p 0x11 (ACH.CLEAR n.val) value 4 false)

/-- TRG.U_CFG of trigger unit `n` written (R170). -/
def execTrgUCfg (p : Pkt) (n : Fin 32) (value : Word) (s : State) : Host.Outcome State Fault Refusal :=
  .next (s.writeRequest p 0x11 (TRG.U_CFG n.val) value 4 false)

/-- TRG.REC_MANUAL written (R185). -/
def execTrgRecManual (p : Pkt) (value : Word) (s : State) : Host.Outcome State Fault Refusal :=
  .next (s.writeRequest p 0x11 TRG.REC_MANUAL value 4 false)

/-- TRG.PAT_COMMIT written (R180). -/
def execTrgPatCommit (p : Pkt) (value : Word) (s : State) : Host.Outcome State Fault Refusal :=
  .next (s.writeRequest p 0x11 TRG.PAT_COMMIT value 4 false)

/-- TRG.REC_COMMIT written (R186). -/
def execTrgRecCommit (p : Pkt) (value : Word) (s : State) : Host.Outcome State Fault Refusal :=
  .next (s.writeRequest p 0x11 TRG.REC_COMMIT value 4 false)

/-- TRG.FL_COMMIT written (R193). -/
def execTrgFlCommit (p : Pkt) (value : Word) (s : State) : Host.Outcome State Fault Refusal :=
  .next (s.writeRequest p 0x11 TRG.FL_COMMIT value 4 false)

/-- TRG.CLEAR written (R198). -/
def execTrgClear (p : Pkt) (value : Word) (s : State) : Host.Outcome State Fault Refusal :=
  .next (s.writeRequest p 0x11 TRG.CLEAR value 4 false)

/-- TDC.CLEAR written (R199). -/
def execTdcClear (p : Pkt) (value : Word) (s : State) : Host.Outcome State Fault Refusal :=
  .next (s.writeRequest p 0x11 TDC.CLEAR value 4 false)

/-- LOOP.SEL written (R202). -/
def execLoopSel (p : Pkt) (value : Word) (s : State) : Host.Outcome State Fault Refusal :=
  .next (s.writeRequest p 0x11 LOOP.SEL value 4 false)

/-- LOOP.COMMIT written (R203). -/
def execLoopCommit (p : Pkt) (value : Word) (s : State) : Host.Outcome State Fault Refusal :=
  .next (s.writeRequest p 0x11 LOOP.COMMIT value 4 false)

/-- LOOP.ND_CMD written (R222). -/
def execLoopNdCmd (p : Pkt) (value : Word) (s : State) : Host.Outcome State Fault Refusal :=
  .next (s.writeRequest p 0x11 LOOP.ND_CMD value 4 false)

/-- Word `n` of LOOP.FAULT written (R214). -/
def execLoopFaultClear (p : Pkt) (n : Fin 8) (value : Word) (s : State) : Host.Outcome State Fault Refusal :=
  .next (s.writeRequest p 0x11 (LOOP.FAULT n.val) value 4 false)

/-- LOOP.CLEAR written (R225). -/
def execLoopClear (p : Pkt) (value : Word) (s : State) : Host.Outcome State Fault Refusal :=
  .next (s.writeRequest p 0x11 LOOP.CLEAR value 4 false)

/-- NET.ST_COMMIT written (R307). -/
def execNetStCommit (p : Pkt) (value : Word) (s : State) : Host.Outcome State Fault Refusal :=
  .next (s.writeRequest p 0x11 NET.ST_COMMIT value 4 false)

/-- NET.GO_COMMIT written (R312). -/
def execNetGoCommit (p : Pkt) (value : Word) (s : State) : Host.Outcome State Fault Refusal :=
  .next (s.writeRequest p 0x11 NET.GO_COMMIT value 4 false)

/-- NET.CLEAR written (R317). -/
def execNetClear (p : Pkt) (value : Word) (s : State) : Host.Outcome State Fault Refusal :=
  .next (s.writeRequest p 0x11 NET.CLEAR value 4 false)

/-- PRP.CLEAR written (R318). -/
def execPrpClear (p : Pkt) (value : Word) (s : State) : Host.Outcome State Fault Refusal :=
  .next (s.writeRequest p 0x11 PRP.CLEAR value 4 false)

/-- UPD.REVERT written with its key (R472). -/
def execUpdRevert (p : Pkt) (value : Word) (s : State) : Host.Outcome State Fault Refusal :=
  .next (s.writeRequest p 0x11 UPD.REVERT value 4 false)

/-- UPD.CLEAR written (R485). -/
def execUpdClear (p : Pkt) (value : Word) (s : State) : Host.Outcome State Fault Refusal :=
  .next (s.writeRequest p 0x11 UPD.CLEAR value 4 false)

/-- SEC.FUSE_CMD written with its key (R476). -/
def execSecFuseCmd (p : Pkt) (value : Word) (s : State) : Host.Outcome State Fault Refusal :=
  .next (s.writeRequest p 0x11 SEC.FUSE_CMD value 4 false)

/-- DIO.CLEAR written, for its group bits (R363). -/
def execDioClearGroup (p : Pkt) (value : Word) (s : State) : Host.Outcome State Fault Refusal :=
  .next (s.writeRequest p 0x11 DIO.CLEAR value 4 false)

/-- DIO.CLEAR written, for its bit 8 (R370). -/
def execDioClearCounters (p : Pkt) (value : Word) (s : State) : Host.Outcome State Fault Refusal :=
  .next (s.writeRequest p 0x11 DIO.CLEAR value 4 false)

/-- AO.CLEAR written (R397). -/
def execAoClear (p : Pkt) (value : Word) (s : State) : Host.Outcome State Fault Refusal :=
  .next (s.writeRequest p 0x11 AO.CLEAR value 4 false)

/-- HART.WIN_GO written (R395). -/
def execHartWinGo (p : Pkt) (value : Word) (s : State) : Host.Outcome State Fault Refusal :=
  .next (s.writeRequest p 0x11 HART.WIN_GO value 4 false)

/-- HART.CLEAR written (R398). -/
def execHartClear (p : Pkt) (value : Word) (s : State) : Host.Outcome State Fault Refusal :=
  .next (s.writeRequest p 0x11 HART.CLEAR value 4 false)

/-- CAN.CTRL of channel `ch` written, for BO_RECOVER (R411). -/
def execCanBoRecover (p : Pkt) (ch : Fin 2) (value : Word) (s : State) : Host.Outcome State Fault Refusal :=
  .next (s.writeRequest p 0x11 (CAN.CTRL ch.val) value 4 false)

/-- CAN.TX_CMD of channel `ch` written, to send (R403). -/
def execCanTxSend (p : Pkt) (ch : Fin 2) (value : Word) (s : State) : Host.Outcome State Fault Refusal :=
  .next (s.writeRequest p 0x11 (CAN.TX_CMD ch.val) value 4 false)

/-- CAN.TX_CMD of channel `ch` written, to abort; `started` says that the start of frame is on the bus (R403). -/
def execCanTxAbort (p : Pkt) (ch : Fin 2) (value : Word) (started : Bool) (s : State) : Host.Outcome State Fault Refusal :=
  .next (s.writeRequest p 0x11 (CAN.TX_CMD ch.val) value 4 started)

/-- CAN.BUF_SEL of channel `ch` written (R405). -/
def execCanBufSel (p : Pkt) (ch : Fin 2) (value : Word) (s : State) : Host.Outcome State Fault Refusal :=
  .next (s.writeRequest p 0x11 (CAN.BUF_SEL ch.val) value 4 false)

/-- CAN.BUF_COMMIT of channel `ch` written (R417). -/
def execCanBufCommit (p : Pkt) (ch : Fin 2) (value : Word) (s : State) : Host.Outcome State Fault Refusal :=
  .next (s.writeRequest p 0x11 (CAN.BUF_COMMIT ch.val) value 4 false)

/-- CAN.CLEAR of channel `ch` written (R417). -/
def execCanClear (p : Pkt) (ch : Fin 2) (value : Word) (s : State) : Host.Outcome State Fault Refusal :=
  .next (s.writeRequest p 0x11 (CAN.CLEAR ch.val) value 4 false)

/-- COLLAR.COMMIT written (R425). -/
def execCollarCommit (p : Pkt) (value : Word) (s : State) : Host.Outcome State Fault Refusal :=
  .next (s.writeRequest p 0x11 COLLAR.COMMIT value 4 false)

/-- COLLAR.FENCE written (R426). -/
def execCollarFence (p : Pkt) (value : Word) (s : State) : Host.Outcome State Fault Refusal :=
  .next (s.writeRequest p 0x11 COLLAR.FENCE value 4 false)

/-- COLLAR.CLEAR written (R441). -/
def execCollarClear (p : Pkt) (value : Word) (s : State) : Host.Outcome State Fault Refusal :=
  .next (s.writeRequest p 0x11 COLLAR.CLEAR value 4 false)

/-- DMA.CH_CTRL of channel `n` written (R428). -/
def execDmaChArm (p : Pkt) (n : Fin 16) (value : Word) (s : State) : Host.Outcome State Fault Refusal :=
  .next (s.writeRequest p 0x11 (DMA.CH_CTRL n.val) value 4 false)

/-- DMA.RECOVER written with its key (R432). -/
def execDmaRecover (p : Pkt) (value : Word) (s : State) : Host.Outcome State Fault Refusal :=
  .next (s.writeRequest p 0x11 DMA.RECOVER value 4 false)

/-- DMA.ABORT_CMD written (R438). -/
def execDmaAbortCmd (p : Pkt) (value : Word) (s : State) : Host.Outcome State Fault Refusal :=
  .next (s.writeRequest p 0x11 DMA.ABORT_CMD value 4 false)

/-- DMA.CLEAR written (R440). -/
def execDmaClear (p : Pkt) (value : Word) (s : State) : Host.Outcome State Fault Refusal :=
  .next (s.writeRequest p 0x11 DMA.CLEAR value 4 false)

/-- CUFF.CLEAR written (R442). -/
def execCuffClear (p : Pkt) (value : Word) (s : State) : Host.Outcome State Fault Refusal :=
  .next (s.writeRequest p 0x11 CUFF.CLEAR value 4 false)

/-- EVR.CURSOR written (R458). -/
def execEvrCursorWrite (p : Pkt) (value : Word) (s : State) : Host.Outcome State Fault Refusal :=
  .next (s.writeRequest p 0x11 EVR.CURSOR value 4 false)

/-- EVR.SNAP_COMMIT written (R449). -/
def execEvrSnapCommit (p : Pkt) (value : Word) (s : State) : Host.Outcome State Fault Refusal :=
  .next (s.writeRequest p 0x11 EVR.SNAP_COMMIT value 4 false)

/-- EVR.ALARM written, for FATAL (R459). -/
def execEvrFatalAck (p : Pkt) (value : Word) (s : State) : Host.Outcome State Fault Refusal :=
  .next (s.writeRequest p 0x11 EVR.ALARM value 4 false)

/-- EVR.CLEAR written (R462). -/
def execEvrClearAlarms (p : Pkt) (value : Word) (s : State) : Host.Outcome State Fault Refusal :=
  .next (s.writeRequest p 0x11 EVR.CLEAR value 4 false)

/-- ID.LOCATE written (R491). -/
def execIdLocate (p : Pkt) (value : Word) (s : State) : Host.Outcome State Fault Refusal :=
  .next (s.writeRequest p 0x11 ID.LOCATE value 4 false)

/-- PAIR.ID_SET written with its key (R253). -/
def execPairIdSet (p : Pkt) (value : Word) (s : State) : Host.Outcome State Fault Refusal :=
  .next (s.writeRequest p 0x11 PAIR.ID_SET value 4 false)

/-- PAIR.ID_ADOPT written with its key (R254). -/
def execPairIdAdopt (p : Pkt) (value : Word) (s : State) : Host.Outcome State Fault Refusal :=
  .next (s.writeRequest p 0x11 PAIR.ID_ADOPT value 4 false)

/-- PAIR.CLEAR written (R292). -/
def execPairClear (p : Pkt) (value : Word) (s : State) : Host.Outcome State Fault Refusal :=
  .next (s.writeRequest p 0x11 PAIR.CLEAR value 4 false)

/-- FRAME.CLEAR written, for its bit 1 (R100). -/
def execFrameClearTaskStats (p : Pkt) (value : Word) (s : State) : Host.Outcome State Fault Refusal :=
  .next (s.writeRequest p 0x11 FRAME.CLEAR value 4 false)

/-- FRAME.CLEAR written, for its bit 0 (R100). -/
def execFrameClearStats (p : Pkt) (value : Word) (s : State) : Host.Outcome State Fault Refusal :=
  .next (s.writeRequest p 0x11 FRAME.CLEAR value 4 false)

/-- FRAME.TACK_CLEAR written (R100). -/
def execFrameTackClear (p : Pkt) (value : Word) (s : State) : Host.Outcome State Fault Refusal :=
  .next (s.writeRequest p 0x11 FRAME.TACK_CLEAR value 4 false)

/-- IMG.CLEAR written (R102). -/
def execImgClear (p : Pkt) (value : Word) (s : State) : Host.Outcome State Fault Refusal :=
  .next (s.writeRequest p 0x11 IMG.CLEAR value 4 false)

/-- TREF.REF_CLEAR of reference `n` written (R347). -/
def execTrefRefClear (p : Pkt) (n : Fin 3) (value : Word) (s : State) : Host.Outcome State Fault Refusal :=
  .next (s.writeRequest p 0x11 (TREF.REF_CLEAR n.val) value 4 false)

/-- PTP.PORT_CLEAR of port `n` written (R347). -/
def execPtpPortClear (p : Pkt) (n : Fin 5) (value : Word) (s : State) : Host.Outcome State Fault Refusal :=
  .next (s.writeRequest p 0x11 (PTP.PORT_CLEAR n.val) value 4 false)

/-- PTP.COUNT[15] written (R347). -/
def execPtpCountClear (p : Pkt) (value : Word) (s : State) : Host.Outcome State Fault Refusal :=
  .next (s.writeRequest p 0x11 (PTP.COUNT 15) value 4 false)

/-- POWER.CLEAR written (R530). -/
def execPowerClear (p : Pkt) (value : Word) (s : State) : Host.Outcome State Fault Refusal :=
  .next (s.writeRequest p 0x11 POWER.CLEAR value 4 false)

end Sys2Proof.Machine
end

