-- ==== Sys2Proof/Machine/FabricMoves.lean ====
section
/-!
DEFINITION. Accesses through the collars (R420 to R423): the data that DMA transfers move, each access judged as its channel's (R428 to R432), register
words reached over the fabric (R540), collar faults and cuff timeouts with what they do to their master.
-/

namespace Sys2Proof.Machine

open Reg

/-! ### Registers over the fabric (R9, R540) -/

/-- A register written over the fabric: the bytes of `lanes` from `v`, its other bits as they stand, under the access codes, the state each block needs
and Engineer authority (R9; notes/assumptions/125.md). A write that would be refused is discarded. -/
def State.fabricWrite (s : State) (a : Nat) (lanes v : Word) : State :=
  let row := (regRow a).getD { base := 0 }
  let w := (s.reg a &&& ~~~lanes &&& ~~~row.w1c) ||| (v &&& lanes)
  if !(acts a) ∨ 2 < writeAuthority s a w ∨ (writeParams s a w 0).isSome ∨ ((sharedWrite a || loopWrite a) && !s.mayConfigure) ∨ stopRefused s a w then s
  else (State.passWrite (s.writeReg a w false none) a w).1

/-- A register read over the fabric, with the side effects of its read; none when the read is refused. -/
def State.fabricRead (s : State) (a : Nat) : State × Word :=
  match s.readReg a { session := 0, seq := 0, crc := 0 } with
  | .ok r => r
  | .error _ => (s, 0)

/-! ### Bytes moved -/

/-- Addresses of devices behind collars 3 to 11, whose data at a fixed address is not known here (Table FB-1). -/
def deviceAddress (a : Nat) : Bool := (collarOf a).any fun n => decide (3 ≤ n ∧ n ≤ 11)

/-- `k` bytes read at an address, 4 of a register together. -/
def State.readUnit (s : State) (k a : Nat) (fixed : Bool) : State × List Byte :=
  if fixed ∧ deviceAddress a then
    ({ s with freeCtr := s.freeCtr + 1 }, (beBytes 4 (Config.freeWord s.freeCtr).toNat).take k)
  else
    match registerAt a with
    | some r => if k = 4 then ((s.fabricRead r).1, beBytes 4 (s.fabricRead r).2.toNat) else (s, (List.range k).map fun i => s.fabricByte (a + i))
    | none => (s, (List.range k).map fun i => s.fabricByte (a + i))

/-- Bytes of memory written from an address on. -/
def State.putMemory (s : State) (a : Nat) : List Byte → State
  | [] => s
  | b :: rest => ({ s with fab := { s.fab with mem := memWrite s.fab.mem a b } } : State).putMemory (a + 1) rest

/-- Bytes written at an address: a register as a word, or memory; a fixed address takes each byte in turn, so that the last one stands in memory. -/
def State.writeUnit (s : State) (a : Nat) (fixed : Bool) (l : List Byte) : State :=
  match registerAt a with
  | some r =>
    let k := l.length
    let low := 8 * (4 - a % 4 - k)
    s.fabricWrite r (maskOf (8 * k - 1 + low) low) (BitVec.ofNat 32 (beNat l * 2 ^ low))
  | none => s.putMemory a (if fixed then l.drop (l.length - 1) else l)

/-- The access of channel `c` at an address. -/
def dmaAccess (c a kind : Nat) : Access :=
  { master := BitVec.ofNat 6 (0x10 + c), address := BitVec.ofNat 32 a, privileged := false, kind := BitVec.ofNat 3 kind }

/-- The access is one that faults. -/
def faults (s : State) (x : Access) : Bool := !(judge s x).2

/-- Bytes of a transfer of channel `c` moved in order from byte `i` up to `stop`, four at a time where both addresses are aligned (R428 to R430): the state,
the bytes written, and the access that faulted, at which the transfer stops (R421). -/
def State.moveBytes (s : State) (c : Nat) (x : DmaChannel) (stop : Nat) : Nat → Nat → State × Nat × Option Access
  | 0, i => (s, i, none)
  | fuel + 1, i =>
    if stop ≤ i then (s, i, none)
    else
      let src := x.srcAt i
      let dst := x.dstAt i
      let k := if src % 4 = 0 ∧ dst % 4 = 0 ∧ i + 4 ≤ stop then 4 else 1
      if faults s (dmaAccess c src 1) then (s, i, some (dmaAccess c src 1))
      else if faults s (dmaAccess c dst 2) then (s, i, some (dmaAccess c dst 2))
      else
        let r := s.readUnit k src (bit x.ctrl 29)
        (r.1.writeUnit dst (bit x.ctrl 28) r.2).moveBytes c x stop fuel (i + k)

/-- Channel `c` writes up to byte `n` of its transfer, or to the access that faults; kB moved are counted (Table FB-7). -/
def State.dmaMove (s : State) (c n : Nat) : State × Option Access :=
  let x := s.dma c
  let m := s.moveBytes c x n (n - x.moved) x.moved
  let k := m.2.1 - x.moved
  (((m.1.setDma c { m.1.dma c with moved := x.moved + k }).addReg (DMA.CH_KB c) (k / 1024)).addReg DMA.KBYTES (k / 1024), m.2.2)

/-! ### ALL_HALT and collar faults (R421, R423, R431) -/

/-- Channel `c` halted with `n` bytes written. -/
def State.haltChannel (s : State) (e : DmaError) (c : Nat) : State :=
  let x := s.dma c
  if x.state = 1 then
    let n := ((e.moved.find? (fun m => m.1.val = c)).map (·.2.toNat)).getD x.moved
    let m := if bit x.ctrl 30 ∨ n ≤ x.len then n else x.len
    let s1 := (s.dmaMove c m).1
    s1.setDma c { s1.dma c with state := 2, prefetchLost := e.discarded.getLsbD c, named := decide (e.channel.map (·.val) = some c) }
  else s

/-- ALL_HALT entered (R431): every running channel stops; HALT_INFO follows when the engine has drained. An error while it drains belongs to it; one
during the recovery starts a new ALL_HALT (R432). -/
def State.allHalt (s : State) (e : DmaError) : State :=
  if s.regBit DMA.STATUS 31 ∧ ¬ s.regBit DMA.STATUS 30 then s
  else
    let s1 := (List.range 16).foldl (fun t c => t.haltChannel e c) s
    ((((s1.putRegBit DMA.STATUS 31 true).putRegBit DMA.STATUS 30 false).setReg DMA.HALT_SEC (secWord s.tb.now)).incReg DMA.HALT_COUNT).orReg
      DMA.ALARM 1 |>.updFab fun f => { f with error := some e }

/-- A faulting access (R421): recorded and counted; a locked region denied to the debug master is also reported (R423); then the master's
own consequence. -/
def State.collarFault (s : State) (n r : Nat) (x : Access) : State :=
  let m := x.master.toNat
  let s1 := (s.logFault n r x (privilege s x)).countCollarFault n m
  let s2 := if r = 0x11 ∧ m = 0x0D then ((s1.incReg COLLAR.LOCKED_DENIALS).orReg COLLAR.ALARM 2).raise 0x7803 n else s1
  if m ≤ 1 then s2.runtimeFatal
  else if h : 0x10 ≤ m ∧ m ≤ 0x1F then
    s2.allHalt { cause := if r = 0x12 then 4 else 1, unit := BitVec.ofNat 8 n, channel := some ⟨m - 0x10, by omega⟩, address := x.address,
                 moved := [], discarded := 0 }
  else s2

/-- The fault of a channel's own access (R421, R431). -/
def State.dmaFault (s : State) (x : Option Access) : State :=
  match x with
  | none => s
  | some a => s.collarFault ((collarOf a.address.toNat).getD 0x1F) (judge s a).1 a

/-- COLLAR_FAULT (R420 to R422): the access is judged; one that passes is counted as a hit, and its attributes travel with it. -/
def execCollarFault (x : Access) (s : State) : Host.Outcome State Fault Refusal :=
  let n := (collarOf x.address.toNat).getD 0x1F
  let s1 := s.updFab fun f => { f with passage := some (passageOf s x) }
  match judge s x with
  | (r, true) => .next (s1.countHit n r)
  | (r, false) => .next (s1.collarFault n r x)

/-! ### DMA commands -/

/-- DMA_TRANSFER_COMPLETE (R428): every byte is written; a loaded sleeve starts without a gap. -/
def execDmaTransferComplete (c : Fin 16) (s : State) : Host.Outcome State Fault Refusal :=
  let x := s.dma c.val
  if x.state = 1 ∧ !(bit x.ctrl 30) then
    let m := s.dmaMove c.val x.len
    if m.2.isSome then .next (m.1.dmaFault m.2)
    else
    let s1 := m.1
    let s2 := (s1.setDma c.val { s1.dma c.val with state := 0, completed := (x.completed + 1) % 65536 }).orReg DMA.DONE
      (BitVec.ofNat 32 (2 ^ c.val))
    .next (if x.loaded then s2.dmaStart c.val else s2)
  else .next s

/-- DMA_BLOCK_BOUNDARY (R429): a continuous transfer reaches the end of a block. -/
def execDmaBlockBoundary (c : Fin 16) (s : State) : Host.Outcome State Fault Refusal :=
  let x := s.dma c.val
  if x.state = 1 ∧ bit x.ctrl 30 ∧ 8 ≤ fld x.ctrl 13 9 then
    let m := s.dmaMove c.val ((x.moved / 2 ^ fld x.ctrl 13 9 + 1) * 2 ^ fld x.ctrl 13 9)
    .next (if m.2.isSome then m.1.dmaFault m.2 else m.1.orReg DMA.BLOCK (BitVec.ofNat 32 (2 ^ c.val)))
  else .next s

/-- DMA_BUS_ERROR (R431). -/
def execDmaBusError (e : DmaError) (s : State) : Host.Outcome State Fault Refusal := .next (s.allHalt e)

/-- DMA_DRAINED (R431): DRAINED, HALT_INFO and event 0x7001. -/
def execDmaDrained (s : State) : Host.Outcome State Fault Refusal :=
  match s.fab.error with
  | none => .next s
  | some e =>
    let ch := (e.channel.map (·.val)).getD 0xFF
    let master := if ch = 0xFF then 0xFF else 0x10 + ch
    let s1 := ((s.updFab fun f => { f with error := none }).putRegBit DMA.STATUS 30 true).putRegBit DMA.STATUS 29 (s.regBit DMA.CTRL 8)
    .next (((s1.setReg DMA.HALT_INFO (BitVec.ofNat 32 (e.cause.toNat * 268435456 + master * 65536 + e.unit.toNat * 256 + ch))).setReg
      DMA.HALT_ADDR e.address).raiseBlock 0x7001)

/-! ### Cuffs that end a transfer (R435) -/

/-- A transfer of a DMA channel that a cuff ended (R431). -/
def State.cuffHalt (s : State) (n : Nat) (master : BitVec 6) : State :=
  if h : 0x10 ≤ master.toNat ∧ master.toNat ≤ 0x1F then
    s.allHalt { cause := 2, unit := BitVec.ofNat 8 n, channel := some ⟨master.toNat - 0x10, by omega⟩, address := 0, moved := [], discarded := 0 }
  else s

/-- CUFF_TIMEOUT (R435): a transfer not taken in time ends with a bus error, and STOPPED is set; while it is set, a transfer toward the silent
side ends at once. -/
def execCuffTimeout (n : Fin 12) (master : BitVec 6) (s : State) : Host.Outcome State Fault Refusal :=
  let s1 := s.noteCuff 1 n.val master.toNat 1
  if s.regBit (CUFF.STAT n.val) 27 then .next (s1.cuffHalt n.val master)
  else
    .next ((((((s1.putRegBit (CUFF.STAT n.val) 27 true).putRegBit (CUFF.STAT n.val) 30 false).satRegFld (CUFF.COUNT n.val) 31 16).orReg CUFF.ALARM
      (BitVec.ofNat 32 (2 ^ n.val))).raise 0x7901 n.val).cuffHalt n.val master)

end Sys2Proof.Machine
end

