-- ==== Sys2Proof/Machine/LoopWrites.lean ====
section
/-!
DEFINITION. The loop engine's writes to its destinations (R211, R215, R218, R219).
-/

namespace Sys2Proof.Machine

open Reg

/-- A slot writes in the frame in progress: it was taken in it and has a value to write, or it holds its last output and would be due (R211, R213). -/
def slotWrites (s : State) (k : Nat) : Bool :=
  ((s.slot k).writeDue && slotTaken s k) ||
    (s.executing && decide (slotMode s k = 2) && s.cycleStarts (fld (s.slotWord k 0 0) 28 26) && decide ((s.slot k).wrote ≠ some s.frameNo))

/-- The value of a slot written to its destination at `t` ticks of 2.5 ns from t0 (R215); word 14 records the time. -/
def State.writeSlot (s : State) (k t : Nat) : State :=
  let x := s.slot k
  let v := narrow x.us
  let s1 := s.setSlot k { x with writeDue := false, lastWrite := t, wrote := some s.frameNo }
  match fld (s.slotWord k 0 0) 25 24 with
  | 1 => (s1.commandAo (fld (s.slotWord k 0 0) 18 16) v).writeAo (fld (s.slotWord k 0 0) 18 16)
  | 2 =>
    match slotPoint s k with
    | some b => s1.ownPoint b.point v
    | none => s1
  | _ => s1

/-- ASAP_SLOT_WRITE (R218): 20 ns after the evaluation; a holding slot writes at its bound. -/
def execAsapSlotWrite (k : Byte) (s : State) : Host.Outcome State Fault Refusal :=
  let k := k.toNat
  if k < 240 ∧ slotWrites s k then
    let t := match (s.slot k).taken with
      | some (f, n) => if f = s.frameNo then evalEnd n + 8 else writeBound s k
      | none => writeBound s k
    .next ((s.advanceTo (s.frame.t0 + t * clockUnits)).writeSlot k t)
  else .next s

/-- FIXED_PHASE_SLOT_WRITE (R219): at t0 + PHASE × 2.5 ns; the value written shows in LOOP.FP_OUT (Table LE-10). -/
def execFixedPhaseSlotWrite (k : Byte) (s : State) : Host.Outcome State Fault Refusal :=
  let k := k.toNat
  if 240 ≤ k ∧ slotWrites s k then
    let t := writeBound s k
    .next (((s.advanceTo (s.frame.t0 + t * clockUnits)).writeSlot k t).setReg (LOOP.FP_OUT (k - 240)) (narrow (s.slot k).us))
  else .next s

end Sys2Proof.Machine
end

