-- ==== Sys2Proof/Machine/Passed.lean ====
section
/-!
DEFINITION. Commands passed by the ACTIVE to the STANDBY over the tandem link, and their confirmation (R28, R83, R95, R104, R118, R160,
R167, R203, R280, R307, R308, R320, R427).
-/

namespace Sys2Proof.Machine

open Reg

/-- An instant of a tick comes early enough to be confirmed: at least `us` µs before it. -/
def inTime (s : State) (tick us : Nat) : Bool := decide (s.tb.now + us * 1000 * nsUnits ≤ tick)

/-- A confirmation sent to the ACTIVE (R320). -/
def State.confirm (s : State) (fields : List Nat) : State := s.send .confirmed fields

/-- The ACTIVE's upload carried on in this module's other bank (R104). -/
def State.beginPassed (s : State) (size : Nat) (digest : BitVec 256) : State :=
  (s.openBank size digest).updFrame fun f => { f with passedUpload := some (size, digest, []) }

/-- A chunk of that upload stored. -/
def State.storePassed (s : State) (index : Nat) (data : List Byte) : State :=
  s.updFrame fun f => { f with passedUpload := f.passedUpload.map fun u => (u.1, u.2.1, sparseInsert u.2.2 index data) }

/-- The upload complete: its verification starts (R340). -/
def State.commitPassed (s : State) : State :=
  match s.frame.passedUpload with
  | none => s
  | some (size, digest, chunks) =>
    s.updFrame fun f => { f with verification := some { size := size, digest := digest, bytes := joinChunks chunks, by_ := none } }

/-- The upload ended by the ACTIVE: the bank is EMPTY (R339). -/
def State.abortPassed (s : State) : State :=
  match s.frame.passedUpload with
  | none => s
  | some _ => (s.setBankState s.otherBank 0).updFrame fun f => { f with passedUpload := none }

/-- The run tick of the ACTIVE (R83): confirmed in time, or the STANDBY drops to TRACK. -/
def State.passedRunTick (s : State) (toRun : Bool) (t : Nat) : State :=
  if inTime s t 20 then
    (((s.updFrame fun f => { f with runChange := some { toRun := toRun, tick := t, by_ := none, confirmed := true } }).setReg
      MODE.PEND_SEC (secWord t)).setReg MODE.PEND_NS (nsWord t)).confirm [0x30]
  else s.updPair fun p => { p with trackDue := true }

/-- The switch tick (R118), which only a prepared module confirms, and in time only. -/
def State.passedSwitchTick (s : State) (t : Nat) : State :=
  match s.frame.sw with
  | none => s
  | some w =>
    if w.prepared ∧ inTime s t 20 then
      (s.updFrame fun f => { f with sw := some { w with tick := some t, confirmed := true } }).confirm ([0x24] ++ tickFields t)
    else s

/-- The handover tick (R280), confirmed in time. -/
def State.passedHandover (s : State) (t : Nat) : State :=
  if inTime s t 20 then
    (s.updPair fun p =>
      { p with handover := some { tick := t, by_ := none, giver := false, confirmed := true }, hoConfirm := 1 }).confirm ([0x32] ++ tickFields t)
  else s

/-- An effect with its application tick (R203, R350): confirmed in time, or the STANDBY drops to TRACK. -/
def State.passedApplication (s : State) (t : Nat) (e : AppEffect) : State :=
  if inTime s t 10 then
    (s.updFrame fun f => { f with applications := f.applications ++ [{ tick := t, effect := e, confirmed := true, by_ := none }] }).confirm
      ([0x1A] ++ tickFields t)
  else s.dropUnconfirmed (match e with
    | .loopCommit _ _ => true
    | _ => false)

/-- A station's bind cycle (R308). -/
def State.passedBind (s : State) (n t : Nat) (mac : BitVec 48) : State :=
  let x := s.station n
  s.setStation n { x with bindAt := some t, rebind := x.bound, newMac := mac }

/-- A passed command carried out (R320). -/
def State.runPassed (s : State) (c : Passed) : State :=
  match c with
  | .tackSchedule id t => (s.queueTack t id none).confirm [0x40]
  | .tackCancel id => ((s.removeTack id).incReg FRAME.TACK_CANCELLED).confirm [0x41]
  | .imageBegin size digest => (s.beginPassed size digest).confirm [0x20]
  | .imageChunk i data => (s.storePassed i data).confirm [0x21]
  | .imageCommit => s.commitPassed.confirm [0x22]
  | .imageAdmit => (s.updFrame fun f => { f with admission := some none }).confirm [0x23]
  | .imageAbort => s.abortPassed.confirm [0x25]
  | .imageSwitch => if s.frame.sw.isSome then s else (s.startSwitch none none).confirm [0x24]
  | .switchTick t => s.passedSwitchTick t
  | .switchCancel => (s.cancelSwitch none).confirm [0x25]
  | .runTick r t => s.passedRunTick r t
  | .handover t => s.passedHandover t
  | .regWrite a v => (s.writeReg a v false none).1.confirm [0x11]
  | .restep d => ({ s with tb := { s.tb with stepDue := some (d, .locked, true), slewing := false, jumpPending := false, jumpRef := 0 } }).confirm
      [0x10]
  | .stationCommit n t ws => (s.commitStation n ws t).confirm [0x11]
  | .stationBind n t mac => (s.passedBind n t mac).confirm [0x60]
  | .collarRules n ws => (s.updFab fun f => { f with rulesDue := sparseInsert f.rulesDue n ws }).confirm [0x11]
  | .application t e => s.passedApplication t e

/-- A restep of the leader ends tracking with a failed round (R289). -/
def State.leaderResteps (s : State) (c : Passed) : State :=
  match c with
  | .restep _ => if 1 ≤ s.pair.phase then s.roundFailed else s
  | _ => s

/-- PASSED_COMMAND (R320): a STANDBY carries it out; a tracking module learns of the leader's restep. -/
def execPassedCommand (c : Passed) (s : State) : Host.Outcome State Fault Refusal :=
  .next (if s.committing then s else if s.role = .standby then s.runPassed c else if s.role = .track then s.leaderResteps c else s)

/-- What a confirmation settles on the ACTIVE. -/
def State.confirmed (s : State) (c : Confirmed) : State :=
  match c with
  | .command => s
  | .runTick =>
    s.updFrame fun f => { f with runChange := f.runChange.map fun r => if inTime s r.tick 20 then { r with confirmed := true } else r }
  | .switchTick =>
    s.updFrame fun f => { f with sw := f.sw.map fun w => if (w.tick.map fun t => inTime s t 20) = some true then { w with confirmed := true } else w }
  | .handover =>
    s.updPair fun p => { p with handover := p.handover.map fun h => if inTime s h.tick 20 then { h with confirmed := true } else h }
  | .application t =>
    if inTime s t 10 then
      s.updFrame fun f => { f with applications := f.applications.map fun a => if a.tick = t then { a with confirmed := true } else a }
    else s

/-- PASSED_COMMAND_CONFIRMATION (R320). -/
def execPassedCommandConfirmation (c : Confirmed) (s : State) : Host.Outcome State Fault Refusal :=
  .next (if s.committing ∨ s.role ≠ .active then s else s.confirmed c)

end Sys2Proof.Machine
end

