-- ==== Sys2Proof/Machine/Seam.lean ====
section
/-!
DEFINITION. The seam exchange and the frame digest (R149, R271 to R273, R276): the items of a frame, what the STANDBY adopts, what the
ACTIVE compares, and the judgement at 0.800 µs.
-/

namespace Sys2Proof.Machine

open Reg

/-! ### Items of this module -/

/-- References of snapshot items in use (Table PR-5, R149, R385): those bound in the running image, and the DEC inputs of loop slots. -/
def snapshotRefs (s : State) : List Word :=
  let bound := match s.image with
    | none => []
    | some i => (i.bindings.map (·.point)).filter fun p =>
        decide (pointType p = 10) || (decide (pointType p = 3) && decide (pointStation p = 0) && decide (pointLocal p / 8 = 0x24))
  let decs := ((List.range 256).filter fun k => decide (slotMode s k ≠ 0) && decide (fld (s.slotWord k 0 1) 31 28 = 1)).map fun k =>
    snapshotPoint (fld (s.slotWord k 0 1) 10 8) 2
  (bound ++ decs).eraseDups

/-- The fields of a settled receipt entry, in ascending station and stream. -/
def settledFields (s : State) : List Nat :=
  ((s.net.settled.foldl (fun l r => sparseInsert l (r.entry.station * 16 + r.entry.stream) r) ([] : List (Nat × Receipt))).map
    (fun e => entryFields e.2.entry)).flatten

/-- Digest of the settled station input set (R274): the CRC-64 of R276 over its entries (notes/assumptions/62.md). -/
def settledDigest (s : State) : Dword := crc64 (Config.digestBytes (settledFields s))

/-- The settled set of the C2 cycle that starts at the frame tick in progress. -/
def setForFrame (s : State) : Bool := s.cycleStarts 2 && decide (s.net.settledFor = some s.frame.t0)

/-- The items that this module holds at a frame tick, after those that came in the frame before (Table PR-5). -/
def tickItems (s : State) : List SeamItem :=
  [.levels (s.reg DIO.IN_LEVEL)] ++ (if setForFrame s then [.stationSet (settledDigest s)] else []) ++
    (snapshotRefs s).map fun p => .snapshot p (snapshotValue s p)

/-- A transition as an item. -/
def transitionItem (t : Nat × Bool × Nat) : SeamItem :=
  .transition t.1 t.2.1 { sec := secOf t.2.2, ns := nsOf t.2.2, frac := fracOf t.2.2 }

/-- The items of the frame formed at its tick: those gathered in the frame before, then those of the tick. `gathered` are the transitions
taken before the tick's latching empties their list. -/
def State.formItems (s : State) (gathered : List (Nat × Bool × Nat)) : State :=
  s.updFrame fun f =>
    { f with seamItems := gathered.map transitionItem ++ f.ownItems ++ tickItems s, ownItems := [], proposal := false }

/-! ### The partner's items -/

/-- The subject of an item: two items with the same subject stand for the same thing. -/
def itemSubject : SeamItem → Nat × Nat
  | .transition c _ _ => (0, c)
  | .release t _ => (1, t)
  | .levels _ => (2, 0)
  | .stationSet _ => (3, 0)
  | .snapshot p _ => (4, p.toNat)

/-- An item put in place of the one with its subject, else after the others. -/
def adoptItem (i : SeamItem) (l : List SeamItem) : List SeamItem :=
  if l.any (fun j => itemSubject j = itemSubject i) then l.map (fun j => if itemSubject j = itemSubject i then i else j) else l ++ [i]

/-- A digital level of the ACTIVE's proposal taken for this frame (Table PR-5, R357): enabled channels of a group with valid inputs. -/
def State.adoptLevel (s : State) (w : Word) (c : Nat) : State :=
  if s.dioBit c 31 ∧ !(s.dioGroup (c / 8)).invalid then
    (s.feed (localPoint 1 c) (some (BitVec.ofNat 32 (b2n (bit w c)), (s.dio c).stamp))).feed (localPoint 8 c)
      (some (BitVec.ofNat 32 (b2n (bit w c)), (s.dio c).stamp))
  else s

/-- An item of the ACTIVE's proposal adopted (R271). Transitions and releases serve the next frame, the others the frame in progress. -/
def State.adopt (s : State) (i : SeamItem) : State :=
  match i with
  | .transition c level stamp =>
    (s.setDio c { s.dio c with level := level, stamp := ofInstant stamp }).updIo fun x =>
      { x with transitions := x.transitions.filter (fun t => t.1 ≠ c) ++ [(c, level, ofInstant stamp)] }
  | .release t stamp =>
    let s1 := s.updFrame fun f => { f with ownItems := adoptItem i f.ownItems }
    let e := s1.eTask t
    if e.due.any (fun r => decide (r.frame = s1.frameNo + 1)) then
      s1.setETask t { e with due := e.due.map fun r => if r.frame = s1.frameNo + 1 then { r with stamp := some stamp } else r }
    else s1.eEvent t (some stamp) (s1.frameNo + 1)
  | .levels w =>
    (List.range 32).foldl (fun t c => t.adoptLevel w c) (s.updFrame fun f => { f with seamItems := adoptItem i f.seamItems })
  | .stationSet _ => s.updFrame fun f => { f with seamItems := adoptItem i f.seamItems }
  | .snapshot p v =>
    (s.updFrame fun f => { f with seamItems := adoptItem i f.seamItems }).feed p (some (v, s.frame.t0))

/-- The items of a proposal adopted in their order. -/
def State.adoptAll (s : State) : List SeamItem → State
  | [] => s
  | i :: rest => (s.adopt i).adoptAll rest

/-- The ACTIVE's own value of an item, among those of the frame and those gathered for the next one. -/
def ownItem (s : State) (i : SeamItem) : Option SeamItem :=
  (s.io.transitions.map transitionItem ++ s.frame.ownItems ++ s.frame.seamItems).find? fun j => itemSubject j = itemSubject i

/-- The items of the STANDBY that differ from the ACTIVE's (R271, PAIR.SEAM_DIFF). -/
def differing (s : State) (items : List SeamItem) : Nat := items.countP fun i => decide (ownItem s i ≠ some i)

/-- The module takes the leader's proposal: a STANDBY, or a tracking module that verifies after its join (R271, R288). -/
def adoptsSeam (s : State) : Bool := decide (s.role = .standby) || (decide (s.role = .track) && decide (s.pair.phase = 7))

/-- The settled set whose digest the proposal carries is the one this module holds (R272). -/
def setHeld (s : State) (items : List SeamItem) : Bool :=
  items.all fun i => match i with
    | .stationSet d => decide (settledDigest s = d)
    | _ => true

/-- SEAM_PROPOSAL_RECEIVED (R271, R272): `complete` says that the whole proposal is there with valid CRCs; `finish` is the end of its
arrival in 2.5 ns ticks from t0. The ACTIVE compares the STANDBY's values and does not use them. -/
def execSeamProposalReceived (items : List SeamItem) (complete : Bool) (finish : Half) (s : State) : Host.Outcome State Fault Refusal :=
  if s.committing ∨ !s.pair.tandem.up then .next s
  else if adoptsSeam s then
    let held := setHeld s items
    let s1 := (s.adoptAll items).updFrame fun f =>
      { f with proposal := f.proposal || (complete && held && decide (finish.toNat ≤ 320)) }
    .next (if complete then s1.setReg FRAME.SEAM_END_MAX (maxWord (s1.reg FRAME.SEAM_END_MAX) (finish.zeroExtend 32)) else s1)
  else if s.role = .active then .next (s.addReg PAIR.SEAM_DIFF (differing s items))
  else .next s

/-! ### The judgement -/

/-- The link carries the seam in time (R256): on two lanes, or on one with at most 64 snapshot items. -/
def linkCarriesSeam (s : State) : Bool := (s.pair.lane0 && s.pair.lane1) || decide ((snapshotRefs s).length ≤ 64)

/-- SEAM_DEADLINE (R272, R273, R256): at 0.800 µs the frame is agreed or unagreed. After 3 unagreed frames in a row a STANDBY drops to
TRACK at the next frame tick (Table PR-3). -/
def execSeamDeadline (s : State) : Host.Outcome State Fault Refusal :=
  let s0 := s.phase 800
  if s.frame.stage ≠ 0 then .next s
  else if !adoptsSeam s0 then
    .next (s0.updPair fun p => { p with lastAgreed := true, lastSeam := decide (s.role = .active) && p.tandem.up, unagreed := 0 })
  else if s0.frame.proposal && linkCarriesSeam s0 then
    .next (s0.updPair fun p => { p with lastAgreed := true, lastSeam := true, unagreed := 0 })
  else
    let s1 := ((s0.incReg FRAME.UNAGREED_COUNT).incReg PAIR.SEAM_LATE).raiseBlock 0x2001
    .next (s1.updPair fun p => { p with lastAgreed := false, lastSeam := false, unagreed := p.unagreed + 1 })

/-! ### The frame digest (R276) -/

/-- The fields of an item. -/
def seamFields : SeamItem → List Nat
  | .transition c l t => [0, c, b2n l, t.sec, t.ns, t.frac]
  | .release k t => [1, k, t.sec, t.ns, t.frac]
  | .levels w => [2, w.toNat]
  | .stationSet d => [3, d.toNat]
  | .snapshot p v => [4, p.toNat, v.toNat]

/-- The big-endian bytes of a 64-bit value (R5). -/
def bytesOf64 (d : Dword) : List Byte := wordBytes (BitVec.ofNat 32 (d.toNat / 4294967296)) ++ wordBytes (BitVec.ofNat 32 d.toNat)

/-- The bytes of a committed output value: those of its word, and for a boolean point in a layout that is not given
(notes/assumptions/62.md). -/
def valueBytes (p v : Word) : List Byte := if pointType p = 2 then Config.digestBytes [v.toNat] else wordBytes v

/-- The committed outputs in ascending order of point reference. -/
def committedValues (s : State) : List (Nat × Word) :=
  (s.outputs.foldl (fun l b => sparseInsert l b.point.toNat (s.point b.point).value) ([] : List (Nat × Word)))

/-- The slots evaluated in the frame in progress, in ascending number, by their out value (R209). -/
def evaluatedSlots (s : State) : List Dword :=
  (s.loop.slots.filter fun e => decide (e.2.evaluated = some s.frameNo)).map fun e => e.2.us

/-- The bytes of the frame digest in the order of R276. -/
def frameDigestBytes (s : State) : List Byte :=
  (s.frame.seamItems.flatMap fun i => Config.digestBytes (seamFields i)) ++ (if setForFrame s then bytesOf64 (settledDigest s) else []) ++
    ((committedValues s).flatMap fun e => valueBytes (BitVec.ofNat 32 e.1) e.2) ++ ((evaluatedSlots s).flatMap bytesOf64)

/-- The frame digest. -/
def frameDigest (s : State) : Dword := crc64 (frameDigestBytes s)

end Sys2Proof.Machine
end

