-- ==== Sys2Proof/Machine/FrameTick.lean ====
section
/-!
DEFINITION. The frame tick, the step of the time base and the output commit (R25, R26, R61, R65, R68, Table FX-1), and the automatic
RUN request (R543).
-/

namespace Sys2Proof.Machine

open Reg

/-! ### Measured registers -/

/-- Registers that the module measures, by first address, distance, number and the bits measured (Tables HW-9, PW-9, PW-11, AO-10, CN-5,
FB-11, LS-5, PR-13 and NW-6). -/
def measuredRegs : List (Nat × Nat × Nat × Word) := [
  (POWER.IN_I, 1, 1, 0xFFFFFFFF), (POWER.IN_P, 1, 1, 0xFFFFFFFF), (POWER.HU_V, 1, 1, 0xFFFFFFFF), (POWER.CONV_TEMP, 1, 1, 0xFFFFFFFF),
  (POWER.RAIL_STAT 0, 4, 12, 0x0000FFFF), (POWER.RAIL_P 0, 4, 12, 0xFFFFFFFF), (ID.TEMP, 1, 1, 0xFFFFFFFF), (LINING.CELL, 1, 1, 0x0000FFFF),
  (AO.TEMP, 1, 1, 0xFFFFFFFF), (AO.POWER, 1, 1, 0xFFFFFFFF), (CAN.BUS_LOAD 0, 256, 2, 0x0000FFFF), (CUFF.CLOCK, 1, 1, 0xFFFFFFFF),
  (LOCK.EVT_LAT_MAX 0, 4, 3, 0xFFFFFFFF), (LOCK.EVT_COUNT 0, 4, 3, 0xFFFFFFFF), (LOCK.DEV_READS 0, 4, 3, 0xFFFFFFFF),
  (PAIR.PARTNER_VER, 1, 1, 0xFFFFFFFF), (PAIR.LANE2 0, 8, 2, 0xFFFFFFFF), (PAIR.LANE4 0, 8, 2, 0xFFFFFFFF), (PAIR.LANE5 0, 8, 2, 0xFFFFFFFF),
  (PAIR.LANE6 0, 8, 2, 0xFFFFFFFF), (PAIR.CLASS_KB 0, 2, 8, 0xFFFFFFFF), (PAIR.CLASS_DROPS 0, 2, 8, 0xFFFFFFFF), (NET.QSP_LOAD, 1, 1, 0xFFFFFFFF)]

/-- The bits of a register that are measured; none of the others are. -/
def measuredBits (a : Nat) : Word :=
  match measuredRegs.find? fun r => isIn r.1 r.2.1 r.2.2.1 a with
  | some r => r.2.2.2
  | none => 0

/-- One measured value taken up: the input voltage with its extremes, a rail's power with its largest. -/
def State.measure (s : State) (a : Nat) (v : Word) : State :=
  if a = POWER.IN_V then s.inputVolts v.toNat
  else
    let s1 := s.setReg a (merge (measuredBits a) (s.reg a) v)
    if isIn (POWER.RAIL_P 0) 4 12 a then s1.setReg (a + 1) (maxWord (s1.reg (a + 1)) v) else s1

/-- Every measured value of a frame tick. -/
def State.measureAll (s : State) : List (Nat × Word) → State
  | [] => s
  | m :: rest => (s.measure m.1 m.2).measureAll rest

/-! ### The frame tick -/

/-- The instant of the next frame tick (R15, R25): the first multiple of 10 µs at least 10 µs after the last tick; after a step, the step
instant itself. -/
def frameTickAt (s : State) : Nat :=
  if s.frame.stepped then s.tb.now
  else
    let t := s.frame.t0 + frameUnits
    tickAtOrAfter (if t < s.tb.now then s.tb.now else t)

/-- What `n` seconds of up-time bring (R471, R522, Tables FX-15, TB-10): operating seconds, seconds LOCKED, seconds in RUN, the rest of a
trial. -/
def State.eachSecond (s : State) (n : Nat) : State :=
  let lane (t : State) (l : Nat) : State := t.putReg (PAIR.LANE0 l) 15 0 (satTo 65535 (t.regFld (PAIR.LANE0 l) 15 0 + n))
  let s9 := if s.pair.lane0 then lane s 0 else s
  let s0 := (if s.pair.lane1 then lane s9 1 else s9).addReg LINING.OP_SEC n
  let s1 := if s.tb.quality = .locked then s0.addReg (TB.SERVO_STAT 5) n else s0
  let s2 := if s.mode = .run then s1.addReg MODE.RUN_SECONDS n else s1
  if s.trust.trial.isSome ∧ (s.role = .standby ∨ s.role = .active ∨ s.role = .solo) then
    s2.setReg UPD.TRIAL_LEFT (BitVec.ofNat 32 ((s.reg UPD.TRIAL_LEFT).toNat - n))
  else s2

/-- The seconds of up-time since they were last counted, those that ended inside a frame included. -/
def State.countSeconds (s : State) : State :=
  let n := s.tb.up / secUnits - s.tb.seconds
  if n = 0 then s else ({ s with tb := { s.tb with seconds := s.tb.up / secUnits } } : State).eachSecond n

/-- A new frame begins at its tick `t`: counts, the overrun report for this frame's heartbeat, and what the frame collects afresh. -/
def State.beginFrame (s : State) (t : Nat) : State :=
  let s1 := s.advanceTo t
  let s2 := s1.countSeconds
  let s3 := s2.updFrame fun f =>
    { f with t0 := t, count := f.count + 1, stage := 0, stepped := false, reportNow := f.reports.head?, reports := f.reports.drop 1 }
  let s4 := s3.updPair fun p =>
    { p with cleanFrames := p.cleanFrames + 1, ownNow := none, peerNow := none, differNow := false, tandem := { p.tandem with seen := false } }
  let s5 := { s4 with tb := { s4.tb with alignMisses := s4.tb.alignMisses + 1 } }
  (s5.updEvr fun e => { e with ticks := e.ticks + 1 }).send .pulseToggle []

/-- The mode of the ACTIVE partner taken (R82). -/
def State.followMode (s : State) : State :=
  match s.frame.followMode with
  | none => s
  | some m =>
    let s1 := s.updFrame fun f => { f with followMode := none }
    if s.role = .standby then
      match m with
      | .safe => (s1.enterMode m 11).cancelRunChange
      | .hold => (s1.enterMode m 11).cancelRunChange
      | _ => s1.enterMode m 11
    else s1

/-- What the partner shows at this tick: a STANDBY takes the run mode that its ACTIVE partner changes to (R82, Table FX-11), and the digest of the
STANDBY's other bank is noted (R120). -/
def State.hearPartner (s : State) (i : FrameInput) : State :=
  s.updFrame fun f =>
    { f with
      partnerBank := i.partnerBank
      followMode := match i.partnerMode with
        | some m => if s.role = .standby then some (modeForRole .standby m) else f.followMode
        | none => f.followMode }

/-- An upload of the former ACTIVE ended by a module that is no longer STANDBY (R341): the bank is EMPTY, event 0x604B at a new leader. -/
def State.endPassedUpload (s : State) : State :=
  if s.role = .standby ∨ s.frame.passedUpload.isNone ∨ s.frame.verification.isSome then s
  else if s.leads then s.abortPassed.raiseQcp 0x604B 0 else s.abortPassed

/-- Roles and modes at a frame tick (R80, R82, R266 to R269, R282): the decisions that are due, then Table PR-3, and what a change of
leadership brings (R159, R194, R296, R341). -/
def State.rolesTick (s : State) : State :=
  let s1 := s.decideWaiting.takeDecision.followMode.checkRoles
  let s2 := if s1.leads then (if s.leads then s1 else s1.sendHeldReports) else s1.dropPmuClients
  s2.leadTime.endPassedUpload.leadTick.takeModeRequests.takeAutoRun

/-- FRAME.UTIL_MEAS at the start of a C5 cycle: each core pair's execution time over the compute-window time, 0.01% rounded up. -/
def State.utilTick (s : State) : State :=
  if s.cycleStarts 5 then
    let u (n : Nat) : Nat := (n * 10000 + 669999999) / 670000000
    (s.setReg FRAME.UTIL_MEAS (BitVec.ofNat 32 (u s.frame.busy1 * 65536 + u s.frame.busy0 % 65536))).updFrame fun f =>
      { f with busy0 := 0, busy1 := 0 }
  else s

/-- What was accepted for this frame tick takes effect: the reductions of the frame that has ended, PMUs and subscriptions, patterns and records, loop words, GOOSE, CAN
and collar rules; the inputs are latched (R61, R147, R165, R180, R205, R357, R385, R425). -/
def State.blocksTick (s : State) (i : FrameInput) : State :=
  let s1 := (((s.acqTick i.channels).trgTick.loopTick.gooseTick).canTick).fabricTick
  ((((s1.dioTick.noteTick.latchAllAo 0 i.loops).networkTick).releaseAo).measureAll i.measures)

/-- This module's verdict on a flip, as the proposal carries it (R123). -/
def verdictFields (s : State) : List Nat :=
  match s.frame.sw.bind (·.verdict) with
  | none => []
  | some .ok => [5, 1]
  | some (.fail r) => [5, 0, r]

/-- The proposal of the frame sent to the partner (R271, R123). -/
def State.sendProposal (s : State) : State :=
  if (s.role = .active ∨ s.role = .standby) ∧ s.pair.tandem.up then s.send .seamProposal (s.frame.seamItems.flatMap seamFields ++ verdictFields s)
  else s

/-- No frame begins: a restart is due, or a power-loss sequence has passed its power-loss tick or waits for it (R345, R514). -/
def frameHalted (s : State) : Bool := s.frame.restartDue || decide (s.power.loss ≠ .none)

/-- FRAME_TICK (R61, Table FX-1, step 1). -/
def execFrameTick (i : FrameInput) (s : State) : Host.Outcome State Fault Refusal :=
  let t := frameTickAt s
  if frameHalted s then .next (s.advanceTo t)
  else
    let s1 := ((s.beginFrame t).hearPartner i).rolesTick.judgeRestored.softwareTacks
    let s2 := ((s1.blocksTick i).utilTick.formItems s1.io.transitions).sendProposal
    .next (if verdictDue s2 then s2 else s2.releaseNow)

/-- AUTO_RUN_REQUEST (R543): the pending request made at the next frame tick, when its conditions hold there. -/
def execAutoRunRequest (s : State) : Host.Outcome State Fault Refusal :=
  .next (s.advanceTo (tickAtOrAfter s.tb.now)).takeAutoRun

/-! ### The step -/

/-- A running timer's start moved with a step (R26). -/
def shiftTimer (d : Int) : Storage → Storage
  | .timer t => if t.running then .timer { t with start := shiftTime t.start d } else .timer t
  | x => x

/-- TIME_STEP (R25 to R27): at the frame tick the reference time is loaded, running timers move with it, and the tacks whose times a forward
step skipped execute late. The step frame begins at the step instant. -/
def execTimeStep (s : State) : Host.Outcome State Fault Refusal :=
  match s.tb.stepDue with
  | none => .next s
  | some (d, q, again) =>
    let s0 := s.advanceTo (frameTickAt s)
    let s1 := s0.applyStep d q again
    let s2 := if s.tb.stepped then s1 else s1.noteRtcError d
    let s3 := s2.acqStep.updFrame fun f => { f with store := f.store.map fun e => (e.1, shiftTimer d e.2), stepped := true }
    .next (s3.skippedTacks s0.tb.now)

/-! ### The output commit -/

/-- Internal flags set by the instances whose writes are committed now (R173). -/
def State.taskFlags (s : State) (l : List TaskInstance) : State :=
  let fs := (l.filter fun x => x.done && !x.stopped).flatMap (·.flags)
  if fs.isEmpty then s else s.setFlags (fs.foldl (fun w f => putBit w f.1.val f.2) (s.reg TRG.FLAGS)) s.tb.now

/-- Steps 7 and 8 of Table FX-1 for tasks and slots (R68, R88, R89, R205): the cycles that end are collected, the outputs committed. -/
def State.commitTasks (s : State) : State :=
  let ending := if s.executing then s.frame.instances.filter fun x => x.commitFrame ≤ s.frameNo else []
  let s1 := if s.executing then ((s.collectEnding.taskTacks ending).taskFlags ending) else s
  let s2 := s1.commitTaskWrites
  (s2.commitOutputs s2.outputs).setReg MODE.HEM_STATE (if hemNow s2 then 15 else 0)

/-- The committed values go out: to the pair base's latches, the current loops, the CAN buffers, the networks (R304, R313, R359, R374,
R408). -/
def State.sendCommitted (s : State) : State :=
  let s1 := s.commitDio.commitAo.canCommit.publishAll
  if s1.leads then s1.qspSend else s1

/-- The frame digest formed and compared (R276, R277); `recheck` is the result of recomputing it, if it comes to a self-check. -/
def State.digestTick (s : State) (recheck : Bool) : State :=
  let d := frameDigest s
  (s.updPair fun p => { p with ownNow := some d, digestOwn := d }).compareDigests recheck

/-- The FLAGS byte of this module's heartbeat (Table PR-2). -/
def ownFlags (s : State) : Nat :=
  bitsOf [decide (s.lock.split ≠ 0), s.regBit LOCK.STATUS 15, s.tested, s.pair.muted, s.pair.claim, s.pair.grant,
    s.pair.degraded, s.pair.posB]

/-- HEARTBEAT_SEND (R257, Table PR-2): the fields in its order, then the self-check result (R278) and whether a switch is pending (R128). -/
def State.sendHeartbeat (s : State) : State :=
  if s.lock.cutOff then s
  else
    let o := s.frame.reportNow.getD (0xFF, 0)
    s.sendWire .heartbeat [s.pair.baseId.toNat, s.role.code * 16 + s.mode.code, ownFlags s, s.timeIndex 0, s.pair.digestOwn.toNat, o.1, o.2.toNat,
      s.frame.within.toNat, s.pair.hoConfirm.toNat, (match s.pair.selfCheck with
        | none => 0
        | some true => 1
        | some false => 2), b2n s.frame.sw.isSome]
      (sealed (heartbeatBytes s.pair.baseId.toNat (s.role.code * 16 + s.mode.code) (ownFlags s) (s.timeIndex 0) s.pair.digestOwn s.frame.reportNow
        s.frame.within s.pair.hoConfirm))

/-- The write mirror of a frame (R287): its bytes, and a frame beyond the bound of traffic class 6. -/
def State.mirrorTick (s : State) (bytes : Nat) : State :=
  if s.leads ∧ s.shown = some .track then
    let bound := if s.pair.lane0 ∧ s.pair.lane1 then 12000 else 6000
    let sent := if bound < bytes then bound else bytes
    let s1 := (s.setReg PAIR.MIRROR_LAST (BitVec.ofNat 32 sent)).setReg PAIR.MIRROR_MAX (maxWord (s.reg PAIR.MIRROR_MAX) (BitVec.ofNat 32 sent))
    (if bound < bytes then s1.incReg PAIR.MIRROR_OVF else s1).send .mirror [sent]
  else s

/-- OUTPUT_COMMIT (R61, Table FX-1, steps 7 and 8), once in a frame after the window has closed, and not after a comparator fault (R233): `mirrored` are
the bytes that the frame's writes take in the mirror. -/
def execOutputCommit (recheck : Bool) (mirrored : Half) (s : State) : Host.Outcome State Fault Refusal :=
  let s0 := s.phase 9500
  if s.frame.stage ≠ 2 ∨ s.committing ∨ s.regBit LOCK.STATUS 31 then .next s
  else .next (((((s0.updFrame fun f => { f with stage := 3 }).commitTasks.sendCommitted).digestTick recheck).sendHeartbeat).mirrorTick mirrored.toNat)

end Sys2Proof.Machine
end

