-- ==== Sys2Proof/Machine/PairYoke.lean ====
section
/-!
DEFINITION. The yoke and what moves with it (R261 to R265, R280 to R283, R386, R392, R413, R414): grants, the share window, the unheld
state.
-/

namespace Sys2Proof.Machine

open Reg

/-- HANDOVER_TICK (R280, Sequence PR-1 steps 3 to 5): the modules change roles; the outgoing one opens the share window. -/
def execHandoverTick (s : State) : Host.Outcome State Fault Refusal :=
  match s.pair.handover with
  | none => .next s
  | some h =>
    if h.sharing then .next s
    else
      let s0 := s.advanceTo h.tick
      if !h.confirmed then .next s0.cancelHandover
      else
        let s1 := s0.updPair fun p =>
          { p with handover := some { h with sharing := true }, hoConfirm := 0, hoFrame := some (h.tick / frameUnits) }
        let s2 := s1.showHandover 2 .accepted
        if h.giver then
          let s3 := (s2.canQuiet h.tick).enterRole .standby 17 0
          .next (s3.updPair fun p => { p with share := true, partnerRole := .active })
        else
          let s3 := s2.enterRole .active 11 0
          .next (s3.updPair fun p => { p with partnerRole := .standby })

/-- The lines of the pair base as this module sees them (Table PR-16). -/
def State.seeLines (s : State) (y : YokeLines) : State :=
  s.updPair fun p =>
    { p with
      claimPartner := y.claimPartner, grantPartner := y.grantPartner, sharePartner := y.sharePartner, takeoverIn := y.takeoverIn
      partnerFellAt := if p.grantPartner && !y.grantPartner then s.tb.now else p.partnerFellAt }

/-- A grant given to this module's claim: its outputs leave the unheld state with every release state cleared (R265); the new holder writes
its last committed values (R283) and starts its HART queues (R389). -/
def State.takeGrant (s : State) : State :=
  let s1 := s.updPair fun p => { p with grant := true, unheld := false }
  let s2 := if s1.stagesOn then s1.writeLatches (List.range 32) else s1
  s2.writeAllAo.hartStartAll

/-- GRANT_GAINED (R261 to R263, R283, R386): only a claim is granted. When the partner's grant fell without a share window, `gap` is the
measured gap in ns and `droop` the largest droop in 0.001% of span. -/
def execGrantGained (y : YokeLines) (gap : Half) (droop : Word) (s : State) : Host.Outcome State Fault Refusal :=
  let s0 := s.seeLines y
  if !s0.pair.claim ∨ s0.pair.grant then .next s0
  else
    let s1 := s0.takeGrant
    if y.sharePartner ∨ !s.pair.grantPartner then .next s1
    else .next ((s1.updPair fun p => { p with gap := gap.toNat }).recordDroop droop)

/-- GRANT_LOST (R261, R262, R392, R413): the stages are disabled; a HART transaction is abandoned; the channels leave the CAN bus. A grant
lost under an asserted claim outside a share window has a row in Table PR-3. -/
def execGrantLost (y : YokeLines) (s : State) : Host.Outcome State Fault Refusal :=
  let s0 := s.seeLines y
  if !s0.pair.grant then .next s0
  else
    let s1 := s0.updPair fun p => { p with grant := false, ungrantedAt := s.tb.up, grantLost := p.claim && !p.share }
    .next s1.hartAbandonAll.canLeave

/-- The end of the handover as the registers show it (R280): HO_STATUS done, the count, event 0x0207 and the completion notice. -/
def State.completeHandover (s : State) (h : Handover) : State :=
  (((s.showHandover 3 .done).incReg PAIR.HANDOVERS).raiseBlock 0x0207).notify 0x32 h.by_ done

/-- SHARE_WINDOW_END (R264, R281, Sequence PR-1 step 6): SHARE falls 2 µs after the tick, or `timeout` says that 4 µs have passed; `err` is
the largest deviation of the total in 0.001% of span (R386). The outgoing module's grant is removed and its claim stays armed; with the
lever pulled it then goes OUT (R270). -/
def execShareWindowEnd (timeout : Bool) (err : Word) (s : State) : Host.Outcome State Fault Refusal :=
  match s.pair.handover with
  | none => .next s
  | some h =>
    if !h.sharing then .next s
    else
      let s0 := s.advanceTo (h.tick + (if timeout then 4 else 2) * usUnits)
      if h.giver then
        let s1 := s0.updPair fun p =>
          { p with
            share := false, grant := false, grantPartner := true, handover := none, ungrantedAt := s0.tb.up
            outDue := if p.leverOut then some 0x0C else p.outDue, leverOut := false }
        .next ((s1.hartAbandonAll.canLeave.recordShare err).completeHandover h)
      else
        let s1 := s0.updPair fun p => { p with sharePartner := false, grantPartner := false, handover := none }
        .next ((s1.recordShare err).completeHandover h)

/-- UNHELD_STATE_ENTRY (R265): after 20 µs without a grant, digital outputs are off and loop currents 0 mA, and every release state is
cleared. -/
def execUnheldStateEntry (s : State) : Host.Outcome State Fault Refusal :=
  if s.pair.grant ∨ s.pair.grantPartner then .next s
  else
    let s0 := s.advanceUp (s.pair.ungrantedAt + 20 * usUnits)
    let s1 := s0.unreleaseAll.unreleaseAo
    .next ((List.range 32).foldl (fun t c => if t.isOut c then t.setLatch c false else t) (s1.updPair fun p => { p with unheld := true }))

end Sys2Proof.Machine
end

