-- ==== Sys2Proof/Machine/Comtrade.lean ====
section
/-!
DEFINITION. The COMTRADE files of a record (R191, R192, Table TG-9): CFG, DAT, HDR and INF of each view, and the single CFF file, as bytes. What IEEE
C37.111-2013 and the manual leave open in them is in notes/assumptions/123.md.
-/

namespace Sys2Proof.Machine

/-! ### Text -/

/-- The bytes of a text. -/
def ascii (t : String) : List Byte := t.toList.map fun c => BitVec.ofNat 8 c.toNat

/-- The decimal digits of a number, the lowest `n` at most, the highest first and no leading zeros. -/
def digitsOf : Nat → Nat → List Byte
  | 0, _ => []
  | n + 1, v => (if v < 10 then [] else digitsOf n (v / 10)) ++ [BitVec.ofNat 8 (48 + v % 10)]

/-- A number in decimal. -/
def natText (v : Nat) : List Byte := digitsOf 40 v

/-- The last `n` decimal digits of a number. -/
def fixedText (n v : Nat) : List Byte := (List.range n).map fun i => BitVec.ofNat 8 (48 + v / 10 ^ (n - 1 - i) % 10)

/-- A signed number in decimal. -/
def intText (v : Int) : List Byte := (if v < 0 then ascii "-" else []) ++ natText v.natAbs

/-- Pieces joined by commas. -/
def commas : List (List Byte) → List Byte
  | [] => []
  | [a] => a
  | a :: rest => a ++ ascii "," ++ commas rest

/-- A line with its end. -/
def line (l : List Byte) : List Byte := l ++ [13, 10]

/-- A line of comma-separated pieces. -/
def row (l : List (List Byte)) : List Byte := line (commas l)

/-! ### Times (R192) -/

/-- Year, month and day of a day counted from 1970-01-01. -/
def civil (days : Nat) : Nat × Nat × Nat :=
  let z := days + 719468
  let era := z / 146097
  let doe := z % 146097
  let yoe := (doe - doe / 1460 + doe / 36524 - doe / 146096) / 365
  let doy := doe - (365 * yoe + yoe / 4 - yoe / 100)
  let mp := (5 * doy + 2) / 153
  let m := if mp < 10 then mp + 3 else mp - 9
  (yoe + era * 400 + (if m ≤ 2 then 1 else 0), m, doy - (153 * mp + 2) / 5 + 1)

/-- A time as COMTRADE gives it: UTC, dd/mm/yyyy,hh:mm:ss.ssssss, rounded down to the microsecond (R192). -/
def timeText (utc : Int) (t : Nat) : List Byte :=
  let sec := ((secOf t : Int) - utc).toNat
  let d := civil (sec / 86400)
  let day := sec % 86400
  fixedText 2 d.2.2 ++ ascii "/" ++ fixedText 2 d.2.1 ++ ascii "/" ++ fixedText 4 d.1 ++ ascii "," ++ fixedText 2 (day / 3600) ++ ascii ":"
    ++ fixedText 2 (day / 60 % 60) ++ ascii ":" ++ fixedText 2 (day % 60) ++ ascii "." ++ fixedText 6 (nsOf t / 1000)

/-! ### The samples of a view (Table TG-9) -/

/-- A sample of a view: its time, its up-time, and the analogue values as words (for RAW the codes). -/
structure ViewSample where
  at_ : Nat
  up : Nat
  values : List Word
  deriving DecidableEq, Repr

/-- The RAW samples of a channel within the record's window, oldest first. -/
def rawSamples (r : TrigRecord) (x : RecordChannel) : List ViewSample :=
  let lo := r.trigUp - windowOf r.words false 0
  let full := r.lastUp + windowOf r.words true 0
  let hi := match r.rawEnd with
    | some e => if e < full then e else full
    | none => full
  (x.raw.reverse.flatMap fun f => (f.codes.zip (List.range f.codes.length)).map fun c =>
    { at_ := f.at_ + c.2 * 20 * nsUnits, up := f.up + c.2 * 20 * nsUnits, values := [BitVec.ofInt 32 c.1] }).filter fun v =>
      decide (lo ≤ v.up ∧ v.up < hi)

/-- The time of an entry of Table AQ-4 or AQ-5: its seconds are those of the trigger's era. -/
def entryTime (r : TrigRecord) (e : List Word) : Nat :=
  (secOf r.trigger / 4294967296 * 4294967296 + (e.getD 0 0).toNat) * secUnits + fld (e.getD 1 0) 29 0 * nsUnits

/-- The samples of one channel in a view, oldest first. -/
def channelSamples (r : TrigRecord) (view : Nat) (x : RecordChannel) : List ViewSample :=
  let pick (l : List (Nat × List Word)) (ws : List Nat) : List ViewSample :=
    l.reverse.map fun e => { at_ := entryTime r e.2, up := e.1, values := ws.map fun w => e.2.getD w 0 }
  match view with
  | 0 => rawSamples r x
  | 1 => x.dec.reverse.map fun d =>
    { at_ := d.at_, up := d.up
      values := [engineering x.ratio x.range d.lo 1 0, engineering x.ratio x.range d.hi 1 0, engineering x.ratio x.range d.mean 1 (-8)] }
  | 2 => x.wav.reverse.map fun w => { at_ := w.at_, up := w.up, values := [w.value] }
  | 3 => pick x.cyc [4, 3, 5, 6]
  | _ => pick x.pha [2, 3, 4, 5]

/-- The channels of a view: those of the profile's mask, for PHA those with phasors enabled. -/
def viewChannels (r : TrigRecord) (view : Nat) : List RecordChannel := if view = 4 then r.channels.filter (fun x => x.rate ≠ 0) else r.channels

/-- Analogue quantities per channel of a view. -/
def viewWidth (view : Nat) : Nat :=
  match view with
  | 1 => 3
  | 3 => 4
  | 4 => 4
  | _ => 1

/-- The value that a sample of a file has where a channel gives none: the least code, or a NaN. -/
def missing (view : Nat) : Word := if view = 0 then 0xFFFF8000 else 0x7FC00000

/-- The samples of a view, oldest first. On the grids of RAW, DEC and WAV the channels stand side by side; the entries of CYC and PHA, which each have their own
instants, follow one another. -/
def viewSamples (r : TrigRecord) (view : Nat) : List ViewSample :=
  let cs := viewChannels r view
  let w := viewWidth view
  let blank : List Word := List.replicate w (missing view)
  if view ≤ 2 then
    let all := cs.map (channelSamples r view)
    match all.find? (fun l => !l.isEmpty) with
    | none => []
    | some base => (base.zip (List.range base.length)).map fun b =>
        { b.1 with values := all.flatMap fun l => ((l[b.2]?).map (·.values)).getD blank }
  else
    let tagged := (cs.zip (List.range cs.length)).flatMap fun c => (channelSamples r view c.1).map fun v =>
      { v with values := (List.replicate c.2 blank).flatten ++ v.values ++ (List.replicate (cs.length - 1 - c.2) blank).flatten }
    (tagged.foldl (fun (m : List (Nat × List ViewSample)) v => sparseInsert m v.at_ (((sparseFind m v.at_).getD []) ++ [v])) []).flatMap (·.2)

/-! ### CFG -/

/-- The digital channels of a view: those of the profile's DIO mask in DEC and WAV. -/
def viewDigitals (r : TrigRecord) (view : Nat) : List Nat :=
  if view = 1 ∨ view = 2 then (List.range 32).filter fun c => bit (profWord r.words 8) c else []

/-- The unit of a quantity: the channel's own, Hz, rad or Hz/s. -/
def unitText (x : RecordChannel) (view q : Nat) : List Byte :=
  if view = 3 ∧ q = 1 ∨ view = 4 ∧ q = 2 then ascii "Hz"
  else if view = 4 ∧ q = 1 then ascii "rad"
  else if view = 4 ∧ q = 3 then ascii "Hz/s"
  else if x.unit = 0 then ascii "V" else if x.unit = 1 then ascii "A" else []

/-- The line of an analogue quantity: number, name, phase, circuit, unit, a, b, skew, min, max, primary, secondary, P (Table TG-9). -/
def analogLine (view k q : Nat) (x : RecordChannel) : List Byte :=
  let a := if view = 0 then Config.decimalText (engineering x.ratio x.range 1 1 0) else ascii "1"
  row ([natText k, Config.comtradeName [2, view, x.n, q], [], [], unitText x view q, a, ascii "0", ascii "0"] ++
    (if view = 0 then [ascii "-32768", ascii "32767"] else [ascii "-3.4028235E38", ascii "3.4028235E38"]) ++ [ascii "1", ascii "1", ascii "P"])

/-- The line of a digital channel. -/
def digitalLine (k c : Nat) : List Byte := row [natText k, Config.comtradeName [3, c], [], [], ascii "0"]

/-- The sampling rate of a view, none for per-sample timestamps. -/
def viewRate (view : Nat) : Option Nat :=
  match view with
  | 0 => some 50000000
  | 1 => some 1000000
  | 2 => some 10000
  | _ => none

/-- The time of a view's first sample; the trigger's where the view holds none. -/
def firstTime (r : TrigRecord) (l : List ViewSample) : Nat := (l.head?.map (·.at_)).getD r.trigger

/-- One hexadecimal digit. -/
def hexDigit (v : Nat) : List Byte := [BitVec.ofNat 8 (if v < 10 then 48 + v else 55 + v)]

/-- The CFG file. -/
def cfgFile (r : TrigRecord) (view : Nat) : List Byte :=
  let cs := viewChannels r view
  let w := viewWidth view
  let ds := viewDigitals r view
  let l := viewSamples r view
  let na := cs.length * w
  row [Config.comtradeName [0], Config.comtradeName [1], ascii "2013"]
    ++ row [natText (na + ds.length), natText na ++ ascii "A", natText ds.length ++ ascii "D"]
    ++ ((cs.zip (List.range cs.length)).flatMap fun c => (List.range w).flatMap fun q => analogLine view (c.2 * w + q + 1) q c.1)
    ++ ((ds.zip (List.range ds.length)).flatMap fun d => digitalLine (d.2 + 1) d.1)
    ++ line (ascii (if r.sixty then "60" else "50"))
    ++ (match viewRate view with
      | some f => line (ascii "1") ++ row [natText f, natText l.length]
      | none => line (ascii "0") ++ row [ascii "0", natText l.length])
    ++ line (timeText r.utc (firstTime r l)) ++ line (timeText r.utc r.trigger)
    ++ line (ascii (if view = 0 then "BINARY" else "FLOAT32")) ++ line (ascii "1") ++ row [ascii "0h", ascii "0h"]
    ++ row [hexDigit r.tmq, natText r.leap]

/-! ### DAT -/

/-- A number in `n` bytes, the least significant first, as a binary DAT file holds it. -/
def leBytes (n v : Nat) : List Byte := (List.range n).map fun i => BitVec.ofNat 8 (v / 256 ^ i)

/-- The levels of the digital channels at an up-time. -/
def levelsAt (r : TrigRecord) (up : Nat) : Word := ((r.levels.find? fun m => decide (m.1 ≤ up)).map (·.2)).getD 0

/-- The 16-bit words of the digital channels of a sample. -/
def digitalWords (r : TrigRecord) (view up : Nat) : List Byte :=
  let ds := viewDigitals r view
  let w := levelsAt r up
  (List.range ((ds.length + 15) / 16)).flatMap fun i => leBytes 2 (bitsOf (((ds.drop (16 * i)).take 16).map (bit w)))

/-- The DAT file: of each sample its number, its time after the first one in µs, its values and the digital words. -/
def datFile (r : TrigRecord) (view : Nat) : List Byte :=
  let l := viewSamples r view
  let t0 := firstTime r l
  (l.zip (List.range l.length)).flatMap fun v =>
    leBytes 4 (v.2 + 1) ++ leBytes 4 ((v.1.at_ - t0) / microUnits) ++
      v.1.values.flatMap (fun x => leBytes (if view = 0 then 2 else 4) x.toNat) ++ digitalWords r view v.1.up

/-! ### INF and HDR (R192) -/

/-- A key and its value. -/
def entry (key : String) (value : List Byte) : List Byte := line (ascii key ++ ascii "=" ++ value)

/-- A time as TAI seconds, nanoseconds and 2^-16 ns. -/
def taiText (t : Nat) : List Byte := commas [natText (secOf t), natText (nsOf t), natText (fracOf t)]

/-- The FLAGS of Table TG-8. -/
def recordFlags (r : TrigRecord) : Nat :=
  b2n r.isOpen + b2n r.protected_ * 2 + b2n r.rawOmit * 4 + b2n r.rawTrunc * 8 + b2n r.discontinuity * 16 + b2n r.fused * 32 + b2n r.located * 64
    + b2n (r.extended || decide (1 ≤ r.extensions)) * 128 + b2n (decide (1 ≤ r.ignored)) * 256 + b2n r.badData * 512

/-- The INF file: the section of R192. -/
def infFile (r : TrigRecord) (view : Nat) : List Byte :=
  line (ascii "[Osmorad QC-880]") ++ entry "Trigger_TAI" (taiText r.trigger) ++ entry "First_Sample_TAI" (taiText (firstTime r (viewSamples r view)))
    ++ entry "Time_Quality" (natText r.quality) ++ entry "TB_UNCERT" (natText r.uncert.toNat) ++ entry "Number" (natText r.number)
    ++ entry "Profile" (natText r.profile) ++ entry "Source" (natText r.source) ++ entry "Flags" (natText (recordFlags r))
    ++ entry "Extensions" (natText (satTo 65535 r.extensions)) ++ entry "Size_kB" (natText (recordKb r))
    ++ entry "Ignored" (natText (satTo 65535 r.ignored))
    ++ (match r.stepA with
      | some t => entry "Step_A_TAI" (taiText t)
      | none => [])

/-- A TWE entry as a line: its channel and the fields of Table AQ-6. -/
def tweLine (n : Nat) (e : List Word) : List Byte :=
  let w (i : Nat) : Word := e.getD i 0
  row [natText n, natText (w 0).toNat, natText (fld (w 1) 31 30), natText (fld (w 1) 29 0), natText (fld (w 2) 31 16), natText (fld (w 2) 15 0),
    Config.decimalText (w 3), Config.decimalText (w 4), Config.decimalText (w 5), natText (w 6).toNat]

/-- A fault-location result as a line. -/
def resultLine (f : FlResult) : List Byte :=
  row [natText f.line, natText f.state, Config.decimalText f.distance, Config.decimalText f.uncertainty, natText (b2n f.clamped), natText (b2n f.notLocked)]

/-- The HDR file: the profile and the firing pattern unit, every TWE entry of the window, and any fault-location result. -/
def hdrFile (r : TrigRecord) : List Byte :=
  entry "Profile" (natText r.profile) ++ (match r.unit with
    | some u => entry "Pattern_Unit" (natText u)
    | none => [])
    ++ r.channels.flatMap (fun x => x.twe.reverse.flatMap fun e => tweLine x.n e.2) ++ r.results.flatMap resultLine

/-! ### Files -/

/-- A section of the CFF file. -/
def cffPart (name : List Byte) (body : List Byte) : List Byte := line (ascii "--- file type: " ++ name ++ ascii " ---") ++ body

/-- A file of a view (Table QP-7): 0 CFG, 1 DAT, 2 HDR, 3 INF, 4 CFF. -/
def recordFile (r : TrigRecord) (view file : Nat) : List Byte :=
  match file with
  | 0 => cfgFile r view
  | 1 => datFile r view
  | 2 => hdrFile r
  | 3 => infFile r view
  | _ =>
    let d := datFile r view
    cffPart (ascii "CFG") (cfgFile r view) ++ cffPart (ascii "INF") (infFile r view) ++ cffPart (ascii "HDR") (hdrFile r)
      ++ cffPart (ascii (if view = 0 then "DAT BINARY: " else "DAT FLOAT32: ") ++ natText d.length) d

end Sys2Proof.Machine
end

