-- ==== Sys2Proof/Machine/RecordFiles.lean ====
section
/-!
DEFINITION. Reading and deleting disturbance records through QCP (R190, R191, R338, R339, R341).
-/

namespace Sys2Proof.Machine

open Reg

/-- A summary entry, by its fields (Table TG-8). -/
def recordSummary (r : TrigRecord) : List Nat :=
  [r.number, r.profile, r.source, recordFlags r, secOf r.trigger, r.quality * 1073741824 + nsOf r.trigger, fracOf r.trigger,
    satTo 65535 r.extensions, recordKb r, satTo 65535 r.ignored, 0]

/-- REC_LIST, REC_OPEN, REC_READ and REC_DELETE are answered in any role except INIT (R190). -/
def recordsServed (s : State) : Bool := decide (s.role ≠ .init)

/-- The record with a number. -/
def recordOf (s : State) (n : Nat) : Option TrigRecord := s.trg.records.find? (fun r => r.number = n)

/-- REC_LIST: summaries from a first number, in ascending numbers, at most 40, and the next number or 0 (Table QP-7). -/
def execRecList (p : Pkt) (first : Word) (s : State) : Host.Outcome State Fault Refusal :=
  .next (s.request p 0x50 0 false none fun t _ =>
    if !(recordsServed t) then (t, some (refusal .wrongState))
    else
      let all := (t.trg.records.filter (fun r => first.toNat ≤ r.number)).foldl (fun l r => sparseInsert l r.number r)
        ([] : List (Nat × TrigRecord))
      let shown := all.take 40
      (t, some { status := .done, fields := [shown.length, ((all.drop 40).head?.map (·.1)).getD 0],
                 payload := shown.flatMap (fun e => recordSummary e.2) }))

/-- The record holds the reduction of a view: word 0 of its profile, [29:24] RAW, DEC, WAV, CYC, PHA, TWE, and no RAW part was left out
(R188, Table TG-15). -/
def holdsView (r : TrigRecord) (view : Nat) : Bool :=
  bit ((r.words[0]?).getD 0) (29 - view) && !(decide (view = 0) && r.rawOmit)

/-- REC_OPEN (R191): a file of a view; a view that the record does not hold returns BAD_PARAMETER. -/
def execRecOpen (p : Pkt) (number : Word) (view file : Byte) (zero : Half) (s : State) : Host.Outcome State Fault Refusal :=
  let bad : Option Reply :=
    match recordOf s number.toNat with
    | none => some (refusal .badParameter 0 0)
    | some r =>
      if 4 < view.toNat ∨ !(holdsView r view.toNat) then some (refusal .badParameter 0 4)
      else if 4 < file.toNat then some (refusal .badParameter 0 5)
      else if zero ≠ 0 then some (refusal .badParameter 0 6) else none
  .next (s.request p 0x51 0 false bad fun t rq =>
    match recordOf t number.toNat with
    | none => (t, some (refusal .badParameter 0 0))
    | some r =>
      if !(recordsServed t) ∨ r.isOpen then (t, some (refusal .wrongState))
      else if 4 ≤ t.handleCount rq.session false then (t, some (refusal .busy))
      else
        let size := (recordFile r view.toNat file.toNat).length
        let o := t.openHandle rq.session (.record number.toNat view.toNat file.toNat) size 0
        (o.1, some (doneWith [o.2.id, size, o.2.chunks])))

/-- An open download handle of the requesting session. -/
def downloadHandle (s : State) (id : Word) (rq : Requester) : Option Handle :=
  (s.handle id.toNat rq.session).filter fun h => match h.kind with
    | .record _ _ _ => true
    | _ => false

/-- The length of a chunk (R338). -/
def chunkLength (h : Handle) (index : Nat) : Nat := if index + 1 = h.chunks then h.size - 1344 * index else 1344

/-- The bytes of chunk `index` of the file that a download handle reads (R338, R191). -/
def chunkBytes (s : State) (h : Handle) (index : Nat) : List Byte :=
  match h.kind with
  | .record n view file =>
    (match recordOf s n with
      | some r => ((recordFile r view file).drop (1344 * index)).take (chunkLength h index)
      | none => [])
  | _ => []

/-- REC_READ (R339): a chunk of the file. -/
def execRecRead (p : Pkt) (handle index : Word) (s : State) : Host.Outcome State Fault Refusal :=
  .next (s.request p 0x52 0 false none fun t rq =>
    match downloadHandle t handle rq with
    | none => (t, some (refusal .badParameter 0 0))
    | some h =>
      if !(recordsServed t) then (t, some (refusal .wrongState))
      else if h.chunks ≤ index.toNat then (t, some (refusal .outOfSequence))
      else
        (t.setHandle { h with lastAt := t.tb.up },
          some { status := .done, fields := [], payload := (chunkBytes t h index.toNat).map (·.toNat) }))

/-- REC_DELETE (R190, R341). -/
def execRecDelete (p : Pkt) (number : Word) (s : State) : Host.Outcome State Fault Refusal :=
  .next (s.request p 0x53 2 false (if (recordOf s number.toNat).isNone then some (refusal .badParameter 0 0) else none) fun t _ =>
    match recordOf t number.toNat with
    | none => (t, some (refusal .badParameter 0 0))
    | some r =>
      if !(recordsServed t) ∨ r.isOpen then (t, some (refusal .wrongState))
      else if downloading t r.number then (t, some (refusal .busy))
      else (t.updTrg fun x => { x with records := x.records.filter (fun y => y.number ≠ r.number) }, some done))

/-- REC_CLOSE (R339). -/
def execRecClose (p : Pkt) (handle : Word) (s : State) : Host.Outcome State Fault Refusal :=
  .next (s.request p 0x55 0 false none fun t rq =>
    match downloadHandle t handle rq with
    | none => (t, some (refusal .badParameter 0 0))
    | some h => (t.dropHandle h true, some done))

end Sys2Proof.Machine
end

