-- ==== Sys2Proof/Machine/Starts.lean ====
section
/-!
DEFINITION. Starts (R10, R23, R74, R97, R137, R189, R241, R454, R475, R481, R488, R496, R517, R518, R524, R525, R528, R543): what a power-on
start and a warm restart keep, set up and check.
-/

namespace Sys2Proof.Machine

open Reg

/-! ### What stays over a start -/

/-- Registers of the lining, which has its own supply (R520). -/
def liningRegs : List Nat :=
  [LINING.RTC_SEC_HI, LINING.RTC_SEC_LO, LINING.RTC_SUB, LINING.OP_SEC, LINING.POWER_CYCLES, LINING.BOOT_CFG, LINING.BOOT_CFG_NOW,
    LINING.CELL_CHANGES, LINING.TAMPER, LINING.TAMPER_SEC, LINING.CALIB] ++ (List.range 12).map LINING.USER

/-- Registers that show what is present and supplied through a start (notes/assumptions/66.md). -/
def liveRegs : List Nat :=
  [POWER.START_DELAY, POWER.HU_V] ++ (List.range 12).map POWER.RAIL_STAT ++ (List.range 4).map ID.SFP

/-- The registers after a start (R10): preserved bits, the lining, and what is present. -/
def State.startRegs (s : State) : State :=
  let s1 := { s with regs := keepPreserved s.regs }
  let s2 := (liningRegs ++ liveRegs).foldl (fun t a => t.setReg a (s.reg a)) s1
  let s3 := (s2.setReg LINING.STATUS (s.reg LINING.STATUS &&& 0x98000000#32)).setReg POWER.STATUS (s.reg POWER.STATUS &&& 0x43000FFF#32)
  (List.range 4).foldl (fun t p => t.setReg (NET.PORT_STATUS p) (s.reg (NET.PORT_STATUS p) &&& 0x60000000#32)) s3

/-- Free values put into registers whose content the manual does not give (notes/assumptions/4.md). -/
def State.freeRegs (s : State) : List Nat → State
  | [] => s
  | a :: rest => ({ s.setReg a (Config.freeWord s.freeCtr) with freeCtr := s.freeCtr + 1 }).freeRegs rest

/-- The images, the retained data and the tack queue stay (R97, R102, R516); a warm restart retains the last completed cycles' data unless a
comparator fault stopped the module (notes/assumptions/67.md). -/
def keptFrame (s : State) (power : Bool) : Frame :=
  let f := s.frame
  let now := !power && !s.regBit LOCK.STATUS 31
  let data := if now then retentiveStore s else f.retained
  let tacks := if now then f.tacks else f.retainedTacks
  { bank0 := f.bank0, bank1 := f.bank1, runBank := f.runBank, retained := data, retainedTacks := tacks, placement := f.placement, store := data, tacks := tacks
    nextTack := f.nextTack, restored := !tacks.isEmpty, restoredIds := tacks.map (·.id), autoRun := s.regBit MODE.CFG 0 }

/-- The pair after a start: the strap, the lines of the pair base and the lever are as they are (R253, R254, R494). -/
def keptPair (s : State) (f : StartFindings) : Pair :=
  let p := s.pair
  { posB := f.posB, partnerPresent := f.partnerPresent, baseId := f.pairId, storedId := p.storedId, claimPartner := p.claimPartner
    grantPartner := p.grantPartner, sharePartner := p.sharePartner, takeoverIn := p.takeoverIn, lever := !f.leverClosed
    clamped := s.regBit LOCK.STATUS 31 || s.regBit LOCK.STATUS 28 }

/-- The records that were committed stay, those that were not are lost (R189); the TDC inputs keep their factory delays. -/
def keptTrig (s : State) : Trig :=
  { records := s.trg.records.filter (fun r => !r.isOpen), nextRecord := s.trg.nextRecord
    inputs := sparseMap {} (fun (x : TdcInput) => { delay := x.delay }) s.trg.inputs }

/-- The field sides: the raw levels of inputs stay, and what the pair base holds: the output latches (R265), the release states, which a start beside a
grant holder finds as they are (R366, R378), and the state of the groups (R363, R365). A raw high level is debounced anew. -/
def keptIo (s : State) (f : StartFindings) : Io :=
  { channels := sparseMap {} (fun (x : DioChannel) =>
      { raw := x.raw, latch := x.latch, unreleased := x.unreleased, thermal := x.thermal, hot := x.hot
        run := if x.raw then some (0, 0) else none }) s.io.channels
    groups := sparseMap {} (fun (x : DioGroup) => { x with tripped := x.tripped.map (fun _ => 0), trips := [] }) s.io.groups
    loops := sparseMap {} (fun (x : AoChannel) => { unreleased := x.unreleased || !s.pair.grantPartner }) s.io.loops
    fieldUp := decide (fld (f.links.zeroExtend 32) 3 0 = 15), loopUp := f.links.getLsbD 4 }

/-- The networks: transceivers stay, the redundancy modes become those of PRP.CFG (R293), and the QSP timing that of NET.QSP_TIMING. -/
def keptNet (s : State) : Net :=
  { cages := s.net.cages, timing := s.reg NET.QSP_TIMING
    net0 := { mode := s.regFld PRP.CFG 1 0 }, net1 := { mode := s.regFld PRP.CFG 5 4 } }

/-- The log stays (R443); the intake queue outlives a warm restart only. -/
def keptEvr (s : State) (power : Bool) : Recorder :=
  let e := s.evr
  { records := e.records, newest := e.newest, loss := e.loss, lossSev := e.lossSev, intakeLost := e.intakeLost, overwritten := e.overwritten
    folded := e.folded, discarded := e.discarded, ackIndex := e.ackIndex, sealOk := e.sealOk, intake := if power then [] else e.intake.map fun x => { x with tick := 0 } }

/-- Memory that the fabric reaches: MRAM and flash (0xC000_0000 on) stay, DRAM stays over a warm restart (notes/assumptions/68.md). -/
def keptFab (s : State) (power : Bool) : Fabric :=
  { mem := if power then s.fab.mem.filter (fun c => decide (0xC0000000 ≤ c.1)) else s.fab.mem }

/-- Power and lining: copies, the phase of the supply, and what is still to be reported. -/
def keptPower (s : State) : Power :=
  let p := s.power
  { supply := p.supply, powered := p.powered, lamp := p.lamp, afterLoss := p.afterLoss, stale := p.stale, copySec := p.copySec
    copyCycles := p.copyCycles, copyBoot := p.copyBoot, tamperOpen := p.tamperOpen, tamperDue := p.tamperDue, inserted := p.inserted }

/-- Every part of the module at its start values, with what stays (R10, R23, R332). -/
def State.startParts (s : State) (f : StartFindings) (power : Bool) : State :=
  let t := s.endAllSessions.startRegs
  { t with
    role := .init, mode := .stop, tb := {}, ptp := { ctrl := t.reg PTP.CTRL, domain := t.reg PTP.DOMAIN, intervals := t.reg PTP.INTERVALS }
    frame := keptFrame s power, pair := keptPair s f
    lock := { faultTimes := s.lock.faultTimes, cutOff := s.regBit LOCK.STATUS 31 || s.regBit LOCK.STATUS 28 }
    loop := {}, acq := {}, trg := keptTrig s, io := keptIo s f, net := keptNet t, can0 := {}, can1 := {}
    evr := keptEvr (if power then s else s.endAllSessions) power, fab := keptFab s power, power := keptPower s, staged := []
    trust := { t.trust with checking := none, cert := none, unmapped := [], initHeld := false,
                              trialStarts := if s.pair.reached then 0 else t.trust.trialStarts }
    qcp := { stats := if power then {} else t.qcp.stats, nextHandle := 1 } }

/-! ### What a start finds -/

/-- The defaults of TB.HOLD_BOUND and TB.HOLD_A by order code (R1, R57, Table TB-10). -/
def orderDefaults (oven : Bool) : Word × Word := if oven then (0x3E8, 0x1388) else (0x2710, 0x186A0)

/-- The order code as the module's identity gives it (R1, R3): the two registers whose defaults follow from it, where they stand at the other code's
defaults, take those of this one; ID.ORDER and the designation in ID.VPD show it. -/
def State.startOrder (s : State) (oven : Bool) : State :=
  let was := orderDefaults (decide (s.regFld ID.ORDER 15 8 = 1))
  let now := orderDefaults oven
  let s1 := if s.reg TB.HOLD_BOUND = was.1 then s.setReg TB.HOLD_BOUND now.1 else s
  let s2 := if s.reg TB.HOLD_A = was.2 then s1.setReg TB.HOLD_A now.2 else s1
  (s2.setReg ID.ORDER (if oven then 0x0101 else 0)).putReg (ID.VPD 1) 7 0 (0x30 + b2n oven)

/-- The boot configuration word (R525): the lining's word, or when it fails its check or the lining was lost the MRAM copy, or 0. -/
def bootWord (s : State) (f : StartFindings) : Half :=
  if !f.liningLost ∧ f.bootOk then BitVec.ofNat 16 (s.regFld LINING.BOOT_CFG 15 0)
  else if f.bootCopyOk then s.power.copyBoot else 0

/-- The lining at a start: lost and restored (R528), the RTC as found (R521), the boot word (R525), the tamper report (R524). -/
def State.startLining (s : State) (f : StartFindings) : State :=
  let w := bootWord s f
  let s1 := if f.liningLost then
      (((s.setReg LINING.OP_SEC s.power.copySec).setReg LINING.POWER_CYCLES s.power.copyCycles).putRegBit LINING.STATUS 31 false).freeRegs
        ([LINING.CELL_CHANGES, LINING.TAMPER, LINING.TAMPER_SEC, LINING.CALIB] ++ (List.range 12).map LINING.USER)
    else s
  let s2 := (((s1.setReg LINING.RTC_SEC_HI (BitVec.ofNat 32 (f.rtcSec.toNat / 4294967296 % 65536))).setReg LINING.RTC_SEC_LO
    (BitVec.ofNat 32 f.rtcSec.toNat)).setReg LINING.RTC_SUB (f.rtcSub.zeroExtend 32)).setReg LINING.OFF_SEC f.offSec
  let s3 := (s2.setReg LINING.BOOT_CFG (w.zeroExtend 32)).setReg LINING.BOOT_CFG_NOW (w.zeroExtend 32)
  let s4 := ((s3.putRegBit LINING.STATUS 29 true).putRegBit LINING.STATUS 30 f.liningLost).putRegBit LINING.STATUS 24 (f.liningLost || !f.bootOk)
  { s4 with lock := { s4.lock with split := BitVec.ofNat 3 w.toNat } }

/-- The events of the lining's state at a start (R524, R525, R528, R241). -/
def State.reportLining (s : State) (f : StartFindings) : State :=
  let s1 := if f.liningLost then (s.orReg LINING.ALARM 8).raiseBlock 0x0504 else s
  let s2 := if !f.liningLost ∧ !f.bootOk then (s1.orReg LINING.ALARM 16).raiseBlock 0x0506 else s1
  let s3 := if s2.power.tamperDue then ((s2.orReg LINING.ALARM 4).raiseBlock 0x0503).updPower fun p => { p with tamperDue := false } else s2
  if s3.lock.split ≠ 0 then s3.raiseBlock 0x0305 else s3

/-- The time base at a start (R23, Table TB-1): seeded from the RTC, or UNSET at 0. -/
def State.startTime (s : State) (f : StartFindings) : State :=
  if s.regBit LINING.STATUS 31 ∧ s.regBit TB.CTRL 0 then
    let t := f.rtcSec.toNat % 281474976710656 * secUnits + f.rtcSub.toNat * (secUnits / 32768)
    { s with tb := { s.tb with now := t, quality := .free }, frame := { s.frame with t0 := t } }
  else s

/-- The slot code has odd parity (Table HW-2, R496). -/
def slotCodeOk (f : StartFindings) : Bool := decide ((b2n f.slotParity + (List.range 5).countP (f.slot.getLsbD ·)) % 2 = 1)

/-- The checks of R488 and R496 in their order: 1 slot-code parity, 2 pair-base management bus, 3 pair base type, 4 field-side links; those
that fail. -/
def connFaults (s : State) (f : StartFindings) : List Nat :=
  let typeOk := decide (f.pbType = 0x0882) && decide (s.regFld ID.PB_TYPES 15 0 ≤ f.pbRev.toNat)
  ([(1, slotCodeOk f), (2, f.busOk), (3, !f.busOk || typeOk), (4, decide (f.links = 63))].filter (fun x => !x.2)).map (·.1)

/-- What the module reads of its place (R253, R488, R496, Tables HW-9 and HW-10), with event 0x0003 for each failed check. -/
def State.startPlace (s : State) (f : StartFindings) : State :=
  let bad := connFaults s f
  let id := (((s.setReg ID.SLOT (BitVec.ofNat 32 (f.chassis.toNat * 16777216 + f.slot.toNat * 256 + b2n f.posB))).setReg ID.CHASSIS_ID
    f.chassisId).setReg ID.PB_SERIAL_HI (BitVec.ofNat 32 (f.pbSerial.toNat / 4294967296))).setReg ID.PB_SERIAL_LO (BitVec.ofNat 32 f.pbSerial.toNat)
  let s1 := id.setReg PAIR.PB_INFO (BitVec.ofNat 32 (f.pbType.toNat * 65536 + f.pbRev.toNat))
  let cages := bitsOf ((List.range 4).map fun p => (sparseFind s.net.cages p).isSome)
  let s2 := s1.setReg ID.STATUS (BitVec.ofNat 32
    (b2n f.drawerClosed * 1073741824 + b2n f.busOk * 536870912 + b2n (f.busOk && !(bad.contains 3)) * 268435456
      + b2n (slotCodeOk f) * 134217728 + cages * 256 + f.links.toNat))
  let s3 := s2.setReg ID.CONN_FAULT (BitVec.ofNat 32 (bad.getLast?.getD 0 * 268435456 + (63 - f.links.toNat)))
  let s4 := bad.foldl (fun t _ => t.raiseBlock 0x0003) s3
  if soloBlocked s4 then s4.raiseBlock 0x020F else s4

/-- The event log at a start (R454, R459): failing records are discarded, a bad seal is rebuilt from the rest, and FATAL is set again. -/
def State.startLog (s : State) (f : StartFindings) : State :=
  let gone := s.evr.records.filter fun r => f.badRecords.contains r.index
  let kept := s.evr.records.filter fun r => !(f.badRecords.contains r.index)
  let s1 := s.updEvr fun e =>
    { e with records := kept, discarded := e.discarded + BitVec.ofNat 32 gone.length
             alarm := e.alarm ||| (if gone = [] then 0 else 8), sealOk := true }
  let s2 := if f.sealOk then s1
    else
      let n := s1.freeCtr
      { s1.updEvr (fun e =>
          { e with newest := (kept.getLast?.map (·.index)).getD 0, loss := Config.freeWord n, lossSev := Config.freeWord (n + 1)
                   ackIndex := (Config.freeWord (n + 2)).toNat }) with freeCtr := n + 3 }
  let fatal := s2.evr.records.any fun r => decide (r.severity = 4) && decide (s2.evr.ackIndex < r.index)
  let s3 := s2.updEvr fun e => { e with alarm := e.alarm ||| (if fatal then 16 else 0) }
  let s4 := gone.foldl (fun t _ => t.raiseBlock 0x7C03) s3
  if f.sealOk then s4 else s4.raiseBlock 0x7C06

/-- A component bank that fails its signature check is not started: the other bank is (R475). -/
def State.bankFails (s : State) (k : Nat) : State :=
  let b := runningBank s k
  let s1 := if s.trust.trial = some k then s.revert k
    else if otherState s k = 0 then s
    else ((((s.setComponentState k b 0).setComponentState k (1 - b) 5).putRegBit (UPD.C_STATE k) 31 (decide (b = 0))).showComponent k)
  (s1.orReg UPD.ALARM 8).raiseBlock 0x7E05

/-- Component banks at a start: uploads and imports in progress are lost (R341), failing banks fall back (R475), an applied bank runs in
TRIAL (R470), and a start in TRIAL is counted (R471). -/
def State.startBanks (s : State) (f : StartFindings) : State :=
  let s1 := (List.range 6).foldl (fun t k => if otherState t k = 1 then t.setOtherBank k 0 else t) s
  let s2 := s1.updTrust fun t => { t with trialStarts := if t.trial.isSome then t.trialStarts + 1 else 0 }
  let s3 := (List.range 6).foldl (fun t k => if f.badBanks.getLsbD k then t.bankFails k else t) s2
  match s3.trust.applying with
  | some (k, _) => if k < 6 then (s3.enterTrial k).updTrust fun t => { t with trialStarts := 1 } else s3.updTrust fun t => { t with applying := none }
  | none => s3

/-- Registers of a new settings store put in force. -/
def State.takeStore (s : State) (values : List (Nat × Word)) : State :=
  values.foldl (fun t x => t.setReg x.1 (merge (settingMask x.1) (t.reg x.1) x.2)) s

/-- The settings store at a start (R481, R482): an imported store takes effect; a newer MFW has migrated it, and the original is kept; a
failed migration leaves it in force; a store newer than the MFW gives way to the original, or holds the module in INIT. -/
def State.startSettings (s : State) (f : StartFindings) : State :=
  let s1 := match s.trust.nextStore with
    | some v => (s.takeStore v).updTrust fun t => { t with nextStore := none }
    | none => s
  if f.storeNewer then
    (match s1.trust.original with
      | some _ => s1.restoreStore
      | none => (s1.updTrust fun t => { t with initHeld := true }).raiseBlock 0x7E07)
  else
    match f.migrated with
    | none => s1
    | some m =>
      let s2 := s1.setReg UPD.SET_CHAIN (BitVec.ofNat 32 ((m.failed.map (·.toNat)).getD 0 * 65536 + m.steps.toNat))
      match m.failed with
      | some _ => s2.orReg UPD.ALARM 4
      | none =>
        let v := s2.regFld UPD.SET_VER 31 16
        let s3 := s2.updTrust fun t => { t with original := some { version := v, regs := s2.regs, wins := s2.wins } }
        (s3.takeStore m.registers).setReg UPD.SET_VER (BitVec.ofNat 32 (m.version.toNat * 65536 + v))

/-- The control image at a start: an upload in progress is lost (R341), and the running bank is admitted again (R74); the
registers show its image whatever the result, and its points stand at hem or at their substitutes (R542). -/
def State.startImage (s : State) : State :=
  let s1 := if s.bankState s.otherBank = 1 then s.setBankState s.otherBank 0 else s
  match s1.image with
  | none => s1
  | some i =>
    let b := s1.frame.runBank
    let keep := s1.frame.store
    let s2 := s1.updFrame fun f =>
      { f with store := i.instances.foldl (fun acc d => sparseInsert acc d.number
          (if d.retentive then (sparseFind keep d.number).getD (freshStorage d.initial) else freshStorage d.initial)) [] }
    ((s2.writeAdmission b 4 (admitImage s2 b i)).showImage i).freshPoints i.bindings

/-- A record that was not committed when the module went down (R189): counted, alarmed, event 0x4009. -/
def State.recordLost (s : State) : State := ((s.satRegFld TRG.REC_LOST 15 0).orReg TRG.ALARM 16).raiseBlock 0x4009

/-- The start events of a power loss and of records lost with it (R517, R518, R189). -/
def State.reportLoss (s : State) (lost : Nat) : State :=
  let s1 := (List.range lost).foldl (fun t _ => t.recordLost) s
  if s1.power.afterLoss then
    let s2 := s1.raiseBlock 0x0403
    let s3 := if s1.power.stale then ((s2.putRegBit POWER.STATUS 26 true).orReg POWER.ALARM 32).raiseBlock 0x0408 else s2
    s3.updPower fun p => { p with afterLoss := false, stale := false }
  else s1

/-- The key store at a start (R475, Tables UP-4 and UP-7): the vendor's key and, until it is erased, the commissioning key are those of the factory; the
root hash is fused, the device key present; a debug certificate that a warm restart ended is reported (R480). -/
def State.startKeys (s : State) (f : StartFindings) : State :=
  let put (l : List (Nat × PublicKey)) (slot : Nat) (k : BitVec 512) : List (Nat × PublicKey) :=
    if s.regBit (SEC.KEY_INFO slot) 31 then sparseInsert l slot { ident := plainIdent, key := k } else l
  let s1 := s.updTrust fun t => { t with keys := put (put t.keys 0 f.vendorKey) 15 f.commissioningKey }
  s1.setReg SEC.STATUS (BitVec.ofNat 32 (s.trust.decryption.foldl (fun m d => m ||| 2 ^ (d.1 % 4)) 0xC0000001))

/-- A start (R10, R23): the order of its steps is the model's (notes/assumptions/66.md). -/
def State.started (s : State) (f : StartFindings) (power : Bool) : State :=
  let lost := (s.trg.records.filter (·.isOpen)).length
  let s0 := s.startParts f power
  let s1 := (((if s.pair.grantPartner then s0 else s0.unreleaseAll).startOrder f.oven).startLining f).startTime f
  let s2 := if power then s1.incReg LINING.POWER_CYCLES else s1
  let s3 := s2.startSettings f
  let s4 := { s3 with net := keptNet s3 }
  let s5 := (s4.startPlace f).startLog f
  let s6 := ((s5.reportLining f).reportLoss lost).startBanks f
  let s7 := ((s6.startAcq).takeCalibration f.calibration).startImage
  let s8 := s7.startKeys f
  let s9 := if s.trust.cert.isSome ∧ !power then s8.raiseBlock 0x7F03 else s8
  (List.range 12).foldl (fun t n => t.setReg (CUFF.STAT n) 0xC0000000) s9

/-- POWER_ON_START (R23, R517). -/
def execPowerOnStart (f : StartFindings) (s : State) : Host.Outcome State Fault Refusal :=
  .next ((s.started f true).updPower fun p => { p with supply := .running, powered := true })

/-- WARM_RESTART (R10): without removal of main power. -/
def execWarmRestart (f : StartFindings) (s : State) : Host.Outcome State Fault Refusal := .next (s.started f false)

/-- AUTO_RESTART (R235, R236): 100 ms after a comparator fault, with LOCK.CFG.AUTO_RESTART set and without lockout. -/
def execAutoRestart (f : StartFindings) (s : State) : Host.Outcome State Fault Refusal :=
  if s.regBit LOCK.STATUS 31 ∧ s.regBit LOCK.CFG 8 ∧ ¬ lockedOut s ∧ ¬ s.committing then
    .next ((s.advanceUp (s.lock.faultAt + 100 * msUnits)).started f false)
  else .next s

end Sys2Proof.Machine
end

