-- ==== Sys2Proof/Machine/Dispatch.lean ====
section
/-!
DEFINITION. One arm per command: the call of its meaning, or its rejection by name.
-/

namespace Sys2Proof.Machine

/-- The effect of a command on everything but the queue of waiting commands. -/
def exec (i : Instr) (s : State) : Host.Outcome State Fault Refusal :=
  match i with
  | .powerOnStart f => Sys2Proof.Machine.execPowerOnStart f s
  | .warmRestart f => Sys2Proof.Machine.execWarmRestart f s
  | .autoRunRequest => Sys2Proof.Machine.execAutoRunRequest s
  | .powerApplied slot => Sys2Proof.Machine.execPowerApplied slot s
  | .startDelayExpiry => Sys2Proof.Machine.execStartDelayExpiry s
  | .holdupBankCharged => Sys2Proof.Machine.execHoldupBankCharged s
  | .resetRelease => Sys2Proof.Machine.execResetRelease s
  | .lampTestEnd => Sys2Proof.Machine.execLampTestEnd s
  | .startupTestComplete r => Sys2Proof.Machine.execStartupTestComplete r s
  | .inputLowWarning mv => Sys2Proof.Machine.execInputLowWarning mv s
  | .overvoltage => Sys2Proof.Machine.execOvervoltage s
  | .brownout => Sys2Proof.Machine.execBrownout s
  | .powerLossDetected => Sys2Proof.Machine.execPowerLossDetected s
  | .powerLossTick => Sys2Proof.Machine.execPowerLossTick s
  | .retentiveCommitComplete us bytes => Sys2Proof.Machine.execRetentiveCommitComplete us bytes s
  | .powerLossSequenceEnd e => Sys2Proof.Machine.execPowerLossSequenceEnd e s
  | .railFault r => Sys2Proof.Machine.execRailFault r s
  | .holdupMeasurementStart => Sys2Proof.Machine.execHoldupMeasurementStart s
  | .powerHuMeas p value => Sys2Proof.Machine.execPowerHuMeas p value s
  | .holdupMeasurementEnd r => Sys2Proof.Machine.execHoldupMeasurementEnd r s
  | .cellTest cell cap => Sys2Proof.Machine.execCellTest cell cap s
  | .drawerClosed cell cap => Sys2Proof.Machine.execDrawerClosed cell cap s
  | .tamperOpening => Sys2Proof.Machine.execTamperOpening s
  | .liningTamperAck p value => Sys2Proof.Machine.execLiningTamperAck p value s
  | .liningBootCfg p value => Sys2Proof.Machine.execLiningBootCfg p value s
  | .liningMirror => Sys2Proof.Machine.execLiningMirror s
  | .rtcWrite => Sys2Proof.Machine.execRtcWrite s
  | .ppsEdge stamp => Sys2Proof.Machine.execPpsEdge stamp s
  | .todMessage bytes since => Sys2Proof.Machine.execTodMessage bytes since s
  | .irigFrame frame stamp => Sys2Proof.Machine.execIrigFrame frame stamp s
  | .referenceSecondCheck r => Sys2Proof.Machine.execReferenceSecondCheck r s
  | .servoUpdate u => Sys2Proof.Machine.execServoUpdate u s
  | .referenceQualified r => Sys2Proof.Machine.execReferenceQualified r s
  | .referenceLost r h => Sys2Proof.Machine.execReferenceLost r h s
  | .waitToRestoreExpiry => Sys2Proof.Machine.execWaitToRestoreExpiry s
  | .lockAchieved => Sys2Proof.Machine.execLockAchieved s
  | .jumpDetected h => Sys2Proof.Machine.execJumpDetected h s
  | .jumpConfirmationExpiry => Sys2Proof.Machine.execJumpConfirmationExpiry s
  | .holdoverEstimate => Sys2Proof.Machine.execHoldoverEstimate s
  | .timeStep => Sys2Proof.Machine.execTimeStep s
  | .tbRestep p value => Sys2Proof.Machine.execTbRestep p value s
  | .leapAnnounceStart => Sys2Proof.Machine.execLeapAnnounceStart s
  | .leapSecondApply => Sys2Proof.Machine.execLeapSecondApply s
  | .pairAlignmentExchange offset delay leader servo => Sys2Proof.Machine.execPairAlignmentExchange offset delay leader servo s
  | .pairAlignmentLost => Sys2Proof.Machine.execPairAlignmentLost s
  | .tbTimeSecHiRead p => Sys2Proof.Machine.execTbTimeSecHiRead p s
  | .tbCapArm p n value => Sys2Proof.Machine.execTbCapArm p n value s
  | .tbCapture n => Sys2Proof.Machine.execTbCapture n s
  | .ptpAnnounceReceived p a => Sys2Proof.Machine.execPtpAnnounceReceived p a s
  | .ptpSyncReceived p m => Sys2Proof.Machine.execPtpSyncReceived p m s
  | .ptpFollowUpReceived p sequence delta => Sys2Proof.Machine.execPtpFollowUpReceived p sequence delta s
  | .ptpPdelayReqReceived p turn => Sys2Proof.Machine.execPtpPdelayReqReceived p turn s
  | .ptpPdelayRespReceived p delay nrr => Sys2Proof.Machine.execPtpPdelayRespReceived p delay nrr s
  | .ptpPdelayReqSend p => Sys2Proof.Machine.execPtpPdelayReqSend p s
  | .announceReceiptTimeout id h => Sys2Proof.Machine.execAnnounceReceiptTimeout id h s
  | .syncReceiptTimeout h => Sys2Proof.Machine.execSyncReceiptTimeout h s
  | .ptpAnnounceSend p => Sys2Proof.Machine.execPtpAnnounceSend p s
  | .ptpSyncSend p complete => Sys2Proof.Machine.execPtpSyncSend p complete s
  | .ptpConfigEffect => Sys2Proof.Machine.execPtpConfigEffect s
  | .frameTick f => Sys2Proof.Machine.execFrameTick f s
  | .seamProposalReceived items complete finish => Sys2Proof.Machine.execSeamProposalReceived items complete finish s
  | .seamDeadline => Sys2Proof.Machine.execSeamDeadline s
  | .computeWindowOpen => Sys2Proof.Machine.execComputeWindowOpen s
  | .taskInstanceComplete t r => Sys2Proof.Machine.execTaskInstanceComplete t r s
  | .eTaskReleaseEvent t stamp => Sys2Proof.Machine.execETaskReleaseEvent t stamp s
  | .budgetStop t => Sys2Proof.Machine.execBudgetStop t s
  | .computeWindowClose => Sys2Proof.Machine.execComputeWindowClose s
  | .outputCommit recheck mirrored => Sys2Proof.Machine.execOutputCommit recheck mirrored s
  | .backgroundLaneTest detected => Sys2Proof.Machine.execBackgroundLaneTest detected s
  | .heartbeatReceived h recheck => Sys2Proof.Machine.execHeartbeatReceived h recheck s
  | .heartbeatDeadline => Sys2Proof.Machine.execHeartbeatDeadline s
  | .standbyQspSend => Sys2Proof.Machine.execStandbyQspSend s
  | .safetyReadback levels => Sys2Proof.Machine.execSafetyReadback levels s
  | .pulseToggleReceived offset => Sys2Proof.Machine.execPulseToggleReceived offset s
  | .pulseWindowExpiry => Sys2Proof.Machine.execPulseWindowExpiry s
  | .overrunWindowExpiry => Sys2Proof.Machine.execOverrunWindowExpiry s
  | .runtimeFatalFault => Sys2Proof.Machine.execRuntimeFatalFault s
  | .imageIntegrityFailure => Sys2Proof.Machine.execImageIntegrityFailure s
  | .runTick => Sys2Proof.Machine.execRunTick s
  | .runTickConfirmDeadline => Sys2Proof.Machine.execRunTickConfirmDeadline s
  | .tackDueHardware => Sys2Proof.Machine.execTackDueHardware s
  | .passedCommand c => Sys2Proof.Machine.execPassedCommand c s
  | .passedCommandConfirmation c => Sys2Proof.Machine.execPassedCommandConfirmation c s
  | .applicationTick => Sys2Proof.Machine.execApplicationTick s
  | .applicationConfirmDeadline => Sys2Proof.Machine.execApplicationConfirmDeadline s
  | .comparatorMismatch m => Sys2Proof.Machine.execComparatorMismatch m s
  | .comparatorFaultToOut => Sys2Proof.Machine.execComparatorFaultToOut s
  | .autoRestart f => Sys2Proof.Machine.execAutoRestart f s
  | .lockTestRun p value => Sys2Proof.Machine.execLockTestRun p value s
  | .lockClearLockout p value => Sys2Proof.Machine.execLockClearLockout p value s
  | .lockClearStats p value => Sys2Proof.Machine.execLockClearStats p value s
  | .holdExitRestore r => Sys2Proof.Machine.execHoldExitRestore r s
  | .debugRequest pair => Sys2Proof.Machine.execDebugRequest pair s
  | .claimRefresh => Sys2Proof.Machine.execClaimRefresh s
  | .claimDecay => Sys2Proof.Machine.execClaimDecay s
  | .grantGained y gap droop => Sys2Proof.Machine.execGrantGained y gap droop s
  | .grantLost y => Sys2Proof.Machine.execGrantLost y s
  | .shareWindowEnd timeout err => Sys2Proof.Machine.execShareWindowEnd timeout err s
  | .takeoverLineAsserted => Sys2Proof.Machine.execTakeoverLineAsserted s
  | .unheldStateEntry => Sys2Proof.Machine.execUnheldStateEntry s
  | .soloWaitExpiry => Sys2Proof.Machine.execSoloWaitExpiry s
  | .selfCheckDecision => Sys2Proof.Machine.execSelfCheckDecision s
  | .handoverConfirmDeadline => Sys2Proof.Machine.execHandoverConfirmDeadline s
  | .handoverTick => Sys2Proof.Machine.execHandoverTick s
  | .leverOpened => Sys2Proof.Machine.execLeverOpened s
  | .leverClosed => Sys2Proof.Machine.execLeverClosed s
  | .leverHandoverRetry => Sys2Proof.Machine.execLeverHandoverRetry s
  | .trackingPhaseComplete r => Sys2Proof.Machine.execTrackingPhaseComplete r s
  | .trackingCopyReceived c => Sys2Proof.Machine.execTrackingCopyReceived c s
  | .writeMirrorReceived d pages lost => Sys2Proof.Machine.execWriteMirrorReceived d pages lost s
  | .joinTick mirror => Sys2Proof.Machine.execJoinTick mirror s
  | .slotStateStreamReceived slot states => Sys2Proof.Machine.execSlotStateStreamReceived slot states s
  | .laneFailure l => Sys2Proof.Machine.execLaneFailure l s
  | .laneRestored l => Sys2Proof.Machine.execLaneRestored l s
  | .inputCutoff => Sys2Proof.Machine.execInputCutoff s
  | .receiptListReceived theirs => Sys2Proof.Machine.execReceiptListReceived theirs s
  | .stationFrameCopyReceived r => Sys2Proof.Machine.execStationFrameCopyReceived r s
  | .settledSetFormed => Sys2Proof.Machine.execSettledSetFormed s
  | .imageVerifyComplete r => Sys2Proof.Machine.execImageVerifyComplete r s
  | .admissionComplete partner => Sys2Proof.Machine.execAdmissionComplete partner s
  | .switchPrepared => Sys2Proof.Machine.execSwitchPrepared s
  | .switchTickConfirmDeadline => Sys2Proof.Machine.execSwitchTickConfirmDeadline s
  | .switchFlip acknowledged tableOk => Sys2Proof.Machine.execSwitchFlip acknowledged tableOk s
  | .switchOutcome partner delivered => Sys2Proof.Machine.execSwitchOutcome partner delivered s
  | .calibrationUpdate temp => Sys2Proof.Machine.execCalibrationUpdate temp s
  | .rawRingReallocate => Sys2Proof.Machine.execRawRingReallocate s
  | .rangeChangeEffect n => Sys2Proof.Machine.execRangeChangeEffect n s
  | .settlingEnd n => Sys2Proof.Machine.execSettlingEnd n s
  | .cycleZeroCrossing n => Sys2Proof.Machine.execCycleZeroCrossing n s
  | .cycleNoCrossing n => Sys2Proof.Machine.execCycleNoCrossing n s
  | .phaEntryComplete src => Sys2Proof.Machine.execPhaEntryComplete src s
  | .tweFiring n f => Sys2Proof.Machine.execTweFiring n f s
  | .pmuDataFrameSend m => Sys2Proof.Machine.execPmuDataFrameSend m s
  | .pmuCommandReceived m idcode command => Sys2Proof.Machine.execPmuCommandReceived m idcode command s
  | .pmuTcpConnect m => Sys2Proof.Machine.execPmuTcpConnect m s
  | .pmuTcpDisconnect m => Sys2Proof.Machine.execPmuTcpDisconnect m s
  | .pmuCfgFlagExpiry m => Sys2Proof.Machine.execPmuCfgFlagExpiry m s
  | .acqPmuSel p value => Sys2Proof.Machine.execAcqPmuSel p value s
  | .acqPmuCommit p value => Sys2Proof.Machine.execAcqPmuCommit p value s
  | .acqSvSel p value => Sys2Proof.Machine.execAcqSvSel p value s
  | .acqSvCommit p value => Sys2Proof.Machine.execAcqSvCommit p value s
  | .acqCfgWrite p value => Sys2Proof.Machine.execAcqCfgWrite p value s
  | .acqClear p value => Sys2Proof.Machine.execAcqClear p value s
  | .svFrameReceived f => Sys2Proof.Machine.execSvFrameReceived f s
  | .svStreamTimeout k => Sys2Proof.Machine.execSvStreamTimeout k s
  | .achTweSel p n value => Sys2Proof.Machine.execAchTweSel p n value s
  | .achCycSel p n value => Sys2Proof.Machine.execAchCycSel p n value s
  | .achPhaSel p n value => Sys2Proof.Machine.execAchPhaSel p n value s
  | .achClear p n value => Sys2Proof.Machine.execAchClear p n value s
  | .trgUCfg p n value => Sys2Proof.Machine.execTrgUCfg p n value s
  | .triggerUnitEvent u x => Sys2Proof.Machine.execTriggerUnitEvent u x s
  | .triggerUnitTimeout u x => Sys2Proof.Machine.execTriggerUnitTimeout u x s
  | .stretchExpiry u => Sys2Proof.Machine.execStretchExpiry u s
  | .patternArmExpiry u => Sys2Proof.Machine.execPatternArmExpiry u s
  | .patternHoldoffExpiry u => Sys2Proof.Machine.execPatternHoldoffExpiry u s
  | .partnerSourceChange n level stamp => Sys2Proof.Machine.execPartnerSourceChange n level stamp s
  | .partnerSourcesLost => Sys2Proof.Machine.execPartnerSourcesLost s
  | .partnerSourcesRestored states => Sys2Proof.Machine.execPartnerSourcesRestored states s
  | .triggerLinePulseEnd l => Sys2Proof.Machine.execTriggerLinePulseEnd l s
  | .triggerLineAsserted levels stamp => Sys2Proof.Machine.execTriggerLineAsserted levels stamp s
  | .trgRecManual p value => Sys2Proof.Machine.execTrgRecManual p value s
  | .recordWindowEnd number => Sys2Proof.Machine.execRecordWindowEnd number s
  | .recordCommitted number => Sys2Proof.Machine.execRecordCommitted number s
  | .trgPatCommit p value => Sys2Proof.Machine.execTrgPatCommit p value s
  | .trgRecCommit p value => Sys2Proof.Machine.execTrgRecCommit p value s
  | .trgFlCommit p value => Sys2Proof.Machine.execTrgFlCommit p value s
  | .trgClear p value => Sys2Proof.Machine.execTrgClear p value s
  | .tdcEdge n stamp => Sys2Proof.Machine.execTdcEdge n stamp s
  | .tdcCalibration m => Sys2Proof.Machine.execTdcCalibration m s
  | .tdcFifoSecRead p => Sys2Proof.Machine.execTdcFifoSecRead p s
  | .tdcFifoFracRead p => Sys2Proof.Machine.execTdcFifoFracRead p s
  | .tdcClear p value => Sys2Proof.Machine.execTdcClear p value s
  | .twArrivalWaitEnd l => Sys2Proof.Machine.execTwArrivalWaitEnd l s
  | .faultLocationResult l => Sys2Proof.Machine.execFaultLocationResult l s
  | .remoteWaitExpiry l => Sys2Proof.Machine.execRemoteWaitExpiry l s
  | .slotEvaluation k => Sys2Proof.Machine.execSlotEvaluation k s
  | .asapSlotWrite k => Sys2Proof.Machine.execAsapSlotWrite k s
  | .fixedPhaseSlotWrite k => Sys2Proof.Machine.execFixedPhaseSlotWrite k s
  | .loopSel p value => Sys2Proof.Machine.execLoopSel p value s
  | .loopCommit p value => Sys2Proof.Machine.execLoopCommit p value s
  | .loopNdCmd p value => Sys2Proof.Machine.execLoopNdCmd p value s
  | .notchDesignComplete => Sys2Proof.Machine.execNotchDesignComplete s
  | .loopFaultClear p n value => Sys2Proof.Machine.execLoopFaultClear p n value s
  | .loopClear p value => Sys2Proof.Machine.execLoopClear p value s
  | .qspInputFrame p f => Sys2Proof.Machine.execQspInputFrame p f s
  | .rollCall p f => Sys2Proof.Machine.execRollCall p f s
  | .bindCycle n => Sys2Proof.Machine.execBindCycle n s
  | .netStCommit p value => Sys2Proof.Machine.execNetStCommit p value s
  | .stationCommitEffect => Sys2Proof.Machine.execStationCommitEffect s
  | .netGoCommit p value => Sys2Proof.Machine.execNetGoCommit p value s
  | .gooseRepeat m => Sys2Proof.Machine.execGooseRepeat m s
  | .gooseReceived m => Sys2Proof.Machine.execGooseReceived m s
  | .gooseTalExpiry k => Sys2Proof.Machine.execGooseTalExpiry k s
  | .beaconSend => Sys2Proof.Machine.execBeaconSend s
  | .gratuitousArp => Sys2Proof.Machine.execGratuitousArp s
  | .arpRequest p ip => Sys2Proof.Machine.execArpRequest p ip s
  | .icmpEcho p ip => Sys2Proof.Machine.execIcmpEcho p ip s
  | .prpFrameReceived n f => Sys2Proof.Machine.execPrpFrameReceived n f s
  | .prpSupervisionSend n => Sys2Proof.Machine.execPrpSupervisionSend n s
  | .prpLanTimeout n lanB => Sys2Proof.Machine.execPrpLanTimeout n lanB s
  | .transceiverInserted p info => Sys2Proof.Machine.execTransceiverInserted p info s
  | .portLinkChange p up speed => Sys2Proof.Machine.execPortLinkChange p up speed s
  | .netClear p value => Sys2Proof.Machine.execNetClear p value s
  | .prpClear p value => Sys2Proof.Machine.execPrpClear p value s
  | .hello p wanted => Sys2Proof.Machine.execHello p wanted s
  | .beacon => Sys2Proof.Machine.execBeacon s
  | .sessionOpen p slot role zero ra => Sys2Proof.Machine.execSessionOpen p slot role zero ra s
  | .sessionConfirm p saOk => Sys2Proof.Machine.execSessionConfirm p saOk s
  | .sessionClose p => Sys2Proof.Machine.execSessionClose p s
  | .ping p payload => Sys2Proof.Machine.execPing p payload s
  | .qcpStats p => Sys2Proof.Machine.execQcpStats p s
  | .noticeAck p n => Sys2Proof.Machine.execNoticeAck p n s
  | .restart p key => Sys2Proof.Machine.execRestart p key s
  | .regRead p addr zero => Sys2Proof.Machine.execRegRead p addr zero s
  | .regWrite p addr zero value started => Sys2Proof.Machine.execRegWrite p addr zero value started s
  | .regModify p addr zero mask value started => Sys2Proof.Machine.execRegModify p addr zero mask value started s
  | .regBlockRead p addr count => Sys2Proof.Machine.execRegBlockRead p addr count s
  | .registerWritePlain p addr value => Sys2Proof.Machine.execRegisterWritePlain p addr value s
  | .imageBegin p size digest => Sys2Proof.Machine.execImageBegin p size digest s
  | .imageChunk p handle index data => Sys2Proof.Machine.execImageChunk p handle index data s
  | .imageCommit p handle => Sys2Proof.Machine.execImageCommit p handle s
  | .imageAdmit p => Sys2Proof.Machine.execImageAdmit p s
  | .imageSwitch p partnerBank => Sys2Proof.Machine.execImageSwitch p partnerBank s
  | .imageAbort p handle => Sys2Proof.Machine.execImageAbort p handle s
  | .modeSetRun p => Sys2Proof.Machine.execModeSetRun p s
  | .modeSetStop p => Sys2Proof.Machine.execModeSetStop p s
  | .modeSetHold p => Sys2Proof.Machine.execModeSetHold p s
  | .modeSetSafe p => Sys2Proof.Machine.execModeSetSafe p s
  | .roleRequestOut p => Sys2Proof.Machine.execRoleRequestOut p s
  | .roleRequestInit p => Sys2Proof.Machine.execRoleRequestInit p s
  | .handover p => Sys2Proof.Machine.execHandover p s
  | .tackSchedule p t partnerBank => Sys2Proof.Machine.execTackSchedule p t partnerBank s
  | .tackCancel p id => Sys2Proof.Machine.execTackCancel p id s
  | .tackList p first => Sys2Proof.Machine.execTackList p first s
  | .recList p first => Sys2Proof.Machine.execRecList p first s
  | .recOpen p number view file zero => Sys2Proof.Machine.execRecOpen p number view file zero s
  | .recRead p handle index => Sys2Proof.Machine.execRecRead p handle index s
  | .recDelete p number => Sys2Proof.Machine.execRecDelete p number s
  | .twExchange p r => Sys2Proof.Machine.execTwExchange p r s
  | .recClose p handle => Sys2Proof.Machine.execRecClose p handle s
  | .evrCursorReport p => Sys2Proof.Machine.execEvrCursorReport p s
  | .evrCursorOldest p => Sys2Proof.Machine.execEvrCursorOldest p s
  | .evrCursorNewest p => Sys2Proof.Machine.execEvrCursorNewest p s
  | .evrCursorSet p v => Sys2Proof.Machine.execEvrCursorSet p v s
  | .evrRead p count => Sys2Proof.Machine.execEvrRead p count s
  | .evrClear p key => Sys2Proof.Machine.execEvrClear p key s
  | .updBegin p component zero size digest => Sys2Proof.Machine.execUpdBegin p component zero size digest s
  | .updChunk p handle index data => Sys2Proof.Machine.execUpdChunk p handle index data s
  | .updVerify p handle => Sys2Proof.Machine.execUpdVerify p handle s
  | .updVerifyComplete r => Sys2Proof.Machine.execUpdVerifyComplete r s
  | .updApply p component partner => Sys2Proof.Machine.execUpdApply p component partner s
  | .updApplyComplete c => Sys2Proof.Machine.execUpdApplyComplete c s
  | .updStatus p component => Sys2Proof.Machine.execUpdStatus p component s
  | .settingsImport values steps => Sys2Proof.Machine.execSettingsImport values steps s
  | .trialEnd => Sys2Proof.Machine.execTrialEnd s
  | .trialFailureRevert cause => Sys2Proof.Machine.execTrialFailureRevert cause s
  | .updRevert p value => Sys2Proof.Machine.execUpdRevert p value s
  | .updClear p value => Sys2Proof.Machine.execUpdClear p value s
  | .pointRead p refs => Sys2Proof.Machine.execPointRead p refs s
  | .pointForceSet p point value zero => Sys2Proof.Machine.execPointForceSet p point value zero s
  | .pointRelease p point zero => Sys2Proof.Machine.execPointRelease p point zero s
  | .pointReleaseAll p zero => Sys2Proof.Machine.execPointReleaseAll p zero s
  | .loopWindowRead p slot page zero => Sys2Proof.Machine.execLoopWindowRead p slot page zero s
  | .loopWindowStage p slot page zero words => Sys2Proof.Machine.execLoopWindowStage p slot page zero words s
  | .loopWindowCommit p slot page zero words => Sys2Proof.Machine.execLoopWindowCommit p slot page zero words s
  | .notchDesign p f0 width depth slot sect apply zero => Sys2Proof.Machine.execNotchDesign p f0 width depth slot sect apply zero s
  | .keyEnrol p slot k => Sys2Proof.Machine.execKeyEnrol p slot k s
  | .keyRevoke p slot => Sys2Proof.Machine.execKeyRevoke p slot s
  | .keyLoadDecryption p slot opened => Sys2Proof.Machine.execKeyLoadDecryption p slot opened s
  | .ownerLock p key mask => Sys2Proof.Machine.execOwnerLock p key mask s
  | .debugCert p payload => Sys2Proof.Machine.execDebugCert p payload s
  | .debugCertEnd p => Sys2Proof.Machine.execDebugCertEnd p s
  | .debugCertExpiry => Sys2Proof.Machine.execDebugCertExpiry s
  | .secFuseCmd p value => Sys2Proof.Machine.execSecFuseCmd p value s
  | .sessionIdleTimeout n => Sys2Proof.Machine.execSessionIdleTimeout n s
  | .sessionLifetimeExpiry n => Sys2Proof.Machine.execSessionLifetimeExpiry n s
  | .sessionConfirmTimeout n => Sys2Proof.Machine.execSessionConfirmTimeout n s
  | .macFailureLimit n => Sys2Proof.Machine.execMacFailureLimit n s
  | .noticeResend n count => Sys2Proof.Machine.execNoticeResend n count s
  | .relayReply n seq status reason detail fields payload => Sys2Proof.Machine.execRelayReply n seq status reason detail fields payload s
  | .relayTimeout n seq => Sys2Proof.Machine.execRelayTimeout n seq s
  | .handleIdleTimeout id => Sys2Proof.Machine.execHandleIdleTimeout id s
  | .windowClaimTimeout w => Sys2Proof.Machine.execWindowClaimTimeout w s
  | .dioRawEdge c level stamp => Sys2Proof.Machine.execDioRawEdge c level stamp s
  | .readbackDelayTimeout c => Sys2Proof.Machine.execReadbackDelayTimeout c s
  | .debounceAccept c => Sys2Proof.Machine.execDebounceAccept c s
  | .debounceDiscard c => Sys2Proof.Machine.execDebounceDiscard c s
  | .overloadDetect c => Sys2Proof.Machine.execOverloadDetect c s
  | .thermalShutdown c => Sys2Proof.Machine.execThermalShutdown c s
  | .thermalRestart c => Sys2Proof.Machine.execThermalRestart c s
  | .openLoadDetect c => Sys2Proof.Machine.execOpenLoadDetect c s
  | .groupOverTrip g current => Sys2Proof.Machine.execGroupOverTrip g current s
  | .groupOverRetry g => Sys2Proof.Machine.execGroupOverRetry g s
  | .dioFaultClear c f => Sys2Proof.Machine.execDioFaultClear c f s
  | .supplyWarn g mv => Sys2Proof.Machine.execSupplyWarn g mv s
  | .supplyWarnClear g mv => Sys2Proof.Machine.execSupplyWarnClear g mv s
  | .supplyLow g mv => Sys2Proof.Machine.execSupplyLow g mv s
  | .supplyRecovered g mv => Sys2Proof.Machine.execSupplyRecovered g mv s
  | .dioClearGroup p value => Sys2Proof.Machine.execDioClearGroup p value s
  | .dioClearCounters p value => Sys2Proof.Machine.execDioClearCounters p value s
  | .aoConverterUpdate n => Sys2Proof.Machine.execAoConverterUpdate n s
  | .complianceDetect n m => Sys2Proof.Machine.execComplianceDetect n m s
  | .complianceRetry n => Sys2Proof.Machine.execComplianceRetry n s
  | .complianceRetryEnd n current => Sys2Proof.Machine.execComplianceRetryEnd n current s
  | .complianceClear n current => Sys2Proof.Machine.execComplianceClear n current s
  | .miswireDetect n m => Sys2Proof.Machine.execMiswireDetect n m s
  | .miswireClear n m => Sys2Proof.Machine.execMiswireClear n m s
  | .aoThermalFoldback n temp current => Sys2Proof.Machine.execAoThermalFoldback n temp current s
  | .senseFault n current => Sys2Proof.Machine.execSenseFault n current s
  | .supplyFault n m => Sys2Proof.Machine.execSupplyFault n m s
  | .aoClear p value => Sys2Proof.Machine.execAoClear p value s
  | .hartScanPoll n => Sys2Proof.Machine.execHartScanPoll n s
  | .hartTransactionComplete n f => Sys2Proof.Machine.execHartTransactionComplete n f s
  | .hartTransactionFailed n => Sys2Proof.Machine.execHartTransactionFailed n s
  | .hartFrameReceived n f => Sys2Proof.Machine.execHartFrameReceived n f s
  | .hartWinGo p value => Sys2Proof.Machine.execHartWinGo p value s
  | .hartClear p value => Sys2Proof.Machine.execHartClear p value s
  | .canFrameReceived ch f stamp => Sys2Proof.Machine.execCanFrameReceived ch f stamp s
  | .canFrameTransmitted ch b stamp => Sys2Proof.Machine.execCanFrameTransmitted ch b stamp s
  | .canErrorStateChange ch e => Sys2Proof.Machine.execCanErrorStateChange ch e s
  | .canBusOffRecovered ch => Sys2Proof.Machine.execCanBusOffRecovered ch s
  | .canBoRecover p ch value => Sys2Proof.Machine.execCanBoRecover p ch value s
  | .canTxSend p ch value => Sys2Proof.Machine.execCanTxSend p ch value s
  | .canTxAbort p ch value started => Sys2Proof.Machine.execCanTxAbort p ch value started s
  | .canBufSel p ch value => Sys2Proof.Machine.execCanBufSel p ch value s
  | .canBufWindowRead p ch w => Sys2Proof.Machine.execCanBufWindowRead p ch w s
  | .canBufWord21Read p ch => Sys2Proof.Machine.execCanBufWord21Read p ch s
  | .canLockTimeout ch => Sys2Proof.Machine.execCanLockTimeout ch s
  | .canBufCommit p ch value => Sys2Proof.Machine.execCanBufCommit p ch value s
  | .canAutobaudNominalDetected ch r => Sys2Proof.Machine.execCanAutobaudNominalDetected ch r s
  | .canAutobaudDataDetected ch r => Sys2Proof.Machine.execCanAutobaudDataDetected ch r s
  | .canAutobaudTimeout ch => Sys2Proof.Machine.execCanAutobaudTimeout ch s
  | .canIntegrationComplete ch => Sys2Proof.Machine.execCanIntegrationComplete ch s
  | .canClear p ch value => Sys2Proof.Machine.execCanClear p ch value s
  | .collarFault x => Sys2Proof.Machine.execCollarFault x s
  | .collarCommit p value => Sys2Proof.Machine.execCollarCommit p value s
  | .collarFence p value => Sys2Proof.Machine.execCollarFence p value s
  | .fenceComplete ns => Sys2Proof.Machine.execFenceComplete ns s
  | .fenceTimeout => Sys2Proof.Machine.execFenceTimeout s
  | .collarClear p value => Sys2Proof.Machine.execCollarClear p value s
  | .dmaChArm p n value => Sys2Proof.Machine.execDmaChArm p n value s
  | .dmaTransferComplete c => Sys2Proof.Machine.execDmaTransferComplete c s
  | .dmaBlockBoundary c => Sys2Proof.Machine.execDmaBlockBoundary c s
  | .dmaBusError e => Sys2Proof.Machine.execDmaBusError e s
  | .dmaDrained => Sys2Proof.Machine.execDmaDrained s
  | .dmaRecover p value => Sys2Proof.Machine.execDmaRecover p value s
  | .dmaAutoRecover => Sys2Proof.Machine.execDmaAutoRecover s
  | .dmaAbortCmd p value => Sys2Proof.Machine.execDmaAbortCmd p value s
  | .dmaClear p value => Sys2Proof.Machine.execDmaClear p value s
  | .cuffTimeout n master => Sys2Proof.Machine.execCuffTimeout n master s
  | .cuffSideReset n fabricSide failed => Sys2Proof.Machine.execCuffSideReset n fabricSide failed s
  | .cuffSideRunning n fabricSide => Sys2Proof.Machine.execCuffSideRunning n fabricSide s
  | .cuffClear p value => Sys2Proof.Machine.execCuffClear p value s
  | .eventRaised code source => Sys2Proof.Machine.execEventRaised code source s
  | .eventRecorded => Sys2Proof.Machine.execEventRecorded s
  | .intakeOverflowReport => Sys2Proof.Machine.execIntakeOverflowReport s
  | .partnerRecordReceived r => Sys2Proof.Machine.execPartnerRecordReceived r s
  | .evrCursorWrite p value => Sys2Proof.Machine.execEvrCursorWrite p value s
  | .evrWinDataRead p => Sys2Proof.Machine.execEvrWinDataRead p s
  | .evrSnapCommit p value => Sys2Proof.Machine.execEvrSnapCommit p value s
  | .evrFatalAck p value => Sys2Proof.Machine.execEvrFatalAck p value s
  | .evrClearAlarms p value => Sys2Proof.Machine.execEvrClearAlarms p value s
  | .idLocate p value => Sys2Proof.Machine.execIdLocate p value s
  | .locateEnd => Sys2Proof.Machine.execLocateEnd s
  | .pairIdSet p value => Sys2Proof.Machine.execPairIdSet p value s
  | .pairIdAdopt p value => Sys2Proof.Machine.execPairIdAdopt p value s
  | .pairClear p value => Sys2Proof.Machine.execPairClear p value s
  | .frameClearTaskStats p value => Sys2Proof.Machine.execFrameClearTaskStats p value s
  | .frameClearStats p value => Sys2Proof.Machine.execFrameClearStats p value s
  | .frameTackClear p value => Sys2Proof.Machine.execFrameTackClear p value s
  | .imgClear p value => Sys2Proof.Machine.execImgClear p value s
  | .trefRefClear p n value => Sys2Proof.Machine.execTrefRefClear p n value s
  | .ptpPortClear p n value => Sys2Proof.Machine.execPtpPortClear p n value s
  | .ptpCountClear p value => Sys2Proof.Machine.execPtpCountClear p value s
  | .powerClear p value => Sys2Proof.Machine.execPowerClear p value s
  | .partnerPresenceChange present => Sys2Proof.Machine.execPartnerPresenceChange present s
  | .channelFaultCleared n f m => Sys2Proof.Machine.execChannelFaultCleared n f m s
  | .inputHighWarning mv => Sys2Proof.Machine.execInputHighWarning mv s
  | .transceiverRemoved p => Sys2Proof.Machine.execTransceiverRemoved p s
  | .drawerOpened => Sys2Proof.Machine.execDrawerOpened s
  | .ovenWarmUpEnd => Sys2Proof.Machine.execOvenWarmUpEnd s
  | .memoryError => Sys2Proof.Machine.execMemoryError s
  | .malformedPacket path bytes fragment mac => Sys2Proof.Machine.execMalformedPacket path bytes fragment mac s

end Sys2Proof.Machine
end

