-- ==== Sys2Proof/Safety.lean ====
section
/-!
DEFINITION. What statements call a good state: stores in canonical form (equal registers, windows and memories are equal data), and the
bounds the manual sets on the queues.
-/

namespace Sys2Proof.Machine

open Reg

/-- The register file in canonical form. -/
def State.regsWf (s : State) : Bool := sparseWf regReset s.regs

/-- The committed window words in canonical form. -/
def State.winsWf (s : State) : Bool := sparseWf (fun _ => 0#32) s.wins

/-- The fabric memory in canonical form. -/
def State.memoryWf (s : State) : Bool := Memory.wf s.fab.mem

/-- Stores in canonical form: registers, window words, memory, and the settings kept for a revert (R481). -/
def Stores (regs wins : List (Nat × Word)) (mem : List Host.Cell) (kept : Option Store) : Prop :=
  sparseWf regReset regs = true ∧ sparseWf (fun _ => 0#32) wins = true ∧ Memory.wf mem = true ∧
    ∀ o, kept = some o → sparseWf regReset o.regs = true ∧ sparseWf (fun _ => 0#32) o.wins = true

/-- Every store of the state in canonical form. -/
def State.Canonical (s : State) : Prop := Stores s.regs s.wins s.fab.mem s.trust.original

/-- What every step keeps: the stores in canonical form, and the intake queue of the event log within its 512 entries (R450). -/
def State.Inv (s : State) : Prop := s.Canonical ∧ s.evr.intake.length ≤ 512

/-! ### Frames -/

/-- The parts of the state; the last two lie within the time base and the frame. -/
inductive Part where
  | regs
  | wins
  | staged
  | role
  | mode
  | tb
  | ptp
  | frame
  | pair
  | lock
  | loop
  | acq
  | trg
  | io
  | net
  | can0
  | can1
  | evr
  | trust
  | fab
  | power
  | qcp
  | sent
  | freeCtr
  | pending
  /-- The time and the up-time of the time base. -/
  | clock
  /-- The tick of the frame in progress, and the count of frames. -/
  | tick
  deriving DecidableEq, Repr

/-- A part is the same in two states. -/
def Part.same (s t : State) : Part → Prop
  | .regs => t.regs = s.regs
  | .wins => t.wins = s.wins
  | .staged => t.staged = s.staged
  | .role => t.role = s.role
  | .mode => t.mode = s.mode
  | .tb => t.tb = s.tb
  | .ptp => t.ptp = s.ptp
  | .frame => t.frame = s.frame
  | .pair => t.pair = s.pair
  | .lock => t.lock = s.lock
  | .loop => t.loop = s.loop
  | .acq => t.acq = s.acq
  | .trg => t.trg = s.trg
  | .io => t.io = s.io
  | .net => t.net = s.net
  | .can0 => t.can0 = s.can0
  | .can1 => t.can1 = s.can1
  | .evr => t.evr = s.evr
  | .trust => t.trust = s.trust
  | .fab => t.fab = s.fab
  | .power => t.power = s.power
  | .qcp => t.qcp = s.qcp
  | .sent => t.sent = s.sent
  | .freeCtr => t.freeCtr = s.freeCtr
  | .pending => t.pending = s.pending
  | .clock => t.tb.now = s.tb.now ∧ t.tb.up = s.tb.up
  | .tick => t.frame.t0 = s.frame.t0 ∧ t.frame.count = s.frame.count

/-- Every part outside a list is unchanged. -/
def SameOutside (l : List Part) (s t : State) : Prop := ∀ p, p ∉ l → p.same s t

/-- Every register outside a list of addresses is unchanged. -/
def RegsOutside (l : List Nat) (s t : State) : Prop := ∀ a, a ∉ l → t.reg a = s.reg a

/-! ### Events -/

/-- The recorder `r'` is `r` after events with these codes and sources entered its intake queue, in this order (R445, R450). -/
def Recorder.Takes : Recorder → List (Nat × Nat) → Recorder → Prop
  | r, [], r' => r' = r
  | r, x :: rest, r' =>
    ∃ e : RaisedEvent, e.code = BitVec.ofNat 16 x.1 ∧ e.source = BitVec.ofNat 16 x.2 ∧ Recorder.Takes (r.take e) rest r'

/-- From `s` to `t` exactly these events were raised, given by code and source; after the commit of a power loss has begun, none (R455). -/
def Raises (s t : State) (events : List (Nat × Nat)) : Prop := if s.committing then t.evr = s.evr else s.evr.Takes events t.evr

/-- From `s` to `t` these events were raised, and after them none but events of the listed codes. -/
def RaisesThen (s t : State) (events : List (Nat × Nat)) (codes : List Nat) : Prop :=
  ∃ rest, (∀ e ∈ rest, e.1 ∈ codes) ∧ Raises s t (events ++ rest)

/-- From `s` to `t` these events were raised, and before them none but events of the listed codes. -/
def RaisesBefore (s t : State) (codes : List Nat) (events : List (Nat × Nat)) : Prop :=
  ∃ first, (∀ e ∈ first, e.1 ∈ codes) ∧ Raises s t (first ++ events)

/-- The counters of frames sent on port `p` (Tables NW-6 and NW-9). -/
def portRegs (p : Nat) : List Nat :=
  NET.TX_FRAMES p :: if p = 4 then [] else [if p % 2 = 0 then PRP.TX_A (p / 2) else PRP.TX_B (p / 2)]

/-- From `s` to `t` one message left by port `p`, and the port's counters moved on. -/
structure LeavesBy (s t : State) (p : Nat) (m : Sent) : Prop where
  sent : t.sent = m :: s.sent
  counted : ∀ a ∈ portRegs p, t.reg a = s.reg a + 1

/-- From `s` to `t` one frame left on each of these ports, and the ports' counters moved on. -/
def LeavesOn (s t : State) (ports : List Nat) (m : Sent) : Prop :=
  t.sent = m :: s.sent ∧ ∀ a ∈ ports.flatMap portRegs, t.reg a = s.reg a + 1

/-- The registers that the choice of a best master writes (R43). -/
def bmcaRegs : List Nat := [PTP.SLAVE_PORT, PTP.GM_CLOCK_ID_HI, PTP.GM_CLOCK_ID_LO, PTP.STEPS_REMOVED] ++ (List.range 5).map PTP.PORT_STATE

/-! ### What each command may touch -/

/-- The parts of the state that a command may touch: every other part is as it was when the command answers a next state. -/
def touches (c : Instr) : List Part :=
  match c with
  | .pmuCfgFlagExpiry _ => [.acq]
  | .eventRaised _ _ | .intakeOverflowReport | .partnerRecordReceived _ => [.evr]
  | .thermalRestart _ => [.io]
  | .pulseToggleReceived _ | .takeoverLineAsserted | .partnerPresenceChange _ | .memoryError => [.pair]
  | .lampTestEnd => [.power]
  | .brownout | .ptpPdelayRespReceived _ _ _ | .drawerOpened | .ovenWarmUpEnd => [.regs]
  | .leapAnnounceStart => [.tb]
  | .recordWindowEnd _ => [.trg]
  | .canIntegrationComplete _ => [.can0, .can1]
  | .beacon => [.evr, .qcp]
  | .eventRecorded => [.evr, .sent]
  | .passedCommandConfirmation _ => [.frame, .pair]
  | .debugRequest _ => [.lock, .evr]
  | .slotStateStreamReceived _ _ => [.pair, .loop]
  | .relayReply _ _ _ _ _ _ _ => [.qcp, .sent]
  | .cycleZeroCrossing _ | .cycleNoCrossing _ | .phaEntryComplete _ => [.regs, .acq]
  | .inputLowWarning _ | .railFault _ | .drawerClosed _ _ | .pmuTcpConnect _ | .pmuTcpDisconnect _ | .portLinkChange _ _ _
   | .canAutobaudNominalDetected _ _ | .canAutobaudDataDetected _ _ | .cuffSideReset _ _ _ | .cuffSideRunning _ _ | .inputHighWarning _ =>
      [.regs, .evr]
  | .supplyWarnClear _ _ => [.regs, .io]
  | .stationFrameCopyReceived _ => [.regs, .net]
  | .trackingPhaseComplete _ | .laneFailure _ | .laneRestored _ => [.regs, .pair]
  | .powerApplied _ | .holdupBankCharged | .resetRelease => [.regs, .power]
  | .ptpPdelayReqReceived _ _ | .ptpPdelayReqSend _ | .ptpSyncSend _ _ | .arpRequest _ _ | .icmpEcho _ _ => [.regs, .sent]
  | .ppsEdge _ | .todMessage _ _ | .irigFrame _ _ | .tbCapture _ => [.regs, .tb]
  | .patternHoldoffExpiry _ => [.tb, .clock]
  | .partnerSourcesRestored _ => [.trg, .evr]
  | .svStreamTimeout _ => [.wins, .evr]
  | .canBusOffRecovered _ => [.can0, .can1, .evr]
  | .ping _ _ | .qcpStats _ | .noticeAck _ _ | .imageChunk _ _ _ _ | .tackList _ _ | .recList _ _ | .recOpen _ _ _ _ _ | .recRead _ _ _
   | .evrCursorReport _ | .evrCursorOldest _ | .evrCursorNewest _ | .evrCursorSet _ _ | .evrRead _ _ | .evrClear _ _ | .updChunk _ _ _ _
   | .updStatus _ _ | .pointRead _ _ | .loopWindowRead _ _ _ _ | .malformedPacket _ _ _ _ => [.evr, .qcp, .sent]
  | .switchPrepared => [.frame, .evr, .sent]
  | .leverClosed => [.pair, .evr, .power]
  | .tweFiring _ _ => [.regs, .acq, .evr]
  | .pmuCommandReceived _ _ _ => [.regs, .acq, .sent]
  | .dmaDrained | .dmaAutoRecover => [.regs, .evr, .fab]
  | .tamperOpening => [.regs, .evr, .power]
  | .ptpAnnounceSend _ | .receiptListReceived _ => [.regs, .evr, .sent]
  | .trialEnd => [.regs, .evr, .trust]
  | .eTaskReleaseEvent _ _ | .budgetStop _ | .overrunWindowExpiry => [.regs, .frame, .evr]
  | .overloadDetect _ | .thermalShutdown _ | .openLoadDetect _ | .groupOverTrip _ _ | .supplyWarn _ _ | .supplyLow _ _
   | .supplyRecovered _ _ | .complianceDetect _ _ | .miswireDetect _ _ | .aoThermalFoldback _ _ _ | .senseFault _ _ | .supplyFault _ _ =>
      [.regs, .io, .evr]
  | .qspInputFrame _ _ | .gooseReceived _ | .transceiverInserted _ _ | .transceiverRemoved _ => [.regs, .net, .evr]
  | .selfCheckDecision => [.regs, .pair, .evr]
  | .leapSecondApply => [.regs, .tb, .evr]
  | .ptpSyncReceived _ _ | .ptpFollowUpReceived _ _ _ => [.regs, .tb, .ptp]
  | .partnerSourcesLost | .triggerLineAsserted _ _ | .recordCommitted _ | .tdcEdge _ _ | .tdcCalibration _ => [.regs, .trg, .evr]
  | .computeWindowOpen | .switchFlip _ _ => [.tb, .frame, .clock]
  | .aoConverterUpdate _ | .complianceRetry _ | .complianceRetryEnd _ _ => [.tb, .io, .clock]
  | .settledSetFormed => [.tb, .net, .clock]
  | .claimRefresh | .claimDecay => [.tb, .pair, .clock]
  | .startDelayExpiry | .holdupMeasurementStart | .locateEnd => [.tb, .power, .clock]
  | .windowClaimTimeout _ => [.tb, .qcp, .clock]
  | .patternArmExpiry _ | .triggerLinePulseEnd _ => [.tb, .trg, .clock]
  | .sessionOpen _ _ _ _ _ => [.evr, .qcp, .sent, .freeCtr]
  | .imageAdmit _ | .imageSwitch _ _ | .pointForceSet _ _ _ _ | .pointRelease _ _ _ | .pointReleaseAll _ _ => [.frame, .evr, .qcp, .sent]
  | .hello _ _ => [.net, .evr, .qcp, .sent]
  | .roleRequestOut _ | .roleRequestInit _ => [.pair, .evr, .qcp, .sent]
  | .pmuDataFrameSend _ => [.regs, .acq, .evr, .sent]
  | .canFrameReceived _ _ _ | .canErrorStateChange _ _ => [.regs, .can0, .can1, .evr]
  | .canFrameTransmitted _ _ _ => [.regs, .can0, .can1, .sent]
  | .recClose _ _ | .updBegin _ _ _ _ _ | .ownerLock _ _ _ => [.regs, .evr, .qcp, .sent]
  | .seamProposalReceived _ _ _ => [.regs, .frame, .io, .evr]
  | .writeMirrorReceived _ _ _ => [.regs, .frame, .pair, .evr]
  | .hartFrameReceived _ _ => [.regs, .io, .net, .evr]
  | .rollCall _ _ | .prpFrameReceived _ _ => [.regs, .net, .evr, .sent]
  | .leverOpened => [.regs, .pair, .evr, .sent]
  | .startupTestComplete _ | .holdExitRestore _ => [.regs, .pair, .lock, .evr]
  | .calibrationUpdate _ | .rangeChangeEffect _ => [.regs, .tb, .acq, .clock]
  | .settlingEnd _ | .canAutobaudTimeout _ => [.regs, .tb, .evr, .clock]
  | .computeWindowClose => [.regs, .tb, .frame, .clock]
  | .readbackDelayTimeout _ | .debounceDiscard _ => [.regs, .tb, .io, .clock]
  | .joinTick _ => [.regs, .tb, .pair, .clock]
  | .liningMirror | .rtcWrite => [.regs, .tb, .power, .clock]
  | .referenceSecondCheck _ | .ptpAnnounceReceived _ _ => [.regs, .tb, .ptp, .evr]
  | .standbyQspSend => [.regs, .tb, .sent, .clock]
  | .triggerUnitEvent _ _ | .triggerUnitTimeout _ _ | .partnerSourceChange _ _ _ => [.regs, .trg, .evr, .sent]
  | .dioRawEdge _ _ _ => [.regs, .trg, .io, .evr]
  | .svFrameReceived _ => [.regs, .wins, .acq, .evr]
  | .faultLocationResult _ | .remoteWaitExpiry _ => [.regs, .wins, .trg, .evr]
  | .groupOverRetry _ | .dioFaultClear _ _ | .complianceClear _ _ | .miswireClear _ _ | .channelFaultCleared _ _ _ => [.tb, .io, .evr, .clock]
  | .recDelete _ _ | .twExchange _ _ => [.trg, .evr, .qcp, .sent]
  | .stationCommitEffect => [.wins, .tb, .net, .clock]
  | .macFailureLimit _ => [.regs, .can0, .can1, .evr, .qcp]
  | .updVerify _ _ | .updVerifyComplete _ | .settingsImport _ _ | .keyLoadDecryption _ _ _ | .debugCert _ _ => [.regs, .evr, .trust, .qcp, .sent]
  | .imageVerifyComplete _ | .admissionComplete _ | .imageBegin _ _ _ | .imageCommit _ _ | .imageAbort _ _ | .modeSetRun _
   | .modeSetStop _ | .modeSetHold _ | .modeSetSafe _ | .tackSchedule _ _ _ | .tackCancel _ _ => [.regs, .frame, .evr, .qcp, .sent]
  | .hartTransactionComplete _ _ | .hartTransactionFailed _ => [.regs, .io, .net, .evr, .sent]
  | .notchDesign _ _ _ _ _ _ _ _ => [.regs, .loop, .evr, .qcp, .sent]
  | .handover _ => [.regs, .pair, .evr, .qcp, .sent]
  | .grantGained _ _ _ => [.regs, .pair, .io, .evr, .sent]
  | .loopWindowStage _ _ _ _ _ => [.regs, .staged, .evr, .qcp, .sent]
  | .holdupMeasurementEnd _ | .cellTest _ _ => [.regs, .tb, .evr, .power, .clock]
  | .handleIdleTimeout _ => [.regs, .tb, .evr, .qcp, .clock]
  | .taskInstanceComplete _ _ => [.regs, .tb, .frame, .evr, .clock]
  | .autoRunRequest => [.regs, .tb, .frame, .sent, .clock]
  | .hartScanPoll _ => [.regs, .tb, .io, .sent, .clock]
  | .slotEvaluation _ => [.regs, .tb, .loop, .evr, .clock]
  | .gooseTalExpiry _ | .prpLanTimeout _ _ => [.regs, .tb, .net, .evr, .clock]
  | .gooseRepeat _ | .gratuitousArp | .prpSupervisionSend _ => [.regs, .tb, .net, .sent, .clock]
  | .seamDeadline => [.regs, .tb, .pair, .evr, .clock]
  | .servoUpdate _ | .referenceQualified _ | .referenceLost _ _ | .waitToRestoreExpiry | .lockAchieved | .jumpDetected _
   | .holdoverEstimate | .pairAlignmentExchange _ _ _ _ | .pairAlignmentLost | .announceReceiptTimeout _ _ | .syncReceiptTimeout _ =>
      [.regs, .tb, .ptp, .acq, .evr]
  | .ptpConfigEffect => [.regs, .tb, .ptp, .evr, .clock]
  | .trialFailureRevert _ => [.regs, .wins, .frame, .evr, .trust]
  | .twArrivalWaitEnd _ => [.regs, .wins, .trg, .evr, .sent]
  | .noticeResend _ _ | .relayTimeout _ _ => [.tb, .evr, .qcp, .sent, .clock]
  | .applicationConfirmDeadline => [.tb, .frame, .pair, .evr, .clock]
  | .beaconSend => [.tb, .net, .qcp, .sent, .clock]
  | .sessionConfirm _ _ | .sessionClose _ | .keyRevoke _ _ => [.regs, .can0, .can1, .evr, .qcp, .sent]
  | .notchDesignComplete => [.regs, .frame, .loop, .evr, .qcp, .sent]
  | .heartbeatReceived _ _ => [.regs, .frame, .pair, .evr, .qcp, .sent]
  | .debugCertEnd _ => [.regs, .lock, .evr, .trust, .qcp, .sent]
  | .grantLost _ => [.regs, .pair, .io, .can0, .can1, .evr]
  | .loopWindowCommit _ _ _ _ _ => [.regs, .staged, .frame, .evr, .qcp, .sent]
  | .rawRingReallocate => [.regs, .tb, .acq, .trg, .evr, .clock]
  | .canLockTimeout _ => [.regs, .tb, .can0, .can1, .evr, .clock]
  | .debugCertExpiry => [.regs, .tb, .lock, .evr, .trust, .clock]
  | .bindCycle _ => [.regs, .tb, .net, .evr, .sent, .clock]
  | .powerLossSequenceEnd _ => [.regs, .tb, .pair, .evr, .power, .clock]
  | .leverHandoverRetry => [.regs, .tb, .pair, .evr, .sent, .clock]
  | .jumpConfirmationExpiry => [.regs, .tb, .ptp, .acq, .evr, .clock]
  | .stretchExpiry _ => [.regs, .tb, .trg, .evr, .sent, .clock]
  | .inputCutoff => [.tb, .net, .can0, .can1, .sent, .clock]
  | .unheldStateEntry => [.tb, .pair, .io, .evr, .sent, .clock]
  | .keyEnrol _ _ _ => [.regs, .can0, .can1, .evr, .trust, .qcp, .sent]
  | .restart _ _ => [.regs, .frame, .can0, .can1, .evr, .qcp, .sent]
  | .overvoltage | .powerLossDetected => [.regs, .frame, .pair, .evr, .power, .qcp, .sent]
  | .updApply _ _ _ => [.regs, .frame, .pair, .evr, .trust, .qcp, .sent]
  | .sessionIdleTimeout _ | .sessionLifetimeExpiry _ | .sessionConfirmTimeout _ => [.regs, .tb, .can0, .can1, .evr, .qcp, .clock]
  | .fenceComplete _ | .fenceTimeout => [.regs, .tb, .evr, .fab, .qcp, .sent, .clock]
  | .switchTickConfirmDeadline => [.regs, .tb, .frame, .evr, .qcp, .sent, .clock]
  | .asapSlotWrite _ | .fixedPhaseSlotWrite _ => [.regs, .tb, .frame, .loop, .io, .evr, .clock]
  | .runTickConfirmDeadline => [.regs, .tb, .frame, .pair, .qcp, .sent, .clock]
  | .heartbeatDeadline | .handoverConfirmDeadline => [.regs, .tb, .pair, .evr, .qcp, .sent, .clock]
  | .debounceAccept _ => [.regs, .tb, .trg, .io, .evr, .sent, .clock]
  | .tbTimeSecHiRead _ | .tdcFifoSecRead _ | .tdcFifoFracRead _ | .regRead _ _ _ | .regBlockRead _ _ _ | .canBufWindowRead _ _ _
   | .canBufWord21Read _ _ | .evrWinDataRead _ => [.regs, .trg, .can0, .can1, .evr, .qcp, .sent]
  | .updApplyComplete _ => [.regs, .tb, .acq, .evr, .trust, .qcp, .sent, .clock]
  | .retentiveCommitComplete _ _ => [.regs, .tb, .frame, .pair, .evr, .power, .sent, .clock]
  | .backgroundLaneTest _ | .safetyReadback _ | .comparatorMismatch _ => [.regs, .tb, .frame, .pair, .lock, .evr, .qcp, .sent, .clock]
  | .tackDueHardware => [.regs, .tb, .frame, .trg, .io, .evr, .qcp, .sent, .clock]
  | .trackingCopyReceived _ => [.regs, .wins, .frame, .pair, .acq, .can0, .can1, .evr, .trust]
  | .switchOutcome _ _ => [.regs, .tb, .frame, .pair, .io, .net, .evr, .qcp, .sent, .clock]
  | .shareWindowEnd _ _ => [.regs, .tb, .pair, .io, .can0, .can1, .evr, .qcp, .sent, .clock]
  | .powerLossTick => [.regs, .tb, .frame, .pair, .net, .can0, .can1, .evr, .power, .qcp, .clock]
  | .timeStep => [.regs, .tb, .ptp, .frame, .acq, .trg, .io, .evr, .qcp, .sent, .clock]
  | .applicationTick => [.regs, .wins, .tb, .frame, .loop, .trg, .io, .evr, .qcp, .sent, .clock]
  | .runtimeFatalFault | .imageIntegrityFailure | .runTick => [.regs, .mode, .tb, .ptp, .frame, .lock, .loop, .acq, .io, .evr, .qcp, .sent, .clock]
  | .comparatorFaultToOut => [.regs, .role, .mode, .tb, .ptp, .frame, .pair, .lock, .loop, .acq, .io, .evr, .qcp, .sent]
  | .outputCommit _ _ => [.regs, .tb, .frame, .pair, .loop, .trg, .io, .net, .can0, .can1, .evr, .qcp, .sent, .clock]
  | .pulseWindowExpiry | .soloWaitExpiry => [.regs, .role, .mode, .tb, .ptp, .frame, .pair, .lock, .loop, .acq, .io, .evr, .qcp, .sent, .clock]
  | .handoverTick => [.regs, .role, .mode, .tb, .ptp, .frame, .pair, .lock, .loop, .acq, .io, .can0, .can1, .evr, .qcp, .sent, .clock]
  | .powerHuMeas _ _ | .liningTamperAck _ _ | .liningBootCfg _ _ | .tbRestep _ _ | .tbCapArm _ _ _ | .passedCommand _ | .lockTestRun _ _
   | .lockClearLockout _ _ | .lockClearStats _ _ | .acqPmuSel _ _ | .acqPmuCommit _ _ | .acqSvSel _ _ | .acqSvCommit _ _
   | .acqCfgWrite _ _ | .acqClear _ _ | .achTweSel _ _ _ | .achCycSel _ _ _ | .achPhaSel _ _ _ | .achClear _ _ _ | .trgUCfg _ _ _
   | .trgRecManual _ _ | .trgPatCommit _ _ | .trgRecCommit _ _ | .trgFlCommit _ _ | .trgClear _ _ | .tdcClear _ _ | .loopSel _ _
   | .loopCommit _ _ | .loopNdCmd _ _ | .loopFaultClear _ _ _ | .loopClear _ _ | .netStCommit _ _ | .netGoCommit _ _ | .netClear _ _
   | .prpClear _ _ | .regWrite _ _ _ _ _ | .regModify _ _ _ _ _ _ | .registerWritePlain _ _ _ | .updRevert _ _ | .updClear _ _
   | .secFuseCmd _ _ | .dioClearGroup _ _ | .dioClearCounters _ _ | .aoClear _ _ | .hartWinGo _ _ | .hartClear _ _ | .canBoRecover _ _ _
   | .canTxSend _ _ _ | .canTxAbort _ _ _ _ | .canBufSel _ _ _ | .canBufCommit _ _ _ | .canClear _ _ _ | .collarCommit _ _
   | .collarFence _ _ | .collarClear _ _ | .dmaChArm _ _ _ | .dmaRecover _ _ | .dmaAbortCmd _ _ | .dmaClear _ _ | .cuffClear _ _
   | .evrCursorWrite _ _ | .evrSnapCommit _ _ | .evrFatalAck _ _ | .evrClearAlarms _ _ | .idLocate _ _ | .pairIdSet _ _
   | .pairIdAdopt _ _ | .pairClear _ _ | .frameClearTaskStats _ _ | .frameClearStats _ _ | .frameTackClear _ _ | .imgClear _ _
   | .trefRefClear _ _ _ | .ptpPortClear _ _ _ | .ptpCountClear _ _ | .powerClear _ _ =>
      [.regs, .wins, .staged, .tb, .ptp, .frame, .pair, .lock, .loop, .acq, .trg, .io, .net, .can0, .can1, .evr, .trust, .fab, .power, .qcp, .sent]
  | .frameTick _ =>
      [.regs, .wins, .role, .mode, .tb, .ptp, .frame, .pair, .lock, .loop, .acq, .trg, .io, .net, .can0, .can1, .evr, .fab, .qcp, .sent, .clock, .tick]
  | .dmaBusError _ | .cuffTimeout _ _ =>
      [.regs, .wins, .staged, .tb, .ptp, .frame, .pair, .lock, .loop, .acq, .trg, .io, .net, .can0, .can1, .evr, .trust, .fab, .power, .qcp, .sent, .freeCtr]
  | .collarFault _ | .dmaTransferComplete _ | .dmaBlockBoundary _ =>
      [.regs, .wins, .staged, .mode, .tb, .ptp, .frame, .pair, .lock, .loop, .acq, .trg, .io, .net, .can0, .can1, .evr, .trust, .fab, .power, .qcp, .sent, .freeCtr, .clock]
  | .powerOnStart _ | .warmRestart _ | .autoRestart _ =>
      [.regs, .wins, .staged, .role, .mode, .tb, .ptp, .frame, .pair, .lock, .loop, .acq, .trg, .io, .net, .can0, .can1, .evr, .trust, .fab, .power, .qcp, .freeCtr, .clock, .tick]

/-! ### A request that passes the receive checks -/

/-- A packet that passes checks 7 to 12 of Table QP-4 in the open session `x`, and is for this module. -/
structure Arrives (s : State) (p : Pkt) (x : Session) : Prop where
  running : s.committing = false
  pair : p.pairId = 0xFFFF#16 ∨ p.pairId = s.pair.baseId
  numbered : p.session ≠ 0#32
  found : s.session p.session = some x
  path : x.path = p.path
  mac : p.mac = .correct
  rate : (recentOf x s.tb.up).length < 200
  order : seqVerdict x p.seq.toNat p.crc = .fresh
  here : p.relay = false

/-- A packet that arrives in a confirmed session: check 16 of Table QP-4 passes as well. -/
structure Admits (s : State) (p : Pkt) (x : Session) : Prop extends Arrives s p x where
  confirmed : x.confirmed = true

/-- A packet of session 0 within the limits of R328, for this module. -/
structure AdmitsFree (s : State) (p : Pkt) : Prop where
  running : s.committing = false
  free : p.session = 0#32
  pair : p.pairId = 0xFFFF#16 ∨ p.pairId = s.pair.baseId
  source : (s.qcp.freeRecent.filter fun r => s.tb.up < r.1 + 1000 * msUnits).countP (fun r => r.2 = p.path.ip) < 10
  all : (s.qcp.freeRecent.filter fun r => s.tb.up < r.1 + 1000 * msUnits).length < 50
  here : p.relay = false

/-- Who sent a packet. -/
def requesterOf (p : Pkt) : Requester := { session := p.session, seq := p.seq, crc := p.crc, port := pathPort p.path }

/-- The module once a packet has passed the receive checks: it is counted, and its sequence is used up (R325, R334, R336). -/
def State.letIn (s : State) (p : Pkt) : State :=
  (s.received (pathPort p.path)).updSession p.session fun y =>
    { useSeq y p.seq.toNat with lastAt := s.tb.up, recent := s.tb.up :: recentOf y s.tb.up }

/-- The request was answered with `r`, last. -/
def State.replied (s : State) (r : Reply) : Prop := s.qcp.reply = some r

/-- From `s` to `t` one completion notice for opcode `op` and reply `r` was given to who is owed it, if its session is still open (R342). -/
def Notified (s t : State) (op : Nat) (who : Option Requester) (r : Reply) : Prop :=
  (∀ q x, who = some q → s.session q.session = some x → ∃ n : Notice, t.qcp.notices = s.qcp.notices ++ [n] ∧ n.session = q.session ∧
    n.count = x.notices + 1 ∧ n.opcode = op ∧ n.ref = q.seq ∧ n.reply = r ∧ n.sentAt = t.tb.up) ∧
  ((∀ q, who = some q → s.session q.session = none) → t.qcp = s.qcp)

/-- From `s` to `t` session `n` ended (R332): it is gone with its handles, its window claims and its notices; every other session stays. -/
structure SessionEnds (s t : State) (n : Word) : Prop where
  sessions : t.qcp.sessions = s.qcp.sessions.filter fun x => x.number ≠ n
  notices : t.qcp.notices = s.qcp.notices.filter fun x => x.session ≠ n
  claims : ∀ c ∈ t.qcp.claims, c.2.1 ≠ n
  handles : ∀ h ∈ t.qcp.handles, h.session ≠ n

/-- A REG_WRITE of `v` to the register at `a` that every check lets through (R347, Table SC-1): the session's authority, the value, the role of
the module for a block that the leading module configures, STOP for a field that changes in STOP only, and the window's other holders. -/
structure MayWrite (s : State) (p : Pkt) (x : Session) (a : Nat) (v : Word) : Prop where
  admits : Admits s p x
  authority : writeAuthority s a v ≤ x.role
  value : writeParams s a v 4 = none
  leads : (sharedWrite a || loopWrite a) = true → s.mayConfigure = true
  stopped : stopRefused s a v = false
  window : ∀ w, claimOf a = some w → s.windowHolder w p.session = none

/-- From `s` to `t` a select register showed entry `v`[30:0] of a ring (newest first) of which `head` entries were written: its eight words in the
window, or zeros and bit 31 of the select register where the ring does not hold it (R166). -/
def EntryShown (s t : State) (sel : Nat) (win : Nat → Nat) (ring : List (List Word)) (head v : Word) : Prop :=
  (fld v 30 0 < head.toNat → ∀ e, ring[head.toNat - 1 - fld v 30 0]? = some e →
    t.reg sel = BitVec.ofNat 32 (fld v 30 0) ∧ ∀ w < 8, t.reg (win w) = (e[w]?).getD 0) ∧
  (head.toNat ≤ fld v 30 0 ∨ ring[head.toNat - 1 - fld v 30 0]? = none →
    t.reg sel = BitVec.ofNat 32 (fld v 30 0 + 0x80000000) ∧ ∀ w < 8, t.reg (win w) = 0) ∧
  RegsOutside (sel :: (List.range 8).map win) s t

/-- From `s` to `t` the registers of `l` were zeroed and the write answered: no other register and nothing else but the protocol's records and what is
sent has changed. -/
def Zeroed (s t : State) (l : List Nat) : Prop :=
  t.replied done ∧ (∀ b ∈ l, t.reg b = 0) ∧ SameOutside [.regs, .qcp, .sent] s t ∧ RegsOutside l s t

end Sys2Proof.Machine
end

