-- ==== Sys2Proof/WellFormed.lean ====
section
/-!
DEFINITION. Well-formed commands: operands that the manual's formats can carry. A meaning is defined on every command; a command that is not
well formed stands for nothing that another agent can send.
-/

namespace Sys2Proof

/-- Nanoseconds 0 to 999,999,999 and a 16-bit fraction (R12, R13). -/
def Instant.ok (i : Instant) : Bool := decide (i.sec < 18446744073709551616) && decide (i.ns < 1000000000) && decide (i.frac < 65536)

/-- A DLC of four bits and at most 64 data bytes (R400, Table CN-6). -/
def CanFrame.ok (f : CanFrame) : Bool := decide (f.dlc < 16) && decide (f.data.length ≤ 16)

/-- Counters as bus-off bounds them (R410). -/
def CanErrors.ok (e : CanErrors) : Bool := decide (e.tec ≤ 256) && decide (e.rec_ ≤ 255)

/-- Sample counters of 16 bits, at most eight ASDUs' samples of eight values (R161 to R163). -/
def SvFrame.ok (f : SvFrame) : Bool :=
  decide (f.smpCnt < 65536) && decide (f.smpSynch < 256) && decide (f.samples.length ≤ 8)

/-- The codes lie within 16 bits (R131). -/
def UnitSamples.ok (x : UnitSamples) : Bool := x.newest.ok && x.codes.all fun c => decide (-32768 ≤ c ∧ c ≤ 32767)

/-- Ten codes on either side of the firing (R145). -/
def Firing.ok (f : Firing) : Bool := f.stamp.ok && decide (f.before.length = 10) && decide (f.after.length = 10)

/-- The report's two times are instants (Table TG-10). -/
def TwReport.ok (r : TwReport) : Bool := r.arrival.ok && r.start.ok

/-- Station and stream fields as Table NW-3 gives them. -/
def QspFrame.ok (f : QspFrame) : Bool := decide (f.station < 65536) && decide (f.stream < 256) && decide (f.payload.length ≤ 1500)

/-- As many members as the message says, and a life of 32 bits (R314). -/
def GooseMessage.ok (m : GooseMessage) : Bool := decide (m.live < 4294967296) && decide (m.members.length ≤ 64)

/-- A loaded bank always drops (R512). -/
def HoldupResult.ok (r : HoldupResult) : Bool := decide (r.drop ≠ 0#16)

/-- Fields within the widths of Table EV-1. -/
def EventRecord.ok (r : EventRecord) : Bool :=
  decide (r.severity < 16) && decide (r.firstNs < 1000000000) && decide (r.lastNs < 1000000000) && decide (r.firstQuality < 4) &&
    decide (r.lastQuality < 4) && decide (r.snapList < 8) && decide (r.snap.length ≤ 16)

/-- Fields within the widths a tack is sent in (R90 to R92): the nanoseconds take a word, whatever number they hold. -/
def TackRequest.ok (t : TackRequest) : Bool :=
  decide (t.sec < 18446744073709551616) && decide (t.ns < 4294967296) && decide (t.frac < 65536) && decide (t.action < 256) && decide (t.target < 65536)

/-- The value of each register stands at an address of 16 bits. -/
def registersOk (l : List (Nat × Word)) : Bool := l.all fun e => decide (e.1 < 65536)

/-- The 500 samples of each analogue channel (R133), at most eight current loops, and register addresses (R385). -/
def FrameInput.ok (i : FrameInput) : Bool :=
  decide (i.channels.length = 8) && i.channels.all (fun c => decide (c.codes.length = 500)) && decide (i.loops.length ≤ 8) && registersOk i.measures

/-- The instance ended in its frame's compute window or was stopped: at most a million ticks; well-formed tacks (R67, R90). -/
def TaskResult.ok (r : TaskResult) : Bool := decide (r.finish ≤ 4000) && r.tacks.all TackRequest.ok

/-- What was found about the settings names registers. -/
def StartFindings.ok (f : StartFindings) : Bool :=
  match f.migrated with
  | some m => registersOk m.registers
  | none => true

/-- Streams and stations of Table PR-6. -/
def ReceiptEntry.ok (e : ReceiptEntry) : Bool := decide (e.station < 65536) && decide (e.stream < 256)

/-- Stamps of the seam's items are instants (Table PR-5). -/
def SeamItem.ok : SeamItem → Bool
  | .transition c _ t => decide (c < 32) && t.ok
  | .release k t => decide (k < 16) && t.ok
  | .levels _ | .stationSet _ | .snapshot _ _ => true

/-- Register values of the copy name registers, pending frames fit their format, and decryption keys stand in slots 1 to 3 (Table PR-10). -/
def TrackingCopy.ok : TrackingCopy → Bool
  | .registers l => registersOk l
  | .canPending _ _ f => f.all CanFrame.ok
  | .keys _ d l => registersOk l && d.all fun e => decide (1 ≤ e.1 ∧ e.1 ≤ 3)
  | .forces _ | .windows _ | .tack _ _ _ _ _ _ | .nextTack _ | .bank _ _ _ _ | .page _ _ => true

/-- What the ACTIVE passes it has checked itself. -/
def Passed.ok : Passed → Bool
  | .tackSchedule _ t => t.ok
  | .imageChunk _ d => decide (d.length ≤ 1344)
  | .regWrite a _ => decide (a < 65536)
  | .tackCancel _ | .imageBegin _ _ | .imageCommit | .imageAdmit | .imageAbort | .imageSwitch | .switchTick _ | .switchCancel
  | .runTick _ _ | .handover _ | .restep _ | .stationCommit _ _ _ | .stationBind _ _ _ | .collarRules _ _ | .application _ _ => true

/-- The operands of a command fit its formats. -/
def wellFormed : Instr → Bool
  | .powerOnStart f => f.ok
  | .warmRestart f => f.ok
  | .holdupMeasurementEnd r => r.ok
  | .ppsEdge stamp => stamp.ok
  | .todMessage _ since => decide (since < 4294967296000000000)
  | .irigFrame frame stamp => decide (frame.seconds < 18446744073709551616) && stamp.ok
  | .frameTick f => f.ok
  | .seamProposalReceived items _ _ => items.all SeamItem.ok
  | .taskInstanceComplete _ r => r.ok
  | .eTaskReleaseEvent _ stamp => stamp.ok
  | .passedCommand c => c.ok
  | .autoRestart f => f.ok
  | .trackingCopyReceived c => c.ok
  | .slotStateStreamReceived _ states => decide (states.length ≤ 16)
  | .receiptListReceived theirs => theirs.all ReceiptEntry.ok
  | .stationFrameCopyReceived r => r.entry.ok
  | .tweFiring _ f => f.ok
  | .svFrameReceived f => f.ok
  | .triggerUnitEvent _ x => x.ok
  | .triggerUnitTimeout _ x => x.ok
  | .partnerSourceChange _ _ stamp => stamp.ok
  | .triggerLineAsserted _ stamp => stamp.ok
  | .tdcEdge _ stamp => stamp.ok
  | .qspInputFrame _ f => f.ok
  | .rollCall _ f => f.ok
  | .gooseReceived m => m.ok
  | .ping _ payload => decide (payload.length ≤ 1408)
  | .imageChunk _ _ _ data => decide (data.length ≤ 1344)
  | .tackSchedule _ t _ => t.ok
  | .twExchange _ r => r.ok
  | .updChunk _ _ _ data => decide (data.length ≤ 1344)
  | .pointRead _ refs => decide (refs.length ≤ 256)
  | .loopWindowStage _ _ _ _ words => decide (words.length ≤ 16)
  | .loopWindowCommit _ _ _ _ words => decide (words.length ≤ 16)
  | .dioRawEdge _ _ stamp => stamp.ok
  | .hartTransactionComplete _ f => decide (f.data.length ≤ 255)
  | .hartFrameReceived _ f => decide (f.data.length ≤ 255)
  | .canFrameReceived _ f stamp => f.ok && stamp.ok
  | .canFrameTransmitted _ _ stamp => stamp.ok
  | .canErrorStateChange _ e => e.ok
  | .dmaBusError e => decide (e.moved.length ≤ 16)
  | .partnerRecordReceived r => r.ok
  | .autoRunRequest | .powerApplied _ | .startDelayExpiry | .holdupBankCharged | .resetRelease | .lampTestEnd | .startupTestComplete _ |
    .inputLowWarning _ | .overvoltage | .brownout | .powerLossDetected | .powerLossTick | .retentiveCommitComplete _ _ | .powerLossSequenceEnd _ |
    .railFault _ | .holdupMeasurementStart | .powerHuMeas _ _ | .cellTest _ _ | .drawerClosed _ _ | .tamperOpening | .liningTamperAck _ _ |
    .liningBootCfg _ _ | .liningMirror | .rtcWrite | .referenceSecondCheck _ | .servoUpdate _ | .referenceQualified _ | .referenceLost _ _ |
    .waitToRestoreExpiry | .lockAchieved | .jumpDetected _ | .jumpConfirmationExpiry | .holdoverEstimate | .timeStep | .tbRestep _ _ |
    .leapAnnounceStart | .leapSecondApply | .pairAlignmentExchange _ _ _ _ | .pairAlignmentLost | .tbTimeSecHiRead _ | .tbCapArm _ _ _ |
    .tbCapture _ | .ptpAnnounceReceived _ _ | .ptpSyncReceived _ _ | .ptpFollowUpReceived _ _ _ | .ptpPdelayReqReceived _ _ |
    .ptpPdelayRespReceived _ _ _ | .ptpPdelayReqSend _ | .announceReceiptTimeout _ _ | .syncReceiptTimeout _ | .ptpAnnounceSend _ |
    .ptpSyncSend _ _ | .ptpConfigEffect | .seamDeadline | .computeWindowOpen | .budgetStop _ | .computeWindowClose | .outputCommit _ _ |
    .backgroundLaneTest _ | .heartbeatReceived _ _ | .heartbeatDeadline | .standbyQspSend | .safetyReadback _ | .pulseToggleReceived _ |
    .pulseWindowExpiry | .overrunWindowExpiry | .runtimeFatalFault | .imageIntegrityFailure | .runTick | .runTickConfirmDeadline |
    .tackDueHardware | .passedCommandConfirmation _ | .applicationTick | .applicationConfirmDeadline | .comparatorMismatch _ |
    .comparatorFaultToOut | .lockTestRun _ _ | .lockClearLockout _ _ | .lockClearStats _ _ | .holdExitRestore _ | .debugRequest _ | .claimRefresh |
    .claimDecay | .grantGained _ _ _ | .grantLost _ | .shareWindowEnd _ _ | .takeoverLineAsserted | .unheldStateEntry | .soloWaitExpiry |
    .selfCheckDecision | .handoverConfirmDeadline | .handoverTick | .leverOpened | .leverClosed | .leverHandoverRetry | .trackingPhaseComplete _ |
    .writeMirrorReceived _ _ _ | .joinTick _ | .laneFailure _ | .laneRestored _ | .inputCutoff | .settledSetFormed | .imageVerifyComplete _ |
    .admissionComplete _ | .switchPrepared | .switchTickConfirmDeadline | .switchFlip _ _ | .switchOutcome _ _ | .rawRingReallocate |
    .rangeChangeEffect _ | .settlingEnd _ | .cycleNoCrossing _ | .calibrationUpdate _ | .cycleZeroCrossing _ | .phaEntryComplete _ | .pmuDataFrameSend _ | .recRead _ _ _ | .pmuCommandReceived _ _ _ | .pmuTcpConnect _ | .pmuTcpDisconnect _ |
    .pmuCfgFlagExpiry _ | .acqPmuSel _ _ | .acqPmuCommit _ _ | .acqSvSel _ _ | .acqSvCommit _ _ | .acqCfgWrite _ _ | .acqClear _ _ |
    .svStreamTimeout _ | .achTweSel _ _ _ | .achCycSel _ _ _ | .achPhaSel _ _ _ | .achClear _ _ _ | .trgUCfg _ _ _ | .stretchExpiry _ |
    .patternArmExpiry _ | .patternHoldoffExpiry _ | .partnerSourcesLost | .partnerSourcesRestored _ | .triggerLinePulseEnd _ | .trgRecManual _ _ |
    .recordWindowEnd _ | .recordCommitted _ | .trgPatCommit _ _ | .trgRecCommit _ _ | .trgFlCommit _ _ | .trgClear _ _ | .tdcCalibration _ |
    .tdcFifoSecRead _ | .tdcFifoFracRead _ | .tdcClear _ _ | .twArrivalWaitEnd _ | .faultLocationResult _ | .remoteWaitExpiry _ |
    .slotEvaluation _ | .asapSlotWrite _ | .fixedPhaseSlotWrite _ | .loopSel _ _ | .loopCommit _ _ | .loopNdCmd _ _ | .notchDesignComplete |
    .loopFaultClear _ _ _ | .loopClear _ _ | .bindCycle _ | .netStCommit _ _ | .stationCommitEffect | .netGoCommit _ _ | .gooseRepeat _ |
    .gooseTalExpiry _ | .beaconSend | .gratuitousArp | .arpRequest _ _ | .icmpEcho _ _ | .prpFrameReceived _ _ | .prpSupervisionSend _ |
    .prpLanTimeout _ _ | .transceiverInserted _ _ | .portLinkChange _ _ _ | .netClear _ _ | .prpClear _ _ | .hello _ _ | .beacon |
    .sessionOpen _ _ _ _ _ | .sessionConfirm _ _ | .sessionClose _ | .qcpStats _ | .noticeAck _ _ | .restart _ _ | .regRead _ _ _ |
    .regWrite _ _ _ _ _ | .regModify _ _ _ _ _ _ | .regBlockRead _ _ _ | .registerWritePlain _ _ _ | .imageBegin _ _ _ | .imageCommit _ _ |
    .imageAdmit _ | .imageSwitch _ _ | .imageAbort _ _ | .modeSetRun _ | .modeSetStop _ | .modeSetHold _ | .modeSetSafe _ | .roleRequestOut _ |
    .roleRequestInit _ | .handover _ | .tackCancel _ _ | .tackList _ _ | .recList _ _ | .recOpen _ _ _ _ _ | .recDelete _ _ | .recClose _ _ |
    .evrCursorReport _ | .evrCursorOldest _ | .evrCursorNewest _ | .evrCursorSet _ _ | .evrRead _ _ | .evrClear _ _ | .updBegin _ _ _ _ _ |
    .updVerify _ _ | .updVerifyComplete _ | .updApply _ _ _ | .updApplyComplete _ | .updStatus _ _ | .settingsImport _ _ | .trialEnd |
    .trialFailureRevert _ | .updRevert _ _ | .updClear _ _ | .pointForceSet _ _ _ _ | .pointRelease _ _ _ | .pointReleaseAll _ _ |
    .loopWindowRead _ _ _ _ | .notchDesign _ _ _ _ _ _ _ _ | .keyEnrol _ _ _ | .keyRevoke _ _ | .keyLoadDecryption _ _ _ | .ownerLock _ _ _ |
    .debugCert _ _ | .debugCertEnd _ | .debugCertExpiry | .secFuseCmd _ _ | .sessionIdleTimeout _ | .sessionLifetimeExpiry _ |
    .sessionConfirmTimeout _ | .macFailureLimit _ | .noticeResend _ _ | .relayReply _ _ _ _ _ _ _ | .relayTimeout _ _ | .handleIdleTimeout _ |
    .windowClaimTimeout _ | .readbackDelayTimeout _ | .debounceAccept _ | .debounceDiscard _ | .overloadDetect _ | .thermalShutdown _ |
    .thermalRestart _ | .openLoadDetect _ | .groupOverTrip _ _ | .groupOverRetry _ | .dioFaultClear _ _ | .supplyWarn _ _ | .supplyWarnClear _ _ |
    .supplyLow _ _ | .supplyRecovered _ _ | .dioClearGroup _ _ | .dioClearCounters _ _ | .aoConverterUpdate _ | .complianceDetect _ _ |
    .complianceRetry _ | .complianceRetryEnd _ _ | .complianceClear _ _ | .miswireDetect _ _ | .miswireClear _ _ | .aoThermalFoldback _ _ _ |
    .senseFault _ _ | .supplyFault _ _ | .aoClear _ _ | .hartScanPoll _ | .hartTransactionFailed _ | .hartWinGo _ _ | .hartClear _ _ |
    .canBusOffRecovered _ | .canBoRecover _ _ _ | .canTxSend _ _ _ | .canTxAbort _ _ _ _ | .canBufSel _ _ _ | .canBufWindowRead _ _ _ |
    .canBufWord21Read _ _ | .canLockTimeout _ | .canBufCommit _ _ _ | .canAutobaudNominalDetected _ _ | .canAutobaudDataDetected _ _ |
    .canAutobaudTimeout _ | .canIntegrationComplete _ | .canClear _ _ _ | .collarFault _ | .collarCommit _ _ | .collarFence _ _ | .fenceComplete _ |
    .fenceTimeout | .collarClear _ _ | .dmaChArm _ _ _ | .dmaTransferComplete _ | .dmaBlockBoundary _ | .dmaDrained | .dmaRecover _ _ |
    .dmaAutoRecover | .dmaAbortCmd _ _ | .dmaClear _ _ | .cuffTimeout _ _ | .cuffSideReset _ _ _ | .cuffSideRunning _ _ | .cuffClear _ _ |
    .eventRaised _ _ | .eventRecorded | .intakeOverflowReport | .evrCursorWrite _ _ | .evrWinDataRead _ | .evrSnapCommit _ _ | .evrFatalAck _ _ |
    .evrClearAlarms _ _ | .idLocate _ _ | .locateEnd | .pairIdSet _ _ | .pairIdAdopt _ _ | .pairClear _ _ | .frameClearTaskStats _ _ |
    .frameClearStats _ _ | .frameTackClear _ _ | .imgClear _ _ | .trefRefClear _ _ _ | .ptpPortClear _ _ _ | .ptpCountClear _ _ | .powerClear _ _ |
    .partnerPresenceChange _ | .channelFaultCleared _ _ _ | .inputHighWarning _ | .transceiverRemoved _ | .drawerOpened | .ovenWarmUpEnd |
    .memoryError | .malformedPacket _ _ _ _ => true

end Sys2Proof
end

