-- ==== Sys2Proof/Certificates/Slice0/Obligations.lean ====
section
/-!
DEFINITION. The statements for the provers. Each names what it states; its docstring cites the rules of spec/ it rests on. A statement about a
command says what the module holds after it (its completion) and what it leaves alone (its frame).
-/

open Sys2Proof Sys2Proof.Machine Sys2Proof.Machine.Reg

/-! ### The block -/

/-- The command at the front of the queue runs with the queue's rest. The model's own shape of a step, which no rule of the manual gives
(notes/assumptions/2.md). -/
def Obligations.StepRunsFront : Prop :=
  ∀ (c : Instr) (l : List Instr) (s : State), step { s with pending := c :: l } = exec c { s with pending := l }

/-- With no command waiting the time base takes one tick of its 400 MHz clock (R16): the time gains 2.5 ns plus the rate correction, and
nothing else changes. That an idle step is a tick is the model's choice (notes/assumptions/2.md). -/
def Obligations.IdleStepTicks : Prop :=
  ∀ s : State, s.pending = [] →
    ∃ t, step s = .next t ∧ t.tb.now = shiftTime s.tb.now (10737418240 + s.rateCorr) ∧ t.tb.up = s.tb.up + 10737418240 ∧
      t.tb.quality = s.tb.quality ∧ SameOutside [.tb, .clock] s t

/-- Every command of the table answers a next state in every state, and leaves the queue of waiting commands to the step. -/
def Obligations.EveryCommandAnswers : Prop :=
  ∀ (c : Instr) (s : State), ∃ t, exec c s = .next t ∧ t.pending = s.pending

/-- At reset the stores are in canonical form and the intake queue is within its bound (R10, R450). -/
def Obligations.ResetInv : Prop := State.reset.Inv

/-- Every step keeps the stores in canonical form and the intake queue of the event log within its 512 entries (R450): what a command does to
registers, windows, memory and the queue of events goes through operations that keep them so. -/
def Obligations.StepKeepsInv : Prop :=
  ∀ s t : State, s.Inv → step s = .next t → t.Inv

/-- Every command leaves alone each part of the state that Safety.lean does not list for it: the frame of the whole block. The lists name, per command,
every group of registers, windows, memories, logs and queues that the manual lets it change. -/
def Obligations.CommandFrames : Prop :=
  ∀ (c : Instr) (s t : State), exec c s = .next t → SameOutside (touches c) s t

/-- Stores are what they read as: two register files in canonical form in which every register reads the same are the same data; a byte of the
fabric's memory reads as it was last written, and a write leaves every other byte alone and keeps the canonical form (R418). -/
def Obligations.StoresAreTheirReads : Prop :=
  (∀ s t : State, s.Canonical → t.Canonical → (∀ a, s.reg a = t.reg a) → s.regs = t.regs) ∧
  (∀ (m : List Host.Cell) (a : Nat) (b : Byte),
    memRead (memWrite m a b) a = b ∧ (∀ a', a' ≠ a → memRead (memWrite m a b) a' = memRead m a') ∧
      (Memory.wf m = true → Memory.wf (memWrite m a b) = true))

/-- The nanoseconds field carries into the seconds field: a tick of the time base that would bring it to 1,000,000,000 or more reduces it by
1,000,000,000 and increments the seconds, and no time has a nanoseconds field that high (R13). -/
def Obligations.NanosecondsCarry : Prop :=
  (∀ s : State, s.pending = [] → secOf s.tb.now + 1 < 2 ^ 64 → ∃ t, step s = .next t ∧
    (1000000000 * nsUnits ≤ nsOf s.tb.now * nsUnits + s.tb.now % nsUnits + (10737418240 + s.rateCorr).toNat →
      secOf t.tb.now = secOf s.tb.now + 1 ∧
      nsOf t.tb.now = (nsOf s.tb.now * nsUnits + s.tb.now % nsUnits + (10737418240 + s.rateCorr).toNat) / nsUnits - 1000000000) ∧
    (nsOf s.tb.now * nsUnits + s.tb.now % nsUnits + (10737418240 + s.rateCorr).toNat < 1000000000 * nsUnits →
      secOf t.tb.now = secOf s.tb.now ∧
      nsOf t.tb.now = (nsOf s.tb.now * nsUnits + s.tb.now % nsUnits + (10737418240 + s.rateCorr).toNat) / nsUnits)) ∧
  (∀ n : Nat, nsOf n < 1000000000)

/-- What reset leaves, as the manual gives it: role INIT, mode STOP, quality UNSET, and registers at their reset values (R10, R19, R81). -/
def Obligations.ResetValues : Prop :=
  State.reset.role = .init ∧ State.reset.mode = .stop ∧ State.reset.tb.quality = .unset ∧ State.reset.pending = [] ∧
    State.reset.reg TB.SLEW_LIMIT = 0x00083126#32 ∧ State.reset.reg TB.STEP_THRESH = 0x000003E8#32 ∧
    State.reset.reg TB.UNCERT = 0xFFFFFFFF#32 ∧ State.reset.reg TREF.PRIO = 0x00000123#32 ∧ State.reset.reg PTP.CTRL = 0x80010000#32

/-! ### The time base (chapter 1) -/

/-- The timing input (R38 to R42): an edge is judged by its distance from the last edge and carries the label of the message before it, without one
the module's own count of seconds; a message is taken when its SYNC, VERSION and CRC are right, and labels the next edge when it ended in time and
follows the last label; with TOD_EN = 0 no message is taken; the label of an IRIG-B frame of the selected code is its time less its local offset plus
TB.UTC_OFFSET, and another frame is no correct one. The offset is label minus instant plus the cable delay, in 2^-8 ns. -/
def Obligations.TimingInput : Prop :=
  (∀ (stamp : Instant) (s : State), ∃ t, exec (.ppsEdge stamp) s = .next t ∧ (t.ref 0).message = s.tb.todLabel ∧
    (s.tb.lastEdge = none → (t.ref 0).edge = some false) ∧
    (∀ e, s.tb.lastEdge = some e →
      (t.ref 0).edge = some (decide (timeDistance (e + secUnits) (ofInstant stamp) ≤ 5000 * nsUnits))) ∧
    (∀ b l, s.regBit TREF.PPS_CFG 4 = true → s.tb.todLabel = some (b, l) →
      (t.ref 0).offset = ((l * secUnits : Nat) - (ofInstant stamp : Int)) / 16777216 + (s.reg TREF.PPS_DELAY).toInt) ∧
    (s.regBit TREF.PPS_CFG 4 = false ∨ s.tb.todLabel = none →
      (t.ref 0).offset = ((secOf (ofInstant stamp + secUnits / 2) * secUnits : Nat) - (ofInstant stamp : Int)) / 16777216 +
        (s.reg TREF.PPS_DELAY).toInt) ∧
    t.reg (TREF.REF_OFFSET 0) = satSigned (t.ref 0).offset ∧
    t.tb = { s.tb with lastEdge := some (ofInstant stamp), todLabel := none, refs := t.tb.refs } ∧ (∀ r, r ≠ 0 → t.ref r = s.ref r) ∧
    SameOutside [.regs, .tb] s t ∧ RegsOutside [TREF.REF_OFFSET 0] s t) ∧
  (∀ (bytes : List Byte) (since : Nat) (s : State), s.regBit TREF.PPS_CFG 4 = true → todCorrect bytes = true →
    ∃ t, exec (.todMessage bytes since) s = .next t ∧
    t.tb.todLabel = some (decide (10000 ≤ since ∧ since ≤ 900000) && (match (s.ref 0).label with
      | some l => decide (beNat ((bytes.drop 4).take 8) = l + 1)
      | none => true), beNat ((bytes.drop 4).take 8)) ∧
    t.reg TREF.TOD_LAST_FLAGS = BitVec.ofNat 32 (bytes.getD 3 0).toNat ∧
    (t.ref 0).traceable = ((bytes.getD 3 0).getLsbD 2 && !(bytes.getD 3 0).getLsbD 3) ∧
    t.reg (TREF.REF_UTC_RX 0) = BitVec.ofNat 32 (beNat ((bytes.drop 12).take 2) % 65536) ∧
    t.regBit (TREF.REF_LEAP_RX 0) 31 = (bytes.getD 3 0).getLsbD 0 ∧ t.regBit (TREF.REF_LEAP_RX 0) 30 = (bytes.getD 3 0).getLsbD 1 ∧
    t.regFld (TREF.REF_LEAP_RX 0) 15 0 = beNat ((bytes.drop 14).take 2) ∧
    (s.tb.selRef = 1 → t.reg TB.UTC_OFFSET = t.reg (TREF.REF_UTC_RX 0) ∧ t.reg TB.LEAP_CTRL = putBit (t.reg (TREF.REF_LEAP_RX 0)) 29 true) ∧
    t.tb = { s.tb with todLabel := t.tb.todLabel, refs := t.tb.refs } ∧ (∀ r, r ≠ 0 → t.ref r = s.ref r) ∧ SameOutside [.regs, .tb] s t ∧
    RegsOutside [TREF.TOD_LAST_FLAGS, TREF.REF_UTC_RX 0, TREF.REF_LEAP_RX 0, TB.UTC_OFFSET, TB.LEAP_CTRL] s t ∧
    (s.tb.selRef ≠ 1 → t.reg TB.UTC_OFFSET = s.reg TB.UTC_OFFSET ∧ t.reg TB.LEAP_CTRL = s.reg TB.LEAP_CTRL)) ∧
  (∀ (bytes : List Byte) (since : Nat) (s : State), s.regBit TREF.PPS_CFG 4 = true → todCorrect bytes = false →
    ∃ t, exec (.todMessage bytes since) s = .next t ∧ t.tb = { s.tb with todLabel := some (false, beNat ((bytes.drop 4).take 8)) } ∧
    SameOutside [.tb] s t) ∧
  (∀ (bytes : List Byte) (since : Nat) (s : State), s.regBit TREF.PPS_CFG 4 = false → exec (.todMessage bytes since) s = .next s) ∧
  (∀ (f : IrigFrame) (stamp : Instant) (s : State), irigSupported s f = true → ∃ t, exec (.irigFrame f stamp) s = .next t ∧
    (t.ref 1).message = some (true, ((f.seconds : Int) - irigOffset f + s.utcOffset).toNat) ∧
    (t.ref 1).traceable = decide (irigQuality f = 0) ∧
    (t.ref 1).offset = (((((f.seconds : Int) - irigOffset f + s.utcOffset).toNat * secUnits : Nat) : Int) - (ofInstant stamp : Int)) / 16777216 +
      (s.reg TREF.IRIG_DELAY).toInt ∧
    t.reg (TREF.REF_OFFSET 1) = satSigned (t.ref 1).offset ∧ t.reg TREF.IRIG_LAST_CF = f.controlFunctions.zeroExtend 32 ∧
    t.reg (TREF.REF_CLASS_RX 1) = BitVec.ofNat 32 (irigQuality f) ∧ t.reg (TREF.REF_LEAP_RX 1) = irigLeap f ∧
    t.reg TB.LEAP_CTRL = (if s.tb.selRef = 2 then putBit (irigLeap f) 29 true else s.reg TB.LEAP_CTRL) ∧
    t.tb = { s.tb with refs := t.tb.refs } ∧ (∀ r, r ≠ 1 → t.ref r = s.ref r) ∧ SameOutside [.regs, .tb] s t ∧
    RegsOutside [TREF.REF_OFFSET 1, TREF.IRIG_LAST_CF, TREF.REF_CLASS_RX 1, TREF.REF_LEAP_RX 1, TB.LEAP_CTRL] s t) ∧
  (∀ (f : IrigFrame) (stamp : Instant) (s : State), irigSupported s f = false → ∃ t, exec (.irigFrame f stamp) s = .next t ∧
    (t.ref 1).edge = some true ∧ (t.ref 1).message = some (false, ((f.seconds : Int) - irigOffset f + s.utcOffset).toNat) ∧
    (t.ref 1).offset = (s.ref 1).offset ∧ t.tb = { s.tb with refs := t.tb.refs } ∧ (∀ r, r ≠ 1 → t.ref r = s.ref r) ∧ SameOutside [.tb] s t)

/-- A second of a reference (R34, R39): a valid one adds to the run, and is counted and dated; a second with something wrong ends the run, counts
as an error and raises 0x1204 for the time of day and IRIG-B; a second without anything ends the run and raises nothing. The label of the next
second goes on from the last.
How a reference is taken and left (R23, R34, R35, R36, R37): a run of TREF.QUAL_TIME valid seconds of an enabled, acceptable reference qualifies it
with event 0x1201; the first selection sets the step of the time base; two bad seconds of a qualified reference that is not followed lose it with
0x1202; a higher-priority reference that stayed qualified for TREF.WTR is followed again with 0x1203, and the time never steps. -/
def Obligations.References : Prop :=
  (∀ (r : Fin 3) (l : Nat) (s : State), secondVerdict s r.val = .valid l → ∃ t, exec (.referenceSecondCheck r) s = .next t ∧
    (t.ref r.val).valid = (s.ref r.val).valid + 1 ∧ (t.ref r.val).bad = 0 ∧ (t.ref r.val).label = some l ∧
    t.reg (TREF.REF_VALID r.val) = s.reg (TREF.REF_VALID r.val) + 1 ∧ t.reg (TREF.REF_LAST_VALID r.val) = secWord s.tb.now ∧
    t.reg (TREF.REF_SEC_LO r.val) = BitVec.ofNat 32 l ∧ (∀ q, q ≠ r.val → t.ref q = s.ref q) ∧
    t.tb = { s.tb with refs := t.tb.refs, todLabel := t.tb.todLabel } ∧ (r.val ≠ 0 → t.tb.todLabel = s.tb.todLabel) ∧
    SameOutside [.regs, .tb, .ptp] s t ∧
    RegsOutside [TREF.STATUS, TREF.REF_VALID r.val, TREF.REF_LAST_VALID r.val, TREF.REF_SEC_HI r.val, TREF.REF_SEC_LO r.val,
      TREF.REF_STATE r.val, TREF.REF_REMAIN r.val] s t) ∧
  (∀ (r : Fin 3) (s : State), secondVerdict s r.val = .invalid → ∃ t, exec (.referenceSecondCheck r) s = .next t ∧
    (t.ref r.val).valid = 0 ∧ (t.ref r.val).bad = (s.ref r.val).bad + 1 ∧ (t.ref r.val).label = nextLabel (s.ref r.val) none ∧
    t.reg (TREF.REF_INVALID r.val) = s.reg (TREF.REF_INVALID r.val) + 1 ∧
    (r.val = 0 → t.reg TREF.TOD_ERRORS = s.reg TREF.TOD_ERRORS + 1 ∧ Raises s t [(0x1204, 0)]) ∧
    (r.val = 1 → t.reg TREF.IRIG_ERRORS = s.reg TREF.IRIG_ERRORS + 1 ∧ Raises s t [(0x1204, 1)]) ∧ (r.val = 2 → Raises s t []) ∧
    (∀ q, q ≠ r.val → t.ref q = s.ref q) ∧ t.tb = { s.tb with refs := t.tb.refs, todLabel := t.tb.todLabel } ∧
    (r.val ≠ 0 → t.tb.todLabel = s.tb.todLabel) ∧ SameOutside [.regs, .tb, .ptp, .evr] s t ∧
    RegsOutside [TREF.STATUS, TREF.REF_INVALID r.val, TREF.TOD_ERRORS, TREF.IRIG_ERRORS, TREF.REF_STATE r.val, TREF.REF_REMAIN r.val] s t) ∧
  (∀ (r : Fin 3) (s : State), secondVerdict s r.val = .missing → ∃ t, exec (.referenceSecondCheck r) s = .next t ∧
    (t.ref r.val).valid = 0 ∧ (t.ref r.val).bad = (s.ref r.val).bad + 1 ∧ (t.ref r.val).label = nextLabel (s.ref r.val) none ∧
    ((s.ref r.val).state = .qualifying ∨ (s.ref r.val).state = .qualified →
      t.reg (TREF.REF_INVALID r.val) = s.reg (TREF.REF_INVALID r.val) + 1) ∧
    (∀ q, q ≠ r.val → t.ref q = s.ref q) ∧ t.tb = { s.tb with refs := t.tb.refs, todLabel := t.tb.todLabel } ∧
    (r.val ≠ 0 → t.tb.todLabel = s.tb.todLabel) ∧ SameOutside [.regs, .tb, .ptp] s t ∧
    RegsOutside [TREF.STATUS, TREF.REF_INVALID r.val, TREF.REF_STATE r.val, TREF.REF_REMAIN r.val] s t) ∧
  (∀ (r : Fin 3) (s : State), (s.ref r.val).state = .qualifying → s.regFld TREF.QUAL_TIME 7 0 ≤ (s.ref r.val).valid →
    s.refEnabled r.val = true → s.refAcceptable r.val = true →
    s.follower = true ∨ (s.tb.jumpPending = false ∧ 1 ≤ s.tb.selRef ∧ s.tb.selRef ≤ 3) → ∃ t, exec (.referenceQualified r) s = .next t ∧
    (t.ref r.val).state = .qualified ∧ t.regFld TREF.STATUS (2 * r.val + 1) (2 * r.val) = 2 ∧ (∀ q, q ≠ r.val → t.ref q = s.ref q) ∧
    Raises s t [(0x1201, r.val)] ∧ t.tb = { s.tb with refs := t.tb.refs } ∧ SameOutside [.regs, .tb, .evr] s t ∧ RegsOutside [TREF.STATUS] s t) ∧
  (∀ (r : Fin 3) (s : State), (s.ref r.val).state = .qualifying → s.regFld TREF.QUAL_TIME 7 0 ≤ (s.ref r.val).valid →
    s.refEnabled r.val = true → s.refAcceptable r.val = true → s.follower = false → s.tb.jumpPending = false → s.tb.selRef = 0 →
    s.settled = false → s.tb.stepGivenUp = false → ∃ t, exec (.referenceQualified r) s = .next t ∧
    (t.ref r.val).state = .qualified ∧ (∀ q, q ≠ r.val → t.ref q = s.ref q) ∧ t.tb.selRef = t.bestRef ∧
    (t.bestRef ≠ 0 → t.tb.stepDue = some (t.codeOffset t.bestRef * 16777216, .locked, false)) ∧
    (t.bestRef = 0 → t.tb.stepDue = s.tb.stepDue) ∧ t.tb.now = s.tb.now ∧ t.tb.quality = s.tb.quality ∧
    RaisesThen s t [(0x1201, r.val)] [0x1101, 0x1102] ∧ SameOutside [.regs, .tb, .evr] s t ∧ RegsOutside (TREF.STATUS :: bmcaRegs) s t) ∧
  (∀ (r : Fin 3) (h : HoldoverEntry) (s : State), (s.ref r.val).state = .qualified → s.refAcceptable r.val = true → 2 ≤ (s.ref r.val).bad →
    s.tb.selRef ≠ r.val + 1 → (s.tb.jumpPending = false ∨ s.tb.jumpRef ≠ r.val + 1) → ∃ t, exec (.referenceLost r h) s = .next t ∧
    (t.ref r.val).state = .absent ∧ (t.ref r.val).valid = 0 ∧ (t.ref r.val).label = none ∧
    t.regFld TREF.STATUS (2 * r.val + 1) (2 * r.val) = 0 ∧ (∀ q, q ≠ r.val → t.ref q = s.ref q) ∧ Raises s t [(0x1202, r.val)] ∧
    t.tb = { s.tb with refs := t.tb.refs, servoY := h.uncertainty, oven := h.oven } ∧
    SameOutside [.regs, .tb, .evr] s t ∧ RegsOutside [TREF.STATUS] s t) ∧
  (∀ s : State, s.regBit TREF.CTRL 8 = true → s.bestRef ≠ 0 → s.bestRef ≠ s.tb.selRef → 1 ≤ s.tb.selRef → s.tb.selRef ≤ 3 →
    s.tb.jumpPending = false → (s.reg TREF.WTR).toNat ≤ (s.ref (s.bestRef - 1)).qualifiedFor → s.settled = true →
    (s.codeOffset s.bestRef).natAbs ≤ s.stepThresh.natAbs → ∃ t, exec .waitToRestoreExpiry s = .next t ∧ t.tb.selRef = s.bestRef ∧
    t.reg TREF.SWITCH_COUNT = s.reg TREF.SWITCH_COUNT + 1 ∧ t.reg TREF.LAST_SWITCH_SEC = secWord s.tb.now ∧ t.tb.now = s.tb.now ∧
    t.tb.quality = s.tb.quality ∧ t.tb.refs = s.tb.refs ∧ RaisesThen s t [(0x1203, s.bestRef - 1)] [0x1101, 0x1102] ∧
    SameOutside [.regs, .tb, .ptp, .evr] s t ∧ RegsOutside ([TREF.SWITCH_COUNT, TREF.LAST_SWITCH_SEC, TB.UNCERT] ++ bmcaRegs) s t)

/-- The servo's update (R16, R17, R29, R55): the offset and the statistics are reported; outside a jump confirmation the rate correction is the
servo's, never beyond TB.SLEW_LIMIT, and at the limit in a slew of R24 or R31 that a second does not end; consecutive updates within the lock window or
beyond the step threshold are counted, which LOCK_ACHIEVED (R20) and JUMP_DETECTED (R29) need.
A jump met while LOCKED begins HOLDOVER at the mean of the frequency parts (R29, R55); one that is confirmed (R31) goes FREE and slews at the limit
toward the reference, and the time is not stepped. -/
def Obligations.ServoAndJumps : Prop :=
  (∀ (u : ServoInput) (s : State), 1 ≤ s.tb.selRef → s.tb.selRef ≤ 3 → s.tb.jumpPending = false → ∃ t, exec (.servoUpdate u) s = .next t ∧
    t.reg TB.OFFSET = satSigned u.offset ∧ t.reg (TREF.REF_OFFSET (s.tb.selRef - 1)) = satSigned u.offset ∧
    t.reg (TREF.REF_RMS_OFS (s.tb.selRef - 1)) = u.stats.rms ∧ t.reg (TB.SERVO_STAT 0) = u.stats.mean ∧ t.reg (TB.SERVO_STAT 4) = u.stats.temperature ∧
    (s.tb.limitSlew = false ∨ u.offset.natAbs ≤ secondAtLimit s →
      (-s.slewLimit ≤ u.rate ∧ u.rate ≤ s.slewLimit → t.rateCorr = u.rate) ∧ (s.slewLimit < u.rate → t.rateCorr = s.slewLimit) ∧
      (u.rate < -s.slewLimit → t.rateCorr = -s.slewLimit)) ∧
    (s.tb.limitSlew = true → secondAtLimit s < u.offset.natAbs → t.rateCorr = if u.offset < 0 then -s.slewLimit else s.slewLimit) ∧
    t.tb.inWindow = (if u.offset.natAbs ≤ s.lockWin.natAbs then s.tb.inWindow + 1 else 0) ∧
    t.tb.beyond = (if s.stepThresh.natAbs < u.offset.natAbs then s.tb.beyond + 1 else 0) ∧
    t.tb.limitSlew = (s.tb.limitSlew && decide (s.stepThresh.natAbs < u.offset.natAbs)) ∧
    t.tb.frequencies.head? = (if s.tb.quality = .locked then some (s.lockedTime, u.frequency) else s.tb.frequencies.head?) ∧
    t.tb = { s.tb with refs := t.tb.refs, inWindow := t.tb.inWindow, beyond := t.tb.beyond, limitSlew := t.tb.limitSlew
                       frequencies := t.tb.frequencies, servoY := u.hold.uncertainty, oven := u.hold.oven } ∧ SameOutside [.regs, .tb] s t ∧
    RegsOutside [TREF.REF_OFFSET (s.tb.selRef - 1), TB.OFFSET, TREF.REF_MAX_OFS (s.tb.selRef - 1), TB.SERVO_STAT 0, TB.SERVO_STAT 1,
      TB.SERVO_STAT 2, TB.SERVO_STAT 3, TB.SERVO_STAT 4, TREF.REF_RMS_OFS (s.tb.selRef - 1), TB.ALARM, TB.RATE_CORR] s t) ∧
  (∀ s : State, 1 ≤ s.tb.selRef → s.tb.selRef ≤ 3 → s.regFld TB.LOCK_CFG 7 0 ≤ s.tb.inWindow → s.tb.jumpPending = false →
    s.tb.quality ≠ .locked → ∃ t, exec .lockAchieved s = .next t ∧
    t.tb = { s.tb with quality := .locked, slewing := false, limitSlew := false, lockedSince := s.tb.up } ∧
    t.reg TB.UNCERT = (if s.tb.selRef = 2 ∧ s.regBit TREF.IRIG_CFG 8 = true then 3200 else 48) ∧ t.reg (TB.SERVO_STAT 5) = 0 ∧
    t.ptp = { s.ptp with timeSource := lockedSource s } ∧
    Raises s t [(0x1003, 0xFFFF)] ∧ SameOutside [.regs, .tb, .ptp, .acq, .evr] s t ∧ RegsOutside [TB.UNCERT, TB.SERVO_STAT 5] s t) ∧
  (∀ (h : HoldoverEntry) (s : State), s.settled = true → 2 ≤ s.tb.beyond → 1 ≤ s.tb.selRef → s.tb.selRef ≤ 3 → s.tb.jumpPending = false →
    s.tb.limitSlew = false → ∃ t, exec (.jumpDetected h) s = .next t ∧ t.tb.jumpPending = true ∧ t.tb.jumpRef = s.tb.selRef ∧ t.tb.jumpAt = s.tb.up ∧
    t.tb.jumpLocked = decide (s.tb.quality = .locked) ∧ t.tb.slewing = false ∧ t.tb.now = s.tb.now ∧
    t.tb.quality = (if s.tb.quality = .locked then .holdover else s.tb.quality) ∧ t.regBit TB.ALARM 3 = true ∧
    (s.tb.quality ≠ .locked → t.reg TB.RATE_CORR = s.reg TB.RATE_CORR ∧ Raises s t [(0x1004, 0xFFFF)]) ∧
    (s.tb.quality = .locked → t.rateCorr = clampRate s (meanFrequency s + if s.regFld ID.ORDER 15 8 = 1 then h.oven else 0) ∧
      t.reg TB.HOLD_Y = h.uncertainty ∧ t.reg TB.UNCERT = s.reg TB.UNCERT ∧ t.tb.holdE0 = (s.reg TB.UNCERT).toNat ∧ t.tb.holdTime = 0 ∧
      Raises s t [(0x1004, 0xFFFF), (0x1003, 0xFFFF)]) ∧
    t.reg (TREF.REF_JUMPS (s.tb.selRef - 1)) = s.reg (TREF.REF_JUMPS (s.tb.selRef - 1)) + 1 ∧
    SameOutside [.regs, .tb, .ptp, .acq, .evr] s t ∧
    RegsOutside [TB.ALARM, TREF.REF_JUMPS (s.tb.selRef - 1), TB.RATE_CORR, TB.HOLD_Y, TB.HOLD_EST, TB.UNCERT] s t) ∧
  (∀ s : State, s.tb.jumpPending = true → ∃ t, exec .jumpConfirmationExpiry s = .next t ∧ t.tb.jumpPending = false ∧ t.tb.quality = .free ∧
    t.tb.slewing = true ∧ t.tb.limitSlew = true ∧ t.tb.selRef = s.tb.jumpRef ∧
    t.tb.up = max s.tb.up (s.tb.jumpAt + (s.reg TB.JUMP_CONFIRM).toNat * secUnits) ∧
    t.tb.now - s.tb.now = t.tb.up - s.tb.up ∧ t.regBit TB.ALARM 4 = true ∧
    (0 ≤ s.codeOffset s.tb.jumpRef → t.rateCorr = s.slewLimit) ∧ (s.codeOffset s.tb.jumpRef < 0 → t.rateCorr = -s.slewLimit) ∧
    (s.tb.quality = .free → Raises s t [(0x1005, 0xFFFF)]) ∧
    (s.tb.quality ≠ .free → t.reg TB.UNCERT = 0xFFFFFFFF ∧ Raises s t [(0x1005, 0xFFFF), (0x1003, 0xFFFF)]) ∧
    SameOutside [.regs, .tb, .clock, .ptp, .acq, .evr] s t ∧ RegsOutside [TB.ALARM, TB.RATE_CORR, TB.UNCERT] s t)

/-- During HOLDOVER the bound TB.HOLD_EST is computed once per second as e0 + y·t + ½·a·t² (R57), in ns; beyond TB.HOLD_BOUND the quality goes FREE with
event 0x1006, but for a follower, whose quality is the leader's (R45; notes/assumptions/103.md). That the register holds whole ns, rounded up, is the
model's choice (notes/assumptions/9.md).
A leap second (R53, R54): announced in the 12 h before the change, applied at its instant by one second of TB.UTC_OFFSET with event 0x1008; the
time base itself counts TAI and does not move. -/
def Obligations.HoldoverAndLeap : Prop :=
  (∀ s : State, s.tb.quality = .holdover →
    let n := holdNumerator s.tb.holdE0 (s.reg TB.HOLD_Y).toNat (s.reg TB.HOLD_A).toNat (s.tb.holdTime + 1)
    ∃ t, exec .holdoverEstimate s = .next t ∧ t.tb.holdTime = s.tb.holdTime + 1 ∧
      ((n + 172799999999) / 172800000000 < 4294967296 → (t.reg TB.HOLD_EST).toNat = (n + 172799999999) / 172800000000) ∧
      (n ≤ (s.reg TB.HOLD_BOUND).toNat * 172800000000 ∨ s.follower = true →
        t.tb = { s.tb with holdTime := s.tb.holdTime + 1 } ∧ Raises s t [] ∧ RegsOutside [TB.HOLD_EST] s t) ∧
      ((s.reg TB.HOLD_BOUND).toNat * 172800000000 < n → s.follower = false → t.tb.quality = .free ∧
        t.tb.slewing = (decide (1 ≤ s.tb.selRef ∧ s.tb.selRef ≤ 3) && !s.tb.jumpPending) ∧ t.regBit TB.ALARM 5 = true ∧
        t.reg TB.UNCERT = 0xFFFFFFFF ∧
        Raises s t [(0x1006, 0xFFFF), (0x1003, 0xFFFF)] ∧ RegsOutside [TB.HOLD_EST, TB.ALARM, TB.UNCERT] s t) ∧
      t.tb.now = s.tb.now ∧ SameOutside [.regs, .tb, .ptp, .acq, .evr] s t) ∧
  (∀ s : State, s.regBit TB.LEAP_CTRL 31 = true → s.leapInstant - 43200 ≤ secOf s.tb.now → (secOf s.tb.now : Int) < s.leapInstant →
    ∃ t, exec .leapAnnounceStart s = .next t ∧ t.tb = { s.tb with leapAnnounced := true } ∧ leapFlagged t = true ∧ SameOutside [.tb] s t) ∧
  (∀ s : State, s.regBit TB.LEAP_CTRL 31 = true → s.leapInstant ≤ secOf s.tb.now → ∃ t, exec .leapSecondApply s = .next t ∧
    t.reg TB.UTC_OFFSET = (BitVec.ofInt 16 (s.utcOffset + if s.regBit TB.LEAP_CTRL 30 then -1 else 1)).zeroExtend 32 ∧
    t.regBit TB.LEAP_CTRL 31 = false ∧ t.regBit TB.ALARM 7 = true ∧ t.tb = { s.tb with leapAnnounced := false, leapAt := t.tb.leapAt } ∧
    leapFlagged t = false ∧
    Raises s t [(0x1008, 0xFFFF)] ∧ SameOutside [.regs, .tb, .evr] s t ∧ RegsOutside [TB.UTC_OFFSET, TB.LEAP_CTRL, TB.ALARM] s t)

/-- Alignment within the pair (R45, R46): a follower that has stepped follows the leader's rate and quality and reads 4 as its selected reference; one
that has not is to step to the leader's time; after 100 frames without an exchange it free-runs at the lower of the leader's quality and HOLDOVER.
A step of the time base (R25, R27): the time moves by the step at the frame tick, the step is counted and recorded, the slew and the jump
confirmation end, and the quality is the step source's.
A capture (R14, Table TB-13): an armed unit holds the time, its quality and DONE, and in single mode disarms; an unarmed unit takes nothing. A restep waits for the frame tick, from the source of Table TB-2 (R28); arming a
unit starts its event count, and source 0 captures at once. -/
def Obligations.PairTime : Prop :=
  (∀ (p : Pkt) (x : Session) (v : Word) (s : State), MayWrite s p x TB.RESTEP v → s.frame.sw = none →
    (∀ d q, restepSource s = some (d, q) → ∃ t, exec (.tbRestep p v) s = .next t ∧ t.replied done ∧
      t.tb = { s.tb with stepDue := some (d, q, true), slewing := false, jumpPending := false, jumpRef := 0 } ∧
      t.pair = (if s.role = .standby then { s.pair with trackDue := true } else s.pair) ∧ SameOutside [.tb, .pair, .qcp, .sent] s t) ∧
    (restepSource s = none → ∃ t, exec (.tbRestep p v) s = .next t ∧ t.replied (refusal .wrongState) ∧ SameOutside [.qcp, .sent] s t) ∧
    (s.role = .active ∨ s.role = .solo → s.mode ≠ .stop → restepSource s = none)) ∧
  (∀ (offset : Int) (delay : Word) (leader : Quality) (servo : PairServo) (s : State), s.follower = true → s.tb.stepped = true →
    ∃ t, exec (.pairAlignmentExchange offset delay leader servo) s = .next t ∧ t.tb.quality = leader ∧ t.tb.selRef = 4 ∧
    t.rateCorr = clampRate s servo.rate ∧ t.tb.servoY = servo.uncertainty ∧ t.reg TB.PAIR_OFFSET = satSigned offset ∧ t.reg TB.PAIR_DELAY = delay ∧
    t.tb.alignOk = true ∧ t.tb.alignMisses = 0 ∧ t.tb.leaderQuality = leader ∧ t.tb.now = s.tb.now ∧
    (leaderDiffers t = true → RaisesBefore s t [0x1003, 0x1101, 0x1102] [(0x1009, 0xFFFF)]) ∧
    (leaderDiffers t = false → RaisesBefore s t [0x1003, 0x1101, 0x1102] []) ∧ SameOutside [.regs, .tb, .ptp, .acq, .evr] s t ∧
    RegsOutside ([TB.PAIR_OFFSET, TB.PAIR_DELAY, TB.RATE_CORR, TB.UNCERT, TB.HOLD_Y, TB.HOLD_EST, TB.SERVO_STAT 5, TB.ALARM] ++ bmcaRegs) s t) ∧
  (∀ (offset : Int) (delay : Word) (leader : Quality) (servo : PairServo) (s : State), s.follower = true → s.tb.stepped = false →
    ∃ t, exec (.pairAlignmentExchange offset delay leader servo) s = .next t ∧ t.tb.stepDue = some (offset * 16777216, leader, false) ∧
    t.tb.selRef = 4 ∧ t.tb.quality = s.tb.quality ∧ SameOutside [.regs, .tb] s t ∧ RegsOutside [TB.PAIR_OFFSET, TB.PAIR_DELAY] s t) ∧
  (∀ (offset : Int) (delay : Word) (leader : Quality) (servo : PairServo) (s : State), s.follower = false →
    ∃ t, exec (.pairAlignmentExchange offset delay leader servo) s = .next t ∧ t.tb.pairOffset = offset ∧ t.tb.alignMisses = 0 ∧
    t.tb.leaderQuality = leader ∧ t.tb.quality = s.tb.quality ∧ t.tb.selRef = s.tb.selRef ∧ t.tb.now = s.tb.now ∧ SameOutside [.regs, .tb] s t ∧
    RegsOutside [TB.PAIR_OFFSET, TB.PAIR_DELAY] s t) ∧
  (∀ s : State, s.follower = true → s.tb.alignOk = true → 100 ≤ s.tb.alignMisses → ∃ t, exec .pairAlignmentLost s = .next t ∧
    t.tb.alignOk = false ∧ t.tb.quality = (if s.tb.leaderQuality = .locked then .holdover else s.tb.leaderQuality) ∧
    t.regBit TB.ALARM 6 = true ∧ t.reg TB.RATE_CORR = s.reg TB.RATE_CORR ∧ SameOutside [.regs, .tb, .ptp, .acq, .evr] s t) ∧
  (∀ (d : Int) (q : Quality) (again : Bool) (s : State), s.tb.stepDue = some (d, q, again) → 0 ≤ (frameTickAt s : Int) + d →
    s.tb.now ≤ frameTickAt s → ((frameTickAt s : Int) + d).toNat < timeModulus →
    ∃ t, exec .timeStep s = .next t ∧ (t.tb.now : Int) = frameTickAt s + d ∧ t.tb.stepped = true ∧ t.tb.stepDue = none ∧
      t.tb.jumpPending = false ∧ t.tb.slewing = false ∧ t.tb.quality = q ∧ t.reg TB.STEP_COUNT = s.reg TB.STEP_COUNT + 1 ∧
      t.reg TB.LAST_STEP_SEC = BitVec.ofInt 32 (d.tdiv secUnits) ∧ t.reg FRAME.LONG_FRAMES = s.reg FRAME.LONG_FRAMES + 1 ∧
      t.frame.stepped = true) ∧
  (∀ (n : Fin 16) (s : State), s.regBit (TB.CAP_CTRL n.val) 0 = true → s.regBit (TB.CAP_CTRL n.val) 2 = false →
    ∃ t, exec (.tbCapture n) s = .next t ∧ t.reg (TB.CAP_SEC n.val) = secWord s.tb.now ∧ t.reg (TB.CAP_NS n.val) = nsWord s.tb.now ∧
    t.regFld (TB.CAP_FRAC n.val) 15 0 = fracOf s.tb.now ∧ t.regFld (TB.CAP_CTRL n.val) 31 30 = s.tb.quality.code ∧
    t.regBit (TB.CAP_CTRL n.val) 1 = true ∧ t.regBit (TB.CAP_CTRL n.val) 0 = false ∧ SameOutside [.regs] s t ∧
    RegsOutside [TB.CAP_CTRL n.val, TB.CAP_SEC n.val, TB.CAP_NS n.val, TB.CAP_FRAC n.val] s t) ∧
  (∀ (n : Fin 16) (s : State), s.regBit (TB.CAP_CTRL n.val) 0 = false → exec (.tbCapture n) s = .next s) ∧
  (∀ (p : Pkt) (n : Fin 16) (x : Session) (v : Word) (s : State), MayWrite s p x (TB.CAP_CTRL n.val) v → bit v 0 = true → bit v 2 = false →
    s.regBit (TB.CAP_CTRL n.val) 0 = false →
    (fld v 12 8 ≠ 0 → ∃ t, exec (.tbCapArm p n v) s = .next t ∧ t.replied done ∧ t.regBit (TB.CAP_CTRL n.val) 0 = true ∧
      t.regFld (TB.CAP_CTRL n.val) 12 8 = fld v 12 8 ∧ t.regFld (TB.CAP_FRAC n.val) 31 16 = 0 ∧ SameOutside [.regs, .tb, .qcp, .sent] s t ∧
      RegsOutside [TB.CAP_CTRL n.val, TB.CAP_FRAC n.val] s t) ∧
    (fld v 12 8 = 0 → ∃ t, exec (.tbCapArm p n v) s = .next t ∧ t.replied done ∧ t.regBit (TB.CAP_CTRL n.val) 0 = false ∧
      t.regBit (TB.CAP_CTRL n.val) 1 = true ∧ t.reg (TB.CAP_SEC n.val) = secWord s.tb.now ∧ t.reg (TB.CAP_NS n.val) = nsWord s.tb.now ∧
      SameOutside [.regs, .tb, .qcp, .sent] s t ∧
      RegsOutside [TB.CAP_CTRL n.val, TB.CAP_SEC n.val, TB.CAP_NS n.val, TB.CAP_FRAC n.val] s t))

/-- PTP (R34, R43, R48 to R51, R60): a measurement of the selected master is origin plus correction less ingress, plus the link delay, the port's
asymmetry and its ingress latency; a two-step Sync waits for the Follow_Up of its sequence, and any other is an error; delay requests are answered
in every role with the turnaround inserted, and an insertion that cannot complete counts in TS_FAULT; a message of another domain is discarded; Announce
and Sync are sent as Table TB-6 says, behind the tag of Table TB-5, and clockClass is 6 while LOCKED on the timing input; with the ports cut off (R231)
nothing leaves; the settings written take effect together at the TAI second that follows.
The foreign masters (R34, R43): an Announce of the domain puts its master into its place in the list of the four best and counts; a master
whose Announce times out leaves the list; a PTP reference without Sync is absent, and the module forgets its measurement. That the list holds four is
the model's choice (notes/assumptions/98.md). -/
def Obligations.PtpMessages : Prop :=
  (∀ (p : Fin 5) (m : SyncMessage) (s : State), s.ptpPortOn p.val = true → m.domain.toNat = fld s.ptp.domain 7 0 →
    (s.reg PTP.SLAVE_PORT).toNat = p.val + 1 → s.ptp.masters.head?.map (·.id) = some m.id → ∃ t, exec (.ptpSyncReceived p m) s = .next t ∧
    t.reg (PTP.COUNT 1) = s.reg (PTP.COUNT 1) + 1 ∧ t.reg (PTP.RX_SYNC p.val) = s.reg (PTP.RX_SYNC p.val) + 1 ∧
    (m.twoStep = true → t.ptp.awaiting = some (p.val, m.sequence.toNat) ∧ t.tb = s.tb ∧ t.reg (TREF.REF_OFFSET 2) = s.reg (TREF.REF_OFFSET 2)) ∧
    (m.twoStep = false → t.ptp.awaiting = none ∧ t.ptp.sinceMeasured = some 0 ∧
      (t.ref 2).offset = m.delta + (s.reg (PTP.MEAN_LINK_DELAY p.val)).toNat + (s.reg (PTP.DELAY_ASYM p.val)).toInt +
        (s.reg (PTP.INGRESS_LAT p.val)).toNat ∧ t.reg (TREF.REF_OFFSET 2) = satSigned (t.ref 2).offset) ∧
    t.reg (NET.RX_FRAMES 4) = s.reg (NET.RX_FRAMES 4) + (if p.val = 4 then 1 else 0) ∧
    (∀ r, r ≠ 2 → t.ref r = s.ref r) ∧ SameOutside [.regs, .tb, .ptp] s t ∧
    RegsOutside [PTP.COUNT 1, PTP.RX_SYNC p.val, TREF.REF_OFFSET 2, NET.RX_FRAMES 4] s t) ∧
  (∀ (p : Fin 5) (n : Half) (d : Int) (s : State), s.ptpPortOn p.val = true → ∃ t, exec (.ptpFollowUpReceived p n d) s = .next t ∧
    t.reg (PTP.COUNT 2) = s.reg (PTP.COUNT 2) + 1 ∧
    (s.ptp.awaiting = some (p.val, n.toNat) → t.ptp.sinceMeasured = some 0 ∧ t.ptp.awaiting = none ∧ t.reg (PTP.COUNT 12) = s.reg (PTP.COUNT 12) ∧
      (t.ref 2).offset = d + (s.reg (PTP.MEAN_LINK_DELAY p.val)).toNat + (s.reg (PTP.DELAY_ASYM p.val)).toInt +
        (s.reg (PTP.INGRESS_LAT p.val)).toNat) ∧
    (s.ptp.awaiting ≠ some (p.val, n.toNat) → t.ptp = s.ptp ∧ t.tb = s.tb ∧ t.reg (PTP.COUNT 12) = s.reg (PTP.COUNT 12) + 1) ∧
    SameOutside [.regs, .tb, .ptp] s t ∧ RegsOutside [PTP.COUNT 2, PTP.COUNT 12, TREF.REF_OFFSET 2, NET.RX_FRAMES 4] s t) ∧
  (∀ (p : Fin 5) (turn : Turnaround) (s : State), s.ptpPortOn p.val = true → s.lock.cutOff = false →
    ∃ t, exec (.ptpPdelayReqReceived p turn) s = .next t ∧
    t.reg (PTP.COUNT 3) = s.reg (PTP.COUNT 3) + 1 ∧ t.reg (PTP.RX_PDELAY p.val) = s.reg (PTP.RX_PDELAY p.val) + 1 ∧
    (turn.complete = true → LeavesBy s t p.val { kind := .pdelayResp, fields := vlanTag s ++ [p.val + 1, turn.after / 65536 +
        ((s.reg (PTP.INGRESS_LAT p.val)).toNat + (s.reg (PTP.EGRESS_LAT p.val)).toNat) * 256] } ∧
      t.reg (PTP.TX_PDELAY p.val) = s.reg (PTP.TX_PDELAY p.val) + 1 ∧ t.reg (PTP.TS_FAULT p.val) = s.reg (PTP.TS_FAULT p.val)) ∧
    (turn.complete = false → t.sent = s.sent ∧ t.reg (PTP.TX_PDELAY p.val) = s.reg (PTP.TX_PDELAY p.val) ∧
      t.reg (PTP.TS_FAULT p.val) = s.reg (PTP.TS_FAULT p.val) + 1) ∧
    SameOutside [.regs, .sent] s t ∧
    RegsOutside ([PTP.COUNT 3, PTP.COUNT 9, PTP.RX_PDELAY p.val, PTP.TX_PDELAY p.val, PTP.TS_FAULT p.val, NET.RX_FRAMES 4] ++ portRegs p.val) s t) ∧
  (∀ (p : Fin 5) (delay nrr : Word) (s : State), s.ptpPortOn p.val = true → ∃ t, exec (.ptpPdelayRespReceived p delay nrr) s = .next t ∧
    t.reg (PTP.MEAN_LINK_DELAY p.val) = delay ∧ t.reg (PTP.NRR p.val) = nrr ∧ t.reg (PTP.COUNT 4) = s.reg (PTP.COUNT 4) + 1 ∧
    SameOutside [.regs] s t ∧
    RegsOutside [PTP.COUNT 4, PTP.RX_PDELAY p.val, PTP.MEAN_LINK_DELAY p.val, PTP.NRR p.val, NET.RX_FRAMES 4] s t) ∧
  (∀ (p : Fin 5) (s : State), s.ptpPortOn p.val = true → s.lock.cutOff = false → ∃ t, exec (.ptpPdelayReqSend p) s = .next t ∧
    LeavesBy s t p.val { kind := .pdelayReq, fields := vlanTag s ++ [p.val + 1] } ∧ t.reg (PTP.COUNT 8) = s.reg (PTP.COUNT 8) + 1 ∧
    SameOutside [.regs, .sent] s t ∧ RegsOutside ([PTP.COUNT 8, PTP.TX_PDELAY p.val] ++ portRegs p.val) s t) ∧
  (∀ (p : Fin 5) (turn : Turnaround) (s : State), s.lock.cutOff = true → (∃ t, exec (.ptpPdelayReqSend p) s = .next t ∧ t.sent = s.sent) ∧
    (∃ t, exec (.ptpPdelayReqReceived p turn) s = .next t ∧ t.sent = s.sent) ∧ (∃ t, exec (.ptpAnnounceSend p) s = .next t ∧ t.sent = s.sent) ∧
    (∃ t, exec (.ptpSyncSend p true) s = .next t ∧ t.sent = s.sent)) ∧
  (∀ (p : Fin 5) (s : State), mayAnnounce s p.val = true → s.reg (PTP.PORT_STATE p.val) = 6 → s.lock.cutOff = false →
    ∃ t m, exec (.ptpAnnounceSend p) s = .next t ∧ LeavesBy s t p.val m ∧
    m.kind = .announce ∧ m.fields.take 7 = vlanTag s ++ [p.val + 1, fld s.ptp.domain 7 0, announcedClass s, announcedAccuracy s] ∧
    (s.tb.quality = .locked → s.tb.selRef = 1 → (s.ref 0).traceable = true → m.fields[5]? = some 6 ∧ m.fields[6]? = some 0x1F) ∧
    (s.tb.quality = .free → m.fields[5]? = some 248 ∧ m.fields[6]? = some 0xFE ∧ m.fields[10]? = some 0xA0) ∧
    SameOutside [.regs, .sent] s t ∧ RegsOutside ([PTP.COUNT 5, PTP.TX_ANN p.val] ++ portRegs p.val) s t) ∧
  (∀ (p : Fin 5) (s : State), mayAnnounce s p.val = true → s.lock.cutOff = false → ∃ t, exec (.ptpSyncSend p true) s = .next t ∧
    (let e := s.tb.now + (s.reg (PTP.EGRESS_LAT p.val)).toNat * 16777216
     LeavesBy s t p.val { kind := .sync, fields := vlanTag s ++ [p.val + 1, secOf e, nsOf e, fracOf e, fld s.ptp.intervals 23 16] }) ∧
    t.reg (PTP.COUNT 6) = s.reg (PTP.COUNT 6) + 1 ∧ SameOutside [.regs, .sent] s t ∧
    RegsOutside ([PTP.COUNT 6, PTP.TX_SYNC p.val] ++ portRegs p.val) s t) ∧
  (∀ (p : Fin 5) (s : State), mayAnnounce s p.val = true → ∃ t, exec (.ptpSyncSend p false) s = .next t ∧
    t.reg (PTP.TS_FAULT p.val) = s.reg (PTP.TS_FAULT p.val) + 1 ∧ SameOutside [.regs] s t ∧ RegsOutside [PTP.TS_FAULT p.val] s t) ∧
  (∀ (p : Fin 5) (a : Announce) (s : State), s.ptpPortOn p.val = true → a.domain.toNat ≠ fld s.ptp.domain 7 0 →
    ∃ t, exec (.ptpAnnounceReceived p a) s = .next t ∧ t.reg (PTP.COUNT 14) = s.reg (PTP.COUNT 14) + 1 ∧
    t.reg (PTP.RX_DISCARD p.val) = s.reg (PTP.RX_DISCARD p.val) + 1 ∧ SameOutside [.regs] s t ∧
    RegsOutside [PTP.COUNT 14, PTP.RX_DISCARD p.val, NET.RX_FRAMES 4] s t) ∧
  (∀ (p : Fin 5) (a : Announce) (s : State), s.ptpPortOn p.val = true → a.domain.toNat = fld s.ptp.domain 7 0 →
    ∃ t, exec (.ptpAnnounceReceived p a) s = .next t ∧
    t.ptp.masters = (insertMaster
      { id := a.id, priority1 := a.priority1.toNat, clockClass := a.clockClass.toNat, accuracy := a.accuracy.toNat, variance := a.variance.toNat
        priority2 := a.priority2.toNat, stepsRemoved := a.stepsRemoved.toNat, port := p.val + 1, timeSource := a.timeSource.toNat
        utcOffset := a.utcOffset.toNat, age := 0 }
      (s.ptp.masters.filter fun x => !(decide (x.id = a.id ∧ x.port = p.val + 1)))).take 4 ∧
    t.reg (PTP.COUNT 0) = s.reg (PTP.COUNT 0) + 1 ∧ t.reg (PTP.RX_ANN p.val) = s.reg (PTP.RX_ANN p.val) + 1 ∧ t.tb.now = s.tb.now ∧
    RaisesThen s t [] [0x1101, 0x1102] ∧ SameOutside [.regs, .tb, .ptp, .evr] s t ∧
    RegsOutside ([PTP.COUNT 0, PTP.COUNT 10, PTP.RX_ANN p.val, NET.RX_FRAMES 4, TREF.REF_CLASS_RX 2, TREF.REF_UTC_RX 2, TREF.REF_LEAP_RX 2,
      TB.UTC_OFFSET, TB.LEAP_CTRL] ++ bmcaRegs) s t) ∧
  (∀ (id : Dword) (h : HoldoverEntry) (s : State), s.ptp.masters.any (fun m => decide (m.id = id)) = true →
    ∃ t, exec (.announceReceiptTimeout id h) s = .next t ∧
    t.ptp.masters = (s.ptp.masters.filter fun m => !(decide (m.id = id))).take 4 ∧ t.reg (PTP.COUNT 11) = s.reg (PTP.COUNT 11) + 1 ∧
    (s.ptp.masters.head?.map (·.id) = some id → s.reg PTP.SLAVE_PORT ≠ 0 → (t.ref 2).state = .absent) ∧
    t.tb.now = s.tb.now ∧ SameOutside [.regs, .tb, .ptp, .acq, .evr] s t) ∧
  (∀ (h : HoldoverEntry) (s : State), s.reg PTP.SLAVE_PORT ≠ 0 → ∃ t, exec (.syncReceiptTimeout h) s = .next t ∧ (t.ref 2).state = .absent ∧
    (t.ref 2).valid = 0 ∧ t.ptp.sinceMeasured = none ∧ t.ptp.awaiting = none ∧ t.tb.now = s.tb.now ∧
    SameOutside [.regs, .tb, .ptp, .acq, .evr] s t) ∧
  (∀ (n : Nat) (s : State), s.ptp.configAt = some n → ∃ t, exec .ptpConfigEffect s = .next t ∧
    t.ptp = { s.ptp with ctrl := s.reg PTP.CTRL, domain := s.reg PTP.DOMAIN, intervals := s.reg PTP.INTERVALS, configAt := none } ∧
    t.tb.now = max s.tb.now (n * secUnits) ∧ t.tb.up - s.tb.up = t.tb.now - s.tb.now ∧
    t.tb = { s.tb with now := t.tb.now, up := t.tb.up } ∧ RaisesThen s t [] [0x1101, 0x1102] ∧ SameOutside [.regs, .tb, .clock, .ptp, .evr] s t ∧
    RegsOutside bmcaRegs s t)

/-! ### Run modes, tasks, frames and tacks (chapter 2) -/

/-- A request for RUN or STOP that changes the mode between them (R83): accepted, with the run tick at the first start of a C2 cycle that is at least
100 µs away, which MODE.PEND_SEC and MODE.PEND_NS show; nothing else changes but the protocol's records and what is sent. The other requests
wait, in their order, for the next frame tick (R84), and cancel a pending automatic request (R543). A module that does not lead, and is not OUT, refuses. -/
def Obligations.ModeRequests : Prop :=
  (∀ (p : Pkt) (x : Session) (s : State), Admits s p x → 1 ≤ x.role → s.mayConfigure = true → s.mode = .stop → s.frame.runChange = none →
    s.frame.sw = none → runRefused s = false → ∃ t k, exec (.modeSetRun p) s = .next t ∧ t.replied accepted ∧
    t.frame.runChange = some { toRun := true, tick := k, by_ := some (requesterOf p), confirmed := !(needsConfirm s) } ∧
    s.tb.now + 100000 * nsUnits ≤ k ∧ k < s.tb.now + 1100000 * nsUnits ∧ k % (1000000 * nsUnits) = 0 ∧
    t.frame = { s.frame with autoRun := false, runChange := t.frame.runChange } ∧ t.reg MODE.PEND_SEC = secWord k ∧
    t.reg MODE.PEND_NS = nsWord k ∧ SameOutside [.regs, .frame, .qcp, .sent] s t ∧ RegsOutside [ MODE.PEND_SEC, MODE.PEND_NS] s t) ∧
  (∀ (p : Pkt) (x : Session) (s : State), Admits s p x → 1 ≤ x.role → s.mayConfigure = true → s.mode = .run → s.frame.runChange = none →
    ∃ t k, exec (.modeSetStop p) s = .next t ∧ t.replied accepted ∧
    t.frame.runChange = some { toRun := false, tick := k, by_ := some (requesterOf p), confirmed := !(needsConfirm s) } ∧
    s.tb.now + 100000 * nsUnits ≤ k ∧ k < s.tb.now + 1100000 * nsUnits ∧ k % (1000000 * nsUnits) = 0 ∧
    t.frame = { s.frame with autoRun := false, runChange := t.frame.runChange } ∧ t.reg MODE.PEND_SEC = secWord k ∧
    t.reg MODE.PEND_NS = nsWord k ∧ SameOutside [.regs, .frame, .qcp, .sent] s t ∧ RegsOutside [ MODE.PEND_SEC, MODE.PEND_NS] s t) ∧
  (∀ (p : Pkt) (x : Session) (s : State), Admits s p x → 2 ≤ x.role → s.mayConfigure = true → s.frame.runChange = none →
    (s.mode = .hold ∨ (s.mode = .safe ∧ s.reg MODE.SAFE_CAUSE = 0)) → ∃ t, exec (.modeSetStop p) s = .next t ∧
    (let r : ModeRequest := { mode := .stop, row := if s.mode = .hold then 5 else 9, by_ := some (requesterOf p) }
     t.frame = { s.frame with autoRun := false, modeRequests := s.frame.modeRequests ++ [r] }) ∧ SameOutside [.frame, .qcp] s t) ∧
  (∀ (p : Pkt) (x : Session) (s : State), Admits s p x → (if s.role = .solo then 3 else 2) ≤ x.role →
    ((s.mode = .stop ∧ (s.role = .solo ∨ s.role = .out)) ∨ (s.mode = .run ∧ s.role = .solo)) → ∃ t, exec (.modeSetHold p) s = .next t ∧
    (let r : ModeRequest := { mode := .hold, row := 4, by_ := some (requesterOf p) }
     t.frame = { s.frame with autoRun := false, modeRequests := s.frame.modeRequests ++ [r] }) ∧ SameOutside [.frame, .qcp] s t) ∧
  (∀ (p : Pkt) (x : Session) (s : State), Admits s p x → 1 ≤ x.role → s.mayConfigure = true → s.mode ≠ .safe → ∃ t,
    exec (.modeSetSafe p) s = .next t ∧
    (let r : ModeRequest := { mode := .safe, row := 6, by_ := some (requesterOf p) }
     t.frame = { s.frame with autoRun := false, modeRequests := s.frame.modeRequests ++ [r] }) ∧ SameOutside [.frame, .qcp] s t) ∧
  (∀ (p : Pkt) (x : Session) (s : State), Admits s p x → 1 ≤ x.role → s.mayConfigure = false → ∃ t, exec (.modeSetRun p) s = .next t ∧
    t.replied (refusal .wrongState) ∧ Raises s t [(0x0103, 0xFFFF)] ∧
    t.reg MODE.REFUSALS = BitVec.ofNat 32 (0x30 * 16777216 + (s.regFld MODE.REFUSALS 23 0 + 1) % 16777216) ∧
    SameOutside [.regs, .evr, .qcp, .sent] s t ∧ RegsOutside [ MODE.REFUSALS] s t)

/-- Changes of the run mode (R24, R83 to R86, R543): the run tick makes its change with event 0x0101 and a notice; a module that enters RUN unstepped gives
its first step up; a tick that the STANDBY has not confirmed in time stands for the ACTIVE and sends a STANDBY to TRACK; a fatal fault of the runtime and
a bank that fails its integrity check end RUN and HOLD in SAFE with their causes; the automatic request fixes a run tick at the next frame tick as a
request does. Entry to RUN gives every task its first scan and no instance; leaving it abandons the instances. -/
def Obligations.ModeChanges : Prop :=
  (∀ (c : RunChange) (s : State), s.frame.runChange = some c → c.toRun = true → s.mode = .stop → (s.role = .active ∨ s.role = .solo) →
    runRefused s = false → s.tb.stepped = true ∨ s.tb.stepDue = none → ∃ t, exec .runTick s = .next t ∧ t.mode = .run ∧
    t.frame.runChange = none ∧ t.frame.instances = [] ∧
    t.frame.firstScan = (s.image.map (fun i => i.budgets.map (·.task))).getD [] ∧ t.frame.everRun = true ∧ c.tick ≤ t.tb.now ∧
    t.tb.stepGivenUp = (s.tb.stepGivenUp || !s.tb.stepped) ∧
    t.reg MODE.PEND_SEC = 0 ∧ t.reg MODE.PEND_NS = 0 ∧ t.reg MODE.CHANGE_COUNT = s.reg MODE.CHANGE_COUNT + 1 ∧
    t.reg MODE.LAST_SEC = secWord t.tb.now ∧ t.reg MODE.LAST_NS = nsWord t.tb.now ∧ t.frame.sw = s.frame.sw ∧ t.frame.tacks = s.frame.tacks ∧
    Raises s t [(0x0101, 0xFFFF)] ∧ Notified s t 0x30 c.by_ { status := .done, fields := [secOf c.tick, nsOf c.tick] } ∧
    SameOutside [.regs, .mode, .tb, .clock, .frame, .loop, .io, .evr, .qcp, .sent] s t) ∧
  (∀ (c : RunChange) (s : State), s.frame.runChange = some c → c.toRun = true → s.mode = .stop → (s.role = .active ∨ s.role = .solo) →
    runRefused s = false → s.tb.stepped = false → ∃ t, exec .runTick s = .next t ∧ t.mode = .run ∧ t.frame.runChange = none ∧
    t.tb.stepGivenUp = true ∧ t.tb.stepDue = none ∧ t.tb.stepped = false ∧ c.tick ≤ t.tb.now ∧
    SameOutside [.regs, .mode, .tb, .clock, .ptp, .frame, .loop, .acq, .io, .evr, .qcp, .sent] s t) ∧
  (∀ (c : RunChange) (s : State), s.frame.runChange = some c → c.toRun = false → s.mode = .run →
    (s.role = .active ∨ s.role = .solo ∨ s.role = .standby) → s.frame.sw = none → ∃ t, exec .runTick s = .next t ∧ t.mode = .stop ∧
    t.frame.runChange = none ∧ t.frame.instances = [] ∧ t.frame.run0 = none ∧ t.frame.run1 = none ∧ c.tick ≤ t.tb.now ∧ t.reg MODE.PEND_SEC = 0 ∧
    t.reg MODE.PEND_NS = 0 ∧ t.reg MODE.CHANGE_COUNT = s.reg MODE.CHANGE_COUNT + 1 ∧ Raises s t [(0x0101, 0xFFFF)] ∧
    Notified s t 0x30 c.by_ { status := .done, fields := [secOf c.tick, nsOf c.tick] } ∧
    SameOutside [.regs, .mode, .tb, .clock, .frame, .evr, .qcp, .sent] s t) ∧
  (∀ (c : RunChange) (s : State), s.frame.runChange = some c → ∃ t, exec .runTickConfirmDeadline s = .next t ∧ c.tick - 2 * frameUnits ≤ t.tb.now ∧
    (c.confirmed = true → SameOutside [.tb, .clock] s t) ∧
    (c.confirmed = false → s.role = .standby → t.pair = { s.pair with trackDue := true } ∧ t.frame = { s.frame with runChange := none } ∧
      t.reg MODE.PEND_SEC = 0 ∧ t.reg MODE.PEND_NS = 0 ∧ Notified s t 0x30 c.by_ (refusal .wrongState)) ∧
    (c.confirmed = false → s.role ≠ .standby →
      SameOutside [.tb, .clock, .frame] s t ∧ t.frame = { s.frame with runChange := some { c with confirmed := true } }) ∧
    SameOutside [.regs, .tb, .clock, .frame, .pair, .qcp, .sent] s t ∧ RegsOutside [ MODE.PEND_SEC, MODE.PEND_NS] s t) ∧
  (∀ s : State, s.mode = .run ∨ s.mode = .hold → s.frame.sw = none → s.frame.runChange = none → ∃ t, exec .runtimeFatalFault s = .next t ∧
    t.mode = .safe ∧
    t.regBit MODE.SAFE_CAUSE 3 = true ∧ (∀ i < 32, i ≠ 3 → t.regBit MODE.SAFE_CAUSE i = s.regBit MODE.SAFE_CAUSE i) ∧ t.frame.instances = [] ∧
    t.frame.run0 = none ∧ t.frame.run1 = none ∧ t.lock.restoring = (s.lock.restoring || decide (s.mode = .hold)) ∧
    Raises s t [(0x0101, 0xFFFF), (0x0102, 0xFFFF)] ∧ t.tb.now % frameUnits = 0 ∧ s.tb.now ≤ t.tb.now ∧
    t.tb.now < s.tb.now + frameUnits ∧ SameOutside [.regs, .mode, .tb, .clock, .frame, .lock, .evr] s t) ∧
  (∀ s : State, s.mode = .run ∨ s.mode = .hold → s.frame.sw = none → s.frame.runChange = none → ∃ t, exec .imageIntegrityFailure s = .next t ∧
    t.mode = .safe ∧
    t.regBit MODE.SAFE_CAUSE 4 = true ∧ (∀ i < 32, i ≠ 4 → t.regBit MODE.SAFE_CAUSE i = s.regBit MODE.SAFE_CAUSE i) ∧ t.frame.instances = [] ∧
    t.frame.run0 = none ∧ t.frame.run1 = none ∧ t.lock.restoring = (s.lock.restoring || decide (s.mode = .hold)) ∧
    Raises s t [(0x0101, 0xFFFF), (0x0102, 0xFFFF)] ∧ t.tb.now % frameUnits = 0 ∧ s.tb.now ≤ t.tb.now ∧
    t.tb.now < s.tb.now + frameUnits ∧ SameOutside [.regs, .mode, .tb, .clock, .frame, .lock, .evr] s t) ∧
  (∀ s : State, s.frame.autoRun = true → s.mode = .stop → runRefused s = false → s.frame.runChange = none → ∃ t k,
    exec .autoRunRequest s = .next t ∧ t.frame.runChange = some { toRun := true, tick := k, by_ := none, confirmed := !(needsConfirm s) } ∧
    t.tb.now + 100000 * nsUnits ≤ k ∧ k < t.tb.now + 1100000 * nsUnits ∧ k % (1000000 * nsUnits) = 0 ∧
    t.tb.now % frameUnits = 0 ∧ s.tb.now ≤ t.tb.now ∧ t.tb.now < s.tb.now + frameUnits ∧
    t.frame = { s.frame with autoRun := false, runChange := t.frame.runChange } ∧ t.reg MODE.PEND_SEC = secWord k ∧
    t.reg MODE.PEND_NS = nsWord k ∧ SameOutside [.regs, .tb, .clock, .frame, .sent] s t ∧ RegsOutside [ MODE.PEND_SEC, MODE.PEND_NS] s t)

/-- The life of a task instance (R62, R66 to R68, R78, R111 to R113): the compute window opens at 0.800 µs and closes at 7.500 µs of the frame, once in
each, when a running task is suspended; the instance that runs and completes within its budget holds its writes and what it evaluated for its commit
frame, and beyond its budget it is stopped; a releasing event of an E task sets its release for the next tick, is deferred by the task's interarrival
with event 0x2104, and merges into a deferral; an instance that its budget stops is an overrun, event 0x2101. -/
def Obligations.TaskInstances : Prop :=
  (∀ s : State, s.frame.stage = 0 → verdictDue s = false → ∃ t, exec .computeWindowOpen s = .next t ∧ t.frame.stage = 1 ∧
    s.frame.t0 + 800 * nsUnits ≤ t.tb.now ∧ t.frame.run0 = nextToRun s 0 ∧ t.frame.run1 = nextToRun s 1 ∧
    t.frame.instances = s.frame.instances.map (fun x => { x with view := some (x.view.getD (pointsNow s)) }) ∧ SameOutside [.tb, .clock, .frame] s t) ∧
  (∀ s : State, s.frame.stage ≠ 0 → exec .computeWindowOpen s = .next s) ∧
  (∀ s : State, s.frame.stage = 1 → ∃ t, exec .computeWindowClose s = .next t ∧ s.frame.t0 + 7500 * nsUnits ≤ t.tb.now ∧
    t.frame = { s.frame with stage := 2, run0 := none, run1 := none, end0 := none, end1 := none } ∧
    (s.frame.run0.isSome → t.reg (FRAME.COMPUTE_END_MAX 0) = maxWord (s.reg (FRAME.COMPUTE_END_MAX 0)) 3000) ∧
    (s.frame.run1.isSome → t.reg (FRAME.COMPUTE_END_MAX 1) = maxWord (s.reg (FRAME.COMPUTE_END_MAX 1)) 3000) ∧
    SameOutside [.regs, .tb, .clock, .frame] s t ∧
    RegsOutside (FRAME.COMPUTE_END_MAX 0 :: FRAME.COMPUTE_END_MAX 1 :: (List.range 16).flatMap fun b => [FRAME.HIST 0 b, FRAME.HIST 1 b]) s t) ∧
  (∀ s : State, s.frame.stage ≠ 1 → exec .computeWindowClose s = .next s) ∧
  (∀ (n : Fin 16) (r : TaskResult) (b : Budget) (y : TaskInstance) (m : List (Nat × Storage)) (s : State),
    s.image.bind (fun i => taskIn i n.val) = some b → s.frame.instances = [y] → y.task = n.val → y.done = false → y.stopped = false →
    s.frame.stage = 1 → runningOn s b.core = some n.val → 320 ≤ r.finish → r.finish ≤ 3000 → readsFit y r = true →
    evaluateAll y.released s.frame.store r.evaluations = some m → r.time ≤ b.budget → ∃ t, exec (.taskInstanceComplete n r) s = .next t ∧
    (let z := { y with done := true, writes := r.writes, stores := evaluatedStores m r.evaluations, tacks := r.tacks }
     t.frame.instances = [{ z with cancels := r.cancels, flags := r.flags }]) ∧
    t.reg (TASK.LAST n.val) = satWord r.time ∧ t.reg (TASK.MAX n.val) = maxWord (s.reg (TASK.MAX n.val)) (satWord r.time) ∧
    t.reg (TASK.RESP_MAX n.val) = maxWord (s.reg (TASK.RESP_MAX n.val)) (satWord ((s.frame.t0 - y.released) / nsUnits + r.finish * 5 / 2)) ∧
    t.frame.points = s.frame.points ∧ t.frame.store = s.frame.store ∧ runningOn t b.core = none ∧ SameOutside [.regs, .tb, .clock, .frame] s t ∧
    RegsOutside [TASK.LAST n.val, TASK.MAX n.val, TASK.RESP_MAX n.val] s t) ∧
  (∀ (n : Fin 16) (r : TaskResult) (b : Budget) (y : TaskInstance) (m : List (Nat × Storage)) (s : State),
    s.image.bind (fun i => taskIn i n.val) = some b → s.frame.instances = [y] → y.task = n.val → y.done = false → y.stopped = false →
    s.frame.stage = 1 → runningOn s b.core = some n.val → 320 ≤ r.finish → r.finish ≤ 3000 → readsFit y r = true →
    evaluateAll y.released s.frame.store r.evaluations = some m → b.budget < r.time → ∃ t, exec (.taskInstanceComplete n r) s = .next t ∧
    t.frame.instances = [{ y with stopped := true }] ∧ t.reg (TASK.MAX n.val) = maxWord (s.reg (TASK.MAX n.val)) (satWord b.budget) ∧
    t.reg (TASK.LAST n.val) = s.reg (TASK.LAST n.val) ∧ t.frame.points = s.frame.points ∧ t.frame.store = s.frame.store ∧
    SameOutside [.regs, .tb, .clock, .frame, .evr] s t ∧ RegsOutside [TASK.MAX n.val, TASK.FAULTS n.val, MODE.OVR_INFO, MODE.OVR_INDEX] s t) ∧
  (∀ (n : Fin 16) (stamp : Instant) (b : Budget) (s : State), s.executing = true → s.image.bind (fun i => taskIn i n.val) = some b → b.cls = 6 →
    (s.eTask n.val).due.any (·.deferred) = false → ∃ t, exec (.eTaskReleaseEvent n stamp) s = .next t ∧
    t.frame.ownItems = s.frame.ownItems ++ [.release n.val stamp] ∧
    (∀ l, (s.eTask n.val).latest = some l → s.frameNo + 1 < l + b.interarrival →
      (t.eTask n.val).due = (s.eTask n.val).due ++ [{ frame := l + b.interarrival, stamp := some stamp, deferred := true }] ∧
      Raises s t [(0x2104, n.val)]) ∧
    ((∀ l, (s.eTask n.val).latest = some l → l + b.interarrival ≤ s.frameNo + 1) →
      (t.eTask n.val).due = (s.eTask n.val).due ++ [{ frame := s.frameNo + 1, stamp := some stamp }] ∧ Raises s t []) ∧
    (∀ m, m ≠ n.val → t.eTask m = s.eTask m) ∧ SameOutside [.frame, .evr] s t) ∧
  (∀ (n : Fin 16) (stamp : Instant) (b : Budget) (s : State), s.executing = true → s.image.bind (fun i => taskIn i n.val) = some b → b.cls = 6 →
    (s.eTask n.val).due.any (·.deferred) = true → ∃ t, exec (.eTaskReleaseEvent n stamp) s = .next t ∧
    t.regFld (TASK.FAULTS n.val) 31 16 = min 65535 (s.regFld (TASK.FAULTS n.val) 31 16 + 1) ∧ (∀ m, t.eTask m = s.eTask m) ∧
    SameOutside [.regs, .frame] s t ∧ RegsOutside [TASK.FAULTS n.val] s t) ∧
  (∀ (n : Fin 16) (b : Budget) (y : TaskInstance) (s : State), s.image.bind (fun i => taskIn i n.val) = some b → s.frame.instances = [y] →
    y.task = n.val → y.done = false → y.stopped = false → s.frame.stage = 1 → runningOn s b.core = some n.val → partnerShares s = false →
    s.role ≠ .track → s.role ≠ .out → s.mode ≠ .safe → ∃ t, exec (.budgetStop n) s = .next t ∧
    t.frame.instances = [{ y with stopped := true }] ∧ (b.cls, BitVec.ofNat 32 y.index) ∈ t.frame.reports ∧
    t.reg MODE.OVR_INDEX = BitVec.ofNat 32 y.index ∧ t.regFld MODE.OVR_INFO 23 20 = 2 ∧ t.frame.decision.isSome = true ∧
    t.reg (TASK.MAX n.val) = maxWord (s.reg (TASK.MAX n.val)) (satWord b.budget) ∧
    Raises s t [(0x2101, n.val), (0x2103, 0xFFFF)] ∧ SameOutside [.regs, .frame, .evr] s t ∧
    RegsOutside [TASK.MAX n.val, TASK.FAULTS n.val, MODE.OVR_INFO, MODE.OVR_INDEX] s t)

/-- The frame (R15, R61, R233, R257, R514): a frame tick that is not held up begins the next frame at its instant and counts it; one that is held up by a
due restart or a power loss only lets the time pass. The output commit at 9.500 µs, once in a frame and after the compute window, sends the module's
heartbeat with its role and mode, unless the module has cut its outputs off; a commit after a power loss or a comparator fault has begun does nothing.
An overrun window that has ended takes the partner's silence or its heartbeat (R79, Table FX-9). -/
def Obligations.FramesPass : Prop :=
  (∀ (i : FrameInput) (s : State), frameHalted s = false → ∃ t, exec (.frameTick i) s = .next t ∧ t.frame.t0 = frameTickAt s ∧
    t.frame.count = s.frame.count + 1 ∧ t.frame.stage = 0) ∧
  (∀ s : State, s.frame.stepped = false → s.tb.now ≤ s.frame.t0 + frameUnits → s.frame.t0 % frameUnits = 0 →
    frameTickAt s = s.frame.t0 + frameUnits) ∧
  (∀ (i : FrameInput) (s : State), frameHalted s = true → ∃ t, exec (.frameTick i) s = .next t ∧ frameTickAt s ≤ t.tb.now ∧
    SameOutside [.tb, .clock] s t) ∧
  (∀ (recheck : Bool) (mirrored : Half) (s : State), s.frame.stage = 2 → s.committing = false → s.regBit LOCK.STATUS 31 = false →
    s.lock.cutOff = false → ∃ t, exec (.outputCommit recheck mirrored) s = .next t ∧
    s.frame.t0 + 9500 * nsUnits ≤ t.tb.now ∧ t.role = s.role ∧ t.mode = s.mode ∧ t.frame.stage = 3 ∧
    ∃ m ∈ t.sent, m.kind = Message.heartbeat ∧ m.fields.head? = some s.pair.baseId.toNat ∧
      m.fields[1]? = some (s.role.code * 16 + s.mode.code) ∧ m.fields[3]? = some (s.timeIndex 0)) ∧
  (∀ (recheck : Bool) (mirrored : Half) (s : State), s.frame.stage ≠ 2 ∨ s.committing = true ∨ s.regBit LOCK.STATUS 31 = true →
    exec (.outputCommit recheck mirrored) s = .next s) ∧
  (∀ (c : OverrunCase) (s : State), s.frame.overruns = [c] → c.waiting = false → c.ends ≤ s.frame.count → ∃ t,
    exec .overrunWindowExpiry s = .next t ∧
    (c.heard = false → t.frame = { s.frame with overruns := [{ c with waiting := true }] } ∧ t.regs = s.regs ∧ Raises s t []) ∧
    (c.heard = true → t.frame.overruns = []) ∧
    (c.heard = true → s.mode ≠ .safe → s.role ≠ .out →
      t.frame.decision = some (s.frame.decision.elim OverrunResult.out fun d => if d = .out then .out else d) ∧
      t.regFld MODE.OVR_INFO 23 20 = 1 ∧ Raises s t [(0x2102, 0xFFFF)] ∧ RegsOutside [ MODE.OVR_INFO] s t) ∧
    SameOutside [.regs, .frame, .evr] s t) ∧
  (∀ (c : OverrunCase) (s : State), s.frame.overruns = [c] → s.frame.count < c.ends → ∃ t, exec .overrunWindowExpiry s = .next t ∧
    t.frame.overruns = [c] ∧ t.frame.decision = s.frame.decision ∧ SameOutside [.frame] s t)

/-- Tacks (R90 to R96): an accepted request takes the next identity and its place by time; a tack sent at the last moment, or unknown, is not
cancelled; a hardware tack acts at its time, a digital output edge only in RUN on a channel that the tack queue owns, and is discarded
with event 0x2012 otherwise. -/
def Obligations.TackQueue : Prop :=
  (∀ (p : Pkt) (x : Session) (k : TackRequest) (b : Option (BitVec 256)) (s : State), Admits s p x → tackAuthority s k ≤ x.role →
    tackParams s k = none → tackRefusal s k b = none → k.action ≠ 6 → ∃ t, exec (.tackSchedule p k b) s = .next t ∧
    t.replied (doneWith [s.frame.nextTack.toNat]) ∧
    t.frame.tacks = insertTack (Tack.mk s.frame.nextTack (k.sec * secUnits + k.ns * nsUnits + k.frac * 65536) k.action k.target k.value none)
      s.frame.tacks ∧
    t.frame = { s.frame with tacks := t.frame.tacks, nextTack := t.frame.nextTack } ∧
    (s.frame.tacks = [] → s.frame.nextTack.toNat < 0xFFFFFFFE → t.frame.nextTack = s.frame.nextTack + 1) ∧
    SameOutside [.frame, .qcp, .sent] s t) ∧
  (∀ (p : Pkt) (x : Session) (k : TackRequest) (b : Option (BitVec 256)) (r : Reply) (s : State), Admits s p x → tackAuthority s k ≤ x.role →
    tackParams s k = some r → ∃ t, exec (.tackSchedule p k b) s = .next t ∧ t.replied r ∧
    t.reg FRAME.TACK_REFUSED = s.reg FRAME.TACK_REFUSED + 1 ∧ SameOutside [.regs, .qcp, .sent] s t ∧ RegsOutside [FRAME.TACK_REFUSED] s t) ∧
  (∀ (p : Pkt) (x : Session) (id : Word) (k : Tack) (s : State), Admits s p x → 1 ≤ x.role → s.mayConfigure = true →
    s.frame.tacks.find? (fun t => t.id = id) = some k → k.owner = none → s.tb.now + s.tackLead ≤ k.time → s.frame.sw = none →
    ∃ t, exec (.tackCancel p id) s = .next t ∧ t.replied done ∧ t.frame = { s.frame with tacks := s.frame.tacks.filter (fun t => t.id ≠ id) } ∧
    t.reg FRAME.TACK_CANCELLED = s.reg FRAME.TACK_CANCELLED + 1 ∧ SameOutside [.regs, .frame, .qcp, .sent] s t ∧
    RegsOutside [FRAME.TACK_CANCELLED] s t) ∧
  (∀ (p : Pkt) (x : Session) (id : Word) (s : State), Admits s p x → 1 ≤ x.role → s.mayConfigure = true →
    s.frame.tacks.find? (fun t => t.id = id) = none → ∃ t, exec (.tackCancel p id) s = .next t ∧ t.replied (refusal .badParameter) ∧
    SameOutside [.qcp, .sent] s t) ∧
  (∀ (p : Pkt) (x : Session) (first : Word) (s : State), Admits s p x → ∃ t r, exec (.tackList p first) s = .next t ∧ t.replied r ∧
    r.status = .done ∧ (s.frame.tacks = [] → r.fields = [0, 0] ∧ r.payload = []) ∧
    (∀ k, s.frame.tacks = [k] → first.toNat ≤ k.id.toNat → r.fields = [1, 0] ∧ r.payload = tackEntry k) ∧ SameOutside [.qcp, .sent] s t) ∧
  (∀ (k : Tack) (s : State), nextHardware s = some k → ∃ t, exec .tackDueHardware s = .next t ∧ tackInstant s k ≤ t.tb.now ∧
    t.frame.tacks = s.frame.tacks.filter (fun y => y.id ≠ k.id) ∧
    (k.action = 1 → s.mode ≠ .run → t.reg FRAME.TACK_DISCARDED = s.reg FRAME.TACK_DISCARDED + 1 ∧ Raises s t [(0x2012, 0xFFFF)] ∧ t.io = s.io) ∧
    (k.action = 1 → s.mode = .run → tackChannel s k.target = true → (t.dio k.target).latch = decide (k.value.toNat = 1) ∧
      t.reg FRAME.TACK_EXECUTED = s.reg FRAME.TACK_EXECUTED + 1) ∧
    (k.action = 2 → t.reg FRAME.TACK_EXECUTED = s.reg FRAME.TACK_EXECUTED + 1 ∧ t.io = s.io) ∧
    SameOutside [.regs, .tb, .clock, .frame, .trg, .io, .evr, .sent] s t)

/-! ### Control images and the image switch (chapters 2 and 3) -/

/-- An upload of a control image (R103, R104, R338 to R340, Table FX-7): it opens the other bank, takes the chunks in order, and is verified over its bytes
in the order digest, header, signature, security version; the bank then is VERIFIED with event 0x604A, or EMPTY with the refusal in the notice. A STANDBY
takes no upload from a session. An abort ends the upload, and with handle 0 cancels a pending switch (R121). -/
def Obligations.ImageUpload : Prop :=
  (∀ (p : Pkt) (x : Session) (size : Word) (digest : BitVec 256) (s : State), Admits s p x → 2 ≤ x.role → s.lockBit 1 = false → 1 ≤ size.toNat →
    size.toNat ≤ 67108864 → s.role ≠ .standby → s.frame.sw = none → s.bankState s.otherBank ≠ 1 → s.handleCount p.session true < 2 → ∃ t,
    exec (.imageBegin p size digest) s = .next t ∧
    t.replied (doneWith [s.qcp.nextHandle, (size.toNat + 1343) / 1344, s.otherBank]) ∧ t.reg (IMG.B_STATE s.otherBank) = 1 ∧
    t.reg (IMG.B_SIZE s.otherBank) = size ∧ t.bankDigest s.otherBank = digest ∧ t.bankImage s.otherBank = none ∧
    t.bankImage s.frame.runBank = s.bankImage s.frame.runBank ∧ SameOutside [.regs, .frame, .qcp, .sent] s t ∧
    RegsOutside (IMG.B_STATE s.otherBank :: IMG.B_SIZE s.otherBank :: (List.range 8).map (IMG.B_DIGEST s.otherBank)) s t) ∧
  (∀ (p : Pkt) (x : Session) (handle index : Word) (data : List Byte) (h : Handle) (b : Nat) (s : State), Admits s p x → 2 ≤ x.role → s.role ≠ .standby →
    imageHandle s handle (requesterOf p) = some (h, b) → h.ahead = [] → index.toNat = h.next → index.toNat + 1 < h.chunks → data.length = 1344 →
    ∃ t, exec (.imageChunk p handle index data) s = .next t ∧ t.replied (doneWith [h.id, h.next + 1]) ∧ SameOutside [.qcp, .sent] s t) ∧
  (∀ (p : Pkt) (x : Session) (handle index : Word) (data : List Byte) (s : State), Admits s p x → 2 ≤ x.role → s.role = .standby →
    (∃ t, exec (.imageChunk p handle index data) s = .next t ∧ t.replied (refusal .wrongState) ∧ SameOutside [.qcp, .sent] s t) ∧
    (∃ t, exec (.imageCommit p handle) s = .next t ∧ t.replied (refusal .wrongState) ∧ SameOutside [.qcp, .sent] s t)) ∧
  (∀ (p : Pkt) (x : Session) (handle : Word) (h : Handle) (b : Nat) (s : State), Admits s p x → 2 ≤ x.role → s.role ≠ .standby →
    imageHandle s handle (requesterOf p) = some (h, b) →
    (h.next < h.chunks → ∃ t, exec (.imageCommit p handle) s = .next t ∧ t.replied (refusal .outOfSequence 0 h.next) ∧
      SameOutside [.qcp, .sent] s t) ∧
    (h.chunks ≤ h.next → ∃ t, exec (.imageCommit p handle) s = .next t ∧ t.replied accepted ∧
      t.frame = { s.frame with verification := some { size := h.size, digest := h.digest, bytes := joinChunks h.stored, by_ := some (requesterOf p) } } ∧
      (∀ k ∈ t.qcp.handles, k.id ≠ h.id) ∧ SameOutside [.frame, .qcp, .sent] s t)) ∧
  (∀ (v : Verification) (r : ImageVerdict) (s : State), s.frame.verification = some v → verifyRefusal s v = none → ∃ t,
    exec (.imageVerifyComplete r) s = .next t ∧ t.reg (IMG.B_STATE s.otherBank) = 2 ∧
    t.bankImage s.otherBank = some (imageOf s v.bytes r) ∧ t.bankImage s.frame.runBank = s.bankImage s.frame.runBank ∧
    t.reg (IMG.B_VER s.otherBank) = BitVec.ofNat 32 (headField v.bytes 12 4) ∧ t.reg (IMG.B_BUILD s.otherBank) = BitVec.ofNat 32 (headField v.bytes 24 4) ∧
    t.reg IMG.LOAD_COUNT = s.reg IMG.LOAD_COUNT + 1 ∧ t.frame.verification = none ∧
    Notified (s.count fun c => { c with transfers := c.transfers + 1 }) t 0x22 v.by_ done ∧
    (∀ q, v.by_ = some q → q.session ≠ 0 → Raises s t [(0x604A, q.session.toNat % 65536)]) ∧ SameOutside [.regs, .frame, .evr, .qcp, .sent] s t) ∧
  (∀ (v : Verification) (r : ImageVerdict) (e : Reply) (s : State), s.frame.verification = some v → verifyRefusal s v = some e → ∃ t,
    exec (.imageVerifyComplete r) s = .next t ∧ t.reg (IMG.B_STATE s.otherBank) = 0 ∧ t.frame.verification = none ∧
    t.regBit SEC.ALARM 0 = (s.regBit SEC.ALARM 0 || decide (e.reason = 0x03)) ∧ Notified s t 0x22 v.by_ e ∧ Raises s t [] ∧
    SameOutside [.regs, .frame, .qcp, .sent] s t ∧ RegsOutside [IMG.B_STATE s.otherBank, SEC.ALARM] s t) ∧
  (∀ (v : Verification) (s : State), imageSealed v.bytes = false →
    (sm3 v.bytes ≠ v.digest → verifyRefusal s v = some (refusal .badParameter 0x01)) ∧
    (sm3 v.bytes = v.digest → headerOk v.bytes v.size = false ∨ sectionsOk v.bytes v.size = false →
      verifyRefusal s v = some (refusal .badParameter 0x02)) ∧
    (sm3 v.bytes = v.digest → headerOk v.bytes v.size = true → sectionsOk v.bytes v.size = true → imageSigned s v.bytes = false →
      verifyRefusal s v = some (refusal .notAuthorized 0x03)) ∧
    (sm3 v.bytes = v.digest → headerOk v.bytes v.size = true → sectionsOk v.bytes v.size = true → imageSigned s v.bytes = true →
      headField v.bytes 12 1 < s.regFld SEC.QIM_FLOOR 7 0 → verifyRefusal s v = some (refusal .replayed 0x04))) ∧
  (∀ (p : Pkt) (x : Session) (w : Switch) (s : State), Admits s p x → 2 ≤ x.role → s.role ≠ .standby → s.frame.sw = some w → w.tick = none →
    w.tack = none → ∃ t, exec (.imageAbort p 0) s = .next t ∧ t.replied done ∧ t.frame.sw = none ∧
    t.frame.tacks = s.frame.tacks ∧ (s.frame.eTasks = [] → t.regs = s.regs) ∧ RaisesBefore s t [0x2104] [(0x2206, 0xFFFF)] ∧
    SameOutside [.regs, .frame, .evr, .qcp, .sent] s t) ∧
  (∀ (p : Pkt) (x : Session) (handle : Word) (h : Handle) (b : Nat) (s : State), Admits s p x → 2 ≤ x.role → s.role ≠ .standby → handle ≠ 0 →
    imageHandle s handle (requesterOf p) = some (h, b) → ∃ t, exec (.imageAbort p handle) s = .next t ∧ t.replied done ∧
    (∀ k ∈ t.qcp.handles, k.id ≠ h.id) ∧ t.reg (IMG.B_STATE b) = 0 ∧ (h.session ≠ 0 → Raises s t [(0x604B, h.session.toNat % 65536)]) ∧
    SameOutside [.regs, .evr, .qcp, .sent] s t ∧ RegsOutside [IMG.B_STATE b] s t)

/-- Admission (R74, R77): accepted on a bank that is VERIFIED, ADMITTED or REFUSED; its success writes every task's response time and the
utilisations, and leaves the bank ADMITTED with event 0x2202; its failure writes what failed and leaves it REFUSED with event 0x2201. In a pair
both modules must admit with equal response times: otherwise the STANDBY's bank is REFUSED and the notice says INCOMPATIBLE (R104). -/
def Obligations.ImageAdmission : Prop :=
  (∀ (p : Pkt) (x : Session) (s : State), Admits s p x → 2 ≤ x.role → s.role ≠ .standby → 2 ≤ s.bankState s.otherBank → s.frame.admission = none →
    s.frame.sw = none → ∃ t, exec (.imageAdmit p) s = .next t ∧ t.replied accepted ∧
    t.frame = { s.frame with admission := some (some (requesterOf p)) } ∧ SameOutside [.frame, .qcp, .sent] s t) ∧
  (∀ (p : Pkt) (x : Session) (s : State), Admits s p x → 2 ≤ x.role → s.role = .standby ∨ s.bankState s.otherBank < 2 → ∃ t, exec (.imageAdmit p) s = .next t ∧
    t.replied (refusal .wrongState) ∧ SameOutside [.qcp, .sent] s t) ∧
  (∀ (by_ : Option Requester) (i : Image) (a : Admitted) (s : State), s.frame.admission = some by_ → s.bankImage s.otherBank = some i →
    admitImage s s.otherBank i = .ok a → ∃ t, exec (.admissionComplete none) s = .next t ∧ t.reg (IMG.B_STATE s.otherBank) = 3 ∧
    t.reg (IMG.B_UTIL s.otherBank) = BitVec.ofNat 32 (a.util1 * 65536 + a.util0) ∧
    (∀ n < 16, t.reg (IMG.RESP n) = BitVec.ofNat 32 (((a.resp.find? (fun y => y.1 = n)).map (·.2)).getD 0)) ∧
    t.frame = { s.frame with admission := none } ∧ Raises s t [(0x2202, 0xFFFF)] ∧ Notified s t 0x23 by_ done ∧
    SameOutside [.regs, .frame, .evr, .qcp, .sent] s t ∧
    RegsOutside (IMG.B_STATE s.otherBank :: IMG.B_UTIL s.otherBank :: NET.QSP_LOAD_ADMIT :: (List.range 16).map IMG.RESP) s t) ∧
  (∀ (by_ : Option Requester) (i : Image) (a : Admitted) (q : PartnerAdmission) (s : State), s.frame.admission = some by_ →
    s.bankImage s.otherBank = some i → admitImage s s.otherBank i = .ok a → ∃ t, exec (.admissionComplete (some q)) s = .next t ∧
    t.frame = { s.frame with admission := none } ∧
    (q.ok = true → sameResponses a.resp q.resp = true →
      t.reg (IMG.B_STATE s.otherBank) = 3 ∧ Notified s t 0x23 by_ done) ∧
    (q.ok = false ∨ sameResponses a.resp q.resp = false → s.role ≠ .standby →
      t.reg (IMG.B_STATE s.otherBank) = 3 ∧ Notified s t 0x23 by_ (refusal .incompatible)) ∧
    (q.ok = false ∨ sameResponses a.resp q.resp = false → s.role = .standby →
      t.reg (IMG.B_STATE s.otherBank) = 5 ∧ t.qcp = s.qcp) ∧
    SameOutside [.regs, .frame, .evr, .qcp, .sent] s t) ∧
  (∀ (by_ : Option Requester) (i : Image) (e : AdmitRefusal) (s : State), s.frame.admission = some by_ → s.bankImage s.otherBank = some i →
    admitImage s s.otherBank i = .error e → e.status = .budgetExceeded → ∃ t, exec (.admissionComplete none) s = .next t ∧
    t.reg (IMG.B_STATE s.otherBank) = 5 ∧
    t.reg IMG.ADMIT_RESULT = BitVec.ofNat 32 (0x33 * 16777216 + e.reason * 65536 + e.task * 256 + e.core) ∧
    t.reg IMG.ADMIT_VALUE = BitVec.ofNat 32 e.value ∧ t.reg IMG.ADMIT_LIMIT = BitVec.ofNat 32 e.limit ∧
    t.reg IMG.REFUSE_COUNT = s.reg IMG.REFUSE_COUNT + 1 ∧ t.frame = { s.frame with admission := none } ∧ Raises s t [(0x2201, 0xFFFF)] ∧
    Notified s t 0x23 by_ (refusal .budgetExceeded e.reason (t.reg IMG.ADMIT_RESULT).toNat) ∧
    SameOutside [.regs, .frame, .evr, .qcp, .sent] s t ∧
    RegsOutside [IMG.B_STATE s.otherBank, IMG.ADMIT_RESULT, IMG.ADMIT_VALUE, IMG.ADMIT_LIMIT, IMG.REFUSE_COUNT] s t)

/-- The image switch (R103, R107, R110, R115 to R127, Tables OC-5 and OC-6): accepted, prepared, its tick fixed at least 1 ms ahead on a cycle start with
event 0x2203; an unconfirmed tick cancels it with event 0x2206; the flip's verdict is formed in the guard of the switch frame, a failure for each of three
reasons in their order; the verdicts make the other bank the running one with event 0x2204, its storage moved by the migration table, or keep the old
image with event 0x2205, and send a STANDBY whose verdict was not exchanged to TRACK. -/
def Obligations.ImageSwitching : Prop :=
  (∀ (p : Pkt) (x : Session) (b : Option (BitVec 256)) (s : State), Admits s p x → 2 ≤ x.role → switchRefusal s b false = none → ∃ t,
    exec (.imageSwitch p b) s = .next t ∧ t.replied accepted ∧ t.frame = { s.frame with sw := some { by_ := some (requesterOf p), tack := none } } ∧
    SameOutside [.frame, .qcp, .sent] s t) ∧
  (∀ (p : Pkt) (x : Session) (b : Option (BitVec 256)) (r : Reply) (s : State), Admits s p x → 2 ≤ x.role → switchRefusal s b false = some r →
    ∃ t, exec (.imageSwitch p b) s = .next t ∧ t.replied r ∧ SameOutside [.qcp, .sent] s t) ∧
  (∀ (w : Switch) (s : State), s.frame.sw = some w → w.tick = none → w.tack = none → s.role ≠ .standby → ∃ t k, exec .switchPrepared s = .next t ∧
    t.frame.sw = some { w with prepared := true, tick := some k, confirmed := !(needsConfirm s) } ∧ t.frame = { s.frame with sw := t.frame.sw } ∧
    s.tb.now + msUnits ≤ k ∧ k % ((if s.mode = .stop then 1 else longestCycle s) * frameUnits) = 0 ∧
    k < s.tb.now + msUnits + (if s.mode = .stop then 1 else longestCycle s) * frameUnits ∧ Raises s t [(0x2203, 0xFFFF)] ∧
    SameOutside [.frame, .evr, .sent] s t) ∧
  (∀ (w : Switch) (s : State), s.frame.sw = some w → w.tick = none → s.role = .standby → ∃ t, exec .switchPrepared s = .next t ∧
    t.frame = { s.frame with sw := some { w with prepared := true } } ∧ SameOutside [.frame, .sent] s t) ∧
  (∀ (w : Switch) (k : Nat) (s : State), s.frame.sw = some w → w.tick = some k → w.tack = none → w.confirmed = false → s.role ≠ .standby → ∃ t,
    exec .switchTickConfirmDeadline s = .next t ∧ k - 2 * frameUnits ≤ t.tb.now ∧ t.frame.sw = none ∧ t.frame.tacks = s.frame.tacks ∧
    t.frame.runBank = s.frame.runBank ∧ (s.frame.eTasks = [] → t.regs = s.regs) ∧ RaisesBefore s t [0x2104] [(0x2206, 0xFFFF)] ∧
    SameOutside [.regs, .tb, .clock, .frame, .evr, .qcp, .sent] s t) ∧
  (∀ (w : Switch) (k : Nat) (s : State), s.frame.sw = some w → w.tick = some k → w.confirmed = true → ∃ t,
    exec .switchTickConfirmDeadline s = .next t ∧ k - 2 * frameUnits ≤ t.tb.now ∧ SameOutside [.tb, .clock] s t) ∧
  (∀ (w : Switch) (acknowledged tableOk : Bool) (s : State), s.frame.sw = some w → w.tick = some (s.frame.t0 + frameUnits) → s.frame.stage = 3 →
    w.verdict = none → s.regBit LOCK.STATUS 31 = false → ∃ t,
    exec (.switchFlip acknowledged tableOk) s = .next t ∧ s.frame.t0 + 9900 * nsUnits ≤ t.tb.now ∧
    (acknowledged = false → t.frame.sw = some { w with verdict := some (.fail 0x10) }) ∧
    (acknowledged = true → tableOk = false → t.frame.sw = some { w with verdict := some (.fail 0x11) }) ∧
    (acknowledged = true → tableOk = true → w.overrun = true → t.frame.sw = some { w with verdict := some (.fail 0x12) }) ∧
    (acknowledged = true → tableOk = true → w.overrun = false → t.frame.sw = some { w with verdict := some .ok }) ∧
    t.frame = { s.frame with sw := t.frame.sw } ∧ SameOutside [.tb, .clock, .frame] s t) ∧
  (∀ (acknowledged tableOk : Bool) (s : State), s.regBit LOCK.STATUS 31 = true → exec (.switchFlip acknowledged tableOk) s = .next s) ∧
  (∀ (w : Switch) (v : FlipVerdict) (partner : Option Bool) (delivered : Bool) (reason : Nat) (track : Bool) (s : State), s.frame.sw = some w →
    w.verdict = some v →
    (s.role ≠ .standby ∧ track = false ∧ (v = .fail reason ∨ v = .ok ∧ reason = 0x13 ∧ needsConfirm s = true ∧ partner = some false)) ∨
      (s.role = .standby ∧ (v = .ok ∧ reason = 0x13 ∧ partner ≠ some true ∧ track = partner.isNone ∨
        v = .fail reason ∧ track = (decide (partner ≠ some false) && !delivered))) →
    ∃ t, exec (.switchOutcome partner delivered) s = .next t ∧ t.frame.sw = none ∧ t.frame.runBank = s.frame.runBank ∧ t.image = s.image ∧
    t.frame.points = s.frame.points ∧ t.frame.store = s.frame.store ∧ t.frame.retained = s.frame.retained ∧
    t.pair = { s.pair with trackDue := s.pair.trackDue || track } ∧
    (reason = 0x10 ∨ reason = 0x11 → s.otherBank < 2 → t.reg (IMG.B_STATE s.otherBank) = 5) ∧
    (s.frame.eTasks = [] → s.executing = false → (reason ≠ 0x10 → reason ≠ 0x11 → t.regs = s.regs) ∧ Raises s t [(0x2205, s.otherBank)]) ∧
    Notified s t 0x24 w.by_ (switchNotice (switchStatus reason) reason s.frame.runBank w.tick [0, 0, 0])) ∧
  (∀ (w : Switch) (new : Image) (partner : Option Bool) (delivered : Bool) (s : State), s.frame.sw = some w → w.verdict = some .ok →
    (if s.role = .standby then partner = some true else needsConfirm s = false ∨ partner ≠ some false) → s.bankImage s.otherBank = some new →
    s.frame.runBank < 2 → (∀ b ∈ new.budgets, b.task < 16) → ∃ t,
    exec (.switchOutcome partner delivered) s = .next t ∧ t.frame.sw = none ∧ t.frame.runBank = s.otherBank ∧ t.reg (IMG.B_STATE s.otherBank) = 4 ∧
    t.reg IMG.SWITCH_COUNT = s.reg IMG.SWITCH_COUNT + 1 ∧ t.frame.store = migrate s.frame.store new ∧
    t.frame.retained = retentivePart new (migrate s.frame.retained new) ∧ t.image = some new ∧
    (∀ p, pointStation p = 0 → (s.binding p).isSome → (bindingIn new p).isSome → t.point p = s.point p) ∧
    t.frame.tacks = s.frame.tacks.filter (tackStays new) ∧ t.mode = s.mode ∧ t.role = s.role ∧
    (s.frame.tacks = [] → s.frame.eTasks = [] → s.executing = false → RaisesBefore s t [0x2207] [(0x2204, 0xFFFF)]))

/-! ### Analogue acquisition (chapter 4) -/

/-- Calibration, the RAW ring and settling (R134, R136, R139, R152): at the TAI second each channel takes its AFE values at the measured temperature and
its conversion phase moves by at most one step of 50 ps, the first time to the delay itself; a change of the channel set comes into force and reallocates
the ring with event 0x3001; a change of range or delay comes into force and begins settling, which ends 20 µs later with SETTLED. Nothing happens for a
change that is not due. -/
def Obligations.CalibrationAndSettling : Prop :=
  (∀ (temp : Word) (s : State), ∃ t, exec (.calibrationUpdate temp) s = .next t ∧
    s.tb.now ≤ t.tb.now ∧ t.tb.now < s.tb.now + secUnits ∧ t.tb.now % secUnits = 0 ∧ t.reg ACQ.AFE_TEMP = temp ∧
    (∀ n < 8, ∀ a, s.afeTable n = some a → (∀ k < 5, t.reg ([ACH.AFE_GAIN n, ACH.AFE_OFFSET n, ACH.AFE_DELAY n, ACH.AFE_TW_DELAY n, ACH.AFE_TC n].getD k 0) =
      Config.afeApplied (afeWords a) temp k)) ∧
    (∀ n < 8, ((s.achan n).phaseSet = true → (t.achan n).phase ≤ (s.achan n).phase + 1 ∧ (s.achan n).phase ≤ (t.achan n).phase + 1) ∧
      ((s.achan n).phaseSet = false → (t.achan n).phase = ((t.reg (ACH.AFE_DELAY n)).toNat + (s.achan n).ext) * 20 / 256) ∧
      t.regBit (ACH.STATUS n) 27 = decide ((t.achan n).phase = ((t.reg (ACH.AFE_DELAY n)).toNat + (s.achan n).ext) * 20 / 256)) ∧
    SameOutside [.regs, .acq, .tb, .clock] s t) ∧
  (∀ s : State, (s.acq.reallocDue = false → exec .rawRingReallocate s = .next s) ∧
    (s.acq.reallocDue = true → ∃ t, exec .rawRingReallocate s = .next t ∧ t.tb.now % secUnits = 0 ∧ s.tb.now ≤ t.tb.now ∧
      t.acq.reallocDue = false ∧ t.acq.rawSince = t.tb.now ∧ (∀ n < 8, (t.achan n).on = s.regBit (ACH.CFG n) 31 ∧ (t.achan n).raw = []) ∧
      t.acq = { s.acq with reallocDue := false, rawSince := t.tb.now, channels := t.acq.channels } ∧
      t.reg ACQ.RAW_SHARE = BitVec.ofNat 32 (536870912 / rawDivisor ((List.range 8).countP fun n => s.regBit (ACH.CFG n) 31)) ∧
      t.reg ACQ.ERRORS = (s.reg ACQ.ERRORS ||| 1) ∧ Raises s t [(0x3001, 0xFFFF)] ∧ SameOutside [.regs, .acq, .trg, .tb, .clock, .evr] s t ∧
      RegsOutside [ACQ.RAW_SHARE, ACQ.ERRORS] s t)) ∧
  (∀ (n : Fin 8) (s : State), ((s.achan n.val).settleDue = false → exec (.rangeChangeEffect n) s = .next s) ∧
    ((s.achan n.val).settleDue = true → ∃ t, exec (.rangeChangeEffect n) s = .next t ∧ t.tb.now % secUnits = 0 ∧
      s.tb.now ≤ t.tb.now ∧ (t.achan n.val).settleAt = some t.tb.now ∧ (t.achan n.val).settleDue = false ∧ t.regBit (ACH.STATUS n.val) 29 = true ∧
      (t.achan n.val).range = s.regBit (ACH.CFG n.val) 8 ∧ (t.achan n.val).ext = (s.reg (ACH.EXT_DELAY n.val)).toNat ∧
      (t.achan n.val).phase = ((t.reg (ACH.AFE_DELAY n.val)).toNat + (s.reg (ACH.EXT_DELAY n.val)).toNat) * 20 / 256 ∧
      (∀ m, m ≠ n.val → t.achan m = s.achan m) ∧ SameOutside [.regs, .acq, .tb, .clock] s t ∧
      RegsOutside [ACH.STATUS n.val, ACH.TOTAL_DELAY n.val, ACH.AFE_GAIN n.val, ACH.AFE_OFFSET n.val, ACH.AFE_DELAY n.val, ACH.AFE_TW_DELAY n.val,
        ACH.AFE_TC n.val] s t)) ∧
  (∀ (n : Fin 8) (s : State), (s.regBit (ACH.STATUS n.val) 29 = false → exec (.settlingEnd n) s = .next s) ∧
    (∀ a, s.regBit (ACH.STATUS n.val) 29 = true → (s.achan n.val).settleAt = some a → ∃ t, exec (.settlingEnd n) s = .next t ∧
      a + 20000 * nsUnits ≤ t.tb.now ∧ t.regBit (ACH.STATUS n.val) 29 = false ∧ t.reg (ACH.ALARM n.val) = (s.reg (ACH.ALARM n.val) ||| 4) ∧
      t.reg (ACH.SETTLE_SEC n.val) = secWord a ∧ Raises s t [(0x3104 + 0x100 * n.val, n.val)] ∧ SameOutside [.regs, .tb, .clock, .evr] s t ∧
      RegsOutside [ACH.STATUS n.val, ACH.ALARM n.val, ACH.SETTLE_SEC n.val] s t))

/-- Entries of the CYC, PHA and TWE rings (R135, R142 to R146, R151, R154, R158): 2 ms after its end a cycle of an enabled channel has its entry, with
the period and frequency from its crossings, RMS, DC and PEAK over its samples, and flagged outside 40 Hz to 70 Hz; one without a crossing is 25 ms long with
frequency 0. The entry of a reporting instant is written once, after its latency. A firing near the last one only marks its entry MERGED, and one
beyond 4,096 in a second is lost with TWE_LOST. A phasor of a stream is kept for the PMUs. -/
def Obligations.RingEntries : Prop :=
  (∀ (n : Fin 8) (x : CycleSpan) (m : CycleSums) (s : State), s.chanOn n.val = true → (s.achan n.val).closed.head? = some x → x.crossed = true →
    x.finish + 2000000 * nsUnits ≤ s.tb.now → m = cycleSums x (s.achan n.val).wav → ∃ t e, exec (.cycleZeroCrossing n) s = .next t ∧
    (t.achan n.val).cyc.head? = some e ∧ (t.achan n.val).cyc = (e :: (s.achan n.val).cyc).take 65536 ∧ e.length = 8 ∧ e[0]? = some (secWord x.start) ∧
    e[2]? = some (ratTo32 ((x.finish - x.start : Nat) : Int) (1000000000 * nsUnits)) ∧
    (x.finish ≠ x.start → e[3]? = some (ratTo32 ((1000000000 * nsUnits : Nat) : Int) (x.finish - x.start))) ∧
    e[4]? = some (engineering (s.reg (ACH.RATIO n.val)) (s.achan n.val).range (sqrtNat (m.square / m.weight)) 1 (-40)) ∧
    e[5]? = some (engineering (s.reg (ACH.RATIO n.val)) (s.achan n.val).range m.linear m.weight (-40)) ∧
    e[6]? = some (engineering (s.reg (ACH.RATIO n.val)) (s.achan n.val).range m.peak 1 (-40)) ∧
    (e[7]?.map fun w => bit w 0) = some (decide (x.finish - x.start < 14286000 * nsUnits ∨ 25000000 * nsUnits < x.finish - x.start)) ∧
    (e[7]?.map fun w => bit w 1) = some false ∧ (e[7]?.map fun w => bit w 2) = some (m.flags.getLsbD 0) ∧
    (t.achan n.val).closed = (s.achan n.val).closed.tail ∧ t.reg (ACH.CYC_HEAD n.val) = s.reg (ACH.CYC_HEAD n.val) + 1 ∧
    t.regBit (ACH.STATUS n.val) 25 = decide (e[7]? = some 0) ∧ (∀ k, k ≠ n.val → t.achan k = s.achan k) ∧ SameOutside [.regs, .acq] s t ∧
    RegsOutside [ACH.CYC_HEAD n.val, ACH.STATUS n.val] s t) ∧
  (∀ (n : Fin 8) (x : CycleSpan) (s : State), s.chanOn n.val = true → (s.achan n.val).closed.head? = some x → x.crossed = false →
    x.finish + 2000000 * nsUnits ≤ s.tb.now → ∃ t e, exec (.cycleNoCrossing n) s = .next t ∧
    (t.achan n.val).cyc.head? = some e ∧ (t.achan n.val).cyc = (e :: (s.achan n.val).cyc).take 65536 ∧ e.length = 8 ∧ e[0]? = some (secWord x.start) ∧
    e[2]? = some (ratTo32 ((x.finish - x.start : Nat) : Int) (1000000000 * nsUnits)) ∧ e[3]? = some 0 ∧ (e[7]?.map fun w => bit w 0) = some false ∧
    (e[7]?.map fun w => bit w 1) = some true ∧ (t.achan n.val).closed = (s.achan n.val).closed.tail ∧
    t.reg (ACH.CYC_HEAD n.val) = s.reg (ACH.CYC_HEAD n.val) + 1 ∧ (∀ k, k ≠ n.val → t.achan k = s.achan k) ∧ SameOutside [.regs, .acq] s t ∧
    RegsOutside [ACH.CYC_HEAD n.val, ACH.STATUS n.val] s t) ∧
  (∀ (c : AcqChannel) (b label : Nat), c.cycleStart = some b → (c.timeOut label).closed = c.closed ++ (if b + 25800000 * nsUnits ≤ label then
    [{ start := b, finish := b + 25000000 * nsUnits, crossed := false }] else [])) ∧
  (∀ (n : Fin 8) (rate : Nat) (x : Nat × Nat) (s : State), s.chanOn n.val = true → s.regBit (ACH.PHA_CFG n.val) 31 = true →
    rate = s.regFld (ACH.PHA_CFG n.val) 15 0 → rate ≠ 0 → phaLatency (s.regBit (ACH.PHA_CFG n.val) 30) (s.regBit ACQ.CFG 8) rate ≤ s.tb.now →
    x = reportingInstant rate (s.tb.now - phaLatency (s.regBit (ACH.PHA_CFG n.val) 30) (s.regBit ACQ.CFG 8) rate) →
    ((s.achan n.val).pha.head?.any (entryOf rate x) = true → exec (.phaEntryComplete (.channel n)) s = .next s) ∧
    ((s.achan n.val).pha.head?.any (entryOf rate x) = false → ∃ t e,
      exec (.phaEntryComplete (.channel n)) s = .next t ∧ (t.achan n.val).pha.head? = some e ∧
      (t.achan n.val).pha = (e :: (s.achan n.val).pha).take 131072 ∧ e.length = 8 ∧
      e[0]? = some (BitVec.ofNat 32 x.1) ∧ (e[1]?.map fun w => fld w 29 0) = some (x.2 * 1000000000 / rate % 1073741824) ∧
      (e[1]?.map fun w => fld w 31 30) = some (s.qualityAt (instantAt rate x)).code ∧ e[6]? = some 0 ∧
      (e[7]?.map fun w => bit w 6) = some (decide (s.qualityAt (instantAt rate x) ≠ .locked)) ∧
      (e[7]?.map fun w => bit w 7) = some (s.slewingAt (instantAt rate x)) ∧ t.reg (ACH.PHA_HEAD n.val) = s.reg (ACH.PHA_HEAD n.val) + 1 ∧
      (e[7]?.map fun w => bit w 1) = some (t.regBit (ACH.STATUS n.val) 23) ∧
      (∀ f, e[4]? = some f → freqOff (s.regBit ACQ.CFG 8) f = true → (e[7]?.map fun w => bit w 0) = some true ∧ t.regBit (ACH.ALARM n.val) 5 = true ∧
        t.regBit (ACH.STATUS n.val) 26 = false) ∧
      (∀ k, k ≠ n.val → t.achan k = s.achan k) ∧ SameOutside [.regs, .acq] s t ∧
      RegsOutside [ACH.PHA_HEAD n.val, ACH.STATUS n.val, ACH.ALARM n.val] s t)) ∧
  (∀ (k : Fin 64) (c : Fin 8) (m rate : Nat) (x : Nat × Nat) (s : State), streamPmu s k.val c.val = some m → rate = s.winFld .pmu m 1 31 16 → rate ≠ 0 →
    phaLatency (s.winBit .pmu m 0 30) (s.regBit ACQ.CFG 8) rate ≤ s.tb.now →
    x = reportingInstant rate (s.tb.now - phaLatency (s.winBit .pmu m 0 30) (s.regBit ACQ.CFG 8) rate) →
    sparseFind s.acq.svPhasors (k.val * 8 + c.val) = none → ∃ t e, exec (.phaEntryComplete (.stream k c)) s = .next t ∧
    sparseFind t.acq.svPhasors (k.val * 8 + c.val) = some [e] ∧ e.length = 8 ∧ e[0]? = some (BitVec.ofNat 32 x.1) ∧
    ((sparseGet {} s.acq.streams k.val).synch = 0 ∨ s.winFld .sv k.val 13 31 24 ≠ 2 → (e[7]?.map fun w => bit w 0) = some true) ∧
    SameOutside [.acq] s t) ∧
  (∀ (n : Fin 8) (f : Firing) (s : State), s.chanOn n.val = true → s.regBit (ACH.TWE_CFG n.val) 31 = true → polarityOk s n.val (bit f.slope 31) = true →
    slopeExceeds s n.val f.slope = true →
    (∀ l, (s.achan n.val).lastFiring = some l → firingTime s n.val f.stamp < l + s.regFld (ACH.TWE_CFG n.val) 15 0 * clockUnits → ∃ t,
      exec (.tweFiring n f) s = .next t ∧ (t.achan n.val).twe = markMerged (s.achan n.val).twe ∧ SameOutside [.acq] s t) ∧
    ((s.achan n.val).lastFiring = none → secOf (firingTime s n.val f.stamp) ≠ (s.achan n.val).tweSec → ∃ t e,
      exec (.tweFiring n f) s = .next t ∧ (t.achan n.val).twe.head? = some e ∧
      (t.achan n.val).twe = (e :: (s.achan n.val).twe).take 65536 ∧ e.length = 8 ∧
      (t.achan n.val).lastFiring = some (firingTime s n.val f.stamp) ∧ e[0]? = some (secWord (firingTime s n.val f.stamp)) ∧
      e[3]? = some (engineering (s.reg (ACH.RATIO n.val)) (s.achan n.val).range
        (sumInt ((f.after.take 10).map saturate) - sumInt ((f.before.take 10).map saturate)) 10 0) ∧ e[6]? = some (s.reg (ACH.TWE_HEAD n.val)) ∧
      (e[2]?.map fun w => bit w 0) = some (bit f.slope 31) ∧ t.reg (ACH.TWE_HEAD n.val) = s.reg (ACH.TWE_HEAD n.val) + 1 ∧
      SameOutside [.regs, .acq] s t ∧ RegsOutside [ACH.TWE_HEAD n.val] s t) ∧
    ((s.achan n.val).lastFiring = none → secOf (firingTime s n.val f.stamp) = (s.achan n.val).tweSec → (s.achan n.val).tweCount = 4096 → ∃ t,
      exec (.tweFiring n f) s = .next t ∧ (t.achan n.val).twe = (s.achan n.val).twe ∧ t.reg (ACH.TWE_LOST n.val) = s.reg (ACH.TWE_LOST n.val) + 1 ∧
      t.reg (ACH.ALARM n.val) = (s.reg (ACH.ALARM n.val) ||| 16) ∧ Raises s t [(0x3103 + 0x100 * n.val, n.val)] ∧
      SameOutside [.regs, .acq, .evr] s t ∧ RegsOutside [ACH.TWE_LOST n.val, ACH.ALARM n.val] s t))

/-- PMUs and sampled values (R155 to R163): the leading module sends the data frame of an instant in time with its SYNC, size, IDCODE, UTC second and FRACSEC, and
counts one that is late; commands turn the stream off and on and ask for the header and the configurations, for the PMU's own IDCODE; four clients at most; the
configuration flag ends 60 s after its commit. A frame of a subscription with global synchronisation has its samples placed in time, is counted and its stream
running; one beyond MAX_DELAY is discarded with event 0x3006; one with local synchronisation that is not accepted is not stored; a running stream that falls
silent for 100 ms waits, with event 0x3002. -/
def Obligations.PmuAndSampledValues : Prop :=
  (∀ (m : Fin 16) (x : Nat × Nat) (b : List Byte) (s : State), s.leads = true → s.winBit .pmu m.val 0 31 = true → s.pmuState m.val = 2 →
    pmuDue s m.val = some x → b = wireBytes (pmuData s m.val x) →
    (instantAt (pmuRate s m.val) x + pmuLatency s m.val + 500000 * nsUnits < s.tb.now → ∃ t, exec (.pmuDataFrameSend m) s = .next t ∧
      t.reg ACQ.ERRORS = (s.reg ACQ.ERRORS ||| 2) ∧ t.regFld (ACQ.PMU_STATE m.val) 15 0 = min 65535 (s.regFld (ACQ.PMU_STATE m.val) 15 0 + 1) ∧
      (t.pmu m.val).lastSent = some (instantAt (pmuRate s m.val) x) ∧ Raises s t [(0x3007, m.val)] ∧
      SameOutside [.regs, .acq, .evr] s t ∧ RegsOutside [ACQ.ERRORS, ACQ.PMU_STATE m.val] s t) ∧
    (s.tb.now ≤ instantAt (pmuRate s m.val) x + pmuLatency s m.val + 500000 * nsUnits → s.lock.cutOff = false → ∃ t,
      exec (.pmuDataFrameSend m) s = .next t ∧
      LeavesOn s t (busPorts s 1) { kind := .pmuData, fields := (b ++ beBytes 2 (ccitt 0xFFFF b).toNat).map (·.toNat) } ∧
      (pmuData s m.val x).take 6 = [(2, 0xAA02), (2, pmuFrameSize s m.val x), (2, s.winFld .pmu m.val 0 15 0), (4, utcOf s (instantAt (pmuRate s m.val) x)),
        (4, fracsecHigh s (instantAt (pmuRate s m.val) x) * 16777216 + x.2 * 1000000 / pmuRate s m.val), (2, pmuStat s m.val x)] ∧
      b.length + 2 = pmuFrameSize s m.val x ∧ (t.pmu m.val).lastSent = some (instantAt (pmuRate s m.val) x) ∧ SameOutside [.regs, .acq, .sent] s t ∧
      RegsOutside ((busPorts s 1).flatMap portRegs) s t)) ∧
  (∀ (m : Fin 16) (s : State), s.leads = false ∨ s.pmuState m.val ≠ 2 ∨ pmuDue s m.val = none → exec (.pmuDataFrameSend m) s = .next s) ∧
  (∀ (m : Fin 16) (idcode command : Half) (s : State), s.leads = true → s.winBit .pmu m.val 0 31 = true → idcode.toNat = s.winFld .pmu m.val 0 15 0 →
    (command = 1 → ∃ t, exec (.pmuCommandReceived m idcode command) s = .next t ∧ t.pmuState m.val = 3 ∧ SameOutside [.regs] s t ∧
      RegsOutside [ACQ.PMU_STATE m.val] s t) ∧
    (command = 2 → ∃ t, exec (.pmuCommandReceived m idcode command) s = .next t ∧ t.pmuState m.val = 2 ∧ SameOutside [.regs] s t ∧
      RegsOutside [ACQ.PMU_STATE m.val] s t) ∧
    (∀ b, command = 3 → s.lock.cutOff = false → b = pmuHeader s m.val → ∃ t, exec (.pmuCommandReceived m idcode command) s = .next t ∧
      LeavesOn s t (busPorts s 1) { kind := .pmuHeader, fields := (b ++ beBytes 2 (ccitt 0xFFFF b).toNat).map (·.toNat) } ∧ SameOutside [.regs, .sent] s t ∧
      RegsOutside ((busPorts s 1).flatMap portRegs) s t) ∧
    (∀ k b, 1 ≤ k → k ≤ 3 → command = BitVec.ofNat 16 (3 + k) → s.lock.cutOff = false → b = pmuConfig s m.val k → ∃ t,
      exec (.pmuCommandReceived m idcode command) s = .next t ∧
      LeavesOn s t (busPorts s 1) { kind := .pmuConfig, fields := (b ++ beBytes 2 (ccitt 0xFFFF b).toNat).map (·.toNat) } ∧
      SameOutside [.regs, .sent] s t ∧ RegsOutside ((busPorts s 1).flatMap portRegs) s t) ∧
    (command = 8 → ∃ t, exec (.pmuCommandReceived m idcode command) s = .next t ∧ (t.pmu m.val).extended = (s.pmu m.val).extended + 1 ∧
      SameOutside [.acq] s t)) ∧
  (∀ (m : Fin 16) (idcode command : Half) (s : State), idcode.toNat ≠ s.winFld .pmu m.val 0 15 0 ∨ s.leads = false →
    exec (.pmuCommandReceived m idcode command) s = .next s) ∧
  (∀ (m : Fin 16) (s : State), s.leads = true → s.winBit .pmu m.val 0 31 = true → s.winFld .pmu m.val 0 29 28 ≠ 3 →
    (s.regFld (ACQ.PMU_STATE m.val) 23 16 < 4 → ∃ t, exec (.pmuTcpConnect m) s = .next t ∧
      t.regFld (ACQ.PMU_STATE m.val) 23 16 = s.regFld (ACQ.PMU_STATE m.val) 23 16 + 1 ∧ (s.pmuState m.val = 1 → t.pmuState m.val = 3) ∧
      (s.pmuState m.val ≠ 1 → t.pmuState m.val = s.pmuState m.val) ∧ Raises s t [(0x3005, m.val)] ∧ SameOutside [.regs, .evr] s t ∧
      RegsOutside [ACQ.PMU_STATE m.val] s t) ∧
    (4 ≤ s.regFld (ACQ.PMU_STATE m.val) 23 16 → exec (.pmuTcpConnect m) s = .next s)) ∧
  (∀ (m : Fin 16) (s : State), 0 < s.regFld (ACQ.PMU_STATE m.val) 23 16 → ∃ t, exec (.pmuTcpDisconnect m) s = .next t ∧
    t.regFld (ACQ.PMU_STATE m.val) 23 16 = s.regFld (ACQ.PMU_STATE m.val) 23 16 - 1 ∧
    t.pmuState m.val = (if s.regFld (ACQ.PMU_STATE m.val) 23 16 = 1 then 1 else s.pmuState m.val) ∧ Raises s t [(0x3005, m.val)] ∧
    SameOutside [.regs, .evr] s t ∧ RegsOutside [ACQ.PMU_STATE m.val] s t) ∧
  (∀ (m : Fin 16) (s : State), ((s.pmu m.val).committedAt + 60 * secUnits ≤ s.tb.up → ∃ t, exec (.pmuCfgFlagExpiry m) s = .next t ∧
      (t.pmu m.val).changed = false ∧ (∀ k, k ≠ m.val → t.pmu k = s.pmu k) ∧ SameOutside [.acq] s t) ∧
    (s.tb.up < (s.pmu m.val).committedAt + 60 * secUnits → exec (.pmuCfgFlagExpiry m) s = .next s)) ∧
  (∀ (f : SvFrame) (k : Fin 64) (s : State), (List.range 64).find? (svMatches s f) = some k.val →
    (f.malformed = true ∨ f.confRev ≠ s.win .sv k.val 3 → ∃ t, exec (.svFrameReceived f) s = .next t ∧
      t.reg ACQ.SV_ERR_COUNT = s.reg ACQ.SV_ERR_COUNT + 1 ∧ SameOutside [.regs] s t ∧ RegsOutside [ACQ.SV_ERR_COUNT] s t) ∧
    (f.malformed = false → f.confRev = s.win .sv k.val 3 → f.smpSynch = 1 → s.winBit .sv k.val 0 27 = false → ∃ t,
      exec (.svFrameReceived f) s = .next t ∧ t.winFld .sv k.val 13 31 24 = 3 ∧ t.reg ACQ.ERRORS = (s.reg ACQ.ERRORS ||| 4) ∧
      (sparseGet {} t.acq.streams k.val).samples = (sparseGet {} s.acq.streams k.val).samples ∧
      Raises s t (if s.winFld .sv k.val 13 31 24 = 3 then [] else [(0x3003, k.val)]) ∧ SameOutside [.regs, .wins, .acq, .evr] s t ∧
      RegsOutside [ACQ.ERRORS] s t) ∧
    (f.malformed = false → f.confRev = s.win .sv k.val 3 → f.smpSynch = 2 → f.samples ≠ [] →
      (svPlaced s (svRate (s.winFld .sv k.val 0 30 28)) f).all (svLate s k.val) = true → ∃ t, exec (.svFrameReceived f) s = .next t ∧
      t.reg ACQ.SV_ERR_COUNT = s.reg ACQ.SV_ERR_COUNT + 1 ∧ t.reg ACQ.SV_RX_COUNT = s.reg ACQ.SV_RX_COUNT ∧
      t.reg ACQ.ERRORS = (s.reg ACQ.ERRORS ||| 8) ∧
      (sparseGet {} t.acq.streams k.val).samples = (sparseGet {} s.acq.streams k.val).samples.take 131072 ∧
      Raises s t [(0x3006, k.val)] ∧ SameOutside [.regs, .wins, .acq, .evr] s t ∧ RegsOutside [ACQ.SV_ERR_COUNT, ACQ.ERRORS] s t) ∧
    (f.malformed = false → f.confRev = s.win .sv k.val 3 → f.smpSynch = 2 →
      (svPlaced s (svRate (s.winFld .sv k.val 0 30 28)) f).any (svLate s k.val) = false → ∃ t,
      exec (.svFrameReceived f) s = .next t ∧ t.reg ACQ.SV_RX_COUNT = s.reg ACQ.SV_RX_COUNT + 1 ∧ t.winFld .sv k.val 13 31 24 = 2 ∧
      (sparseGet {} t.acq.streams k.val).synch = 2 ∧ (sparseGet {} t.acq.streams k.val).arrived = s.tb.up ∧
      (sparseGet {} t.acq.streams k.val).samples =
        ((svPlaced s (svRate (s.winFld .sv k.val 0 30 28)) f).reverse ++ (sparseGet {} s.acq.streams k.val).samples).take 131072 ∧
      (∀ j, j ≠ k.val → sparseGet {} t.acq.streams j = sparseGet {} s.acq.streams j) ∧
      SameOutside [.regs, .wins, .acq] s t ∧ RegsOutside [ACQ.SV_RX_COUNT] s t)) ∧
  (∀ (k : Fin 64) (s : State), s.winBit .sv k.val 0 31 = true → 2 ≤ s.winFld .sv k.val 13 31 24 →
    ((sparseGet {} s.acq.streams k.val).arrived + 100 * msUnits ≤ s.tb.up → ∃ t, exec (.svStreamTimeout k) s = .next t ∧
      t.winFld .sv k.val 13 31 24 = 1 ∧ Raises s t [(0x3002, k.val)] ∧ SameOutside [.wins, .evr] s t) ∧
    (s.tb.up < (sparseGet {} s.acq.streams k.val).arrived + 100 * msUnits → exec (.svStreamTimeout k) s = .next s))

/-- Registers of acquisition (R158, R160, R161, R165, R166, Table AQ-14): a select register loads its window again; a commit that keeps to the tables waits for
the frame tick and frees the window; one whose stream identity another subscription has is refused with both owners; CFG keeps its PMUs when
F_NOM stays; a select of an entry shows its eight words, or zeros with bit 31. -/
def Obligations.AcquisitionRegisters : Prop :=
  (∀ (p : Pkt) (v : Word) (x : Session) (s : State), MayWrite s p x ACQ.PMU_SEL v → ∃ t, exec (.acqPmuSel p v) s = .next t ∧ t.replied done ∧
    t.regFld ACQ.PMU_SEL 3 0 = fld v 3 0 ∧ (∀ m < 16, ∀ w < 32, t.winStaged .pmu m w = s.win .pmu m w) ∧ t.wins = s.wins ∧
    SameOutside [.regs, .staged, .qcp, .sent] s t ∧ RegsOutside [ACQ.PMU_SEL] s t) ∧
  (∀ (p : Pkt) (v : Word) (x : Session) (s : State), MayWrite s p x ACQ.SV_SEL v → ∃ t, exec (.acqSvSel p v) s = .next t ∧ t.replied done ∧
    t.regFld ACQ.SV_SEL 5 0 = fld v 5 0 ∧ (∀ k < 64, ∀ w < 32, t.winStaged .sv k w = s.win .sv k w) ∧ t.wins = s.wins ∧
    SameOutside [.regs, .staged, .qcp, .sent] s t ∧ RegsOutside [ACQ.SV_SEL] s t) ∧
  (∀ (p : Pkt) (x : Session) (s : State), MayWrite s p x ACQ.PMU_COMMIT 1 →
    (pmuOk s (windowWords s .pmu (s.regFld ACQ.PMU_SEL 3 0) 13) = false → ∃ t, exec (.acqPmuCommit p 1) s = .next t ∧
      t.replied (refusal .badParameter 0 4) ∧ SameOutside [.qcp, .sent] s t) ∧
    (pmuOk s (windowWords s .pmu (s.regFld ACQ.PMU_SEL 3 0) 13) = true →
      (∀ n < 8, n ∈ (presentHalves (windowWords s .pmu (s.regFld ACQ.PMU_SEL 3 0) 13)).map sourceOf →
        phaClaimant s (s.regFld ACQ.PMU_SEL 3 0) (windowWords s .pmu (s.regFld ACQ.PMU_SEL 3 0) 13) n = none) →
      sourcesWith s (s.regFld ACQ.PMU_SEL 3 0) (windowWords s .pmu (s.regFld ACQ.PMU_SEL 3 0) 13) ≤ 128 → ∃ t,
      exec (.acqPmuCommit p 1) s = .next t ∧ t.replied done ∧
      (t.pmu (s.regFld ACQ.PMU_SEL 3 0)).due = some (windowWords s .pmu (s.regFld ACQ.PMU_SEL 3 0) 13) ∧ t.wins = s.wins ∧
      (∀ w < 32, t.winStaged .pmu (s.regFld ACQ.PMU_SEL 3 0) w = s.win .pmu (s.regFld ACQ.PMU_SEL 3 0) w) ∧
      (∀ c ∈ t.qcp.claims, c.1 ≠ WindowId.acqPmu) ∧ SameOutside [.staged, .acq, .qcp, .sent] s t)) ∧
  (∀ (p : Pkt) (x : Session) (k : Nat) (s : State), MayWrite s p x ACQ.SV_COMMIT 1 → k = s.regFld ACQ.SV_SEL 5 0 → svOk (windowWords s .sv k 13) = true →
    ((∀ j < 64, j ≠ k → bit ((svWords s j).getD 0 0) 31 = true → svIdentity (svWords s j) ≠ svIdentity (windowWords s .sv k 13)) → ∃ t,
      exec (.acqSvCommit p 1) s = .next t ∧ t.replied done ∧ sparseFind t.acq.svDue k = some (windowWords s .sv k 13) ∧ t.wins = s.wins ∧
      (∀ c ∈ t.qcp.claims, c.1 ≠ WindowId.acqSv) ∧ SameOutside [.staged, .acq, .qcp, .sent] s t) ∧
    (∀ j < 64, j ≠ k → bit ((windowWords s .sv k 13).getD 0 0) 31 = true → bit ((svWords s j).getD 0 0) 31 = true →
      svIdentity (svWords s j) = svIdentity (windowWords s .sv k 13) →
      (∀ i < 64, i ≠ k → i ≠ j → svIdentity (svWords s i) ≠ svIdentity (windowWords s .sv k 13)) → ∃ t, exec (.acqSvCommit p 1) s = .next t ∧
      t.replied (refusal .resourceConflict 0 (t.reg ACQ.CONFLICT).toNat) ∧
      t.reg ACQ.CONFLICT = BitVec.ofNat 32 ((0x5000 + j) * 65536 + (0x5000 + k)) ∧ t.acq = s.acq ∧
      SameOutside [.regs, .qcp, .sent, .evr] s t)) ∧
  (∀ (p : Pkt) (v : Word) (x : Session) (s : State), MayWrite s p x ACQ.CFG v → bit v 8 = s.regBit ACQ.CFG 8 → ∃ t,
    exec (.acqCfgWrite p v) s = .next t ∧ t.replied done ∧ t.wins = s.wins ∧ SameOutside [.regs, .qcp, .sent] s t ∧ RegsOutside [ACQ.CFG] s t) ∧
  (∀ (p : Pkt) (n : Fin 8) (v : Word) (x : Session) (s : State), MayWrite s p x (ACH.TWE_SEL n.val) v → ∃ t, exec (.achTweSel p n v) s = .next t ∧
    t.replied done ∧ EntryShown s t (ACH.TWE_SEL n.val) (ACH.TWE_WIN n.val) (s.achan n.val).twe (s.reg (ACH.TWE_HEAD n.val)) v ∧
    SameOutside [.regs, .qcp, .sent] s t) ∧
  (∀ (p : Pkt) (n : Fin 8) (v : Word) (x : Session) (s : State), MayWrite s p x (ACH.CYC_SEL n.val) v → ∃ t, exec (.achCycSel p n v) s = .next t ∧
    t.replied done ∧ EntryShown s t (ACH.CYC_SEL n.val) (ACH.CYC_WIN n.val) (s.achan n.val).cyc (s.reg (ACH.CYC_HEAD n.val)) v ∧
    SameOutside [.regs, .qcp, .sent] s t) ∧
  (∀ (p : Pkt) (n : Fin 8) (v : Word) (x : Session) (s : State), MayWrite s p x (ACH.PHA_SEL n.val) v → ∃ t, exec (.achPhaSel p n v) s = .next t ∧
    t.replied done ∧ EntryShown s t (ACH.PHA_SEL n.val) (ACH.PHA_WIN n.val) (s.achan n.val).pha (s.reg (ACH.PHA_HEAD n.val)) v ∧
    SameOutside [.regs, .qcp, .sent] s t)

/-! ### Triggers, the TDC and fault location (chapter 5) -/

/-- Pattern sources (R168, R169, R171, R173 to R178): an event of an active trigger unit sets its source with its time and starts its stretch, whose end
clears it; a timeout's time is the last crossing plus TIME_A; a write that enables a unit restarts it false. A single-step pattern unit that the
change completes fires with the event's time. The partner's sources go false when they are lost, and are loaded without a firing. -/
def Obligations.PatternSources : Prop :=
  (∀ (u : Fin 32) (x : UnitSamples) (k : UnitTracker) (c : UnitConfig) (p y : Int) (s : State), unitActive s u.val = true → c = unitConfig s u.val →
    k = sparseGet {} s.trg.trackers u.val → c.kind = 1 → c.polarity = 0 → k.rise.armed = true → 1 ≤ k.count → k.codes.head? = some p → x.codes = [y] →
    p < c.hi → c.hi ≤ y → ∃ t,
    exec (.triggerUnitEvent u x) s = .next t ∧ t.trg.sources = s.trg.sources ||| BitVec.ofNat 128 (2 ^ u.val) ∧
    sparseFind t.trg.stamps u.val = some (ofInstant x.newest - (samplePitch - samplePitch * (c.hi - p).natAbs / (y - p).natAbs) * 65536) ∧
    (sparseGet {} t.trg.trackers u.val).rise.armed = false ∧ (sparseGet {} t.trg.trackers u.val).count = k.count + 1 ∧
    sparseFind t.trg.stretch u.val = some (s.tb.up + s.regFld (TRG.U_CFG u.val) 23 16 * 100 * nsUnits) ∧
    SameOutside [.regs, .trg, .evr, .sent] s t) ∧
  (∀ (u : Fin 32) (x : UnitSamples) (k : UnitTracker) (c : UnitConfig) (y : Int) (s : State), unitActive s u.val = true → c = unitConfig s u.val →
    k = sparseGet {} s.trg.trackers u.val → c.kind = 6 → c.polarity = 0 → k.rise.armed = false → x.codes = [y] →
    k.base + c.timeA * samplePitch ≤ k.count * samplePitch → ∃ t,
    exec (.triggerUnitTimeout u x) s = .next t ∧ t.trg.sources = s.trg.sources ||| BitVec.ofNat 128 (2 ^ u.val) ∧
    sparseFind t.trg.stamps u.val = some (placeTime (ofInstant x.newest) (k.count + 1) (k.base + c.timeA * samplePitch)) ∧
    sparseFind t.trg.stretch u.val = some (s.tb.up + s.regFld (TRG.U_CFG u.val) 23 16 * 100 * nsUnits) ∧
    (sparseGet {} t.trg.trackers u.val).base = k.base + c.timeA * samplePitch ∧
    SameOutside [.regs, .trg, .evr, .sent] s t) ∧
  (∀ (u : Fin 32) (x : UnitSamples) (s : State), unitActive s u.val = false →
    exec (.triggerUnitEvent u x) s = .next s ∧ exec (.triggerUnitTimeout u x) s = .next s) ∧
  (∀ (u : Fin 32) (x : UnitSamples) (r : UnitTracker) (ts : Nat) (k : Fin 8) (c : BitVec 128) (s : State), unitActive s u.val = true →
    unitSamples (unitConfig s u.val) (sparseGet {} s.trg.trackers u.val) x.codes = (r, [ts]) →
    s.trg.sources.getLsbD u.val = false → (∀ j < 8, patternRuns s j = decide (j = k.val)) → s.winBit .pat k.val 0 30 = false →
    s.winBit .pat k.val 0 29 = false → s.winBit .pat k.val 0 15 = false → (s.pattern k.val).matchA = false → (s.pattern k.val).holdoff ≤ s.tb.up →
    careInForce s (patMask s k.val 3) = some c → (patMask s k.val 3).getLsbD u.val = true →
    ((s.trg.sources ||| BitVec.ofNat 128 (2 ^ u.val)) ^^^ patMask s k.val 7) &&& c = 0 → ∃ t, exec (.triggerUnitEvent u x) s = .next t ∧
    t.reg TRG.FIRE_COUNT = s.reg TRG.FIRE_COUNT + 1 ∧ t.regFld TRG.LAST_FIRE 31 28 = k.val ∧ t.regFld TRG.LAST_FIRE 22 16 = u.val ∧
    t.reg TRG.LAST_SEC = secWord (placeTime (ofInstant x.newest) r.count ts) ∧ t.reg TRG.LAST_FRAC = BitVec.ofNat 32 (fracOf (placeTime (ofInstant x.newest) r.count ts)) ∧
    t.reg TRG.ALARM = (s.reg TRG.ALARM ||| 1) ∧ (t.pattern k.val).holdoff = s.tb.up + (s.win .pat k.val 2).toNat * clockUnits ∧
    t.trg.records = s.trg.records ∧ Raises s t [(0x4001, k.val)] ∧
    RegsOutside [TRG.FIRE_COUNT, TRG.LAST_FIRE, TRG.LAST_SEC, TRG.LAST_NS, TRG.LAST_FRAC, TRG.ALARM] s t) ∧
  (∀ (u : Fin 32) (stop : Nat) (s : State), sparseFind s.trg.stretch u.val = some stop → ∃ t, exec (.stretchExpiry u) s = .next t ∧
    stop ≤ t.tb.up ∧ t.trg.sources = s.trg.sources &&& ~~~(BitVec.ofNat 128 (2 ^ u.val)) ∧ sparseFind t.trg.stretch u.val = none ∧
    SameOutside [.regs, .trg, .evr, .sent, .tb, .clock] s t) ∧
  (∀ (p : Pkt) (u : Fin 32) (v : Word) (x : Session) (s : State), MayWrite s p x (TRG.U_CFG u.val) v → bit v 31 = true → ∃ t,
    exec (.trgUCfg p u v) s = .next t ∧ t.replied done ∧ t.regFld (TRG.U_CFG u.val) 31 26 = fld v 31 26 ∧
    t.regFld (TRG.U_CFG u.val) 23 0 = fld v 23 0 ∧ t.trg.sources = s.trg.sources &&& ~~~(BitVec.ofNat 128 (2 ^ u.val)) ∧
    sparseFind t.trg.stretch u.val = none ∧ SameOutside [.regs, .trg, .evr, .qcp, .sent] s t) ∧
  (∀ (i : Fin 32) (level : Bool) (stamp : Instant) (s : State), s.trg.partnerValid = true → ∃ t, exec (.partnerSourceChange i level stamp) s = .next t ∧
    t.trg.sources.getLsbD (96 + i.val) = level ∧ (∀ j, j ≠ 96 + i.val → t.trg.sources.getLsbD j = s.trg.sources.getLsbD j) ∧
    sparseFind t.trg.stamps (96 + i.val) = some (ofInstant stamp) ∧ SameOutside [.regs, .trg, .evr, .sent] s t) ∧
  (∀ s : State, s.trg.partnerValid = true → partnerStands s = false → ∃ t, exec .partnerSourcesLost s = .next t ∧ t.trg.partnerValid = false ∧
    (∀ j < 96, t.trg.sources.getLsbD j = s.trg.sources.getLsbD j) ∧ (∀ j, 96 ≤ j → t.trg.sources.getLsbD j = false) ∧
    t.trg.records = s.trg.records ∧ t.reg TRG.ALARM = (s.reg TRG.ALARM ||| 2) ∧ Raises s t [(0x4002, 0xFFFF)] ∧
    SameOutside [.regs, .trg, .evr] s t ∧ RegsOutside [TRG.ALARM] s t) ∧
  (∀ (states : Word) (s : State), s.trg.partnerValid = false → s.pair.tandem.up = true → s.shown = some .standby ∨ s.shown = some .active → ∃ t,
    exec (.partnerSourcesRestored states) s = .next t ∧ t.trg.partnerValid = true ∧ (∀ i < 32, t.trg.sources.getLsbD (96 + i) = bit states i) ∧
    (∀ j < 96, t.trg.sources.getLsbD j = s.trg.sources.getLsbD j) ∧ Raises s t [(0x4003, 0xFFFF)] ∧ SameOutside [.trg, .evr] s t)

/-- Patterns, lines and records (R165, R175, R176, R180, R182, R185 to R189): an armed unit disarms when T ends; pulses end; a trigger line newly asserted and
REC_MANUAL open records with sources 0xFE and 0xFF; a record whose windows are written is committed with event 0x4004, or dropped with event 0x4005 when
only protected ones fill the store. Accepted commits wait for the frame tick. -/
def Obligations.PatternsAndRecords : Prop :=
  (∀ (u : Fin 8) (t0 stamp : Nat) (s : State), (s.pattern u.val).armed = some (t0, stamp) → ∃ t, exec (.patternArmExpiry u) s = .next t ∧
    t0 + (s.win .pat u.val 1).toNat * clockUnits ≤ t.tb.up ∧ t.pattern u.val = { s.pattern u.val with armed := none } ∧
    (∀ k, k ≠ u.val → t.pattern k = s.pattern k) ∧ SameOutside [.trg, .tb, .clock] s t) ∧
  (∀ (u : Fin 8) (s : State), ∃ t, exec (.patternHoldoffExpiry u) s = .next t ∧ (s.pattern u.val).holdoff ≤ t.tb.up ∧ SameOutside [.tb, .clock] s t) ∧
  (∀ (l : Fin 8) (a : Nat) (s : State), sparseFind s.trg.pulses l.val = some a → sparseFind s.trg.tackPulses l.val = none → ∃ t,
    exec (.triggerLinePulseEnd l) s = .next t ∧ a ≤ t.tb.up ∧ sparseFind t.trg.pulses l.val = none ∧
    (∀ k, k ≠ l.val → sparseFind t.trg.pulses k = sparseFind s.trg.pulses k) ∧ t.trg.tackPulses = s.trg.tackPulses ∧
    SameOutside [.trg, .tb, .clock] s t) ∧
  (∀ (levels : Byte) (stamp : Instant) (k : Fin 8) (s : State), s.trg.records = [] → (∀ j < 8, s.winBit .records j 0 31 = decide (j = k.val)) →
    rawNeed (profileWords s k.val) ≤ stagingFree s → ∃ t, exec (.triggerLineAsserted levels stamp) s = .next t ∧ t.trg.lineLevels = levels ∧
    ((∀ l < 8, levels.getLsbD l = true → s.trg.lineLevels.getLsbD l = false → s.winBit .records k.val 0 (8 + l) = false) → t.trg.records = []) ∧
    (∀ l < 8, levels.getLsbD l = true → s.trg.lineLevels.getLsbD l = false → s.winBit .records k.val 0 (8 + l) = true →
      ∃ r, t.trg.records = [r] ∧ r.profile = k.val ∧ r.source = 0xFE ∧ r.trigger = clockInstant stamp ∧ r.isOpen = true ∧ r.rawOmit = false ∧
        r.number = s.trg.nextRecord ∧ t.trg.nextRecord = s.trg.nextRecord + 1) ∧ Raises s t [] ∧ SameOutside [.trg] s t) ∧
  (∀ (p : Pkt) (v : Word) (x : Session) (s : State), MayWrite s p x TRG.REC_MANUAL v → s.winBit .records (fld v 2 0) 0 31 = true →
    (∀ r ∈ s.trg.records, r.isOpen = false) →
    ∃ t r, exec (.trgRecManual p v) s = .next t ∧ t.replied done ∧ t.trg.records = s.trg.records ++ [r] ∧ r.profile = fld v 2 0 ∧ r.source = 0xFF ∧
    r.trigger = s.tb.now ∧ r.number = s.trg.nextRecord ∧ r.isOpen = true ∧ (r.rawOmit = true ↔ 268435456 < rawNeed (profileWords s (fld v 2 0))) ∧
    t.trg.nextRecord = s.trg.nextRecord + 1 ∧ Raises s t (if r.rawOmit then [(0x4006, fld v 2 0)] else []) ∧
    SameOutside [.regs, .trg, .evr, .qcp, .sent] s t ∧ RegsOutside [TRG.REC_LOST, TRG.ALARM] s t) ∧
  (∀ (n : Word) (r : TrigRecord) (s : State), s.trg.records = [r] → r.isOpen = true → r.written = false → r.number = n.toNat →
    (windowsDone s r = false → exec (.recordWindowEnd n) s = .next s) ∧
    (windowsDone s r = true → ∃ t, exec (.recordWindowEnd n) s = .next t ∧
      t.trg.records = [{ captureRecord s r with written := true, staging := 0 }] ∧ SameOutside [.trg] s t)) ∧
  (∀ (n : Word) (r : TrigRecord) (s : State), s.trg.records.find? (fun y => y.isOpen && y.written && decide (y.number = n.toNat)) = some r →
    (storeFull s (recordKb r) = false → ∃ t, exec (.recordCommitted n) s = .next t ∧
      t.trg.records = s.trg.records.map (fun y => if y.number = r.number then { r with isOpen := false } else y) ∧ Raises s t [(0x4004, r.profile)] ∧
      SameOutside [.trg, .evr] s t) ∧
    (storeFull s (recordKb r) = true → (∀ y ∈ committedRecords s, y.protected_ = true) → ∃ t, exec (.recordCommitted n) s = .next t ∧
      t.trg.records = s.trg.records.filter (fun y => y.number ≠ r.number) ∧ t.reg TRG.ALARM = (s.reg TRG.ALARM ||| 8) ∧
      t.regFld TRG.REC_LOST 15 0 = min 65535 (s.regFld TRG.REC_LOST 15 0 + 1) ∧ Raises s t [(0x4005, r.profile)] ∧
      SameOutside [.regs, .trg, .evr] s t ∧ RegsOutside [TRG.ALARM, TRG.REC_LOST] s t)) ∧
  (∀ (p : Pkt) (x : Session) (s : State), MayWrite s p x TRG.PAT_COMMIT 1 →
    (patternOk (windowWords s .pat (s.regFld TRG.PAT_SEL 2 0) 19) = false → ∃ t, exec (.trgPatCommit p 1) s = .next t ∧
      t.replied (refusal .badParameter 0 4) ∧ SameOutside [.qcp, .sent] s t) ∧
    (patternOk (windowWords s .pat (s.regFld TRG.PAT_SEL 2 0) 19) = true → ∃ t, exec (.trgPatCommit p 1) s = .next t ∧ t.replied done ∧
      sparseFind t.trg.patDue (s.regFld TRG.PAT_SEL 2 0) = some (windowWords s .pat (s.regFld TRG.PAT_SEL 2 0) 19) ∧ t.trg.patterns = s.trg.patterns ∧
      SameOutside [.trg, .staged, .qcp, .sent] s t)) ∧
  (∀ (p : Pkt) (x : Session) (s : State), MayWrite s p x TRG.REC_COMMIT 1 → profileOk (windowWords s .records (s.regFld TRG.REC_SEL 2 0) 10) = true →
    ∃ t w, exec (.trgRecCommit p 1) s = .next t ∧ t.replied done ∧ sparseFind t.trg.recDue (s.regFld TRG.REC_SEL 2 0) =
      some (windowWords s .records (s.regFld TRG.REC_SEL 2 0) 10 ++ [w]) ∧ t.trg.records = s.trg.records ∧
    SameOutside [.trg, .staged, .qcp, .sent] s t) ∧
  (∀ (p : Pkt) (x : Session) (s : State), MayWrite s p x TRG.FL_COMMIT 1 → lineOk (windowWords s .fl (s.regFld TRG.FL_SEL 2 0) 7) = true → ∃ t,
    exec (.trgFlCommit p 1) s = .next t ∧ t.replied done ∧
    sparseFind t.trg.flDue (s.regFld TRG.FL_SEL 2 0) = some (windowWords s .fl (s.regFld TRG.FL_SEL 2 0) 7) ∧ t.trg.lines = s.trg.lines ∧
    SameOutside [.trg, .staged, .qcp, .sent] s t)

/-- The TDC and fault location (R183, R184, R194 to R196, R199): an enabled edge is stamped with its delays taken off, and lost within 10 ns of the last one; a
calibration passes to 50 ps and 35 ps or raises event 0x4101; reading FIFO_SEC latches and reading FIFO_FRAC removes the oldest stamp. The earliest arrival of the search
window is reported by the leading module; the first remote report is held; the distance is (L + v(tL - tR))/2; without a remote report
the location falls back or fails with event 0x4008. -/
def Obligations.TdcAndFaultLocation : Prop :=
  (∀ (i : Fin 48) (stamp : Instant) (s : State), tdcEnabled s i.val = true →
    ((s.tdcInput i.val).lastUp.all (fun l => decide (l + 10 * nsUnits ≤ edgeUp s stamp)) = true → ∃ t, exec (.tdcEdge i stamp) s = .next t ∧
      (t.tdcInput i.val).last = some (tdcTime s i.val stamp, (stampQuality s).code) ∧
      (t.tdcInput i.val).lastUp = some (edgeUp s stamp) ∧ (t.tdcInput i.val).count = (s.tdcInput i.val).count + 1 ∧
      t.reg TDC.EVENTS = s.reg TDC.EVENTS + 1 ∧ t.reg (TDC.GRP_COUNT (i.val / 8)) = s.reg (TDC.GRP_COUNT (i.val / 8)) + 1 ∧
      (∀ k, k ≠ i.val → t.tdcInput k = s.tdcInput k) ∧ SameOutside [.regs, .trg] s t ∧ RegsOutside [TDC.EVENTS, TDC.GRP_COUNT (i.val / 8)] s t) ∧
    (∀ l, (s.tdcInput i.val).lastUp = some l → edgeUp s stamp < l + 10 * nsUnits → ∃ t, exec (.tdcEdge i stamp) s = .next t ∧
      t.reg TDC.LOST = s.reg TDC.LOST + 1 ∧ t.reg TDC.ALARM = (s.reg TDC.ALARM ||| 2) ∧ t.trg = s.trg ∧ Raises s t [(0x4102, i.val)] ∧
      SameOutside [.regs, .evr] s t ∧ RegsOutside [TDC.LOST, TDC.ALARM] s t)) ∧
  (∀ (m : TdcCalibration) (s : State), calibrationDue s = false → exec (.tdcCalibration m) s = .next s) ∧
  (∀ (m : TdcCalibration) (s : State), calibrationDue s = true → ∃ t, exec (.tdcCalibration m) s = .next t ∧ t.reg TDC.LSB_MEAS = m.lsb ∧ t.reg TDC.PREC_MEAS = m.precision ∧
    t.reg TDC.INL_MAX = m.nonLinearity ∧ t.reg TDC.TEMP = m.temperature ∧
    (m.lsb.toNat ≤ 50000 → m.nonLinearity.toNat ≤ 35000 → t.trg = { s.trg with calTriedAt := some s.tb.up, calibratedAt := some s.tb.up, calBad := false } ∧ Raises s t []) ∧
    (50000 < m.lsb.toNat ∨ 35000 < m.nonLinearity.toNat → t.trg = { s.trg with calTriedAt := some s.tb.up, calBad := true } ∧ t.reg TDC.ALARM = (s.reg TDC.ALARM ||| 1) ∧
      Raises s t [(0x4101, 0xFFFF)]) ∧ SameOutside [.regs, .trg, .evr] s t ∧
    RegsOutside [TDC.LSB_MEAS, TDC.PREC_MEAS, TDC.INL_MAX, TDC.TEMP, TDC.ALARM] s t) ∧
  (∀ (p : Pkt) (x : Session) (s : State), Admits s p x → (∃ t, exec (.tdcFifoSecRead p) s = .next t ∧ t.replied (doneWith [(s.view TDC.FIFO_SEC).toNat]) ∧
      t.trg = { s.trg with fifoLatch := s.trg.fifo.head? } ∧ SameOutside [.trg, .qcp, .sent] s t) ∧
    (∃ t, exec (.tdcFifoFracRead p) s = .next t ∧ t.replied (doneWith [(s.view TDC.FIFO_FRAC).toNat]) ∧
      t.trg = { s.trg with fifo := s.trg.fifo.drop 1 } ∧ SameOutside [.trg, .qcp, .sent] s t)) ∧
  (∀ (l : Fin 8) (ts : Nat) (s : State), (s.flLine l.val).start = some ts → (s.flLine l.val).local_ = none →
    (s.flLine l.val).startUp + 5000 * nsUnits ≤ s.tb.up →
    (earliest (arrivals s l.val (ts - s.winFld .fl l.val 4 31 16 * 1000 * nsUnits) ts) = none → ∃ t, exec (.twArrivalWaitEnd l) s = .next t ∧
      t.winFld .fl l.val 7 31 24 = 4 ∧ t.regFld TRG.FL_LAST_INFO 31 28 = l.val ∧ t.regFld TRG.FL_LAST_INFO 27 24 = 4 ∧ (t.flLine l.val).start = none ∧
      t.reg TRG.ALARM = (s.reg TRG.ALARM ||| 32) ∧ Raises s t [(0x4008, l.val)] ∧ SameOutside [.regs, .wins, .trg, .evr] s t) ∧
    (∀ tl e, earliest (arrivals s l.val (ts - s.winFld .fl l.val 4 31 16 * 1000 * nsUnits) ts) = some (tl, e) → ∃ t a,
      exec (.twArrivalWaitEnd l) s = .next t ∧ (t.flLine l.val).local_ = some a ∧ a.time = tl ∧ (t.flLine l.val).reportedAt = some s.tb.up ∧
      t.winFld .fl l.val 7 31 24 = 1 ∧ (s.leads = false → t.sent = s.sent) ∧
      (s.leads = true → s.lock.cutOff = false → ∃ m, t.sent = m :: s.sent ∧ m.kind = Message.twReport ∧ m.fields.head? = some s.pair.baseId.toNat ∧
        m.fields[3]? = some (secOf tl) ∧ m.fields[8]? = some (secOf ts)) ∧ SameOutside [.wins, .trg, .sent] s t)) ∧
  (∀ (p : Pkt) (x : Session) (r : TwReport) (s : State), Admits s p x → 1 ≤ x.role →
    (s.leads = false → ∃ t, exec (.twExchange p r) s = .next t ∧ t.replied (refusal .wrongState) ∧ t.trg = s.trg) ∧
    (s.leads = true → r.line.toNat < 8 → s.winBit .fl r.line.toNat 0 31 = true → s.winFld .fl r.line.toNat 6 15 0 = r.pairId.toNat →
      (s.flLine r.line.toNat).remoteAt = none → ∃ t, exec (.twExchange p r) s = .next t ∧ t.replied done ∧
      t.flLine r.line.toNat = { s.flLine r.line.toNat with
        remote := some (Arrival.mk (ofInstant r.arrival) r.falling r.uncertainty r.notLocked r.amplitude), remoteAt := some s.tb.up } ∧
      (∀ k, k ≠ r.line.toNat → t.flLine k = s.flLine k) ∧ SameOutside [.trg, .qcp, .sent] s t) ∧
    (∀ u, s.leads = true → r.line.toNat < 8 → s.winBit .fl r.line.toNat 0 31 = true → s.winFld .fl r.line.toNat 6 15 0 = r.pairId.toNat →
      (s.flLine r.line.toNat).remoteAt = some u → s.tb.up ≤ u + s.winFld .fl r.line.toNat 6 31 16 * msUnits → ∃ t, exec (.twExchange p r) s = .next t ∧
      t.replied done ∧ SameOutside [.qcp, .sent] s t) ∧
    (s.leads = true → 8 ≤ r.line.toNat → ∃ t, exec (.twExchange p r) s = .next t ∧ t.replied (refusal .badParameter) ∧
      Raises s t [(0x400A, 0xFFFF)] ∧ SameOutside [.evr, .qcp, .sent] s t)) ∧
  (∀ (l : Fin 8) (ts : Nat) (a b : Arrival) (len v way : Ratio) (s : State), (s.flLine l.val).start = some ts → (s.flLine l.val).local_ = some a →
    (s.flLine l.val).remote = some b → ratio32 (s.win .fl l.val 1) = some len → ratio32 (s.win .fl l.val 2) = some v →
    way = mulRatio (mulRatio v ⟨1, 1000⟩) (nsRatio a.time b.time) →
    (leRatio (absRatio way) (addRatio len (mulRatio (mulRatio v ⟨1, 1000⟩) ⟨(s.winFld .fl l.val 4 15 0 * 1000 : Nat), 1⟩)) = false → ∃ t,
      exec (.faultLocationResult l) s = .next t ∧ t.flLine l.val = { s.flLine l.val with remote := none } ∧ SameOutside [.trg] s t) ∧
    (0 ≤ (mulRatio (addRatio len way) ⟨1, 2⟩).num → leRatio (mulRatio (addRatio len way) ⟨1, 2⟩) len = true →
      leRatio (absRatio way) (addRatio len (mulRatio (mulRatio v ⟨1, 1000⟩) ⟨(s.winFld .fl l.val 4 15 0 * 1000 : Nat), 1⟩)) = true → ∃ t,
      exec (.faultLocationResult l) s = .next t ∧ t.reg TRG.FL_LAST_DIST = ratioTo32 (mulRatio (addRatio len way) ⟨1, 2⟩) ∧
      t.regFld TRG.FL_LAST_INFO 31 28 = l.val ∧ t.regFld TRG.FL_LAST_INFO 27 24 = 2 ∧ t.reg TRG.FL_LAST_SEC = secWord a.time ∧
      t.winFld .fl l.val 7 31 24 = 2 ∧ Raises s t [(0x4007, l.val)] ∧ SameOutside [.regs, .wins, .trg, .evr] s t ∧
      RegsOutside [TRG.FL_LAST_INFO, TRG.FL_LAST_DIST, TRG.FL_LAST_UNC, TRG.FL_LAST_SEC] s t)) ∧
  (∀ (l : Fin 8) (ts : Nat) (a : Arrival) (len v : Ratio) (s : State), (s.flLine l.val).start = some ts → (s.flLine l.val).local_ = some a →
    ratio32 (s.win .fl l.val 1) = some len → ratio32 (s.win .fl l.val 2) = some v →
    (s.flLine l.val).reportedAt.all (fun u => decide (u + s.winFld .fl l.val 6 31 16 * msUnits ≤ s.tb.up)) = true →
    (s.winBit .fl l.val 0 30 = false → ∃ t, exec (.remoteWaitExpiry l) s = .next t ∧ t.winFld .fl l.val 7 31 24 = 4 ∧ (t.flLine l.val).start = none ∧
      t.regFld TRG.FL_LAST_INFO 27 24 = 4 ∧ Raises s t [(0x4008, l.val)] ∧ SameOutside [.regs, .wins, .trg, .evr] s t) ∧
    (∀ t2 e, s.winBit .fl l.val 0 30 = true → earliest ((arrivals s l.val (a.time + 1) s.tb.now).filter fun y =>
        leRatio (mulRatio (mulRatio v ⟨1, 1000⟩) (nsRatio y.1 a.time)) (mulRatio len ⟨2, 1⟩) && (((y.2[2]?).getD 0).getLsbD 0 == a.falling)) = some (t2, e) →
      ∃ t, exec (.remoteWaitExpiry l) s = .next t ∧ t.winFld .fl l.val 7 31 24 = 3 ∧ t.regFld TRG.FL_LAST_INFO 27 23 = 7 ∧
      t.reg TRG.FL_LAST_DIST = ratioTo32 (mulRatio (mulRatio (mulRatio v ⟨1, 1000⟩) ⟨1, 2⟩) (nsRatio t2 a.time)) ∧ Raises s t [(0x4007, l.val)] ∧
      SameOutside [.regs, .wins, .trg, .evr] s t))

/-! ### The closed-loop engine (chapter 6) -/

/-- Evaluation and writes (R206, R208, R211, R213 to R219): the slot whose turn it is takes its place on its lane; with finite inputs and words it stores what
operation revision 1 computes, whose output without sections is G(SP - y) + FF within U_MIN and U_MAX; an input fault keeps its states and output with event
0x4802, and a result that is not finite is a state fault with event 0x4801. The value is written 20 ns after the evaluation, or at PHASE. -/
def Obligations.LoopEvaluation : Prop :=
  (∀ (k : Byte) (s : State), nextOnLane s (k.toNat % 4) ≠ some k.toNat → exec (.slotEvaluation k) s = .next s) ∧
  (∀ (k : Byte) (n : Nat) (s : State), nextOnLane s (k.toNat % 4) = some k.toNat → n = (s.loop.lanes[k.toNat % 4]?).getD 0 + 1 → ∃ t,
    exec (.slotEvaluation k) s = .next t ∧ s.frame.t0 + (900 + 80 * n) * nsUnits ≤ t.tb.now ∧ (t.slot k.toNat).taken = some (s.frameNo, n) ∧
    (t.slot k.toNat).writeDue = true ∧ (t.slot k.toNat).subst = (slotInput s k.toNat).subst ∧
    (∀ j, j ≠ k.toNat → t.slot j = s.slot j) ∧ t.wins = s.wins ∧
    (finite64 (slotInput s k.toNat).y = false ∨ wordsGood s k.toNat = false → (t.slot k.toNat).states = (s.slot k.toNat).states ∧
      (t.slot k.toNat).us = (s.slot k.toNat).us ∧ (t.slot k.toNat).inFault = true ∧ t.reg LOOP.IN_FAULTS = s.reg LOOP.IN_FAULTS + 1 ∧
      t.reg LOOP.EVALS = s.reg LOOP.EVALS ∧ Raises s t [(0x4802, k.toNat)]) ∧
    (∀ r, finite64 (slotInput s k.toNat).y = true → wordsGood s k.toNat = true →
      evaluate s k.toNat (slotInput s k.toNat).y (s.slot k.toNat).states = r → t.reg LOOP.EVALS = s.reg LOOP.EVALS + 1 ∧
      (t.slot k.toNat).y = (slotInput s k.toNat).y ∧ (t.slot k.toNat).inFault = false ∧
      (finite64 r.u = true → finite64 r.us = true → r.states.all finite64 = true → (t.slot k.toNat).us = r.us ∧ (t.slot k.toNat).states = r.states ∧
        (t.slot k.toNat).stateFault = (s.slot k.toNat).stateFault ∧ Raises s t []) ∧
      (finite64 r.u = false ∨ finite64 r.us = false ∨ r.states.all finite64 = false → (t.slot k.toNat).states = List.replicate 11 0 ∧
        (t.slot k.toNat).stateFault = true ∧ (t.slot k.toNat).us = slotHem s k.toNat ∧ t.reg LOOP.STATE_FAULTS = s.reg LOOP.STATE_FAULTS + 1 ∧
        Raises s t [(0x4801, k.toNat)])) ∧
    SameOutside [.regs, .loop, .tb, .clock, .evr] s t ∧ RegsOutside [LOOP.EVALS, LOOP.SAT_EVALS, LOOP.IN_FAULTS, LOOP.STATE_FAULTS, LOOP.ALARM,
      LOOP.EVAL_END_MAX, LOOP.LANE_END (k.toNat % 4)] s t) ∧
  (∀ (k : Nat) (y : Dword) (st : List Dword) (s : State), (sectOf s k 1).order = 0 → (sectOf s k 2).order = 0 → (sectOf s k 3).order = 0 →
    (sectOf s k 4).order = 0 → slotMode s k = 1 → (evaluate s k y st).us = min64 (max64 (add64 (mul64 (widen (s.slotWord k 0 5))
      (sub64 (widen (s.slotWord k 0 3)) y)) (widen (s.slotWord k 0 4))) (widen (s.slotWord k 0 6))) (widen (s.slotWord k 0 7))) ∧
  (∀ (k : Byte) (n : Nat) (s : State), k.toNat < 240 → (s.slot k.toNat).writeDue = true → (s.slot k.toNat).taken = some (s.frameNo, n) →
    (fld (s.slotWord k.toNat 0 0) 25 24 = 0 → ∃ t, exec (.asapSlotWrite k) s = .next t ∧ s.frame.t0 + (920 + 80 * n) * nsUnits ≤ t.tb.now ∧
      t.slot k.toNat = { s.slot k.toNat with writeDue := false, lastWrite := 368 + 32 * n, wrote := some s.frameNo } ∧ SameOutside [.loop, .tb, .clock] s t) ∧
    (fld (s.slotWord k.toNat 0 0) 25 24 = 1 → finite32 (narrow (s.slot k.toNat).us) = true → ∃ t, exec (.asapSlotWrite k) s = .next t ∧
      (t.ao (fld (s.slotWord k.toNat 0 0) 18 16)).cmd = narrow (s.slot k.toNat).us ∧ (t.ao (fld (s.slotWord k.toNat 0 0) 18 16)).committed = true ∧
      (∀ j, j ≠ fld (s.slotWord k.toNat 0 0) 18 16 → t.ao j = s.ao j) ∧ Raises s t [] ∧ SameOutside [.loop, .io, .tb, .clock] s t) ∧
    (fld (s.slotWord k.toNat 0 0) 25 24 = 1 → finite32 (narrow (s.slot k.toNat).us) = false → ∃ t, exec (.asapSlotWrite k) s = .next t ∧
      (t.ao (fld (s.slotWord k.toNat 0 0) 18 16)).cmd = (s.ao (fld (s.slotWord k.toNat 0 0) 18 16)).cmd ∧
      Raises s t [(0x5804, fld (s.slotWord k.toNat 0 0) 18 16)])) ∧
  (∀ (k : Byte) (n : Nat) (s : State), 240 ≤ k.toNat → (s.slot k.toNat).writeDue = true → (s.slot k.toNat).taken = some (s.frameNo, n) →
    slotMode s k.toNat = 1 → fld (s.slotWord k.toNat 0 0) 25 24 = 0 → ∃ t, exec (.fixedPhaseSlotWrite k) s = .next t ∧
    s.frame.t0 + fld (s.slotWord k.toNat 0 10) 11 0 * clockUnits ≤ t.tb.now ∧ t.reg (LOOP.FP_OUT (k.toNat - 240)) = narrow (s.slot k.toNat).us ∧
    t.slot k.toNat = { s.slot k.toNat with writeDue := false, lastWrite := fld (s.slotWord k.toNat 0 10) 11 0, wrote := some s.frameNo } ∧
    SameOutside [.regs, .loop, .tb, .clock] s t ∧ RegsOutside [LOOP.FP_OUT (k.toNat - 240)] s t) ∧
  (∀ (p : Pkt) (w : Fin 8) (v : Word) (x : Session) (s : State), MayWrite s p x (LOOP.FAULT w.val) v → ∃ t, exec (.loopFaultClear p w v) s = .next t ∧
    t.replied done ∧ (∀ i < 32, bit v i = true → (s.slot (32 * w.val + i)).stateFault = true → (t.slot (32 * w.val + i)).stateFault = false ∧
      (t.slot (32 * w.val + i)).states = List.replicate 11 0) ∧
    (∀ j, (∀ i < 32, j = 32 * w.val + i → bit v i = false) → t.slot j = s.slot j) ∧ SameOutside [.loop, .qcp, .sent] s t)

/-- Commits, applications and notch design (R202 to R205, R222, R223, R348, R350): SEL shows another slot and drops the staged words of the last one; a commit is
accepted with its application tick and its words, or refused with its reason and event 0x4804; at the tick the words are committed with event 0x4803; a
late confirmation drops the STANDBY to TRACK. A design reports its achieved values when it completes. -/
def Obligations.LoopCommits : Prop :=
  (∀ (p : Pkt) (v : Word) (x : Session) (s : State), MayWrite s p x LOOP.SEL v → ∃ t, exec (.loopSel p v) s = .next t ∧ t.replied done ∧
    t.regFld LOOP.SEL 15 8 = fld v 15 8 ∧ t.regFld LOOP.SEL 2 0 = fld v 2 0 ∧ t.wins = s.wins ∧
    (fld v 15 8 = s.regFld LOOP.SEL 15 8 → t.staged = s.staged) ∧
    (fld v 15 8 ≠ s.regFld LOOP.SEL 15 8 → stagedWords t (s.regFld LOOP.SEL 15 8) = []) ∧ SameOutside [.regs, .staged, .qcp, .sent] s t ∧
    RegsOutside [LOOP.SEL] s t) ∧
  (∀ (p : Pkt) (x : Session) (k : Nat) (words : List (Nat × Word)) (s : State), MayWrite s p x LOOP.COMMIT 1 → k = s.regFld LOOP.SEL 15 8 →
    words = stagedWords s k →
    (loopRefusal s k words = none → ∃ t a, exec (.loopCommit p 1) s = .next t ∧ t.replied done ∧ t.frame.applications = s.frame.applications ++ [a] ∧
      a.effect = .loopCommit k words ∧ a.tick % frameUnits = 0 ∧ s.tb.now < a.tick ∧ (s.role = .active → s.tb.now + 20000 * nsUnits ≤ a.tick) ∧
      a.confirmed = !(needsConfirm s) ∧ stagedWords t k = [] ∧ t.wins = s.wins ∧ t.reg LOOP.COMMIT_RESULT = BitVec.ofNat 32 (0xFF00 + k) ∧
      SameOutside [.regs, .staged, .frame, .qcp, .sent] s t ∧ RegsOutside [LOOP.COMMIT_RESULT] s t) ∧
    (∀ w, loopRefusal s k words = some (.badParameter, w, none) → ∃ t, exec (.loopCommit p 1) s = .next t ∧ t.replied (refusal .badParameter 0 4) ∧
      t.staged = s.staged ∧ t.reg LOOP.COMMIT_RESULT = BitVec.ofNat 32 (Status.badParameter.code * 16777216 + w / 16 * 65536 + w % 16 * 256 + k) ∧
      t.reg LOOP.ALARM = (s.reg LOOP.ALARM ||| 4) ∧ Raises s t [(0x4804, k)] ∧ SameOutside [.regs, .evr, .qcp, .sent] s t ∧
      RegsOutside [LOOP.COMMIT_RESULT, LOOP.ALARM] s t)) ∧
  (∀ (k : Nat) (words : List (Nat × Word)) (a : Application) (s : State), s.frame.applications = [a] → a.effect = .loopCommit k words →
    (words.all fun e => decide (16 ≤ e.1)) = true → ∃ t, exec .applicationTick s = .next t ∧ a.tick ≤ t.tb.now ∧ t.frame.applications = [] ∧
    t.reg LOOP.COMMITS = s.reg LOOP.COMMITS + 1 ∧ (t.slot k).stateFault = (s.slot k).stateFault ∧ (∀ j, j ≠ k → t.slot j = s.slot j) ∧
    (∀ e, words = [e] → t.win .loop (k * 8 + e.1 / 16) (e.1 % 16) = e.2) ∧ Raises s t [(0x4803, k)] ∧
    SameOutside [.regs, .wins, .frame, .loop, .tb, .clock, .evr] s t ∧ RegsOutside [LOOP.COMMITS] s t) ∧
  (∀ s : State, s.frame.applications = [] → exec .applicationTick s = .next s) ∧
  (∀ (k : Nat) (words : List (Nat × Word)) (a : Application) (s : State), s.frame.applications = [a] → a.effect = .loopCommit k words →
    a.confirmed = false →
    (s.role = .standby → ∃ t, exec .applicationConfirmDeadline s = .next t ∧ a.tick - frameUnits ≤ t.tb.now ∧ t.frame.applications = [] ∧
      t.pair = { s.pair with trackDue := true } ∧ Raises s t [(0x4806, 0xFFFF)] ∧ SameOutside [.frame, .pair, .tb, .clock, .evr] s t) ∧
    (s.role ≠ .standby → ∃ t, exec .applicationConfirmDeadline s = .next t ∧ t.frame.applications = [{ a with confirmed := true }] ∧
      Raises s t [(0x4806, 0xFFFF)] ∧ SameOutside [.frame, .tb, .clock, .evr] s t)) ∧
  (∀ (p : Pkt) (x : Session) (slot page : Byte) (s : State), Admits s p x → page.toNat ≤ 4 → ∃ t, exec (.loopWindowRead p slot page 0) s = .next t ∧
    t.replied { status := .done, payload := pageWords s slot.toNat page.toNat } ∧ SameOutside [.qcp, .sent] s t) ∧
  (∀ (p : Pkt) (x : Session) (slot page : Byte) (words : List Word) (s : State), Admits s p x → 2 ≤ x.role → page.toNat ≤ 4 → words.length = 16 →
    s.mayConfigure = true → s.windowHolder .loop p.session = none → ∃ t,
    exec (.loopWindowStage p slot page 0 words) s = .next t ∧ t.replied { status := .done, payload := pageWords t slot.toNat page.toNat } ∧
    t.regFld LOOP.SEL 15 8 = slot.toNat ∧ t.regFld LOOP.SEL 2 0 = page.toNat ∧ t.wins = s.wins ∧
    (∀ w < 16, loopMask page.toNat w ≠ 0 → t.winStaged .loop (slot.toNat * 8 + page.toNat) w = (words.getD w 0 &&& loopMask page.toNat w)) ∧
    SameOutside [.regs, .staged, .qcp, .sent] s t ∧ RegsOutside [LOOP.SEL] s t) ∧
  (∀ (p : Pkt) (x : Session) (slot page : Byte) (words : List Word) (u : State) (s : State), Admits s p x → 2 ≤ x.role → page.toNat ≤ 4 →
    words.length = 16 → s.mayConfigure = true → s.windowHolder .loop p.session = none →
    u = (s.selectLoop slot.toNat page.toNat).stagePage slot.toNat page.toNat 0 words →
    loopRefusal u slot.toNat (stagedWords u slot.toNat) = none → ∃ t a, exec (.loopWindowCommit p slot page 0 words) s = .next t ∧
    t.replied { status := .done, payload := pageWords t slot.toNat page.toNat } ∧ t.frame.applications = s.frame.applications ++ [a] ∧
    a.effect = .loopCommit slot.toNat (stagedWords u slot.toNat) ∧ stagedWords t slot.toNat = [] ∧
    t.reg LOOP.COMMIT_RESULT = BitVec.ofNat 32 (0xFF00 + slot.toNat) ∧ SameOutside [.regs, .staged, .frame, .qcp, .sent] s t) ∧
  (∀ (p : Pkt) (x : Session) (d : Design) (s : State), MayWrite s p x LOOP.ND_CMD 1 → s.loop.design = none →
    d = { by_ := none, slot := s.regFld LOOP.ND_SLOT 7 0, sect := s.regFld LOOP.ND_SLOT 25 24, apply := s.regBit LOOP.ND_SLOT 31, f0 := s.reg LOOP.ND_F0,
          width := s.reg LOOP.ND_WIDTH, depth := s.reg LOOP.ND_DEPTH } →
    (designOk s d = false → ∃ t, exec (.loopNdCmd p 1) s = .next t ∧ t.replied (refusal .badParameter) ∧ t.loop = s.loop ∧
      t.regBit LOOP.ND_STATUS 31 = false ∧ SameOutside [.regs, .qcp, .sent] s t ∧ RegsOutside [LOOP.ND_STATUS] s t) ∧
    (designOk s d = true → d.apply = false → ∃ t, exec (.loopNdCmd p 1) s = .next t ∧ t.replied done ∧ t.loop = { s.loop with design := some d } ∧
      t.regBit LOOP.ND_STATUS 31 = true ∧ SameOutside [.regs, .loop, .qcp, .sent] s t ∧ RegsOutside [LOOP.ND_STATUS] s t)) ∧
  (∀ (p : Pkt) (x : Session) (f0 width depth : Word) (slot sect : Byte) (d : Design) (s : State), Admits s p x → 2 ≤ x.role → sect.toNat ≤ 3 →
    s.mayConfigure = true → s.windowHolder .loopNd p.session = none → s.loop.design = none →
    d = { by_ := some (requesterOf p), slot := slot.toNat, sect := sect.toNat, apply := false, f0 := f0, width := width, depth := depth } →
    designOk s d = true → ∃ t, exec (.notchDesign p f0 width depth slot sect 0 0) s = .next t ∧ t.loop = { s.loop with design := some d } ∧
    t.regBit LOOP.ND_STATUS 31 = true ∧ t.sent = s.sent ∧ SameOutside [.regs, .loop, .qcp] s t ∧ RegsOutside [LOOP.ND_STATUS] s t) ∧
  (∀ (d : Design) (s : State), s.loop.design = some d → d.apply = false → d.by_ = none → ∃ t, exec .notchDesignComplete s = .next t ∧
    t.loop = { s.loop with design := none } ∧ (∀ i < 5, t.reg (LOOP.ND_COEF i) = (designWords s d).getD i 0) ∧
    t.reg LOOP.ND_ACH_F0 = (designAchieved (designWords s d) d.f0 (slotRate s d.slot)).1 ∧
    t.reg LOOP.ND_ACH_DEPTH = (designAchieved (designWords s d) d.f0 (slotRate s d.slot)).2.2 ∧
    t.reg LOOP.ND_ACH_WIDTH = (designAchieved (designWords s d) d.f0 (slotRate s d.slot)).2.1 ∧ t.reg LOOP.ND_STATUS = 0 ∧
    t.reg LOOP.ALARM = (s.reg LOOP.ALARM ||| 8) ∧ Raises s t [(0x4805, d.slot)] ∧ (∀ c ∈ t.qcp.claims, c.1 ≠ WindowId.loopNd) ∧
    SameOutside [.regs, .loop, .evr, .qcp] s t)

/-! ### Core pairs and comparison (chapter 7) -/

/-- The fault reaction and the tests (R229, R231 to R240, R249, R250): a mismatch of a compared unit latches the fault with its diagnostics, cuts the outputs off, drops
and clamps the claim and asserts the takeover line; a latched one changes nothing; the module then takes OUT and STOP. A lane that does not detect
its test, and a second readback that disagrees, are faults of causes 2 and 4. A passing start-up test sets TESTED and ends the cut-off, a failing one sends
the module to OUT. The lockout ends by LOCK.CLEAR [8]; debug access needs HOLD, a held pair and a certificate. -/
def Obligations.CoreComparison : Prop :=
  (∀ (m : Mismatch) (s : State), s.unitCompared m.unit.val = true → differingLanes m ≠ 0 → s.regBit LOCK.STATUS 31 = false → s.pair.handover = none →
    (countedFaults s).length < s.regFld LOCK.CFG 23 16 → ∃ t, exec (.comparatorMismatch m) s = .next t ∧
    s.frame.t0 + m.cycle.toNat * 1250 * nsUnits / 1000 + 5 * nsUnits ≤ t.tb.now ∧ t.regBit LOCK.STATUS 31 = true ∧
    t.reg LOCK.FAULT = BitVec.ofNat 32 (m.unit.val * 268435456 + 16777216 + s.role.code * 1048576 + s.mode.code * 65536 + firstLane (differingLanes m)) ∧
    t.reg LOCK.FAULT_PC = m.pc ∧ t.reg LOCK.FAULT_BITS = m.bits.zeroExtend 32 ∧ t.reg LOCK.FAULT_CYCLE = m.cycle.zeroExtend 32 ∧
    t.reg LOCK.FAULT_SEC = secWord t.tb.now ∧ t.reg (LOCK.LANE_FAULT m.unit.val 0) = BitVec.ofNat 32 (differingLanes m).toNat ∧ t.lock.cutOff = true ∧
    t.lock.toOut = true ∧ t.lock.faultAt = t.tb.up ∧ t.pair.claim = false ∧ t.pair.clamped = true ∧ t.pair.takeoverOut = true ∧ t.role = s.role ∧
    t.mode = s.mode ∧ t.frame.run0 = none ∧ t.frame.run1 = none ∧ Raises s t [(0x0301, m.unit.val)] ∧
    SameOutside [.regs, .frame, .pair, .lock, .evr, .tb, .clock] s t ∧
    RegsOutside ([LOCK.STATUS, LOCK.FAULT, LOCK.FAULT_PC, LOCK.FAULT_BITS, LOCK.FAULT_CYCLE, LOCK.FAULT_SEC, LOCK.FAULT_NS, LOCK.RESTARTS] ++
      (List.range 4).map (LOCK.LANE_FAULT m.unit.val)) s t) ∧
  (∀ (m : Mismatch) (s : State), s.unitCompared m.unit.val = false ∨ differingLanes m = 0 → exec (.comparatorMismatch m) s = .next s) ∧
  (∀ (m : Mismatch) (s : State), s.regBit LOCK.STATUS 31 = true → ∃ t, exec (.comparatorMismatch m) s = .next t ∧ SameOutside [.tb, .clock] s t) ∧
  (∀ s : State, s.lock.toOut = true → s.role ≠ .out → ∃ t, exec .comparatorFaultToOut s = .next t ∧ t.role = .out ∧ t.mode = .stop ∧
    t.reg PAIR.OUT_CAUSE = 1 ∧ t.lock.toOut = false ∧ t.lock.cutOff = s.lock.cutOff ∧ t.pair.clamped = true ∧ t.pair.claim = false ∧
    t.frame.runChange = none ∧ t.frame.sw = none ∧ SameOutside (touches .comparatorFaultToOut) s t) ∧
  (∀ (levels : BitVec 3) (s : State), s.regBit LOCK.STATUS 31 = false → s.pair.handover = none → s.frame.stage = 3 ∨ s.frame.stage = 4 →
    (countedFaults s).length < s.regFld LOCK.CFG 23 16 → ∃ t, exec (.safetyReadback levels) s = .next t ∧
    s.frame.t0 + 9750 * nsUnits ≤ t.tb.now ∧ t.frame.stage = 5 ∧ t.regBit LOCK.STATUS 13 = decide (levels = safetyLevels s) ∧
    (levels = safetyLevels s → t.lock = { s.lock with disagree := 0 } ∧ Raises s t [] ∧ RegsOutside [LOCK.STATUS] s t) ∧
    (levels ≠ safetyLevels s → s.lock.disagree = 0 → t.lock = { s.lock with disagree := 1 } ∧ Raises s t [] ∧ RegsOutside [LOCK.STATUS] s t) ∧
    (levels ≠ safetyLevels s → 1 ≤ s.lock.disagree → t.lock.cutOff = true ∧ t.lock.toOut = true ∧ t.regBit LOCK.STATUS 31 = true ∧
      t.regFld LOCK.FAULT 31 24 = 0x44 ∧ t.pair.clamped = true ∧ Raises s t [(0x0303, 4)])) ∧
  (∀ (detected : BitVec 4) (s : State), s.frame.stage = 3 → s.regBit LOCK.CFG 4 = true → s.tested = true → s.regBit LOCK.STATUS 31 = false → s.pair.handover = none →
    (countedFaults s).length < s.regFld LOCK.CFG 23 16 → ∃ t, exec (.backgroundLaneTest detected) s = .next t ∧
    s.frame.t0 + 9600 * nsUnits ≤ t.tb.now ∧ t.lock.lane = (s.lock.lane + 1) % 128 ∧
    (undetected s detected = [] → t.regBit LOCK.STATUS 31 = false ∧ t.lock.cutOff = s.lock.cutOff ∧ Raises s t [] ∧
      (∀ p < 4, t.reg (LOCK.BG_ROUNDS p) = s.reg (LOCK.BG_ROUNDS p) + (if s.lock.lane % 128 = 127 ∧ s.unitCompared p = true then 1 else 0)) ∧
      t.frame = { s.frame with stage := 4 } ∧ SameOutside [.regs, .tb, .clock, .frame, .lock] s t) ∧
    (∀ u rest, undetected s detected = u :: rest → t.regBit LOCK.STATUS 31 = true ∧ t.regFld LOCK.FAULT 31 28 = u ∧ t.regFld LOCK.FAULT 27 24 = 2 ∧
      t.lock.cutOff = true ∧ t.lock.toOut = true ∧ Raises s t [(0x0303, u)])) ∧
  (∀ (r : TestResult) (s : State), s.role = .init → s.regFld LOCK.TEST_STATUS 31 28 < 2 →
    (failedUnits s r = [] → s.regBit LOCK.STATUS 28 = false → ∃ t, exec (.startupTestComplete r) s = .next t ∧ t.regBit LOCK.STATUS 31 = false ∧
      t.regBit LOCK.STATUS 30 = true ∧ (s.regFld LOCK.STATUS 26 24 = 0 → t.regFld LOCK.STATUS 26 24 = 7 - s.lock.split.toNat) ∧ t.regFld LOCK.TEST_STATUS 31 28 = 2 ∧
      t.regFld LOCK.TEST_STATUS 23 0 = r.micros.toNat ∧ t.lock.cutOff = false ∧ t.pair.takeoverOut = false ∧ t.pair.testedAt = s.tb.up ∧
      Raises s t [(0x0304, 0xFFFF)] ∧ SameOutside [.regs, .lock, .pair, .evr] s t) ∧
    (∀ u rest, failedUnits s r = u :: rest → s.regBit LOCK.STATUS 28 = false → ∃ t, exec (.startupTestComplete r) s = .next t ∧
      t.regBit LOCK.STATUS 30 = false ∧ t.regFld LOCK.TEST_STATUS 31 28 = 3 ∧ t.regFld LOCK.FAULT 31 28 = u ∧ t.lock.cutOff = true ∧
      t.pair.outDue = some 0x02 ∧ t.pair.clamped = true ∧ t.pair.claim = false ∧ Raises s t [(0x0302, 0xFFFF)] ∧
      SameOutside [.regs, .lock, .pair, .evr] s t)) ∧
  (∀ (p : Pkt) (x : Session) (s : State), MayWrite s p x LOCK.TEST_RUN 0x5445 →
    (s.role = .out → s.mode = .stop → ∃ t, exec (.lockTestRun p 0x5445) s = .next t ∧ t.replied done ∧ t.reg LOCK.TEST_STATUS = 0x10000000 ∧
      SameOutside [.regs, .qcp, .sent] s t ∧ RegsOutside [LOCK.TEST_STATUS] s t) ∧
    (s.role ≠ .out ∨ s.mode ≠ .stop → ∃ t, exec (.lockTestRun p 0x5445) s = .next t ∧ t.replied (refusal .wrongState) ∧
      SameOutside [.qcp, .sent] s t)) ∧
  (∀ (p : Pkt) (x : Session) (v : Word) (s : State), MayWrite s p x LOCK.CLEAR v → bit v 8 = true → bit v 0 = false → 3 ≤ x.role ∧
    ∃ t, exec (.lockClearLockout p v) s = .next t ∧ t.replied done ∧ t.regBit LOCK.STATUS 28 = false ∧ t.regFld LOCK.RESTARTS 15 0 = 0 ∧
    t.lock = { s.lock with faultTimes := [] } ∧ (∀ i < 32, i ≠ 28 → t.regBit LOCK.STATUS i = s.regBit LOCK.STATUS i) ∧
    SameOutside [.regs, .lock, .qcp, .sent] s t ∧ RegsOutside [LOCK.STATUS, LOCK.RESTARTS] s t) ∧
  (∀ (r : TestResult) (s : State), s.lock.restoring = true →
    (failedUnits s r = [] → s.regBit LOCK.STATUS 28 = false → ∃ t, exec (.holdExitRestore r) s = .next t ∧ t.lock.restoring = false ∧
      t.lock.debugAccess = 0 ∧ t.regBit LOCK.STATUS 15 = false ∧ t.regFld LOCK.STATUS 18 16 = 0 ∧ t.regBit LOCK.STATUS 30 = true ∧
      Raises s t [(0x0304, 0xFFFF), (0x0307, 0xFFFF)] ∧ SameOutside [.regs, .lock, .pair, .evr] s t) ∧
    (∀ u rest, failedUnits s r = u :: rest → ∃ t, exec (.holdExitRestore r) s = .next t ∧ t.lock.restoring = true ∧ t.pair.outDue = some 0x02 ∧
      t.regBit LOCK.STATUS 15 = s.regBit LOCK.STATUS 15 ∧ Raises s t [(0x0302, 0xFFFF)])) ∧
  (∀ (k : Fin 2) (pairs until_ : Nat) (s : State), s.mode = .hold → s.regBit LOCK.STATUS (16 + k.val) = true → s.trust.cert = some (pairs, until_) →
    pairs.testBit k.val = true → ∃ t, exec (.debugRequest k) s = .next t ∧ t.lock = { s.lock with debugAccess := s.lock.debugAccess ||| 2 ^ k.val } ∧
    SameOutside [.lock] s t) ∧
  (∀ (k : Fin 2) (s : State), s.mode ≠ .hold → ∃ t, exec (.debugRequest k) s = .next t ∧ Raises s t [(0x030A, 0xFFFF)] ∧ SameOutside [.evr] s t)

/-! ### The redundant pair (chapter 8) -/

/-- The partner and the paths to it (R256 to R259, R501): a heartbeat with a correct CRC shows the partner's role, mode and flags and counts for the
frame, one with a wrong CRC is discarded and counted on its lane;
equal digests of a frame clear the memory error, different ones raise event 0x0209, mute the STANDBY and start the self-check (R277, R278); each path is judged once per frame, a missing beat is counted, three in a row lose
the path and ten good ones bring it back, a pending handover is cancelled with a lost path; a lane that fails or is restored shows it. -/
def Obligations.HeartbeatPaths : Prop :=
  (∀ (h : Heartbeat) (recheck : Bool) (s : State), heartbeatIntact h = true → s.frame.overruns = [] → ∃ t, exec (.heartbeatReceived h recheck) s = .next t ∧
    t.pair.partnerPresent = true ∧ t.pair.partnerRole = h.role ∧ t.pair.partnerMode = h.mode ∧ t.pair.partnerFlags = heartbeatFlags h ∧
    t.pair.partnerId = h.pairId ∧ t.pair.partnerSwitch = h.switchPending ∧ t.pair.heardAt = some s.tb.up ∧ t.pair.tandem.seen = true ∧
    (h.frameIndex = BitVec.ofNat 32 (s.timeIndex 0) → t.pair.digestPeer = h.digest ∧ t.pair.peerNow = some h.digest) ∧
    (s.pair.ownNow = none → s.frame.sw = none → Raises s t []) ∧ t.role = s.role ∧ t.mode = s.mode ∧
    SameOutside [.regs, .frame, .pair, .evr, .qcp, .sent] s t) ∧
  (∀ (h : Heartbeat) (recheck : Bool) (own : Dword) (s : State), heartbeatIntact h = true → s.frame.overruns = [] → s.frame.sw = none →
    h.frameIndex = BitVec.ofNat 32 (s.timeIndex 0) → s.pair.ownNow = some own →
    (s.role = .active ∧ h.role = .standby) ∨ (s.role = .standby ∧ h.role = .active) → s.pair.handover = none → ∃ t,
    exec (.heartbeatReceived h recheck) s = .next t ∧
    (own = h.digest → t.pair.memoryError = false ∧ t.pair.muted = s.pair.muted ∧ Raises s t []) ∧
    (own ≠ h.digest → t.pair.muted = (s.pair.muted || decide (s.role = .standby)) ∧ t.pair.cleanFrames = 0 ∧ t.pair.differNow = true ∧
      t.pair.selfCheck = some (!(s.pair.memoryError || recheck)) ∧ (t.pair.muted = true → s.role = .standby → t.pair.claim = false) ∧
      t.reg PAIR.DIGEST_MISMATCH = s.reg PAIR.DIGEST_MISMATCH + 1 ∧ Raises s t [(0x0209, 0xFFFF)] ∧
      (s.pair.mismatch = none → t.pair.mismatch = some { at_ := s.frame.count }) ∧
      t.reg PAIR.SELFCHECK = BitVec.ofNat 32 ((if s.pair.memoryError || recheck then 2 else 1) * 268435456 + b2n s.pair.memoryError * 2 + b2n recheck)) ∧
    RegsOutside [PAIR.DIGEST_MISMATCH, PAIR.SELFCHECK] s t) ∧
  (∀ (h : Heartbeat) (recheck : Bool) (s : State), heartbeatIntact h = false → ∃ t, exec (.heartbeatReceived h recheck) s = .next t ∧
    t.reg (PAIR.LANE1 h.lane.val) = s.reg (PAIR.LANE1 h.lane.val) + 1 ∧ SameOutside [.regs] s t ∧ RegsOutside [PAIR.LANE1 h.lane.val] s t) ∧
  (∀ s : State, s.pair.tandem.seen = true → s.pair.tandem.lost = false → ∃ t, exec .heartbeatDeadline s = .next t ∧
    s.frame.t0 + 9700 * nsUnits ≤ t.tb.now ∧ t.pair.tandem = s.pair.tandem.after true ∧ t.pair.tandem.misses = 0 ∧
    t.pair.tandem.good = s.pair.tandem.good + 1 ∧ (9 ≤ s.pair.tandem.good → t.pair.tandem.up = true) ∧ t.pair.handover = s.pair.handover ∧
    SameOutside [.tb, .clock, .pair] s t) ∧
  (∀ s : State, s.pair.tandem.seen = false → s.pair.tandem.up = true → s.pair.tandem.lost = false → s.pair.tandem.misses = 2 →
    s.pair.pulse.lost = false → s.pair.degraded = false → s.pair.handover = none → s.role ≠ .track → ∃ t, exec .heartbeatDeadline s = .next t ∧
    t.pair.tandem.up = false ∧ t.pair.tandem.lost = true ∧ t.pair.degraded = true ∧ t.reg PAIR.TANDEM_MISSES = s.reg PAIR.TANDEM_MISSES + 1 ∧
    t.reg PAIR.DEGRADED_COUNT = s.reg PAIR.DEGRADED_COUNT + 1 ∧ Raises s t [(0x0202, 0xFFFF)] ∧ SameOutside [.regs, .tb, .clock, .pair, .evr] s t ∧
    RegsOutside [PAIR.TANDEM_MISSES, PAIR.DEGRADED_COUNT] s t) ∧
  (∀ (offset : Int) (s : State), offset.natAbs ≤ 100 → ∃ t, exec (.pulseToggleReceived offset) s = .next t ∧
    t.pair = { s.pair with partnerPresent := true, pulse := { s.pair.pulse with seen := true } } ∧ SameOutside [.pair] s t) ∧
  (∀ (offset : Int) (s : State), 100 < offset.natAbs → exec (.pulseToggleReceived offset) s = .next s) ∧
  (∀ s : State, s.pair.pulse.seen = true → s.pair.pulse.lost = false → ∃ t, exec .pulseWindowExpiry s = .next t ∧
    s.frame.t0 + 100 * nsUnits ≤ t.tb.now ∧ t.pair.pulse = s.pair.pulse.after true ∧ t.pair.handover = s.pair.handover ∧
    SameOutside [.tb, .clock, .pair] s t) ∧
  (∀ s : State, s.pair.pulse.seen = false → s.pair.pulse.up = true → s.pair.pulse.lost = false → s.pair.pulse.misses = 2 →
    s.pair.tandem.lost = false → s.pair.degraded = false → s.pair.handover = none → ∃ t, exec .pulseWindowExpiry s = .next t ∧
    t.pair.pulse.up = false ∧ t.pair.pulse.lost = true ∧ t.pair.degraded = true ∧ t.reg PAIR.PULSE_MISSES = s.reg PAIR.PULSE_MISSES + 1 ∧
    t.reg PAIR.DEGRADED_COUNT = s.reg PAIR.DEGRADED_COUNT + 1 ∧ Raises s t [(0x0203, 0xFFFF)] ∧ SameOutside [.regs, .tb, .clock, .pair, .evr] s t ∧
    RegsOutside [PAIR.PULSE_MISSES, PAIR.DEGRADED_COUNT] s t) ∧
  (∀ (l : Fin 2) (s : State), ∃ t, exec (.laneFailure l) s = .next t ∧ t.pair.lane0 = (s.pair.lane0 && decide (l.val ≠ 0)) ∧
    t.pair.lane1 = (s.pair.lane1 && decide (l.val = 0)) ∧ t.reg (PAIR.LANE0 l.val) = 0 ∧ t.reg (PAIR.LANE3 l.val) = s.reg (PAIR.LANE3 l.val) + 1 ∧
    t.reg (PAIR.LANE7 l.val) = secWord s.tb.now ∧ SameOutside [.regs, .pair] s t ∧
    RegsOutside [PAIR.LANE0 l.val, PAIR.LANE3 l.val, PAIR.LANE7 l.val] s t) ∧
  (∀ (l : Fin 2) (s : State), ∃ t, exec (.laneRestored l) s = .next t ∧ t.pair.lane0 = (s.pair.lane0 || decide (l.val = 0)) ∧
    t.pair.lane1 = (s.pair.lane1 || decide (l.val ≠ 0)) ∧ t.reg (PAIR.LANE0 l.val) = 0xC0000000 ∧ SameOutside [.regs, .pair] s t ∧
    RegsOutside [PAIR.LANE0 l.val] s t) ∧
  (∀ s : State, ∃ t, exec .takeoverLineAsserted s = .next t ∧ t.pair = { s.pair with takeoverIn := true } ∧ SameOutside [.pair] s t) ∧
  (∀ (present : Bool) (s : State), ∃ t, exec (.partnerPresenceChange present) s = .next t ∧ t.pair.partnerPresent = present ∧
    (present = false → t.pair.claimPartner = false ∧ t.pair.grantPartner = false ∧ t.pair.sharePartner = false) ∧ t.pair.grant = s.pair.grant ∧
    SameOutside [.pair] s t)

/-- The claim and the grant of the yoke (R260 to R265, R281, R386): a refresh asserts the claim while the module may lead, and at least 3 µs without one
drop it; only a claim is granted, and a grant ends the unheld state; a lost grant outside a share window is remembered for the roles; the share
window ends 2 µs after its tick, or after 4 µs, with event 0x0207 and the outgoing module's grant removed; 20 µs without any grant is the unheld
state. -/
def Obligations.YokeMoves : Prop :=
  (∀ s : State, claimWanted s = true → ∃ t, exec .claimRefresh s = .next t ∧ t.pair = { s.pair with claim := true, refreshed := t.tb.up } ∧
    t.tb.now % (1000 * nsUnits) = 0 ∧ s.tb.now ≤ t.tb.now ∧ t.tb.now < s.tb.now + 1000 * nsUnits ∧ SameOutside [.tb, .clock, .pair] s t) ∧
  (∀ s : State, claimWanted s = false → ∃ t, exec .claimRefresh s = .next t ∧ t.pair = s.pair ∧ SameOutside [.tb, .clock] s t) ∧
  (∀ s : State, ∃ t, exec .claimDecay s = .next t ∧ t.pair = { s.pair with claim := false } ∧ s.pair.refreshed + 3000 * nsUnits ≤ t.tb.up ∧
    SameOutside [.tb, .clock, .pair] s t) ∧
  (∀ (y : YokeLines) (gap : Half) (droop : Word) (s : State), s.pair.claim = true → s.pair.grant = false → ∃ t,
    exec (.grantGained y gap droop) s = .next t ∧ t.pair.grant = true ∧ t.pair.unheld = false ∧ t.pair.claim = true ∧
    t.pair.grantPartner = y.grantPartner ∧ t.pair.sharePartner = y.sharePartner ∧ t.role = s.role ∧
    (y.sharePartner = false → s.pair.grantPartner = true → t.pair.gap = gap.toNat)) ∧
  (∀ (y : YokeLines) (gap : Half) (droop : Word) (s : State), s.pair.claim = false → ∃ t, exec (.grantGained y gap droop) s = .next t ∧
    t.pair.grant = s.pair.grant ∧ SameOutside [.pair] s t) ∧
  (∀ (y : YokeLines) (s : State), s.pair.grant = true → ∃ t, exec (.grantLost y) s = .next t ∧ t.pair.grant = false ∧
    t.pair.ungrantedAt = s.tb.up ∧ t.pair.grantLost = (s.pair.claim && !s.pair.share) ∧ t.pair.claim = s.pair.claim ∧ t.role = s.role) ∧
  (∀ (timeout : Bool) (err : Word) (h : Handover) (s : State), s.pair.handover = some h → h.sharing = true → h.giver = true → ∃ t,
    exec (.shareWindowEnd timeout err) s = .next t ∧ h.tick + (if timeout then 4000 else 2000) * nsUnits ≤ t.tb.now ∧ t.pair.handover = none ∧
    t.pair.grant = false ∧ t.pair.grantPartner = true ∧ t.pair.share = false ∧ t.pair.claim = s.pair.claim ∧
    t.pair.outDue = (if s.pair.leverOut then some 0x0C else s.pair.outDue) ∧ t.reg PAIR.HANDOVERS = s.reg PAIR.HANDOVERS + 1) ∧
  (∀ (timeout : Bool) (err : Word) (h : Handover) (s : State), s.pair.handover = some h → h.sharing = true → h.giver = false → ∃ t,
    exec (.shareWindowEnd timeout err) s = .next t ∧ t.pair.handover = none ∧ t.pair.grant = s.pair.grant ∧ t.pair.grantPartner = false ∧
    t.pair.sharePartner = false ∧ t.reg PAIR.HANDOVERS = s.reg PAIR.HANDOVERS + 1 ∧
    (err.toNat ≤ 100 → Raises s t [(0x0207, 0xFFFF)]) ∧ (100 < err.toNat → Raises s t [(0x5807, 0xFFFF), (0x0207, 0xFFFF)]) ∧
    SameOutside [.regs, .tb, .clock, .pair, .evr, .qcp, .sent] s t ∧
    RegsOutside [PAIR.HO_STATUS, PAIR.HANDOVERS, AO.HANDOVERS, AO.SHARE_ERR_MAX, AO.ALARM] s t) ∧
  (∀ s : State, s.pair.grant = false → s.pair.grantPartner = false → ∃ t, exec .unheldStateEntry s = .next t ∧
    s.pair.ungrantedAt + 20000 * nsUnits ≤ t.tb.up ∧ t.pair = { s.pair with unheld := true } ∧ t.role = s.role) ∧
  (∀ s : State, s.pair.grant = true ∨ s.pair.grantPartner = true → exec .unheldStateEntry s = .next s)

/-- Handover and role requests (R266, R268, R270, R279, R280, R499, R500): accepted by an ACTIVE whose STANDBY is ready, with its tick 1 ms ahead; without
the STANDBY's confirmation it is cancelled with event 0x0208; at its tick the modules change roles with event 0x0201. The extraction lever counts and
asks for the role change that Table PR-15 gives; a requested role waits for the next frame tick. -/
def Obligations.HandoverAndRoles : Prop :=
  (∀ (p : Pkt) (x : Session) (s : State), Admits s p x → 2 ≤ x.role → handoverRefusal s = none → ∃ t h, exec (.handover p) s = .next t ∧
    t.replied accepted ∧ t.pair.handover = some h ∧ h = { tick := h.tick, by_ := some (requesterOf p), giver := true } ∧
    t.pair = { s.pair with handover := some h } ∧ s.tb.now + 1000000 * nsUnits ≤ h.tick ∧ h.tick < s.tb.now + 1010000 * nsUnits ∧
    h.tick % frameUnits = 0 ∧ t.reg PAIR.HO_TICK_SEC = secWord h.tick ∧ t.reg PAIR.HO_TICK_NS = nsWord h.tick ∧ t.regFld PAIR.HO_STATUS 31 28 = 1 ∧ SameOutside [.regs, .pair, .qcp, .sent] s t ∧
    RegsOutside [PAIR.HO_STATUS, PAIR.HO_TICK_SEC, PAIR.HO_TICK_NS] s t) ∧
  (∀ (p : Pkt) (x : Session) (st : Status) (s : State), Admits s p x → 2 ≤ x.role → handoverRefusal s = some st → ∃ t,
    exec (.handover p) s = .next t ∧ t.replied (refusal st) ∧ t.pair = s.pair ∧ Raises s t [(0x0208, 0xFFFF)] ∧
    SameOutside [.regs, .evr, .qcp, .sent] s t ∧ RegsOutside [PAIR.HO_STATUS] s t) ∧
  (∀ (h : Handover) (s : State), s.pair.handover = some h → h.sharing = false → h.giver = true → ∃ t, exec .handoverConfirmDeadline s = .next t ∧
    h.tick - 2 * frameUnits ≤ t.tb.now ∧ (h.confirmed = true → t.pair = s.pair ∧ t.regs = s.regs ∧ Raises s t []) ∧
    (h.confirmed = false → t.pair.handover = none ∧ t.regFld PAIR.HO_STATUS 31 28 = 4 ∧ Raises s t [(0x0208, 0xFFFF)] ∧
      Notified s t 0x32 h.by_ (refusal .wrongState)) ∧ SameOutside [.regs, .tb, .clock, .pair, .evr, .qcp, .sent] s t ∧ RegsOutside [PAIR.HO_STATUS] s t) ∧
  (∀ (h : Handover) (s : State), s.pair.handover = some h → h.sharing = false → h.confirmed = true → h.giver = true → s.role = .active → ∃ t,
    exec .handoverTick s = .next t ∧ h.tick ≤ t.tb.now ∧ t.role = .standby ∧ t.pair.partnerRole = .active ∧ t.pair.share = true ∧
    t.pair.claim = s.pair.claim ∧ t.mode = (if s.mode = .hold then .stop else s.mode) ∧
    (s.tb.selRef ≠ 4 → s.frame.sw = none → s.mode ≠ .hold → RaisesThen s t [(0x0201, 0xFFFF)] [0x1101, 0x1102]) ∧
    t.pair.grant = s.pair.grant ∧ t.regFld PAIR.HO_STATUS 31 28 = 2) ∧
  (∀ (h : Handover) (s : State), s.pair.handover = some h → h.sharing = false → h.confirmed = true → h.giver = false → s.role = .standby →
    s.mode ≠ .hold → ∃ t,
    exec .handoverTick s = .next t ∧ h.tick ≤ t.tb.now ∧ t.role = .active ∧ t.pair.partnerRole = .standby ∧ t.pair.claim = s.pair.claim ∧
    (s.tb.selRef ≠ 4 → RaisesThen s t [(0x0201, 0xFFFF)] [0x1101, 0x1102]) ∧ t.mode = s.mode ∧ t.pair.grant = s.pair.grant) ∧
  (∀ (p : Pkt) (x : Session) (s : State), Admits s p x → (if s.role = .solo then 3 else 2) ≤ x.role → roleRefused s .out = false → ∃ t,
    exec (.roleRequestOut p) s = .next t ∧ t.pair = { s.pair with roleRequest := some (.out, some (requesterOf p)) } ∧ t.role = s.role ∧
    SameOutside [.pair, .qcp] s t) ∧
  (∀ (p : Pkt) (x : Session) (s : State), Admits s p x → 2 ≤ x.role → s.role = .out → s.mode = .stop → s.tested = true →
    s.regBit LOCK.STATUS 31 = false → s.regBit LOCK.STATUS 28 = false → ∃ t, exec (.roleRequestInit p) s = .next t ∧
    t.pair = { s.pair with roleRequest := some (.init, some (requesterOf p)) } ∧ t.role = s.role ∧ SameOutside [.pair, .qcp] s t) ∧
  (∀ s : State, s.role = .init → s.tested = true → s.pair.heardAt = none → s.pair.tandem.lost = false → s.pair.roleRequest = none →
    s.pair.hoFrame = none → s.pair.outDue = none → s.pair.windowRefused = false → s.pair.baseId ≠ 0 → s.pair.baseId ≠ 0xFFFF →
    keptInInit s = false → s.regBit PAIR.CFG 31 = true → soloBlocked s = false → s.mode = .stop → ∃ t, exec .soloWaitExpiry s = .next t ∧
    t.role = .solo ∧ t.mode = .stop ∧ s.pair.testedAt + (s.reg PAIR.SOLO_WAIT).toNat * msUnits ≤ t.tb.up ∧ t.pair.waited = true ∧
    (s.tb.selRef ≠ 4 → RaisesThen s t [(0x0201, 0xFFFF)] [0x1101, 0x1102])) ∧
  (∀ s : State, s.role = .out → ∃ t, exec .leverOpened s = .next t ∧ t.pair = { s.pair with lever := true } ∧
    t.reg ID.LEVER_COUNT = s.reg ID.LEVER_COUNT + 1 ∧ Raises s t [(0x0001, 0xFFFF)] ∧ SameOutside [.regs, .pair, .evr] s t ∧
    RegsOutside [ID.LEVER_COUNT] s t) ∧
  (∀ s : State, s.role = .solo → ∃ t, exec .leverOpened s = .next t ∧ t.pair = { s.pair with lever := true } ∧ t.role = .solo ∧
    Raises s t [(0x0001, 0xFFFF), (0x0213, 0xFFFF)] ∧ SameOutside [.regs, .pair, .evr] s t) ∧
  (∀ s : State, s.role = .standby → s.pair.outDue = none → ∃ t, exec .leverOpened s = .next t ∧
    t.pair = { s.pair with lever := true, outDue := some 0x0C } ∧ Raises s t [(0x0001, 0xFFFF)] ∧ SameOutside [.regs, .pair, .evr] s t) ∧
  (∀ s : State, s.power.supply ≠ .off → s.role ≠ .out → ∃ t, exec .leverClosed s = .next t ∧
    t.pair = { s.pair with lever := false, leverStanding := false, leverOut := false } ∧ Raises s t [(0x0002, 0xFFFF)] ∧
    SameOutside [.pair, .evr] s t) ∧
  (∀ s : State, s.power.supply = .off → s.power.powered = true → ∃ t, exec .leverClosed s = .next t ∧ t.pair = { s.pair with lever := false } ∧
    t.power = { s.power with supply := .delay, delaySince := s.tb.up, inserted := true } ∧ SameOutside [.pair, .power] s t) ∧
  (∀ (st : Status) (s : State), s.pair.lever = true → s.pair.leverStanding = true → s.role = .active → handoverRefusal s = some st → ∃ t,
    exec .leverHandoverRetry s = .next t ∧ t.pair = { s.pair with leverAt := t.tb.up } ∧ s.pair.leverAt + secUnits ≤ t.tb.up ∧
    Raises s t [(0x0208, 0xFFFF)] ∧ SameOutside [.regs, .tb, .clock, .pair, .evr] s t ∧ RegsOutside [PAIR.HO_STATUS] s t) ∧
  (∀ s : State, s.pair.lever = true → s.pair.leverStanding = true → s.role = .active → handoverRefusal s = none → ∃ t h,
    exec .leverHandoverRetry s = .next t ∧ t.pair.handover = some h ∧ h.lever = true ∧ h.giver = true ∧ h.by_ = none ∧ t.pair.leverOut = true ∧
    t.pair.leverStanding = false ∧ s.pair.leverAt + secUnits ≤ t.tb.up ∧ t.tb.now + 1000000 * nsUnits ≤ h.tick ∧
    SameOutside [.regs, .tb, .clock, .pair, .sent] s t)

/-- The seam and the frame digest (R149, R271 to R278): a STANDBY adopts a whole proposal that arrives in time, and without one the frame is unagreed
with event 0x2001; the ACTIVE compares and counts what differs; a mismatch of the digests is decided by the self-checks with event 0x020A, the module
whose own check failed going OUT; the receipts of a C2 cycle are closed 50 µs before it, and settle 10 µs before it. -/
def Obligations.SeamAndSettling : Prop :=
  (∀ (items : List SeamItem) (finish : Half) (s : State), items.all SeamItem.ok = true → s.committing = false → s.pair.tandem.up = true →
    s.role = .standby → finish.toNat ≤ 320 →
    setHeld s items = true → ∃ t, exec (.seamProposalReceived items true finish) s = .next t ∧ t.frame.proposal = true ∧
    t.reg FRAME.SEAM_END_MAX = maxWord (s.reg FRAME.SEAM_END_MAX) (finish.zeroExtend 32) ∧ t.pair = s.pair ∧ t.role = s.role ∧
    (∀ p v, items = [.snapshot p v] → .snapshot p v ∈ t.frame.seamItems)) ∧
  (∀ (items : List SeamItem) (complete : Bool) (finish : Half) (s : State), s.committing = false → s.pair.tandem.up = true → s.role = .active → ∃ t,
    exec (.seamProposalReceived items complete finish) s = .next t ∧
    t.reg PAIR.SEAM_DIFF = s.reg PAIR.SEAM_DIFF + BitVec.ofNat 32 (differing s items) ∧ SameOutside [.regs] s t ∧ RegsOutside [PAIR.SEAM_DIFF] s t) ∧
  (∀ s : State, s.frame.stage ≠ 0 → exec .seamDeadline s = .next s) ∧
  (∀ s : State, adoptsSeam s = false → s.frame.stage = 0 → ∃ t, exec .seamDeadline s = .next t ∧
    t.pair = { s.pair with lastAgreed := true, lastSeam := decide (s.role = .active) && s.pair.tandem.up, unagreed := 0 } ∧
    s.frame.t0 + 800 * nsUnits ≤ t.tb.now ∧ SameOutside [.tb, .clock, .pair] s t) ∧
  (∀ s : State, adoptsSeam s = true → s.frame.stage = 0 → (s.frame.proposal && linkCarriesSeam s) = false → ∃ t, exec .seamDeadline s = .next t ∧
    t.pair = { s.pair with lastAgreed := false, lastSeam := false, unagreed := s.pair.unagreed + 1 } ∧
    t.reg FRAME.UNAGREED_COUNT = s.reg FRAME.UNAGREED_COUNT + 1 ∧ t.reg PAIR.SEAM_LATE = s.reg PAIR.SEAM_LATE + 1 ∧
    Raises s t [(0x2001, 0xFFFF)] ∧ s.frame.t0 + 800 * nsUnits ≤ t.tb.now ∧ SameOutside [.regs, .tb, .clock, .pair, .evr] s t ∧
    RegsOutside [FRAME.UNAGREED_COUNT, PAIR.SEAM_LATE] s t) ∧
  (∀ s : State, adoptsSeam s = true → s.frame.stage = 0 → s.frame.proposal = true → linkCarriesSeam s = true → ∃ t, exec .seamDeadline s = .next t ∧
    t.pair = { s.pair with lastAgreed := true, lastSeam := true, unagreed := 0 } ∧ SameOutside [.tb, .clock, .pair] s t) ∧
  (∀ s : State, ∃ t, exec .memoryError s = .next t ∧ t.pair = { s.pair with memoryError := true } ∧ SameOutside [.pair] s t) ∧
  (∀ (m : MismatchCase) (s : State), s.pair.mismatch = some m → m.at_ + s.regFld PAIR.DIGEST_CFG 3 0 ≤ s.frame.count → ∃ t,
    exec .selfCheckDecision s = .next t ∧ t.pair.mismatch = none ∧ t.pair.selfCheck = none ∧
    (s.pair.selfCheck = some false → t.pair.outDue = some 0x05 ∧ t.pair.trackDue = s.pair.trackDue) ∧
    (s.pair.selfCheck ≠ some false → t.pair.outDue = s.pair.outDue) ∧
    (s.pair.selfCheck ≠ some false → s.role = .standby → m.partner ≠ some false → t.pair.trackDue = true ∧ t.pair.muted = s.pair.muted) ∧
    (s.pair.selfCheck ≠ some false → s.role = .standby → m.partner = some false → t.pair.muted = false ∧ t.pair.selfTaken = true) ∧
    Raises s t [(0x020A, 0xFFFF)] ∧ SameOutside [.regs, .pair, .evr] s t ∧ RegsOutside [PAIR.SELFCHECK] s t) ∧
  (∀ s : State, s.net.closedFor ≠ some (nextC2 s.tb.now) → ∃ t, exec .inputCutoff s = .next t ∧ t.net.closedFor = some (nextC2 s.tb.now) ∧
    t.net.receipts = [] ∧ t.net.closed = s.net.receipts ++ canReceipts s ∧ nextC2 s.tb.now - 50000 * nsUnits ≤ t.tb.now ∧
    t.net.settled = s.net.settled) ∧
  (∀ (theirs : List ReceiptEntry) (r : Receipt) (s : State), s.lock.cutOff = false → exchanges s = true → s.net.closed = [r] → ∃ t,
    exec (.receiptListReceived theirs) s = .next t ∧
    ((theirs.find? fun e => decide (e.station = r.entry.station) && decide (e.stream = r.entry.stream)) = none →
      t.sent = { kind := .stationCopy, fields := entryFields r.entry } :: s.sent ∧ SameOutside [.sent] s t) ∧
    (∀ e, (theirs.find? fun e => decide (e.station = r.entry.station) && decide (e.stream = r.entry.stream)) = some e →
      e.sequence = r.entry.sequence → e.crc ≠ r.entry.crc → s.role = .active →
      t.sent = { kind := .stationCopy, fields := entryFields r.entry } :: s.sent ∧ t.reg PAIR.RX_CONFLICT = s.reg PAIR.RX_CONFLICT + 1 ∧
      Raises s t [(0x0212, r.entry.station)] ∧ SameOutside [.regs, .evr, .sent] s t ∧ RegsOutside [PAIR.RX_CONFLICT] s t) ∧
    (∀ e, (theirs.find? fun e => decide (e.station = r.entry.station) && decide (e.stream = r.entry.stream)) = some e →
      e.sequence = r.entry.sequence → e.crc = r.entry.crc → t = s)) ∧
  (∀ (r : Receipt) (k : Nat) (s : State), s.net.closedFor = some k → s.net.settledFor ≠ some k → takesCopy s r = true → ∃ t,
    exec (.stationFrameCopyReceived r) s = .next t ∧ r ∈ t.net.closed ∧ t.net = { s.net with closed := t.net.closed } ∧
    t.reg PAIR.RX_COPIED = s.reg PAIR.RX_COPIED + 1 ∧ SameOutside [.regs, .net] s t ∧ RegsOutside [PAIR.RX_COPIED] s t) ∧
  (∀ (k : Nat) (s : State), s.net.closedFor = some k → ∃ t, exec .settledSetFormed s = .next t ∧
    t.net = { s.net with settled := s.net.closed, settledFor := some k } ∧ k - 10000 * nsUnits ≤ t.tb.now ∧ SameOutside [.tb, .clock, .net] s t) ∧
  (∀ s : State, s.role ≠ .standby ∨ s.pair.muted = true ∨ s.pair.differNow = true → ∃ t, exec .standbyQspSend s = .next t ∧ t.sent = s.sent ∧
    SameOutside [.tb, .clock] s t) ∧
  (∀ (i : Image) (s : State), s.role = .standby → s.pair.muted = false → s.pair.differNow = false → s.runsQsp = true → s.image = some i →
    (s.frameNo + 1) % 100 = 0 → ∃ t, exec .standbyQspSend s = .next t ∧ t.sent = ((s.phase 9700).sendOutputs i (s.net.stations.map (·.1))).sent ∧
    s.frame.t0 + 9700 * nsUnits ≤ t.tb.now)

/-- Tracking (R286 to R290, Table PR-10): the phases follow one another when what ends each of them holds; what the leader copies is stored in its place;
a lost mirror fails the round with event 0x020E, and the last round allowed sends the module OUT with cause 0x09; at the join tick, with no page dirty and
the capture frame within Table PR-11, the module joins. -/
def Obligations.TrackingPhases : Prop :=
  (∀ (r : PhaseResult) (s : State), s.role = .track → ∃ t, exec (.trackingPhaseComplete r) s = .next t ∧
    (s.pair.phase = 1 → pairWindowOk s r.versions = false →
      t.pair = { s.pair with partnerVersions := r.versions, windowRefused := true, outDue := some 0x0A }) ∧
    (s.pair.phase = 1 → pairWindowOk s r.versions = true → s.pair.partnerId = s.pair.baseId → s.pair.partnerSwitch = false →
      t.pair = { s.pair with partnerVersions := r.versions, phase := 2 }) ∧
    (s.pair.phase = 1 → pairWindowOk s r.versions = true → s.pair.partnerId ≠ s.pair.baseId ∨ s.pair.partnerSwitch = true →
      t.pair = { s.pair with partnerVersions := r.versions }) ∧
    (s.pair.phase = 2 → s.tb.alignOk = true → t.pair = { s.pair with phase := 3 }) ∧
    (s.pair.phase = 2 → s.tb.alignOk = false → t.pair = s.pair) ∧
    (s.pair.phase = 3 → t.pair = { s.pair with phase := if r.crc = configurationCrc s then 4 else 3 }) ∧
    (s.pair.phase = 4 → imagesEqual s r = false → t.pair = s.pair) ∧
    (s.pair.phase = 4 → imagesEqual s r = true → t.pair = { s.pair with phase := 5, pageCount := r.pages, dirty := List.range r.pages } ∧
      t.reg PAIR.TRACK_TOTAL = r.kilobytes ∧ t.reg PAIR.TRACK_DONE = 0) ∧
    (s.pair.phase = 5 → s.pair.dirty = [] → t.pair = { s.pair with phase := 6 }) ∧
    (s.pair.phase = 7 → 100 ≤ s.pair.verifyFrames → s.regFld PAIR.TRACK_CFG 7 0 * longestCycle s ≤ s.pair.verifyFrames →
      t.pair = { s.pair with verified := true }) ∧
    SameOutside [.regs, .pair] s t ∧ RegsOutside [PAIR.TRACK_TOTAL, PAIR.TRACK_DONE] s t) ∧
  (∀ (a : Nat) (v : Word) (s : State), s.role = .track → ∃ t, exec (.trackingCopyReceived (.registers [(a, v)])) s = .next t ∧
    (sharedWrite a = true → t.reg a = v) ∧ (sharedWrite a = false → t.reg a = s.reg a) ∧
    SameOutside [.regs, .acq] s t ∧ RegsOutside [a] s t) ∧
  (∀ (key : Nat) (v : Word) (s : State), s.role = .track → ∃ t, exec (.trackingCopyReceived (.windows [(key, v)])) s = .next t ∧
    sparseGet 0 t.wins key = (if copiedWindow key then v else sparseGet 0 s.wins key) ∧
    (∀ k, k ≠ key → sparseGet 0 t.wins k = sparseGet 0 s.wins k) ∧ SameOutside [.wins] s t) ∧
  (∀ (p v : Word) (s : State), s.role = .track → ∃ t, exec (.trackingCopyReceived (.forces [(p, v)])) s = .next t ∧
    t.frame = { s.frame with forces := [(p.toNat, v)] } ∧ SameOutside [.frame] s t) ∧
  (∀ (b : Nat) (f : Option CanFrame) (s : State), s.role = .track → b < 64 → ∃ t, exec (.trackingCopyReceived (.canPending 0 b f)) s = .next t ∧
    (t.canBuf 0 b).pending = f ∧ (t.canBuf 0 b).pendingAt = s.tb.now ∧ (∀ k, k ≠ b → t.canBuf 0 k = s.canBuf 0 k) ∧ SameOutside [.can0] s t) ∧
  (∀ (b : Nat) (f : Option CanFrame) (s : State), s.role = .track → b < 64 → ∃ t, exec (.trackingCopyReceived (.canPending 1 b f)) s = .next t ∧
    (t.canBuf 1 b).pending = f ∧ (∀ k, k ≠ b → t.canBuf 1 k = s.canBuf 1 k) ∧ SameOutside [.can1] s t) ∧
  (∀ (ids : List (Nat × PublicKey)) (dec : List (Nat × BitVec 128)) (a : Nat) (v : Word) (s : State), s.role = .track → a ≠ SEC.STATUS → ∃ t,
    exec (.trackingCopyReceived (.keys ids dec [(a, v)])) s = .next t ∧ t.trust = { s.trust with keys := ids, decryption := dec } ∧
    (copiedKeyReg a = true → t.reg a = v) ∧ SameOutside [.regs, .trust] s t ∧ RegsOutside [a, SEC.STATUS] s t) ∧
  (∀ (l : List (Nat × Word)) (s : State), s.role = .track → ∃ t, exec (.trackingCopyReceived (.windows l)) s = .next t ∧ SameOutside [.wins] s t) ∧
  (∀ (id value : Word) (time action target : Nat) (owner : Option Nat) (s : State), s.role = .track → ∃ t,
    exec (.trackingCopyReceived (.tack id time action target value owner)) s = .next t ∧
    t.frame.tacks = insertTack (Tack.mk id time action target value owner) (s.frame.tacks.filter fun x => x.id ≠ id) ∧
    (s.frame.nextTack.toNat ≤ id.toNat → t.frame.nextTack = nextTackId t.frame.tacks 512 id) ∧
    t.frame = { s.frame with tacks := t.frame.tacks, nextTack := t.frame.nextTack } ∧ SameOutside [.frame] s t) ∧
  (∀ (id : Word) (s : State), s.role = .track → ∃ t, exec (.trackingCopyReceived (.nextTack id)) s = .next t ∧
    t.frame = { s.frame with nextTack := id } ∧ SameOutside [.frame] s t) ∧
  (∀ (b : Fin 2) (d : BitVec 256) (i : Image) (s : State), s.role = .track → ∃ t, exec (.trackingCopyReceived (.bank b 2 d i)) s = .next t ∧
    t.bankImage b.val = some i ∧ t.reg (IMG.B_STATE b.val) = 2 ∧ t.bankDigest b.val = d ∧ SameOutside [.regs, .frame] s t) ∧
  (∀ (n : Nat) (s : State), s.role = .track → ∃ t, exec (.trackingCopyReceived (.page n { stores := [], points := [] })) s = .next t ∧
    t.pair = { s.pair with dirty := s.pair.dirty.filter (· ≠ n) } ∧ t.reg PAIR.TRACK_DONE = s.reg PAIR.TRACK_DONE + 4 ∧
    SameOutside [.regs, .frame, .pair] s t ∧ RegsOutside [PAIR.TRACK_DONE] s t) ∧
  (∀ (pages : List Nat) (s : State), s.role = .track → 5 ≤ s.pair.phase → ∃ t, exec (.writeMirrorReceived { stores := [], points := [] } pages false) s = .next t ∧
    (∀ n ∈ pages, n ∈ t.pair.dirty) ∧ (∀ n ∈ s.pair.dirty, n ∈ t.pair.dirty) ∧ t.pair = { s.pair with dirty := t.pair.dirty } ∧
    SameOutside [.frame, .pair] s t) ∧
  (∀ (d : CopiedData) (pages : List Nat) (s : State), s.role = .track → 5 ≤ s.pair.phase → ∃ t, exec (.writeMirrorReceived d pages true) s = .next t ∧
    t.reg PAIR.TRACK_FAILS = s.reg PAIR.TRACK_FAILS + 1 ∧ Raises s t [(0x020E, 0xFFFF)] ∧
    (s.regFld PAIR.TRACK_CFG 15 8 ≤ s.pair.round → t.pair = { s.pair with phase := 0, outDue := some 0x09 }) ∧
    (s.pair.round < s.regFld PAIR.TRACK_CFG 15 8 → t.pair.phase = 5 ∧ t.pair.round = s.pair.round + 1 ∧
      t.pair.dirty = List.range s.pair.pageCount ∧ t.pair.verified = false ∧ t.reg PAIR.TRACK_DONE = 0) ∧
    SameOutside [.regs, .pair, .evr] s t ∧ RegsOutside [PAIR.TRACK_FAILS, PAIR.TRACK_DONE] s t) ∧
  (∀ (mirror : Nat) (s : State), s.role = .track → s.pair.phase = 6 → s.pair.dirty = [] → joinFits s mirror = true → ∃ t,
    exec (.joinTick mirror) s = .next t ∧ t.pair = { s.pair with phase := 7, verifyFrames := 0, hoConfirm := 0 } ∧
    t.reg PAIR.JOIN_SEC = secWord (switchTickAfter s s.tb.now) ∧ t.reg PAIR.JOIN_NS = nsWord (switchTickAfter s s.tb.now) ∧
    switchTickAfter s s.tb.now ≤ t.tb.now ∧ SameOutside [.regs, .tb, .clock, .pair] s t ∧ RegsOutside [PAIR.JOIN_SEC, PAIR.JOIN_NS] s t) ∧
  (∀ (mirror : Nat) (s : State), s.role = .track → s.pair.phase = 6 → s.pair.dirty = [] → joinFits s mirror = false → ∃ t,
    exec (.joinTick mirror) s = .next t ∧ t.pair = { s.pair with passedOver := s.pair.passedOver + 1 } ∧ SameOutside [.tb, .clock, .pair] s t) ∧
  (∀ (slot : Byte) (states : List Dword) (s : State), s.role = .track → 6 ≤ s.pair.phase → states.length = 11 → ∃ t,
    exec (.slotStateStreamReceived slot states) s = .next t ∧ (sparseGet {} t.loop.slots slot.toNat).states = states ∧
    slot.toNat ∈ t.pair.slotsSeen ∧ (∀ k, k ≠ slot.toNat → sparseGet {} t.loop.slots k = sparseGet {} s.loop.slots k) ∧
    SameOutside [.loop, .pair] s t)

/-- Commands that the ACTIVE passes (R104, R254, R320): only a STANDBY carries them out, and it confirms each; a tick that comes too late to be confirmed
sends it to TRACK; only an ACTIVE is confirmed to, and only in time. The pair base's identity is set, or adopted, by the Owner. -/
def Obligations.PassedCommands : Prop :=
  (∀ (c : Passed) (s : State), s.role ≠ .standby → s.role ≠ .track → exec (.passedCommand c) s = .next s) ∧
  (∀ (d : Int) (s : State), s.committing = false → s.role = .track → 1 ≤ s.pair.phase → ∃ t, exec (.passedCommand (.restep d)) s = .next t ∧
    t.reg PAIR.TRACK_FAILS = s.reg PAIR.TRACK_FAILS + 1 ∧ Raises s t [(0x020E, 0xFFFF)] ∧ SameOutside [.regs, .pair, .evr] s t) ∧
  (∀ (d : Int) (s : State), s.committing = false → s.role = .standby → s.lock.cutOff = false → ∃ t, exec (.passedCommand (.restep d)) s = .next t ∧
    t.tb = { s.tb with stepDue := some (d, .locked, true), slewing := false, jumpPending := false, jumpRef := 0 } ∧
    t.sent = { kind := .confirmed, fields := [0x10] } :: s.sent ∧ SameOutside [.tb, .sent] s t) ∧
  (∀ (id : Word) (k : TackRequest) (s : State), s.committing = false → s.lock.cutOff = false → s.role = .standby → k.action ≠ 6 → ∃ t,
    exec (.passedCommand (.tackSchedule id k)) s = .next t ∧
    t.frame.tacks = insertTack (Tack.mk id (k.sec * secUnits + k.ns * nsUnits + k.frac * 65536) k.action k.target k.value none) s.frame.tacks ∧
    t.frame.nextTack = nextTackId t.frame.tacks 512 id ∧ t.sent = { kind := .confirmed, fields := [0x40] } :: s.sent ∧
    SameOutside [.frame, .sent] s t) ∧
  (∀ (r : Bool) (k : Nat) (s : State), s.committing = false → s.lock.cutOff = false → s.role = .standby → s.tb.now + 20000 * nsUnits ≤ k → ∃ t,
    exec (.passedCommand (.runTick r k)) s = .next t ∧
    t.frame = { s.frame with runChange := some { toRun := r, tick := k, by_ := none, confirmed := true } } ∧ t.reg MODE.PEND_SEC = secWord k ∧
    t.reg MODE.PEND_NS = nsWord k ∧ t.sent = { kind := .confirmed, fields := [0x30] } :: s.sent ∧ SameOutside [.regs, .frame, .sent] s t ∧
    RegsOutside [ MODE.PEND_SEC, MODE.PEND_NS] s t) ∧
  (∀ (r : Bool) (k : Nat) (s : State), s.committing = false → s.role = .standby → k < s.tb.now + 20000 * nsUnits → ∃ t,
    exec (.passedCommand (.runTick r k)) s = .next t ∧ t.pair = { s.pair with trackDue := true } ∧ SameOutside [.pair] s t) ∧
  (∀ (c : Confirmed) (s : State), s.role ≠ .active → exec (.passedCommandConfirmation c) s = .next s) ∧
  (∀ (h : Handover) (s : State), s.committing = false → s.role = .active → s.pair.handover = some h → s.tb.now + 20000 * nsUnits ≤ h.tick → ∃ t,
    exec (.passedCommandConfirmation .handover) s = .next t ∧ t.pair = { s.pair with handover := some { h with confirmed := true } } ∧
    SameOutside [.pair] s t) ∧
  (∀ (c : RunChange) (s : State), s.committing = false → s.role = .active → s.frame.runChange = some c → ∃ t,
    exec (.passedCommandConfirmation .runTick) s = .next t ∧
    t.frame = { s.frame with runChange := some (if s.tb.now + 20000 * nsUnits ≤ c.tick then { c with confirmed := true } else c) } ∧
    SameOutside [.frame] s t) ∧
  (∀ (p : Pkt) (v : Word) (x : Session) (s : State), Admits s p x → x.role = 3 → fld v 31 16 = 0x5049 → 1 ≤ fld v 15 0 → fld v 15 0 ≤ 0xFFFE →
    ∃ t, exec (.pairIdSet p v) s = .next t ∧ t.replied done ∧ t.pair = { s.pair with baseId := v.setWidth 16 } ∧
    SameOutside [.pair, .qcp, .sent] s t) ∧
  (∀ (p : Pkt) (v : Word) (x : Session) (s : State), Admits s p x → x.role = 3 → v = 0x4144 → ∃ t, exec (.pairIdAdopt p v) s = .next t ∧
    t.replied done ∧ t.pair = { s.pair with storedId := s.pair.baseId } ∧ SameOutside [.pair, .qcp, .sent] s t) ∧
  (∀ (p : Pkt) (v : Word) (x : Session) (s : State), Admits s p x → x.role = 3 → v ≠ 0x4144 → ∃ t, exec (.pairIdAdopt p v) s = .next t ∧
    t.replied (refusal .badParameter 0 4) ∧ SameOutside [.qcp, .sent] s t)

/-! ### Networks (chapter 9) -/

/-- Stations (R299, R303, R307 to R309, Table NW-4): a QSP frame that is not good is discarded and counted on its port, one that is not of the
coming cycle is late, event 0x6006, and the first copy of a bound station's stream enters the receipt list. A roll-call that passes the six checks fixes
the first C2 cycle start at least 2 ms away, at which the station is bound; one that fails is refused with the reason of the first check that
fails. That a roll-call with another VERSION or PAIR_ID is refused by R308 and not discarded by R299, and that a frame of an unbound station is
ignored, are the model's choices (notes/assumptions/47.md). A commit of a station waits for such a cycle start too; a change of what the station
must be unbinds it there. -/
def Obligations.Stations : Prop :=
  (∀ (p : Fin 2) (f : QspFrame) (s : State), s.regBit NET.CFG 31 = true → (qspIntact f = false ∨ f.version ≠ 1 ∨ f.type ≠ 0x10 ∨ f.pairId ≠ s.pair.baseId) → ∃ t,
    exec (.qspInputFrame p f) s = .next t ∧ t.reg (NET.RX_DISCARD p.val) = s.reg (NET.RX_DISCARD p.val) + 1 ∧ SameOutside [.regs] s t ∧
    RegsOutside [NET.RX_DISCARD p.val] s t) ∧
  (∀ (p : Fin 2) (f : QspFrame) (s : State), s.regBit NET.CFG 31 = true → qspBad f = false → f.type = 0x10 → f.pairId = s.pair.baseId →
    s.tb.now + 50000 * nsUnits < openCycle s ∧ openCycle s ≤ s.tb.now + 2000000 * nsUnits ∧ openCycle s % (1000000 * nsUnits) = 0 ∧
    (f.sequence ≠ c2Index (openCycle s) → ∃ t, exec (.qspInputFrame p f) s = .next t ∧ t.reg NET.QSP_LATE = s.reg NET.QSP_LATE + 1 ∧
      t.regBit NET.ALARM 3 = true ∧ Raises s t [(0x6006, f.station)] ∧ SameOutside [.regs, .evr] s t ∧ RegsOutside [NET.QSP_LATE, NET.ALARM] s t) ∧
    (f.sequence = c2Index (openCycle s) → f.station ≠ 0 → (s.station f.station).bound = true → (s.station f.station).step = f.step → ∃ t, exec (.qspInputFrame p f) s = .next t ∧
      ((∀ r ∈ s.net.receipts, r.entry.station = f.station → r.entry.stream ≠ f.stream) → ∃ r : Receipt, t.net.receipts = s.net.receipts ++ [r] ∧
        r.entry.station = f.station ∧ r.entry.stream = f.stream ∧ r.entry.sequence = f.sequence ∧ r.data = .payload f.payload) ∧
      ((∃ r ∈ s.net.receipts, r.entry.station = f.station ∧ r.entry.stream = f.stream) → t.net.receipts = s.net.receipts) ∧
      t.net = { s.net with receipts := t.net.receipts } ∧ SameOutside [.net] s t) ∧
    (f.sequence = c2Index (openCycle s) → f.station ≠ 0 → (s.station f.station).bound = true → (s.station f.station).step ≠ f.step → ∃ t,
      exec (.qspInputFrame p f) s = .next t ∧ t.station f.station = { s.station f.station with step := f.step } ∧
      (∃ r ∈ t.net.receipts, r.entry.station = f.station ∧ r.entry.stream = f.stream ∧ r.data = .payload f.payload) ∧
      (∀ r ∈ t.net.receipts, r.entry.station = f.station → r.data = .payload f.payload) ∧
      (∀ r ∈ s.net.receipts, r.entry.station ≠ f.station → r ∈ t.net.receipts) ∧ SameOutside [.net] s t)) ∧
  (∀ (f : QspFrame) (s : State), (f.version ≠ 1 → rollRefusal s f = some 5) ∧
    (f.version = 1 → f.pairId ≠ s.pair.baseId → rollRefusal s f = some 6) ∧
    (f.version = 1 → f.pairId = s.pair.baseId → (f.station = 0 ∨ 1023 < f.station ∨ s.winBit .station f.station 0 31 = false) → rollRefusal s f = some 1)) ∧
  (∀ (p : Fin 2) (f : QspFrame) (s : State), s.lock.cutOff = false → qspIntact f = true → f.type = 1 → s.leadsBus = true → s.regBit NET.CFG 31 = true →
    (s.station f.station).bindAt = none → rollRefusal s f = none → ∃ t k, exec (.rollCall p f) s = .next t ∧
    (t.station f.station).bindAt = some k ∧ t.station f.station = { s.station f.station with bindAt := some k, rebind := (s.station f.station).bound, newMac := f.mac } ∧
    s.tb.now + 2000000 * nsUnits ≤ k ∧ k < s.tb.now + 3000000 * nsUnits ∧ k % (1000000 * nsUnits) = 0 ∧
    (∀ n, n ≠ f.station → t.station n = s.station n) ∧
    t.sent = (if s.role = .active then [{ kind := .passed, fields := [0x60, f.station, k, f.mac.toNat] }] else []) ++ s.sent ∧
    SameOutside [.net, .sent] s t) ∧
  (∀ (p : Fin 2) (f : QspFrame) (r : Nat) (s : State), s.lock.cutOff = false → qspIntact f = true → f.type = 1 → s.leadsBus = true → s.regBit NET.CFG 31 = true →
    (s.station f.station).bindAt = none → rollRefusal s f = some r → ∃ t, exec (.rollCall p f) s = .next t ∧
    t.reg NET.ST_REFUSED = s.reg NET.ST_REFUSED + 1 ∧ t.reg NET.ST_LAST_REFUSE = BitVec.ofNat 32 (r * 16777216 + f.station % 1024) ∧
    t.regBit NET.ALARM 1 = true ∧ Raises s t [(0x6003, f.station)] ∧ (∀ n, (t.station n).bound = (s.station n).bound) ∧
    ((∀ e ∈ s.net.refusals, e.1 ≠ rollIdentity f) → LeavesOn s t (busPorts s 0) (Sent.mk .bindReply [(rollIdentity f).toNat, r]
      (qspHeader s f.mac ++ qspBytes s 0x03 f.station 0 (qspFlags s false &&& 0x0F) (c2Index s.frame.t0) 0 (stationLayout s.image f.station)
        (beBytes 8 (rollIdentity f).toNat ++ beBytes 1 r)))) ∧
    (∀ u, s.net.refusals.find? (fun e => e.1 = rollIdentity f) = some (rollIdentity f, u) → s.tb.up < u + 10 * secUnits → t.sent = s.sent) ∧
    SameOutside [.regs, .net, .evr, .sent] s t ∧ RegsOutside ([NET.ST_REFUSED, NET.ST_LAST_REFUSE, NET.ALARM] ++ (busPorts s 0).flatMap portRegs) s t) ∧
  (∀ (n : BitVec 10) (k : Nat) (s : State), s.lock.cutOff = false → (s.station n.toNat).bindAt = some k → ∃ t, exec (.bindCycle n) s = .next t ∧ k ≤ t.tb.now ∧
    (t.station n.toNat).bound = true ∧ (t.station n.toNat).absent = false ∧ (t.station n.toNat).bindAt = none ∧
    (t.station n.toNat).mac = (s.station n.toNat).newMac ∧ (t.station n.toNat).misses = 0 ∧ (∀ m, m ≠ n.toNat → t.station m = s.station m) ∧
    t.regBit NET.ALARM 0 = true ∧ Raises s t [(if (s.station n.toNat).rebind then 0x6002 else 0x6001, n.toNat)] ∧
    (s.leadsBus = false → t.sent = s.sent) ∧
    (s.leadsBus = true → LeavesOn s t (busPorts s 0) (Sent.mk .qspBind
      [n.toNat, (s.win .station n.toNat 1).toNat, (s.win .station n.toNat 2).toNat, (c2Index k).toNat, fld s.net.timing 31 16,
        s.winFld .station n.toNat 3 15 0]
      (qspHeader s (s.station n.toNat).newMac ++ qspBytes s 0x02 n.toNat 0 (qspFlags s false &&& 0x0F) (c2Index s.frame.t0) 0
        (stationLayout s.image n.toNat) (wireBytes [(4, (s.win .station n.toNat 1).toNat), (4, (s.win .station n.toNat 2).toNat),
          (4, (c2Index k).toNat), (2, fld s.net.timing 31 16), (2, s.winFld .station n.toNat 3 15 0)])))) ∧
    SameOutside [.regs, .tb, .net, .evr, .sent, .clock] s t ∧ RegsOutside (NET.ALARM :: (busPorts s 0).flatMap portRegs) s t) ∧
  (∀ (p : Pkt) (x : Session) (s : State), MayWrite s p x NET.ST_COMMIT 1 →
    1 ≤ fld (s.winStaged .station (s.regFld NET.ST_SEL 9 0) 3) 15 0 → fld (s.winStaged .station (s.regFld NET.ST_SEL 9 0) 3) 15 0 ≤ 1000 → ∃ t k,
    exec (.netStCommit p 1) s = .next t ∧ t.replied done ∧ t.net.stationDue.getLast?.map (·.tick) = some k ∧ s.tb.now + 2000000 * nsUnits ≤ k ∧ k < s.tb.now + 3000000 * nsUnits ∧
    k % (1000000 * nsUnits) = 0 ∧
    t.net = { s.net with stationDue := s.net.stationDue.filter (fun d => d.station ≠ s.regFld NET.ST_SEL 9 0) ++
      [{ tick := k, station := s.regFld NET.ST_SEL 9 0, words := windowWords s .station (s.regFld NET.ST_SEL 9 0) 4 }] } ∧
    (∀ w < 32, t.winStaged .station (s.regFld NET.ST_SEL 9 0) w = s.win .station (s.regFld NET.ST_SEL 9 0) w) ∧
    (∀ c ∈ t.qcp.claims, c.1 ≠ WindowId.netSt) ∧ SameOutside [.staged, .net, .qcp, .sent] s t) ∧
  (∀ (p : Pkt) (x : Session) (s : State), MayWrite s p x NET.ST_COMMIT 1 →
    (fld (s.winStaged .station (s.regFld NET.ST_SEL 9 0) 3) 15 0 = 0 ∨ 1000 < fld (s.winStaged .station (s.regFld NET.ST_SEL 9 0) 3) 15 0) → ∃ t,
    exec (.netStCommit p 1) s = .next t ∧ t.replied (refusal .badParameter 0 4) ∧ SameOutside [.qcp, .sent] s t) ∧
  (∀ (d : StationDue) (rest : List StationDue) (s : State), s.net.stationDue = d :: rest → ∃ t, exec .stationCommitEffect s = .next t ∧
    d.tick ≤ t.tb.now ∧ t.net.stationDue = rest ∧ (∀ w < 4, t.win .station d.station w = d.words.getD w 0) ∧
    ((bit (d.words.getD 0 0) 31 ≠ s.winBit .station d.station 0 31 ∨ d.words.getD 1 0 ≠ s.win .station d.station 1 ∨ d.words.getD 2 0 ≠ s.win .station d.station 2 ∨
      fld (d.words.getD 0 0) 15 0 ≠ s.winFld .station d.station 0 15 0) → (t.station d.station).bound = false) ∧
    (∀ n, n ≠ d.station → t.station n = s.station n) ∧ SameOutside [.wins, .tb, .net, .clock] s t)

/-- GOOSE, addresses and redundancy (R294 to R298, R312 to R315, Table NW-2): a repeat counts sqNum and doubles its interval, and only the leader sends it;
a message that its simulation bit or test flag bars from every subscription of its APPID is ignored, one that fits its subscription runs it and feeds its
members, one that fits none raises 0x600A, and one that lets its time to live end or says ndsCom loses it, event 0x6008. ARP and ICMP are answered for the
port's own address, and for the pair address by the leader only. A redundancy frame that is too long, or has a bad check or tag, is counted; a good one
brings its LAN up, event 0x6102, and enters its sender and its sequence; the same frame again is a duplicate, and an HSR frame for others goes on by the
other port; a LAN silent for LAN_TIMEOUT is down, event 0x6101. A transceiver of another type, and a link that changes, raise 0x6007. Beacons go to the
station bus and P5. Which subscription a message belongs to, by APPID, is the model's choice (notes/assumptions/48.md). -/
def Obligations.GooseAndPorts : Prop :=
  (∀ (p : Pkt) (x : Session) (s : State), MayWrite s p x NET.GO_COMMIT 1 →
    1 ≤ fld (s.winStaged .goose (s.regFld NET.GO_SEL 6 0) 0) 21 16 →
    fld (s.winStaged .goose (s.regFld NET.GO_SEL 6 0) 0) 21 16 ≤ (if s.regFld NET.GO_SEL 6 0 < 16 then 32 else 8) → ∃ t,
    exec (.netGoCommit p 1) s = .next t ∧ t.replied done ∧
    sparseFind t.net.gooseDue (s.regFld NET.GO_SEL 6 0) = some (windowWords s .goose (s.regFld NET.GO_SEL 6 0) 28) ∧ t.wins = s.wins ∧
    (∀ w < 32, t.winStaged .goose (s.regFld NET.GO_SEL 6 0) w = s.win .goose (s.regFld NET.GO_SEL 6 0) w) ∧
    SameOutside [.staged, .net, .qcp, .sent] s t) ∧
  (∀ (m : Fin 16) (s : State), s.winBit .goose m.val 0 31 = true → (s.publisher m.val).stNum ≠ 0 → s.leadsBus = true ∨ s.role = .standby → ∃ t,
    exec (.gooseRepeat m) s = .next t ∧
    (t.publisher m.val).sqNum = (s.publisher m.val).sqNum + 1 ∧ (t.publisher m.val).stNum = (s.publisher m.val).stNum ∧
    (t.publisher m.val).interval = min (2 * (s.publisher m.val).interval) (s.regFld NET.GOOSE_CFG 31 16) ∧
    (s.publisher m.val).sentAt + (s.publisher m.val).interval * 1000000 * nsUnits ≤ t.tb.up ∧ (∀ k, k ≠ m.val → t.publisher k = s.publisher k) ∧
    (s.leadsBus = true → s.lock.cutOff = false → LeavesOn s t (busPorts s (b2n (s.winBit .goose m.val 0 27))) (Sent.mk .goose
      ([m.val, (s.publisher m.val).stNum.toNat, ((s.publisher m.val).sqNum + 1).toNat, secOf (s.publisher m.val).since, nsOf (s.publisher m.val).since,
        2 * (t.publisher m.val).interval, b2n (s.winBit .goose m.val 0 29), gooseMac s m.val,
        (viewNet s NET.PAIR_MAC_HI).toNat % 65536 * 4294967296 + (viewNet s NET.PAIR_MAC_LO).toNat, s.winFld .goose m.val 0 15 0,
        (s.win .goose m.val 3).toNat] ++ ((gooseTypes s m.val).zip (s.publisher m.val).last).flatMap fun e => [e.1, e.2.toNat]) [])) ∧
    (s.leadsBus = false → t.sent = s.sent ∧ t.regs = s.regs) ∧ SameOutside [.regs, .tb, .net, .sent, .clock] s t ∧
    RegsOutside ((busPorts s (b2n (s.winBit .goose m.val 0 27))).flatMap portRegs) s t) ∧
  (∀ (g : GooseMessage) (s : State), (∀ k < 64, s.winBit .goose (16 + k) 0 31 = true → s.winFld .goose (16 + k) 0 15 0 = g.appid.toNat →
      (g.simulation = true ∧ s.winBit .goose (16 + k) 0 28 = false) ∨ (g.test = true ∧ s.winBit .goose (16 + k) 0 29 = false)) →
    exec (.gooseReceived g) s = .next s) ∧
  (∀ (g : GooseMessage) (k : Nat) (s : State), gooseHearers s g = [k] →
    (gooseMatches s k g = false → ∃ t, exec (.gooseReceived g) s = .next t ∧
      t.subscription k = { s.subscription k with state := 4 } ∧ (∀ j, j ≠ k → t.subscription j = s.subscription j) ∧
      Raises s t [(0x600A, 16 + k)] ∧ SameOutside [.net, .evr] s t) ∧
    (gooseMatches s k g = true → g.ndsCom = false → ∃ t, exec (.gooseReceived g) s = .next t ∧
      t.subscription k = { state := 2, stNum := g.stNum, sqNum := g.sqNum, expires := s.tb.up + g.live * 1000000 * nsUnits } ∧
      (∀ j, j ≠ k → t.subscription j = s.subscription j) ∧
      (∃ r ∈ t.net.receipts, r.entry.station = 0 ∧ r.entry.stream = k ∧ r.entry.sequence = g.stNum) ∧
      Raises s t (if (s.subscription k).state = 3 then [(0x6009, 16 + k)] else []) ∧ SameOutside [.net, .evr] s t) ∧
    (gooseMatches s k g = true → g.ndsCom = true → (s.subscription k).state ≠ 3 → ∃ t, exec (.gooseReceived g) s = .next t ∧
      t.subscription k = { s.subscription k with state := 3 } ∧ t.regBit NET.ALARM 5 = true ∧ Raises s t [(0x6008, 16 + k)] ∧
      SameOutside [.regs, .net, .evr] s t ∧ RegsOutside [NET.ALARM] s t)) ∧
  (∀ (k : Fin 64) (s : State), (s.subscription k.val).state = 2 → ∃ t, exec (.gooseTalExpiry k) s = .next t ∧ (t.subscription k.val).state = 3 ∧
    (s.subscription k.val).expires ≤ t.tb.up ∧ (∀ j, j ≠ k.val → t.subscription j = s.subscription j) ∧ t.regBit NET.ALARM 5 = true ∧
    Raises s t [(0x6008, 16 + k.val)] ∧ SameOutside [.regs, .tb, .net, .evr, .clock] s t ∧ RegsOutside [NET.ALARM] s t) ∧
  (∀ (u : Nat) (s : State), s.net.leading = some u → s.reg NET.PAIR_IP ≠ 0 → s.regBit NET.CFG 8 = true → s.net.arps < 3 → s.lock.cutOff = false → ∃ t,
    exec .gratuitousArp s = .next t ∧ t.net.arps = s.net.arps + 1 ∧ u + [0, 100, 1000].getD s.net.arps 0 * 1000000 * nsUnits ≤ t.tb.up ∧
    LeavesOn s t (busPorts s 1) (Sent.mk .gratuitousArp [(s.reg NET.PAIR_IP).toNat, portMac s 2] []) ∧
    SameOutside [.regs, .tb, .net, .sent, .clock] s t ∧ RegsOutside ((busPorts s 1).flatMap portRegs) s t) ∧
  (∀ (p : Fin 5) (ip : Word) (s : State), ip ≠ 0 → s.lock.cutOff = false →
    ip = viewNet s (NET.PORT_IP p.val) ∨ ((p.val = 2 ∨ p.val = 3) ∧ s.leadsBus = true ∧ ip = s.reg NET.PAIR_IP) →
    (∃ t, exec (.arpRequest p ip) s = .next t ∧ LeavesOn s t (answerPorts s p.val) (Sent.mk .arpReply [p.val, ip.toNat, portMac s p.val] []) ∧
      SameOutside [.regs, .sent] s t ∧ RegsOutside (NET.RX_FRAMES 4 :: (answerPorts s p.val).flatMap portRegs) s t ∧
      t.reg (NET.RX_FRAMES 4) = s.reg (NET.RX_FRAMES 4) + (if p.val = 4 then 1 else 0)) ∧
    (∃ t, exec (.icmpEcho p ip) s = .next t ∧ LeavesOn s t (answerPorts s p.val) (Sent.mk .icmpReply [p.val, ip.toNat] []) ∧
      SameOutside [.regs, .sent] s t ∧ RegsOutside (NET.RX_FRAMES 4 :: (answerPorts s p.val).flatMap portRegs) s t ∧
      t.reg (NET.RX_FRAMES 4) = s.reg (NET.RX_FRAMES 4) + (if p.val = 4 then 1 else 0))) ∧
  (∀ (p : Fin 5) (ip : Word) (s : State), ip = 0 ∨ (ip ≠ viewNet s (NET.PORT_IP p.val) ∧ (s.leadsBus = false ∨ ip ≠ s.reg NET.PAIR_IP)) →
    (∃ t, exec (.arpRequest p ip) s = .next t ∧ SameOutside [.regs] s t ∧ RegsOutside [NET.RX_FRAMES 4] s t) ∧
    (∃ t, exec (.icmpEcho p ip) s = .next t ∧ SameOutside [.regs] s t ∧ RegsOutside [NET.RX_FRAMES 4] s t)) ∧
  (∀ (n : Fin 2) (f : PrpFrame) (s : State), (s.prp n.val).mode ≠ 0 → (s.prp n.val).window = [] → f.checkOk = false → f.tagOk = true →
    f.length ≤ 1522 → ∃ t, exec (.prpFrameReceived n f) s = .next t ∧
    (∀ a ∈ [NET.RX_FRAMES (2 * n.val + b2n f.onB), NET.RX_ERRORS (2 * n.val + b2n f.onB), if f.onB then PRP.ERR_B n.val else PRP.ERR_A n.val],
      t.reg a = s.reg a + 1) ∧ t.net = s.net ∧ SameOutside [.regs, .net] s t ∧
    RegsOutside [NET.RX_FRAMES (2 * n.val + b2n f.onB), NET.RX_ERRORS (2 * n.val + b2n f.onB), if f.onB then PRP.ERR_B n.val else PRP.ERR_A n.val] s t) ∧
  (∀ (n : Fin 2) (f : PrpFrame) (s : State), (s.prp n.val).mode ≠ 0 → (s.prp n.val).window = [] → 1528 < f.length → ∃ t,
    exec (.prpFrameReceived n f) s = .next t ∧
    (∀ a ∈ [NET.RX_FRAMES (2 * n.val + b2n f.onB), NET.RX_ERRORS (2 * n.val + b2n f.onB)], t.reg a = s.reg a + 1) ∧ t.net = s.net ∧
    SameOutside [.regs, .net] s t ∧ RegsOutside [NET.RX_FRAMES (2 * n.val + b2n f.onB), NET.RX_ERRORS (2 * n.val + b2n f.onB)] s t) ∧
  (∀ (n : Fin 2) (f : PrpFrame) (s : State), f.checkOk = true → f.tagOk = true → f.onB = false → f.length ≤ 1522 → (s.prp n.val).mode = 0 →
    (s.prp n.val).window = [] →
    ∃ t, exec (.prpFrameReceived n f) s = .next t ∧ t.reg (PRP.RX_A n.val) = s.reg (PRP.RX_A n.val) + 1 ∧
    t.reg (NET.RX_FRAMES (2 * n.val)) = s.reg (NET.RX_FRAMES (2 * n.val)) + 1 ∧ (t.prp n.val).upA = true ∧
    (t.prp n.val).seenA = s.tb.up ∧ Raises s t (if (s.prp n.val).upA then [] else [(0x6102, n.val)]) ∧
    ((s.prp n.val).upA = false → t.regBit PRP.ALARM 1 = true ∧ t.reg PRP.LAST_CHANGE = secWord s.tb.now) ∧
    SameOutside [.regs, .net, .evr] s t ∧ RegsOutside [NET.RX_FRAMES (2 * n.val), PRP.RX_A n.val, PRP.ALARM, PRP.LAST_CHANGE] s t) ∧
  (∀ (n : Fin 2) (f : PrpFrame) (s : State), f.checkOk = true → f.tagOk = true → f.length ≤ 1522 → (s.prp n.val).mode = 1 →
    (s.prp n.val).window = [] → (s.prp n.val).upA = true → (s.prp n.val).upB = true → f.lan = some f.onB → f.kind = .danp →
    (s.prp n.val).nodes = [] → f.supervision = false → ∃ t, exec (.prpFrameReceived n f) s = .next t ∧
    (t.prp n.val).nodes = [{ mac := f.source, kind := 1, seen := s.tb.up }] ∧
    (t.prp n.val).window = [{ mac := f.source, sequence := f.sequence, first := s.tb.up, onA := b2n (!f.onB), onB := b2n f.onB }] ∧
    (∀ a ∈ [NET.RX_FRAMES (2 * n.val + b2n f.onB), if f.onB then PRP.RX_B n.val else PRP.RX_A n.val], t.reg a = s.reg a + 1) ∧ Raises s t [] ∧
    SameOutside [.regs, .net] s t ∧ RegsOutside [NET.RX_FRAMES (2 * n.val + b2n f.onB), if f.onB then PRP.RX_B n.val else PRP.RX_A n.val] s t) ∧
  (∀ (n : Fin 2) (f : PrpFrame) (d : Duplicate) (s : State), f.checkOk = true → f.tagOk = true → f.length ≤ 1522 → (s.prp n.val).mode = 1 →
    (s.prp n.val).window = [d] → d.mac = f.source → d.sequence = f.sequence → d.onA + d.onB = 1 → s.tb.up < d.first + s.regFld PRP.DD_CFG 31 0 * msUnits →
    (s.prp n.val).upA = true → (s.prp n.val).upB = true → f.lan = some f.onB → f.kind = .danp → f.supervision = false →
    (s.prp n.val).nodes.any (fun x => decide (x.mac = f.source)) = true → ∃ t, exec (.prpFrameReceived n f) s = .next t ∧
    (t.prp n.val).window = [{ d with onA := d.onA + b2n (!f.onB), onB := d.onB + b2n f.onB }] ∧
    t.reg (PRP.DUPLICATE n.val) = s.reg (PRP.DUPLICATE n.val) + 1 ∧ t.sent = s.sent ∧ SameOutside [.regs, .net] s t) ∧
  (∀ (n : Fin 2) (f : PrpFrame) (s : State), f.checkOk = true → f.tagOk = true → f.length ≤ 1522 → (s.prp n.val).mode = 2 → f.kind = .danh →
    (s.prp n.val).upA = true → (s.prp n.val).upB = true → f.lan = none → f.own = false → f.toUs = false → f.correction = none →
    s.lock.cutOff = false → ∃ t, exec (.prpFrameReceived n f) s = .next t ∧
    t.sent = Sent.mk .forwarded [f.source.toNat, f.sequence.toNat] [] :: s.sent ∧ t.reg (PRP.HSR_FWD n.val) = s.reg (PRP.HSR_FWD n.val) + 1 ∧
    t.reg (NET.TX_FRAMES (2 * n.val + b2n (!f.onB))) = s.reg (NET.TX_FRAMES (2 * n.val + b2n (!f.onB))) + 1 ∧
    SameOutside [.regs, .net, .evr, .sent] s t) ∧
  (∀ (n : Fin 2) (s : State), (s.prp n.val).mode ≠ 0 → (s.prp n.val).window = [] → s.lock.cutOff = false → ∃ t,
    exec (.prpSupervisionSend n) s = .next t ∧ t.reg (PRP.SUP_TX n.val) = s.reg (PRP.SUP_TX n.val) + 1 ∧
    LeavesOn s t [2 * n.val, 2 * n.val + 1] (Sent.mk .prpSupervision [n.val, 0x01154E000100 + s.regFld PRP.SUP_CFG 7 0] []) ∧
    t.prp n.val = { s.prp n.val with supervisedAt := t.tb.up } ∧
    (s.prp n.val).supervisedAt + s.regFld PRP.SUP_CFG 31 16 * secUnits ≤ t.tb.up ∧ SameOutside [.regs, .tb, .net, .sent, .clock] s t ∧
    RegsOutside (PRP.SUP_TX n.val :: ([2 * n.val, 2 * n.val + 1].flatMap portRegs)) s t) ∧
  (∀ (n : Fin 2) (s : State), (s.prp n.val).upA = true → ∃ t, exec (.prpLanTimeout n false) s = .next t ∧ (t.prp n.val).upA = false ∧
    (t.prp n.val).upB = (s.prp n.val).upB ∧ t.reg (PRP.DOWN_A n.val) = s.reg (PRP.DOWN_A n.val) + 1 ∧ t.regBit PRP.ALARM 0 = true ∧
    (s.prp n.val).seenA + (s.reg PRP.LAN_TIMEOUT).toNat * 1000000 * nsUnits ≤ t.tb.up ∧ Raises s t [(0x6101, n.val)] ∧
    SameOutside [.regs, .tb, .net, .evr, .clock] s t ∧ RegsOutside [PRP.DOWN_A n.val, PRP.ALARM, PRP.LAST_CHANGE] s t) ∧
  (∀ (n : Fin 2) (s : State), (s.prp n.val).upB = true → ∃ t, exec (.prpLanTimeout n true) s = .next t ∧ (t.prp n.val).upB = false ∧
    (t.prp n.val).upA = (s.prp n.val).upA ∧ t.reg (PRP.DOWN_B n.val) = s.reg (PRP.DOWN_B n.val) + 1 ∧ t.regBit PRP.ALARM 0 = true ∧
    (s.prp n.val).seenB + (s.reg PRP.LAN_TIMEOUT).toNat * 1000000 * nsUnits ≤ t.tb.up ∧ Raises s t [(0x6101, n.val)] ∧
    SameOutside [.regs, .tb, .net, .evr, .clock] s t ∧ RegsOutside [PRP.DOWN_B n.val, PRP.ALARM, PRP.LAST_CHANGE] s t) ∧
  (∀ (p : Fin 4) (info : Word) (s : State), ∃ t, exec (.transceiverInserted p info) s = .next t ∧ t.regBit (NET.PORT_STATUS p.val) 30 = true ∧
    t.regBit (ID.SFP p.val) 31 = true ∧ t.regFld (ID.SFP p.val) 27 24 = fld info 27 24 ∧
    ((if p.val < 2 then 1 ≤ fld info 27 24 ∧ fld info 27 24 ≤ 2 else 3 ≤ fld info 27 24 ∧ fld info 27 24 ≤ 5) →
      t.regBit (NET.PORT_STATUS p.val) 29 = true ∧ t.regBit (ID.SFP p.val) 30 = true ∧ Raises s t []) ∧
    (¬ (if p.val < 2 then 1 ≤ fld info 27 24 ∧ fld info 27 24 ≤ 2 else 3 ≤ fld info 27 24 ∧ fld info 27 24 ≤ 5) →
      t.regBit (NET.PORT_STATUS p.val) 29 = false ∧ t.regBit (ID.SFP p.val) 30 = false ∧ t.regBit (NET.PORT_STATUS p.val) 31 = false ∧
      t.regBit NET.ALARM 4 = true ∧ Raises s t [(0x6007, p.val + 1)]) ∧ SameOutside [.regs, .net, .evr] s t ∧
    RegsOutside [NET.PORT_STATUS p.val, ID.SFP p.val, NET.ALARM] s t) ∧
  (∀ (p : Fin 4) (s : State), ∃ t, exec (.transceiverRemoved p) s = .next t ∧ t.reg (NET.PORT_STATUS p.val) = 0 ∧ t.reg (ID.SFP p.val) = 0x00008000 ∧
    Raises s t (if s.regBit (NET.PORT_STATUS p.val) 31 then [(0x6007, p.val + 1)] else []) ∧ SameOutside [.regs, .net, .evr] s t ∧
    RegsOutside [NET.PORT_STATUS p.val, ID.SFP p.val, NET.ALARM] s t) ∧
  (∀ (p : Fin 5) (sp : Fin 4) (s : State), s.regBit (NET.PORT_CFG p.val) 31 = true → (p.val = 4 ∨ s.regBit (NET.PORT_STATUS p.val) 29 = true) →
    s.regBit (NET.PORT_STATUS p.val) 31 = false → ∃ t, exec (.portLinkChange p true sp) s = .next t ∧ t.regBit (NET.PORT_STATUS p.val) 31 = true ∧
    (p.val < 2 → t.regFld (NET.PORT_STATUS p.val) 27 24 = 3) ∧ (2 ≤ p.val → p.val < 4 → t.regFld (NET.PORT_STATUS p.val) 27 24 = 2) ∧
    (p.val = 4 → t.regFld (NET.PORT_STATUS 4) 27 24 = (if s.regFld (NET.PORT_CFG 4) 1 0 = 0 then sp.val else s.regFld (NET.PORT_CFG 4) 1 0)) ∧
    t.regBit NET.ALARM 4 = true ∧ Raises s t [(0x6007, p.val + 1)] ∧
    SameOutside [.regs, .evr] s t ∧ RegsOutside [NET.PORT_STATUS p.val, NET.ALARM] s t) ∧
  (∀ (p : Fin 5) (up : Bool) (sp : Fin 4) (s : State), up = false ∨ s.regBit (NET.PORT_CFG p.val) 31 = false →
    s.regBit (NET.PORT_STATUS p.val) 31 = true → ∃ t, exec (.portLinkChange p up sp) s = .next t ∧ t.regBit (NET.PORT_STATUS p.val) 31 = false ∧
    t.regFld (NET.PORT_STATUS p.val) 27 24 = 0 ∧ t.regBit NET.ALARM 4 = true ∧ Raises s t [(0x6007, p.val + 1)] ∧
    SameOutside [.regs, .evr] s t ∧ RegsOutside [NET.PORT_STATUS p.val, NET.ALARM] s t) ∧
  (∀ s : State, ∃ t, exec .beaconSend s = .next t ∧ s.net.beaconAt + s.regFld NET.BEACON_CFG 31 16 * secUnits ≤ t.tb.up ∧
    t.qcp.beacons = s.qcp.beacons + b2n (s.regBit NET.BEACON_CFG 0) + b2n (s.regBit NET.BEACON_CFG 1) ∧
    t.sent.length = s.sent.length + b2n (s.regBit NET.BEACON_CFG 0) + b2n (s.regBit NET.BEACON_CFG 1) ∧
    (∀ m ∈ t.sent.take (t.sent.length - s.sent.length), m.kind = .beacon) ∧
    (s.regBit NET.BEACON_CFG 0 = true → s.regBit NET.BEACON_CFG 1 = false → t.sent = Sent.mk .beacon ([2, s.qcp.beacons + 1] ++ beaconPayload t 2)
      (packetBytes t 0x01 (packetFlags t false false 0) 0 (BitVec.ofNat 32 (s.qcp.beacons + 1)) 0 0 []
        (entryBytes (payloadWidths 0x01) (payloadWidths 0x01) (beaconPayload t 2))) :: s.sent) ∧
    t.net = { s.net with beaconAt := t.tb.up } ∧ SameOutside [.tb, .net, .qcp, .sent, .clock] s t)

/-! ### The command protocol (chapter 10) -/

/-- Sessions (R328 to R333, R345, Table QP-6): opening one gives it a number of its own, the role asked for and a reply with its limits, event
0x6046; a slot that is empty, revoked, not for sessions or enrolled below that role, the commissioning key elsewhere than on P5 and a second Owner key refuse with
NOT_AUTHORIZED and a ninth session with BUSY, event 0x6048. The right SA confirms
it, a wrong one ends it; before that no other request is in order. It ends by SESSION_CLOSE, 60 s without a request, 480 min after opening, 5 s
unconfirmed, or 16 MAC failures in 1 s (0x6049), each with event 0x6047. RESTART ends them all and sets the restart for the next frame tick, not on an ACTIVE module.
The number and the key words are free values (notes/assumptions/5.md). -/
def Obligations.Sessions : Prop :=
  (∀ (p : Pkt) (slot role : Byte) (ra : BitVec 512) (s : State), AdmitsFree s p → slot.toNat ≤ 15 → role.toNat ≤ 3 →
    onCurve (highHalf ra) (lowHalf ra) = true →
    (slotAllows s slot.toNat role.toNat p.path = true → s.qcp.sessions.length < 8 → ∃ (t : State) (x : Session),
      exec (.sessionOpen p slot role 0 ra) s = .next t ∧ t.qcp.sessions = s.qcp.sessions ++ [x] ∧ x.number ≠ 0 ∧ x.number ≠ BitVec.allOnes 32 ∧
      s.session x.number = none ∧ x.slot = slot.toNat ∧ x.role = role.toNat ∧ x.path = p.path ∧ x.confirmed = false ∧ x.openedAt = s.tb.up ∧
      t.replied (doneWith ([x.number.toNat] ++ keyWords s.freeCtr ++ [60, 480])) ∧ (keyWords s.freeCtr).length = 24 ∧ Raises s t [(0x6046, x.number.toNat % 65536)] ∧
      t.qcp.stats.opened = s.qcp.stats.opened + 1 ∧ SameOutside [.evr, .qcp, .sent, .freeCtr] s t) ∧
    (s.regBit (SEC.KEY_INFO slot.toNat) 31 = false ∨ s.regBit (SEC.KEY_INFO slot.toNat) 30 = true ∨
      (s.regBit (SEC.KEY_INFO slot.toNat) 24 = false ∧ slot ≠ 1) ∨ s.regFld (SEC.KEY_INFO slot.toNat) 29 28 < role.toNat ∨
      (slot = 15 ∧ p.path.kind ≠ 1) ∨ (role = 3 ∧ fld (s.view SEC.OWNER_SLOT) 3 0 ≠ slot.toNat) → ∃ t, exec (.sessionOpen p slot role 0 ra) s = .next t ∧
      t.replied (refusal .notAuthorized) ∧ t.qcp.sessions = s.qcp.sessions ∧ Raises s t [(0x6048, 0xFFFF)] ∧ SameOutside [.evr, .qcp, .sent] s t) ∧
    (slotAllows s slot.toNat role.toNat p.path = true → 8 ≤ s.qcp.sessions.length → ∃ t, exec (.sessionOpen p slot role 0 ra) s = .next t ∧
      t.replied (refusal .busy) ∧ t.qcp.sessions = s.qcp.sessions ∧ Raises s t [(0x6048, 0xFFFF)] ∧ SameOutside [.evr, .qcp, .sent] s t)) ∧
  (∀ (p : Pkt) (slot role : Byte) (zero : Half) (ra : BitVec 512) (s : State), AdmitsFree s p →
    (15 < slot.toNat → ∃ t, exec (.sessionOpen p slot role zero ra) s = .next t ∧ t.replied (refusal .badParameter 0 0) ∧
      SameOutside [.evr, .qcp, .sent] s t) ∧
    (slot.toNat ≤ 15 → 3 < role.toNat → ∃ t, exec (.sessionOpen p slot role zero ra) s = .next t ∧ t.replied (refusal .badParameter 0 1) ∧
      SameOutside [.evr, .qcp, .sent] s t) ∧
    (slot.toNat ≤ 15 → role.toNat ≤ 3 → zero = 0 → onCurve (highHalf ra) (lowHalf ra) = false → ∃ t, exec (.sessionOpen p slot role zero ra) s = .next t ∧
      t.replied (refusal .badParameter 0 4) ∧ t.qcp.sessions = s.qcp.sessions ∧ Raises s t [(0x6048, 0xFFFF)] ∧ SameOutside [.evr, .qcp, .sent] s t)) ∧
  (∀ (p : Pkt) (x : Session) (s : State), Arrives s p x → x.confirmed = false →
    (∃ t y, exec (.sessionConfirm p true) s = .next t ∧ t.replied done ∧ t.session p.session = some y ∧ y.confirmed = true ∧ y.role = x.role ∧
      SameOutside [.qcp, .sent] s t) ∧
    (∃ t, exec (.ping p []) s = .next t ∧ t.replied (refusal .outOfSequence) ∧ Raises s t [(0x6048, p.session.toNat % 65536)] ∧
      SameOutside [.evr, .qcp, .sent] s t)) ∧
  (∀ (p : Pkt) (x : Session) (s : State), Arrives s p x → x.confirmed = false → (∀ h ∈ s.qcp.handles, h.session ≠ p.session) →
    (∀ ch < 2, (s.can ch).locked.map (·.2.1) ≠ some p.session) → ∃ t, exec (.sessionConfirm p false) s = .next t ∧
    t.replied (refusal .notAuthorized) ∧ SessionEnds s t p.session ∧
    Raises s t [(0x6048, p.session.toNat % 65536), (0x6047, p.session.toNat % 65536)] ∧ SameOutside [.evr, .qcp, .sent] s t) ∧
  (∀ (p : Pkt) (x : Session) (s : State), Admits s p x → ∃ t, exec (.sessionClose p) s = .next t ∧ t.replied done ∧ SessionEnds s t p.session ∧
    ((∀ h ∈ s.qcp.handles, h.session ≠ p.session) → (∀ ch < 2, (s.can ch).locked.map (·.2.1) ≠ some p.session) →
      Raises s t [(0x6047, p.session.toNat % 65536)] ∧ SameOutside [.evr, .qcp, .sent] s t) ∧
    SameOutside [.regs, .can0, .can1, .evr, .qcp, .sent] s t) ∧
  (∀ (n : Word) (x : Session) (s : State), s.session n = some x → n ≠ 0 →
    (∃ t, exec (.sessionIdleTimeout n) s = .next t ∧ SessionEnds s t n ∧ x.lastAt + 60 * secUnits ≤ t.tb.up ∧
      t.qcp.stats.endedByTimeout = s.qcp.stats.endedByTimeout + 1 ∧ SameOutside [.regs, .tb, .can0, .can1, .evr, .qcp, .clock] s t) ∧
    (∃ t, exec (.sessionLifetimeExpiry n) s = .next t ∧ SessionEnds s t n ∧ x.openedAt + 28800 * secUnits ≤ t.tb.up ∧
      t.qcp.stats.endedByTimeout = s.qcp.stats.endedByTimeout + 1 ∧ SameOutside [.regs, .tb, .can0, .can1, .evr, .qcp, .clock] s t) ∧
    (x.confirmed = false → ∃ t, exec (.sessionConfirmTimeout n) s = .next t ∧ SessionEnds s t n ∧ x.openedAt + 5 * secUnits ≤ t.tb.up ∧
      t.qcp.stats.endedByTimeout = s.qcp.stats.endedByTimeout + 1 ∧ SameOutside [.regs, .tb, .can0, .can1, .evr, .qcp, .clock] s t) ∧
    (16 ≤ (x.macFails.filter fun u => s.tb.up < u + 1000 * msUnits).length → ∃ t, exec (.macFailureLimit n) s = .next t ∧ SessionEnds s t n ∧
      ((∀ h ∈ s.qcp.handles, h.session ≠ n) → (∀ ch < 2, (s.can ch).locked.map (·.2.1) ≠ some n) →
        Raises s t [(0x6049, n.toNat % 65536), (0x6047, n.toNat % 65536)]) ∧ SameOutside [.regs, .can0, .can1, .evr, .qcp] s t)) ∧
  (∀ (p : Pkt) (x : Session) (s : State), Admits s p x → 2 ≤ x.role →
    (s.role ≠ .active → (s.role = .solo → s.mode = .stop) → ∃ t, exec (.restart p 0x5253) s = .next t ∧ t.replied done ∧ t.qcp.sessions = [] ∧
      (∀ c ∈ t.qcp.claims, s.session c.2.1 = none) ∧
      t.frame = { s.frame with restartDue := true } ∧ SameOutside [.regs, .frame, .can0, .can1, .evr, .qcp, .sent] s t) ∧
    (s.role = .active ∨ (s.role = .solo ∧ s.mode ≠ .stop) → ∃ t, exec (.restart p 0x5253) s = .next t ∧ t.replied (refusal .wrongState) ∧
      SameOutside [.qcp, .sent] s t) ∧
    (∀ key, key ≠ 0x5253#16 → ∃ t, exec (.restart p key) s = .next t ∧ t.replied (refusal .badParameter) ∧ SameOutside [.qcp, .sent] s t))

/-- Packets (R315, R322 to R325, R328, R334 to R336, R342 to R346, Table QP-4): what the receive checks answer, in silence or with a status, and count; session-free packets
and their limits; the sequence and rate checks; PING, the statistics, the notices with their four repeats, relayed requests and their 10 ms. That
HELLOs beyond ten a second count as session-free packets without answer is the model's choice (notes/assumptions/49.md). -/
def Obligations.PacketsAndNotices : Prop :=
  (∀ (p : Pkt) (w : Half) (s : State), AdmitsFree s p → (w = 0xFFFF ∨ w = s.pair.baseId) →
    ((s.net.hellos.filter fun u => s.tb.up < u + 1000 * msUnits).length < 10 → ∃ (t : State) (e : Sent), exec (.hello p w) s = .next t ∧
      t.sent = e :: s.sent ∧ e.kind = .beacon ∧ e.fields.head? = some (if p.path.kind = 1 then 4 else 2) ∧ t.qcp.beacons = s.qcp.beacons + 1 ∧
      SameOutside [.net, .qcp, .sent] s t) ∧
    (10 ≤ (s.net.hellos.filter fun u => s.tb.up < u + 1000 * msUnits).length → ∃ t, exec (.hello p w) s = .next t ∧
      t.qcp.stats.freeUnanswered = s.qcp.stats.freeUnanswered + 1 ∧ SameOutside [.net, .qcp] s t)) ∧
  (∀ (p : Pkt) (l : List Byte) (s : State), AdmitsFree s p → l.length ≤ 64 → ∃ t, exec (.ping p l) s = .next t ∧
    t.replied { status := .done, fields := [secOf s.tb.now, s.tb.quality.code * 1073741824 + nsOf s.tb.now], payload := l.map (·.toNat) } ∧
    SameOutside [.qcp, .sent] s t) ∧
  (∀ (p : Pkt) (l : List Byte) (s : State), s.committing = false → p.session = 0 →
    (10 ≤ (s.qcp.freeRecent.filter fun r => s.tb.up < r.1 + 1000 * msUnits).countP (fun r => r.2 = p.path.ip) ∨
      50 ≤ (s.qcp.freeRecent.filter fun r => s.tb.up < r.1 + 1000 * msUnits).length) → ∃ t, exec (.ping p l) s = .next t ∧
    t.qcp.stats.freeUnanswered = s.qcp.stats.freeUnanswered + 1 ∧ Raises s t [(0x604E, 0xFFFF)] ∧ SameOutside [.evr, .qcp] s t) ∧
  (∀ s : State, s.committing = false → ∃ t, exec .beacon s = .next t ∧ t.qcp.stats.silent = s.qcp.stats.silent + 1 ∧ Raises s t [(0x6041, 0xFFFF)] ∧
    SameOutside [.evr, .qcp] s t) ∧
  (∀ (path : Path) (bytes : List Byte) (frag : Bool) (mac : MacCheck) (s : State), s.committing = false →
    (bytes.length < 36 ∨ 1468 < bytes.length → packetFault bytes frag = some .length) ∧
    (36 ≤ bytes.length → bytes.length ≤ 1468 → frag = true → packetFault bytes frag = some .fragment) ∧
    (36 ≤ bytes.length → bytes.length ≤ 1468 → frag = false →
      crc32c (bytes.take (bytes.length - 4)) ≠ BitVec.ofNat 32 (beNat (bytes.drop (bytes.length - 4))) → packetFault bytes frag = some .crc) ∧
    (packetFault bytes frag = none → exec (.malformedPacket path bytes frag mac) s = .next s) ∧
    (packetFault bytes frag = some .length ∨ packetFault bytes frag = some .fragment ∨ packetFault bytes frag = some .magic → ∃ t,
      exec (.malformedPacket path bytes frag mac) s = .next t ∧ t.qcp.stats.silent = s.qcp.stats.silent + 1 ∧ Raises s t [(0x6041, 0xFFFF)] ∧
      SameOutside [.evr, .qcp] s t) ∧
    (packetFault bytes frag = some .crc → ∃ t, exec (.malformedPacket path bytes frag mac) s = .next t ∧
      t.qcp.stats.crcFailures = s.qcp.stats.crcFailures + 1 ∧ Raises s t [(0x6040, 0xFFFF)] ∧ SameOutside [.evr, .qcp] s t) ∧
    (packetFault bytes frag = some .version → ∃ t, exec (.malformedPacket path bytes frag mac) s = .next t ∧
      t.replied { status := .badHeader, fields := [1, 1] } ∧ t.qcp.stats.badHeader = s.qcp.stats.badHeader + 1 ∧
      Raises s t [(0x6041, if packetField bytes 8 4 = 0 then 0xFFFF else packetField bytes 8 4 % 65536)] ∧ SameOutside [.evr, .qcp, .sent] s t) ∧
    (packetFault bytes frag = some .header → ∃ t, exec (.malformedPacket path bytes frag mac) s = .next t ∧ t.replied (refusal .badHeader) ∧
      t.qcp.stats.badHeader = s.qcp.stats.badHeader + 1 ∧ SameOutside [.evr, .qcp, .sent] s t) ∧
    (packetFault bytes frag = some .lengths → ∃ t, exec (.malformedPacket path bytes frag mac) s = .next t ∧ t.replied (refusal .badLength) ∧
      t.qcp.stats.badHeader = s.qcp.stats.badHeader + 1 ∧ SameOutside [.evr, .qcp, .sent] s t)) ∧
  (∀ (path : Path) (bytes : List Byte) (frag : Bool) (mac : MacCheck) (x : Session) (s : State), packetFault bytes frag = some .opcode →
    Arrives s (packetEnvelope path bytes mac) x → ∃ t, exec (.malformedPacket path bytes frag mac) s = .next t ∧ t.replied (refusal .unknownOpcode) ∧
    t.qcp.stats.unknownOpcode = s.qcp.stats.unknownOpcode + 1 ∧ Raises s t [(0x6041, packetField bytes 8 4 % 65536)] ∧
    SameOutside [.evr, .qcp, .sent] s t) ∧
  (∀ (p : Pkt) (s : State), s.committing = false → (p.pairId = 0xFFFF ∨ p.pairId = s.pair.baseId) → p.session ≠ 0 →
    (s.session p.session = none → ∃ t, exec (.qcpStats p) s = .next t ∧ t.replied (refusal .sessionExpired) ∧ SameOutside [.qcp, .sent] s t) ∧
    (∀ x, s.session p.session = some x →
      (x.path ≠ p.path → ∃ t, exec (.qcpStats p) s = .next t ∧ t.replied (refusal .sessionExpired) ∧ SameOutside [.qcp, .sent] s t) ∧
      (x.path = p.path → p.mac ≠ .correct → ∃ t, exec (.qcpStats p) s = .next t ∧ Raises s t [(0x6042, p.session.toNat % 65536)] ∧
        t.qcp.stats.macFailures = s.qcp.stats.macFailures + 1 ∧ SameOutside [.evr, .qcp] s t) ∧
      (x.path = p.path → p.mac = .correct → 200 ≤ (recentOf x s.tb.up).length → ∃ t, exec (.qcpStats p) s = .next t ∧
        t.replied (refusal .rateLimited) ∧ Raises s t [(0x6044, p.session.toNat % 65536)] ∧ SameOutside [.evr, .qcp, .sent] s t) ∧
      (x.path = p.path → p.mac = .correct → (recentOf x s.tb.up).length < 200 → p.seq.toNat ≤ x.high →
        (∀ c r, x.held.find? (fun h => decide (h.1 = p.seq.toNat)) = some (p.seq.toNat, c, r) → c = p.crc → ∃ t, exec (.qcpStats p) s = .next t ∧
          t.replied r ∧ t.qcp.sessions = s.qcp.sessions ∧ SameOutside [.qcp, .sent] s t) ∧
        ((∀ h ∈ x.held, h.1 ≠ p.seq.toNat) → (p.seq.toNat + 63 < x.high ∨ p.seq.toNat ∈ x.seen) → ∃ t, exec (.qcpStats p) s = .next t ∧
          t.replied (refusal .replayed) ∧ Raises s t [(0x6043, p.session.toNat % 65536)] ∧ SameOutside [.evr, .qcp, .sent] s t)))) ∧
  (∀ (p : Pkt) (x : Session) (s : State), Admits s p x →
    (∃ (t : State) (r : Reply), exec (.qcpStats p) s = .next t ∧ t.replied r ∧ r.status = .done ∧ r.fields.length = 16 ∧
      r.fields.head? = some ((s.qcp.stats.received + 1) % 4294967296) ∧ r.fields[15]? = some (s.qcp.stats.transfers % 4294967296) ∧
      r.payload.length = 7 * s.qcp.sessions.length ∧ SameOutside [.qcp, .sent] s t) ∧
    (∀ n : Word, ∃ t, exec (.noticeAck p n) s = .next t ∧
      t.qcp.notices = s.qcp.notices.filter (fun y => !(decide (y.session = p.session) && decide (y.count = n.toNat))) ∧ SameOutside [.qcp] s t)) ∧
  (∀ (n k : Word) (x : Notice) (s : State), s.qcp.notices = [x] → x.session = n → x.count = k.toNat → ∃ t, exec (.noticeResend n k) s = .next t ∧
    x.sentAt + [100, 300, 700, 1500].getD x.resends 1500 * msUnits ≤ t.tb.up ∧
    t.sent = Sent.mk .notice ([x.opcode, n.toNat, x.count, x.ref.toNat, x.reply.status.code, x.reply.reason, x.reply.detail] ++
      x.reply.fields ++ x.reply.payload) (packetBytes s x.opcode (packetFlags s true false n) n (BitVec.ofNat 32 x.count) x.reply.status.code x.ref.toNat
        (replyParams x.opcode x.reply) (replyPayload x.opcode x.reply)) :: s.sent ∧
    (x.resends < 3 → t.qcp.notices = [{ x with resends := x.resends + 1 }] ∧ t.evr = s.evr) ∧
    (3 ≤ x.resends → t.qcp.notices = [] ∧ t.qcp.stats.noticesDropped = s.qcp.stats.noticesDropped + 1 ∧
      Raises s t [(0x604C, if n = 0 then 0xFFFF else n.toNat % 65536)]) ∧ SameOutside [.tb, .evr, .qcp, .sent, .clock] s t) ∧
  (∀ (p : Pkt) (x : Session) (a : Half) (s : State), Arrives s { p with relay := false } x → p.relay = true → s.lock.cutOff = false →
    (s.pair.tandem.up = true → ∃ (t : State) (r : Relay), exec (.regRead p a 0) s = .next t ∧ t.qcp.relays = s.qcp.relays ++ [r] ∧ r.opcode = 0x10 ∧
      r.by_ = requesterOf p ∧ r.sentAt = s.tb.up ∧ t.sent = { kind := .relayed, fields := [0x10, p.session.toNat, p.seq.toNat] } :: s.sent ∧
      SameOutside [.qcp, .sent] s t) ∧
    (s.pair.tandem.up = false → ∃ t, exec (.regRead p a 0) s = .next t ∧ t.replied (refusal .wrongState 2) ∧
      Raises s t [(0x604F, p.session.toNat % 65536)] ∧ SameOutside [.evr, .qcp, .sent] s t)) ∧
  (∀ (n q : Word) (st : Status) (reason : Byte) (d : Word) (fs pl : List Word) (r : Relay) (s : State), s.qcp.relays = [r] → r.by_.session = n →
    r.by_.seq = q → (s.session n).isSome → n ≠ 0 →
    (∃ t, exec (.relayReply n q st reason d fs pl) s = .next t ∧
      t.replied { status := st, reason := reason.toNat, detail := d.toNat, fields := fs.map (·.toNat), payload := pl.map (·.toNat) } ∧
      t.qcp.relays = [] ∧ SameOutside [.qcp, .sent] s t) ∧
    (∃ t, exec (.relayTimeout n q) s = .next t ∧ t.replied (refusal .wrongState 2) ∧ t.qcp.relays = [] ∧ r.sentAt + 10 * msUnits ≤ t.tb.up ∧
      Raises s t [(0x604F, n.toNat % 65536)] ∧ SameOutside [.tb, .evr, .qcp, .sent, .clock] s t)) ∧
  (∀ (id : Word) (h : Handle) (s : State), s.qcp.handles = [h] → h.id = id.toNat → ∃ t, exec (.handleIdleTimeout id) s = .next t ∧
    t.qcp.handles = [] ∧ h.lastAt + 60 * secUnits ≤ t.tb.up ∧
    (∀ b, h.kind = .image b → t.reg (IMG.B_STATE b) = 0 ∧ Raises s t [(0x604B, if h.session = 0 then 0xFFFF else h.session.toNat % 65536)] ∧
      RegsOutside [IMG.B_STATE b] s t) ∧
    (∀ a b c, h.kind = .record a b c → t.regs = s.regs ∧ t.evr = s.evr) ∧ SameOutside [.regs, .tb, .evr, .qcp, .clock] s t) ∧
  (∀ (w : WindowId) (n : Word) (u : Nat) (s : State), s.qcp.claims.find? (fun c => c.1 = w) = some (w, n, u) → ∃ t,
    exec (.windowClaimTimeout w) s = .next t ∧ t.qcp.claims = s.qcp.claims.filter (fun c => c.1 ≠ w) ∧ u + 10 * secUnits ≤ t.tb.up ∧
    SameOutside [.tb, .qcp, .clock] s t)

/-- The register commands (R347, R348, R14): a read of a register without side effects answers its value; a block read answers the registers in
ascending order, or BAD_PARAMETER where one is not implemented or another block begins. A write sets the fields that a write sets and clears the W1C bits written
1; a register that is all RO keeps its value, and the answer is DONE; REG_MODIFY changes the masked bits, and answers the values before and
after. A field that changes in STOP only, and a shared block of a module that does not lead, answer WRONG_STATE. Reading TB.TIME_SEC_HI latches the whole time. What needs more authority is refused, as is a window that another session holds. -/
def Obligations.RegisterCommands : Prop :=
  (∀ (p : Pkt) (x : Session) (a : Half) (s : State), Admits s p x →
    (implemented a.toNat = true → a.toNat ∈ [PRP.SUP_CFG, PRP.DD_CFG, PRP.ALARM, NET.ALARM, NET.QSP_LATE, TB.SLEW_LIMIT, MODE.CHANGE_COUNT, EVR.CFG] →
      ∃ t, exec (.regRead p a 0) s = .next t ∧ t.replied (doneWith [(s.reg a.toNat).toNat]) ∧ SameOutside [.qcp, .sent] s t) ∧
    (implemented a.toNat = false → ∃ t, exec (.regRead p a 0) s = .next t ∧ t.replied (refusal .badParameter) ∧ SameOutside [.qcp, .sent] s t) ∧
    (∀ z, z ≠ 0#16 → ∃ t, exec (.regRead p a z) s = .next t ∧ t.replied (refusal .badParameter 0 2) ∧ SameOutside [.qcp, .sent] s t)) ∧
  (∀ (p : Pkt) (x : Session) (s : State), Admits s p x → ∃ t, exec (.regBlockRead p (BitVec.ofNat 16 PRP.SUP_CFG) 3) s = .next t ∧
    t.replied { status := .done, payload := [(s.reg PRP.SUP_CFG).toNat, (s.reg PRP.DD_CFG).toNat, (s.reg PRP.LAN_TIMEOUT).toNat] } ∧
    SameOutside [.qcp, .sent] s t) ∧
  (∀ (p : Pkt) (x : Session) (a n : Half) (s : State), Admits s p x →
    (1 ≤ n.toNat ∧ n.toNat ≤ 256) → ((a.toNat + n.toNat - 1) / 256 ≠ a.toNat / 256 ∨ ∃ i < n.toNat, implemented (a.toNat + i) = false) → ∃ t,
    exec (.regBlockRead p a n) s = .next t ∧ t.replied (refusal .badParameter) ∧ SameOutside [.qcp, .sent] s t) ∧
  (∀ (p : Pkt) (x : Session) (a : Half) (v : Word) (r : RegRow) (s : State), MayWrite s p x a.toNat v → regRow a.toNat = some r →
    a.toNat ∈ [PRP.SUP_CFG, PRP.DD_CFG, PRP.LAN_TIMEOUT, PRP.ALARM, NET.ALARM, NET.GOOSE_CFG, NET.BEACON_CFG] → ∃ t,
    exec (.regWrite p a 0 v false) s = .next t ∧ exec (.registerWritePlain p a v) s = .next t ∧ t.replied done ∧
    (∀ i < 32, bit (t.reg a.toNat) i = (if bit r.w i then bit v i else bit (s.reg a.toNat) i && !(bit r.w1c i && bit v i))) ∧
    SameOutside [.regs, .qcp, .sent] s t ∧ RegsOutside [a.toNat] s t) ∧
  (∀ (p : Pkt) (x : Session) (a : Half) (v : Word) (s : State), MayWrite s p x a.toNat v → acts a.toNat = false → ∃ t,
    exec (.regWrite p a 0 v false) s = .next t ∧ t.replied done ∧ SameOutside [.qcp, .sent] s t) ∧
  (∀ (p : Pkt) (x : Session) (a : Half) (mask v : Word) (r : RegRow) (s : State), regRow a.toNat = some r →
    MayWrite s p x a.toNat (modified r (s.reg a.toNat) mask v) →
    a.toNat ∈ [PRP.SUP_CFG, PRP.DD_CFG, PRP.LAN_TIMEOUT, PRP.ALARM, NET.ALARM, NET.GOOSE_CFG, NET.BEACON_CFG] → ∃ t,
    exec (.regModify p a 0 mask v false) s = .next t ∧ t.replied (doneWith [(s.reg a.toNat).toNat, (t.reg a.toNat).toNat]) ∧
    (∀ i < 32, bit (t.reg a.toNat) i = (if bit r.w i then (if bit mask i then bit v i else bit (s.reg a.toNat) i)
      else bit (s.reg a.toNat) i && !(bit r.w1c i && bit mask i && bit v i))) ∧
    SameOutside [.regs, .qcp, .sent] s t ∧ RegsOutside [a.toNat] s t) ∧
  (∀ (p : Pkt) (x : Session) (a : Half) (v : Word) (s : State), Admits s p x → x.role < writeAuthority s a.toNat v → ∃ t,
    exec (.regWrite p a 0 v false) s = .next t ∧ t.replied (refusal .notAuthorized) ∧ Raises s t [(0x6045, p.session.toNat % 65536)] ∧
    SameOutside [.evr, .qcp, .sent] s t) ∧
  (∀ (p : Pkt) (x : Session) (a : Half) (v : Word) (s : State), Admits s p x → writeAuthority s a.toNat v ≤ x.role →
    writeParams s a.toNat v 4 = none → acts a.toNat = true → stopRefused s a.toNat v = true ∨ (sharedWrite a.toNat = true ∧ s.mayConfigure = false) → ∃ t,
    exec (.regWrite p a 0 v false) s = .next t ∧ t.replied (refusal .wrongState) ∧ t.regs = s.regs ∧ SameOutside [.qcp, .sent] s t) ∧
  (∀ (p : Pkt) (x : Session) (v n : Word) (s : State), Admits s p x → 2 ≤ x.role → s.windowHolder .netSt p.session = some n → s.mayConfigure = true →
    writeParams s NET.ST_SEL v 4 = none → ∃ t, exec (.regWrite p (BitVec.ofNat 16 NET.ST_SEL) 0 v false) s = .next t ∧
    t.replied (refusal .busy 0 n.toNat) ∧ SameOutside [.qcp, .sent] s t) ∧
  (∀ (p : Pkt) (x : Session) (s : State), Admits s p x → ∃ t, exec (.tbTimeSecHiRead p) s = .next t ∧
    t.replied (doneWith [secOf s.tb.now / 4294967296 % 4294967296]) ∧ t.reg TB.TIME_SEC_LO = secWord s.tb.now ∧ t.reg TB.TIME_NS = nsWord s.tb.now ∧
    t.reg TB.TIME_FRAC = BitVec.ofNat 32 (s.tb.quality.code * 1073741824 + fracOf s.tb.now) ∧ SameOutside [.regs, .qcp, .sent] s t ∧
    RegsOutside [TB.TIME_SEC_HI, TB.TIME_SEC_LO, TB.TIME_NS, TB.TIME_FRAC] s t)

/-- Reading records and points (R190, R191, R338, R339, R341, R349, R350): REC_LIST gives 40 summaries and the next number; REC_OPEN opens a file of a view that the
record holds, at most four to a session; REC_READ gives a chunk; REC_DELETE removes a closed record that nobody downloads; POINT_READ gives each
point's quality and value; POINT_FORCE waits for its application tick and refuses the 257th point. The files are the
COMTRADE files of the record (notes/assumptions/123.md); that an open record is refused with WRONG_STATE is the model's choice (notes/assumptions/69.md). -/
def Obligations.RecordsAndPoints : Prop :=
  (∀ (p : Pkt) (x : Session) (first : Word) (s : State), Admits s p x →
    (s.role = .init → ∃ t, exec (.recList p first) s = .next t ∧ t.replied (refusal .wrongState) ∧ SameOutside [.qcp, .sent] s t) ∧
    (s.role ≠ .init → (∀ r ∈ s.trg.records, r.number < first.toNat) → ∃ t, exec (.recList p first) s = .next t ∧ t.replied (doneWith [0, 0]) ∧
      SameOutside [.qcp, .sent] s t) ∧
    (s.role ≠ .init → ∀ r, s.trg.records = [r] → first.toNat ≤ r.number → ∃ t, exec (.recList p first) s = .next t ∧
      t.replied { status := .done, fields := [1, 0], payload := recordSummary r } ∧ SameOutside [.qcp, .sent] s t)) ∧
  (∀ (p : Pkt) (x : Session) (n : Word) (r : TrigRecord) (view file : Byte) (s : State), Admits s p x → s.role ≠ .init →
    recordOf s n.toNat = some r → view.toNat ≤ 4 → file.toNat ≤ 4 →
    (bit (r.words.getD 0 0) (29 - view.toNat) = false ∨ (view = 0 ∧ r.rawOmit = true) → ∃ t, exec (.recOpen p n view file 0) s = .next t ∧
      t.replied (refusal .badParameter 0 4) ∧ SameOutside [.qcp, .sent] s t) ∧
    (bit (r.words.getD 0 0) (29 - view.toNat) = true → view ≠ 0 ∨ r.rawOmit = false → r.isOpen = false → s.handleCount p.session false < 4 →
      ∃ (t : State) (h : Handle), exec (.recOpen p n view file 0) s = .next t ∧ t.qcp.handles = s.qcp.handles ++ [h] ∧ h.id = s.qcp.nextHandle ∧
      h.session = p.session ∧ h.kind = .record n.toNat view.toNat file.toNat ∧ h.size = (recordFile r view.toNat file.toNat).length ∧
      h.chunks = (h.size + 1343) / 1344 ∧ t.replied (doneWith [h.id, h.size, h.chunks]) ∧ SameOutside [.qcp, .sent] s t) ∧
    (holdsView r view.toNat = true → r.isOpen = false → 4 ≤ s.handleCount p.session false → ∃ t, exec (.recOpen p n view file 0) s = .next t ∧
      t.replied (refusal .busy) ∧ SameOutside [.qcp, .sent] s t) ∧
    (holdsView r view.toNat = true → r.isOpen = true → ∃ t, exec (.recOpen p n view file 0) s = .next t ∧
      t.replied (refusal .wrongState) ∧ SameOutside [.qcp, .sent] s t)) ∧
  (∀ (p : Pkt) (x : Session) (id i : Word) (h : Handle) (r : TrigRecord) (a b c : Nat) (s : State), Admits s p x → s.role ≠ .init →
    s.handle id.toNat p.session = some h → h.kind = .record a b c → recordOf s a = some r →
    (i.toNat < h.chunks → ∃ t, exec (.recRead p id i) s = .next t ∧
      t.replied { status := .done, payload := (((recordFile r b c).drop (1344 * i.toNat)).take
        (if i.toNat + 1 = h.chunks then h.size - 1344 * i.toNat else 1344)).map (·.toNat) } ∧ SameOutside [.qcp, .sent] s t) ∧
    (h.chunks ≤ i.toNat → ∃ t, exec (.recRead p id i) s = .next t ∧ t.replied (refusal .outOfSequence) ∧ SameOutside [.qcp, .sent] s t) ∧
    (∃ t, exec (.recClose p id) s = .next t ∧ t.replied done ∧ t.qcp.handles = s.qcp.handles.filter (fun y => y.id ≠ h.id) ∧
      SameOutside [.qcp, .sent] s t)) ∧
  (∀ (p : Pkt) (x : Session) (id i : Word) (s : State), Admits s p x → s.handle id.toNat p.session = none →
    (∃ t, exec (.recRead p id i) s = .next t ∧ t.replied (refusal .badParameter 0 0) ∧ SameOutside [.qcp, .sent] s t) ∧
    (∃ t, exec (.recClose p id) s = .next t ∧ t.replied (refusal .badParameter 0 0) ∧ SameOutside [.qcp, .sent] s t)) ∧
  (∀ (p : Pkt) (x : Session) (n : Word) (r : TrigRecord) (s : State), Admits s p x → 2 ≤ x.role → s.role ≠ .init → recordOf s n.toNat = some r →
    (r.isOpen = false → downloading s r.number = false → ∃ t, exec (.recDelete p n) s = .next t ∧ t.replied done ∧
      t.trg = { s.trg with records := s.trg.records.filter fun y => y.number ≠ n.toNat } ∧ SameOutside [.trg, .qcp, .sent] s t) ∧
    (r.isOpen = false → downloading s r.number = true → ∃ t, exec (.recDelete p n) s = .next t ∧ t.replied (refusal .busy) ∧
      SameOutside [.qcp, .sent] s t)) ∧
  (∀ (p : Pkt) (x : Session) (ref : Word) (s : State), Admits s p x → 1 ≤ pointType ref → pointType ref ≤ 7 → ∃ t,
    exec (.pointRead p [ref]) s = .next t ∧
    t.replied { status := .done, payload := [ref.toNat, pointQuality s ref, 0, (s.point ref).value.toNat * 2 ^ 64] } ∧ SameOutside [.qcp, .sent] s t) ∧
  (∀ (p : Pkt) (x : Session) (ref : Word) (s : State), Admits s p x → (pointType ref = 0 ∨ 0xB ≤ pointType ref) → ∃ t,
    exec (.pointRead p [ref]) s = .next t ∧ t.replied (refusal .badParameter 0 0) ∧ SameOutside [.qcp, .sent] s t) ∧
  (∀ (p : Pkt) (x : Session) (q v : Word) (s : State), Admits s p x → 2 ≤ x.role →
    ((s.binding q).isNone ∨ pointType q = 0 ∨ 7 < pointType q → ∃ t, exec (.pointForceSet p q v 0) s = .next t ∧
      t.replied (refusal .badParameter 0 0) ∧ SameOutside [.qcp, .sent] s t) ∧
    ((s.binding q).isSome → 1 ≤ pointType q → pointType q ≤ 7 →
      (s.mayConfigure = false → ∃ t, exec (.pointForceSet p q v 0) s = .next t ∧ t.replied (refusal .wrongState) ∧ SameOutside [.qcp, .sent] s t) ∧
      (s.mayConfigure = true → 256 ≤ (forcedPoints s).length → q.toNat ∉ forcedPoints s → ∃ t, exec (.pointForceSet p q v 0) s = .next t ∧
        t.replied (refusal .busy) ∧ SameOutside [.qcp, .sent] s t) ∧
      (s.mayConfigure = true → (forcedPoints s).length < 256 → ∃ (t : State) (a : Application), exec (.pointForceSet p q v 0) s = .next t ∧
        t.frame.applications.getLast? = some a ∧ t.frame = { s.frame with applications := s.frame.applications ++ [a] } ∧ a.effect = .force q v ∧ a.by_ = some (requesterOf p) ∧
        s.tb.now < a.tick ∧ SameOutside [.frame, .qcp, .sent] s t) ∧
      (s.mayConfigure = true → ∃ (t : State) (a : Application), exec (.pointRelease p q 0) s = .next t ∧
        t.frame.applications.getLast? = some a ∧ t.frame = { s.frame with applications := s.frame.applications ++ [a] } ∧ a.effect = .release q ∧ a.by_ = some (requesterOf p) ∧
        s.tb.now < a.tick ∧ SameOutside [.frame, .qcp, .sent] s t)) ∧
    (s.mayConfigure = true → ∃ (t : State) (a : Application), exec (.pointReleaseAll p 0) s = .next t ∧
      t.frame.applications.getLast? = some a ∧ t.frame = { s.frame with applications := s.frame.applications ++ [a] } ∧ a.effect = .releaseAll ∧ a.by_ = some (requesterOf p) ∧
      s.tb.now < a.tick ∧ SameOutside [.frame, .qcp, .sent] s t))

/-! ### Field inputs and outputs (chapters 11 and 12) -/

/-- Digital channels (R355 to R358, R360, R363 to R366, Tables DI-5 and DI-6): a raw edge opens or continues a run; the level that has stood for DEBOUNCE is
accepted with the run's first stamp and counted, one that returned is a glitch. A switching delay is measured, or 0xFFFF after 100 µs. Faults are recorded
with their events and clear with 0x500A; a group trip puts its outputs off until the retry, or until DIO.CLEAR after RETRY_LIMIT trips; a low supply
makes its outputs await their release, and shows in its events and counts. -/
def Obligations.DigitalChannels : Prop :=
  (∀ (c : Fin 32) (level : Bool) (e : Instant) (s : State), ∃ t, exec (.dioRawEdge c level e) s = .next t ∧ (t.dio c.val).raw = level ∧
    (t.dio c.val).level = (s.dio c.val).level ∧ (t.dio c.val).latch = (s.dio c.val).latch ∧
    ((s.dio c.val).run = none → level ≠ (s.dio c.val).level → (t.dio c.val).run = some (tdcTime s (8 + c.val) e, s.tb.up)) ∧
    ((s.dio c.val).run = none → level = (s.dio c.val).level → (t.dio c.val).run = none) ∧
    (∀ a b, (s.dio c.val).run = some (a, b) → (t.dio c.val).run = some (a, s.tb.up)) ∧ (∀ k, k ≠ c.val → t.dio k = s.dio k) ∧
    SameOutside [.regs, .trg, .io, .evr] s t) ∧
  (∀ (c : Fin 32) (e : Instant) (t0 : Nat) (s : State), (s.dio c.val).measuring = some (true, t0, s.tb.up) → tdcEnabled s (8 + c.val) = false →
    t0 ≤ tdcTime s (8 + c.val) e → tdcTime s (8 + c.val) e - t0 ≤ 100000 * nsUnits → ∃ t, exec (.dioRawEdge c true e) s = .next t ∧
    t.regFld (DIO.CH_TIMING c.val) 31 16 = (tdcTime s (8 + c.val) e - t0) / (10 * nsUnits) ∧ (t.dio c.val).measuring = none ∧
    SameOutside [.regs, .io] s t ∧ RegsOutside [DIO.CH_TIMING c.val] s t) ∧
  (∀ (c : Fin 32) (v : Bool) (t0 up0 : Nat) (s : State), (s.dio c.val).measuring = some (v, t0, up0) → ∃ t, exec (.readbackDelayTimeout c) s = .next t ∧
    up0 + 100000 * nsUnits ≤ t.tb.up ∧ t.dio c.val = { s.dio c.val with measuring := none } ∧ (∀ k, k ≠ c.val → t.dio k = s.dio k) ∧
    (if v then t.regFld (DIO.CH_TIMING c.val) 31 16 = 0xFFFF else t.regFld (DIO.CH_TIMING c.val) 15 0 = 0xFFFF) ∧
    SameOutside [.regs, .tb, .io, .clock] s t ∧ RegsOutside [DIO.CH_TIMING c.val] s t) ∧
  (∀ (c : Fin 32) (a b : Nat) (s : State), (s.dio c.val).run = some (a, b) → (s.dio c.val).raw ≠ (s.dio c.val).level →
    (s.dioGroup (c.val / 8)).low = false → ∃ t, exec (.debounceAccept c) s = .next t ∧
    b + (s.regFld (DIO.CH_CFG c.val) 15 0 * 1000 + 60) * nsUnits ≤ t.tb.up ∧
    t.dio c.val = { s.dio c.val with level := (s.dio c.val).raw, stamp := a, run := none } ∧ (∀ k, k ≠ c.val → t.dio k = s.dio k) ∧
    t.io.transitions = s.io.transitions ++ (if s.dioBit c.val 31 then [(c.val, (s.dio c.val).raw, a)] else []) ∧
    (s.dioBit c.val 31 = false ∨ (∀ j < 8, patternRuns s j = false) →
      t.regFld (DIO.CH_COUNT c.val) 31 16 = (s.regFld (DIO.CH_COUNT c.val) 31 16 + 1) % 65536 ∧
      t.reg DIO.COS_COUNT = (if s.dioBit c.val 31 && s.dioBit c.val (if (s.dio c.val).raw then 24 else 25) then s.reg DIO.COS_COUNT + 1
        else s.reg DIO.COS_COUNT) ∧ RegsOutside [DIO.CH_COUNT c.val, DIO.COS_COUNT] s t) ∧
    SameOutside [.regs, .tb, .trg, .io, .evr, .sent, .clock] s t) ∧
  (∀ (c : Fin 32) (s : State), (s.dio c.val).run.isSome → (s.dio c.val).raw ≠ (s.dio c.val).level → (s.dioGroup (c.val / 8)).low = true →
    exec (.debounceAccept c) s = .next s) ∧
  (∀ (c : Fin 32) (a b : Nat) (s : State), (s.dio c.val).run = some (a, b) → (s.dio c.val).raw = (s.dio c.val).level → ∃ t,
    exec (.debounceDiscard c) s = .next t ∧ b + s.regFld (DIO.CH_CFG c.val) 15 0 * 1000 * nsUnits ≤ t.tb.up ∧
    t.dio c.val = { s.dio c.val with run := none } ∧ t.reg DIO.GLITCH_COUNT = s.reg DIO.GLITCH_COUNT + 1 ∧
    SameOutside [.regs, .tb, .io, .clock] s t ∧ RegsOutside [DIO.GLITCH_COUNT] s t) ∧
  (∀ (c : Fin 32) (s : State), s.isOut c.val = true →
    (s.dioDriving c.val = true → (s.dio c.val).latch = true → (s.dio c.val).overload = false → ∃ t, exec (.overloadDetect c) s = .next t ∧ t.dio c.val = { s.dio c.val with overload := true } ∧
      t.regBit DIO.FAULT c.val = true ∧ t.reg DIO.LAST_FAULT = BitVec.ofNat 32 (0x05 * 16777216 + c.val) ∧ Raises s t [(0x5005, c.val)] ∧
      SameOutside [.regs, .io, .evr] s t ∧ RegsOutside [DIO.FAULT, DIO.LAST_FAULT, DIO.LAST_FAULT_SEC, DIO.CH_COUNT c.val] s t) ∧
    (∃ t, exec (.thermalShutdown c) s = .next t ∧ t.dio c.val = { s.dio c.val with thermal := true, hot := true } ∧
      t.regBit DIO.FAULT c.val = true ∧ t.reg DIO.LAST_FAULT = BitVec.ofNat 32 (0x06 * 16777216 + c.val) ∧ Raises s t [(0x5006, c.val)] ∧
      SameOutside [.regs, .io, .evr] s t ∧ RegsOutside [DIO.FAULT, DIO.LAST_FAULT, DIO.LAST_FAULT_SEC, DIO.CH_COUNT c.val] s t) ∧
    (s.dioBit c.val 26 = true → s.dioDriving c.val = true → (s.dio c.val).latch = true → (s.dio c.val).openLoad = false → ∃ t,
      exec (.openLoadDetect c) s = .next t ∧ t.dio c.val = { s.dio c.val with openLoad := true } ∧ t.regBit DIO.FAULT c.val = true ∧
      Raises s t [(0x5007, c.val)] ∧ SameOutside [.regs, .io, .evr] s t ∧
      RegsOutside [DIO.FAULT, DIO.LAST_FAULT, DIO.LAST_FAULT_SEC, DIO.CH_COUNT c.val] s t)) ∧
  (∀ (c : Fin 32) (s : State), (s.dio c.val).hot = true → (s.dio c.val).latch = true → ∃ t, exec (.thermalRestart c) s = .next t ∧
    t.dio c.val = { s.dio c.val with hot := false, restartAt := s.tb.up } ∧ SameOutside [.io] s t) ∧
  (∀ (c : Fin 32) (s : State), (s.dio c.val).overload = true → ∃ t, exec (.dioFaultClear c .overload) s = .next t ∧
    t.dio c.val = { s.dio c.val with overload := false } ∧ Raises s t [(0x500A, c.val)] ∧ SameOutside [.io, .evr] s t) ∧
  (∀ (c : Fin 32) (s : State), (s.dio c.val).thermal = true → (s.dio c.val).hot = true → exec (.dioFaultClear c .thermal) s = .next s) ∧
  (∀ (c : Fin 32) (s : State), (s.dio c.val).thermal = true → (s.dio c.val).hot = false → ∃ t, exec (.dioFaultClear c .thermal) s = .next t ∧
    t.dio c.val = { s.dio c.val with thermal := false } ∧ (s.dio c.val).restartAt + secUnits ≤ t.tb.up ∧ Raises s t [(0x500A, c.val)] ∧
    SameOutside [.tb, .io, .evr, .clock] s t) ∧
  (∀ (c : Fin 32) (s : State), (s.dio c.val).openLoad = true → ∃ t, exec (.dioFaultClear c .openLoad) s = .next t ∧
    t.dio c.val = { s.dio c.val with openLoad := false } ∧ Raises s t [(0x500A, c.val)] ∧ SameOutside [.io, .evr] s t) ∧
  (∀ (g : Fin 4) (ma : Half) (s : State), ma.toNat ≤ 2200 → exec (.groupOverTrip g ma) s = .next s) ∧
  (∀ (g : Fin 4) (ma : Half) (n : Nat) (s : State), 2200 < ma.toNat → (s.dioGroup g.val).tripped = none → (s.dioGroup g.val).latchedOff = false →
    n = (s.dioGroup g.val).trips.countP (fun u => s.tb.up < u + 60 * secUnits) + 1 → ∃ t, exec (.groupOverTrip g ma) s = .next t ∧
    (t.dioGroup g.val).tripped = some s.tb.up ∧ (t.dioGroup g.val).latchedOff = decide (s.regFld (DIO.GRP_CFG g.val) 3 0 ≤ n) ∧
    (∀ c < 32, c / 8 = g.val → s.isOut c = true → (t.dio c).unreleased = true ∧ t.regBit DIO.FAULT c = true) ∧
    (∀ c < 32, c / 8 ≠ g.val → t.dio c = s.dio c) ∧ t.regFld (DIO.GRP_SUPPLY g.val) 15 0 = ma.toNat ∧ t.regBit DIO.ALARM (8 + g.val) = true ∧
    Raises s t ((0x5008, g.val) :: if s.regFld (DIO.GRP_CFG g.val) 3 0 ≤ n then [(0x5009, g.val)] else []) ∧
    SameOutside [.regs, .io, .evr] s t) ∧
  (∀ (g : Fin 4) (u : Nat) (s : State), (s.dioGroup g.val).tripped = some u → (s.dioGroup g.val).latchedOff = false → ∃ t,
    exec (.groupOverRetry g) s = .next t ∧ u + s.regFld (DIO.GRP_CFG g.val) 31 16 * 1000000 * nsUnits ≤ t.tb.up ∧
    t.dioGroup g.val = { s.dioGroup g.val with tripped := none } ∧ Raises s t [(0x500A, g.val)] ∧ SameOutside [.tb, .io, .evr, .clock] s t) ∧
  (∀ (p : Pkt) (g : Fin 4) (x : Session) (s : State), MayWrite s p x DIO.CLEAR (BitVec.ofNat 32 (2 ^ g.val)) →
    (s.dioGroup g.val).latchedOff = true → ∃ t, exec (.dioClearGroup p (BitVec.ofNat 32 (2 ^ g.val))) s = .next t ∧ t.replied done ∧
    t.dioGroup g.val = { s.dioGroup g.val with latchedOff := false, tripped := none, trips := [] } ∧
    (∀ k, k ≠ g.val → t.dioGroup k = s.dioGroup k) ∧ Raises s t [(0x500A, g.val)] ∧ SameOutside [.io, .evr, .qcp, .sent] s t) ∧
  (∀ (g : Fin 4) (mv : Half) (s : State),
    ((s.dioGroup g.val).warn = false → mv.toNat < 19200 → ∃ t, exec (.supplyWarn g mv) s = .next t ∧ (t.dioGroup g.val).warn = true ∧
      t.regFld (DIO.GRP_SUPPLY g.val) 31 16 = mv.toNat ∧ t.regBit DIO.ALARM (4 + g.val) = true ∧ Raises s t [(0x5001, g.val)] ∧
      SameOutside [.regs, .io, .evr] s t ∧ RegsOutside [DIO.GRP_SUPPLY g.val, DIO.ALARM] s t) ∧
    (19200 ≤ mv.toNat → mv.toNat ≤ 33000 → ∃ t, exec (.supplyWarnClear g mv) s = .next t ∧
      t.dioGroup g.val = { s.dioGroup g.val with warn := false, high := false } ∧ SameOutside [.regs, .io] s t ∧
      RegsOutside [DIO.GRP_SUPPLY g.val] s t) ∧
    ((s.dioGroup g.val).low = false → mv.toNat < 15000 → ∃ t, exec (.supplyLow g mv) s = .next t ∧
      t.dioGroup g.val = { s.dioGroup g.val with low := true } ∧ (∀ c < 32, c / 8 = g.val → s.isOut c = true → (t.dio c).unreleased = true) ∧
      (∀ c < 32, (t.dio c).latch = (s.dio c).latch ∧ (t.dio c).level = (s.dio c).level) ∧ t.regBit DIO.ALARM g.val = true ∧
      Raises s t [(0x5002, g.val)] ∧ SameOutside [.regs, .io, .evr] s t) ∧
    ((s.dioGroup g.val).low = true → 18000 < mv.toNat → ∃ t, exec (.supplyRecovered g mv) s = .next t ∧
      t.dioGroup g.val = { s.dioGroup g.val with low := false } ∧ Raises s t [(0x5003, g.val)] ∧ SameOutside [.regs, .io, .evr] s t ∧
      RegsOutside [DIO.GRP_SUPPLY g.val] s t))

/-- Current loops (R377, R380 to R384, R394, Tables AO-4 and AO-6): a write reaches the converter 400 ns later, through the low-pass where HART is on; a
channel more than 0.1% of span short of its value, with the supply at its end, is short of compliance and drives what it can, or FAIL_LO and a try every
second, which ends after 100 µs unless it comes within 0.1%; it clears within 0.05% for 10 ms with 0x5806. Miswiring, thermal foldback above 150 °C, a
current 0.5% from its value and a supply 1.0 V from its target are reported with their events and change nothing but what the channel drives; each clears
after 1 s within its limits, and a measurement within the limits changes nothing. The filter's kind is left open (notes/assumptions/126.md). -/
def Obligations.CurrentLoops : Prop :=
  (∀ (n : Fin 8) (u : Nat) (v : Word) (rest : List (Nat × Word)) (s : State), (s.ao n.val).writes = (u, v) :: rest → ∃ t,
    exec (.aoConverterUpdate n) s = .next t ∧ u + 400 * nsUnits ≤ t.tb.up ∧
    (aoFiltered s n.val = false → t.ao n.val = { s.ao n.val with converter := v, passed := v, slope := 0, passedAt := t.tb.up, writes := rest }) ∧
    (aoFiltered s n.val = true → t.ao n.val =
      { s.ao n.val with
        converter := v, passedAt := t.tb.up, writes := rest
        passed := Config.hartLowPass (s.ao n.val).passed (s.ao n.val).slope (s.ao n.val).converter (t.tb.up - (s.ao n.val).passedAt) 0
        slope := Config.hartLowPass (s.ao n.val).passed (s.ao n.val).slope (s.ao n.val).converter (t.tb.up - (s.ao n.val).passedAt) 1 }) ∧
    (∀ k, k ≠ n.val → t.ao k = s.ao k) ∧ SameOutside [.tb, .io, .clock] s t) ∧
  (∀ (n : Fin 8) (m : LoopMeasure) (s : State), aoShort s n.val m = true → (s.ao n.val).compliance = false → ∃ t,
    exec (.complianceDetect n m) s = .next t ∧ (t.ao n.val).compliance = true ∧ (t.ao n.val).triedAt = s.tb.up ∧
    ((aoWanted s n.val).2 = (s.ao n.val).target → (t.ao n.val).trying = none) ∧
    (t.ao n.val).cmd = (s.ao n.val).cmd ∧ t.regBit AO.ALARM 1 = true ∧
    t.reg AO.LAST_FAULT = BitVec.ofNat 32 (0x02 * 16777216 + n.val) ∧ Raises s t [(0x5802, n.val)] ∧ (∀ k, k ≠ n.val → t.ao k = s.ao k) ∧
    ((t.ao n.val).writes = (s.ao n.val).writes ∨ (t.ao n.val).writes = (s.ao n.val).writes ++ [(s.tb.up, (aoDriven t n.val).2)]) ∧
    SameOutside [.regs, .io, .evr] s t ∧ RegsOutside [AO.ALARM, AO.LAST_FAULT, AO.LAST_FAULT_SEC, AO.COUNT n.val] s t) ∧
  (∀ (n : Fin 8) (m : LoopMeasure) (s : State), aoShort s n.val m = true → (s.ao n.val).compliance = true → (s.ao n.val).reached = true → ∃ t,
    exec (.complianceDetect n m) s = .next t ∧ (t.ao n.val).compliance = true ∧ (t.ao n.val).triedAt = s.tb.up ∧
    ((aoWanted s n.val).2 = (s.ao n.val).target → (t.ao n.val).trying = none) ∧
    (∀ k, k ≠ n.val → t.ao k = s.ao k) ∧ SameOutside [.io] s t) ∧
  (∀ (n : Fin 8) (m : LoopMeasure) (s : State), aoShort s n.val m = false ∨ ((s.ao n.val).compliance = true ∧ (s.ao n.val).reached = false) →
    exec (.complianceDetect n m) s = .next s) ∧
  (∀ (n : Fin 8) (s : State), (s.ao n.val).compliance = true → s.regBit (AO.CH_CFG n.val) 26 = true → (s.ao n.val).trying = none → ∃ t,
    exec (.complianceRetry n) s = .next t ∧ (s.ao n.val).triedAt + secUnits ≤ t.tb.up ∧ (t.ao n.val).trying = some t.tb.up ∧
    (t.ao n.val).reached = false ∧ (t.ao n.val).compliance = true ∧ (∀ k, k ≠ n.val → t.ao k = s.ao k) ∧ SameOutside [.tb, .io, .clock] s t) ∧
  (∀ (n : Fin 8) (current : Word) (u : Nat) (s : State), (s.ao n.val).trying = some u → (s.ao n.val).reached = false → ∃ t,
    exec (.complianceRetryEnd n current) s = .next t ∧ u + 100000 * nsUnits ≤ t.tb.up ∧ (t.ao n.val).compliance = (s.ao n.val).compliance ∧
    (aoNear s n.val current (aoSought s n.val) 100 = true → t.ao n.val = { s.ao n.val with reached := true }) ∧
    (aoNear s n.val current (aoSought s n.val) 100 = false → (aoWanted s n.val).2 = (s.ao n.val).target → (t.ao n.val).trying = none) ∧
    (∀ k, k ≠ n.val → t.ao k = s.ao k) ∧ SameOutside [.tb, .io, .clock] s t) ∧
  (∀ (n : Fin 8) (current : Word) (s : State), (s.ao n.val).compliance = true →
    (s.regBit (AO.CH_CFG n.val) 26 = false ∨ (s.ao n.val).trying.isSome) → aoNear s n.val current (aoSought s n.val) 50 = true → ∃ t,
    exec (.complianceClear n current) s = .next t ∧ (s.ao n.val).triedAt + 10000000 * nsUnits ≤ t.tb.up ∧ (t.ao n.val).compliance = false ∧
    (t.ao n.val).trying = none ∧ Raises s t [(0x5806, n.val)] ∧ (∀ k, k ≠ n.val → t.ao k = s.ao k) ∧ SameOutside [.tb, .io, .evr, .clock] s t) ∧
  (∀ (n : Fin 8) (current : Word) (s : State), (s.ao n.val).compliance = false ∨ aoNear s n.val current (aoSought s n.val) 50 = false →
    exec (.complianceClear n current) s = .next s) ∧
  (∀ (n : Fin 8) (m : LoopMeasure) (s : State), aoMiswired s n.val m = true → (s.ao n.val).miswire = false → ∃ t,
    exec (.miswireDetect n m) s = .next t ∧ (t.ao n.val).miswire = true ∧ (t.ao n.val).miswireAt = s.tb.up ∧
    t.regBit AO.ALARM 0 = true ∧ t.reg AO.LAST_FAULT = BitVec.ofNat 32 (0x01 * 16777216 + n.val) ∧ Raises s t [(0x5801, n.val)] ∧
    (∀ k, k ≠ n.val → t.ao k = s.ao k) ∧ SameOutside [.regs, .io, .evr] s t ∧
    RegsOutside [AO.ALARM, AO.LAST_FAULT, AO.LAST_FAULT_SEC, AO.COUNT n.val] s t) ∧
  (∀ (n : Fin 8) (m : LoopMeasure) (s : State), aoMiswired s n.val m = false →
    exec (.miswireDetect n m) s = .next s ∧
    ((s.ao n.val).miswire = false → exec (.miswireClear n m) s = .next s) ∧
    ((s.ao n.val).miswire = true → ∃ t, exec (.miswireClear n m) s = .next t ∧ (t.ao n.val).miswire = false ∧
      (s.ao n.val).miswireAt + secUnits ≤ t.tb.up ∧ Raises s t [(0x5806, n.val)] ∧ (∀ k, k ≠ n.val → t.ao k = s.ao k) ∧
      SameOutside [.tb, .io, .evr, .clock] s t)) ∧
  (∀ (n : Fin 8) (temp : Half) (current : Word) (s : State),
    (1500 < temp.toInt → lt32 current (aoSought s n.val) = true → (s.ao n.val).thermal = false →
      ∃ t, exec (.aoThermalFoldback n temp current) s = .next t ∧
      t.ao n.val = { s.ao n.val with foldback := true, thermal := true, coolSince := s.tb.up } ∧
      t.regBit AO.ALARM 2 = true ∧ Raises s t [(0x5803, n.val)] ∧ SameOutside [.regs, .io, .evr] s t ∧
      RegsOutside [AO.ALARM, AO.LAST_FAULT, AO.LAST_FAULT_SEC, AO.COUNT n.val] s t) ∧
    (1500 < temp.toInt → lt32 current (aoSought s n.val) = false →
      ∃ t, exec (.aoThermalFoldback n temp current) s = .next t ∧ t.ao n.val = { s.ao n.val with foldback := true, coolSince := s.tb.up } ∧
      SameOutside [.io] s t) ∧
    (temp.toInt ≤ 1500 → ∃ t, exec (.aoThermalFoldback n temp current) s = .next t ∧
      t.ao n.val = { s.ao n.val with foldback := false, coolSince := if (s.ao n.val).foldback then s.tb.up else (s.ao n.val).coolSince } ∧
      SameOutside [.io] s t)) ∧
  (∀ (n : Fin 8) (current : Word) (s : State), (s.ao n.val).senseFault = false → (s.ao n.val).compliance = false → (s.ao n.val).thermal = false →
    (s.ao n.val).miswire = false →
    (aoNear s n.val current (aoValue s n.val).2 500 = false → ∃ t, exec (.senseFault n current) s = .next t ∧
      t.ao n.val = { s.ao n.val with senseFault := true, senseAt := s.tb.up } ∧ t.regBit AO.ALARM 3 = true ∧ Raises s t [(0x5805, n.val)] ∧
      SameOutside [.regs, .io, .evr] s t ∧ RegsOutside [AO.ALARM, AO.LAST_FAULT, AO.LAST_FAULT_SEC, AO.COUNT n.val] s t) ∧
    (aoNear s n.val current (aoValue s n.val).2 500 = true → exec (.senseFault n current) s = .next s)) ∧
  (∀ (n : Fin 8) (m : LoopMeasure) (s : State), (s.ao n.val).supplyFault = false →
    (1000 < aoSupplyError s n.val m → ∃ t, exec (.supplyFault n m) s = .next t ∧
      t.ao n.val = { s.ao n.val with supplyFault := true, supplyAt := s.tb.up } ∧ t.regBit AO.ALARM 3 = true ∧ Raises s t [(0x5805, n.val)] ∧
      SameOutside [.regs, .io, .evr] s t ∧ RegsOutside [AO.ALARM, AO.LAST_FAULT, AO.LAST_FAULT_SEC, AO.COUNT n.val] s t) ∧
    (aoSupplyError s n.val m ≤ 1000 → exec (.supplyFault n m) s = .next s)) ∧
  (∀ (n : Fin 8) (m : LoopMeasure) (s : State),
    ((s.ao n.val).thermal = true → (s.ao n.val).foldback = false → ∃ t, exec (.channelFaultCleared n .thermal m) s = .next t ∧
      (s.ao n.val).coolSince + secUnits ≤ t.tb.up ∧ t.ao n.val = { s.ao n.val with thermal := false } ∧ Raises s t [(0x5806, n.val)] ∧
      SameOutside [.tb, .io, .evr, .clock] s t) ∧
    ((s.ao n.val).thermal = true → (s.ao n.val).foldback = true → exec (.channelFaultCleared n .thermal m) s = .next s) ∧
    ((s.ao n.val).senseFault = true → aoNear s n.val m.current (aoValue s n.val).2 100 = true → ∃ t,
      exec (.channelFaultCleared n .sense m) s = .next t ∧ (s.ao n.val).senseAt + secUnits ≤ t.tb.up ∧
      t.ao n.val = { s.ao n.val with senseFault := false } ∧ Raises s t [(0x5806, n.val)] ∧ SameOutside [.tb, .io, .evr, .clock] s t) ∧
    ((s.ao n.val).supplyFault = true → aoSupplyError s n.val m ≤ 500 → ∃ t, exec (.channelFaultCleared n .supply m) s = .next t ∧
      (s.ao n.val).supplyAt + secUnits ≤ t.tb.up ∧ t.ao n.val = { s.ao n.val with supplyFault := false } ∧ Raises s t [(0x5806, n.val)] ∧
      SameOutside [.tb, .io, .evr, .clock] s t))

/-- HART (R388 to R395): the holder of the grant has at most one transaction in progress on a channel; a scan falls due every SCAN_INT and identifies the
device first; a response is decoded, counted and enters the receipt list, and more status available asks for command 48; a failed transaction
makes the channel comm lost, event 0x5902 on the change; burst frames and the other module's transactions are decoded as well; WIN_GO queues the window's
transaction unless one is queued or in progress, first asking a device whose identity is not known for it; its response replaces the request, and its
failure shows state 4. The layout of the request bytes is that of the HART standard (notes/assumptions/127.md). -/
def Obligations.HartTransactions : Prop :=
  (∀ (n : Fin 8) (s : State), s.regBit (HART.CH_CFG n.val) 31 = true → s.regBit (HART.CH_CFG n.val) 28 = true → s.pair.grant = true →
    (s.hart n.val).job = none → (s.hart n.val).queue = [] → (s.hart n.val).identified = false → ∃ t, exec (.hartScanPoll n) s = .next t ∧
    (s.hart n.val).polledAt + s.regFld (HART.CH_CFG n.val) 15 0 * 1000000 * nsUnits ≤ t.tb.up ∧
    t.hart n.val = { s.hart n.val with polledAt := t.tb.up, job := some (.scan 0) } ∧
    t.sent = Sent.mk .hartRequest [n.val, 0, s.regFld (HART.CH_CFG n.val) 21 16]
      (hartBytes s n.val 0 (s.regFld (HART.CH_CFG n.val) 21 16) []) :: s.sent ∧
    (∀ k, k ≠ n.val → t.hart k = s.hart k) ∧ SameOutside [.tb, .io, .sent, .clock] s t) ∧
  (∀ (n : Fin 8) (s : State), s.regBit (HART.CH_CFG n.val) 31 = true → s.regBit (HART.CH_CFG n.val) 28 = true → s.pair.grant = false →
    (s.hart n.val).job = none → (s.hart n.val).queue = [] → (s.hart n.val).identified = true → ∃ t, exec (.hartScanPoll n) s = .next t ∧
    t.hart n.val = { s.hart n.val with polledAt := t.tb.up, queue := [.scan 3] } ∧ SameOutside [.tb, .io, .clock] s t) ∧
  (∀ (n : Fin 8) (f : HartFrame) (s : State), (s.hart n.val).job = some (.scan 3) → (s.hart n.val).queue = [] → (s.hart n.val).state = 2 →
    (s.hart n.val).identified = true → s.regBit (HART.CH_CFG n.val) 28 = true → f.address.toNat = s.regFld (HART.CH_CFG n.val) 21 16 →
    f.command = 3 → f.burst = false → f.status = 0 → ∃ t, exec (.hartTransactionComplete n f) s = .next t ∧
    (t.hart n.val).job = none ∧ (t.hart n.val).state = 2 ∧ (t.hart n.val).good = true ∧ (t.hart n.val).lastCode = f.code ∧
    t.regFld (HART.CH_COUNT n.val) 31 16 = min 65535 (s.regFld (HART.CH_COUNT n.val) 31 16 + 1) ∧
    t.reg (HART.CH_LAST_SEC n.val) = secWord s.tb.now ∧
    (∃ r ∈ t.net.receipts, r.entry.station = 0 ∧ r.entry.stream = 64 + n.val) ∧ (∀ k, k ≠ n.val → t.hart k = s.hart k) ∧ Raises s t [] ∧
    SameOutside [.regs, .io, .net, .evr] s t ∧ RegsOutside [HART.CH_COUNT n.val, HART.CH_LAST_SEC n.val] s t) ∧
  (∀ (n : Fin 8) (f : HartFrame) (s : State), (s.hart n.val).job = some (.scan 3) → (s.hart n.val).queue = [] → f.status.getLsbD 4 = true →
    s.pair.grant = true → ∃ t, exec (.hartTransactionComplete n f) s = .next t ∧ (t.hart n.val).job = some (.scan 48) ∧
    t.sent = Sent.mk .hartRequest [n.val, 48, s.regFld (HART.CH_CFG n.val) 21 16]
      (hartBytes t n.val 48 (s.regFld (HART.CH_CFG n.val) 21 16) []) :: s.sent ∧ SameOutside [.regs, .io, .net, .evr, .sent] s t) ∧
  (∀ (n : Fin 8) (f : HartFrame) (s : State), (s.hart n.val).job = some .window → (s.hart n.val).queue = [] → f.status = 0 → ∃ t,
    exec (.hartTransactionComplete n f) s = .next t ∧ (t.hart n.val).job = none ∧ t.reg HART.WIN_RESULT =
      BitVec.ofNat 32 ((if 32 < f.data.length then 6 else 3) * 268435456 + f.code.toNat * 65536 + min 32 f.data.length) ∧
    (∀ w < 8, t.reg (HART.WIN_DATA w) = BitVec.ofNat 32 (beNat (((f.data ++ List.replicate 32 0).drop (4 * w)).take 4))) ∧
    SameOutside [.regs, .io, .net, .evr] s t) ∧
  (∀ (n : Fin 8) (f : HartFrame) (s : State), (s.hart n.val).job = some .ask → (s.hart n.val).queue = [] → f.status = 0 → ∃ t,
    exec (.hartTransactionComplete n f) s = .next t ∧ (t.hart n.val).job = some .window ∧ t.regFld HART.WIN_RESULT 31 28 = 2 ∧
    (f.command = 0 → t.reg (HART.CH_DEV_ID n.val) = f.deviceId.zeroExtend 32) ∧
    t.sent = Sent.mk .hartRequest [n.val, s.regFld HART.WIN_CMD 31 16, s.regFld HART.WIN_SEL 5 0]
      (hartBytes t n.val (s.regFld HART.WIN_CMD 31 16) (s.regFld HART.WIN_SEL 5 0) (hartWindowData s)) :: s.sent ∧
    SameOutside [.regs, .io, .net, .evr, .sent] s t) ∧
  (∀ (n : Fin 8) (j : HartJob) (s : State), (s.hart n.val).job = some j → j = .window ∨ j = .ask → (s.hart n.val).queue = [] → ∃ t,
    exec (.hartTransactionFailed n) s = .next t ∧ (t.hart n.val).job = none ∧ (t.hart n.val).state = 3 ∧ t.regFld HART.WIN_RESULT 31 28 = 4 ∧
    Raises s t (if (s.hart n.val).state = 3 then [] else [(0x5902, n.val)]) ∧ SameOutside [.regs, .io, .net, .evr] s t) ∧
  (∀ (n : Fin 8) (c : Nat) (s : State), (s.hart n.val).job = some (.scan c) → (s.hart n.val).queue = [] → (s.hart n.val).state ≠ 3 → ∃ t,
    exec (.hartTransactionFailed n) s = .next t ∧ (t.hart n.val).job = none ∧ (t.hart n.val).state = 3 ∧ (t.hart n.val).good = false ∧
    t.regBit HART.ALARM 0 = true ∧ Raises s t [(0x5902, n.val)] ∧
    (∃ r ∈ t.net.receipts, r.entry.station = 0 ∧ r.entry.stream = 64 + n.val) ∧ SameOutside [.regs, .io, .net, .evr] s t ∧
    RegsOutside [HART.CH_COUNT n.val, HART.ALARM] s t) ∧
  (∀ (n : Fin 8) (f : HartFrame) (s : State), s.regBit (HART.CH_CFG n.val) 31 = true → f.status = 0 →
    s.regBit (HART.CH_CFG n.val) 28 = false ∨ f.address.toNat = s.regFld (HART.CH_CFG n.val) 21 16 →
    (f.burst = true → s.regBit (HART.CH_CFG n.val) 29 = true → (f.command = 1 ∨ f.command = 2 ∨ f.command = 3 ∨ f.command = 9) → ∃ t,
      exec (.hartFrameReceived n f) s = .next t ∧ (t.hart n.val).state = 4 ∧ (t.hart n.val).good = true ∧ (t.hart n.val).job = (s.hart n.val).job ∧
      t.reg (HART.CH_LAST_SEC n.val) = secWord s.tb.now ∧ SameOutside [.regs, .io, .net, .evr] s t) ∧
    (f.burst = false → (s.hart n.val).job.isSome → exec (.hartFrameReceived n f) s = .next s)) ∧
  (∀ (p : Pkt) (x : Session) (s : State), MayWrite s p x HART.WIN_GO 1 →
    (s.regFld HART.WIN_RESULT 31 28 = 1 ∨ s.regFld HART.WIN_RESULT 31 28 = 2 → ∃ t, exec (.hartWinGo p 1) s = .next t ∧
      t.replied (refusal .busy) ∧ SameOutside [.qcp, .sent] s t) ∧
    (s.regFld HART.WIN_RESULT 31 28 = 0 → s.regFld HART.WIN_CMD 7 0 ≤ 32 → s.regFld HART.WIN_SEL 5 0 ≤ 63 →
      s.regBit (HART.CH_CFG (s.regFld HART.WIN_SEL 18 16)) 31 = true → s.pair.grant = true → (s.hart (s.regFld HART.WIN_SEL 18 16)).job = none →
      ∃ t, exec (.hartWinGo p 1) s = .next t ∧ t.replied done ∧ (t.hart (s.regFld HART.WIN_SEL 18 16)).job =
        some (if s.regFld HART.WIN_CMD 31 16 = 0 ∨ hartKnown s (s.regFld HART.WIN_SEL 18 16) then .window else .ask) ∧
      t.regFld HART.WIN_RESULT 31 28 = 2 ∧ (∀ c ∈ t.qcp.claims, c.1 ≠ WindowId.hart) ∧ SameOutside [.regs, .io, .qcp, .sent] s t ∧
      RegsOutside [HART.WIN_RESULT] s t))

/-! ### CAN FD (chapter 13) -/

/-- CAN frames and errors (R402, R403, R408 to R411, R413, R414): a received frame goes into the lowest-numbered buffer that matches, or is counted as
unmatched; one stored over an unread frame is an overrun; the pending frame that wins the arbitration is sent, stamped and no longer pending, but not by a
module outside the bus, which drops a pending frame that it receives; the error state that the counters stand for raises its events and is frozen outside the bus; recovery from bus-off starts at once or by BO_RECOVER;
TX_CMD queues or aborts a frame and is refused on a buffer that the image owns, with the conflict recorded. A send while the buffer is pending, BUSY, and the counters' limits are
the model's choices (notes/assumptions/63.md, 129.md). -/
def Obligations.CanFrames : Prop :=
  (∀ (ch : Fin 2) (f : CanFrame) (e : Instant) (b : Nat) (s : State), s.regBit (CAN.CTRL ch.val) 31 = true → (s.can ch.val).part = true →
    (List.range 64).find? (canMatch s ch.val f) = some b → (s.can ch.val).locked = none → (s.canBuf ch.val b).isNew = false → ∃ t,
    exec (.canFrameReceived ch f e) s = .next t ∧ t.reg (CAN.RX_COUNT ch.val) = s.reg (CAN.RX_COUNT ch.val) + 1 ∧
    (t.canBuf ch.val b).isNew = true ∧ (t.canBuf ch.val b).frame = f ∧ (t.canBuf ch.val b).sec = secWord (canStamp s ch.val e) ∧
    (t.canBuf ch.val b).newest = some f ∧ (t.canBuf ch.val b).count = ((s.canBuf ch.val b).count + 1) % 256 ∧
    (t.canBuf ch.val b).pending = (s.canBuf ch.val b).pending ∧ (∀ k, k ≠ b → t.canBuf ch.val k = s.canBuf ch.val k) ∧
    t.can (1 - ch.val) = s.can (1 - ch.val) ∧ t.evr = s.evr ∧ SameOutside [.regs, .can0, .can1] s t ∧
    RegsOutside [CAN.RX_COUNT ch.val, CAN.LAST_RX_SEC ch.val, CAN.LAST_RX_NS ch.val] s t) ∧
  (∀ (ch : Fin 2) (f : CanFrame) (e : Instant) (b : Nat) (s : State), s.regBit (CAN.CTRL ch.val) 31 = true → (s.can ch.val).part = true →
    (List.range 64).find? (canMatch s ch.val f) = some b → (s.can ch.val).locked = none → (s.canBuf ch.val b).isNew = true → ∃ t,
    exec (.canFrameReceived ch f e) s = .next t ∧ (t.canBuf ch.val b).frame = f ∧ (t.canBuf ch.val b).overrun = true ∧
    t.reg (CAN.OVERRUN ch.val) = s.reg (CAN.OVERRUN ch.val) + 1 ∧ t.regBit (CAN.ALARM ch.val) 2 = true ∧
    Raises s t [((0x68 + ch.val) * 256 + 6, 64 * ch.val + b)] ∧ SameOutside [.regs, .can0, .can1, .evr] s t) ∧
  (∀ (ch : Fin 2) (f : CanFrame) (e : Instant) (b : Nat) (n : Word) (u : Nat) (s : State), s.regBit (CAN.CTRL ch.val) 31 = true →
    (s.can ch.val).part = true → (List.range 64).find? (canMatch s ch.val f) = some b → (s.can ch.val).locked = some (b, n, u) →
    (s.canBuf ch.val b).shadow = none → ∃ t, exec (.canFrameReceived ch f e) s = .next t ∧
    (t.canBuf ch.val b).frame = (s.canBuf ch.val b).frame ∧ (t.canBuf ch.val b).shadow.map (·.1) = some f ∧
    (t.canBuf ch.val b).isNew = (s.canBuf ch.val b).isNew ∧ t.evr = s.evr ∧ SameOutside [.regs, .can0, .can1] s t) ∧
  (∀ (ch : Fin 2) (f : CanFrame) (e : Instant) (s : State), s.regBit (CAN.CTRL ch.val) 31 = true → (s.can ch.val).part = true →
    (List.range 64).find? (canMatch s ch.val f) = none → ∃ t, exec (.canFrameReceived ch f e) s = .next t ∧
    t.reg (CAN.UNMATCHED ch.val) = s.reg (CAN.UNMATCHED ch.val) + 1 ∧ t.reg (CAN.RX_COUNT ch.val) = s.reg (CAN.RX_COUNT ch.val) + 1 ∧
    SameOutside [.regs] s t ∧ RegsOutside [CAN.RX_COUNT ch.val, CAN.LAST_RX_SEC ch.val, CAN.LAST_RX_NS ch.val, CAN.UNMATCHED ch.val] s t) ∧
  (∀ (ch : Fin 2) (b : Fin 64) (e : Instant) (f : CanFrame) (s : State), (s.canBuf ch.val b.val).pending = some f →
    ((s.can ch.val).part = true → s.regBit (CAN.CTRL ch.val) 29 = false → s.regFld (CAN.AB_RESULT ch.val) 31 28 ≠ 1 →
      (s.can ch.val).quietFrom = none → canWins s ch.val b.val (canStamp s ch.val e) f = true → ∃ t,
      exec (.canFrameTransmitted ch b e) s = .next t ∧ (t.canBuf ch.val b.val).pending = none ∧
      (t.canBuf ch.val b.val).count = ((s.canBuf ch.val b.val).count + 1) % 256 ∧ (∀ k, k ≠ b.val → t.canBuf ch.val k = s.canBuf ch.val k) ∧
      (t.canBuf ch.val b.val).frame = (s.canBuf ch.val b.val).frame ∧ t.reg (CAN.TX_COUNT ch.val) = s.reg (CAN.TX_COUNT ch.val) + 1 ∧
      t.reg (CAN.LAST_TX_SEC ch.val) = secWord (canStamp s ch.val e) ∧
      t.sent = { kind := .canFrame, fields := [ch.val, b.val, f.ident.toNat, b2n f.rtr, f.dlc] } :: s.sent ∧
      SameOutside [.regs, .can0, .can1, .sent] s t ∧ RegsOutside [CAN.TX_COUNT ch.val, CAN.LAST_TX_SEC ch.val, CAN.LAST_TX_NS ch.val] s t) ∧
    ((s.can ch.val).part = false ∨ s.regBit (CAN.CTRL ch.val) 29 = true ∨ canWins s ch.val b.val (canStamp s ch.val e) f = false →
      exec (.canFrameTransmitted ch b e) s = .next s) ∧
    ((s.can ch.val).part = false → s.regBit (CAN.CTRL ch.val) 31 = true → (List.range 64).find? (canMatch s ch.val f) = none → ∃ t,
      exec (.canFrameReceived ch f e) s = .next t ∧ (t.canBuf ch.val b.val).pending = none ∧
      t.reg (CAN.UNMATCHED ch.val) = s.reg (CAN.UNMATCHED ch.val) + 1 ∧ SameOutside [.regs, .can0, .can1] s t)) ∧
  (∀ (ch : Fin 2) (e : CanErrors) (s : State),
    ((s.can ch.val).part = false → exec (.canErrorStateChange ch e) s = .next s) ∧
    ((s.can ch.val).part = true → e.errors = [] → canErrorState e.tec e.rec_ ≠ (s.can ch.val).state → ∃ t,
      exec (.canErrorStateChange ch e) s = .next t ∧ (t.can ch.val).state = canErrorState e.tec e.rec_ ∧ (t.can ch.val).tec = e.tec ∧ (t.can ch.val).rec_ = e.rec_ ∧
      (256 ≤ e.tec → (t.can ch.val).state = 2 ∧ (t.can ch.val).recovering = ((s.can ch.val).recovering || s.regBit (CAN.CTRL ch.val) 28)) ∧
      ((t.can ch.val).state = 1 → t.reg (CAN.PASSIVE_COUNT ch.val) = s.reg (CAN.PASSIVE_COUNT ch.val) + 1 ∧ t.regBit (CAN.ALARM ch.val) 0 = true) ∧
      ((t.can ch.val).state = 2 → t.reg (CAN.BUSOFF_COUNT ch.val) = s.reg (CAN.BUSOFF_COUNT ch.val) + 1 ∧ t.regBit (CAN.ALARM ch.val) 1 = true) ∧
      (∀ k, t.canBuf ch.val k = s.canBuf ch.val k) ∧ Raises s t [((0x68 + ch.val) * 256 + [3, 1, 2].getD (canErrorState e.tec e.rec_) 0, ch.val)] ∧
      SameOutside [.regs, .can0, .can1, .evr] s t ∧ RegsOutside [CAN.PASSIVE_COUNT ch.val, CAN.BUSOFF_COUNT ch.val, CAN.ALARM ch.val] s t)) ∧
  (∀ (ch : Fin 2) (k : Fin 7) (e : CanErrors) (s : State), (s.can ch.val).part = true → e.errors = [(k, true)] → 1 ≤ k.val →
    canErrorState e.tec e.rec_ = (s.can ch.val).state → ∃ t, exec (.canErrorStateChange ch e) s = .next t ∧
    t.reg (CAN.ERR_COUNT ch.val (k.val - 1)) = s.reg (CAN.ERR_COUNT ch.val (k.val - 1)) + 1 ∧
    t.reg (CAN.DATA_ERRORS ch.val) = s.reg (CAN.DATA_ERRORS ch.val) + 1 ∧
    t.reg (CAN.LAST_ERR ch.val) = BitVec.ofNat 32 (k.val * 268435456 + 134217728) ∧ t.evr = s.evr ∧ SameOutside [.regs, .can0, .can1] s t) ∧
  (∀ (ch : Fin 2) (s : State), (s.can ch.val).part = true → (s.can ch.val).state = 2 → (s.can ch.val).recovering = true → ∃ t,
    exec (.canBusOffRecovered ch) s = .next t ∧ t.can ch.val = { s.can ch.val with state := 0, tec := 0, rec_ := 0, recovering := false } ∧
    Raises s t [((0x68 + ch.val) * 256 + 3, ch.val)] ∧ SameOutside [.can0, .can1, .evr] s t) ∧
  (∀ (p : Pkt) (ch : Fin 2) (x : Session) (s : State), MayWrite s p x (CAN.CTRL ch.val) (s.reg (CAN.CTRL ch.val) ||| 1) →
    (s.can ch.val).state = 2 → ∃ t, exec (.canBoRecover p ch (s.reg (CAN.CTRL ch.val) ||| 1)) s = .next t ∧ t.replied done ∧
    t.can ch.val = { s.can ch.val with recovering := true } ∧ SameOutside [.regs, .can0, .can1, .qcp, .sent] s t ∧
    RegsOutside [CAN.CTRL ch.val] s t) ∧
  (∀ (ch : Fin 2) (s : State), s.regBit (CAN.CTRL ch.val) 31 = true → s.pair.grant = true → (s.can ch.val).part = false → ∃ t,
    exec (.canIntegrationComplete ch) s = .next t ∧
    t.can ch.val = { s.can ch.val with part := true, state := 0, tec := 0, rec_ := 0, recovering := false, quietFrom := none } ∧
    t.can (1 - ch.val) = s.can (1 - ch.val) ∧ SameOutside [.can0, .can1] s t) ∧
  (∀ (ch : Fin 2) (s : State), s.pair.grant = false → exec (.canIntegrationComplete ch) s = .next s) ∧
  (∀ (p : Pkt) (ch : Fin 2) (v : Word) (x : Session) (s : State), MayWrite s p x (CAN.TX_CMD ch.val) v → canBound s.image ch.val (fld v 5 0) = false →
    (bit v 31 = false → canTx s ch.val (fld v 5 0) = true → (s.canBuf ch.val (fld v 5 0)).pending = none → ∃ t,
      exec (.canTxSend p ch v) s = .next t ∧ t.replied done ∧ t.canBuf ch.val (fld v 5 0) = { s.canBuf ch.val (fld v 5 0) with
        pendingAt := s.tb.now, pending := some { (s.canBuf ch.val (fld v 5 0)).frame with ident := s.win (canWin ch.val) (fld v 5 0) 1 } } ∧
      (∀ k, k ≠ fld v 5 0 → t.canBuf ch.val k = s.canBuf ch.val k) ∧ SameOutside [.can0, .can1, .qcp, .sent] s t) ∧
    (bit v 31 = false → canTx s ch.val (fld v 5 0) = true → (s.canBuf ch.val (fld v 5 0)).pending.isSome → ∃ t,
      exec (.canTxSend p ch v) s = .next t ∧ t.replied (refusal .busy) ∧ SameOutside [.qcp, .sent] s t) ∧
    (bit v 31 = true → ∃ t, exec (.canTxAbort p ch v false) s = .next t ∧ t.replied done ∧
      t.canBuf ch.val (fld v 5 0) = { s.canBuf ch.val (fld v 5 0) with pending := none } ∧ SameOutside [.can0, .can1, .qcp, .sent] s t) ∧
    (bit v 31 = true → ∃ t, exec (.canTxAbort p ch v true) s = .next t ∧ t.replied done ∧ SameOutside [.qcp, .sent] s t)) ∧
  (∀ (p : Pkt) (ch : Fin 2) (v : Word) (x : Session) (s : State), MayWrite s p x (CAN.TX_CMD ch.val) v → bit v 31 = false →
    canBound s.image ch.val (fld v 5 0) = true → ∃ t, exec (.canTxSend p ch v) s = .next t ∧
    t.replied (refusal .resourceConflict 0 (t.reg (CAN.OWNER ch.val)).toNat) ∧
    t.reg COLLAR.CONFLICT_COUNT = s.reg COLLAR.CONFLICT_COUNT + 1 ∧ t.reg COLLAR.CONFLICT_LAST = t.reg (CAN.OWNER ch.val) ∧
    Raises s t [(0x7805, 0xFFFF)] ∧ SameOutside [.regs, .evr, .qcp, .sent] s t)

/-- The buffer window and the bit-rate detection (R404, R405, R412, R417): a first read of a new receive buffer locks it, a read of word 21 releases it and
clears NEW, a shadowed frame then moves in, and the lock ends with BUF_SEL or 1 ms without a read, event 0xbb07. A commit waits for the frame tick, and is refused where it disables or turns a
buffer that the image owns. A detected rate sets the timings of Table CN-2 with event 0xbb04; the timeout leaves them, event 0xbb05. Event 0xbb04 at
the detection of the data rate too, and LISTEN_ONLY, are the model's readings (notes/assumptions/45.md). -/
def Obligations.CanWindow : Prop :=
  (∀ (p : Pkt) (ch : Fin 2) (w : Fin 22) (x : Session) (b : Nat) (s : State), Admits s p x → w.val ≠ 21 → b = s.regFld (CAN.BUF_SEL ch.val) 5 0 →
    canRx s ch.val b = true → (s.canBuf ch.val b).isNew = true → (s.can ch.val).locked = none → ∃ t, exec (.canBufWindowRead p ch w) s = .next t ∧
    (t.can ch.val).locked = some (b, p.session, s.tb.up) ∧ (∀ k, t.canBuf ch.val k = s.canBuf ch.val k) ∧ (∃ v, t.replied (doneWith [v])) ∧
    SameOutside [.can0, .can1, .qcp, .sent] s t) ∧
  (∀ (p : Pkt) (ch : Fin 2) (x : Session) (b : Nat) (n : Word) (u : Nat) (s : State), Admits s p x → b = s.regFld (CAN.BUF_SEL ch.val) 5 0 →
    (s.can ch.val).locked = some (b, n, u) →
    ((s.canBuf ch.val b).shadow = none → ∃ t, exec (.canBufWord21Read p ch) s = .next t ∧ (t.can ch.val).locked = none ∧
      t.canBuf ch.val b = { s.canBuf ch.val b with isNew := false } ∧ t.evr = s.evr ∧ SameOutside [.can0, .can1, .qcp, .sent] s t) ∧
    (∀ f a c, (s.canBuf ch.val b).shadow = some (f, a, c) → ∃ t, exec (.canBufWord21Read p ch) s = .next t ∧ (t.can ch.val).locked = none ∧
      t.canBuf ch.val b = { s.canBuf ch.val b with isNew := true, shadow := none, frame := f, sec := a, ns := c } ∧ t.evr = s.evr ∧
      SameOutside [.can0, .can1, .qcp, .sent] s t)) ∧
  (∀ (p : Pkt) (ch : Fin 2) (x : Session) (s : State), Admits s p x → (s.can ch.val).locked = none →
    canRx s ch.val (s.regFld (CAN.BUF_SEL ch.val) 5 0) = false → ∃ t, exec (.canBufWord21Read p ch) s = .next t ∧ t.can ch.val = s.can ch.val ∧
    SameOutside [.can0, .can1, .qcp, .sent] s t) ∧
  (∀ (p : Pkt) (ch : Fin 2) (v : Word) (x : Session) (s : State), MayWrite s p x (CAN.BUF_SEL ch.val) v → (s.can ch.val).locked = none → ∃ t,
    exec (.canBufSel p ch v) s = .next t ∧ t.replied done ∧ t.reg (CAN.BUF_SEL ch.val) = BitVec.ofNat 32 (fld v 5 0) ∧
    SameOutside [.regs, .qcp, .sent] s t ∧ RegsOutside [CAN.BUF_SEL ch.val] s t) ∧
  (∀ (p : Pkt) (ch : Fin 2) (v : Word) (x : Session) (b u : Nat) (n : Word) (s : State), MayWrite s p x (CAN.BUF_SEL ch.val) v →
    (s.can ch.val).locked = some (b, n, u) → (s.canBuf ch.val b).shadow = none → ∃ t, exec (.canBufSel p ch v) s = .next t ∧
    (t.can ch.val).locked = none ∧ (t.canBuf ch.val b).isNew = (s.canBuf ch.val b).isNew ∧ SameOutside [.regs, .can0, .can1, .qcp, .sent] s t) ∧
  (∀ (ch : Fin 2) (b u : Nat) (n : Word) (s : State), (s.can ch.val).locked = some (b, n, u) → (s.canBuf ch.val b).shadow = none → ∃ t,
    exec (.canLockTimeout ch) s = .next t ∧ (t.can ch.val).locked = none ∧ t.canBuf ch.val b = s.canBuf ch.val b ∧
    u + 1000000 * nsUnits ≤ t.tb.up ∧ t.reg (CAN.LOCK_TIMEOUTS ch.val) = s.reg (CAN.LOCK_TIMEOUTS ch.val) + 1 ∧
    t.regBit (CAN.ALARM ch.val) 3 = true ∧ Raises s t [((0x68 + ch.val) * 256 + 7, 64 * ch.val + b)] ∧
    SameOutside [.regs, .tb, .can0, .can1, .evr, .clock] s t ∧ RegsOutside [CAN.LOCK_TIMEOUTS ch.val, CAN.ALARM ch.val] s t) ∧
  (∀ (p : Pkt) (ch : Fin 2) (x : Session) (b : Nat) (s : State), MayWrite s p x (CAN.BUF_COMMIT ch.val) 1 → b = s.regFld (CAN.BUF_SEL ch.val) 5 0 →
    (canBound s.image ch.val b = false → ∃ t, exec (.canBufCommit p ch 1) s = .next t ∧ t.replied done ∧
      sparseFind (t.can ch.val).due b = some (windowWords s (canWin ch.val) b 3) ∧ t.wins = s.wins ∧
      (∀ k, t.canBuf ch.val k = s.canBuf ch.val k) ∧ SameOutside [.staged, .can0, .can1, .qcp, .sent] s t) ∧
    (canBound s.image ch.val b = true → bit (s.winStaged (canWin ch.val) b 0) 31 = false → ∃ t, exec (.canBufCommit p ch 1) s = .next t ∧
      t.replied (refusal .resourceConflict 0 (t.reg (CAN.OWNER ch.val)).toNat) ∧ t.can ch.val = s.can ch.val ∧
      Raises s t [(0x7805, 0xFFFF)] ∧ SameOutside [.regs, .evr, .qcp, .sent] s t)) ∧
  (∀ (ch : Fin 2) (r : Fin 5) (s : State), s.regFld (CAN.AB_RESULT ch.val) 31 28 = 1 → s.regBit (CAN.AB_CFG ch.val) r.val = true → ∃ t,
    exec (.canAutobaudNominalDetected ch r) s = .next t ∧
    t.reg (CAN.NBT ch.val) = [0x083F1010, 0x043F1010, 0x023F1010, 0x014F1414, 0x013F1010].getD r.val 0 ∧
    t.reg (CAN.AB_RESULT ch.val) = BitVec.ofNat 32 (0x20000000 + [125, 250, 500, 800, 1000].getD r.val 0) ∧ t.regBit (CAN.CTRL ch.val) 29 = true ∧
    t.regBit (CAN.ALARM ch.val) 4 = true ∧ Raises s t [((0x68 + ch.val) * 256 + 4, ch.val)] ∧ SameOutside [.regs, .evr] s t ∧
    RegsOutside [CAN.NBT ch.val, CAN.AB_RESULT ch.val, CAN.CTRL ch.val, CAN.ALARM ch.val] s t) ∧
  (∀ (ch : Fin 2) (r : Fin 4) (s : State), s.regFld (CAN.AB_RESULT ch.val) 31 28 = 2 → s.regFld (CAN.AB_RESULT ch.val) 27 24 = 0 →
    s.regBit (CAN.CTRL ch.val) 27 = true → ∃ t, exec (.canAutobaudDataDetected ch r) s = .next t ∧
    t.reg (CAN.DBT ch.val) = [0x021D0A0A, 0x011D0A0A, 0x010E0505, 0x010B0404].getD r.val 0 ∧
    t.regFld (CAN.AB_RESULT ch.val) 27 24 = [1, 2, 4, 5].getD r.val 0 ∧ t.regFld (CAN.AB_RESULT ch.val) 15 0 = s.regFld (CAN.AB_RESULT ch.val) 15 0 ∧
    (1 ≤ r.val → t.regBit (CAN.TDC ch.val) 31 = true) ∧ Raises s t [((0x68 + ch.val) * 256 + 4, ch.val)] ∧ SameOutside [.regs, .evr] s t ∧
    RegsOutside [CAN.DBT ch.val, CAN.AB_RESULT ch.val, CAN.TDC ch.val, CAN.ALARM ch.val] s t) ∧
  (∀ (ch : Fin 2) (s : State), s.regFld (CAN.AB_RESULT ch.val) 31 28 = 1 → ∃ t, exec (.canAutobaudTimeout ch) s = .next t ∧
    (s.can ch.val).abSince + s.regFld (CAN.AB_CFG ch.val) 31 16 * secUnits ≤ t.tb.up ∧ t.reg (CAN.AB_RESULT ch.val) = 0x30000000 ∧
    t.regBit (CAN.ALARM ch.val) 5 = true ∧ Raises s t [((0x68 + ch.val) * 256 + 5, ch.val)] ∧ SameOutside [.regs, .tb, .evr, .clock] s t ∧
    RegsOutside [CAN.AB_RESULT ch.val, CAN.ALARM ch.val] s t)

/-! ### The internal fabric (chapter 14) -/

/-- DMA channels (R428, R429, R431, R432, R438, Tables FB-7 and FB-9): an ARM moves the sleeve into an idle or aborted channel at once, and into a
running one when its transfer completes; a firmware channel and a loaded sleeve are refused. A completed transfer has written every byte; a continuous
one sets its bit at every block; an access that a collar faults halts the engine and names its channel, and one that may not write a register leaves it. A
bus error halts every running channel; when the engine has drained, HALT_INFO and HALT_ADDR name the failure; recovery resumes the channels of its mask and
aborts the other halted ones, event 0x7003 for each, then 0x7002. The order of bytes within a transfer, and the authority with which it writes registers,
are the model's choices (notes/assumptions/64.md, 125.md). -/
def Obligations.DmaTransfers : Prop :=
  (∀ (p : Pkt) (n : Fin 16) (v : Word) (x : Session) (s : State), MayWrite s p x (DMA.CH_CTRL n.val) v → 12 ≤ n.val → bit v 31 = true →
    wrapOk (fld v 23 19) (s.reg (DMA.SL_SRC n.val)).toNat = true → wrapOk (fld v 18 14) (s.reg (DMA.SL_DST n.val)).toNat = true →
    s.reg (DMA.SL_LEN n.val) ≠ 0 → (s.dma n.val).loaded = false → s.regBit DMA.CTRL 0 = true → s.regBit DMA.STATUS 31 = false → ∃ t,
    exec (.dmaChArm p n v) s = .next t ∧ t.replied done ∧ t.reg (DMA.CH_CTRL n.val) = v &&& 0x78FFFF00#32 ∧
    ((s.dma n.val).state = 0 ∨ (s.dma n.val).state = 3 → t.dma n.val = { s.dma n.val with
      state := 1, loaded := false, named := false, prefetchLost := false, claimed := true, ctrl := v &&& 0x78FFFF00#32, moved := 0,
      src := (s.reg (DMA.SL_SRC n.val)).toNat, dst := (s.reg (DMA.SL_DST n.val)).toNat, len := (s.reg (DMA.SL_LEN n.val)).toNat }) ∧
    ((s.dma n.val).state = 1 ∨ (s.dma n.val).state = 2 → t.dma n.val = { s.dma n.val with loaded := true, claimed := true }) ∧
    (∀ c, c ≠ n.val → t.dma c = s.dma c) ∧ t.fab = { s.fab with channels := t.fab.channels } ∧ SameOutside [.regs, .fab, .qcp, .sent] s t ∧
    RegsOutside [DMA.CH_CTRL n.val] s t) ∧
  (∀ (p : Pkt) (n : Fin 16) (v : Word) (x : Session) (s : State), MayWrite s p x (DMA.CH_CTRL n.val) v → bit v 31 = false →
    (12 ≤ n.val → (s.dma n.val).loaded = true → ∃ t, exec (.dmaChArm p n v) s = .next t ∧ t.replied (refusal .wrongState) ∧
      SameOutside [.qcp, .sent] s t) ∧
    (n.val < 12 → ∃ t, exec (.dmaChArm p n v) s = .next t ∧ (∃ r, t.replied r ∧ r.status = .resourceConflict) ∧
      t.reg COLLAR.CONFLICT_COUNT = s.reg COLLAR.CONFLICT_COUNT + 1 ∧ t.regBit COLLAR.ALARM 3 = true ∧
      t.reg COLLAR.CONFLICT_RES = BitVec.ofNat 32 (0x06000000 + n.val) ∧ Raises s t [(0x7805, 0xFFFF)] ∧
      SameOutside [.regs, .evr, .qcp, .sent] s t ∧
      RegsOutside [COLLAR.CONFLICT_LAST, COLLAR.CONFLICT_RES, COLLAR.CONFLICT_COUNT, COLLAR.ALARM] s t)) ∧
  (∀ (p : Pkt) (n : Fin 16) (v : Word) (x : Session) (s : State), MayWrite s p x (DMA.CH_CTRL n.val) v → bit v 31 = true →
    wrapOk (fld v 23 19) (s.reg (DMA.SL_SRC n.val)).toNat = false ∨ wrapOk (fld v 18 14) (s.reg (DMA.SL_DST n.val)).toNat = false → ∃ t,
    exec (.dmaChArm p n v) s = .next t ∧ t.replied (refusal .badParameter) ∧ SameOutside [.qcp, .sent] s t) ∧
  (∀ (c : Fin 16) (s : State), (s.dma c.val).state = 1 → bit (s.dma c.val).ctrl 30 = false → bit (s.dma c.val).ctrl 29 = false →
    bit (s.dma c.val).ctrl 28 = false → wrapOk (fld (s.dma c.val).ctrl 23 19) (s.dma c.val).src = true →
    wrapOk (fld (s.dma c.val).ctrl 18 14) (s.dma c.val).dst = true →
    (∀ i < (s.dma c.val).len, registerAt ((s.dma c.val).srcAt i) = none ∧ registerAt ((s.dma c.val).dstAt i) = none ∧
      faults s (dmaAccess c.val ((s.dma c.val).srcAt i) 1) = false ∧ faults s (dmaAccess c.val ((s.dma c.val).dstAt i) 2) = false ∧ (∀ j < (s.dma c.val).len, (s.dma c.val).srcAt i ≠ (s.dma c.val).dstAt j) ∧
      (∀ j < (s.dma c.val).len, (s.dma c.val).dstAt i = (s.dma c.val).dstAt j → i = j)) → ∃ t,
    exec (.dmaTransferComplete c) s = .next t ∧ t.regBit DMA.DONE c.val = true ∧
    (∀ i < (s.dma c.val).len, (s.dma c.val).moved ≤ i → memRead t.fab.mem ((s.dma c.val).dstAt i) = memRead s.fab.mem ((s.dma c.val).srcAt i)) ∧
    (∀ a, (∀ i < (s.dma c.val).len, (s.dma c.val).moved ≤ i → a ≠ (s.dma c.val).dstAt i) → memRead t.fab.mem a = memRead s.fab.mem a) ∧
    (t.dma c.val).completed = ((s.dma c.val).completed + 1) % 65536 ∧ (t.dma c.val).loaded = false ∧
    ((s.dma c.val).loaded = false → (t.dma c.val).state = 0) ∧
    ((s.dma c.val).loaded = true → (t.dma c.val).state = 1 ∧ (t.dma c.val).moved = 0 ∧
      (t.dma c.val).src = (s.reg (DMA.SL_SRC c.val)).toNat ∧ (t.dma c.val).dst = (s.reg (DMA.SL_DST c.val)).toNat ∧
      (t.dma c.val).len = (s.reg (DMA.SL_LEN c.val)).toNat ∧ (t.dma c.val).ctrl = s.reg (DMA.CH_CTRL c.val)) ∧
    (∀ k, k ≠ c.val → t.dma k = s.dma k) ∧ SameOutside [.regs, .fab] s t ∧ RegsOutside [DMA.DONE, DMA.KBYTES, DMA.CH_KB c.val] s t) ∧
  (∀ (c : Fin 16) (s : State), (s.dma c.val).state = 1 → bit (s.dma c.val).ctrl 30 = false → (s.dma c.val).moved < (s.dma c.val).len →
    s.regBit DMA.STATUS 31 = false → faults s (dmaAccess c.val ((s.dma c.val).srcAt (s.dma c.val).moved) 1) = true → ∃ t,
    exec (.dmaTransferComplete c) s = .next t ∧ t.dma c.val = { s.dma c.val with state := 2, named := true, prefetchLost := false } ∧
    t.regBit DMA.STATUS 31 = true ∧ t.reg DMA.HALT_COUNT = s.reg DMA.HALT_COUNT + 1 ∧ t.reg COLLAR.FAULTS = s.reg COLLAR.FAULTS + 1 ∧
    t.reg (COLLAR.MASTER_FAULTS 15) = s.reg (COLLAR.MASTER_FAULTS 15) + 1 ∧
    t.fab.error.map (·.address) = some (BitVec.ofNat 32 ((s.dma c.val).srcAt (s.dma c.val).moved)) ∧ t.fab.mem = s.fab.mem ∧
    (∀ k < 16, k ≠ c.val → (s.dma k).state = 1 → (t.dma k).state = 2 ∧ (t.dma k).named = false) ∧
    Raises s t (if privilege s (dmaAccess c.val ((s.dma c.val).srcAt (s.dma c.val).moved) 1) ∧ s.regBit COLLAR.CTRL 0 = false then []
      else [(0x7801, (collarOf (BitVec.ofNat 32 ((s.dma c.val).srcAt (s.dma c.val).moved)).toNat).getD 0x1F)]) ∧
    SameOutside [.regs, .fab, .evr] s t) ∧
  (∀ (c : Fin 16) (r : Nat) (v : Word) (s : State), (s.dma c.val).state = 1 → (s.dma c.val).loaded = false → (s.dma c.val).len = 4 →
    (s.dma c.val).moved = 0 → bit (s.dma c.val).ctrl 30 = false → bit (s.dma c.val).ctrl 29 = false → (s.dma c.val).srcAt 0 % 4 = 0 →
    (s.dma c.val).dstAt 0 % 4 = 0 → registerAt ((s.dma c.val).srcAt 0) = none → registerAt ((s.dma c.val).srcAt 0 + 3) = none →
    registerAt ((s.dma c.val).dstAt 0) = some r → faults s (dmaAccess c.val ((s.dma c.val).srcAt 0) 1) = false →
    faults s (dmaAccess c.val ((s.dma c.val).dstAt 0) 2) = false →
    v = BitVec.ofNat 32 (beNat ((List.range 4).map fun i => memRead s.fab.mem ((s.dma c.val).srcAt 0 + i))) →
    stopRefused s r v = true ∨ 2 < writeAuthority s r v → ∃ t, exec (.dmaTransferComplete c) s = .next t ∧ t.regBit DMA.DONE c.val = true ∧
    (t.dma c.val).state = 0 ∧ SameOutside [.regs, .fab] s t ∧ RegsOutside [DMA.DONE, DMA.KBYTES, DMA.CH_KB c.val] s t) ∧
  (∀ (c : Fin 16) (stop : Nat) (s : State), (s.dma c.val).state = 1 → bit (s.dma c.val).ctrl 30 = true → 8 ≤ fld (s.dma c.val).ctrl 13 9 →
    stop = ((s.dma c.val).moved / 2 ^ fld (s.dma c.val).ctrl 13 9 + 1) * 2 ^ fld (s.dma c.val).ctrl 13 9 →
    bit (s.dma c.val).ctrl 29 = false → bit (s.dma c.val).ctrl 28 = false → wrapOk (fld (s.dma c.val).ctrl 23 19) (s.dma c.val).src = true →
    wrapOk (fld (s.dma c.val).ctrl 18 14) (s.dma c.val).dst = true →
    (∀ i < stop, (s.dma c.val).moved ≤ i → registerAt ((s.dma c.val).srcAt i) = none ∧ registerAt ((s.dma c.val).dstAt i) = none ∧
      faults s (dmaAccess c.val ((s.dma c.val).srcAt i) 1) = false ∧ faults s (dmaAccess c.val ((s.dma c.val).dstAt i) 2) = false) → ∃ t,
    exec (.dmaBlockBoundary c) s = .next t ∧ t.regBit DMA.BLOCK c.val = true ∧ t.dma c.val = { s.dma c.val with moved := stop } ∧
    (∀ a, (∀ i < stop, (s.dma c.val).moved ≤ i → a ≠ (s.dma c.val).dstAt i) → memRead t.fab.mem a = memRead s.fab.mem a) ∧
    (∀ k, k ≠ c.val → t.dma k = s.dma k) ∧ SameOutside [.regs, .fab] s t ∧ RegsOutside [DMA.BLOCK, DMA.KBYTES, DMA.CH_KB c.val] s t) ∧
  (∀ (e : DmaError) (s : State), s.regBit DMA.STATUS 31 = false → (∀ m ∈ e.moved, m.2.toNat ≤ (s.dma m.1.val).moved) → ∃ t,
    exec (.dmaBusError e) s = .next t ∧ t.regBit DMA.STATUS 31 = true ∧ t.regBit DMA.STATUS 30 = false ∧ t.regBit DMA.ALARM 0 = true ∧
    t.reg DMA.HALT_SEC = secWord s.tb.now ∧ t.reg DMA.HALT_COUNT = s.reg DMA.HALT_COUNT + 1 ∧ t.fab.error = some e ∧ t.fab.mem = s.fab.mem ∧
    (∀ c < 16, ((s.dma c).state = 1 → (t.dma c).state = 2 ∧ (t.dma c).named = decide (e.channel.map (·.val) = some c) ∧
      (t.dma c).prefetchLost = e.discarded.getLsbD c ∧ (t.dma c).loaded = (s.dma c).loaded) ∧ ((s.dma c).state ≠ 1 → t.dma c = s.dma c)) ∧
    SameOutside [.regs, .fab] s t) ∧
  (∀ (e : DmaError) (s : State), s.regBit DMA.STATUS 31 = true → s.regBit DMA.STATUS 30 = false → exec (.dmaBusError e) s = .next s) ∧
  (∀ (e : DmaError) (s : State), s.fab.error = some e → ∃ t, exec .dmaDrained s = .next t ∧ t.regBit DMA.STATUS 30 = true ∧
    t.regBit DMA.STATUS 29 = s.regBit DMA.CTRL 8 ∧ t.regFld DMA.HALT_INFO 7 0 = (e.channel.map (·.val)).getD 0xFF ∧ t.regFld DMA.HALT_INFO 15 8 = e.unit.toNat ∧
    t.regFld DMA.HALT_INFO 31 28 = e.cause.toNat ∧ t.reg DMA.HALT_ADDR = e.address ∧ t.fab = { s.fab with error := none } ∧
    Raises s t [(0x7001, 0xFFFF)] ∧ SameOutside [.regs, .evr, .fab] s t ∧ RegsOutside [DMA.STATUS, DMA.HALT_INFO, DMA.HALT_ADDR] s t) ∧
  (∀ (p : Pkt) (v : Word) (x : Session) (s : State), MayWrite s p x DMA.RECOVER v →
    (s.regBit DMA.STATUS 30 = true → ∃ t, exec (.dmaRecover p v) s = .next t ∧ t.replied done ∧ t.regBit DMA.STATUS 31 = false ∧
      t.regBit DMA.STATUS 30 = false ∧ t.regBit DMA.ALARM 1 = true ∧
      (∀ c < 16, ((s.dma c).state = 2 → bit v c = true → (t.dma c) = { s.dma c with state := 1 }) ∧
        ((s.dma c).state = 2 → bit v c = false → (t.dma c).state = 3 ∧ (t.dma c).len = 0 ∧ t.reg (DMA.SL_LEN c) = s.reg (DMA.SL_LEN c)) ∧
        ((s.dma c).state = 1 ∨ (s.dma c).state = 3 → t.dma c = s.dma c)) ∧
      Raises s t (((List.range 16).filter fun c => decide ((s.dma c).state = 2) && !(bit v c)).map (fun c => (0x7003, c)) ++ [(0x7002, 0xFFFF)]) ∧
      SameOutside [.regs, .evr, .fab, .qcp, .sent] s t ∧ RegsOutside [DMA.STATUS, DMA.ALARM] s t) ∧
    (s.regBit DMA.STATUS 30 = false → ∃ t, exec (.dmaRecover p v) s = .next t ∧ t.replied (refusal .wrongState) ∧
      SameOutside [.qcp, .sent] s t)) ∧
  (∀ s : State, s.regBit DMA.CTRL 8 = true → s.regBit DMA.STATUS 30 = true →
    s.regFld DMA.HALT_INFO 7 0 < 16 ∨ s.regFld DMA.HALT_INFO 7 0 = 0xFF → ∃ t, exec .dmaAutoRecover s = .next t ∧
    t.regBit DMA.STATUS 31 = false ∧ (∀ c < 16, (s.dma c).state = 2 →
      (c ≠ s.regFld DMA.HALT_INFO 7 0 → t.dma c = { s.dma c with state := 1 }) ∧
      (c = s.regFld DMA.HALT_INFO 7 0 → (t.dma c).state = 3)) ∧ SameOutside [.regs, .evr, .fab] s t ∧ RegsOutside [DMA.STATUS, DMA.ALARM] s t) ∧
  (∀ (p : Pkt) (v : Word) (x : Session) (s : State), MayWrite s p x DMA.ABORT_CMD v → fld v 11 0 = 0 → ∃ t,
    exec (.dmaAbortCmd p v) s = .next t ∧ t.replied done ∧
    (∀ c, 12 ≤ c → c < 16 → bit v c = true → (t.dma c).claimed = false ∧
      ((s.dma c).state = 1 ∨ (s.dma c).state = 2 → (t.dma c).state = 3 ∧ (t.dma c).len = 0) ∧
      ((s.dma c).state = 0 ∨ (s.dma c).state = 3 → t.dma c = { s.dma c with claimed := false })) ∧
    Raises s t ((([12, 13, 14, 15] : List Nat).filter fun c => bit v c && decide ((s.dma c).state = 1 ∨ (s.dma c).state = 2)).map fun c => (0x7003, c)) ∧
    (∀ c, c < 12 ∨ bit v c = false → t.dma c = s.dma c) ∧ SameOutside [.regs, .evr, .fab, .qcp, .sent] s t ∧ RegsOutside [DMA.ALARM] s t)

/-- Collars, the fence and cuffs (R420 to R422, R424 to R426, R433, R435, R436, Tables FB-1, FB-10 and FB-11): the first matching rule judges an access
and gives it its attributes, or else the default map; one that faults reads 0 and is recorded and counted by collar and master, and one that passes is a
hit. A commit is in force from the next frame tick. A fence answers
when it completes, or ends at the largest limit of its collars with event 0x7804. A cuff that times out sets STOPPED and halts the DMA channel whose
transfer it ended, a side in reset flushes its queue,
and event 0x7903 follows when the silent side runs again. The status INTERNAL_FAULT of a fence's bus error is the model's. -/
def Obligations.CollarsAndCuffs : Prop :=
  (∀ (x : Access) (n : Nat) (s : State), collarOf x.address.toNat = some n →
    lockedRegion x.address.toNat x.master.toNat (privilege s x) x.kind.toNat = none →
    (∀ r < 16, ruleMatches s n r x (privilege s x) = true → (∀ q < r, ruleMatches s n q x (privilege s x) = false) →
      judge s x = (r, ruleGrants s n r x.kind.toNat)) ∧
    ((∀ r < 16, ruleMatches s n r x (privilege s x) = false) →
      judge s x = (0x10, privilege s x && decide (defaultMap n &&& x.kind.toNat ≠ 0)))) ∧
  (∀ (x : Access) (r n : Nat) (s : State), judge s x = (r, true) → collarOf x.address.toNat = some n → ∃ t, exec (.collarFault x) s = .next t ∧
    (r < 16 → sparseGet 0 t.fab.hits (16 * n + r) = sparseGet 0 s.fab.hits (16 * n + r) + 1 ∧ t.regs = s.regs) ∧
    (r = 0x10 → t.reg COLLAR.DEFAULT_USES = s.reg COLLAR.DEFAULT_USES + 1 ∧ RegsOutside [COLLAR.DEFAULT_USES] s t ∧ t.fab.hits = s.fab.hits) ∧
    t.fab = { s.fab with hits := t.fab.hits, passage := some (passageOf s x) } ∧ SameOutside [.regs, .fab] s t) ∧
  (∀ (x : Access) (r n : Nat) (ok : Bool) (s : State), judge s x = (r, ok) → collarOf x.address.toNat = some n →
    (passageOf s x).passed = ok ∧ (ok = false → (passageOf s x).value = 0) ∧
    (r < 16 → (passageOf s x).cacheable = bit (s.rule n r 0) 25 ∧ (passageOf s x).order = fld (s.rule n r 0) 24 23) ∧
    (16 ≤ r → ((passageOf s x).cacheable = true ↔ n = 0 ∨ n = 12) ∧
      ((passageOf s x).order = 2 ↔ n = 5 ∨ n = 9 ∨ n = 10 ∨ 13 ≤ n) ∧ ((passageOf s x).order = 0 ↔ n = 0 ∨ n = 12)) ∧
    (ok = true → x.kind = 1 → (∀ i < 4, registerAt (x.address.toNat / 4 * 4 + i) = none) → (passageOf s x).value =
      BitVec.ofNat 32 (beNat ((List.range 4).map fun i => memRead s.fab.mem (x.address.toNat / 4 * 4 + i))))) ∧
  (∀ (x : Access) (r : Nat) (s : State), judge s x = (r, false) → 2 ≤ x.master.toNat → x.master.toNat < 0x0D →
    (privilege s x = false ∨ s.regBit COLLAR.CTRL 0 = true) → ∃ t, exec (.collarFault x) s = .next t ∧
    t.reg COLLAR.FAULTS = s.reg COLLAR.FAULTS + 1 ∧ t.regBit COLLAR.ALARM 0 = true ∧
    t.reg (COLLAR.MASTER_FAULTS x.master.toNat) = s.reg (COLLAR.MASTER_FAULTS x.master.toNat) + 1 ∧
    t.regFld COLLAR.LAST_FAULT 31 27 = (collarOf x.address.toNat).getD 0x1F ∧ t.regFld COLLAR.LAST_FAULT 21 16 = x.master.toNat ∧
    t.regBit COLLAR.LAST_FAULT 15 = privilege s x ∧ t.regFld COLLAR.LAST_FAULT 14 12 = x.kind.toNat ∧ t.regFld COLLAR.LAST_FAULT 4 0 = r ∧
    t.reg COLLAR.LAST_FAULT_ADDR = x.address ∧ Raises s t [(0x7801, (collarOf x.address.toNat).getD 0x1F)] ∧
    t.fab = { s.fab with passage := some (passageOf s x) } ∧ SameOutside [.regs, .fab, .evr] s t ∧
    RegsOutside [COLLAR.FAULTS, COLLAR.ALARM, COLLAR.MASTER_FAULTS x.master.toNat, COLLAR.LAST_FAULT, COLLAR.LAST_FAULT_ADDR,
      COLLAR.LAST_FAULT_SEC, COLLAR.STAT ((collarOf x.address.toNat).getD 0x1F)] s t) ∧
  (∀ (x : Access) (s : State), judge s x = (0x11, false) → x.master.toNat = 0x0D → ∃ t, exec (.collarFault x) s = .next t ∧
    t.reg COLLAR.LOCKED_DENIALS = s.reg COLLAR.LOCKED_DENIALS + 1 ∧ t.regBit COLLAR.ALARM 1 = true ∧
    t.fab = { s.fab with passage := some (passageOf s x) } ∧ SameOutside [.regs, .fab, .evr] s t) ∧
  (∀ (p : Pkt) (x : Session) (s : State), MayWrite s p x COLLAR.COMMIT 1 → s.regFld COLLAR.SEL 12 8 < 24 →
    ((∀ r, 8 ≤ r → r < 16 → ruleStaged s (s.regFld COLLAR.SEL 12 8) r = true → ruleOk (s.regFld COLLAR.SEL 12 8)
        (s.winStaged .collar (16 * s.regFld COLLAR.SEL 12 8 + r) 0) (s.winStaged .collar (16 * s.regFld COLLAR.SEL 12 8 + r) 1)
        (s.winStaged .collar (16 * s.regFld COLLAR.SEL 12 8 + r) 2) = true) → ∃ t,
      exec (.collarCommit p 1) s = .next t ∧ t.replied done ∧
      sparseFind t.fab.rulesDue (s.regFld COLLAR.SEL 12 8) = some (stagedRules s (s.regFld COLLAR.SEL 12 8)) ∧
      t.wins = s.wins ∧ SameOutside [.staged, .fab, .qcp, .sent] s t) ∧
    (∀ r, 8 ≤ r → r < 16 → ruleStaged s (s.regFld COLLAR.SEL 12 8) r = true → ruleOk (s.regFld COLLAR.SEL 12 8)
        (s.winStaged .collar (16 * s.regFld COLLAR.SEL 12 8 + r) 0) (s.winStaged .collar (16 * s.regFld COLLAR.SEL 12 8 + r) 1)
        (s.winStaged .collar (16 * s.regFld COLLAR.SEL 12 8 + r) 2) = false → ∃ t,
      exec (.collarCommit p 1) s = .next t ∧ t.replied (refusal .badParameter) ∧ SameOutside [.qcp, .sent] s t)) ∧
  (∀ (s : State) (n : Nat) (ws : List Word), n < 24 → s.fab.rulesDue = [(n, ws)] →
    s.fabricTick.fab.rulesDue = [] ∧ s.fabricTick.reg (COLLAR.GEN n) = s.reg (COLLAR.GEN n) + 1 ∧
    (∀ i < 8, ∀ w < 3, s.fabricTick.rule n (8 + i) w = ws.getD (3 * i + w) 0) ∧ (∀ r < 8, ∀ w < 32, s.fabricTick.rule n r w = s.rule n r w) ∧
    Raises s s.fabricTick [(0x7802, n)]) ∧
  (∀ (p : Pkt) (v : Word) (x : Session) (s : State), MayWrite s p x COLLAR.FENCE v → s.fab.fence = none → ∃ t, exec (.collarFence p v) s = .next t ∧
    t.fab = { s.fab with fence := some (fld v 23 0, s.tb.up, some (0x11, requesterOf p)) } ∧ SameOutside [.fab, .qcp, .sent] s t) ∧
  (∀ (ns : Word) (m u op : Nat) (rq : Requester) (s : State), s.fab.fence = some (m, u, some (op, rq)) → (s.session rq.session).isSome →
    op ≠ 0x12 → 10 * ns.toNat ≤ fenceLimit s m → ∃ t, exec (.fenceComplete ns) s = .next t ∧ t.fab = { s.fab with fence := none } ∧
    t.reg COLLAR.FENCE_MAX = maxWord (s.reg COLLAR.FENCE_MAX) ns ∧ t.tb.up = max s.tb.up (u + ns.toNat * nsUnits) ∧ t.replied done ∧
    SameOutside [.regs, .tb, .clock, .fab, .qcp, .sent] s t ∧ RegsOutside [COLLAR.FENCE_MAX] s t) ∧
  (∀ (m u : Nat) (w : Option (Nat × Requester)) (s : State), s.fab.fence = some (m, u, w) → ∃ t, exec .fenceTimeout s = .next t ∧
    t.fab = { s.fab with fence := none } ∧ t.tb.up = max s.tb.up (u + fenceLimit s m / 10 * nsUnits) ∧ t.regBit COLLAR.ALARM 2 = true ∧
    (∀ ns : Word, fenceLimit s m < 10 * ns.toNat → exec (.fenceComplete ns) s = .next t) ∧
    Raises s t [(0x7804, 0xFFFF)] ∧ SameOutside [.regs, .tb, .clock, .evr, .fab, .qcp, .sent] s t ∧
    RegsOutside [COLLAR.FENCE_MAX, COLLAR.ALARM] s t) ∧
  (∀ (n : Fin 12) (m : BitVec 6) (s : State), m.toNat < 0x10 →
    (s.regBit (CUFF.STAT n.val) 27 = false → ∃ t, exec (.cuffTimeout n m) s = .next t ∧ t.regBit (CUFF.STAT n.val) 27 = true ∧
      t.regFld CUFF.LAST_INFO 31 28 = 1 ∧ t.regFld CUFF.LAST_INFO 27 24 = n.val ∧ t.regFld CUFF.LAST_INFO 21 16 = m.toNat ∧
      t.regFld (CUFF.COUNT n.val) 31 16 = min 65535 (s.regFld (CUFF.COUNT n.val) 31 16 + 1) ∧
      t.regFld (CUFF.COUNT n.val) 15 0 = s.regFld (CUFF.COUNT n.val) 15 0 ∧ t.regBit CUFF.ALARM n.val = true ∧
      Raises s t [(0x7901, n.val)] ∧ SameOutside [.regs, .evr] s t ∧
      RegsOutside [CUFF.LAST_INFO, CUFF.LAST_SEC, CUFF.STAT n.val, CUFF.COUNT n.val, CUFF.ALARM] s t) ∧
    (s.regBit (CUFF.STAT n.val) 27 = true → ∃ t, exec (.cuffTimeout n m) s = .next t ∧ SameOutside [.regs] s t ∧
      RegsOutside [CUFF.LAST_INFO, CUFF.LAST_SEC] s t)) ∧
  (∀ (n : Fin 12) (c : Fin 16) (s : State), (s.dma c.val).state = 1 → s.regBit DMA.STATUS 31 = false → ∃ t,
    exec (.cuffTimeout n (BitVec.ofNat 6 (16 + c.val))) s = .next t ∧ t.dma c.val = { s.dma c.val with state := 2, named := true, prefetchLost := false } ∧
    t.regBit DMA.STATUS 31 = true ∧ t.reg DMA.HALT_COUNT = s.reg DMA.HALT_COUNT + 1 ∧ t.fab.mem = s.fab.mem ∧
    Raises s t (if s.regBit (CUFF.STAT n.val) 27 then [] else [(0x7901, n.val)]) ∧ SameOutside [.regs, .fab, .evr] s t) ∧
  (∀ (n : Fin 12) (b : Bool) (k : Half) (s : State), ∃ t, exec (.cuffSideReset n b k) s = .next t ∧
    t.regBit (CUFF.STAT n.val) (if b then 29 else 28) = true ∧ t.regFld CUFF.LAST_INFO 31 28 = 2 ∧ t.regFld CUFF.LAST_INFO 15 0 = k.toNat ∧
    t.regFld (CUFF.COUNT n.val) 15 0 = min 65535 (s.regFld (CUFF.COUNT n.val) 15 0 + 1) ∧
    t.regFld (CUFF.COUNT n.val) 31 16 = s.regFld (CUFF.COUNT n.val) 31 16 ∧ t.regBit CUFF.ALARM (16 + n.val) = true ∧
    Raises s t [(0x7902, n.val)] ∧ SameOutside [.regs, .evr] s t ∧
    RegsOutside [CUFF.LAST_INFO, CUFF.LAST_SEC, CUFF.STAT n.val, CUFF.COUNT n.val, CUFF.ALARM] s t) ∧
  (∀ (n : Fin 12) (b : Bool) (s : State), ∃ t, exec (.cuffSideRunning n b) s = .next t ∧
    t.regBit (CUFF.STAT n.val) (if b then 29 else 28) = false ∧ t.regBit (CUFF.STAT n.val) (if b then 31 else 30) = true ∧
    (s.regBit (CUFF.STAT n.val) 27 = true → b = false → t.regBit (CUFF.STAT n.val) 27 = false ∧ Raises s t [(0x7903, n.val)]) ∧
    (s.regBit (CUFF.STAT n.val) 27 = false ∨ b = true → t.evr = s.evr) ∧ SameOutside [.regs, .evr] s t ∧ RegsOutside [CUFF.STAT n.val] s t)

/-! ### The event recorder (chapter 15) -/

/-- Raising, recording, forwarding and reading events (R444, R445, R449 to R453, R456 to R460): a raised event enters the 512-entry intake, or is counted as
lost; the oldest event folds into the most recent own record or makes a new one, which overwrites the lowest-numbered record that is neither fatal nor
above its severity when the log is full, or is dropped; a copy from the partner gets an own INDEX. The cursor, EVR_READ and the register window show
records in ascending INDEX; clearing FATAL or the alarms acknowledges; the owner clear removes everything and keeps the numbering. -/
def Obligations.EventLogKeeps : Prop :=
  (∀ (code src : Half) (s : State),
    (s.committing = true → exec (.eventRaised code src) s = .next s) ∧
    (s.committing = false → ∃ (t : State) (e : RaisedEvent), exec (.eventRaised code src) s = .next t ∧ e.code = code ∧ e.source = src ∧ e.role = s.role ∧
      e.mode = s.mode ∧ e.quality = s.tb.quality ∧ e.sec = secOf s.tb.now ∧ e.ns = nsOf s.tb.now ∧ e.opSec = s.reg LINING.OP_SEC ∧
      e.snap.length ≤ 16 ∧
      (s.evr.intake.length < 512 → t.evr.intake = s.evr.intake ++ [e] ∧ t.evr.intakeLost = s.evr.intakeLost) ∧
      (512 ≤ s.evr.intake.length → t.evr = { s.evr with
        intakeLost := satInc s.evr.intakeLost, alarm := s.evr.alarm ||| 4#32, overflowDue := true }) ∧ SameOutside [.evr] s t)) ∧
  (∀ (e : RaisedEvent) (rest : List RaisedEvent) (r : EventRecord) (s : State), s.evr.intake = e :: rest → foldTarget s e = some r → ∃ t,
    exec .eventRecorded s = .next t ∧ t.evr.intake = rest ∧ t.evr.folded = s.evr.folded + 1 ∧ t.evr.newest = s.evr.newest ∧
    t.evr.records = s.evr.records.map (fun y => if y.index = r.index then folded y e else y) ∧ t.evr.foldable = some (r.index, e.tick) ∧
    e.pleated = true ∧ r.code = e.code ∧ r.source = e.source ∧ SameOutside [.evr] s t) ∧
  (∀ (e : RaisedEvent) (rest : List RaisedEvent) (s : State), s.evr.intake = e :: rest → foldTarget s e = none →
    (s.evr.records.length < 16384 → ∃ t, exec .eventRecorded s = .next t ∧ t.evr.intake = rest ∧
      t.evr.records = s.evr.records ++ [eventRecordOf s e] ∧ t.evr.newest = s.evr.newest + 1 ∧
      t.evr.foldable = some (s.evr.newest + 1, e.tick) ∧ (e.severity = 4 → bit t.evr.alarm 4 = true) ∧
      t.sent = (if s.regFld EVR.CFG 10 8 ≤ e.severity ∧ s.pair.tandem.up = true ∧ s.lock.cutOff = false then
        { kind := .partnerRecord, fields := (recordBytes (eventRecordOf s e)).map (·.toNat) } :: s.sent else s.sent) ∧
      SameOutside [.evr, .sent] s t) ∧
    (∀ v, 16384 ≤ s.evr.records.length → s.evr.records.find? (fun y => decide (y.severity ≤ e.severity) && decide (y.severity ≠ 4)) = some v →
      ∃ t, exec .eventRecorded s = .next t ∧ t.evr.intake = rest ∧ t.evr.overwritten = s.evr.overwritten + 1 ∧
      t.evr.records = s.evr.records.filter (fun y => y.index ≠ v.index) ++ [eventRecordOf s e] ∧ t.evr.newest = s.evr.newest + 1 ∧
      SameOutside [.evr, .sent] s t) ∧
    (16384 ≤ s.evr.records.length → (∀ y ∈ s.evr.records, e.severity < y.severity ∨ y.severity = 4) → ∃ t, exec .eventRecorded s = .next t ∧
      t.evr.records = s.evr.records ∧ t.evr.newest = s.evr.newest ∧ t.evr.loss = satInc s.evr.loss ∧ bit t.evr.alarm 1 = true ∧
      SameOutside [.evr] s t)) ∧
  (∀ s : State, s.committing = false → s.evr.overflowDue = true → s.evr.intake.length < 512 →
    (∀ k, s.evr.overflowAt = some k → k + 100000 ≤ s.evr.ticks) → ∃ (t : State) (e : RaisedEvent), exec .intakeOverflowReport s = .next t ∧
    e.code = 0x7C04#16 ∧ t.evr.intake = s.evr.intake ++ [e] ∧ t.evr.overflowDue = false ∧ t.evr.overflowAt = some s.evr.ticks ∧
    SameOutside [.evr] s t) ∧
  (∀ (r : EventRecord) (s : State), s.evr.records.length < 16384 → ∃ t, exec (.partnerRecordReceived r) s = .next t ∧
    t.evr.records = s.evr.records ++ [{ r with index := s.evr.newest + 1, partner := true, originIndex := r.index }] ∧
    t.evr.newest = s.evr.newest + 1 ∧ t.evr.foldable = s.evr.foldable ∧ SameOutside [.evr] s t) ∧
  (∀ (p : Pkt) (x : Session) (v : Word) (s : State), Admits s p x → ∀ (c : Instr) (n : Nat),
    (c = .evrCursorReport p ∧ n = cursorAt s x.cursor) ∨ (c = .evrCursorOldest p ∧ n = cursorAt s 0) ∨ (c = .evrCursorSet p v ∧ n = cursorAt s v.toNat) ∨
      (c = .evrCursorNewest p ∧ n = (s.evr.records.getLast?.map (·.index)).getD (s.evr.newest + 1)) → ∃ t, exec c s = .next t ∧
    t.replied (doneWith [n, s.evr.records.length, s.evr.loss.toNat]) ∧ (t.session p.session).map (·.cursor) = some n ∧ SameOutside [.qcp, .sent] s t) ∧
  (∀ (p : Pkt) (x : Session) (k : Byte) (s : State), Admits s p x →
    (1 ≤ k.toNat → k.toNat ≤ 10 → ∃ t, exec (.evrRead p k) s = .next t ∧
      t.replied { status := .done,
                  payload := (((s.evr.records.filter fun r => decide (x.cursor ≤ r.index)).take k.toNat).flatMap recordBytes).map (·.toNat) } ∧
      (t.session p.session).map (·.cursor) = some ((((s.evr.records.filter fun r => decide (x.cursor ≤ r.index)).take k.toNat).getLast?.map
        fun r => r.index + 1).getD x.cursor) ∧ SameOutside [.qcp, .sent] s t) ∧
    (k.toNat = 0 ∨ 10 < k.toNat → ∃ t, exec (.evrRead p k) s = .next t ∧ t.replied (refusal .badParameter) ∧ SameOutside [.qcp, .sent] s t)) ∧
  (∀ (p : Pkt) (x : Session) (key : Half) (s : State), Admits s p x → 3 ≤ x.role →
    (key = 0x4543#16 → ∃ (t : State) (e : RaisedEvent), exec (.evrClear p key) s = .next t ∧ t.replied done ∧ t.evr.records = [] ∧
      t.evr.newest = s.evr.newest ∧ t.evr.loss = 0 ∧ t.evr.lossSev = 0 ∧ t.evr.intakeLost = 0 ∧ t.evr.overwritten = 0 ∧ t.evr.folded = 0 ∧
      t.evr.discarded = 0 ∧ bit t.evr.alarm 4 = false ∧ t.evr.intake = [e] ∧ e.code = 0x7C01#16 ∧
      (∀ y ∈ t.qcp.sessions, y.cursor = s.evr.newest + 1) ∧ t.evr.winCursor = s.evr.newest + 1 ∧ SameOutside [.evr, .qcp, .sent] s t) ∧
    (key ≠ 0x4543#16 → ∃ t, exec (.evrClear p key) s = .next t ∧ t.replied (refusal .badParameter) ∧ SameOutside [.qcp, .sent] s t)) ∧
  (∀ (p : Pkt) (x : Session) (v : Word) (s : State), MayWrite s p x EVR.CURSOR v → ∃ t, exec (.evrCursorWrite p v) s = .next t ∧ t.replied done ∧
    t.evr = { s.evr with winCursor := cursorAt s v.toNat, winCopy := recordFrom s v.toNat } ∧ SameOutside [.evr, .qcp, .sent] s t) ∧
  (∀ (p : Pkt) (x : Session) (s : State), Admits s p x →
    (s.windowHolder .evr p.session = none → ∃ t, exec (.evrWinDataRead p) s = .next t ∧
      t.replied (doneWith [((s.evr.winCopy.map fun r => recordWord r s.evr.winPtr).getD 0).toNat]) ∧
      (s.evr.winCopy = none → t.evr = s.evr) ∧
      (∀ r, s.evr.winCopy = some r → s.evr.winPtr < 31 → t.evr = { s.evr with winPtr := s.evr.winPtr + 1 }) ∧
      (∀ r, s.evr.winCopy = some r → 31 ≤ s.evr.winPtr → t.evr = { s.evr with
        winPtr := 0, winCursor := cursorAt s (r.index + 1), winCopy := recordFrom s (r.index + 1) }) ∧ SameOutside [.evr, .qcp, .sent] s t) ∧
    (∀ n, s.windowHolder .evr p.session = some n → ∃ t, exec (.evrWinDataRead p) s = .next t ∧ t.replied (refusal .busy 0 n.toNat) ∧
      SameOutside [.qcp, .sent] s t)) ∧
  (∀ (p : Pkt) (x : Session) (n : Nat) (s : State), MayWrite s p x EVR.SNAP_COMMIT 1 → s.regFld EVR.SNAP_SEL 2 0 = n →
    (fld (s.winStaged .snap n 1) 28 24 ≤ 16 → (∀ k < fld (s.winStaged .snap n 1) 28 24, implemented (if k % 2 = 0 then
        fld (s.winStaged .snap n (2 + k / 2)) 31 16 else fld (s.winStaged .snap n (2 + k / 2)) 15 0) = true) → ∃ t,
      exec (.evrSnapCommit p 1) s = .next t ∧ t.replied done ∧ t.winFld .snap n 1 23 16 = (s.winFld .snap n 1 23 16 + 1) % 256 ∧
      t.winFld .snap n 1 31 24 = fld (s.winStaged .snap n 1) 31 24 ∧ t.winFld .snap n 1 15 0 = fld (s.winStaged .snap n 1) 15 0 ∧
      (∀ w < 10, w ≠ 1 → t.win .snap n w = s.winStaged .snap n w) ∧ (∀ m, m ≠ n → ∀ w < 32, t.win .snap m w = s.win .snap m w) ∧
      Raises s t [(0x7C05, 0xFFFF)] ∧ SameOutside [.wins, .staged, .evr, .qcp, .sent] s t) ∧
    (16 < fld (s.winStaged .snap n 1) 28 24 → ∃ t, exec (.evrSnapCommit p 1) s = .next t ∧ t.replied (refusal .badParameter) ∧
      SameOutside [.qcp, .sent] s t)) ∧
  (∀ (p : Pkt) (x : Session) (s : State), MayWrite s p x EVR.ALARM 16 → ∃ t, exec (.evrFatalAck p 16) s = .next t ∧ t.replied done ∧
    t.evr = { s.evr with alarm := s.evr.alarm &&& ~~~16#32, ackIndex := s.evr.newest } ∧ SameOutside [.evr, .qcp, .sent] s t) ∧
  (∀ (p : Pkt) (x : Session) (s : State), MayWrite s p x EVR.CLEAR 1 → ∃ t, exec (.evrClearAlarms p 1) s = .next t ∧ t.replied done ∧
    t.evr = { s.evr with alarm := 0, ackIndex := s.evr.newest, intakeMax := 0 } ∧ SameOutside [.evr, .qcp, .sent] s t)

/-! ### Firmware update and trust (chapter 16) -/

/-- Loading and applying a component (R464, R466 to R470, R483, Table UP-3): UPD_BEGIN opens the other bank as LOADING and refuses under the lock, a role, the hold-up
bank or a trial; chunks arrive in order; UPD_VERIFY starts the checks of digest, header, vendor signature, epoch and decryption key, whose result leaves
the bank VERIFIED or EMPTY; UPD_APPLY refuses in the order of Table UP-3, with the matrix blocker named, and otherwise stages the bank; MFW and RTK then
restart at the next frame tick; the applied bank runs in TRIAL and the old one is FALLBACK, for BOOT, MFW and RTK from the start that activates it, for the
acquisition component from the next TAI second; an import fills the next settings store. The form in which a package is signed is the model's reading
(notes/assumptions/17.md). -/
def Obligations.ComponentUpdates : Prop :=
  (∀ (p : Pkt) (x : Session) (c : Byte) (size : Word) (d : BitVec 256) (s : State), Admits s p x → 2 ≤ x.role → c.toNat < 6 → size ≠ 0 →
    (s.lockBit 0 = true → ∃ t, exec (.updBegin p c 0 size d) s = .next t ∧ t.replied (refusal .ownerLocked) ∧
      Raises s t [(0x6045, p.session.toNat % 65536)] ∧ SameOutside [.evr, .qcp, .sent] s t) ∧
    (s.lockBit 0 = false → updateRole s = false → ∃ t, exec (.updBegin p c 0 size d) s = .next t ∧ t.replied (refusal .wrongState) ∧
      t.regBit UPD.ALARM 0 = true ∧ SameOutside [.regs, .qcp, .sent] s t ∧ RegsOutside [UPD.REFUSE, UPD.ALARM] s t) ∧
    (s.lockBit 0 = false → updateRole s = true → holdupLow s = true → ∃ t, exec (.updBegin p c 0 size d) s = .next t ∧
      t.replied (refusal .refusedHoldup) ∧ SameOutside [.regs, .qcp, .sent] s t ∧ RegsOutside [UPD.REFUSE, UPD.ALARM] s t) ∧
    (s.lockBit 0 = false → updateRole s = true → holdupLow s = false → otherState s c.toNat ≠ 4 → otherState s c.toNat ≠ 6 →
      componentHandle s c.toNat = none → s.handleCount p.session true < 2 → ∃ t, exec (.updBegin p c 0 size d) s = .next t ∧
      t.replied (doneWith [s.qcp.nextHandle, (size.toNat + 1343) / 1344, 1 - runningBank s c.toNat]) ∧ otherState t c.toNat = 1 ∧
      runningBank t c.toNat = runningBank s c.toNat ∧
      componentState t c.toNat (runningBank s c.toNat) = componentState s c.toNat (runningBank s c.toNat) ∧
      t.qcp.handles = s.qcp.handles ++ [{ id := s.qcp.nextHandle, session := p.session, kind := .component c.toNat, size := size.toNat, digest := d,
                                          chunks := (size.toNat + 1343) / 1344, lastAt := s.tb.up }] ∧
      SameOutside [.regs, .qcp, .sent] s t ∧ RegsOutside [UPD.C_STATE c.toNat] s t)) ∧
  (∀ (p : Pkt) (x : Session) (size : Word) (d : BitVec 256) (s : State), Admits s p x → 2 ≤ x.role → s.lockBit 0 = false → ∃ t,
    exec (.updBegin p 6 0 size d) s = .next t ∧ t.replied (refusal .badParameter) ∧ SameOutside [.qcp, .sent] s t) ∧
  (∀ (p : Pkt) (x : Session) (id index : Word) (data : List Byte) (h : Handle) (k : Nat) (s : State), Admits s p x → 2 ≤ x.role →
    updateHandle s id (requesterOf p) = some (h, k) → h.ahead = [] → index.toNat = h.next → index.toNat + 1 < h.chunks → data.length = 1344 → ∃ t,
    exec (.updChunk p id index data) s = .next t ∧ t.replied (doneWith [h.id, h.next + 1]) ∧ SameOutside [.qcp, .sent] s t) ∧
  (∀ (p : Pkt) (x : Session) (id : Word) (h : Handle) (k : Nat) (s : State), Admits s p x → 2 ≤ x.role →
    updateHandle s id (requesterOf p) = some (h, k) → k ≠ 7 →
    (h.next < h.chunks → ∃ t, exec (.updVerify p id) s = .next t ∧ t.replied (refusal .outOfSequence 0 h.next) ∧ SameOutside [.qcp, .sent] s t) ∧
    (h.chunks ≤ h.next → s.trust.checking = none → ∃ t, exec (.updVerify p id) s = .next t ∧ t.replied accepted ∧ t.trust = { s.trust with
      checking := some { component := k, size := h.size, digest := h.digest, bytes := joinChunks h.stored, by_ := some (requesterOf p) } } ∧
      (∀ y ∈ t.qcp.handles, y.id ≠ h.id) ∧ SameOutside [.trust, .qcp, .sent] s t)) ∧
  (∀ (c : PackageCheck) (r : PackageVerdict) (s : State), s.trust.checking = some c → c.component < 6 →
    (packageRefusal s c r = none → ∃ t, exec (.updVerifyComplete r) s = .next t ∧ t.trust.checking = none ∧ otherState t c.component = 2 ∧
      otherPackage t c.component = packageOf c.bytes ∧ t.reg (UPD.C_VER_OTHER c.component) = (packageOf c.bytes).version ∧
      runningBank t c.component = runningBank s c.component ∧ runningPackage t c.component = runningPackage s c.component ∧
      t.qcp.stats.transfers = s.qcp.stats.transfers + 1 ∧ Notified (s.count fun q => { q with transfers := q.transfers + 1 }) t 0x72 c.by_ done ∧
      (∀ q, c.by_ = some q → q.session ≠ 0 → Raises s t [(0x604A, q.session.toNat % 65536)]) ∧ SameOutside [.regs, .evr, .trust, .qcp, .sent] s t ∧
      RegsOutside [UPD.C_STATE c.component, UPD.C_VER_RUN c.component, UPD.C_VER_OTHER c.component] s t) ∧
    (∀ e, packageRefusal s c r = some e → ∃ t, exec (.updVerifyComplete r) s = .next t ∧ t.trust.checking = none ∧ otherState t c.component = 0 ∧
      otherPackage t c.component = {} ∧ t.reg (UPD.C_VER_OTHER c.component) = 0 ∧ t.regBit UPD.ALARM 0 = true ∧ Notified s t 0x72 c.by_ e ∧
      (e.reason = 0x03 → t.regBit SEC.ALARM 0 = true) ∧ Raises s t (if e.reason = 0x03 then [(0x7F04, 0xFFFF)] else []) ∧
      SameOutside [.regs, .trust, .qcp, .sent, .evr] s t) ∧
    (sm3 c.bytes ≠ c.digest → packageRefusal s c r = some (refusal .badParameter 0x01)) ∧
    (sm3 c.bytes = c.digest → packageHeaderOk s c.bytes c.component c.size = false → packageRefusal s c r = some (refusal .badParameter 0x02)) ∧
    (sm3 c.bytes = c.digest → packageHeaderOk s c.bytes c.component c.size = true →
      packageSigned s c.bytes = false → packageRefusal s c r = some (refusal .notAuthorized 0x03)) ∧
    (sm3 c.bytes = c.digest → packageHeaderOk s c.bytes c.component c.size = true → packageSigned s c.bytes = true →
      (packageOf c.bytes).epoch < epochFloor s c.component → packageRefusal s c r = some (refusal .replayed 0x04)) ∧
    (sm3 c.bytes = c.digest → packageHeaderOk s c.bytes c.component c.size = true → packageSigned s c.bytes = true →
      epochFloor s c.component ≤ (packageOf c.bytes).epoch → (packageOf c.bytes).encrypted = true →
      slotLoaded s (packageOf c.bytes).decryptSlot = false → packageRefusal s c r = some (refusal .notAuthorized 0x05))) ∧
  (∀ (p : Pkt) (x : Session) (c : Byte) (v : Option Word) (s : State), Admits s p x → 2 ≤ x.role → c.toNat < 6 → s.lockBit 0 = false →
    (applyRefusal s c.toNat v = none → ∃ t, exec (.updApply p c v) s = .next t ∧ t.replied accepted ∧ otherState t c.toNat = 3 ∧
      t.trust = { s.trust with applying := some (c.toNat, some (requesterOf p)) } ∧
      t.frame = { s.frame with restartDue := s.frame.restartDue || decide (c.toNat = 1 ∨ c.toNat = 2) } ∧
      t.pair = (s.notePartner c.toNat v).pair ∧ SameOutside [.regs, .frame, .pair, .trust, .qcp, .sent] s t ∧ RegsOutside [UPD.C_STATE c.toNat, UPD.STATUS] s t) ∧
    (∀ r, applyRefusal s c.toNat v = some r → ∃ t, exec (.updApply p c v) s = .next t ∧ t.replied r ∧ t.regBit UPD.ALARM 0 = true ∧
      t.regFld UPD.REFUSE 31 24 = r.status.code ∧ Raises s t [(0x7E04, 0xFFFF)] ∧
      (∀ i j w, r.status = .incompatible → matrixBlocker s c.toNat = some (i, j, w) → t.reg UPD.BLOCK_RANGE = w ∧
        t.reg UPD.BLOCKER = BitVec.ofNat 32 (i * 268435456 + j * 16777216 + (installed s c.toNat j).provided)) ∧
      t.pair = (s.notePartner c.toNat v).pair ∧ SameOutside [.regs, .pair, .evr, .qcp, .sent] s t ∧ RegsOutside [UPD.REFUSE, UPD.ALARM, UPD.BLOCKER, UPD.BLOCK_RANGE] s t)) ∧
  (∀ (k : Nat) (v : Option Word) (s : State),
    (updateRole s = false → applyRefusal s k v = some (refusal .wrongState)) ∧
    (updateRole s = true → holdupLow s = true → applyRefusal s k v = some (refusal .refusedHoldup)) ∧
    (updateRole s = true → holdupLow s = false → k < 6 → otherState s k ≠ 2 → applyRefusal s k v = some (refusal .wrongState)) ∧
    (updateRole s = true → holdupLow s = false → k < 6 → otherState s k = 2 → s.trust.trial.isSome = true →
      applyRefusal s k v = some (refusal .busy))) ∧
  (∀ (cal : CalibrationCheck) (k : Nat) (w : Option Requester) (s : State), s.trust.applying = some (k, w) → k = 3 ∨ k = 4 → ∃ t,
    exec (.updApplyComplete cal) s = .next t ∧ runningBank t k = 1 - runningBank s k ∧ componentState t k (1 - runningBank s k) = 4 ∧
    componentState t k (runningBank s k) = 6 ∧ t.trust = { s.trust with applying := none, trial := some k, trialStarts := 0 } ∧
    t.reg UPD.TRIAL_LEFT = BitVec.ofNat 32 (s.regFld UPD.CTRL 15 0) ∧ Raises s t [(0x7E01, 0xFFFF)] ∧ Notified s t 0x73 w done ∧
    SameOutside [.regs, .evr, .trust, .qcp, .sent] s t ∧
    RegsOutside [UPD.C_STATE k, UPD.C_VER_RUN k, UPD.C_VER_OTHER k, UPD.TRIAL_LEFT, UPD.APPLIES, UPD.LAST_SEC] s t) ∧
  (∀ (cal : CalibrationCheck) (k : Nat) (w : Option Requester) (s : State), s.trust.applying = some (k, w) →
    (k = 5 → ∃ t, exec (.updApplyComplete cal) s = .next t ∧ runningBank t k = 1 - runningBank s k ∧
      componentState t k (1 - runningBank s k) = 4 ∧ componentState t k (runningBank s k) = 6 ∧
      t.trust = { s.trust with applying := none, trial := some k, trialStarts := 0 } ∧ t.tb.now = (secOf s.tb.now + 1) * secUnits ∧
      SameOutside [.regs, .tb, .acq, .evr, .trust, .qcp, .sent, .clock] s t) ∧
    (k < 3 → exec (.updApplyComplete cal) s = .next s)) ∧
  (∀ (values : List (Nat × Word)) (steps : Half) (w : Option Requester) (s : State), s.trust.applying = some (7, w) →
    (∃ t, exec (.settingsImport (some values) steps) s = .next t ∧ t.trust.applying = none ∧ t.regFld UPD.IMPORT_RESULT 31 28 = 2 ∧
      (∃ l, t.trust.nextStore = some l ∧ (∀ n < 8, ∃ e ∈ l, e.1 = AO.CH_CFG n ∧ bit e.2 27 = true) ∧
        ∀ e ∈ values, (∀ n < 8, e.1 ≠ AO.CH_CFG n) → e ∈ l) ∧
      Raises s t [(0x7E06, 0xFFFF)] ∧ Notified s t 0x73 w done ∧ SameOutside [.regs, .evr, .trust, .qcp, .sent] s t ∧
      RegsOutside [UPD.SET_CHAIN, UPD.IMPORT_RESULT] s t) ∧
    (∃ t, exec (.settingsImport none steps) s = .next t ∧ t.trust = { s.trust with applying := none } ∧ t.regFld UPD.IMPORT_RESULT 31 28 = 3 ∧
      Notified s t 0x73 w (refusal .internalFault) ∧ SameOutside [.regs, .trust, .qcp, .sent] s t)) ∧
  (∀ (p : Pkt) (x : Session) (c : Byte) (s : State), Admits s p x → c.toNat < 7 → ∃ t, exec (.updStatus p c) s = .next t ∧ t.replied {
    status := .done,
    fields := [(s.view UPD.STATUS).toNat, (s.view (UPD.C_STATE c.toNat)).toNat, (s.view (UPD.C_VER_RUN c.toNat)).toNat,
      (s.view (UPD.C_VER_OTHER c.toNat)).toNat, (s.view (UPD.C_EPOCH c.toNat)).toNat],
    payload := (s.trust.unmapped.take 256).map (·.toNat) } ∧ SameOutside [.qcp, .sent] s t)

/-- Trials, keys, locks, certificates and epochs (R471, R472, R476 to R478, R480): a trial that ends leaves its bank RUNNING and raises the floor; a cause of
failure that has come about, or a command, reverts to the other bank; a key is enrolled with its proof over the serial identity, revoked with its sessions,
or loaded; the lock is set; a debug certificate is checked, with its signature, and ends; the running epoch is fused, and a fuse never goes back. -/
def Obligations.TrialsAndTrust : Prop :=
  (∀ (k : Nat) (s : State), s.trust.trial = some k → k < 6 → s.reg UPD.TRIAL_LEFT = 0 →
    (runningPackage s k).epoch < 65536 → ∃ t, exec .trialEnd s = .next t ∧
    componentState t k (runningBank s k) = 5 ∧ componentState t k (1 - runningBank s k) = 2 ∧ runningBank t k = runningBank s k ∧
    t.regFld (UPD.C_EPOCH k) 15 0 = max (s.regFld (UPD.C_EPOCH k) 15 0) (runningPackage s k).epoch ∧
    t.regFld (UPD.C_EPOCH k) 31 16 = s.regFld (UPD.C_EPOCH k) 31 16 ∧
    t.trust = { s.trust with trial := none, trialStarts := 0, original := none } ∧ Raises s t [(0x7E02, 0xFFFF)] ∧
    SameOutside [.regs, .evr, .trust] s t ∧ RegsOutside [UPD.C_STATE k, UPD.C_EPOCH k, UPD.TRIAL_LEFT, UPD.SET_VER] s t) ∧
  (∀ (k : Nat) (s : State), s.trust.trial = some k → k < 6 → s.trust.original = none →
    (∀ cause, trialFailed s cause = false → exec (.trialFailureRevert cause) s = .next s) ∧
    (∀ cause, trialFailed s cause = true → ∃ t, exec (.trialFailureRevert cause) s = .next t ∧ runningBank t k = 1 - runningBank s k ∧ componentState t k (runningBank s k) = 2 ∧
      componentState t k (1 - runningBank s k) = 5 ∧ t.regBit UPD.ALARM 1 = true ∧ t.trust = { s.trust with trial := none, trialStarts := 0 } ∧
      t.frame = { s.frame with restartDue := s.frame.restartDue || decide (k ≤ 2) } ∧ Raises s t [(0x7E03, 0xFFFF)] ∧
      SameOutside [.regs, .frame, .evr, .trust] s t ∧
      RegsOutside [UPD.C_STATE k, UPD.C_VER_RUN k, UPD.C_VER_OTHER k, UPD.TRIAL_LEFT, UPD.APPLIES, UPD.LAST_SEC, UPD.ALARM] s t)) ∧
  (∀ (k : Nat) (p : Pkt) (x : Session) (v : Word) (s : State), s.trust.trial = some k → k < 6 → s.trust.original = none →
    MayWrite s p x UPD.REVERT v → ∃ t, exec (.updRevert p v) s = .next t ∧ t.replied done ∧
      runningBank t k = 1 - runningBank s k ∧ componentState t k (runningBank s k) = 2 ∧ t.trust.trial = none ∧ Raises s t [(0x7E03, 0xFFFF)] ∧
      SameOutside [.regs, .frame, .evr, .trust, .qcp, .sent] s t) ∧
  (∀ (cause : TrialFailure) (o : Store) (k : Nat) (s : State), s.trust.trial = some k → k < 6 → s.trust.original = some o →
    trialFailed s cause = true → ∃ t, exec (.trialFailureRevert cause) s = .next t ∧ t.wins = o.wins ∧ t.trust.original = none ∧
    (∀ a, a ∉ [UPD.C_STATE k, UPD.C_VER_RUN k, UPD.C_VER_OTHER k, UPD.TRIAL_LEFT, UPD.APPLIES, UPD.LAST_SEC, UPD.ALARM, UPD.SET_VER] →
      t.reg a = merge (settingMask a) (s.reg a) (sparseGet (regReset a) o.regs a))) ∧
  (∀ (p : Pkt) (x : Session) (slot : Byte) (k : KeyRequest) (s : State), Admits s p x → 3 ≤ x.role → 1 < slot.toNat → slot.toNat ≤ 14 →
    k.role.toNat ≤ 3 → k.usage.toNat ≤ 3 →
    (keyProofOk s k = true → (∀ y ∈ s.qcp.sessions, y.slot ≠ slot.toNat) → ∃ t, exec (.keyEnrol p slot k) s = .next t ∧ t.replied done ∧
      t.reg (SEC.KEY_INFO slot.toNat) = BitVec.ofNat 32 (2147483648 + k.role.toNat * 268435456 + k.usage.toNat * 16777216 +
        min 65535 (s.regFld (SEC.KEY_INFO slot.toNat) 15 0 + 1)) ∧ t.reg (SEC.KEY_ID slot.toNat) = keyIdOf (keyPoint k) ∧
      t.trust = { s.trust with keys := sparseInsert s.trust.keys slot.toNat { ident := k.ident, key := keyPoint k } } ∧ t.regBit SEC.ALARM 2 = true ∧ Raises s t [(0x7F01, 0xFFFF)] ∧
      SameOutside [.regs, .evr, .trust, .qcp, .sent] s t ∧ RegsOutside [SEC.KEY_INFO slot.toNat, SEC.KEY_ID slot.toNat, SEC.ALARM] s t) ∧
    (keyProofOk s k = false → ∃ t, exec (.keyEnrol p slot k) s = .next t ∧ t.replied (refusal .notAuthorized) ∧ t.regBit SEC.ALARM 0 = true ∧
      Raises s t [(0x7F04, 0xFFFF)] ∧ SameOutside [.regs, .evr, .qcp, .sent] s t ∧ RegsOutside [SEC.ALARM] s t)) ∧
  (∀ (p : Pkt) (x : Session) (k : KeyRequest) (s : State), Admits s p x → 3 ≤ x.role → k.role.toNat ≤ 3 → k.usage.toNat ≤ 3 →
    keyProofOk s k = true → ∃ t, exec (.keyEnrol p 1 k) s = .next t ∧ t.reg (SEC.KEY_INFO 15) = 0 ∧ t.reg (SEC.KEY_ID 15) = 0 ∧
    t.publicKey 15 = none ∧ t.publicKey 1 = some { ident := k.ident, key := keyPoint k } ∧
    (∀ y ∈ t.qcp.sessions, y.slot ≠ 1 ∧ y.slot ≠ 15)) ∧
  (∀ (p : Pkt) (x : Session) (slot : Byte) (s : State), Admits s p x → 3 ≤ x.role →
    (1 ≤ slot.toNat → slot.toNat ≤ 14 → ∃ t, exec (.keyRevoke p slot) s = .next t ∧ t.regBit (SEC.KEY_INFO slot.toNat) 30 = true ∧
      (∀ y ∈ t.qcp.sessions, y.slot ≠ slot.toNat) ∧ SameOutside [.regs, .can0, .can1, .evr, .qcp, .sent] s t) ∧
    (slot.toNat = 0 ∨ slot.toNat = 15 → ∃ t, exec (.keyRevoke p slot) s = .next t ∧ t.replied (refusal .badParameter 0 1) ∧
      SameOutside [.qcp, .sent] s t) ∧
    (1 ≤ slot.toNat → slot.toNat ≤ 3 → ∃ t, exec (.keyLoadDecryption p slot none) s = .next t ∧ t.replied (refusal .badParameter) ∧
      SameOutside [.qcp, .sent] s t) ∧
    (∀ key, 1 ≤ slot.toNat → slot.toNat ≤ 3 → ∃ t, exec (.keyLoadDecryption p slot (some key)) s = .next t ∧ t.replied done ∧
      t.trust = { s.trust with decryption := sparseInsert s.trust.decryption slot.toNat key } ∧ t.regBit SEC.STATUS slot.toNat = true ∧
      Raises s t [(0x7F01, 0xFFFF)] ∧ SameOutside [.regs, .evr, .trust, .qcp, .sent] s t ∧ RegsOutside [SEC.STATUS, SEC.ALARM] s t)) ∧
  (∀ (p : Pkt) (x : Session) (mask : Byte) (s : State), Admits s p x → 3 ≤ x.role → mask.toNat ≤ 15 → ∃ t,
    exec (.ownerLock p 0x4F4C mask) s = .next t ∧ t.replied done ∧ (∀ i < 4, t.lockBit i = bit (mask.setWidth 32) i) ∧ t.regBit SEC.ALARM 1 = true ∧
    Raises s t [(0x7F02, 0xFFFF)] ∧ SameOutside [.regs, .evr, .qcp, .sent] s t ∧ RegsOutside [SEC.LOCK, SEC.ALARM] s t) ∧
  (∀ (p : Pkt) (x : Session) (c : List Byte) (s : State), Admits s p x → 3 ≤ x.role → s.lockBit 2 = false →
    (certRefusal s c = none → ∃ t, exec (.debugCert p c) s = .next t ∧ t.replied done ∧
      t.trust = { s.trust with cert := some (certPairs c, certEnd c) } ∧ t.reg SEC.DEBUG_UNTIL = BitVec.ofNat 32 (certEnd c) ∧
      Raises s t [(0x7F03, 0xFFFF)] ∧ SameOutside [.regs, .evr, .trust, .qcp, .sent] s t ∧ RegsOutside [SEC.DEBUG_INFO, SEC.DEBUG_UNTIL] s t) ∧
    (certForm c = true → certSerial c = serialOf s → certEnd c ≤ certBegin c + 604800 →
      s.keyVerifies (ownerSlot s) (BitVec.ofNat 512 (beNat (c.drop 96))) (c.take 96) = true → 2 ≤ s.tb.quality.code → certBegin c ≤ secOf s.tb.now →
      secOf s.tb.now ≤ certEnd c → certRefusal s c = none) ∧
    (certForm c = false ∨ certSerial c ≠ serialOf s ∨ certBegin c + 604800 < certEnd c → ∃ t, exec (.debugCert p c) s = .next t ∧
      t.replied (refusal .badParameter) ∧ SameOutside [.qcp, .sent] s t) ∧
    (certForm c = true → certSerial c = serialOf s → certEnd c ≤ certBegin c + 604800 →
      s.keyVerifies (ownerSlot s) (BitVec.ofNat 512 (beNat (c.drop 96))) (c.take 96) = false → ∃ t, exec (.debugCert p c) s = .next t ∧
      t.replied (refusal .notAuthorized) ∧ t.regBit SEC.ALARM 0 = true ∧ Raises s t [(0x7F04, 0xFFFF)] ∧ SameOutside [.regs, .evr, .qcp, .sent] s t ∧
      RegsOutside [SEC.ALARM] s t) ∧
    (∀ d, s.trust.cert = some d → ∃ t, exec (.debugCertEnd p) s = .next t ∧ t.replied done ∧ t.trust = { s.trust with cert := none } ∧
      t.lock = { s.lock with debugAccess := 0 } ∧ t.mode = s.mode ∧ Raises s t [(0x7F03, 0xFFFF)] ∧
      SameOutside [.regs, .lock, .evr, .trust, .qcp, .sent] s t ∧ RegsOutside [SEC.DEBUG_INFO, SEC.DEBUG_UNTIL] s t)) ∧
  (∀ (a u : Nat) (s : State), s.trust.cert = some (a, u) → ∃ t, exec .debugCertExpiry s = .next t ∧ t.trust = { s.trust with cert := none } ∧
    t.lock = { s.lock with debugAccess := 0 } ∧ t.tb.now = max s.tb.now (u * secUnits) ∧ Raises s t [(0x7F03, 0xFFFF)] ∧
    SameOutside [.regs, .tb, .clock, .lock, .evr, .trust] s t ∧ RegsOutside [SEC.DEBUG_INFO, SEC.DEBUG_UNTIL] s t) ∧
  (∀ (p : Pkt) (x : Session) (v : Word) (s : State), MayWrite s p x SEC.FUSE_CMD v →
    (fld v 10 8 ≤ 6 → s.regFld (UPD.C_EPOCH (fld v 10 8)) 15 0 ≤ fld v 7 0 → ∃ t, exec (.secFuseCmd p v) s = .next t ∧ t.replied done ∧
      t.regFld (UPD.C_EPOCH (fld v 10 8)) 31 16 = max (s.regFld (UPD.C_EPOCH (fld v 10 8)) 31 16) (fld v 7 0) ∧
      t.regFld (UPD.C_EPOCH (fld v 10 8)) 15 0 = s.regFld (UPD.C_EPOCH (fld v 10 8)) 15 0 ∧ Raises s t [(0x7F05, 0xFFFF)] ∧
      SameOutside [.regs, .evr, .qcp, .sent] s t ∧ RegsOutside [UPD.C_EPOCH (fld v 10 8), SEC.ALARM] s t) ∧
    (fld v 7 0 < s.regFld (UPD.C_EPOCH (fld v 10 8)) 15 0 → ∃ t, exec (.secFuseCmd p v) s = .next t ∧
      t.replied (refusal .badParameter) ∧ SameOutside [.qcp, .sent] s t))

/-! ### Power and starts (chapters 17 and 18) -/

/-- A dip of the input below 33.0 V that lasts less than 50 µs, bridged by the hold-up bank, is counted in POWER.BROWNOUTS and has no other effect,
whatever the state (R507). -/
def Obligations.DipsAreOnlyCounted : Prop :=
  ∀ s : State, ∃ t, exec .brownout s = .next t ∧ t.reg POWER.BROWNOUTS = s.reg POWER.BROWNOUTS + 1 ∧ SameOutside [.regs] s t ∧
    RegsOutside [POWER.BROWNOUTS] s t

/-- The supply and the hold-up bank (R491, R506 to R509, R511 to R513, R530): the start delay is 40 ms times the slot code; the bank charges when it
has passed; at 95.0 V all twelve rails come on; the module then leaves reset with the lamp test. Input and rail warnings are shown, counted and reported. A
measurement ends 100 µs after it began, or when the load ended early, and gives the capacitance, the energy and its class. -/
def Obligations.SupplyAndHoldup : Prop :=
  (∀ (slot : BitVec 5) (s : State), ∃ t, exec (.powerApplied slot) s = .next t ∧
    t.reg POWER.START_DELAY = BitVec.ofNat 32 (40 * slot.toNat) ∧ t.power.powered = true ∧
    t.power.supply = (if s.pair.lever then .off else .delay) ∧ SameOutside [.regs, .power] s t ∧ RegsOutside [POWER.START_DELAY] s t) ∧
  (∀ s : State, s.power.supply = .delay → ∃ t, exec .startDelayExpiry s = .next t ∧ t.power = { s.power with supply := .charging } ∧
    t.tb.up = max s.tb.up (s.power.delaySince + (s.reg POWER.START_DELAY).toNat * msUnits) ∧ SameOutside [.tb, .clock, .power] s t) ∧
  (∀ s : State, s.power.supply = .charging → ∃ t, exec .holdupBankCharged s = .next t ∧ t.power = { s.power with supply := .rails } ∧
    t.reg POWER.HU_V = 95000 ∧ (∀ r < 12, t.regBit (POWER.RAIL_STAT r) 31 = true ∧ t.regBit (POWER.RAIL_STAT r) 30 = true) ∧
    (∀ r < 12, t.regBit POWER.STATUS r = true) ∧ t.regBit POWER.STATUS 30 = true ∧ SameOutside [.regs, .power] s t ∧
    RegsOutside ([POWER.STATUS, POWER.HU_V] ++ (List.range 12).map POWER.RAIL_STAT) s t) ∧
  (∀ s : State, s.power.supply = .rails → ∃ t, exec .resetRelease s = .next t ∧
    t.power = { s.power with supply := .running, lamp := true, inserted := false } ∧
    t.reg ID.INSERTIONS = (if s.power.inserted then s.reg ID.INSERTIONS + 1 else s.reg ID.INSERTIONS) ∧
    SameOutside [.regs, .power] s t ∧ RegsOutside [ID.INSERTIONS] s t) ∧
  (∀ s : State, ∃ t, exec .lampTestEnd s = .next t ∧ t.power = { s.power with lamp := false } ∧ SameOutside [.power] s t) ∧
  (∀ (mv : BitVec 17) (s : State), 33000 ≤ mv.toNat → mv.toNat < 36000 → ∃ t, exec (.inputLowWarning mv) s = .next t ∧
    t.reg POWER.IN_V = BitVec.ofNat 32 mv.toNat ∧ t.regBit POWER.STATUS 25 = true ∧ t.regBit POWER.STATUS 24 = false ∧
    t.regBit POWER.ALARM 0 = true ∧ Raises s t [(0x0406, 0xFFFF)] ∧ SameOutside [.regs, .evr] s t ∧
    RegsOutside [POWER.IN_V, POWER.IN_MIN, POWER.IN_MAX, POWER.STATUS, POWER.ALARM] s t) ∧
  (∀ (mv : BitVec 17) (s : State), 60000 < mv.toNat → ∃ t, exec (.inputHighWarning mv) s = .next t ∧
    t.reg POWER.IN_V = BitVec.ofNat 32 mv.toNat ∧ t.regBit POWER.STATUS 24 = true ∧ t.regBit POWER.STATUS 25 = false ∧
    t.regBit POWER.ALARM 1 = true ∧ Raises s t [(0x0406, 0xFFFF)] ∧ SameOutside [.regs, .evr] s t ∧
    RegsOutside [POWER.IN_V, POWER.IN_MIN, POWER.IN_MAX, POWER.STATUS, POWER.ALARM] s t) ∧
  (∀ (r : Fin 12) (s : State), ∃ t, exec (.railFault r) s = .next t ∧ t.regBit POWER.STATUS r.val = false ∧
    t.regBit (POWER.RAIL_STAT r.val) 30 = false ∧ t.reg (POWER.RAIL_FAULTS r.val) = s.reg (POWER.RAIL_FAULTS r.val) + 1 ∧
    t.regBit POWER.ALARM 4 = true ∧ Raises s t [(0x0407, r.val)] ∧ SameOutside [.regs, .evr] s t ∧
    RegsOutside [POWER.STATUS, POWER.RAIL_STAT r.val, POWER.RAIL_FAULTS r.val, POWER.ALARM] s t) ∧
  (∀ s : State, s.regFld ID.ORDER 15 8 = 1 → ∃ t, exec .ovenWarmUpEnd s = .next t ∧ t.regBit POWER.OVEN 31 = true ∧
    SameOutside [.regs] s t ∧ RegsOutside [POWER.OVEN] s t) ∧
  (∀ s : State, s.power.measuring = none → s.power.loss = .none →
    (s.power.measuredAt = none → ∃ t, exec .holdupMeasurementStart s = .next t ∧ t.power = { s.power with measuring := some s.tb.up } ∧
      SameOutside [.power] s t) ∧
    (∀ u, s.power.measuredAt = some u → ∃ t, exec .holdupMeasurementStart s = .next t ∧ t.power = { s.power with measuring := some t.tb.up } ∧
      t.tb.up = max s.tb.up (u + (s.reg POWER.HU_INT).toNat * 3600 * secUnits) ∧ SameOutside [.tb, .clock, .power] s t)) ∧
  (∀ (p : Pkt) (x : Session) (s : State), MayWrite s p x POWER.HU_MEAS 1 → ∃ t, exec (.powerHuMeas p 1) s = .next t ∧ t.replied done ∧
    (s.power.measuring = none → s.power.loss = .none → t.power = { s.power with measuring := some s.tb.up }) ∧
    (s.power.measuring.isSome = true ∨ s.power.loss ≠ .none → t.power = s.power) ∧ SameOutside [.power, .qcp, .sent] s t) ∧
  (∀ (r : HoldupResult) (u : Nat) (s : State), s.power.measuring = some u → r.early = none → 0 < r.drop.toNat → ∃ t,
    exec (.holdupMeasurementEnd r) s = .next t ∧ t.power = { s.power with measuring := none, measuredAt := some t.tb.up } ∧
    t.tb.up = max s.tb.up (u + 100000 * nsUnits) ∧ t.reg POWER.HU_CAP = BitVec.ofNat 32 (5000000 / r.drop.toNat) ∧
    t.regFld POWER.HU_ENERGY 31 16 = min 65535 (5000000 / r.drop.toNat * 10 / 3) ∧ t.regFld POWER.HU_RESULT 15 0 = r.drop.toNat ∧
    t.regFld POWER.HU_RESULT 31 28 = (if 5000000 / r.drop.toNat * 10 / 3 < 3000 then 3 else if 5000000 / r.drop.toNat * 10 / 3 < 8000 then 2 else 1) ∧
    t.regBit POWER.STATUS 29 = decide (5000000 / r.drop.toNat * 10 / 3 < 8000) ∧
    t.regBit POWER.STATUS 28 = decide (5000000 / r.drop.toNat * 10 / 3 < 3000) ∧
    (s.regBit POWER.STATUS 29 = false → 5000000 / r.drop.toNat * 10 / 3 < 8000 → 3000 ≤ 5000000 / r.drop.toNat * 10 / 3 →
      Raises s t [(0x0404, 0xFFFF)] ∧ t.regBit POWER.ALARM 2 = true) ∧
    (8000 ≤ 5000000 / r.drop.toNat * 10 / 3 → t.evr = s.evr) ∧ SameOutside [.regs, .tb, .clock, .evr, .power] s t ∧
    RegsOutside [POWER.HU_CAP, POWER.HU_ENERGY, POWER.HU_RESULT, POWER.STATUS, POWER.ALARM] s t) ∧
  (∀ (r : HoldupResult) (u : Nat) (k : Fin 1000) (s : State), s.power.measuring = some u → r.early = some k → ∃ t,
    exec (.holdupMeasurementEnd r) s = .next t ∧ t.reg POWER.HU_CAP = BitVec.ofNat 32 (k.val / 2) ∧ t.regFld POWER.HU_RESULT 31 28 = 3 ∧
    t.regFld POWER.HU_RESULT 15 0 = 10000 ∧ t.regBit POWER.STATUS 28 = true ∧ SameOutside [.regs, .tb, .clock, .evr, .power] s t)

/-- A power loss and the starts (R10, R23, R121, R189, R235, R332, R455, R506, R514 to R519, R522, R543): detection counts, records its time and abandons a
measurement, a pending handover and a pending switch; at the next frame tick the sessions end and loads are shed, and the yoke is kept only by a SOLO, or by an ACTIVE whose partner does not claim it; the
commit's marker ends the claim, and its record is the last one; at the end the module is in reset, and starts again when the input is back. A start leaves
role INIT, mode STOP, no session, no claim and no staged word; committed records stay; an unretained DRAM is empty after a power-on, and stays over a warm
restart (notes/assumptions/68.md); only a power-on counts as a power cycle. -/
def Obligations.PowerLossAndStarts : Prop :=
  (∀ s : State, s.power.loss = .none →
    (∃ t, exec .powerLossDetected s = .next t ∧ t.power = { s.power with loss := .detected, lossAt := s.tb.up, measuring := none } ∧
      t.reg POWER.PF_COUNT = s.reg POWER.PF_COUNT + 1 ∧ t.reg POWER.PF_LAST_SEC = secWord s.tb.now ∧
      t.reg POWER.PF_LAST_NS = qualityNs s.tb.quality s.tb.now ∧ (s.power.measuring.isSome → t.reg POWER.HU_RESULT = 0x40000000) ∧
      (∀ h, s.pair.handover = some h → h.sharing = false → t.pair.handover = none) ∧
      (∀ w, s.frame.sw = some w → t.frame.sw = none) ∧
      (s.pair.handover = none → s.frame.sw = none → Raises s t [(0x0401, 0xFFFF)] ∧ SameOutside [.regs, .evr, .power] s t) ∧
      SameOutside [.regs, .frame, .pair, .evr, .power, .qcp, .sent] s t) ∧
    (∃ t, exec .overvoltage s = .next t ∧ t.power.loss = .detected ∧ t.power.powered = false ∧ t.regBit POWER.STATUS 24 = true ∧
      t.reg POWER.PF_COUNT = s.reg POWER.PF_COUNT + 1 ∧ SameOutside [.regs, .frame, .pair, .evr, .power, .qcp, .sent] s t)) ∧
  (∀ s : State, s.power.loss = .detected → ∃ t, exec .powerLossTick s = .next t ∧ t.power.loss = .committing ∧ t.qcp.sessions = [] ∧
    (∀ r : Nat, 4 ≤ r → r < 8 → t.reg (POWER.RAIL_STAT r) = 0x20000000 ∧ t.regBit POWER.STATUS r = false) ∧ t.power.lossRole = s.role ∧
    t.power.yokeKept = (decide (s.role = .active) && !s.pair.claimPartner || decide (s.role = .solo)) ∧
    (t.power.yokeKept = false → t.pair.claim = false ∧ t.pair.clamped = true) ∧ (t.power.yokeKept = true → t.pair.claim = s.pair.claim) ∧
    t.tb.now = max s.tb.now (tickAtOrAfter (s.frame.t0 + frameUnits)) ∧
    SameOutside [.regs, .tb, .frame, .pair, .net, .can0, .can1, .evr, .power, .qcp, .clock] s t) ∧
  (∀ (us bytes : Word) (s : State), s.power.loss = .committing → s.regBit LOCK.STATUS 31 = false → ∃ t,
    exec (.retentiveCommitComplete us bytes) s = .next t ∧ t.power.loss = .committed ∧ t.reg POWER.PF_COMMIT_US = us ∧
    t.reg POWER.PF_BYTES = bytes ∧ t.regFld POWER.PF_RESULT 31 28 = 1 ∧ t.pair.claim = false ∧ t.pair.clamped = true ∧
    t.frame = { s.frame with retained := retentiveStore s, retainedTacks := s.frame.tacks } ∧
    (s.evr.records.length < 16384 → ∃ r : EventRecord, t.evr.records = s.evr.records ++ [r] ∧ r.code = 0x0402#16 ∧ r.powerLoss = true) ∧
    t.power.copySec = s.reg LINING.OP_SEC ∧ t.power.copyCycles = s.reg LINING.POWER_CYCLES ∧
    SameOutside [.regs, .tb, .frame, .pair, .evr, .power, .sent, .clock] s t ∧
    RegsOutside [POWER.PF_COMMIT_US, POWER.PF_BYTES, POWER.PF_RESULT, LINING.MIRROR_SEC] s t) ∧
  (∀ (e : LossEnd) (s : State), s.power.loss = .committing ∨ s.power.loss = .committed → ∃ t, exec (.powerLossSequenceEnd e) s = .next t ∧
    t.power.loss = .none ∧ t.power.afterLoss = true ∧ t.power.stale = decide (s.power.loss = .committing) ∧
    t.power.supply = (if e.inputBack then .delay else .off) ∧ t.power.powered = e.inputBack ∧ t.reg POWER.PF_HOLD_US = e.holdMicros ∧
    t.reg POWER.SHED_P = e.draw ∧ t.reg POWER.HU_MIN_V = e.lowest ∧ t.reg POWER.START_DELAY = 0 ∧ t.evr = { s.evr with intake := [] } ∧
    t.pair.claim = false ∧ t.pair.grant = false ∧ SameOutside [.regs, .tb, .pair, .evr, .power, .clock] s t ∧
    RegsOutside [POWER.PF_RESULT, POWER.PF_HOLD_US, POWER.SHED_P, POWER.HU_MIN_V, POWER.START_DELAY] s t) ∧
  (∀ (f : StartFindings) (s : State), ∃ t, exec (.powerOnStart f) s = .next t ∧ t.role = .init ∧ t.mode = .stop ∧ t.qcp.sessions = [] ∧
    t.pair.claim = false ∧ t.pair.grant = false ∧ t.staged = [] ∧ t.tb.up = 0 ∧ t.power.supply = .running ∧ t.power.powered = true ∧
    (f.liningLost = false → t.reg LINING.POWER_CYCLES = s.reg LINING.POWER_CYCLES + 1) ∧
    t.trust.cert = none ∧ t.trust.checking = none ∧ t.lock.cutOff = (s.regBit LOCK.STATUS 31 || s.regBit LOCK.STATUS 28) ∧
    t.frame.retained = s.frame.retained ∧ t.frame.autoRun = s.regBit MODE.CFG 0 ∧
    t.trg.records = s.trg.records.filter (fun r => !r.isOpen) ∧ (∀ c ∈ t.fab.mem, 0xC0000000 ≤ c.1) ∧
    (∀ a, 0xC0000000 ≤ a → memRead t.fab.mem a = memRead s.fab.mem a) ∧ t.sent = s.sent ∧ t.pending = s.pending) ∧
  (∀ (f : StartFindings) (s : State), ∃ t, exec (.warmRestart f) s = .next t ∧ t.role = .init ∧ t.mode = .stop ∧ t.qcp.sessions = [] ∧
    t.pair.claim = false ∧ t.pair.grant = false ∧ t.staged = [] ∧ t.tb.up = 0 ∧
    (f.liningLost = false → t.reg LINING.POWER_CYCLES = s.reg LINING.POWER_CYCLES) ∧
    t.trust.cert = none ∧ t.trust.checking = none ∧ t.lock.cutOff = (s.regBit LOCK.STATUS 31 || s.regBit LOCK.STATUS 28) ∧
    t.frame.retained = (if s.regBit LOCK.STATUS 31 then s.frame.retained else retentiveStore s) ∧ t.frame.autoRun = s.regBit MODE.CFG 0 ∧
    t.trg.records = s.trg.records.filter (fun r => !r.isOpen) ∧ t.fab.mem = s.fab.mem ∧ t.sent = s.sent ∧ t.pending = s.pending) ∧
  (∀ (f : StartFindings) (s : State), s.regBit LOCK.STATUS 31 = true → s.regBit LOCK.CFG 8 = true → lockedOut s = false →
    s.committing = false → ∃ t, exec (.autoRestart f) s = .next t ∧
    exec (.warmRestart f) (s.advanceUp (s.lock.faultAt + 100 * msUnits)) = .next t)

/-- The lining and the front panel (R491, R521, R523 to R527): a cell test shows its voltages and sets or clears the cell's flags; a drawer opened without main
power counts as a change; the first opening of the housing is latched with its RTC time until it is acknowledged; the boot word waits for the next start; the
counters are copied every hour; the RTC is written at a TAI second; locate blinks for the seconds given. That an empty cell is low as well is DEDUCED. -/
def Obligations.LiningAndPanel : Prop :=
  (∀ (cell cap : Half) (s : State), s.power.powered = true → ∃ t, exec (.cellTest cell cap) s = .next t ∧
    t.reg LINING.CELL = BitVec.ofNat 32 (cell.toNat * 65536 + cap.toNat) ∧ t.reg LINING.CELL_TEST_SEC = secWord t.tb.now ∧
    (3400 ≤ cell.toNat → t.regBit LINING.STATUS 28 = false ∧ t.regBit LINING.STATUS 27 = false ∧ t.evr = s.evr) ∧
    (cell.toNat < 3300 → t.regBit LINING.STATUS 28 = true) ∧ (cell.toNat < 3000 → t.regBit LINING.STATUS 27 = true) ∧
    (3300 ≤ cell.toNat → cell.toNat < 3400 → t.reg LINING.STATUS = s.reg LINING.STATUS ∧ t.evr = s.evr) ∧
    (3000 ≤ cell.toNat → cell.toNat < 3300 → s.regBit LINING.STATUS 28 = false → t.regBit LINING.ALARM 0 = true ∧ Raises s t [(0x0501, 0xFFFF)]) ∧
    (s.power.cellAt = none → t.tb = s.tb) ∧ (∀ u, s.power.cellAt = some u → t.tb.up = max s.tb.up (u + 86400 * secUnits)) ∧
    t.power = { s.power with cellAt := some t.tb.up } ∧ SameOutside [.regs, .tb, .evr, .power, .clock] s t ∧
    RegsOutside [LINING.CELL, LINING.CELL_TEST_SEC, LINING.STATUS, LINING.ALARM] s t) ∧
  (∀ (cell cap : Half) (s : State), s.power.powered = true → ∃ t, exec (.drawerClosed cell cap) s = .next t ∧ t.regBit ID.STATUS 30 = true ∧
    t.reg LINING.CELL = BitVec.ofNat 32 (cell.toNat * 65536 + cap.toNat) ∧ t.reg LINING.CELL_TEST_SEC = secWord t.tb.now ∧
    (3400 ≤ cell.toNat → t.regBit LINING.STATUS 28 = false ∧ t.regBit LINING.STATUS 27 = false ∧ t.evr = s.evr) ∧
    (cell.toNat < 3300 → t.regBit LINING.STATUS 28 = true) ∧ (cell.toNat < 3000 → t.regBit LINING.STATUS 27 = true) ∧
    (3300 ≤ cell.toNat → cell.toNat < 3400 → t.reg LINING.STATUS = s.reg LINING.STATUS ∧ t.evr = s.evr) ∧
    (3000 ≤ cell.toNat → cell.toNat < 3300 → s.regBit LINING.STATUS 28 = false → t.regBit LINING.ALARM 0 = true ∧ Raises s t [(0x0501, 0xFFFF)]) ∧
    SameOutside [.regs, .evr] s t ∧ RegsOutside [LINING.CELL, LINING.CELL_TEST_SEC, LINING.STATUS, LINING.ALARM, ID.STATUS] s t) ∧
  (∀ (cell cap : Half) (s : State), s.power.powered = false → exec (.cellTest cell cap) s = .next s ∧
    ∃ t, exec (.drawerClosed cell cap) s = .next t ∧ t.regBit ID.STATUS 30 = true ∧ SameOutside [.regs] s t ∧ RegsOutside [ID.STATUS] s t) ∧
  (∀ s : State, ∃ t, exec .drawerOpened s = .next t ∧ t.regBit ID.STATUS 30 = false ∧
    t.reg LINING.CELL_CHANGES = (if s.power.powered then s.reg LINING.CELL_CHANGES else s.reg LINING.CELL_CHANGES + 1) ∧ SameOutside [.regs] s t ∧
    RegsOutside [ID.STATUS, LINING.CELL_CHANGES] s t) ∧
  (∀ s : State,
    (s.regBit LINING.TAMPER 30 = false → ∃ t, exec .tamperOpening s = .next t ∧ t.regBit LINING.TAMPER 30 = true ∧
      t.reg LINING.TAMPER_SEC = BitVec.ofNat 32 (rtcNow s / 32768) ∧ t.power.tamperOpen = true ∧
      t.regFld LINING.TAMPER 15 0 = min 65535 (s.regFld LINING.TAMPER 15 0 + 1) ∧
      (s.power.supply = .running → t.regBit LINING.ALARM 2 = true ∧ Raises s t [(0x0503, 0xFFFF)]) ∧
      (s.power.supply ≠ .running → t.power.tamperDue = true ∧ t.evr = s.evr) ∧ SameOutside [.regs, .evr, .power] s t) ∧
    (s.regBit LINING.TAMPER 30 = true → ∃ t, exec .tamperOpening s = .next t ∧ t.reg LINING.TAMPER_SEC = s.reg LINING.TAMPER_SEC ∧
      t.regFld LINING.TAMPER 15 0 = min 65535 (s.regFld LINING.TAMPER 15 0 + 1) ∧ SameOutside [.regs, .evr, .power] s t ∧
      RegsOutside [LINING.TAMPER, LINING.ALARM] s t)) ∧
  (∀ (p : Pkt) (x : Session) (v : Word) (s : State), MayWrite s p x LINING.TAMPER_ACK v → ∃ t, exec (.liningTamperAck p v) s = .next t ∧ t.replied done ∧
    t.regBit LINING.TAMPER 30 = false ∧ t.regFld LINING.TAMPER 15 0 = s.regFld LINING.TAMPER 15 0 ∧ SameOutside [.regs, .qcp, .sent] s t ∧
    RegsOutside [LINING.TAMPER] s t) ∧
  (∀ (p : Pkt) (x : Session) (v : Word) (s : State), MayWrite s p x LINING.BOOT_CFG v → ∃ t, exec (.liningBootCfg p v) s = .next t ∧ t.replied done ∧
    t.regFld LINING.BOOT_CFG 15 0 = fld v 15 0 ∧ t.reg LINING.BOOT_CFG_NOW = s.reg LINING.BOOT_CFG_NOW ∧ Raises s t [(0x0505, 0xFFFF)] ∧
    SameOutside [.regs, .evr, .qcp, .sent] s t ∧ RegsOutside [LINING.BOOT_CFG] s t) ∧
  (∀ s : State, ∃ t, exec .liningMirror s = .next t ∧ t.power.copySec = s.reg LINING.OP_SEC ∧ t.power.copyCycles = s.reg LINING.POWER_CYCLES ∧
    t.power.copyBoot = BitVec.ofNat 16 (s.regFld LINING.BOOT_CFG 15 0) ∧ t.power.copyAt = t.tb.up ∧
    t.tb.up = max s.tb.up (s.power.copyAt + 3600 * secUnits) ∧ t.reg LINING.MIRROR_SEC = secWord t.tb.now ∧
    SameOutside [.regs, .tb, .clock, .power] s t ∧ RegsOutside [LINING.MIRROR_SEC] s t) ∧
  (∀ s : State, s.tb.quality ≠ .unset → ∃ t, exec .rtcWrite s = .next t ∧ t.tb.now % secUnits = 0 ∧ s.tb.now ≤ t.tb.now ∧
    t.reg LINING.RTC_SEC_LO = secWord t.tb.now ∧ t.reg LINING.RTC_SEC_HI = BitVec.ofNat 32 (secOf t.tb.now / 4294967296 % 65536) ∧
    t.reg LINING.RTC_SUB = 0 ∧ t.regBit LINING.STATUS 31 = true ∧ t.power = { s.power with rtcAt := t.tb.up } ∧
    SameOutside [.regs, .tb, .clock, .power] s t ∧ RegsOutside [LINING.RTC_SEC_HI, LINING.RTC_SEC_LO, LINING.RTC_SUB, LINING.STATUS] s t) ∧
  (∀ (p : Pkt) (x : Session) (v : Word) (s : State), MayWrite s p x ID.LOCATE v → v.toNat ≤ 3600 →
    (v ≠ 0 → ∃ t, exec (.idLocate p v) s = .next t ∧ t.replied done ∧ t.power = { s.power with locateEnd := s.tb.up + v.toNat * secUnits } ∧
      Raises s t [(0x0004, 0xFFFF)] ∧ SameOutside [.evr, .power, .qcp, .sent] s t) ∧
    (v = 0 → ∃ t, exec (.idLocate p v) s = .next t ∧ t.replied done ∧ t.power = { s.power with locateEnd := 0 } ∧
      SameOutside [.power, .qcp, .sent] s t)) ∧
  (∀ s : State, ∃ t, exec .locateEnd s = .next t ∧ t.power = { s.power with locateEnd := 0 } ∧ t.tb.up = max s.tb.up s.power.locateEnd ∧
    SameOutside [.tb, .clock, .power] s t)

/-! ### The CLEAR registers (the register maps of every chapter) -/

/-- What a write of 1 to a CLEAR register zeroes (Tables FX-18, FX-20, TB-14, TB-15, LS-5, AQ-14, AQ-16, TG-12, TG-17, LE-10, NW-6, NW-9, DI-8, AO-10, AO-13,
CN-5, FB-7, FB-10, FB-11, UP-6, PR-13 and PW-9): the registers that its table names, and nothing else of the module's state. ACQ.CLEAR also zeroes the lost-sample counts
of the subscriptions, TDC.CLEAR the count of the selected input, COLLAR.CLEAR the fault field of every COLLAR.STAT, and PAIR.CLEAR leaves a lane's state
bits; that PTP.COUNT[15] needs Engineer authority and that TDC.CLEAR acts on the selected input only are the model's readings. -/
def Obligations.ClearsZero : Prop :=
  (∀ (p : Pkt) (x : Session) (s : State), MayWrite s p x POWER.CLEAR 1 → ∃ t, exec (.powerClear p 1) s = .next t ∧ Zeroed s t ([POWER.IN_MIN,
    POWER.IN_MAX, POWER.BROWNOUTS, POWER.INRUSH_PEAK] ++ (List.range 12).map POWER.RAIL_P_MAX)) ∧
  (∀ (p : Pkt) (x : Session) (s : State), MayWrite s p x FRAME.CLEAR 1 → ∃ t, exec (.frameClearStats p 1) s = .next t ∧ Zeroed s t
    ([FRAME.SEAM_END_MAX, FRAME.UNAGREED_COUNT, FRAME.COMPUTE_END_MAX 0, FRAME.COMPUTE_END_MAX 1] ++ (List.range 32).map fun i => 0x2020 + i)) ∧
  (∀ (p : Pkt) (x : Session) (s : State), MayWrite s p x FRAME.CLEAR 2 → ∃ t, exec (.frameClearTaskStats p 2) s = .next t ∧ Zeroed s t ((List.range
    16).flatMap fun t => [TASK.LAST t, TASK.MAX t, TASK.RESP_MAX t, TASK.RELEASES t, TASK.FAULTS t])) ∧
  (∀ (p : Pkt) (x : Session) (s : State), MayWrite s p x FRAME.TACK_CLEAR 1 → ∃ t, exec (.frameTackClear p 1) s = .next t ∧ Zeroed s t
    [FRAME.TACK_EXECUTED, FRAME.TACK_LATE, FRAME.TACK_REFUSED, FRAME.TACK_DISCARDED, FRAME.TACK_MAX_LAG, FRAME.TACK_CONFLICTS, FRAME.TACK_CANCELLED,
    FRAME.TACK_LAST_LATE_ID, FRAME.TACK_LAST_LATE_NS]) ∧
  (∀ (p : Pkt) (x : Session) (s : State), MayWrite s p x IMG.CLEAR 1 → ∃ t, exec (.imgClear p 1) s = .next t ∧ Zeroed s t [IMG.LOAD_COUNT,
    IMG.REFUSE_COUNT, IMG.SWITCH_COUNT]) ∧
  (∀ (p : Pkt) (x : Session) (n : Fin 3) (s : State), MayWrite s p x (TREF.REF_CLEAR n.val) 1 → ∃ t, exec (.trefRefClear p n 1) s = .next t ∧ Zeroed
    s t [TREF.REF_VALID n.val, TREF.REF_INVALID n.val, TREF.REF_JUMPS n.val, TREF.REF_MAX_OFS n.val, TREF.REF_RMS_OFS n.val]) ∧
  (∀ (p : Pkt) (x : Session) (n : Fin 5) (s : State), MayWrite s p x (PTP.PORT_CLEAR n.val) 1 → ∃ t, exec (.ptpPortClear p n 1) s = .next t ∧ Zeroed
    s t ((List.range 8).map fun i => PTP.PORT_CLEAR n.val - 8 + i)) ∧
  (∀ (p : Pkt) (x : Session) (s : State), MayWrite s p x (PTP.COUNT 15) 1 → ∃ t, exec (.ptpCountClear p 1) s = .next t ∧ Zeroed s t ((List.range
    15).map PTP.COUNT)) ∧
  (∀ (p : Pkt) (x : Session) (s : State), MayWrite s p x LOCK.CLEAR 1 → ∃ t, exec (.lockClearStats p 1) s = .next t ∧ Zeroed s t ((List.range
    16).map fun i => 0x0330 + i)) ∧
  (∀ (p : Pkt) (x : Session) (n : Fin 8) (s : State), MayWrite s p x (ACH.CLEAR n.val) 1 → ∃ t, exec (.achClear p n 1) s = .next t ∧ Zeroed s t
    [ACH.OVR_COUNT n.val, ACH.TWE_LOST n.val]) ∧
  (∀ (p : Pkt) (x : Session) (s : State), MayWrite s p x TRG.CLEAR 1 → ∃ t, exec (.trgClear p 1) s = .next t ∧ Zeroed s t [TRG.FIRE_COUNT,
    TRG.REC_LOST]) ∧
  (∀ (p : Pkt) (x : Session) (s : State), MayWrite s p x LOOP.CLEAR 1 → ∃ t, exec (.loopClear p 1) s = .next t ∧ Zeroed s t ([LOOP.EVAL_END_MAX,
    LOOP.EVALS, LOOP.IN_FAULTS, LOOP.STATE_FAULTS, LOOP.SAT_EVALS] ++ (List.range 4).map LOOP.LANE_END)) ∧
  (∀ (p : Pkt) (x : Session) (s : State), MayWrite s p x NET.CLEAR 1 → ∃ t, exec (.netClear p 1) s = .next t ∧ Zeroed s t ([NET.ST_REFUSED,
    NET.QSP_LATE] ++ (List.range 5).flatMap fun p => [NET.RX_FRAMES p, NET.TX_FRAMES p, NET.RX_ERRORS p, NET.RX_DISCARD p])) ∧
  (∀ (p : Pkt) (x : Session) (s : State), MayWrite s p x PRP.CLEAR 1 → ∃ t, exec (.prpClear p 1) s = .next t ∧ Zeroed s t (PRP.TAG_ERRORS ::
    (List.range 2).flatMap fun n => (List.range 23).map fun i => PRP.NET_STATUS n + 1 + i)) ∧
  (∀ (p : Pkt) (x : Session) (s : State), MayWrite s p x DIO.CLEAR 256 → ∃ t, exec (.dioClearCounters p 256) s = .next t ∧ Zeroed s t (DIO.COS_COUNT
    :: DIO.GLITCH_COUNT :: (List.range 32).map DIO.CH_COUNT)) ∧
  (∀ (p : Pkt) (x : Session) (s : State), MayWrite s p x AO.CLEAR 1 → ∃ t, exec (.aoClear p 1) s = .next t ∧ Zeroed s t (AO.SHARE_ERR_MAX ::
    AO.HOLD_DROOP_MAX :: AO.HANDOVERS :: AO.GAPS :: (List.range 8).map AO.COUNT)) ∧
  (∀ (p : Pkt) (x : Session) (s : State), MayWrite s p x HART.CLEAR 1 → ∃ t, exec (.hartClear p 1) s = .next t ∧ Zeroed s t ((List.range 8).map
    HART.CH_COUNT)) ∧
  (∀ (p : Pkt) (x : Session) (ch : Fin 2) (s : State), MayWrite s p x (CAN.CLEAR ch.val) 1 → ∃ t, exec (.canClear p ch 1) s = .next t ∧ Zeroed s t
    ([CAN.RX_COUNT ch.val, CAN.TX_COUNT ch.val, CAN.UNMATCHED ch.val, CAN.OVERRUN ch.val] ++ (List.range 6).map (CAN.ERR_COUNT ch.val) ++
    [CAN.DATA_ERRORS ch.val, CAN.PASSIVE_COUNT ch.val, CAN.TX_REPLACED ch.val, CAN.LOCK_TIMEOUTS ch.val])) ∧
  (∀ (p : Pkt) (x : Session) (s : State), MayWrite s p x DMA.CLEAR 1 → ∃ t, exec (.dmaClear p 1) s = .next t ∧ Zeroed s t (DMA.KBYTES :: (List.range
    16).map DMA.CH_KB)) ∧
  (∀ (p : Pkt) (x : Session) (s : State), MayWrite s p x CUFF.CLEAR 1 → ∃ t, exec (.cuffClear p 1) s = .next t ∧ Zeroed s t ([CUFF.LAT_MAX_OUT,
    CUFF.LAT_MAX_IN, CUFF.FILL_MAX, CUFF.TRANSFERS] ++ (List.range 12).map CUFF.COUNT)) ∧
  (∀ (p : Pkt) (x : Session) (s : State), MayWrite s p x UPD.CLEAR 1 → ∃ t, exec (.updClear p 1) s = .next t ∧ Zeroed s t [UPD.REFUSE, UPD.BLOCKER,
    UPD.BLOCK_RANGE]) ∧
  (∀ (p : Pkt) (x : Session) (s : State), MayWrite s p x ACQ.CLEAR 1 → ∃ t, exec (.acqClear p 1) s = .next t ∧ t.replied done ∧
    t.reg ACQ.SV_RX_COUNT = 0 ∧ t.reg ACQ.SV_ERR_COUNT = 0 ∧ (∀ k < 64, t.win .sv k 13 = s.win .sv k 13 &&& 0xFF000000#32) ∧
    (∀ k < 64, ∀ w < 13, t.win .sv k w = s.win .sv k w) ∧ SameOutside [.regs, .wins, .qcp, .sent] s t ∧
    RegsOutside [ACQ.SV_RX_COUNT, ACQ.SV_ERR_COUNT] s t) ∧
  (∀ (p : Pkt) (x : Session) (s : State), MayWrite s p x TDC.CLEAR 1 → ∃ t, exec (.tdcClear p 1) s = .next t ∧ t.replied done ∧
    t.reg TDC.EVENTS = 0 ∧ t.reg TDC.LOST = 0 ∧ (∀ k < 6, t.reg (TDC.GRP_COUNT k) = 0) ∧
    t.trg = { s.trg with inputs := sparseUpd {} s.trg.inputs (s.regFld TDC.IN_SEL 5 0) fun i => { i with count := 0 } } ∧
    SameOutside [.regs, .trg, .qcp, .sent] s t ∧ RegsOutside ([TDC.EVENTS, TDC.LOST] ++ (List.range 6).map TDC.GRP_COUNT) s t) ∧
  (∀ (p : Pkt) (x : Session) (s : State), MayWrite s p x COLLAR.CLEAR 1 → ∃ t, exec (.collarClear p 1) s = .next t ∧ t.replied done ∧
    t.reg COLLAR.FAULTS = 0 ∧ t.reg COLLAR.CONFLICT_COUNT = 0 ∧ t.reg COLLAR.DEFAULT_USES = 0 ∧ t.reg COLLAR.FENCE_MAX = 0 ∧
    (∀ n < 24, t.regFld (COLLAR.STAT n) 15 0 = 0 ∧ t.regFld (COLLAR.STAT n) 31 16 = s.regFld (COLLAR.STAT n) 31 16) ∧
    SameOutside [.regs, .qcp, .sent] s t ∧ RegsOutside ([COLLAR.FAULTS, COLLAR.CONFLICT_COUNT, COLLAR.DEFAULT_USES, COLLAR.FENCE_MAX] ++
      (List.range 24).map COLLAR.STAT) s t) ∧
  (∀ (p : Pkt) (x : Session) (s : State), MayWrite s p x PAIR.CLEAR 1 → ∃ t, exec (.pairClear p 1) s = .next t ∧ t.replied done ∧
    (∀ a ∈ [PAIR.TANDEM_MISSES, PAIR.PULSE_MISSES, PAIR.DEGRADED_COUNT, PAIR.SEAM_LATE, PAIR.SEAM_DIFF, PAIR.RX_COPIED, PAIR.RX_CONFLICT,
      PAIR.MIRROR_MAX, PAIR.MIRROR_OVF], t.reg a = 0) ∧
    (∀ l < 2, t.reg (PAIR.LANE0 l) = s.reg (PAIR.LANE0 l) &&& 0xC0000000#32) ∧ t.pair = s.pair ∧ SameOutside [.regs, .qcp, .sent] s t) ∧
  (∀ a ∈ [POWER.CLEAR, FRAME.CLEAR, FRAME.TACK_CLEAR, IMG.CLEAR, LOCK.CLEAR, TRG.CLEAR, LOOP.CLEAR, NET.CLEAR, PRP.CLEAR, DIO.CLEAR, AO.CLEAR, HART.CLEAR,
    DMA.CLEAR, CUFF.CLEAR, UPD.CLEAR] ++ (List.range 3).map TREF.REF_CLEAR ++ (List.range 5).map PTP.PORT_CLEAR ++ (List.range 8).map ACH.CLEAR ++
    (List.range 2).map CAN.CLEAR, (regRow a).map (·.auth) = some 1) ∧
  (regRow (PTP.COUNT 15)).map (·.auth) = some 2
end

