-- ==== Sys2Proof/Laws/Bits.lean ====
section
/-!
SUPPORT. Bit fields of a word: what a bit or a field reads as after a bit or a field was set.
-/

namespace Sys2Proof.Machine

variable (w m : Word) (i j hi lo v : Nat) (b : Bool)

@[simp] theorem bit_or : bit (w ||| m) i = (bit w i || bit m i) := by simp [bit]

@[simp] theorem bit_and : bit (w &&& m) i = (bit w i && bit m i) := by simp [bit]

theorem bit_not (h : i < 32) : bit (~~~w) i = !bit w i := by simp [bit, h]

theorem bit_ofNat : bit (BitVec.ofNat 32 v) i = (decide (i < 32) && v.testBit i) := by simp [bit, BitVec.getLsbD_ofNat]

theorem bit_maskOf (h : hi < 32) : bit (maskOf hi lo) i = decide (lo ≤ i ∧ i ≤ hi) := by
  unfold maskOf
  rw [bit_ofNat, Nat.testBit_mul_two_pow, Nat.testBit_two_pow_sub_one]
  by_cases h1 : lo ≤ i <;> by_cases h2 : i ≤ hi <;> simp [h1, h2] <;> omega

@[simp] theorem bit_putBit_self (h : i < 32) : bit (putBit w i b) i = b := by
  unfold putBit
  cases b
  · rw [if_neg (by decide), bit_and, bit_not _ _ h, bit_ofNat, Nat.testBit_two_pow_self]
    simp [h]
  · rw [if_pos rfl, bit_or, bit_ofNat, Nat.testBit_two_pow_self]
    simp [h]

theorem bit_ge (h : 32 ≤ i) : bit w i = false := BitVec.getLsbD_of_ge _ _ h

theorem bit_putBit_ne (h : j ≠ i) : bit (putBit w i b) j = bit w j := by
  by_cases hj : j < 32
  · unfold putBit
    cases b
    · rw [if_neg (by decide), bit_and, bit_not _ _ hj, bit_ofNat, Nat.testBit_two_pow_of_ne (Ne.symm h)]
      simp
    · rw [if_pos rfl, bit_or, bit_ofNat, Nat.testBit_two_pow_of_ne (Ne.symm h)]
      simp
  · rw [bit_ge _ _ (Nat.le_of_not_lt hj), bit_ge _ _ (Nat.le_of_not_lt hj)]

/-- A bit of a word with a field set. -/
theorem bit_putFld (h : hi < 32) (hj : j < 32) :
    bit (putFld w hi lo v) j = if lo ≤ j ∧ j ≤ hi then v.testBit (j - lo) else bit w j := by
  unfold putFld merge
  rw [bit_or, bit_and, bit_and, bit_not _ _ hj, bit_maskOf _ _ _ h, bit_ofNat, Nat.testBit_mul_two_pow]
  by_cases h1 : lo ≤ j <;> by_cases h2 : j ≤ hi <;> simp [h1, h2, hj]

/-- A bit of a field. -/
theorem testBit_fld : (fld w hi lo).testBit j = (decide (j < hi + 1 - lo) && bit w (lo + j)) := by
  unfold fld bit
  rw [Nat.testBit_mod_two_pow, Nat.testBit_div_two_pow, BitVec.getLsbD, Nat.add_comm j lo]

@[simp] theorem fld_putFld_self (h : hi < 32) (hl : lo ≤ hi) : fld (putFld w hi lo v) hi lo = v % 2 ^ (hi + 1 - lo) := by
  refine Nat.eq_of_testBit_eq fun j => ?_
  rw [testBit_fld, Nat.testBit_mod_two_pow]
  by_cases hj : j < hi + 1 - lo
  · rw [bit_putFld _ _ _ _ _ h (by omega)]
    have h2 : lo + j ≤ hi := by omega
    simp [hj, h2]
  · simp [hj]

/-- A field that does not overlap the one that was set. -/
theorem fld_putFld_ne (hi' lo' : Nat) (h : hi < 32) (h' : hi' < 32) (hd : hi' < lo ∨ hi < lo') :
    fld (putFld w hi lo v) hi' lo' = fld w hi' lo' := by
  refine Nat.eq_of_testBit_eq fun j => ?_
  rw [testBit_fld, testBit_fld]
  by_cases hj : j < hi' + 1 - lo'
  · rw [bit_putFld _ _ _ _ _ h (by omega), if_neg (by omega)]
  · simp [hj]

theorem fld_putBit_ne (hi' lo' : Nat) (hd : i < lo' ∨ hi' < i) : fld (putBit w i b) hi' lo' = fld w hi' lo' := by
  refine Nat.eq_of_testBit_eq fun j => ?_
  rw [testBit_fld, testBit_fld]
  by_cases hj : j < hi' + 1 - lo'
  · rw [bit_putBit_ne _ _ _ _ (by omega)]
  · simp [hj]

theorem fld_lt : fld w hi lo < 2 ^ (hi + 1 - lo) := Nat.mod_lt _ (Nat.two_pow_pos _)

end Sys2Proof.Machine
end

