-- ==== Sys2Proof/Laws/Sparse.lean ====
section
/-!
SUPPORT. The laws of sparse stores: a read after a write, and that every operation keeps the canonical form.
-/

namespace Sys2Proof.Machine

/-! ### Read after write -/

theorem sparseFind_erase_self {β : Type} (m : List (Nat × β)) (k : Nat) : sparseFind (sparseErase m k) k = none := by
  induction m with
  | nil => rfl
  | cons e rest ih =>
    obtain ⟨k', v⟩ := e
    by_cases h : k' = k <;> simp [sparseErase, sparseFind, h, ih]

theorem sparseFind_erase_ne {β : Type} (m : List (Nat × β)) (k j : Nat) (h : j ≠ k) :
    sparseFind (sparseErase m k) j = sparseFind m j := by
  induction m with
  | nil => rfl
  | cons e rest ih =>
    obtain ⟨k', v⟩ := e
    by_cases h1 : k' = k
    · subst h1
      simp [sparseErase, sparseFind, Ne.symm h, ih]
    · simp [sparseErase, sparseFind, h1, ih]

theorem sparseFind_insert_self {β : Type} (m : List (Nat × β)) (k : Nat) (v : β) : sparseFind (sparseInsert m k v) k = some v := by
  induction m with
  | nil => simp [sparseInsert, sparseFind]
  | cons e rest ih =>
    obtain ⟨k', v'⟩ := e
    unfold sparseInsert
    split
    · simp [sparseFind]
    · split
      · simp [sparseFind]
      · have : ¬ k' = k := fun h => by omega
        simp [sparseFind, this, ih]

theorem sparseFind_insert_ne {β : Type} (m : List (Nat × β)) (k j : Nat) (v : β) (h : j ≠ k) :
    sparseFind (sparseInsert m k v) j = sparseFind m j := by
  induction m with
  | nil => simp [sparseInsert, sparseFind, Ne.symm h]
  | cons e rest ih =>
    obtain ⟨k', v'⟩ := e
    unfold sparseInsert
    split
    · simp [sparseFind, Ne.symm h]
    · split
      · subst_vars
        simp [sparseFind, Ne.symm h]
      · simp [sparseFind, ih]

/-- A read after a write of the same key gives the value written. -/
theorem sparseGet_set_self {β : Type} [DecidableEq β] (d : β) (m : List (Nat × β)) (k : Nat) (v : β) :
    sparseGet d (sparseSet d m k v) k = v := by
  unfold sparseGet sparseSet
  split
  · simp [sparseFind_erase_self, *]
  · simp [sparseFind_insert_self]

/-- A write leaves every other key alone, whatever the keys read as when unlisted. -/
theorem sparseGet_set_ne {β : Type} [DecidableEq β] (d e : β) (m : List (Nat × β)) (k j : Nat) (v : β) (h : j ≠ k) :
    sparseGet e (sparseSet d m k v) j = sparseGet e m j := by
  unfold sparseGet sparseSet
  split
  · simp [sparseFind_erase_ne _ _ _ h]
  · simp [sparseFind_insert_ne _ _ _ _ h]

/-! ### The canonical form -/

/-- A lower bound may be lowered, or dropped. -/
theorem sparseWfFrom_weaken {β : Type} [DecidableEq β] (d : Nat → β) (m : List (Nat × β)) (lo lo' : Option Nat)
    (hlo : ∀ l' ∈ lo', ∃ l ∈ lo, l' ≤ l) (h : sparseWfFrom d lo m = true) : sparseWfFrom d lo' m = true := by
  cases m with
  | nil => rfl
  | cons e rest =>
    obtain ⟨k, v⟩ := e
    cases lo' with
    | none => cases lo <;> simp_all [sparseWfFrom]
    | some l' =>
      obtain ⟨l, hl, hle⟩ := hlo l' rfl
      cases hl
      simp [sparseWfFrom] at h ⊢
      exact ⟨⟨by omega, h.1.2⟩, h.2⟩

theorem sparseWfFrom_erase {β : Type} [DecidableEq β] (d : Nat → β) (m : List (Nat × β)) (lo : Option Nat) (k : Nat)
    (h : sparseWfFrom d lo m = true) : sparseWfFrom d lo (sparseErase m k) = true := by
  induction m generalizing lo with
  | nil => rfl
  | cons e rest ih =>
    obtain ⟨k', v⟩ := e
    unfold sparseErase
    split
    · refine ih lo (sparseWfFrom_weaken d rest (some k') lo ?_ ?_)
      · intro l hl
        cases hl
        simp [sparseWfFrom] at h
        exact ⟨k', rfl, by omega⟩
      · simp [sparseWfFrom] at h
        exact h.2
    · simp [sparseWfFrom] at h ⊢
      exact ⟨h.1, ih _ h.2⟩

theorem sparseWfFrom_insert {β : Type} [DecidableEq β] (d : Nat → β) (m : List (Nat × β)) (lo : Option Nat) (k : Nat) (v : β)
    (hk : ∀ l ∈ lo, l < k) (hv : v ≠ d k) (h : sparseWfFrom d lo m = true) : sparseWfFrom d lo (sparseInsert m k v) = true := by
  induction m generalizing lo with
  | nil => cases lo <;> simp_all [sparseInsert, sparseWfFrom]
  | cons e rest ih =>
    obtain ⟨k', v'⟩ := e
    unfold sparseInsert
    split
    · cases lo <;> simp_all [sparseWfFrom]
    · split
      · subst_vars
        cases lo <;> simp_all [sparseWfFrom]
      · have hlt : k' < k := by omega
        simp [sparseWfFrom] at h ⊢
        exact ⟨h.1, ih (some k') (by simpa using hlt) h.2⟩

/-- A write keeps the canonical form. -/
theorem sparseWf_set {β : Type} [DecidableEq β] (d : Nat → β) (m : List (Nat × β)) (k : Nat) (v : β) (h : sparseWf d m = true) :
    sparseWf d (sparseSet (d k) m k v) = true := by
  unfold sparseSet sparseWf
  split
  · exact sparseWfFrom_erase d m none k h
  · exact sparseWfFrom_insert d m none k v (by simp) (by assumption) h

/-- Leaving entries out keeps the canonical form. -/
theorem sparseWf_filter {β : Type} [DecidableEq β] (d : Nat → β) (m : List (Nat × β)) (p : Nat × β → Bool) (lo : Option Nat)
    (h : sparseWfFrom d lo m = true) : sparseWfFrom d lo (m.filter p) = true := by
  induction m generalizing lo with
  | nil => rfl
  | cons e rest ih =>
    obtain ⟨k, v⟩ := e
    unfold List.filter
    split
    · simp [sparseWfFrom] at h ⊢
      exact ⟨h.1, ih _ h.2⟩
    · refine ih lo (sparseWfFrom_weaken d rest (some k) lo ?_ ?_)
      · intro l hl
        cases hl
        simp [sparseWfFrom] at h
        exact ⟨k, rfl, by omega⟩
      · simp [sparseWfFrom] at h
        exact h.2

/-- The registers kept over a start are in canonical form (R10). -/
theorem sparseWfFrom_keepPreserved (m : List (Nat × Word)) (lo : Option Nat) (h : sparseWfFrom regReset lo m = true) :
    sparseWfFrom regReset lo (keepPreserved m) = true := by
  induction m generalizing lo with
  | nil => rfl
  | cons e rest ih =>
    obtain ⟨k, v⟩ := e
    unfold keepPreserved
    simp only
    split
    · refine ih lo (sparseWfFrom_weaken regReset rest (some k) lo ?_ ?_)
      · intro l hl
        cases hl
        simp [sparseWfFrom] at h
        exact ⟨k, rfl, by omega⟩
      · simp [sparseWfFrom] at h
        exact h.2
    · simp only [sparseWfFrom, Bool.and_eq_true, decide_eq_true_eq] at h ⊢
      exact ⟨⟨h.1.1, by assumption⟩, ih _ h.2⟩

/-! ### Memory -/

/-- A byte read after it was written. -/
theorem memRead_write_self (m : List Host.Cell) (a : Nat) (b : Byte) : memRead (memWrite m a b) a = b := sparseGet_set_self _ _ _ _

/-- A write of one byte leaves every other byte alone. -/
theorem memRead_write_ne (m : List Host.Cell) (a a' : Nat) (b : Byte) (h : a' ≠ a) : memRead (memWrite m a b) a' = memRead m a' :=
  sparseGet_set_ne _ _ _ _ _ _ h

/-- A write of memory keeps its canonical form. -/
theorem Memory.wf_write (m : List Host.Cell) (a : Nat) (b : Byte) (h : Memory.wf m = true) : Memory.wf (memWrite m a b) = true :=
  sparseWf_set (fun _ => 0#8) m a b h

end Sys2Proof.Machine
end

