-- ==== Sys2Proof/Laws/State.lean ====
section
/-!
SUPPORT. One lemma per field of State and per update, so that no proof unfolds a record update; and the reads of registers and window words
after each update.
-/

namespace Sys2Proof.Machine

variable (s : State)

/-! ### setReg -/

theorem setReg_regs (a : Nat) (v : Word) : (s.setReg a v).regs = sparseSet (regReset a) s.regs a v := rfl
@[simp] theorem setReg_wins (a : Nat) (v : Word) : (s.setReg a v).wins = s.wins := rfl
@[simp] theorem setReg_staged (a : Nat) (v : Word) : (s.setReg a v).staged = s.staged := rfl
@[simp] theorem setReg_role (a : Nat) (v : Word) : (s.setReg a v).role = s.role := rfl
@[simp] theorem setReg_mode (a : Nat) (v : Word) : (s.setReg a v).mode = s.mode := rfl
@[simp] theorem setReg_tb (a : Nat) (v : Word) : (s.setReg a v).tb = s.tb := rfl
@[simp] theorem setReg_ptp (a : Nat) (v : Word) : (s.setReg a v).ptp = s.ptp := rfl
@[simp] theorem setReg_frame (a : Nat) (v : Word) : (s.setReg a v).frame = s.frame := rfl
@[simp] theorem setReg_pair (a : Nat) (v : Word) : (s.setReg a v).pair = s.pair := rfl
@[simp] theorem setReg_lock (a : Nat) (v : Word) : (s.setReg a v).lock = s.lock := rfl
@[simp] theorem setReg_loop (a : Nat) (v : Word) : (s.setReg a v).loop = s.loop := rfl
@[simp] theorem setReg_acq (a : Nat) (v : Word) : (s.setReg a v).acq = s.acq := rfl
@[simp] theorem setReg_trg (a : Nat) (v : Word) : (s.setReg a v).trg = s.trg := rfl
@[simp] theorem setReg_io (a : Nat) (v : Word) : (s.setReg a v).io = s.io := rfl
@[simp] theorem setReg_net (a : Nat) (v : Word) : (s.setReg a v).net = s.net := rfl
@[simp] theorem setReg_can0 (a : Nat) (v : Word) : (s.setReg a v).can0 = s.can0 := rfl
@[simp] theorem setReg_can1 (a : Nat) (v : Word) : (s.setReg a v).can1 = s.can1 := rfl
@[simp] theorem setReg_evr (a : Nat) (v : Word) : (s.setReg a v).evr = s.evr := rfl
@[simp] theorem setReg_trust (a : Nat) (v : Word) : (s.setReg a v).trust = s.trust := rfl
@[simp] theorem setReg_fab (a : Nat) (v : Word) : (s.setReg a v).fab = s.fab := rfl
@[simp] theorem setReg_power (a : Nat) (v : Word) : (s.setReg a v).power = s.power := rfl
@[simp] theorem setReg_qcp (a : Nat) (v : Word) : (s.setReg a v).qcp = s.qcp := rfl
@[simp] theorem setReg_sent (a : Nat) (v : Word) : (s.setReg a v).sent = s.sent := rfl
@[simp] theorem setReg_freeCtr (a : Nat) (v : Word) : (s.setReg a v).freeCtr = s.freeCtr := rfl
@[simp] theorem setReg_pending (a : Nat) (v : Word) : (s.setReg a v).pending = s.pending := rfl
@[simp] theorem setReg_win (a : Nat) (v : Word) (w1 : WinId) (u1 n1 : Nat) : (s.setReg a v).win w1 u1 n1 = s.win w1 u1 n1 := rfl
@[simp] theorem setReg_winBit (a : Nat) (v : Word) (w1 : WinId) (u1 n1 i : Nat) : (s.setReg a v).winBit w1 u1 n1 i = s.winBit w1 u1 n1 i := rfl
@[simp] theorem setReg_winFld (a : Nat) (v : Word) (w1 : WinId) (u1 n1 hi lo : Nat) : (s.setReg a v).winFld w1 u1 n1 hi lo = s.winFld w1 u1 n1 hi lo := rfl

/-! ### setWin -/

@[simp] theorem setWin_regs (w : WinId) (unit word : Nat) (v : Word) : (s.setWin w unit word v).regs = s.regs := rfl
theorem setWin_wins (w : WinId) (unit word : Nat) (v : Word) : (s.setWin w unit word v).wins = sparseSet 0 s.wins (winKey w unit word) v := rfl
@[simp] theorem setWin_staged (w : WinId) (unit word : Nat) (v : Word) : (s.setWin w unit word v).staged = s.staged := rfl
@[simp] theorem setWin_role (w : WinId) (unit word : Nat) (v : Word) : (s.setWin w unit word v).role = s.role := rfl
@[simp] theorem setWin_mode (w : WinId) (unit word : Nat) (v : Word) : (s.setWin w unit word v).mode = s.mode := rfl
@[simp] theorem setWin_tb (w : WinId) (unit word : Nat) (v : Word) : (s.setWin w unit word v).tb = s.tb := rfl
@[simp] theorem setWin_ptp (w : WinId) (unit word : Nat) (v : Word) : (s.setWin w unit word v).ptp = s.ptp := rfl
@[simp] theorem setWin_frame (w : WinId) (unit word : Nat) (v : Word) : (s.setWin w unit word v).frame = s.frame := rfl
@[simp] theorem setWin_pair (w : WinId) (unit word : Nat) (v : Word) : (s.setWin w unit word v).pair = s.pair := rfl
@[simp] theorem setWin_lock (w : WinId) (unit word : Nat) (v : Word) : (s.setWin w unit word v).lock = s.lock := rfl
@[simp] theorem setWin_loop (w : WinId) (unit word : Nat) (v : Word) : (s.setWin w unit word v).loop = s.loop := rfl
@[simp] theorem setWin_acq (w : WinId) (unit word : Nat) (v : Word) : (s.setWin w unit word v).acq = s.acq := rfl
@[simp] theorem setWin_trg (w : WinId) (unit word : Nat) (v : Word) : (s.setWin w unit word v).trg = s.trg := rfl
@[simp] theorem setWin_io (w : WinId) (unit word : Nat) (v : Word) : (s.setWin w unit word v).io = s.io := rfl
@[simp] theorem setWin_net (w : WinId) (unit word : Nat) (v : Word) : (s.setWin w unit word v).net = s.net := rfl
@[simp] theorem setWin_can0 (w : WinId) (unit word : Nat) (v : Word) : (s.setWin w unit word v).can0 = s.can0 := rfl
@[simp] theorem setWin_can1 (w : WinId) (unit word : Nat) (v : Word) : (s.setWin w unit word v).can1 = s.can1 := rfl
@[simp] theorem setWin_evr (w : WinId) (unit word : Nat) (v : Word) : (s.setWin w unit word v).evr = s.evr := rfl
@[simp] theorem setWin_trust (w : WinId) (unit word : Nat) (v : Word) : (s.setWin w unit word v).trust = s.trust := rfl
@[simp] theorem setWin_fab (w : WinId) (unit word : Nat) (v : Word) : (s.setWin w unit word v).fab = s.fab := rfl
@[simp] theorem setWin_power (w : WinId) (unit word : Nat) (v : Word) : (s.setWin w unit word v).power = s.power := rfl
@[simp] theorem setWin_qcp (w : WinId) (unit word : Nat) (v : Word) : (s.setWin w unit word v).qcp = s.qcp := rfl
@[simp] theorem setWin_sent (w : WinId) (unit word : Nat) (v : Word) : (s.setWin w unit word v).sent = s.sent := rfl
@[simp] theorem setWin_freeCtr (w : WinId) (unit word : Nat) (v : Word) : (s.setWin w unit word v).freeCtr = s.freeCtr := rfl
@[simp] theorem setWin_pending (w : WinId) (unit word : Nat) (v : Word) : (s.setWin w unit word v).pending = s.pending := rfl
@[simp] theorem setWin_reg (w : WinId) (unit word : Nat) (v : Word) (r : Nat) : (s.setWin w unit word v).reg r = s.reg r := rfl
@[simp] theorem setWin_regBit (w : WinId) (unit word : Nat) (v : Word) (r i : Nat) : (s.setWin w unit word v).regBit r i = s.regBit r i := rfl
@[simp] theorem setWin_regFld (w : WinId) (unit word : Nat) (v : Word) (r hi lo : Nat) : (s.setWin w unit word v).regFld r hi lo = s.regFld r hi lo := rfl

/-! ### stageWord -/

@[simp] theorem stageWord_regs (w : WinId) (unit word : Nat) (v : Word) : (s.stageWord w unit word v).regs = s.regs := rfl
@[simp] theorem stageWord_wins (w : WinId) (unit word : Nat) (v : Word) : (s.stageWord w unit word v).wins = s.wins := rfl
@[simp] theorem stageWord_staged (w : WinId) (unit word : Nat) (v : Word) : (s.stageWord w unit word v).staged = sparseInsert s.staged (winKey w unit word) v := rfl
@[simp] theorem stageWord_role (w : WinId) (unit word : Nat) (v : Word) : (s.stageWord w unit word v).role = s.role := rfl
@[simp] theorem stageWord_mode (w : WinId) (unit word : Nat) (v : Word) : (s.stageWord w unit word v).mode = s.mode := rfl
@[simp] theorem stageWord_tb (w : WinId) (unit word : Nat) (v : Word) : (s.stageWord w unit word v).tb = s.tb := rfl
@[simp] theorem stageWord_ptp (w : WinId) (unit word : Nat) (v : Word) : (s.stageWord w unit word v).ptp = s.ptp := rfl
@[simp] theorem stageWord_frame (w : WinId) (unit word : Nat) (v : Word) : (s.stageWord w unit word v).frame = s.frame := rfl
@[simp] theorem stageWord_pair (w : WinId) (unit word : Nat) (v : Word) : (s.stageWord w unit word v).pair = s.pair := rfl
@[simp] theorem stageWord_lock (w : WinId) (unit word : Nat) (v : Word) : (s.stageWord w unit word v).lock = s.lock := rfl
@[simp] theorem stageWord_loop (w : WinId) (unit word : Nat) (v : Word) : (s.stageWord w unit word v).loop = s.loop := rfl
@[simp] theorem stageWord_acq (w : WinId) (unit word : Nat) (v : Word) : (s.stageWord w unit word v).acq = s.acq := rfl
@[simp] theorem stageWord_trg (w : WinId) (unit word : Nat) (v : Word) : (s.stageWord w unit word v).trg = s.trg := rfl
@[simp] theorem stageWord_io (w : WinId) (unit word : Nat) (v : Word) : (s.stageWord w unit word v).io = s.io := rfl
@[simp] theorem stageWord_net (w : WinId) (unit word : Nat) (v : Word) : (s.stageWord w unit word v).net = s.net := rfl
@[simp] theorem stageWord_can0 (w : WinId) (unit word : Nat) (v : Word) : (s.stageWord w unit word v).can0 = s.can0 := rfl
@[simp] theorem stageWord_can1 (w : WinId) (unit word : Nat) (v : Word) : (s.stageWord w unit word v).can1 = s.can1 := rfl
@[simp] theorem stageWord_evr (w : WinId) (unit word : Nat) (v : Word) : (s.stageWord w unit word v).evr = s.evr := rfl
@[simp] theorem stageWord_trust (w : WinId) (unit word : Nat) (v : Word) : (s.stageWord w unit word v).trust = s.trust := rfl
@[simp] theorem stageWord_fab (w : WinId) (unit word : Nat) (v : Word) : (s.stageWord w unit word v).fab = s.fab := rfl
@[simp] theorem stageWord_power (w : WinId) (unit word : Nat) (v : Word) : (s.stageWord w unit word v).power = s.power := rfl
@[simp] theorem stageWord_qcp (w : WinId) (unit word : Nat) (v : Word) : (s.stageWord w unit word v).qcp = s.qcp := rfl
@[simp] theorem stageWord_sent (w : WinId) (unit word : Nat) (v : Word) : (s.stageWord w unit word v).sent = s.sent := rfl
@[simp] theorem stageWord_freeCtr (w : WinId) (unit word : Nat) (v : Word) : (s.stageWord w unit word v).freeCtr = s.freeCtr := rfl
@[simp] theorem stageWord_pending (w : WinId) (unit word : Nat) (v : Word) : (s.stageWord w unit word v).pending = s.pending := rfl
@[simp] theorem stageWord_reg (w : WinId) (unit word : Nat) (v : Word) (r : Nat) : (s.stageWord w unit word v).reg r = s.reg r := rfl
@[simp] theorem stageWord_regBit (w : WinId) (unit word : Nat) (v : Word) (r i : Nat) : (s.stageWord w unit word v).regBit r i = s.regBit r i := rfl
@[simp] theorem stageWord_regFld (w : WinId) (unit word : Nat) (v : Word) (r hi lo : Nat) : (s.stageWord w unit word v).regFld r hi lo = s.regFld r hi lo := rfl
@[simp] theorem stageWord_win (w : WinId) (unit word : Nat) (v : Word) (w1 : WinId) (u1 n1 : Nat) : (s.stageWord w unit word v).win w1 u1 n1 = s.win w1 u1 n1 := rfl
@[simp] theorem stageWord_winBit (w : WinId) (unit word : Nat) (v : Word) (w1 : WinId) (u1 n1 i : Nat) : (s.stageWord w unit word v).winBit w1 u1 n1 i = s.winBit w1 u1 n1 i := rfl
@[simp] theorem stageWord_winFld (w : WinId) (unit word : Nat) (v : Word) (w1 : WinId) (u1 n1 hi lo : Nat) : (s.stageWord w unit word v).winFld w1 u1 n1 hi lo = s.winFld w1 u1 n1 hi lo := rfl

/-! ### dropStaged -/

@[simp] theorem dropStaged_regs (w : WinId) (unit : Nat) : (s.dropStaged w unit).regs = s.regs := rfl
@[simp] theorem dropStaged_wins (w : WinId) (unit : Nat) : (s.dropStaged w unit).wins = s.wins := rfl
@[simp] theorem dropStaged_role (w : WinId) (unit : Nat) : (s.dropStaged w unit).role = s.role := rfl
@[simp] theorem dropStaged_mode (w : WinId) (unit : Nat) : (s.dropStaged w unit).mode = s.mode := rfl
@[simp] theorem dropStaged_tb (w : WinId) (unit : Nat) : (s.dropStaged w unit).tb = s.tb := rfl
@[simp] theorem dropStaged_ptp (w : WinId) (unit : Nat) : (s.dropStaged w unit).ptp = s.ptp := rfl
@[simp] theorem dropStaged_frame (w : WinId) (unit : Nat) : (s.dropStaged w unit).frame = s.frame := rfl
@[simp] theorem dropStaged_pair (w : WinId) (unit : Nat) : (s.dropStaged w unit).pair = s.pair := rfl
@[simp] theorem dropStaged_lock (w : WinId) (unit : Nat) : (s.dropStaged w unit).lock = s.lock := rfl
@[simp] theorem dropStaged_loop (w : WinId) (unit : Nat) : (s.dropStaged w unit).loop = s.loop := rfl
@[simp] theorem dropStaged_acq (w : WinId) (unit : Nat) : (s.dropStaged w unit).acq = s.acq := rfl
@[simp] theorem dropStaged_trg (w : WinId) (unit : Nat) : (s.dropStaged w unit).trg = s.trg := rfl
@[simp] theorem dropStaged_io (w : WinId) (unit : Nat) : (s.dropStaged w unit).io = s.io := rfl
@[simp] theorem dropStaged_net (w : WinId) (unit : Nat) : (s.dropStaged w unit).net = s.net := rfl
@[simp] theorem dropStaged_can0 (w : WinId) (unit : Nat) : (s.dropStaged w unit).can0 = s.can0 := rfl
@[simp] theorem dropStaged_can1 (w : WinId) (unit : Nat) : (s.dropStaged w unit).can1 = s.can1 := rfl
@[simp] theorem dropStaged_evr (w : WinId) (unit : Nat) : (s.dropStaged w unit).evr = s.evr := rfl
@[simp] theorem dropStaged_trust (w : WinId) (unit : Nat) : (s.dropStaged w unit).trust = s.trust := rfl
@[simp] theorem dropStaged_fab (w : WinId) (unit : Nat) : (s.dropStaged w unit).fab = s.fab := rfl
@[simp] theorem dropStaged_power (w : WinId) (unit : Nat) : (s.dropStaged w unit).power = s.power := rfl
@[simp] theorem dropStaged_qcp (w : WinId) (unit : Nat) : (s.dropStaged w unit).qcp = s.qcp := rfl
@[simp] theorem dropStaged_sent (w : WinId) (unit : Nat) : (s.dropStaged w unit).sent = s.sent := rfl
@[simp] theorem dropStaged_freeCtr (w : WinId) (unit : Nat) : (s.dropStaged w unit).freeCtr = s.freeCtr := rfl
@[simp] theorem dropStaged_pending (w : WinId) (unit : Nat) : (s.dropStaged w unit).pending = s.pending := rfl
@[simp] theorem dropStaged_reg (w : WinId) (unit : Nat) (r : Nat) : (s.dropStaged w unit).reg r = s.reg r := rfl
@[simp] theorem dropStaged_regBit (w : WinId) (unit : Nat) (r i : Nat) : (s.dropStaged w unit).regBit r i = s.regBit r i := rfl
@[simp] theorem dropStaged_regFld (w : WinId) (unit : Nat) (r hi lo : Nat) : (s.dropStaged w unit).regFld r hi lo = s.regFld r hi lo := rfl
@[simp] theorem dropStaged_win (w : WinId) (unit : Nat) (w1 : WinId) (u1 n1 : Nat) : (s.dropStaged w unit).win w1 u1 n1 = s.win w1 u1 n1 := rfl
@[simp] theorem dropStaged_winBit (w : WinId) (unit : Nat) (w1 : WinId) (u1 n1 i : Nat) : (s.dropStaged w unit).winBit w1 u1 n1 i = s.winBit w1 u1 n1 i := rfl
@[simp] theorem dropStaged_winFld (w : WinId) (unit : Nat) (w1 : WinId) (u1 n1 hi lo : Nat) : (s.dropStaged w unit).winFld w1 u1 n1 hi lo = s.winFld w1 u1 n1 hi lo := rfl

/-! ### send -/

@[simp] theorem send_regs (k : Message) (l : List Nat) : (s.send k l).regs = s.regs := rfl
@[simp] theorem send_wins (k : Message) (l : List Nat) : (s.send k l).wins = s.wins := rfl
@[simp] theorem send_staged (k : Message) (l : List Nat) : (s.send k l).staged = s.staged := rfl
@[simp] theorem send_role (k : Message) (l : List Nat) : (s.send k l).role = s.role := rfl
@[simp] theorem send_mode (k : Message) (l : List Nat) : (s.send k l).mode = s.mode := rfl
@[simp] theorem send_tb (k : Message) (l : List Nat) : (s.send k l).tb = s.tb := rfl
@[simp] theorem send_ptp (k : Message) (l : List Nat) : (s.send k l).ptp = s.ptp := rfl
@[simp] theorem send_frame (k : Message) (l : List Nat) : (s.send k l).frame = s.frame := rfl
@[simp] theorem send_pair (k : Message) (l : List Nat) : (s.send k l).pair = s.pair := rfl
@[simp] theorem send_lock (k : Message) (l : List Nat) : (s.send k l).lock = s.lock := rfl
@[simp] theorem send_loop (k : Message) (l : List Nat) : (s.send k l).loop = s.loop := rfl
@[simp] theorem send_acq (k : Message) (l : List Nat) : (s.send k l).acq = s.acq := rfl
@[simp] theorem send_trg (k : Message) (l : List Nat) : (s.send k l).trg = s.trg := rfl
@[simp] theorem send_io (k : Message) (l : List Nat) : (s.send k l).io = s.io := rfl
@[simp] theorem send_net (k : Message) (l : List Nat) : (s.send k l).net = s.net := rfl
@[simp] theorem send_can0 (k : Message) (l : List Nat) : (s.send k l).can0 = s.can0 := rfl
@[simp] theorem send_can1 (k : Message) (l : List Nat) : (s.send k l).can1 = s.can1 := rfl
@[simp] theorem send_evr (k : Message) (l : List Nat) : (s.send k l).evr = s.evr := rfl
@[simp] theorem send_trust (k : Message) (l : List Nat) : (s.send k l).trust = s.trust := rfl
@[simp] theorem send_fab (k : Message) (l : List Nat) : (s.send k l).fab = s.fab := rfl
@[simp] theorem send_power (k : Message) (l : List Nat) : (s.send k l).power = s.power := rfl
@[simp] theorem send_qcp (k : Message) (l : List Nat) : (s.send k l).qcp = s.qcp := rfl
@[simp] theorem send_sent (k : Message) (l : List Nat) : (s.send k l).sent = if s.lock.cutOff && k.cut then s.sent else { kind := k, fields := l } :: s.sent := rfl
@[simp] theorem send_freeCtr (k : Message) (l : List Nat) : (s.send k l).freeCtr = s.freeCtr := rfl
@[simp] theorem send_pending (k : Message) (l : List Nat) : (s.send k l).pending = s.pending := rfl
@[simp] theorem send_reg (k : Message) (l : List Nat) (r : Nat) : (s.send k l).reg r = s.reg r := rfl
@[simp] theorem send_regBit (k : Message) (l : List Nat) (r i : Nat) : (s.send k l).regBit r i = s.regBit r i := rfl
@[simp] theorem send_regFld (k : Message) (l : List Nat) (r hi lo : Nat) : (s.send k l).regFld r hi lo = s.regFld r hi lo := rfl
@[simp] theorem send_win (k : Message) (l : List Nat) (w1 : WinId) (u1 n1 : Nat) : (s.send k l).win w1 u1 n1 = s.win w1 u1 n1 := rfl
@[simp] theorem send_winBit (k : Message) (l : List Nat) (w1 : WinId) (u1 n1 i : Nat) : (s.send k l).winBit w1 u1 n1 i = s.winBit w1 u1 n1 i := rfl
@[simp] theorem send_winFld (k : Message) (l : List Nat) (w1 : WinId) (u1 n1 hi lo : Nat) : (s.send k l).winFld w1 u1 n1 hi lo = s.winFld w1 u1 n1 hi lo := rfl

/-! ### sendWire -/

@[simp] theorem sendWire_regs (k : Message) (l : List Nat) (b : List Byte) : (s.sendWire k l b).regs = s.regs := rfl
@[simp] theorem sendWire_wins (k : Message) (l : List Nat) (b : List Byte) : (s.sendWire k l b).wins = s.wins := rfl
@[simp] theorem sendWire_staged (k : Message) (l : List Nat) (b : List Byte) : (s.sendWire k l b).staged = s.staged := rfl
@[simp] theorem sendWire_role (k : Message) (l : List Nat) (b : List Byte) : (s.sendWire k l b).role = s.role := rfl
@[simp] theorem sendWire_mode (k : Message) (l : List Nat) (b : List Byte) : (s.sendWire k l b).mode = s.mode := rfl
@[simp] theorem sendWire_tb (k : Message) (l : List Nat) (b : List Byte) : (s.sendWire k l b).tb = s.tb := rfl
@[simp] theorem sendWire_ptp (k : Message) (l : List Nat) (b : List Byte) : (s.sendWire k l b).ptp = s.ptp := rfl
@[simp] theorem sendWire_frame (k : Message) (l : List Nat) (b : List Byte) : (s.sendWire k l b).frame = s.frame := rfl
@[simp] theorem sendWire_pair (k : Message) (l : List Nat) (b : List Byte) : (s.sendWire k l b).pair = s.pair := rfl
@[simp] theorem sendWire_lock (k : Message) (l : List Nat) (b : List Byte) : (s.sendWire k l b).lock = s.lock := rfl
@[simp] theorem sendWire_loop (k : Message) (l : List Nat) (b : List Byte) : (s.sendWire k l b).loop = s.loop := rfl
@[simp] theorem sendWire_acq (k : Message) (l : List Nat) (b : List Byte) : (s.sendWire k l b).acq = s.acq := rfl
@[simp] theorem sendWire_trg (k : Message) (l : List Nat) (b : List Byte) : (s.sendWire k l b).trg = s.trg := rfl
@[simp] theorem sendWire_io (k : Message) (l : List Nat) (b : List Byte) : (s.sendWire k l b).io = s.io := rfl
@[simp] theorem sendWire_net (k : Message) (l : List Nat) (b : List Byte) : (s.sendWire k l b).net = s.net := rfl
@[simp] theorem sendWire_can0 (k : Message) (l : List Nat) (b : List Byte) : (s.sendWire k l b).can0 = s.can0 := rfl
@[simp] theorem sendWire_can1 (k : Message) (l : List Nat) (b : List Byte) : (s.sendWire k l b).can1 = s.can1 := rfl
@[simp] theorem sendWire_evr (k : Message) (l : List Nat) (b : List Byte) : (s.sendWire k l b).evr = s.evr := rfl
@[simp] theorem sendWire_trust (k : Message) (l : List Nat) (b : List Byte) : (s.sendWire k l b).trust = s.trust := rfl
@[simp] theorem sendWire_fab (k : Message) (l : List Nat) (b : List Byte) : (s.sendWire k l b).fab = s.fab := rfl
@[simp] theorem sendWire_power (k : Message) (l : List Nat) (b : List Byte) : (s.sendWire k l b).power = s.power := rfl
@[simp] theorem sendWire_qcp (k : Message) (l : List Nat) (b : List Byte) : (s.sendWire k l b).qcp = s.qcp := rfl
@[simp] theorem sendWire_sent (k : Message) (l : List Nat) (b : List Byte) : (s.sendWire k l b).sent = if s.lock.cutOff && k.cut then s.sent else { kind := k, fields := l, bytes := b } :: s.sent := rfl
@[simp] theorem sendWire_freeCtr (k : Message) (l : List Nat) (b : List Byte) : (s.sendWire k l b).freeCtr = s.freeCtr := rfl
@[simp] theorem sendWire_pending (k : Message) (l : List Nat) (b : List Byte) : (s.sendWire k l b).pending = s.pending := rfl
@[simp] theorem sendWire_reg (k : Message) (l : List Nat) (b : List Byte) (r : Nat) : (s.sendWire k l b).reg r = s.reg r := rfl
@[simp] theorem sendWire_regBit (k : Message) (l : List Nat) (b : List Byte) (r i : Nat) : (s.sendWire k l b).regBit r i = s.regBit r i := rfl
@[simp] theorem sendWire_regFld (k : Message) (l : List Nat) (b : List Byte) (r hi lo : Nat) : (s.sendWire k l b).regFld r hi lo = s.regFld r hi lo := rfl
@[simp] theorem sendWire_win (k : Message) (l : List Nat) (b : List Byte) (w1 : WinId) (u1 n1 : Nat) : (s.sendWire k l b).win w1 u1 n1 = s.win w1 u1 n1 := rfl
@[simp] theorem sendWire_winBit (k : Message) (l : List Nat) (b : List Byte) (w1 : WinId) (u1 n1 i : Nat) : (s.sendWire k l b).winBit w1 u1 n1 i = s.winBit w1 u1 n1 i := rfl
@[simp] theorem sendWire_winFld (k : Message) (l : List Nat) (b : List Byte) (w1 : WinId) (u1 n1 hi lo : Nat) : (s.sendWire k l b).winFld w1 u1 n1 hi lo = s.winFld w1 u1 n1 hi lo := rfl

/-! ### packetOut -/

@[simp] theorem packetOut_regs (port : Nat) : (s.packetOut port).regs = s.regs := rfl
@[simp] theorem packetOut_wins (port : Nat) : (s.packetOut port).wins = s.wins := rfl
@[simp] theorem packetOut_staged (port : Nat) : (s.packetOut port).staged = s.staged := rfl
@[simp] theorem packetOut_role (port : Nat) : (s.packetOut port).role = s.role := rfl
@[simp] theorem packetOut_mode (port : Nat) : (s.packetOut port).mode = s.mode := rfl
@[simp] theorem packetOut_tb (port : Nat) : (s.packetOut port).tb = s.tb := rfl
@[simp] theorem packetOut_ptp (port : Nat) : (s.packetOut port).ptp = s.ptp := rfl
@[simp] theorem packetOut_frame (port : Nat) : (s.packetOut port).frame = s.frame := rfl
@[simp] theorem packetOut_pair (port : Nat) : (s.packetOut port).pair = s.pair := rfl
@[simp] theorem packetOut_lock (port : Nat) : (s.packetOut port).lock = s.lock := rfl
@[simp] theorem packetOut_loop (port : Nat) : (s.packetOut port).loop = s.loop := rfl
@[simp] theorem packetOut_acq (port : Nat) : (s.packetOut port).acq = s.acq := rfl
@[simp] theorem packetOut_trg (port : Nat) : (s.packetOut port).trg = s.trg := rfl
@[simp] theorem packetOut_io (port : Nat) : (s.packetOut port).io = s.io := rfl
@[simp] theorem packetOut_net (port : Nat) : (s.packetOut port).net = s.net := rfl
@[simp] theorem packetOut_can0 (port : Nat) : (s.packetOut port).can0 = s.can0 := rfl
@[simp] theorem packetOut_can1 (port : Nat) : (s.packetOut port).can1 = s.can1 := rfl
@[simp] theorem packetOut_evr (port : Nat) : (s.packetOut port).evr = s.evr := rfl
@[simp] theorem packetOut_trust (port : Nat) : (s.packetOut port).trust = s.trust := rfl
@[simp] theorem packetOut_fab (port : Nat) : (s.packetOut port).fab = s.fab := rfl
@[simp] theorem packetOut_power (port : Nat) : (s.packetOut port).power = s.power := rfl
@[simp] theorem packetOut_reply (port : Nat) : (s.packetOut port).qcp.reply = s.qcp.reply := rfl
@[simp] theorem packetOut_sent (port : Nat) : (s.packetOut port).sent = s.sent := rfl
@[simp] theorem packetOut_freeCtr (port : Nat) : (s.packetOut port).freeCtr = s.freeCtr := rfl
@[simp] theorem packetOut_pending (port : Nat) : (s.packetOut port).pending = s.pending := rfl
@[simp] theorem packetOut_reg (port : Nat) (r : Nat) : (s.packetOut port).reg r = s.reg r := rfl
@[simp] theorem packetOut_regBit (port : Nat) (r i : Nat) : (s.packetOut port).regBit r i = s.regBit r i := rfl
@[simp] theorem packetOut_regFld (port : Nat) (r hi lo : Nat) : (s.packetOut port).regFld r hi lo = s.regFld r hi lo := rfl
@[simp] theorem packetOut_win (port : Nat) (w1 : WinId) (u1 n1 : Nat) : (s.packetOut port).win w1 u1 n1 = s.win w1 u1 n1 := rfl
@[simp] theorem packetOut_winBit (port : Nat) (w1 : WinId) (u1 n1 i : Nat) : (s.packetOut port).winBit w1 u1 n1 i = s.winBit w1 u1 n1 i := rfl
@[simp] theorem packetOut_winFld (port : Nat) (w1 : WinId) (u1 n1 hi lo : Nat) : (s.packetOut port).winFld w1 u1 n1 hi lo = s.winFld w1 u1 n1 hi lo := rfl

/-! ### updAcq -/

@[simp] theorem updAcq_regs (f : Acq → Acq) : (s.updAcq f).regs = s.regs := rfl
@[simp] theorem updAcq_wins (f : Acq → Acq) : (s.updAcq f).wins = s.wins := rfl
@[simp] theorem updAcq_staged (f : Acq → Acq) : (s.updAcq f).staged = s.staged := rfl
@[simp] theorem updAcq_role (f : Acq → Acq) : (s.updAcq f).role = s.role := rfl
@[simp] theorem updAcq_mode (f : Acq → Acq) : (s.updAcq f).mode = s.mode := rfl
@[simp] theorem updAcq_tb (f : Acq → Acq) : (s.updAcq f).tb = s.tb := rfl
@[simp] theorem updAcq_ptp (f : Acq → Acq) : (s.updAcq f).ptp = s.ptp := rfl
@[simp] theorem updAcq_frame (f : Acq → Acq) : (s.updAcq f).frame = s.frame := rfl
@[simp] theorem updAcq_pair (f : Acq → Acq) : (s.updAcq f).pair = s.pair := rfl
@[simp] theorem updAcq_lock (f : Acq → Acq) : (s.updAcq f).lock = s.lock := rfl
@[simp] theorem updAcq_loop (f : Acq → Acq) : (s.updAcq f).loop = s.loop := rfl
@[simp] theorem updAcq_acq (f : Acq → Acq) : (s.updAcq f).acq = f s.acq := rfl
@[simp] theorem updAcq_trg (f : Acq → Acq) : (s.updAcq f).trg = s.trg := rfl
@[simp] theorem updAcq_io (f : Acq → Acq) : (s.updAcq f).io = s.io := rfl
@[simp] theorem updAcq_net (f : Acq → Acq) : (s.updAcq f).net = s.net := rfl
@[simp] theorem updAcq_can0 (f : Acq → Acq) : (s.updAcq f).can0 = s.can0 := rfl
@[simp] theorem updAcq_can1 (f : Acq → Acq) : (s.updAcq f).can1 = s.can1 := rfl
@[simp] theorem updAcq_evr (f : Acq → Acq) : (s.updAcq f).evr = s.evr := rfl
@[simp] theorem updAcq_trust (f : Acq → Acq) : (s.updAcq f).trust = s.trust := rfl
@[simp] theorem updAcq_fab (f : Acq → Acq) : (s.updAcq f).fab = s.fab := rfl
@[simp] theorem updAcq_power (f : Acq → Acq) : (s.updAcq f).power = s.power := rfl
@[simp] theorem updAcq_qcp (f : Acq → Acq) : (s.updAcq f).qcp = s.qcp := rfl
@[simp] theorem updAcq_sent (f : Acq → Acq) : (s.updAcq f).sent = s.sent := rfl
@[simp] theorem updAcq_freeCtr (f : Acq → Acq) : (s.updAcq f).freeCtr = s.freeCtr := rfl
@[simp] theorem updAcq_pending (f : Acq → Acq) : (s.updAcq f).pending = s.pending := rfl
@[simp] theorem updAcq_reg (f : Acq → Acq) (r : Nat) : (s.updAcq f).reg r = s.reg r := rfl
@[simp] theorem updAcq_regBit (f : Acq → Acq) (r i : Nat) : (s.updAcq f).regBit r i = s.regBit r i := rfl
@[simp] theorem updAcq_regFld (f : Acq → Acq) (r hi lo : Nat) : (s.updAcq f).regFld r hi lo = s.regFld r hi lo := rfl
@[simp] theorem updAcq_win (f : Acq → Acq) (w1 : WinId) (u1 n1 : Nat) : (s.updAcq f).win w1 u1 n1 = s.win w1 u1 n1 := rfl
@[simp] theorem updAcq_winBit (f : Acq → Acq) (w1 : WinId) (u1 n1 i : Nat) : (s.updAcq f).winBit w1 u1 n1 i = s.winBit w1 u1 n1 i := rfl
@[simp] theorem updAcq_winFld (f : Acq → Acq) (w1 : WinId) (u1 n1 hi lo : Nat) : (s.updAcq f).winFld w1 u1 n1 hi lo = s.winFld w1 u1 n1 hi lo := rfl

/-! ### updTrg -/

@[simp] theorem updTrg_regs (f : Trig → Trig) : (s.updTrg f).regs = s.regs := rfl
@[simp] theorem updTrg_wins (f : Trig → Trig) : (s.updTrg f).wins = s.wins := rfl
@[simp] theorem updTrg_staged (f : Trig → Trig) : (s.updTrg f).staged = s.staged := rfl
@[simp] theorem updTrg_role (f : Trig → Trig) : (s.updTrg f).role = s.role := rfl
@[simp] theorem updTrg_mode (f : Trig → Trig) : (s.updTrg f).mode = s.mode := rfl
@[simp] theorem updTrg_tb (f : Trig → Trig) : (s.updTrg f).tb = s.tb := rfl
@[simp] theorem updTrg_ptp (f : Trig → Trig) : (s.updTrg f).ptp = s.ptp := rfl
@[simp] theorem updTrg_frame (f : Trig → Trig) : (s.updTrg f).frame = s.frame := rfl
@[simp] theorem updTrg_pair (f : Trig → Trig) : (s.updTrg f).pair = s.pair := rfl
@[simp] theorem updTrg_lock (f : Trig → Trig) : (s.updTrg f).lock = s.lock := rfl
@[simp] theorem updTrg_loop (f : Trig → Trig) : (s.updTrg f).loop = s.loop := rfl
@[simp] theorem updTrg_acq (f : Trig → Trig) : (s.updTrg f).acq = s.acq := rfl
@[simp] theorem updTrg_trg (f : Trig → Trig) : (s.updTrg f).trg = f s.trg := rfl
@[simp] theorem updTrg_io (f : Trig → Trig) : (s.updTrg f).io = s.io := rfl
@[simp] theorem updTrg_net (f : Trig → Trig) : (s.updTrg f).net = s.net := rfl
@[simp] theorem updTrg_can0 (f : Trig → Trig) : (s.updTrg f).can0 = s.can0 := rfl
@[simp] theorem updTrg_can1 (f : Trig → Trig) : (s.updTrg f).can1 = s.can1 := rfl
@[simp] theorem updTrg_evr (f : Trig → Trig) : (s.updTrg f).evr = s.evr := rfl
@[simp] theorem updTrg_trust (f : Trig → Trig) : (s.updTrg f).trust = s.trust := rfl
@[simp] theorem updTrg_fab (f : Trig → Trig) : (s.updTrg f).fab = s.fab := rfl
@[simp] theorem updTrg_power (f : Trig → Trig) : (s.updTrg f).power = s.power := rfl
@[simp] theorem updTrg_qcp (f : Trig → Trig) : (s.updTrg f).qcp = s.qcp := rfl
@[simp] theorem updTrg_sent (f : Trig → Trig) : (s.updTrg f).sent = s.sent := rfl
@[simp] theorem updTrg_freeCtr (f : Trig → Trig) : (s.updTrg f).freeCtr = s.freeCtr := rfl
@[simp] theorem updTrg_pending (f : Trig → Trig) : (s.updTrg f).pending = s.pending := rfl
@[simp] theorem updTrg_reg (f : Trig → Trig) (r : Nat) : (s.updTrg f).reg r = s.reg r := rfl
@[simp] theorem updTrg_regBit (f : Trig → Trig) (r i : Nat) : (s.updTrg f).regBit r i = s.regBit r i := rfl
@[simp] theorem updTrg_regFld (f : Trig → Trig) (r hi lo : Nat) : (s.updTrg f).regFld r hi lo = s.regFld r hi lo := rfl
@[simp] theorem updTrg_win (f : Trig → Trig) (w1 : WinId) (u1 n1 : Nat) : (s.updTrg f).win w1 u1 n1 = s.win w1 u1 n1 := rfl
@[simp] theorem updTrg_winBit (f : Trig → Trig) (w1 : WinId) (u1 n1 i : Nat) : (s.updTrg f).winBit w1 u1 n1 i = s.winBit w1 u1 n1 i := rfl
@[simp] theorem updTrg_winFld (f : Trig → Trig) (w1 : WinId) (u1 n1 hi lo : Nat) : (s.updTrg f).winFld w1 u1 n1 hi lo = s.winFld w1 u1 n1 hi lo := rfl

/-! ### updIo -/

@[simp] theorem updIo_regs (f : Io → Io) : (s.updIo f).regs = s.regs := rfl
@[simp] theorem updIo_wins (f : Io → Io) : (s.updIo f).wins = s.wins := rfl
@[simp] theorem updIo_staged (f : Io → Io) : (s.updIo f).staged = s.staged := rfl
@[simp] theorem updIo_role (f : Io → Io) : (s.updIo f).role = s.role := rfl
@[simp] theorem updIo_mode (f : Io → Io) : (s.updIo f).mode = s.mode := rfl
@[simp] theorem updIo_tb (f : Io → Io) : (s.updIo f).tb = s.tb := rfl
@[simp] theorem updIo_ptp (f : Io → Io) : (s.updIo f).ptp = s.ptp := rfl
@[simp] theorem updIo_frame (f : Io → Io) : (s.updIo f).frame = s.frame := rfl
@[simp] theorem updIo_pair (f : Io → Io) : (s.updIo f).pair = s.pair := rfl
@[simp] theorem updIo_lock (f : Io → Io) : (s.updIo f).lock = s.lock := rfl
@[simp] theorem updIo_loop (f : Io → Io) : (s.updIo f).loop = s.loop := rfl
@[simp] theorem updIo_acq (f : Io → Io) : (s.updIo f).acq = s.acq := rfl
@[simp] theorem updIo_trg (f : Io → Io) : (s.updIo f).trg = s.trg := rfl
@[simp] theorem updIo_io (f : Io → Io) : (s.updIo f).io = f s.io := rfl
@[simp] theorem updIo_net (f : Io → Io) : (s.updIo f).net = s.net := rfl
@[simp] theorem updIo_can0 (f : Io → Io) : (s.updIo f).can0 = s.can0 := rfl
@[simp] theorem updIo_can1 (f : Io → Io) : (s.updIo f).can1 = s.can1 := rfl
@[simp] theorem updIo_evr (f : Io → Io) : (s.updIo f).evr = s.evr := rfl
@[simp] theorem updIo_trust (f : Io → Io) : (s.updIo f).trust = s.trust := rfl
@[simp] theorem updIo_fab (f : Io → Io) : (s.updIo f).fab = s.fab := rfl
@[simp] theorem updIo_power (f : Io → Io) : (s.updIo f).power = s.power := rfl
@[simp] theorem updIo_qcp (f : Io → Io) : (s.updIo f).qcp = s.qcp := rfl
@[simp] theorem updIo_sent (f : Io → Io) : (s.updIo f).sent = s.sent := rfl
@[simp] theorem updIo_freeCtr (f : Io → Io) : (s.updIo f).freeCtr = s.freeCtr := rfl
@[simp] theorem updIo_pending (f : Io → Io) : (s.updIo f).pending = s.pending := rfl
@[simp] theorem updIo_reg (f : Io → Io) (r : Nat) : (s.updIo f).reg r = s.reg r := rfl
@[simp] theorem updIo_regBit (f : Io → Io) (r i : Nat) : (s.updIo f).regBit r i = s.regBit r i := rfl
@[simp] theorem updIo_regFld (f : Io → Io) (r hi lo : Nat) : (s.updIo f).regFld r hi lo = s.regFld r hi lo := rfl
@[simp] theorem updIo_win (f : Io → Io) (w1 : WinId) (u1 n1 : Nat) : (s.updIo f).win w1 u1 n1 = s.win w1 u1 n1 := rfl
@[simp] theorem updIo_winBit (f : Io → Io) (w1 : WinId) (u1 n1 i : Nat) : (s.updIo f).winBit w1 u1 n1 i = s.winBit w1 u1 n1 i := rfl
@[simp] theorem updIo_winFld (f : Io → Io) (w1 : WinId) (u1 n1 hi lo : Nat) : (s.updIo f).winFld w1 u1 n1 hi lo = s.winFld w1 u1 n1 hi lo := rfl

/-! ### updEvr -/

@[simp] theorem updEvr_regs (f : Recorder → Recorder) : (s.updEvr f).regs = s.regs := rfl
@[simp] theorem updEvr_wins (f : Recorder → Recorder) : (s.updEvr f).wins = s.wins := rfl
@[simp] theorem updEvr_staged (f : Recorder → Recorder) : (s.updEvr f).staged = s.staged := rfl
@[simp] theorem updEvr_role (f : Recorder → Recorder) : (s.updEvr f).role = s.role := rfl
@[simp] theorem updEvr_mode (f : Recorder → Recorder) : (s.updEvr f).mode = s.mode := rfl
@[simp] theorem updEvr_tb (f : Recorder → Recorder) : (s.updEvr f).tb = s.tb := rfl
@[simp] theorem updEvr_ptp (f : Recorder → Recorder) : (s.updEvr f).ptp = s.ptp := rfl
@[simp] theorem updEvr_frame (f : Recorder → Recorder) : (s.updEvr f).frame = s.frame := rfl
@[simp] theorem updEvr_pair (f : Recorder → Recorder) : (s.updEvr f).pair = s.pair := rfl
@[simp] theorem updEvr_lock (f : Recorder → Recorder) : (s.updEvr f).lock = s.lock := rfl
@[simp] theorem updEvr_loop (f : Recorder → Recorder) : (s.updEvr f).loop = s.loop := rfl
@[simp] theorem updEvr_acq (f : Recorder → Recorder) : (s.updEvr f).acq = s.acq := rfl
@[simp] theorem updEvr_trg (f : Recorder → Recorder) : (s.updEvr f).trg = s.trg := rfl
@[simp] theorem updEvr_io (f : Recorder → Recorder) : (s.updEvr f).io = s.io := rfl
@[simp] theorem updEvr_net (f : Recorder → Recorder) : (s.updEvr f).net = s.net := rfl
@[simp] theorem updEvr_can0 (f : Recorder → Recorder) : (s.updEvr f).can0 = s.can0 := rfl
@[simp] theorem updEvr_can1 (f : Recorder → Recorder) : (s.updEvr f).can1 = s.can1 := rfl
@[simp] theorem updEvr_evr (f : Recorder → Recorder) : (s.updEvr f).evr = f s.evr := rfl
@[simp] theorem updEvr_trust (f : Recorder → Recorder) : (s.updEvr f).trust = s.trust := rfl
@[simp] theorem updEvr_fab (f : Recorder → Recorder) : (s.updEvr f).fab = s.fab := rfl
@[simp] theorem updEvr_power (f : Recorder → Recorder) : (s.updEvr f).power = s.power := rfl
@[simp] theorem updEvr_qcp (f : Recorder → Recorder) : (s.updEvr f).qcp = s.qcp := rfl
@[simp] theorem updEvr_sent (f : Recorder → Recorder) : (s.updEvr f).sent = s.sent := rfl
@[simp] theorem updEvr_freeCtr (f : Recorder → Recorder) : (s.updEvr f).freeCtr = s.freeCtr := rfl
@[simp] theorem updEvr_pending (f : Recorder → Recorder) : (s.updEvr f).pending = s.pending := rfl
@[simp] theorem updEvr_reg (f : Recorder → Recorder) (r : Nat) : (s.updEvr f).reg r = s.reg r := rfl
@[simp] theorem updEvr_regBit (f : Recorder → Recorder) (r i : Nat) : (s.updEvr f).regBit r i = s.regBit r i := rfl
@[simp] theorem updEvr_regFld (f : Recorder → Recorder) (r hi lo : Nat) : (s.updEvr f).regFld r hi lo = s.regFld r hi lo := rfl
@[simp] theorem updEvr_win (f : Recorder → Recorder) (w1 : WinId) (u1 n1 : Nat) : (s.updEvr f).win w1 u1 n1 = s.win w1 u1 n1 := rfl
@[simp] theorem updEvr_winBit (f : Recorder → Recorder) (w1 : WinId) (u1 n1 i : Nat) : (s.updEvr f).winBit w1 u1 n1 i = s.winBit w1 u1 n1 i := rfl
@[simp] theorem updEvr_winFld (f : Recorder → Recorder) (w1 : WinId) (u1 n1 hi lo : Nat) : (s.updEvr f).winFld w1 u1 n1 hi lo = s.winFld w1 u1 n1 hi lo := rfl

/-! ### updFab -/

@[simp] theorem updFab_regs (f : Fabric → Fabric) : (s.updFab f).regs = s.regs := rfl
@[simp] theorem updFab_wins (f : Fabric → Fabric) : (s.updFab f).wins = s.wins := rfl
@[simp] theorem updFab_staged (f : Fabric → Fabric) : (s.updFab f).staged = s.staged := rfl
@[simp] theorem updFab_role (f : Fabric → Fabric) : (s.updFab f).role = s.role := rfl
@[simp] theorem updFab_mode (f : Fabric → Fabric) : (s.updFab f).mode = s.mode := rfl
@[simp] theorem updFab_tb (f : Fabric → Fabric) : (s.updFab f).tb = s.tb := rfl
@[simp] theorem updFab_ptp (f : Fabric → Fabric) : (s.updFab f).ptp = s.ptp := rfl
@[simp] theorem updFab_frame (f : Fabric → Fabric) : (s.updFab f).frame = s.frame := rfl
@[simp] theorem updFab_pair (f : Fabric → Fabric) : (s.updFab f).pair = s.pair := rfl
@[simp] theorem updFab_lock (f : Fabric → Fabric) : (s.updFab f).lock = s.lock := rfl
@[simp] theorem updFab_loop (f : Fabric → Fabric) : (s.updFab f).loop = s.loop := rfl
@[simp] theorem updFab_acq (f : Fabric → Fabric) : (s.updFab f).acq = s.acq := rfl
@[simp] theorem updFab_trg (f : Fabric → Fabric) : (s.updFab f).trg = s.trg := rfl
@[simp] theorem updFab_io (f : Fabric → Fabric) : (s.updFab f).io = s.io := rfl
@[simp] theorem updFab_net (f : Fabric → Fabric) : (s.updFab f).net = s.net := rfl
@[simp] theorem updFab_can0 (f : Fabric → Fabric) : (s.updFab f).can0 = s.can0 := rfl
@[simp] theorem updFab_can1 (f : Fabric → Fabric) : (s.updFab f).can1 = s.can1 := rfl
@[simp] theorem updFab_evr (f : Fabric → Fabric) : (s.updFab f).evr = s.evr := rfl
@[simp] theorem updFab_trust (f : Fabric → Fabric) : (s.updFab f).trust = s.trust := rfl
@[simp] theorem updFab_fab (f : Fabric → Fabric) : (s.updFab f).fab = f s.fab := rfl
@[simp] theorem updFab_power (f : Fabric → Fabric) : (s.updFab f).power = s.power := rfl
@[simp] theorem updFab_qcp (f : Fabric → Fabric) : (s.updFab f).qcp = s.qcp := rfl
@[simp] theorem updFab_sent (f : Fabric → Fabric) : (s.updFab f).sent = s.sent := rfl
@[simp] theorem updFab_freeCtr (f : Fabric → Fabric) : (s.updFab f).freeCtr = s.freeCtr := rfl
@[simp] theorem updFab_pending (f : Fabric → Fabric) : (s.updFab f).pending = s.pending := rfl
@[simp] theorem updFab_reg (f : Fabric → Fabric) (r : Nat) : (s.updFab f).reg r = s.reg r := rfl
@[simp] theorem updFab_regBit (f : Fabric → Fabric) (r i : Nat) : (s.updFab f).regBit r i = s.regBit r i := rfl
@[simp] theorem updFab_regFld (f : Fabric → Fabric) (r hi lo : Nat) : (s.updFab f).regFld r hi lo = s.regFld r hi lo := rfl
@[simp] theorem updFab_win (f : Fabric → Fabric) (w1 : WinId) (u1 n1 : Nat) : (s.updFab f).win w1 u1 n1 = s.win w1 u1 n1 := rfl
@[simp] theorem updFab_winBit (f : Fabric → Fabric) (w1 : WinId) (u1 n1 i : Nat) : (s.updFab f).winBit w1 u1 n1 i = s.winBit w1 u1 n1 i := rfl
@[simp] theorem updFab_winFld (f : Fabric → Fabric) (w1 : WinId) (u1 n1 hi lo : Nat) : (s.updFab f).winFld w1 u1 n1 hi lo = s.winFld w1 u1 n1 hi lo := rfl

/-! ### updFrame -/

@[simp] theorem updFrame_regs (f : Frame → Frame) : (s.updFrame f).regs = s.regs := rfl
@[simp] theorem updFrame_wins (f : Frame → Frame) : (s.updFrame f).wins = s.wins := rfl
@[simp] theorem updFrame_staged (f : Frame → Frame) : (s.updFrame f).staged = s.staged := rfl
@[simp] theorem updFrame_role (f : Frame → Frame) : (s.updFrame f).role = s.role := rfl
@[simp] theorem updFrame_mode (f : Frame → Frame) : (s.updFrame f).mode = s.mode := rfl
@[simp] theorem updFrame_tb (f : Frame → Frame) : (s.updFrame f).tb = s.tb := rfl
@[simp] theorem updFrame_ptp (f : Frame → Frame) : (s.updFrame f).ptp = s.ptp := rfl
@[simp] theorem updFrame_frame (f : Frame → Frame) : (s.updFrame f).frame = f s.frame := rfl
@[simp] theorem updFrame_pair (f : Frame → Frame) : (s.updFrame f).pair = s.pair := rfl
@[simp] theorem updFrame_lock (f : Frame → Frame) : (s.updFrame f).lock = s.lock := rfl
@[simp] theorem updFrame_loop (f : Frame → Frame) : (s.updFrame f).loop = s.loop := rfl
@[simp] theorem updFrame_acq (f : Frame → Frame) : (s.updFrame f).acq = s.acq := rfl
@[simp] theorem updFrame_trg (f : Frame → Frame) : (s.updFrame f).trg = s.trg := rfl
@[simp] theorem updFrame_io (f : Frame → Frame) : (s.updFrame f).io = s.io := rfl
@[simp] theorem updFrame_net (f : Frame → Frame) : (s.updFrame f).net = s.net := rfl
@[simp] theorem updFrame_can0 (f : Frame → Frame) : (s.updFrame f).can0 = s.can0 := rfl
@[simp] theorem updFrame_can1 (f : Frame → Frame) : (s.updFrame f).can1 = s.can1 := rfl
@[simp] theorem updFrame_evr (f : Frame → Frame) : (s.updFrame f).evr = s.evr := rfl
@[simp] theorem updFrame_trust (f : Frame → Frame) : (s.updFrame f).trust = s.trust := rfl
@[simp] theorem updFrame_fab (f : Frame → Frame) : (s.updFrame f).fab = s.fab := rfl
@[simp] theorem updFrame_power (f : Frame → Frame) : (s.updFrame f).power = s.power := rfl
@[simp] theorem updFrame_qcp (f : Frame → Frame) : (s.updFrame f).qcp = s.qcp := rfl
@[simp] theorem updFrame_sent (f : Frame → Frame) : (s.updFrame f).sent = s.sent := rfl
@[simp] theorem updFrame_freeCtr (f : Frame → Frame) : (s.updFrame f).freeCtr = s.freeCtr := rfl
@[simp] theorem updFrame_pending (f : Frame → Frame) : (s.updFrame f).pending = s.pending := rfl
@[simp] theorem updFrame_reg (f : Frame → Frame) (r : Nat) : (s.updFrame f).reg r = s.reg r := rfl
@[simp] theorem updFrame_regBit (f : Frame → Frame) (r i : Nat) : (s.updFrame f).regBit r i = s.regBit r i := rfl
@[simp] theorem updFrame_regFld (f : Frame → Frame) (r hi lo : Nat) : (s.updFrame f).regFld r hi lo = s.regFld r hi lo := rfl
@[simp] theorem updFrame_win (f : Frame → Frame) (w1 : WinId) (u1 n1 : Nat) : (s.updFrame f).win w1 u1 n1 = s.win w1 u1 n1 := rfl
@[simp] theorem updFrame_winBit (f : Frame → Frame) (w1 : WinId) (u1 n1 i : Nat) : (s.updFrame f).winBit w1 u1 n1 i = s.winBit w1 u1 n1 i := rfl
@[simp] theorem updFrame_winFld (f : Frame → Frame) (w1 : WinId) (u1 n1 hi lo : Nat) : (s.updFrame f).winFld w1 u1 n1 hi lo = s.winFld w1 u1 n1 hi lo := rfl

/-! ### updLoop -/

@[simp] theorem updLoop_regs (f : Loop → Loop) : (s.updLoop f).regs = s.regs := rfl
@[simp] theorem updLoop_wins (f : Loop → Loop) : (s.updLoop f).wins = s.wins := rfl
@[simp] theorem updLoop_staged (f : Loop → Loop) : (s.updLoop f).staged = s.staged := rfl
@[simp] theorem updLoop_role (f : Loop → Loop) : (s.updLoop f).role = s.role := rfl
@[simp] theorem updLoop_mode (f : Loop → Loop) : (s.updLoop f).mode = s.mode := rfl
@[simp] theorem updLoop_tb (f : Loop → Loop) : (s.updLoop f).tb = s.tb := rfl
@[simp] theorem updLoop_ptp (f : Loop → Loop) : (s.updLoop f).ptp = s.ptp := rfl
@[simp] theorem updLoop_frame (f : Loop → Loop) : (s.updLoop f).frame = s.frame := rfl
@[simp] theorem updLoop_pair (f : Loop → Loop) : (s.updLoop f).pair = s.pair := rfl
@[simp] theorem updLoop_lock (f : Loop → Loop) : (s.updLoop f).lock = s.lock := rfl
@[simp] theorem updLoop_loop (f : Loop → Loop) : (s.updLoop f).loop = f s.loop := rfl
@[simp] theorem updLoop_acq (f : Loop → Loop) : (s.updLoop f).acq = s.acq := rfl
@[simp] theorem updLoop_trg (f : Loop → Loop) : (s.updLoop f).trg = s.trg := rfl
@[simp] theorem updLoop_io (f : Loop → Loop) : (s.updLoop f).io = s.io := rfl
@[simp] theorem updLoop_net (f : Loop → Loop) : (s.updLoop f).net = s.net := rfl
@[simp] theorem updLoop_can0 (f : Loop → Loop) : (s.updLoop f).can0 = s.can0 := rfl
@[simp] theorem updLoop_can1 (f : Loop → Loop) : (s.updLoop f).can1 = s.can1 := rfl
@[simp] theorem updLoop_evr (f : Loop → Loop) : (s.updLoop f).evr = s.evr := rfl
@[simp] theorem updLoop_trust (f : Loop → Loop) : (s.updLoop f).trust = s.trust := rfl
@[simp] theorem updLoop_fab (f : Loop → Loop) : (s.updLoop f).fab = s.fab := rfl
@[simp] theorem updLoop_power (f : Loop → Loop) : (s.updLoop f).power = s.power := rfl
@[simp] theorem updLoop_qcp (f : Loop → Loop) : (s.updLoop f).qcp = s.qcp := rfl
@[simp] theorem updLoop_sent (f : Loop → Loop) : (s.updLoop f).sent = s.sent := rfl
@[simp] theorem updLoop_freeCtr (f : Loop → Loop) : (s.updLoop f).freeCtr = s.freeCtr := rfl
@[simp] theorem updLoop_pending (f : Loop → Loop) : (s.updLoop f).pending = s.pending := rfl
@[simp] theorem updLoop_reg (f : Loop → Loop) (r : Nat) : (s.updLoop f).reg r = s.reg r := rfl
@[simp] theorem updLoop_regBit (f : Loop → Loop) (r i : Nat) : (s.updLoop f).regBit r i = s.regBit r i := rfl
@[simp] theorem updLoop_regFld (f : Loop → Loop) (r hi lo : Nat) : (s.updLoop f).regFld r hi lo = s.regFld r hi lo := rfl
@[simp] theorem updLoop_win (f : Loop → Loop) (w1 : WinId) (u1 n1 : Nat) : (s.updLoop f).win w1 u1 n1 = s.win w1 u1 n1 := rfl
@[simp] theorem updLoop_winBit (f : Loop → Loop) (w1 : WinId) (u1 n1 i : Nat) : (s.updLoop f).winBit w1 u1 n1 i = s.winBit w1 u1 n1 i := rfl
@[simp] theorem updLoop_winFld (f : Loop → Loop) (w1 : WinId) (u1 n1 hi lo : Nat) : (s.updLoop f).winFld w1 u1 n1 hi lo = s.winFld w1 u1 n1 hi lo := rfl

/-! ### updPair -/

@[simp] theorem updPair_regs (f : Pair → Pair) : (s.updPair f).regs = s.regs := rfl
@[simp] theorem updPair_wins (f : Pair → Pair) : (s.updPair f).wins = s.wins := rfl
@[simp] theorem updPair_staged (f : Pair → Pair) : (s.updPair f).staged = s.staged := rfl
@[simp] theorem updPair_role (f : Pair → Pair) : (s.updPair f).role = s.role := rfl
@[simp] theorem updPair_mode (f : Pair → Pair) : (s.updPair f).mode = s.mode := rfl
@[simp] theorem updPair_tb (f : Pair → Pair) : (s.updPair f).tb = s.tb := rfl
@[simp] theorem updPair_ptp (f : Pair → Pair) : (s.updPair f).ptp = s.ptp := rfl
@[simp] theorem updPair_frame (f : Pair → Pair) : (s.updPair f).frame = s.frame := rfl
@[simp] theorem updPair_pair (f : Pair → Pair) : (s.updPair f).pair = f s.pair := rfl
@[simp] theorem updPair_lock (f : Pair → Pair) : (s.updPair f).lock = s.lock := rfl
@[simp] theorem updPair_loop (f : Pair → Pair) : (s.updPair f).loop = s.loop := rfl
@[simp] theorem updPair_acq (f : Pair → Pair) : (s.updPair f).acq = s.acq := rfl
@[simp] theorem updPair_trg (f : Pair → Pair) : (s.updPair f).trg = s.trg := rfl
@[simp] theorem updPair_io (f : Pair → Pair) : (s.updPair f).io = s.io := rfl
@[simp] theorem updPair_net (f : Pair → Pair) : (s.updPair f).net = s.net := rfl
@[simp] theorem updPair_can0 (f : Pair → Pair) : (s.updPair f).can0 = s.can0 := rfl
@[simp] theorem updPair_can1 (f : Pair → Pair) : (s.updPair f).can1 = s.can1 := rfl
@[simp] theorem updPair_evr (f : Pair → Pair) : (s.updPair f).evr = s.evr := rfl
@[simp] theorem updPair_trust (f : Pair → Pair) : (s.updPair f).trust = s.trust := rfl
@[simp] theorem updPair_fab (f : Pair → Pair) : (s.updPair f).fab = s.fab := rfl
@[simp] theorem updPair_power (f : Pair → Pair) : (s.updPair f).power = s.power := rfl
@[simp] theorem updPair_qcp (f : Pair → Pair) : (s.updPair f).qcp = s.qcp := rfl
@[simp] theorem updPair_sent (f : Pair → Pair) : (s.updPair f).sent = s.sent := rfl
@[simp] theorem updPair_freeCtr (f : Pair → Pair) : (s.updPair f).freeCtr = s.freeCtr := rfl
@[simp] theorem updPair_pending (f : Pair → Pair) : (s.updPair f).pending = s.pending := rfl
@[simp] theorem updPair_reg (f : Pair → Pair) (r : Nat) : (s.updPair f).reg r = s.reg r := rfl
@[simp] theorem updPair_regBit (f : Pair → Pair) (r i : Nat) : (s.updPair f).regBit r i = s.regBit r i := rfl
@[simp] theorem updPair_regFld (f : Pair → Pair) (r hi lo : Nat) : (s.updPair f).regFld r hi lo = s.regFld r hi lo := rfl
@[simp] theorem updPair_win (f : Pair → Pair) (w1 : WinId) (u1 n1 : Nat) : (s.updPair f).win w1 u1 n1 = s.win w1 u1 n1 := rfl
@[simp] theorem updPair_winBit (f : Pair → Pair) (w1 : WinId) (u1 n1 i : Nat) : (s.updPair f).winBit w1 u1 n1 i = s.winBit w1 u1 n1 i := rfl
@[simp] theorem updPair_winFld (f : Pair → Pair) (w1 : WinId) (u1 n1 hi lo : Nat) : (s.updPair f).winFld w1 u1 n1 hi lo = s.winFld w1 u1 n1 hi lo := rfl

/-! ### updLock -/

@[simp] theorem updLock_regs (f : Lock → Lock) : (s.updLock f).regs = s.regs := rfl
@[simp] theorem updLock_wins (f : Lock → Lock) : (s.updLock f).wins = s.wins := rfl
@[simp] theorem updLock_staged (f : Lock → Lock) : (s.updLock f).staged = s.staged := rfl
@[simp] theorem updLock_role (f : Lock → Lock) : (s.updLock f).role = s.role := rfl
@[simp] theorem updLock_mode (f : Lock → Lock) : (s.updLock f).mode = s.mode := rfl
@[simp] theorem updLock_tb (f : Lock → Lock) : (s.updLock f).tb = s.tb := rfl
@[simp] theorem updLock_ptp (f : Lock → Lock) : (s.updLock f).ptp = s.ptp := rfl
@[simp] theorem updLock_frame (f : Lock → Lock) : (s.updLock f).frame = s.frame := rfl
@[simp] theorem updLock_pair (f : Lock → Lock) : (s.updLock f).pair = s.pair := rfl
@[simp] theorem updLock_lock (f : Lock → Lock) : (s.updLock f).lock = f s.lock := rfl
@[simp] theorem updLock_loop (f : Lock → Lock) : (s.updLock f).loop = s.loop := rfl
@[simp] theorem updLock_acq (f : Lock → Lock) : (s.updLock f).acq = s.acq := rfl
@[simp] theorem updLock_trg (f : Lock → Lock) : (s.updLock f).trg = s.trg := rfl
@[simp] theorem updLock_io (f : Lock → Lock) : (s.updLock f).io = s.io := rfl
@[simp] theorem updLock_net (f : Lock → Lock) : (s.updLock f).net = s.net := rfl
@[simp] theorem updLock_can0 (f : Lock → Lock) : (s.updLock f).can0 = s.can0 := rfl
@[simp] theorem updLock_can1 (f : Lock → Lock) : (s.updLock f).can1 = s.can1 := rfl
@[simp] theorem updLock_evr (f : Lock → Lock) : (s.updLock f).evr = s.evr := rfl
@[simp] theorem updLock_trust (f : Lock → Lock) : (s.updLock f).trust = s.trust := rfl
@[simp] theorem updLock_fab (f : Lock → Lock) : (s.updLock f).fab = s.fab := rfl
@[simp] theorem updLock_power (f : Lock → Lock) : (s.updLock f).power = s.power := rfl
@[simp] theorem updLock_qcp (f : Lock → Lock) : (s.updLock f).qcp = s.qcp := rfl
@[simp] theorem updLock_sent (f : Lock → Lock) : (s.updLock f).sent = s.sent := rfl
@[simp] theorem updLock_freeCtr (f : Lock → Lock) : (s.updLock f).freeCtr = s.freeCtr := rfl
@[simp] theorem updLock_pending (f : Lock → Lock) : (s.updLock f).pending = s.pending := rfl
@[simp] theorem updLock_reg (f : Lock → Lock) (r : Nat) : (s.updLock f).reg r = s.reg r := rfl
@[simp] theorem updLock_regBit (f : Lock → Lock) (r i : Nat) : (s.updLock f).regBit r i = s.regBit r i := rfl
@[simp] theorem updLock_regFld (f : Lock → Lock) (r hi lo : Nat) : (s.updLock f).regFld r hi lo = s.regFld r hi lo := rfl
@[simp] theorem updLock_win (f : Lock → Lock) (w1 : WinId) (u1 n1 : Nat) : (s.updLock f).win w1 u1 n1 = s.win w1 u1 n1 := rfl
@[simp] theorem updLock_winBit (f : Lock → Lock) (w1 : WinId) (u1 n1 i : Nat) : (s.updLock f).winBit w1 u1 n1 i = s.winBit w1 u1 n1 i := rfl
@[simp] theorem updLock_winFld (f : Lock → Lock) (w1 : WinId) (u1 n1 hi lo : Nat) : (s.updLock f).winFld w1 u1 n1 hi lo = s.winFld w1 u1 n1 hi lo := rfl

/-! ### updQcp -/

@[simp] theorem updQcp_regs (f : Protocol → Protocol) : (s.updQcp f).regs = s.regs := rfl
@[simp] theorem updQcp_wins (f : Protocol → Protocol) : (s.updQcp f).wins = s.wins := rfl
@[simp] theorem updQcp_staged (f : Protocol → Protocol) : (s.updQcp f).staged = s.staged := rfl
@[simp] theorem updQcp_role (f : Protocol → Protocol) : (s.updQcp f).role = s.role := rfl
@[simp] theorem updQcp_mode (f : Protocol → Protocol) : (s.updQcp f).mode = s.mode := rfl
@[simp] theorem updQcp_tb (f : Protocol → Protocol) : (s.updQcp f).tb = s.tb := rfl
@[simp] theorem updQcp_ptp (f : Protocol → Protocol) : (s.updQcp f).ptp = s.ptp := rfl
@[simp] theorem updQcp_frame (f : Protocol → Protocol) : (s.updQcp f).frame = s.frame := rfl
@[simp] theorem updQcp_pair (f : Protocol → Protocol) : (s.updQcp f).pair = s.pair := rfl
@[simp] theorem updQcp_lock (f : Protocol → Protocol) : (s.updQcp f).lock = s.lock := rfl
@[simp] theorem updQcp_loop (f : Protocol → Protocol) : (s.updQcp f).loop = s.loop := rfl
@[simp] theorem updQcp_acq (f : Protocol → Protocol) : (s.updQcp f).acq = s.acq := rfl
@[simp] theorem updQcp_trg (f : Protocol → Protocol) : (s.updQcp f).trg = s.trg := rfl
@[simp] theorem updQcp_io (f : Protocol → Protocol) : (s.updQcp f).io = s.io := rfl
@[simp] theorem updQcp_net (f : Protocol → Protocol) : (s.updQcp f).net = s.net := rfl
@[simp] theorem updQcp_can0 (f : Protocol → Protocol) : (s.updQcp f).can0 = s.can0 := rfl
@[simp] theorem updQcp_can1 (f : Protocol → Protocol) : (s.updQcp f).can1 = s.can1 := rfl
@[simp] theorem updQcp_evr (f : Protocol → Protocol) : (s.updQcp f).evr = s.evr := rfl
@[simp] theorem updQcp_trust (f : Protocol → Protocol) : (s.updQcp f).trust = s.trust := rfl
@[simp] theorem updQcp_fab (f : Protocol → Protocol) : (s.updQcp f).fab = s.fab := rfl
@[simp] theorem updQcp_power (f : Protocol → Protocol) : (s.updQcp f).power = s.power := rfl
@[simp] theorem updQcp_qcp (f : Protocol → Protocol) : (s.updQcp f).qcp = f s.qcp := rfl
@[simp] theorem updQcp_sent (f : Protocol → Protocol) : (s.updQcp f).sent = s.sent := rfl
@[simp] theorem updQcp_freeCtr (f : Protocol → Protocol) : (s.updQcp f).freeCtr = s.freeCtr := rfl
@[simp] theorem updQcp_pending (f : Protocol → Protocol) : (s.updQcp f).pending = s.pending := rfl
@[simp] theorem updQcp_reg (f : Protocol → Protocol) (r : Nat) : (s.updQcp f).reg r = s.reg r := rfl
@[simp] theorem updQcp_regBit (f : Protocol → Protocol) (r i : Nat) : (s.updQcp f).regBit r i = s.regBit r i := rfl
@[simp] theorem updQcp_regFld (f : Protocol → Protocol) (r hi lo : Nat) : (s.updQcp f).regFld r hi lo = s.regFld r hi lo := rfl
@[simp] theorem updQcp_win (f : Protocol → Protocol) (w1 : WinId) (u1 n1 : Nat) : (s.updQcp f).win w1 u1 n1 = s.win w1 u1 n1 := rfl
@[simp] theorem updQcp_winBit (f : Protocol → Protocol) (w1 : WinId) (u1 n1 i : Nat) : (s.updQcp f).winBit w1 u1 n1 i = s.winBit w1 u1 n1 i := rfl
@[simp] theorem updQcp_winFld (f : Protocol → Protocol) (w1 : WinId) (u1 n1 hi lo : Nat) : (s.updQcp f).winFld w1 u1 n1 hi lo = s.winFld w1 u1 n1 hi lo := rfl

/-! ### updNet -/

@[simp] theorem updNet_regs (f : Net → Net) : (s.updNet f).regs = s.regs := rfl
@[simp] theorem updNet_wins (f : Net → Net) : (s.updNet f).wins = s.wins := rfl
@[simp] theorem updNet_staged (f : Net → Net) : (s.updNet f).staged = s.staged := rfl
@[simp] theorem updNet_role (f : Net → Net) : (s.updNet f).role = s.role := rfl
@[simp] theorem updNet_mode (f : Net → Net) : (s.updNet f).mode = s.mode := rfl
@[simp] theorem updNet_tb (f : Net → Net) : (s.updNet f).tb = s.tb := rfl
@[simp] theorem updNet_ptp (f : Net → Net) : (s.updNet f).ptp = s.ptp := rfl
@[simp] theorem updNet_frame (f : Net → Net) : (s.updNet f).frame = s.frame := rfl
@[simp] theorem updNet_pair (f : Net → Net) : (s.updNet f).pair = s.pair := rfl
@[simp] theorem updNet_lock (f : Net → Net) : (s.updNet f).lock = s.lock := rfl
@[simp] theorem updNet_loop (f : Net → Net) : (s.updNet f).loop = s.loop := rfl
@[simp] theorem updNet_acq (f : Net → Net) : (s.updNet f).acq = s.acq := rfl
@[simp] theorem updNet_trg (f : Net → Net) : (s.updNet f).trg = s.trg := rfl
@[simp] theorem updNet_io (f : Net → Net) : (s.updNet f).io = s.io := rfl
@[simp] theorem updNet_net (f : Net → Net) : (s.updNet f).net = f s.net := rfl
@[simp] theorem updNet_can0 (f : Net → Net) : (s.updNet f).can0 = s.can0 := rfl
@[simp] theorem updNet_can1 (f : Net → Net) : (s.updNet f).can1 = s.can1 := rfl
@[simp] theorem updNet_evr (f : Net → Net) : (s.updNet f).evr = s.evr := rfl
@[simp] theorem updNet_trust (f : Net → Net) : (s.updNet f).trust = s.trust := rfl
@[simp] theorem updNet_fab (f : Net → Net) : (s.updNet f).fab = s.fab := rfl
@[simp] theorem updNet_power (f : Net → Net) : (s.updNet f).power = s.power := rfl
@[simp] theorem updNet_qcp (f : Net → Net) : (s.updNet f).qcp = s.qcp := rfl
@[simp] theorem updNet_sent (f : Net → Net) : (s.updNet f).sent = s.sent := rfl
@[simp] theorem updNet_freeCtr (f : Net → Net) : (s.updNet f).freeCtr = s.freeCtr := rfl
@[simp] theorem updNet_pending (f : Net → Net) : (s.updNet f).pending = s.pending := rfl
@[simp] theorem updNet_reg (f : Net → Net) (r : Nat) : (s.updNet f).reg r = s.reg r := rfl
@[simp] theorem updNet_regBit (f : Net → Net) (r i : Nat) : (s.updNet f).regBit r i = s.regBit r i := rfl
@[simp] theorem updNet_regFld (f : Net → Net) (r hi lo : Nat) : (s.updNet f).regFld r hi lo = s.regFld r hi lo := rfl
@[simp] theorem updNet_win (f : Net → Net) (w1 : WinId) (u1 n1 : Nat) : (s.updNet f).win w1 u1 n1 = s.win w1 u1 n1 := rfl
@[simp] theorem updNet_winBit (f : Net → Net) (w1 : WinId) (u1 n1 i : Nat) : (s.updNet f).winBit w1 u1 n1 i = s.winBit w1 u1 n1 i := rfl
@[simp] theorem updNet_winFld (f : Net → Net) (w1 : WinId) (u1 n1 hi lo : Nat) : (s.updNet f).winFld w1 u1 n1 hi lo = s.winFld w1 u1 n1 hi lo := rfl

/-! ### updTrust -/

@[simp] theorem updTrust_regs (f : Trust → Trust) : (s.updTrust f).regs = s.regs := rfl
@[simp] theorem updTrust_wins (f : Trust → Trust) : (s.updTrust f).wins = s.wins := rfl
@[simp] theorem updTrust_staged (f : Trust → Trust) : (s.updTrust f).staged = s.staged := rfl
@[simp] theorem updTrust_role (f : Trust → Trust) : (s.updTrust f).role = s.role := rfl
@[simp] theorem updTrust_mode (f : Trust → Trust) : (s.updTrust f).mode = s.mode := rfl
@[simp] theorem updTrust_tb (f : Trust → Trust) : (s.updTrust f).tb = s.tb := rfl
@[simp] theorem updTrust_ptp (f : Trust → Trust) : (s.updTrust f).ptp = s.ptp := rfl
@[simp] theorem updTrust_frame (f : Trust → Trust) : (s.updTrust f).frame = s.frame := rfl
@[simp] theorem updTrust_pair (f : Trust → Trust) : (s.updTrust f).pair = s.pair := rfl
@[simp] theorem updTrust_lock (f : Trust → Trust) : (s.updTrust f).lock = s.lock := rfl
@[simp] theorem updTrust_loop (f : Trust → Trust) : (s.updTrust f).loop = s.loop := rfl
@[simp] theorem updTrust_acq (f : Trust → Trust) : (s.updTrust f).acq = s.acq := rfl
@[simp] theorem updTrust_trg (f : Trust → Trust) : (s.updTrust f).trg = s.trg := rfl
@[simp] theorem updTrust_io (f : Trust → Trust) : (s.updTrust f).io = s.io := rfl
@[simp] theorem updTrust_net (f : Trust → Trust) : (s.updTrust f).net = s.net := rfl
@[simp] theorem updTrust_can0 (f : Trust → Trust) : (s.updTrust f).can0 = s.can0 := rfl
@[simp] theorem updTrust_can1 (f : Trust → Trust) : (s.updTrust f).can1 = s.can1 := rfl
@[simp] theorem updTrust_evr (f : Trust → Trust) : (s.updTrust f).evr = s.evr := rfl
@[simp] theorem updTrust_trust (f : Trust → Trust) : (s.updTrust f).trust = f s.trust := rfl
@[simp] theorem updTrust_fab (f : Trust → Trust) : (s.updTrust f).fab = s.fab := rfl
@[simp] theorem updTrust_power (f : Trust → Trust) : (s.updTrust f).power = s.power := rfl
@[simp] theorem updTrust_qcp (f : Trust → Trust) : (s.updTrust f).qcp = s.qcp := rfl
@[simp] theorem updTrust_sent (f : Trust → Trust) : (s.updTrust f).sent = s.sent := rfl
@[simp] theorem updTrust_freeCtr (f : Trust → Trust) : (s.updTrust f).freeCtr = s.freeCtr := rfl
@[simp] theorem updTrust_pending (f : Trust → Trust) : (s.updTrust f).pending = s.pending := rfl
@[simp] theorem updTrust_reg (f : Trust → Trust) (r : Nat) : (s.updTrust f).reg r = s.reg r := rfl
@[simp] theorem updTrust_regBit (f : Trust → Trust) (r i : Nat) : (s.updTrust f).regBit r i = s.regBit r i := rfl
@[simp] theorem updTrust_regFld (f : Trust → Trust) (r hi lo : Nat) : (s.updTrust f).regFld r hi lo = s.regFld r hi lo := rfl
@[simp] theorem updTrust_win (f : Trust → Trust) (w1 : WinId) (u1 n1 : Nat) : (s.updTrust f).win w1 u1 n1 = s.win w1 u1 n1 := rfl
@[simp] theorem updTrust_winBit (f : Trust → Trust) (w1 : WinId) (u1 n1 i : Nat) : (s.updTrust f).winBit w1 u1 n1 i = s.winBit w1 u1 n1 i := rfl
@[simp] theorem updTrust_winFld (f : Trust → Trust) (w1 : WinId) (u1 n1 hi lo : Nat) : (s.updTrust f).winFld w1 u1 n1 hi lo = s.winFld w1 u1 n1 hi lo := rfl

/-! ### updPower -/

@[simp] theorem updPower_regs (f : Power → Power) : (s.updPower f).regs = s.regs := rfl
@[simp] theorem updPower_wins (f : Power → Power) : (s.updPower f).wins = s.wins := rfl
@[simp] theorem updPower_staged (f : Power → Power) : (s.updPower f).staged = s.staged := rfl
@[simp] theorem updPower_role (f : Power → Power) : (s.updPower f).role = s.role := rfl
@[simp] theorem updPower_mode (f : Power → Power) : (s.updPower f).mode = s.mode := rfl
@[simp] theorem updPower_tb (f : Power → Power) : (s.updPower f).tb = s.tb := rfl
@[simp] theorem updPower_ptp (f : Power → Power) : (s.updPower f).ptp = s.ptp := rfl
@[simp] theorem updPower_frame (f : Power → Power) : (s.updPower f).frame = s.frame := rfl
@[simp] theorem updPower_pair (f : Power → Power) : (s.updPower f).pair = s.pair := rfl
@[simp] theorem updPower_lock (f : Power → Power) : (s.updPower f).lock = s.lock := rfl
@[simp] theorem updPower_loop (f : Power → Power) : (s.updPower f).loop = s.loop := rfl
@[simp] theorem updPower_acq (f : Power → Power) : (s.updPower f).acq = s.acq := rfl
@[simp] theorem updPower_trg (f : Power → Power) : (s.updPower f).trg = s.trg := rfl
@[simp] theorem updPower_io (f : Power → Power) : (s.updPower f).io = s.io := rfl
@[simp] theorem updPower_net (f : Power → Power) : (s.updPower f).net = s.net := rfl
@[simp] theorem updPower_can0 (f : Power → Power) : (s.updPower f).can0 = s.can0 := rfl
@[simp] theorem updPower_can1 (f : Power → Power) : (s.updPower f).can1 = s.can1 := rfl
@[simp] theorem updPower_evr (f : Power → Power) : (s.updPower f).evr = s.evr := rfl
@[simp] theorem updPower_trust (f : Power → Power) : (s.updPower f).trust = s.trust := rfl
@[simp] theorem updPower_fab (f : Power → Power) : (s.updPower f).fab = s.fab := rfl
@[simp] theorem updPower_power (f : Power → Power) : (s.updPower f).power = f s.power := rfl
@[simp] theorem updPower_qcp (f : Power → Power) : (s.updPower f).qcp = s.qcp := rfl
@[simp] theorem updPower_sent (f : Power → Power) : (s.updPower f).sent = s.sent := rfl
@[simp] theorem updPower_freeCtr (f : Power → Power) : (s.updPower f).freeCtr = s.freeCtr := rfl
@[simp] theorem updPower_pending (f : Power → Power) : (s.updPower f).pending = s.pending := rfl
@[simp] theorem updPower_reg (f : Power → Power) (r : Nat) : (s.updPower f).reg r = s.reg r := rfl
@[simp] theorem updPower_regBit (f : Power → Power) (r i : Nat) : (s.updPower f).regBit r i = s.regBit r i := rfl
@[simp] theorem updPower_regFld (f : Power → Power) (r hi lo : Nat) : (s.updPower f).regFld r hi lo = s.regFld r hi lo := rfl
@[simp] theorem updPower_win (f : Power → Power) (w1 : WinId) (u1 n1 : Nat) : (s.updPower f).win w1 u1 n1 = s.win w1 u1 n1 := rfl
@[simp] theorem updPower_winBit (f : Power → Power) (w1 : WinId) (u1 n1 i : Nat) : (s.updPower f).winBit w1 u1 n1 i = s.winBit w1 u1 n1 i := rfl
@[simp] theorem updPower_winFld (f : Power → Power) (w1 : WinId) (u1 n1 hi lo : Nat) : (s.updPower f).winFld w1 u1 n1 hi lo = s.winFld w1 u1 n1 hi lo := rfl

/-! ### Record updates -/

theorem reg_congr {s t : State} (h : t.regs = s.regs) (a : Nat) : t.reg a = s.reg a := by
  unfold State.reg
  rw [h]

@[simp] theorem reg_record {x1 x2 x3 x4 x5 x6 x7 x8 x9 x10 x11 x12 x13 x14 x15 x16 x17 x18 x19 x20 x21 x22 x23 x24} (a : Nat) :
    (State.mk s.regs x1 x2 x3 x4 x5 x6 x7 x8
       x9 x10 x11 x12 x13 x14 x15 x16 x17 x18 x19 x20 x21 x22 x23 x24).reg a = s.reg a := rfl
@[simp] theorem regBit_record {x1 x2 x3 x4 x5 x6 x7 x8 x9 x10 x11 x12 x13 x14 x15 x16 x17 x18 x19 x20 x21 x22 x23 x24} (a i : Nat) :
    (State.mk s.regs x1 x2 x3 x4 x5 x6 x7 x8
       x9 x10 x11 x12 x13 x14 x15 x16 x17 x18 x19 x20 x21 x22 x23 x24).regBit a i = s.regBit a i := rfl
@[simp] theorem regFld_record {x1 x2 x3 x4 x5 x6 x7 x8 x9 x10 x11 x12 x13 x14 x15 x16 x17 x18 x19 x20 x21 x22 x23 x24} (a hi lo : Nat) :
    (State.mk s.regs x1 x2 x3 x4 x5 x6 x7 x8
       x9 x10 x11 x12 x13 x14 x15 x16 x17 x18 x19 x20 x21 x22 x23 x24).regFld a hi lo = s.regFld a hi lo := rfl
@[simp] theorem win_record {x0 x2 x3 x4 x5 x6 x7 x8 x9 x10 x11 x12 x13 x14 x15 x16 x17 x18 x19 x20 x21 x22 x23 x24} (w : WinId) (u n : Nat) :
    (State.mk x0 s.wins x2 x3 x4 x5 x6 x7 x8
       x9 x10 x11 x12 x13 x14 x15 x16 x17 x18 x19 x20 x21 x22 x23 x24).win w u n = s.win w u n := rfl


/-! ### Registers -/

/-- A register read after a register was stored. -/
theorem reg_setReg (a b : Nat) (v : Word) : (s.setReg a v).reg b = if b = a then v else s.reg b := by
  unfold State.reg State.setReg
  split
  · subst_vars
    exact sparseGet_set_self _ _ _ _
  · exact sparseGet_set_ne _ _ _ _ _ _ (by assumption)

@[simp] theorem reg_setReg_self (a : Nat) (v : Word) : (s.setReg a v).reg a = v := by simp [reg_setReg]

theorem reg_setReg_ne (a b : Nat) (v : Word) (h : b ≠ a) : (s.setReg a v).reg b = s.reg b := by simp [reg_setReg, h]

/-- A window word read after a window word was committed. -/
theorem win_setWin (w w' : WinId) (u u' n n' : Nat) (v : Word) :
    (s.setWin w u n v).win w' u' n' = if winKey w' u' n' = winKey w u n then v else s.win w' u' n' := by
  unfold State.win State.setWin
  split
  · next h =>
    rw [h]
    exact sparseGet_set_self _ _ _ _
  · exact sparseGet_set_ne _ _ _ _ _ _ (by assumption)

theorem putReg_eq (a hi lo v : Nat) : s.putReg a hi lo v = s.setReg a (putFld (s.reg a) hi lo v) := rfl
theorem putRegBit_eq (a i : Nat) (b : Bool) : s.putRegBit a i b = s.setReg a (putBit (s.reg a) i b) := rfl
theorem orReg_eq (a : Nat) (m : Word) : s.orReg a m = s.setReg a (s.reg a ||| m) := rfl
theorem clearBits_eq (a : Nat) (m : Word) : s.clearBits a m = s.setReg a (s.reg a &&& ~~~m) := rfl
theorem incReg_eq (a : Nat) : s.incReg a = s.setReg a (s.reg a + 1) := rfl
theorem addReg_eq (a n : Nat) : s.addReg a n = s.setReg a (s.reg a + BitVec.ofNat 32 n) := rfl
theorem satReg_eq (a : Nat) : s.satReg a = s.setReg a (satInc (s.reg a)) := rfl
theorem satRegFld_eq (a hi lo : Nat) : s.satRegFld a hi lo = s.setReg a (satIncFld (s.reg a) hi lo) := rfl

/-- Registers cleared: those listed read 0, the others as before. -/
theorem reg_zeroRegs (l : List Nat) (b : Nat) : (s.zeroRegs l).reg b = if b ∈ l then 0 else s.reg b := by
  induction l generalizing s with
  | nil => simp [State.zeroRegs]
  | cons a rest ih =>
    simp only [State.zeroRegs, ih, reg_setReg, List.mem_cons]
    by_cases h1 : b ∈ rest <;> by_cases h2 : b = a <;> simp [h1, h2]

/-! ### putReg -/

@[simp] theorem putReg_wins (a hi lo v : Nat) : (s.putReg a hi lo v).wins = s.wins := rfl
@[simp] theorem putReg_staged (a hi lo v : Nat) : (s.putReg a hi lo v).staged = s.staged := rfl
@[simp] theorem putReg_role (a hi lo v : Nat) : (s.putReg a hi lo v).role = s.role := rfl
@[simp] theorem putReg_mode (a hi lo v : Nat) : (s.putReg a hi lo v).mode = s.mode := rfl
@[simp] theorem putReg_tb (a hi lo v : Nat) : (s.putReg a hi lo v).tb = s.tb := rfl
@[simp] theorem putReg_ptp (a hi lo v : Nat) : (s.putReg a hi lo v).ptp = s.ptp := rfl
@[simp] theorem putReg_frame (a hi lo v : Nat) : (s.putReg a hi lo v).frame = s.frame := rfl
@[simp] theorem putReg_pair (a hi lo v : Nat) : (s.putReg a hi lo v).pair = s.pair := rfl
@[simp] theorem putReg_lock (a hi lo v : Nat) : (s.putReg a hi lo v).lock = s.lock := rfl
@[simp] theorem putReg_loop (a hi lo v : Nat) : (s.putReg a hi lo v).loop = s.loop := rfl
@[simp] theorem putReg_acq (a hi lo v : Nat) : (s.putReg a hi lo v).acq = s.acq := rfl
@[simp] theorem putReg_trg (a hi lo v : Nat) : (s.putReg a hi lo v).trg = s.trg := rfl
@[simp] theorem putReg_io (a hi lo v : Nat) : (s.putReg a hi lo v).io = s.io := rfl
@[simp] theorem putReg_net (a hi lo v : Nat) : (s.putReg a hi lo v).net = s.net := rfl
@[simp] theorem putReg_can0 (a hi lo v : Nat) : (s.putReg a hi lo v).can0 = s.can0 := rfl
@[simp] theorem putReg_can1 (a hi lo v : Nat) : (s.putReg a hi lo v).can1 = s.can1 := rfl
@[simp] theorem putReg_evr (a hi lo v : Nat) : (s.putReg a hi lo v).evr = s.evr := rfl
@[simp] theorem putReg_trust (a hi lo v : Nat) : (s.putReg a hi lo v).trust = s.trust := rfl
@[simp] theorem putReg_fab (a hi lo v : Nat) : (s.putReg a hi lo v).fab = s.fab := rfl
@[simp] theorem putReg_power (a hi lo v : Nat) : (s.putReg a hi lo v).power = s.power := rfl
@[simp] theorem putReg_qcp (a hi lo v : Nat) : (s.putReg a hi lo v).qcp = s.qcp := rfl
@[simp] theorem putReg_sent (a hi lo v : Nat) : (s.putReg a hi lo v).sent = s.sent := rfl
@[simp] theorem putReg_freeCtr (a hi lo v : Nat) : (s.putReg a hi lo v).freeCtr = s.freeCtr := rfl
@[simp] theorem putReg_pending (a hi lo v : Nat) : (s.putReg a hi lo v).pending = s.pending := rfl

/-! ### putRegBit -/

@[simp] theorem putRegBit_wins (a i : Nat) (b : Bool) : (s.putRegBit a i b).wins = s.wins := rfl
@[simp] theorem putRegBit_staged (a i : Nat) (b : Bool) : (s.putRegBit a i b).staged = s.staged := rfl
@[simp] theorem putRegBit_role (a i : Nat) (b : Bool) : (s.putRegBit a i b).role = s.role := rfl
@[simp] theorem putRegBit_mode (a i : Nat) (b : Bool) : (s.putRegBit a i b).mode = s.mode := rfl
@[simp] theorem putRegBit_tb (a i : Nat) (b : Bool) : (s.putRegBit a i b).tb = s.tb := rfl
@[simp] theorem putRegBit_ptp (a i : Nat) (b : Bool) : (s.putRegBit a i b).ptp = s.ptp := rfl
@[simp] theorem putRegBit_frame (a i : Nat) (b : Bool) : (s.putRegBit a i b).frame = s.frame := rfl
@[simp] theorem putRegBit_pair (a i : Nat) (b : Bool) : (s.putRegBit a i b).pair = s.pair := rfl
@[simp] theorem putRegBit_lock (a i : Nat) (b : Bool) : (s.putRegBit a i b).lock = s.lock := rfl
@[simp] theorem putRegBit_loop (a i : Nat) (b : Bool) : (s.putRegBit a i b).loop = s.loop := rfl
@[simp] theorem putRegBit_acq (a i : Nat) (b : Bool) : (s.putRegBit a i b).acq = s.acq := rfl
@[simp] theorem putRegBit_trg (a i : Nat) (b : Bool) : (s.putRegBit a i b).trg = s.trg := rfl
@[simp] theorem putRegBit_io (a i : Nat) (b : Bool) : (s.putRegBit a i b).io = s.io := rfl
@[simp] theorem putRegBit_net (a i : Nat) (b : Bool) : (s.putRegBit a i b).net = s.net := rfl
@[simp] theorem putRegBit_can0 (a i : Nat) (b : Bool) : (s.putRegBit a i b).can0 = s.can0 := rfl
@[simp] theorem putRegBit_can1 (a i : Nat) (b : Bool) : (s.putRegBit a i b).can1 = s.can1 := rfl
@[simp] theorem putRegBit_evr (a i : Nat) (b : Bool) : (s.putRegBit a i b).evr = s.evr := rfl
@[simp] theorem putRegBit_trust (a i : Nat) (b : Bool) : (s.putRegBit a i b).trust = s.trust := rfl
@[simp] theorem putRegBit_fab (a i : Nat) (b : Bool) : (s.putRegBit a i b).fab = s.fab := rfl
@[simp] theorem putRegBit_power (a i : Nat) (b : Bool) : (s.putRegBit a i b).power = s.power := rfl
@[simp] theorem putRegBit_qcp (a i : Nat) (b : Bool) : (s.putRegBit a i b).qcp = s.qcp := rfl
@[simp] theorem putRegBit_sent (a i : Nat) (b : Bool) : (s.putRegBit a i b).sent = s.sent := rfl
@[simp] theorem putRegBit_freeCtr (a i : Nat) (b : Bool) : (s.putRegBit a i b).freeCtr = s.freeCtr := rfl
@[simp] theorem putRegBit_pending (a i : Nat) (b : Bool) : (s.putRegBit a i b).pending = s.pending := rfl

/-! ### orReg -/

@[simp] theorem orReg_wins (a : Nat) (m : Word) : (s.orReg a m).wins = s.wins := rfl
@[simp] theorem orReg_staged (a : Nat) (m : Word) : (s.orReg a m).staged = s.staged := rfl
@[simp] theorem orReg_role (a : Nat) (m : Word) : (s.orReg a m).role = s.role := rfl
@[simp] theorem orReg_mode (a : Nat) (m : Word) : (s.orReg a m).mode = s.mode := rfl
@[simp] theorem orReg_tb (a : Nat) (m : Word) : (s.orReg a m).tb = s.tb := rfl
@[simp] theorem orReg_ptp (a : Nat) (m : Word) : (s.orReg a m).ptp = s.ptp := rfl
@[simp] theorem orReg_frame (a : Nat) (m : Word) : (s.orReg a m).frame = s.frame := rfl
@[simp] theorem orReg_pair (a : Nat) (m : Word) : (s.orReg a m).pair = s.pair := rfl
@[simp] theorem orReg_lock (a : Nat) (m : Word) : (s.orReg a m).lock = s.lock := rfl
@[simp] theorem orReg_loop (a : Nat) (m : Word) : (s.orReg a m).loop = s.loop := rfl
@[simp] theorem orReg_acq (a : Nat) (m : Word) : (s.orReg a m).acq = s.acq := rfl
@[simp] theorem orReg_trg (a : Nat) (m : Word) : (s.orReg a m).trg = s.trg := rfl
@[simp] theorem orReg_io (a : Nat) (m : Word) : (s.orReg a m).io = s.io := rfl
@[simp] theorem orReg_net (a : Nat) (m : Word) : (s.orReg a m).net = s.net := rfl
@[simp] theorem orReg_can0 (a : Nat) (m : Word) : (s.orReg a m).can0 = s.can0 := rfl
@[simp] theorem orReg_can1 (a : Nat) (m : Word) : (s.orReg a m).can1 = s.can1 := rfl
@[simp] theorem orReg_evr (a : Nat) (m : Word) : (s.orReg a m).evr = s.evr := rfl
@[simp] theorem orReg_trust (a : Nat) (m : Word) : (s.orReg a m).trust = s.trust := rfl
@[simp] theorem orReg_fab (a : Nat) (m : Word) : (s.orReg a m).fab = s.fab := rfl
@[simp] theorem orReg_power (a : Nat) (m : Word) : (s.orReg a m).power = s.power := rfl
@[simp] theorem orReg_qcp (a : Nat) (m : Word) : (s.orReg a m).qcp = s.qcp := rfl
@[simp] theorem orReg_sent (a : Nat) (m : Word) : (s.orReg a m).sent = s.sent := rfl
@[simp] theorem orReg_freeCtr (a : Nat) (m : Word) : (s.orReg a m).freeCtr = s.freeCtr := rfl
@[simp] theorem orReg_pending (a : Nat) (m : Word) : (s.orReg a m).pending = s.pending := rfl

/-! ### clearBits -/

@[simp] theorem clearBits_wins (a : Nat) (m : Word) : (s.clearBits a m).wins = s.wins := rfl
@[simp] theorem clearBits_staged (a : Nat) (m : Word) : (s.clearBits a m).staged = s.staged := rfl
@[simp] theorem clearBits_role (a : Nat) (m : Word) : (s.clearBits a m).role = s.role := rfl
@[simp] theorem clearBits_mode (a : Nat) (m : Word) : (s.clearBits a m).mode = s.mode := rfl
@[simp] theorem clearBits_tb (a : Nat) (m : Word) : (s.clearBits a m).tb = s.tb := rfl
@[simp] theorem clearBits_ptp (a : Nat) (m : Word) : (s.clearBits a m).ptp = s.ptp := rfl
@[simp] theorem clearBits_frame (a : Nat) (m : Word) : (s.clearBits a m).frame = s.frame := rfl
@[simp] theorem clearBits_pair (a : Nat) (m : Word) : (s.clearBits a m).pair = s.pair := rfl
@[simp] theorem clearBits_lock (a : Nat) (m : Word) : (s.clearBits a m).lock = s.lock := rfl
@[simp] theorem clearBits_loop (a : Nat) (m : Word) : (s.clearBits a m).loop = s.loop := rfl
@[simp] theorem clearBits_acq (a : Nat) (m : Word) : (s.clearBits a m).acq = s.acq := rfl
@[simp] theorem clearBits_trg (a : Nat) (m : Word) : (s.clearBits a m).trg = s.trg := rfl
@[simp] theorem clearBits_io (a : Nat) (m : Word) : (s.clearBits a m).io = s.io := rfl
@[simp] theorem clearBits_net (a : Nat) (m : Word) : (s.clearBits a m).net = s.net := rfl
@[simp] theorem clearBits_can0 (a : Nat) (m : Word) : (s.clearBits a m).can0 = s.can0 := rfl
@[simp] theorem clearBits_can1 (a : Nat) (m : Word) : (s.clearBits a m).can1 = s.can1 := rfl
@[simp] theorem clearBits_evr (a : Nat) (m : Word) : (s.clearBits a m).evr = s.evr := rfl
@[simp] theorem clearBits_trust (a : Nat) (m : Word) : (s.clearBits a m).trust = s.trust := rfl
@[simp] theorem clearBits_fab (a : Nat) (m : Word) : (s.clearBits a m).fab = s.fab := rfl
@[simp] theorem clearBits_power (a : Nat) (m : Word) : (s.clearBits a m).power = s.power := rfl
@[simp] theorem clearBits_qcp (a : Nat) (m : Word) : (s.clearBits a m).qcp = s.qcp := rfl
@[simp] theorem clearBits_sent (a : Nat) (m : Word) : (s.clearBits a m).sent = s.sent := rfl
@[simp] theorem clearBits_freeCtr (a : Nat) (m : Word) : (s.clearBits a m).freeCtr = s.freeCtr := rfl
@[simp] theorem clearBits_pending (a : Nat) (m : Word) : (s.clearBits a m).pending = s.pending := rfl

/-! ### incReg -/

@[simp] theorem incReg_wins (a : Nat) : (s.incReg a).wins = s.wins := rfl
@[simp] theorem incReg_staged (a : Nat) : (s.incReg a).staged = s.staged := rfl
@[simp] theorem incReg_role (a : Nat) : (s.incReg a).role = s.role := rfl
@[simp] theorem incReg_mode (a : Nat) : (s.incReg a).mode = s.mode := rfl
@[simp] theorem incReg_tb (a : Nat) : (s.incReg a).tb = s.tb := rfl
@[simp] theorem incReg_ptp (a : Nat) : (s.incReg a).ptp = s.ptp := rfl
@[simp] theorem incReg_frame (a : Nat) : (s.incReg a).frame = s.frame := rfl
@[simp] theorem incReg_pair (a : Nat) : (s.incReg a).pair = s.pair := rfl
@[simp] theorem incReg_lock (a : Nat) : (s.incReg a).lock = s.lock := rfl
@[simp] theorem incReg_loop (a : Nat) : (s.incReg a).loop = s.loop := rfl
@[simp] theorem incReg_acq (a : Nat) : (s.incReg a).acq = s.acq := rfl
@[simp] theorem incReg_trg (a : Nat) : (s.incReg a).trg = s.trg := rfl
@[simp] theorem incReg_io (a : Nat) : (s.incReg a).io = s.io := rfl
@[simp] theorem incReg_net (a : Nat) : (s.incReg a).net = s.net := rfl
@[simp] theorem incReg_can0 (a : Nat) : (s.incReg a).can0 = s.can0 := rfl
@[simp] theorem incReg_can1 (a : Nat) : (s.incReg a).can1 = s.can1 := rfl
@[simp] theorem incReg_evr (a : Nat) : (s.incReg a).evr = s.evr := rfl
@[simp] theorem incReg_trust (a : Nat) : (s.incReg a).trust = s.trust := rfl
@[simp] theorem incReg_fab (a : Nat) : (s.incReg a).fab = s.fab := rfl
@[simp] theorem incReg_power (a : Nat) : (s.incReg a).power = s.power := rfl
@[simp] theorem incReg_qcp (a : Nat) : (s.incReg a).qcp = s.qcp := rfl
@[simp] theorem incReg_sent (a : Nat) : (s.incReg a).sent = s.sent := rfl
@[simp] theorem incReg_freeCtr (a : Nat) : (s.incReg a).freeCtr = s.freeCtr := rfl
@[simp] theorem incReg_pending (a : Nat) : (s.incReg a).pending = s.pending := rfl

/-! ### addReg -/

@[simp] theorem addReg_wins (a n : Nat) : (s.addReg a n).wins = s.wins := rfl
@[simp] theorem addReg_staged (a n : Nat) : (s.addReg a n).staged = s.staged := rfl
@[simp] theorem addReg_role (a n : Nat) : (s.addReg a n).role = s.role := rfl
@[simp] theorem addReg_mode (a n : Nat) : (s.addReg a n).mode = s.mode := rfl
@[simp] theorem addReg_tb (a n : Nat) : (s.addReg a n).tb = s.tb := rfl
@[simp] theorem addReg_ptp (a n : Nat) : (s.addReg a n).ptp = s.ptp := rfl
@[simp] theorem addReg_frame (a n : Nat) : (s.addReg a n).frame = s.frame := rfl
@[simp] theorem addReg_pair (a n : Nat) : (s.addReg a n).pair = s.pair := rfl
@[simp] theorem addReg_lock (a n : Nat) : (s.addReg a n).lock = s.lock := rfl
@[simp] theorem addReg_loop (a n : Nat) : (s.addReg a n).loop = s.loop := rfl
@[simp] theorem addReg_acq (a n : Nat) : (s.addReg a n).acq = s.acq := rfl
@[simp] theorem addReg_trg (a n : Nat) : (s.addReg a n).trg = s.trg := rfl
@[simp] theorem addReg_io (a n : Nat) : (s.addReg a n).io = s.io := rfl
@[simp] theorem addReg_net (a n : Nat) : (s.addReg a n).net = s.net := rfl
@[simp] theorem addReg_can0 (a n : Nat) : (s.addReg a n).can0 = s.can0 := rfl
@[simp] theorem addReg_can1 (a n : Nat) : (s.addReg a n).can1 = s.can1 := rfl
@[simp] theorem addReg_evr (a n : Nat) : (s.addReg a n).evr = s.evr := rfl
@[simp] theorem addReg_trust (a n : Nat) : (s.addReg a n).trust = s.trust := rfl
@[simp] theorem addReg_fab (a n : Nat) : (s.addReg a n).fab = s.fab := rfl
@[simp] theorem addReg_power (a n : Nat) : (s.addReg a n).power = s.power := rfl
@[simp] theorem addReg_qcp (a n : Nat) : (s.addReg a n).qcp = s.qcp := rfl
@[simp] theorem addReg_sent (a n : Nat) : (s.addReg a n).sent = s.sent := rfl
@[simp] theorem addReg_freeCtr (a n : Nat) : (s.addReg a n).freeCtr = s.freeCtr := rfl
@[simp] theorem addReg_pending (a n : Nat) : (s.addReg a n).pending = s.pending := rfl

/-! ### satReg -/

@[simp] theorem satReg_wins (a : Nat) : (s.satReg a).wins = s.wins := rfl
@[simp] theorem satReg_staged (a : Nat) : (s.satReg a).staged = s.staged := rfl
@[simp] theorem satReg_role (a : Nat) : (s.satReg a).role = s.role := rfl
@[simp] theorem satReg_mode (a : Nat) : (s.satReg a).mode = s.mode := rfl
@[simp] theorem satReg_tb (a : Nat) : (s.satReg a).tb = s.tb := rfl
@[simp] theorem satReg_ptp (a : Nat) : (s.satReg a).ptp = s.ptp := rfl
@[simp] theorem satReg_frame (a : Nat) : (s.satReg a).frame = s.frame := rfl
@[simp] theorem satReg_pair (a : Nat) : (s.satReg a).pair = s.pair := rfl
@[simp] theorem satReg_lock (a : Nat) : (s.satReg a).lock = s.lock := rfl
@[simp] theorem satReg_loop (a : Nat) : (s.satReg a).loop = s.loop := rfl
@[simp] theorem satReg_acq (a : Nat) : (s.satReg a).acq = s.acq := rfl
@[simp] theorem satReg_trg (a : Nat) : (s.satReg a).trg = s.trg := rfl
@[simp] theorem satReg_io (a : Nat) : (s.satReg a).io = s.io := rfl
@[simp] theorem satReg_net (a : Nat) : (s.satReg a).net = s.net := rfl
@[simp] theorem satReg_can0 (a : Nat) : (s.satReg a).can0 = s.can0 := rfl
@[simp] theorem satReg_can1 (a : Nat) : (s.satReg a).can1 = s.can1 := rfl
@[simp] theorem satReg_evr (a : Nat) : (s.satReg a).evr = s.evr := rfl
@[simp] theorem satReg_trust (a : Nat) : (s.satReg a).trust = s.trust := rfl
@[simp] theorem satReg_fab (a : Nat) : (s.satReg a).fab = s.fab := rfl
@[simp] theorem satReg_power (a : Nat) : (s.satReg a).power = s.power := rfl
@[simp] theorem satReg_qcp (a : Nat) : (s.satReg a).qcp = s.qcp := rfl
@[simp] theorem satReg_sent (a : Nat) : (s.satReg a).sent = s.sent := rfl
@[simp] theorem satReg_freeCtr (a : Nat) : (s.satReg a).freeCtr = s.freeCtr := rfl
@[simp] theorem satReg_pending (a : Nat) : (s.satReg a).pending = s.pending := rfl

/-! ### satRegFld -/

@[simp] theorem satRegFld_wins (a hi lo : Nat) : (s.satRegFld a hi lo).wins = s.wins := rfl
@[simp] theorem satRegFld_staged (a hi lo : Nat) : (s.satRegFld a hi lo).staged = s.staged := rfl
@[simp] theorem satRegFld_role (a hi lo : Nat) : (s.satRegFld a hi lo).role = s.role := rfl
@[simp] theorem satRegFld_mode (a hi lo : Nat) : (s.satRegFld a hi lo).mode = s.mode := rfl
@[simp] theorem satRegFld_tb (a hi lo : Nat) : (s.satRegFld a hi lo).tb = s.tb := rfl
@[simp] theorem satRegFld_ptp (a hi lo : Nat) : (s.satRegFld a hi lo).ptp = s.ptp := rfl
@[simp] theorem satRegFld_frame (a hi lo : Nat) : (s.satRegFld a hi lo).frame = s.frame := rfl
@[simp] theorem satRegFld_pair (a hi lo : Nat) : (s.satRegFld a hi lo).pair = s.pair := rfl
@[simp] theorem satRegFld_lock (a hi lo : Nat) : (s.satRegFld a hi lo).lock = s.lock := rfl
@[simp] theorem satRegFld_loop (a hi lo : Nat) : (s.satRegFld a hi lo).loop = s.loop := rfl
@[simp] theorem satRegFld_acq (a hi lo : Nat) : (s.satRegFld a hi lo).acq = s.acq := rfl
@[simp] theorem satRegFld_trg (a hi lo : Nat) : (s.satRegFld a hi lo).trg = s.trg := rfl
@[simp] theorem satRegFld_io (a hi lo : Nat) : (s.satRegFld a hi lo).io = s.io := rfl
@[simp] theorem satRegFld_net (a hi lo : Nat) : (s.satRegFld a hi lo).net = s.net := rfl
@[simp] theorem satRegFld_can0 (a hi lo : Nat) : (s.satRegFld a hi lo).can0 = s.can0 := rfl
@[simp] theorem satRegFld_can1 (a hi lo : Nat) : (s.satRegFld a hi lo).can1 = s.can1 := rfl
@[simp] theorem satRegFld_evr (a hi lo : Nat) : (s.satRegFld a hi lo).evr = s.evr := rfl
@[simp] theorem satRegFld_trust (a hi lo : Nat) : (s.satRegFld a hi lo).trust = s.trust := rfl
@[simp] theorem satRegFld_fab (a hi lo : Nat) : (s.satRegFld a hi lo).fab = s.fab := rfl
@[simp] theorem satRegFld_power (a hi lo : Nat) : (s.satRegFld a hi lo).power = s.power := rfl
@[simp] theorem satRegFld_qcp (a hi lo : Nat) : (s.satRegFld a hi lo).qcp = s.qcp := rfl
@[simp] theorem satRegFld_sent (a hi lo : Nat) : (s.satRegFld a hi lo).sent = s.sent := rfl
@[simp] theorem satRegFld_freeCtr (a hi lo : Nat) : (s.satRegFld a hi lo).freeCtr = s.freeCtr := rfl
@[simp] theorem satRegFld_pending (a hi lo : Nat) : (s.satRegFld a hi lo).pending = s.pending := rfl

/-! ### zeroRegs -/

@[simp] theorem zeroRegs_wins (l : List Nat) : (s.zeroRegs l).wins = s.wins := by
  induction l generalizing s with
  | nil => rfl
  | cons a rest ih => simp [State.zeroRegs, ih]
@[simp] theorem zeroRegs_staged (l : List Nat) : (s.zeroRegs l).staged = s.staged := by
  induction l generalizing s with
  | nil => rfl
  | cons a rest ih => simp [State.zeroRegs, ih]
@[simp] theorem zeroRegs_role (l : List Nat) : (s.zeroRegs l).role = s.role := by
  induction l generalizing s with
  | nil => rfl
  | cons a rest ih => simp [State.zeroRegs, ih]
@[simp] theorem zeroRegs_mode (l : List Nat) : (s.zeroRegs l).mode = s.mode := by
  induction l generalizing s with
  | nil => rfl
  | cons a rest ih => simp [State.zeroRegs, ih]
@[simp] theorem zeroRegs_tb (l : List Nat) : (s.zeroRegs l).tb = s.tb := by
  induction l generalizing s with
  | nil => rfl
  | cons a rest ih => simp [State.zeroRegs, ih]
@[simp] theorem zeroRegs_ptp (l : List Nat) : (s.zeroRegs l).ptp = s.ptp := by
  induction l generalizing s with
  | nil => rfl
  | cons a rest ih => simp [State.zeroRegs, ih]
@[simp] theorem zeroRegs_frame (l : List Nat) : (s.zeroRegs l).frame = s.frame := by
  induction l generalizing s with
  | nil => rfl
  | cons a rest ih => simp [State.zeroRegs, ih]
@[simp] theorem zeroRegs_pair (l : List Nat) : (s.zeroRegs l).pair = s.pair := by
  induction l generalizing s with
  | nil => rfl
  | cons a rest ih => simp [State.zeroRegs, ih]
@[simp] theorem zeroRegs_lock (l : List Nat) : (s.zeroRegs l).lock = s.lock := by
  induction l generalizing s with
  | nil => rfl
  | cons a rest ih => simp [State.zeroRegs, ih]
@[simp] theorem zeroRegs_loop (l : List Nat) : (s.zeroRegs l).loop = s.loop := by
  induction l generalizing s with
  | nil => rfl
  | cons a rest ih => simp [State.zeroRegs, ih]
@[simp] theorem zeroRegs_acq (l : List Nat) : (s.zeroRegs l).acq = s.acq := by
  induction l generalizing s with
  | nil => rfl
  | cons a rest ih => simp [State.zeroRegs, ih]
@[simp] theorem zeroRegs_trg (l : List Nat) : (s.zeroRegs l).trg = s.trg := by
  induction l generalizing s with
  | nil => rfl
  | cons a rest ih => simp [State.zeroRegs, ih]
@[simp] theorem zeroRegs_io (l : List Nat) : (s.zeroRegs l).io = s.io := by
  induction l generalizing s with
  | nil => rfl
  | cons a rest ih => simp [State.zeroRegs, ih]
@[simp] theorem zeroRegs_net (l : List Nat) : (s.zeroRegs l).net = s.net := by
  induction l generalizing s with
  | nil => rfl
  | cons a rest ih => simp [State.zeroRegs, ih]
@[simp] theorem zeroRegs_can0 (l : List Nat) : (s.zeroRegs l).can0 = s.can0 := by
  induction l generalizing s with
  | nil => rfl
  | cons a rest ih => simp [State.zeroRegs, ih]
@[simp] theorem zeroRegs_can1 (l : List Nat) : (s.zeroRegs l).can1 = s.can1 := by
  induction l generalizing s with
  | nil => rfl
  | cons a rest ih => simp [State.zeroRegs, ih]
@[simp] theorem zeroRegs_evr (l : List Nat) : (s.zeroRegs l).evr = s.evr := by
  induction l generalizing s with
  | nil => rfl
  | cons a rest ih => simp [State.zeroRegs, ih]
@[simp] theorem zeroRegs_trust (l : List Nat) : (s.zeroRegs l).trust = s.trust := by
  induction l generalizing s with
  | nil => rfl
  | cons a rest ih => simp [State.zeroRegs, ih]
@[simp] theorem zeroRegs_fab (l : List Nat) : (s.zeroRegs l).fab = s.fab := by
  induction l generalizing s with
  | nil => rfl
  | cons a rest ih => simp [State.zeroRegs, ih]
@[simp] theorem zeroRegs_power (l : List Nat) : (s.zeroRegs l).power = s.power := by
  induction l generalizing s with
  | nil => rfl
  | cons a rest ih => simp [State.zeroRegs, ih]
@[simp] theorem zeroRegs_qcp (l : List Nat) : (s.zeroRegs l).qcp = s.qcp := by
  induction l generalizing s with
  | nil => rfl
  | cons a rest ih => simp [State.zeroRegs, ih]
@[simp] theorem zeroRegs_sent (l : List Nat) : (s.zeroRegs l).sent = s.sent := by
  induction l generalizing s with
  | nil => rfl
  | cons a rest ih => simp [State.zeroRegs, ih]
@[simp] theorem zeroRegs_freeCtr (l : List Nat) : (s.zeroRegs l).freeCtr = s.freeCtr := by
  induction l generalizing s with
  | nil => rfl
  | cons a rest ih => simp [State.zeroRegs, ih]
@[simp] theorem zeroRegs_pending (l : List Nat) : (s.zeroRegs l).pending = s.pending := by
  induction l generalizing s with
  | nil => rfl
  | cons a rest ih => simp [State.zeroRegs, ih]

/-! ### raiseWith -/

@[simp] theorem raiseWith_regs (code severity src : Nat) (extra : List Word) : (s.raiseWith code severity src extra).regs = s.regs := by
  unfold State.raiseWith; split <;> rfl
@[simp] theorem raiseWith_wins (code severity src : Nat) (extra : List Word) : (s.raiseWith code severity src extra).wins = s.wins := by
  unfold State.raiseWith; split <;> rfl
@[simp] theorem raiseWith_staged (code severity src : Nat) (extra : List Word) : (s.raiseWith code severity src extra).staged = s.staged := by
  unfold State.raiseWith; split <;> rfl
@[simp] theorem raiseWith_role (code severity src : Nat) (extra : List Word) : (s.raiseWith code severity src extra).role = s.role := by
  unfold State.raiseWith; split <;> rfl
@[simp] theorem raiseWith_mode (code severity src : Nat) (extra : List Word) : (s.raiseWith code severity src extra).mode = s.mode := by
  unfold State.raiseWith; split <;> rfl
@[simp] theorem raiseWith_tb (code severity src : Nat) (extra : List Word) : (s.raiseWith code severity src extra).tb = s.tb := by
  unfold State.raiseWith; split <;> rfl
@[simp] theorem raiseWith_ptp (code severity src : Nat) (extra : List Word) : (s.raiseWith code severity src extra).ptp = s.ptp := by
  unfold State.raiseWith; split <;> rfl
@[simp] theorem raiseWith_frame (code severity src : Nat) (extra : List Word) : (s.raiseWith code severity src extra).frame = s.frame := by
  unfold State.raiseWith; split <;> rfl
@[simp] theorem raiseWith_pair (code severity src : Nat) (extra : List Word) : (s.raiseWith code severity src extra).pair = s.pair := by
  unfold State.raiseWith; split <;> rfl
@[simp] theorem raiseWith_lock (code severity src : Nat) (extra : List Word) : (s.raiseWith code severity src extra).lock = s.lock := by
  unfold State.raiseWith; split <;> rfl
@[simp] theorem raiseWith_loop (code severity src : Nat) (extra : List Word) : (s.raiseWith code severity src extra).loop = s.loop := by
  unfold State.raiseWith; split <;> rfl
@[simp] theorem raiseWith_acq (code severity src : Nat) (extra : List Word) : (s.raiseWith code severity src extra).acq = s.acq := by
  unfold State.raiseWith; split <;> rfl
@[simp] theorem raiseWith_trg (code severity src : Nat) (extra : List Word) : (s.raiseWith code severity src extra).trg = s.trg := by
  unfold State.raiseWith; split <;> rfl
@[simp] theorem raiseWith_io (code severity src : Nat) (extra : List Word) : (s.raiseWith code severity src extra).io = s.io := by
  unfold State.raiseWith; split <;> rfl
@[simp] theorem raiseWith_net (code severity src : Nat) (extra : List Word) : (s.raiseWith code severity src extra).net = s.net := by
  unfold State.raiseWith; split <;> rfl
@[simp] theorem raiseWith_can0 (code severity src : Nat) (extra : List Word) : (s.raiseWith code severity src extra).can0 = s.can0 := by
  unfold State.raiseWith; split <;> rfl
@[simp] theorem raiseWith_can1 (code severity src : Nat) (extra : List Word) : (s.raiseWith code severity src extra).can1 = s.can1 := by
  unfold State.raiseWith; split <;> rfl
@[simp] theorem raiseWith_trust (code severity src : Nat) (extra : List Word) : (s.raiseWith code severity src extra).trust = s.trust := by
  unfold State.raiseWith; split <;> rfl
@[simp] theorem raiseWith_fab (code severity src : Nat) (extra : List Word) : (s.raiseWith code severity src extra).fab = s.fab := by
  unfold State.raiseWith; split <;> rfl
@[simp] theorem raiseWith_power (code severity src : Nat) (extra : List Word) : (s.raiseWith code severity src extra).power = s.power := by
  unfold State.raiseWith; split <;> rfl
@[simp] theorem raiseWith_qcp (code severity src : Nat) (extra : List Word) : (s.raiseWith code severity src extra).qcp = s.qcp := by
  unfold State.raiseWith; split <;> rfl
@[simp] theorem raiseWith_sent (code severity src : Nat) (extra : List Word) : (s.raiseWith code severity src extra).sent = s.sent := by
  unfold State.raiseWith; split <;> rfl
@[simp] theorem raiseWith_freeCtr (code severity src : Nat) (extra : List Word) : (s.raiseWith code severity src extra).freeCtr = s.freeCtr := by
  unfold State.raiseWith; split <;> rfl
@[simp] theorem raiseWith_pending (code severity src : Nat) (extra : List Word) : (s.raiseWith code severity src extra).pending = s.pending := by
  unfold State.raiseWith; split <;> rfl
@[simp] theorem raiseWith_reg (code severity src : Nat) (extra : List Word) (r : Nat) : (s.raiseWith code severity src extra).reg r = s.reg r := by
  simp [State.reg]
@[simp] theorem raiseWith_regBit (code severity src : Nat) (extra : List Word) (r i : Nat) : (s.raiseWith code severity src extra).regBit r i = s.regBit r i := by
  simp [State.reg, State.regBit]
@[simp] theorem raiseWith_regFld (code severity src : Nat) (extra : List Word) (r hi lo : Nat) : (s.raiseWith code severity src extra).regFld r hi lo = s.regFld r hi lo := by
  simp [State.reg, State.regFld]
@[simp] theorem raiseWith_win (code severity src : Nat) (extra : List Word) (w1 : WinId) (u1 n1 : Nat) : (s.raiseWith code severity src extra).win w1 u1 n1 = s.win w1 u1 n1 := by
  simp [State.win]

/-! ### raise -/

@[simp] theorem raise_regs (code src : Nat) : (s.raise code src).regs = s.regs := raiseWith_regs _ _ _ _ _
@[simp] theorem raise_wins (code src : Nat) : (s.raise code src).wins = s.wins := raiseWith_wins _ _ _ _ _
@[simp] theorem raise_staged (code src : Nat) : (s.raise code src).staged = s.staged := raiseWith_staged _ _ _ _ _
@[simp] theorem raise_role (code src : Nat) : (s.raise code src).role = s.role := raiseWith_role _ _ _ _ _
@[simp] theorem raise_mode (code src : Nat) : (s.raise code src).mode = s.mode := raiseWith_mode _ _ _ _ _
@[simp] theorem raise_tb (code src : Nat) : (s.raise code src).tb = s.tb := raiseWith_tb _ _ _ _ _
@[simp] theorem raise_ptp (code src : Nat) : (s.raise code src).ptp = s.ptp := raiseWith_ptp _ _ _ _ _
@[simp] theorem raise_frame (code src : Nat) : (s.raise code src).frame = s.frame := raiseWith_frame _ _ _ _ _
@[simp] theorem raise_pair (code src : Nat) : (s.raise code src).pair = s.pair := raiseWith_pair _ _ _ _ _
@[simp] theorem raise_lock (code src : Nat) : (s.raise code src).lock = s.lock := raiseWith_lock _ _ _ _ _
@[simp] theorem raise_loop (code src : Nat) : (s.raise code src).loop = s.loop := raiseWith_loop _ _ _ _ _
@[simp] theorem raise_acq (code src : Nat) : (s.raise code src).acq = s.acq := raiseWith_acq _ _ _ _ _
@[simp] theorem raise_trg (code src : Nat) : (s.raise code src).trg = s.trg := raiseWith_trg _ _ _ _ _
@[simp] theorem raise_io (code src : Nat) : (s.raise code src).io = s.io := raiseWith_io _ _ _ _ _
@[simp] theorem raise_net (code src : Nat) : (s.raise code src).net = s.net := raiseWith_net _ _ _ _ _
@[simp] theorem raise_can0 (code src : Nat) : (s.raise code src).can0 = s.can0 := raiseWith_can0 _ _ _ _ _
@[simp] theorem raise_can1 (code src : Nat) : (s.raise code src).can1 = s.can1 := raiseWith_can1 _ _ _ _ _
@[simp] theorem raise_trust (code src : Nat) : (s.raise code src).trust = s.trust := raiseWith_trust _ _ _ _ _
@[simp] theorem raise_fab (code src : Nat) : (s.raise code src).fab = s.fab := raiseWith_fab _ _ _ _ _
@[simp] theorem raise_power (code src : Nat) : (s.raise code src).power = s.power := raiseWith_power _ _ _ _ _
@[simp] theorem raise_qcp (code src : Nat) : (s.raise code src).qcp = s.qcp := raiseWith_qcp _ _ _ _ _
@[simp] theorem raise_sent (code src : Nat) : (s.raise code src).sent = s.sent := raiseWith_sent _ _ _ _ _
@[simp] theorem raise_freeCtr (code src : Nat) : (s.raise code src).freeCtr = s.freeCtr := raiseWith_freeCtr _ _ _ _ _
@[simp] theorem raise_pending (code src : Nat) : (s.raise code src).pending = s.pending := raiseWith_pending _ _ _ _ _
@[simp] theorem raise_reg (code src : Nat) (r : Nat) : (s.raise code src).reg r = s.reg r := by
  simp [State.reg]
@[simp] theorem raise_regBit (code src : Nat) (r i : Nat) : (s.raise code src).regBit r i = s.regBit r i := by
  simp [State.reg, State.regBit]
@[simp] theorem raise_regFld (code src : Nat) (r hi lo : Nat) : (s.raise code src).regFld r hi lo = s.regFld r hi lo := by
  simp [State.reg, State.regFld]
@[simp] theorem raise_win (code src : Nat) (w1 : WinId) (u1 n1 : Nat) : (s.raise code src).win w1 u1 n1 = s.win w1 u1 n1 := by
  simp [State.win]

/-! ### raiseBlock -/

@[simp] theorem raiseBlock_regs (code : Nat) : (s.raiseBlock code).regs = s.regs := raise_regs _ _ _
@[simp] theorem raiseBlock_wins (code : Nat) : (s.raiseBlock code).wins = s.wins := raise_wins _ _ _
@[simp] theorem raiseBlock_staged (code : Nat) : (s.raiseBlock code).staged = s.staged := raise_staged _ _ _
@[simp] theorem raiseBlock_role (code : Nat) : (s.raiseBlock code).role = s.role := raise_role _ _ _
@[simp] theorem raiseBlock_mode (code : Nat) : (s.raiseBlock code).mode = s.mode := raise_mode _ _ _
@[simp] theorem raiseBlock_tb (code : Nat) : (s.raiseBlock code).tb = s.tb := raise_tb _ _ _
@[simp] theorem raiseBlock_ptp (code : Nat) : (s.raiseBlock code).ptp = s.ptp := raise_ptp _ _ _
@[simp] theorem raiseBlock_frame (code : Nat) : (s.raiseBlock code).frame = s.frame := raise_frame _ _ _
@[simp] theorem raiseBlock_pair (code : Nat) : (s.raiseBlock code).pair = s.pair := raise_pair _ _ _
@[simp] theorem raiseBlock_lock (code : Nat) : (s.raiseBlock code).lock = s.lock := raise_lock _ _ _
@[simp] theorem raiseBlock_loop (code : Nat) : (s.raiseBlock code).loop = s.loop := raise_loop _ _ _
@[simp] theorem raiseBlock_acq (code : Nat) : (s.raiseBlock code).acq = s.acq := raise_acq _ _ _
@[simp] theorem raiseBlock_trg (code : Nat) : (s.raiseBlock code).trg = s.trg := raise_trg _ _ _
@[simp] theorem raiseBlock_io (code : Nat) : (s.raiseBlock code).io = s.io := raise_io _ _ _
@[simp] theorem raiseBlock_net (code : Nat) : (s.raiseBlock code).net = s.net := raise_net _ _ _
@[simp] theorem raiseBlock_can0 (code : Nat) : (s.raiseBlock code).can0 = s.can0 := raise_can0 _ _ _
@[simp] theorem raiseBlock_can1 (code : Nat) : (s.raiseBlock code).can1 = s.can1 := raise_can1 _ _ _
@[simp] theorem raiseBlock_trust (code : Nat) : (s.raiseBlock code).trust = s.trust := raise_trust _ _ _
@[simp] theorem raiseBlock_fab (code : Nat) : (s.raiseBlock code).fab = s.fab := raise_fab _ _ _
@[simp] theorem raiseBlock_power (code : Nat) : (s.raiseBlock code).power = s.power := raise_power _ _ _
@[simp] theorem raiseBlock_qcp (code : Nat) : (s.raiseBlock code).qcp = s.qcp := raise_qcp _ _ _
@[simp] theorem raiseBlock_sent (code : Nat) : (s.raiseBlock code).sent = s.sent := raise_sent _ _ _
@[simp] theorem raiseBlock_freeCtr (code : Nat) : (s.raiseBlock code).freeCtr = s.freeCtr := raise_freeCtr _ _ _
@[simp] theorem raiseBlock_pending (code : Nat) : (s.raiseBlock code).pending = s.pending := raise_pending _ _ _
@[simp] theorem raiseBlock_reg (code : Nat) (r : Nat) : (s.raiseBlock code).reg r = s.reg r := by
  simp [State.reg]
@[simp] theorem raiseBlock_regBit (code : Nat) (r i : Nat) : (s.raiseBlock code).regBit r i = s.regBit r i := by
  simp [State.reg, State.regBit]
@[simp] theorem raiseBlock_regFld (code : Nat) (r hi lo : Nat) : (s.raiseBlock code).regFld r hi lo = s.regFld r hi lo := by
  simp [State.reg, State.regFld]
@[simp] theorem raiseBlock_win (code : Nat) (w1 : WinId) (u1 n1 : Nat) : (s.raiseBlock code).win w1 u1 n1 = s.win w1 u1 n1 := by
  simp [State.win]

end Sys2Proof.Machine
end

