-- ==== Sys2Proof/Laws/Protocol.lean ====
section
/-!
SUPPORT. What the protocol's shared operations do: replies, notices, and a request that passes every receive check (Table QP-4).
-/

namespace Sys2Proof.Machine

variable {s t u : State}

/-! ### Frames -/

theorem SameOutside.refl (l : List Part) (s : State) : SameOutside l s s := fun p _ => by cases p <;> first | rfl | exact ⟨rfl, rfl⟩

theorem SameOutside.trans {l : List Part} (h1 : SameOutside l s t) (h2 : SameOutside l t u) : SameOutside l s u := fun p hp => by
  have a := h1 p hp
  have b := h2 p hp
  cases p <;> first | exact Eq.trans b a | exact ⟨b.1.trans a.1, b.2.trans a.2⟩

theorem SameOutside.mono {l m : List Part} (h : SameOutside l s t) (hm : ∀ p ∈ l, p ∈ m) : SameOutside m s t :=
  fun p hp => h p fun hl => hp (hm p hl)

theorem SameOutside.regs {l : List Part} (h : SameOutside l s t) (hl : Part.regs ∉ l) (a : Nat) : t.reg a = s.reg a := by
  have e : t.regs = s.regs := h .regs hl
  unfold State.reg
  rw [e]

/-! ### Events -/

theorem Recorder.Takes.append {r r' r'' : Recorder} {l m : List (Nat × Nat)} (h : r.Takes l r') (h' : r'.Takes m r'') : r.Takes (l ++ m) r'' := by
  induction l generalizing r with
  | nil =>
    have e : r' = r := h
    rw [e] at h'
    exact h'
  | cons x rest ih =>
    obtain ⟨e, hc, hs, ht⟩ := h
    exact ⟨e, hc, hs, ih ht⟩

theorem Raises.refl (s : State) : Raises s s [] := by
  unfold Raises
  split <;> rfl

/-- A change that touches neither the recorder nor the supply. -/
theorem Raises.of_eq {l : List (Nat × Nat)} (h : Raises s t l) (he : u.evr = t.evr) : Raises s u l := by
  unfold Raises at h ⊢
  rw [he]
  exact h

theorem raises_nil (he : t.evr = s.evr) : Raises s t [] := (Raises.refl s).of_eq he

/-- One more event raised. -/
theorem Raises.raiseWith {l : List (Nat × Nat)} (h : Raises s t l) (hc : t.power.loss = s.power.loss) (code severity src : Nat) (extra : List Word) :
    Raises s (t.raiseWith code severity src extra) (l ++ [(code, src)]) := by
  have e : t.committing = s.committing := by
    unfold State.committing
    rw [hc]
  unfold Raises at h ⊢
  unfold State.raiseWith
  rw [e]
  split
  · next hq => simpa [hq] using h
  · next hq =>
    rw [if_neg hq] at h
    exact h.append ⟨_, rfl, rfl, rfl⟩

/-- The only event raised. -/
theorem raises_one (he : t.evr = s.evr) (hc : t.power.loss = s.power.loss) (code severity src : Nat) (extra : List Word) :
    Raises s (t.raiseWith code severity src extra) [(code, src)] := (raises_nil he).raiseWith hc code severity src extra

/-! ### The protocol's own records -/

theorem sameOutside_updQcp (s : State) (f : Protocol → Protocol) : SameOutside [.qcp] s (s.updQcp f) :=
  fun p hp => by cases p <;> first | rfl | exact ⟨rfl, rfl⟩ | exact absurd (by decide) hp

theorem sameOutside_send (s : State) (k : Message) (l : List Nat) : SameOutside [.sent] s (s.send k l) :=
  fun p hp => by cases p <;> first | rfl | exact ⟨rfl, rfl⟩ | exact absurd (by decide) hp

theorem sameOutside_countStatus (s : State) (st : Status) : SameOutside [.qcp] s (s.countStatus st) := by
  cases st <;> first
    | exact sameOutside_updQcp s _
    | exact SameOutside.refl _ s

/-- A reply is the last thing answered, and touches nothing but the protocol's records and what was sent. -/
theorem sameOutside_answer (s : State) (op : Nat) (rq : Requester) (r : Reply) :
    SameOutside [.qcp, .sent] s (s.answer op rq r) ∧ (s.answer op rq r).replied r :=
  ⟨fun p hp => by cases p <;> first | exact absurd (by decide) hp | simp [Part.same, State.answer, State.sendReply, State.updSession],
    by simp [State.replied, State.answer, State.sendReply, State.updSession]⟩

/-- Receiving a packet touches the protocol's records only. -/
theorem sameOutside_letIn (s : State) (p : Pkt) : SameOutside [.qcp] s (s.letIn p) :=
  fun q hq => by cases q <;> first | exact absurd (by decide) hq | simp [Part.same, State.letIn, State.received, State.updSession, State.count]

/-! ### A request -/

/-- A request that passes the receive checks runs its checks 13 to 15 and its body on the module as the packet leaves it. -/
theorem receive_admitted {p : Pkt} {x : Session} (h : Arrives s p x) (op : Nat) (next : State → Requester → Session → State) :
    s.receive p op next = next (s.letIn p) (requesterOf p) x := by
  obtain ⟨h1, h2, h3, h4, h5, h6, h7, h8, h9⟩ := h
  have h2' : ¬ (p.pairId ≠ 0xFFFF#16 ∧ p.pairId ≠ s.pair.baseId) := fun ⟨a, b⟩ => h2.elim a b
  unfold State.receive
  rw [if_neg (by rw [h1]; decide)]
  dsimp only
  rw [if_neg h2', if_neg h3, h4]
  dsimp only
  rw [if_neg (fun a => a h5), if_neg (fun a => a h6), if_neg (Nat.not_le.mpr h7), h8]
  dsimp only
  rw [if_neg (by rw [h9]; decide)]
  rfl

/-- An admitted request with the authority it needs, not locked, and with parameters that are in order: its body answers `r` and leaves `u`; then
the module is `u` but for the protocol's records and what was sent. -/
theorem request_admitted {p : Pkt} {x : Session} (h : Admits s p x) {op auth : Nat} {lock : Bool} {params : Option Reply} {body : Body}
    (ha : auth ≤ x.role) (hl : lock = false) (hp : params = none) {r : Reply} (hb : body (s.letIn p) (requesterOf p) = (u, some r)) :
    SameOutside [.qcp, .sent] u (s.request p op auth lock params body) ∧ (s.request p op auth lock params body).replied r := by
  subst hl hp
  unfold State.request
  rw [receive_admitted h.toArrives]
  unfold State.runRequest
  rw [if_neg (Nat.not_lt.mpr ha), if_neg (by decide)]
  dsimp only
  rw [if_neg (by rw [h.confirmed]; decide), hb]
  dsimp only
  have h1 := (sameOutside_countStatus u r.status).mono (m := [.qcp, .sent]) (by simp)
  obtain ⟨h2, h3⟩ := sameOutside_answer (u.countStatus r.status) op (requesterOf p) r
  exact ⟨h1.trans h2, h3⟩

/-- An admitted request whose body owes its reply to a later tick leaves what the body leaves. -/
theorem request_owed {p : Pkt} {x : Session} (h : Admits s p x) {op auth : Nat} {lock : Bool} {params : Option Reply} {body : Body}
    (ha : auth ≤ x.role) (hl : lock = false) (hp : params = none) (hb : body (s.letIn p) (requesterOf p) = (u, none)) :
    s.request p op auth lock params body = u := by
  subst hl hp
  unfold State.request
  rw [receive_admitted h.toArrives]
  unfold State.runRequest
  rw [if_neg (Nat.not_lt.mpr ha), if_neg (by decide)]
  dsimp only
  rw [if_neg (by rw [h.confirmed]; decide), hb]

/-- An admitted request without the authority it needs is refused with NOT_AUTHORIZED, with event 0x6045 (check 14). -/
theorem request_notAuthorized {p : Pkt} {x : Session} (h : Admits s p x) {op auth : Nat} {lock : Bool} {params : Option Reply} {body : Body}
    (ha : x.role < auth) :
    SameOutside [.qcp, .sent, .evr] s (s.request p op auth lock params body) ∧
      (s.request p op auth lock params body).replied (refusal .notAuthorized) := by
  unfold State.request
  rw [receive_admitted h.toArrives]
  unfold State.runRequest
  rw [if_pos ha]
  unfold State.refuse
  dsimp only
  have h0 := (sameOutside_letIn s p).mono (m := [.qcp, .sent, .evr]) (by simp)
  have h1 := (sameOutside_countStatus (s.letIn p) .notAuthorized).mono (m := [.qcp, .sent, .evr]) (by simp)
  have h2 : SameOutside [.qcp, .sent, .evr] ((s.letIn p).countStatus .notAuthorized)
      (((s.letIn p).countStatus .notAuthorized).raiseQcp 0x6045 (requesterOf p).session) := by
    intro q hq
    unfold State.raiseQcp
    cases q <;> first
      | exact absurd (by decide) hq
      | simp [Part.same]
  obtain ⟨h3, h4⟩ := sameOutside_answer (((s.letIn p).countStatus .notAuthorized).raiseQcp 0x6045 (requesterOf p).session) op (requesterOf p)
    (refusal .notAuthorized)
  exact ⟨((h0.trans h1).trans h2).trans (h3.mono (by simp)), h4⟩

end Sys2Proof.Machine
end

