-- ==== Sys2Proof/Laws/Moves/Basic.lean ====
section
/-!
SUPPORT. What an operation of the model may do, said once: which parts of the state it may touch, and that it keeps the invariant of
Safety.lean. The lemma of an operation has the operation's name and its parts as a list; a proof about a command composes them.
-/

namespace Sys2Proof.Machine

/-- From `s` to `t` only the parts of `L` may have changed, and the invariant was kept. -/
structure Moves (L : List Part) (s t : State) : Prop where
  same : SameOutside L s t
  inv : s.Inv → t.Inv

variable {L : List Part} {s t u : State}

theorem Moves.refl (L : List Part) (s : State) : Moves L s s := ⟨SameOutside.refl L s, id⟩

/-- Parts that an operation names lie among those of a larger list. -/
theorem parts_sub {A B : List Part} (hL : ∀ p ∈ B, p ∈ L) (h : A.all (fun p => B.contains p) = true) : ∀ p ∈ A, p ∈ L := fun p hp => by
  have h1 := List.all_eq_true.mp h p hp
  exact hL p (by simpa using h1)

theorem Moves.step (h : Moves L s t) (hp : ∀ p, p ∉ L → p.same t u) (hi : t.Inv → u.Inv) : Moves L s u :=
  ⟨h.same.trans hp, fun a => hi (h.inv a)⟩

/-- A record update that touches neither the stores nor the recorder. -/
theorem moves_record {xstaged xrole xmode xtb xptp xframe xpair xlock xloop xacq xtrg xio xnet xcan0 xcan1 xpower xqcp xsent xfreeCtr xpending} {xtrust : Trust} {xfab : Fabric} (h : Moves L s t)
    (hu : xtrust.original = t.trust.original) (hv : xfab.mem = t.fab.mem)
    (hstaged : xstaged = t.staged ∨ Part.staged ∈ L) (hrole : xrole = t.role ∨ Part.role ∈ L) (hmode : xmode = t.mode ∨ Part.mode ∈ L)
    (htb : xtb = t.tb ∨ Part.tb ∈ L) (hptp : xptp = t.ptp ∨ Part.ptp ∈ L) (hframe : xframe = t.frame ∨ Part.frame ∈ L)
    (hpair : xpair = t.pair ∨ Part.pair ∈ L) (hlock : xlock = t.lock ∨ Part.lock ∈ L) (hloop : xloop = t.loop ∨ Part.loop ∈ L)
    (hacq : xacq = t.acq ∨ Part.acq ∈ L) (htrg : xtrg = t.trg ∨ Part.trg ∈ L) (hio : xio = t.io ∨ Part.io ∈ L)
    (hnet : xnet = t.net ∨ Part.net ∈ L) (hcan0 : xcan0 = t.can0 ∨ Part.can0 ∈ L) (hcan1 : xcan1 = t.can1 ∨ Part.can1 ∈ L)
    (htrust : xtrust = t.trust ∨ Part.trust ∈ L) (hfab : xfab = t.fab ∨ Part.fab ∈ L) (hpower : xpower = t.power ∨ Part.power ∈ L)
    (hqcp : xqcp = t.qcp ∨ Part.qcp ∈ L) (hsent : xsent = t.sent ∨ Part.sent ∈ L) (hfreeCtr : xfreeCtr = t.freeCtr ∨ Part.freeCtr ∈ L)
    (hpending : xpending = t.pending ∨ Part.pending ∈ L) (hclock : (xtb.now = t.tb.now ∧ xtb.up = t.tb.up) ∨ Part.clock ∈ L)
    (htick : (xframe.t0 = t.frame.t0 ∧ xframe.count = t.frame.count) ∨ Part.tick ∈ L) :
    Moves L s (State.mk t.regs t.wins xstaged xrole xmode xtb xptp xframe xpair xlock
      xloop xacq xtrg xio xnet xcan0 xcan1 t.evr xtrust xfab
      xpower xqcp xsent xfreeCtr xpending) := by
  refine h.step (fun p hp => ?_) fun hi => ?_
  · cases p <;> first | rfl | (rename_i _; exact Or.resolve_right (by assumption) hp)
  · obtain ⟨hc, hi⟩ := hi
    refine ⟨?_, hi⟩
    unfold State.Canonical at hc ⊢
    simpa [hu, hv] using hc

theorem moves_ite {c : Prop} {_ : Decidable c} {a b : State} (ha : Moves L s a) (hb : Moves L s b) : Moves L s (if c then a else b) := by
  split <;> assumption

theorem moves_iteFst {α : Type} {c : Prop} {_ : Decidable c} {a b : State × α} (ha : Moves L s a.1) (hb : Moves L s b.1) :
    Moves L s (if c then a else b).1 := by
  split <;> assumption

theorem moves_id (h : Moves L s t) : Moves L s (id t) := h

theorem moves_foldl {α : Type} {f : State → α → State} {l : List α} (hf : ∀ a x, Moves L s a → Moves L s (f a x)) (h : Moves L s t) :
    Moves L s (l.foldl f t) := by
  induction l generalizing t with
  | nil => exact h
  | cons x xs ih => exact ih (hf _ _ h)

/-! ### Outcomes -/

/-- The state of an outcome, if there is one, is reached by touching only the parts of `L`. -/
def Ends (L : List Part) (s : State) : Host.Outcome State Fault Refusal → Prop
  | .next t => Moves L s t
  | .fault _ => True
  | .refused _ => True

theorem ends_next (h : Moves L s t) : Ends L s (.next t) := h

theorem ends_ite {c : Prop} {_ : Decidable c} {a b : Host.Outcome State Fault Refusal} (ha : Ends L s a) (hb : Ends L s b) :
    Ends L s (if c then a else b) := by
  split <;> assumption

/-! ### Registers and windows -/

theorem moves_setReg (h : Moves L s t) (hL : ∀ p ∈ [Part.regs], p ∈ L) (a : Nat) (v : Word) : Moves L s (t.setReg a v) :=
  h.step (fun p hp => by cases p <;> first | rfl | exact ⟨rfl, rfl⟩ | exact absurd (hL _ (by decide)) hp)
    fun hi => ⟨⟨sparseWf_set _ _ _ _ hi.1.1, hi.1.2⟩, hi.2⟩

theorem moves_setWin (h : Moves L s t) (hL : ∀ p ∈ [Part.wins], p ∈ L) (w : WinId) (unit word : Nat) (v : Word) :
    Moves L s (t.setWin w unit word v) :=
  h.step (fun p hp => by cases p <;> first | rfl | exact ⟨rfl, rfl⟩ | exact absurd (hL _ (by decide)) hp)
    fun hi => ⟨⟨hi.1.1, sparseWf_set (fun _ => 0#32) _ _ _ hi.1.2.1, hi.1.2.2⟩, hi.2⟩

/-- A window word written by its key. -/
theorem moves_writeWins (h : Moves L s t) (hL : ∀ p ∈ [Part.wins], p ∈ L) (k : Nat) (v : Word) :
    Moves L s { t with wins := sparseSet 0 t.wins k v } :=
  h.step (fun p hp => by cases p <;> first | rfl | exact ⟨rfl, rfl⟩ | exact absurd (hL _ (by decide)) hp)
    fun hi => ⟨⟨hi.1.1, sparseWf_set (fun _ => 0#32) _ _ _ hi.1.2.1, hi.1.2.2⟩, hi.2⟩

/-- A byte of the fabric's memory written. -/
theorem moves_writeMem (h : Moves L s t) (hL : ∀ p ∈ [Part.fab], p ∈ L) (a : Nat) (b : Byte) :
    Moves L s { t with fab := { t.fab with mem := memWrite t.fab.mem a b } } :=
  h.step (fun p hp => by cases p <;> first | rfl | exact ⟨rfl, rfl⟩ | exact absurd (hL _ (by decide)) hp)
    fun hi => ⟨⟨hi.1.1, hi.1.2.1, Memory.wf_write _ _ _ hi.1.2.2.1, hi.1.2.2.2⟩, hi.2⟩

/-! ### The parts -/

/-- The frame's own records changed, but not its tick. -/
theorem moves_updFrame {f : Frame → Frame} (h : Moves L s t) (hL : ∀ p ∈ [Part.frame], p ∈ L)
    (hf : ∀ x, (f x).t0 = x.t0 ∧ (f x).count = x.count) : Moves L s (t.updFrame f) := by
  apply moves_record h
  all_goals first | rfl | exact .inl rfl | exact .inl ⟨rfl, rfl⟩ | exact .inl (hf _) | exact .inr (hL _ (by decide))

/-- A new frame begins. -/
theorem moves_updFrameTick {f : Frame → Frame} (h : Moves L s t) (hL : ∀ p ∈ [Part.frame, .tick], p ∈ L) : Moves L s (t.updFrame f) := by
  apply moves_record h
  all_goals first | rfl | exact .inl rfl | exact .inl ⟨rfl, rfl⟩ | exact .inr (hL _ (by decide))

theorem moves_updEvr {f : Recorder → Recorder} (h : Moves L s t) (hL : ∀ p ∈ [Part.evr], p ∈ L)
    (hf : t.evr.intake.length ≤ 512 → (f t.evr).intake.length ≤ 512) : Moves L s (t.updEvr f) :=
  h.step (fun p hp => by cases p <;> first | rfl | exact ⟨rfl, rfl⟩ | exact absurd (hL _ (by decide)) hp) fun hi => ⟨hi.1, hf hi.2⟩

theorem moves_updEvrSame {f : Recorder → Recorder} (h : Moves L s t) (hL : ∀ p ∈ [Part.evr], p ∈ L)
    (hf : ∀ x, (f x).intake = x.intake) : Moves L s (t.updEvr f) := moves_updEvr h hL fun hi => by rw [hf]; exact hi

theorem moves_updFab {f : Fabric → Fabric} (h : Moves L s t) (hL : ∀ p ∈ [Part.fab], p ∈ L) (hf : ∀ x, (f x).mem = x.mem) :
    Moves L s (t.updFab f) := by
  apply moves_record h
  all_goals first | exact hf _ | rfl | exact .inl rfl | exact .inl ⟨rfl, rfl⟩ | exact .inr (hL _ (by decide))

theorem moves_updTrust {f : Trust → Trust} (h : Moves L s t) (hL : ∀ p ∈ [Part.trust], p ∈ L) (hf : ∀ x, (f x).original = x.original) :
    Moves L s (t.updTrust f) := by
  apply moves_record h
  all_goals first | exact hf _ | rfl | exact .inl rfl | exact .inl ⟨rfl, rfl⟩ | exact .inr (hL _ (by decide))

/-- The settings kept for a revert are dropped. -/
theorem moves_dropOriginal {f : Trust → Trust} (h : Moves L s t) (hL : ∀ p ∈ [Part.trust], p ∈ L) (hf : ∀ x, (f x).original = none) :
    Moves L s (t.updTrust f) := by
  refine h.step (fun p hp => by cases p <;> first | rfl | exact ⟨rfl, rfl⟩ | exact absurd (hL _ (by decide)) hp)
    fun hi => ⟨⟨hi.1.1, hi.1.2.1, hi.1.2.2.1, fun o ho => ?_⟩, hi.2⟩
  simp only [updTrust_trust, hf] at ho
  cases ho

/-- The settings in force are kept for a revert (R481). -/
theorem moves_keepOriginal {f : Trust → Trust} (h : Moves L s t) (hL : ∀ p ∈ [Part.trust], p ∈ L) (v : Nat)
    (hf : ∀ x, (f x).original = some { version := v, regs := t.regs, wins := t.wins }) : Moves L s (t.updTrust f) := by
  refine h.step (fun p hp => by cases p <;> first | rfl | exact ⟨rfl, rfl⟩ | exact absurd (hL _ (by decide)) hp)
    fun hi => ⟨⟨hi.1.1, hi.1.2.1, hi.1.2.2.1, fun o ho => ?_⟩, hi.2⟩
  simp only [updTrust_trust, hf, Option.some.injEq] at ho
  subst ho
  exact ⟨hi.1.1, hi.1.2.1⟩

/-- An event that enters the intake queue leaves it within 512 entries (R450). -/
theorem take_intake (r : Recorder) (e : RaisedEvent) (h : r.intake.length ≤ 512) : (r.take e).intake.length ≤ 512 := by
  unfold Recorder.take
  split
  · simp only [List.length_append, List.length_cons, List.length_nil]
    omega
  · exact h

theorem moves_raiseWith (h : Moves L s t) (hL : ∀ p ∈ [Part.evr], p ∈ L) (code severity src : Nat) (extra : List Word) :
    Moves L s (t.raiseWith code severity src extra) := by
  unfold State.raiseWith
  split
  · exact h
  · exact h.step (fun p hp => by cases p <;> first | rfl | exact ⟨rfl, rfl⟩ | exact absurd (hL _ (by decide)) hp) fun hi => ⟨hi.1, take_intake _ _ hi.2⟩

end Sys2Proof.Machine
end

