-- ==== Sys2Proof/Laws/Moves/Events.lean ====
section
/-!
SUPPORT. What each operation of Machine/Events.lean may touch.
-/

namespace Sys2Proof.Machine

set_option linter.unusedTactic false
set_option linter.unreachableTactic false

variable {L : List Part}

theorem moves_raise {z0 s : State} (hs : Moves L z0 s) (hL : ∀ p ∈ [Part.evr], p ∈ L) (code : Nat) (src : Nat) : Moves L z0 (State.raise s
    code src) := by
  unfold State.raise
  repeat' first
    | with_reducible exact hs | with_reducible exact hL | exact parts_sub hL (by decide) | with_reducible apply moves_raiseWith
    | with_reducible apply moves_ite | dsimp only | split

theorem moves_raiseBlock {z0 s : State} (hs : Moves L z0 s) (hL : ∀ p ∈ [Part.evr], p ∈ L) (code : Nat) : Moves L z0 (State.raiseBlock s
    code) := by
  unfold State.raiseBlock
  repeat' first
    | with_reducible exact hs | with_reducible exact hL | exact parts_sub hL (by decide) | with_reducible apply moves_raise
    | with_reducible apply moves_ite | dsimp only | split

theorem moves_advanceTo {z0 s : State} (hs : Moves L z0 s) (hL : ∀ p ∈ [Part.tb, .clock], p ∈ L) (t : Nat) : Moves L z0 (State.advanceTo s
    t) := by
  unfold State.advanceTo
  repeat' first
    | with_reducible exact hs | with_reducible rfl | with_reducible exact Or.inl rfl | with_reducible exact Or.inl ⟨rfl, rfl⟩
    | exact Or.inr (hL _ (by decide)) | with_reducible exact hL | exact parts_sub hL (by decide) | with_reducible apply moves_ite
    | dsimp only | split | fail_if_no_progress with_reducible apply moves_record

theorem moves_advanceUp {z0 s : State} (hs : Moves L z0 s) (hL : ∀ p ∈ [Part.tb, .clock], p ∈ L) (u : Nat) : Moves L z0 (State.advanceUp s
    u) := by
  unfold State.advanceUp
  repeat' first
    | with_reducible exact hs | with_reducible exact hL | exact parts_sub hL (by decide) | with_reducible apply moves_advanceTo
    | with_reducible apply moves_ite | dsimp only | split

theorem moves_send {z0 s : State} (hs : Moves L z0 s) (hL : ∀ p ∈ [Part.sent], p ∈ L) (kind : Message) (fields : List Nat) : Moves L z0
    (State.send s kind fields) := by
  unfold State.send
  repeat' first
    | with_reducible exact hs | with_reducible rfl | with_reducible exact Or.inl rfl | with_reducible exact Or.inl ⟨rfl, rfl⟩
    | exact Or.inr (hL _ (by decide)) | with_reducible exact hL | exact parts_sub hL (by decide) | with_reducible apply moves_ite
    | dsimp only | split | fail_if_no_progress with_reducible apply moves_record

end Sys2Proof.Machine
end

