-- ==== Sys2Proof/Laws/Moves/Points.lean ====
section
/-!
SUPPORT. What each operation of Machine/Points.lean may touch.
-/

namespace Sys2Proof.Machine

set_option linter.unusedTactic false
set_option linter.unreachableTactic false

variable {L : List Part}

theorem moves_setPoint {z0 s : State} (hs : Moves L z0 s) (hL : ∀ p ∈ [Part.frame], p ∈ L) (p : Word) (v : PointVal) : Moves L z0
    (State.setPoint s p v) := by
  unfold State.setPoint
  repeat' first
    | with_reducible exact hs | with_reducible exact hL | exact parts_sub hL (by decide)
    | with_reducible refine moves_updFrame ?_ ?_ (fun _ => ⟨rfl, rfl⟩)
    | with_reducible refine moves_updFrame ?_ ?_ (fun _ => by split <;> exact ⟨rfl, rfl⟩) | with_reducible apply moves_ite | dsimp only
    | split

theorem moves_ownPoint {z0 s : State} (hs : Moves L z0 s) (hL : ∀ p ∈ [Part.frame], p ∈ L) (p : Word) (v : Word) : Moves L z0
    (State.ownPoint s p v) := by
  unfold State.ownPoint
  repeat' first
    | with_reducible exact hs | with_reducible exact hL | exact parts_sub hL (by decide) | with_reducible apply moves_setPoint
    | with_reducible apply moves_ite | dsimp only | split

theorem moves_commitOutputs {z0 s : State} (hs : Moves L z0 s) (hL : ∀ p ∈ [Part.frame], p ∈ L) (l : List Binding) : Moves L z0
    (State.commitOutputs s l) := by
  induction l generalizing s with
  | nil => exact hs
  | cons x rest ih =>
    unfold State.commitOutputs
    repeat' first
      | with_reducible exact hs | with_reducible exact hL | exact parts_sub hL (by decide) | with_reducible apply ih
      | with_reducible apply moves_setPoint | with_reducible apply moves_ite | dsimp only | split

theorem moves_inputGood {z0 s : State} (hs : Moves L z0 s) (hL : ∀ p ∈ [Part.frame], p ∈ L) (p : Word) (v : Word) (stamp : Nat) : Moves L
    z0 (State.inputGood s p v stamp) := by
  unfold State.inputGood
  repeat' first
    | with_reducible exact hs | with_reducible exact hL | exact parts_sub hL (by decide) | with_reducible apply moves_setPoint
    | with_reducible apply moves_ite | dsimp only | split

theorem moves_inputBad {z0 s : State} (hs : Moves L z0 s) (hL : ∀ p ∈ [Part.frame], p ∈ L) (b : Binding) : Moves L z0 (State.inputBad s b)
    := by
  unfold State.inputBad
  repeat' first
    | with_reducible exact hs | with_reducible exact hL | exact parts_sub hL (by decide) | with_reducible apply moves_setPoint
    | with_reducible apply moves_ite | dsimp only | split

theorem moves_freshPoint {z0 s : State} (hs : Moves L z0 s) (hL : ∀ p ∈ [Part.frame], p ∈ L) (b : Binding) : Moves L z0 (State.freshPoint
    s b) := by
  unfold State.freshPoint
  repeat' first
    | with_reducible exact hs | with_reducible exact hL | exact parts_sub hL (by decide) | with_reducible apply moves_inputBad
    | with_reducible apply moves_setPoint | with_reducible apply moves_ite | dsimp only | split

theorem moves_freshPoints {z0 s : State} (hs : Moves L z0 s) (hL : ∀ p ∈ [Part.frame], p ∈ L) (l : List Binding) : Moves L z0
    (State.freshPoints s l) := by
  induction l generalizing s with
  | nil => exact hs
  | cons x rest ih =>
    unfold State.freshPoints
    repeat' first
      | with_reducible exact hs | with_reducible exact hL | exact parts_sub hL (by decide) | with_reducible apply ih
      | with_reducible apply moves_freshPoint | with_reducible apply moves_ite | dsimp only | split

theorem moves_feed {z0 s : State} (hs : Moves L z0 s) (hL : ∀ p ∈ [Part.frame], p ∈ L) (p : Word) (v : Option (Word × Nat)) : Moves L z0
    (State.feed s p v) := by
  unfold State.feed
  repeat' first
    | with_reducible exact hs | with_reducible exact hL | exact parts_sub hL (by decide) | with_reducible apply moves_inputBad
    | with_reducible apply moves_inputGood | with_reducible apply moves_ite | dsimp only | split

end Sys2Proof.Machine
end

