-- ==== Sys2Proof/Laws/Moves/RegFile.lean ====
section
/-!
SUPPORT. What each operation of Machine/RegFile.lean may touch.
-/

namespace Sys2Proof.Machine

set_option linter.unusedTactic false
set_option linter.unreachableTactic false

variable {L : List Part}

theorem moves_putReg {z0 s : State} (hs : Moves L z0 s) (hL : ∀ p ∈ [Part.regs], p ∈ L) (a : Nat) (hi : Nat) (lo : Nat) (v : Nat) : Moves
    L z0 (State.putReg s a hi lo v) := by
  unfold State.putReg
  repeat' first
    | with_reducible exact hs | with_reducible exact hL | exact parts_sub hL (by decide) | with_reducible apply moves_setReg
    | with_reducible apply moves_ite | dsimp only | split

theorem moves_putRegBit {z0 s : State} (hs : Moves L z0 s) (hL : ∀ p ∈ [Part.regs], p ∈ L) (a : Nat) (i : Nat) (b : Bool) : Moves L z0
    (State.putRegBit s a i b) := by
  unfold State.putRegBit
  repeat' first
    | with_reducible exact hs | with_reducible exact hL | exact parts_sub hL (by decide) | with_reducible apply moves_setReg
    | with_reducible apply moves_ite | dsimp only | split

theorem moves_orReg {z0 s : State} (hs : Moves L z0 s) (hL : ∀ p ∈ [Part.regs], p ∈ L) (a : Nat) (m : Word) : Moves L z0 (State.orReg s a
    m) := by
  unfold State.orReg
  repeat' first
    | with_reducible exact hs | with_reducible exact hL | exact parts_sub hL (by decide) | with_reducible apply moves_setReg
    | with_reducible apply moves_ite | dsimp only | split

theorem moves_clearBits {z0 s : State} (hs : Moves L z0 s) (hL : ∀ p ∈ [Part.regs], p ∈ L) (a : Nat) (m : Word) : Moves L z0
    (State.clearBits s a m) := by
  unfold State.clearBits
  repeat' first
    | with_reducible exact hs | with_reducible exact hL | exact parts_sub hL (by decide) | with_reducible apply moves_setReg
    | with_reducible apply moves_ite | dsimp only | split

theorem moves_incReg {z0 s : State} (hs : Moves L z0 s) (hL : ∀ p ∈ [Part.regs], p ∈ L) (a : Nat) : Moves L z0 (State.incReg s a) := by
  unfold State.incReg
  repeat' first
    | with_reducible exact hs | with_reducible exact hL | exact parts_sub hL (by decide) | with_reducible apply moves_setReg
    | with_reducible apply moves_ite | dsimp only | split

theorem moves_addReg {z0 s : State} (hs : Moves L z0 s) (hL : ∀ p ∈ [Part.regs], p ∈ L) (a : Nat) (n : Nat) : Moves L z0 (State.addReg s a
    n) := by
  unfold State.addReg
  repeat' first
    | with_reducible exact hs | with_reducible exact hL | exact parts_sub hL (by decide) | with_reducible apply moves_setReg
    | with_reducible apply moves_ite | dsimp only | split

theorem moves_satReg {z0 s : State} (hs : Moves L z0 s) (hL : ∀ p ∈ [Part.regs], p ∈ L) (a : Nat) : Moves L z0 (State.satReg s a) := by
  unfold State.satReg
  repeat' first
    | with_reducible exact hs | with_reducible exact hL | exact parts_sub hL (by decide) | with_reducible apply moves_setReg
    | with_reducible apply moves_ite | dsimp only | split

theorem moves_satRegFld {z0 s : State} (hs : Moves L z0 s) (hL : ∀ p ∈ [Part.regs], p ∈ L) (a : Nat) (hi : Nat) (lo : Nat) : Moves L z0
    (State.satRegFld s a hi lo) := by
  unfold State.satRegFld
  repeat' first
    | with_reducible exact hs | with_reducible exact hL | exact parts_sub hL (by decide) | with_reducible apply moves_setReg
    | with_reducible apply moves_ite | dsimp only | split

theorem moves_zeroRegs {z0 s : State} (hs : Moves L z0 s) (hL : ∀ p ∈ [Part.regs], p ∈ L) (l : List Nat) : Moves L z0 (State.zeroRegs s l)
    := by
  induction l generalizing s with
  | nil => exact hs
  | cons x rest ih =>
    unfold State.zeroRegs
    repeat' first
      | with_reducible exact hs | with_reducible exact hL | exact parts_sub hL (by decide) | with_reducible apply ih
      | with_reducible apply moves_setReg | with_reducible apply moves_ite | dsimp only | split

theorem moves_stageWord {z0 s : State} (hs : Moves L z0 s) (hL : ∀ p ∈ [Part.staged], p ∈ L) (w : WinId) (unit : Nat) (word : Nat) (v :
    Word) : Moves L z0 (State.stageWord s w unit word v) := by
  unfold State.stageWord
  repeat' first
    | with_reducible exact hs | with_reducible rfl | with_reducible exact Or.inl rfl | with_reducible exact Or.inl ⟨rfl, rfl⟩
    | exact Or.inr (hL _ (by decide)) | with_reducible exact hL | exact parts_sub hL (by decide) | with_reducible apply moves_ite
    | dsimp only | split | fail_if_no_progress with_reducible apply moves_record

theorem moves_dropStaged {z0 s : State} (hs : Moves L z0 s) (hL : ∀ p ∈ [Part.staged], p ∈ L) (w : WinId) (unit : Nat) : Moves L z0
    (State.dropStaged s w unit) := by
  unfold State.dropStaged
  repeat' first
    | with_reducible exact hs | with_reducible rfl | with_reducible exact Or.inl rfl | with_reducible exact Or.inl ⟨rfl, rfl⟩
    | exact Or.inr (hL _ (by decide)) | with_reducible exact hL | exact parts_sub hL (by decide) | with_reducible apply moves_ite
    | dsimp only | split | fail_if_no_progress with_reducible apply moves_record

end Sys2Proof.Machine
end

