-- ==== Sys2Proof/Laws/Moves/Acquisition.lean ====
section
/-!
SUPPORT. What each operation of Machine/Acquisition.lean may touch.
-/

namespace Sys2Proof.Machine

set_option linter.unusedTactic false
set_option linter.unreachableTactic false

variable {L : List Part}

theorem moves_updAcq {z0 s : State} (hs : Moves L z0 s) (hL : ∀ p ∈ [Part.acq], p ∈ L) (f : Acq → Acq) : Moves L z0 (State.updAcq s f) :=
    by
  unfold State.updAcq
  repeat' first
    | with_reducible exact hs | with_reducible rfl | with_reducible exact Or.inl rfl | with_reducible exact Or.inl ⟨rfl, rfl⟩
    | exact Or.inr (hL _ (by decide)) | with_reducible exact hL | exact parts_sub hL (by decide) | with_reducible apply moves_ite
    | dsimp only | split | fail_if_no_progress with_reducible apply moves_record

theorem moves_setChan {z0 s : State} (hs : Moves L z0 s) (hL : ∀ p ∈ [Part.acq], p ∈ L) (n : Nat) (c : AcqChannel) : Moves L z0
    (State.setChan s n c) := by
  unfold State.setChan
  repeat' first
    | with_reducible exact hs | with_reducible exact hL | exact parts_sub hL (by decide) | with_reducible apply moves_updAcq
    | with_reducible apply moves_ite | dsimp only | split

theorem moves_advanceSecond {z0 s : State} (hs : Moves L z0 s) (hL : ∀ p ∈ [Part.tb, .clock], p ∈ L) : Moves L z0 (State.advanceSecond s)
    := by
  unfold State.advanceSecond
  repeat' first
    | with_reducible exact hs | with_reducible exact hL | exact parts_sub hL (by decide) | with_reducible apply moves_advanceTo
    | with_reducible apply moves_ite | dsimp only | split

theorem moves_putPhase {z0 s : State} (hs : Moves L z0 s) (hL : ∀ p ∈ [Part.regs, .acq], p ∈ L) (n : Nat) (p : Nat) : Moves L z0
    (State.putPhase s n p) := by
  unfold State.putPhase
  repeat' first
    | with_reducible exact hs | with_reducible exact hL | exact parts_sub hL (by decide) | with_reducible apply moves_putRegBit
    | with_reducible apply moves_setChan | with_reducible apply moves_setReg | with_reducible apply moves_ite | dsimp only | split

theorem moves_setPhase {z0 s : State} (hs : Moves L z0 s) (hL : ∀ p ∈ [Part.regs, .acq], p ∈ L) (n : Nat) : Moves L z0 (State.setPhase s
    n) := by
  unfold State.setPhase
  repeat' first
    | with_reducible exact hs | with_reducible exact hL | exact parts_sub hL (by decide) | with_reducible apply moves_putPhase
    | with_reducible apply moves_ite | dsimp only | split

theorem moves_movePhase {z0 s : State} (hs : Moves L z0 s) (hL : ∀ p ∈ [Part.regs, .acq], p ∈ L) (n : Nat) : Moves L z0 (State.movePhase s
    n) := by
  unfold State.movePhase
  repeat' first
    | with_reducible exact hs | with_reducible exact hL | exact parts_sub hL (by decide) | with_reducible apply moves_putPhase
    | with_reducible apply moves_ite | dsimp only | split

theorem moves_applyAfe {z0 s : State} (hs : Moves L z0 s) (hL : ∀ p ∈ [Part.regs], p ∈ L) (n : Nat) : Moves L z0 (State.applyAfe s n) :=
    by
  unfold State.applyAfe
  repeat' first
    | with_reducible exact hs | with_reducible exact hL | exact parts_sub hL (by decide) | with_reducible apply moves_setReg
    | with_reducible apply moves_ite | dsimp only | split

theorem ends_execCalibrationUpdate {s : State} (hL : ∀ p ∈ [Part.regs, .tb, .acq, .clock], p ∈ L) (temp : Word) : Ends L s
    (execCalibrationUpdate temp s) := by
  have hs := Moves.refl L s
  unfold execCalibrationUpdate
  repeat' first
    | with_reducible apply ends_next | with_reducible apply ends_ite | with_reducible exact hs | with_reducible exact hL
    | exact parts_sub hL (by decide) | with_reducible assumption | with_reducible apply moves_advanceSecond
    | with_reducible apply moves_applyAfe | with_reducible apply moves_movePhase | with_reducible apply moves_setReg
    | with_reducible refine moves_foldl (fun _ _ _ => ?_) ?_ | dsimp only | split

theorem moves_takeCalibration {z0 s : State} (hs : Moves L z0 s) (hL : ∀ p ∈ [Part.regs, .acq, .evr], p ∈ L) (c : CalibrationCheck) :
    Moves L z0 (State.takeCalibration s c) := by
  unfold State.takeCalibration
  repeat' first
    | with_reducible exact hs | with_reducible exact hL | exact parts_sub hL (by decide) | with_reducible assumption
    | with_reducible apply moves_applyAfe | with_reducible apply moves_orReg | with_reducible apply moves_putRegBit
    | with_reducible apply moves_raise | with_reducible apply moves_setPhase | with_reducible apply moves_setReg
    | with_reducible apply moves_updAcq | with_reducible refine moves_foldl (fun _ _ _ => ?_) ?_ | with_reducible apply moves_ite
    | dsimp only | split

theorem moves_updTrg {z0 s : State} (hs : Moves L z0 s) (hL : ∀ p ∈ [Part.trg], p ∈ L) (f : Trig → Trig) : Moves L z0 (State.updTrg s f)
    := by
  unfold State.updTrg
  repeat' first
    | with_reducible exact hs | with_reducible rfl | with_reducible exact Or.inl rfl | with_reducible exact Or.inl ⟨rfl, rfl⟩
    | exact Or.inr (hL _ (by decide)) | with_reducible exact hL | exact parts_sub hL (by decide) | with_reducible apply moves_ite
    | dsimp only | split | fail_if_no_progress with_reducible apply moves_record

theorem moves_truncateRaw {z0 s : State} (hs : Moves L z0 s) (hL : ∀ p ∈ [Part.trg], p ∈ L) : Moves L z0 (State.truncateRaw s) := by
  unfold State.truncateRaw
  repeat' first
    | with_reducible exact hs | with_reducible exact hL | exact parts_sub hL (by decide) | with_reducible apply moves_updTrg
    | with_reducible apply moves_ite | dsimp only | split

theorem moves_enableChannel {z0 s : State} (hs : Moves L z0 s) (hL : ∀ p ∈ [Part.acq], p ∈ L) (n : Nat) : Moves L z0 (State.enableChannel
    s n) := by
  unfold State.enableChannel
  repeat' first
    | with_reducible exact hs | with_reducible exact hL | exact parts_sub hL (by decide) | with_reducible apply moves_setChan
    | with_reducible apply moves_ite | dsimp only | split

theorem moves_takeRange {z0 s : State} (hs : Moves L z0 s) (hL : ∀ p ∈ [Part.acq], p ∈ L) (n : Nat) : Moves L z0 (State.takeRange s n) :=
    by
  unfold State.takeRange
  repeat' first
    | with_reducible exact hs | with_reducible exact hL | exact parts_sub hL (by decide) | with_reducible apply moves_setChan
    | with_reducible apply moves_ite | dsimp only | split

theorem ends_execRawRingReallocate {s : State} (hL : ∀ p ∈ [Part.regs, .tb, .acq, .trg, .evr, .clock], p ∈ L) : Ends L s
    (execRawRingReallocate s) := by
  have hs := Moves.refl L s
  unfold execRawRingReallocate
  repeat' first
    | with_reducible apply ends_next | with_reducible apply ends_ite | with_reducible exact hs | with_reducible exact hL
    | exact parts_sub hL (by decide) | with_reducible assumption | with_reducible apply moves_advanceSecond
    | with_reducible apply moves_enableChannel | with_reducible apply moves_orReg | with_reducible apply moves_raiseBlock
    | with_reducible apply moves_setReg | with_reducible apply moves_truncateRaw | with_reducible apply moves_updAcq
    | with_reducible refine moves_foldl (fun _ _ _ => ?_) ?_ | dsimp only | split

theorem ends_execRangeChangeEffect {s : State} (hL : ∀ p ∈ [Part.regs, .tb, .acq, .clock], p ∈ L) (n : Fin 8) : Ends L s
    (execRangeChangeEffect n s) := by
  have hs := Moves.refl L s
  unfold execRangeChangeEffect
  repeat' first
    | with_reducible apply ends_next | with_reducible apply ends_ite | with_reducible exact hs | with_reducible exact hL
    | exact parts_sub hL (by decide) | with_reducible apply moves_advanceSecond | with_reducible apply moves_applyAfe
    | with_reducible apply moves_putRegBit | with_reducible apply moves_setChan | with_reducible apply moves_setPhase
    | with_reducible apply moves_takeRange | dsimp only | split

theorem ends_execSettlingEnd {s : State} (hL : ∀ p ∈ [Part.regs, .tb, .evr, .clock], p ∈ L) (n : Fin 8) : Ends L s (execSettlingEnd n s)
    := by
  have hs := Moves.refl L s
  unfold execSettlingEnd
  repeat' first
    | with_reducible apply ends_next | with_reducible apply ends_ite | with_reducible exact hs | with_reducible exact hL
    | exact parts_sub hL (by decide) | with_reducible apply moves_advanceTo | with_reducible apply moves_orReg
    | with_reducible apply moves_putRegBit | with_reducible apply moves_raise | with_reducible apply moves_setReg | dsimp only | split

theorem moves_startAcq {z0 s : State} (hs : Moves L z0 s) (hL : ∀ p ∈ [Part.regs, .acq], p ∈ L) : Moves L z0 (State.startAcq s) := by
  unfold State.startAcq
  repeat' first
    | with_reducible exact hs | with_reducible exact hL | exact parts_sub hL (by decide) | with_reducible assumption
    | with_reducible apply moves_enableChannel | with_reducible apply moves_putRegBit | with_reducible apply moves_setReg
    | with_reducible apply moves_takeRange | with_reducible apply moves_updAcq | with_reducible refine moves_foldl (fun _ _ _ => ?_) ?_
    | with_reducible apply moves_ite | dsimp only | split

theorem moves_noteTick {z0 s : State} (hs : Moves L z0 s) (hL : ∀ p ∈ [Part.acq], p ∈ L) : Moves L z0 (State.noteTick s) := by
  unfold State.noteTick
  repeat' first
    | with_reducible exact hs | with_reducible exact hL | exact parts_sub hL (by decide) | with_reducible apply moves_updAcq
    | with_reducible apply moves_ite | dsimp only | split

theorem moves_writeCyc {z0 s : State} (hs : Moves L z0 s) (hL : ∀ p ∈ [Part.regs, .acq], p ∈ L) (n : Nat) (x : CycleSpan) : Moves L z0
    (State.writeCyc s n x) := by
  unfold State.writeCyc
  repeat' first
    | with_reducible exact hs | with_reducible exact hL | exact parts_sub hL (by decide) | with_reducible apply moves_incReg
    | with_reducible apply moves_putRegBit | with_reducible apply moves_setChan | with_reducible apply moves_ite | dsimp only | split

theorem ends_execCycleZeroCrossing {s : State} (hL : ∀ p ∈ [Part.regs, .acq], p ∈ L) (n : Fin 8) : Ends L s (execCycleZeroCrossing n s) :=
    by
  have hs := Moves.refl L s
  unfold execCycleZeroCrossing
  repeat' first
    | with_reducible apply ends_next | with_reducible apply ends_ite | with_reducible exact hs | with_reducible exact hL
    | exact parts_sub hL (by decide) | with_reducible apply moves_writeCyc | dsimp only | split

theorem ends_execCycleNoCrossing {s : State} (hL : ∀ p ∈ [Part.regs, .acq], p ∈ L) (n : Fin 8) : Ends L s (execCycleNoCrossing n s) := by
  have hs := Moves.refl L s
  unfold execCycleNoCrossing
  repeat' first
    | with_reducible apply ends_next | with_reducible apply ends_ite | with_reducible exact hs | with_reducible exact hL
    | exact parts_sub hL (by decide) | with_reducible apply moves_writeCyc | dsimp only | split

theorem ends_execPhaEntryComplete {s : State} (hL : ∀ p ∈ [Part.regs, .acq], p ∈ L) (src : PhasorSource) : Ends L s (execPhaEntryComplete
    src s) := by
  have hs := Moves.refl L s
  unfold execPhaEntryComplete
  repeat' first
    | with_reducible apply ends_next | with_reducible apply ends_ite | with_reducible exact hs | with_reducible exact hL
    | exact parts_sub hL (by decide) | with_reducible apply moves_incReg | with_reducible apply moves_orReg
    | with_reducible apply moves_putRegBit | with_reducible apply moves_setChan | with_reducible apply moves_updAcq | dsimp only | split

theorem moves_loseFiring {z0 s : State} (hs : Moves L z0 s) (hL : ∀ p ∈ [Part.regs, .evr], p ∈ L) (n : Nat) (first : Bool) : Moves L z0
    (State.loseFiring s n first) := by
  unfold State.loseFiring
  repeat' first
    | with_reducible exact hs | with_reducible exact hL | exact parts_sub hL (by decide) | with_reducible apply moves_incReg
    | with_reducible apply moves_orReg | with_reducible apply moves_raise | with_reducible apply moves_ite | dsimp only | split

theorem ends_execTweFiring {s : State} (hL : ∀ p ∈ [Part.regs, .acq, .evr], p ∈ L) (n : Fin 8) (f : Firing) : Ends L s (execTweFiring n f
    s) := by
  have hs := Moves.refl L s
  unfold execTweFiring
  repeat' first
    | with_reducible apply ends_next | with_reducible apply ends_ite | with_reducible exact hs | with_reducible exact hL
    | exact parts_sub hL (by decide) | with_reducible apply moves_incReg | with_reducible apply moves_loseFiring
    | with_reducible apply moves_setChan | dsimp only | split

theorem moves_publishItems {z0 s : State} (hs : Moves L z0 s) (hL : ∀ p ∈ [Part.regs, .frame], p ∈ L) (n : Nat) (i : Nat) (l : List (Word
    × Bool)) : Moves L z0 (State.publishItems s n i l) := by
  induction l generalizing s n i with
  | nil => exact hs
  | cons x rest ih =>
    unfold State.publishItems
    repeat' first
      | with_reducible exact hs | with_reducible exact hL | exact parts_sub hL (by decide) | with_reducible apply ih
      | with_reducible apply moves_feed | with_reducible apply moves_setReg | with_reducible apply moves_ite | dsimp only | split

theorem moves_noteOverrange {z0 s : State} (hs : Moves L z0 s) (hL : ∀ p ∈ [Part.regs, .evr], p ∈ L) (n : Nat) (ovr : Bool) : Moves L z0
    (State.noteOverrange s n ovr) := by
  unfold State.noteOverrange
  repeat' first
    | with_reducible exact hs | with_reducible exact hL | exact parts_sub hL (by decide) | with_reducible apply moves_incReg
    | with_reducible apply moves_orReg | with_reducible apply moves_putRegBit | with_reducible apply moves_raise
    | with_reducible apply moves_ite | dsimp only | split

theorem moves_sampleChannel {z0 s : State} (hs : Moves L z0 s) (hL : ∀ p ∈ [Part.regs, .acq, .evr], p ∈ L) (n : Nat) (x : ChannelInput) :
    Moves L z0 (State.sampleChannel s n x) := by
  unfold State.sampleChannel
  repeat' first
    | with_reducible exact hs | with_reducible exact hL | exact parts_sub hL (by decide) | with_reducible apply moves_addReg
    | with_reducible apply moves_incReg | with_reducible apply moves_noteOverrange | with_reducible apply moves_putRegBit
    | with_reducible apply moves_setChan | with_reducible apply moves_setReg | with_reducible apply moves_ite | dsimp only | split

theorem moves_snapshotChannel {z0 s : State} (hs : Moves L z0 s) (hL : ∀ p ∈ [Part.regs, .frame, .acq], p ∈ L) (n : Nat) : Moves L z0
    (State.snapshotChannel s n) := by
  unfold State.snapshotChannel
  repeat' first
    | with_reducible exact hs | with_reducible exact hL | exact parts_sub hL (by decide) | with_reducible apply moves_publishItems
    | with_reducible apply moves_setChan | with_reducible apply moves_ite | dsimp only | split

theorem moves_snapshotAll {z0 s : State} (hs : Moves L z0 s) (hL : ∀ p ∈ [Part.regs, .frame, .acq, .evr], p ∈ L) (n : Nat) (l : List
    ChannelInput) : Moves L z0 (State.snapshotAll s n l) := by
  induction l generalizing s n with
  | nil => exact hs
  | cons x rest ih =>
    unfold State.snapshotAll
    repeat' first
      | with_reducible exact hs | with_reducible exact hL | exact parts_sub hL (by decide) | with_reducible apply ih
      | with_reducible apply moves_sampleChannel | with_reducible apply moves_snapshotChannel | with_reducible apply moves_ite
      | dsimp only | split

theorem moves_moveRaw {z0 s : State} (hs : Moves L z0 s) (hL : ∀ p ∈ [Part.regs], p ∈ L) : Moves L z0 (State.moveRaw s) := by
  unfold State.moveRaw
  repeat' first
    | with_reducible exact hs | with_reducible exact hL | exact parts_sub hL (by decide) | with_reducible apply moves_setReg
    | with_reducible apply moves_ite | dsimp only | split

theorem moves_claimPha {z0 s : State} (hs : Moves L z0 s) (hL : ∀ p ∈ [Part.regs], p ∈ L) (m : Nat) : Moves L z0 (State.claimPha s m) :=
    by
  unfold State.claimPha
  repeat' first
    | with_reducible exact hs | with_reducible exact hL | exact parts_sub hL (by decide) | with_reducible assumption
    | with_reducible apply moves_putRegBit | with_reducible apply moves_setReg | with_reducible refine moves_foldl (fun _ _ _ => ?_) ?_
    | with_reducible apply moves_ite | dsimp only | split

theorem moves_endPmuClients {z0 s : State} (hs : Moves L z0 s) (hL : ∀ p ∈ [Part.regs, .evr], p ∈ L) (m : Nat) : Moves L z0
    (State.endPmuClients s m) := by
  unfold State.endPmuClients
  repeat' first
    | with_reducible exact hs | with_reducible exact hL | exact parts_sub hL (by decide) | with_reducible assumption
    | with_reducible apply moves_putReg | with_reducible apply moves_raise | with_reducible refine moves_foldl (fun _ _ _ => ?_) ?_
    | with_reducible apply moves_ite | dsimp only | split

theorem moves_restartPmu {z0 s : State} (hs : Moves L z0 s) (hL : ∀ p ∈ [Part.regs, .evr], p ∈ L) (m : Nat) (words : List Word) : Moves L
    z0 (State.restartPmu s m words) := by
  unfold State.restartPmu
  repeat' first
    | with_reducible exact hs | with_reducible exact hL | exact parts_sub hL (by decide) | with_reducible apply moves_endPmuClients
    | with_reducible apply moves_putReg | with_reducible apply moves_ite | dsimp only | split

theorem moves_applyPmus {z0 s : State} (hs : Moves L z0 s) (hL : ∀ p ∈ [Part.regs, .wins, .acq, .evr], p ∈ L) (l : List (Nat × PmuStream))
    : Moves L z0 (State.applyPmus s l) := by
  induction l generalizing s with
  | nil => exact hs
  | cons x rest ih =>
    unfold State.applyPmus
    repeat' first
      | with_reducible exact hs | with_reducible exact hL | exact parts_sub hL (by decide) | with_reducible assumption
      | with_reducible apply ih | with_reducible apply moves_claimPha | with_reducible apply moves_raise
      | with_reducible apply moves_restartPmu | with_reducible apply moves_setWin | with_reducible apply moves_updAcq
      | with_reducible refine moves_foldl (fun _ _ _ => ?_) ?_ | with_reducible apply moves_ite | dsimp only | split

theorem moves_applySvs {z0 s : State} (hs : Moves L z0 s) (hL : ∀ p ∈ [Part.wins, .acq], p ∈ L) (l : List (Nat × List Word)) : Moves L z0
    (State.applySvs s l) := by
  induction l generalizing s with
  | nil => exact hs
  | cons x rest ih =>
    unfold State.applySvs
    repeat' first
      | with_reducible exact hs | with_reducible exact hL | exact parts_sub hL (by decide) | with_reducible assumption
      | with_reducible apply ih | with_reducible apply moves_setWin | with_reducible apply moves_updAcq
      | with_reducible refine moves_foldl (fun _ _ _ => ?_) ?_ | with_reducible apply moves_ite | dsimp only | split

theorem moves_acqTick {z0 s : State} (hs : Moves L z0 s) (hL : ∀ p ∈ [Part.regs, .wins, .frame, .acq, .evr], p ∈ L) (r : List
    ChannelInput) : Moves L z0 (State.acqTick s r) := by
  unfold State.acqTick
  repeat' first
    | with_reducible exact hs | with_reducible exact hL | exact parts_sub hL (by decide) | with_reducible apply moves_applyPmus
    | with_reducible apply moves_applySvs | with_reducible apply moves_moveRaw | with_reducible apply moves_putRegBit
    | with_reducible apply moves_snapshotAll | with_reducible apply moves_updAcq | with_reducible apply moves_ite | dsimp only | split

theorem moves_acqStep {z0 s : State} (hs : Moves L z0 s) (hL : ∀ p ∈ [Part.regs, .acq, .trg], p ∈ L) : Moves L z0 (State.acqStep s) := by
  unfold State.acqStep
  repeat' first
    | with_reducible exact hs | with_reducible exact hL | exact parts_sub hL (by decide) | with_reducible assumption
    | with_reducible apply moves_orReg | with_reducible apply moves_setChan | with_reducible apply moves_updAcq
    | with_reducible apply moves_updTrg | with_reducible refine moves_foldl (fun _ _ _ => ?_) ?_ | with_reducible apply moves_ite
    | dsimp only | split

theorem moves_loadEntry {z0 s : State} (hs : Moves L z0 s) (hL : ∀ p ∈ [Part.regs], p ∈ L) (sel : Nat) (win : Nat) (e : Nat) (found :
    Option (List Word)) : Moves L z0 (State.loadEntry s sel win e found) := by
  unfold State.loadEntry
  repeat' first
    | with_reducible exact hs | with_reducible exact hL | exact parts_sub hL (by decide) | with_reducible assumption
    | with_reducible apply moves_setReg | with_reducible refine moves_foldl (fun _ _ _ => ?_) ?_ | with_reducible apply moves_ite
    | dsimp only | split

end Sys2Proof.Machine
end

