-- ==== Sys2Proof/Laws/Moves/CanLock.lean ====
section
/-!
SUPPORT. What each operation of Machine/CanLock.lean may touch.
-/

namespace Sys2Proof.Machine

set_option linter.unusedTactic false
set_option linter.unreachableTactic false

variable {L : List Part}

theorem moves_setCan {z0 s : State} (hs : Moves L z0 s) (hL : ∀ p ∈ [Part.can0, .can1], p ∈ L) (ch : Nat) (x : CanChannel) : Moves L z0
    (State.setCan s ch x) := by
  unfold State.setCan
  repeat' first
    | with_reducible exact hs | with_reducible rfl | with_reducible exact Or.inl rfl | with_reducible exact Or.inl ⟨rfl, rfl⟩
    | exact Or.inr (hL _ (by decide)) | with_reducible exact hL | exact parts_sub hL (by decide) | with_reducible apply moves_ite
    | dsimp only | split | fail_if_no_progress with_reducible apply moves_record

theorem moves_setCanBuf {z0 s : State} (hs : Moves L z0 s) (hL : ∀ p ∈ [Part.can0, .can1], p ∈ L) (ch : Nat) (b : Nat) (x : CanBuffer) :
    Moves L z0 (State.setCanBuf s ch b x) := by
  unfold State.setCanBuf
  repeat' first
    | with_reducible exact hs | with_reducible exact hL | exact parts_sub hL (by decide) | with_reducible apply moves_setCan
    | with_reducible apply moves_ite | dsimp only | split

theorem moves_canOverrun {z0 s : State} (hs : Moves L z0 s) (hL : ∀ p ∈ [Part.regs, .can0, .can1, .evr], p ∈ L) (ch : Nat) (b : Nat) :
    Moves L z0 (State.canOverrun s ch b) := by
  unfold State.canOverrun
  repeat' first
    | with_reducible exact hs | with_reducible exact hL | exact parts_sub hL (by decide) | with_reducible apply moves_incReg
    | with_reducible apply moves_putRegBit | with_reducible apply moves_raise | with_reducible apply moves_setCanBuf
    | with_reducible apply moves_ite | dsimp only | split

theorem moves_canFill {z0 s : State} (hs : Moves L z0 s) (hL : ∀ p ∈ [Part.regs, .can0, .can1, .evr], p ∈ L) (ch : Nat) (b : Nat) (f :
    CanFrame) (sec : Word) (ns : Word) : Moves L z0 (State.canFill s ch b f sec ns) := by
  unfold State.canFill
  repeat' first
    | with_reducible exact hs | with_reducible exact hL | exact parts_sub hL (by decide) | with_reducible apply moves_canOverrun
    | with_reducible apply moves_setCanBuf | with_reducible apply moves_ite | dsimp only | split

theorem moves_canStore {z0 s : State} (hs : Moves L z0 s) (hL : ∀ p ∈ [Part.regs, .can0, .can1, .evr], p ∈ L) (ch : Nat) (b : Nat) (f :
    CanFrame) (sec : Word) (ns : Word) : Moves L z0 (State.canStore s ch b f sec ns) := by
  unfold State.canStore
  repeat' first
    | with_reducible exact hs | with_reducible exact hL | exact parts_sub hL (by decide) | with_reducible apply moves_canFill
    | with_reducible apply moves_canOverrun | with_reducible apply moves_setCanBuf | with_reducible apply moves_ite | dsimp only | split

theorem moves_canRelease {z0 s : State} (hs : Moves L z0 s) (hL : ∀ p ∈ [Part.regs, .can0, .can1, .evr], p ∈ L) (ch : Nat) : Moves L z0
    (State.canRelease s ch) := by
  unfold State.canRelease
  repeat' first
    | with_reducible exact hs | with_reducible exact hL | exact parts_sub hL (by decide) | with_reducible apply moves_canFill
    | with_reducible apply moves_setCan | with_reducible apply moves_setCanBuf | with_reducible apply moves_ite | dsimp only | split

theorem moves_canSessionEnds {z0 s : State} (hs : Moves L z0 s) (hL : ∀ p ∈ [Part.regs, .can0, .can1, .evr], p ∈ L) (n : Word) : Moves L
    z0 (State.canSessionEnds s n) := by
  unfold State.canSessionEnds
  repeat' first
    | with_reducible exact hs | with_reducible exact hL | exact parts_sub hL (by decide) | with_reducible apply moves_canRelease
    | with_reducible apply moves_ite | dsimp only | split

theorem moves_canReadWindow {z0 s : State} (hs : Moves L z0 s) (hL : ∀ p ∈ [Part.regs, .can0, .can1, .evr], p ∈ L) (ch : Nat) (w : Nat) (n
    : Word) : Moves L z0 (State.canReadWindow s ch w n) := by
  unfold State.canReadWindow
  repeat' first
    | with_reducible exact hs | with_reducible exact hL | exact parts_sub hL (by decide) | with_reducible apply moves_canRelease
    | with_reducible apply moves_setCan | with_reducible apply moves_setCanBuf | with_reducible apply moves_ite | dsimp only | split

theorem moves_canCutoff {z0 s : State} (hs : Moves L z0 s) (hL : ∀ p ∈ [Part.can0, .can1], p ∈ L) : Moves L z0 (State.canCutoff s) := by
  unfold State.canCutoff
  repeat' first
    | with_reducible exact hs | with_reducible rfl | with_reducible exact Or.inl rfl | with_reducible exact Or.inl ⟨rfl, rfl⟩
    | exact Or.inr (hL _ (by decide)) | with_reducible exact hL | exact parts_sub hL (by decide) | with_reducible apply moves_ite
    | dsimp only | split | fail_if_no_progress with_reducible apply moves_record

end Sys2Proof.Machine
end

