-- ==== Sys2Proof/Laws/Moves/Wire.lean ====
section
/-!
SUPPORT. What each operation of Machine/Wire.lean may touch.
-/

namespace Sys2Proof.Machine

set_option linter.unusedTactic false
set_option linter.unreachableTactic false

variable {L : List Part}

theorem moves_sendWire {z0 s : State} (hs : Moves L z0 s) (hL : ∀ p ∈ [Part.sent], p ∈ L) (kind : Message) (fields : List Nat) (bytes :
    List Byte) : Moves L z0 (State.sendWire s kind fields bytes) := by
  unfold State.sendWire
  repeat' first
    | with_reducible exact hs | with_reducible rfl | with_reducible exact Or.inl rfl | with_reducible exact Or.inl ⟨rfl, rfl⟩
    | exact Or.inr (hL _ (by decide)) | with_reducible exact hL | exact parts_sub hL (by decide) | with_reducible apply moves_ite
    | dsimp only | split | fail_if_no_progress with_reducible apply moves_record

theorem moves_transmit {z0 s : State} (hs : Moves L z0 s) (hL : ∀ p ∈ [Part.regs], p ∈ L) (l : List Nat) : Moves L z0 (State.transmit s l)
    := by
  induction l generalizing s with
  | nil => exact hs
  | cons x rest ih =>
    unfold State.transmit
    repeat' first
      | with_reducible exact hs | with_reducible exact hL | exact parts_sub hL (by decide) | with_reducible apply ih
      | with_reducible apply moves_incReg | with_reducible apply moves_ite | dsimp only | split

theorem moves_emit {z0 s : State} (hs : Moves L z0 s) (hL : ∀ p ∈ [Part.regs, .sent], p ∈ L) (kind : Message) (fields : List Nat) (bytes :
    List Byte) (ports : List Nat) : Moves L z0 (State.emit s kind fields bytes ports) := by
  unfold State.emit
  repeat' first
    | with_reducible exact hs | with_reducible exact hL | exact parts_sub hL (by decide) | with_reducible apply moves_sendWire
    | with_reducible apply moves_transmit | with_reducible apply moves_ite | dsimp only | split

theorem moves_serviceFrame {z0 s : State} (hs : Moves L z0 s) (hL : ∀ p ∈ [Part.regs], p ∈ L) (p : Nat) : Moves L z0 (State.serviceFrame s
    p) := by
  unfold State.serviceFrame
  repeat' first
    | with_reducible exact hs | with_reducible exact hL | exact parts_sub hL (by decide) | with_reducible apply moves_incReg
    | with_reducible apply moves_ite | dsimp only | split

end Sys2Proof.Machine
end

