-- ==== Sys2Proof/Laws/Moves/Protocol.lean ====
section
/-!
SUPPORT. What each operation of Machine/Protocol.lean may touch.
-/

namespace Sys2Proof.Machine

set_option linter.unusedTactic false
set_option linter.unreachableTactic false

variable {L : List Part}

theorem moves_updQcp {z0 s : State} (hs : Moves L z0 s) (hL : ∀ p ∈ [Part.qcp], p ∈ L) (f : Protocol → Protocol) : Moves L z0
    (State.updQcp s f) := by
  unfold State.updQcp
  repeat' first
    | with_reducible exact hs | with_reducible rfl | with_reducible exact Or.inl rfl | with_reducible exact Or.inl ⟨rfl, rfl⟩
    | exact Or.inr (hL _ (by decide)) | with_reducible exact hL | exact parts_sub hL (by decide) | with_reducible apply moves_ite
    | dsimp only | split | fail_if_no_progress with_reducible apply moves_record

theorem moves_count {z0 s : State} (hs : Moves L z0 s) (hL : ∀ p ∈ [Part.qcp], p ∈ L) (f : QcpStats → QcpStats) : Moves L z0 (State.count
    s f) := by
  unfold State.count
  repeat' first
    | with_reducible exact hs | with_reducible exact hL | exact parts_sub hL (by decide) | with_reducible apply moves_updQcp
    | with_reducible apply moves_ite | dsimp only | split

theorem moves_raiseQcp {z0 s : State} (hs : Moves L z0 s) (hL : ∀ p ∈ [Part.evr], p ∈ L) (code : Nat) (n : Word) : Moves L z0
    (State.raiseQcp s code n) := by
  unfold State.raiseQcp
  repeat' first
    | with_reducible exact hs | with_reducible exact hL | exact parts_sub hL (by decide) | with_reducible apply moves_raise
    | with_reducible apply moves_ite | dsimp only | split

theorem moves_updSession {z0 s : State} (hs : Moves L z0 s) (hL : ∀ p ∈ [Part.qcp], p ∈ L) (n : Word) (f : Session → Session) : Moves L z0
    (State.updSession s n f) := by
  unfold State.updSession
  repeat' first
    | with_reducible exact hs | with_reducible exact hL | exact parts_sub hL (by decide) | with_reducible apply moves_updQcp
    | with_reducible apply moves_ite | dsimp only | split

theorem moves_packetOut {z0 s : State} (hs : Moves L z0 s) (hL : ∀ p ∈ [Part.qcp], p ∈ L) (port : Nat) : Moves L z0 (State.packetOut s
    port) := by
  unfold State.packetOut
  repeat' first
    | with_reducible exact hs | with_reducible exact hL | exact parts_sub hL (by decide) | with_reducible apply moves_count
    | with_reducible apply moves_updQcp | with_reducible apply moves_ite | dsimp only | split

theorem moves_sendReply {z0 s : State} (hs : Moves L z0 s) (hL : ∀ p ∈ [Part.qcp, .sent], p ∈ L) (op : Nat) (rq : Requester) (r : Reply)
    (relayed : Bool) : Moves L z0 (State.sendReply s op rq r relayed) := by
  unfold State.sendReply
  repeat' first
    | with_reducible exact hs | with_reducible exact hL | exact parts_sub hL (by decide) | with_reducible apply moves_packetOut
    | with_reducible apply moves_sendWire | with_reducible apply moves_updQcp | with_reducible apply moves_ite | dsimp only | split

theorem moves_sendNotice {z0 s : State} (hs : Moves L z0 s) (hL : ∀ p ∈ [Part.qcp, .sent], p ∈ L) (n : Notice) : Moves L z0
    (State.sendNotice s n) := by
  unfold State.sendNotice
  repeat' first
    | with_reducible exact hs | with_reducible exact hL | exact parts_sub hL (by decide) | with_reducible apply moves_packetOut
    | with_reducible apply moves_sendWire | with_reducible apply moves_ite | dsimp only | split

theorem moves_answer {z0 s : State} (hs : Moves L z0 s) (hL : ∀ p ∈ [Part.qcp, .sent], p ∈ L) (op : Nat) (rq : Requester) (r : Reply)
    (relayed : Bool) : Moves L z0 (State.answer s op rq r relayed) := by
  unfold State.answer
  repeat' first
    | with_reducible exact hs | with_reducible exact hL | exact parts_sub hL (by decide) | with_reducible apply moves_sendReply
    | with_reducible apply moves_updSession | with_reducible apply moves_ite | dsimp only | split

theorem moves_lateAnswer {z0 s : State} (hs : Moves L z0 s) (hL : ∀ p ∈ [Part.qcp, .sent], p ∈ L) (op : Nat) (rq : Option Requester) (r :
    Reply) (relayed : Bool) : Moves L z0 (State.lateAnswer s op rq r relayed) := by
  unfold State.lateAnswer
  repeat' first
    | with_reducible exact hs | with_reducible exact hL | exact parts_sub hL (by decide) | with_reducible apply moves_answer
    | with_reducible apply moves_ite | dsimp only | split

theorem moves_notify {z0 s : State} (hs : Moves L z0 s) (hL : ∀ p ∈ [Part.qcp, .sent], p ∈ L) (op : Nat) (rq : Option Requester) (r :
    Reply) : Moves L z0 (State.notify s op rq r) := by
  unfold State.notify
  repeat' first
    | with_reducible exact hs | with_reducible exact hL | exact parts_sub hL (by decide) | with_reducible apply moves_sendNotice
    | with_reducible apply moves_updQcp | with_reducible apply moves_updSession | with_reducible apply moves_ite | dsimp only | split

theorem moves_setOtherBank {z0 s : State} (hs : Moves L z0 s) (hL : ∀ p ∈ [Part.regs], p ∈ L) (k : Nat) (st : Nat) : Moves L z0
    (State.setOtherBank s k st) := by
  unfold State.setOtherBank
  repeat' first
    | with_reducible exact hs | with_reducible exact hL | exact parts_sub hL (by decide) | with_reducible apply moves_putReg
    | with_reducible apply moves_ite | dsimp only | split

theorem moves_dropHandle {z0 s : State} (hs : Moves L z0 s) (hL : ∀ p ∈ [Part.regs, .evr, .qcp], p ∈ L) (h : Handle) (finished : Bool) :
    Moves L z0 (State.dropHandle s h finished) := by
  unfold State.dropHandle
  repeat' first
    | with_reducible exact hs | with_reducible exact hL | exact parts_sub hL (by decide) | with_reducible apply moves_raiseQcp
    | with_reducible apply moves_setOtherBank | with_reducible apply moves_setReg | with_reducible apply moves_updQcp
    | with_reducible apply moves_ite | dsimp only | split

theorem moves_dropHandles {z0 s : State} (hs : Moves L z0 s) (hL : ∀ p ∈ [Part.regs, .evr, .qcp], p ∈ L) (l : List Handle) : Moves L z0
    (State.dropHandles s l) := by
  induction l generalizing s with
  | nil => exact hs
  | cons x rest ih =>
    unfold State.dropHandles
    repeat' first
      | with_reducible exact hs | with_reducible exact hL | exact parts_sub hL (by decide) | with_reducible apply ih
      | with_reducible apply moves_dropHandle | with_reducible apply moves_ite | dsimp only | split

theorem moves_openHandle {z0 s : State} (hs : Moves L z0 s) (hL : ∀ p ∈ [Part.qcp], p ∈ L) (n : Word) (kind : HandleKind) (size : Nat)
    (digest : BitVec 256) :
    Moves L z0 (s.openHandle n kind size digest).1 := by
  unfold State.openHandle
  dsimp only
  exact moves_updQcp hs hL _

theorem moves_openHandle_of {z0 s t : State} {r : Handle} {n : Word} {kind : HandleKind} {size : Nat} {digest : BitVec 256}
    (e : s.openHandle n kind size digest = (t, r)) (hs : Moves L z0 s) (hL : ∀ p ∈ [Part.qcp], p ∈ L) : Moves L z0 t := by
  have := moves_openHandle hs hL n kind size digest
  rw [e] at this
  exact this

theorem moves_setHandle {z0 s : State} (hs : Moves L z0 s) (hL : ∀ p ∈ [Part.qcp], p ∈ L) (h : Handle) : Moves L z0 (State.setHandle s h)
    := by
  unfold State.setHandle
  repeat' first
    | with_reducible exact hs | with_reducible exact hL | exact parts_sub hL (by decide) | with_reducible apply moves_updQcp
    | with_reducible apply moves_ite | dsimp only | split

theorem moves_endSession {z0 s : State} (hs : Moves L z0 s) (hL : ∀ p ∈ [Part.regs, .can0, .can1, .evr, .qcp], p ∈ L) (n : Word) : Moves L
    z0 (State.endSession s n) := by
  unfold State.endSession
  repeat' first
    | with_reducible exact hs | with_reducible exact hL | exact parts_sub hL (by decide) | with_reducible apply moves_canSessionEnds
    | with_reducible apply moves_dropHandles | with_reducible apply moves_raiseQcp | with_reducible apply moves_updQcp
    | with_reducible apply moves_ite | dsimp only | split

theorem moves_endSessions {z0 s : State} (hs : Moves L z0 s) (hL : ∀ p ∈ [Part.regs, .can0, .can1, .evr, .qcp], p ∈ L) (l : List Word) :
    Moves L z0 (State.endSessions s l) := by
  induction l generalizing s with
  | nil => exact hs
  | cons x rest ih =>
    unfold State.endSessions
    repeat' first
      | with_reducible exact hs | with_reducible exact hL | exact parts_sub hL (by decide) | with_reducible apply ih
      | with_reducible apply moves_endSession | with_reducible apply moves_ite | dsimp only | split

theorem moves_endAllSessions {z0 s : State} (hs : Moves L z0 s) (hL : ∀ p ∈ [Part.regs, .can0, .can1, .evr, .qcp], p ∈ L) : Moves L z0
    (State.endAllSessions s) := by
  unfold State.endAllSessions
  repeat' first
    | with_reducible exact hs | with_reducible exact hL | exact parts_sub hL (by decide) | with_reducible apply moves_endSessions
    | with_reducible apply moves_ite | dsimp only | split

theorem moves_claimWindow {z0 s : State} (hs : Moves L z0 s) (hL : ∀ p ∈ [Part.qcp], p ∈ L) (w : WindowId) (n : Word) : Moves L z0
    (State.claimWindow s w n) := by
  unfold State.claimWindow
  repeat' first
    | with_reducible exact hs | with_reducible exact hL | exact parts_sub hL (by decide) | with_reducible apply moves_updQcp
    | with_reducible apply moves_ite | dsimp only | split

theorem moves_releaseWindow {z0 s : State} (hs : Moves L z0 s) (hL : ∀ p ∈ [Part.qcp], p ∈ L) (w : WindowId) : Moves L z0
    (State.releaseWindow s w) := by
  unfold State.releaseWindow
  repeat' first
    | with_reducible exact hs | with_reducible exact hL | exact parts_sub hL (by decide) | with_reducible apply moves_updQcp
    | with_reducible apply moves_ite | dsimp only | split

theorem moves_received {z0 s : State} (hs : Moves L z0 s) (hL : ∀ p ∈ [Part.qcp], p ∈ L) (port : Nat) : Moves L z0 (State.received s port)
    := by
  unfold State.received
  repeat' first
    | with_reducible exact hs | with_reducible exact hL | exact parts_sub hL (by decide) | with_reducible apply moves_count
    | with_reducible apply moves_updQcp | with_reducible apply moves_ite | dsimp only | split

theorem moves_macFailure {z0 s : State} (hs : Moves L z0 s) (hL : ∀ p ∈ [Part.evr, .qcp], p ∈ L) (n : Word) : Moves L z0 (State.macFailure
    s n) := by
  unfold State.macFailure
  repeat' first
    | with_reducible exact hs | with_reducible exact hL | exact parts_sub hL (by decide) | with_reducible apply moves_count
    | with_reducible apply moves_raiseQcp | with_reducible apply moves_updSession | with_reducible apply moves_ite | dsimp only | split

theorem moves_countStatus {z0 s : State} (hs : Moves L z0 s) (hL : ∀ p ∈ [Part.qcp], p ∈ L) (st : Status) : Moves L z0 (State.countStatus
    s st) := by
  unfold State.countStatus
  repeat' first
    | with_reducible exact hs | with_reducible exact hL | exact parts_sub hL (by decide) | with_reducible apply moves_count
    | with_reducible apply moves_ite | dsimp only | split

theorem moves_refuse {z0 s : State} (hs : Moves L z0 s) (hL : ∀ p ∈ [Part.evr, .qcp, .sent], p ∈ L) (op : Nat) (rq : Requester) (r :
    Reply) (event : Option Nat) : Moves L z0 (State.refuse s op rq r event) := by
  unfold State.refuse
  repeat' first
    | with_reducible exact hs | with_reducible exact hL | exact parts_sub hL (by decide) | with_reducible apply moves_answer
    | with_reducible apply moves_countStatus | with_reducible apply moves_raiseQcp | with_reducible apply moves_ite | dsimp only | split

theorem moves_relayRequest {z0 s : State} (hs : Moves L z0 s) (hL : ∀ p ∈ [Part.evr, .qcp, .sent], p ∈ L) (op : Nat) (rq : Requester) :
    Moves L z0 (State.relayRequest s op rq) := by
  unfold State.relayRequest
  repeat' first
    | with_reducible exact hs | with_reducible exact hL | exact parts_sub hL (by decide) | with_reducible apply moves_answer
    | with_reducible apply moves_count | with_reducible apply moves_raiseQcp | with_reducible apply moves_refuse
    | with_reducible apply moves_send | with_reducible apply moves_updQcp | with_reducible apply moves_ite | dsimp only | split

theorem moves_Body_refuse {z0 s : State} (hs : Moves L z0 s) (r : Reply) (rq : Requester) : Moves L z0 (Body.refuse r s rq).1 := hs

theorem moves_Body_refuse_of {z0 s t9 : State} {r9 : Option Reply} {r : Reply} {rq : Requester} (e9 : Body.refuse r s rq = (t9, r9)) (hs :
    Moves L z0 s) : Moves L z0 t9 := by
  have := moves_Body_refuse hs r rq
  rw [e9] at this
  exact this

theorem moves_runRequest {z0 s : State} (hs : Moves L z0 s) (hL : ∀ p ∈ [Part.evr, .qcp, .sent], p ∈ L) (op : Nat) (rq : Requester)
    (x : Session) (auth : Nat) (lock : Bool)
    (params : Option Reply) {body : Body} (hb : ∀ t : State, Moves L z0 t → Moves L z0 (body t rq).1) :
    Moves L z0 (s.runRequest op rq x auth lock params body) := by
  unfold State.runRequest
  split
  · exact moves_refuse hs (parts_sub hL (by decide)) _ _ _ _
  · split
    · exact moves_refuse hs (parts_sub hL (by decide)) _ _ _ _
    · split
      · exact moves_refuse hs (parts_sub hL (by decide)) _ _ _ _
      · split
        · exact moves_raiseQcp (moves_refuse hs (parts_sub hL (by decide)) _ _ _ _) (parts_sub hL (by decide)) _ _
        · have h1 := hb s hs
          split
          · next e =>
            rw [e] at h1
            exact moves_answer (moves_countStatus h1 (parts_sub hL (by decide)) _) (parts_sub hL (by decide)) _ _ _ _
          · next e =>
            rw [e] at h1
            exact h1

theorem moves_receive {z0 s : State} (hs : Moves L z0 s) (hL : ∀ p ∈ [Part.evr, .qcp, .sent], p ∈ L) (p : Pkt) (op : Nat)
    {next : State → Requester → Session → State}
    (hn : ∀ t rq x, Moves L z0 t → Moves L z0 (next t rq x)) : Moves L z0 (s.receive p op next) := by
  have h1 : Moves L z0 (s.received (pathPort p.path)) := moves_received hs (parts_sub hL (by decide)) _
  have h2 := fun y => moves_updSession h1 (parts_sub hL (by decide)) p.session y
  unfold State.receive
  generalize pathPort p.path = port at h1 h2
  generalize s.received port = t at h1 h2
  split
  · exact hs
  · dsimp only
    repeat' split
    · exact moves_sendReply h1 (parts_sub hL (by decide)) _ _ _ _
    · exact moves_sendReply (moves_raiseBlock (moves_countStatus h1 (parts_sub hL (by decide)) _) (parts_sub hL (by decide)) _) (parts_sub hL
        (by decide)) _ _ _ _
    · exact moves_sendReply h1 (parts_sub hL (by decide)) _ _ _ _
    · exact moves_sendReply h1 (parts_sub hL (by decide)) _ _ _ _
    · exact moves_macFailure h1 (parts_sub hL (by decide)) _
    · exact moves_refuse (h2 _) (parts_sub hL (by decide)) _ _ _ _
    · exact moves_sendReply h1 (parts_sub hL (by decide)) _ _ _ _
    · exact moves_sendReply (moves_raiseQcp (moves_countStatus h1 (parts_sub hL (by decide)) _) (parts_sub hL (by decide)) _ _) (parts_sub hL
        (by decide)) _ _ _ _
    · exact moves_relayRequest (h2 _) (parts_sub hL (by decide)) _ _
    · exact hn _ _ _ (h2 _)

theorem moves_request {z0 s : State} (hs : Moves L z0 s) (hL : ∀ p ∈ [Part.evr, .qcp, .sent], p ∈ L) (p : Pkt) (op auth : Nat)
    (lock : Bool) (params : Option Reply) {body : Body}
    (hb : ∀ t rq, Moves L z0 t → Moves L z0 (body t rq).1) : Moves L z0 (s.request p op auth lock params body) :=
  moves_receive hs (parts_sub hL (by decide)) p op fun _ rq _ ht => moves_runRequest ht (parts_sub hL (by decide)) _ _ _ _ _ _ fun u hu => hb u rq hu

theorem moves_pass {z0 s : State} (hs : Moves L z0 s) (hL : ∀ p ∈ [Part.sent], p ∈ L) (fields : List Nat) : Moves L z0 (State.pass s
    fields) := by
  unfold State.pass
  repeat' first
    | with_reducible exact hs | with_reducible exact hL | exact parts_sub hL (by decide) | with_reducible apply moves_send
    | with_reducible apply moves_ite | dsimp only | split

end Sys2Proof.Machine
end

