-- ==== Sys2Proof/Laws/Moves/Records.lean ====
section
/-!
SUPPORT. What each operation of Machine/Records.lean may touch.
-/

namespace Sys2Proof.Machine

set_option linter.unusedTactic false
set_option linter.unreachableTactic false

variable {L : List Part}

theorem moves_noteRaw {z0 s : State} (hs : Moves L z0 s) (hL : ∀ p ∈ [Part.regs, .evr], p ∈ L) (k : Nat) : Moves L z0 (State.noteRaw s k)
    := by
  unfold State.noteRaw
  repeat' first
    | with_reducible exact hs | with_reducible exact hL | exact parts_sub hL (by decide) | with_reducible apply moves_orReg
    | with_reducible apply moves_raise | with_reducible apply moves_satRegFld | with_reducible apply moves_ite | dsimp only | split

theorem moves_recordTick {z0 s : State} (hs : Moves L z0 s) (hL : ∀ p ∈ [Part.trg], p ∈ L) : Moves L z0 (State.recordTick s) := by
  unfold State.recordTick
  repeat' first
    | with_reducible exact hs | with_reducible exact hL | exact parts_sub hL (by decide) | with_reducible apply moves_updTrg
    | with_reducible apply moves_ite | dsimp only | split

theorem moves_newRecord {z0 s : State} (hs : Moves L z0 s) (hL : ∀ p ∈ [Part.regs, .trg, .evr], p ∈ L) (k : Nat) (trig : Nat) (source :
    Nat) (stepA : Option Nat) (unit : Option Nat) (q : Quality) : Moves L z0 (State.newRecord s k trig source stepA unit q) := by
  unfold State.newRecord
  repeat' first
    | with_reducible exact hs | with_reducible exact hL | exact parts_sub hL (by decide) | with_reducible apply moves_noteRaw
    | with_reducible apply moves_updTrg | with_reducible apply moves_ite | dsimp only | split

theorem moves_setRecord {z0 s : State} (hs : Moves L z0 s) (hL : ∀ p ∈ [Part.trg], p ∈ L) (r : TrigRecord) : Moves L z0 (State.setRecord s
    r) := by
  unfold State.setRecord
  repeat' first
    | with_reducible exact hs | with_reducible exact hL | exact parts_sub hL (by decide) | with_reducible apply moves_updTrg
    | with_reducible apply moves_ite | dsimp only | split

theorem moves_extendRecord {z0 s : State} (hs : Moves L z0 s) (hL : ∀ p ∈ [Part.regs, .trg, .evr], p ∈ L) (r : TrigRecord) (trig : Nat)
    (source : Nat) : Moves L z0 (State.extendRecord s r trig source) := by
  unfold State.extendRecord
  repeat' first
    | with_reducible exact hs | with_reducible exact hL | exact parts_sub hL (by decide) | with_reducible apply moves_noteRaw
    | with_reducible apply moves_setRecord | with_reducible apply moves_ite | dsimp only | split

theorem moves_openRecord {z0 s : State} (hs : Moves L z0 s) (hL : ∀ p ∈ [Part.regs, .trg, .evr], p ∈ L) (k : Nat) (trig : Nat) (source :
    Nat) (stepA : Option Nat) (unit : Option Nat) (q : Quality) : Moves L z0 (State.openRecord s k trig source stepA unit q) := by
  unfold State.openRecord
  repeat' first
    | with_reducible exact hs | with_reducible exact hL | exact parts_sub hL (by decide) | with_reducible apply moves_extendRecord
    | with_reducible apply moves_newRecord | with_reducible apply moves_ite | dsimp only | split

theorem ends_execRecordWindowEnd {s : State} (hL : ∀ p ∈ [Part.trg], p ∈ L) (number : Word) : Ends L s (execRecordWindowEnd number s) :=
    by
  have hs := Moves.refl L s
  unfold execRecordWindowEnd
  repeat' first
    | with_reducible apply ends_next | with_reducible apply ends_ite | with_reducible exact hs | with_reducible exact hL
    | exact parts_sub hL (by decide) | with_reducible apply moves_setRecord | dsimp only | split

theorem moves_makeRoom {z0 s : State} (hs : Moves L z0 s) (hL : ∀ p ∈ [Part.trg], p ∈ L) (kb : Nat) (l : List TrigRecord) : Moves L z0
    (State.makeRoom s kb l) := by
  induction l generalizing s kb with
  | nil => exact hs
  | cons x rest ih =>
    unfold State.makeRoom
    repeat' first
      | with_reducible exact hs | with_reducible exact hL | exact parts_sub hL (by decide) | with_reducible apply ih
      | with_reducible apply moves_updTrg | with_reducible apply moves_ite | dsimp only | split

theorem ends_execRecordCommitted {s : State} (hL : ∀ p ∈ [Part.regs, .trg, .evr], p ∈ L) (number : Word) : Ends L s (execRecordCommitted
    number s) := by
  have hs := Moves.refl L s
  unfold execRecordCommitted
  repeat' first
    | with_reducible apply ends_next | with_reducible apply ends_ite | with_reducible exact hs | with_reducible exact hL
    | exact parts_sub hL (by decide) | with_reducible apply moves_makeRoom | with_reducible apply moves_orReg
    | with_reducible apply moves_raise | with_reducible apply moves_satRegFld | with_reducible apply moves_setRecord
    | with_reducible apply moves_updTrg | dsimp only | split

end Sys2Proof.Machine
end

