-- ==== Sys2Proof/Laws/Moves/Triggers.lean ====
section
/-!
SUPPORT. What each operation of Machine/Triggers.lean may touch.
-/

namespace Sys2Proof.Machine

set_option linter.unusedTactic false
set_option linter.unreachableTactic false

variable {L : List Part}

theorem moves_drive {z0 s : State} (hs : Moves L z0 s) (hL : ∀ p ∈ [Part.trg, .sent], p ∈ L) (mask : Nat) (at_ : Nat) : Moves L z0
    (State.drive s mask at_) := by
  unfold State.drive
  repeat' first
    | with_reducible exact hs | with_reducible exact hL | exact parts_sub hL (by decide) | with_reducible assumption
    | with_reducible apply moves_send | with_reducible apply moves_updTrg | with_reducible refine moves_foldl (fun _ _ _ => ?_) ?_
    | with_reducible apply moves_ite | dsimp only | split

theorem moves_tackPulse {z0 s : State} (hs : Moves L z0 s) (hL : ∀ p ∈ [Part.trg, .sent], p ∈ L) (l : Nat) (width : Nat) : Moves L z0
    (State.tackPulse s l width) := by
  unfold State.tackPulse
  repeat' first
    | with_reducible exact hs | with_reducible exact hL | exact parts_sub hL (by decide) | with_reducible apply moves_send
    | with_reducible apply moves_updTrg | with_reducible apply moves_ite | dsimp only | split

theorem ends_execTriggerLinePulseEnd {s : State} (hL : ∀ p ∈ [Part.tb, .trg, .clock], p ∈ L) (l : Fin 8) : Ends L s
    (execTriggerLinePulseEnd l s) := by
  have hs := Moves.refl L s
  unfold execTriggerLinePulseEnd
  repeat' first
    | with_reducible apply ends_next | with_reducible apply ends_ite | with_reducible exact hs | with_reducible exact hL
    | exact parts_sub hL (by decide) | with_reducible apply moves_advanceTo | with_reducible apply moves_updTrg | dsimp only | split

theorem moves_lineStarts {z0 s : State} (hs : Moves L z0 s) (hL : ∀ p ∈ [Part.regs, .trg, .evr], p ∈ L) (mask : Nat) (trig : Nat) (l :
    List Nat) : Moves L z0 (State.lineStarts s mask trig l) := by
  induction l generalizing s mask trig with
  | nil => exact hs
  | cons x rest ih =>
    unfold State.lineStarts
    repeat' first
      | with_reducible exact hs | with_reducible exact hL | exact parts_sub hL (by decide) | with_reducible apply ih
      | with_reducible apply moves_openRecord | with_reducible apply moves_ite | dsimp only | split

theorem ends_execTriggerLineAsserted {s : State} (hL : ∀ p ∈ [Part.regs, .trg, .evr], p ∈ L) (levels : Byte) (stamp : Instant) : Ends L s
    (execTriggerLineAsserted levels stamp s) := by
  have hs := Moves.refl L s
  unfold execTriggerLineAsserted
  repeat' first
    | with_reducible apply ends_next | with_reducible apply ends_ite | with_reducible exact hs | with_reducible exact hL
    | exact parts_sub hL (by decide) | with_reducible apply moves_lineStarts | with_reducible apply moves_updTrg | dsimp only | split

theorem moves_setFlLine {z0 s : State} (hs : Moves L z0 s) (hL : ∀ p ∈ [Part.trg], p ∈ L) (l : Nat) (x : FlLine) : Moves L z0
    (State.setFlLine s l x) := by
  unfold State.setFlLine
  repeat' first
    | with_reducible exact hs | with_reducible exact hL | exact parts_sub hL (by decide) | with_reducible apply moves_updTrg
    | with_reducible apply moves_ite | dsimp only | split

theorem moves_startLine {z0 s : State} (hs : Moves L z0 s) (hL : ∀ p ∈ [Part.trg], p ∈ L) (l : Nat) (ts : Nat) : Moves L z0
    (State.startLine s l ts) := by
  unfold State.startLine
  repeat' first
    | with_reducible exact hs | with_reducible exact hL | exact parts_sub hL (by decide) | with_reducible apply moves_setFlLine
    | with_reducible apply moves_ite | dsimp only | split

theorem moves_startLines {z0 s : State} (hs : Moves L z0 s) (hL : ∀ p ∈ [Part.trg], p ∈ L) (u : Nat) (ts : Nat) (l : List Nat) : Moves L
    z0 (State.startLines s u ts l) := by
  induction l generalizing s u ts with
  | nil => exact hs
  | cons x rest ih =>
    unfold State.startLines
    repeat' first
      | with_reducible exact hs | with_reducible exact hL | exact parts_sub hL (by decide) | with_reducible apply ih
      | with_reducible apply moves_startLine | with_reducible apply moves_ite | dsimp only | split

theorem moves_setPattern {z0 s : State} (hs : Moves L z0 s) (hL : ∀ p ∈ [Part.trg], p ∈ L) (u : Nat) (p : PatternUnit) : Moves L z0
    (State.setPattern s u p) := by
  unfold State.setPattern
  repeat' first
    | with_reducible exact hs | with_reducible exact hL | exact parts_sub hL (by decide) | with_reducible apply moves_updTrg
    | with_reducible apply moves_ite | dsimp only | split

theorem moves_firePattern {z0 s : State} (hs : Moves L z0 s) (hL : ∀ p ∈ [Part.regs, .trg, .evr, .sent], p ∈ L) (at_ : Nat) (u : Nat)
    (care : BitVec 128) (changed : List Nat) (stepA : Option Nat) : Moves L z0 (State.firePattern s at_ u care changed stepA) := by
  unfold State.firePattern
  repeat' first
    | with_reducible exact hs | with_reducible exact hL | exact parts_sub hL (by decide) | with_reducible apply moves_drive
    | with_reducible apply moves_incReg | with_reducible apply moves_openRecord | with_reducible apply moves_orReg
    | with_reducible apply moves_raise | with_reducible apply moves_setPattern | with_reducible apply moves_setReg
    | with_reducible apply moves_startLines | with_reducible apply moves_ite | dsimp only | split

theorem moves_evaluatePattern {z0 s : State} (hs : Moves L z0 s) (hL : ∀ p ∈ [Part.regs, .trg, .evr, .sent], p ∈ L) (at_ : Nat) (u : Nat)
    (changed : List Nat) : Moves L z0 (State.evaluatePattern s at_ u changed) := by
  unfold State.evaluatePattern
  repeat' first
    | with_reducible exact hs | with_reducible exact hL | exact parts_sub hL (by decide) | with_reducible apply moves_firePattern
    | with_reducible apply moves_setPattern | with_reducible apply moves_ite | dsimp only | split

theorem moves_evaluatePatterns {z0 s : State} (hs : Moves L z0 s) (hL : ∀ p ∈ [Part.regs, .trg, .evr, .sent], p ∈ L) (at_ : Nat) (changed
    : List Nat) (l : List Nat) : Moves L z0 (State.evaluatePatterns s at_ changed l) := by
  induction l generalizing s changed with
  | nil => exact hs
  | cons x rest ih =>
    unfold State.evaluatePatterns
    repeat' first
      | with_reducible exact hs | with_reducible exact hL | exact parts_sub hL (by decide) | with_reducible apply ih
      | with_reducible apply moves_evaluatePattern | with_reducible apply moves_ite | dsimp only | split

theorem moves_flushAligned {z0 s : State} (hs : Moves L z0 s) (hL : ∀ p ∈ [Part.regs, .trg, .evr, .sent], p ∈ L) (l : List (Nat × List
    (Nat × Bool × Nat))) : Moves L z0 (State.flushAligned s l) := by
  induction l generalizing s with
  | nil => exact hs
  | cons x rest ih =>
    unfold State.flushAligned
    repeat' first
      | with_reducible exact hs | with_reducible exact hL | exact parts_sub hL (by decide) | with_reducible assumption
      | with_reducible apply ih | with_reducible apply moves_evaluatePatterns | with_reducible apply moves_updTrg
      | with_reducible refine moves_foldl (fun _ _ _ => ?_) ?_ | with_reducible apply moves_ite | dsimp only | split

theorem moves_forwardSources {z0 s : State} (hs : Moves L z0 s) (hL : ∀ p ∈ [Part.sent], p ∈ L) (l : List (Nat × Bool × Nat)) : Moves L z0
    (State.forwardSources s l) := by
  induction l generalizing s with
  | nil => exact hs
  | cons x rest ih =>
    unfold State.forwardSources
    repeat' first
      | with_reducible exact hs | with_reducible exact hL | exact parts_sub hL (by decide) | with_reducible apply ih
      | with_reducible apply moves_send | with_reducible apply moves_ite | dsimp only | split

theorem moves_forwardGroup {z0 s : State} (hs : Moves L z0 s) (hL : ∀ p ∈ [Part.sent], p ∈ L) (old : Nat) : Moves L z0 (State.forwardGroup
    s old) := by
  unfold State.forwardGroup
  repeat' first
    | with_reducible exact hs | with_reducible exact hL | exact parts_sub hL (by decide) | with_reducible assumption
    | with_reducible apply moves_forwardSources | with_reducible refine moves_foldl (fun _ _ _ => ?_) ?_ | with_reducible apply moves_ite
    | dsimp only | split

theorem moves_sourcesChange {z0 s : State} (hs : Moves L z0 s) (hL : ∀ p ∈ [Part.regs, .trg, .evr, .sent], p ∈ L) (l : List (Nat × Bool ×
    Nat)) : Moves L z0 (State.sourcesChange s l) := by
  unfold State.sourcesChange
  repeat' first
    | with_reducible exact hs | with_reducible exact hL | exact parts_sub hL (by decide) | with_reducible apply moves_evaluatePatterns
    | with_reducible apply moves_flushAligned | with_reducible apply moves_forwardSources | with_reducible apply moves_updTrg
    | with_reducible apply moves_ite | dsimp only | split

theorem ends_execPatternArmExpiry {s : State} (hL : ∀ p ∈ [Part.tb, .trg, .clock], p ∈ L) (u : Fin 8) : Ends L s (execPatternArmExpiry u
    s) := by
  have hs := Moves.refl L s
  unfold execPatternArmExpiry
  repeat' first
    | with_reducible apply ends_next | with_reducible apply ends_ite | with_reducible exact hs | with_reducible exact hL
    | exact parts_sub hL (by decide) | with_reducible apply moves_advanceTo | with_reducible apply moves_setPattern | dsimp only | split

theorem ends_execPatternHoldoffExpiry {s : State} (hL : ∀ p ∈ [Part.tb, .clock], p ∈ L) (u : Fin 8) : Ends L s (execPatternHoldoffExpiry u
    s) := by
  have hs := Moves.refl L s
  unfold execPatternHoldoffExpiry
  repeat' first
    | with_reducible apply ends_next | with_reducible apply ends_ite | with_reducible exact hs | with_reducible exact hL
    | exact parts_sub hL (by decide) | with_reducible apply moves_advanceTo | dsimp only | split

theorem ends_execPartnerSourceChange {s : State} (hL : ∀ p ∈ [Part.regs, .trg, .evr, .sent], p ∈ L) (i : Fin 32) (level : Bool) (stamp :
    Instant) : Ends L s (execPartnerSourceChange i level stamp s) := by
  have hs := Moves.refl L s
  unfold execPartnerSourceChange
  repeat' first
    | with_reducible apply ends_next | with_reducible apply ends_ite | with_reducible exact hs | with_reducible exact hL
    | exact parts_sub hL (by decide) | with_reducible apply moves_sourcesChange | dsimp only | split

theorem moves_loadPartner {z0 s : State} (hs : Moves L z0 s) (hL : ∀ p ∈ [Part.trg], p ∈ L) (states : Word) : Moves L z0
    (State.loadPartner s states) := by
  unfold State.loadPartner
  repeat' first
    | with_reducible exact hs | with_reducible exact hL | exact parts_sub hL (by decide) | with_reducible assumption
    | with_reducible apply moves_setPattern | with_reducible apply moves_updTrg | with_reducible refine moves_foldl (fun _ _ _ => ?_) ?_
    | with_reducible apply moves_ite | dsimp only | split

theorem ends_execPartnerSourcesLost {s : State} (hL : ∀ p ∈ [Part.regs, .trg, .evr], p ∈ L) : Ends L s (execPartnerSourcesLost s) := by
  have hs := Moves.refl L s
  unfold execPartnerSourcesLost
  repeat' first
    | with_reducible apply ends_next | with_reducible apply ends_ite | with_reducible exact hs | with_reducible exact hL
    | exact parts_sub hL (by decide) | with_reducible apply moves_loadPartner | with_reducible apply moves_orReg
    | with_reducible apply moves_raiseBlock | with_reducible apply moves_updTrg | dsimp only | split

theorem ends_execPartnerSourcesRestored {s : State} (hL : ∀ p ∈ [Part.trg, .evr], p ∈ L) (states : Word) : Ends L s
    (execPartnerSourcesRestored states s) := by
  have hs := Moves.refl L s
  unfold execPartnerSourcesRestored
  repeat' first
    | with_reducible apply ends_next | with_reducible apply ends_ite | with_reducible exact hs | with_reducible exact hL
    | exact parts_sub hL (by decide) | with_reducible apply moves_loadPartner | with_reducible apply moves_raiseBlock
    | with_reducible apply moves_updTrg | dsimp only | split

theorem moves_applyPatterns {z0 s : State} (hs : Moves L z0 s) (hL : ∀ p ∈ [Part.wins, .trg], p ∈ L) (l : List (Nat × List Word)) : Moves
    L z0 (State.applyPatterns s l) := by
  induction l generalizing s with
  | nil => exact hs
  | cons x rest ih =>
    unfold State.applyPatterns
    repeat' first
      | with_reducible exact hs | with_reducible exact hL | exact parts_sub hL (by decide) | with_reducible assumption
      | with_reducible apply ih | with_reducible apply moves_setPattern | with_reducible apply moves_setWin
      | with_reducible refine moves_foldl (fun _ _ _ => ?_) ?_ | with_reducible apply moves_ite | dsimp only | split

theorem moves_applyWords {z0 s : State} (hs : Moves L z0 s) (hL : ∀ p ∈ [Part.wins], p ∈ L) (w : WinId) (n : Nat) (l : List (Nat × List
    Word)) : Moves L z0 (State.applyWords s w n l) := by
  induction l generalizing s w n with
  | nil => exact hs
  | cons x rest ih =>
    unfold State.applyWords
    repeat' first
      | with_reducible exact hs | with_reducible exact hL | exact parts_sub hL (by decide) | with_reducible assumption
      | with_reducible apply ih | with_reducible apply moves_setWin | with_reducible refine moves_foldl (fun _ _ _ => ?_) ?_
      | with_reducible apply moves_ite | dsimp only | split

theorem moves_unitEvent {z0 s : State} (hs : Moves L z0 s) (hL : ∀ p ∈ [Part.regs, .trg, .evr, .sent], p ∈ L) (u : Nat) (stamp : Nat) :
    Moves L z0 (State.unitEvent s u stamp) := by
  unfold State.unitEvent
  repeat' first
    | with_reducible exact hs | with_reducible exact hL | exact parts_sub hL (by decide) | with_reducible apply moves_sourcesChange
    | with_reducible apply moves_updTrg | with_reducible apply moves_ite | dsimp only | split

theorem moves_unitSees {z0 s : State} (hs : Moves L z0 s) (hL : ∀ p ∈ [Part.regs, .trg, .evr, .sent], p ∈ L) (u : Nat) (x : UnitSamples) :
    Moves L z0 (State.unitSees s u x) := by
  unfold State.unitSees
  repeat' first
    | with_reducible exact hs | with_reducible exact hL | exact parts_sub hL (by decide) | with_reducible assumption
    | with_reducible apply moves_unitEvent | with_reducible apply moves_updTrg | with_reducible refine moves_foldl (fun _ _ _ => ?_) ?_
    | with_reducible apply moves_ite | dsimp only | split

theorem ends_execTriggerUnitEvent {s : State} (hL : ∀ p ∈ [Part.regs, .trg, .evr, .sent], p ∈ L) (u : Fin 32) (x : UnitSamples) : Ends L s
    (execTriggerUnitEvent u x s) := by
  have hs := Moves.refl L s
  unfold execTriggerUnitEvent
  repeat' first
    | with_reducible apply ends_next | with_reducible apply ends_ite | with_reducible exact hs | with_reducible exact hL
    | exact parts_sub hL (by decide) | with_reducible apply moves_unitSees | dsimp only | split

theorem ends_execTriggerUnitTimeout {s : State} (hL : ∀ p ∈ [Part.regs, .trg, .evr, .sent], p ∈ L) (u : Fin 32) (x : UnitSamples) : Ends L
    s (execTriggerUnitTimeout u x s) := by
  have hs := Moves.refl L s
  unfold execTriggerUnitTimeout
  repeat' first
    | with_reducible apply ends_next | with_reducible apply ends_ite | with_reducible exact hs | with_reducible exact hL
    | exact parts_sub hL (by decide) | with_reducible apply moves_unitSees | dsimp only | split

theorem ends_execStretchExpiry {s : State} (hL : ∀ p ∈ [Part.regs, .tb, .trg, .evr, .sent, .clock], p ∈ L) (u : Fin 32) : Ends L s
    (execStretchExpiry u s) := by
  have hs := Moves.refl L s
  unfold execStretchExpiry
  repeat' first
    | with_reducible apply ends_next | with_reducible apply ends_ite | with_reducible exact hs | with_reducible exact hL
    | exact parts_sub hL (by decide) | with_reducible apply moves_advanceTo | with_reducible apply moves_sourcesChange
    | with_reducible apply moves_updTrg | dsimp only | split

theorem moves_restartUnit {z0 s : State} (hs : Moves L z0 s) (hL : ∀ p ∈ [Part.regs, .trg, .evr, .sent], p ∈ L) (u : Nat) : Moves L z0
    (State.restartUnit s u) := by
  unfold State.restartUnit
  repeat' first
    | with_reducible exact hs | with_reducible exact hL | exact parts_sub hL (by decide) | with_reducible apply moves_sourcesChange
    | with_reducible apply moves_updTrg | with_reducible apply moves_ite | dsimp only | split

theorem moves_stopInactive {z0 s : State} (hs : Moves L z0 s) (hL : ∀ p ∈ [Part.regs, .trg, .evr, .sent], p ∈ L) : Moves L z0
    (State.stopInactive s) := by
  unfold State.stopInactive
  repeat' first
    | with_reducible exact hs | with_reducible exact hL | exact parts_sub hL (by decide) | with_reducible assumption
    | with_reducible apply moves_restartUnit | with_reducible refine moves_foldl (fun _ _ _ => ?_) ?_ | with_reducible apply moves_ite
    | dsimp only | split

theorem moves_trgTick {z0 s : State} (hs : Moves L z0 s) (hL : ∀ p ∈ [Part.regs, .wins, .trg, .evr, .sent], p ∈ L) : Moves L z0
    (State.trgTick s) := by
  unfold State.trgTick
  repeat' first
    | with_reducible exact hs | with_reducible exact hL | exact parts_sub hL (by decide) | with_reducible apply moves_applyPatterns
    | with_reducible apply moves_applyWords | with_reducible apply moves_flushAligned | with_reducible apply moves_recordTick
    | with_reducible apply moves_stopInactive | with_reducible apply moves_updTrg | with_reducible apply moves_ite | dsimp only | split

theorem moves_setFlags {z0 s : State} (hs : Moves L z0 s) (hL : ∀ p ∈ [Part.regs, .trg, .evr, .sent], p ∈ L) (w : Word) (stamp : Nat) :
    Moves L z0 (State.setFlags s w stamp) := by
  unfold State.setFlags
  repeat' first
    | with_reducible exact hs | with_reducible exact hL | exact parts_sub hL (by decide) | with_reducible apply moves_setReg
    | with_reducible apply moves_sourcesChange | with_reducible apply moves_ite | dsimp only | split

end Sys2Proof.Machine
end

