-- ==== Sys2Proof/Laws/Moves/FaultLocation.lean ====
section
/-!
SUPPORT. What each operation of Machine/FaultLocation.lean may touch.
-/

namespace Sys2Proof.Machine

set_option linter.unusedTactic false
set_option linter.unreachableTactic false

variable {L : List Part}

theorem moves_showLine {z0 s : State} (hs : Moves L z0 s) (hL : ∀ p ∈ [Part.wins], p ∈ L) (l : Nat) (st : Nat) (result : Bool) : Moves L
    z0 (State.showLine s l st result) := by
  unfold State.showLine
  repeat' first
    | with_reducible exact hs | with_reducible exact hL | exact parts_sub hL (by decide) | with_reducible apply moves_setWin
    | with_reducible apply moves_ite | dsimp only | split

theorem moves_failLine {z0 s : State} (hs : Moves L z0 s) (hL : ∀ p ∈ [Part.regs, .wins, .trg, .evr], p ∈ L) (l : Nat) : Moves L z0
    (State.failLine s l) := by
  unfold State.failLine
  repeat' first
    | with_reducible exact hs | with_reducible exact hL | exact parts_sub hL (by decide) | with_reducible apply moves_orReg
    | with_reducible apply moves_raise | with_reducible apply moves_setFlLine | with_reducible apply moves_setReg
    | with_reducible apply moves_showLine | with_reducible apply moves_ite | dsimp only | split

theorem ends_execTwArrivalWaitEnd {s : State} (hL : ∀ p ∈ [Part.regs, .wins, .trg, .evr, .sent], p ∈ L) (l : Fin 8) : Ends L s
    (execTwArrivalWaitEnd l s) := by
  have hs := Moves.refl L s
  unfold execTwArrivalWaitEnd
  repeat' first
    | with_reducible apply ends_next | with_reducible apply ends_ite | with_reducible exact hs | with_reducible exact hL
    | exact parts_sub hL (by decide) | with_reducible apply moves_failLine | with_reducible apply moves_send
    | with_reducible apply moves_setFlLine | with_reducible apply moves_showLine | dsimp only | split

theorem moves_sendHeldReports {z0 s : State} (hs : Moves L z0 s) (hL : ∀ p ∈ [Part.sent], p ∈ L) : Moves L z0 (State.sendHeldReports s) :=
    by
  unfold State.sendHeldReports
  repeat' first
    | with_reducible exact hs | with_reducible exact hL | exact parts_sub hL (by decide) | with_reducible assumption
    | with_reducible apply moves_send | with_reducible refine moves_foldl (fun _ _ _ => ?_) ?_ | with_reducible apply moves_ite
    | dsimp only | split

theorem moves_attachResult {z0 s : State} (hs : Moves L z0 s) (hL : ∀ p ∈ [Part.trg], p ∈ L) (u : Nat) (ts : Nat) (f : FlResult) : Moves L
    z0 (State.attachResult s u ts f) := by
  unfold State.attachResult
  repeat' first
    | with_reducible exact hs | with_reducible exact hL | exact parts_sub hL (by decide) | with_reducible apply moves_updTrg
    | with_reducible apply moves_ite | dsimp only | split

theorem moves_writeResult {z0 s : State} (hs : Moves L z0 s) (hL : ∀ p ∈ [Part.regs, .wins, .trg, .evr], p ∈ L) (l : Nat) (st : Nat) (dist
    : Word) (unc : Word) (clamped : Bool) (notLocked : Bool) (ts : Nat) (t : Nat) : Moves L z0 (State.writeResult s l st dist unc clamped
    notLocked ts t) := by
  unfold State.writeResult
  repeat' first
    | with_reducible exact hs | with_reducible exact hL | exact parts_sub hL (by decide) | with_reducible apply moves_attachResult
    | with_reducible apply moves_raise | with_reducible apply moves_setFlLine | with_reducible apply moves_setReg
    | with_reducible apply moves_showLine | with_reducible apply moves_ite | dsimp only | split

theorem ends_execFaultLocationResult {s : State} (hL : ∀ p ∈ [Part.regs, .wins, .trg, .evr], p ∈ L) (l : Fin 8) : Ends L s
    (execFaultLocationResult l s) := by
  have hs := Moves.refl L s
  unfold execFaultLocationResult
  repeat' first
    | with_reducible apply ends_next | with_reducible apply ends_ite | with_reducible exact hs | with_reducible exact hL
    | exact parts_sub hL (by decide) | with_reducible apply moves_setFlLine | with_reducible apply moves_writeResult | dsimp only | split

theorem ends_execRemoteWaitExpiry {s : State} (hL : ∀ p ∈ [Part.regs, .wins, .trg, .evr], p ∈ L) (l : Fin 8) : Ends L s
    (execRemoteWaitExpiry l s) := by
  have hs := Moves.refl L s
  unfold execRemoteWaitExpiry
  repeat' first
    | with_reducible apply ends_next | with_reducible apply ends_ite | with_reducible exact hs | with_reducible exact hL
    | exact parts_sub hL (by decide) | with_reducible apply moves_failLine | with_reducible apply moves_writeResult | dsimp only | split

theorem ends_execTwExchange {s : State} (hL : ∀ p ∈ [Part.trg, .evr, .qcp, .sent], p ∈ L) (p : Pkt) (r : TwReport) : Ends L s
    (execTwExchange p r s) := by
  have hs := Moves.refl L s
  unfold execTwExchange
  repeat' first
    | with_reducible apply ends_next | with_reducible apply ends_ite | with_reducible exact hs | with_reducible exact hL
    | exact parts_sub hL (by decide) | with_reducible assumption | with_reducible apply moves_raise
    | with_reducible refine moves_request ?_ ?_ _ _ _ _ _ (fun _ _ _ => ?_) | with_reducible apply moves_setFlLine | dsimp only | split

theorem moves_stampEdge {z0 s : State} (hs : Moves L z0 s) (hL : ∀ p ∈ [Part.regs, .trg], p ∈ L) (i : Nat) (t : Nat) (up : Nat) : Moves L
    z0 (State.stampEdge s i t up) := by
  unfold State.stampEdge
  repeat' first
    | with_reducible exact hs | with_reducible exact hL | exact parts_sub hL (by decide) | with_reducible apply moves_incReg
    | with_reducible apply moves_updTrg | with_reducible apply moves_ite | dsimp only | split

theorem moves_tdcEdge {z0 s : State} (hs : Moves L z0 s) (hL : ∀ p ∈ [Part.regs, .trg, .evr], p ∈ L) (i : Nat) (stamp : Instant) : Moves L
    z0 (State.tdcEdge s i stamp) := by
  unfold State.tdcEdge
  repeat' first
    | with_reducible exact hs | with_reducible exact hL | exact parts_sub hL (by decide) | with_reducible apply moves_incReg
    | with_reducible apply moves_orReg | with_reducible apply moves_raise | with_reducible apply moves_stampEdge
    | with_reducible apply moves_ite | dsimp only | split

theorem ends_execTdcEdge {s : State} (hL : ∀ p ∈ [Part.regs, .trg, .evr], p ∈ L) (i : Fin 48) (stamp : Instant) : Ends L s (execTdcEdge i
    stamp s) := by
  have hs := Moves.refl L s
  unfold execTdcEdge
  repeat' first
    | with_reducible apply ends_next | with_reducible apply ends_ite | with_reducible exact hs | with_reducible exact hL
    | exact parts_sub hL (by decide) | with_reducible apply moves_tdcEdge | dsimp only | split

theorem ends_execTdcCalibration {s : State} (hL : ∀ p ∈ [Part.regs, .trg, .evr], p ∈ L) (m : TdcCalibration) : Ends L s
    (execTdcCalibration m s) := by
  have hs := Moves.refl L s
  unfold execTdcCalibration
  repeat' first
    | with_reducible apply ends_next | with_reducible apply ends_ite | with_reducible exact hs | with_reducible exact hL
    | exact parts_sub hL (by decide) | with_reducible apply moves_orReg | with_reducible apply moves_raiseBlock
    | with_reducible apply moves_setReg | with_reducible apply moves_updTrg | dsimp only | split

theorem moves_readFifoSec {z0 s : State} (hs : Moves L z0 s) (hL : ∀ p ∈ [Part.trg], p ∈ L) : Moves L z0 (State.readFifoSec s) := by
  unfold State.readFifoSec
  repeat' first
    | with_reducible exact hs | with_reducible exact hL | exact parts_sub hL (by decide) | with_reducible apply moves_updTrg
    | with_reducible apply moves_ite | dsimp only | split

theorem moves_readFifoFrac {z0 s : State} (hs : Moves L z0 s) (hL : ∀ p ∈ [Part.trg], p ∈ L) : Moves L z0 (State.readFifoFrac s) := by
  unfold State.readFifoFrac
  repeat' first
    | with_reducible exact hs | with_reducible exact hL | exact parts_sub hL (by decide) | with_reducible apply moves_updTrg
    | with_reducible apply moves_ite | dsimp only | split

end Sys2Proof.Machine
end

