-- ==== Sys2Proof/Laws/Moves/Digital.lean ====
section
/-!
SUPPORT. What each operation of Machine/Digital.lean may touch.
-/

namespace Sys2Proof.Machine

set_option linter.unusedTactic false
set_option linter.unreachableTactic false

variable {L : List Part}

theorem moves_updIo {z0 s : State} (hs : Moves L z0 s) (hL : ∀ p ∈ [Part.io], p ∈ L) (f : Io → Io) : Moves L z0 (State.updIo s f) := by
  unfold State.updIo
  repeat' first
    | with_reducible exact hs | with_reducible rfl | with_reducible exact Or.inl rfl | with_reducible exact Or.inl ⟨rfl, rfl⟩
    | exact Or.inr (hL _ (by decide)) | with_reducible exact hL | exact parts_sub hL (by decide) | with_reducible apply moves_ite
    | dsimp only | split | fail_if_no_progress with_reducible apply moves_record

theorem moves_setDio {z0 s : State} (hs : Moves L z0 s) (hL : ∀ p ∈ [Part.io], p ∈ L) (c : Nat) (x : DioChannel) : Moves L z0
    (State.setDio s c x) := by
  unfold State.setDio
  repeat' first
    | with_reducible exact hs | with_reducible exact hL | exact parts_sub hL (by decide) | with_reducible apply moves_updIo
    | with_reducible apply moves_ite | dsimp only | split

theorem moves_setDioGroup {z0 s : State} (hs : Moves L z0 s) (hL : ∀ p ∈ [Part.io], p ∈ L) (g : Nat) (x : DioGroup) : Moves L z0
    (State.setDioGroup s g x) := by
  unfold State.setDioGroup
  repeat' first
    | with_reducible exact hs | with_reducible exact hL | exact parts_sub hL (by decide) | with_reducible apply moves_updIo
    | with_reducible apply moves_ite | dsimp only | split

theorem moves_dioFaulted {z0 s : State} (hs : Moves L z0 s) (hL : ∀ p ∈ [Part.regs], p ∈ L) (c : Nat) (code : Nat) : Moves L z0
    (State.dioFaulted s c code) := by
  unfold State.dioFaulted
  repeat' first
    | with_reducible exact hs | with_reducible exact hL | exact parts_sub hL (by decide) | with_reducible apply moves_putRegBit
    | with_reducible apply moves_satRegFld | with_reducible apply moves_setReg | with_reducible apply moves_ite | dsimp only | split

theorem moves_groupFaulted {z0 s : State} (hs : Moves L z0 s) (hL : ∀ p ∈ [Part.regs], p ∈ L) (code : Nat) (l : List Nat) : Moves L z0
    (State.groupFaulted s code l) := by
  induction l generalizing s code with
  | nil => exact hs
  | cons x rest ih =>
    unfold State.groupFaulted
    repeat' first
      | with_reducible exact hs | with_reducible exact hL | exact parts_sub hL (by decide) | with_reducible apply ih
      | with_reducible apply moves_dioFaulted | with_reducible apply moves_ite | dsimp only | split

theorem moves_unrelease {z0 s : State} (hs : Moves L z0 s) (hL : ∀ p ∈ [Part.io], p ∈ L) (l : List Nat) : Moves L z0 (State.unrelease s l)
    := by
  induction l generalizing s with
  | nil => exact hs
  | cons x rest ih =>
    unfold State.unrelease
    repeat' first
      | with_reducible exact hs | with_reducible exact hL | exact parts_sub hL (by decide) | with_reducible apply ih
      | with_reducible apply moves_setDio | with_reducible apply moves_ite | dsimp only | split

theorem moves_unreleaseAll {z0 s : State} (hs : Moves L z0 s) (hL : ∀ p ∈ [Part.io], p ∈ L) : Moves L z0 (State.unreleaseAll s) := by
  unfold State.unreleaseAll
  repeat' first
    | with_reducible exact hs | with_reducible exact hL | exact parts_sub hL (by decide) | with_reducible apply moves_unrelease
    | with_reducible apply moves_ite | dsimp only | split

theorem moves_setLatch {z0 s : State} (hs : Moves L z0 s) (hL : ∀ p ∈ [Part.io, .evr, .sent], p ∈ L) (c : Nat) (v : Bool) : Moves L z0
    (State.setLatch s c v) := by
  unfold State.setLatch
  repeat' first
    | with_reducible exact hs | with_reducible exact hL | exact parts_sub hL (by decide) | with_reducible apply moves_raise
    | with_reducible apply moves_send | with_reducible apply moves_setDio | with_reducible apply moves_ite | dsimp only | split

theorem moves_writeLatches {z0 s : State} (hs : Moves L z0 s) (hL : ∀ p ∈ [Part.io, .evr, .sent], p ∈ L) (l : List Nat) : Moves L z0
    (State.writeLatches s l) := by
  induction l generalizing s with
  | nil => exact hs
  | cons x rest ih =>
    unfold State.writeLatches
    repeat' first
      | with_reducible exact hs | with_reducible exact hL | exact parts_sub hL (by decide) | with_reducible apply ih
      | with_reducible apply moves_setLatch | with_reducible apply moves_ite | dsimp only | split

theorem moves_commitDio {z0 s : State} (hs : Moves L z0 s) (hL : ∀ p ∈ [Part.io, .evr, .sent], p ∈ L) : Moves L z0 (State.commitDio s) :=
    by
  unfold State.commitDio
  repeat' first
    | with_reducible exact hs | with_reducible exact hL | exact parts_sub hL (by decide) | with_reducible apply moves_writeLatches
    | with_reducible apply moves_ite | dsimp only | split

theorem moves_measureDelay {z0 s : State} (hs : Moves L z0 s) (hL : ∀ p ∈ [Part.regs, .io], p ∈ L) (c : Nat) (level : Bool) (t : Nat) :
    Moves L z0 (State.measureDelay s c level t) := by
  unfold State.measureDelay
  repeat' first
    | with_reducible exact hs | with_reducible exact hL | exact parts_sub hL (by decide) | with_reducible apply moves_putReg
    | with_reducible apply moves_setDio | with_reducible apply moves_ite | dsimp only | split

theorem ends_execDioRawEdge {s : State} (hL : ∀ p ∈ [Part.regs, .trg, .io, .evr], p ∈ L) (c : Fin 32) (level : Bool) (stamp : Instant) :
    Ends L s (execDioRawEdge c level stamp s) := by
  have hs := Moves.refl L s
  unfold execDioRawEdge
  repeat' first
    | with_reducible apply ends_next | with_reducible apply ends_ite | with_reducible exact hs | with_reducible exact hL
    | exact parts_sub hL (by decide) | with_reducible apply moves_measureDelay | with_reducible apply moves_setDio
    | with_reducible apply moves_tdcEdge | dsimp only | split

theorem ends_execReadbackDelayTimeout {s : State} (hL : ∀ p ∈ [Part.regs, .tb, .io, .clock], p ∈ L) (c : Fin 32) : Ends L s
    (execReadbackDelayTimeout c s) := by
  have hs := Moves.refl L s
  unfold execReadbackDelayTimeout
  repeat' first
    | with_reducible apply ends_next | with_reducible apply ends_ite | with_reducible exact hs | with_reducible exact hL
    | exact parts_sub hL (by decide) | with_reducible apply moves_advanceUp | with_reducible apply moves_putReg
    | with_reducible apply moves_setDio | dsimp only | split

theorem moves_countCos {z0 s : State} (hs : Moves L z0 s) (hL : ∀ p ∈ [Part.regs], p ∈ L) (c : Nat) (level : Bool) : Moves L z0
    (State.countCos s c level) := by
  unfold State.countCos
  repeat' first
    | with_reducible exact hs | with_reducible exact hL | exact parts_sub hL (by decide) | with_reducible apply moves_incReg
    | with_reducible apply moves_ite | dsimp only | split

theorem ends_execDebounceAccept {s : State} (hL : ∀ p ∈ [Part.regs, .tb, .trg, .io, .evr, .sent, .clock], p ∈ L) (c : Fin 32) : Ends L s
    (execDebounceAccept c s) := by
  have hs := Moves.refl L s
  unfold execDebounceAccept
  repeat' first
    | with_reducible apply ends_next | with_reducible apply ends_ite | with_reducible exact hs | with_reducible exact hL
    | exact parts_sub hL (by decide) | with_reducible apply moves_advanceUp | with_reducible apply moves_countCos
    | with_reducible apply moves_putReg | with_reducible apply moves_setDio | with_reducible apply moves_sourcesChange
    | with_reducible apply moves_updIo | dsimp only | split

theorem ends_execDebounceDiscard {s : State} (hL : ∀ p ∈ [Part.regs, .tb, .io, .clock], p ∈ L) (c : Fin 32) : Ends L s
    (execDebounceDiscard c s) := by
  have hs := Moves.refl L s
  unfold execDebounceDiscard
  repeat' first
    | with_reducible apply ends_next | with_reducible apply ends_ite | with_reducible exact hs | with_reducible exact hL
    | exact parts_sub hL (by decide) | with_reducible apply moves_advanceUp | with_reducible apply moves_incReg
    | with_reducible apply moves_setDio | dsimp only | split

theorem ends_execOverloadDetect {s : State} (hL : ∀ p ∈ [Part.regs, .io, .evr], p ∈ L) (c : Fin 32) : Ends L s (execOverloadDetect c s) :=
    by
  have hs := Moves.refl L s
  unfold execOverloadDetect
  repeat' first
    | with_reducible apply ends_next | with_reducible apply ends_ite | with_reducible exact hs | with_reducible exact hL
    | exact parts_sub hL (by decide) | with_reducible apply moves_dioFaulted | with_reducible apply moves_raise
    | with_reducible apply moves_setDio | dsimp only | split

theorem ends_execThermalShutdown {s : State} (hL : ∀ p ∈ [Part.regs, .io, .evr], p ∈ L) (c : Fin 32) : Ends L s (execThermalShutdown c s)
    := by
  have hs := Moves.refl L s
  unfold execThermalShutdown
  repeat' first
    | with_reducible apply ends_next | with_reducible apply ends_ite | with_reducible exact hs | with_reducible exact hL
    | exact parts_sub hL (by decide) | with_reducible apply moves_dioFaulted | with_reducible apply moves_raise
    | with_reducible apply moves_setDio | dsimp only | split

theorem ends_execThermalRestart {s : State} (hL : ∀ p ∈ [Part.io], p ∈ L) (c : Fin 32) : Ends L s (execThermalRestart c s) := by
  have hs := Moves.refl L s
  unfold execThermalRestart
  repeat' first
    | with_reducible apply ends_next | with_reducible apply ends_ite | with_reducible exact hs | with_reducible exact hL
    | exact parts_sub hL (by decide) | with_reducible apply moves_setDio | dsimp only | split

theorem ends_execOpenLoadDetect {s : State} (hL : ∀ p ∈ [Part.regs, .io, .evr], p ∈ L) (c : Fin 32) : Ends L s (execOpenLoadDetect c s) :=
    by
  have hs := Moves.refl L s
  unfold execOpenLoadDetect
  repeat' first
    | with_reducible apply ends_next | with_reducible apply ends_ite | with_reducible exact hs | with_reducible exact hL
    | exact parts_sub hL (by decide) | with_reducible apply moves_dioFaulted | with_reducible apply moves_raise
    | with_reducible apply moves_setDio | dsimp only | split

theorem ends_execGroupOverTrip {s : State} (hL : ∀ p ∈ [Part.regs, .io, .evr], p ∈ L) (g : Fin 4) (current : Half) : Ends L s
    (execGroupOverTrip g current s) := by
  have hs := Moves.refl L s
  unfold execGroupOverTrip
  repeat' first
    | with_reducible apply ends_next | with_reducible apply ends_ite | with_reducible exact hs | with_reducible exact hL
    | exact parts_sub hL (by decide) | with_reducible apply moves_groupFaulted | with_reducible apply moves_putReg
    | with_reducible apply moves_putRegBit | with_reducible apply moves_raise | with_reducible apply moves_satRegFld
    | with_reducible apply moves_setDioGroup | with_reducible apply moves_unrelease | dsimp only | split

theorem ends_execGroupOverRetry {s : State} (hL : ∀ p ∈ [Part.tb, .io, .evr, .clock], p ∈ L) (g : Fin 4) : Ends L s (execGroupOverRetry g
    s) := by
  have hs := Moves.refl L s
  unfold execGroupOverRetry
  repeat' first
    | with_reducible apply ends_next | with_reducible apply ends_ite | with_reducible exact hs | with_reducible exact hL
    | exact parts_sub hL (by decide) | with_reducible apply moves_advanceUp | with_reducible apply moves_raise
    | with_reducible apply moves_setDioGroup | dsimp only | split

theorem ends_execDioFaultClear {s : State} (hL : ∀ p ∈ [Part.tb, .io, .evr, .clock], p ∈ L) (c : Fin 32) (f : DioFault) : Ends L s
    (execDioFaultClear c f s) := by
  have hs := Moves.refl L s
  unfold execDioFaultClear
  repeat' first
    | with_reducible apply ends_next | with_reducible apply ends_ite | with_reducible exact hs | with_reducible exact hL
    | exact parts_sub hL (by decide) | with_reducible apply moves_advanceUp | with_reducible apply moves_raise
    | with_reducible apply moves_setDio | dsimp only | split

theorem moves_dioClearGroup {z0 s : State} (hs : Moves L z0 s) (hL : ∀ p ∈ [Part.io, .evr], p ∈ L) (g : Nat) : Moves L z0
    (State.dioClearGroup s g) := by
  unfold State.dioClearGroup
  repeat' first
    | with_reducible exact hs | with_reducible exact hL | exact parts_sub hL (by decide) | with_reducible apply moves_raise
    | with_reducible apply moves_setDioGroup | with_reducible apply moves_ite | dsimp only | split

theorem moves_dioClearCounters {z0 s : State} (hs : Moves L z0 s) (hL : ∀ p ∈ [Part.regs], p ∈ L) : Moves L z0 (State.dioClearCounters s)
    := by
  unfold State.dioClearCounters
  repeat' first
    | with_reducible exact hs | with_reducible exact hL | exact parts_sub hL (by decide) | with_reducible apply moves_zeroRegs
    | with_reducible apply moves_ite | dsimp only | split

theorem ends_execSupplyWarn {s : State} (hL : ∀ p ∈ [Part.regs, .io, .evr], p ∈ L) (g : Fin 4) (mv : Half) : Ends L s (execSupplyWarn g mv
    s) := by
  have hs := Moves.refl L s
  unfold execSupplyWarn
  repeat' first
    | with_reducible apply ends_next | with_reducible apply ends_ite | with_reducible exact hs | with_reducible exact hL
    | exact parts_sub hL (by decide) | with_reducible apply moves_putReg | with_reducible apply moves_putRegBit
    | with_reducible apply moves_raise | with_reducible apply moves_setDioGroup | dsimp only | split

theorem ends_execSupplyWarnClear {s : State} (hL : ∀ p ∈ [Part.regs, .io], p ∈ L) (g : Fin 4) (mv : Half) : Ends L s (execSupplyWarnClear
    g mv s) := by
  have hs := Moves.refl L s
  unfold execSupplyWarnClear
  repeat' first
    | with_reducible apply ends_next | with_reducible apply ends_ite | with_reducible exact hs | with_reducible exact hL
    | exact parts_sub hL (by decide) | with_reducible apply moves_putReg | with_reducible apply moves_setDioGroup | dsimp only | split

theorem ends_execSupplyLow {s : State} (hL : ∀ p ∈ [Part.regs, .io, .evr], p ∈ L) (g : Fin 4) (mv : Half) : Ends L s (execSupplyLow g mv
    s) := by
  have hs := Moves.refl L s
  unfold execSupplyLow
  repeat' first
    | with_reducible apply ends_next | with_reducible apply ends_ite | with_reducible exact hs | with_reducible exact hL
    | exact parts_sub hL (by decide) | with_reducible apply moves_groupFaulted | with_reducible apply moves_putReg
    | with_reducible apply moves_putRegBit | with_reducible apply moves_raise | with_reducible apply moves_satRegFld
    | with_reducible apply moves_setDioGroup | with_reducible apply moves_unrelease | dsimp only | split

theorem ends_execSupplyRecovered {s : State} (hL : ∀ p ∈ [Part.regs, .io, .evr], p ∈ L) (g : Fin 4) (mv : Half) : Ends L s
    (execSupplyRecovered g mv s) := by
  have hs := Moves.refl L s
  unfold execSupplyRecovered
  repeat' first
    | with_reducible apply ends_next | with_reducible apply ends_ite | with_reducible exact hs | with_reducible exact hL
    | exact parts_sub hL (by decide) | with_reducible apply moves_putReg | with_reducible apply moves_raise
    | with_reducible apply moves_setDioGroup | dsimp only | split

theorem moves_judgeForced {z0 s : State} (hs : Moves L z0 s) (hL : ∀ p ∈ [Part.regs, .io, .evr], p ∈ L) (c : Nat) : Moves L z0
    (State.judgeForced s c) := by
  unfold State.judgeForced
  repeat' first
    | with_reducible exact hs | with_reducible exact hL | exact parts_sub hL (by decide) | with_reducible apply moves_dioFaulted
    | with_reducible apply moves_raise | with_reducible apply moves_setDio | with_reducible apply moves_ite | dsimp only | split

theorem moves_latchDio {z0 s : State} (hs : Moves L z0 s) (hL : ∀ p ∈ [Part.frame], p ∈ L) (c : Nat) : Moves L z0 (State.latchDio s c) :=
    by
  unfold State.latchDio
  repeat' first
    | with_reducible exact hs | with_reducible exact hL | exact parts_sub hL (by decide) | with_reducible apply moves_feed
    | with_reducible apply moves_ite | dsimp only | split

theorem moves_latchGroup {z0 s : State} (hs : Moves L z0 s) (hL : ∀ p ∈ [Part.frame, .io], p ∈ L) (g : Nat) : Moves L z0 (State.latchGroup
    s g) := by
  unfold State.latchGroup
  repeat' first
    | with_reducible exact hs | with_reducible exact hL | exact parts_sub hL (by decide) | with_reducible apply moves_feed
    | with_reducible apply moves_setDioGroup | with_reducible apply moves_ite | dsimp only | split

theorem moves_releaseDio {z0 s : State} (hs : Moves L z0 s) (hL : ∀ p ∈ [Part.io], p ∈ L) : Moves L z0 (State.releaseDio s) := by
  unfold State.releaseDio
  repeat' first
    | with_reducible exact hs | with_reducible exact hL | exact parts_sub hL (by decide) | with_reducible apply moves_setDio
    | with_reducible apply moves_ite | dsimp only | split

theorem moves_dioTick {z0 s : State} (hs : Moves L z0 s) (hL : ∀ p ∈ [Part.regs, .frame, .io, .evr], p ∈ L) : Moves L z0 (State.dioTick s)
    := by
  unfold State.dioTick
  repeat' first
    | with_reducible exact hs | with_reducible exact hL | exact parts_sub hL (by decide) | with_reducible assumption
    | with_reducible apply moves_judgeForced | with_reducible apply moves_latchDio | with_reducible apply moves_latchGroup
    | with_reducible apply moves_releaseDio | with_reducible apply moves_setReg | with_reducible apply moves_updIo
    | with_reducible refine moves_foldl (fun _ _ _ => ?_) ?_ | with_reducible apply moves_ite | dsimp only | split

theorem moves_applyDioCfg {z0 s : State} (hs : Moves L z0 s) (hL : ∀ p ∈ [Part.regs, .trg, .io, .evr, .sent], p ∈ L) (c : Nat) (v : Word)
    : Moves L z0 (State.applyDioCfg s c v) := by
  unfold State.applyDioCfg
  repeat' first
    | with_reducible exact hs | with_reducible exact hL | exact parts_sub hL (by decide) | with_reducible apply moves_setLatch
    | with_reducible apply moves_setReg | with_reducible apply moves_sourcesChange | with_reducible apply moves_ite | dsimp only | split

end Sys2Proof.Machine
end

