-- ==== Sys2Proof/Laws/Moves/CurrentLoops.lean ====
section
/-!
SUPPORT. What each operation of Machine/CurrentLoops.lean may touch.
-/

namespace Sys2Proof.Machine

set_option linter.unusedTactic false
set_option linter.unreachableTactic false

variable {L : List Part}

theorem moves_setAo {z0 s : State} (hs : Moves L z0 s) (hL : ∀ p ∈ [Part.io], p ∈ L) (n : Nat) (x : AoChannel) : Moves L z0 (State.setAo s
    n x) := by
  unfold State.setAo
  repeat' first
    | with_reducible exact hs | with_reducible exact hL | exact parts_sub hL (by decide) | with_reducible apply moves_updIo
    | with_reducible apply moves_ite | dsimp only | split

theorem moves_unreleaseAo {z0 s : State} (hs : Moves L z0 s) (hL : ∀ p ∈ [Part.io], p ∈ L) : Moves L z0 (State.unreleaseAo s) := by
  unfold State.unreleaseAo
  repeat' first
    | with_reducible exact hs | with_reducible exact hL | exact parts_sub hL (by decide) | with_reducible assumption
    | with_reducible apply moves_setAo | with_reducible refine moves_foldl (fun _ _ _ => ?_) ?_ | with_reducible apply moves_ite
    | dsimp only | split

theorem moves_writeAo {z0 s : State} (hs : Moves L z0 s) (hL : ∀ p ∈ [Part.io], p ∈ L) (n : Nat) : Moves L z0 (State.writeAo s n) := by
  unfold State.writeAo
  repeat' first
    | with_reducible exact hs | with_reducible exact hL | exact parts_sub hL (by decide) | with_reducible apply moves_setAo
    | with_reducible apply moves_ite | dsimp only | split

theorem moves_writeAllAo {z0 s : State} (hs : Moves L z0 s) (hL : ∀ p ∈ [Part.io], p ∈ L) : Moves L z0 (State.writeAllAo s) := by
  unfold State.writeAllAo
  repeat' first
    | with_reducible exact hs | with_reducible exact hL | exact parts_sub hL (by decide) | with_reducible assumption
    | with_reducible apply moves_writeAo | with_reducible refine moves_foldl (fun _ _ _ => ?_) ?_ | with_reducible apply moves_ite
    | dsimp only | split

theorem moves_aoCounted {z0 s : State} (hs : Moves L z0 s) (hL : ∀ p ∈ [Part.regs, .evr], p ∈ L) (n : Nat) (code : Nat) : Moves L z0
    (State.aoCounted s n code) := by
  unfold State.aoCounted
  repeat' first
    | with_reducible exact hs | with_reducible exact hL | exact parts_sub hL (by decide) | with_reducible apply moves_raise
    | with_reducible apply moves_satRegFld | with_reducible apply moves_setReg | with_reducible apply moves_ite | dsimp only | split

theorem moves_commandAo {z0 s : State} (hs : Moves L z0 s) (hL : ∀ p ∈ [Part.regs, .io, .evr], p ∈ L) (n : Nat) (v : Word) : Moves L z0
    (State.commandAo s n v) := by
  unfold State.commandAo
  repeat' first
    | with_reducible exact hs | with_reducible exact hL | exact parts_sub hL (by decide) | with_reducible apply moves_aoCounted
    | with_reducible apply moves_raise | with_reducible apply moves_setAo | with_reducible apply moves_ite | dsimp only | split

theorem moves_requestAo {z0 s : State} (hs : Moves L z0 s) (hL : ∀ p ∈ [Part.io], p ∈ L) (n : Nat) : Moves L z0 (State.requestAo s n) :=
    by
  unfold State.requestAo
  repeat' first
    | with_reducible exact hs | with_reducible exact hL | exact parts_sub hL (by decide) | with_reducible apply moves_setAo
    | with_reducible apply moves_ite | dsimp only | split

theorem moves_takeCommand {z0 s : State} (hs : Moves L z0 s) (hL : ∀ p ∈ [Part.regs, .io, .evr], p ∈ L) (n : Nat) : Moves L z0
    (State.takeCommand s n) := by
  unfold State.takeCommand
  repeat' first
    | with_reducible exact hs | with_reducible exact hL | exact parts_sub hL (by decide) | with_reducible apply moves_commandAo
    | with_reducible apply moves_requestAo | with_reducible apply moves_ite | dsimp only | split

theorem moves_commitAo {z0 s : State} (hs : Moves L z0 s) (hL : ∀ p ∈ [Part.regs, .io, .evr], p ∈ L) : Moves L z0 (State.commitAo s) := by
  unfold State.commitAo
  repeat' first
    | with_reducible exact hs | with_reducible exact hL | exact parts_sub hL (by decide) | with_reducible assumption
    | with_reducible apply moves_takeCommand | with_reducible apply moves_writeAllAo
    | with_reducible refine moves_foldl (fun _ _ _ => ?_) ?_ | with_reducible apply moves_ite | dsimp only | split

theorem moves_passAo {z0 s : State} (hs : Moves L z0 s) (hL : ∀ p ∈ [Part.io], p ∈ L) (n : Nat) (v : Word) : Moves L z0 (State.passAo s n
    v) := by
  unfold State.passAo
  repeat' first
    | with_reducible exact hs | with_reducible exact hL | exact parts_sub hL (by decide) | with_reducible apply moves_setAo
    | with_reducible apply moves_ite | dsimp only | split

theorem ends_execAoConverterUpdate {s : State} (hL : ∀ p ∈ [Part.tb, .io, .clock], p ∈ L) (n : Fin 8) : Ends L s (execAoConverterUpdate n
    s) := by
  have hs := Moves.refl L s
  unfold execAoConverterUpdate
  repeat' first
    | with_reducible apply ends_next | with_reducible apply ends_ite | with_reducible exact hs | with_reducible exact hL
    | exact parts_sub hL (by decide) | with_reducible apply moves_advanceUp | with_reducible apply moves_passAo
    | with_reducible apply moves_setAo | dsimp only | split

theorem moves_aoFaulted {z0 s : State} (hs : Moves L z0 s) (hL : ∀ p ∈ [Part.regs, .evr], p ∈ L) (n : Nat) (alarm : Nat) (code : Nat) :
    Moves L z0 (State.aoFaulted s n alarm code) := by
  unfold State.aoFaulted
  repeat' first
    | with_reducible exact hs | with_reducible exact hL | exact parts_sub hL (by decide) | with_reducible apply moves_aoCounted
    | with_reducible apply moves_putRegBit | with_reducible apply moves_ite | dsimp only | split

theorem ends_execComplianceDetect {s : State} (hL : ∀ p ∈ [Part.regs, .io, .evr], p ∈ L) (n : Fin 8) (m : LoopMeasure) : Ends L s
    (execComplianceDetect n m s) := by
  have hs := Moves.refl L s
  unfold execComplianceDetect
  repeat' first
    | with_reducible apply ends_next | with_reducible apply ends_ite | with_reducible exact hs | with_reducible exact hL
    | exact parts_sub hL (by decide) | with_reducible apply moves_aoFaulted | with_reducible apply moves_satRegFld
    | with_reducible apply moves_setAo | with_reducible apply moves_writeAo | dsimp only | split

theorem ends_execComplianceRetry {s : State} (hL : ∀ p ∈ [Part.tb, .io, .clock], p ∈ L) (n : Fin 8) : Ends L s (execComplianceRetry n s)
    := by
  have hs := Moves.refl L s
  unfold execComplianceRetry
  repeat' first
    | with_reducible apply ends_next | with_reducible apply ends_ite | with_reducible exact hs | with_reducible exact hL
    | exact parts_sub hL (by decide) | with_reducible apply moves_advanceUp | with_reducible apply moves_setAo
    | with_reducible apply moves_writeAo | dsimp only | split

theorem ends_execComplianceRetryEnd {s : State} (hL : ∀ p ∈ [Part.tb, .io, .clock], p ∈ L) (n : Fin 8) (current : Word) : Ends L s
    (execComplianceRetryEnd n current s) := by
  have hs := Moves.refl L s
  unfold execComplianceRetryEnd
  repeat' first
    | with_reducible apply ends_next | with_reducible apply ends_ite | with_reducible exact hs | with_reducible exact hL
    | exact parts_sub hL (by decide) | with_reducible apply moves_advanceUp | with_reducible apply moves_setAo
    | with_reducible apply moves_writeAo | dsimp only | split

theorem ends_execComplianceClear {s : State} (hL : ∀ p ∈ [Part.tb, .io, .evr, .clock], p ∈ L) (n : Fin 8) (current : Word) : Ends L s
    (execComplianceClear n current s) := by
  have hs := Moves.refl L s
  unfold execComplianceClear
  repeat' first
    | with_reducible apply ends_next | with_reducible apply ends_ite | with_reducible exact hs | with_reducible exact hL
    | exact parts_sub hL (by decide) | with_reducible apply moves_advanceUp | with_reducible apply moves_raise
    | with_reducible apply moves_setAo | with_reducible apply moves_writeAo | dsimp only | split

theorem ends_execMiswireDetect {s : State} (hL : ∀ p ∈ [Part.regs, .io, .evr], p ∈ L) (n : Fin 8) (m : LoopMeasure) : Ends L s
    (execMiswireDetect n m s) := by
  have hs := Moves.refl L s
  unfold execMiswireDetect
  repeat' first
    | with_reducible apply ends_next | with_reducible apply ends_ite | with_reducible exact hs | with_reducible exact hL
    | exact parts_sub hL (by decide) | with_reducible apply moves_aoFaulted | with_reducible apply moves_setAo
    | with_reducible apply moves_writeAo | dsimp only | split

theorem ends_execMiswireClear {s : State} (hL : ∀ p ∈ [Part.tb, .io, .evr, .clock], p ∈ L) (n : Fin 8) (m : LoopMeasure) : Ends L s
    (execMiswireClear n m s) := by
  have hs := Moves.refl L s
  unfold execMiswireClear
  repeat' first
    | with_reducible apply ends_next | with_reducible apply ends_ite | with_reducible exact hs | with_reducible exact hL
    | exact parts_sub hL (by decide) | with_reducible apply moves_advanceUp | with_reducible apply moves_raise
    | with_reducible apply moves_setAo | with_reducible apply moves_writeAo | dsimp only | split

theorem ends_execAoThermalFoldback {s : State} (hL : ∀ p ∈ [Part.regs, .io, .evr], p ∈ L) (n : Fin 8) (temp : Half) (current : Word) :
    Ends L s (execAoThermalFoldback n temp current s) := by
  have hs := Moves.refl L s
  unfold execAoThermalFoldback
  repeat' first
    | with_reducible apply ends_next | with_reducible apply ends_ite | with_reducible exact hs | with_reducible exact hL
    | exact parts_sub hL (by decide) | with_reducible apply moves_aoFaulted | with_reducible apply moves_setAo | dsimp only | split

theorem ends_execSenseFault {s : State} (hL : ∀ p ∈ [Part.regs, .io, .evr], p ∈ L) (n : Fin 8) (current : Word) : Ends L s (execSenseFault
    n current s) := by
  have hs := Moves.refl L s
  unfold execSenseFault
  repeat' first
    | with_reducible apply ends_next | with_reducible apply ends_ite | with_reducible exact hs | with_reducible exact hL
    | exact parts_sub hL (by decide) | with_reducible apply moves_aoFaulted | with_reducible apply moves_setAo | dsimp only | split

theorem ends_execSupplyFault {s : State} (hL : ∀ p ∈ [Part.regs, .io, .evr], p ∈ L) (n : Fin 8) (m : LoopMeasure) : Ends L s
    (execSupplyFault n m s) := by
  have hs := Moves.refl L s
  unfold execSupplyFault
  repeat' first
    | with_reducible apply ends_next | with_reducible apply ends_ite | with_reducible exact hs | with_reducible exact hL
    | exact parts_sub hL (by decide) | with_reducible apply moves_aoFaulted | with_reducible apply moves_setAo | dsimp only | split

theorem ends_execChannelFaultCleared {s : State} (hL : ∀ p ∈ [Part.tb, .io, .evr, .clock], p ∈ L) (n : Fin 8) (f : AoFault) (m :
    LoopMeasure) : Ends L s (execChannelFaultCleared n f m s) := by
  have hs := Moves.refl L s
  unfold execChannelFaultCleared
  repeat' first
    | with_reducible apply ends_next | with_reducible apply ends_ite | with_reducible exact hs | with_reducible exact hL
    | exact parts_sub hL (by decide) | with_reducible apply moves_advanceUp | with_reducible apply moves_raise
    | with_reducible apply moves_setAo | dsimp only | split

theorem moves_aoClear {z0 s : State} (hs : Moves L z0 s) (hL : ∀ p ∈ [Part.regs], p ∈ L) : Moves L z0 (State.aoClear s) := by
  unfold State.aoClear
  repeat' first
    | with_reducible exact hs | with_reducible exact hL | exact parts_sub hL (by decide) | with_reducible apply moves_zeroRegs
    | with_reducible apply moves_ite | dsimp only | split

theorem moves_latchAo {z0 s : State} (hs : Moves L z0 s) (hL : ∀ p ∈ [Part.regs, .frame], p ∈ L) (n : Nat) (m : LoopMeasure) : Moves L z0
    (State.latchAo s n m) := by
  unfold State.latchAo
  repeat' first
    | with_reducible exact hs | with_reducible exact hL | exact parts_sub hL (by decide) | with_reducible apply moves_feed
    | with_reducible apply moves_setReg | with_reducible apply moves_ite | dsimp only | split

theorem moves_latchAllAo {z0 s : State} (hs : Moves L z0 s) (hL : ∀ p ∈ [Part.regs, .frame], p ∈ L) (n : Nat) (l : List LoopMeasure) :
    Moves L z0 (State.latchAllAo s n l) := by
  induction l generalizing s n with
  | nil => exact hs
  | cons x rest ih =>
    unfold State.latchAllAo
    repeat' first
      | with_reducible exact hs | with_reducible exact hL | exact parts_sub hL (by decide) | with_reducible apply ih
      | with_reducible apply moves_latchAo | with_reducible apply moves_ite | dsimp only | split

theorem moves_releaseAo {z0 s : State} (hs : Moves L z0 s) (hL : ∀ p ∈ [Part.io], p ∈ L) : Moves L z0 (State.releaseAo s) := by
  unfold State.releaseAo
  repeat' first
    | with_reducible exact hs | with_reducible exact hL | exact parts_sub hL (by decide) | with_reducible apply moves_setAo
    | with_reducible apply moves_writeAo | with_reducible apply moves_ite | dsimp only | split

theorem moves_recordShare {z0 s : State} (hs : Moves L z0 s) (hL : ∀ p ∈ [Part.regs, .evr], p ∈ L) (err : Word) : Moves L z0
    (State.recordShare s err) := by
  unfold State.recordShare
  repeat' first
    | with_reducible exact hs | with_reducible exact hL | exact parts_sub hL (by decide) | with_reducible apply moves_incReg
    | with_reducible apply moves_putRegBit | with_reducible apply moves_raiseBlock | with_reducible apply moves_setReg
    | with_reducible apply moves_ite | dsimp only | split

theorem moves_recordDroop {z0 s : State} (hs : Moves L z0 s) (hL : ∀ p ∈ [Part.regs, .evr], p ∈ L) (err : Word) : Moves L z0
    (State.recordDroop s err) := by
  unfold State.recordDroop
  repeat' first
    | with_reducible exact hs | with_reducible exact hL | exact parts_sub hL (by decide) | with_reducible apply moves_incReg
    | with_reducible apply moves_putRegBit | with_reducible apply moves_raiseBlock | with_reducible apply moves_setReg
    | with_reducible apply moves_ite | dsimp only | split

end Sys2Proof.Machine
end

