-- ==== Sys2Proof/Laws/Moves/Stations.lean ====
section
/-!
SUPPORT. What each operation of Machine/Stations.lean may touch.
-/

namespace Sys2Proof.Machine

set_option linter.unusedTactic false
set_option linter.unreachableTactic false

variable {L : List Part}

theorem moves_updNet {z0 s : State} (hs : Moves L z0 s) (hL : ∀ p ∈ [Part.net], p ∈ L) (f : Net → Net) : Moves L z0 (State.updNet s f) :=
    by
  unfold State.updNet
  repeat' first
    | with_reducible exact hs | with_reducible rfl | with_reducible exact Or.inl rfl | with_reducible exact Or.inl ⟨rfl, rfl⟩
    | exact Or.inr (hL _ (by decide)) | with_reducible exact hL | exact parts_sub hL (by decide) | with_reducible apply moves_ite
    | dsimp only | split | fail_if_no_progress with_reducible apply moves_record

theorem moves_setStation {z0 s : State} (hs : Moves L z0 s) (hL : ∀ p ∈ [Part.net], p ∈ L) (n : Nat) (x : Station) : Moves L z0
    (State.setStation s n x) := by
  unfold State.setStation
  repeat' first
    | with_reducible exact hs | with_reducible exact hL | exact parts_sub hL (by decide) | with_reducible apply moves_updNet
    | with_reducible apply moves_ite | dsimp only | split

theorem moves_changeStation {z0 s : State} (hs : Moves L z0 s) (hL : ∀ p ∈ [Part.net], p ∈ L) (n : Nat) (x : Station) : Moves L z0
    (State.changeStation s n x) := by
  unfold State.changeStation
  repeat' first
    | with_reducible exact hs | with_reducible exact hL | exact parts_sub hL (by decide) | with_reducible apply moves_setStation
    | with_reducible apply moves_ite | dsimp only | split

theorem moves_unbind {z0 s : State} (hs : Moves L z0 s) (hL : ∀ p ∈ [Part.net], p ∈ L) (n : Nat) : Moves L z0 (State.unbind s n) := by
  unfold State.unbind
  repeat' first
    | with_reducible exact hs | with_reducible exact hL | exact parts_sub hL (by decide) | with_reducible apply moves_changeStation
    | with_reducible apply moves_ite | dsimp only | split

theorem moves_unbindChanged {z0 s : State} (hs : Moves L z0 s) (hL : ∀ p ∈ [Part.net], p ∈ L) (old : Option Image) (new : Option Image) (l
    : List Nat) : Moves L z0 (State.unbindChanged s old new l) := by
  induction l generalizing s old new with
  | nil => exact hs
  | cons x rest ih =>
    unfold State.unbindChanged
    repeat' first
      | with_reducible exact hs | with_reducible exact hL | exact parts_sub hL (by decide) | with_reducible apply ih
      | with_reducible apply moves_unbind | with_reducible apply moves_ite | dsimp only | split

theorem moves_feedBools {z0 s : State} (hs : Moves L z0 s) (hL : ∀ p ∈ [Part.frame], p ∈ L) (bytes : List Byte) (k : Nat) (l : List
    Binding) : Moves L z0 (State.feedBools s bytes k l) := by
  induction l generalizing s bytes k with
  | nil => exact hs
  | cons x rest ih =>
    unfold State.feedBools
    repeat' first
      | with_reducible exact hs | with_reducible exact hL | exact parts_sub hL (by decide) | with_reducible apply ih
      | with_reducible apply moves_inputGood | with_reducible apply moves_ite | dsimp only | split

theorem moves_feedWords {z0 s : State} (hs : Moves L z0 s) (hL : ∀ p ∈ [Part.frame], p ∈ L) (bytes : List Byte) (l : List Binding) : Moves
    L z0 (State.feedWords s bytes l) := by
  induction l generalizing s bytes with
  | nil => exact hs
  | cons x rest ih =>
    unfold State.feedWords
    repeat' first
      | with_reducible exact hs | with_reducible exact hL | exact parts_sub hL (by decide) | with_reducible apply ih
      | with_reducible apply moves_inputGood | with_reducible apply moves_ite | dsimp only | split

theorem moves_feedStamped {z0 s : State} (hs : Moves L z0 s) (hL : ∀ p ∈ [Part.frame], p ∈ L) (bytes : List Byte) (l : List Binding) :
    Moves L z0 (State.feedStamped s bytes l) := by
  induction l generalizing s bytes with
  | nil => exact hs
  | cons x rest ih =>
    unfold State.feedStamped
    repeat' first
      | with_reducible exact hs | with_reducible exact hL | exact parts_sub hL (by decide) | with_reducible apply ih
      | with_reducible apply moves_inputBad | with_reducible apply moves_inputGood | with_reducible apply moves_ite | dsimp only | split

theorem moves_feedStation {z0 s : State} (hs : Moves L z0 s) (hL : ∀ p ∈ [Part.frame], p ∈ L) (i : Image) (n : Nat) (bytes : List Byte) :
    Moves L z0 (State.feedStation s i n bytes) := by
  unfold State.feedStation
  repeat' first
    | with_reducible exact hs | with_reducible exact hL | exact parts_sub hL (by decide) | with_reducible apply moves_feedBools
    | with_reducible apply moves_feedStamped | with_reducible apply moves_feedWords | with_reducible apply moves_ite | dsimp only | split

theorem moves_feedBad {z0 s : State} (hs : Moves L z0 s) (hL : ∀ p ∈ [Part.frame], p ∈ L) (l : List Binding) : Moves L z0 (State.feedBad s
    l) := by
  induction l generalizing s with
  | nil => exact hs
  | cons x rest ih =>
    unfold State.feedBad
    repeat' first
      | with_reducible exact hs | with_reducible exact hL | exact parts_sub hL (by decide) | with_reducible apply ih
      | with_reducible apply moves_inputBad | with_reducible apply moves_ite | dsimp only | split

end Sys2Proof.Machine
end

