-- ==== Sys2Proof/Laws/Moves/Tasks.lean ====
section
/-!
SUPPORT. What each operation of Machine/Tasks.lean may touch.
-/

namespace Sys2Proof.Machine

set_option linter.unusedTactic false
set_option linter.unreachableTactic false

variable {L : List Part}

theorem moves_phase {z0 s : State} (hs : Moves L z0 s) (hL : ∀ p ∈ [Part.tb, .clock], p ∈ L) (ns : Nat) : Moves L z0 (State.phase s ns) :=
    by
  unfold State.phase
  repeat' first
    | with_reducible exact hs | with_reducible exact hL | exact parts_sub hL (by decide) | with_reducible apply moves_advanceTo
    | with_reducible apply moves_ite | dsimp only | split

theorem moves_setETask {z0 s : State} (hs : Moves L z0 s) (hL : ∀ p ∈ [Part.frame], p ∈ L) (t : Nat) (e : ETask) : Moves L z0
    (State.setETask s t e) := by
  unfold State.setETask
  repeat' first
    | with_reducible exact hs | with_reducible exact hL | exact parts_sub hL (by decide)
    | with_reducible refine moves_updFrame ?_ ?_ (fun _ => ⟨rfl, rfl⟩)
    | with_reducible refine moves_updFrame ?_ ?_ (fun _ => by split <;> exact ⟨rfl, rfl⟩) | with_reducible apply moves_ite | dsimp only
    | split

theorem moves_release {z0 s : State} (hs : Moves L z0 s) (hL : ∀ p ∈ [Part.regs, .frame], p ∈ L) (b : Budget) (stamp : Option Instant) :
    Moves L z0 (State.release s b stamp) := by
  unfold State.release
  repeat' first
    | with_reducible exact hs | with_reducible exact hL | exact parts_sub hL (by decide) | with_reducible apply moves_incReg
    | with_reducible refine moves_updFrame ?_ ?_ (fun _ => ⟨rfl, rfl⟩)
    | with_reducible refine moves_updFrame ?_ ?_ (fun _ => by split <;> exact ⟨rfl, rfl⟩) | with_reducible apply moves_ite | dsimp only
    | split

theorem moves_releaseE {z0 s : State} (hs : Moves L z0 s) (hL : ∀ p ∈ [Part.regs, .frame], p ∈ L) (b : Budget) : Moves L z0
    (State.releaseE s b) := by
  unfold State.releaseE
  repeat' first
    | with_reducible exact hs | with_reducible exact hL | exact parts_sub hL (by decide) | with_reducible apply moves_release
    | with_reducible apply moves_setETask | with_reducible apply moves_ite | dsimp only | split

theorem moves_releaseTasks {z0 s : State} (hs : Moves L z0 s) (hL : ∀ p ∈ [Part.regs, .frame], p ∈ L) (l : List Budget) : Moves L z0
    (State.releaseTasks s l) := by
  induction l generalizing s with
  | nil => exact hs
  | cons x rest ih =>
    unfold State.releaseTasks
    repeat' first
      | with_reducible exact hs | with_reducible exact hL | exact parts_sub hL (by decide) | with_reducible apply ih
      | with_reducible apply moves_release | with_reducible apply moves_releaseE | with_reducible apply moves_ite | dsimp only | split

theorem moves_eventForTask {z0 s : State} (hs : Moves L z0 s) (hL : ∀ p ∈ [Part.regs, .frame, .evr], p ∈ L) (b : Budget) (stamp : Option
    Instant) (next : Nat) : Moves L z0 (State.eventForTask s b stamp next) := by
  unfold State.eventForTask
  repeat' first
    | with_reducible exact hs | with_reducible exact hL | exact parts_sub hL (by decide) | with_reducible apply moves_raise
    | with_reducible apply moves_satRegFld | with_reducible apply moves_setETask | with_reducible apply moves_ite | dsimp only | split

theorem moves_eEvent {z0 s : State} (hs : Moves L z0 s) (hL : ∀ p ∈ [Part.regs, .frame, .evr], p ∈ L) (t : Nat) (stamp : Option Instant)
    (next : Nat) : Moves L z0 (State.eEvent s t stamp next) := by
  unfold State.eEvent
  repeat' first
    | with_reducible exact hs | with_reducible exact hL | exact parts_sub hL (by decide) | with_reducible apply moves_eventForTask
    | with_reducible apply moves_ite | dsimp only | split

theorem moves_dispatch {z0 s : State} (hs : Moves L z0 s) (hL : ∀ p ∈ [Part.frame], p ∈ L) : Moves L z0 (State.dispatch s) := by
  unfold State.dispatch
  repeat' first
    | with_reducible exact hs | with_reducible exact hL | exact parts_sub hL (by decide)
    | with_reducible refine moves_updFrame ?_ ?_ (fun _ => ⟨rfl, rfl⟩)
    | with_reducible refine moves_updFrame ?_ ?_ (fun _ => by split <;> exact ⟨rfl, rfl⟩) | with_reducible apply moves_ite | dsimp only
    | split

theorem moves_updInstance {z0 s : State} (hs : Moves L z0 s) (hL : ∀ p ∈ [Part.frame], p ∈ L) (t : Nat) (g : TaskInstance → TaskInstance)
    : Moves L z0 (State.updInstance s t g) := by
  unfold State.updInstance
  repeat' first
    | with_reducible exact hs | with_reducible exact hL | exact parts_sub hL (by decide)
    | with_reducible refine moves_updFrame ?_ ?_ (fun _ => ⟨rfl, rfl⟩)
    | with_reducible refine moves_updFrame ?_ ?_ (fun _ => by split <;> exact ⟨rfl, rfl⟩) | with_reducible apply moves_ite | dsimp only
    | split

theorem moves_decideOverrun {z0 s : State} (hs : Moves L z0 s) (hL : ∀ p ∈ [Part.regs, .frame, .evr], p ∈ L) (r : OverrunResult) : Moves L
    z0 (State.decideOverrun s r) := by
  unfold State.decideOverrun
  repeat' first
    | with_reducible exact hs | with_reducible exact hL | exact parts_sub hL (by decide) | with_reducible apply moves_putReg
    | with_reducible apply moves_raiseBlock | with_reducible refine moves_updFrame ?_ ?_ (fun _ => ⟨rfl, rfl⟩)
    | with_reducible refine moves_updFrame ?_ ?_ (fun _ => by split <;> exact ⟨rfl, rfl⟩) | with_reducible apply moves_ite | dsimp only
    | split

theorem moves_overrun {z0 s : State} (hs : Moves L z0 s) (hL : ∀ p ∈ [Part.regs, .frame, .evr], p ∈ L) (x : TaskInstance) : Moves L z0
    (State.overrun s x) := by
  unfold State.overrun
  repeat' first
    | with_reducible exact hs | with_reducible exact hL | exact parts_sub hL (by decide) | with_reducible apply moves_decideOverrun
    | with_reducible apply moves_raise | with_reducible apply moves_satRegFld | with_reducible apply moves_setReg
    | with_reducible refine moves_updFrame ?_ ?_ (fun _ => ⟨rfl, rfl⟩)
    | with_reducible refine moves_updFrame ?_ ?_ (fun _ => by split <;> exact ⟨rfl, rfl⟩) | with_reducible apply moves_ite | dsimp only
    | split

theorem moves_writeStores {z0 s : State} (hs : Moves L z0 s) (hL : ∀ p ∈ [Part.frame], p ∈ L) (l : List (Nat × Storage)) : Moves L z0
    (State.writeStores s l) := by
  induction l generalizing s with
  | nil => exact hs
  | cons x rest ih =>
    unfold State.writeStores
    repeat' first
      | with_reducible exact hs | with_reducible exact hL | exact parts_sub hL (by decide) | with_reducible apply ih
      | with_reducible refine moves_updFrame ?_ ?_ (fun _ => ⟨rfl, rfl⟩)
      | with_reducible refine moves_updFrame ?_ ?_ (fun _ => by split <;> exact ⟨rfl, rfl⟩) | with_reducible apply moves_ite | dsimp only
      | split

theorem moves_commitWrites {z0 s : State} (hs : Moves L z0 s) (hL : ∀ p ∈ [Part.frame, .loop], p ∈ L) (t : Nat) (l : List (Word × Word)) :
    Moves L z0 (State.commitWrites s t l) := by
  induction l generalizing s t with
  | nil => exact hs
  | cons x rest ih =>
    unfold State.commitWrites
    repeat' first
      | with_reducible exact hs | with_reducible rfl | with_reducible exact Or.inl rfl | with_reducible exact Or.inl ⟨rfl, rfl⟩
      | exact Or.inr (hL _ (by decide)) | with_reducible exact hL | exact parts_sub hL (by decide) | with_reducible apply ih
      | with_reducible apply moves_ownPoint | with_reducible apply moves_ite | dsimp only | split
      | fail_if_no_progress with_reducible apply moves_record

theorem moves_collect {z0 s : State} (hs : Moves L z0 s) (hL : ∀ p ∈ [Part.regs, .frame, .loop, .evr], p ∈ L) (l : List TaskInstance) :
    Moves L z0 (State.collect s l) := by
  induction l generalizing s with
  | nil => exact hs
  | cons x rest ih =>
    unfold State.collect
    repeat' first
      | with_reducible exact hs | with_reducible exact hL | exact parts_sub hL (by decide) | with_reducible apply ih
      | with_reducible apply moves_commitWrites | with_reducible apply moves_overrun
      | with_reducible refine moves_updFrame ?_ ?_ (fun _ => ⟨rfl, rfl⟩)
      | with_reducible refine moves_updFrame ?_ ?_ (fun _ => by split <;> exact ⟨rfl, rfl⟩) | with_reducible apply moves_writeStores
      | with_reducible apply moves_ite | dsimp only | split

theorem moves_collectEnding {z0 s : State} (hs : Moves L z0 s) (hL : ∀ p ∈ [Part.regs, .frame, .loop, .evr], p ∈ L) : Moves L z0
    (State.collectEnding s) := by
  unfold State.collectEnding
  repeat' first
    | with_reducible exact hs | with_reducible exact hL | exact parts_sub hL (by decide) | with_reducible apply moves_collect
    | with_reducible refine moves_updFrame ?_ ?_ (fun _ => ⟨rfl, rfl⟩)
    | with_reducible refine moves_updFrame ?_ ?_ (fun _ => by split <;> exact ⟨rfl, rfl⟩) | with_reducible apply moves_ite | dsimp only
    | split

theorem moves_busy {z0 s : State} (hs : Moves L z0 s) (hL : ∀ p ∈ [Part.frame], p ∈ L) (core : Nat) (ns : Nat) : Moves L z0 (State.busy s
    core ns) := by
  unfold State.busy
  repeat' first
    | with_reducible exact hs | with_reducible exact hL | exact parts_sub hL (by decide)
    | with_reducible refine moves_updFrame ?_ ?_ (fun _ => ⟨rfl, rfl⟩)
    | with_reducible refine moves_updFrame ?_ ?_ (fun _ => by split <;> exact ⟨rfl, rfl⟩) | with_reducible apply moves_ite | dsimp only
    | split

theorem moves_abandonTasks {z0 s : State} (hs : Moves L z0 s) (hL : ∀ p ∈ [Part.frame], p ∈ L) : Moves L z0 (State.abandonTasks s) := by
  unfold State.abandonTasks
  repeat' first
    | with_reducible exact hs | with_reducible exact hL | exact parts_sub hL (by decide)
    | with_reducible refine moves_updFrame ?_ ?_ (fun _ => ⟨rfl, rfl⟩)
    | with_reducible refine moves_updFrame ?_ ?_ (fun _ => by split <;> exact ⟨rfl, rfl⟩) | with_reducible apply moves_ite | dsimp only
    | split

theorem ends_execComputeWindowOpen {s : State} (hL : ∀ p ∈ [Part.tb, .frame, .clock], p ∈ L) : Ends L s (execComputeWindowOpen s) := by
  have hs := Moves.refl L s
  unfold execComputeWindowOpen
  repeat' first
    | with_reducible apply ends_next | with_reducible apply ends_ite | with_reducible exact hs | with_reducible exact hL
    | exact parts_sub hL (by decide) | with_reducible apply moves_dispatch | with_reducible apply moves_phase
    | with_reducible refine moves_updFrame ?_ ?_ (fun _ => ⟨rfl, rfl⟩)
    | with_reducible refine moves_updFrame ?_ ?_ (fun _ => by split <;> exact ⟨rfl, rfl⟩) | dsimp only | split

theorem moves_noteActivity {z0 s : State} (hs : Moves L z0 s) (hL : ∀ p ∈ [Part.frame], p ∈ L) (core : Nat) (e : Nat) : Moves L z0
    (State.noteActivity s core e) := by
  unfold State.noteActivity
  repeat' first
    | with_reducible exact hs | with_reducible exact hL | exact parts_sub hL (by decide)
    | with_reducible refine moves_updFrame ?_ ?_ (fun _ => ⟨rfl, rfl⟩)
    | with_reducible refine moves_updFrame ?_ ?_ (fun _ => by split <;> exact ⟨rfl, rfl⟩) | with_reducible apply moves_ite | dsimp only
    | split

theorem moves_stopAtBudget {z0 s : State} (hs : Moves L z0 s) (hL : ∀ p ∈ [Part.regs, .frame, .evr], p ∈ L) (b : Budget) (x :
    TaskInstance) (e : Nat) : Moves L z0 (State.stopAtBudget s b x e) := by
  unfold State.stopAtBudget
  repeat' first
    | with_reducible exact hs | with_reducible exact hL | exact parts_sub hL (by decide) | with_reducible apply moves_busy
    | with_reducible apply moves_dispatch | with_reducible apply moves_noteActivity | with_reducible apply moves_overrun
    | with_reducible apply moves_setReg | with_reducible apply moves_updInstance | with_reducible apply moves_ite | dsimp only | split

theorem moves_noteTimes {z0 s : State} (hs : Moves L z0 s) (hL : ∀ p ∈ [Part.regs], p ∈ L) (t : Nat) (time : Nat) (resp : Nat) : Moves L
    z0 (State.noteTimes s t time resp) := by
  unfold State.noteTimes
  repeat' first
    | with_reducible exact hs | with_reducible exact hL | exact parts_sub hL (by decide) | with_reducible apply moves_setReg
    | with_reducible apply moves_ite | dsimp only | split

theorem moves_completeTask {z0 s : State} (hs : Moves L z0 s) (hL : ∀ p ∈ [Part.frame], p ∈ L) (b : Budget) (r : TaskResult) (stores :
    List (Nat × Storage)) : Moves L z0 (State.completeTask s b r stores) := by
  unfold State.completeTask
  repeat' first
    | with_reducible exact hs | with_reducible exact hL | exact parts_sub hL (by decide) | with_reducible apply moves_busy
    | with_reducible apply moves_dispatch | with_reducible apply moves_noteActivity
    | with_reducible refine moves_updFrame ?_ ?_ (fun _ => ⟨rfl, rfl⟩)
    | with_reducible refine moves_updFrame ?_ ?_ (fun _ => by split <;> exact ⟨rfl, rfl⟩) | with_reducible apply moves_updInstance
    | with_reducible apply moves_ite | dsimp only | split

theorem ends_execTaskInstanceComplete {s : State} (hL : ∀ p ∈ [Part.regs, .tb, .frame, .evr, .clock], p ∈ L) (t : Fin 16) (r : TaskResult)
    : Ends L s (execTaskInstanceComplete t r s) := by
  have hs := Moves.refl L s
  unfold execTaskInstanceComplete
  repeat' first
    | with_reducible apply ends_next | with_reducible apply ends_ite | with_reducible exact hs | with_reducible exact hL
    | exact parts_sub hL (by decide) | with_reducible apply moves_completeTask | with_reducible apply moves_noteTimes
    | with_reducible apply moves_phase | with_reducible apply moves_stopAtBudget | dsimp only | split

theorem ends_execETaskReleaseEvent {s : State} (hL : ∀ p ∈ [Part.regs, .frame, .evr], p ∈ L) (t : Fin 16) (stamp : Instant) : Ends L s
    (execETaskReleaseEvent t stamp s) := by
  have hs := Moves.refl L s
  unfold execETaskReleaseEvent
  repeat' first
    | with_reducible apply ends_next | with_reducible apply ends_ite | with_reducible exact hs | with_reducible exact hL
    | exact parts_sub hL (by decide) | with_reducible apply moves_eEvent
    | with_reducible refine moves_updFrame ?_ ?_ (fun _ => ⟨rfl, rfl⟩)
    | with_reducible refine moves_updFrame ?_ ?_ (fun _ => by split <;> exact ⟨rfl, rfl⟩) | dsimp only | split

theorem ends_execBudgetStop {s : State} (hL : ∀ p ∈ [Part.regs, .frame, .evr], p ∈ L) (t : Fin 16) : Ends L s (execBudgetStop t s) := by
  have hs := Moves.refl L s
  unfold execBudgetStop
  repeat' first
    | with_reducible apply ends_next | with_reducible apply ends_ite | with_reducible exact hs | with_reducible exact hL
    | exact parts_sub hL (by decide) | with_reducible apply moves_stopAtBudget | dsimp only | split

theorem moves_noteEnd {z0 s : State} (hs : Moves L z0 s) (hL : ∀ p ∈ [Part.regs], p ∈ L) (p : Nat) (running : Option Nat) (fin : Option
    Nat) : Moves L z0 (State.noteEnd s p running fin) := by
  unfold State.noteEnd
  repeat' first
    | with_reducible exact hs | with_reducible exact hL | exact parts_sub hL (by decide) | with_reducible apply moves_incReg
    | with_reducible apply moves_setReg | with_reducible apply moves_ite | dsimp only | split

theorem ends_execComputeWindowClose {s : State} (hL : ∀ p ∈ [Part.regs, .tb, .frame, .clock], p ∈ L) : Ends L s (execComputeWindowClose s)
    := by
  have hs := Moves.refl L s
  unfold execComputeWindowClose
  repeat' first
    | with_reducible apply ends_next | with_reducible apply ends_ite | with_reducible exact hs | with_reducible exact hL
    | exact parts_sub hL (by decide) | with_reducible apply moves_noteEnd | with_reducible apply moves_phase
    | with_reducible refine moves_updFrame ?_ ?_ (fun _ => ⟨rfl, rfl⟩)
    | with_reducible refine moves_updFrame ?_ ?_ (fun _ => by split <;> exact ⟨rfl, rfl⟩) | dsimp only | split

end Sys2Proof.Machine
end

