-- ==== Sys2Proof/Laws/Moves/Networks.lean ====
section
/-!
SUPPORT. What each operation of Machine/Networks.lean may touch.
-/

namespace Sys2Proof.Machine

set_option linter.unusedTactic false
set_option linter.unreachableTactic false

variable {L : List Part}

theorem moves_enterPoints {z0 s : State} (hs : Moves L z0 s) (hL : ∀ p ∈ [Part.net], p ∈ L) (stream : Nat) (sequence : Word) (values :
    List (Word × Option Word)) : Moves L z0 (State.enterPoints s stream sequence values) := by
  unfold State.enterPoints
  repeat' first
    | with_reducible exact hs | with_reducible exact hL | exact parts_sub hL (by decide) | with_reducible apply moves_updNet
    | with_reducible apply moves_ite | dsimp only | split

theorem ends_execInputCutoff {s : State} (hL : ∀ p ∈ [Part.tb, .net, .can0, .can1, .sent, .clock], p ∈ L) : Ends L s (execInputCutoff s)
    := by
  have hs := Moves.refl L s
  unfold execInputCutoff
  repeat' first
    | with_reducible apply ends_next | with_reducible apply ends_ite | with_reducible exact hs | with_reducible exact hL
    | exact parts_sub hL (by decide) | with_reducible apply moves_advanceTo | with_reducible apply moves_canCutoff
    | with_reducible apply moves_send | with_reducible apply moves_updNet | dsimp only | split

theorem moves_answerReceipt {z0 s : State} (hs : Moves L z0 s) (hL : ∀ p ∈ [Part.regs, .evr, .sent], p ∈ L) (theirs : List ReceiptEntry)
    (r : Receipt) : Moves L z0 (State.answerReceipt s theirs r) := by
  unfold State.answerReceipt
  repeat' first
    | with_reducible exact hs | with_reducible exact hL | exact parts_sub hL (by decide) | with_reducible apply moves_incReg
    | with_reducible apply moves_raise | with_reducible apply moves_send | with_reducible apply moves_ite | dsimp only | split

theorem moves_answerReceipts {z0 s : State} (hs : Moves L z0 s) (hL : ∀ p ∈ [Part.regs, .evr, .sent], p ∈ L) (theirs : List ReceiptEntry)
    (l : List Receipt) : Moves L z0 (State.answerReceipts s theirs l) := by
  induction l generalizing s theirs with
  | nil => exact hs
  | cons x rest ih =>
    unfold State.answerReceipts
    repeat' first
      | with_reducible exact hs | with_reducible exact hL | exact parts_sub hL (by decide) | with_reducible apply ih
      | with_reducible apply moves_answerReceipt | with_reducible apply moves_ite | dsimp only | split

theorem ends_execReceiptListReceived {s : State} (hL : ∀ p ∈ [Part.regs, .evr, .sent], p ∈ L) (theirs : List ReceiptEntry) : Ends L s
    (execReceiptListReceived theirs s) := by
  have hs := Moves.refl L s
  unfold execReceiptListReceived
  repeat' first
    | with_reducible apply ends_next | with_reducible apply ends_ite | with_reducible exact hs | with_reducible exact hL
    | exact parts_sub hL (by decide) | with_reducible apply moves_answerReceipts | dsimp only | split

theorem ends_execStationFrameCopyReceived {s : State} (hL : ∀ p ∈ [Part.regs, .net], p ∈ L) (r : Receipt) : Ends L s
    (execStationFrameCopyReceived r s) := by
  have hs := Moves.refl L s
  unfold execStationFrameCopyReceived
  repeat' first
    | with_reducible apply ends_next | with_reducible apply ends_ite | with_reducible exact hs | with_reducible exact hL
    | exact parts_sub hL (by decide) | with_reducible apply moves_incReg | with_reducible apply moves_updNet | dsimp only | split

theorem ends_execSettledSetFormed {s : State} (hL : ∀ p ∈ [Part.tb, .net, .clock], p ∈ L) : Ends L s (execSettledSetFormed s) := by
  have hs := Moves.refl L s
  unfold execSettledSetFormed
  repeat' first
    | with_reducible apply ends_next | with_reducible apply ends_ite | with_reducible exact hs | with_reducible exact hL
    | exact parts_sub hL (by decide) | with_reducible apply moves_advanceTo | with_reducible apply moves_updNet | dsimp only | split

theorem moves_discardFrame {z0 s : State} (hs : Moves L z0 s) (hL : ∀ p ∈ [Part.regs], p ∈ L) (p : Nat) : Moves L z0 (State.discardFrame s
    p) := by
  unfold State.discardFrame
  repeat' first
    | with_reducible exact hs | with_reducible exact hL | exact parts_sub hL (by decide) | with_reducible apply moves_incReg
    | with_reducible apply moves_ite | dsimp only | split

theorem moves_sequenceSpace {z0 s : State} (hs : Moves L z0 s) (hL : ∀ p ∈ [Part.net], p ∈ L) (f : QspFrame) : Moves L z0
    (State.sequenceSpace s f) := by
  unfold State.sequenceSpace
  repeat' first
    | with_reducible exact hs | with_reducible exact hL | exact parts_sub hL (by decide) | with_reducible apply moves_setStation
    | with_reducible apply moves_updNet | with_reducible apply moves_ite | dsimp only | split

theorem ends_execQspInputFrame {s : State} (hL : ∀ p ∈ [Part.regs, .net, .evr], p ∈ L) (p : Fin 2) (f : QspFrame) : Ends L s
    (execQspInputFrame p f s) := by
  have hs := Moves.refl L s
  unfold execQspInputFrame
  repeat' first
    | with_reducible apply ends_next | with_reducible apply ends_ite | with_reducible exact hs | with_reducible exact hL
    | exact parts_sub hL (by decide) | with_reducible apply moves_discardFrame | with_reducible apply moves_incReg
    | with_reducible apply moves_putRegBit | with_reducible apply moves_raise | with_reducible apply moves_sequenceSpace
    | with_reducible apply moves_updNet | dsimp only | split

theorem moves_stationTick {z0 s : State} (hs : Moves L z0 s) (hL : ∀ p ∈ [Part.regs, .frame, .net, .evr], p ∈ L) (i : Image) (n : Nat) :
    Moves L z0 (State.stationTick s i n) := by
  unfold State.stationTick
  repeat' first
    | with_reducible exact hs | with_reducible exact hL | exact parts_sub hL (by decide) | with_reducible apply moves_changeStation
    | with_reducible apply moves_feedBad | with_reducible apply moves_feedStation | with_reducible apply moves_putRegBit
    | with_reducible apply moves_raise | with_reducible apply moves_setStation | with_reducible apply moves_ite | dsimp only | split

theorem moves_feedValues {z0 s : State} (hs : Moves L z0 s) (hL : ∀ p ∈ [Part.frame], p ∈ L) (l : List (Word × Option Word)) : Moves L z0
    (State.feedValues s l) := by
  induction l generalizing s with
  | nil => exact hs
  | cons x rest ih =>
    unfold State.feedValues
    repeat' first
      | with_reducible exact hs | with_reducible exact hL | exact parts_sub hL (by decide) | with_reducible apply ih
      | with_reducible apply moves_feed | with_reducible apply moves_ite | dsimp only | split

theorem moves_feedLocal {z0 s : State} (hs : Moves L z0 s) (hL : ∀ p ∈ [Part.frame], p ∈ L) (l : List Receipt) : Moves L z0
    (State.feedLocal s l) := by
  induction l generalizing s with
  | nil => exact hs
  | cons x rest ih =>
    unfold State.feedLocal
    repeat' first
      | with_reducible exact hs | with_reducible exact hL | exact parts_sub hL (by decide) | with_reducible apply ih
      | with_reducible apply moves_feedValues | with_reducible apply moves_ite | dsimp only | split

theorem moves_sendBind {z0 s : State} (hs : Moves L z0 s) (hL : ∀ p ∈ [Part.regs, .sent], p ∈ L) (n : Nat) (t : Nat) : Moves L z0
    (State.sendBind s n t) := by
  unfold State.sendBind
  repeat' first
    | with_reducible exact hs | with_reducible exact hL | exact parts_sub hL (by decide) | with_reducible apply moves_emit
    | with_reducible apply moves_ite | dsimp only | split

theorem moves_sendBinds {z0 s : State} (hs : Moves L z0 s) (hL : ∀ p ∈ [Part.regs, .sent], p ∈ L) (t : Nat) (l : List Nat) : Moves L z0
    (State.sendBinds s t l) := by
  induction l generalizing s t with
  | nil => exact hs
  | cons x rest ih =>
    unfold State.sendBinds
    repeat' first
      | with_reducible exact hs | with_reducible exact hL | exact parts_sub hL (by decide) | with_reducible apply ih
      | with_reducible apply moves_sendBind | with_reducible apply moves_ite | dsimp only | split

theorem moves_timingTick {z0 s : State} (hs : Moves L z0 s) (hL : ∀ p ∈ [Part.regs, .net, .sent], p ∈ L) : Moves L z0 (State.timingTick s)
    := by
  unfold State.timingTick
  repeat' first
    | with_reducible exact hs | with_reducible exact hL | exact parts_sub hL (by decide) | with_reducible apply moves_sendBinds
    | with_reducible apply moves_updNet | with_reducible apply moves_ite | dsimp only | split

theorem moves_networkTick {z0 s : State} (hs : Moves L z0 s) (hL : ∀ p ∈ [Part.regs, .frame, .net, .evr, .sent], p ∈ L) : Moves L z0
    (State.networkTick s) := by
  unfold State.networkTick
  repeat' first
    | with_reducible exact hs | with_reducible exact hL | exact parts_sub hL (by decide) | with_reducible assumption
    | with_reducible apply moves_feedLocal | with_reducible apply moves_stationTick | with_reducible apply moves_timingTick
    | with_reducible apply moves_updNet | with_reducible refine moves_foldl (fun _ _ _ => ?_) ?_ | with_reducible apply moves_ite
    | dsimp only | split

theorem moves_sendStreams {z0 s : State} (hs : Moves L z0 s) (hL : ∀ p ∈ [Part.regs, .sent], p ∈ L) (n : Nat) (k : Nat) (bytes : List
    Byte) (y4 : Nat) : Moves L z0 (State.sendStreams s n k bytes y4) := by
  induction y4 generalizing s n k bytes with
  | zero => exact hs
  | succ k ih =>
    unfold State.sendStreams
    repeat' first
      | with_reducible exact hs | with_reducible exact hL | exact parts_sub hL (by decide) | with_reducible apply ih
      | with_reducible apply moves_emit | with_reducible apply moves_ite | dsimp only | split

theorem moves_sendOutputs {z0 s : State} (hs : Moves L z0 s) (hL : ∀ p ∈ [Part.regs, .sent], p ∈ L) (i : Image) (l : List Nat) : Moves L
    z0 (State.sendOutputs s i l) := by
  induction l generalizing s i with
  | nil => exact hs
  | cons x rest ih =>
    unfold State.sendOutputs
    repeat' first
      | with_reducible exact hs | with_reducible exact hL | exact parts_sub hL (by decide) | with_reducible apply ih
      | with_reducible apply moves_sendStreams | with_reducible apply moves_ite | dsimp only | split

theorem moves_qspSend {z0 s : State} (hs : Moves L z0 s) (hL : ∀ p ∈ [Part.regs, .sent], p ∈ L) : Moves L z0 (State.qspSend s) := by
  unfold State.qspSend
  repeat' first
    | with_reducible exact hs | with_reducible exact hL | exact parts_sub hL (by decide) | with_reducible apply moves_sendOutputs
    | with_reducible apply moves_ite | dsimp only | split

theorem ends_execStandbyQspSend {s : State} (hL : ∀ p ∈ [Part.regs, .tb, .sent, .clock], p ∈ L) : Ends L s (execStandbyQspSend s) := by
  have hs := Moves.refl L s
  unfold execStandbyQspSend
  repeat' first
    | with_reducible apply ends_next | with_reducible apply ends_ite | with_reducible exact hs | with_reducible exact hL
    | exact parts_sub hL (by decide) | with_reducible apply moves_phase | with_reducible apply moves_qspSend | dsimp only | split

theorem moves_sendRefuse {z0 s : State} (hs : Moves L z0 s) (hL : ∀ p ∈ [Part.regs, .net, .sent], p ∈ L) (f : QspFrame) (reason : Nat) :
    Moves L z0 (State.sendRefuse s f reason) := by
  unfold State.sendRefuse
  repeat' first
    | with_reducible exact hs | with_reducible exact hL | exact parts_sub hL (by decide) | with_reducible apply moves_emit
    | with_reducible apply moves_updNet | with_reducible apply moves_ite | dsimp only | split

theorem moves_refuseRoll {z0 s : State} (hs : Moves L z0 s) (hL : ∀ p ∈ [Part.regs, .net, .evr, .sent], p ∈ L) (f : QspFrame) (reason :
    Nat) : Moves L z0 (State.refuseRoll s f reason) := by
  unfold State.refuseRoll
  repeat' first
    | with_reducible exact hs | with_reducible exact hL | exact parts_sub hL (by decide) | with_reducible apply moves_changeStation
    | with_reducible apply moves_incReg | with_reducible apply moves_putRegBit | with_reducible apply moves_raise
    | with_reducible apply moves_sendRefuse | with_reducible apply moves_setReg | with_reducible apply moves_ite | dsimp only | split

theorem moves_fixBind {z0 s : State} (hs : Moves L z0 s) (hL : ∀ p ∈ [Part.net, .sent], p ∈ L) (f : QspFrame) : Moves L z0 (State.fixBind
    s f) := by
  unfold State.fixBind
  repeat' first
    | with_reducible exact hs | with_reducible exact hL | exact parts_sub hL (by decide) | with_reducible apply moves_pass
    | with_reducible apply moves_setStation | with_reducible apply moves_ite | dsimp only | split

theorem ends_execRollCall {s : State} (hL : ∀ p ∈ [Part.regs, .net, .evr, .sent], p ∈ L) (p : Fin 2) (f : QspFrame) : Ends L s
    (execRollCall p f s) := by
  have hs := Moves.refl L s
  unfold execRollCall
  repeat' first
    | with_reducible apply ends_next | with_reducible apply ends_ite | with_reducible exact hs | with_reducible exact hL
    | exact parts_sub hL (by decide) | with_reducible apply moves_discardFrame | with_reducible apply moves_fixBind
    | with_reducible apply moves_refuseRoll | dsimp only | split

theorem ends_execBindCycle {s : State} (hL : ∀ p ∈ [Part.regs, .tb, .net, .evr, .sent, .clock], p ∈ L) (n : BitVec 10) : Ends L s
    (execBindCycle n s) := by
  have hs := Moves.refl L s
  unfold execBindCycle
  repeat' first
    | with_reducible apply ends_next | with_reducible apply ends_ite | with_reducible exact hs | with_reducible exact hL
    | exact parts_sub hL (by decide) | with_reducible apply moves_advanceTo | with_reducible apply moves_changeStation
    | with_reducible apply moves_putRegBit | with_reducible apply moves_raise | with_reducible apply moves_sendBind | dsimp only | split

theorem moves_commitStation {z0 s : State} (hs : Moves L z0 s) (hL : ∀ p ∈ [Part.net], p ∈ L) (n : Nat) (words : List Word) (tick : Nat) :
    Moves L z0 (State.commitStation s n words tick) := by
  unfold State.commitStation
  repeat' first
    | with_reducible exact hs | with_reducible exact hL | exact parts_sub hL (by decide) | with_reducible apply moves_updNet
    | with_reducible apply moves_ite | dsimp only | split

theorem moves_setStationWords {z0 s : State} (hs : Moves L z0 s) (hL : ∀ p ∈ [Part.wins], p ∈ L) (n : Nat) (words : List Word) : Moves L
    z0 (State.setStationWords s n words) := by
  unfold State.setStationWords
  repeat' first
    | with_reducible exact hs | with_reducible exact hL | exact parts_sub hL (by decide) | with_reducible assumption
    | with_reducible apply moves_setWin | with_reducible refine moves_foldl (fun _ _ _ => ?_) ?_ | with_reducible apply moves_ite
    | dsimp only | split

theorem ends_execStationCommitEffect {s : State} (hL : ∀ p ∈ [Part.wins, .tb, .net, .clock], p ∈ L) : Ends L s (execStationCommitEffect s)
    := by
  have hs := Moves.refl L s
  unfold execStationCommitEffect
  repeat' first
    | with_reducible apply ends_next | with_reducible apply ends_ite | with_reducible exact hs | with_reducible exact hL
    | exact parts_sub hL (by decide) | with_reducible apply moves_advanceTo | with_reducible apply moves_changeStation
    | with_reducible apply moves_setStationWords | with_reducible apply moves_unbind | with_reducible apply moves_updNet | dsimp only
    | split

end Sys2Proof.Machine
end

