-- ==== Sys2Proof/Laws/Moves/Hart.lean ====
section
/-!
SUPPORT. What each operation of Machine/Hart.lean may touch.
-/

namespace Sys2Proof.Machine

set_option linter.unusedTactic false
set_option linter.unreachableTactic false

variable {L : List Part}

theorem moves_setHart {z0 s : State} (hs : Moves L z0 s) (hL : ∀ p ∈ [Part.io], p ∈ L) (n : Nat) (x : HartChannel) : Moves L z0
    (State.setHart s n x) := by
  unfold State.setHart
  repeat' first
    | with_reducible exact hs | with_reducible exact hL | exact parts_sub hL (by decide) | with_reducible apply moves_updIo
    | with_reducible apply moves_ite | dsimp only | split

theorem moves_showWindow {z0 s : State} (hs : Moves L z0 s) (hL : ∀ p ∈ [Part.regs], p ∈ L) (st : Nat) : Moves L z0 (State.showWindow s
    st) := by
  unfold State.showWindow
  repeat' first
    | with_reducible exact hs | with_reducible exact hL | exact parts_sub hL (by decide) | with_reducible apply moves_putReg
    | with_reducible apply moves_ite | dsimp only | split

theorem moves_hartSend {z0 s : State} (hs : Moves L z0 s) (hL : ∀ p ∈ [Part.sent], p ∈ L) (n : Nat) (c : Nat) (address : Nat) (data : List
    Byte) : Moves L z0 (State.hartSend s n c address data) := by
  unfold State.hartSend
  repeat' first
    | with_reducible exact hs | with_reducible exact hL | exact parts_sub hL (by decide) | with_reducible apply moves_sendWire
    | with_reducible apply moves_ite | dsimp only | split

theorem moves_hartStartWindow {z0 s : State} (hs : Moves L z0 s) (hL : ∀ p ∈ [Part.regs, .io, .sent], p ∈ L) (n : Nat) : Moves L z0
    (State.hartStartWindow s n) := by
  unfold State.hartStartWindow
  repeat' first
    | with_reducible exact hs | with_reducible exact hL | exact parts_sub hL (by decide) | with_reducible apply moves_hartSend
    | with_reducible apply moves_setHart | with_reducible apply moves_showWindow | with_reducible apply moves_ite | dsimp only | split

theorem moves_hartStart {z0 s : State} (hs : Moves L z0 s) (hL : ∀ p ∈ [Part.regs, .io, .sent], p ∈ L) (n : Nat) : Moves L z0
    (State.hartStart s n) := by
  unfold State.hartStart
  repeat' first
    | with_reducible exact hs | with_reducible exact hL | exact parts_sub hL (by decide) | with_reducible apply moves_hartSend
    | with_reducible apply moves_hartStartWindow | with_reducible apply moves_setHart | with_reducible apply moves_showWindow
    | with_reducible apply moves_ite | dsimp only | split

theorem moves_hartQueue {z0 s : State} (hs : Moves L z0 s) (hL : ∀ p ∈ [Part.regs, .io, .sent], p ∈ L) (n : Nat) (c : Nat) : Moves L z0
    (State.hartQueue s n c) := by
  unfold State.hartQueue
  repeat' first
    | with_reducible exact hs | with_reducible exact hL | exact parts_sub hL (by decide) | with_reducible apply moves_hartStart
    | with_reducible apply moves_setHart | with_reducible apply moves_ite | dsimp only | split

theorem ends_execHartScanPoll {s : State} (hL : ∀ p ∈ [Part.regs, .tb, .io, .sent, .clock], p ∈ L) (n : Fin 8) : Ends L s
    (execHartScanPoll n s) := by
  have hs := Moves.refl L s
  unfold execHartScanPoll
  repeat' first
    | with_reducible apply ends_next | with_reducible apply ends_ite | with_reducible exact hs | with_reducible exact hL
    | exact parts_sub hL (by decide) | with_reducible apply moves_advanceUp | with_reducible apply moves_hartQueue
    | with_reducible apply moves_setHart | dsimp only | split

theorem moves_hartReceipt {z0 s : State} (hs : Moves L z0 s) (hL : ∀ p ∈ [Part.net], p ∈ L) (n : Nat) : Moves L z0 (State.hartReceipt s n)
    := by
  unfold State.hartReceipt
  repeat' first
    | with_reducible exact hs | with_reducible exact hL | exact parts_sub hL (by decide) | with_reducible apply moves_enterPoints
    | with_reducible apply moves_ite | dsimp only | split

theorem moves_hartDecode {z0 s : State} (hs : Moves L z0 s) (hL : ∀ p ∈ [Part.regs, .io, .net, .evr], p ∈ L) (n : Nat) (f : HartFrame) :
    Moves L z0 (State.hartDecode s n f) := by
  unfold State.hartDecode
  repeat' first
    | with_reducible exact hs | with_reducible exact hL | exact parts_sub hL (by decide) | with_reducible apply moves_hartReceipt
    | with_reducible apply moves_putRegBit | with_reducible apply moves_raise | with_reducible apply moves_setHart
    | with_reducible apply moves_setReg | with_reducible apply moves_ite | dsimp only | split

theorem moves_hartWindow {z0 s : State} (hs : Moves L z0 s) (hL : ∀ p ∈ [Part.regs], p ∈ L) (f : HartFrame) : Moves L z0 (State.hartWindow
    s f) := by
  unfold State.hartWindow
  repeat' first
    | with_reducible exact hs | with_reducible exact hL | exact parts_sub hL (by decide) | with_reducible assumption
    | with_reducible apply moves_setReg | with_reducible refine moves_foldl (fun _ _ _ => ?_) ?_ | with_reducible apply moves_ite
    | dsimp only | split

theorem ends_execHartTransactionComplete {s : State} (hL : ∀ p ∈ [Part.regs, .io, .net, .evr, .sent], p ∈ L) (n : Fin 8) (f : HartFrame) :
    Ends L s (execHartTransactionComplete n f s) := by
  have hs := Moves.refl L s
  unfold execHartTransactionComplete
  repeat' first
    | with_reducible apply ends_next | with_reducible apply ends_ite | with_reducible exact hs | with_reducible exact hL
    | exact parts_sub hL (by decide) | with_reducible apply moves_hartDecode | with_reducible apply moves_hartQueue
    | with_reducible apply moves_hartStart | with_reducible apply moves_hartStartWindow | with_reducible apply moves_hartWindow
    | with_reducible apply moves_satRegFld | with_reducible apply moves_setHart | dsimp only | split

theorem ends_execHartTransactionFailed {s : State} (hL : ∀ p ∈ [Part.regs, .io, .net, .evr, .sent], p ∈ L) (n : Fin 8) : Ends L s
    (execHartTransactionFailed n s) := by
  have hs := Moves.refl L s
  unfold execHartTransactionFailed
  repeat' first
    | with_reducible apply ends_next | with_reducible apply ends_ite | with_reducible exact hs | with_reducible exact hL
    | exact parts_sub hL (by decide) | with_reducible apply moves_hartReceipt | with_reducible apply moves_hartStart
    | with_reducible apply moves_putRegBit | with_reducible apply moves_raise | with_reducible apply moves_satRegFld
    | with_reducible apply moves_setHart | with_reducible apply moves_showWindow | dsimp only | split

theorem ends_execHartFrameReceived {s : State} (hL : ∀ p ∈ [Part.regs, .io, .net, .evr], p ∈ L) (n : Fin 8) (f : HartFrame) : Ends L s
    (execHartFrameReceived n f s) := by
  have hs := Moves.refl L s
  unfold execHartFrameReceived
  repeat' first
    | with_reducible apply ends_next | with_reducible apply ends_ite | with_reducible exact hs | with_reducible exact hL
    | exact parts_sub hL (by decide) | with_reducible apply moves_hartDecode | dsimp only | split

theorem moves_hartAbandon {z0 s : State} (hs : Moves L z0 s) (hL : ∀ p ∈ [Part.regs, .io, .evr], p ∈ L) (n : Nat) : Moves L z0
    (State.hartAbandon s n) := by
  unfold State.hartAbandon
  repeat' first
    | with_reducible exact hs | with_reducible exact hL | exact parts_sub hL (by decide) | with_reducible apply moves_putRegBit
    | with_reducible apply moves_raise | with_reducible apply moves_setHart | with_reducible apply moves_showWindow
    | with_reducible apply moves_ite | dsimp only | split

theorem moves_hartAbandonAll {z0 s : State} (hs : Moves L z0 s) (hL : ∀ p ∈ [Part.regs, .io, .evr], p ∈ L) : Moves L z0
    (State.hartAbandonAll s) := by
  unfold State.hartAbandonAll
  repeat' first
    | with_reducible exact hs | with_reducible exact hL | exact parts_sub hL (by decide) | with_reducible assumption
    | with_reducible apply moves_hartAbandon | with_reducible refine moves_foldl (fun _ _ _ => ?_) ?_ | with_reducible apply moves_ite
    | dsimp only | split

theorem moves_hartStartAll {z0 s : State} (hs : Moves L z0 s) (hL : ∀ p ∈ [Part.regs, .io, .sent], p ∈ L) : Moves L z0 (State.hartStartAll
    s) := by
  unfold State.hartStartAll
  repeat' first
    | with_reducible exact hs | with_reducible exact hL | exact parts_sub hL (by decide) | with_reducible assumption
    | with_reducible apply moves_hartStart | with_reducible refine moves_foldl (fun _ _ _ => ?_) ?_ | with_reducible apply moves_ite
    | dsimp only | split

theorem moves_startLowPass {z0 s : State} (hs : Moves L z0 s) (hL : ∀ p ∈ [Part.io], p ∈ L) (n : Nat) : Moves L z0 (State.startLowPass s
    n) := by
  unfold State.startLowPass
  repeat' first
    | with_reducible exact hs | with_reducible exact hL | exact parts_sub hL (by decide) | with_reducible apply moves_setAo
    | with_reducible apply moves_ite | dsimp only | split

theorem moves_applyHartCfg {z0 s : State} (hs : Moves L z0 s) (hL : ∀ p ∈ [Part.regs, .io], p ∈ L) (n : Nat) (v : Word) : Moves L z0
    (State.applyHartCfg s n v) := by
  unfold State.applyHartCfg
  repeat' first
    | with_reducible exact hs | with_reducible exact hL | exact parts_sub hL (by decide) | with_reducible apply moves_setHart
    | with_reducible apply moves_setReg | with_reducible apply moves_startLowPass | with_reducible apply moves_ite | dsimp only | split

theorem moves_hartGo {z0 s : State} (hs : Moves L z0 s) (hL : ∀ p ∈ [Part.regs, .io, .sent], p ∈ L) : Moves L z0 (State.hartGo s).1 := by
  unfold State.hartGo
  repeat' first
    | with_reducible exact hs | with_reducible exact hL | exact parts_sub hL (by decide) | with_reducible apply moves_hartStart
    | with_reducible apply moves_setHart | with_reducible apply moves_setReg | with_reducible apply moves_iteFst | dsimp only | split

theorem moves_hartGo_of {z0 s t9 : State} {r9 : Status} (e9 : State.hartGo s = (t9, r9)) (hs : Moves L z0 s) (hL : ∀ p ∈ [Part.regs, .io,
    .sent], p ∈ L) : Moves L z0 t9 := by
  have := moves_hartGo hs hL 
  rw [e9] at this
  exact this

theorem moves_hartClear {z0 s : State} (hs : Moves L z0 s) (hL : ∀ p ∈ [Part.regs], p ∈ L) : Moves L z0 (State.hartClear s) := by
  unfold State.hartClear
  repeat' first
    | with_reducible exact hs | with_reducible exact hL | exact parts_sub hL (by decide) | with_reducible apply moves_zeroRegs
    | with_reducible apply moves_ite | dsimp only | split

end Sys2Proof.Machine
end

