-- ==== Sys2Proof/Laws/Moves/Image.lean ====
section
/-!
SUPPORT. What each operation of Machine/Image.lean may touch.
-/

namespace Sys2Proof.Machine

set_option linter.unusedTactic false
set_option linter.unreachableTactic false

variable {L : List Part}

theorem moves_setBankImage {z0 s : State} (hs : Moves L z0 s) (hL : ∀ p ∈ [Part.frame], p ∈ L) (b : Nat) (i : Option Image) : Moves L z0
    (State.setBankImage s b i) := by
  unfold State.setBankImage
  repeat' first
    | with_reducible exact hs | with_reducible exact hL | exact parts_sub hL (by decide)
    | with_reducible refine moves_updFrame ?_ ?_ (fun _ => ⟨rfl, rfl⟩)
    | with_reducible refine moves_updFrame ?_ ?_ (fun _ => by split <;> exact ⟨rfl, rfl⟩) | with_reducible apply moves_ite | dsimp only
    | split

theorem moves_setBankState {z0 s : State} (hs : Moves L z0 s) (hL : ∀ p ∈ [Part.regs], p ∈ L) (b : Nat) (st : Nat) : Moves L z0
    (State.setBankState s b st) := by
  unfold State.setBankState
  repeat' first
    | with_reducible exact hs | with_reducible exact hL | exact parts_sub hL (by decide) | with_reducible apply moves_setReg
    | with_reducible apply moves_ite | dsimp only | split

theorem moves_noteConflict {z0 s : State} (hs : Moves L z0 s) (hL : ∀ p ∈ [Part.regs, .evr], p ∈ L) (resource : Option (Nat × Nat))
    (owners : Nat) : Moves L z0 (State.noteConflict s resource owners) := by
  unfold State.noteConflict
  repeat' first
    | with_reducible exact hs | with_reducible exact hL | exact parts_sub hL (by decide) | with_reducible apply moves_incReg
    | with_reducible apply moves_orReg | with_reducible apply moves_raiseBlock | with_reducible apply moves_setReg
    | with_reducible apply moves_ite | dsimp only | split

theorem moves_setRegs {z0 s : State} (hs : Moves L z0 s) (hL : ∀ p ∈ [Part.regs], p ∈ L) (a : Nat) (l : List Word) : Moves L z0
    (State.setRegs s a l) := by
  induction l generalizing s a with
  | nil => exact hs
  | cons x rest ih =>
    unfold State.setRegs
    repeat' first
      | with_reducible exact hs | with_reducible exact hL | exact parts_sub hL (by decide) | with_reducible apply ih
      | with_reducible apply moves_setReg | with_reducible apply moves_ite | dsimp only | split

theorem moves_writeAdmission {z0 s : State} (hs : Moves L z0 s) (hL : ∀ p ∈ [Part.regs, .evr], p ∈ L) (b : Nat) (st : Nat) (r : Except
    AdmitRefusal Admitted) : Moves L z0 (State.writeAdmission s b st r) := by
  unfold State.writeAdmission
  repeat' first
    | with_reducible exact hs | with_reducible exact hL | exact parts_sub hL (by decide) | with_reducible apply moves_incReg
    | with_reducible apply moves_raiseBlock | with_reducible apply moves_setBankState | with_reducible apply moves_setReg
    | with_reducible apply moves_setRegs | with_reducible apply moves_ite | dsimp only | split

theorem moves_showTask {z0 s : State} (hs : Moves L z0 s) (hL : ∀ p ∈ [Part.regs], p ∈ L) (b : Budget) : Moves L z0 (State.showTask s b)
    := by
  unfold State.showTask
  repeat' first
    | with_reducible exact hs | with_reducible exact hL | exact parts_sub hL (by decide) | with_reducible apply moves_setReg
    | with_reducible apply moves_ite | dsimp only | split

theorem moves_showTasks {z0 s : State} (hs : Moves L z0 s) (hL : ∀ p ∈ [Part.regs], p ∈ L) (l : List Budget) : Moves L z0 (State.showTasks
    s l) := by
  induction l generalizing s with
  | nil => exact hs
  | cons x rest ih =>
    unfold State.showTasks
    repeat' first
      | with_reducible exact hs | with_reducible exact hL | exact parts_sub hL (by decide) | with_reducible apply ih
      | with_reducible apply moves_showTask | with_reducible apply moves_ite | dsimp only | split

theorem moves_showImage {z0 s : State} (hs : Moves L z0 s) (hL : ∀ p ∈ [Part.regs], p ∈ L) (i : Image) : Moves L z0 (State.showImage s i)
    := by
  unfold State.showImage
  repeat' first
    | with_reducible exact hs | with_reducible exact hL | exact parts_sub hL (by decide) | with_reducible assumption
    | with_reducible apply moves_setReg | with_reducible apply moves_showTasks | with_reducible apply moves_zeroRegs
    | with_reducible refine moves_foldl (fun _ _ _ => ?_) ?_ | with_reducible apply moves_ite | dsimp only | split

end Sys2Proof.Machine
end

