-- ==== Sys2Proof/Laws/Moves/LoopEngine.lean ====
section
/-!
SUPPORT. What each operation of Machine/LoopEngine.lean may touch.
-/

namespace Sys2Proof.Machine

set_option linter.unusedTactic false
set_option linter.unreachableTactic false

variable {L : List Part}

theorem moves_updLoop {z0 s : State} (hs : Moves L z0 s) (hL : ∀ p ∈ [Part.loop], p ∈ L) (f : Loop → Loop) : Moves L z0 (State.updLoop s
    f) := by
  unfold State.updLoop
  repeat' first
    | with_reducible exact hs | with_reducible rfl | with_reducible exact Or.inl rfl | with_reducible exact Or.inl ⟨rfl, rfl⟩
    | exact Or.inr (hL _ (by decide)) | with_reducible exact hL | exact parts_sub hL (by decide) | with_reducible apply moves_ite
    | dsimp only | split | fail_if_no_progress with_reducible apply moves_record

theorem moves_setSlot {z0 s : State} (hs : Moves L z0 s) (hL : ∀ p ∈ [Part.loop], p ∈ L) (k : Nat) (x : Slot) : Moves L z0 (State.setSlot
    s k x) := by
  unfold State.setSlot
  repeat' first
    | with_reducible exact hs | with_reducible exact hL | exact parts_sub hL (by decide) | with_reducible apply moves_updLoop
    | with_reducible apply moves_ite | dsimp only | split

theorem moves_inputFault {z0 s : State} (hs : Moves L z0 s) (hL : ∀ p ∈ [Part.regs, .loop, .evr], p ∈ L) (k : Nat) (x : Slot) : Moves L z0
    (State.inputFault s k x) := by
  unfold State.inputFault
  repeat' first
    | with_reducible exact hs | with_reducible exact hL | exact parts_sub hL (by decide) | with_reducible apply moves_incReg
    | with_reducible apply moves_orReg | with_reducible apply moves_raise | with_reducible apply moves_setSlot
    | with_reducible apply moves_ite | dsimp only | split

theorem moves_stateFault {z0 s : State} (hs : Moves L z0 s) (hL : ∀ p ∈ [Part.regs, .loop, .evr], p ∈ L) (k : Nat) (x : Slot) : Moves L z0
    (State.stateFault s k x) := by
  unfold State.stateFault
  repeat' first
    | with_reducible exact hs | with_reducible exact hL | exact parts_sub hL (by decide) | with_reducible apply moves_incReg
    | with_reducible apply moves_orReg | with_reducible apply moves_raise | with_reducible apply moves_setSlot
    | with_reducible apply moves_ite | dsimp only | split

theorem moves_takePlace {z0 s : State} (hs : Moves L z0 s) (hL : ∀ p ∈ [Part.regs, .loop], p ∈ L) (k : Nat) (n : Nat) : Moves L z0
    (State.takePlace s k n) := by
  unfold State.takePlace
  repeat' first
    | with_reducible exact hs | with_reducible exact hL | exact parts_sub hL (by decide) | with_reducible apply moves_setReg
    | with_reducible apply moves_updLoop | with_reducible apply moves_ite | dsimp only | split

theorem ends_execSlotEvaluation {s : State} (hL : ∀ p ∈ [Part.regs, .tb, .loop, .evr, .clock], p ∈ L) (k : Byte) : Ends L s
    (execSlotEvaluation k s) := by
  have hs := Moves.refl L s
  unfold execSlotEvaluation
  repeat' first
    | with_reducible apply ends_next | with_reducible apply ends_ite | with_reducible exact hs | with_reducible exact hL
    | exact parts_sub hL (by decide) | with_reducible apply moves_incReg | with_reducible apply moves_inputFault
    | with_reducible apply moves_phase | with_reducible apply moves_setSlot | with_reducible apply moves_stateFault
    | with_reducible apply moves_takePlace | dsimp only | split

theorem moves_showCommit {z0 s : State} (hs : Moves L z0 s) (hL : ∀ p ∈ [Part.regs], p ∈ L) (st : Status) (page : Nat) (w : Nat) (k : Nat)
    : Moves L z0 (State.showCommit s st page w k) := by
  unfold State.showCommit
  repeat' first
    | with_reducible exact hs | with_reducible exact hL | exact parts_sub hL (by decide) | with_reducible apply moves_setReg
    | with_reducible apply moves_ite | dsimp only | split

theorem moves_refuseCommit {z0 s : State} (hs : Moves L z0 s) (hL : ∀ p ∈ [Part.regs, .evr], p ∈ L) (k : Nat) (r : Status × Nat × Option
    (Owner × Owner)) : Moves L z0 (State.refuseCommit s k r) := by
  unfold State.refuseCommit
  repeat' first
    | with_reducible exact hs | with_reducible exact hL | exact parts_sub hL (by decide) | with_reducible apply moves_noteConflict
    | with_reducible apply moves_orReg | with_reducible apply moves_raise | with_reducible apply moves_setReg
    | with_reducible apply moves_showCommit | with_reducible apply moves_ite | dsimp only | split

theorem moves_writeWords {z0 s : State} (hs : Moves L z0 s) (hL : ∀ p ∈ [Part.wins], p ∈ L) (k : Nat) (l : List (Nat × Word)) : Moves L z0
    (State.writeWords s k l) := by
  induction l generalizing s k with
  | nil => exact hs
  | cons x rest ih =>
    unfold State.writeWords
    repeat' first
      | with_reducible exact hs | with_reducible exact hL | exact parts_sub hL (by decide) | with_reducible apply ih
      | with_reducible apply moves_setWin | with_reducible apply moves_ite | dsimp only | split

theorem moves_applyLoop {z0 s : State} (hs : Moves L z0 s) (hL : ∀ p ∈ [Part.regs, .wins, .loop, .evr], p ∈ L) (k : Nat) (words : List
    (Nat × Word)) : Moves L z0 (State.applyLoop s k words) := by
  unfold State.applyLoop
  repeat' first
    | with_reducible exact hs | with_reducible exact hL | exact parts_sub hL (by decide) | with_reducible apply moves_incReg
    | with_reducible apply moves_raise | with_reducible apply moves_setSlot | with_reducible apply moves_writeWords
    | with_reducible apply moves_ite | dsimp only | split

theorem moves_clearSlotFault {z0 s : State} (hs : Moves L z0 s) (hL : ∀ p ∈ [Part.loop], p ∈ L) (k : Nat) : Moves L z0
    (State.clearSlotFault s k) := by
  unfold State.clearSlotFault
  repeat' first
    | with_reducible exact hs | with_reducible exact hL | exact parts_sub hL (by decide) | with_reducible apply moves_setSlot
    | with_reducible apply moves_ite | dsimp only | split

theorem moves_applyTaskWrites {z0 s : State} (hs : Moves L z0 s) (hL : ∀ p ∈ [Part.wins, .loop], p ∈ L) (l : List (Nat × Nat × Word)) :
    Moves L z0 (State.applyTaskWrites s l) := by
  induction l generalizing s with
  | nil => exact hs
  | cons x rest ih =>
    unfold State.applyTaskWrites
    repeat' first
      | with_reducible exact hs | with_reducible exact hL | exact parts_sub hL (by decide) | with_reducible apply ih
      | with_reducible apply moves_setSlot | with_reducible apply moves_setWin | with_reducible apply moves_ite | dsimp only | split

theorem moves_loopTick {z0 s : State} (hs : Moves L z0 s) (hL : ∀ p ∈ [Part.regs, .wins, .loop], p ∈ L) : Moves L z0 (State.loopTick s) :=
    by
  unfold State.loopTick
  repeat' first
    | with_reducible exact hs | with_reducible exact hL | exact parts_sub hL (by decide) | with_reducible apply moves_applyTaskWrites
    | with_reducible apply moves_setReg | with_reducible apply moves_updLoop | with_reducible apply moves_ite | dsimp only | split

theorem moves_commitTaskWrites {z0 s : State} (hs : Moves L z0 s) (hL : ∀ p ∈ [Part.loop], p ∈ L) : Moves L z0 (State.commitTaskWrites s)
    := by
  unfold State.commitTaskWrites
  repeat' first
    | with_reducible exact hs | with_reducible exact hL | exact parts_sub hL (by decide) | with_reducible apply moves_updLoop
    | with_reducible apply moves_ite | dsimp only | split

theorem moves_showDesign {z0 s : State} (hs : Moves L z0 s) (hL : ∀ p ∈ [Part.regs], p ∈ L) (busy : Bool) (st : Status) : Moves L z0
    (State.showDesign s busy st) := by
  unfold State.showDesign
  repeat' first
    | with_reducible exact hs | with_reducible exact hL | exact parts_sub hL (by decide) | with_reducible apply moves_setReg
    | with_reducible apply moves_ite | dsimp only | split

theorem moves_startDesign {z0 s : State} (hs : Moves L z0 s) (hL : ∀ p ∈ [Part.regs, .loop], p ∈ L) (d : Design) : Moves L z0
    (State.startDesign s d).1 := by
  unfold State.startDesign
  repeat' first
    | with_reducible exact hs | with_reducible exact hL | exact parts_sub hL (by decide) | with_reducible apply moves_showDesign
    | with_reducible apply moves_updLoop | with_reducible apply moves_iteFst | dsimp only | split

theorem moves_startDesign_of {z0 s t9 : State} {r9 : Option Reply} {d : Design} (e9 : State.startDesign s d = (t9, r9)) (hs : Moves L z0
    s) (hL : ∀ p ∈ [Part.regs, .loop], p ∈ L) : Moves L z0 t9 := by
  have := moves_startDesign hs hL d
  rw [e9] at this
  exact this

end Sys2Proof.Machine
end

