-- ==== Sys2Proof/Laws/Moves/Bmca.lean ====
section
/-!
SUPPORT. What each operation of Machine/Bmca.lean may touch.
-/

namespace Sys2Proof.Machine

set_option linter.unusedTactic false
set_option linter.unreachableTactic false

variable {L : List Part}

theorem moves_ptpCount {z0 s : State} (hs : Moves L z0 s) (hL : ∀ p ∈ [Part.regs], p ∈ L) (c : Nat) : Moves L z0 (State.ptpCount s c) :=
    by
  unfold State.ptpCount
  repeat' first
    | with_reducible exact hs | with_reducible exact hL | exact parts_sub hL (by decide) | with_reducible apply moves_incReg
    | with_reducible apply moves_ite | dsimp only | split

theorem moves_setPort {z0 s : State} (hs : Moves L z0 s) (hL : ∀ p ∈ [Part.regs, .evr], p ∈ L) (p : Nat) (st : PortState) : Moves L z0
    (State.setPort s p st) := by
  unfold State.setPort
  repeat' first
    | with_reducible exact hs | with_reducible exact hL | exact parts_sub hL (by decide) | with_reducible apply moves_raise
    | with_reducible apply moves_setReg | with_reducible apply moves_ite | dsimp only | split

theorem moves_decidePort {z0 s : State} (hs : Moves L z0 s) (hL : ∀ p ∈ [Part.regs, .evr], p ∈ L) (p : Nat) : Moves L z0 (State.decidePort
    s p) := by
  unfold State.decidePort
  repeat' first
    | with_reducible exact hs | with_reducible exact hL | exact parts_sub hL (by decide) | with_reducible apply moves_raise
    | with_reducible apply moves_setPort | with_reducible apply moves_ite | dsimp only | split

theorem moves_runBmca {z0 s : State} (hs : Moves L z0 s) (hL : ∀ p ∈ [Part.regs, .evr], p ∈ L) : Moves L z0 (State.runBmca s) := by
  unfold State.runBmca
  repeat' first
    | with_reducible exact hs | with_reducible exact hL | exact parts_sub hL (by decide) | with_reducible apply moves_decidePort
    | with_reducible apply moves_setReg | with_reducible apply moves_ite | dsimp only | split

theorem moves_setMasters {z0 s : State} (hs : Moves L z0 s) (hL : ∀ p ∈ [Part.regs, .ptp, .evr], p ∈ L) (ms : List ForeignMaster) : Moves
    L z0 (State.setMasters s ms) := by
  unfold State.setMasters
  repeat' first
    | with_reducible exact hs | with_reducible rfl | with_reducible exact Or.inl rfl | with_reducible exact Or.inl ⟨rfl, rfl⟩
    | exact Or.inr (hL _ (by decide)) | with_reducible exact hL | exact parts_sub hL (by decide) | with_reducible apply moves_ptpCount
    | with_reducible apply moves_runBmca | with_reducible apply moves_ite | dsimp only | split
    | fail_if_no_progress with_reducible apply moves_record

end Sys2Proof.Machine
end

