-- ==== Sys2Proof/Laws/Moves/TimeBase.lean ====
section
/-!
SUPPORT. What each operation of Machine/TimeBase.lean may touch.
-/

namespace Sys2Proof.Machine

set_option linter.unusedTactic false
set_option linter.unreachableTactic false

variable {L : List Part}

theorem moves_setRate {z0 s : State} (hs : Moves L z0 s) (hL : ∀ p ∈ [Part.regs], p ∈ L) (r : Int) : Moves L z0 (State.setRate s r) := by
  unfold State.setRate
  repeat' first
    | with_reducible exact hs | with_reducible exact hL | exact parts_sub hL (by decide) | with_reducible apply moves_setReg
    | with_reducible apply moves_ite | dsimp only | split

theorem moves_clockTick {z0 s : State} (hs : Moves L z0 s) (hL : ∀ p ∈ [Part.tb, .clock], p ∈ L) : Moves L z0 (clockTick s) := by
  unfold clockTick
  repeat' first
    | with_reducible exact hs | with_reducible rfl | with_reducible exact Or.inl rfl | with_reducible exact Or.inl ⟨rfl, rfl⟩
    | exact Or.inr (hL _ (by decide)) | with_reducible exact hL | exact parts_sub hL (by decide) | with_reducible apply moves_ite
    | dsimp only | split | fail_if_no_progress with_reducible apply moves_record

theorem moves_setRef {z0 s : State} (hs : Moves L z0 s) (hL : ∀ p ∈ [Part.tb], p ∈ L) (r : Nat) (x : Reference) : Moves L z0 (State.setRef
    s r x) := by
  unfold State.setRef
  repeat' first
    | with_reducible exact hs | with_reducible rfl | with_reducible exact Or.inl rfl | with_reducible exact Or.inl ⟨rfl, rfl⟩
    | exact Or.inr (hL _ (by decide)) | with_reducible exact hL | exact parts_sub hL (by decide) | with_reducible apply moves_ite
    | dsimp only | split | fail_if_no_progress with_reducible apply moves_record

theorem moves_showRef {z0 s : State} (hs : Moves L z0 s) (hL : ∀ p ∈ [Part.regs], p ∈ L) (r : Nat) (st : RefState) : Moves L z0
    (State.showRef s r st) := by
  unfold State.showRef
  repeat' first
    | with_reducible exact hs | with_reducible exact hL | exact parts_sub hL (by decide) | with_reducible apply moves_putReg
    | with_reducible apply moves_ite | dsimp only | split

theorem moves_setRefState {z0 s : State} (hs : Moves L z0 s) (hL : ∀ p ∈ [Part.regs, .tb], p ∈ L) (r : Nat) (st : RefState) : Moves L z0
    (State.setRefState s r st) := by
  unfold State.setRefState
  repeat' first
    | with_reducible exact hs | with_reducible exact hL | exact parts_sub hL (by decide) | with_reducible apply moves_setRef
    | with_reducible apply moves_showRef | with_reducible apply moves_ite | dsimp only | split

theorem moves_holdRegs {z0 s : State} (hs : Moves L z0 s) (hL : ∀ p ∈ [Part.regs], p ∈ L) : Moves L z0 (State.holdRegs s) := by
  unfold State.holdRegs
  repeat' first
    | with_reducible exact hs | with_reducible exact hL | exact parts_sub hL (by decide) | with_reducible apply moves_setReg
    | with_reducible apply moves_ite | dsimp only | split

theorem moves_setQuality {z0 s : State} (hs : Moves L z0 s) (hL : ∀ p ∈ [Part.regs, .tb, .ptp, .acq, .evr], p ∈ L) (q : Quality) : Moves L
    z0 (State.setQuality s q) := by
  unfold State.setQuality
  repeat' first
    | with_reducible exact hs | with_reducible rfl | with_reducible exact Or.inl rfl | with_reducible exact Or.inl ⟨rfl, rfl⟩
    | exact Or.inr (hL _ (by decide)) | with_reducible exact hL | exact parts_sub hL (by decide) | with_reducible apply moves_holdRegs
    | with_reducible apply moves_orReg | with_reducible apply moves_raiseWith | with_reducible apply moves_setReg
    | with_reducible apply moves_ite | dsimp only | split | fail_if_no_progress with_reducible apply moves_record

theorem moves_lockedFigures {z0 s : State} (hs : Moves L z0 s) (hL : ∀ p ∈ [Part.regs, .ptp], p ∈ L) : Moves L z0 (State.lockedFigures s)
    := by
  unfold State.lockedFigures
  repeat' first
    | with_reducible exact hs | with_reducible rfl | with_reducible exact Or.inl rfl | with_reducible exact Or.inl ⟨rfl, rfl⟩
    | exact Or.inr (hL _ (by decide)) | with_reducible exact hL | exact parts_sub hL (by decide) | with_reducible apply moves_setReg
    | with_reducible apply moves_ite | dsimp only | split | fail_if_no_progress with_reducible apply moves_record

theorem moves_enterHoldover {z0 s : State} (hs : Moves L z0 s) (hL : ∀ p ∈ [Part.regs, .tb, .ptp, .acq, .evr], p ∈ L) : Moves L z0
    (State.enterHoldover s) := by
  unfold State.enterHoldover
  repeat' first
    | with_reducible exact hs | with_reducible exact hL | exact parts_sub hL (by decide) | with_reducible apply moves_setQuality
    | with_reducible apply moves_setRate | with_reducible apply moves_ite | dsimp only | split

theorem moves_noteHold {z0 s : State} (hs : Moves L z0 s) (hL : ∀ p ∈ [Part.tb], p ∈ L) (h : HoldoverEntry) : Moves L z0 (State.noteHold s
    h) := by
  unfold State.noteHold
  repeat' first
    | with_reducible exact hs | with_reducible rfl | with_reducible exact Or.inl rfl | with_reducible exact Or.inl ⟨rfl, rfl⟩
    | exact Or.inr (hL _ (by decide)) | with_reducible exact hL | exact parts_sub hL (by decide) | with_reducible apply moves_ite
    | dsimp only | split | fail_if_no_progress with_reducible apply moves_record

theorem moves_startJump {z0 s : State} (hs : Moves L z0 s) (hL : ∀ p ∈ [Part.regs, .tb, .evr], p ∈ L) (c : Nat) : Moves L z0
    (State.startJump s c) := by
  unfold State.startJump
  repeat' first
    | with_reducible exact hs | with_reducible rfl | with_reducible exact Or.inl rfl | with_reducible exact Or.inl ⟨rfl, rfl⟩
    | exact Or.inr (hL _ (by decide)) | with_reducible exact hL | exact parts_sub hL (by decide) | with_reducible apply moves_incReg
    | with_reducible apply moves_orReg | with_reducible apply moves_raiseBlock | with_reducible apply moves_ite | dsimp only | split
    | fail_if_no_progress with_reducible apply moves_record

theorem moves_meetJump {z0 s : State} (hs : Moves L z0 s) (hL : ∀ p ∈ [Part.regs, .tb, .ptp, .acq, .evr], p ∈ L) (c : Nat) : Moves L z0
    (State.meetJump s c) := by
  unfold State.meetJump
  repeat' first
    | with_reducible exact hs | with_reducible rfl | with_reducible exact Or.inl rfl | with_reducible exact Or.inl ⟨rfl, rfl⟩
    | exact Or.inr (hL _ (by decide)) | with_reducible exact hL | exact parts_sub hL (by decide)
    | with_reducible apply moves_enterHoldover | with_reducible apply moves_startJump | with_reducible apply moves_ite | dsimp only
    | split | fail_if_no_progress with_reducible apply moves_record

theorem moves_follow {z0 s : State} (hs : Moves L z0 s) (hL : ∀ p ∈ [Part.regs, .tb, .ptp, .acq, .evr], p ∈ L) (c : Nat) : Moves L z0
    (State.follow s c) := by
  unfold State.follow
  repeat' first
    | with_reducible exact hs | with_reducible rfl | with_reducible exact Or.inl rfl | with_reducible exact Or.inl ⟨rfl, rfl⟩
    | exact Or.inr (hL _ (by decide)) | with_reducible exact hL | exact parts_sub hL (by decide)
    | with_reducible apply moves_lockedFigures | with_reducible apply moves_meetJump | with_reducible apply moves_runBmca
    | with_reducible apply moves_setQuality | with_reducible apply moves_setRate | with_reducible apply moves_ite | dsimp only | split
    | fail_if_no_progress with_reducible apply moves_record

theorem moves_switchRef {z0 s : State} (hs : Moves L z0 s) (hL : ∀ p ∈ [Part.regs, .tb, .ptp, .acq, .evr], p ∈ L) (c : Nat) : Moves L z0
    (State.switchRef s c) := by
  unfold State.switchRef
  repeat' first
    | with_reducible exact hs | with_reducible exact hL | exact parts_sub hL (by decide) | with_reducible apply moves_follow
    | with_reducible apply moves_incReg | with_reducible apply moves_raise | with_reducible apply moves_setReg
    | with_reducible apply moves_ite | dsimp only | split

theorem moves_endJump {z0 s : State} (hs : Moves L z0 s) (hL : ∀ p ∈ [Part.tb], p ∈ L) : Moves L z0 (State.endJump s) := by
  unfold State.endJump
  repeat' first
    | with_reducible exact hs | with_reducible rfl | with_reducible exact Or.inl rfl | with_reducible exact Or.inl ⟨rfl, rfl⟩
    | exact Or.inr (hL _ (by decide)) | with_reducible exact hL | exact parts_sub hL (by decide) | with_reducible apply moves_ite
    | dsimp only | split | fail_if_no_progress with_reducible apply moves_record

theorem moves_dropRef {z0 s : State} (hs : Moves L z0 s) (hL : ∀ p ∈ [Part.regs, .tb, .evr], p ∈ L) : Moves L z0 (State.dropRef s) := by
  unfold State.dropRef
  repeat' first
    | with_reducible exact hs | with_reducible rfl | with_reducible exact Or.inl rfl | with_reducible exact Or.inl ⟨rfl, rfl⟩
    | exact Or.inr (hL _ (by decide)) | with_reducible exact hL | exact parts_sub hL (by decide) | with_reducible apply moves_runBmca
    | with_reducible apply moves_ite | dsimp only | split | fail_if_no_progress with_reducible apply moves_record

theorem moves_afterLoss {z0 s : State} (hs : Moves L z0 s) (hL : ∀ p ∈ [Part.regs, .tb, .ptp, .acq, .evr], p ∈ L) : Moves L z0
    (State.afterLoss s) := by
  unfold State.afterLoss
  repeat' first
    | with_reducible exact hs | with_reducible exact hL | exact parts_sub hL (by decide) | with_reducible apply moves_dropRef
    | with_reducible apply moves_enterHoldover | with_reducible apply moves_switchRef | with_reducible apply moves_ite | dsimp only
    | split

theorem moves_leadTime {z0 s : State} (hs : Moves L z0 s) (hL : ∀ p ∈ [Part.regs, .tb, .ptp, .acq, .evr], p ∈ L) : Moves L z0
    (State.leadTime s) := by
  unfold State.leadTime
  repeat' first
    | with_reducible exact hs | with_reducible exact hL | exact parts_sub hL (by decide) | with_reducible apply moves_afterLoss
    | with_reducible apply moves_dropRef | with_reducible apply moves_follow | with_reducible apply moves_ite | dsimp only | split

theorem moves_loseRef {z0 s : State} (hs : Moves L z0 s) (hL : ∀ p ∈ [Part.regs, .tb, .ptp, .acq, .evr], p ∈ L) (r : Nat) (dest :
    RefState) : Moves L z0 (State.loseRef s r dest) := by
  unfold State.loseRef
  repeat' first
    | with_reducible exact hs | with_reducible exact hL | exact parts_sub hL (by decide) | with_reducible apply moves_afterLoss
    | with_reducible apply moves_endJump | with_reducible apply moves_raise | with_reducible apply moves_setRef
    | with_reducible apply moves_setRefState | with_reducible apply moves_ite | dsimp only | split

theorem ends_execPpsEdge {s : State} (hL : ∀ p ∈ [Part.regs, .tb], p ∈ L) (stamp : Instant) : Ends L s (execPpsEdge stamp s) := by
  have hs := Moves.refl L s
  unfold execPpsEdge
  repeat' first
    | with_reducible apply ends_next | with_reducible apply ends_ite | with_reducible exact hs | with_reducible rfl
    | with_reducible exact Or.inl rfl | with_reducible exact Or.inl ⟨rfl, rfl⟩ | exact Or.inr (hL _ (by decide)) | with_reducible exact hL
    | exact parts_sub hL (by decide) | with_reducible apply moves_setRef | with_reducible apply moves_setReg | dsimp only | split
    | fail_if_no_progress with_reducible apply moves_record

theorem moves_takeUtc {z0 s : State} (hs : Moves L z0 s) (hL : ∀ p ∈ [Part.regs], p ∈ L) (r : Nat) (offset : Option Nat) (leap : Word) :
    Moves L z0 (State.takeUtc s r offset leap) := by
  unfold State.takeUtc
  repeat' first
    | with_reducible exact hs | with_reducible exact hL | exact parts_sub hL (by decide) | with_reducible apply moves_setReg
    | with_reducible apply moves_ite | dsimp only | split

theorem ends_execTodMessage {s : State} (hL : ∀ p ∈ [Part.regs, .tb], p ∈ L) (bytes : List Byte) (since : Nat) : Ends L s (execTodMessage
    bytes since s) := by
  have hs := Moves.refl L s
  unfold execTodMessage
  repeat' first
    | with_reducible apply ends_next | with_reducible apply ends_ite | with_reducible exact hs | with_reducible rfl
    | with_reducible exact Or.inl rfl | with_reducible exact Or.inl ⟨rfl, rfl⟩ | exact Or.inr (hL _ (by decide)) | with_reducible exact hL
    | exact parts_sub hL (by decide) | with_reducible apply moves_setRef | with_reducible apply moves_setReg
    | with_reducible apply moves_takeUtc | dsimp only | split | fail_if_no_progress with_reducible apply moves_record

theorem ends_execIrigFrame {s : State} (hL : ∀ p ∈ [Part.regs, .tb], p ∈ L) (frame : IrigFrame) (stamp : Instant) : Ends L s
    (execIrigFrame frame stamp s) := by
  have hs := Moves.refl L s
  unfold execIrigFrame
  repeat' first
    | with_reducible apply ends_next | with_reducible apply ends_ite | with_reducible exact hs | with_reducible exact hL
    | exact parts_sub hL (by decide) | with_reducible apply moves_setRef | with_reducible apply moves_setReg
    | with_reducible apply moves_takeUtc | dsimp only | split

theorem moves_showRun {z0 s : State} (hs : Moves L z0 s) (hL : ∀ p ∈ [Part.regs], p ∈ L) (r : Nat) : Moves L z0 (State.showRun s r) := by
  unfold State.showRun
  repeat' first
    | with_reducible exact hs | with_reducible exact hL | exact parts_sub hL (by decide) | with_reducible apply moves_setReg
    | with_reducible apply moves_ite | dsimp only | split

theorem ends_execReferenceSecondCheck {s : State} (hL : ∀ p ∈ [Part.regs, .tb, .ptp, .evr], p ∈ L) (r : Fin 3) : Ends L s
    (execReferenceSecondCheck r s) := by
  have hs := Moves.refl L s
  unfold execReferenceSecondCheck
  repeat' first
    | with_reducible apply ends_next | with_reducible apply ends_ite | with_reducible exact hs | with_reducible rfl
    | with_reducible exact Or.inl rfl | with_reducible exact Or.inl ⟨rfl, rfl⟩ | exact Or.inr (hL _ (by decide)) | with_reducible exact hL
    | exact parts_sub hL (by decide) | with_reducible apply moves_incReg | with_reducible apply moves_raise
    | with_reducible apply moves_setRef | with_reducible apply moves_setReg | with_reducible apply moves_showRef
    | with_reducible apply moves_showRun | dsimp only | split | fail_if_no_progress with_reducible apply moves_record

theorem moves_outvote {z0 s : State} (hs : Moves L z0 s) (hL : ∀ p ∈ [Part.regs, .tb, .ptp, .acq, .evr], p ∈ L) (c : Nat) : Moves L z0
    (State.outvote s c) := by
  unfold State.outvote
  repeat' first
    | with_reducible exact hs | with_reducible exact hL | exact parts_sub hL (by decide) | with_reducible apply moves_endJump
    | with_reducible apply moves_raise | with_reducible apply moves_setRef | with_reducible apply moves_setRefState
    | with_reducible apply moves_switchRef | with_reducible apply moves_ite | dsimp only | split

theorem moves_dismissJump {z0 s : State} (hs : Moves L z0 s) (hL : ∀ p ∈ [Part.regs, .tb, .ptp, .acq, .evr], p ∈ L) : Moves L z0
    (State.dismissJump s) := by
  unfold State.dismissJump
  repeat' first
    | with_reducible exact hs | with_reducible rfl | with_reducible exact Or.inl rfl | with_reducible exact Or.inl ⟨rfl, rfl⟩
    | exact Or.inr (hL _ (by decide)) | with_reducible exact hL | exact parts_sub hL (by decide) | with_reducible apply moves_endJump
    | with_reducible apply moves_setQuality | with_reducible apply moves_ite | dsimp only | split
    | fail_if_no_progress with_reducible apply moves_record

theorem moves_noteFrequency {z0 s : State} (hs : Moves L z0 s) (hL : ∀ p ∈ [Part.tb], p ∈ L) (f : Int) : Moves L z0 (State.noteFrequency s
    f) := by
  unfold State.noteFrequency
  repeat' first
    | with_reducible exact hs | with_reducible rfl | with_reducible exact Or.inl rfl | with_reducible exact Or.inl ⟨rfl, rfl⟩
    | exact Or.inr (hL _ (by decide)) | with_reducible exact hL | exact parts_sub hL (by decide) | with_reducible apply moves_ite
    | dsimp only | split | fail_if_no_progress with_reducible apply moves_record

theorem moves_showUpdate {z0 s : State} (hs : Moves L z0 s) (hL : ∀ p ∈ [Part.regs, .tb], p ∈ L) (r : Nat) (u : ServoInput) : Moves L z0
    (State.showUpdate s r u) := by
  unfold State.showUpdate
  repeat' first
    | with_reducible exact hs | with_reducible exact hL | exact parts_sub hL (by decide) | with_reducible apply moves_setRef
    | with_reducible apply moves_setReg | with_reducible apply moves_ite | dsimp only | split

theorem ends_execServoUpdate {s : State} (hL : ∀ p ∈ [Part.regs, .tb, .ptp, .acq, .evr], p ∈ L) (u : ServoInput) : Ends L s
    (execServoUpdate u s) := by
  have hs := Moves.refl L s
  unfold execServoUpdate
  repeat' first
    | with_reducible apply ends_next | with_reducible apply ends_ite | with_reducible exact hs | with_reducible rfl
    | with_reducible exact Or.inl rfl | with_reducible exact Or.inl ⟨rfl, rfl⟩ | exact Or.inr (hL _ (by decide)) | with_reducible exact hL
    | exact parts_sub hL (by decide) | with_reducible apply moves_dismissJump | with_reducible apply moves_noteFrequency
    | with_reducible apply moves_noteHold | with_reducible apply moves_orReg | with_reducible apply moves_outvote
    | with_reducible apply moves_setRate | with_reducible apply moves_showUpdate | dsimp only | split
    | fail_if_no_progress with_reducible apply moves_record

theorem ends_execReferenceQualified {s : State} (hL : ∀ p ∈ [Part.regs, .tb, .ptp, .acq, .evr], p ∈ L) (r : Fin 3) : Ends L s
    (execReferenceQualified r s) := by
  have hs := Moves.refl L s
  unfold execReferenceQualified
  repeat' first
    | with_reducible apply ends_next | with_reducible apply ends_ite | with_reducible exact hs | with_reducible exact hL
    | exact parts_sub hL (by decide) | with_reducible apply moves_follow | with_reducible apply moves_outvote
    | with_reducible apply moves_raise | with_reducible apply moves_setRefState | dsimp only | split

theorem ends_execReferenceLost {s : State} (hL : ∀ p ∈ [Part.regs, .tb, .ptp, .acq, .evr], p ∈ L) (r : Fin 3) (h : HoldoverEntry) : Ends L
    s (execReferenceLost r h s) := by
  have hs := Moves.refl L s
  unfold execReferenceLost
  repeat' first
    | with_reducible apply ends_next | with_reducible apply ends_ite | with_reducible exact hs | with_reducible exact hL
    | exact parts_sub hL (by decide) | with_reducible apply moves_loseRef | with_reducible apply moves_noteHold | dsimp only | split

theorem ends_execWaitToRestoreExpiry {s : State} (hL : ∀ p ∈ [Part.regs, .tb, .ptp, .acq, .evr], p ∈ L) : Ends L s
    (execWaitToRestoreExpiry s) := by
  have hs := Moves.refl L s
  unfold execWaitToRestoreExpiry
  repeat' first
    | with_reducible apply ends_next | with_reducible apply ends_ite | with_reducible exact hs | with_reducible exact hL
    | exact parts_sub hL (by decide) | with_reducible apply moves_switchRef | dsimp only | split

theorem ends_execLockAchieved {s : State} (hL : ∀ p ∈ [Part.regs, .tb, .ptp, .acq, .evr], p ∈ L) : Ends L s (execLockAchieved s) := by
  have hs := Moves.refl L s
  unfold execLockAchieved
  repeat' first
    | with_reducible apply ends_next | with_reducible apply ends_ite | with_reducible exact hs | with_reducible rfl
    | with_reducible exact Or.inl rfl | with_reducible exact Or.inl ⟨rfl, rfl⟩ | exact Or.inr (hL _ (by decide)) | with_reducible exact hL
    | exact parts_sub hL (by decide) | with_reducible apply moves_setQuality | dsimp only | split
    | fail_if_no_progress with_reducible apply moves_record

theorem ends_execJumpDetected {s : State} (hL : ∀ p ∈ [Part.regs, .tb, .ptp, .acq, .evr], p ∈ L) (h : HoldoverEntry) : Ends L s
    (execJumpDetected h s) := by
  have hs := Moves.refl L s
  unfold execJumpDetected
  repeat' first
    | with_reducible apply ends_next | with_reducible apply ends_ite | with_reducible exact hs | with_reducible exact hL
    | exact parts_sub hL (by decide) | with_reducible apply moves_meetJump | with_reducible apply moves_noteHold | dsimp only | split

theorem moves_confirmJump {z0 s : State} (hs : Moves L z0 s) (hL : ∀ p ∈ [Part.regs, .tb, .ptp, .acq, .evr], p ∈ L) : Moves L z0
    (State.confirmJump s) := by
  unfold State.confirmJump
  repeat' first
    | with_reducible exact hs | with_reducible rfl | with_reducible exact Or.inl rfl | with_reducible exact Or.inl ⟨rfl, rfl⟩
    | exact Or.inr (hL _ (by decide)) | with_reducible exact hL | exact parts_sub hL (by decide) | with_reducible apply moves_orReg
    | with_reducible apply moves_raiseBlock | with_reducible apply moves_setQuality | with_reducible apply moves_setRate
    | with_reducible apply moves_ite | dsimp only | split | fail_if_no_progress with_reducible apply moves_record

theorem ends_execJumpConfirmationExpiry {s : State} (hL : ∀ p ∈ [Part.regs, .tb, .ptp, .acq, .evr, .clock], p ∈ L) : Ends L s
    (execJumpConfirmationExpiry s) := by
  have hs := Moves.refl L s
  unfold execJumpConfirmationExpiry
  repeat' first
    | with_reducible apply ends_next | with_reducible apply ends_ite | with_reducible exact hs | with_reducible exact hL
    | exact parts_sub hL (by decide) | with_reducible apply moves_advanceUp | with_reducible apply moves_confirmJump | dsimp only | split

theorem moves_exceedBound {z0 s : State} (hs : Moves L z0 s) (hL : ∀ p ∈ [Part.regs, .tb, .ptp, .acq, .evr], p ∈ L) : Moves L z0
    (State.exceedBound s) := by
  unfold State.exceedBound
  repeat' first
    | with_reducible exact hs | with_reducible rfl | with_reducible exact Or.inl rfl | with_reducible exact Or.inl ⟨rfl, rfl⟩
    | exact Or.inr (hL _ (by decide)) | with_reducible exact hL | exact parts_sub hL (by decide) | with_reducible apply moves_orReg
    | with_reducible apply moves_raiseBlock | with_reducible apply moves_setQuality | with_reducible apply moves_ite | dsimp only | split
    | fail_if_no_progress with_reducible apply moves_record

theorem ends_execHoldoverEstimate {s : State} (hL : ∀ p ∈ [Part.regs, .tb, .ptp, .acq, .evr], p ∈ L) : Ends L s (execHoldoverEstimate s)
    := by
  have hs := Moves.refl L s
  unfold execHoldoverEstimate
  repeat' first
    | with_reducible apply ends_next | with_reducible apply ends_ite | with_reducible exact hs | with_reducible rfl
    | with_reducible exact Or.inl rfl | with_reducible exact Or.inl ⟨rfl, rfl⟩ | exact Or.inr (hL _ (by decide)) | with_reducible exact hL
    | exact parts_sub hL (by decide) | with_reducible apply moves_exceedBound | with_reducible apply moves_setReg | dsimp only | split
    | fail_if_no_progress with_reducible apply moves_record

theorem moves_shiftOffsets {z0 s : State} (hs : Moves L z0 s) (hL : ∀ p ∈ [Part.tb], p ∈ L) (d : Int) : Moves L z0 (State.shiftOffsets s
    d) := by
  unfold State.shiftOffsets
  repeat' first
    | with_reducible exact hs | with_reducible exact hL | exact parts_sub hL (by decide) | with_reducible apply moves_setRef
    | with_reducible apply moves_ite | dsimp only | split

theorem moves_applyStep {z0 s : State} (hs : Moves L z0 s) (hL : ∀ p ∈ [Part.regs, .tb, .ptp, .acq, .evr, .clock], p ∈ L) (d : Int) (q :
    Quality) (again : Bool) : Moves L z0 (State.applyStep s d q again) := by
  unfold State.applyStep
  repeat' first
    | with_reducible exact hs | with_reducible rfl | with_reducible exact Or.inl rfl | with_reducible exact Or.inl ⟨rfl, rfl⟩
    | exact Or.inr (hL _ (by decide)) | with_reducible exact hL | exact parts_sub hL (by decide) | with_reducible apply moves_incReg
    | with_reducible apply moves_orReg | with_reducible apply moves_raiseBlock | with_reducible apply moves_setQuality
    | with_reducible apply moves_setReg | with_reducible apply moves_shiftOffsets | with_reducible apply moves_ite | dsimp only | split
    | fail_if_no_progress with_reducible apply moves_record

theorem moves_noteRtcError {z0 s : State} (hs : Moves L z0 s) (hL : ∀ p ∈ [Part.regs], p ∈ L) (d : Int) : Moves L z0 (State.noteRtcError s
    d) := by
  unfold State.noteRtcError
  repeat' first
    | with_reducible exact hs | with_reducible exact hL | exact parts_sub hL (by decide) | with_reducible apply moves_setReg
    | with_reducible apply moves_ite | dsimp only | split

theorem ends_execLeapAnnounceStart {s : State} (hL : ∀ p ∈ [Part.tb], p ∈ L) : Ends L s (execLeapAnnounceStart s) := by
  have hs := Moves.refl L s
  unfold execLeapAnnounceStart
  repeat' first
    | with_reducible apply ends_next | with_reducible apply ends_ite | with_reducible exact hs | with_reducible rfl
    | with_reducible exact Or.inl rfl | with_reducible exact Or.inl ⟨rfl, rfl⟩ | exact Or.inr (hL _ (by decide)) | with_reducible exact hL
    | exact parts_sub hL (by decide) | dsimp only | split | fail_if_no_progress with_reducible apply moves_record

theorem ends_execLeapSecondApply {s : State} (hL : ∀ p ∈ [Part.regs, .tb, .evr], p ∈ L) : Ends L s (execLeapSecondApply s) := by
  have hs := Moves.refl L s
  unfold execLeapSecondApply
  repeat' first
    | with_reducible apply ends_next | with_reducible apply ends_ite | with_reducible exact hs | with_reducible rfl
    | with_reducible exact Or.inl rfl | with_reducible exact Or.inl ⟨rfl, rfl⟩ | exact Or.inr (hL _ (by decide)) | with_reducible exact hL
    | exact parts_sub hL (by decide) | with_reducible apply moves_orReg | with_reducible apply moves_putRegBit
    | with_reducible apply moves_raiseBlock | with_reducible apply moves_setReg | dsimp only | split
    | fail_if_no_progress with_reducible apply moves_record

theorem ends_execPairAlignmentExchange {s : State} (hL : ∀ p ∈ [Part.regs, .tb, .ptp, .acq, .evr], p ∈ L) (offset : Int) (delay : Word)
    (leader : Quality) (servo : PairServo) : Ends L s (execPairAlignmentExchange offset delay leader servo s) := by
  have hs := Moves.refl L s
  unfold execPairAlignmentExchange
  repeat' first
    | with_reducible apply ends_next | with_reducible apply ends_ite | with_reducible exact hs | with_reducible rfl
    | with_reducible exact Or.inl rfl | with_reducible exact Or.inl ⟨rfl, rfl⟩ | exact Or.inr (hL _ (by decide)) | with_reducible exact hL
    | exact parts_sub hL (by decide) | with_reducible apply moves_raiseBlock | with_reducible apply moves_runBmca
    | with_reducible apply moves_setQuality | with_reducible apply moves_setRate | with_reducible apply moves_setReg | dsimp only | split
    | fail_if_no_progress with_reducible apply moves_record

theorem ends_execPairAlignmentLost {s : State} (hL : ∀ p ∈ [Part.regs, .tb, .ptp, .acq, .evr], p ∈ L) : Ends L s (execPairAlignmentLost s)
    := by
  have hs := Moves.refl L s
  unfold execPairAlignmentLost
  repeat' first
    | with_reducible apply ends_next | with_reducible apply ends_ite | with_reducible exact hs | with_reducible rfl
    | with_reducible exact Or.inl rfl | with_reducible exact Or.inl ⟨rfl, rfl⟩ | exact Or.inr (hL _ (by decide)) | with_reducible exact hL
    | exact parts_sub hL (by decide) | with_reducible apply moves_orReg | with_reducible apply moves_raiseBlock
    | with_reducible apply moves_setQuality | dsimp only | split | fail_if_no_progress with_reducible apply moves_record

theorem moves_latchTime {z0 s : State} (hs : Moves L z0 s) (hL : ∀ p ∈ [Part.regs], p ∈ L) : Moves L z0 (State.latchTime s) := by
  unfold State.latchTime
  repeat' first
    | with_reducible exact hs | with_reducible exact hL | exact parts_sub hL (by decide) | with_reducible apply moves_setReg
    | with_reducible apply moves_ite | dsimp only | split

theorem moves_loadCapture {z0 s : State} (hs : Moves L z0 s) (hL : ∀ p ∈ [Part.regs], p ∈ L) (n : Nat) (t : Nat) : Moves L z0
    (State.loadCapture s n t) := by
  unfold State.loadCapture
  repeat' first
    | with_reducible exact hs | with_reducible exact hL | exact parts_sub hL (by decide) | with_reducible apply moves_putReg
    | with_reducible apply moves_setReg | with_reducible apply moves_ite | dsimp only | split

theorem moves_capture {z0 s : State} (hs : Moves L z0 s) (hL : ∀ p ∈ [Part.regs, .tb], p ∈ L) (n : Nat) : Moves L z0 (State.capture s n)
    := by
  unfold State.capture
  repeat' first
    | with_reducible exact hs | with_reducible rfl | with_reducible exact Or.inl rfl | with_reducible exact Or.inl ⟨rfl, rfl⟩
    | exact Or.inr (hL _ (by decide)) | with_reducible exact hL | exact parts_sub hL (by decide) | with_reducible apply moves_loadCapture
    | with_reducible apply moves_satRegFld | with_reducible apply moves_setReg | with_reducible apply moves_ite | dsimp only | split
    | fail_if_no_progress with_reducible apply moves_record

theorem moves_latchCapture {z0 s : State} (hs : Moves L z0 s) (hL : ∀ p ∈ [Part.regs], p ∈ L) (n : Nat) : Moves L z0 (State.latchCapture s
    n) := by
  unfold State.latchCapture
  repeat' first
    | with_reducible exact hs | with_reducible exact hL | exact parts_sub hL (by decide) | with_reducible apply moves_loadCapture
    | with_reducible apply moves_ite | dsimp only | split

theorem moves_armCapture {z0 s : State} (hs : Moves L z0 s) (hL : ∀ p ∈ [Part.regs, .tb], p ∈ L) (n : Nat) : Moves L z0 (State.armCapture
    s n) := by
  unfold State.armCapture
  repeat' first
    | with_reducible exact hs | with_reducible rfl | with_reducible exact Or.inl rfl | with_reducible exact Or.inl ⟨rfl, rfl⟩
    | exact Or.inr (hL _ (by decide)) | with_reducible exact hL | exact parts_sub hL (by decide) | with_reducible apply moves_capture
    | with_reducible apply moves_putReg | with_reducible apply moves_ite | dsimp only | split
    | fail_if_no_progress with_reducible apply moves_record

theorem ends_execTbCapture {s : State} (hL : ∀ p ∈ [Part.regs, .tb], p ∈ L) (n : Fin 16) : Ends L s (execTbCapture n s) := by
  have hs := Moves.refl L s
  unfold execTbCapture
  repeat' first
    | with_reducible apply ends_next | with_reducible apply ends_ite | with_reducible exact hs | with_reducible exact hL
    | exact parts_sub hL (by decide) | with_reducible apply moves_capture | dsimp only | split

end Sys2Proof.Machine
end

