-- ==== Sys2Proof/Laws/Moves/Modes.lean ====
section
/-!
SUPPORT. What each operation of Machine/Modes.lean may touch.
-/

namespace Sys2Proof.Machine

set_option linter.unusedTactic false
set_option linter.unreachableTactic false

variable {L : List Part}

theorem moves_updPair {z0 s : State} (hs : Moves L z0 s) (hL : ∀ p ∈ [Part.pair], p ∈ L) (f : Pair → Pair) : Moves L z0 (State.updPair s
    f) := by
  unfold State.updPair
  repeat' first
    | with_reducible exact hs | with_reducible rfl | with_reducible exact Or.inl rfl | with_reducible exact Or.inl ⟨rfl, rfl⟩
    | exact Or.inr (hL _ (by decide)) | with_reducible exact hL | exact parts_sub hL (by decide) | with_reducible apply moves_ite
    | dsimp only | split | fail_if_no_progress with_reducible apply moves_record

theorem moves_updLock {z0 s : State} (hs : Moves L z0 s) (hL : ∀ p ∈ [Part.lock], p ∈ L) (f : Lock → Lock) : Moves L z0 (State.updLock s
    f) := by
  unfold State.updLock
  repeat' first
    | with_reducible exact hs | with_reducible rfl | with_reducible exact Or.inl rfl | with_reducible exact Or.inl ⟨rfl, rfl⟩
    | exact Or.inr (hL _ (by decide)) | with_reducible exact hL | exact parts_sub hL (by decide) | with_reducible apply moves_ite
    | dsimp only | split | fail_if_no_progress with_reducible apply moves_record

theorem moves_releaseAnew {z0 s : State} (hs : Moves L z0 s) (hL : ∀ p ∈ [Part.regs, .frame, .evr], p ∈ L) (b : Budget) (next : Nat) (l :
    List ERelease) : Moves L z0 (State.releaseAnew s b next l) := by
  induction l generalizing s b next with
  | nil => exact hs
  | cons x rest ih =>
    unfold State.releaseAnew
    repeat' first
      | with_reducible exact hs | with_reducible exact hL | exact parts_sub hL (by decide) | with_reducible apply ih
      | with_reducible apply moves_eventForTask | with_reducible apply moves_ite | dsimp only | split

theorem moves_returnReleases {z0 s : State} (hs : Moves L z0 s) (hL : ∀ p ∈ [Part.regs, .frame, .evr], p ∈ L) (next : Nat) (l : List (Nat
    × ETask)) : Moves L z0 (State.returnReleases s next l) := by
  induction l generalizing s next with
  | nil => exact hs
  | cons x rest ih =>
    unfold State.returnReleases
    repeat' first
      | with_reducible exact hs | with_reducible exact hL | exact parts_sub hL (by decide) | with_reducible apply ih
      | with_reducible apply moves_releaseAnew | with_reducible apply moves_setETask | with_reducible apply moves_ite | dsimp only | split

theorem moves_cancelSwitch {z0 s : State} (hs : Moves L z0 s) (hL : ∀ p ∈ [Part.regs, .frame, .evr, .qcp, .sent], p ∈ L) (reason : Option
    Nat) : Moves L z0 (State.cancelSwitch s reason) := by
  unfold State.cancelSwitch
  repeat' first
    | with_reducible exact hs | with_reducible exact hL | exact parts_sub hL (by decide) | with_reducible apply moves_notify
    | with_reducible apply moves_raiseBlock | with_reducible apply moves_returnReleases
    | with_reducible refine moves_updFrame ?_ ?_ (fun _ => ⟨rfl, rfl⟩)
    | with_reducible refine moves_updFrame ?_ ?_ (fun _ => by split <;> exact ⟨rfl, rfl⟩) | with_reducible apply moves_ite | dsimp only
    | split

theorem moves_cancelRunChange {z0 s : State} (hs : Moves L z0 s) (hL : ∀ p ∈ [Part.regs, .frame, .qcp, .sent], p ∈ L) : Moves L z0
    (State.cancelRunChange s) := by
  unfold State.cancelRunChange
  repeat' first
    | with_reducible exact hs | with_reducible exact hL | exact parts_sub hL (by decide) | with_reducible apply moves_notify
    | with_reducible apply moves_setReg | with_reducible refine moves_updFrame ?_ ?_ (fun _ => ⟨rfl, rfl⟩)
    | with_reducible refine moves_updFrame ?_ ?_ (fun _ => by split <;> exact ⟨rfl, rfl⟩) | with_reducible apply moves_ite | dsimp only
    | split

theorem moves_logMode {z0 s : State} (hs : Moves L z0 s) (hL : ∀ p ∈ [Part.regs], p ∈ L) (m : RunMode) (row : Nat) : Moves L z0
    (State.logMode s m row) := by
  unfold State.logMode
  repeat' first
    | with_reducible exact hs | with_reducible exact hL | exact parts_sub hL (by decide) | with_reducible apply moves_incReg
    | with_reducible apply moves_setReg | with_reducible apply moves_ite | dsimp only | split

theorem moves_zeroSlots {z0 s : State} (hs : Moves L z0 s) (hL : ∀ p ∈ [Part.loop], p ∈ L) : Moves L z0 (State.zeroSlots s) := by
  unfold State.zeroSlots
  repeat' first
    | with_reducible exact hs | with_reducible rfl | with_reducible exact Or.inl rfl | with_reducible exact Or.inl ⟨rfl, rfl⟩
    | exact Or.inr (hL _ (by decide)) | with_reducible exact hL | exact parts_sub hL (by decide) | with_reducible apply moves_ite
    | dsimp only | split | fail_if_no_progress with_reducible apply moves_record

theorem moves_giveUpStep {z0 s : State} (hs : Moves L z0 s) (hL : ∀ p ∈ [Part.regs, .tb, .ptp, .acq, .evr], p ∈ L) : Moves L z0
    (State.giveUpStep s) := by
  unfold State.giveUpStep
  repeat' first
    | with_reducible exact hs | with_reducible rfl | with_reducible exact Or.inl rfl | with_reducible exact Or.inl ⟨rfl, rfl⟩
    | exact Or.inr (hL _ (by decide)) | with_reducible exact hL | exact parts_sub hL (by decide) | with_reducible apply moves_follow
    | with_reducible apply moves_ite | dsimp only | split | fail_if_no_progress with_reducible apply moves_record

theorem moves_startTasks {z0 s : State} (hs : Moves L z0 s) (hL : ∀ p ∈ [Part.regs, .tb, .ptp, .frame, .loop, .acq, .io, .evr], p ∈ L) :
    Moves L z0 (State.startTasks s) := by
  unfold State.startTasks
  repeat' first
    | with_reducible exact hs | with_reducible rfl | with_reducible exact Or.inl rfl | with_reducible exact Or.inl ⟨rfl, rfl⟩
    | exact Or.inr (hL _ (by decide)) | with_reducible exact hL | exact parts_sub hL (by decide) | with_reducible apply moves_giveUpStep
    | with_reducible refine moves_updFrame ?_ ?_ (fun _ => ⟨rfl, rfl⟩)
    | with_reducible refine moves_updFrame ?_ ?_ (fun _ => by split <;> exact ⟨rfl, rfl⟩) | with_reducible apply moves_zeroSlots
    | with_reducible apply moves_ite | dsimp only | split | fail_if_no_progress with_reducible apply moves_record

theorem moves_enterHold {z0 s : State} (hs : Moves L z0 s) (hL : ∀ p ∈ [Part.regs, .lock, .evr], p ∈ L) : Moves L z0 (State.enterHold s)
    := by
  unfold State.enterHold
  repeat' first
    | with_reducible exact hs | with_reducible exact hL | exact parts_sub hL (by decide) | with_reducible apply moves_raiseBlock
    | with_reducible apply moves_setReg | with_reducible apply moves_updLock | with_reducible apply moves_ite | dsimp only | split

theorem moves_enterMode {z0 s : State} (hs : Moves L z0 s) (hL : ∀ p ∈ [Part.regs, .mode, .tb, .ptp, .frame, .lock, .loop, .acq, .io,
    .evr, .qcp, .sent], p ∈ L) (m : RunMode) (row : Nat) : Moves L z0 (State.enterMode s m row) := by
  unfold State.enterMode
  repeat' first
    | with_reducible exact hs | with_reducible rfl | with_reducible exact Or.inl rfl | with_reducible exact Or.inl ⟨rfl, rfl⟩
    | exact Or.inr (hL _ (by decide)) | with_reducible exact hL | exact parts_sub hL (by decide) | with_reducible apply moves_abandonTasks
    | with_reducible apply moves_cancelSwitch | with_reducible apply moves_enterHold | with_reducible apply moves_logMode
    | with_reducible apply moves_raiseBlock | with_reducible apply moves_startTasks | with_reducible apply moves_updLock
    | with_reducible apply moves_ite | dsimp only | split | fail_if_no_progress with_reducible apply moves_record

theorem moves_enterSafe {z0 s : State} (hs : Moves L z0 s) (hL : ∀ p ∈ [Part.regs, .mode, .tb, .ptp, .frame, .lock, .loop, .acq, .io,
    .evr, .qcp, .sent], p ∈ L) (cause : Nat) (row : Nat) : Moves L z0 (State.enterSafe s cause row) := by
  unfold State.enterSafe
  repeat' first
    | with_reducible exact hs | with_reducible exact hL | exact parts_sub hL (by decide) | with_reducible apply moves_cancelRunChange
    | with_reducible apply moves_enterMode | with_reducible apply moves_orReg | with_reducible apply moves_ite | dsimp only | split

theorem moves_logRole {z0 s : State} (hs : Moves L z0 s) (hL : ∀ p ∈ [Part.regs], p ∈ L) (r : Role) (cause : Nat) : Moves L z0
    (State.logRole s r cause) := by
  unfold State.logRole
  repeat' first
    | with_reducible exact hs | with_reducible exact hL | exact parts_sub hL (by decide) | with_reducible apply moves_setRegs
    | with_reducible apply moves_ite | dsimp only | split

theorem moves_enterRole {z0 s : State} (hs : Moves L z0 s) (hL : ∀ p ∈ [Part.regs, .role, .mode, .tb, .ptp, .frame, .pair, .lock, .loop,
    .acq, .io, .evr, .qcp, .sent], p ∈ L) (r : Role) (row : Nat) (out : Nat) : Moves L z0 (State.enterRole s r row out) := by
  unfold State.enterRole
  repeat' first
    | with_reducible exact hs | with_reducible rfl | with_reducible exact Or.inl rfl | with_reducible exact Or.inl ⟨rfl, rfl⟩
    | exact Or.inr (hL _ (by decide)) | with_reducible exact hL | exact parts_sub hL (by decide)
    | with_reducible apply moves_cancelRunChange | with_reducible apply moves_enterMode | with_reducible apply moves_leadTime
    | with_reducible apply moves_logRole | with_reducible apply moves_raiseBlock | with_reducible apply moves_raiseWith
    | with_reducible apply moves_runBmca | with_reducible apply moves_setReg
    | with_reducible refine moves_updFrame ?_ ?_ (fun _ => ⟨rfl, rfl⟩)
    | with_reducible refine moves_updFrame ?_ ?_ (fun _ => by split <;> exact ⟨rfl, rfl⟩) | with_reducible apply moves_updPair
    | with_reducible apply moves_ite | dsimp only | split | fail_if_no_progress with_reducible apply moves_record

theorem moves_fixRunTick {z0 s : State} (hs : Moves L z0 s) (hL : ∀ p ∈ [Part.regs, .frame, .sent], p ∈ L) (toRun : Bool) (by_ : Option
    Requester) : Moves L z0 (State.fixRunTick s toRun by_) := by
  unfold State.fixRunTick
  repeat' first
    | with_reducible exact hs | with_reducible exact hL | exact parts_sub hL (by decide) | with_reducible apply moves_pass
    | with_reducible apply moves_setReg | with_reducible refine moves_updFrame ?_ ?_ (fun _ => ⟨rfl, rfl⟩)
    | with_reducible refine moves_updFrame ?_ ?_ (fun _ => by split <;> exact ⟨rfl, rfl⟩) | with_reducible apply moves_ite | dsimp only
    | split

theorem moves_refuseMode {z0 s : State} (hs : Moves L z0 s) (hL : ∀ p ∈ [Part.regs, .evr], p ∈ L) (st : Status) : Moves L z0
    (State.refuseMode s st) := by
  unfold State.refuseMode
  repeat' first
    | with_reducible exact hs | with_reducible exact hL | exact parts_sub hL (by decide) | with_reducible apply moves_raiseBlock
    | with_reducible apply moves_setReg | with_reducible apply moves_ite | dsimp only | split

theorem moves_requestMode {z0 s : State} (hs : Moves L z0 s) (hL : ∀ p ∈ [Part.regs, .frame, .evr, .sent], p ∈ L) (m : RunMode) (by_ :
    Option Requester) : Moves L z0 (State.requestMode s m by_).1 := by
  unfold State.requestMode
  repeat' first
    | with_reducible exact hs | with_reducible exact hL | exact parts_sub hL (by decide) | with_reducible apply moves_fixRunTick
    | with_reducible apply moves_refuseMode | with_reducible refine moves_updFrame ?_ ?_ (fun _ => ⟨rfl, rfl⟩)
    | with_reducible refine moves_updFrame ?_ ?_ (fun _ => by split <;> exact ⟨rfl, rfl⟩) | with_reducible apply moves_iteFst | dsimp only
    | split

theorem moves_requestMode_of {z0 s t9 : State} {r9 : Option Reply} {m : RunMode} {by_ : Option Requester} (e9 : State.requestMode s m by_
    = (t9, r9)) (hs : Moves L z0 s) (hL : ∀ p ∈ [Part.regs, .frame, .evr, .sent], p ∈ L) : Moves L z0 t9 := by
  have := moves_requestMode hs hL m by_
  rw [e9] at this
  exact this

theorem moves_takeRequest {z0 s : State} (hs : Moves L z0 s) (hL : ∀ p ∈ [Part.regs, .mode, .tb, .ptp, .frame, .lock, .loop, .acq, .io,
    .evr, .qcp, .sent], p ∈ L) (r : ModeRequest) : Moves L z0 (State.takeRequest s r) := by
  unfold State.takeRequest
  repeat' first
    | with_reducible exact hs | with_reducible exact hL | exact parts_sub hL (by decide) | with_reducible apply moves_cancelRunChange
    | with_reducible apply moves_enterMode | with_reducible apply moves_enterSafe | with_reducible apply moves_fixRunTick
    | with_reducible apply moves_lateAnswer | with_reducible apply moves_refuseMode | with_reducible apply moves_ite | dsimp only | split

theorem moves_takeRequests {z0 s : State} (hs : Moves L z0 s) (hL : ∀ p ∈ [Part.regs, .mode, .tb, .ptp, .frame, .lock, .loop, .acq, .io,
    .evr, .qcp, .sent], p ∈ L) (l : List ModeRequest) : Moves L z0 (State.takeRequests s l) := by
  induction l generalizing s with
  | nil => exact hs
  | cons x rest ih =>
    unfold State.takeRequests
    repeat' first
      | with_reducible exact hs | with_reducible exact hL | exact parts_sub hL (by decide) | with_reducible apply ih
      | with_reducible apply moves_takeRequest | with_reducible apply moves_ite | dsimp only | split

theorem moves_takeModeRequests {z0 s : State} (hs : Moves L z0 s) (hL : ∀ p ∈ [Part.regs, .mode, .tb, .ptp, .frame, .lock, .loop, .acq,
    .io, .evr, .qcp, .sent], p ∈ L) : Moves L z0 (State.takeModeRequests s) := by
  unfold State.takeModeRequests
  repeat' first
    | with_reducible exact hs | with_reducible exact hL | exact parts_sub hL (by decide) | with_reducible apply moves_takeRequests
    | with_reducible refine moves_updFrame ?_ ?_ (fun _ => ⟨rfl, rfl⟩)
    | with_reducible refine moves_updFrame ?_ ?_ (fun _ => by split <;> exact ⟨rfl, rfl⟩) | with_reducible apply moves_ite | dsimp only
    | split

theorem moves_takeAutoRun {z0 s : State} (hs : Moves L z0 s) (hL : ∀ p ∈ [Part.regs, .frame, .sent], p ∈ L) : Moves L z0
    (State.takeAutoRun s) := by
  unfold State.takeAutoRun
  repeat' first
    | with_reducible exact hs | with_reducible exact hL | exact parts_sub hL (by decide) | with_reducible apply moves_fixRunTick
    | with_reducible apply moves_ite | dsimp only | split

theorem ends_execRunTick {s : State} (hL : ∀ p ∈ [Part.regs, .mode, .tb, .ptp, .frame, .lock, .loop, .acq, .io, .evr, .qcp, .sent,
    .clock], p ∈ L) : Ends L s (execRunTick s) := by
  have hs := Moves.refl L s
  unfold execRunTick
  repeat' first
    | with_reducible apply ends_next | with_reducible apply ends_ite | with_reducible exact hs | with_reducible exact hL
    | exact parts_sub hL (by decide) | with_reducible apply moves_advanceTo | with_reducible apply moves_cancelRunChange
    | with_reducible apply moves_enterMode | with_reducible apply moves_notify | with_reducible apply moves_setReg
    | with_reducible refine moves_updFrame ?_ ?_ (fun _ => ⟨rfl, rfl⟩)
    | with_reducible refine moves_updFrame ?_ ?_ (fun _ => by split <;> exact ⟨rfl, rfl⟩) | dsimp only | split

theorem ends_execRunTickConfirmDeadline {s : State} (hL : ∀ p ∈ [Part.regs, .tb, .frame, .pair, .qcp, .sent, .clock], p ∈ L) : Ends L s
    (execRunTickConfirmDeadline s) := by
  have hs := Moves.refl L s
  unfold execRunTickConfirmDeadline
  split
  · exact ends_next hs
  · extract_lets s0
    have h0 : Moves L s s0 := moves_advanceTo hs (parts_sub hL (by decide)) _
    clear_value s0
    exact ends_ite h0 (ends_ite (moves_cancelRunChange (moves_updPair h0 (parts_sub hL (by decide)) _) (parts_sub hL (by decide)))
      (moves_updFrame h0 (parts_sub hL (by decide)) fun _ => ⟨rfl, rfl⟩))

theorem ends_execModeSetRun {s : State} (hL : ∀ p ∈ [Part.regs, .frame, .evr, .qcp, .sent], p ∈ L) (p : Pkt) : Ends L s (execModeSetRun p
    s) := by
  have hs := Moves.refl L s
  unfold execModeSetRun
  repeat' first
    | with_reducible apply ends_next | with_reducible apply ends_ite | with_reducible exact hs | with_reducible exact hL
    | exact parts_sub hL (by decide) | with_reducible assumption | with_reducible refine moves_request ?_ ?_ _ _ _ _ _ (fun _ _ _ => ?_)
    | with_reducible apply moves_requestMode | with_reducible refine moves_requestMode_of (by assumption) ?_ ?_ | dsimp only | split

theorem ends_execModeSetStop {s : State} (hL : ∀ p ∈ [Part.regs, .frame, .evr, .qcp, .sent], p ∈ L) (p : Pkt) : Ends L s (execModeSetStop
    p s) := by
  have hs := Moves.refl L s
  unfold execModeSetStop
  repeat' first
    | with_reducible apply ends_next | with_reducible apply ends_ite | with_reducible exact hs | with_reducible exact hL
    | exact parts_sub hL (by decide) | with_reducible assumption | with_reducible refine moves_request ?_ ?_ _ _ _ _ _ (fun _ _ _ => ?_)
    | with_reducible apply moves_requestMode | with_reducible refine moves_requestMode_of (by assumption) ?_ ?_ | dsimp only | split

theorem ends_execModeSetHold {s : State} (hL : ∀ p ∈ [Part.regs, .frame, .evr, .qcp, .sent], p ∈ L) (p : Pkt) : Ends L s (execModeSetHold
    p s) := by
  have hs := Moves.refl L s
  unfold execModeSetHold
  repeat' first
    | with_reducible apply ends_next | with_reducible apply ends_ite | with_reducible exact hs | with_reducible exact hL
    | exact parts_sub hL (by decide) | with_reducible assumption | with_reducible refine moves_request ?_ ?_ _ _ _ _ _ (fun _ _ _ => ?_)
    | with_reducible apply moves_requestMode | with_reducible refine moves_requestMode_of (by assumption) ?_ ?_ | dsimp only | split

theorem ends_execModeSetSafe {s : State} (hL : ∀ p ∈ [Part.regs, .frame, .evr, .qcp, .sent], p ∈ L) (p : Pkt) : Ends L s (execModeSetSafe
    p s) := by
  have hs := Moves.refl L s
  unfold execModeSetSafe
  repeat' first
    | with_reducible apply ends_next | with_reducible apply ends_ite | with_reducible exact hs | with_reducible exact hL
    | exact parts_sub hL (by decide) | with_reducible assumption | with_reducible refine moves_request ?_ ?_ _ _ _ _ _ (fun _ _ _ => ?_)
    | with_reducible apply moves_requestMode | with_reducible refine moves_requestMode_of (by assumption) ?_ ?_ | dsimp only | split

theorem moves_runtimeFatal {z0 s : State} (hs : Moves L z0 s) (hL : ∀ p ∈ [Part.regs, .mode, .tb, .ptp, .frame, .lock, .loop, .acq, .io,
    .evr, .qcp, .sent, .clock], p ∈ L) : Moves L z0 (State.runtimeFatal s) := by
  unfold State.runtimeFatal
  repeat' first
    | with_reducible exact hs | with_reducible exact hL | exact parts_sub hL (by decide) | with_reducible apply moves_advanceTo
    | with_reducible apply moves_enterSafe | with_reducible apply moves_ite | dsimp only | split

theorem ends_execRuntimeFatalFault {s : State} (hL : ∀ p ∈ [Part.regs, .mode, .tb, .ptp, .frame, .lock, .loop, .acq, .io, .evr, .qcp,
    .sent, .clock], p ∈ L) : Ends L s (execRuntimeFatalFault s) := by
  have hs := Moves.refl L s
  unfold execRuntimeFatalFault
  repeat' first
    | with_reducible apply ends_next | with_reducible apply ends_ite | with_reducible exact hs | with_reducible exact hL
    | exact parts_sub hL (by decide) | with_reducible apply moves_runtimeFatal | dsimp only | split

theorem ends_execImageIntegrityFailure {s : State} (hL : ∀ p ∈ [Part.regs, .mode, .tb, .ptp, .frame, .lock, .loop, .acq, .io, .evr, .qcp,
    .sent, .clock], p ∈ L) : Ends L s (execImageIntegrityFailure s) := by
  have hs := Moves.refl L s
  unfold execImageIntegrityFailure
  repeat' first
    | with_reducible apply ends_next | with_reducible apply ends_ite | with_reducible exact hs | with_reducible exact hL
    | exact parts_sub hL (by decide) | with_reducible apply moves_advanceTo | with_reducible apply moves_enterSafe | dsimp only | split

end Sys2Proof.Machine
end

