-- ==== Sys2Proof/Laws/Moves/Applications.lean ====
section
/-!
SUPPORT. What each operation of Machine/Applications.lean may touch.
-/

namespace Sys2Proof.Machine

set_option linter.unusedTactic false
set_option linter.unreachableTactic false

variable {L : List Part}

theorem moves_fixApplication {z0 s : State} (hs : Moves L z0 s) (hL : ∀ p ∈ [Part.frame, .sent], p ∈ L) (e : AppEffect) (by_ : Option
    Requester) : Moves L z0 (State.fixApplication s e by_) := by
  unfold State.fixApplication
  repeat' first
    | with_reducible exact hs | with_reducible exact hL | exact parts_sub hL (by decide) | with_reducible apply moves_pass
    | with_reducible refine moves_updFrame ?_ ?_ (fun _ => ⟨rfl, rfl⟩)
    | with_reducible refine moves_updFrame ?_ ?_ (fun _ => by split <;> exact ⟨rfl, rfl⟩) | with_reducible apply moves_ite | dsimp only
    | split

theorem moves_showForce {z0 s : State} (hs : Moves L z0 s) (hL : ∀ p ∈ [Part.frame], p ∈ L) (p : Word) : Moves L z0 (State.showForce s p)
    := by
  unfold State.showForce
  repeat' first
    | with_reducible exact hs | with_reducible exact hL | exact parts_sub hL (by decide) | with_reducible apply moves_setPoint
    | with_reducible apply moves_ite | dsimp only | split

theorem moves_setForces {z0 s : State} (hs : Moves L z0 s) (hL : ∀ p ∈ [Part.frame], p ∈ L) (l : List (Nat × Word)) : Moves L z0
    (State.setForces s l) := by
  unfold State.setForces
  repeat' first
    | with_reducible exact hs | with_reducible exact hL | exact parts_sub hL (by decide)
    | with_reducible refine moves_updFrame ?_ ?_ (fun _ => ⟨rfl, rfl⟩)
    | with_reducible refine moves_updFrame ?_ ?_ (fun _ => by split <;> exact ⟨rfl, rfl⟩) | with_reducible apply moves_ite | dsimp only
    | split

theorem moves_showForces {z0 s : State} (hs : Moves L z0 s) (hL : ∀ p ∈ [Part.frame], p ∈ L) (l : List Nat) : Moves L z0 (State.showForces
    s l) := by
  induction l generalizing s with
  | nil => exact hs
  | cons x rest ih =>
    unfold State.showForces
    repeat' first
      | with_reducible exact hs | with_reducible exact hL | exact parts_sub hL (by decide) | with_reducible apply ih
      | with_reducible apply moves_showForce | with_reducible apply moves_ite | dsimp only | split

theorem moves_applyEffect {z0 s : State} (hs : Moves L z0 s) (hL : ∀ p ∈ [Part.regs, .wins, .frame, .loop, .trg, .io, .evr, .qcp, .sent],
    p ∈ L) (e : AppEffect) (by_ : Option Requester) : Moves L z0 (State.applyEffect s e by_) := by
  unfold State.applyEffect
  repeat' first
    | with_reducible exact hs | with_reducible exact hL | exact parts_sub hL (by decide) | with_reducible apply moves_applyDioCfg
    | with_reducible apply moves_applyHartCfg | with_reducible apply moves_applyLoop | with_reducible apply moves_lateAnswer
    | with_reducible apply moves_raiseQcp | with_reducible apply moves_setForces | with_reducible apply moves_setReg
    | with_reducible apply moves_showForce | with_reducible apply moves_showForces | with_reducible apply moves_ite | dsimp only | split

theorem moves_applyAll {z0 s : State} (hs : Moves L z0 s) (hL : ∀ p ∈ [Part.regs, .wins, .frame, .loop, .trg, .io, .evr, .qcp, .sent], p ∈
    L) (l : List Application) : Moves L z0 (State.applyAll s l) := by
  induction l generalizing s with
  | nil => exact hs
  | cons x rest ih =>
    unfold State.applyAll
    repeat' first
      | with_reducible exact hs | with_reducible exact hL | exact parts_sub hL (by decide) | with_reducible apply ih
      | with_reducible apply moves_applyEffect | with_reducible apply moves_ite | dsimp only | split

theorem ends_execApplicationTick {s : State} (hL : ∀ p ∈ [Part.regs, .wins, .tb, .frame, .loop, .trg, .io, .evr, .qcp, .sent, .clock], p ∈
    L) : Ends L s (execApplicationTick s) := by
  have hs := Moves.refl L s
  unfold execApplicationTick
  repeat' first
    | with_reducible apply ends_next | with_reducible apply ends_ite | with_reducible exact hs | with_reducible exact hL
    | exact parts_sub hL (by decide) | with_reducible apply moves_advanceTo | with_reducible apply moves_applyAll
    | with_reducible refine moves_updFrame ?_ ?_ (fun _ => ⟨rfl, rfl⟩)
    | with_reducible refine moves_updFrame ?_ ?_ (fun _ => by split <;> exact ⟨rfl, rfl⟩) | dsimp only | split

theorem moves_dropUnconfirmed {z0 s : State} (hs : Moves L z0 s) (hL : ∀ p ∈ [Part.pair, .evr], p ∈ L) (loop : Bool) : Moves L z0
    (State.dropUnconfirmed s loop) := by
  unfold State.dropUnconfirmed
  repeat' first
    | with_reducible exact hs | with_reducible exact hL | exact parts_sub hL (by decide) | with_reducible apply moves_raiseBlock
    | with_reducible apply moves_updPair | with_reducible apply moves_ite | dsimp only | split

theorem ends_execApplicationConfirmDeadline {s : State} (hL : ∀ p ∈ [Part.tb, .frame, .pair, .evr, .clock], p ∈ L) : Ends L s
    (execApplicationConfirmDeadline s) := by
  have hs := Moves.refl L s
  unfold execApplicationConfirmDeadline
  repeat' first
    | with_reducible apply ends_next | with_reducible apply ends_ite | with_reducible exact hs | with_reducible exact hL
    | exact parts_sub hL (by decide) | with_reducible apply moves_advanceTo | with_reducible apply moves_dropUnconfirmed
    | with_reducible apply moves_raiseBlock | with_reducible refine moves_updFrame ?_ ?_ (fun _ => ⟨rfl, rfl⟩)
    | with_reducible refine moves_updFrame ?_ ?_ (fun _ => by split <;> exact ⟨rfl, rfl⟩) | dsimp only | split

theorem ends_execPointRead {s : State} (hL : ∀ p ∈ [Part.evr, .qcp, .sent], p ∈ L) (p : Pkt) (refs : List Word) : Ends L s (execPointRead
    p refs s) := by
  have hs := Moves.refl L s
  unfold execPointRead
  repeat' first
    | with_reducible apply ends_next | with_reducible apply ends_ite | with_reducible exact hs | with_reducible exact hL
    | exact parts_sub hL (by decide) | with_reducible assumption | with_reducible refine moves_request ?_ ?_ _ _ _ _ _ (fun _ _ _ => ?_)
    | dsimp only | split

theorem moves_applyLater {z0 s : State} (hs : Moves L z0 s) (hL : ∀ p ∈ [Part.frame, .sent], p ∈ L) (e : AppEffect) (rq : Requester) :
    Moves L z0 (applyLater e s rq).1 := by
  unfold applyLater
  repeat' first
    | with_reducible exact hs | with_reducible exact hL | exact parts_sub hL (by decide) | with_reducible apply moves_fixApplication
    | with_reducible apply moves_iteFst | dsimp only | split

theorem moves_applyLater_of {z0 s t9 : State} {r9 : Option Reply} {e : AppEffect} {rq : Requester} (e9 : applyLater e s rq = (t9, r9)) (hs
    : Moves L z0 s) (hL : ∀ p ∈ [Part.frame, .sent], p ∈ L) : Moves L z0 t9 := by
  have := moves_applyLater hs hL e rq
  rw [e9] at this
  exact this

theorem ends_execPointForceSet {s : State} (hL : ∀ p ∈ [Part.frame, .evr, .qcp, .sent], p ∈ L) (p : Pkt) (point : Word) (value : Word)
    (zero : BitVec 24) : Ends L s (execPointForceSet p point value zero s) := by
  have hs := Moves.refl L s
  unfold execPointForceSet
  repeat' first
    | with_reducible apply ends_next | with_reducible apply ends_ite | with_reducible exact hs | with_reducible exact hL
    | exact parts_sub hL (by decide) | with_reducible assumption | with_reducible apply moves_applyLater
    | with_reducible refine moves_applyLater_of (by assumption) ?_ ?_
    | with_reducible refine moves_request ?_ ?_ _ _ _ _ _ (fun _ _ _ => ?_) | dsimp only | split

theorem ends_execPointRelease {s : State} (hL : ∀ p ∈ [Part.frame, .evr, .qcp, .sent], p ∈ L) (p : Pkt) (point : Word) (zero : BitVec 24)
    : Ends L s (execPointRelease p point zero s) := by
  have hs := Moves.refl L s
  unfold execPointRelease
  repeat' first
    | with_reducible apply ends_next | with_reducible apply ends_ite | with_reducible exact hs | with_reducible exact hL
    | exact parts_sub hL (by decide) | with_reducible assumption | with_reducible apply moves_applyLater
    | with_reducible refine moves_applyLater_of (by assumption) ?_ ?_
    | with_reducible refine moves_request ?_ ?_ _ _ _ _ _ (fun _ _ _ => ?_) | dsimp only | split

theorem ends_execPointReleaseAll {s : State} (hL : ∀ p ∈ [Part.frame, .evr, .qcp, .sent], p ∈ L) (p : Pkt) (zero : BitVec 24) : Ends L s
    (execPointReleaseAll p zero s) := by
  have hs := Moves.refl L s
  unfold execPointReleaseAll
  repeat' first
    | with_reducible apply ends_next | with_reducible apply ends_ite | with_reducible exact hs | with_reducible exact hL
    | exact parts_sub hL (by decide) | with_reducible assumption | with_reducible apply moves_applyLater
    | with_reducible refine moves_applyLater_of (by assumption) ?_ ?_
    | with_reducible refine moves_request ?_ ?_ _ _ _ _ _ (fun _ _ _ => ?_) | dsimp only | split

theorem moves_dropLoop {z0 s : State} (hs : Moves L z0 s) (hL : ∀ p ∈ [Part.staged], p ∈ L) (k : Nat) : Moves L z0 (State.dropLoop s k) :=
    by
  unfold State.dropLoop
  repeat' first
    | with_reducible exact hs | with_reducible rfl | with_reducible exact Or.inl rfl | with_reducible exact Or.inl ⟨rfl, rfl⟩
    | exact Or.inr (hL _ (by decide)) | with_reducible exact hL | exact parts_sub hL (by decide) | with_reducible apply moves_ite
    | dsimp only | split | fail_if_no_progress with_reducible apply moves_record

theorem moves_selectLoop {z0 s : State} (hs : Moves L z0 s) (hL : ∀ p ∈ [Part.regs, .staged], p ∈ L) (k : Nat) (page : Nat) : Moves L z0
    (State.selectLoop s k page) := by
  unfold State.selectLoop
  repeat' first
    | with_reducible exact hs | with_reducible exact hL | exact parts_sub hL (by decide) | with_reducible apply moves_dropLoop
    | with_reducible apply moves_setReg | with_reducible apply moves_ite | dsimp only | split

theorem moves_stageLoop {z0 s : State} (hs : Moves L z0 s) (hL : ∀ p ∈ [Part.staged], p ∈ L) (k : Nat) (page : Nat) (w : Nat) (v : Word) :
    Moves L z0 (State.stageLoop s k page w v) := by
  unfold State.stageLoop
  repeat' first
    | with_reducible exact hs | with_reducible exact hL | exact parts_sub hL (by decide) | with_reducible apply moves_stageWord
    | with_reducible apply moves_ite | dsimp only | split

theorem moves_stagePage {z0 s : State} (hs : Moves L z0 s) (hL : ∀ p ∈ [Part.staged], p ∈ L) (k : Nat) (page : Nat) (w : Nat) (l : List
    Word) : Moves L z0 (State.stagePage s k page w l) := by
  induction l generalizing s k page w with
  | nil => exact hs
  | cons x rest ih =>
    unfold State.stagePage
    repeat' first
      | with_reducible exact hs | with_reducible exact hL | exact parts_sub hL (by decide) | with_reducible apply ih
      | with_reducible apply moves_stageLoop | with_reducible apply moves_ite | dsimp only | split

theorem moves_commitLoop {z0 s : State} (hs : Moves L z0 s) (hL : ∀ p ∈ [Part.regs, .staged, .frame, .evr, .qcp, .sent], p ∈ L) (k : Nat)
    : Moves L z0 (State.commitLoop s k).1 := by
  unfold State.commitLoop
  repeat' first
    | with_reducible exact hs | with_reducible exact hL | exact parts_sub hL (by decide) | with_reducible apply moves_dropLoop
    | with_reducible apply moves_fixApplication | with_reducible apply moves_refuseCommit | with_reducible apply moves_releaseWindow
    | with_reducible apply moves_showCommit | with_reducible apply moves_iteFst | dsimp only | split

theorem moves_commitLoop_of {z0 s t9 : State} {r9 : Option (Status × Nat × Option (Owner × Owner))} {k : Nat} (e9 : State.commitLoop s k =
    (t9, r9)) (hs : Moves L z0 s) (hL : ∀ p ∈ [Part.regs, .staged, .frame, .evr, .qcp, .sent], p ∈ L) : Moves L z0 t9 := by
  have := moves_commitLoop hs hL k
  rw [e9] at this
  exact this

theorem ends_execLoopWindowRead {s : State} (hL : ∀ p ∈ [Part.evr, .qcp, .sent], p ∈ L) (p : Pkt) (slot : Byte) (page : Byte) (zero :
    Byte) : Ends L s (execLoopWindowRead p slot page zero s) := by
  have hs := Moves.refl L s
  unfold execLoopWindowRead
  repeat' first
    | with_reducible apply ends_next | with_reducible apply ends_ite | with_reducible exact hs | with_reducible exact hL
    | exact parts_sub hL (by decide) | with_reducible assumption | with_reducible refine moves_request ?_ ?_ _ _ _ _ _ (fun _ _ _ => ?_)
    | dsimp only | split

theorem moves_stageWindow {z0 s : State} (hs : Moves L z0 s) (hL : ∀ p ∈ [Part.regs, .staged, .qcp], p ∈ L) (slot : Nat) (page : Nat)
    (words : List Word) (next : State → State × Reply) (rq : Requester) (hnext : ∀ (u9 : State), Moves L z0 u9 → Moves L z0 (next u9).1) :
    Moves L z0 (stageWindow slot page words next s rq).1 := by
  unfold stageWindow
  repeat' first
    | with_reducible exact hs | with_reducible exact hL | exact parts_sub hL (by decide) | with_reducible apply hnext
    | with_reducible assumption | with_reducible apply moves_claimWindow | with_reducible apply moves_selectLoop
    | with_reducible apply moves_stagePage | with_reducible apply moves_iteFst | dsimp only | split

theorem ends_execLoopWindowStage {s : State} (hL : ∀ p ∈ [Part.regs, .staged, .evr, .qcp, .sent], p ∈ L) (p : Pkt) (slot : Byte) (page :
    Byte) (zero : Byte) (words : List Word) : Ends L s (execLoopWindowStage p slot page zero words s) := by
  have hs := Moves.refl L s
  unfold execLoopWindowStage
  repeat' first
    | with_reducible apply ends_next | with_reducible apply ends_ite | with_reducible exact hs | with_reducible exact hL
    | exact parts_sub hL (by decide) | with_reducible assumption | with_reducible refine moves_request ?_ ?_ _ _ _ _ _ (fun _ _ _ => ?_)
    | with_reducible refine moves_stageWindow ?_ ?_ _ _ _ _ _ (fun _ _ => ?_)
    | with_reducible refine moves_stageWindow_of (by assumption) ?_ ?_ | dsimp only | split

theorem ends_execLoopWindowCommit {s : State} (hL : ∀ p ∈ [Part.regs, .staged, .frame, .evr, .qcp, .sent], p ∈ L) (p : Pkt) (slot : Byte)
    (page : Byte) (zero : Byte) (words : List Word) : Ends L s (execLoopWindowCommit p slot page zero words s) := by
  have hs := Moves.refl L s
  unfold execLoopWindowCommit
  repeat' first
    | with_reducible apply ends_next | with_reducible apply ends_ite | with_reducible exact hs | with_reducible exact hL
    | exact parts_sub hL (by decide) | with_reducible assumption | with_reducible apply moves_commitLoop
    | with_reducible refine moves_commitLoop_of (by assumption) ?_ ?_
    | with_reducible refine moves_request ?_ ?_ _ _ _ _ _ (fun _ _ _ => ?_)
    | with_reducible refine moves_stageWindow ?_ ?_ _ _ _ _ _ (fun _ _ => ?_)
    | with_reducible refine moves_stageWindow_of (by assumption) ?_ ?_ | dsimp only | split

theorem ends_execNotchDesign {s : State} (hL : ∀ p ∈ [Part.regs, .loop, .evr, .qcp, .sent], p ∈ L) (p : Pkt) (f0 : Word) (width : Word)
    (depth : Word) (slot : Byte) (sect : Byte) (apply : Byte) (zero : Byte) : Ends L s (execNotchDesign p f0 width depth slot sect apply
    zero s) := by
  have hs := Moves.refl L s
  unfold execNotchDesign
  repeat' first
    | with_reducible apply ends_next | with_reducible apply ends_ite | with_reducible exact hs | with_reducible exact hL
    | exact parts_sub hL (by decide) | with_reducible assumption | with_reducible apply moves_claimWindow
    | with_reducible refine moves_request ?_ ?_ _ _ _ _ _ (fun _ _ _ => ?_) | with_reducible apply moves_startDesign
    | with_reducible refine moves_startDesign_of (by assumption) ?_ ?_ | dsimp only | split

theorem moves_applyDesign {z0 s : State} (hs : Moves L z0 s) (hL : ∀ p ∈ [Part.regs, .frame, .evr, .sent], p ∈ L) (d : Design) (c : List
    Word) : Moves L z0 (State.applyDesign s d c).1 := by
  unfold State.applyDesign
  repeat' first
    | with_reducible exact hs | with_reducible exact hL | exact parts_sub hL (by decide) | with_reducible apply moves_fixApplication
    | with_reducible apply moves_refuseCommit | with_reducible apply moves_showCommit | with_reducible apply moves_iteFst | dsimp only
    | split

theorem moves_applyDesign_of {z0 s t9 : State} {r9 : Option Reply} {d : Design} {c : List Word} (e9 : State.applyDesign s d c = (t9, r9))
    (hs : Moves L z0 s) (hL : ∀ p ∈ [Part.regs, .frame, .evr, .sent], p ∈ L) : Moves L z0 t9 := by
  have := moves_applyDesign hs hL d c
  rw [e9] at this
  exact this

theorem ends_execNotchDesignComplete {s : State} (hL : ∀ p ∈ [Part.regs, .frame, .loop, .evr, .qcp, .sent], p ∈ L) : Ends L s
    (execNotchDesignComplete s) := by
  have hs := Moves.refl L s
  unfold execNotchDesignComplete
  repeat' first
    | with_reducible apply ends_next | with_reducible apply ends_ite | with_reducible exact hs | with_reducible exact hL
    | exact parts_sub hL (by decide) | with_reducible assumption | with_reducible apply moves_applyDesign
    | with_reducible refine moves_applyDesign_of (by assumption) ?_ ?_ | with_reducible apply moves_lateAnswer
    | with_reducible apply moves_orReg | with_reducible apply moves_raise | with_reducible apply moves_releaseWindow
    | with_reducible apply moves_setRegs | with_reducible apply moves_showDesign | with_reducible apply moves_updLoop | dsimp only | split

end Sys2Proof.Machine
end

