-- ==== Sys2Proof/Laws/Moves/Can.lean ====
section
/-!
SUPPORT. What each operation of Machine/Can.lean may touch.
-/

namespace Sys2Proof.Machine

set_option linter.unusedTactic false
set_option linter.unreachableTactic false

variable {L : List Part}

theorem moves_canMonitor {z0 s : State} (hs : Moves L z0 s) (hL : ∀ p ∈ [Part.can0, .can1], p ∈ L) (ch : Nat) (f : CanFrame) (l : List
    Nat) : Moves L z0 (State.canMonitor s ch f l) := by
  induction l generalizing s ch f with
  | nil => exact hs
  | cons x rest ih =>
    unfold State.canMonitor
    repeat' first
      | with_reducible exact hs | with_reducible exact hL | exact parts_sub hL (by decide) | with_reducible apply ih
      | with_reducible apply moves_setCanBuf | with_reducible apply moves_ite | dsimp only | split

theorem ends_execCanFrameReceived {s : State} (hL : ∀ p ∈ [Part.regs, .can0, .can1, .evr], p ∈ L) (ch : Fin 2) (f : CanFrame) (stamp :
    Instant) : Ends L s (execCanFrameReceived ch f stamp s) := by
  have hs := Moves.refl L s
  unfold execCanFrameReceived
  repeat' first
    | with_reducible apply ends_next | with_reducible apply ends_ite | with_reducible exact hs | with_reducible exact hL
    | exact parts_sub hL (by decide) | with_reducible apply moves_canMonitor | with_reducible apply moves_canStore
    | with_reducible apply moves_incReg | with_reducible apply moves_setReg | dsimp only | split

theorem ends_execCanFrameTransmitted {s : State} (hL : ∀ p ∈ [Part.regs, .can0, .can1, .sent], p ∈ L) (ch : Fin 2) (b : Fin 64) (stamp :
    Instant) : Ends L s (execCanFrameTransmitted ch b stamp s) := by
  have hs := Moves.refl L s
  unfold execCanFrameTransmitted
  repeat' first
    | with_reducible apply ends_next | with_reducible apply ends_ite | with_reducible exact hs | with_reducible exact hL
    | exact parts_sub hL (by decide) | with_reducible apply moves_incReg | with_reducible apply moves_send
    | with_reducible apply moves_setCanBuf | with_reducible apply moves_setReg | dsimp only | split

theorem moves_canErrors {z0 s : State} (hs : Moves L z0 s) (hL : ∀ p ∈ [Part.regs], p ∈ L) (ch : Nat) (l : List (Fin 7 × Bool)) : Moves L
    z0 (State.canErrors s ch l) := by
  induction l generalizing s ch with
  | nil => exact hs
  | cons x rest ih =>
    unfold State.canErrors
    repeat' first
      | with_reducible exact hs | with_reducible exact hL | exact parts_sub hL (by decide) | with_reducible apply ih
      | with_reducible apply moves_incReg | with_reducible apply moves_setReg | with_reducible apply moves_ite | dsimp only | split

theorem ends_execCanErrorStateChange {s : State} (hL : ∀ p ∈ [Part.regs, .can0, .can1, .evr], p ∈ L) (ch : Fin 2) (e : CanErrors) : Ends L
    s (execCanErrorStateChange ch e s) := by
  have hs := Moves.refl L s
  unfold execCanErrorStateChange
  repeat' first
    | with_reducible apply ends_next | with_reducible apply ends_ite | with_reducible exact hs | with_reducible exact hL
    | exact parts_sub hL (by decide) | with_reducible apply moves_canErrors | with_reducible apply moves_incReg
    | with_reducible apply moves_putRegBit | with_reducible apply moves_raise | with_reducible apply moves_setCan | dsimp only | split

theorem ends_execCanBusOffRecovered {s : State} (hL : ∀ p ∈ [Part.can0, .can1, .evr], p ∈ L) (ch : Fin 2) : Ends L s
    (execCanBusOffRecovered ch s) := by
  have hs := Moves.refl L s
  unfold execCanBusOffRecovered
  repeat' first
    | with_reducible apply ends_next | with_reducible apply ends_ite | with_reducible exact hs | with_reducible exact hL
    | exact parts_sub hL (by decide) | with_reducible apply moves_raise | with_reducible apply moves_setCan | dsimp only | split

theorem moves_canRecover {z0 s : State} (hs : Moves L z0 s) (hL : ∀ p ∈ [Part.can0, .can1], p ∈ L) (ch : Nat) : Moves L z0
    (State.canRecover s ch) := by
  unfold State.canRecover
  repeat' first
    | with_reducible exact hs | with_reducible exact hL | exact parts_sub hL (by decide) | with_reducible apply moves_setCan
    | with_reducible apply moves_ite | dsimp only | split

theorem ends_execCanIntegrationComplete {s : State} (hL : ∀ p ∈ [Part.can0, .can1], p ∈ L) (ch : Fin 2) : Ends L s
    (execCanIntegrationComplete ch s) := by
  have hs := Moves.refl L s
  unfold execCanIntegrationComplete
  repeat' first
    | with_reducible apply ends_next | with_reducible apply ends_ite | with_reducible exact hs | with_reducible exact hL
    | exact parts_sub hL (by decide) | with_reducible apply moves_setCan | dsimp only | split

theorem moves_canLeave {z0 s : State} (hs : Moves L z0 s) (hL : ∀ p ∈ [Part.can0, .can1], p ∈ L) : Moves L z0 (State.canLeave s) := by
  unfold State.canLeave
  repeat' first
    | with_reducible exact hs | with_reducible rfl | with_reducible exact Or.inl rfl | with_reducible exact Or.inl ⟨rfl, rfl⟩
    | exact Or.inr (hL _ (by decide)) | with_reducible exact hL | exact parts_sub hL (by decide) | with_reducible apply moves_ite
    | dsimp only | split | fail_if_no_progress with_reducible apply moves_record

theorem moves_canQuiet {z0 s : State} (hs : Moves L z0 s) (hL : ∀ p ∈ [Part.can0, .can1], p ∈ L) (h : Nat) : Moves L z0 (State.canQuiet s
    h) := by
  unfold State.canQuiet
  repeat' first
    | with_reducible exact hs | with_reducible rfl | with_reducible exact Or.inl rfl | with_reducible exact Or.inl ⟨rfl, rfl⟩
    | exact Or.inr (hL _ (by decide)) | with_reducible exact hL | exact parts_sub hL (by decide) | with_reducible apply moves_ite
    | dsimp only | split | fail_if_no_progress with_reducible apply moves_record

theorem moves_canOwned {z0 s : State} (hs : Moves L z0 s) (hL : ∀ p ∈ [Part.regs, .evr], p ∈ L) (ch : Nat) (b : Nat) : Moves L z0
    (State.canOwned s ch b) := by
  unfold State.canOwned
  repeat' first
    | with_reducible exact hs | with_reducible exact hL | exact parts_sub hL (by decide) | with_reducible apply moves_noteConflict
    | with_reducible apply moves_setReg | with_reducible apply moves_ite | dsimp only | split

theorem moves_canPend {z0 s : State} (hs : Moves L z0 s) (hL : ∀ p ∈ [Part.can0, .can1], p ∈ L) (ch : Nat) (b : Nat) (f : CanFrame) :
    Moves L z0 (State.canPend s ch b f) := by
  unfold State.canPend
  repeat' first
    | with_reducible exact hs | with_reducible exact hL | exact parts_sub hL (by decide) | with_reducible apply moves_setCanBuf
    | with_reducible apply moves_ite | dsimp only | split

theorem moves_canSend {z0 s : State} (hs : Moves L z0 s) (hL : ∀ p ∈ [Part.regs, .can0, .can1, .evr], p ∈ L) (ch : Nat) (b : Nat) : Moves
    L z0 (State.canSend s ch b).1 := by
  unfold State.canSend
  repeat' first
    | with_reducible exact hs | with_reducible exact hL | exact parts_sub hL (by decide) | with_reducible apply moves_canOwned
    | with_reducible apply moves_canPend | with_reducible apply moves_iteFst | dsimp only | split

theorem moves_canSend_of {z0 s t9 : State} {r9 : Status} {ch : Nat} {b : Nat} (e9 : State.canSend s ch b = (t9, r9)) (hs : Moves L z0 s)
    (hL : ∀ p ∈ [Part.regs, .can0, .can1, .evr], p ∈ L) : Moves L z0 t9 := by
  have := moves_canSend hs hL ch b
  rw [e9] at this
  exact this

theorem moves_canAbort {z0 s : State} (hs : Moves L z0 s) (hL : ∀ p ∈ [Part.regs, .can0, .can1, .evr], p ∈ L) (ch : Nat) (b : Nat)
    (started : Bool) : Moves L z0 (State.canAbort s ch b started).1 := by
  unfold State.canAbort
  repeat' first
    | with_reducible exact hs | with_reducible exact hL | exact parts_sub hL (by decide) | with_reducible apply moves_canOwned
    | with_reducible apply moves_setCanBuf | with_reducible apply moves_iteFst | dsimp only | split

theorem moves_canAbort_of {z0 s t9 : State} {r9 : Status} {ch : Nat} {b : Nat} {started : Bool} (e9 : State.canAbort s ch b started = (t9,
    r9)) (hs : Moves L z0 s) (hL : ∀ p ∈ [Part.regs, .can0, .can1, .evr], p ∈ L) : Moves L z0 t9 := by
  have := moves_canAbort hs hL ch b started
  rw [e9] at this
  exact this

theorem moves_canQueue {z0 s : State} (hs : Moves L z0 s) (hL : ∀ p ∈ [Part.regs, .can0, .can1], p ∈ L) (ch : Nat) (b : Nat) : Moves L z0
    (State.canQueue s ch b) := by
  unfold State.canQueue
  repeat' first
    | with_reducible exact hs | with_reducible exact hL | exact parts_sub hL (by decide) | with_reducible apply moves_canPend
    | with_reducible apply moves_incReg | with_reducible apply moves_ite | dsimp only | split

theorem moves_canCommit {z0 s : State} (hs : Moves L z0 s) (hL : ∀ p ∈ [Part.regs, .can0, .can1], p ∈ L) : Moves L z0 (State.canCommit s)
    := by
  unfold State.canCommit
  repeat' first
    | with_reducible exact hs | with_reducible exact hL | exact parts_sub hL (by decide) | with_reducible assumption
    | with_reducible apply moves_canQueue | with_reducible refine moves_foldl (fun _ _ _ => ?_) ?_ | with_reducible apply moves_ite
    | dsimp only | split

theorem ends_execCanLockTimeout {s : State} (hL : ∀ p ∈ [Part.regs, .tb, .can0, .can1, .evr, .clock], p ∈ L) (ch : Fin 2) : Ends L s
    (execCanLockTimeout ch s) := by
  have hs := Moves.refl L s
  unfold execCanLockTimeout
  repeat' first
    | with_reducible apply ends_next | with_reducible apply ends_ite | with_reducible exact hs | with_reducible exact hL
    | exact parts_sub hL (by decide) | with_reducible apply moves_advanceUp | with_reducible apply moves_canRelease
    | with_reducible apply moves_incReg | with_reducible apply moves_putRegBit | with_reducible apply moves_raise | dsimp only | split

theorem moves_canSelect {z0 s : State} (hs : Moves L z0 s) (hL : ∀ p ∈ [Part.regs, .can0, .can1, .evr], p ∈ L) (ch : Nat) (b : Nat) :
    Moves L z0 (State.canSelect s ch b) := by
  unfold State.canSelect
  repeat' first
    | with_reducible exact hs | with_reducible exact hL | exact parts_sub hL (by decide) | with_reducible apply moves_canRelease
    | with_reducible apply moves_setReg | with_reducible apply moves_ite | dsimp only | split

theorem moves_canWriteWindow {z0 s : State} (hs : Moves L z0 s) (hL : ∀ p ∈ [Part.regs, .staged, .can0, .can1, .evr], p ∈ L) (ch : Nat) (w
    : Nat) (v : Word) : Moves L z0 (State.canWriteWindow s ch w v).1 := by
  unfold State.canWriteWindow
  repeat' first
    | with_reducible exact hs | with_reducible exact hL | exact parts_sub hL (by decide) | with_reducible apply moves_canOwned
    | with_reducible apply moves_setCanBuf | with_reducible apply moves_stageWord | with_reducible apply moves_iteFst | dsimp only | split

theorem moves_canWriteWindow_of {z0 s t9 : State} {r9 : Status} {ch : Nat} {w : Nat} {v : Word} (e9 : State.canWriteWindow s ch w v = (t9,
    r9)) (hs : Moves L z0 s) (hL : ∀ p ∈ [Part.regs, .staged, .can0, .can1, .evr], p ∈ L) : Moves L z0 t9 := by
  have := moves_canWriteWindow hs hL ch w v
  rw [e9] at this
  exact this

theorem moves_canCommitBuffer {z0 s : State} (hs : Moves L z0 s) (hL : ∀ p ∈ [Part.regs, .staged, .can0, .can1, .evr], p ∈ L) (ch : Nat) :
    Moves L z0 (State.canCommitBuffer s ch).1 := by
  unfold State.canCommitBuffer
  repeat' first
    | with_reducible exact hs | with_reducible exact hL | exact parts_sub hL (by decide) | with_reducible apply moves_canOwned
    | with_reducible apply moves_dropStaged | with_reducible apply moves_setCan | with_reducible apply moves_iteFst | dsimp only | split

theorem moves_canCommitBuffer_of {z0 s t9 : State} {r9 : Status} {ch : Nat} (e9 : State.canCommitBuffer s ch = (t9, r9)) (hs : Moves L z0
    s) (hL : ∀ p ∈ [Part.regs, .staged, .can0, .can1, .evr], p ∈ L) : Moves L z0 t9 := by
  have := moves_canCommitBuffer hs hL ch
  rw [e9] at this
  exact this

theorem moves_applyCan {z0 s : State} (hs : Moves L z0 s) (hL : ∀ p ∈ [Part.wins, .can0, .can1], p ∈ L) (ch : Nat) (l : List (Nat × List
    Word)) : Moves L z0 (State.applyCan s ch l) := by
  induction l generalizing s ch with
  | nil => exact hs
  | cons x rest ih =>
    unfold State.applyCan
    repeat' first
      | with_reducible exact hs | with_reducible exact hL | exact parts_sub hL (by decide) | with_reducible assumption
      | with_reducible apply ih | with_reducible apply moves_setCanBuf | with_reducible apply moves_setWin
      | with_reducible refine moves_foldl (fun _ _ _ => ?_) ?_ | with_reducible apply moves_ite | dsimp only | split

theorem moves_canTick {z0 s : State} (hs : Moves L z0 s) (hL : ∀ p ∈ [Part.wins, .can0, .can1], p ∈ L) : Moves L z0 (State.canTick s) :=
    by
  unfold State.canTick
  repeat' first
    | with_reducible exact hs | with_reducible rfl | with_reducible exact Or.inl rfl | with_reducible exact Or.inl ⟨rfl, rfl⟩
    | exact Or.inr (hL _ (by decide)) | with_reducible exact hL | exact parts_sub hL (by decide) | with_reducible apply moves_applyCan
    | with_reducible apply moves_ite | dsimp only | split | fail_if_no_progress with_reducible apply moves_record

theorem moves_canDetect {z0 s : State} (hs : Moves L z0 s) (hL : ∀ p ∈ [Part.regs, .can0, .can1], p ∈ L) (ch : Nat) : Moves L z0
    (State.canDetect s ch) := by
  unfold State.canDetect
  repeat' first
    | with_reducible exact hs | with_reducible exact hL | exact parts_sub hL (by decide) | with_reducible apply moves_setCan
    | with_reducible apply moves_setReg | with_reducible apply moves_ite | dsimp only | split

theorem ends_execCanAutobaudNominalDetected {s : State} (hL : ∀ p ∈ [Part.regs, .evr], p ∈ L) (ch : Fin 2) (r : Fin 5) : Ends L s
    (execCanAutobaudNominalDetected ch r s) := by
  have hs := Moves.refl L s
  unfold execCanAutobaudNominalDetected
  repeat' first
    | with_reducible apply ends_next | with_reducible apply ends_ite | with_reducible exact hs | with_reducible exact hL
    | exact parts_sub hL (by decide) | with_reducible apply moves_putRegBit | with_reducible apply moves_raise
    | with_reducible apply moves_setReg | dsimp only | split

theorem ends_execCanAutobaudDataDetected {s : State} (hL : ∀ p ∈ [Part.regs, .evr], p ∈ L) (ch : Fin 2) (r : Fin 4) : Ends L s
    (execCanAutobaudDataDetected ch r s) := by
  have hs := Moves.refl L s
  unfold execCanAutobaudDataDetected
  repeat' first
    | with_reducible apply ends_next | with_reducible apply ends_ite | with_reducible exact hs | with_reducible exact hL
    | exact parts_sub hL (by decide) | with_reducible apply moves_putReg | with_reducible apply moves_putRegBit
    | with_reducible apply moves_raise | with_reducible apply moves_setReg | dsimp only | split

theorem ends_execCanAutobaudTimeout {s : State} (hL : ∀ p ∈ [Part.regs, .tb, .evr, .clock], p ∈ L) (ch : Fin 2) : Ends L s
    (execCanAutobaudTimeout ch s) := by
  have hs := Moves.refl L s
  unfold execCanAutobaudTimeout
  repeat' first
    | with_reducible apply ends_next | with_reducible apply ends_ite | with_reducible exact hs | with_reducible exact hL
    | exact parts_sub hL (by decide) | with_reducible apply moves_advanceUp | with_reducible apply moves_putRegBit
    | with_reducible apply moves_raise | with_reducible apply moves_setReg | dsimp only | split

theorem moves_canClear {z0 s : State} (hs : Moves L z0 s) (hL : ∀ p ∈ [Part.regs], p ∈ L) (ch : Nat) : Moves L z0 (State.canClear s ch) :=
    by
  unfold State.canClear
  repeat' first
    | with_reducible exact hs | with_reducible exact hL | exact parts_sub hL (by decide) | with_reducible apply moves_zeroRegs
    | with_reducible apply moves_ite | dsimp only | split

end Sys2Proof.Machine
end

