-- ==== Sys2Proof/Laws/Moves/Clears.lean ====
section
/-!
SUPPORT. What each operation of Machine/Clears.lean may touch.
-/

namespace Sys2Proof.Machine

set_option linter.unusedTactic false
set_option linter.unreachableTactic false

variable {L : List Part}

theorem moves_pairClear {z0 s : State} (hs : Moves L z0 s) (hL : ∀ p ∈ [Part.regs], p ∈ L) : Moves L z0 (State.pairClear s) := by
  unfold State.pairClear
  repeat' first
    | with_reducible exact hs | with_reducible exact hL | exact parts_sub hL (by decide) | with_reducible assumption
    | with_reducible apply moves_setReg | with_reducible apply moves_zeroRegs | with_reducible refine moves_foldl (fun _ _ _ => ?_) ?_
    | with_reducible apply moves_ite | dsimp only | split

theorem moves_frameClear {z0 s : State} (hs : Moves L z0 s) (hL : ∀ p ∈ [Part.regs], p ∈ L) : Moves L z0 (State.frameClear s) := by
  unfold State.frameClear
  repeat' first
    | with_reducible exact hs | with_reducible exact hL | exact parts_sub hL (by decide) | with_reducible apply moves_zeroRegs
    | with_reducible apply moves_ite | dsimp only | split

theorem moves_taskClear {z0 s : State} (hs : Moves L z0 s) (hL : ∀ p ∈ [Part.regs], p ∈ L) : Moves L z0 (State.taskClear s) := by
  unfold State.taskClear
  repeat' first
    | with_reducible exact hs | with_reducible exact hL | exact parts_sub hL (by decide) | with_reducible apply moves_zeroRegs
    | with_reducible apply moves_ite | dsimp only | split

theorem moves_tackClear {z0 s : State} (hs : Moves L z0 s) (hL : ∀ p ∈ [Part.regs], p ∈ L) : Moves L z0 (State.tackClear s) := by
  unfold State.tackClear
  repeat' first
    | with_reducible exact hs | with_reducible exact hL | exact parts_sub hL (by decide) | with_reducible apply moves_zeroRegs
    | with_reducible apply moves_ite | dsimp only | split

theorem moves_imgClear {z0 s : State} (hs : Moves L z0 s) (hL : ∀ p ∈ [Part.regs], p ∈ L) : Moves L z0 (State.imgClear s) := by
  unfold State.imgClear
  repeat' first
    | with_reducible exact hs | with_reducible exact hL | exact parts_sub hL (by decide) | with_reducible apply moves_zeroRegs
    | with_reducible apply moves_ite | dsimp only | split

theorem moves_refClear {z0 s : State} (hs : Moves L z0 s) (hL : ∀ p ∈ [Part.regs], p ∈ L) (r : Nat) : Moves L z0 (State.refClear s r) :=
    by
  unfold State.refClear
  repeat' first
    | with_reducible exact hs | with_reducible exact hL | exact parts_sub hL (by decide) | with_reducible apply moves_zeroRegs
    | with_reducible apply moves_ite | dsimp only | split

theorem moves_portClear {z0 s : State} (hs : Moves L z0 s) (hL : ∀ p ∈ [Part.regs], p ∈ L) (p : Nat) : Moves L z0 (State.portClear s p) :=
    by
  unfold State.portClear
  repeat' first
    | with_reducible exact hs | with_reducible exact hL | exact parts_sub hL (by decide) | with_reducible apply moves_zeroRegs
    | with_reducible apply moves_ite | dsimp only | split

theorem moves_ptpClear {z0 s : State} (hs : Moves L z0 s) (hL : ∀ p ∈ [Part.regs], p ∈ L) : Moves L z0 (State.ptpClear s) := by
  unfold State.ptpClear
  repeat' first
    | with_reducible exact hs | with_reducible exact hL | exact parts_sub hL (by decide) | with_reducible apply moves_zeroRegs
    | with_reducible apply moves_ite | dsimp only | split

theorem moves_acqClear {z0 s : State} (hs : Moves L z0 s) (hL : ∀ p ∈ [Part.regs, .wins], p ∈ L) : Moves L z0 (State.acqClear s) := by
  unfold State.acqClear
  repeat' first
    | with_reducible exact hs | with_reducible exact hL | exact parts_sub hL (by decide) | with_reducible assumption
    | with_reducible apply moves_setWin | with_reducible apply moves_zeroRegs | with_reducible refine moves_foldl (fun _ _ _ => ?_) ?_
    | with_reducible apply moves_ite | dsimp only | split

theorem moves_achClear {z0 s : State} (hs : Moves L z0 s) (hL : ∀ p ∈ [Part.regs], p ∈ L) (n : Nat) : Moves L z0 (State.achClear s n) :=
    by
  unfold State.achClear
  repeat' first
    | with_reducible exact hs | with_reducible exact hL | exact parts_sub hL (by decide) | with_reducible apply moves_zeroRegs
    | with_reducible apply moves_ite | dsimp only | split

theorem moves_trgClear {z0 s : State} (hs : Moves L z0 s) (hL : ∀ p ∈ [Part.regs], p ∈ L) : Moves L z0 (State.trgClear s) := by
  unfold State.trgClear
  repeat' first
    | with_reducible exact hs | with_reducible exact hL | exact parts_sub hL (by decide) | with_reducible apply moves_zeroRegs
    | with_reducible apply moves_ite | dsimp only | split

theorem moves_tdcClear {z0 s : State} (hs : Moves L z0 s) (hL : ∀ p ∈ [Part.regs, .trg], p ∈ L) : Moves L z0 (State.tdcClear s) := by
  unfold State.tdcClear
  repeat' first
    | with_reducible exact hs | with_reducible exact hL | exact parts_sub hL (by decide) | with_reducible apply moves_updTrg
    | with_reducible apply moves_zeroRegs | with_reducible apply moves_ite | dsimp only | split

theorem moves_loopClear {z0 s : State} (hs : Moves L z0 s) (hL : ∀ p ∈ [Part.regs], p ∈ L) : Moves L z0 (State.loopClear s) := by
  unfold State.loopClear
  repeat' first
    | with_reducible exact hs | with_reducible exact hL | exact parts_sub hL (by decide) | with_reducible apply moves_zeroRegs
    | with_reducible apply moves_ite | dsimp only | split

theorem moves_lockClear {z0 s : State} (hs : Moves L z0 s) (hL : ∀ p ∈ [Part.regs], p ∈ L) : Moves L z0 (State.lockClear s) := by
  unfold State.lockClear
  repeat' first
    | with_reducible exact hs | with_reducible exact hL | exact parts_sub hL (by decide) | with_reducible apply moves_zeroRegs
    | with_reducible apply moves_ite | dsimp only | split

theorem moves_endLockout {z0 s : State} (hs : Moves L z0 s) (hL : ∀ p ∈ [Part.regs, .lock], p ∈ L) : Moves L z0 (State.endLockout s) := by
  unfold State.endLockout
  repeat' first
    | with_reducible exact hs | with_reducible exact hL | exact parts_sub hL (by decide) | with_reducible apply moves_putReg
    | with_reducible apply moves_putRegBit | with_reducible apply moves_updLock | with_reducible apply moves_ite | dsimp only | split

theorem moves_netClear {z0 s : State} (hs : Moves L z0 s) (hL : ∀ p ∈ [Part.regs, .qcp], p ∈ L) : Moves L z0 (State.netClear s) := by
  unfold State.netClear
  repeat' first
    | with_reducible exact hs | with_reducible exact hL | exact parts_sub hL (by decide) | with_reducible apply moves_updQcp
    | with_reducible apply moves_zeroRegs | with_reducible apply moves_ite | dsimp only | split

theorem moves_prpClear {z0 s : State} (hs : Moves L z0 s) (hL : ∀ p ∈ [Part.regs], p ∈ L) : Moves L z0 (State.prpClear s) := by
  unfold State.prpClear
  repeat' first
    | with_reducible exact hs | with_reducible exact hL | exact parts_sub hL (by decide) | with_reducible apply moves_zeroRegs
    | with_reducible apply moves_ite | dsimp only | split

end Sys2Proof.Machine
end

