-- ==== Sys2Proof/Laws/Moves/Pmu.lean ====
section
/-!
SUPPORT. What each operation of Machine/Pmu.lean may touch.
-/

namespace Sys2Proof.Machine

set_option linter.unusedTactic false
set_option linter.unreachableTactic false

variable {L : List Part}

theorem moves_setPmu {z0 s : State} (hs : Moves L z0 s) (hL : ∀ p ∈ [Part.acq], p ∈ L) (m : Nat) (p : PmuStream) : Moves L z0
    (State.setPmu s m p) := by
  unfold State.setPmu
  repeat' first
    | with_reducible exact hs | with_reducible exact hL | exact parts_sub hL (by decide) | with_reducible apply moves_updAcq
    | with_reducible apply moves_ite | dsimp only | split

theorem moves_sendPmu {z0 s : State} (hs : Moves L z0 s) (hL : ∀ p ∈ [Part.regs, .sent], p ∈ L) (kind : Message) (bytes : List Byte) :
    Moves L z0 (State.sendPmu s kind bytes) := by
  unfold State.sendPmu
  repeat' first
    | with_reducible exact hs | with_reducible exact hL | exact parts_sub hL (by decide) | with_reducible apply moves_emit
    | with_reducible apply moves_ite | dsimp only | split

theorem ends_execPmuDataFrameSend {s : State} (hL : ∀ p ∈ [Part.regs, .acq, .evr, .sent], p ∈ L) (m : Fin 16) : Ends L s
    (execPmuDataFrameSend m s) := by
  have hs := Moves.refl L s
  unfold execPmuDataFrameSend
  repeat' first
    | with_reducible apply ends_next | with_reducible apply ends_ite | with_reducible exact hs | with_reducible exact hL
    | exact parts_sub hL (by decide) | with_reducible apply moves_orReg | with_reducible apply moves_raise
    | with_reducible apply moves_satRegFld | with_reducible apply moves_sendPmu | with_reducible apply moves_setPmu | dsimp only | split

theorem ends_execPmuCommandReceived {s : State} (hL : ∀ p ∈ [Part.regs, .acq, .sent], p ∈ L) (m : Fin 16) (idcode : Half) (command : Half)
    : Ends L s (execPmuCommandReceived m idcode command s) := by
  have hs := Moves.refl L s
  unfold execPmuCommandReceived
  repeat' first
    | with_reducible apply ends_next | with_reducible apply ends_ite | with_reducible exact hs | with_reducible exact hL
    | exact parts_sub hL (by decide) | with_reducible apply moves_putReg | with_reducible apply moves_sendPmu
    | with_reducible apply moves_setPmu | dsimp only | split

theorem ends_execPmuTcpConnect {s : State} (hL : ∀ p ∈ [Part.regs, .evr], p ∈ L) (m : Fin 16) : Ends L s (execPmuTcpConnect m s) := by
  have hs := Moves.refl L s
  unfold execPmuTcpConnect
  repeat' first
    | with_reducible apply ends_next | with_reducible apply ends_ite | with_reducible exact hs | with_reducible exact hL
    | exact parts_sub hL (by decide) | with_reducible apply moves_putReg | with_reducible apply moves_raise | dsimp only | split

theorem ends_execPmuTcpDisconnect {s : State} (hL : ∀ p ∈ [Part.regs, .evr], p ∈ L) (m : Fin 16) : Ends L s (execPmuTcpDisconnect m s) :=
    by
  have hs := Moves.refl L s
  unfold execPmuTcpDisconnect
  repeat' first
    | with_reducible apply ends_next | with_reducible apply ends_ite | with_reducible exact hs | with_reducible exact hL
    | exact parts_sub hL (by decide) | with_reducible apply moves_putReg | with_reducible apply moves_raise | dsimp only | split

theorem moves_dropPmuClients {z0 s : State} (hs : Moves L z0 s) (hL : ∀ p ∈ [Part.regs, .evr], p ∈ L) : Moves L z0 (State.dropPmuClients
    s) := by
  unfold State.dropPmuClients
  repeat' first
    | with_reducible exact hs | with_reducible exact hL | exact parts_sub hL (by decide) | with_reducible assumption
    | with_reducible apply moves_endPmuClients | with_reducible apply moves_putReg
    | with_reducible refine moves_foldl (fun _ _ _ => ?_) ?_ | with_reducible apply moves_ite | dsimp only | split

theorem ends_execPmuCfgFlagExpiry {s : State} (hL : ∀ p ∈ [Part.acq], p ∈ L) (m : Fin 16) : Ends L s (execPmuCfgFlagExpiry m s) := by
  have hs := Moves.refl L s
  unfold execPmuCfgFlagExpiry
  repeat' first
    | with_reducible apply ends_next | with_reducible apply ends_ite | with_reducible exact hs | with_reducible exact hL
    | exact parts_sub hL (by decide) | with_reducible apply moves_setPmu | dsimp only | split

theorem moves_svDiscard {z0 s : State} (hs : Moves L z0 s) (hL : ∀ p ∈ [Part.regs], p ∈ L) : Moves L z0 (State.svDiscard s) := by
  unfold State.svDiscard
  repeat' first
    | with_reducible exact hs | with_reducible exact hL | exact parts_sub hL (by decide) | with_reducible apply moves_incReg
    | with_reducible apply moves_ite | dsimp only | split

theorem moves_svLose {z0 s : State} (hs : Moves L z0 s) (hL : ∀ p ∈ [Part.wins], p ∈ L) (k : Nat) (n : Nat) : Moves L z0 (State.svLose s k
    n) := by
  unfold State.svLose
  repeat' first
    | with_reducible exact hs | with_reducible exact hL | exact parts_sub hL (by decide) | with_reducible apply moves_setWin
    | with_reducible apply moves_ite | dsimp only | split

theorem moves_setSvState {z0 s : State} (hs : Moves L z0 s) (hL : ∀ p ∈ [Part.wins], p ∈ L) (k : Nat) (st : Nat) : Moves L z0
    (State.setSvState s k st) := by
  unfold State.setSvState
  repeat' first
    | with_reducible exact hs | with_reducible exact hL | exact parts_sub hL (by decide) | with_reducible apply moves_setWin
    | with_reducible apply moves_ite | dsimp only | split

theorem moves_svUnsynchronised {z0 s : State} (hs : Moves L z0 s) (hL : ∀ p ∈ [Part.regs, .wins, .evr], p ∈ L) (k : Nat) : Moves L z0
    (State.svUnsynchronised s k) := by
  unfold State.svUnsynchronised
  repeat' first
    | with_reducible exact hs | with_reducible exact hL | exact parts_sub hL (by decide) | with_reducible apply moves_orReg
    | with_reducible apply moves_raise | with_reducible apply moves_setSvState | with_reducible apply moves_ite | dsimp only | split

theorem moves_svLocal {z0 s : State} (hs : Moves L z0 s) (hL : ∀ p ∈ [Part.regs, .wins, .evr], p ∈ L) (k : Nat) (before : Nat) : Moves L
    z0 (State.svLocal s k before) := by
  unfold State.svLocal
  repeat' first
    | with_reducible exact hs | with_reducible exact hL | exact parts_sub hL (by decide) | with_reducible apply moves_orReg
    | with_reducible apply moves_raise | with_reducible apply moves_setSvState | with_reducible apply moves_ite | dsimp only | split

theorem moves_svStore {z0 s : State} (hs : Moves L z0 s) (hL : ∀ p ∈ [Part.regs, .wins, .acq, .evr], p ∈ L) (k : Nat) (rate : Nat) (f :
    SvFrame) : Moves L z0 (State.svStore s k rate f) := by
  unfold State.svStore
  repeat' first
    | with_reducible exact hs | with_reducible exact hL | exact parts_sub hL (by decide) | with_reducible apply moves_incReg
    | with_reducible apply moves_orReg | with_reducible apply moves_raise | with_reducible apply moves_svDiscard
    | with_reducible apply moves_svLose | with_reducible apply moves_updAcq | with_reducible apply moves_ite | dsimp only | split

theorem ends_execSvFrameReceived {s : State} (hL : ∀ p ∈ [Part.regs, .wins, .acq, .evr], p ∈ L) (f : SvFrame) : Ends L s
    (execSvFrameReceived f s) := by
  have hs := Moves.refl L s
  unfold execSvFrameReceived
  repeat' first
    | with_reducible apply ends_next | with_reducible apply ends_ite | with_reducible exact hs | with_reducible exact hL
    | exact parts_sub hL (by decide) | with_reducible apply moves_setSvState | with_reducible apply moves_svDiscard
    | with_reducible apply moves_svLocal | with_reducible apply moves_svStore | with_reducible apply moves_svUnsynchronised
    | with_reducible apply moves_updAcq | dsimp only | split

theorem ends_execSvStreamTimeout {s : State} (hL : ∀ p ∈ [Part.wins, .evr], p ∈ L) (k : Fin 64) : Ends L s (execSvStreamTimeout k s) := by
  have hs := Moves.refl L s
  unfold execSvStreamTimeout
  repeat' first
    | with_reducible apply ends_next | with_reducible apply ends_ite | with_reducible exact hs | with_reducible exact hL
    | exact parts_sub hL (by decide) | with_reducible apply moves_raise | with_reducible apply moves_setSvState | dsimp only | split

end Sys2Proof.Machine
end

