-- ==== Sys2Proof/Laws/Moves/Commits.lean ====
section
/-!
SUPPORT. What each operation of Machine/Commits.lean may touch.
-/

namespace Sys2Proof.Machine

set_option linter.unusedTactic false
set_option linter.unreachableTactic false

variable {L : List Part}

theorem moves_ok {z0 s : State} (hs : Moves L z0 s) : Moves L z0 (State.ok s).1 := by
  unfold State.ok
  repeat' first
    | with_reducible exact hs | with_reducible apply moves_iteFst | dsimp only | split

theorem moves_ok_of {z0 s t9 : State} {r9 : Option Reply} (e9 : State.ok s = (t9, r9)) (hs : Moves L z0 s) : Moves L z0 t9 := by
  have := moves_ok hs 
  rw [e9] at this
  exact this

theorem moves_answered {z0 : State} {r : State × Status} (hs : Moves L z0 r.1) : Moves L z0 (answered r).1 := hs

theorem moves_badParameter {z0 s : State} (hs : Moves L z0 s) : Moves L z0 (State.badParameter s).1 := by
  unfold State.badParameter
  repeat' first
    | with_reducible exact hs | with_reducible apply moves_iteFst | dsimp only | split

theorem moves_badParameter_of {z0 s t9 : State} {r9 : Option Reply} (e9 : State.badParameter s = (t9, r9)) (hs : Moves L z0 s) : Moves L
    z0 t9 := by
  have := moves_badParameter hs 
  rw [e9] at this
  exact this

theorem moves_conflict {z0 s : State} (hs : Moves L z0 s) (hL : ∀ p ∈ [Part.regs, .evr], p ∈ L) (resource : Nat × Nat) (x : Owner) (y :
    Owner) : Moves L z0 (State.conflict s resource x y).1 := by
  unfold State.conflict
  repeat' first
    | with_reducible exact hs | with_reducible exact hL | exact parts_sub hL (by decide) | with_reducible apply moves_noteConflict
    | with_reducible apply moves_iteFst | dsimp only | split

theorem moves_conflict_of {z0 s t9 : State} {r9 : Option Reply} {resource : Nat × Nat} {x : Owner} {y : Owner} (e9 : State.conflict s
    resource x y = (t9, r9)) (hs : Moves L z0 s) (hL : ∀ p ∈ [Part.regs, .evr], p ∈ L) : Moves L z0 t9 := by
  have := moves_conflict hs hL resource x y
  rw [e9] at this
  exact this

theorem moves_acqConflict {z0 s : State} (hs : Moves L z0 s) (hL : ∀ p ∈ [Part.regs, .evr], p ∈ L) (resource : Nat × Nat) (x : Owner) (y :
    Owner) : Moves L z0 (State.acqConflict s resource x y).1 := by
  unfold State.acqConflict
  repeat' first
    | with_reducible exact hs | with_reducible exact hL | exact parts_sub hL (by decide) | with_reducible assumption
    | with_reducible apply moves_conflict | with_reducible refine moves_conflict_of (by assumption) ?_ ?_
    | with_reducible apply moves_setReg | with_reducible apply moves_iteFst | dsimp only | split

theorem moves_acqConflict_of {z0 s t9 : State} {r9 : Option Reply} {resource : Nat × Nat} {x : Owner} {y : Owner} (e9 : State.acqConflict
    s resource x y = (t9, r9)) (hs : Moves L z0 s) (hL : ∀ p ∈ [Part.regs, .evr], p ∈ L) : Moves L z0 t9 := by
  have := moves_acqConflict hs hL resource x y
  rw [e9] at this
  exact this

theorem moves_commitPmu {z0 s : State} (hs : Moves L z0 s) (hL : ∀ p ∈ [Part.regs, .staged, .acq, .evr, .qcp], p ∈ L) (m : Nat) : Moves L
    z0 (State.commitPmu s m).1 := by
  unfold State.commitPmu
  repeat' first
    | with_reducible exact hs | with_reducible exact hL | exact parts_sub hL (by decide) | with_reducible assumption
    | with_reducible apply moves_acqConflict | with_reducible refine moves_acqConflict_of (by assumption) ?_ ?_
    | with_reducible apply moves_badParameter | with_reducible refine moves_badParameter_of (by assumption) ?_
    | with_reducible apply moves_dropStaged | with_reducible apply moves_ok | with_reducible refine moves_ok_of (by assumption) ?_
    | with_reducible apply moves_releaseWindow | with_reducible apply moves_setPmu | with_reducible apply moves_iteFst | dsimp only
    | split

theorem moves_commitPmu_of {z0 s t9 : State} {r9 : Option Reply} {m : Nat} (e9 : State.commitPmu s m = (t9, r9)) (hs : Moves L z0 s) (hL :
    ∀ p ∈ [Part.regs, .staged, .acq, .evr, .qcp], p ∈ L) : Moves L z0 t9 := by
  have := moves_commitPmu hs hL m
  rw [e9] at this
  exact this

theorem moves_commitSv {z0 s : State} (hs : Moves L z0 s) (hL : ∀ p ∈ [Part.regs, .staged, .acq, .evr, .qcp], p ∈ L) (k : Nat) : Moves L
    z0 (State.commitSv s k).1 := by
  unfold State.commitSv
  repeat' first
    | with_reducible exact hs | with_reducible exact hL | exact parts_sub hL (by decide) | with_reducible assumption
    | with_reducible apply moves_acqConflict | with_reducible refine moves_acqConflict_of (by assumption) ?_ ?_
    | with_reducible apply moves_badParameter | with_reducible refine moves_badParameter_of (by assumption) ?_
    | with_reducible apply moves_dropStaged | with_reducible apply moves_ok | with_reducible refine moves_ok_of (by assumption) ?_
    | with_reducible apply moves_releaseWindow | with_reducible apply moves_updAcq | with_reducible apply moves_iteFst | dsimp only
    | split

theorem moves_commitSv_of {z0 s t9 : State} {r9 : Option Reply} {k : Nat} (e9 : State.commitSv s k = (t9, r9)) (hs : Moves L z0 s) (hL : ∀
    p ∈ [Part.regs, .staged, .acq, .evr, .qcp], p ∈ L) : Moves L z0 t9 := by
  have := moves_commitSv hs hL k
  rw [e9] at this
  exact this

theorem moves_commitPattern {z0 s : State} (hs : Moves L z0 s) (hL : ∀ p ∈ [Part.staged, .trg, .qcp], p ∈ L) (u : Nat) : Moves L z0
    (State.commitPattern s u).1 := by
  unfold State.commitPattern
  repeat' first
    | with_reducible exact hs | with_reducible exact hL | exact parts_sub hL (by decide) | with_reducible assumption
    | with_reducible apply moves_badParameter | with_reducible refine moves_badParameter_of (by assumption) ?_
    | with_reducible apply moves_dropStaged | with_reducible apply moves_ok | with_reducible refine moves_ok_of (by assumption) ?_
    | with_reducible apply moves_releaseWindow | with_reducible apply moves_updTrg | with_reducible apply moves_iteFst | dsimp only
    | split

theorem moves_commitPattern_of {z0 s t9 : State} {r9 : Option Reply} {u : Nat} (e9 : State.commitPattern s u = (t9, r9)) (hs : Moves L z0
    s) (hL : ∀ p ∈ [Part.staged, .trg, .qcp], p ∈ L) : Moves L z0 t9 := by
  have := moves_commitPattern hs hL u
  rw [e9] at this
  exact this

theorem moves_commitProfile {z0 s : State} (hs : Moves L z0 s) (hL : ∀ p ∈ [Part.staged, .trg, .qcp], p ∈ L) (k : Nat) : Moves L z0
    (State.commitProfile s k).1 := by
  unfold State.commitProfile
  repeat' first
    | with_reducible exact hs | with_reducible exact hL | exact parts_sub hL (by decide) | with_reducible assumption
    | with_reducible apply moves_badParameter | with_reducible refine moves_badParameter_of (by assumption) ?_
    | with_reducible apply moves_dropStaged | with_reducible apply moves_ok | with_reducible refine moves_ok_of (by assumption) ?_
    | with_reducible apply moves_releaseWindow | with_reducible apply moves_updTrg | with_reducible apply moves_iteFst | dsimp only
    | split

theorem moves_commitProfile_of {z0 s t9 : State} {r9 : Option Reply} {k : Nat} (e9 : State.commitProfile s k = (t9, r9)) (hs : Moves L z0
    s) (hL : ∀ p ∈ [Part.staged, .trg, .qcp], p ∈ L) : Moves L z0 t9 := by
  have := moves_commitProfile hs hL k
  rw [e9] at this
  exact this

theorem moves_commitLine {z0 s : State} (hs : Moves L z0 s) (hL : ∀ p ∈ [Part.staged, .trg, .qcp], p ∈ L) (l : Nat) : Moves L z0
    (State.commitLine s l).1 := by
  unfold State.commitLine
  repeat' first
    | with_reducible exact hs | with_reducible exact hL | exact parts_sub hL (by decide) | with_reducible assumption
    | with_reducible apply moves_badParameter | with_reducible refine moves_badParameter_of (by assumption) ?_
    | with_reducible apply moves_dropStaged | with_reducible apply moves_ok | with_reducible refine moves_ok_of (by assumption) ?_
    | with_reducible apply moves_releaseWindow | with_reducible apply moves_updTrg | with_reducible apply moves_iteFst | dsimp only
    | split

theorem moves_commitLine_of {z0 s t9 : State} {r9 : Option Reply} {l : Nat} (e9 : State.commitLine s l = (t9, r9)) (hs : Moves L z0 s) (hL
    : ∀ p ∈ [Part.staged, .trg, .qcp], p ∈ L) : Moves L z0 t9 := by
  have := moves_commitLine hs hL l
  rw [e9] at this
  exact this

theorem moves_commitSelected {z0 s : State} (hs : Moves L z0 s) (hL : ∀ p ∈ [Part.regs, .staged, .frame, .evr, .qcp, .sent], p ∈ L) :
    Moves L z0 (State.commitSelected s).1 := by
  unfold State.commitSelected
  repeat' first
    | with_reducible exact hs | with_reducible exact hL | exact parts_sub hL (by decide) | with_reducible assumption
    | with_reducible apply moves_commitLoop | with_reducible refine moves_commitLoop_of (by assumption) ?_ ?_
    | with_reducible apply moves_ok | with_reducible refine moves_ok_of (by assumption) ?_ | with_reducible apply moves_iteFst
    | dsimp only | split

theorem moves_commitSelected_of {z0 s t9 : State} {r9 : Option Reply} (e9 : State.commitSelected s = (t9, r9)) (hs : Moves L z0 s) (hL : ∀
    p ∈ [Part.regs, .staged, .frame, .evr, .qcp, .sent], p ∈ L) : Moves L z0 t9 := by
  have := moves_commitSelected hs hL 
  rw [e9] at this
  exact this

theorem moves_designFromRegs {z0 s : State} (hs : Moves L z0 s) (hL : ∀ p ∈ [Part.regs, .loop], p ∈ L) : Moves L z0 (State.designFromRegs
    s).1 := by
  unfold State.designFromRegs
  repeat' first
    | with_reducible exact hs | with_reducible exact hL | exact parts_sub hL (by decide) | with_reducible assumption
    | with_reducible apply moves_ok | with_reducible refine moves_ok_of (by assumption) ?_ | with_reducible apply moves_startDesign
    | with_reducible refine moves_startDesign_of (by assumption) ?_ ?_ | with_reducible apply moves_iteFst | dsimp only | split

theorem moves_designFromRegs_of {z0 s t9 : State} {r9 : Option Reply} (e9 : State.designFromRegs s = (t9, r9)) (hs : Moves L z0 s) (hL : ∀
    p ∈ [Part.regs, .loop], p ∈ L) : Moves L z0 t9 := by
  have := moves_designFromRegs hs hL 
  rw [e9] at this
  exact this

theorem moves_commitStationWindow {z0 s : State} (hs : Moves L z0 s) (hL : ∀ p ∈ [Part.staged, .net, .qcp, .sent], p ∈ L) (n : Nat) :
    Moves L z0 (State.commitStationWindow s n).1 := by
  unfold State.commitStationWindow
  repeat' first
    | with_reducible exact hs | with_reducible exact hL | exact parts_sub hL (by decide) | with_reducible assumption
    | with_reducible apply moves_badParameter | with_reducible refine moves_badParameter_of (by assumption) ?_
    | with_reducible apply moves_commitStation | with_reducible apply moves_dropStaged | with_reducible apply moves_ok
    | with_reducible refine moves_ok_of (by assumption) ?_ | with_reducible apply moves_pass | with_reducible apply moves_releaseWindow
    | with_reducible apply moves_iteFst | dsimp only | split

theorem moves_commitStationWindow_of {z0 s t9 : State} {r9 : Option Reply} {n : Nat} (e9 : State.commitStationWindow s n = (t9, r9)) (hs :
    Moves L z0 s) (hL : ∀ p ∈ [Part.staged, .net, .qcp, .sent], p ∈ L) : Moves L z0 t9 := by
  have := moves_commitStationWindow hs hL n
  rw [e9] at this
  exact this

theorem moves_commitGoose {z0 s : State} (hs : Moves L z0 s) (hL : ∀ p ∈ [Part.staged, .net, .qcp], p ∈ L) (u : Nat) : Moves L z0
    (State.commitGoose s u).1 := by
  unfold State.commitGoose
  repeat' first
    | with_reducible exact hs | with_reducible exact hL | exact parts_sub hL (by decide) | with_reducible assumption
    | with_reducible apply moves_badParameter | with_reducible refine moves_badParameter_of (by assumption) ?_
    | with_reducible apply moves_dropStaged | with_reducible apply moves_ok | with_reducible refine moves_ok_of (by assumption) ?_
    | with_reducible apply moves_releaseWindow | with_reducible apply moves_updNet | with_reducible apply moves_iteFst | dsimp only
    | split

theorem moves_commitGoose_of {z0 s t9 : State} {r9 : Option Reply} {u : Nat} (e9 : State.commitGoose s u = (t9, r9)) (hs : Moves L z0 s)
    (hL : ∀ p ∈ [Part.staged, .net, .qcp], p ∈ L) : Moves L z0 t9 := by
  have := moves_commitGoose hs hL u
  rw [e9] at this
  exact this

theorem moves_commitCanBuffer {z0 s : State} (hs : Moves L z0 s) (hL : ∀ p ∈ [Part.regs, .staged, .can0, .can1, .evr, .qcp], p ∈ L) (ch :
    Nat) : Moves L z0 (State.commitCanBuffer s ch).1 := by
  unfold State.commitCanBuffer
  repeat' first
    | with_reducible exact hs | with_reducible exact hL | exact parts_sub hL (by decide) | with_reducible assumption
    | with_reducible apply moves_canCommitBuffer | with_reducible refine moves_canCommitBuffer_of (by assumption) ?_ ?_
    | with_reducible apply moves_ok | with_reducible refine moves_ok_of (by assumption) ?_ | with_reducible apply moves_releaseWindow
    | with_reducible apply moves_iteFst | dsimp only | split

theorem moves_commitCanBuffer_of {z0 s t9 : State} {r9 : Option Reply} {ch : Nat} (e9 : State.commitCanBuffer s ch = (t9, r9)) (hs : Moves
    L z0 s) (hL : ∀ p ∈ [Part.regs, .staged, .can0, .can1, .evr, .qcp], p ∈ L) : Moves L z0 t9 := by
  have := moves_commitCanBuffer hs hL ch
  rw [e9] at this
  exact this

end Sys2Proof.Machine
end

