-- ==== Sys2Proof/Laws/Moves/EventLog.lean ====
section
/-!
SUPPORT. What each operation of Machine/EventLog.lean may touch.
-/

namespace Sys2Proof.Machine

set_option linter.unusedTactic false
set_option linter.unreachableTactic false

variable {L : List Part}

theorem moves_addRecord {z0 s : State} (hs : Moves L z0 s) (hL : ∀ p ∈ [Part.evr], p ∈ L) (r : EventRecord) : Moves L z0 (State.addRecord
    s r) := by
  unfold State.addRecord
  repeat' first
    | with_reducible exact hs | with_reducible exact hL | exact parts_sub hL (by decide)
    | with_reducible refine moves_updEvrSame ?_ ?_ (fun _ => rfl) | with_reducible apply moves_ite | dsimp only | split

theorem moves_dropRecord {z0 s : State} (hs : Moves L z0 s) (hL : ∀ p ∈ [Part.evr], p ∈ L) (severity : Nat) : Moves L z0 (State.dropRecord
    s severity) := by
  unfold State.dropRecord
  repeat' first
    | with_reducible exact hs | with_reducible exact hL | exact parts_sub hL (by decide) | with_reducible apply moves_raiseBlock
    | with_reducible refine moves_updEvrSame ?_ ?_ (fun _ => rfl) | with_reducible apply moves_ite | dsimp only | split

theorem moves_makeRecord {z0 s : State} (hs : Moves L z0 s) (hL : ∀ p ∈ [Part.evr], p ∈ L) (r : EventRecord) : Moves L z0
    (State.makeRecord s r).1 := by
  unfold State.makeRecord
  repeat' first
    | with_reducible exact hs | with_reducible exact hL | exact parts_sub hL (by decide) | with_reducible apply moves_addRecord
    | with_reducible apply moves_dropRecord | with_reducible refine moves_updEvrSame ?_ ?_ (fun _ => rfl)
    | with_reducible apply moves_iteFst | dsimp only | split

theorem moves_makeRecord_of {z0 s t9 : State} {r9 : Bool} {r : EventRecord} (e9 : State.makeRecord s r = (t9, r9)) (hs : Moves L z0 s) (hL
    : ∀ p ∈ [Part.evr], p ∈ L) : Moves L z0 t9 := by
  have := moves_makeRecord hs hL r
  rw [e9] at this
  exact this

theorem moves_forwardRecord {z0 s : State} (hs : Moves L z0 s) (hL : ∀ p ∈ [Part.sent], p ∈ L) (r : EventRecord) : Moves L z0
    (State.forwardRecord s r) := by
  unfold State.forwardRecord
  repeat' first
    | with_reducible exact hs | with_reducible exact hL | exact parts_sub hL (by decide) | with_reducible apply moves_send
    | with_reducible apply moves_ite | dsimp only | split

theorem moves_recordEvent {z0 s : State} (hs : Moves L z0 s) (hL : ∀ p ∈ [Part.evr, .sent], p ∈ L) (e : RaisedEvent) : Moves L z0
    (State.recordEvent s e) := by
  unfold State.recordEvent
  repeat' first
    | with_reducible exact hs | with_reducible exact hL | exact parts_sub hL (by decide) | with_reducible assumption
    | with_reducible apply moves_forwardRecord | with_reducible apply moves_makeRecord
    | with_reducible refine moves_makeRecord_of (by assumption) ?_ ?_ | with_reducible refine moves_updEvrSame ?_ ?_ (fun _ => rfl)
    | with_reducible apply moves_ite | dsimp only | split

theorem ends_execEventRaised {s : State} (hL : ∀ p ∈ [Part.evr], p ∈ L) (code : Half) (source : Half) : Ends L s (execEventRaised code
    source s) := by
  have hs := Moves.refl L s
  unfold execEventRaised
  repeat' first
    | with_reducible apply ends_next | with_reducible apply ends_ite | with_reducible exact hs | with_reducible exact hL
    | exact parts_sub hL (by decide) | with_reducible apply moves_raise | dsimp only | split

theorem ends_execEventRecorded {s : State} (hL : ∀ p ∈ [Part.evr, .sent], p ∈ L) : Ends L s (execEventRecorded s) := by
  have hs := Moves.refl L s
  unfold execEventRecorded
  split
  · exact hs
  · next e rest h =>
    have h2 : Moves L s (s.updEvr fun x => { x with intake := rest }) := moves_updEvr hs (parts_sub hL (by decide)) fun hi => by
      rw [h, List.length_cons] at hi
      simpa using by omega
    exact ends_next (moves_recordEvent h2 (parts_sub hL (by decide)) _)

theorem ends_execIntakeOverflowReport {s : State} (hL : ∀ p ∈ [Part.evr], p ∈ L) : Ends L s (execIntakeOverflowReport s) := by
  have hs := Moves.refl L s
  unfold execIntakeOverflowReport
  repeat' first
    | with_reducible apply ends_next | with_reducible apply ends_ite | with_reducible exact hs | with_reducible exact hL
    | exact parts_sub hL (by decide) | with_reducible apply moves_raiseBlock | with_reducible refine moves_updEvrSame ?_ ?_ (fun _ => rfl)
    | dsimp only | split

theorem ends_execPartnerRecordReceived {s : State} (hL : ∀ p ∈ [Part.evr], p ∈ L) (r : EventRecord) : Ends L s (execPartnerRecordReceived
    r s) := by
  have hs := Moves.refl L s
  unfold execPartnerRecordReceived
  repeat' first
    | with_reducible apply ends_next | with_reducible apply ends_ite | with_reducible exact hs | with_reducible exact hL
    | exact parts_sub hL (by decide) | with_reducible assumption | with_reducible apply moves_makeRecord
    | with_reducible refine moves_makeRecord_of (by assumption) ?_ ?_ | dsimp only | split

theorem moves_setCursor {z0 s : State} (hs : Moves L z0 s) (hL : ∀ p ∈ [Part.evr, .qcp, .sent], p ∈ L) (f : State → Session → Nat) (p :
    Pkt) : Moves L z0 (setCursor f p s) := by
  unfold setCursor
  repeat' first
    | with_reducible exact hs | with_reducible exact hL | exact parts_sub hL (by decide) | with_reducible assumption
    | with_reducible refine moves_request ?_ ?_ _ _ _ _ _ (fun _ _ _ => ?_) | with_reducible apply moves_updSession
    | with_reducible apply moves_ite | dsimp only | split

theorem ends_execEvrCursorReport {s : State} (hL : ∀ p ∈ [Part.evr, .qcp, .sent], p ∈ L) (p : Pkt) : Ends L s (execEvrCursorReport p s) :=
    by
  have hs := Moves.refl L s
  unfold execEvrCursorReport
  repeat' first
    | with_reducible apply ends_next | with_reducible apply ends_ite | with_reducible exact hs | with_reducible exact hL
    | exact parts_sub hL (by decide) | with_reducible apply moves_setCursor | dsimp only | split

theorem ends_execEvrCursorOldest {s : State} (hL : ∀ p ∈ [Part.evr, .qcp, .sent], p ∈ L) (p : Pkt) : Ends L s (execEvrCursorOldest p s) :=
    by
  have hs := Moves.refl L s
  unfold execEvrCursorOldest
  repeat' first
    | with_reducible apply ends_next | with_reducible apply ends_ite | with_reducible exact hs | with_reducible exact hL
    | exact parts_sub hL (by decide) | with_reducible apply moves_setCursor | dsimp only | split

theorem ends_execEvrCursorNewest {s : State} (hL : ∀ p ∈ [Part.evr, .qcp, .sent], p ∈ L) (p : Pkt) : Ends L s (execEvrCursorNewest p s) :=
    by
  have hs := Moves.refl L s
  unfold execEvrCursorNewest
  repeat' first
    | with_reducible apply ends_next | with_reducible apply ends_ite | with_reducible exact hs | with_reducible exact hL
    | exact parts_sub hL (by decide) | with_reducible apply moves_setCursor | dsimp only | split

theorem ends_execEvrCursorSet {s : State} (hL : ∀ p ∈ [Part.evr, .qcp, .sent], p ∈ L) (p : Pkt) (v : Word) : Ends L s (execEvrCursorSet p
    v s) := by
  have hs := Moves.refl L s
  unfold execEvrCursorSet
  repeat' first
    | with_reducible apply ends_next | with_reducible apply ends_ite | with_reducible exact hs | with_reducible exact hL
    | exact parts_sub hL (by decide) | with_reducible apply moves_setCursor | dsimp only | split

theorem ends_execEvrRead {s : State} (hL : ∀ p ∈ [Part.evr, .qcp, .sent], p ∈ L) (p : Pkt) (count : Byte) : Ends L s (execEvrRead p count
    s) := by
  have hs := Moves.refl L s
  unfold execEvrRead
  repeat' first
    | with_reducible apply ends_next | with_reducible apply ends_ite | with_reducible exact hs | with_reducible exact hL
    | exact parts_sub hL (by decide) | with_reducible assumption | with_reducible refine moves_request ?_ ?_ _ _ _ _ _ (fun _ _ _ => ?_)
    | with_reducible apply moves_updSession | dsimp only | split

theorem moves_setWinCursor {z0 s : State} (hs : Moves L z0 s) (hL : ∀ p ∈ [Part.evr], p ∈ L) (v : Nat) : Moves L z0 (State.setWinCursor s
    v) := by
  unfold State.setWinCursor
  repeat' first
    | with_reducible exact hs | with_reducible exact hL | exact parts_sub hL (by decide)
    | with_reducible refine moves_updEvrSame ?_ ?_ (fun _ => rfl) | with_reducible apply moves_ite | dsimp only | split

theorem moves_advanceWindow {z0 s : State} (hs : Moves L z0 s) (hL : ∀ p ∈ [Part.evr], p ∈ L) : Moves L z0 (State.advanceWindow s) := by
  unfold State.advanceWindow
  repeat' first
    | with_reducible exact hs | with_reducible exact hL | exact parts_sub hL (by decide) | with_reducible apply moves_setWinCursor
    | with_reducible refine moves_updEvrSame ?_ ?_ (fun _ => rfl) | with_reducible apply moves_ite | dsimp only | split

theorem moves_ackFatal {z0 s : State} (hs : Moves L z0 s) (hL : ∀ p ∈ [Part.evr], p ∈ L) : Moves L z0 (State.ackFatal s) := by
  unfold State.ackFatal
  repeat' first
    | with_reducible exact hs | with_reducible exact hL | exact parts_sub hL (by decide)
    | with_reducible refine moves_updEvrSame ?_ ?_ (fun _ => rfl) | with_reducible apply moves_ite | dsimp only | split

theorem moves_evrClear {z0 s : State} (hs : Moves L z0 s) (hL : ∀ p ∈ [Part.evr], p ∈ L) : Moves L z0 (State.evrClear s) := by
  unfold State.evrClear
  repeat' first
    | with_reducible exact hs | with_reducible exact hL | exact parts_sub hL (by decide)
    | with_reducible refine moves_updEvrSame ?_ ?_ (fun _ => rfl) | with_reducible apply moves_ite | dsimp only | split

theorem moves_ownerClear {z0 s : State} (hs : Moves L z0 s) (hL : ∀ p ∈ [Part.evr, .qcp], p ∈ L) : Moves L z0 (State.ownerClear s) := by
  unfold State.ownerClear
  repeat' first
    | with_reducible exact hs | with_reducible exact hL | exact parts_sub hL (by decide) | with_reducible apply moves_raiseWith
    | with_reducible refine moves_updEvrSame ?_ ?_ (fun _ => rfl) | with_reducible apply moves_updEvr | exact fun _ => Nat.zero_le _
    | with_reducible apply moves_updQcp | with_reducible apply moves_ite | dsimp only | split

theorem ends_execEvrClear {s : State} (hL : ∀ p ∈ [Part.evr, .qcp, .sent], p ∈ L) (p : Pkt) (key : Half) : Ends L s (execEvrClear p key s)
    := by
  have hs := Moves.refl L s
  unfold execEvrClear
  repeat' first
    | with_reducible apply ends_next | with_reducible apply ends_ite | with_reducible exact hs | with_reducible exact hL
    | exact parts_sub hL (by decide) | with_reducible assumption | with_reducible apply moves_ownerClear
    | with_reducible refine moves_request ?_ ?_ _ _ _ _ _ (fun _ _ _ => ?_) | dsimp only | split

theorem moves_commitSnap {z0 s : State} (hs : Moves L z0 s) (hL : ∀ p ∈ [Part.wins, .staged, .evr], p ∈ L) (n : Nat) : Moves L z0
    (State.commitSnap s n).1 := by
  unfold State.commitSnap
  repeat' first
    | with_reducible exact hs | with_reducible exact hL | exact parts_sub hL (by decide) | with_reducible assumption
    | with_reducible apply moves_dropStaged | with_reducible apply moves_raiseBlock | with_reducible apply moves_setWin
    | with_reducible refine moves_foldl (fun _ _ _ => ?_) ?_ | with_reducible apply moves_iteFst | dsimp only | split

theorem moves_commitSnap_of {z0 s t9 : State} {r9 : Status} {n : Nat} (e9 : State.commitSnap s n = (t9, r9)) (hs : Moves L z0 s) (hL : ∀ p
    ∈ [Part.wins, .staged, .evr], p ∈ L) : Moves L z0 t9 := by
  have := moves_commitSnap hs hL n
  rw [e9] at this
  exact this

end Sys2Proof.Machine
end

