-- ==== Sys2Proof/Laws/Moves/Fabric.lean ====
section
/-!
SUPPORT. What each operation of Machine/Fabric.lean may touch.
-/

namespace Sys2Proof.Machine

set_option linter.unusedTactic false
set_option linter.unreachableTactic false

variable {L : List Part}

theorem moves_setDma {z0 s : State} (hs : Moves L z0 s) (hL : ∀ p ∈ [Part.fab], p ∈ L) (c : Nat) (x : DmaChannel) : Moves L z0
    (State.setDma s c x) := by
  unfold State.setDma
  repeat' first
    | with_reducible exact hs | with_reducible exact hL | exact parts_sub hL (by decide)
    | with_reducible refine moves_updFab ?_ ?_ (fun _ => rfl) | with_reducible apply moves_ite | dsimp only | split

theorem moves_dmaStart {z0 s : State} (hs : Moves L z0 s) (hL : ∀ p ∈ [Part.fab], p ∈ L) (c : Nat) : Moves L z0 (State.dmaStart s c) := by
  unfold State.dmaStart
  repeat' first
    | with_reducible exact hs | with_reducible exact hL | exact parts_sub hL (by decide) | with_reducible apply moves_setDma
    | with_reducible apply moves_ite | dsimp only | split

theorem moves_dmaConflict {z0 s : State} (hs : Moves L z0 s) (hL : ∀ p ∈ [Part.regs, .evr], p ∈ L) (c : Nat) : Moves L z0
    (State.dmaConflict s c) := by
  unfold State.dmaConflict
  repeat' first
    | with_reducible exact hs | with_reducible exact hL | exact parts_sub hL (by decide) | with_reducible apply moves_noteConflict
    | with_reducible apply moves_ite | dsimp only | split

theorem moves_sleeveWrite {z0 s : State} (hs : Moves L z0 s) (hL : ∀ p ∈ [Part.regs, .evr, .fab], p ∈ L) (c : Nat) (f : State → State ×
    Status) (hf : ∀ (u9 : State), Moves L z0 u9 → Moves L z0 (f u9).1) : Moves L z0 (State.sleeveWrite s c f).1 := by
  unfold State.sleeveWrite
  repeat' first
    | with_reducible exact hs | with_reducible exact hL | exact parts_sub hL (by decide) | with_reducible apply hf
    | with_reducible assumption | with_reducible apply moves_dmaConflict | with_reducible apply moves_setDma
    | with_reducible apply moves_iteFst | dsimp only | split

theorem moves_dmaControl {z0 s : State} (hs : Moves L z0 s) (hL : ∀ p ∈ [Part.regs, .evr, .fab], p ∈ L) (c : Nat) (v : Word) : Moves L z0
    (State.dmaControl s c v).1 := by
  unfold State.dmaControl
  repeat' first
    | with_reducible exact hs | with_reducible exact hL | exact parts_sub hL (by decide) | with_reducible assumption
    | with_reducible apply moves_dmaStart | with_reducible apply moves_setDma | with_reducible apply moves_setReg
    | with_reducible refine moves_sleeveWrite ?_ ?_ _ _ (fun _ _ => ?_) | with_reducible refine moves_sleeveWrite_of (by assumption) ?_ ?_
    | with_reducible apply moves_iteFst | dsimp only | split

theorem moves_dmaControl_of {z0 s t9 : State} {r9 : Status} {c : Nat} {v : Word} (e9 : State.dmaControl s c v = (t9, r9)) (hs : Moves L z0
    s) (hL : ∀ p ∈ [Part.regs, .evr, .fab], p ∈ L) : Moves L z0 t9 := by
  have := moves_dmaControl hs hL c v
  rw [e9] at this
  exact this

theorem moves_abortChannel {z0 s : State} (hs : Moves L z0 s) (hL : ∀ p ∈ [Part.regs, .evr, .fab], p ∈ L) (c : Nat) : Moves L z0
    (State.abortChannel s c) := by
  unfold State.abortChannel
  repeat' first
    | with_reducible exact hs | with_reducible exact hL | exact parts_sub hL (by decide) | with_reducible apply moves_orReg
    | with_reducible apply moves_raise | with_reducible apply moves_setDma | with_reducible apply moves_ite | dsimp only | split

theorem moves_startLoaded {z0 s : State} (hs : Moves L z0 s) (hL : ∀ p ∈ [Part.fab], p ∈ L) : Moves L z0 (State.startLoaded s) := by
  unfold State.startLoaded
  repeat' first
    | with_reducible exact hs | with_reducible exact hL | exact parts_sub hL (by decide) | with_reducible assumption
    | with_reducible apply moves_dmaStart | with_reducible refine moves_foldl (fun _ _ _ => ?_) ?_ | with_reducible apply moves_ite
    | dsimp only | split

theorem moves_recoverChannel {z0 s : State} (hs : Moves L z0 s) (hL : ∀ p ∈ [Part.regs, .evr, .fab], p ∈ L) (mask : Nat) (c : Nat) : Moves
    L z0 (State.recoverChannel s mask c) := by
  unfold State.recoverChannel
  repeat' first
    | with_reducible exact hs | with_reducible exact hL | exact parts_sub hL (by decide) | with_reducible apply moves_abortChannel
    | with_reducible apply moves_setDma | with_reducible apply moves_ite | dsimp only | split

theorem moves_dmaRecover {z0 s : State} (hs : Moves L z0 s) (hL : ∀ p ∈ [Part.regs, .evr, .fab], p ∈ L) (mask : Nat) : Moves L z0
    (State.dmaRecover s mask) := by
  unfold State.dmaRecover
  repeat' first
    | with_reducible exact hs | with_reducible exact hL | exact parts_sub hL (by decide) | with_reducible assumption
    | with_reducible apply moves_orReg | with_reducible apply moves_putRegBit | with_reducible apply moves_raiseBlock
    | with_reducible apply moves_recoverChannel | with_reducible apply moves_startLoaded
    | with_reducible refine moves_foldl (fun _ _ _ => ?_) ?_ | with_reducible apply moves_ite | dsimp only | split

theorem moves_dmaRecoverCmd {z0 s : State} (hs : Moves L z0 s) (hL : ∀ p ∈ [Part.regs, .evr, .fab], p ∈ L) (mask : Nat) : Moves L z0
    (State.dmaRecoverCmd s mask).1 := by
  unfold State.dmaRecoverCmd
  repeat' first
    | with_reducible exact hs | with_reducible exact hL | exact parts_sub hL (by decide) | with_reducible apply moves_dmaRecover
    | with_reducible apply moves_iteFst | dsimp only | split

theorem moves_dmaRecoverCmd_of {z0 s t9 : State} {r9 : Status} {mask : Nat} (e9 : State.dmaRecoverCmd s mask = (t9, r9)) (hs : Moves L z0
    s) (hL : ∀ p ∈ [Part.regs, .evr, .fab], p ∈ L) : Moves L z0 t9 := by
  have := moves_dmaRecoverCmd hs hL mask
  rw [e9] at this
  exact this

theorem ends_execDmaAutoRecover {s : State} (hL : ∀ p ∈ [Part.regs, .evr, .fab], p ∈ L) : Ends L s (execDmaAutoRecover s) := by
  have hs := Moves.refl L s
  unfold execDmaAutoRecover
  repeat' first
    | with_reducible apply ends_next | with_reducible apply ends_ite | with_reducible exact hs | with_reducible exact hL
    | exact parts_sub hL (by decide) | with_reducible apply moves_dmaRecover | dsimp only | split

theorem moves_dmaAbort {z0 s : State} (hs : Moves L z0 s) (hL : ∀ p ∈ [Part.regs, .evr, .fab], p ∈ L) (mask : Nat) : Moves L z0
    (State.dmaAbort s mask).1 := by
  unfold State.dmaAbort
  repeat' first
    | with_reducible exact hs | with_reducible exact hL | exact parts_sub hL (by decide) | with_reducible assumption
    | with_reducible apply moves_abortChannel | with_reducible apply moves_dmaConflict | with_reducible apply moves_setDma
    | with_reducible refine moves_foldl (fun _ _ _ => ?_) ?_ | with_reducible apply moves_iteFst | dsimp only | split

theorem moves_dmaAbort_of {z0 s t9 : State} {r9 : Status} {mask : Nat} (e9 : State.dmaAbort s mask = (t9, r9)) (hs : Moves L z0 s) (hL : ∀
    p ∈ [Part.regs, .evr, .fab], p ∈ L) : Moves L z0 t9 := by
  have := moves_dmaAbort hs hL mask
  rw [e9] at this
  exact this

theorem moves_dmaClear {z0 s : State} (hs : Moves L z0 s) (hL : ∀ p ∈ [Part.regs], p ∈ L) : Moves L z0 (State.dmaClear s) := by
  unfold State.dmaClear
  repeat' first
    | with_reducible exact hs | with_reducible exact hL | exact parts_sub hL (by decide) | with_reducible apply moves_zeroRegs
    | with_reducible apply moves_ite | dsimp only | split

theorem moves_countHit {z0 s : State} (hs : Moves L z0 s) (hL : ∀ p ∈ [Part.regs, .fab], p ∈ L) (n : Nat) (r : Nat) : Moves L z0
    (State.countHit s n r) := by
  unfold State.countHit
  repeat' first
    | with_reducible exact hs | with_reducible exact hL | exact parts_sub hL (by decide) | with_reducible apply moves_incReg
    | with_reducible refine moves_updFab ?_ ?_ (fun _ => rfl) | with_reducible apply moves_ite | dsimp only | split

theorem moves_logFault {z0 s : State} (hs : Moves L z0 s) (hL : ∀ p ∈ [Part.regs, .evr], p ∈ L) (n : Nat) (r : Nat) (x : Access) (priv :
    Bool) : Moves L z0 (State.logFault s n r x priv) := by
  unfold State.logFault
  repeat' first
    | with_reducible exact hs | with_reducible exact hL | exact parts_sub hL (by decide) | with_reducible apply moves_raise
    | with_reducible apply moves_setReg | with_reducible apply moves_ite | dsimp only | split

theorem moves_countCollarFault {z0 s : State} (hs : Moves L z0 s) (hL : ∀ p ∈ [Part.regs], p ∈ L) (n : Nat) (master : Nat) : Moves L z0
    (State.countCollarFault s n master) := by
  unfold State.countCollarFault
  repeat' first
    | with_reducible exact hs | with_reducible exact hL | exact parts_sub hL (by decide) | with_reducible apply moves_incReg
    | with_reducible apply moves_orReg | with_reducible apply moves_satRegFld | with_reducible apply moves_ite | dsimp only | split

theorem moves_collarCommit {z0 s : State} (hs : Moves L z0 s) (hL : ∀ p ∈ [Part.staged, .fab, .sent], p ∈ L) : Moves L z0
    (State.collarCommit s).1 := by
  unfold State.collarCommit
  repeat' first
    | with_reducible exact hs | with_reducible exact hL | exact parts_sub hL (by decide) | with_reducible assumption
    | with_reducible apply moves_dropStaged | with_reducible apply moves_pass | with_reducible refine moves_updFab ?_ ?_ (fun _ => rfl)
    | with_reducible refine moves_foldl (fun _ _ _ => ?_) ?_ | with_reducible apply moves_iteFst | dsimp only | split

theorem moves_collarCommit_of {z0 s t9 : State} {r9 : Status} (e9 : State.collarCommit s = (t9, r9)) (hs : Moves L z0 s) (hL : ∀ p ∈
    [Part.staged, .fab, .sent], p ∈ L) : Moves L z0 t9 := by
  have := moves_collarCommit hs hL 
  rw [e9] at this
  exact this

theorem moves_applyRules {z0 s : State} (hs : Moves L z0 s) (hL : ∀ p ∈ [Part.regs, .wins, .evr, .fab], p ∈ L) (n : Nat) (ws : List Word)
    : Moves L z0 (State.applyRules s n ws) := by
  unfold State.applyRules
  repeat' first
    | with_reducible exact hs | with_reducible exact hL | exact parts_sub hL (by decide) | with_reducible assumption
    | with_reducible apply moves_incReg | with_reducible apply moves_putReg | with_reducible apply moves_raise
    | with_reducible apply moves_setWin | with_reducible refine moves_updFab ?_ ?_ (fun _ => rfl)
    | with_reducible refine moves_foldl (fun _ _ _ => ?_) ?_ | with_reducible apply moves_ite | dsimp only | split

theorem moves_fabricTick {z0 s : State} (hs : Moves L z0 s) (hL : ∀ p ∈ [Part.regs, .wins, .evr, .fab], p ∈ L) : Moves L z0
    (State.fabricTick s) := by
  unfold State.fabricTick
  repeat' first
    | with_reducible exact hs | with_reducible exact hL | exact parts_sub hL (by decide) | with_reducible assumption
    | with_reducible apply moves_applyRules | with_reducible refine moves_updFab ?_ ?_ (fun _ => rfl)
    | with_reducible refine moves_foldl (fun _ _ _ => ?_) ?_ | with_reducible apply moves_ite | dsimp only | split

theorem moves_startFence {z0 s : State} (hs : Moves L z0 s) (hL : ∀ p ∈ [Part.fab], p ∈ L) (mask : Nat) (by_ : Option (Nat × Requester)) :
    Moves L z0 (State.startFence s mask by_) := by
  unfold State.startFence
  repeat' first
    | with_reducible exact hs | with_reducible exact hL | exact parts_sub hL (by decide)
    | with_reducible refine moves_updFab ?_ ?_ (fun _ => rfl) | with_reducible apply moves_ite | dsimp only | split

theorem moves_answerFence {z0 s : State} (hs : Moves L z0 s) (hL : ∀ p ∈ [Part.qcp, .sent], p ∈ L) (by_ : Option (Nat × Requester)) (r :
    Reply) : Moves L z0 (State.answerFence s by_ r) := by
  unfold State.answerFence
  repeat' first
    | with_reducible exact hs | with_reducible exact hL | exact parts_sub hL (by decide) | with_reducible apply moves_lateAnswer
    | with_reducible apply moves_ite | dsimp only | split

theorem moves_endFence {z0 s : State} (hs : Moves L z0 s) (hL : ∀ p ∈ [Part.regs, .tb, .evr, .fab, .qcp, .sent, .clock], p ∈ L) : Moves L
    z0 (State.endFence s) := by
  unfold State.endFence
  repeat' first
    | with_reducible exact hs | with_reducible exact hL | exact parts_sub hL (by decide) | with_reducible apply moves_advanceUp
    | with_reducible apply moves_answerFence | with_reducible apply moves_orReg | with_reducible apply moves_raiseBlock
    | with_reducible apply moves_setReg | with_reducible refine moves_updFab ?_ ?_ (fun _ => rfl) | with_reducible apply moves_ite
    | dsimp only | split

theorem ends_execFenceComplete {s : State} (hL : ∀ p ∈ [Part.regs, .tb, .evr, .fab, .qcp, .sent, .clock], p ∈ L) (ns : Word) : Ends L s
    (execFenceComplete ns s) := by
  have hs := Moves.refl L s
  unfold execFenceComplete
  repeat' first
    | with_reducible apply ends_next | with_reducible apply ends_ite | with_reducible exact hs | with_reducible exact hL
    | exact parts_sub hL (by decide) | with_reducible apply moves_advanceUp | with_reducible apply moves_answerFence
    | with_reducible apply moves_endFence | with_reducible apply moves_setReg | with_reducible refine moves_updFab ?_ ?_ (fun _ => rfl)
    | dsimp only | split

theorem ends_execFenceTimeout {s : State} (hL : ∀ p ∈ [Part.regs, .tb, .evr, .fab, .qcp, .sent, .clock], p ∈ L) : Ends L s
    (execFenceTimeout s) := by
  have hs := Moves.refl L s
  unfold execFenceTimeout
  repeat' first
    | with_reducible apply ends_next | with_reducible apply ends_ite | with_reducible exact hs | with_reducible exact hL
    | exact parts_sub hL (by decide) | with_reducible apply moves_endFence | dsimp only | split

theorem moves_collarClear {z0 s : State} (hs : Moves L z0 s) (hL : ∀ p ∈ [Part.regs], p ∈ L) : Moves L z0 (State.collarClear s) := by
  unfold State.collarClear
  repeat' first
    | with_reducible exact hs | with_reducible exact hL | exact parts_sub hL (by decide) | with_reducible assumption
    | with_reducible apply moves_putReg | with_reducible apply moves_zeroRegs | with_reducible refine moves_foldl (fun _ _ _ => ?_) ?_
    | with_reducible apply moves_ite | dsimp only | split

theorem moves_noteCuff {z0 s : State} (hs : Moves L z0 s) (hL : ∀ p ∈ [Part.regs], p ∈ L) (cause : Nat) (n : Nat) (master : Nat) (failed :
    Nat) : Moves L z0 (State.noteCuff s cause n master failed) := by
  unfold State.noteCuff
  repeat' first
    | with_reducible exact hs | with_reducible exact hL | exact parts_sub hL (by decide) | with_reducible apply moves_setReg
    | with_reducible apply moves_ite | dsimp only | split

theorem ends_execCuffSideReset {s : State} (hL : ∀ p ∈ [Part.regs, .evr], p ∈ L) (n : Fin 12) (fabricSide : Bool) (failed : Half) : Ends L
    s (execCuffSideReset n fabricSide failed s) := by
  have hs := Moves.refl L s
  unfold execCuffSideReset
  repeat' first
    | with_reducible apply ends_next | with_reducible apply ends_ite | with_reducible exact hs | with_reducible exact hL
    | exact parts_sub hL (by decide) | with_reducible apply moves_noteCuff | with_reducible apply moves_orReg
    | with_reducible apply moves_putRegBit | with_reducible apply moves_raise | with_reducible apply moves_satRegFld | dsimp only | split

theorem ends_execCuffSideRunning {s : State} (hL : ∀ p ∈ [Part.regs, .evr], p ∈ L) (n : Fin 12) (fabricSide : Bool) : Ends L s
    (execCuffSideRunning n fabricSide s) := by
  have hs := Moves.refl L s
  unfold execCuffSideRunning
  repeat' first
    | with_reducible apply ends_next | with_reducible apply ends_ite | with_reducible exact hs | with_reducible exact hL
    | exact parts_sub hL (by decide) | with_reducible apply moves_putRegBit | with_reducible apply moves_raise | dsimp only | split

theorem moves_cuffClear {z0 s : State} (hs : Moves L z0 s) (hL : ∀ p ∈ [Part.regs], p ∈ L) : Moves L z0 (State.cuffClear s) := by
  unfold State.cuffClear
  repeat' first
    | with_reducible exact hs | with_reducible exact hL | exact parts_sub hL (by decide) | with_reducible apply moves_zeroRegs
    | with_reducible apply moves_ite | dsimp only | split

end Sys2Proof.Machine
end

