-- ==== Sys2Proof/Laws/Moves/Updates.lean ====
section
/-!
SUPPORT. What each operation of Machine/Updates.lean may touch.
-/

namespace Sys2Proof.Machine

set_option linter.unusedTactic false
set_option linter.unreachableTactic false

variable {L : List Part}

theorem moves_updPower {z0 s : State} (hs : Moves L z0 s) (hL : ∀ p ∈ [Part.power], p ∈ L) (f : Power → Power) : Moves L z0
    (State.updPower s f) := by
  unfold State.updPower
  repeat' first
    | with_reducible exact hs | with_reducible rfl | with_reducible exact Or.inl rfl | with_reducible exact Or.inl ⟨rfl, rfl⟩
    | exact Or.inr (hL _ (by decide)) | with_reducible exact hL | exact parts_sub hL (by decide) | with_reducible apply moves_ite
    | dsimp only | split | fail_if_no_progress with_reducible apply moves_record

theorem moves_setComponentState {z0 s : State} (hs : Moves L z0 s) (hL : ∀ p ∈ [Part.regs], p ∈ L) (k : Nat) (b : Nat) (st : Nat) : Moves
    L z0 (State.setComponentState s k b st) := by
  unfold State.setComponentState
  repeat' first
    | with_reducible exact hs | with_reducible exact hL | exact parts_sub hL (by decide) | with_reducible apply moves_putReg
    | with_reducible apply moves_ite | dsimp only | split

theorem moves_showComponent {z0 s : State} (hs : Moves L z0 s) (hL : ∀ p ∈ [Part.regs], p ∈ L) (k : Nat) : Moves L z0 (State.showComponent
    s k) := by
  unfold State.showComponent
  repeat' first
    | with_reducible exact hs | with_reducible exact hL | exact parts_sub hL (by decide) | with_reducible apply moves_putReg
    | with_reducible apply moves_setReg | with_reducible apply moves_ite | dsimp only | split

theorem moves_setPackage {z0 s : State} (hs : Moves L z0 s) (hL : ∀ p ∈ [Part.regs, .trust], p ∈ L) (k : Nat) (b : Nat) (x : Package) :
    Moves L z0 (State.setPackage s k b x) := by
  unfold State.setPackage
  repeat' first
    | with_reducible exact hs | with_reducible exact hL | exact parts_sub hL (by decide) | with_reducible apply moves_showComponent
    | with_reducible refine moves_updTrust ?_ ?_ (fun _ => rfl) | with_reducible apply moves_ite | dsimp only | split

theorem moves_noteRefusal {z0 s : State} (hs : Moves L z0 s) (hL : ∀ p ∈ [Part.regs], p ∈ L) (k : Nat) (r : Reply) : Moves L z0
    (State.noteRefusal s k r) := by
  unfold State.noteRefusal
  repeat' first
    | with_reducible exact hs | with_reducible exact hL | exact parts_sub hL (by decide) | with_reducible apply moves_orReg
    | with_reducible apply moves_setReg | with_reducible apply moves_ite | dsimp only | split

theorem moves_openComponent {z0 s : State} (hs : Moves L z0 s) (hL : ∀ p ∈ [Part.regs, .evr, .qcp], p ∈ L) (k : Nat) (size : Nat) (digest
    : BitVec 256) (rq : Requester) : Moves L z0 (State.openComponent s k size digest rq).1 := by
  unfold State.openComponent
  repeat' first
    | with_reducible exact hs | with_reducible exact hL | exact parts_sub hL (by decide) | with_reducible assumption
    | with_reducible apply moves_dropHandle | with_reducible apply moves_openHandle
    | with_reducible refine moves_openHandle_of (by assumption) ?_ ?_ | with_reducible apply moves_setOtherBank
    | with_reducible apply moves_iteFst | dsimp only | split

theorem moves_openComponent_of {z0 s t9 : State} {r9 : Reply} {k : Nat} {size : Nat} {digest : BitVec 256} {rq : Requester} (e9 :
    State.openComponent s k size digest rq = (t9, r9)) (hs : Moves L z0 s) (hL : ∀ p ∈ [Part.regs, .evr, .qcp], p ∈ L) : Moves L z0 t9 :=
    by
  have := moves_openComponent hs hL k size digest rq
  rw [e9] at this
  exact this

theorem ends_execUpdBegin {s : State} (hL : ∀ p ∈ [Part.regs, .evr, .qcp, .sent], p ∈ L) (p : Pkt) (component : Byte) (zero : BitVec 24)
    (size : Word) (digest : BitVec 256) : Ends L s (execUpdBegin p component zero size digest s) := by
  have hs := Moves.refl L s
  unfold execUpdBegin
  repeat' first
    | with_reducible apply ends_next | with_reducible apply ends_ite | with_reducible exact hs | with_reducible exact hL
    | exact parts_sub hL (by decide) | with_reducible assumption | with_reducible apply moves_noteRefusal
    | with_reducible apply moves_openComponent | with_reducible refine moves_openComponent_of (by assumption) ?_ ?_
    | with_reducible refine moves_request ?_ ?_ _ _ _ _ _ (fun _ _ _ => ?_) | dsimp only | split

theorem ends_execUpdChunk {s : State} (hL : ∀ p ∈ [Part.evr, .qcp, .sent], p ∈ L) (p : Pkt) (handle : Word) (index : Word) (data : List
    Byte) : Ends L s (execUpdChunk p handle index data s) := by
  have hs := Moves.refl L s
  unfold execUpdChunk
  repeat' first
    | with_reducible apply ends_next | with_reducible apply ends_ite | with_reducible exact hs | with_reducible exact hL
    | exact parts_sub hL (by decide) | with_reducible assumption | with_reducible refine moves_request ?_ ?_ _ _ _ _ _ (fun _ _ _ => ?_)
    | with_reducible apply moves_setHandle | dsimp only | split

theorem ends_execUpdVerify {s : State} (hL : ∀ p ∈ [Part.regs, .evr, .trust, .qcp, .sent], p ∈ L) (p : Pkt) (handle : Word) : Ends L s
    (execUpdVerify p handle s) := by
  have hs := Moves.refl L s
  unfold execUpdVerify
  repeat' first
    | with_reducible apply ends_next | with_reducible apply ends_ite | with_reducible exact hs | with_reducible exact hL
    | exact parts_sub hL (by decide) | with_reducible assumption | with_reducible apply moves_dropHandle
    | with_reducible refine moves_request ?_ ?_ _ _ _ _ _ (fun _ _ _ => ?_) | with_reducible refine moves_updTrust ?_ ?_ (fun _ => rfl)
    | dsimp only | split

theorem ends_execUpdVerifyComplete {s : State} (hL : ∀ p ∈ [Part.regs, .evr, .trust, .qcp, .sent], p ∈ L) (r : PackageVerdict) : Ends L s
    (execUpdVerifyComplete r s) := by
  have hs := Moves.refl L s
  unfold execUpdVerifyComplete
  repeat' first
    | with_reducible apply ends_next | with_reducible apply ends_ite | with_reducible exact hs | with_reducible exact hL
    | exact parts_sub hL (by decide) | with_reducible apply moves_count | with_reducible apply moves_noteRefusal
    | with_reducible apply moves_notify | with_reducible apply moves_orReg | with_reducible apply moves_raiseBlock
    | with_reducible apply moves_raiseQcp | with_reducible apply moves_setOtherBank | with_reducible apply moves_setPackage
    | with_reducible apply moves_setReg | with_reducible refine moves_updTrust ?_ ?_ (fun _ => rfl) | dsimp only | split

theorem moves_showBlocker {z0 s : State} (hs : Moves L z0 s) (hL : ∀ p ∈ [Part.regs], p ∈ L) (k : Nat) : Moves L z0 (State.showBlocker s
    k) := by
  unfold State.showBlocker
  repeat' first
    | with_reducible exact hs | with_reducible exact hL | exact parts_sub hL (by decide) | with_reducible apply moves_setReg
    | with_reducible apply moves_ite | dsimp only | split

theorem moves_startApply {z0 s : State} (hs : Moves L z0 s) (hL : ∀ p ∈ [Part.regs, .frame, .trust], p ∈ L) (k : Nat) (rq : Requester) :
    Moves L z0 (State.startApply s k rq) := by
  unfold State.startApply
  repeat' first
    | with_reducible exact hs | with_reducible exact hL | exact parts_sub hL (by decide) | with_reducible apply moves_putReg
    | with_reducible apply moves_setOtherBank | with_reducible refine moves_updFrame ?_ ?_ (fun _ => ⟨rfl, rfl⟩)
    | with_reducible refine moves_updFrame ?_ ?_ (fun _ => by split <;> exact ⟨rfl, rfl⟩)
    | with_reducible refine moves_updTrust ?_ ?_ (fun _ => rfl) | with_reducible apply moves_ite | dsimp only | split

theorem moves_notePartner {z0 s : State} (hs : Moves L z0 s) (hL : ∀ p ∈ [Part.pair], p ∈ L) (k : Nat) (partner : Option Word) : Moves L
    z0 (State.notePartner s k partner) := by
  unfold State.notePartner
  repeat' first
    | with_reducible exact hs | with_reducible exact hL | exact parts_sub hL (by decide) | with_reducible apply moves_updPair
    | with_reducible apply moves_ite | dsimp only | split

theorem ends_execUpdApply {s : State} (hL : ∀ p ∈ [Part.regs, .frame, .pair, .evr, .trust, .qcp, .sent], p ∈ L) (p : Pkt) (component :
    Byte) (partner : Option Word) : Ends L s (execUpdApply p component partner s) := by
  have hs := Moves.refl L s
  unfold execUpdApply
  repeat' first
    | with_reducible apply ends_next | with_reducible apply ends_ite | with_reducible exact hs | with_reducible exact hL
    | exact parts_sub hL (by decide) | with_reducible assumption | with_reducible apply moves_notePartner
    | with_reducible apply moves_noteRefusal | with_reducible apply moves_raiseBlock
    | with_reducible refine moves_request ?_ ?_ _ _ _ _ _ (fun _ _ _ => ?_) | with_reducible apply moves_showBlocker
    | with_reducible apply moves_startApply | dsimp only | split

theorem moves_enterTrial {z0 s : State} (hs : Moves L z0 s) (hL : ∀ p ∈ [Part.regs, .evr, .trust], p ∈ L) (k : Nat) : Moves L z0
    (State.enterTrial s k) := by
  unfold State.enterTrial
  repeat' first
    | with_reducible exact hs | with_reducible exact hL | exact parts_sub hL (by decide) | with_reducible apply moves_putRegBit
    | with_reducible apply moves_raiseBlock | with_reducible apply moves_satRegFld | with_reducible apply moves_setComponentState
    | with_reducible apply moves_setReg | with_reducible apply moves_showComponent
    | with_reducible refine moves_updTrust ?_ ?_ (fun _ => rfl) | with_reducible apply moves_ite | dsimp only | split

theorem ends_execUpdApplyComplete {s : State} (hL : ∀ p ∈ [Part.regs, .tb, .acq, .evr, .trust, .qcp, .sent, .clock], p ∈ L) (c :
    CalibrationCheck) : Ends L s (execUpdApplyComplete c s) := by
  have hs := Moves.refl L s
  unfold execUpdApplyComplete
  repeat' first
    | with_reducible apply ends_next | with_reducible apply ends_ite | with_reducible exact hs | with_reducible exact hL
    | exact parts_sub hL (by decide) | with_reducible apply moves_advanceTo | with_reducible apply moves_enterTrial
    | with_reducible apply moves_notify | with_reducible apply moves_takeCalibration | dsimp only | split

theorem ends_execTrialEnd {s : State} (hL : ∀ p ∈ [Part.regs, .evr, .trust], p ∈ L) : Ends L s (execTrialEnd s) := by
  have hs := Moves.refl L s
  unfold execTrialEnd
  repeat' first
    | with_reducible apply ends_next | with_reducible apply ends_ite | with_reducible exact hs | with_reducible exact hL
    | exact parts_sub hL (by decide) | with_reducible apply moves_putReg | with_reducible apply moves_raiseBlock
    | with_reducible apply moves_setComponentState | with_reducible apply moves_setReg
    | with_reducible refine moves_updTrust ?_ ?_ (fun _ => rfl) | with_reducible refine moves_dropOriginal ?_ ?_ (fun _ => rfl)
    | with_reducible refine moves_keepOriginal ?_ ?_ _ (fun _ => rfl) | dsimp only | split

theorem moves_restoreStore {z0 s : State} (hs : Moves L z0 s) (hL : ∀ p ∈ [Part.regs, .wins, .trust], p ∈ L)
    : Moves L z0 s.restoreStore := by
  unfold State.restoreStore
  split
  · exact hs
  · next o ho =>
    have h1 : Moves L z0 { s with wins := o.wins } := by
      refine hs.step ?_ fun hi => ?_
      · intro p hp
        cases p <;> first | exact absurd (hL _ (by decide)) hp | rfl | exact ⟨rfl, rfl⟩
      · obtain ⟨hr, hw⟩ := hi.1.2.2.2 o ho
        exact ⟨⟨hi.1.1, hw, hi.1.2.2⟩, hi.2⟩
    exact moves_dropOriginal (moves_setReg (moves_foldl (fun a x h => moves_setReg h (parts_sub hL (by decide)) _ _) h1) (parts_sub hL
    (by decide)) _ _) (parts_sub hL (by decide)) (fun _ => rfl)

theorem moves_revert {z0 s : State} (hs : Moves L z0 s) (hL : ∀ p ∈ [Part.regs, .wins, .frame, .evr, .trust], p ∈ L) (k : Nat) : Moves L
    z0 (State.revert s k) := by
  unfold State.revert
  repeat' first
    | with_reducible exact hs | with_reducible exact hL | exact parts_sub hL (by decide) | with_reducible apply moves_orReg
    | with_reducible apply moves_putRegBit | with_reducible apply moves_raiseBlock | with_reducible apply moves_restoreStore
    | with_reducible apply moves_satRegFld | with_reducible apply moves_setComponentState | with_reducible apply moves_setReg
    | with_reducible apply moves_showComponent | with_reducible refine moves_updFrame ?_ ?_ (fun _ => ⟨rfl, rfl⟩)
    | with_reducible refine moves_updFrame ?_ ?_ (fun _ => by split <;> exact ⟨rfl, rfl⟩)
    | with_reducible refine moves_updTrust ?_ ?_ (fun _ => rfl) | with_reducible apply moves_ite | dsimp only | split

theorem ends_execTrialFailureRevert {s : State} (hL : ∀ p ∈ [Part.regs, .wins, .frame, .evr, .trust], p ∈ L) (cause : TrialFailure) : Ends
    L s (execTrialFailureRevert cause s) := by
  have hs := Moves.refl L s
  unfold execTrialFailureRevert
  repeat' first
    | with_reducible apply ends_next | with_reducible apply ends_ite | with_reducible exact hs | with_reducible exact hL
    | exact parts_sub hL (by decide) | with_reducible apply moves_revert | dsimp only | split

theorem moves_revertNow {z0 s : State} (hs : Moves L z0 s) (hL : ∀ p ∈ [Part.regs, .wins, .frame, .evr, .trust], p ∈ L) : Moves L z0
    (State.revertNow s) := by
  unfold State.revertNow
  repeat' first
    | with_reducible exact hs | with_reducible exact hL | exact parts_sub hL (by decide) | with_reducible apply moves_revert
    | with_reducible apply moves_ite | dsimp only | split

theorem moves_updClear {z0 s : State} (hs : Moves L z0 s) (hL : ∀ p ∈ [Part.regs], p ∈ L) : Moves L z0 (State.updClear s) := by
  unfold State.updClear
  repeat' first
    | with_reducible exact hs | with_reducible exact hL | exact parts_sub hL (by decide) | with_reducible apply moves_zeroRegs
    | with_reducible apply moves_ite | dsimp only | split

theorem ends_execUpdStatus {s : State} (hL : ∀ p ∈ [Part.evr, .qcp, .sent], p ∈ L) (p : Pkt) (component : Byte) : Ends L s (execUpdStatus
    p component s) := by
  have hs := Moves.refl L s
  unfold execUpdStatus
  repeat' first
    | with_reducible apply ends_next | with_reducible apply ends_ite | with_reducible exact hs | with_reducible exact hL
    | exact parts_sub hL (by decide) | with_reducible assumption | with_reducible refine moves_request ?_ ?_ _ _ _ _ _ (fun _ _ _ => ?_)
    | dsimp only | split

theorem ends_execSettingsImport {s : State} (hL : ∀ p ∈ [Part.regs, .evr, .trust, .qcp, .sent], p ∈ L) (values : Option (List (Nat ×
    Word))) (steps : Half) : Ends L s (execSettingsImport values steps s) := by
  have hs := Moves.refl L s
  unfold execSettingsImport
  repeat' first
    | with_reducible apply ends_next | with_reducible apply ends_ite | with_reducible exact hs | with_reducible exact hL
    | exact parts_sub hL (by decide) | with_reducible apply moves_notify | with_reducible apply moves_orReg
    | with_reducible apply moves_putReg | with_reducible apply moves_raiseBlock
    | with_reducible refine moves_updTrust ?_ ?_ (fun _ => rfl) | dsimp only | split

theorem moves_endSlotSessions {z0 s : State} (hs : Moves L z0 s) (hL : ∀ p ∈ [Part.regs, .can0, .can1, .evr, .qcp], p ∈ L) (slot : Nat) :
    Moves L z0 (State.endSlotSessions s slot) := by
  unfold State.endSlotSessions
  repeat' first
    | with_reducible exact hs | with_reducible exact hL | exact parts_sub hL (by decide) | with_reducible apply moves_endSessions
    | with_reducible apply moves_ite | dsimp only | split

theorem moves_keyChanged {z0 s : State} (hs : Moves L z0 s) (hL : ∀ p ∈ [Part.regs, .evr], p ∈ L) : Moves L z0 (State.keyChanged s) := by
  unfold State.keyChanged
  repeat' first
    | with_reducible exact hs | with_reducible exact hL | exact parts_sub hL (by decide) | with_reducible apply moves_orReg
    | with_reducible apply moves_raiseBlock | with_reducible apply moves_ite | dsimp only | split

theorem moves_enrolKey {z0 s : State} (hs : Moves L z0 s) (hL : ∀ p ∈ [Part.regs, .trust], p ∈ L) (slot : Nat) (k : KeyRequest) : Moves L
    z0 (State.enrolKey s slot k) := by
  unfold State.enrolKey
  repeat' first
    | with_reducible exact hs | with_reducible exact hL | exact parts_sub hL (by decide) | with_reducible apply moves_setReg
    | with_reducible refine moves_updTrust ?_ ?_ (fun _ => rfl) | with_reducible apply moves_zeroRegs | with_reducible apply moves_ite
    | dsimp only | split

theorem ends_execKeyEnrol {s : State} (hL : ∀ p ∈ [Part.regs, .can0, .can1, .evr, .trust, .qcp, .sent], p ∈ L) (p : Pkt) (slot : Byte) (k
    : KeyRequest) : Ends L s (execKeyEnrol p slot k s) := by
  have hs := Moves.refl L s
  unfold execKeyEnrol
  repeat' first
    | with_reducible apply ends_next | with_reducible apply ends_ite | with_reducible exact hs | with_reducible exact hL
    | exact parts_sub hL (by decide) | with_reducible assumption | with_reducible apply moves_answer
    | with_reducible apply moves_endSlotSessions | with_reducible apply moves_enrolKey | with_reducible apply moves_keyChanged
    | with_reducible apply moves_orReg | with_reducible apply moves_raiseBlock
    | with_reducible refine moves_request ?_ ?_ _ _ _ _ _ (fun _ _ _ => ?_) | dsimp only | split

theorem ends_execKeyRevoke {s : State} (hL : ∀ p ∈ [Part.regs, .can0, .can1, .evr, .qcp, .sent], p ∈ L) (p : Pkt) (slot : Byte) : Ends L s
    (execKeyRevoke p slot s) := by
  have hs := Moves.refl L s
  unfold execKeyRevoke
  repeat' first
    | with_reducible apply ends_next | with_reducible apply ends_ite | with_reducible exact hs | with_reducible exact hL
    | exact parts_sub hL (by decide) | with_reducible assumption | with_reducible apply moves_answer
    | with_reducible apply moves_endSlotSessions | with_reducible apply moves_keyChanged | with_reducible apply moves_putRegBit
    | with_reducible refine moves_request ?_ ?_ _ _ _ _ _ (fun _ _ _ => ?_) | dsimp only | split

theorem ends_execKeyLoadDecryption {s : State} (hL : ∀ p ∈ [Part.regs, .evr, .trust, .qcp, .sent], p ∈ L) (p : Pkt) (slot : Byte) (opened
    : Option (BitVec 128)) : Ends L s (execKeyLoadDecryption p slot opened s) := by
  have hs := Moves.refl L s
  unfold execKeyLoadDecryption
  repeat' first
    | with_reducible apply ends_next | with_reducible apply ends_ite | with_reducible exact hs | with_reducible exact hL
    | exact parts_sub hL (by decide) | with_reducible assumption | with_reducible apply moves_keyChanged
    | with_reducible apply moves_putRegBit | with_reducible refine moves_request ?_ ?_ _ _ _ _ _ (fun _ _ _ => ?_)
    | with_reducible refine moves_updTrust ?_ ?_ (fun _ => rfl) | dsimp only | split

theorem moves_setLock {z0 s : State} (hs : Moves L z0 s) (hL : ∀ p ∈ [Part.regs, .evr], p ∈ L) (mask : Nat) : Moves L z0 (State.setLock s
    mask) := by
  unfold State.setLock
  repeat' first
    | with_reducible exact hs | with_reducible exact hL | exact parts_sub hL (by decide) | with_reducible apply moves_orReg
    | with_reducible apply moves_putReg | with_reducible apply moves_raiseBlock | with_reducible apply moves_ite | dsimp only | split

theorem ends_execOwnerLock {s : State} (hL : ∀ p ∈ [Part.regs, .evr, .qcp, .sent], p ∈ L) (p : Pkt) (key : Half) (mask : Byte) : Ends L s
    (execOwnerLock p key mask s) := by
  have hs := Moves.refl L s
  unfold execOwnerLock
  repeat' first
    | with_reducible apply ends_next | with_reducible apply ends_ite | with_reducible exact hs | with_reducible exact hL
    | exact parts_sub hL (by decide) | with_reducible assumption | with_reducible refine moves_request ?_ ?_ _ _ _ _ _ (fun _ _ _ => ?_)
    | with_reducible apply moves_setLock | dsimp only | split

theorem moves_endDebugAccess {z0 s : State} (hs : Moves L z0 s) (hL : ∀ p ∈ [Part.lock], p ∈ L) : Moves L z0 (State.endDebugAccess s) :=
    by
  unfold State.endDebugAccess
  repeat' first
    | with_reducible exact hs | with_reducible exact hL | exact parts_sub hL (by decide) | with_reducible apply moves_updLock
    | with_reducible apply moves_ite | dsimp only | split

theorem moves_endCert {z0 s : State} (hs : Moves L z0 s) (hL : ∀ p ∈ [Part.regs, .lock, .evr, .trust], p ∈ L) : Moves L z0 (State.endCert
    s) := by
  unfold State.endCert
  repeat' first
    | with_reducible exact hs | with_reducible exact hL | exact parts_sub hL (by decide) | with_reducible apply moves_endDebugAccess
    | with_reducible apply moves_raiseBlock | with_reducible refine moves_updTrust ?_ ?_ (fun _ => rfl)
    | with_reducible apply moves_zeroRegs | with_reducible apply moves_ite | dsimp only | split

theorem moves_takeCert {z0 s : State} (hs : Moves L z0 s) (hL : ∀ p ∈ [Part.regs, .evr, .trust], p ∈ L) (c : List Byte) : Moves L z0
    (State.takeCert s c) := by
  unfold State.takeCert
  repeat' first
    | with_reducible exact hs | with_reducible exact hL | exact parts_sub hL (by decide) | with_reducible apply moves_raiseBlock
    | with_reducible apply moves_setReg | with_reducible refine moves_updTrust ?_ ?_ (fun _ => rfl) | with_reducible apply moves_ite
    | dsimp only | split

theorem ends_execDebugCert {s : State} (hL : ∀ p ∈ [Part.regs, .evr, .trust, .qcp, .sent], p ∈ L) (p : Pkt) (payload : List Byte) : Ends L
    s (execDebugCert p payload s) := by
  have hs := Moves.refl L s
  unfold execDebugCert
  repeat' first
    | with_reducible apply ends_next | with_reducible apply ends_ite | with_reducible exact hs | with_reducible exact hL
    | exact parts_sub hL (by decide) | with_reducible assumption | with_reducible apply moves_orReg
    | with_reducible apply moves_raiseBlock | with_reducible refine moves_request ?_ ?_ _ _ _ _ _ (fun _ _ _ => ?_)
    | with_reducible apply moves_takeCert | dsimp only | split

theorem ends_execDebugCertEnd {s : State} (hL : ∀ p ∈ [Part.regs, .lock, .evr, .trust, .qcp, .sent], p ∈ L) (p : Pkt) : Ends L s
    (execDebugCertEnd p s) := by
  have hs := Moves.refl L s
  unfold execDebugCertEnd
  repeat' first
    | with_reducible apply ends_next | with_reducible apply ends_ite | with_reducible exact hs | with_reducible exact hL
    | exact parts_sub hL (by decide) | with_reducible assumption | with_reducible apply moves_endCert
    | with_reducible refine moves_request ?_ ?_ _ _ _ _ _ (fun _ _ _ => ?_) | dsimp only | split

theorem ends_execDebugCertExpiry {s : State} (hL : ∀ p ∈ [Part.regs, .tb, .lock, .evr, .trust, .clock], p ∈ L) : Ends L s
    (execDebugCertExpiry s) := by
  have hs := Moves.refl L s
  unfold execDebugCertExpiry
  repeat' first
    | with_reducible apply ends_next | with_reducible apply ends_ite | with_reducible exact hs | with_reducible exact hL
    | exact parts_sub hL (by decide) | with_reducible apply moves_advanceTo | with_reducible apply moves_endCert | dsimp only | split

theorem ends_execDebugRequest {s : State} (hL : ∀ p ∈ [Part.lock, .evr], p ∈ L) (pair : Fin 2) : Ends L s (execDebugRequest pair s) := by
  have hs := Moves.refl L s
  unfold execDebugRequest
  repeat' first
    | with_reducible apply ends_next | with_reducible apply ends_ite | with_reducible exact hs | with_reducible exact hL
    | exact parts_sub hL (by decide) | with_reducible apply moves_raiseBlock | with_reducible apply moves_updLock | dsimp only | split

theorem moves_fuseEpoch {z0 s : State} (hs : Moves L z0 s) (hL : ∀ p ∈ [Part.regs, .evr], p ∈ L) (v : Word) : Moves L z0 (State.fuseEpoch
    s v).1 := by
  unfold State.fuseEpoch
  repeat' first
    | with_reducible exact hs | with_reducible exact hL | exact parts_sub hL (by decide) | with_reducible apply moves_orReg
    | with_reducible apply moves_putReg | with_reducible apply moves_raiseBlock | with_reducible apply moves_iteFst | dsimp only | split

theorem moves_fuseEpoch_of {z0 s t9 : State} {r9 : Status} {v : Word} (e9 : State.fuseEpoch s v = (t9, r9)) (hs : Moves L z0 s) (hL : ∀ p
    ∈ [Part.regs, .evr], p ∈ L) : Moves L z0 t9 := by
  have := moves_fuseEpoch hs hL v
  rw [e9] at this
  exact this

end Sys2Proof.Machine
end

