-- ==== Sys2Proof/Laws/Moves/Lining.lean ====
section
/-!
SUPPORT. What each operation of Machine/Lining.lean may touch.
-/

namespace Sys2Proof.Machine

set_option linter.unusedTactic false
set_option linter.unreachableTactic false

variable {L : List Part}

theorem moves_cellFlag {z0 s : State} (hs : Moves L z0 s) (hL : ∀ p ∈ [Part.regs, .evr], p ∈ L) (b : Nat) (alarm : Nat) (code : Nat) :
    Moves L z0 (State.cellFlag s b alarm code) := by
  unfold State.cellFlag
  repeat' first
    | with_reducible exact hs | with_reducible exact hL | exact parts_sub hL (by decide) | with_reducible apply moves_putRegBit
    | with_reducible apply moves_raiseBlock | with_reducible apply moves_ite | dsimp only | split

theorem moves_testCell {z0 s : State} (hs : Moves L z0 s) (hL : ∀ p ∈ [Part.regs, .evr], p ∈ L) (cell : Nat) (cap : Nat) : Moves L z0
    (State.testCell s cell cap) := by
  unfold State.testCell
  repeat' first
    | with_reducible exact hs | with_reducible exact hL | exact parts_sub hL (by decide) | with_reducible apply moves_cellFlag
    | with_reducible apply moves_putRegBit | with_reducible apply moves_setReg | with_reducible apply moves_ite | dsimp only | split

theorem ends_execCellTest {s : State} (hL : ∀ p ∈ [Part.regs, .tb, .evr, .power, .clock], p ∈ L) (cell : Half) (cap : Half) : Ends L s
    (execCellTest cell cap s) := by
  have hs := Moves.refl L s
  unfold execCellTest
  repeat' first
    | with_reducible apply ends_next | with_reducible apply ends_ite | with_reducible exact hs | with_reducible exact hL
    | exact parts_sub hL (by decide) | with_reducible apply moves_advanceUp | with_reducible apply moves_testCell
    | with_reducible apply moves_updPower | dsimp only | split

theorem ends_execDrawerClosed {s : State} (hL : ∀ p ∈ [Part.regs, .evr], p ∈ L) (cell : Half) (cap : Half) : Ends L s (execDrawerClosed
    cell cap s) := by
  have hs := Moves.refl L s
  unfold execDrawerClosed
  repeat' first
    | with_reducible apply ends_next | with_reducible apply ends_ite | with_reducible exact hs | with_reducible exact hL
    | exact parts_sub hL (by decide) | with_reducible apply moves_putRegBit | with_reducible apply moves_testCell | dsimp only | split

theorem ends_execDrawerOpened {s : State} (hL : ∀ p ∈ [Part.regs], p ∈ L) : Ends L s (execDrawerOpened s) := by
  have hs := Moves.refl L s
  unfold execDrawerOpened
  repeat' first
    | with_reducible apply ends_next | with_reducible apply ends_ite | with_reducible exact hs | with_reducible exact hL
    | exact parts_sub hL (by decide) | with_reducible apply moves_incReg | with_reducible apply moves_putRegBit | dsimp only | split

theorem ends_execTamperOpening {s : State} (hL : ∀ p ∈ [Part.regs, .evr, .power], p ∈ L) : Ends L s (execTamperOpening s) := by
  have hs := Moves.refl L s
  unfold execTamperOpening
  repeat' first
    | with_reducible apply ends_next | with_reducible apply ends_ite | with_reducible exact hs | with_reducible exact hL
    | exact parts_sub hL (by decide) | with_reducible apply moves_orReg | with_reducible apply moves_putRegBit
    | with_reducible apply moves_raiseBlock | with_reducible apply moves_satRegFld | with_reducible apply moves_setReg
    | with_reducible apply moves_updPower | dsimp only | split

theorem moves_ackTamper {z0 s : State} (hs : Moves L z0 s) (hL : ∀ p ∈ [Part.regs], p ∈ L) : Moves L z0 (State.ackTamper s) := by
  unfold State.ackTamper
  repeat' first
    | with_reducible exact hs | with_reducible exact hL | exact parts_sub hL (by decide) | with_reducible apply moves_putRegBit
    | with_reducible apply moves_ite | dsimp only | split

theorem ends_execLiningMirror {s : State} (hL : ∀ p ∈ [Part.regs, .tb, .power, .clock], p ∈ L) : Ends L s (execLiningMirror s) := by
  have hs := Moves.refl L s
  unfold execLiningMirror
  repeat' first
    | with_reducible apply ends_next | with_reducible apply ends_ite | with_reducible exact hs | with_reducible exact hL
    | exact parts_sub hL (by decide) | with_reducible apply moves_advanceUp | with_reducible apply moves_setReg
    | with_reducible apply moves_updPower | dsimp only | split

theorem ends_execRtcWrite {s : State} (hL : ∀ p ∈ [Part.regs, .tb, .power, .clock], p ∈ L) : Ends L s (execRtcWrite s) := by
  have hs := Moves.refl L s
  unfold execRtcWrite
  repeat' first
    | with_reducible apply ends_next | with_reducible apply ends_ite | with_reducible exact hs | with_reducible exact hL
    | exact parts_sub hL (by decide) | with_reducible apply moves_advanceTo | with_reducible apply moves_putRegBit
    | with_reducible apply moves_setReg | with_reducible apply moves_updPower | dsimp only | split

theorem ends_execPartnerPresenceChange {s : State} (hL : ∀ p ∈ [Part.pair], p ∈ L) (present : Bool) : Ends L s (execPartnerPresenceChange
    present s) := by
  have hs := Moves.refl L s
  unfold execPartnerPresenceChange
  repeat' first
    | with_reducible apply ends_next | with_reducible apply ends_ite | with_reducible exact hs | with_reducible exact hL
    | exact parts_sub hL (by decide) | with_reducible apply moves_updPair | dsimp only | split

theorem ends_execMemoryError {s : State} (hL : ∀ p ∈ [Part.pair], p ∈ L) : Ends L s (execMemoryError s) := by
  have hs := Moves.refl L s
  unfold execMemoryError
  repeat' first
    | with_reducible apply ends_next | with_reducible apply ends_ite | with_reducible exact hs | with_reducible exact hL
    | exact parts_sub hL (by decide) | with_reducible apply moves_updPair | dsimp only | split

end Sys2Proof.Machine
end

