-- ==== Sys2Proof/Laws/Moves/NetServices.lean ====
section
/-!
SUPPORT. What each operation of Machine/NetServices.lean may touch.
-/

namespace Sys2Proof.Machine

set_option linter.unusedTactic false
set_option linter.unreachableTactic false

variable {L : List Part}

theorem moves_setPublisher {z0 s : State} (hs : Moves L z0 s) (hL : ∀ p ∈ [Part.net], p ∈ L) (m : Nat) (x : Publisher) : Moves L z0
    (State.setPublisher s m x) := by
  unfold State.setPublisher
  repeat' first
    | with_reducible exact hs | with_reducible exact hL | exact parts_sub hL (by decide) | with_reducible apply moves_updNet
    | with_reducible apply moves_ite | dsimp only | split

theorem moves_setSubscription {z0 s : State} (hs : Moves L z0 s) (hL : ∀ p ∈ [Part.net], p ∈ L) (k : Nat) (x : Subscription) : Moves L z0
    (State.setSubscription s k x) := by
  unfold State.setSubscription
  repeat' first
    | with_reducible exact hs | with_reducible exact hL | exact parts_sub hL (by decide) | with_reducible apply moves_updNet
    | with_reducible apply moves_ite | dsimp only | split

theorem moves_sendGoose {z0 s : State} (hs : Moves L z0 s) (hL : ∀ p ∈ [Part.regs, .sent], p ∈ L) (m : Nat) : Moves L z0 (State.sendGoose
    s m) := by
  unfold State.sendGoose
  repeat' first
    | with_reducible exact hs | with_reducible exact hL | exact parts_sub hL (by decide) | with_reducible apply moves_emit
    | with_reducible apply moves_ite | dsimp only | split

theorem moves_publish {z0 s : State} (hs : Moves L z0 s) (hL : ∀ p ∈ [Part.regs, .net, .sent], p ∈ L) (m : Nat) : Moves L z0
    (State.publish s m) := by
  unfold State.publish
  repeat' first
    | with_reducible exact hs | with_reducible exact hL | exact parts_sub hL (by decide) | with_reducible apply moves_sendGoose
    | with_reducible apply moves_setPublisher | with_reducible apply moves_ite | dsimp only | split

theorem moves_publishAll {z0 s : State} (hs : Moves L z0 s) (hL : ∀ p ∈ [Part.regs, .net, .sent], p ∈ L) : Moves L z0 (State.publishAll s)
    := by
  unfold State.publishAll
  repeat' first
    | with_reducible exact hs | with_reducible exact hL | exact parts_sub hL (by decide) | with_reducible assumption
    | with_reducible apply moves_publish | with_reducible refine moves_foldl (fun _ _ _ => ?_) ?_ | with_reducible apply moves_ite
    | dsimp only | split

theorem ends_execGooseRepeat {s : State} (hL : ∀ p ∈ [Part.regs, .tb, .net, .sent, .clock], p ∈ L) (m : Fin 16) : Ends L s
    (execGooseRepeat m s) := by
  have hs := Moves.refl L s
  unfold execGooseRepeat
  repeat' first
    | with_reducible apply ends_next | with_reducible apply ends_ite | with_reducible exact hs | with_reducible exact hL
    | exact parts_sub hL (by decide) | with_reducible apply moves_advanceUp | with_reducible apply moves_sendGoose
    | with_reducible apply moves_setPublisher | dsimp only | split

theorem moves_gooseLost {z0 s : State} (hs : Moves L z0 s) (hL : ∀ p ∈ [Part.regs, .net, .evr], p ∈ L) (k : Nat) (x : Subscription) :
    Moves L z0 (State.gooseLost s k x) := by
  unfold State.gooseLost
  repeat' first
    | with_reducible exact hs | with_reducible exact hL | exact parts_sub hL (by decide) | with_reducible apply moves_enterPoints
    | with_reducible apply moves_putRegBit | with_reducible apply moves_raise | with_reducible apply moves_setSubscription
    | with_reducible apply moves_ite | dsimp only | split

theorem moves_gooseAccept {z0 s : State} (hs : Moves L z0 s) (hL : ∀ p ∈ [Part.regs, .net, .evr], p ∈ L) (k : Nat) (m : GooseMessage) :
    Moves L z0 (State.gooseAccept s k m) := by
  unfold State.gooseAccept
  repeat' first
    | with_reducible exact hs | with_reducible exact hL | exact parts_sub hL (by decide) | with_reducible apply moves_enterPoints
    | with_reducible apply moves_gooseLost | with_reducible apply moves_raise | with_reducible apply moves_setSubscription
    | with_reducible apply moves_ite | dsimp only | split

theorem ends_execGooseReceived {s : State} (hL : ∀ p ∈ [Part.regs, .net, .evr], p ∈ L) (m : GooseMessage) : Ends L s (execGooseReceived m
    s) := by
  have hs := Moves.refl L s
  unfold execGooseReceived
  repeat' first
    | with_reducible apply ends_next | with_reducible apply ends_ite | with_reducible exact hs | with_reducible exact hL
    | exact parts_sub hL (by decide) | with_reducible assumption | with_reducible apply moves_gooseAccept
    | with_reducible apply moves_raise | with_reducible apply moves_setSubscription
    | with_reducible refine moves_foldl (fun _ _ _ => ?_) ?_ | dsimp only | split

theorem ends_execGooseTalExpiry {s : State} (hL : ∀ p ∈ [Part.regs, .tb, .net, .evr, .clock], p ∈ L) (k : Fin 64) : Ends L s
    (execGooseTalExpiry k s) := by
  have hs := Moves.refl L s
  unfold execGooseTalExpiry
  repeat' first
    | with_reducible apply ends_next | with_reducible apply ends_ite | with_reducible exact hs | with_reducible exact hL
    | exact parts_sub hL (by decide) | with_reducible apply moves_advanceUp | with_reducible apply moves_gooseLost | dsimp only | split

theorem moves_applyGoose {z0 s : State} (hs : Moves L z0 s) (hL : ∀ p ∈ [Part.wins, .net], p ∈ L) (l : List (Nat × List Word)) : Moves L
    z0 (State.applyGoose s l) := by
  induction l generalizing s with
  | nil => exact hs
  | cons x rest ih =>
    unfold State.applyGoose
    repeat' first
      | with_reducible exact hs | with_reducible exact hL | exact parts_sub hL (by decide) | with_reducible assumption
      | with_reducible apply ih | with_reducible apply moves_setSubscription | with_reducible apply moves_setWin
      | with_reducible refine moves_foldl (fun _ _ _ => ?_) ?_ | with_reducible apply moves_ite | dsimp only | split

theorem moves_gooseTick {z0 s : State} (hs : Moves L z0 s) (hL : ∀ p ∈ [Part.wins, .net], p ∈ L) : Moves L z0 (State.gooseTick s) := by
  unfold State.gooseTick
  repeat' first
    | with_reducible exact hs | with_reducible exact hL | exact parts_sub hL (by decide) | with_reducible apply moves_applyGoose
    | with_reducible apply moves_updNet | with_reducible apply moves_ite | dsimp only | split

theorem moves_leadTick {z0 s : State} (hs : Moves L z0 s) (hL : ∀ p ∈ [Part.regs, .net, .evr], p ∈ L) : Moves L z0 (State.leadTick s) :=
    by
  unfold State.leadTick
  repeat' first
    | with_reducible exact hs | with_reducible exact hL | exact parts_sub hL (by decide) | with_reducible apply moves_putRegBit
    | with_reducible apply moves_raiseBlock | with_reducible apply moves_updNet | with_reducible apply moves_ite | dsimp only | split

theorem ends_execGratuitousArp {s : State} (hL : ∀ p ∈ [Part.regs, .tb, .net, .sent, .clock], p ∈ L) : Ends L s (execGratuitousArp s) :=
    by
  have hs := Moves.refl L s
  unfold execGratuitousArp
  repeat' first
    | with_reducible apply ends_next | with_reducible apply ends_ite | with_reducible exact hs | with_reducible exact hL
    | exact parts_sub hL (by decide) | with_reducible apply moves_advanceUp | with_reducible apply moves_emit
    | with_reducible apply moves_updNet | dsimp only | split

theorem ends_execArpRequest {s : State} (hL : ∀ p ∈ [Part.regs, .sent], p ∈ L) (p : Fin 5) (ip : Word) : Ends L s (execArpRequest p ip s)
    := by
  have hs := Moves.refl L s
  unfold execArpRequest
  repeat' first
    | with_reducible apply ends_next | with_reducible apply ends_ite | with_reducible exact hs | with_reducible exact hL
    | exact parts_sub hL (by decide) | with_reducible apply moves_emit | with_reducible apply moves_serviceFrame | dsimp only | split

theorem ends_execIcmpEcho {s : State} (hL : ∀ p ∈ [Part.regs, .sent], p ∈ L) (p : Fin 5) (ip : Word) : Ends L s (execIcmpEcho p ip s) :=
    by
  have hs := Moves.refl L s
  unfold execIcmpEcho
  repeat' first
    | with_reducible apply ends_next | with_reducible apply ends_ite | with_reducible exact hs | with_reducible exact hL
    | exact parts_sub hL (by decide) | with_reducible apply moves_emit | with_reducible apply moves_serviceFrame | dsimp only | split

theorem moves_setPrp {z0 s : State} (hs : Moves L z0 s) (hL : ∀ p ∈ [Part.net], p ∈ L) (n : Nat) (x : Redundancy) : Moves L z0
    (State.setPrp s n x) := by
  unfold State.setPrp
  repeat' first
    | with_reducible exact hs | with_reducible exact hL | exact parts_sub hL (by decide) | with_reducible apply moves_updNet
    | with_reducible apply moves_ite | dsimp only | split

theorem moves_expireWindow {z0 s : State} (hs : Moves L z0 s) (hL : ∀ p ∈ [Part.regs, .net], p ∈ L) (n : Nat) : Moves L z0
    (State.expireWindow s n) := by
  unfold State.expireWindow
  repeat' first
    | with_reducible exact hs | with_reducible exact hL | exact parts_sub hL (by decide) | with_reducible apply moves_addReg
    | with_reducible apply moves_setPrp | with_reducible apply moves_ite | dsimp only | split

theorem moves_lanSeen {z0 s : State} (hs : Moves L z0 s) (hL : ∀ p ∈ [Part.regs, .net, .evr], p ∈ L) (n : Nat) (onB : Bool) : Moves L z0
    (State.lanSeen s n onB) := by
  unfold State.lanSeen
  repeat' first
    | with_reducible exact hs | with_reducible exact hL | exact parts_sub hL (by decide) | with_reducible apply moves_putRegBit
    | with_reducible apply moves_raise | with_reducible apply moves_setPrp | with_reducible apply moves_setReg
    | with_reducible apply moves_ite | dsimp only | split

theorem moves_enterNode {z0 s : State} (hs : Moves L z0 s) (hL : ∀ p ∈ [Part.regs, .net, .evr], p ∈ L) (n : Nat) (f : PrpFrame) : Moves L
    z0 (State.enterNode s n f).1 := by
  unfold State.enterNode
  repeat' first
    | with_reducible exact hs | with_reducible exact hL | exact parts_sub hL (by decide) | with_reducible apply moves_incReg
    | with_reducible apply moves_putRegBit | with_reducible apply moves_raise | with_reducible apply moves_setPrp
    | with_reducible apply moves_iteFst | dsimp only | split

theorem moves_enterNode_of {z0 s t9 : State} {r9 : Bool} {n : Nat} {f : PrpFrame} (e9 : State.enterNode s n f = (t9, r9)) (hs : Moves L z0
    s) (hL : ∀ p ∈ [Part.regs, .net, .evr], p ∈ L) : Moves L z0 t9 := by
  have := moves_enterNode hs hL n f
  rw [e9] at this
  exact this

theorem moves_checkDuplicate {z0 s : State} (hs : Moves L z0 s) (hL : ∀ p ∈ [Part.regs, .net], p ∈ L) (n : Nat) (f : PrpFrame) : Moves L
    z0 (State.checkDuplicate s n f) := by
  unfold State.checkDuplicate
  repeat' first
    | with_reducible exact hs | with_reducible exact hL | exact parts_sub hL (by decide) | with_reducible apply moves_incReg
    | with_reducible apply moves_setPrp | with_reducible apply moves_ite | dsimp only | split

theorem moves_forward {z0 s : State} (hs : Moves L z0 s) (hL : ∀ p ∈ [Part.regs, .sent], p ∈ L) (n : Nat) (f : PrpFrame) : Moves L z0
    (State.forward s n f) := by
  unfold State.forward
  repeat' first
    | with_reducible exact hs | with_reducible exact hL | exact parts_sub hL (by decide) | with_reducible apply moves_emit
    | with_reducible apply moves_ite | dsimp only | split

theorem moves_prpAccept {z0 s : State} (hs : Moves L z0 s) (hL : ∀ p ∈ [Part.regs, .net, .evr, .sent], p ∈ L) (n : Nat) (f : PrpFrame) :
    Moves L z0 (State.prpAccept s n f) := by
  unfold State.prpAccept
  repeat' first
    | with_reducible exact hs | with_reducible exact hL | exact parts_sub hL (by decide) | with_reducible assumption
    | with_reducible apply moves_checkDuplicate | with_reducible apply moves_enterNode
    | with_reducible refine moves_enterNode_of (by assumption) ?_ ?_ | with_reducible apply moves_forward
    | with_reducible apply moves_incReg | with_reducible apply moves_lanSeen | with_reducible apply moves_putRegBit
    | with_reducible apply moves_raise | with_reducible apply moves_setPrp | with_reducible apply moves_ite | dsimp only | split

theorem ends_execPrpFrameReceived {s : State} (hL : ∀ p ∈ [Part.regs, .net, .evr, .sent], p ∈ L) (n : Fin 2) (f : PrpFrame) : Ends L s
    (execPrpFrameReceived n f s) := by
  have hs := Moves.refl L s
  unfold execPrpFrameReceived
  repeat' first
    | with_reducible apply ends_next | with_reducible apply ends_ite | with_reducible exact hs | with_reducible exact hL
    | exact parts_sub hL (by decide) | with_reducible apply moves_expireWindow | with_reducible apply moves_incReg
    | with_reducible apply moves_lanSeen | with_reducible apply moves_prpAccept | dsimp only | split

theorem ends_execPrpSupervisionSend {s : State} (hL : ∀ p ∈ [Part.regs, .tb, .net, .sent, .clock], p ∈ L) (n : Fin 2) : Ends L s
    (execPrpSupervisionSend n s) := by
  have hs := Moves.refl L s
  unfold execPrpSupervisionSend
  repeat' first
    | with_reducible apply ends_next | with_reducible apply ends_ite | with_reducible exact hs | with_reducible exact hL
    | exact parts_sub hL (by decide) | with_reducible apply moves_advanceUp | with_reducible apply moves_emit
    | with_reducible apply moves_expireWindow | with_reducible apply moves_incReg | with_reducible apply moves_setPrp | dsimp only | split

theorem ends_execPrpLanTimeout {s : State} (hL : ∀ p ∈ [Part.regs, .tb, .net, .evr, .clock], p ∈ L) (n : Fin 2) (lanB : Bool) : Ends L s
    (execPrpLanTimeout n lanB s) := by
  have hs := Moves.refl L s
  unfold execPrpLanTimeout
  repeat' first
    | with_reducible apply ends_next | with_reducible apply ends_ite | with_reducible exact hs | with_reducible exact hL
    | exact parts_sub hL (by decide) | with_reducible apply moves_advanceUp | with_reducible apply moves_incReg
    | with_reducible apply moves_putRegBit | with_reducible apply moves_raise | with_reducible apply moves_setPrp
    | with_reducible apply moves_setReg | dsimp only | split

theorem moves_setLink {z0 s : State} (hs : Moves L z0 s) (hL : ∀ p ∈ [Part.regs, .evr], p ∈ L) (p : Nat) (up : Bool) (speed : Nat) : Moves
    L z0 (State.setLink s p up speed) := by
  unfold State.setLink
  repeat' first
    | with_reducible exact hs | with_reducible exact hL | exact parts_sub hL (by decide) | with_reducible apply moves_putReg
    | with_reducible apply moves_putRegBit | with_reducible apply moves_raise | with_reducible apply moves_ite | dsimp only | split

theorem ends_execTransceiverInserted {s : State} (hL : ∀ p ∈ [Part.regs, .net, .evr], p ∈ L) (p : Fin 4) (info : Word) : Ends L s
    (execTransceiverInserted p info s) := by
  have hs := Moves.refl L s
  unfold execTransceiverInserted
  repeat' first
    | with_reducible apply ends_next | with_reducible apply ends_ite | with_reducible exact hs | with_reducible exact hL
    | exact parts_sub hL (by decide) | with_reducible apply moves_putReg | with_reducible apply moves_putRegBit
    | with_reducible apply moves_raise | with_reducible apply moves_setReg | with_reducible apply moves_updNet | dsimp only | split

theorem ends_execTransceiverRemoved {s : State} (hL : ∀ p ∈ [Part.regs, .net, .evr], p ∈ L) (p : Fin 4) : Ends L s (execTransceiverRemoved
    p s) := by
  have hs := Moves.refl L s
  unfold execTransceiverRemoved
  repeat' first
    | with_reducible apply ends_next | with_reducible apply ends_ite | with_reducible exact hs | with_reducible exact hL
    | exact parts_sub hL (by decide) | with_reducible apply moves_setLink | with_reducible apply moves_setReg
    | with_reducible apply moves_updNet | dsimp only | split

theorem ends_execPortLinkChange {s : State} (hL : ∀ p ∈ [Part.regs, .evr], p ∈ L) (p : Fin 5) (up : Bool) (speed : Fin 4) : Ends L s
    (execPortLinkChange p up speed s) := by
  have hs := Moves.refl L s
  unfold execPortLinkChange
  repeat' first
    | with_reducible apply ends_next | with_reducible apply ends_ite | with_reducible exact hs | with_reducible exact hL
    | exact parts_sub hL (by decide) | with_reducible apply moves_setLink | dsimp only | split

theorem moves_sendBeacon {z0 s : State} (hs : Moves L z0 s) (hL : ∀ p ∈ [Part.qcp, .sent], p ∈ L) (p : Nat) (ref : Nat) : Moves L z0
    (State.sendBeacon s p ref) := by
  unfold State.sendBeacon
  repeat' first
    | with_reducible exact hs | with_reducible exact hL | exact parts_sub hL (by decide) | with_reducible apply moves_packetOut
    | with_reducible apply moves_sendWire | with_reducible apply moves_updQcp | with_reducible apply moves_ite | dsimp only | split

theorem ends_execBeaconSend {s : State} (hL : ∀ p ∈ [Part.tb, .net, .qcp, .sent, .clock], p ∈ L) : Ends L s (execBeaconSend s) := by
  have hs := Moves.refl L s
  unfold execBeaconSend
  repeat' first
    | with_reducible apply ends_next | with_reducible apply ends_ite | with_reducible exact hs | with_reducible exact hL
    | exact parts_sub hL (by decide) | with_reducible apply moves_advanceUp | with_reducible apply moves_sendBeacon
    | with_reducible apply moves_updNet | dsimp only | split

end Sys2Proof.Machine
end

