-- ==== Sys2Proof/Laws/Moves/Roles.lean ====
section
/-!
SUPPORT. What each operation of Machine/Roles.lean may touch.
-/

namespace Sys2Proof.Machine

set_option linter.unusedTactic false
set_option linter.unreachableTactic false

variable {L : List Part}

theorem moves_dropClaim {z0 s : State} (hs : Moves L z0 s) (hL : ∀ p ∈ [Part.pair], p ∈ L) : Moves L z0 (State.dropClaim s) := by
  unfold State.dropClaim
  repeat' first
    | with_reducible exact hs | with_reducible exact hL | exact parts_sub hL (by decide) | with_reducible apply moves_updPair
    | with_reducible apply moves_ite | dsimp only | split

theorem moves_disagreed {z0 s : State} (hs : Moves L z0 s) (hL : ∀ p ∈ [Part.pair], p ∈ L) : Moves L z0 (State.disagreed s) := by
  unfold State.disagreed
  repeat' first
    | with_reducible exact hs | with_reducible exact hL | exact parts_sub hL (by decide) | with_reducible apply moves_updPair
    | with_reducible apply moves_ite | dsimp only | split

theorem moves_showHandover {z0 s : State} (hs : Moves L z0 s) (hL : ∀ p ∈ [Part.regs], p ∈ L) (st : Nat) (status : Status) : Moves L z0
    (State.showHandover s st status) := by
  unfold State.showHandover
  repeat' first
    | with_reducible exact hs | with_reducible exact hL | exact parts_sub hL (by decide) | with_reducible apply moves_setReg
    | with_reducible apply moves_ite | dsimp only | split

theorem moves_cancelHandover {z0 s : State} (hs : Moves L z0 s) (hL : ∀ p ∈ [Part.regs, .pair, .evr, .qcp, .sent], p ∈ L) : Moves L z0
    (State.cancelHandover s) := by
  unfold State.cancelHandover
  repeat' first
    | with_reducible exact hs | with_reducible exact hL | exact parts_sub hL (by decide) | with_reducible apply moves_notify
    | with_reducible apply moves_raiseBlock | with_reducible apply moves_showHandover | with_reducible apply moves_updPair
    | with_reducible apply moves_ite | dsimp only | split

theorem moves_acceptHandover {z0 s : State} (hs : Moves L z0 s) (hL : ∀ p ∈ [Part.regs, .pair, .sent], p ∈ L) (by_ : Option Requester)
    (lever : Bool) : Moves L z0 (State.acceptHandover s by_ lever) := by
  unfold State.acceptHandover
  repeat' first
    | with_reducible exact hs | with_reducible exact hL | exact parts_sub hL (by decide) | with_reducible apply moves_pass
    | with_reducible apply moves_setReg | with_reducible apply moves_showHandover | with_reducible apply moves_updPair
    | with_reducible apply moves_ite | dsimp only | split

theorem moves_refuseHandover {z0 s : State} (hs : Moves L z0 s) (hL : ∀ p ∈ [Part.regs, .evr], p ∈ L) (st : Status) : Moves L z0
    (State.refuseHandover s st) := by
  unfold State.refuseHandover
  repeat' first
    | with_reducible exact hs | with_reducible exact hL | exact parts_sub hL (by decide) | with_reducible apply moves_raiseBlock
    | with_reducible apply moves_showHandover | with_reducible apply moves_ite | dsimp only | split

theorem ends_execHandover {s : State} (hL : ∀ p ∈ [Part.regs, .pair, .evr, .qcp, .sent], p ∈ L) (p : Pkt) : Ends L s (execHandover p s) :=
    by
  have hs := Moves.refl L s
  unfold execHandover
  repeat' first
    | with_reducible apply ends_next | with_reducible apply ends_ite | with_reducible exact hs | with_reducible exact hL
    | exact parts_sub hL (by decide) | with_reducible assumption | with_reducible apply moves_acceptHandover
    | with_reducible apply moves_refuseHandover | with_reducible refine moves_request ?_ ?_ _ _ _ _ _ (fun _ _ _ => ?_) | dsimp only
    | split

theorem ends_execHandoverConfirmDeadline {s : State} (hL : ∀ p ∈ [Part.regs, .tb, .pair, .evr, .qcp, .sent, .clock], p ∈ L) : Ends L s
    (execHandoverConfirmDeadline s) := by
  have hs := Moves.refl L s
  unfold execHandoverConfirmDeadline
  repeat' first
    | with_reducible apply ends_next | with_reducible apply ends_ite | with_reducible exact hs | with_reducible exact hL
    | exact parts_sub hL (by decide) | with_reducible apply moves_advanceTo | with_reducible apply moves_cancelHandover | dsimp only
    | split

theorem moves_dropHeardMasters {z0 s : State} (hs : Moves L z0 s) (hL : ∀ p ∈ [Part.regs, .ptp, .evr], p ∈ L) : Moves L z0
    (State.dropHeardMasters s) := by
  unfold State.dropHeardMasters
  repeat' first
    | with_reducible exact hs | with_reducible exact hL | exact parts_sub hL (by decide) | with_reducible apply moves_setMasters
    | with_reducible apply moves_ite | dsimp only | split

theorem moves_takeOver {z0 s : State} (hs : Moves L z0 s) (hL : ∀ p ∈ [Part.regs, .role, .mode, .tb, .ptp, .frame, .pair, .lock, .loop,
    .acq, .io, .evr, .qcp, .sent], p ∈ L) : Moves L z0 (State.takeOver s) := by
  unfold State.takeOver
  repeat' first
    | with_reducible exact hs | with_reducible exact hL | exact parts_sub hL (by decide) | with_reducible apply moves_cancelHandover
    | with_reducible apply moves_cancelSwitch | with_reducible apply moves_dropHeardMasters | with_reducible apply moves_enterRole
    | with_reducible apply moves_incReg | with_reducible apply moves_raiseBlock | with_reducible apply moves_setReg
    | with_reducible apply moves_updPair | with_reducible apply moves_ite | dsimp only | split

theorem moves_initRows {z0 s : State} (hs : Moves L z0 s) (hL : ∀ p ∈ [Part.regs, .role, .mode, .tb, .ptp, .frame, .pair, .lock, .loop,
    .acq, .io, .evr, .qcp, .sent], p ∈ L) : Moves L z0 (State.initRows s) := by
  unfold State.initRows
  repeat' first
    | with_reducible exact hs | with_reducible exact hL | exact parts_sub hL (by decide) | with_reducible apply moves_enterRole
    | with_reducible apply moves_ite | dsimp only | split

theorem moves_becomeStandby {z0 s : State} (hs : Moves L z0 s) (hL : ∀ p ∈ [Part.regs, .role, .mode, .tb, .ptp, .frame, .pair, .lock,
    .loop, .acq, .io, .evr, .qcp, .sent], p ∈ L) : Moves L z0 (State.becomeStandby s) := by
  unfold State.becomeStandby
  repeat' first
    | with_reducible exact hs | with_reducible exact hL | exact parts_sub hL (by decide) | with_reducible apply moves_enterMode
    | with_reducible apply moves_enterRole | with_reducible apply moves_raiseBlock | with_reducible apply moves_updPair
    | with_reducible apply moves_ite | dsimp only | split

theorem moves_trackRows {z0 s : State} (hs : Moves L z0 s) (hL : ∀ p ∈ [Part.regs, .role, .mode, .tb, .ptp, .frame, .pair, .lock, .loop,
    .acq, .io, .evr, .qcp, .sent], p ∈ L) : Moves L z0 (State.trackRows s) := by
  unfold State.trackRows
  repeat' first
    | with_reducible exact hs | with_reducible exact hL | exact parts_sub hL (by decide) | with_reducible apply moves_becomeStandby
    | with_reducible apply moves_enterRole | with_reducible apply moves_ite | dsimp only | split

theorem moves_standbyRows {z0 s : State} (hs : Moves L z0 s) (hL : ∀ p ∈ [Part.regs, .role, .mode, .tb, .ptp, .frame, .pair, .lock, .loop,
    .acq, .io, .evr, .qcp, .sent], p ∈ L) : Moves L z0 (State.standbyRows s) := by
  unfold State.standbyRows
  repeat' first
    | with_reducible exact hs | with_reducible exact hL | exact parts_sub hL (by decide) | with_reducible apply moves_cancelSwitch
    | with_reducible apply moves_enterRole | with_reducible apply moves_takeOver | with_reducible apply moves_ite | dsimp only | split

theorem moves_leaderRows {z0 s : State} (hs : Moves L z0 s) (hL : ∀ p ∈ [Part.regs, .role, .mode, .tb, .ptp, .frame, .pair, .lock, .loop,
    .acq, .io, .evr, .qcp, .sent], p ∈ L) : Moves L z0 (State.leaderRows s) := by
  unfold State.leaderRows
  repeat' first
    | with_reducible exact hs | with_reducible exact hL | exact parts_sub hL (by decide) | with_reducible apply moves_cancelSwitch
    | with_reducible apply moves_enterRole | with_reducible apply moves_raiseBlock | with_reducible apply moves_ite | dsimp only | split

theorem moves_takeRoleRequest {z0 s : State} (hs : Moves L z0 s) (hL : ∀ p ∈ [Part.regs, .role, .mode, .tb, .ptp, .frame, .pair, .lock,
    .loop, .acq, .io, .evr, .qcp, .sent], p ∈ L) : Moves L z0 (State.takeRoleRequest s) := by
  unfold State.takeRoleRequest
  repeat' first
    | with_reducible exact hs | with_reducible exact hL | exact parts_sub hL (by decide) | with_reducible apply moves_enterRole
    | with_reducible apply moves_lateAnswer | with_reducible apply moves_updPair | with_reducible apply moves_ite | dsimp only | split

theorem moves_roleRows {z0 s : State} (hs : Moves L z0 s) (hL : ∀ p ∈ [Part.regs, .role, .mode, .tb, .ptp, .frame, .pair, .lock, .loop,
    .acq, .io, .evr, .qcp, .sent], p ∈ L) : Moves L z0 (State.roleRows s) := by
  unfold State.roleRows
  repeat' first
    | with_reducible exact hs | with_reducible exact hL | exact parts_sub hL (by decide) | with_reducible apply moves_initRows
    | with_reducible apply moves_leaderRows | with_reducible apply moves_standbyRows | with_reducible apply moves_trackRows
    | with_reducible apply moves_ite | dsimp only | split

theorem moves_presumeFailed {z0 s : State} (hs : Moves L z0 s) (hL : ∀ p ∈ [Part.pair, .evr], p ∈ L) : Moves L z0 (State.presumeFailed s)
    := by
  unfold State.presumeFailed
  repeat' first
    | with_reducible exact hs | with_reducible exact hL | exact parts_sub hL (by decide) | with_reducible apply moves_raiseBlock
    | with_reducible apply moves_updPair | with_reducible apply moves_ite | dsimp only | split

theorem moves_checkRoles {z0 s : State} (hs : Moves L z0 s) (hL : ∀ p ∈ [Part.regs, .role, .mode, .tb, .ptp, .frame, .pair, .lock, .loop,
    .acq, .io, .evr, .qcp, .sent], p ∈ L) : Moves L z0 (State.checkRoles s) := by
  unfold State.checkRoles
  repeat' first
    | with_reducible exact hs | with_reducible exact hL | exact parts_sub hL (by decide) | with_reducible apply moves_dropClaim
    | with_reducible apply moves_presumeFailed | with_reducible apply moves_roleRows | with_reducible apply moves_takeRoleRequest
    | with_reducible apply moves_ite | dsimp only | split

theorem moves_requestRole {z0 s : State} (hs : Moves L z0 s) (hL : ∀ p ∈ [Part.pair], p ∈ L) (r : Role) (by_ : Option Requester) : Moves L
    z0 (State.requestRole s r by_).1 := by
  unfold State.requestRole
  repeat' first
    | with_reducible exact hs | with_reducible exact hL | exact parts_sub hL (by decide) | with_reducible apply moves_updPair
    | with_reducible apply moves_iteFst | dsimp only | split

theorem moves_requestRole_of {z0 s t9 : State} {r9 : Option Reply} {r : Role} {by_ : Option Requester} (e9 : State.requestRole s r by_ =
    (t9, r9)) (hs : Moves L z0 s) (hL : ∀ p ∈ [Part.pair], p ∈ L) : Moves L z0 t9 := by
  have := moves_requestRole hs hL r by_
  rw [e9] at this
  exact this

theorem ends_execRoleRequestOut {s : State} (hL : ∀ p ∈ [Part.pair, .evr, .qcp, .sent], p ∈ L) (p : Pkt) : Ends L s (execRoleRequestOut p
    s) := by
  have hs := Moves.refl L s
  unfold execRoleRequestOut
  repeat' first
    | with_reducible apply ends_next | with_reducible apply ends_ite | with_reducible exact hs | with_reducible exact hL
    | exact parts_sub hL (by decide) | with_reducible assumption | with_reducible refine moves_request ?_ ?_ _ _ _ _ _ (fun _ _ _ => ?_)
    | with_reducible apply moves_requestRole | with_reducible refine moves_requestRole_of (by assumption) ?_ ?_ | dsimp only | split

theorem ends_execRoleRequestInit {s : State} (hL : ∀ p ∈ [Part.pair, .evr, .qcp, .sent], p ∈ L) (p : Pkt) : Ends L s (execRoleRequestInit
    p s) := by
  have hs := Moves.refl L s
  unfold execRoleRequestInit
  repeat' first
    | with_reducible apply ends_next | with_reducible apply ends_ite | with_reducible exact hs | with_reducible exact hL
    | exact parts_sub hL (by decide) | with_reducible assumption | with_reducible refine moves_request ?_ ?_ _ _ _ _ _ (fun _ _ _ => ?_)
    | with_reducible apply moves_requestRole | with_reducible refine moves_requestRole_of (by assumption) ?_ ?_ | dsimp only | split

theorem ends_execSoloWaitExpiry {s : State} (hL : ∀ p ∈ [Part.regs, .role, .mode, .tb, .ptp, .frame, .pair, .lock, .loop, .acq, .io, .evr,
    .qcp, .sent, .clock], p ∈ L) : Ends L s (execSoloWaitExpiry s) := by
  have hs := Moves.refl L s
  unfold execSoloWaitExpiry
  repeat' first
    | with_reducible apply ends_next | with_reducible apply ends_ite | with_reducible exact hs | with_reducible exact hL
    | exact parts_sub hL (by decide) | with_reducible apply moves_advanceTo | with_reducible apply moves_checkRoles
    | with_reducible apply moves_updPair | dsimp only | split

theorem moves_trackPath {z0 s : State} (hs : Moves L z0 s) (hL : ∀ p ∈ [Part.pair], p ∈ L) (lost : Bool) (restored : Bool) : Moves L z0
    (State.trackPath s lost restored) := by
  unfold State.trackPath
  repeat' first
    | with_reducible exact hs | with_reducible exact hL | exact parts_sub hL (by decide) | with_reducible apply moves_updPair
    | with_reducible apply moves_ite | dsimp only | split

theorem moves_pathsChanged {z0 s : State} (hs : Moves L z0 s) (hL : ∀ p ∈ [Part.regs, .pair, .evr, .qcp, .sent], p ∈ L) (before : Pair) :
    Moves L z0 (State.pathsChanged s before) := by
  unfold State.pathsChanged
  repeat' first
    | with_reducible exact hs | with_reducible exact hL | exact parts_sub hL (by decide) | with_reducible apply moves_cancelHandover
    | with_reducible apply moves_incReg | with_reducible apply moves_raiseBlock | with_reducible apply moves_trackPath
    | with_reducible apply moves_updPair | with_reducible apply moves_ite | dsimp only | split

theorem ends_execHeartbeatDeadline {s : State} (hL : ∀ p ∈ [Part.regs, .tb, .pair, .evr, .qcp, .sent, .clock], p ∈ L) : Ends L s
    (execHeartbeatDeadline s) := by
  have hs := Moves.refl L s
  unfold execHeartbeatDeadline
  repeat' first
    | with_reducible apply ends_next | with_reducible apply ends_ite | with_reducible exact hs | with_reducible exact hL
    | exact parts_sub hL (by decide) | with_reducible apply moves_incReg | with_reducible apply moves_pathsChanged
    | with_reducible apply moves_phase | with_reducible apply moves_updPair | dsimp only | split

theorem ends_execPulseToggleReceived {s : State} (hL : ∀ p ∈ [Part.pair], p ∈ L) (offset : Int) : Ends L s (execPulseToggleReceived offset
    s) := by
  have hs := Moves.refl L s
  unfold execPulseToggleReceived
  repeat' first
    | with_reducible apply ends_next | with_reducible apply ends_ite | with_reducible exact hs | with_reducible exact hL
    | exact parts_sub hL (by decide) | with_reducible apply moves_updPair | dsimp only | split

theorem ends_execPulseWindowExpiry {s : State} (hL : ∀ p ∈ [Part.regs, .role, .mode, .tb, .ptp, .frame, .pair, .lock, .loop, .acq, .io,
    .evr, .qcp, .sent, .clock], p ∈ L) : Ends L s (execPulseWindowExpiry s) := by
  have hs := Moves.refl L s
  unfold execPulseWindowExpiry
  repeat' first
    | with_reducible apply ends_next | with_reducible apply ends_ite | with_reducible exact hs | with_reducible exact hL
    | exact parts_sub hL (by decide) | with_reducible apply moves_checkRoles | with_reducible apply moves_incReg
    | with_reducible apply moves_pathsChanged | with_reducible apply moves_phase | with_reducible apply moves_updPair | dsimp only | split

theorem moves_digestMismatch {z0 s : State} (hs : Moves L z0 s) (hL : ∀ p ∈ [Part.regs, .pair, .evr, .qcp, .sent], p ∈ L) (recheck : Bool)
    : Moves L z0 (State.digestMismatch s recheck) := by
  unfold State.digestMismatch
  repeat' first
    | with_reducible exact hs | with_reducible exact hL | exact parts_sub hL (by decide) | with_reducible apply moves_cancelHandover
    | with_reducible apply moves_dropClaim | with_reducible apply moves_incReg | with_reducible apply moves_raiseBlock
    | with_reducible apply moves_setReg | with_reducible apply moves_updPair | with_reducible apply moves_ite | dsimp only | split

theorem moves_roundFailed {z0 s : State} (hs : Moves L z0 s) (hL : ∀ p ∈ [Part.regs, .pair, .evr], p ∈ L) : Moves L z0 (State.roundFailed
    s) := by
  unfold State.roundFailed
  repeat' first
    | with_reducible exact hs | with_reducible exact hL | exact parts_sub hL (by decide) | with_reducible apply moves_incReg
    | with_reducible apply moves_raiseBlock | with_reducible apply moves_setReg | with_reducible apply moves_updPair
    | with_reducible apply moves_ite | dsimp only | split

theorem moves_compareDigests {z0 s : State} (hs : Moves L z0 s) (hL : ∀ p ∈ [Part.regs, .pair, .evr, .qcp, .sent], p ∈ L) (recheck : Bool)
    : Moves L z0 (State.compareDigests s recheck) := by
  unfold State.compareDigests
  repeat' first
    | with_reducible exact hs | with_reducible exact hL | exact parts_sub hL (by decide) | with_reducible apply moves_digestMismatch
    | with_reducible apply moves_roundFailed | with_reducible apply moves_updPair | with_reducible apply moves_ite | dsimp only | split

theorem ends_execSelfCheckDecision {s : State} (hL : ∀ p ∈ [Part.regs, .pair, .evr], p ∈ L) : Ends L s (execSelfCheckDecision s) := by
  have hs := Moves.refl L s
  unfold execSelfCheckDecision
  repeat' first
    | with_reducible apply ends_next | with_reducible apply ends_ite | with_reducible exact hs | with_reducible exact hL
    | exact parts_sub hL (by decide) | with_reducible apply moves_putReg | with_reducible apply moves_raiseBlock
    | with_reducible apply moves_updPair | dsimp only | split

theorem moves_judgeOverruns {z0 s : State} (hs : Moves L z0 s) (hL : ∀ p ∈ [Part.regs, .frame, .evr], p ∈ L) (h : Heartbeat) (l : List
    OverrunCase) : Moves L z0 (State.judgeOverruns s h l) := by
  induction l generalizing s h with
  | nil => exact hs
  | cons x rest ih =>
    unfold State.judgeOverruns
    repeat' first
      | with_reducible exact hs | with_reducible exact hL | exact parts_sub hL (by decide) | with_reducible apply ih
      | with_reducible apply moves_decideOverrun | with_reducible refine moves_updFrame ?_ ?_ (fun _ => ⟨rfl, rfl⟩)
      | with_reducible refine moves_updFrame ?_ ?_ (fun _ => by split <;> exact ⟨rfl, rfl⟩) | with_reducible apply moves_ite | dsimp only
      | split

theorem moves_keepReport {z0 s : State} (hs : Moves L z0 s) (hL : ∀ p ∈ [Part.frame], p ∈ L) (h : Heartbeat) : Moves L z0
    (State.keepReport s h) := by
  unfold State.keepReport
  repeat' first
    | with_reducible exact hs | with_reducible exact hL | exact parts_sub hL (by decide)
    | with_reducible refine moves_updFrame ?_ ?_ (fun _ => ⟨rfl, rfl⟩)
    | with_reducible refine moves_updFrame ?_ ?_ (fun _ => by split <;> exact ⟨rfl, rfl⟩) | with_reducible apply moves_ite | dsimp only
    | split

theorem moves_endWindows {z0 s : State} (hs : Moves L z0 s) (hL : ∀ p ∈ [Part.regs, .frame, .evr], p ∈ L) (l : List OverrunCase) : Moves L
    z0 (State.endWindows s l) := by
  induction l generalizing s with
  | nil => exact hs
  | cons x rest ih =>
    unfold State.endWindows
    repeat' first
      | with_reducible exact hs | with_reducible exact hL | exact parts_sub hL (by decide) | with_reducible apply ih
      | with_reducible apply moves_decideOverrun | with_reducible refine moves_updFrame ?_ ?_ (fun _ => ⟨rfl, rfl⟩)
      | with_reducible refine moves_updFrame ?_ ?_ (fun _ => by split <;> exact ⟨rfl, rfl⟩) | with_reducible apply moves_ite | dsimp only
      | split

theorem ends_execOverrunWindowExpiry {s : State} (hL : ∀ p ∈ [Part.regs, .frame, .evr], p ∈ L) : Ends L s (execOverrunWindowExpiry s) :=
    by
  have hs := Moves.refl L s
  unfold execOverrunWindowExpiry
  repeat' first
    | with_reducible apply ends_next | with_reducible apply ends_ite | with_reducible exact hs | with_reducible exact hL
    | exact parts_sub hL (by decide) | with_reducible apply moves_endWindows
    | with_reducible refine moves_updFrame ?_ ?_ (fun _ => ⟨rfl, rfl⟩)
    | with_reducible refine moves_updFrame ?_ ?_ (fun _ => by split <;> exact ⟨rfl, rfl⟩) | dsimp only | split

theorem moves_decideWaiting {z0 s : State} (hs : Moves L z0 s) (hL : ∀ p ∈ [Part.regs, .frame, .evr], p ∈ L) : Moves L z0
    (State.decideWaiting s) := by
  unfold State.decideWaiting
  repeat' first
    | with_reducible exact hs | with_reducible exact hL | exact parts_sub hL (by decide) | with_reducible apply moves_decideOverrun
    | with_reducible refine moves_updFrame ?_ ?_ (fun _ => ⟨rfl, rfl⟩)
    | with_reducible refine moves_updFrame ?_ ?_ (fun _ => by split <;> exact ⟨rfl, rfl⟩) | with_reducible apply moves_ite | dsimp only
    | split

theorem moves_takeDecision {z0 s : State} (hs : Moves L z0 s) (hL : ∀ p ∈ [Part.regs, .mode, .tb, .ptp, .frame, .pair, .lock, .loop, .acq,
    .io, .evr, .qcp, .sent], p ∈ L) : Moves L z0 (State.takeDecision s) := by
  unfold State.takeDecision
  repeat' first
    | with_reducible exact hs | with_reducible exact hL | exact parts_sub hL (by decide) | with_reducible apply moves_enterSafe
    | with_reducible refine moves_updFrame ?_ ?_ (fun _ => ⟨rfl, rfl⟩)
    | with_reducible refine moves_updFrame ?_ ?_ (fun _ => by split <;> exact ⟨rfl, rfl⟩) | with_reducible apply moves_updPair
    | with_reducible apply moves_ite | dsimp only | split

theorem moves_hear {z0 s : State} (hs : Moves L z0 s) (hL : ∀ p ∈ [Part.pair], p ∈ L) (h : Heartbeat) : Moves L z0 (State.hear s h) := by
  unfold State.hear
  repeat' first
    | with_reducible exact hs | with_reducible exact hL | exact parts_sub hL (by decide) | with_reducible apply moves_updPair
    | with_reducible apply moves_ite | dsimp only | split

theorem moves_followPartner {z0 s : State} (hs : Moves L z0 s) (hL : ∀ p ∈ [Part.frame], p ∈ L) (h : Heartbeat) : Moves L z0
    (State.followPartner s h) := by
  unfold State.followPartner
  repeat' first
    | with_reducible exact hs | with_reducible exact hL | exact parts_sub hL (by decide)
    | with_reducible refine moves_updFrame ?_ ?_ (fun _ => ⟨rfl, rfl⟩)
    | with_reducible refine moves_updFrame ?_ ?_ (fun _ => by split <;> exact ⟨rfl, rfl⟩) | with_reducible apply moves_ite | dsimp only
    | split

theorem moves_discardCell {z0 s : State} (hs : Moves L z0 s) (hL : ∀ p ∈ [Part.regs], p ∈ L) (lane : Nat) : Moves L z0 (State.discardCell
    s lane) := by
  unfold State.discardCell
  repeat' first
    | with_reducible exact hs | with_reducible exact hL | exact parts_sub hL (by decide) | with_reducible apply moves_incReg
    | with_reducible apply moves_ite | dsimp only | split

theorem moves_noteHeld {z0 s : State} (hs : Moves L z0 s) (hL : ∀ p ∈ [Part.pair, .evr], p ∈ L) (h : Heartbeat) : Moves L z0
    (State.noteHeld s h) := by
  unfold State.noteHeld
  repeat' first
    | with_reducible exact hs | with_reducible exact hL | exact parts_sub hL (by decide) | with_reducible apply moves_raiseBlock
    | with_reducible apply moves_updPair | with_reducible apply moves_ite | dsimp only | split

theorem ends_execHeartbeatReceived {s : State} (hL : ∀ p ∈ [Part.regs, .frame, .pair, .evr, .qcp, .sent], p ∈ L) (h : Heartbeat) (recheck
    : Bool) : Ends L s (execHeartbeatReceived h recheck s) := by
  have hs := Moves.refl L s
  unfold execHeartbeatReceived
  repeat' first
    | with_reducible apply ends_next | with_reducible apply ends_ite | with_reducible exact hs | with_reducible exact hL
    | exact parts_sub hL (by decide) | with_reducible apply moves_compareDigests | with_reducible apply moves_discardCell
    | with_reducible apply moves_followPartner | with_reducible apply moves_hear | with_reducible apply moves_judgeOverruns
    | with_reducible apply moves_keepReport | with_reducible apply moves_noteHeld
    | with_reducible refine moves_updFrame ?_ ?_ (fun _ => ⟨rfl, rfl⟩)
    | with_reducible refine moves_updFrame ?_ ?_ (fun _ => by split <;> exact ⟨rfl, rfl⟩) | with_reducible apply moves_updPair
    | dsimp only | split

theorem ends_execTakeoverLineAsserted {s : State} (hL : ∀ p ∈ [Part.pair], p ∈ L) : Ends L s (execTakeoverLineAsserted s) := by
  have hs := Moves.refl L s
  unfold execTakeoverLineAsserted
  repeat' first
    | with_reducible apply ends_next | with_reducible apply ends_ite | with_reducible exact hs | with_reducible exact hL
    | exact parts_sub hL (by decide) | with_reducible apply moves_updPair | dsimp only | split

theorem ends_execClaimRefresh {s : State} (hL : ∀ p ∈ [Part.tb, .pair, .clock], p ∈ L) : Ends L s (execClaimRefresh s) := by
  have hs := Moves.refl L s
  unfold execClaimRefresh
  repeat' first
    | with_reducible apply ends_next | with_reducible apply ends_ite | with_reducible exact hs | with_reducible exact hL
    | exact parts_sub hL (by decide) | with_reducible apply moves_advanceTo | with_reducible apply moves_updPair | dsimp only | split

theorem ends_execClaimDecay {s : State} (hL : ∀ p ∈ [Part.tb, .pair, .clock], p ∈ L) : Ends L s (execClaimDecay s) := by
  have hs := Moves.refl L s
  unfold execClaimDecay
  repeat' first
    | with_reducible apply ends_next | with_reducible apply ends_ite | with_reducible exact hs | with_reducible exact hL
    | exact parts_sub hL (by decide) | with_reducible apply moves_advanceTo | with_reducible apply moves_updPair | dsimp only | split

theorem moves_leverHandover {z0 s : State} (hs : Moves L z0 s) (hL : ∀ p ∈ [Part.regs, .pair, .evr, .sent], p ∈ L) : Moves L z0
    (State.leverHandover s) := by
  unfold State.leverHandover
  repeat' first
    | with_reducible exact hs | with_reducible exact hL | exact parts_sub hL (by decide) | with_reducible apply moves_acceptHandover
    | with_reducible apply moves_refuseHandover | with_reducible apply moves_updPair | with_reducible apply moves_ite | dsimp only | split

theorem moves_leverAction {z0 s : State} (hs : Moves L z0 s) (hL : ∀ p ∈ [Part.regs, .pair, .evr, .sent], p ∈ L) : Moves L z0
    (State.leverAction s) := by
  unfold State.leverAction
  repeat' first
    | with_reducible exact hs | with_reducible exact hL | exact parts_sub hL (by decide) | with_reducible apply moves_leverHandover
    | with_reducible apply moves_raiseBlock | with_reducible apply moves_updPair | with_reducible apply moves_ite | dsimp only | split

theorem ends_execLeverOpened {s : State} (hL : ∀ p ∈ [Part.regs, .pair, .evr, .sent], p ∈ L) : Ends L s (execLeverOpened s) := by
  have hs := Moves.refl L s
  unfold execLeverOpened
  repeat' first
    | with_reducible apply ends_next | with_reducible apply ends_ite | with_reducible exact hs | with_reducible exact hL
    | exact parts_sub hL (by decide) | with_reducible apply moves_incReg | with_reducible apply moves_leverAction
    | with_reducible apply moves_raiseBlock | with_reducible apply moves_updPair | dsimp only | split

theorem ends_execLeverClosed {s : State} (hL : ∀ p ∈ [Part.pair, .evr, .power], p ∈ L) : Ends L s (execLeverClosed s) := by
  have hs := Moves.refl L s
  unfold execLeverClosed
  repeat' first
    | with_reducible apply ends_next | with_reducible apply ends_ite | with_reducible exact hs | with_reducible rfl
    | with_reducible exact Or.inl rfl | with_reducible exact Or.inl ⟨rfl, rfl⟩ | exact Or.inr (hL _ (by decide)) | with_reducible exact hL
    | exact parts_sub hL (by decide) | with_reducible assumption | with_reducible apply moves_raiseBlock
    | with_reducible apply moves_requestRole | with_reducible refine moves_requestRole_of (by assumption) ?_ ?_
    | with_reducible apply moves_updPair | dsimp only | split | fail_if_no_progress with_reducible apply moves_record

theorem ends_execLeverHandoverRetry {s : State} (hL : ∀ p ∈ [Part.regs, .tb, .pair, .evr, .sent, .clock], p ∈ L) : Ends L s
    (execLeverHandoverRetry s) := by
  have hs := Moves.refl L s
  unfold execLeverHandoverRetry
  repeat' first
    | with_reducible apply ends_next | with_reducible apply ends_ite | with_reducible exact hs | with_reducible exact hL
    | exact parts_sub hL (by decide) | with_reducible apply moves_advanceUp | with_reducible apply moves_leverHandover | dsimp only
    | split

theorem moves_setLane {z0 s : State} (hs : Moves L z0 s) (hL : ∀ p ∈ [Part.pair], p ∈ L) (l : Nat) (up : Bool) : Moves L z0 (State.setLane
    s l up) := by
  unfold State.setLane
  repeat' first
    | with_reducible exact hs | with_reducible exact hL | exact parts_sub hL (by decide) | with_reducible apply moves_updPair
    | with_reducible apply moves_ite | dsimp only | split

theorem ends_execLaneFailure {s : State} (hL : ∀ p ∈ [Part.regs, .pair], p ∈ L) (l : Fin 2) : Ends L s (execLaneFailure l s) := by
  have hs := Moves.refl L s
  unfold execLaneFailure
  repeat' first
    | with_reducible apply ends_next | with_reducible apply ends_ite | with_reducible exact hs | with_reducible exact hL
    | exact parts_sub hL (by decide) | with_reducible apply moves_incReg | with_reducible apply moves_setLane
    | with_reducible apply moves_setReg | dsimp only | split

theorem ends_execLaneRestored {s : State} (hL : ∀ p ∈ [Part.regs, .pair], p ∈ L) (l : Fin 2) : Ends L s (execLaneRestored l s) := by
  have hs := Moves.refl L s
  unfold execLaneRestored
  repeat' first
    | with_reducible apply ends_next | with_reducible apply ends_ite | with_reducible exact hs | with_reducible exact hL
    | exact parts_sub hL (by decide) | with_reducible apply moves_setLane | with_reducible apply moves_setReg | dsimp only | split

end Sys2Proof.Machine
end

