-- ==== Sys2Proof/Laws/Moves/Power.lean ====
section
/-!
SUPPORT. What each operation of Machine/Power.lean may touch.
-/

namespace Sys2Proof.Machine

set_option linter.unusedTactic false
set_option linter.unreachableTactic false

variable {L : List Part}

theorem ends_execPowerApplied {s : State} (hL : ∀ p ∈ [Part.regs, .power], p ∈ L) (slot : BitVec 5) : Ends L s (execPowerApplied slot s)
    := by
  have hs := Moves.refl L s
  unfold execPowerApplied
  repeat' first
    | with_reducible apply ends_next | with_reducible apply ends_ite | with_reducible exact hs | with_reducible exact hL
    | exact parts_sub hL (by decide) | with_reducible apply moves_setReg | with_reducible apply moves_updPower | dsimp only | split

theorem ends_execStartDelayExpiry {s : State} (hL : ∀ p ∈ [Part.tb, .power, .clock], p ∈ L) : Ends L s (execStartDelayExpiry s) := by
  have hs := Moves.refl L s
  unfold execStartDelayExpiry
  repeat' first
    | with_reducible apply ends_next | with_reducible apply ends_ite | with_reducible exact hs | with_reducible exact hL
    | exact parts_sub hL (by decide) | with_reducible apply moves_advanceUp | with_reducible apply moves_updPower | dsimp only | split

theorem moves_railsOn {z0 s : State} (hs : Moves L z0 s) (hL : ∀ p ∈ [Part.regs], p ∈ L) : Moves L z0 (State.railsOn s) := by
  unfold State.railsOn
  repeat' first
    | with_reducible exact hs | with_reducible exact hL | exact parts_sub hL (by decide) | with_reducible assumption
    | with_reducible apply moves_putReg | with_reducible apply moves_setReg | with_reducible refine moves_foldl (fun _ _ _ => ?_) ?_
    | with_reducible apply moves_ite | dsimp only | split

theorem ends_execHoldupBankCharged {s : State} (hL : ∀ p ∈ [Part.regs, .power], p ∈ L) : Ends L s (execHoldupBankCharged s) := by
  have hs := Moves.refl L s
  unfold execHoldupBankCharged
  repeat' first
    | with_reducible apply ends_next | with_reducible apply ends_ite | with_reducible exact hs | with_reducible exact hL
    | exact parts_sub hL (by decide) | with_reducible apply moves_putRegBit | with_reducible apply moves_railsOn
    | with_reducible apply moves_setReg | with_reducible apply moves_updPower | dsimp only | split

theorem ends_execResetRelease {s : State} (hL : ∀ p ∈ [Part.regs, .power], p ∈ L) : Ends L s (execResetRelease s) := by
  have hs := Moves.refl L s
  unfold execResetRelease
  repeat' first
    | with_reducible apply ends_next | with_reducible apply ends_ite | with_reducible exact hs | with_reducible exact hL
    | exact parts_sub hL (by decide) | with_reducible apply moves_incReg | with_reducible apply moves_updPower | dsimp only | split

theorem ends_execLampTestEnd {s : State} (hL : ∀ p ∈ [Part.power], p ∈ L) : Ends L s (execLampTestEnd s) := by
  have hs := Moves.refl L s
  unfold execLampTestEnd
  repeat' first
    | with_reducible apply ends_next | with_reducible apply ends_ite | with_reducible exact hs | with_reducible exact hL
    | exact parts_sub hL (by decide) | with_reducible apply moves_updPower | dsimp only | split

theorem moves_locate {z0 s : State} (hs : Moves L z0 s) (hL : ∀ p ∈ [Part.evr, .power], p ∈ L) (v : Nat) : Moves L z0 (State.locate s v).1
    := by
  unfold State.locate
  repeat' first
    | with_reducible exact hs | with_reducible exact hL | exact parts_sub hL (by decide) | with_reducible apply moves_raiseBlock
    | with_reducible apply moves_updPower | with_reducible apply moves_iteFst | dsimp only | split

theorem moves_locate_of {z0 s t9 : State} {r9 : Status} {v : Nat} (e9 : State.locate s v = (t9, r9)) (hs : Moves L z0 s) (hL : ∀ p ∈
    [Part.evr, .power], p ∈ L) : Moves L z0 t9 := by
  have := moves_locate hs hL v
  rw [e9] at this
  exact this

theorem ends_execLocateEnd {s : State} (hL : ∀ p ∈ [Part.tb, .power, .clock], p ∈ L) : Ends L s (execLocateEnd s) := by
  have hs := Moves.refl L s
  unfold execLocateEnd
  repeat' first
    | with_reducible apply ends_next | with_reducible apply ends_ite | with_reducible exact hs | with_reducible exact hL
    | exact parts_sub hL (by decide) | with_reducible apply moves_advanceUp | with_reducible apply moves_updPower | dsimp only | split

theorem moves_inputVolts {z0 s : State} (hs : Moves L z0 s) (hL : ∀ p ∈ [Part.regs], p ∈ L) (mv : Nat) : Moves L z0 (State.inputVolts s
    mv) := by
  unfold State.inputVolts
  repeat' first
    | with_reducible exact hs | with_reducible exact hL | exact parts_sub hL (by decide) | with_reducible apply moves_putRegBit
    | with_reducible apply moves_setReg | with_reducible apply moves_ite | dsimp only | split

theorem ends_execInputLowWarning {s : State} (hL : ∀ p ∈ [Part.regs, .evr], p ∈ L) (mv : BitVec 17) : Ends L s (execInputLowWarning mv s)
    := by
  have hs := Moves.refl L s
  unfold execInputLowWarning
  repeat' first
    | with_reducible apply ends_next | with_reducible apply ends_ite | with_reducible exact hs | with_reducible exact hL
    | exact parts_sub hL (by decide) | with_reducible apply moves_inputVolts | with_reducible apply moves_orReg
    | with_reducible apply moves_raiseWith | dsimp only | split

theorem ends_execInputHighWarning {s : State} (hL : ∀ p ∈ [Part.regs, .evr], p ∈ L) (mv : BitVec 17) : Ends L s (execInputHighWarning mv
    s) := by
  have hs := Moves.refl L s
  unfold execInputHighWarning
  repeat' first
    | with_reducible apply ends_next | with_reducible apply ends_ite | with_reducible exact hs | with_reducible exact hL
    | exact parts_sub hL (by decide) | with_reducible apply moves_inputVolts | with_reducible apply moves_orReg
    | with_reducible apply moves_raiseWith | dsimp only | split

theorem ends_execBrownout {s : State} (hL : ∀ p ∈ [Part.regs], p ∈ L) : Ends L s (execBrownout s) := by
  have hs := Moves.refl L s
  unfold execBrownout
  repeat' first
    | with_reducible apply ends_next | with_reducible apply ends_ite | with_reducible exact hs | with_reducible exact hL
    | exact parts_sub hL (by decide) | with_reducible apply moves_incReg | dsimp only | split

theorem ends_execRailFault {s : State} (hL : ∀ p ∈ [Part.regs, .evr], p ∈ L) (r : Fin 12) : Ends L s (execRailFault r s) := by
  have hs := Moves.refl L s
  unfold execRailFault
  repeat' first
    | with_reducible apply ends_next | with_reducible apply ends_ite | with_reducible exact hs | with_reducible exact hL
    | exact parts_sub hL (by decide) | with_reducible apply moves_incReg | with_reducible apply moves_orReg
    | with_reducible apply moves_putRegBit | with_reducible apply moves_raise | dsimp only | split

theorem moves_powerClear {z0 s : State} (hs : Moves L z0 s) (hL : ∀ p ∈ [Part.regs], p ∈ L) : Moves L z0 (State.powerClear s) := by
  unfold State.powerClear
  repeat' first
    | with_reducible exact hs | with_reducible exact hL | exact parts_sub hL (by decide) | with_reducible apply moves_zeroRegs
    | with_reducible apply moves_ite | dsimp only | split

theorem ends_execOvenWarmUpEnd {s : State} (hL : ∀ p ∈ [Part.regs], p ∈ L) : Ends L s (execOvenWarmUpEnd s) := by
  have hs := Moves.refl L s
  unfold execOvenWarmUpEnd
  repeat' first
    | with_reducible apply ends_next | with_reducible apply ends_ite | with_reducible exact hs | with_reducible exact hL
    | exact parts_sub hL (by decide) | with_reducible apply moves_putRegBit | dsimp only | split

theorem moves_startMeasurement {z0 s : State} (hs : Moves L z0 s) (hL : ∀ p ∈ [Part.power], p ∈ L) : Moves L z0 (State.startMeasurement s)
    := by
  unfold State.startMeasurement
  repeat' first
    | with_reducible exact hs | with_reducible exact hL | exact parts_sub hL (by decide) | with_reducible apply moves_updPower
    | with_reducible apply moves_ite | dsimp only | split

theorem ends_execHoldupMeasurementStart {s : State} (hL : ∀ p ∈ [Part.tb, .power, .clock], p ∈ L) : Ends L s (execHoldupMeasurementStart
    s) := by
  have hs := Moves.refl L s
  unfold execHoldupMeasurementStart
  repeat' first
    | with_reducible apply ends_next | with_reducible apply ends_ite | with_reducible exact hs | with_reducible exact hL
    | exact parts_sub hL (by decide) | with_reducible apply moves_advanceUp | with_reducible apply moves_startMeasurement | dsimp only
    | split

theorem moves_healthFlag {z0 s : State} (hs : Moves L z0 s) (hL : ∀ p ∈ [Part.regs, .evr], p ∈ L) (b : Nat) (alarm : Nat) (code : Nat) (v
    : Bool) : Moves L z0 (State.healthFlag s b alarm code v) := by
  unfold State.healthFlag
  repeat' first
    | with_reducible exact hs | with_reducible exact hL | exact parts_sub hL (by decide) | with_reducible apply moves_putRegBit
    | with_reducible apply moves_raiseBlock | with_reducible apply moves_ite | dsimp only | split

theorem ends_execHoldupMeasurementEnd {s : State} (hL : ∀ p ∈ [Part.regs, .tb, .evr, .power, .clock], p ∈ L) (r : HoldupResult) : Ends L s
    (execHoldupMeasurementEnd r s) := by
  have hs := Moves.refl L s
  unfold execHoldupMeasurementEnd
  repeat' first
    | with_reducible apply ends_next | with_reducible apply ends_ite | with_reducible exact hs | with_reducible exact hL
    | exact parts_sub hL (by decide) | with_reducible apply moves_advanceUp | with_reducible apply moves_healthFlag
    | with_reducible apply moves_setReg | with_reducible apply moves_updPower | dsimp only | split

theorem moves_losePower {z0 s : State} (hs : Moves L z0 s) (hL : ∀ p ∈ [Part.regs, .frame, .pair, .evr, .power, .qcp, .sent], p ∈ L) :
    Moves L z0 (State.losePower s) := by
  unfold State.losePower
  repeat' first
    | with_reducible exact hs | with_reducible exact hL | exact parts_sub hL (by decide) | with_reducible apply moves_cancelHandover
    | with_reducible apply moves_cancelSwitch | with_reducible apply moves_incReg | with_reducible apply moves_raiseBlock
    | with_reducible apply moves_setReg | with_reducible apply moves_updPower | with_reducible apply moves_ite | dsimp only | split

theorem ends_execPowerLossDetected {s : State} (hL : ∀ p ∈ [Part.regs, .frame, .pair, .evr, .power, .qcp, .sent], p ∈ L) : Ends L s
    (execPowerLossDetected s) := by
  have hs := Moves.refl L s
  unfold execPowerLossDetected
  repeat' first
    | with_reducible apply ends_next | with_reducible apply ends_ite | with_reducible exact hs | with_reducible exact hL
    | exact parts_sub hL (by decide) | with_reducible apply moves_losePower | dsimp only | split

theorem ends_execOvervoltage {s : State} (hL : ∀ p ∈ [Part.regs, .frame, .pair, .evr, .power, .qcp, .sent], p ∈ L) : Ends L s
    (execOvervoltage s) := by
  have hs := Moves.refl L s
  unfold execOvervoltage
  repeat' first
    | with_reducible apply ends_next | with_reducible apply ends_ite | with_reducible exact hs | with_reducible exact hL
    | exact parts_sub hL (by decide) | with_reducible apply moves_losePower | with_reducible apply moves_putRegBit
    | with_reducible apply moves_updPower | dsimp only | split

theorem moves_shed {z0 s : State} (hs : Moves L z0 s) (hL : ∀ p ∈ [Part.regs], p ∈ L) (r : Nat) : Moves L z0 (State.shed s r) := by
  unfold State.shed
  repeat' first
    | with_reducible exact hs | with_reducible exact hL | exact parts_sub hL (by decide) | with_reducible apply moves_putRegBit
    | with_reducible apply moves_setReg | with_reducible apply moves_ite | dsimp only | split

theorem moves_releaseYoke {z0 s : State} (hs : Moves L z0 s) (hL : ∀ p ∈ [Part.pair], p ∈ L) : Moves L z0 (State.releaseYoke s) := by
  unfold State.releaseYoke
  repeat' first
    | with_reducible exact hs | with_reducible exact hL | exact parts_sub hL (by decide) | with_reducible apply moves_updPair
    | with_reducible apply moves_ite | dsimp only | split

theorem ends_execPowerLossTick {s : State} (hL : ∀ p ∈ [Part.regs, .tb, .frame, .pair, .net, .can0, .can1, .evr, .power, .qcp, .clock], p
    ∈ L) : Ends L s (execPowerLossTick s) := by
  have hs := Moves.refl L s
  unfold execPowerLossTick
  repeat' first
    | with_reducible apply ends_next | with_reducible apply ends_ite | with_reducible exact hs | with_reducible exact hL
    | exact parts_sub hL (by decide) | with_reducible assumption | with_reducible apply moves_abandonTasks
    | with_reducible apply moves_advanceTo | with_reducible apply moves_endAllSessions | with_reducible apply moves_releaseYoke
    | with_reducible apply moves_setLink | with_reducible apply moves_shed | with_reducible apply moves_updNet
    | with_reducible apply moves_updPower | with_reducible refine moves_foldl (fun _ _ _ => ?_) ?_ | dsimp only | split

theorem moves_retain {z0 s : State} (hs : Moves L z0 s) (hL : ∀ p ∈ [Part.regs, .frame, .power], p ∈ L) : Moves L z0 (State.retain s) :=
    by
  unfold State.retain
  repeat' first
    | with_reducible exact hs | with_reducible exact hL | exact parts_sub hL (by decide) | with_reducible apply moves_setReg
    | with_reducible refine moves_updFrame ?_ ?_ (fun _ => ⟨rfl, rfl⟩)
    | with_reducible refine moves_updFrame ?_ ?_ (fun _ => by split <;> exact ⟨rfl, rfl⟩) | with_reducible apply moves_updPower
    | with_reducible apply moves_ite | dsimp only | split

theorem ends_execRetentiveCommitComplete {s : State} (hL : ∀ p ∈ [Part.regs, .tb, .frame, .pair, .evr, .power, .sent, .clock], p ∈ L) (us
    : Word) (bytes : Word) : Ends L s (execRetentiveCommitComplete us bytes s) := by
  have hs := Moves.refl L s
  unfold execRetentiveCommitComplete
  repeat' first
    | with_reducible apply ends_next | with_reducible apply ends_ite | with_reducible exact hs | with_reducible exact hL
    | exact parts_sub hL (by decide) | with_reducible apply moves_advanceUp | with_reducible apply moves_recordEvent
    | with_reducible apply moves_releaseYoke | with_reducible apply moves_retain | with_reducible apply moves_setReg
    | with_reducible apply moves_updPower | dsimp only | split

theorem ends_execPowerLossSequenceEnd {s : State} (hL : ∀ p ∈ [Part.regs, .tb, .pair, .evr, .power, .clock], p ∈ L) (e : LossEnd) : Ends L
    s (execPowerLossSequenceEnd e s) := by
  have hs := Moves.refl L s
  unfold execPowerLossSequenceEnd
  repeat' first
    | with_reducible apply ends_next | with_reducible apply ends_ite | with_reducible exact hs | with_reducible exact hL
    | exact parts_sub hL (by decide) | with_reducible apply moves_advanceUp | with_reducible apply moves_releaseYoke
    | with_reducible apply moves_setReg | with_reducible refine moves_updEvrSame ?_ ?_ (fun _ => rfl) | with_reducible apply moves_updEvr
    | exact fun _ => Nat.zero_le _ | with_reducible apply moves_updPair | with_reducible apply moves_updPower | dsimp only | split

end Sys2Proof.Machine
end

