-- ==== Sys2Proof/Laws/Moves/RegEffects.lean ====
section
/-!
SUPPORT. What each operation of Machine/RegEffects.lean may touch.
-/

namespace Sys2Proof.Machine

set_option linter.unusedTactic false
set_option linter.unreachableTactic false

variable {L : List Part}

theorem moves_writePlain {z0 s : State} (hs : Moves L z0 s) (hL : ∀ p ∈ [Part.regs], p ∈ L) (a : Nat) (v : Word) : Moves L z0
    (State.writePlain s a v) := by
  unfold State.writePlain
  repeat' first
    | with_reducible exact hs | with_reducible exact hL | exact parts_sub hL (by decide) | with_reducible apply moves_setReg
    | with_reducible apply moves_ite | dsimp only | split

theorem moves_dropWindow {z0 s : State} (hs : Moves L z0 s) (hL : ∀ p ∈ [Part.staged], p ∈ L) (w : WinId) : Moves L z0 (State.dropWindow s
    w) := by
  unfold State.dropWindow
  repeat' first
    | with_reducible exact hs | with_reducible rfl | with_reducible exact Or.inl rfl | with_reducible exact Or.inl ⟨rfl, rfl⟩
    | exact Or.inr (hL _ (by decide)) | with_reducible exact hL | exact parts_sub hL (by decide) | with_reducible apply moves_ite
    | dsimp only | split | fail_if_no_progress with_reducible apply moves_record

theorem moves_selectUnit {z0 s : State} (hs : Moves L z0 s) (hL : ∀ p ∈ [Part.regs, .staged], p ∈ L) (a : Nat) (v : Word) (w : WinId) :
    Moves L z0 (State.selectUnit s a v w).1 := by
  unfold State.selectUnit
  repeat' first
    | with_reducible exact hs | with_reducible exact hL | exact parts_sub hL (by decide) | with_reducible assumption
    | with_reducible apply moves_dropWindow | with_reducible apply moves_ok | with_reducible refine moves_ok_of (by assumption) ?_
    | with_reducible apply moves_writePlain | with_reducible apply moves_iteFst | dsimp only | split

theorem moves_selectUnit_of {z0 s t9 : State} {r9 : Option Reply} {a : Nat} {v : Word} {w : WinId} (e9 : State.selectUnit s a v w = (t9,
    r9)) (hs : Moves L z0 s) (hL : ∀ p ∈ [Part.regs, .staged], p ∈ L) : Moves L z0 t9 := by
  have := moves_selectUnit hs hL a v w
  rw [e9] at this
  exact this

theorem moves_writeWindow {z0 s : State} (hs : Moves L z0 s) (hL : ∀ p ∈ [Part.staged], p ∈ L) (x : WindowWord) (v : Word) : Moves L z0
    (State.writeWindow s x v).1 := by
  unfold State.writeWindow
  repeat' first
    | with_reducible exact hs | with_reducible exact hL | exact parts_sub hL (by decide) | with_reducible assumption
    | with_reducible apply moves_ok | with_reducible refine moves_ok_of (by assumption) ?_ | with_reducible apply moves_stageWord
    | with_reducible apply moves_iteFst | dsimp only | split

theorem moves_writeWindow_of {z0 s t9 : State} {r9 : Option Reply} {x : WindowWord} {v : Word} (e9 : State.writeWindow s x v = (t9, r9))
    (hs : Moves L z0 s) (hL : ∀ p ∈ [Part.staged], p ∈ L) : Moves L z0 t9 := by
  have := moves_writeWindow hs hL x v
  rw [e9] at this
  exact this

theorem moves_onOne {z0 s : State} (hs : Moves L z0 s) (v : Word) (f : State → Answer) (hf : ∀ (u9 : State), Moves L z0 u9 → Moves L z0 (f
    u9).1) : Moves L z0 (State.onOne s v f).1 := by
  unfold State.onOne
  repeat' first
    | with_reducible exact hs | with_reducible assumption | with_reducible apply hf | with_reducible apply moves_ok
    | with_reducible refine moves_ok_of (by assumption) ?_ | with_reducible apply moves_iteFst | dsimp only | split

theorem moves_answeredOwners {z0 : State} {r : State × Status} (hs : Moves L z0 r.1) : Moves L z0 (answeredOwners r).1 := hs

theorem moves_registerAnswer {z0 : State} {r : State × Option Reply} (hs : Moves L z0 r.1) : Moves L z0 (registerAnswer r).1 := by
  obtain ⟨t, o⟩ := r
  cases o with
  | none => exact moves_ok hs
  | some x =>
    unfold registerAnswer
    dsimp only
    split
    · exact moves_ok hs
    · exact hs

theorem moves_restep {z0 s : State} (hs : Moves L z0 s) (hL : ∀ p ∈ [Part.regs, .tb, .frame, .pair, .evr, .qcp, .sent], p ∈ L) : Moves L
    z0 (State.restep s).1 := by
  unfold State.restep
  repeat' first
    | with_reducible exact hs | with_reducible rfl | with_reducible exact Or.inl rfl | with_reducible exact Or.inl ⟨rfl, rfl⟩
    | exact Or.inr (hL _ (by decide)) | with_reducible exact hL | exact parts_sub hL (by decide) | with_reducible assumption
    | with_reducible apply moves_cancelSwitch | with_reducible apply moves_ok | with_reducible refine moves_ok_of (by assumption) ?_
    | with_reducible apply moves_pass | with_reducible apply moves_updPair | with_reducible apply moves_iteFst | dsimp only | split
    | fail_if_no_progress with_reducible apply moves_record

theorem moves_restep_of {z0 s t9 : State} {r9 : Option Reply} (e9 : State.restep s = (t9, r9)) (hs : Moves L z0 s) (hL : ∀ p ∈ [Part.regs,
    .tb, .frame, .pair, .evr, .qcp, .sent], p ∈ L) : Moves L z0 t9 := by
  have := moves_restep hs hL 
  rw [e9] at this
  exact this

theorem moves_writeCapture {z0 s : State} (hs : Moves L z0 s) (hL : ∀ p ∈ [Part.regs, .tb], p ∈ L) (n : Nat) (v : Word) : Moves L z0
    (State.writeCapture s n v).1 := by
  unfold State.writeCapture
  repeat' first
    | with_reducible exact hs | with_reducible exact hL | exact parts_sub hL (by decide) | with_reducible assumption
    | with_reducible apply moves_armCapture | with_reducible apply moves_ok | with_reducible refine moves_ok_of (by assumption) ?_
    | with_reducible apply moves_writePlain | with_reducible apply moves_iteFst | dsimp only | split

theorem moves_writeCapture_of {z0 s t9 : State} {r9 : Option Reply} {n : Nat} {v : Word} (e9 : State.writeCapture s n v = (t9, r9)) (hs :
    Moves L z0 s) (hL : ∀ p ∈ [Part.regs, .tb], p ∈ L) : Moves L z0 t9 := by
  have := moves_writeCapture hs hL n v
  rw [e9] at this
  exact this

theorem moves_writeTb {z0 s : State} (hs : Moves L z0 s) (hL : ∀ p ∈ [Part.regs, .tb, .frame, .pair, .evr, .qcp, .sent], p ∈ L) (a : Nat)
    (v : Word) : Moves L z0 (State.writeTb s a v).1 := by
  unfold State.writeTb
  repeat' first
    | with_reducible exact hs | with_reducible exact hL | exact parts_sub hL (by decide) | with_reducible assumption
    | with_reducible apply moves_ok | with_reducible refine moves_ok_of (by assumption) ?_ | with_reducible apply moves_restep
    | with_reducible refine moves_restep_of (by assumption) ?_ ?_ | with_reducible apply moves_setRate
    | with_reducible apply moves_writeCapture | with_reducible refine moves_writeCapture_of (by assumption) ?_ ?_
    | with_reducible apply moves_writePlain | with_reducible apply moves_iteFst | dsimp only | split

theorem moves_writeTb_of {z0 s t9 : State} {r9 : Option Reply} {a : Nat} {v : Word} (e9 : State.writeTb s a v = (t9, r9)) (hs : Moves L z0
    s) (hL : ∀ p ∈ [Part.regs, .tb, .frame, .pair, .evr, .qcp, .sent], p ∈ L) : Moves L z0 t9 := by
  have := moves_writeTb hs hL a v
  rw [e9] at this
  exact this

theorem moves_writePtp {z0 s : State} (hs : Moves L z0 s) (hL : ∀ p ∈ [Part.regs, .ptp, .evr], p ∈ L) (a : Nat) (v : Word) : Moves L z0
    (State.writePtp s a v).1 := by
  unfold State.writePtp
  repeat' first
    | with_reducible exact hs | with_reducible rfl | with_reducible exact Or.inl rfl | with_reducible exact Or.inl ⟨rfl, rfl⟩
    | exact Or.inr (hL _ (by decide)) | with_reducible exact hL | exact parts_sub hL (by decide) | with_reducible assumption
    | with_reducible apply moves_ok | with_reducible refine moves_ok_of (by assumption) ?_
    | with_reducible refine moves_onOne ?_ _ _ (fun _ _ => ?_) | with_reducible refine moves_onOne_of (by assumption) ?_
    | with_reducible apply moves_portClear | with_reducible apply moves_ptpClear | with_reducible apply moves_setMasters
    | with_reducible apply moves_setReg | with_reducible apply moves_writePlain | with_reducible apply moves_iteFst | dsimp only | split
    | fail_if_no_progress with_reducible apply moves_record

theorem moves_writePtp_of {z0 s t9 : State} {r9 : Option Reply} {a : Nat} {v : Word} (e9 : State.writePtp s a v = (t9, r9)) (hs : Moves L
    z0 s) (hL : ∀ p ∈ [Part.regs, .ptp, .evr], p ∈ L) : Moves L z0 t9 := by
  have := moves_writePtp hs hL a v
  rw [e9] at this
  exact this

theorem moves_dropDisabled {z0 s : State} (hs : Moves L z0 s) (hL : ∀ p ∈ [Part.regs, .tb, .ptp, .acq, .evr], p ∈ L) (r : Nat) : Moves L
    z0 (State.dropDisabled s r) := by
  unfold State.dropDisabled
  repeat' first
    | with_reducible exact hs | with_reducible exact hL | exact parts_sub hL (by decide) | with_reducible apply moves_loseRef
    | with_reducible apply moves_setRef | with_reducible apply moves_setRefState | with_reducible apply moves_ite | dsimp only | split

theorem moves_writeTref {z0 s : State} (hs : Moves L z0 s) (hL : ∀ p ∈ [Part.regs, .tb, .ptp, .acq, .evr], p ∈ L) (a : Nat) (v : Word) :
    Moves L z0 (State.writeTref s a v).1 := by
  unfold State.writeTref
  repeat' first
    | with_reducible exact hs | with_reducible exact hL | exact parts_sub hL (by decide) | with_reducible assumption
    | with_reducible apply moves_dropDisabled | with_reducible apply moves_lockedFigures | with_reducible apply moves_ok
    | with_reducible refine moves_ok_of (by assumption) ?_ | with_reducible refine moves_onOne ?_ _ _ (fun _ _ => ?_)
    | with_reducible refine moves_onOne_of (by assumption) ?_ | with_reducible apply moves_refClear
    | with_reducible apply moves_writePlain | with_reducible apply moves_iteFst | dsimp only | split

theorem moves_writeTref_of {z0 s t9 : State} {r9 : Option Reply} {a : Nat} {v : Word} (e9 : State.writeTref s a v = (t9, r9)) (hs : Moves
    L z0 s) (hL : ∀ p ∈ [Part.regs, .tb, .ptp, .acq, .evr], p ∈ L) : Moves L z0 t9 := by
  have := moves_writeTref hs hL a v
  rw [e9] at this
  exact this

theorem moves_writeMode {z0 s : State} (hs : Moves L z0 s) (hL : ∀ p ∈ [Part.regs, .frame, .evr, .sent], p ∈ L) (a : Nat) (v : Word) :
    Moves L z0 (State.writeMode s a v).1 := by
  unfold State.writeMode
  repeat' first
    | with_reducible exact hs | with_reducible exact hL | exact parts_sub hL (by decide) | with_reducible assumption
    | with_reducible apply moves_badParameter | with_reducible refine moves_badParameter_of (by assumption) ?_
    | with_reducible apply moves_ok | with_reducible refine moves_ok_of (by assumption) ?_ | with_reducible apply moves_registerAnswer
    | with_reducible apply moves_requestMode | with_reducible refine moves_requestMode_of (by assumption) ?_ ?_
    | with_reducible apply moves_writePlain | with_reducible apply moves_iteFst | dsimp only | split

theorem moves_writeMode_of {z0 s t9 : State} {r9 : Option Reply} {a : Nat} {v : Word} (e9 : State.writeMode s a v = (t9, r9)) (hs : Moves
    L z0 s) (hL : ∀ p ∈ [Part.regs, .frame, .evr, .sent], p ∈ L) : Moves L z0 t9 := by
  have := moves_writeMode hs hL a v
  rw [e9] at this
  exact this

theorem moves_writePair {z0 s : State} (hs : Moves L z0 s) (hL : ∀ p ∈ [Part.regs, .pair], p ∈ L) (a : Nat) (v : Word) : Moves L z0
    (State.writePair s a v).1 := by
  unfold State.writePair
  repeat' first
    | with_reducible exact hs | with_reducible exact hL | exact parts_sub hL (by decide) | with_reducible assumption
    | with_reducible apply moves_badParameter | with_reducible refine moves_badParameter_of (by assumption) ?_
    | with_reducible apply moves_ok | with_reducible refine moves_ok_of (by assumption) ?_
    | with_reducible refine moves_onOne ?_ _ _ (fun _ _ => ?_) | with_reducible refine moves_onOne_of (by assumption) ?_
    | with_reducible apply moves_pairClear | with_reducible apply moves_registerAnswer | with_reducible apply moves_requestRole
    | with_reducible refine moves_requestRole_of (by assumption) ?_ ?_ | with_reducible apply moves_updPair
    | with_reducible apply moves_writePlain | with_reducible apply moves_iteFst | dsimp only | split

theorem moves_writePair_of {z0 s t9 : State} {r9 : Option Reply} {a : Nat} {v : Word} (e9 : State.writePair s a v = (t9, r9)) (hs : Moves
    L z0 s) (hL : ∀ p ∈ [Part.regs, .pair], p ∈ L) : Moves L z0 t9 := by
  have := moves_writePair hs hL a v
  rw [e9] at this
  exact this

theorem moves_writeLock {z0 s : State} (hs : Moves L z0 s) (hL : ∀ p ∈ [Part.regs, .lock, .evr], p ∈ L) (a : Nat) (v : Word) : Moves L z0
    (State.writeLock s a v).1 := by
  unfold State.writeLock
  repeat' first
    | with_reducible exact hs | with_reducible exact hL | exact parts_sub hL (by decide) | with_reducible assumption
    | with_reducible apply moves_endLockout | with_reducible apply moves_lockClear | with_reducible apply moves_ok
    | with_reducible refine moves_ok_of (by assumption) ?_ | with_reducible apply moves_raiseBlock | with_reducible apply moves_setReg
    | with_reducible apply moves_writePlain | with_reducible apply moves_iteFst | dsimp only | split

theorem moves_writeLock_of {z0 s t9 : State} {r9 : Option Reply} {a : Nat} {v : Word} (e9 : State.writeLock s a v = (t9, r9)) (hs : Moves
    L z0 s) (hL : ∀ p ∈ [Part.regs, .lock, .evr], p ∈ L) : Moves L z0 t9 := by
  have := moves_writeLock hs hL a v
  rw [e9] at this
  exact this

theorem moves_writeFrame {z0 s : State} (hs : Moves L z0 s) (hL : ∀ p ∈ [Part.regs], p ∈ L) (a : Nat) (v : Word) : Moves L z0
    (State.writeFrame s a v).1 := by
  unfold State.writeFrame
  repeat' first
    | with_reducible exact hs | with_reducible exact hL | exact parts_sub hL (by decide) | with_reducible assumption
    | with_reducible apply moves_frameClear | with_reducible apply moves_ok | with_reducible refine moves_ok_of (by assumption) ?_
    | with_reducible refine moves_onOne ?_ _ _ (fun _ _ => ?_) | with_reducible refine moves_onOne_of (by assumption) ?_
    | with_reducible apply moves_tackClear | with_reducible apply moves_taskClear | with_reducible apply moves_writePlain
    | with_reducible apply moves_iteFst | dsimp only | split

theorem moves_writeFrame_of {z0 s t9 : State} {r9 : Option Reply} {a : Nat} {v : Word} (e9 : State.writeFrame s a v = (t9, r9)) (hs :
    Moves L z0 s) (hL : ∀ p ∈ [Part.regs], p ∈ L) : Moves L z0 t9 := by
  have := moves_writeFrame hs hL a v
  rw [e9] at this
  exact this

theorem moves_writeImg {z0 s : State} (hs : Moves L z0 s) (hL : ∀ p ∈ [Part.regs], p ∈ L) (a : Nat) (v : Word) : Moves L z0
    (State.writeImg s a v).1 := by
  unfold State.writeImg
  repeat' first
    | with_reducible exact hs | with_reducible exact hL | exact parts_sub hL (by decide) | with_reducible assumption
    | with_reducible apply moves_imgClear | with_reducible apply moves_ok | with_reducible refine moves_ok_of (by assumption) ?_
    | with_reducible refine moves_onOne ?_ _ _ (fun _ _ => ?_) | with_reducible refine moves_onOne_of (by assumption) ?_
    | with_reducible apply moves_writePlain | with_reducible apply moves_iteFst | dsimp only | split

theorem moves_writeImg_of {z0 s t9 : State} {r9 : Option Reply} {a : Nat} {v : Word} (e9 : State.writeImg s a v = (t9, r9)) (hs : Moves L
    z0 s) (hL : ∀ p ∈ [Part.regs], p ∈ L) : Moves L z0 t9 := by
  have := moves_writeImg hs hL a v
  rw [e9] at this
  exact this

theorem moves_writeId {z0 s : State} (hs : Moves L z0 s) (hL : ∀ p ∈ [Part.regs, .evr, .power], p ∈ L) (a : Nat) (v : Word) : Moves L z0
    (State.writeId s a v).1 := by
  unfold State.writeId
  repeat' first
    | with_reducible exact hs | with_reducible exact hL | exact parts_sub hL (by decide) | with_reducible assumption
    | with_reducible apply moves_answered | with_reducible apply moves_locate
    | with_reducible refine moves_locate_of (by assumption) ?_ ?_ | with_reducible apply moves_ok
    | with_reducible refine moves_ok_of (by assumption) ?_ | with_reducible apply moves_writePlain | with_reducible apply moves_iteFst
    | dsimp only | split

theorem moves_writeId_of {z0 s t9 : State} {r9 : Option Reply} {a : Nat} {v : Word} (e9 : State.writeId s a v = (t9, r9)) (hs : Moves L z0
    s) (hL : ∀ p ∈ [Part.regs, .evr, .power], p ∈ L) : Moves L z0 t9 := by
  have := moves_writeId hs hL a v
  rw [e9] at this
  exact this

theorem moves_writePower {z0 s : State} (hs : Moves L z0 s) (hL : ∀ p ∈ [Part.regs, .power], p ∈ L) (a : Nat) (v : Word) : Moves L z0
    (State.writePower s a v).1 := by
  unfold State.writePower
  repeat' first
    | with_reducible exact hs | with_reducible exact hL | exact parts_sub hL (by decide) | with_reducible assumption
    | with_reducible apply moves_ok | with_reducible refine moves_ok_of (by assumption) ?_
    | with_reducible refine moves_onOne ?_ _ _ (fun _ _ => ?_) | with_reducible refine moves_onOne_of (by assumption) ?_
    | with_reducible apply moves_powerClear | with_reducible apply moves_startMeasurement | with_reducible apply moves_writePlain
    | with_reducible apply moves_iteFst | dsimp only | split

theorem moves_writePower_of {z0 s t9 : State} {r9 : Option Reply} {a : Nat} {v : Word} (e9 : State.writePower s a v = (t9, r9)) (hs :
    Moves L z0 s) (hL : ∀ p ∈ [Part.regs, .power], p ∈ L) : Moves L z0 t9 := by
  have := moves_writePower hs hL a v
  rw [e9] at this
  exact this

theorem moves_writeLining {z0 s : State} (hs : Moves L z0 s) (hL : ∀ p ∈ [Part.regs, .evr], p ∈ L) (a : Nat) (v : Word) : Moves L z0
    (State.writeLining s a v).1 := by
  unfold State.writeLining
  repeat' first
    | with_reducible exact hs | with_reducible exact hL | exact parts_sub hL (by decide) | with_reducible assumption
    | with_reducible apply moves_ackTamper | with_reducible apply moves_ok | with_reducible refine moves_ok_of (by assumption) ?_
    | with_reducible apply moves_raiseBlock | with_reducible apply moves_writePlain | with_reducible apply moves_iteFst | dsimp only
    | split

theorem moves_writeLining_of {z0 s t9 : State} {r9 : Option Reply} {a : Nat} {v : Word} (e9 : State.writeLining s a v = (t9, r9)) (hs :
    Moves L z0 s) (hL : ∀ p ∈ [Part.regs, .evr], p ∈ L) : Moves L z0 t9 := by
  have := moves_writeLining hs hL a v
  rw [e9] at this
  exact this

theorem moves_writeUpd {z0 s : State} (hs : Moves L z0 s) (hL : ∀ p ∈ [Part.regs, .wins, .frame, .evr, .trust], p ∈ L) (a : Nat) (v :
    Word) : Moves L z0 (State.writeUpd s a v).1 := by
  unfold State.writeUpd
  repeat' first
    | with_reducible exact hs | with_reducible exact hL | exact parts_sub hL (by decide) | with_reducible assumption
    | with_reducible apply moves_ok | with_reducible refine moves_ok_of (by assumption) ?_
    | with_reducible refine moves_onOne ?_ _ _ (fun _ _ => ?_) | with_reducible refine moves_onOne_of (by assumption) ?_
    | with_reducible apply moves_revertNow | with_reducible apply moves_updClear | with_reducible apply moves_writePlain
    | with_reducible apply moves_iteFst | dsimp only | split

theorem moves_writeUpd_of {z0 s t9 : State} {r9 : Option Reply} {a : Nat} {v : Word} (e9 : State.writeUpd s a v = (t9, r9)) (hs : Moves L
    z0 s) (hL : ∀ p ∈ [Part.regs, .wins, .frame, .evr, .trust], p ∈ L) : Moves L z0 t9 := by
  have := moves_writeUpd hs hL a v
  rw [e9] at this
  exact this

theorem moves_writeSec {z0 s : State} (hs : Moves L z0 s) (hL : ∀ p ∈ [Part.regs, .evr], p ∈ L) (a : Nat) (v : Word) : Moves L z0
    (State.writeSec s a v).1 := by
  unfold State.writeSec
  repeat' first
    | with_reducible exact hs | with_reducible exact hL | exact parts_sub hL (by decide) | with_reducible assumption
    | with_reducible apply moves_answered | with_reducible apply moves_fuseEpoch
    | with_reducible refine moves_fuseEpoch_of (by assumption) ?_ ?_ | with_reducible apply moves_ok
    | with_reducible refine moves_ok_of (by assumption) ?_ | with_reducible apply moves_setLock | with_reducible apply moves_writePlain
    | with_reducible apply moves_iteFst | dsimp only | split

theorem moves_writeSec_of {z0 s t9 : State} {r9 : Option Reply} {a : Nat} {v : Word} (e9 : State.writeSec s a v = (t9, r9)) (hs : Moves L
    z0 s) (hL : ∀ p ∈ [Part.regs, .evr], p ∈ L) : Moves L z0 t9 := by
  have := moves_writeSec hs hL a v
  rw [e9] at this
  exact this

theorem moves_disablePmu {z0 s : State} (hs : Moves L z0 s) (hL : ∀ p ∈ [Part.regs, .wins, .evr], p ∈ L) (m : Nat) : Moves L z0
    (State.disablePmu s m) := by
  unfold State.disablePmu
  repeat' first
    | with_reducible exact hs | with_reducible exact hL | exact parts_sub hL (by decide) | with_reducible apply moves_claimPha
    | with_reducible apply moves_raise | with_reducible apply moves_setReg | with_reducible apply moves_setWin
    | with_reducible apply moves_ite | dsimp only | split

theorem moves_writeAcqCfg {z0 s : State} (hs : Moves L z0 s) (hL : ∀ p ∈ [Part.regs, .wins, .evr], p ∈ L) (v : Word) : Moves L z0
    (State.writeAcqCfg s v) := by
  unfold State.writeAcqCfg
  repeat' first
    | with_reducible exact hs | with_reducible exact hL | exact parts_sub hL (by decide) | with_reducible assumption
    | with_reducible apply moves_disablePmu | with_reducible apply moves_writePlain
    | with_reducible refine moves_foldl (fun _ _ _ => ?_) ?_ | with_reducible apply moves_ite | dsimp only | split

theorem moves_writeAcq {z0 s : State} (hs : Moves L z0 s) (hL : ∀ p ∈ [Part.regs, .wins, .staged, .acq, .evr, .qcp], p ∈ L) (a : Nat) (v :
    Word) : Moves L z0 (State.writeAcq s a v).1 := by
  unfold State.writeAcq
  repeat' first
    | with_reducible exact hs | with_reducible exact hL | exact parts_sub hL (by decide) | with_reducible assumption
    | with_reducible apply moves_acqClear | with_reducible apply moves_commitPmu
    | with_reducible refine moves_commitPmu_of (by assumption) ?_ ?_ | with_reducible apply moves_commitSv
    | with_reducible refine moves_commitSv_of (by assumption) ?_ ?_ | with_reducible apply moves_ok
    | with_reducible refine moves_ok_of (by assumption) ?_ | with_reducible refine moves_onOne ?_ _ _ (fun _ _ => ?_)
    | with_reducible refine moves_onOne_of (by assumption) ?_ | with_reducible apply moves_selectUnit
    | with_reducible refine moves_selectUnit_of (by assumption) ?_ ?_ | with_reducible apply moves_writeAcqCfg
    | with_reducible apply moves_writePlain | with_reducible apply moves_iteFst | dsimp only | split

theorem moves_writeAcq_of {z0 s t9 : State} {r9 : Option Reply} {a : Nat} {v : Word} (e9 : State.writeAcq s a v = (t9, r9)) (hs : Moves L
    z0 s) (hL : ∀ p ∈ [Part.regs, .wins, .staged, .acq, .evr, .qcp], p ∈ L) : Moves L z0 t9 := by
  have := moves_writeAcq hs hL a v
  rw [e9] at this
  exact this

theorem moves_writeChannel {z0 s : State} (hs : Moves L z0 s) (hL : ∀ p ∈ [Part.regs, .acq], p ∈ L) (n : Nat) (a : Nat) (v : Word) : Moves
    L z0 (State.writeChannel s n a v) := by
  unfold State.writeChannel
  repeat' first
    | with_reducible exact hs | with_reducible exact hL | exact parts_sub hL (by decide) | with_reducible apply moves_setChan
    | with_reducible apply moves_updAcq | with_reducible apply moves_writePlain | with_reducible apply moves_ite | dsimp only | split

theorem moves_writePha {z0 s : State} (hs : Moves L z0 s) (hL : ∀ p ∈ [Part.regs, .acq, .evr], p ∈ L) (n : Nat) (v : Word) : Moves L z0
    (State.writePha s n v).1 := by
  unfold State.writePha
  repeat' first
    | with_reducible exact hs | with_reducible exact hL | exact parts_sub hL (by decide) | with_reducible assumption
    | with_reducible apply moves_acqConflict | with_reducible refine moves_acqConflict_of (by assumption) ?_ ?_
    | with_reducible apply moves_ok | with_reducible refine moves_ok_of (by assumption) ?_ | with_reducible apply moves_updAcq
    | with_reducible apply moves_writePlain | with_reducible apply moves_iteFst | dsimp only | split

theorem moves_writePha_of {z0 s t9 : State} {r9 : Option Reply} {n : Nat} {v : Word} (e9 : State.writePha s n v = (t9, r9)) (hs : Moves L
    z0 s) (hL : ∀ p ∈ [Part.regs, .acq, .evr], p ∈ L) : Moves L z0 t9 := by
  have := moves_writePha hs hL n v
  rw [e9] at this
  exact this

theorem moves_writeAch {z0 s : State} (hs : Moves L z0 s) (hL : ∀ p ∈ [Part.regs, .acq, .evr], p ∈ L) (n : Nat) (a : Nat) (v : Word) :
    Moves L z0 (State.writeAch s n a v).1 := by
  unfold State.writeAch
  repeat' first
    | with_reducible exact hs | with_reducible exact hL | exact parts_sub hL (by decide) | with_reducible assumption
    | with_reducible apply moves_achClear | with_reducible apply moves_loadEntry | with_reducible apply moves_ok
    | with_reducible refine moves_ok_of (by assumption) ?_ | with_reducible refine moves_onOne ?_ _ _ (fun _ _ => ?_)
    | with_reducible refine moves_onOne_of (by assumption) ?_ | with_reducible apply moves_writeChannel
    | with_reducible apply moves_writePha | with_reducible refine moves_writePha_of (by assumption) ?_ ?_
    | with_reducible apply moves_writePlain | with_reducible apply moves_iteFst | dsimp only | split

theorem moves_writeAch_of {z0 s t9 : State} {r9 : Option Reply} {n : Nat} {a : Nat} {v : Word} (e9 : State.writeAch s n a v = (t9, r9))
    (hs : Moves L z0 s) (hL : ∀ p ∈ [Part.regs, .acq, .evr], p ∈ L) : Moves L z0 t9 := by
  have := moves_writeAch hs hL n a v
  rw [e9] at this
  exact this

theorem moves_writeTrg {z0 s : State} (hs : Moves L z0 s) (hL : ∀ p ∈ [Part.regs, .staged, .trg, .evr, .qcp, .sent], p ∈ L) (a : Nat) (v :
    Word) : Moves L z0 (State.writeTrg s a v).1 := by
  unfold State.writeTrg
  repeat' first
    | with_reducible exact hs | with_reducible exact hL | exact parts_sub hL (by decide) | with_reducible assumption
    | with_reducible apply moves_commitLine | with_reducible refine moves_commitLine_of (by assumption) ?_ ?_
    | with_reducible apply moves_commitPattern | with_reducible refine moves_commitPattern_of (by assumption) ?_ ?_
    | with_reducible apply moves_commitProfile | with_reducible refine moves_commitProfile_of (by assumption) ?_ ?_
    | with_reducible apply moves_forwardGroup | with_reducible apply moves_ok | with_reducible refine moves_ok_of (by assumption) ?_
    | with_reducible refine moves_onOne ?_ _ _ (fun _ _ => ?_) | with_reducible refine moves_onOne_of (by assumption) ?_
    | with_reducible apply moves_openRecord | with_reducible apply moves_restartUnit | with_reducible apply moves_selectUnit
    | with_reducible refine moves_selectUnit_of (by assumption) ?_ ?_ | with_reducible apply moves_setFlags
    | with_reducible apply moves_trgClear | with_reducible apply moves_writePlain | with_reducible apply moves_iteFst | dsimp only | split

theorem moves_writeTrg_of {z0 s t9 : State} {r9 : Option Reply} {a : Nat} {v : Word} (e9 : State.writeTrg s a v = (t9, r9)) (hs : Moves L
    z0 s) (hL : ∀ p ∈ [Part.regs, .staged, .trg, .evr, .qcp, .sent], p ∈ L) : Moves L z0 t9 := by
  have := moves_writeTrg hs hL a v
  rw [e9] at this
  exact this

theorem moves_writeTdc {z0 s : State} (hs : Moves L z0 s) (hL : ∀ p ∈ [Part.regs, .trg], p ∈ L) (a : Nat) (v : Word) : Moves L z0
    (State.writeTdc s a v).1 := by
  unfold State.writeTdc
  repeat' first
    | with_reducible exact hs | with_reducible exact hL | exact parts_sub hL (by decide) | with_reducible assumption
    | with_reducible apply moves_ok | with_reducible refine moves_ok_of (by assumption) ?_
    | with_reducible refine moves_onOne ?_ _ _ (fun _ _ => ?_) | with_reducible refine moves_onOne_of (by assumption) ?_
    | with_reducible apply moves_tdcClear | with_reducible apply moves_writePlain | with_reducible apply moves_iteFst | dsimp only | split

theorem moves_writeTdc_of {z0 s t9 : State} {r9 : Option Reply} {a : Nat} {v : Word} (e9 : State.writeTdc s a v = (t9, r9)) (hs : Moves L
    z0 s) (hL : ∀ p ∈ [Part.regs, .trg], p ∈ L) : Moves L z0 t9 := by
  have := moves_writeTdc hs hL a v
  rw [e9] at this
  exact this

theorem moves_resumeSlots {z0 s : State} (hs : Moves L z0 s) (hL : ∀ p ∈ [Part.loop], p ∈ L) (w : Nat) (v : Word) : Moves L z0
    (State.resumeSlots s w v) := by
  unfold State.resumeSlots
  repeat' first
    | with_reducible exact hs | with_reducible exact hL | exact parts_sub hL (by decide) | with_reducible assumption
    | with_reducible apply moves_clearSlotFault | with_reducible refine moves_foldl (fun _ _ _ => ?_) ?_ | with_reducible apply moves_ite
    | dsimp only | split

theorem moves_writeLoop {z0 s : State} (hs : Moves L z0 s) (hL : ∀ p ∈ [Part.regs, .staged, .frame, .loop, .evr, .qcp, .sent], p ∈ L) (a :
    Nat) (v : Word) : Moves L z0 (State.writeLoop s a v).1 := by
  unfold State.writeLoop
  repeat' first
    | with_reducible exact hs | with_reducible exact hL | exact parts_sub hL (by decide) | with_reducible assumption
    | with_reducible apply moves_commitSelected | with_reducible refine moves_commitSelected_of (by assumption) ?_ ?_
    | with_reducible apply moves_designFromRegs | with_reducible refine moves_designFromRegs_of (by assumption) ?_ ?_
    | with_reducible apply moves_loopClear | with_reducible apply moves_ok | with_reducible refine moves_ok_of (by assumption) ?_
    | with_reducible refine moves_onOne ?_ _ _ (fun _ _ => ?_) | with_reducible refine moves_onOne_of (by assumption) ?_
    | with_reducible apply moves_resumeSlots | with_reducible apply moves_selectLoop | with_reducible apply moves_stageLoop
    | with_reducible apply moves_writePlain | with_reducible apply moves_iteFst | dsimp only | split

theorem moves_writeLoop_of {z0 s t9 : State} {r9 : Option Reply} {a : Nat} {v : Word} (e9 : State.writeLoop s a v = (t9, r9)) (hs : Moves
    L z0 s) (hL : ∀ p ∈ [Part.regs, .staged, .frame, .loop, .evr, .qcp, .sent], p ∈ L) : Moves L z0 t9 := by
  have := moves_writeLoop hs hL a v
  rw [e9] at this
  exact this

theorem moves_writeNet {z0 s : State} (hs : Moves L z0 s) (hL : ∀ p ∈ [Part.regs, .staged, .net, .evr, .qcp, .sent], p ∈ L) (a : Nat) (v :
    Word) : Moves L z0 (State.writeNet s a v).1 := by
  unfold State.writeNet
  repeat' first
    | with_reducible exact hs | with_reducible exact hL | exact parts_sub hL (by decide) | with_reducible assumption
    | with_reducible apply moves_commitGoose | with_reducible refine moves_commitGoose_of (by assumption) ?_ ?_
    | with_reducible apply moves_commitStationWindow | with_reducible refine moves_commitStationWindow_of (by assumption) ?_ ?_
    | with_reducible apply moves_netClear | with_reducible apply moves_ok | with_reducible refine moves_ok_of (by assumption) ?_
    | with_reducible refine moves_onOne ?_ _ _ (fun _ _ => ?_) | with_reducible refine moves_onOne_of (by assumption) ?_
    | with_reducible apply moves_selectUnit | with_reducible refine moves_selectUnit_of (by assumption) ?_ ?_
    | with_reducible apply moves_setLink | with_reducible apply moves_writePlain | with_reducible apply moves_iteFst | dsimp only | split

theorem moves_writeNet_of {z0 s t9 : State} {r9 : Option Reply} {a : Nat} {v : Word} (e9 : State.writeNet s a v = (t9, r9)) (hs : Moves L
    z0 s) (hL : ∀ p ∈ [Part.regs, .staged, .net, .evr, .qcp, .sent], p ∈ L) : Moves L z0 t9 := by
  have := moves_writeNet hs hL a v
  rw [e9] at this
  exact this

theorem moves_writePrp {z0 s : State} (hs : Moves L z0 s) (hL : ∀ p ∈ [Part.regs], p ∈ L) (a : Nat) (v : Word) : Moves L z0
    (State.writePrp s a v).1 := by
  unfold State.writePrp
  repeat' first
    | with_reducible exact hs | with_reducible exact hL | exact parts_sub hL (by decide) | with_reducible assumption
    | with_reducible apply moves_ok | with_reducible refine moves_ok_of (by assumption) ?_
    | with_reducible refine moves_onOne ?_ _ _ (fun _ _ => ?_) | with_reducible refine moves_onOne_of (by assumption) ?_
    | with_reducible apply moves_prpClear | with_reducible apply moves_writePlain | with_reducible apply moves_iteFst | dsimp only | split

theorem moves_writePrp_of {z0 s t9 : State} {r9 : Option Reply} {a : Nat} {v : Word} (e9 : State.writePrp s a v = (t9, r9)) (hs : Moves L
    z0 s) (hL : ∀ p ∈ [Part.regs], p ∈ L) : Moves L z0 t9 := by
  have := moves_writePrp hs hL a v
  rw [e9] at this
  exact this

theorem moves_writeLater {z0 s : State} (hs : Moves L z0 s) (hL : ∀ p ∈ [Part.frame, .sent], p ∈ L) (a : Nat) (v : Word) : Moves L z0
    (State.writeLater s a v).1 := by
  unfold State.writeLater
  repeat' first
    | with_reducible exact hs | with_reducible exact hL | exact parts_sub hL (by decide) | with_reducible assumption
    | with_reducible apply moves_fixApplication | with_reducible apply moves_ok | with_reducible refine moves_ok_of (by assumption) ?_
    | with_reducible apply moves_iteFst | dsimp only | split

theorem moves_writeLater_of {z0 s t9 : State} {r9 : Option Reply} {a : Nat} {v : Word} (e9 : State.writeLater s a v = (t9, r9)) (hs :
    Moves L z0 s) (hL : ∀ p ∈ [Part.frame, .sent], p ∈ L) : Moves L z0 t9 := by
  have := moves_writeLater hs hL a v
  rw [e9] at this
  exact this

theorem moves_writeDioChannel {z0 s : State} (hs : Moves L z0 s) (hL : ∀ p ∈ [Part.regs, .frame, .evr, .sent], p ∈ L) (c : Nat) (a : Nat)
    (v : Word) : Moves L z0 (State.writeDioChannel s c a v).1 := by
  unfold State.writeDioChannel
  repeat' first
    | with_reducible exact hs | with_reducible exact hL | exact parts_sub hL (by decide) | with_reducible assumption
    | with_reducible apply moves_conflict | with_reducible refine moves_conflict_of (by assumption) ?_ ?_
    | with_reducible apply moves_writeLater | with_reducible refine moves_writeLater_of (by assumption) ?_ ?_
    | with_reducible apply moves_iteFst | dsimp only | split

theorem moves_writeDioChannel_of {z0 s t9 : State} {r9 : Option Reply} {c : Nat} {a : Nat} {v : Word} (e9 : State.writeDioChannel s c a v
    = (t9, r9)) (hs : Moves L z0 s) (hL : ∀ p ∈ [Part.regs, .frame, .evr, .sent], p ∈ L) : Moves L z0 t9 := by
  have := moves_writeDioChannel hs hL c a v
  rw [e9] at this
  exact this

theorem moves_writeDio {z0 s : State} (hs : Moves L z0 s) (hL : ∀ p ∈ [Part.regs, .frame, .io, .evr, .sent], p ∈ L) (a : Nat) (v : Word) :
    Moves L z0 (State.writeDio s a v).1 := by
  unfold State.writeDio
  repeat' first
    | with_reducible exact hs | with_reducible exact hL | exact parts_sub hL (by decide) | with_reducible assumption
    | with_reducible apply moves_dioClearCounters | with_reducible apply moves_dioClearGroup | with_reducible apply moves_ok
    | with_reducible refine moves_ok_of (by assumption) ?_ | with_reducible apply moves_writeDioChannel
    | with_reducible refine moves_writeDioChannel_of (by assumption) ?_ ?_ | with_reducible apply moves_writeLater
    | with_reducible refine moves_writeLater_of (by assumption) ?_ ?_ | with_reducible apply moves_writePlain
    | with_reducible refine moves_foldl (fun _ _ _ => ?_) ?_ | with_reducible apply moves_iteFst | dsimp only | split

theorem moves_writeDio_of {z0 s t9 : State} {r9 : Option Reply} {a : Nat} {v : Word} (e9 : State.writeDio s a v = (t9, r9)) (hs : Moves L
    z0 s) (hL : ∀ p ∈ [Part.regs, .frame, .io, .evr, .sent], p ∈ L) : Moves L z0 t9 := by
  have := moves_writeDio hs hL a v
  rw [e9] at this
  exact this

theorem moves_writeAoBlock {z0 s : State} (hs : Moves L z0 s) (hL : ∀ p ∈ [Part.regs, .frame, .sent], p ∈ L) (a : Nat) (v : Word) : Moves
    L z0 (State.writeAoBlock s a v).1 := by
  unfold State.writeAoBlock
  repeat' first
    | with_reducible exact hs | with_reducible exact hL | exact parts_sub hL (by decide) | with_reducible assumption
    | with_reducible apply moves_aoClear | with_reducible apply moves_ok | with_reducible refine moves_ok_of (by assumption) ?_
    | with_reducible refine moves_onOne ?_ _ _ (fun _ _ => ?_) | with_reducible refine moves_onOne_of (by assumption) ?_
    | with_reducible apply moves_writeLater | with_reducible refine moves_writeLater_of (by assumption) ?_ ?_
    | with_reducible apply moves_writePlain | with_reducible apply moves_iteFst | dsimp only | split

theorem moves_writeAoBlock_of {z0 s t9 : State} {r9 : Option Reply} {a : Nat} {v : Word} (e9 : State.writeAoBlock s a v = (t9, r9)) (hs :
    Moves L z0 s) (hL : ∀ p ∈ [Part.regs, .frame, .sent], p ∈ L) : Moves L z0 t9 := by
  have := moves_writeAoBlock hs hL a v
  rw [e9] at this
  exact this

theorem moves_writeHart {z0 s : State} (hs : Moves L z0 s) (hL : ∀ p ∈ [Part.regs, .frame, .io, .qcp, .sent], p ∈ L) (a : Nat) (v : Word)
    : Moves L z0 (State.writeHart s a v).1 := by
  unfold State.writeHart
  repeat' first
    | with_reducible exact hs | with_reducible exact hL | exact parts_sub hL (by decide) | with_reducible assumption
    | with_reducible apply moves_answered | with_reducible apply moves_hartClear | with_reducible apply moves_hartGo
    | with_reducible refine moves_hartGo_of (by assumption) ?_ ?_ | with_reducible apply moves_ok
    | with_reducible refine moves_ok_of (by assumption) ?_ | with_reducible refine moves_onOne ?_ _ _ (fun _ _ => ?_)
    | with_reducible refine moves_onOne_of (by assumption) ?_ | with_reducible apply moves_releaseWindow
    | with_reducible apply moves_writeLater | with_reducible refine moves_writeLater_of (by assumption) ?_ ?_
    | with_reducible apply moves_writePlain | with_reducible apply moves_iteFst | dsimp only | split

theorem moves_writeHart_of {z0 s t9 : State} {r9 : Option Reply} {a : Nat} {v : Word} (e9 : State.writeHart s a v = (t9, r9)) (hs : Moves
    L z0 s) (hL : ∀ p ∈ [Part.regs, .frame, .io, .qcp, .sent], p ∈ L) : Moves L z0 t9 := by
  have := moves_writeHart hs hL a v
  rw [e9] at this
  exact this

theorem moves_writeCanCtrl {z0 s : State} (hs : Moves L z0 s) (hL : ∀ p ∈ [Part.regs, .can0, .can1], p ∈ L) (ch : Nat) (v : Word) : Moves
    L z0 (State.writeCanCtrl s ch v) := by
  unfold State.writeCanCtrl
  repeat' first
    | with_reducible exact hs | with_reducible exact hL | exact parts_sub hL (by decide) | with_reducible apply moves_canDetect
    | with_reducible apply moves_canRecover | with_reducible apply moves_setCan | with_reducible apply moves_writePlain
    | with_reducible apply moves_ite | dsimp only | split

theorem moves_writeTxCmd {z0 s : State} (hs : Moves L z0 s) (hL : ∀ p ∈ [Part.regs, .can0, .can1, .evr], p ∈ L) (ch : Nat) (v : Word)
    (started : Bool) : Moves L z0 (State.writeTxCmd s ch v started).1 := by
  unfold State.writeTxCmd
  repeat' first
    | with_reducible exact hs | with_reducible exact hL | exact parts_sub hL (by decide) | with_reducible assumption
    | with_reducible apply moves_canAbort | with_reducible refine moves_canAbort_of (by assumption) ?_ ?_
    | with_reducible apply moves_canSend | with_reducible refine moves_canSend_of (by assumption) ?_ ?_
    | with_reducible apply moves_iteFst | dsimp only | split

theorem moves_writeTxCmd_of {z0 s t9 : State} {r9 : Option Reply} {ch : Nat} {v : Word} {started : Bool} (e9 : State.writeTxCmd s ch v
    started = (t9, r9)) (hs : Moves L z0 s) (hL : ∀ p ∈ [Part.regs, .can0, .can1, .evr], p ∈ L) : Moves L z0 t9 := by
  have := moves_writeTxCmd hs hL ch v started
  rw [e9] at this
  exact this

theorem moves_writeCan {z0 s : State} (hs : Moves L z0 s) (hL : ∀ p ∈ [Part.regs, .staged, .can0, .can1, .evr, .qcp], p ∈ L) (ch : Nat) (a
    : Nat) (v : Word) (started : Bool) : Moves L z0 (State.writeCan s ch a v started).1 := by
  unfold State.writeCan
  repeat' first
    | with_reducible exact hs | with_reducible exact hL | exact parts_sub hL (by decide) | with_reducible assumption
    | with_reducible apply moves_answered | with_reducible apply moves_canClear | with_reducible apply moves_canSelect
    | with_reducible apply moves_canWriteWindow | with_reducible refine moves_canWriteWindow_of (by assumption) ?_ ?_
    | with_reducible apply moves_commitCanBuffer | with_reducible refine moves_commitCanBuffer_of (by assumption) ?_ ?_
    | with_reducible apply moves_ok | with_reducible refine moves_ok_of (by assumption) ?_
    | with_reducible refine moves_onOne ?_ _ _ (fun _ _ => ?_) | with_reducible refine moves_onOne_of (by assumption) ?_
    | with_reducible apply moves_writeCanCtrl | with_reducible apply moves_writePlain | with_reducible apply moves_writeTxCmd
    | with_reducible refine moves_writeTxCmd_of (by assumption) ?_ ?_ | with_reducible apply moves_iteFst | dsimp only | split

theorem moves_writeCan_of {z0 s t9 : State} {r9 : Option Reply} {ch : Nat} {a : Nat} {v : Word} {started : Bool} (e9 : State.writeCan s ch
    a v started = (t9, r9)) (hs : Moves L z0 s) (hL : ∀ p ∈ [Part.regs, .staged, .can0, .can1, .evr, .qcp], p ∈ L) : Moves L z0 t9 := by
  have := moves_writeCan hs hL ch a v started
  rw [e9] at this
  exact this

theorem moves_writeDma {z0 s : State} (hs : Moves L z0 s) (hL : ∀ p ∈ [Part.regs, .evr, .fab], p ∈ L) (a : Nat) (v : Word) : Moves L z0
    (State.writeDma s a v).1 := by
  unfold State.writeDma
  repeat' first
    | with_reducible exact hs | with_reducible exact hL | exact parts_sub hL (by decide) | with_reducible assumption
    | with_reducible apply moves_answeredOwners | with_reducible apply moves_dmaAbort
    | with_reducible refine moves_dmaAbort_of (by assumption) ?_ ?_ | with_reducible apply moves_dmaClear
    | with_reducible apply moves_dmaControl | with_reducible refine moves_dmaControl_of (by assumption) ?_ ?_
    | with_reducible apply moves_dmaRecoverCmd | with_reducible refine moves_dmaRecoverCmd_of (by assumption) ?_ ?_
    | with_reducible apply moves_ok | with_reducible refine moves_ok_of (by assumption) ?_
    | with_reducible refine moves_onOne ?_ _ _ (fun _ _ => ?_) | with_reducible refine moves_onOne_of (by assumption) ?_
    | with_reducible refine moves_sleeveWrite ?_ ?_ _ _ (fun _ _ => ?_) | with_reducible refine moves_sleeveWrite_of (by assumption) ?_ ?_
    | with_reducible apply moves_startLoaded | with_reducible apply moves_writePlain | with_reducible apply moves_iteFst | dsimp only
    | split

theorem moves_writeDma_of {z0 s t9 : State} {r9 : Option Reply} {a : Nat} {v : Word} (e9 : State.writeDma s a v = (t9, r9)) (hs : Moves L
    z0 s) (hL : ∀ p ∈ [Part.regs, .evr, .fab], p ∈ L) : Moves L z0 t9 := by
  have := moves_writeDma hs hL a v
  rw [e9] at this
  exact this

theorem moves_selectCollar {z0 s : State} (hs : Moves L z0 s) (hL : ∀ p ∈ [Part.regs, .staged], p ∈ L) (v : Word) : Moves L z0
    (State.selectCollar s v) := by
  unfold State.selectCollar
  repeat' first
    | with_reducible exact hs | with_reducible rfl | with_reducible exact Or.inl rfl | with_reducible exact Or.inl ⟨rfl, rfl⟩
    | exact Or.inr (hL _ (by decide)) | with_reducible exact hL | exact parts_sub hL (by decide) | with_reducible apply moves_writePlain
    | with_reducible apply moves_ite | dsimp only | split | fail_if_no_progress with_reducible apply moves_record

theorem moves_writeCollar {z0 s : State} (hs : Moves L z0 s) (hL : ∀ p ∈ [Part.regs, .staged, .fab, .sent], p ∈ L) (a : Nat) (v : Word)
    (by_ : Option (Nat × Requester)) : Moves L z0 (State.writeCollar s a v by_).1 := by
  unfold State.writeCollar
  repeat' first
    | with_reducible exact hs | with_reducible exact hL | exact parts_sub hL (by decide) | with_reducible assumption
    | with_reducible apply moves_answered | with_reducible apply moves_collarClear | with_reducible apply moves_collarCommit
    | with_reducible refine moves_collarCommit_of (by assumption) ?_ ?_ | with_reducible apply moves_ok
    | with_reducible refine moves_ok_of (by assumption) ?_ | with_reducible refine moves_onOne ?_ _ _ (fun _ _ => ?_)
    | with_reducible refine moves_onOne_of (by assumption) ?_ | with_reducible apply moves_selectCollar
    | with_reducible apply moves_startFence | with_reducible apply moves_writePlain | with_reducible apply moves_iteFst | dsimp only
    | split

theorem moves_writeCollar_of {z0 s t9 : State} {r9 : Option Reply} {a : Nat} {v : Word} {by_ : Option (Nat × Requester)} (e9 :
    State.writeCollar s a v by_ = (t9, r9)) (hs : Moves L z0 s) (hL : ∀ p ∈ [Part.regs, .staged, .fab, .sent], p ∈ L) : Moves L z0 t9 :=
    by
  have := moves_writeCollar hs hL a v by_
  rw [e9] at this
  exact this

theorem moves_writeCuff {z0 s : State} (hs : Moves L z0 s) (hL : ∀ p ∈ [Part.regs], p ∈ L) (a : Nat) (v : Word) : Moves L z0
    (State.writeCuff s a v).1 := by
  unfold State.writeCuff
  repeat' first
    | with_reducible exact hs | with_reducible exact hL | exact parts_sub hL (by decide) | with_reducible assumption
    | with_reducible apply moves_cuffClear | with_reducible apply moves_ok | with_reducible refine moves_ok_of (by assumption) ?_
    | with_reducible refine moves_onOne ?_ _ _ (fun _ _ => ?_) | with_reducible refine moves_onOne_of (by assumption) ?_
    | with_reducible apply moves_writePlain | with_reducible apply moves_iteFst | dsimp only | split

theorem moves_writeCuff_of {z0 s t9 : State} {r9 : Option Reply} {a : Nat} {v : Word} (e9 : State.writeCuff s a v = (t9, r9)) (hs : Moves
    L z0 s) (hL : ∀ p ∈ [Part.regs], p ∈ L) : Moves L z0 t9 := by
  have := moves_writeCuff hs hL a v
  rw [e9] at this
  exact this

theorem moves_writeEvrAlarm {z0 s : State} (hs : Moves L z0 s) (hL : ∀ p ∈ [Part.evr], p ∈ L) (v : Word) : Moves L z0 (State.writeEvrAlarm
    s v) := by
  unfold State.writeEvrAlarm
  repeat' first
    | with_reducible exact hs | with_reducible exact hL | exact parts_sub hL (by decide) | with_reducible apply moves_ackFatal
    | with_reducible refine moves_updEvrSame ?_ ?_ (fun _ => rfl) | with_reducible apply moves_ite | dsimp only | split

theorem moves_writeEvr {z0 s : State} (hs : Moves L z0 s) (hL : ∀ p ∈ [Part.regs, .wins, .staged, .evr, .qcp], p ∈ L) (a : Nat) (v : Word)
    : Moves L z0 (State.writeEvr s a v).1 := by
  unfold State.writeEvr
  repeat' first
    | with_reducible exact hs | with_reducible exact hL | exact parts_sub hL (by decide) | with_reducible assumption
    | with_reducible apply moves_answered | with_reducible apply moves_commitSnap
    | with_reducible refine moves_commitSnap_of (by assumption) ?_ ?_ | with_reducible apply moves_evrClear
    | with_reducible apply moves_ok | with_reducible refine moves_ok_of (by assumption) ?_
    | with_reducible refine moves_onOne ?_ _ _ (fun _ _ => ?_) | with_reducible refine moves_onOne_of (by assumption) ?_
    | with_reducible apply moves_ownerClear | with_reducible apply moves_selectUnit
    | with_reducible refine moves_selectUnit_of (by assumption) ?_ ?_ | with_reducible apply moves_setWinCursor
    | with_reducible refine moves_updEvrSame ?_ ?_ (fun _ => rfl) | with_reducible apply moves_writeEvrAlarm
    | with_reducible apply moves_writePlain | with_reducible apply moves_iteFst | dsimp only | split

theorem moves_writeEvr_of {z0 s t9 : State} {r9 : Option Reply} {a : Nat} {v : Word} (e9 : State.writeEvr s a v = (t9, r9)) (hs : Moves L
    z0 s) (hL : ∀ p ∈ [Part.regs, .wins, .staged, .evr, .qcp], p ∈ L) : Moves L z0 t9 := by
  have := moves_writeEvr hs hL a v
  rw [e9] at this
  exact this

theorem moves_writeReg {z0 s : State} (hs : Moves L z0 s) (hL : ∀ p ∈ [Part.regs, .wins, .staged, .tb, .ptp, .frame, .pair, .lock, .loop,
    .acq, .trg, .io, .net, .can0, .can1, .evr, .trust, .fab, .power, .qcp, .sent], p ∈ L) (a : Nat) (v : Word) (started : Bool) (by_ :
    Option (Nat × Requester)) : Moves L z0 (State.writeReg s a v started by_).1 := by
  unfold State.writeReg
  repeat' first
    | with_reducible exact hs | with_reducible exact hL | exact parts_sub hL (by decide) | with_reducible assumption
    | with_reducible apply moves_ok | with_reducible refine moves_ok_of (by assumption) ?_ | with_reducible apply moves_writeAch
    | with_reducible refine moves_writeAch_of (by assumption) ?_ ?_ | with_reducible apply moves_writeAcq
    | with_reducible refine moves_writeAcq_of (by assumption) ?_ ?_ | with_reducible apply moves_writeAoBlock
    | with_reducible refine moves_writeAoBlock_of (by assumption) ?_ ?_ | with_reducible apply moves_writeCan
    | with_reducible refine moves_writeCan_of (by assumption) ?_ ?_ | with_reducible apply moves_writeCollar
    | with_reducible refine moves_writeCollar_of (by assumption) ?_ ?_ | with_reducible apply moves_writeCuff
    | with_reducible refine moves_writeCuff_of (by assumption) ?_ ?_ | with_reducible apply moves_writeDio
    | with_reducible refine moves_writeDio_of (by assumption) ?_ ?_ | with_reducible apply moves_writeDma
    | with_reducible refine moves_writeDma_of (by assumption) ?_ ?_ | with_reducible apply moves_writeEvr
    | with_reducible refine moves_writeEvr_of (by assumption) ?_ ?_ | with_reducible apply moves_writeFrame
    | with_reducible refine moves_writeFrame_of (by assumption) ?_ ?_ | with_reducible apply moves_writeHart
    | with_reducible refine moves_writeHart_of (by assumption) ?_ ?_ | with_reducible apply moves_writeId
    | with_reducible refine moves_writeId_of (by assumption) ?_ ?_ | with_reducible apply moves_writeImg
    | with_reducible refine moves_writeImg_of (by assumption) ?_ ?_ | with_reducible apply moves_writeLining
    | with_reducible refine moves_writeLining_of (by assumption) ?_ ?_ | with_reducible apply moves_writeLock
    | with_reducible refine moves_writeLock_of (by assumption) ?_ ?_ | with_reducible apply moves_writeLoop
    | with_reducible refine moves_writeLoop_of (by assumption) ?_ ?_ | with_reducible apply moves_writeMode
    | with_reducible refine moves_writeMode_of (by assumption) ?_ ?_ | with_reducible apply moves_writeNet
    | with_reducible refine moves_writeNet_of (by assumption) ?_ ?_ | with_reducible apply moves_writePair
    | with_reducible refine moves_writePair_of (by assumption) ?_ ?_ | with_reducible apply moves_writePlain
    | with_reducible apply moves_writePower | with_reducible refine moves_writePower_of (by assumption) ?_ ?_
    | with_reducible apply moves_writePrp | with_reducible refine moves_writePrp_of (by assumption) ?_ ?_
    | with_reducible apply moves_writePtp | with_reducible refine moves_writePtp_of (by assumption) ?_ ?_
    | with_reducible apply moves_writeSec | with_reducible refine moves_writeSec_of (by assumption) ?_ ?_
    | with_reducible apply moves_writeTb | with_reducible refine moves_writeTb_of (by assumption) ?_ ?_
    | with_reducible apply moves_writeTdc | with_reducible refine moves_writeTdc_of (by assumption) ?_ ?_
    | with_reducible apply moves_writeTref | with_reducible refine moves_writeTref_of (by assumption) ?_ ?_
    | with_reducible apply moves_writeTrg | with_reducible refine moves_writeTrg_of (by assumption) ?_ ?_
    | with_reducible apply moves_writeUpd | with_reducible refine moves_writeUpd_of (by assumption) ?_ ?_
    | with_reducible apply moves_writeWindow | with_reducible refine moves_writeWindow_of (by assumption) ?_ ?_
    | with_reducible apply moves_iteFst | dsimp only | split

theorem moves_writeReg_of {z0 s t9 : State} {r9 : Option Reply} {a : Nat} {v : Word} {started : Bool} {by_ : Option (Nat × Requester)} (e9
    : State.writeReg s a v started by_ = (t9, r9)) (hs : Moves L z0 s) (hL : ∀ p ∈ [Part.regs, .wins, .staged, .tb, .ptp, .frame, .pair,
    .lock, .loop, .acq, .trg, .io, .net, .can0, .can1, .evr, .trust, .fab, .power, .qcp, .sent], p ∈ L) : Moves L z0 t9 := by
  have := moves_writeReg hs hL a v started by_
  rw [e9] at this
  exact this

theorem moves_passWrite {z0 : State} {r : Answer} (hs : Moves L z0 r.1) (hL : ∀ p ∈ [Part.sent], p ∈ L) (a : Nat) (v : Word)
    : Moves L z0 (State.passWrite r a v).1 := by
  unfold State.passWrite
  split
  · exact moves_pass hs (parts_sub hL (by decide)) _
  · exact hs

theorem moves_writeBody {z0 s : State} (hs : Moves L z0 s) (hL : ∀ p ∈ [Part.regs, .wins, .staged, .tb, .ptp, .frame, .pair, .lock, .loop,
    .acq, .trg, .io, .net, .can0, .can1, .evr, .trust, .fab, .power, .qcp, .sent], p ∈ L) (op : Nat) (a : Nat) (v : Word) (started : Bool)
    (rq : Requester) : Moves L z0 (writeBody op a v started s rq).1 := by
  unfold writeBody
  repeat' first
    | with_reducible exact hs | with_reducible exact hL | exact parts_sub hL (by decide) | with_reducible assumption
    | with_reducible apply moves_claimWindow | with_reducible apply moves_ok | with_reducible refine moves_ok_of (by assumption) ?_
    | with_reducible apply moves_passWrite | with_reducible apply moves_writeReg
    | with_reducible refine moves_writeReg_of (by assumption) ?_ ?_ | with_reducible apply moves_iteFst | dsimp only | split

theorem moves_writeBody_of {z0 s t9 : State} {r9 : Option Reply} {op : Nat} {a : Nat} {v : Word} {started : Bool} {rq : Requester} (e9 :
    writeBody op a v started s rq = (t9, r9)) (hs : Moves L z0 s) (hL : ∀ p ∈ [Part.regs, .wins, .staged, .tb, .ptp, .frame, .pair, .lock,
    .loop, .acq, .trg, .io, .net, .can0, .can1, .evr, .trust, .fab, .power, .qcp, .sent], p ∈ L) : Moves L z0 t9 := by
  have := moves_writeBody hs hL op a v started rq
  rw [e9] at this
  exact this

end Sys2Proof.Machine
end

