-- ==== Sys2Proof/Laws/Moves/RegCommands.lean ====
section
/-!
SUPPORT. What each operation of Machine/RegCommands.lean may touch.
-/

namespace Sys2Proof.Machine

set_option linter.unusedTactic false
set_option linter.unreachableTactic false

variable {L : List Part}

theorem moves_writeRequest {z0 s : State} (hs : Moves L z0 s) (hL : ∀ p ∈ [Part.regs, .wins, .staged, .tb, .ptp, .frame, .pair, .lock,
    .loop, .acq, .trg, .io, .net, .can0, .can1, .evr, .trust, .fab, .power, .qcp, .sent], p ∈ L) (p : Pkt) (op : Nat) (a : Nat) (v : Word)
    (off : Nat) (started : Bool) : Moves L z0 (State.writeRequest s p op a v off started) := by
  unfold State.writeRequest
  repeat' first
    | with_reducible exact hs | with_reducible exact hL | exact parts_sub hL (by decide) | with_reducible assumption
    | with_reducible refine moves_request ?_ ?_ _ _ _ _ _ (fun _ _ _ => ?_) | with_reducible apply moves_writeBody
    | with_reducible refine moves_writeBody_of (by assumption) ?_ ?_ | with_reducible apply moves_ite | dsimp only | split

theorem moves_refreshClaim {z0 s : State} (hs : Moves L z0 s) (hL : ∀ p ∈ [Part.qcp], p ∈ L) (a : Nat) (n : Word) : Moves L z0
    (State.refreshClaim s a n) := by
  unfold State.refreshClaim
  repeat' first
    | with_reducible exact hs | with_reducible exact hL | exact parts_sub hL (by decide) | with_reducible apply moves_claimWindow
    | with_reducible apply moves_ite | dsimp only | split

theorem moves_readReg {z0 s t9 : State} {a : Nat} {rq : Requester} {v9 : Word} (hs : Moves L z0 s) (hL : ∀ p ∈ [Part.regs, .trg, .can0, .can1, .evr, .qcp], p ∈ L)
    (e9 : s.readReg a rq = .ok (t9, v9)) : Moves L z0 t9 := by
  have h1 : Moves L z0 (s.refreshClaim a rq.session) := moves_refreshClaim hs (parts_sub hL (by decide)) _ _
  unfold State.readReg at e9
  split at e9
  · split at e9
    · cases e9
    · rw [← (Prod.mk.inj (Except.ok.inj e9)).1]
      exact moves_advanceWindow (moves_claimWindow hs (parts_sub hL (by decide)) _ _) (parts_sub hL (by decide))
  · dsimp only at e9
    split at e9
    · rw [← (Prod.mk.inj (Except.ok.inj e9)).1]
      exact moves_latchTime h1 (parts_sub hL (by decide))
    · split at e9
      · rw [← (Prod.mk.inj (Except.ok.inj e9)).1]
        exact moves_readFifoSec h1 (parts_sub hL (by decide))
      · split at e9
        · rw [← (Prod.mk.inj (Except.ok.inj e9)).1]
          exact moves_readFifoFrac h1 (parts_sub hL (by decide))
        · split at e9
          · rw [← (Prod.mk.inj (Except.ok.inj e9)).1]
            exact moves_ite (moves_latchCapture h1 (parts_sub hL (by decide)) _) h1
          · split at e9
            · rw [← (Prod.mk.inj (Except.ok.inj e9)).1]
              exact moves_canReadWindow h1 (parts_sub hL (by decide)) _ _ _
            · split at e9
              · rw [← (Prod.mk.inj (Except.ok.inj e9)).1]
                exact moves_canReadWindow h1 (parts_sub hL (by decide)) _ _ _
              · rw [← (Prod.mk.inj (Except.ok.inj e9)).1]
                exact h1

theorem moves_readBody {z0 s : State} (hs : Moves L z0 s) (hL : ∀ p ∈ [Part.regs, .trg, .can0, .can1, .evr, .qcp], p ∈ L)
    (a : Nat) (rq : Requester) : Moves L z0 (readBody a s rq).1 := by
  unfold readBody
  split
  · exact hs
  · next h1 => exact moves_readReg hs (parts_sub hL (by decide)) h1

theorem moves_readBody_of {z0 s t9 : State} {r9 : Option Reply} {a : Nat} {rq : Requester} (e9 : readBody a s rq = (t9, r9)) (hs : Moves L
    z0 s) (hL : ∀ p ∈ [Part.regs, .trg, .can0, .can1, .evr, .qcp], p ∈ L) : Moves L z0 t9 := by
  have := moves_readBody hs hL a rq
  rw [e9] at this
  exact this

theorem moves_readRequest {z0 s : State} (hs : Moves L z0 s) (hL : ∀ p ∈ [Part.regs, .trg, .can0, .can1, .evr, .qcp, .sent], p ∈ L) (p :
    Pkt) (a : Nat) : Moves L z0 (State.readRequest s p a) := by
  unfold State.readRequest
  repeat' first
    | with_reducible exact hs | with_reducible exact hL | exact parts_sub hL (by decide) | with_reducible assumption
    | with_reducible apply moves_readBody | with_reducible refine moves_readBody_of (by assumption) ?_ ?_
    | with_reducible refine moves_request ?_ ?_ _ _ _ _ _ (fun _ _ _ => ?_) | with_reducible apply moves_ite | dsimp only | split

theorem ends_execRegRead {s : State} (hL : ∀ p ∈ [Part.regs, .trg, .can0, .can1, .evr, .qcp, .sent], p ∈ L) (p : Pkt) (addr : Half) (zero
    : Half) : Ends L s (execRegRead p addr zero s) := by
  have hs := Moves.refl L s
  unfold execRegRead
  repeat' first
    | with_reducible apply ends_next | with_reducible apply ends_ite | with_reducible exact hs | with_reducible exact hL
    | exact parts_sub hL (by decide) | with_reducible assumption | with_reducible apply moves_readBody
    | with_reducible refine moves_readBody_of (by assumption) ?_ ?_
    | with_reducible refine moves_request ?_ ?_ _ _ _ _ _ (fun _ _ _ => ?_) | dsimp only | split

theorem ends_execRegWrite {s : State} (hL : ∀ p ∈ [Part.regs, .wins, .staged, .tb, .ptp, .frame, .pair, .lock, .loop, .acq, .trg, .io,
    .net, .can0, .can1, .evr, .trust, .fab, .power, .qcp, .sent], p ∈ L) (p : Pkt) (addr : Half) (zero : Half) (value : Word) (started :
    Bool) : Ends L s (execRegWrite p addr zero value started s) := by
  have hs := Moves.refl L s
  unfold execRegWrite
  repeat' first
    | with_reducible apply ends_next | with_reducible apply ends_ite | with_reducible exact hs | with_reducible exact hL
    | exact parts_sub hL (by decide) | with_reducible assumption | with_reducible refine moves_request ?_ ?_ _ _ _ _ _ (fun _ _ _ => ?_)
    | with_reducible apply moves_writeBody | with_reducible refine moves_writeBody_of (by assumption) ?_ ?_ | dsimp only | split

theorem moves_modifyBody {z0 s : State} (hs : Moves L z0 s) (hL : ∀ p ∈ [Part.regs, .wins, .staged, .tb, .ptp, .frame, .pair, .lock, .loop, .acq, .trg, .io, .net, .can0, .can1, .evr, .trust, .fab, .power, .qcp, .sent], p ∈ L) (a : Nat) (mask value : Word) (started : Bool)
    (rq : Requester) :
    Moves L z0 (modifyBody a mask value started s rq).1 := by
  unfold modifyBody
  split
  · next h1 =>
    have h2 := moves_readReg hs (parts_sub hL (by decide)) h1
    split
    · next h3 =>
      split
      · exact moves_writeBody_of h3 h2 (parts_sub hL (by decide))
      · exact hs
    · next h3 => exact moves_writeBody_of h3 h2 (parts_sub hL (by decide))
  · exact hs
  · exact hs

theorem moves_modifyBody_of {z0 s t9 : State} {r9 : Option Reply} {a : Nat} {mask : Word} {value : Word} {started : Bool} {rq : Requester}
    (e9 : modifyBody a mask value started s rq = (t9, r9)) (hs : Moves L z0 s) (hL : ∀ p ∈ [Part.regs, .wins, .staged, .tb, .ptp, .frame,
    .pair, .lock, .loop, .acq, .trg, .io, .net, .can0, .can1, .evr, .trust, .fab, .power, .qcp, .sent], p ∈ L) : Moves L z0 t9 := by
  have := moves_modifyBody hs hL a mask value started rq
  rw [e9] at this
  exact this

theorem ends_execRegModify {s : State} (hL : ∀ p ∈ [Part.regs, .wins, .staged, .tb, .ptp, .frame, .pair, .lock, .loop, .acq, .trg, .io,
    .net, .can0, .can1, .evr, .trust, .fab, .power, .qcp, .sent], p ∈ L) (p : Pkt) (addr : Half) (zero : Half) (mask : Word) (value :
    Word) (started : Bool) : Ends L s (execRegModify p addr zero mask value started s) := by
  have hs := Moves.refl L s
  unfold execRegModify
  repeat' first
    | with_reducible apply ends_next | with_reducible apply ends_ite | with_reducible exact hs | with_reducible exact hL
    | exact parts_sub hL (by decide) | with_reducible assumption | with_reducible apply moves_modifyBody
    | with_reducible refine moves_modifyBody_of (by assumption) ?_ ?_
    | with_reducible refine moves_request ?_ ?_ _ _ _ _ _ (fun _ _ _ => ?_) | dsimp only | split

theorem moves_readAll {z0 s t9 : State} {rq : Requester} {l : List Nat} {v9 : List Nat} (hs : Moves L z0 s) (hL : ∀ p ∈ [Part.regs, .trg, .can0, .can1, .evr, .qcp], p ∈ L)
    (e9 : s.readAll rq l = .ok (t9, v9)) : Moves L z0 t9 := by
  induction l generalizing s t9 v9 with
  | nil =>
    cases e9
    exact hs
  | cons a rest ih =>
    unfold State.readAll at e9
    split at e9
    · cases e9
    · next t v h1 =>
      split at e9
      · cases e9
      · next u l' h2 =>
        cases e9
        exact ih (moves_readReg hs (parts_sub hL (by decide)) h1) h2

theorem moves_blockBody {z0 s : State} (hs : Moves L z0 s) (hL : ∀ p ∈ [Part.regs, .trg, .can0, .can1, .evr, .qcp], p ∈ L)
    (a count : Nat) (rq : Requester) : Moves L z0 (blockBody a count s rq).1 := by
  unfold blockBody
  split
  · exact hs
  · next h1 => exact moves_readAll hs (parts_sub hL (by decide)) h1

theorem moves_blockBody_of {z0 s t9 : State} {r9 : Option Reply} {a : Nat} {count : Nat} {rq : Requester} (e9 : blockBody a count s rq =
    (t9, r9)) (hs : Moves L z0 s) (hL : ∀ p ∈ [Part.regs, .trg, .can0, .can1, .evr, .qcp], p ∈ L) : Moves L z0 t9 := by
  have := moves_blockBody hs hL a count rq
  rw [e9] at this
  exact this

theorem ends_execRegBlockRead {s : State} (hL : ∀ p ∈ [Part.regs, .trg, .can0, .can1, .evr, .qcp, .sent], p ∈ L) (p : Pkt) (addr : Half)
    (count : Half) : Ends L s (execRegBlockRead p addr count s) := by
  have hs := Moves.refl L s
  unfold execRegBlockRead
  repeat' first
    | with_reducible apply ends_next | with_reducible apply ends_ite | with_reducible exact hs | with_reducible exact hL
    | exact parts_sub hL (by decide) | with_reducible assumption | with_reducible apply moves_blockBody
    | with_reducible refine moves_blockBody_of (by assumption) ?_ ?_
    | with_reducible refine moves_request ?_ ?_ _ _ _ _ _ (fun _ _ _ => ?_) | dsimp only | split

theorem ends_execRegisterWritePlain {s : State} (hL : ∀ p ∈ [Part.regs, .wins, .staged, .tb, .ptp, .frame, .pair, .lock, .loop, .acq,
    .trg, .io, .net, .can0, .can1, .evr, .trust, .fab, .power, .qcp, .sent], p ∈ L) (p : Pkt) (addr : Half) (value : Word) : Ends L s
    (execRegisterWritePlain p addr value s) := by
  have hs := Moves.refl L s
  unfold execRegisterWritePlain
  repeat' first
    | with_reducible apply ends_next | with_reducible apply ends_ite | with_reducible exact hs | with_reducible exact hL
    | exact parts_sub hL (by decide) | with_reducible apply moves_writeRequest | dsimp only | split

theorem ends_execTbTimeSecHiRead {s : State} (hL : ∀ p ∈ [Part.regs, .trg, .can0, .can1, .evr, .qcp, .sent], p ∈ L) (p : Pkt) : Ends L s
    (execTbTimeSecHiRead p s) := by
  have hs := Moves.refl L s
  unfold execTbTimeSecHiRead
  repeat' first
    | with_reducible apply ends_next | with_reducible apply ends_ite | with_reducible exact hs | with_reducible exact hL
    | exact parts_sub hL (by decide) | with_reducible apply moves_readRequest | dsimp only | split

theorem ends_execTdcFifoSecRead {s : State} (hL : ∀ p ∈ [Part.regs, .trg, .can0, .can1, .evr, .qcp, .sent], p ∈ L) (p : Pkt) : Ends L s
    (execTdcFifoSecRead p s) := by
  have hs := Moves.refl L s
  unfold execTdcFifoSecRead
  repeat' first
    | with_reducible apply ends_next | with_reducible apply ends_ite | with_reducible exact hs | with_reducible exact hL
    | exact parts_sub hL (by decide) | with_reducible apply moves_readRequest | dsimp only | split

theorem ends_execTdcFifoFracRead {s : State} (hL : ∀ p ∈ [Part.regs, .trg, .can0, .can1, .evr, .qcp, .sent], p ∈ L) (p : Pkt) : Ends L s
    (execTdcFifoFracRead p s) := by
  have hs := Moves.refl L s
  unfold execTdcFifoFracRead
  repeat' first
    | with_reducible apply ends_next | with_reducible apply ends_ite | with_reducible exact hs | with_reducible exact hL
    | exact parts_sub hL (by decide) | with_reducible apply moves_readRequest | dsimp only | split

theorem ends_execCanBufWindowRead {s : State} (hL : ∀ p ∈ [Part.regs, .trg, .can0, .can1, .evr, .qcp, .sent], p ∈ L) (p : Pkt) (ch : Fin
    2) (w : Fin 22) : Ends L s (execCanBufWindowRead p ch w s) := by
  have hs := Moves.refl L s
  unfold execCanBufWindowRead
  repeat' first
    | with_reducible apply ends_next | with_reducible apply ends_ite | with_reducible exact hs | with_reducible exact hL
    | exact parts_sub hL (by decide) | with_reducible apply moves_readRequest | dsimp only | split

theorem ends_execCanBufWord21Read {s : State} (hL : ∀ p ∈ [Part.regs, .trg, .can0, .can1, .evr, .qcp, .sent], p ∈ L) (p : Pkt) (ch : Fin
    2) : Ends L s (execCanBufWord21Read p ch s) := by
  have hs := Moves.refl L s
  unfold execCanBufWord21Read
  repeat' first
    | with_reducible apply ends_next | with_reducible apply ends_ite | with_reducible exact hs | with_reducible exact hL
    | exact parts_sub hL (by decide) | with_reducible apply moves_readRequest | dsimp only | split

theorem ends_execEvrWinDataRead {s : State} (hL : ∀ p ∈ [Part.regs, .trg, .can0, .can1, .evr, .qcp, .sent], p ∈ L) (p : Pkt) : Ends L s
    (execEvrWinDataRead p s) := by
  have hs := Moves.refl L s
  unfold execEvrWinDataRead
  repeat' first
    | with_reducible apply ends_next | with_reducible apply ends_ite | with_reducible exact hs | with_reducible exact hL
    | exact parts_sub hL (by decide) | with_reducible apply moves_readRequest | dsimp only | split

theorem ends_execPowerHuMeas {s : State} (hL : ∀ p ∈ [Part.regs, .wins, .staged, .tb, .ptp, .frame, .pair, .lock, .loop, .acq, .trg, .io,
    .net, .can0, .can1, .evr, .trust, .fab, .power, .qcp, .sent], p ∈ L) (p : Pkt) (value : Word) : Ends L s (execPowerHuMeas p value s)
    := by
  have hs := Moves.refl L s
  unfold execPowerHuMeas
  repeat' first
    | with_reducible apply ends_next | with_reducible apply ends_ite | with_reducible exact hs | with_reducible exact hL
    | exact parts_sub hL (by decide) | with_reducible apply moves_writeRequest | dsimp only | split

theorem ends_execLiningTamperAck {s : State} (hL : ∀ p ∈ [Part.regs, .wins, .staged, .tb, .ptp, .frame, .pair, .lock, .loop, .acq, .trg,
    .io, .net, .can0, .can1, .evr, .trust, .fab, .power, .qcp, .sent], p ∈ L) (p : Pkt) (value : Word) : Ends L s (execLiningTamperAck p
    value s) := by
  have hs := Moves.refl L s
  unfold execLiningTamperAck
  repeat' first
    | with_reducible apply ends_next | with_reducible apply ends_ite | with_reducible exact hs | with_reducible exact hL
    | exact parts_sub hL (by decide) | with_reducible apply moves_writeRequest | dsimp only | split

theorem ends_execLiningBootCfg {s : State} (hL : ∀ p ∈ [Part.regs, .wins, .staged, .tb, .ptp, .frame, .pair, .lock, .loop, .acq, .trg,
    .io, .net, .can0, .can1, .evr, .trust, .fab, .power, .qcp, .sent], p ∈ L) (p : Pkt) (value : Word) : Ends L s (execLiningBootCfg p
    value s) := by
  have hs := Moves.refl L s
  unfold execLiningBootCfg
  repeat' first
    | with_reducible apply ends_next | with_reducible apply ends_ite | with_reducible exact hs | with_reducible exact hL
    | exact parts_sub hL (by decide) | with_reducible apply moves_writeRequest | dsimp only | split

theorem ends_execTbRestep {s : State} (hL : ∀ p ∈ [Part.regs, .wins, .staged, .tb, .ptp, .frame, .pair, .lock, .loop, .acq, .trg, .io,
    .net, .can0, .can1, .evr, .trust, .fab, .power, .qcp, .sent], p ∈ L) (p : Pkt) (value : Word) : Ends L s (execTbRestep p value s) :=
    by
  have hs := Moves.refl L s
  unfold execTbRestep
  repeat' first
    | with_reducible apply ends_next | with_reducible apply ends_ite | with_reducible exact hs | with_reducible exact hL
    | exact parts_sub hL (by decide) | with_reducible apply moves_writeRequest | dsimp only | split

theorem ends_execTbCapArm {s : State} (hL : ∀ p ∈ [Part.regs, .wins, .staged, .tb, .ptp, .frame, .pair, .lock, .loop, .acq, .trg, .io,
    .net, .can0, .can1, .evr, .trust, .fab, .power, .qcp, .sent], p ∈ L) (p : Pkt) (n : Fin 16) (value : Word) : Ends L s (execTbCapArm p
    n value s) := by
  have hs := Moves.refl L s
  unfold execTbCapArm
  repeat' first
    | with_reducible apply ends_next | with_reducible apply ends_ite | with_reducible exact hs | with_reducible exact hL
    | exact parts_sub hL (by decide) | with_reducible apply moves_writeRequest | dsimp only | split

theorem ends_execLockTestRun {s : State} (hL : ∀ p ∈ [Part.regs, .wins, .staged, .tb, .ptp, .frame, .pair, .lock, .loop, .acq, .trg, .io,
    .net, .can0, .can1, .evr, .trust, .fab, .power, .qcp, .sent], p ∈ L) (p : Pkt) (value : Word) : Ends L s (execLockTestRun p value s)
    := by
  have hs := Moves.refl L s
  unfold execLockTestRun
  repeat' first
    | with_reducible apply ends_next | with_reducible apply ends_ite | with_reducible exact hs | with_reducible exact hL
    | exact parts_sub hL (by decide) | with_reducible apply moves_writeRequest | dsimp only | split

theorem ends_execLockClearLockout {s : State} (hL : ∀ p ∈ [Part.regs, .wins, .staged, .tb, .ptp, .frame, .pair, .lock, .loop, .acq, .trg,
    .io, .net, .can0, .can1, .evr, .trust, .fab, .power, .qcp, .sent], p ∈ L) (p : Pkt) (value : Word) : Ends L s (execLockClearLockout p
    value s) := by
  have hs := Moves.refl L s
  unfold execLockClearLockout
  repeat' first
    | with_reducible apply ends_next | with_reducible apply ends_ite | with_reducible exact hs | with_reducible exact hL
    | exact parts_sub hL (by decide) | with_reducible apply moves_writeRequest | dsimp only | split

theorem ends_execLockClearStats {s : State} (hL : ∀ p ∈ [Part.regs, .wins, .staged, .tb, .ptp, .frame, .pair, .lock, .loop, .acq, .trg,
    .io, .net, .can0, .can1, .evr, .trust, .fab, .power, .qcp, .sent], p ∈ L) (p : Pkt) (value : Word) : Ends L s (execLockClearStats p
    value s) := by
  have hs := Moves.refl L s
  unfold execLockClearStats
  repeat' first
    | with_reducible apply ends_next | with_reducible apply ends_ite | with_reducible exact hs | with_reducible exact hL
    | exact parts_sub hL (by decide) | with_reducible apply moves_writeRequest | dsimp only | split

theorem ends_execAcqPmuSel {s : State} (hL : ∀ p ∈ [Part.regs, .wins, .staged, .tb, .ptp, .frame, .pair, .lock, .loop, .acq, .trg, .io,
    .net, .can0, .can1, .evr, .trust, .fab, .power, .qcp, .sent], p ∈ L) (p : Pkt) (value : Word) : Ends L s (execAcqPmuSel p value s) :=
    by
  have hs := Moves.refl L s
  unfold execAcqPmuSel
  repeat' first
    | with_reducible apply ends_next | with_reducible apply ends_ite | with_reducible exact hs | with_reducible exact hL
    | exact parts_sub hL (by decide) | with_reducible apply moves_writeRequest | dsimp only | split

theorem ends_execAcqPmuCommit {s : State} (hL : ∀ p ∈ [Part.regs, .wins, .staged, .tb, .ptp, .frame, .pair, .lock, .loop, .acq, .trg, .io,
    .net, .can0, .can1, .evr, .trust, .fab, .power, .qcp, .sent], p ∈ L) (p : Pkt) (value : Word) : Ends L s (execAcqPmuCommit p value s)
    := by
  have hs := Moves.refl L s
  unfold execAcqPmuCommit
  repeat' first
    | with_reducible apply ends_next | with_reducible apply ends_ite | with_reducible exact hs | with_reducible exact hL
    | exact parts_sub hL (by decide) | with_reducible apply moves_writeRequest | dsimp only | split

theorem ends_execAcqSvSel {s : State} (hL : ∀ p ∈ [Part.regs, .wins, .staged, .tb, .ptp, .frame, .pair, .lock, .loop, .acq, .trg, .io,
    .net, .can0, .can1, .evr, .trust, .fab, .power, .qcp, .sent], p ∈ L) (p : Pkt) (value : Word) : Ends L s (execAcqSvSel p value s) :=
    by
  have hs := Moves.refl L s
  unfold execAcqSvSel
  repeat' first
    | with_reducible apply ends_next | with_reducible apply ends_ite | with_reducible exact hs | with_reducible exact hL
    | exact parts_sub hL (by decide) | with_reducible apply moves_writeRequest | dsimp only | split

theorem ends_execAcqSvCommit {s : State} (hL : ∀ p ∈ [Part.regs, .wins, .staged, .tb, .ptp, .frame, .pair, .lock, .loop, .acq, .trg, .io,
    .net, .can0, .can1, .evr, .trust, .fab, .power, .qcp, .sent], p ∈ L) (p : Pkt) (value : Word) : Ends L s (execAcqSvCommit p value s)
    := by
  have hs := Moves.refl L s
  unfold execAcqSvCommit
  repeat' first
    | with_reducible apply ends_next | with_reducible apply ends_ite | with_reducible exact hs | with_reducible exact hL
    | exact parts_sub hL (by decide) | with_reducible apply moves_writeRequest | dsimp only | split

theorem ends_execAcqCfgWrite {s : State} (hL : ∀ p ∈ [Part.regs, .wins, .staged, .tb, .ptp, .frame, .pair, .lock, .loop, .acq, .trg, .io,
    .net, .can0, .can1, .evr, .trust, .fab, .power, .qcp, .sent], p ∈ L) (p : Pkt) (value : Word) : Ends L s (execAcqCfgWrite p value s)
    := by
  have hs := Moves.refl L s
  unfold execAcqCfgWrite
  repeat' first
    | with_reducible apply ends_next | with_reducible apply ends_ite | with_reducible exact hs | with_reducible exact hL
    | exact parts_sub hL (by decide) | with_reducible apply moves_writeRequest | dsimp only | split

theorem ends_execAcqClear {s : State} (hL : ∀ p ∈ [Part.regs, .wins, .staged, .tb, .ptp, .frame, .pair, .lock, .loop, .acq, .trg, .io,
    .net, .can0, .can1, .evr, .trust, .fab, .power, .qcp, .sent], p ∈ L) (p : Pkt) (value : Word) : Ends L s (execAcqClear p value s) :=
    by
  have hs := Moves.refl L s
  unfold execAcqClear
  repeat' first
    | with_reducible apply ends_next | with_reducible apply ends_ite | with_reducible exact hs | with_reducible exact hL
    | exact parts_sub hL (by decide) | with_reducible apply moves_writeRequest | dsimp only | split

theorem ends_execAchTweSel {s : State} (hL : ∀ p ∈ [Part.regs, .wins, .staged, .tb, .ptp, .frame, .pair, .lock, .loop, .acq, .trg, .io,
    .net, .can0, .can1, .evr, .trust, .fab, .power, .qcp, .sent], p ∈ L) (p : Pkt) (n : Fin 8) (value : Word) : Ends L s (execAchTweSel p
    n value s) := by
  have hs := Moves.refl L s
  unfold execAchTweSel
  repeat' first
    | with_reducible apply ends_next | with_reducible apply ends_ite | with_reducible exact hs | with_reducible exact hL
    | exact parts_sub hL (by decide) | with_reducible apply moves_writeRequest | dsimp only | split

theorem ends_execAchCycSel {s : State} (hL : ∀ p ∈ [Part.regs, .wins, .staged, .tb, .ptp, .frame, .pair, .lock, .loop, .acq, .trg, .io,
    .net, .can0, .can1, .evr, .trust, .fab, .power, .qcp, .sent], p ∈ L) (p : Pkt) (n : Fin 8) (value : Word) : Ends L s (execAchCycSel p
    n value s) := by
  have hs := Moves.refl L s
  unfold execAchCycSel
  repeat' first
    | with_reducible apply ends_next | with_reducible apply ends_ite | with_reducible exact hs | with_reducible exact hL
    | exact parts_sub hL (by decide) | with_reducible apply moves_writeRequest | dsimp only | split

theorem ends_execAchPhaSel {s : State} (hL : ∀ p ∈ [Part.regs, .wins, .staged, .tb, .ptp, .frame, .pair, .lock, .loop, .acq, .trg, .io,
    .net, .can0, .can1, .evr, .trust, .fab, .power, .qcp, .sent], p ∈ L) (p : Pkt) (n : Fin 8) (value : Word) : Ends L s (execAchPhaSel p
    n value s) := by
  have hs := Moves.refl L s
  unfold execAchPhaSel
  repeat' first
    | with_reducible apply ends_next | with_reducible apply ends_ite | with_reducible exact hs | with_reducible exact hL
    | exact parts_sub hL (by decide) | with_reducible apply moves_writeRequest | dsimp only | split

theorem ends_execAchClear {s : State} (hL : ∀ p ∈ [Part.regs, .wins, .staged, .tb, .ptp, .frame, .pair, .lock, .loop, .acq, .trg, .io,
    .net, .can0, .can1, .evr, .trust, .fab, .power, .qcp, .sent], p ∈ L) (p : Pkt) (n : Fin 8) (value : Word) : Ends L s (execAchClear p n
    value s) := by
  have hs := Moves.refl L s
  unfold execAchClear
  repeat' first
    | with_reducible apply ends_next | with_reducible apply ends_ite | with_reducible exact hs | with_reducible exact hL
    | exact parts_sub hL (by decide) | with_reducible apply moves_writeRequest | dsimp only | split

theorem ends_execTrgUCfg {s : State} (hL : ∀ p ∈ [Part.regs, .wins, .staged, .tb, .ptp, .frame, .pair, .lock, .loop, .acq, .trg, .io,
    .net, .can0, .can1, .evr, .trust, .fab, .power, .qcp, .sent], p ∈ L) (p : Pkt) (n : Fin 32) (value : Word) : Ends L s (execTrgUCfg p n
    value s) := by
  have hs := Moves.refl L s
  unfold execTrgUCfg
  repeat' first
    | with_reducible apply ends_next | with_reducible apply ends_ite | with_reducible exact hs | with_reducible exact hL
    | exact parts_sub hL (by decide) | with_reducible apply moves_writeRequest | dsimp only | split

theorem ends_execTrgRecManual {s : State} (hL : ∀ p ∈ [Part.regs, .wins, .staged, .tb, .ptp, .frame, .pair, .lock, .loop, .acq, .trg, .io,
    .net, .can0, .can1, .evr, .trust, .fab, .power, .qcp, .sent], p ∈ L) (p : Pkt) (value : Word) : Ends L s (execTrgRecManual p value s)
    := by
  have hs := Moves.refl L s
  unfold execTrgRecManual
  repeat' first
    | with_reducible apply ends_next | with_reducible apply ends_ite | with_reducible exact hs | with_reducible exact hL
    | exact parts_sub hL (by decide) | with_reducible apply moves_writeRequest | dsimp only | split

theorem ends_execTrgPatCommit {s : State} (hL : ∀ p ∈ [Part.regs, .wins, .staged, .tb, .ptp, .frame, .pair, .lock, .loop, .acq, .trg, .io,
    .net, .can0, .can1, .evr, .trust, .fab, .power, .qcp, .sent], p ∈ L) (p : Pkt) (value : Word) : Ends L s (execTrgPatCommit p value s)
    := by
  have hs := Moves.refl L s
  unfold execTrgPatCommit
  repeat' first
    | with_reducible apply ends_next | with_reducible apply ends_ite | with_reducible exact hs | with_reducible exact hL
    | exact parts_sub hL (by decide) | with_reducible apply moves_writeRequest | dsimp only | split

theorem ends_execTrgRecCommit {s : State} (hL : ∀ p ∈ [Part.regs, .wins, .staged, .tb, .ptp, .frame, .pair, .lock, .loop, .acq, .trg, .io,
    .net, .can0, .can1, .evr, .trust, .fab, .power, .qcp, .sent], p ∈ L) (p : Pkt) (value : Word) : Ends L s (execTrgRecCommit p value s)
    := by
  have hs := Moves.refl L s
  unfold execTrgRecCommit
  repeat' first
    | with_reducible apply ends_next | with_reducible apply ends_ite | with_reducible exact hs | with_reducible exact hL
    | exact parts_sub hL (by decide) | with_reducible apply moves_writeRequest | dsimp only | split

theorem ends_execTrgFlCommit {s : State} (hL : ∀ p ∈ [Part.regs, .wins, .staged, .tb, .ptp, .frame, .pair, .lock, .loop, .acq, .trg, .io,
    .net, .can0, .can1, .evr, .trust, .fab, .power, .qcp, .sent], p ∈ L) (p : Pkt) (value : Word) : Ends L s (execTrgFlCommit p value s)
    := by
  have hs := Moves.refl L s
  unfold execTrgFlCommit
  repeat' first
    | with_reducible apply ends_next | with_reducible apply ends_ite | with_reducible exact hs | with_reducible exact hL
    | exact parts_sub hL (by decide) | with_reducible apply moves_writeRequest | dsimp only | split

theorem ends_execTrgClear {s : State} (hL : ∀ p ∈ [Part.regs, .wins, .staged, .tb, .ptp, .frame, .pair, .lock, .loop, .acq, .trg, .io,
    .net, .can0, .can1, .evr, .trust, .fab, .power, .qcp, .sent], p ∈ L) (p : Pkt) (value : Word) : Ends L s (execTrgClear p value s) :=
    by
  have hs := Moves.refl L s
  unfold execTrgClear
  repeat' first
    | with_reducible apply ends_next | with_reducible apply ends_ite | with_reducible exact hs | with_reducible exact hL
    | exact parts_sub hL (by decide) | with_reducible apply moves_writeRequest | dsimp only | split

theorem ends_execTdcClear {s : State} (hL : ∀ p ∈ [Part.regs, .wins, .staged, .tb, .ptp, .frame, .pair, .lock, .loop, .acq, .trg, .io,
    .net, .can0, .can1, .evr, .trust, .fab, .power, .qcp, .sent], p ∈ L) (p : Pkt) (value : Word) : Ends L s (execTdcClear p value s) :=
    by
  have hs := Moves.refl L s
  unfold execTdcClear
  repeat' first
    | with_reducible apply ends_next | with_reducible apply ends_ite | with_reducible exact hs | with_reducible exact hL
    | exact parts_sub hL (by decide) | with_reducible apply moves_writeRequest | dsimp only | split

theorem ends_execLoopSel {s : State} (hL : ∀ p ∈ [Part.regs, .wins, .staged, .tb, .ptp, .frame, .pair, .lock, .loop, .acq, .trg, .io,
    .net, .can0, .can1, .evr, .trust, .fab, .power, .qcp, .sent], p ∈ L) (p : Pkt) (value : Word) : Ends L s (execLoopSel p value s) := by
  have hs := Moves.refl L s
  unfold execLoopSel
  repeat' first
    | with_reducible apply ends_next | with_reducible apply ends_ite | with_reducible exact hs | with_reducible exact hL
    | exact parts_sub hL (by decide) | with_reducible apply moves_writeRequest | dsimp only | split

theorem ends_execLoopCommit {s : State} (hL : ∀ p ∈ [Part.regs, .wins, .staged, .tb, .ptp, .frame, .pair, .lock, .loop, .acq, .trg, .io,
    .net, .can0, .can1, .evr, .trust, .fab, .power, .qcp, .sent], p ∈ L) (p : Pkt) (value : Word) : Ends L s (execLoopCommit p value s) :=
    by
  have hs := Moves.refl L s
  unfold execLoopCommit
  repeat' first
    | with_reducible apply ends_next | with_reducible apply ends_ite | with_reducible exact hs | with_reducible exact hL
    | exact parts_sub hL (by decide) | with_reducible apply moves_writeRequest | dsimp only | split

theorem ends_execLoopNdCmd {s : State} (hL : ∀ p ∈ [Part.regs, .wins, .staged, .tb, .ptp, .frame, .pair, .lock, .loop, .acq, .trg, .io,
    .net, .can0, .can1, .evr, .trust, .fab, .power, .qcp, .sent], p ∈ L) (p : Pkt) (value : Word) : Ends L s (execLoopNdCmd p value s) :=
    by
  have hs := Moves.refl L s
  unfold execLoopNdCmd
  repeat' first
    | with_reducible apply ends_next | with_reducible apply ends_ite | with_reducible exact hs | with_reducible exact hL
    | exact parts_sub hL (by decide) | with_reducible apply moves_writeRequest | dsimp only | split

theorem ends_execLoopFaultClear {s : State} (hL : ∀ p ∈ [Part.regs, .wins, .staged, .tb, .ptp, .frame, .pair, .lock, .loop, .acq, .trg,
    .io, .net, .can0, .can1, .evr, .trust, .fab, .power, .qcp, .sent], p ∈ L) (p : Pkt) (n : Fin 8) (value : Word) : Ends L s
    (execLoopFaultClear p n value s) := by
  have hs := Moves.refl L s
  unfold execLoopFaultClear
  repeat' first
    | with_reducible apply ends_next | with_reducible apply ends_ite | with_reducible exact hs | with_reducible exact hL
    | exact parts_sub hL (by decide) | with_reducible apply moves_writeRequest | dsimp only | split

theorem ends_execLoopClear {s : State} (hL : ∀ p ∈ [Part.regs, .wins, .staged, .tb, .ptp, .frame, .pair, .lock, .loop, .acq, .trg, .io,
    .net, .can0, .can1, .evr, .trust, .fab, .power, .qcp, .sent], p ∈ L) (p : Pkt) (value : Word) : Ends L s (execLoopClear p value s) :=
    by
  have hs := Moves.refl L s
  unfold execLoopClear
  repeat' first
    | with_reducible apply ends_next | with_reducible apply ends_ite | with_reducible exact hs | with_reducible exact hL
    | exact parts_sub hL (by decide) | with_reducible apply moves_writeRequest | dsimp only | split

theorem ends_execNetStCommit {s : State} (hL : ∀ p ∈ [Part.regs, .wins, .staged, .tb, .ptp, .frame, .pair, .lock, .loop, .acq, .trg, .io,
    .net, .can0, .can1, .evr, .trust, .fab, .power, .qcp, .sent], p ∈ L) (p : Pkt) (value : Word) : Ends L s (execNetStCommit p value s)
    := by
  have hs := Moves.refl L s
  unfold execNetStCommit
  repeat' first
    | with_reducible apply ends_next | with_reducible apply ends_ite | with_reducible exact hs | with_reducible exact hL
    | exact parts_sub hL (by decide) | with_reducible apply moves_writeRequest | dsimp only | split

theorem ends_execNetGoCommit {s : State} (hL : ∀ p ∈ [Part.regs, .wins, .staged, .tb, .ptp, .frame, .pair, .lock, .loop, .acq, .trg, .io,
    .net, .can0, .can1, .evr, .trust, .fab, .power, .qcp, .sent], p ∈ L) (p : Pkt) (value : Word) : Ends L s (execNetGoCommit p value s)
    := by
  have hs := Moves.refl L s
  unfold execNetGoCommit
  repeat' first
    | with_reducible apply ends_next | with_reducible apply ends_ite | with_reducible exact hs | with_reducible exact hL
    | exact parts_sub hL (by decide) | with_reducible apply moves_writeRequest | dsimp only | split

theorem ends_execNetClear {s : State} (hL : ∀ p ∈ [Part.regs, .wins, .staged, .tb, .ptp, .frame, .pair, .lock, .loop, .acq, .trg, .io,
    .net, .can0, .can1, .evr, .trust, .fab, .power, .qcp, .sent], p ∈ L) (p : Pkt) (value : Word) : Ends L s (execNetClear p value s) :=
    by
  have hs := Moves.refl L s
  unfold execNetClear
  repeat' first
    | with_reducible apply ends_next | with_reducible apply ends_ite | with_reducible exact hs | with_reducible exact hL
    | exact parts_sub hL (by decide) | with_reducible apply moves_writeRequest | dsimp only | split

theorem ends_execPrpClear {s : State} (hL : ∀ p ∈ [Part.regs, .wins, .staged, .tb, .ptp, .frame, .pair, .lock, .loop, .acq, .trg, .io,
    .net, .can0, .can1, .evr, .trust, .fab, .power, .qcp, .sent], p ∈ L) (p : Pkt) (value : Word) : Ends L s (execPrpClear p value s) :=
    by
  have hs := Moves.refl L s
  unfold execPrpClear
  repeat' first
    | with_reducible apply ends_next | with_reducible apply ends_ite | with_reducible exact hs | with_reducible exact hL
    | exact parts_sub hL (by decide) | with_reducible apply moves_writeRequest | dsimp only | split

theorem ends_execUpdRevert {s : State} (hL : ∀ p ∈ [Part.regs, .wins, .staged, .tb, .ptp, .frame, .pair, .lock, .loop, .acq, .trg, .io,
    .net, .can0, .can1, .evr, .trust, .fab, .power, .qcp, .sent], p ∈ L) (p : Pkt) (value : Word) : Ends L s (execUpdRevert p value s) :=
    by
  have hs := Moves.refl L s
  unfold execUpdRevert
  repeat' first
    | with_reducible apply ends_next | with_reducible apply ends_ite | with_reducible exact hs | with_reducible exact hL
    | exact parts_sub hL (by decide) | with_reducible apply moves_writeRequest | dsimp only | split

theorem ends_execUpdClear {s : State} (hL : ∀ p ∈ [Part.regs, .wins, .staged, .tb, .ptp, .frame, .pair, .lock, .loop, .acq, .trg, .io,
    .net, .can0, .can1, .evr, .trust, .fab, .power, .qcp, .sent], p ∈ L) (p : Pkt) (value : Word) : Ends L s (execUpdClear p value s) :=
    by
  have hs := Moves.refl L s
  unfold execUpdClear
  repeat' first
    | with_reducible apply ends_next | with_reducible apply ends_ite | with_reducible exact hs | with_reducible exact hL
    | exact parts_sub hL (by decide) | with_reducible apply moves_writeRequest | dsimp only | split

theorem ends_execSecFuseCmd {s : State} (hL : ∀ p ∈ [Part.regs, .wins, .staged, .tb, .ptp, .frame, .pair, .lock, .loop, .acq, .trg, .io,
    .net, .can0, .can1, .evr, .trust, .fab, .power, .qcp, .sent], p ∈ L) (p : Pkt) (value : Word) : Ends L s (execSecFuseCmd p value s) :=
    by
  have hs := Moves.refl L s
  unfold execSecFuseCmd
  repeat' first
    | with_reducible apply ends_next | with_reducible apply ends_ite | with_reducible exact hs | with_reducible exact hL
    | exact parts_sub hL (by decide) | with_reducible apply moves_writeRequest | dsimp only | split

theorem ends_execDioClearGroup {s : State} (hL : ∀ p ∈ [Part.regs, .wins, .staged, .tb, .ptp, .frame, .pair, .lock, .loop, .acq, .trg,
    .io, .net, .can0, .can1, .evr, .trust, .fab, .power, .qcp, .sent], p ∈ L) (p : Pkt) (value : Word) : Ends L s (execDioClearGroup p
    value s) := by
  have hs := Moves.refl L s
  unfold execDioClearGroup
  repeat' first
    | with_reducible apply ends_next | with_reducible apply ends_ite | with_reducible exact hs | with_reducible exact hL
    | exact parts_sub hL (by decide) | with_reducible apply moves_writeRequest | dsimp only | split

theorem ends_execDioClearCounters {s : State} (hL : ∀ p ∈ [Part.regs, .wins, .staged, .tb, .ptp, .frame, .pair, .lock, .loop, .acq, .trg,
    .io, .net, .can0, .can1, .evr, .trust, .fab, .power, .qcp, .sent], p ∈ L) (p : Pkt) (value : Word) : Ends L s (execDioClearCounters p
    value s) := by
  have hs := Moves.refl L s
  unfold execDioClearCounters
  repeat' first
    | with_reducible apply ends_next | with_reducible apply ends_ite | with_reducible exact hs | with_reducible exact hL
    | exact parts_sub hL (by decide) | with_reducible apply moves_writeRequest | dsimp only | split

theorem ends_execAoClear {s : State} (hL : ∀ p ∈ [Part.regs, .wins, .staged, .tb, .ptp, .frame, .pair, .lock, .loop, .acq, .trg, .io,
    .net, .can0, .can1, .evr, .trust, .fab, .power, .qcp, .sent], p ∈ L) (p : Pkt) (value : Word) : Ends L s (execAoClear p value s) := by
  have hs := Moves.refl L s
  unfold execAoClear
  repeat' first
    | with_reducible apply ends_next | with_reducible apply ends_ite | with_reducible exact hs | with_reducible exact hL
    | exact parts_sub hL (by decide) | with_reducible apply moves_writeRequest | dsimp only | split

theorem ends_execHartWinGo {s : State} (hL : ∀ p ∈ [Part.regs, .wins, .staged, .tb, .ptp, .frame, .pair, .lock, .loop, .acq, .trg, .io,
    .net, .can0, .can1, .evr, .trust, .fab, .power, .qcp, .sent], p ∈ L) (p : Pkt) (value : Word) : Ends L s (execHartWinGo p value s) :=
    by
  have hs := Moves.refl L s
  unfold execHartWinGo
  repeat' first
    | with_reducible apply ends_next | with_reducible apply ends_ite | with_reducible exact hs | with_reducible exact hL
    | exact parts_sub hL (by decide) | with_reducible apply moves_writeRequest | dsimp only | split

theorem ends_execHartClear {s : State} (hL : ∀ p ∈ [Part.regs, .wins, .staged, .tb, .ptp, .frame, .pair, .lock, .loop, .acq, .trg, .io,
    .net, .can0, .can1, .evr, .trust, .fab, .power, .qcp, .sent], p ∈ L) (p : Pkt) (value : Word) : Ends L s (execHartClear p value s) :=
    by
  have hs := Moves.refl L s
  unfold execHartClear
  repeat' first
    | with_reducible apply ends_next | with_reducible apply ends_ite | with_reducible exact hs | with_reducible exact hL
    | exact parts_sub hL (by decide) | with_reducible apply moves_writeRequest | dsimp only | split

theorem ends_execCanBoRecover {s : State} (hL : ∀ p ∈ [Part.regs, .wins, .staged, .tb, .ptp, .frame, .pair, .lock, .loop, .acq, .trg, .io,
    .net, .can0, .can1, .evr, .trust, .fab, .power, .qcp, .sent], p ∈ L) (p : Pkt) (ch : Fin 2) (value : Word) : Ends L s
    (execCanBoRecover p ch value s) := by
  have hs := Moves.refl L s
  unfold execCanBoRecover
  repeat' first
    | with_reducible apply ends_next | with_reducible apply ends_ite | with_reducible exact hs | with_reducible exact hL
    | exact parts_sub hL (by decide) | with_reducible apply moves_writeRequest | dsimp only | split

theorem ends_execCanTxSend {s : State} (hL : ∀ p ∈ [Part.regs, .wins, .staged, .tb, .ptp, .frame, .pair, .lock, .loop, .acq, .trg, .io,
    .net, .can0, .can1, .evr, .trust, .fab, .power, .qcp, .sent], p ∈ L) (p : Pkt) (ch : Fin 2) (value : Word) : Ends L s (execCanTxSend p
    ch value s) := by
  have hs := Moves.refl L s
  unfold execCanTxSend
  repeat' first
    | with_reducible apply ends_next | with_reducible apply ends_ite | with_reducible exact hs | with_reducible exact hL
    | exact parts_sub hL (by decide) | with_reducible apply moves_writeRequest | dsimp only | split

theorem ends_execCanTxAbort {s : State} (hL : ∀ p ∈ [Part.regs, .wins, .staged, .tb, .ptp, .frame, .pair, .lock, .loop, .acq, .trg, .io,
    .net, .can0, .can1, .evr, .trust, .fab, .power, .qcp, .sent], p ∈ L) (p : Pkt) (ch : Fin 2) (value : Word) (started : Bool) : Ends L s
    (execCanTxAbort p ch value started s) := by
  have hs := Moves.refl L s
  unfold execCanTxAbort
  repeat' first
    | with_reducible apply ends_next | with_reducible apply ends_ite | with_reducible exact hs | with_reducible exact hL
    | exact parts_sub hL (by decide) | with_reducible apply moves_writeRequest | dsimp only | split

theorem ends_execCanBufSel {s : State} (hL : ∀ p ∈ [Part.regs, .wins, .staged, .tb, .ptp, .frame, .pair, .lock, .loop, .acq, .trg, .io,
    .net, .can0, .can1, .evr, .trust, .fab, .power, .qcp, .sent], p ∈ L) (p : Pkt) (ch : Fin 2) (value : Word) : Ends L s (execCanBufSel p
    ch value s) := by
  have hs := Moves.refl L s
  unfold execCanBufSel
  repeat' first
    | with_reducible apply ends_next | with_reducible apply ends_ite | with_reducible exact hs | with_reducible exact hL
    | exact parts_sub hL (by decide) | with_reducible apply moves_writeRequest | dsimp only | split

theorem ends_execCanBufCommit {s : State} (hL : ∀ p ∈ [Part.regs, .wins, .staged, .tb, .ptp, .frame, .pair, .lock, .loop, .acq, .trg, .io,
    .net, .can0, .can1, .evr, .trust, .fab, .power, .qcp, .sent], p ∈ L) (p : Pkt) (ch : Fin 2) (value : Word) : Ends L s
    (execCanBufCommit p ch value s) := by
  have hs := Moves.refl L s
  unfold execCanBufCommit
  repeat' first
    | with_reducible apply ends_next | with_reducible apply ends_ite | with_reducible exact hs | with_reducible exact hL
    | exact parts_sub hL (by decide) | with_reducible apply moves_writeRequest | dsimp only | split

theorem ends_execCanClear {s : State} (hL : ∀ p ∈ [Part.regs, .wins, .staged, .tb, .ptp, .frame, .pair, .lock, .loop, .acq, .trg, .io,
    .net, .can0, .can1, .evr, .trust, .fab, .power, .qcp, .sent], p ∈ L) (p : Pkt) (ch : Fin 2) (value : Word) : Ends L s (execCanClear p
    ch value s) := by
  have hs := Moves.refl L s
  unfold execCanClear
  repeat' first
    | with_reducible apply ends_next | with_reducible apply ends_ite | with_reducible exact hs | with_reducible exact hL
    | exact parts_sub hL (by decide) | with_reducible apply moves_writeRequest | dsimp only | split

theorem ends_execCollarCommit {s : State} (hL : ∀ p ∈ [Part.regs, .wins, .staged, .tb, .ptp, .frame, .pair, .lock, .loop, .acq, .trg, .io,
    .net, .can0, .can1, .evr, .trust, .fab, .power, .qcp, .sent], p ∈ L) (p : Pkt) (value : Word) : Ends L s (execCollarCommit p value s)
    := by
  have hs := Moves.refl L s
  unfold execCollarCommit
  repeat' first
    | with_reducible apply ends_next | with_reducible apply ends_ite | with_reducible exact hs | with_reducible exact hL
    | exact parts_sub hL (by decide) | with_reducible apply moves_writeRequest | dsimp only | split

theorem ends_execCollarFence {s : State} (hL : ∀ p ∈ [Part.regs, .wins, .staged, .tb, .ptp, .frame, .pair, .lock, .loop, .acq, .trg, .io,
    .net, .can0, .can1, .evr, .trust, .fab, .power, .qcp, .sent], p ∈ L) (p : Pkt) (value : Word) : Ends L s (execCollarFence p value s)
    := by
  have hs := Moves.refl L s
  unfold execCollarFence
  repeat' first
    | with_reducible apply ends_next | with_reducible apply ends_ite | with_reducible exact hs | with_reducible exact hL
    | exact parts_sub hL (by decide) | with_reducible apply moves_writeRequest | dsimp only | split

theorem ends_execCollarClear {s : State} (hL : ∀ p ∈ [Part.regs, .wins, .staged, .tb, .ptp, .frame, .pair, .lock, .loop, .acq, .trg, .io,
    .net, .can0, .can1, .evr, .trust, .fab, .power, .qcp, .sent], p ∈ L) (p : Pkt) (value : Word) : Ends L s (execCollarClear p value s)
    := by
  have hs := Moves.refl L s
  unfold execCollarClear
  repeat' first
    | with_reducible apply ends_next | with_reducible apply ends_ite | with_reducible exact hs | with_reducible exact hL
    | exact parts_sub hL (by decide) | with_reducible apply moves_writeRequest | dsimp only | split

theorem ends_execDmaChArm {s : State} (hL : ∀ p ∈ [Part.regs, .wins, .staged, .tb, .ptp, .frame, .pair, .lock, .loop, .acq, .trg, .io,
    .net, .can0, .can1, .evr, .trust, .fab, .power, .qcp, .sent], p ∈ L) (p : Pkt) (n : Fin 16) (value : Word) : Ends L s (execDmaChArm p
    n value s) := by
  have hs := Moves.refl L s
  unfold execDmaChArm
  repeat' first
    | with_reducible apply ends_next | with_reducible apply ends_ite | with_reducible exact hs | with_reducible exact hL
    | exact parts_sub hL (by decide) | with_reducible apply moves_writeRequest | dsimp only | split

theorem ends_execDmaRecover {s : State} (hL : ∀ p ∈ [Part.regs, .wins, .staged, .tb, .ptp, .frame, .pair, .lock, .loop, .acq, .trg, .io,
    .net, .can0, .can1, .evr, .trust, .fab, .power, .qcp, .sent], p ∈ L) (p : Pkt) (value : Word) : Ends L s (execDmaRecover p value s) :=
    by
  have hs := Moves.refl L s
  unfold execDmaRecover
  repeat' first
    | with_reducible apply ends_next | with_reducible apply ends_ite | with_reducible exact hs | with_reducible exact hL
    | exact parts_sub hL (by decide) | with_reducible apply moves_writeRequest | dsimp only | split

theorem ends_execDmaAbortCmd {s : State} (hL : ∀ p ∈ [Part.regs, .wins, .staged, .tb, .ptp, .frame, .pair, .lock, .loop, .acq, .trg, .io,
    .net, .can0, .can1, .evr, .trust, .fab, .power, .qcp, .sent], p ∈ L) (p : Pkt) (value : Word) : Ends L s (execDmaAbortCmd p value s)
    := by
  have hs := Moves.refl L s
  unfold execDmaAbortCmd
  repeat' first
    | with_reducible apply ends_next | with_reducible apply ends_ite | with_reducible exact hs | with_reducible exact hL
    | exact parts_sub hL (by decide) | with_reducible apply moves_writeRequest | dsimp only | split

theorem ends_execDmaClear {s : State} (hL : ∀ p ∈ [Part.regs, .wins, .staged, .tb, .ptp, .frame, .pair, .lock, .loop, .acq, .trg, .io,
    .net, .can0, .can1, .evr, .trust, .fab, .power, .qcp, .sent], p ∈ L) (p : Pkt) (value : Word) : Ends L s (execDmaClear p value s) :=
    by
  have hs := Moves.refl L s
  unfold execDmaClear
  repeat' first
    | with_reducible apply ends_next | with_reducible apply ends_ite | with_reducible exact hs | with_reducible exact hL
    | exact parts_sub hL (by decide) | with_reducible apply moves_writeRequest | dsimp only | split

theorem ends_execCuffClear {s : State} (hL : ∀ p ∈ [Part.regs, .wins, .staged, .tb, .ptp, .frame, .pair, .lock, .loop, .acq, .trg, .io,
    .net, .can0, .can1, .evr, .trust, .fab, .power, .qcp, .sent], p ∈ L) (p : Pkt) (value : Word) : Ends L s (execCuffClear p value s) :=
    by
  have hs := Moves.refl L s
  unfold execCuffClear
  repeat' first
    | with_reducible apply ends_next | with_reducible apply ends_ite | with_reducible exact hs | with_reducible exact hL
    | exact parts_sub hL (by decide) | with_reducible apply moves_writeRequest | dsimp only | split

theorem ends_execEvrCursorWrite {s : State} (hL : ∀ p ∈ [Part.regs, .wins, .staged, .tb, .ptp, .frame, .pair, .lock, .loop, .acq, .trg,
    .io, .net, .can0, .can1, .evr, .trust, .fab, .power, .qcp, .sent], p ∈ L) (p : Pkt) (value : Word) : Ends L s (execEvrCursorWrite p
    value s) := by
  have hs := Moves.refl L s
  unfold execEvrCursorWrite
  repeat' first
    | with_reducible apply ends_next | with_reducible apply ends_ite | with_reducible exact hs | with_reducible exact hL
    | exact parts_sub hL (by decide) | with_reducible apply moves_writeRequest | dsimp only | split

theorem ends_execEvrSnapCommit {s : State} (hL : ∀ p ∈ [Part.regs, .wins, .staged, .tb, .ptp, .frame, .pair, .lock, .loop, .acq, .trg,
    .io, .net, .can0, .can1, .evr, .trust, .fab, .power, .qcp, .sent], p ∈ L) (p : Pkt) (value : Word) : Ends L s (execEvrSnapCommit p
    value s) := by
  have hs := Moves.refl L s
  unfold execEvrSnapCommit
  repeat' first
    | with_reducible apply ends_next | with_reducible apply ends_ite | with_reducible exact hs | with_reducible exact hL
    | exact parts_sub hL (by decide) | with_reducible apply moves_writeRequest | dsimp only | split

theorem ends_execEvrFatalAck {s : State} (hL : ∀ p ∈ [Part.regs, .wins, .staged, .tb, .ptp, .frame, .pair, .lock, .loop, .acq, .trg, .io,
    .net, .can0, .can1, .evr, .trust, .fab, .power, .qcp, .sent], p ∈ L) (p : Pkt) (value : Word) : Ends L s (execEvrFatalAck p value s)
    := by
  have hs := Moves.refl L s
  unfold execEvrFatalAck
  repeat' first
    | with_reducible apply ends_next | with_reducible apply ends_ite | with_reducible exact hs | with_reducible exact hL
    | exact parts_sub hL (by decide) | with_reducible apply moves_writeRequest | dsimp only | split

theorem ends_execEvrClearAlarms {s : State} (hL : ∀ p ∈ [Part.regs, .wins, .staged, .tb, .ptp, .frame, .pair, .lock, .loop, .acq, .trg,
    .io, .net, .can0, .can1, .evr, .trust, .fab, .power, .qcp, .sent], p ∈ L) (p : Pkt) (value : Word) : Ends L s (execEvrClearAlarms p
    value s) := by
  have hs := Moves.refl L s
  unfold execEvrClearAlarms
  repeat' first
    | with_reducible apply ends_next | with_reducible apply ends_ite | with_reducible exact hs | with_reducible exact hL
    | exact parts_sub hL (by decide) | with_reducible apply moves_writeRequest | dsimp only | split

theorem ends_execIdLocate {s : State} (hL : ∀ p ∈ [Part.regs, .wins, .staged, .tb, .ptp, .frame, .pair, .lock, .loop, .acq, .trg, .io,
    .net, .can0, .can1, .evr, .trust, .fab, .power, .qcp, .sent], p ∈ L) (p : Pkt) (value : Word) : Ends L s (execIdLocate p value s) :=
    by
  have hs := Moves.refl L s
  unfold execIdLocate
  repeat' first
    | with_reducible apply ends_next | with_reducible apply ends_ite | with_reducible exact hs | with_reducible exact hL
    | exact parts_sub hL (by decide) | with_reducible apply moves_writeRequest | dsimp only | split

theorem ends_execPairIdSet {s : State} (hL : ∀ p ∈ [Part.regs, .wins, .staged, .tb, .ptp, .frame, .pair, .lock, .loop, .acq, .trg, .io,
    .net, .can0, .can1, .evr, .trust, .fab, .power, .qcp, .sent], p ∈ L) (p : Pkt) (value : Word) : Ends L s (execPairIdSet p value s) :=
    by
  have hs := Moves.refl L s
  unfold execPairIdSet
  repeat' first
    | with_reducible apply ends_next | with_reducible apply ends_ite | with_reducible exact hs | with_reducible exact hL
    | exact parts_sub hL (by decide) | with_reducible apply moves_writeRequest | dsimp only | split

theorem ends_execPairIdAdopt {s : State} (hL : ∀ p ∈ [Part.regs, .wins, .staged, .tb, .ptp, .frame, .pair, .lock, .loop, .acq, .trg, .io,
    .net, .can0, .can1, .evr, .trust, .fab, .power, .qcp, .sent], p ∈ L) (p : Pkt) (value : Word) : Ends L s (execPairIdAdopt p value s)
    := by
  have hs := Moves.refl L s
  unfold execPairIdAdopt
  repeat' first
    | with_reducible apply ends_next | with_reducible apply ends_ite | with_reducible exact hs | with_reducible exact hL
    | exact parts_sub hL (by decide) | with_reducible apply moves_writeRequest | dsimp only | split

theorem ends_execPairClear {s : State} (hL : ∀ p ∈ [Part.regs, .wins, .staged, .tb, .ptp, .frame, .pair, .lock, .loop, .acq, .trg, .io,
    .net, .can0, .can1, .evr, .trust, .fab, .power, .qcp, .sent], p ∈ L) (p : Pkt) (value : Word) : Ends L s (execPairClear p value s) :=
    by
  have hs := Moves.refl L s
  unfold execPairClear
  repeat' first
    | with_reducible apply ends_next | with_reducible apply ends_ite | with_reducible exact hs | with_reducible exact hL
    | exact parts_sub hL (by decide) | with_reducible apply moves_writeRequest | dsimp only | split

theorem ends_execFrameClearTaskStats {s : State} (hL : ∀ p ∈ [Part.regs, .wins, .staged, .tb, .ptp, .frame, .pair, .lock, .loop, .acq,
    .trg, .io, .net, .can0, .can1, .evr, .trust, .fab, .power, .qcp, .sent], p ∈ L) (p : Pkt) (value : Word) : Ends L s
    (execFrameClearTaskStats p value s) := by
  have hs := Moves.refl L s
  unfold execFrameClearTaskStats
  repeat' first
    | with_reducible apply ends_next | with_reducible apply ends_ite | with_reducible exact hs | with_reducible exact hL
    | exact parts_sub hL (by decide) | with_reducible apply moves_writeRequest | dsimp only | split

theorem ends_execFrameClearStats {s : State} (hL : ∀ p ∈ [Part.regs, .wins, .staged, .tb, .ptp, .frame, .pair, .lock, .loop, .acq, .trg,
    .io, .net, .can0, .can1, .evr, .trust, .fab, .power, .qcp, .sent], p ∈ L) (p : Pkt) (value : Word) : Ends L s (execFrameClearStats p
    value s) := by
  have hs := Moves.refl L s
  unfold execFrameClearStats
  repeat' first
    | with_reducible apply ends_next | with_reducible apply ends_ite | with_reducible exact hs | with_reducible exact hL
    | exact parts_sub hL (by decide) | with_reducible apply moves_writeRequest | dsimp only | split

theorem ends_execFrameTackClear {s : State} (hL : ∀ p ∈ [Part.regs, .wins, .staged, .tb, .ptp, .frame, .pair, .lock, .loop, .acq, .trg,
    .io, .net, .can0, .can1, .evr, .trust, .fab, .power, .qcp, .sent], p ∈ L) (p : Pkt) (value : Word) : Ends L s (execFrameTackClear p
    value s) := by
  have hs := Moves.refl L s
  unfold execFrameTackClear
  repeat' first
    | with_reducible apply ends_next | with_reducible apply ends_ite | with_reducible exact hs | with_reducible exact hL
    | exact parts_sub hL (by decide) | with_reducible apply moves_writeRequest | dsimp only | split

theorem ends_execImgClear {s : State} (hL : ∀ p ∈ [Part.regs, .wins, .staged, .tb, .ptp, .frame, .pair, .lock, .loop, .acq, .trg, .io,
    .net, .can0, .can1, .evr, .trust, .fab, .power, .qcp, .sent], p ∈ L) (p : Pkt) (value : Word) : Ends L s (execImgClear p value s) :=
    by
  have hs := Moves.refl L s
  unfold execImgClear
  repeat' first
    | with_reducible apply ends_next | with_reducible apply ends_ite | with_reducible exact hs | with_reducible exact hL
    | exact parts_sub hL (by decide) | with_reducible apply moves_writeRequest | dsimp only | split

theorem ends_execTrefRefClear {s : State} (hL : ∀ p ∈ [Part.regs, .wins, .staged, .tb, .ptp, .frame, .pair, .lock, .loop, .acq, .trg, .io,
    .net, .can0, .can1, .evr, .trust, .fab, .power, .qcp, .sent], p ∈ L) (p : Pkt) (n : Fin 3) (value : Word) : Ends L s (execTrefRefClear
    p n value s) := by
  have hs := Moves.refl L s
  unfold execTrefRefClear
  repeat' first
    | with_reducible apply ends_next | with_reducible apply ends_ite | with_reducible exact hs | with_reducible exact hL
    | exact parts_sub hL (by decide) | with_reducible apply moves_writeRequest | dsimp only | split

theorem ends_execPtpPortClear {s : State} (hL : ∀ p ∈ [Part.regs, .wins, .staged, .tb, .ptp, .frame, .pair, .lock, .loop, .acq, .trg, .io,
    .net, .can0, .can1, .evr, .trust, .fab, .power, .qcp, .sent], p ∈ L) (p : Pkt) (n : Fin 5) (value : Word) : Ends L s (execPtpPortClear
    p n value s) := by
  have hs := Moves.refl L s
  unfold execPtpPortClear
  repeat' first
    | with_reducible apply ends_next | with_reducible apply ends_ite | with_reducible exact hs | with_reducible exact hL
    | exact parts_sub hL (by decide) | with_reducible apply moves_writeRequest | dsimp only | split

theorem ends_execPtpCountClear {s : State} (hL : ∀ p ∈ [Part.regs, .wins, .staged, .tb, .ptp, .frame, .pair, .lock, .loop, .acq, .trg,
    .io, .net, .can0, .can1, .evr, .trust, .fab, .power, .qcp, .sent], p ∈ L) (p : Pkt) (value : Word) : Ends L s (execPtpCountClear p
    value s) := by
  have hs := Moves.refl L s
  unfold execPtpCountClear
  repeat' first
    | with_reducible apply ends_next | with_reducible apply ends_ite | with_reducible exact hs | with_reducible exact hL
    | exact parts_sub hL (by decide) | with_reducible apply moves_writeRequest | dsimp only | split

theorem ends_execPowerClear {s : State} (hL : ∀ p ∈ [Part.regs, .wins, .staged, .tb, .ptp, .frame, .pair, .lock, .loop, .acq, .trg, .io,
    .net, .can0, .can1, .evr, .trust, .fab, .power, .qcp, .sent], p ∈ L) (p : Pkt) (value : Word) : Ends L s (execPowerClear p value s) :=
    by
  have hs := Moves.refl L s
  unfold execPowerClear
  repeat' first
    | with_reducible apply ends_next | with_reducible apply ends_ite | with_reducible exact hs | with_reducible exact hL
    | exact parts_sub hL (by decide) | with_reducible apply moves_writeRequest | dsimp only | split

end Sys2Proof.Machine
end

