-- ==== Sys2Proof/Laws/Moves/FabricMoves.lean ====
section
/-!
SUPPORT. What each operation of Machine/FabricMoves.lean may touch.
-/

namespace Sys2Proof.Machine

set_option linter.unusedTactic false
set_option linter.unreachableTactic false

variable {L : List Part}

theorem moves_fabricWrite {z0 s : State} (hs : Moves L z0 s) (hL : ∀ p ∈ [Part.regs, .wins, .staged, .tb, .ptp, .frame, .pair, .lock,
    .loop, .acq, .trg, .io, .net, .can0, .can1, .evr, .trust, .fab, .power, .qcp, .sent], p ∈ L) (a : Nat) (lanes : Word) (v : Word) :
    Moves L z0 (State.fabricWrite s a lanes v) := by
  unfold State.fabricWrite
  repeat' first
    | with_reducible exact hs | with_reducible exact hL | exact parts_sub hL (by decide) | with_reducible assumption
    | with_reducible apply moves_passWrite | with_reducible apply moves_writeReg
    | with_reducible refine moves_writeReg_of (by assumption) ?_ ?_ | with_reducible apply moves_ite | dsimp only | split

theorem moves_fabricRead {z0 s : State} (hs : Moves L z0 s) (hL : ∀ p ∈ [Part.regs, .trg, .can0, .can1, .evr, .qcp], p ∈ L) (a : Nat) :
    Moves L z0 (State.fabricRead s a).1 := by
  unfold State.fabricRead
  split
  · next r h =>
    obtain ⟨t, v⟩ := r
    exact moves_readReg hs hL h
  · exact hs

theorem moves_fabricRead_of {z0 s t9 : State} {r9 : Word} {a : Nat} (e9 : State.fabricRead s a = (t9, r9)) (hs : Moves L z0 s) (hL : ∀ p ∈
    [Part.regs, .trg, .can0, .can1, .evr, .qcp], p ∈ L) : Moves L z0 t9 := by
  have := moves_fabricRead hs hL a
  rw [e9] at this
  exact this

theorem moves_readUnit {z0 s : State} (hs : Moves L z0 s) (hL : ∀ p ∈ [Part.regs, .trg, .can0, .can1, .evr, .qcp, .freeCtr], p ∈ L) (k :
    Nat) (a : Nat) (fixed : Bool) : Moves L z0 (State.readUnit s k a fixed).1 := by
  unfold State.readUnit
  repeat' first
    | with_reducible exact hs | with_reducible rfl | with_reducible exact Or.inl rfl | with_reducible exact Or.inl ⟨rfl, rfl⟩
    | exact Or.inr (hL _ (by decide)) | with_reducible exact hL | exact parts_sub hL (by decide) | with_reducible assumption
    | with_reducible apply moves_fabricRead | with_reducible refine moves_fabricRead_of (by assumption) ?_ ?_
    | with_reducible apply moves_iteFst | dsimp only | split | fail_if_no_progress with_reducible apply moves_record

theorem moves_readUnit_of {z0 s t9 : State} {r9 : List Byte} {k : Nat} {a : Nat} {fixed : Bool} (e9 : State.readUnit s k a fixed = (t9,
    r9)) (hs : Moves L z0 s) (hL : ∀ p ∈ [Part.regs, .trg, .can0, .can1, .evr, .qcp, .freeCtr], p ∈ L) : Moves L z0 t9 := by
  have := moves_readUnit hs hL k a fixed
  rw [e9] at this
  exact this

theorem moves_putMemory {z0 s : State} (hs : Moves L z0 s) (hL : ∀ p ∈ [Part.fab], p ∈ L) (a : Nat) (l : List Byte) : Moves L z0
    (State.putMemory s a l) := by
  induction l generalizing s a with
  | nil => exact hs
  | cons x rest ih => exact ih (moves_writeMem hs hL _ _) _

theorem moves_writeUnit {z0 s : State} (hs : Moves L z0 s) (hL : ∀ p ∈ [Part.regs, .wins, .staged, .tb, .ptp, .frame, .pair, .lock, .loop,
    .acq, .trg, .io, .net, .can0, .can1, .evr, .trust, .fab, .power, .qcp, .sent], p ∈ L) (a : Nat) (fixed : Bool) (l : List Byte) : Moves
    L z0 (State.writeUnit s a fixed l) := by
  unfold State.writeUnit
  repeat' first
    | with_reducible exact hs | with_reducible exact hL | exact parts_sub hL (by decide) | with_reducible apply moves_fabricWrite
    | with_reducible apply moves_putMemory | with_reducible apply moves_ite | dsimp only | split

theorem moves_moveBytes {z0 s : State} (hs : Moves L z0 s) (hL : ∀ p ∈ [Part.regs, .wins, .staged, .tb, .ptp, .frame, .pair, .lock, .loop,
    .acq, .trg, .io, .net, .can0, .can1, .evr, .trust, .fab, .power, .qcp, .sent, .freeCtr], p ∈ L) (c : Nat) (x : DmaChannel) (stop :
    Nat) (n : Nat) (y5 : Nat) : Moves L z0 (State.moveBytes s c x stop n y5).1 := by
  induction n generalizing s c x stop y5 with
  | zero => exact hs
  | succ k ih =>
    unfold State.moveBytes
    repeat' first
      | with_reducible exact hs | with_reducible exact hL | exact parts_sub hL (by decide) | with_reducible assumption
      | with_reducible apply ih | with_reducible apply moves_readUnit | with_reducible refine moves_readUnit_of (by assumption) ?_ ?_
      | with_reducible apply moves_writeUnit | with_reducible apply moves_iteFst | dsimp only | split

theorem moves_moveBytes_of {z0 s t9 : State} {r9 : Nat × Option Access} {c : Nat} {x : DmaChannel} {stop : Nat} {n : Nat} {y5 : Nat} (e9 :
    State.moveBytes s c x stop n y5 = (t9, r9)) (hs : Moves L z0 s) (hL : ∀ p ∈ [Part.regs, .wins, .staged, .tb, .ptp, .frame, .pair,
    .lock, .loop, .acq, .trg, .io, .net, .can0, .can1, .evr, .trust, .fab, .power, .qcp, .sent, .freeCtr], p ∈ L) : Moves L z0 t9 := by
  have := moves_moveBytes hs hL c x stop n y5
  rw [e9] at this
  exact this

theorem moves_dmaMove {z0 s : State} (hs : Moves L z0 s) (hL : ∀ p ∈ [Part.regs, .wins, .staged, .tb, .ptp, .frame, .pair, .lock, .loop,
    .acq, .trg, .io, .net, .can0, .can1, .evr, .trust, .fab, .power, .qcp, .sent, .freeCtr], p ∈ L) (c : Nat) (n : Nat) : Moves L z0
    (State.dmaMove s c n).1 := by
  unfold State.dmaMove
  repeat' first
    | with_reducible exact hs | with_reducible exact hL | exact parts_sub hL (by decide) | with_reducible assumption
    | with_reducible apply moves_addReg | with_reducible apply moves_moveBytes
    | with_reducible refine moves_moveBytes_of (by assumption) ?_ ?_ | with_reducible apply moves_setDma
    | with_reducible apply moves_iteFst | dsimp only | split

theorem moves_dmaMove_of {z0 s t9 : State} {r9 : Option Access} {c : Nat} {n : Nat} (e9 : State.dmaMove s c n = (t9, r9)) (hs : Moves L z0
    s) (hL : ∀ p ∈ [Part.regs, .wins, .staged, .tb, .ptp, .frame, .pair, .lock, .loop, .acq, .trg, .io, .net, .can0, .can1, .evr, .trust,
    .fab, .power, .qcp, .sent, .freeCtr], p ∈ L) : Moves L z0 t9 := by
  have := moves_dmaMove hs hL c n
  rw [e9] at this
  exact this

theorem moves_haltChannel {z0 s : State} (hs : Moves L z0 s) (hL : ∀ p ∈ [Part.regs, .wins, .staged, .tb, .ptp, .frame, .pair, .lock,
    .loop, .acq, .trg, .io, .net, .can0, .can1, .evr, .trust, .fab, .power, .qcp, .sent, .freeCtr], p ∈ L) (e : DmaError) (c : Nat) :
    Moves L z0 (State.haltChannel s e c) := by
  unfold State.haltChannel
  repeat' first
    | with_reducible exact hs | with_reducible exact hL | exact parts_sub hL (by decide) | with_reducible assumption
    | with_reducible apply moves_dmaMove | with_reducible refine moves_dmaMove_of (by assumption) ?_ ?_
    | with_reducible apply moves_setDma | with_reducible apply moves_ite | dsimp only | split

theorem moves_allHalt {z0 s : State} (hs : Moves L z0 s) (hL : ∀ p ∈ [Part.regs, .wins, .staged, .tb, .ptp, .frame, .pair, .lock, .loop,
    .acq, .trg, .io, .net, .can0, .can1, .evr, .trust, .fab, .power, .qcp, .sent, .freeCtr], p ∈ L) (e : DmaError) : Moves L z0
    (State.allHalt s e) := by
  unfold State.allHalt
  repeat' first
    | with_reducible exact hs | with_reducible exact hL | exact parts_sub hL (by decide) | with_reducible assumption
    | with_reducible apply moves_haltChannel | with_reducible apply moves_incReg | with_reducible apply moves_orReg
    | with_reducible apply moves_putRegBit | with_reducible apply moves_setReg | with_reducible refine moves_updFab ?_ ?_ (fun _ => rfl)
    | with_reducible refine moves_foldl (fun _ _ _ => ?_) ?_ | with_reducible apply moves_ite | dsimp only | split

theorem moves_collarFault {z0 s : State} (hs : Moves L z0 s) (hL : ∀ p ∈ [Part.regs, .wins, .staged, .mode, .tb, .ptp, .frame, .pair,
    .lock, .loop, .acq, .trg, .io, .net, .can0, .can1, .evr, .trust, .fab, .power, .qcp, .sent, .freeCtr, .clock], p ∈ L) (n : Nat) (r :
    Nat) (x : Access) : Moves L z0 (State.collarFault s n r x) := by
  unfold State.collarFault
  repeat' first
    | with_reducible exact hs | with_reducible exact hL | exact parts_sub hL (by decide) | with_reducible apply moves_allHalt
    | with_reducible apply moves_countCollarFault | with_reducible apply moves_incReg | with_reducible apply moves_logFault
    | with_reducible apply moves_orReg | with_reducible apply moves_raise | with_reducible apply moves_runtimeFatal
    | with_reducible apply moves_ite | dsimp only | split

theorem moves_dmaFault {z0 s : State} (hs : Moves L z0 s) (hL : ∀ p ∈ [Part.regs, .wins, .staged, .mode, .tb, .ptp, .frame, .pair, .lock,
    .loop, .acq, .trg, .io, .net, .can0, .can1, .evr, .trust, .fab, .power, .qcp, .sent, .freeCtr, .clock], p ∈ L) (x : Option Access) :
    Moves L z0 (State.dmaFault s x) := by
  unfold State.dmaFault
  repeat' first
    | with_reducible exact hs | with_reducible exact hL | exact parts_sub hL (by decide) | with_reducible apply moves_collarFault
    | with_reducible apply moves_ite | dsimp only | split

theorem ends_execCollarFault {s : State} (hL : ∀ p ∈ [Part.regs, .wins, .staged, .mode, .tb, .ptp, .frame, .pair, .lock, .loop, .acq,
    .trg, .io, .net, .can0, .can1, .evr, .trust, .fab, .power, .qcp, .sent, .freeCtr, .clock], p ∈ L) (x : Access) : Ends L s
    (execCollarFault x s) := by
  have hs := Moves.refl L s
  unfold execCollarFault
  repeat' first
    | with_reducible apply ends_next | with_reducible apply ends_ite | with_reducible exact hs | with_reducible exact hL
    | exact parts_sub hL (by decide) | with_reducible apply moves_collarFault | with_reducible apply moves_countHit
    | with_reducible refine moves_updFab ?_ ?_ (fun _ => rfl) | dsimp only | split

theorem ends_execDmaTransferComplete {s : State} (hL : ∀ p ∈ [Part.regs, .wins, .staged, .mode, .tb, .ptp, .frame, .pair, .lock, .loop,
    .acq, .trg, .io, .net, .can0, .can1, .evr, .trust, .fab, .power, .qcp, .sent, .freeCtr, .clock], p ∈ L) (c : Fin 16) : Ends L s
    (execDmaTransferComplete c s) := by
  have hs := Moves.refl L s
  unfold execDmaTransferComplete
  repeat' first
    | with_reducible apply ends_next | with_reducible apply ends_ite | with_reducible exact hs | with_reducible exact hL
    | exact parts_sub hL (by decide) | with_reducible assumption | with_reducible apply moves_dmaFault
    | with_reducible apply moves_dmaMove | with_reducible refine moves_dmaMove_of (by assumption) ?_ ?_
    | with_reducible apply moves_dmaStart | with_reducible apply moves_orReg | with_reducible apply moves_setDma | dsimp only | split

theorem ends_execDmaBlockBoundary {s : State} (hL : ∀ p ∈ [Part.regs, .wins, .staged, .mode, .tb, .ptp, .frame, .pair, .lock, .loop, .acq,
    .trg, .io, .net, .can0, .can1, .evr, .trust, .fab, .power, .qcp, .sent, .freeCtr, .clock], p ∈ L) (c : Fin 16) : Ends L s
    (execDmaBlockBoundary c s) := by
  have hs := Moves.refl L s
  unfold execDmaBlockBoundary
  repeat' first
    | with_reducible apply ends_next | with_reducible apply ends_ite | with_reducible exact hs | with_reducible exact hL
    | exact parts_sub hL (by decide) | with_reducible assumption | with_reducible apply moves_dmaFault
    | with_reducible apply moves_dmaMove | with_reducible refine moves_dmaMove_of (by assumption) ?_ ?_ | with_reducible apply moves_orReg
    | dsimp only | split

theorem ends_execDmaBusError {s : State} (hL : ∀ p ∈ [Part.regs, .wins, .staged, .tb, .ptp, .frame, .pair, .lock, .loop, .acq, .trg, .io,
    .net, .can0, .can1, .evr, .trust, .fab, .power, .qcp, .sent, .freeCtr], p ∈ L) (e : DmaError) : Ends L s (execDmaBusError e s) := by
  have hs := Moves.refl L s
  unfold execDmaBusError
  repeat' first
    | with_reducible apply ends_next | with_reducible apply ends_ite | with_reducible exact hs | with_reducible exact hL
    | exact parts_sub hL (by decide) | with_reducible apply moves_allHalt | dsimp only | split

theorem ends_execDmaDrained {s : State} (hL : ∀ p ∈ [Part.regs, .evr, .fab], p ∈ L) : Ends L s (execDmaDrained s) := by
  have hs := Moves.refl L s
  unfold execDmaDrained
  repeat' first
    | with_reducible apply ends_next | with_reducible apply ends_ite | with_reducible exact hs | with_reducible exact hL
    | exact parts_sub hL (by decide) | with_reducible apply moves_putRegBit | with_reducible apply moves_raiseBlock
    | with_reducible apply moves_setReg | with_reducible refine moves_updFab ?_ ?_ (fun _ => rfl) | dsimp only | split

theorem moves_cuffHalt {z0 s : State} (hs : Moves L z0 s) (hL : ∀ p ∈ [Part.regs, .wins, .staged, .tb, .ptp, .frame, .pair, .lock, .loop,
    .acq, .trg, .io, .net, .can0, .can1, .evr, .trust, .fab, .power, .qcp, .sent, .freeCtr], p ∈ L) (n : Nat) (master : BitVec 6) : Moves
    L z0 (State.cuffHalt s n master) := by
  unfold State.cuffHalt
  repeat' first
    | with_reducible exact hs | with_reducible exact hL | exact parts_sub hL (by decide) | with_reducible apply moves_allHalt
    | with_reducible apply moves_ite | dsimp only | split

theorem ends_execCuffTimeout {s : State} (hL : ∀ p ∈ [Part.regs, .wins, .staged, .tb, .ptp, .frame, .pair, .lock, .loop, .acq, .trg, .io,
    .net, .can0, .can1, .evr, .trust, .fab, .power, .qcp, .sent, .freeCtr], p ∈ L) (n : Fin 12) (master : BitVec 6) : Ends L s
    (execCuffTimeout n master s) := by
  have hs := Moves.refl L s
  unfold execCuffTimeout
  repeat' first
    | with_reducible apply ends_next | with_reducible apply ends_ite | with_reducible exact hs | with_reducible exact hL
    | exact parts_sub hL (by decide) | with_reducible apply moves_cuffHalt | with_reducible apply moves_noteCuff
    | with_reducible apply moves_orReg | with_reducible apply moves_putRegBit | with_reducible apply moves_raise
    | with_reducible apply moves_satRegFld | dsimp only | split

end Sys2Proof.Machine
end

