-- ==== Sys2Proof/Laws/Moves/Switch.lean ====
section
/-!
SUPPORT. What each operation of Machine/Switch.lean may touch.
-/

namespace Sys2Proof.Machine

set_option linter.unusedTactic false
set_option linter.unreachableTactic false

variable {L : List Part}

theorem moves_openBank {z0 s : State} (hs : Moves L z0 s) (hL : ∀ p ∈ [Part.regs, .frame], p ∈ L) (size : Nat) (digest : BitVec 256) :
    Moves L z0 (State.openBank s size digest) := by
  unfold State.openBank
  repeat' first
    | with_reducible exact hs | with_reducible exact hL | exact parts_sub hL (by decide) | with_reducible apply moves_setBankImage
    | with_reducible apply moves_setBankState | with_reducible apply moves_setReg | with_reducible apply moves_setRegs
    | with_reducible apply moves_ite | dsimp only | split

theorem moves_beginImage {z0 s : State} (hs : Moves L z0 s) (hL : ∀ p ∈ [Part.regs, .frame, .qcp, .sent], p ∈ L) (size : Nat) (digest :
    BitVec 256) (rq : Requester) : Moves L z0 (beginImage size digest s rq).1 := by
  unfold beginImage
  repeat' first
    | with_reducible exact hs | with_reducible exact hL | exact parts_sub hL (by decide) | with_reducible assumption
    | with_reducible apply moves_openBank | with_reducible apply moves_openHandle
    | with_reducible refine moves_openHandle_of (by assumption) ?_ ?_ | with_reducible apply moves_pass
    | with_reducible apply moves_iteFst | dsimp only | split

theorem moves_beginImage_of {z0 s t9 : State} {r9 : Option Reply} {size : Nat} {digest : BitVec 256} {rq : Requester} (e9 : beginImage
    size digest s rq = (t9, r9)) (hs : Moves L z0 s) (hL : ∀ p ∈ [Part.regs, .frame, .qcp, .sent], p ∈ L) : Moves L z0 t9 := by
  have := moves_beginImage hs hL size digest rq
  rw [e9] at this
  exact this

theorem ends_execImageBegin {s : State} (hL : ∀ p ∈ [Part.regs, .frame, .evr, .qcp, .sent], p ∈ L) (p : Pkt) (size : Word) (digest :
    BitVec 256) : Ends L s (execImageBegin p size digest s) := by
  have hs := Moves.refl L s
  unfold execImageBegin
  repeat' first
    | with_reducible apply ends_next | with_reducible apply ends_ite | with_reducible exact hs | with_reducible exact hL
    | exact parts_sub hL (by decide) | with_reducible assumption | with_reducible apply moves_beginImage
    | with_reducible refine moves_beginImage_of (by assumption) ?_ ?_
    | with_reducible refine moves_request ?_ ?_ _ _ _ _ _ (fun _ _ _ => ?_) | dsimp only | split

theorem ends_execImageChunk {s : State} (hL : ∀ p ∈ [Part.evr, .qcp, .sent], p ∈ L) (p : Pkt) (handle : Word) (index : Word) (data : List
    Byte) : Ends L s (execImageChunk p handle index data s) := by
  have hs := Moves.refl L s
  unfold execImageChunk
  repeat' first
    | with_reducible apply ends_next | with_reducible apply ends_ite | with_reducible exact hs | with_reducible exact hL
    | exact parts_sub hL (by decide) | with_reducible assumption | with_reducible apply moves_pass
    | with_reducible refine moves_request ?_ ?_ _ _ _ _ _ (fun _ _ _ => ?_) | with_reducible apply moves_setHandle | dsimp only | split

theorem ends_execImageCommit {s : State} (hL : ∀ p ∈ [Part.regs, .frame, .evr, .qcp, .sent], p ∈ L) (p : Pkt) (handle : Word) : Ends L s
    (execImageCommit p handle s) := by
  have hs := Moves.refl L s
  unfold execImageCommit
  repeat' first
    | with_reducible apply ends_next | with_reducible apply ends_ite | with_reducible exact hs | with_reducible exact hL
    | exact parts_sub hL (by decide) | with_reducible assumption | with_reducible apply moves_dropHandle | with_reducible apply moves_pass
    | with_reducible refine moves_request ?_ ?_ _ _ _ _ _ (fun _ _ _ => ?_)
    | with_reducible refine moves_updFrame ?_ ?_ (fun _ => ⟨rfl, rfl⟩)
    | with_reducible refine moves_updFrame ?_ ?_ (fun _ => by split <;> exact ⟨rfl, rfl⟩) | dsimp only | split

theorem moves_showBank {z0 s : State} (hs : Moves L z0 s) (hL : ∀ p ∈ [Part.regs], p ∈ L) (b : Nat) (v : Verification) (i : Image) : Moves
    L z0 (State.showBank s b v i) := by
  unfold State.showBank
  repeat' first
    | with_reducible exact hs | with_reducible exact hL | exact parts_sub hL (by decide) | with_reducible assumption
    | with_reducible apply moves_setReg | with_reducible apply moves_setRegs | with_reducible refine moves_foldl (fun _ _ _ => ?_) ?_
    | with_reducible apply moves_ite | dsimp only | split

theorem ends_execImageVerifyComplete {s : State} (hL : ∀ p ∈ [Part.regs, .frame, .evr, .qcp, .sent], p ∈ L) (r : ImageVerdict) : Ends L s
    (execImageVerifyComplete r s) := by
  have hs := Moves.refl L s
  unfold execImageVerifyComplete
  repeat' first
    | with_reducible apply ends_next | with_reducible apply ends_ite | with_reducible exact hs | with_reducible exact hL
    | exact parts_sub hL (by decide) | with_reducible apply moves_count | with_reducible apply moves_incReg
    | with_reducible apply moves_notify | with_reducible apply moves_orReg | with_reducible apply moves_raiseQcp
    | with_reducible apply moves_setBankImage | with_reducible apply moves_setBankState | with_reducible apply moves_showBank
    | with_reducible refine moves_updFrame ?_ ?_ (fun _ => ⟨rfl, rfl⟩)
    | with_reducible refine moves_updFrame ?_ ?_ (fun _ => by split <;> exact ⟨rfl, rfl⟩) | dsimp only | split

theorem ends_execImageAdmit {s : State} (hL : ∀ p ∈ [Part.frame, .evr, .qcp, .sent], p ∈ L) (p : Pkt) : Ends L s (execImageAdmit p s) :=
    by
  have hs := Moves.refl L s
  unfold execImageAdmit
  repeat' first
    | with_reducible apply ends_next | with_reducible apply ends_ite | with_reducible exact hs | with_reducible exact hL
    | exact parts_sub hL (by decide) | with_reducible assumption | with_reducible apply moves_pass
    | with_reducible refine moves_request ?_ ?_ _ _ _ _ _ (fun _ _ _ => ?_)
    | with_reducible refine moves_updFrame ?_ ?_ (fun _ => ⟨rfl, rfl⟩)
    | with_reducible refine moves_updFrame ?_ ?_ (fun _ => by split <;> exact ⟨rfl, rfl⟩) | dsimp only | split

theorem ends_execAdmissionComplete {s : State} (hL : ∀ p ∈ [Part.regs, .frame, .evr, .qcp, .sent], p ∈ L) (partner : Option
    PartnerAdmission) : Ends L s (execAdmissionComplete partner s) := by
  have hs := Moves.refl L s
  unfold execAdmissionComplete
  repeat' first
    | with_reducible apply ends_next | with_reducible apply ends_ite | with_reducible exact hs | with_reducible exact hL
    | exact parts_sub hL (by decide) | with_reducible apply moves_noteConflict | with_reducible apply moves_notify
    | with_reducible apply moves_setBankState | with_reducible refine moves_updFrame ?_ ?_ (fun _ => ⟨rfl, rfl⟩)
    | with_reducible refine moves_updFrame ?_ ?_ (fun _ => by split <;> exact ⟨rfl, rfl⟩) | with_reducible apply moves_writeAdmission
    | dsimp only | split

theorem moves_startSwitch {z0 s : State} (hs : Moves L z0 s) (hL : ∀ p ∈ [Part.frame, .sent], p ∈ L) (by_ : Option Requester) (tack :
    Option (Word × Nat)) : Moves L z0 (State.startSwitch s by_ tack) := by
  unfold State.startSwitch
  repeat' first
    | with_reducible exact hs | with_reducible exact hL | exact parts_sub hL (by decide) | with_reducible apply moves_pass
    | with_reducible refine moves_updFrame ?_ ?_ (fun _ => ⟨rfl, rfl⟩)
    | with_reducible refine moves_updFrame ?_ ?_ (fun _ => by split <;> exact ⟨rfl, rfl⟩) | with_reducible apply moves_ite | dsimp only
    | split

theorem ends_execImageSwitch {s : State} (hL : ∀ p ∈ [Part.frame, .evr, .qcp, .sent], p ∈ L) (p : Pkt) (partnerBank : Option (BitVec 256))
    : Ends L s (execImageSwitch p partnerBank s) := by
  have hs := Moves.refl L s
  unfold execImageSwitch
  repeat' first
    | with_reducible apply ends_next | with_reducible apply ends_ite | with_reducible exact hs | with_reducible exact hL
    | exact parts_sub hL (by decide) | with_reducible assumption | with_reducible refine moves_request ?_ ?_ _ _ _ _ _ (fun _ _ _ => ?_)
    | with_reducible apply moves_startSwitch | dsimp only | split

theorem ends_execSwitchPrepared {s : State} (hL : ∀ p ∈ [Part.frame, .evr, .sent], p ∈ L) : Ends L s (execSwitchPrepared s) := by
  have hs := Moves.refl L s
  unfold execSwitchPrepared
  repeat' first
    | with_reducible apply ends_next | with_reducible apply ends_ite | with_reducible exact hs | with_reducible exact hL
    | exact parts_sub hL (by decide) | with_reducible apply moves_pass | with_reducible apply moves_raiseBlock
    | with_reducible apply moves_send | with_reducible refine moves_updFrame ?_ ?_ (fun _ => ⟨rfl, rfl⟩)
    | with_reducible refine moves_updFrame ?_ ?_ (fun _ => by split <;> exact ⟨rfl, rfl⟩) | dsimp only | split

theorem ends_execSwitchTickConfirmDeadline {s : State} (hL : ∀ p ∈ [Part.regs, .tb, .frame, .evr, .qcp, .sent, .clock], p ∈ L) : Ends L s
    (execSwitchTickConfirmDeadline s) := by
  have hs := Moves.refl L s
  unfold execSwitchTickConfirmDeadline
  repeat' first
    | with_reducible apply ends_next | with_reducible apply ends_ite | with_reducible exact hs | with_reducible exact hL
    | exact parts_sub hL (by decide) | with_reducible apply moves_advanceTo | with_reducible apply moves_cancelSwitch | dsimp only | split

theorem ends_execSwitchFlip {s : State} (hL : ∀ p ∈ [Part.tb, .frame, .clock], p ∈ L) (acknowledged : Bool) (tableOk : Bool) : Ends L s
    (execSwitchFlip acknowledged tableOk s) := by
  have hs := Moves.refl L s
  unfold execSwitchFlip
  repeat' first
    | with_reducible apply ends_next | with_reducible apply ends_ite | with_reducible exact hs | with_reducible exact hL
    | exact parts_sub hL (by decide) | with_reducible apply moves_phase | with_reducible refine moves_updFrame ?_ ?_ (fun _ => ⟨rfl, rfl⟩)
    | with_reducible refine moves_updFrame ?_ ?_ (fun _ => by split <;> exact ⟨rfl, rfl⟩) | dsimp only | split

theorem moves_dropReleases {z0 s : State} (hs : Moves L z0 s) (hL : ∀ p ∈ [Part.evr], p ∈ L) (t : Nat) (l : List ERelease) : Moves L z0
    (State.dropReleases s t l) := by
  induction l generalizing s t with
  | nil => exact hs
  | cons x rest ih =>
    unfold State.dropReleases
    repeat' first
      | with_reducible exact hs | with_reducible exact hL | exact parts_sub hL (by decide) | with_reducible apply ih
      | with_reducible apply moves_raise | with_reducible apply moves_ite | dsimp only | split

theorem moves_moveReleases {z0 s : State} (hs : Moves L z0 s) (hL : ∀ p ∈ [Part.regs, .frame, .evr], p ∈ L) (old : Image) (new : Image) (l
    : List (Nat × ETask)) : Moves L z0 (State.moveReleases s old new l) := by
  induction l generalizing s old new with
  | nil => exact hs
  | cons x rest ih =>
    unfold State.moveReleases
    repeat' first
      | with_reducible exact hs | with_reducible exact hL | exact parts_sub hL (by decide) | with_reducible apply ih
      | with_reducible apply moves_dropReleases | with_reducible apply moves_releaseAnew | with_reducible apply moves_setETask
      | with_reducible apply moves_ite | dsimp only | split

theorem moves_removeTacks {z0 s : State} (hs : Moves L z0 s) (hL : ∀ p ∈ [Part.regs, .evr], p ∈ L) (new : Image) (l : List Tack) : Moves L
    z0 (State.removeTacks s new l) := by
  induction l generalizing s new with
  | nil => exact hs
  | cons x rest ih =>
    unfold State.removeTacks
    repeat' first
      | with_reducible exact hs | with_reducible exact hL | exact parts_sub hL (by decide) | with_reducible apply ih
      | with_reducible apply moves_incReg | with_reducible apply moves_raiseBlock | with_reducible apply moves_ite | dsimp only | split

theorem moves_uncommitLoop {z0 s : State} (hs : Moves L z0 s) (hL : ∀ p ∈ [Part.io], p ∈ L) (n : Nat) : Moves L z0 (State.uncommitLoop s
    n) := by
  unfold State.uncommitLoop
  repeat' first
    | with_reducible exact hs | with_reducible rfl | with_reducible exact Or.inl rfl | with_reducible exact Or.inl ⟨rfl, rfl⟩
    | exact Or.inr (hL _ (by decide)) | with_reducible exact hL | exact parts_sub hL (by decide) | with_reducible apply moves_ite
    | dsimp only | split | fail_if_no_progress with_reducible apply moves_record

theorem moves_unbindOutputs {z0 s : State} (hs : Moves L z0 s) (hL : ∀ p ∈ [Part.frame, .io], p ∈ L) (old : Image) (new : Image) : Moves L
    z0 (State.unbindOutputs s old new) := by
  unfold State.unbindOutputs
  repeat' first
    | with_reducible exact hs | with_reducible exact hL | exact parts_sub hL (by decide) | with_reducible assumption
    | with_reducible apply moves_uncommitLoop | with_reducible refine moves_updFrame ?_ ?_ (fun _ => ⟨rfl, rfl⟩)
    | with_reducible refine moves_updFrame ?_ ?_ (fun _ => by split <;> exact ⟨rfl, rfl⟩)
    | with_reducible refine moves_foldl (fun _ _ _ => ?_) ?_ | with_reducible apply moves_ite | dsimp only | split

theorem moves_finalSwitch {z0 s : State} (hs : Moves L z0 s) (hL : ∀ p ∈ [Part.regs, .frame, .io, .net, .evr, .qcp, .sent], p ∈ L) (w :
    Switch) : Moves L z0 (State.finalSwitch s w) := by
  unfold State.finalSwitch
  repeat' first
    | with_reducible exact hs | with_reducible exact hL | exact parts_sub hL (by decide) | with_reducible apply moves_freshPoints
    | with_reducible apply moves_incReg | with_reducible apply moves_moveReleases | with_reducible apply moves_notify
    | with_reducible apply moves_raiseBlock | with_reducible apply moves_removeTacks | with_reducible apply moves_setBankState
    | with_reducible apply moves_showImage | with_reducible apply moves_unbindChanged | with_reducible apply moves_unbindOutputs
    | with_reducible refine moves_updFrame ?_ ?_ (fun _ => ⟨rfl, rfl⟩)
    | with_reducible refine moves_updFrame ?_ ?_ (fun _ => by split <;> exact ⟨rfl, rfl⟩) | with_reducible apply moves_ite | dsimp only
    | split

theorem moves_revertSwitch {z0 s : State} (hs : Moves L z0 s) (hL : ∀ p ∈ [Part.regs, .frame, .evr, .qcp, .sent], p ∈ L) (w : Switch)
    (reason : Nat) : Moves L z0 (State.revertSwitch s w reason) := by
  unfold State.revertSwitch
  repeat' first
    | with_reducible exact hs | with_reducible exact hL | exact parts_sub hL (by decide) | with_reducible apply moves_notify
    | with_reducible apply moves_raise | with_reducible apply moves_returnReleases | with_reducible apply moves_setBankState
    | with_reducible refine moves_updFrame ?_ ?_ (fun _ => ⟨rfl, rfl⟩)
    | with_reducible refine moves_updFrame ?_ ?_ (fun _ => by split <;> exact ⟨rfl, rfl⟩) | with_reducible apply moves_ite | dsimp only
    | split

theorem moves_releaseNow {z0 s : State} (hs : Moves L z0 s) (hL : ∀ p ∈ [Part.regs, .frame], p ∈ L) : Moves L z0 (State.releaseNow s) :=
    by
  unfold State.releaseNow
  repeat' first
    | with_reducible exact hs | with_reducible exact hL | exact parts_sub hL (by decide) | with_reducible apply moves_releaseTasks
    | with_reducible apply moves_ite | dsimp only | split

theorem ends_execSwitchOutcome {s : State} (hL : ∀ p ∈ [Part.regs, .tb, .frame, .pair, .io, .net, .evr, .qcp, .sent, .clock], p ∈ L)
    (partner : Option Bool) (delivered : Bool) : Ends L s (execSwitchOutcome partner delivered s) := by
  have hs := Moves.refl L s
  unfold execSwitchOutcome
  repeat' first
    | with_reducible apply ends_next | with_reducible apply ends_ite | with_reducible exact hs | with_reducible exact hL
    | exact parts_sub hL (by decide) | with_reducible apply moves_finalSwitch | with_reducible apply moves_phase
    | with_reducible apply moves_releaseNow | with_reducible apply moves_revertSwitch | with_reducible apply moves_updPair | dsimp only
    | split

theorem ends_execImageAbort {s : State} (hL : ∀ p ∈ [Part.regs, .frame, .evr, .qcp, .sent], p ∈ L) (p : Pkt) (handle : Word) : Ends L s
    (execImageAbort p handle s) := by
  have hs := Moves.refl L s
  unfold execImageAbort
  repeat' first
    | with_reducible apply ends_next | with_reducible apply ends_ite | with_reducible exact hs | with_reducible exact hL
    | exact parts_sub hL (by decide) | with_reducible assumption | with_reducible apply moves_cancelSwitch
    | with_reducible apply moves_dropHandle | with_reducible apply moves_pass
    | with_reducible refine moves_request ?_ ?_ _ _ _ _ _ (fun _ _ _ => ?_) | dsimp only | split

end Sys2Proof.Machine
end

