-- ==== Sys2Proof/Laws/Moves/Tacks.lean ====
section
/-!
SUPPORT. What each operation of Machine/Tacks.lean may touch.
-/

namespace Sys2Proof.Machine

set_option linter.unusedTactic false
set_option linter.unreachableTactic false

variable {L : List Part}

theorem moves_queueTack {z0 s : State} (hs : Moves L z0 s) (hL : ∀ p ∈ [Part.frame, .sent], p ∈ L) (t : TackRequest) (id : Word) (owner :
    Option Nat) : Moves L z0 (State.queueTack s t id owner) := by
  unfold State.queueTack
  repeat' first
    | with_reducible exact hs | with_reducible exact hL | exact parts_sub hL (by decide) | with_reducible apply moves_startSwitch
    | with_reducible refine moves_updFrame ?_ ?_ (fun _ => ⟨rfl, rfl⟩)
    | with_reducible refine moves_updFrame ?_ ?_ (fun _ => by split <;> exact ⟨rfl, rfl⟩) | with_reducible apply moves_ite | dsimp only
    | split

theorem ends_execTackSchedule {s : State} (hL : ∀ p ∈ [Part.regs, .frame, .evr, .qcp, .sent], p ∈ L) (p : Pkt) (t : TackRequest)
    (partnerBank : Option (BitVec 256)) : Ends L s (execTackSchedule p t partnerBank s) := by
  have hs := Moves.refl L s
  unfold execTackSchedule
  repeat' first
    | with_reducible apply ends_next | with_reducible apply ends_ite | with_reducible exact hs | with_reducible exact hL
    | exact parts_sub hL (by decide) | with_reducible assumption | with_reducible apply moves_incReg | with_reducible apply moves_pass
    | with_reducible apply moves_queueTack | with_reducible refine moves_request ?_ ?_ _ _ _ _ _ (fun _ _ _ => ?_) | dsimp only | split

theorem moves_removeTack {z0 s : State} (hs : Moves L z0 s) (hL : ∀ p ∈ [Part.regs, .frame, .evr, .qcp, .sent], p ∈ L) (id : Word) : Moves
    L z0 (State.removeTack s id) := by
  unfold State.removeTack
  repeat' first
    | with_reducible exact hs | with_reducible exact hL | exact parts_sub hL (by decide) | with_reducible apply moves_cancelSwitch
    | with_reducible refine moves_updFrame ?_ ?_ (fun _ => ⟨rfl, rfl⟩)
    | with_reducible refine moves_updFrame ?_ ?_ (fun _ => by split <;> exact ⟨rfl, rfl⟩) | with_reducible apply moves_ite | dsimp only
    | split

theorem ends_execTackCancel {s : State} (hL : ∀ p ∈ [Part.regs, .frame, .evr, .qcp, .sent], p ∈ L) (p : Pkt) (id : Word) : Ends L s
    (execTackCancel p id s) := by
  have hs := Moves.refl L s
  unfold execTackCancel
  repeat' first
    | with_reducible apply ends_next | with_reducible apply ends_ite | with_reducible exact hs | with_reducible exact hL
    | exact parts_sub hL (by decide) | with_reducible assumption | with_reducible apply moves_incReg | with_reducible apply moves_pass
    | with_reducible apply moves_removeTack | with_reducible refine moves_request ?_ ?_ _ _ _ _ _ (fun _ _ _ => ?_) | dsimp only | split

theorem ends_execTackList {s : State} (hL : ∀ p ∈ [Part.evr, .qcp, .sent], p ∈ L) (p : Pkt) (first : Word) : Ends L s (execTackList p
    first s) := by
  have hs := Moves.refl L s
  unfold execTackList
  repeat' first
    | with_reducible apply ends_next | with_reducible apply ends_ite | with_reducible exact hs | with_reducible exact hL
    | exact parts_sub hL (by decide) | with_reducible assumption | with_reducible refine moves_request ?_ ?_ _ _ _ _ _ (fun _ _ _ => ?_)
    | with_reducible refine moves_foldl (fun _ _ _ => ?_) ?_ | dsimp only | split

theorem moves_discardTack {z0 s : State} (hs : Moves L z0 s) (hL : ∀ p ∈ [Part.regs, .evr], p ∈ L) (event : Nat) : Moves L z0
    (State.discardTack s event) := by
  unfold State.discardTack
  repeat' first
    | with_reducible exact hs | with_reducible exact hL | exact parts_sub hL (by decide) | with_reducible apply moves_incReg
    | with_reducible apply moves_raiseBlock | with_reducible apply moves_ite | dsimp only | split

theorem moves_judgeRestored {z0 s : State} (hs : Moves L z0 s) (hL : ∀ p ∈ [Part.regs, .frame, .evr], p ∈ L) : Moves L z0
    (State.judgeRestored s) := by
  unfold State.judgeRestored
  repeat' first
    | with_reducible exact hs | with_reducible exact hL | exact parts_sub hL (by decide) | with_reducible assumption
    | with_reducible apply moves_addReg | with_reducible apply moves_raiseBlock
    | with_reducible refine moves_updFrame ?_ ?_ (fun _ => ⟨rfl, rfl⟩)
    | with_reducible refine moves_updFrame ?_ ?_ (fun _ => by split <;> exact ⟨rfl, rfl⟩)
    | with_reducible refine moves_foldl (fun _ _ _ => ?_) ?_ | with_reducible apply moves_ite | dsimp only | split

end Sys2Proof.Machine
end

