-- ==== Sys2Proof/Laws/Moves/Passed.lean ====
section
/-!
SUPPORT. What each operation of Machine/Passed.lean may touch.
-/

namespace Sys2Proof.Machine

set_option linter.unusedTactic false
set_option linter.unreachableTactic false

variable {L : List Part}

theorem moves_confirm {z0 s : State} (hs : Moves L z0 s) (hL : ∀ p ∈ [Part.sent], p ∈ L) (fields : List Nat) : Moves L z0 (State.confirm s
    fields) := by
  unfold State.confirm
  repeat' first
    | with_reducible exact hs | with_reducible exact hL | exact parts_sub hL (by decide) | with_reducible apply moves_send
    | with_reducible apply moves_ite | dsimp only | split

theorem moves_beginPassed {z0 s : State} (hs : Moves L z0 s) (hL : ∀ p ∈ [Part.regs, .frame], p ∈ L) (size : Nat) (digest : BitVec 256) :
    Moves L z0 (State.beginPassed s size digest) := by
  unfold State.beginPassed
  repeat' first
    | with_reducible exact hs | with_reducible exact hL | exact parts_sub hL (by decide) | with_reducible apply moves_openBank
    | with_reducible refine moves_updFrame ?_ ?_ (fun _ => ⟨rfl, rfl⟩)
    | with_reducible refine moves_updFrame ?_ ?_ (fun _ => by split <;> exact ⟨rfl, rfl⟩) | with_reducible apply moves_ite | dsimp only
    | split

theorem moves_storePassed {z0 s : State} (hs : Moves L z0 s) (hL : ∀ p ∈ [Part.frame], p ∈ L) (index : Nat) (data : List Byte) : Moves L
    z0 (State.storePassed s index data) := by
  unfold State.storePassed
  repeat' first
    | with_reducible exact hs | with_reducible exact hL | exact parts_sub hL (by decide)
    | with_reducible refine moves_updFrame ?_ ?_ (fun _ => ⟨rfl, rfl⟩)
    | with_reducible refine moves_updFrame ?_ ?_ (fun _ => by split <;> exact ⟨rfl, rfl⟩) | with_reducible apply moves_ite | dsimp only
    | split

theorem moves_commitPassed {z0 s : State} (hs : Moves L z0 s) (hL : ∀ p ∈ [Part.frame], p ∈ L) : Moves L z0 (State.commitPassed s) := by
  unfold State.commitPassed
  repeat' first
    | with_reducible exact hs | with_reducible exact hL | exact parts_sub hL (by decide)
    | with_reducible refine moves_updFrame ?_ ?_ (fun _ => ⟨rfl, rfl⟩)
    | with_reducible refine moves_updFrame ?_ ?_ (fun _ => by split <;> exact ⟨rfl, rfl⟩) | with_reducible apply moves_ite | dsimp only
    | split

theorem moves_abortPassed {z0 s : State} (hs : Moves L z0 s) (hL : ∀ p ∈ [Part.regs, .frame], p ∈ L) : Moves L z0 (State.abortPassed s) :=
    by
  unfold State.abortPassed
  repeat' first
    | with_reducible exact hs | with_reducible exact hL | exact parts_sub hL (by decide) | with_reducible apply moves_setBankState
    | with_reducible refine moves_updFrame ?_ ?_ (fun _ => ⟨rfl, rfl⟩)
    | with_reducible refine moves_updFrame ?_ ?_ (fun _ => by split <;> exact ⟨rfl, rfl⟩) | with_reducible apply moves_ite | dsimp only
    | split

theorem moves_passedRunTick {z0 s : State} (hs : Moves L z0 s) (hL : ∀ p ∈ [Part.regs, .frame, .pair, .sent], p ∈ L) (toRun : Bool) (t :
    Nat) : Moves L z0 (State.passedRunTick s toRun t) := by
  unfold State.passedRunTick
  repeat' first
    | with_reducible exact hs | with_reducible exact hL | exact parts_sub hL (by decide) | with_reducible apply moves_confirm
    | with_reducible apply moves_setReg | with_reducible refine moves_updFrame ?_ ?_ (fun _ => ⟨rfl, rfl⟩)
    | with_reducible refine moves_updFrame ?_ ?_ (fun _ => by split <;> exact ⟨rfl, rfl⟩) | with_reducible apply moves_updPair
    | with_reducible apply moves_ite | dsimp only | split

theorem moves_passedSwitchTick {z0 s : State} (hs : Moves L z0 s) (hL : ∀ p ∈ [Part.frame, .sent], p ∈ L) (t : Nat) : Moves L z0
    (State.passedSwitchTick s t) := by
  unfold State.passedSwitchTick
  repeat' first
    | with_reducible exact hs | with_reducible exact hL | exact parts_sub hL (by decide) | with_reducible apply moves_confirm
    | with_reducible refine moves_updFrame ?_ ?_ (fun _ => ⟨rfl, rfl⟩)
    | with_reducible refine moves_updFrame ?_ ?_ (fun _ => by split <;> exact ⟨rfl, rfl⟩) | with_reducible apply moves_ite | dsimp only
    | split

theorem moves_passedHandover {z0 s : State} (hs : Moves L z0 s) (hL : ∀ p ∈ [Part.pair, .sent], p ∈ L) (t : Nat) : Moves L z0
    (State.passedHandover s t) := by
  unfold State.passedHandover
  repeat' first
    | with_reducible exact hs | with_reducible exact hL | exact parts_sub hL (by decide) | with_reducible apply moves_confirm
    | with_reducible apply moves_updPair | with_reducible apply moves_ite | dsimp only | split

theorem moves_passedApplication {z0 s : State} (hs : Moves L z0 s) (hL : ∀ p ∈ [Part.frame, .pair, .evr, .sent], p ∈ L) (t : Nat) (e :
    AppEffect) : Moves L z0 (State.passedApplication s t e) := by
  unfold State.passedApplication
  repeat' first
    | with_reducible exact hs | with_reducible exact hL | exact parts_sub hL (by decide) | with_reducible apply moves_confirm
    | with_reducible apply moves_dropUnconfirmed | with_reducible refine moves_updFrame ?_ ?_ (fun _ => ⟨rfl, rfl⟩)
    | with_reducible refine moves_updFrame ?_ ?_ (fun _ => by split <;> exact ⟨rfl, rfl⟩) | with_reducible apply moves_ite | dsimp only
    | split

theorem moves_passedBind {z0 s : State} (hs : Moves L z0 s) (hL : ∀ p ∈ [Part.net], p ∈ L) (n : Nat) (t : Nat) (mac : BitVec 48) : Moves L
    z0 (State.passedBind s n t mac) := by
  unfold State.passedBind
  repeat' first
    | with_reducible exact hs | with_reducible exact hL | exact parts_sub hL (by decide) | with_reducible apply moves_setStation
    | with_reducible apply moves_ite | dsimp only | split

theorem moves_runPassed {z0 s : State} (hs : Moves L z0 s) (hL : ∀ p ∈ [Part.regs, .wins, .staged, .tb, .ptp, .frame, .pair, .lock, .loop,
    .acq, .trg, .io, .net, .can0, .can1, .evr, .trust, .fab, .power, .qcp, .sent], p ∈ L) (c : Passed) : Moves L z0 (State.runPassed s c)
    := by
  unfold State.runPassed
  repeat' first
    | with_reducible exact hs | with_reducible rfl | with_reducible exact Or.inl rfl | with_reducible exact Or.inl ⟨rfl, rfl⟩
    | exact Or.inr (hL _ (by decide)) | with_reducible exact hL | exact parts_sub hL (by decide) | with_reducible assumption
    | with_reducible apply moves_abortPassed | with_reducible apply moves_beginPassed | with_reducible apply moves_cancelSwitch
    | with_reducible apply moves_commitPassed | with_reducible apply moves_commitStation | with_reducible apply moves_confirm
    | with_reducible apply moves_incReg | with_reducible apply moves_passedApplication | with_reducible apply moves_passedBind
    | with_reducible apply moves_passedHandover | with_reducible apply moves_passedRunTick | with_reducible apply moves_passedSwitchTick
    | with_reducible apply moves_queueTack | with_reducible apply moves_removeTack | with_reducible apply moves_startSwitch
    | with_reducible apply moves_storePassed | with_reducible refine moves_updFab ?_ ?_ (fun _ => rfl)
    | with_reducible refine moves_updFrame ?_ ?_ (fun _ => ⟨rfl, rfl⟩)
    | with_reducible refine moves_updFrame ?_ ?_ (fun _ => by split <;> exact ⟨rfl, rfl⟩) | with_reducible apply moves_writeReg
    | with_reducible refine moves_writeReg_of (by assumption) ?_ ?_ | with_reducible apply moves_ite | dsimp only | split
    | fail_if_no_progress with_reducible apply moves_record

theorem moves_leaderResteps {z0 s : State} (hs : Moves L z0 s) (hL : ∀ p ∈ [Part.regs, .pair, .evr], p ∈ L) (c : Passed) : Moves L z0
    (State.leaderResteps s c) := by
  unfold State.leaderResteps
  repeat' first
    | with_reducible exact hs | with_reducible exact hL | exact parts_sub hL (by decide) | with_reducible apply moves_roundFailed
    | with_reducible apply moves_ite | dsimp only | split

theorem ends_execPassedCommand {s : State} (hL : ∀ p ∈ [Part.regs, .wins, .staged, .tb, .ptp, .frame, .pair, .lock, .loop, .acq, .trg,
    .io, .net, .can0, .can1, .evr, .trust, .fab, .power, .qcp, .sent], p ∈ L) (c : Passed) : Ends L s (execPassedCommand c s) := by
  have hs := Moves.refl L s
  unfold execPassedCommand
  repeat' first
    | with_reducible apply ends_next | with_reducible apply ends_ite | with_reducible exact hs | with_reducible exact hL
    | exact parts_sub hL (by decide) | with_reducible apply moves_leaderResteps | with_reducible apply moves_runPassed | dsimp only
    | split

theorem moves_confirmed {z0 s : State} (hs : Moves L z0 s) (hL : ∀ p ∈ [Part.frame, .pair], p ∈ L) (c : Confirmed) : Moves L z0
    (State.confirmed s c) := by
  unfold State.confirmed
  repeat' first
    | with_reducible exact hs | with_reducible exact hL | exact parts_sub hL (by decide)
    | with_reducible refine moves_updFrame ?_ ?_ (fun _ => ⟨rfl, rfl⟩)
    | with_reducible refine moves_updFrame ?_ ?_ (fun _ => by split <;> exact ⟨rfl, rfl⟩) | with_reducible apply moves_updPair
    | with_reducible apply moves_ite | dsimp only | split

theorem ends_execPassedCommandConfirmation {s : State} (hL : ∀ p ∈ [Part.frame, .pair], p ∈ L) (c : Confirmed) : Ends L s
    (execPassedCommandConfirmation c s) := by
  have hs := Moves.refl L s
  unfold execPassedCommandConfirmation
  repeat' first
    | with_reducible apply ends_next | with_reducible apply ends_ite | with_reducible exact hs | with_reducible exact hL
    | exact parts_sub hL (by decide) | with_reducible apply moves_confirmed | dsimp only | split

end Sys2Proof.Machine
end

