-- ==== Sys2Proof/Laws/Moves/Seam.lean ====
section
/-!
SUPPORT. What each operation of Machine/Seam.lean may touch.
-/

namespace Sys2Proof.Machine

set_option linter.unusedTactic false
set_option linter.unreachableTactic false

variable {L : List Part}

theorem moves_formItems {z0 s : State} (hs : Moves L z0 s) (hL : ∀ p ∈ [Part.frame], p ∈ L) (gathered : List (Nat × Bool × Nat)) : Moves L
    z0 (State.formItems s gathered) := by
  unfold State.formItems
  repeat' first
    | with_reducible exact hs | with_reducible exact hL | exact parts_sub hL (by decide)
    | with_reducible refine moves_updFrame ?_ ?_ (fun _ => ⟨rfl, rfl⟩)
    | with_reducible refine moves_updFrame ?_ ?_ (fun _ => by split <;> exact ⟨rfl, rfl⟩) | with_reducible apply moves_ite | dsimp only
    | split

theorem moves_adoptLevel {z0 s : State} (hs : Moves L z0 s) (hL : ∀ p ∈ [Part.frame], p ∈ L) (w : Word) (c : Nat) : Moves L z0
    (State.adoptLevel s w c) := by
  unfold State.adoptLevel
  repeat' first
    | with_reducible exact hs | with_reducible exact hL | exact parts_sub hL (by decide) | with_reducible apply moves_feed
    | with_reducible apply moves_ite | dsimp only | split

theorem moves_adopt {z0 s : State} (hs : Moves L z0 s) (hL : ∀ p ∈ [Part.regs, .frame, .io, .evr], p ∈ L) (i : SeamItem) : Moves L z0
    (State.adopt s i) := by
  unfold State.adopt
  repeat' first
    | with_reducible exact hs | with_reducible exact hL | exact parts_sub hL (by decide) | with_reducible assumption
    | with_reducible apply moves_adoptLevel | with_reducible apply moves_eEvent | with_reducible apply moves_feed
    | with_reducible apply moves_setDio | with_reducible apply moves_setETask
    | with_reducible refine moves_updFrame ?_ ?_ (fun _ => ⟨rfl, rfl⟩)
    | with_reducible refine moves_updFrame ?_ ?_ (fun _ => by split <;> exact ⟨rfl, rfl⟩) | with_reducible apply moves_updIo
    | with_reducible refine moves_foldl (fun _ _ _ => ?_) ?_ | with_reducible apply moves_ite | dsimp only | split

theorem moves_adoptAll {z0 s : State} (hs : Moves L z0 s) (hL : ∀ p ∈ [Part.regs, .frame, .io, .evr], p ∈ L) (l : List SeamItem) : Moves L
    z0 (State.adoptAll s l) := by
  induction l generalizing s with
  | nil => exact hs
  | cons x rest ih =>
    unfold State.adoptAll
    repeat' first
      | with_reducible exact hs | with_reducible exact hL | exact parts_sub hL (by decide) | with_reducible apply ih
      | with_reducible apply moves_adopt | with_reducible apply moves_ite | dsimp only | split

theorem ends_execSeamProposalReceived {s : State} (hL : ∀ p ∈ [Part.regs, .frame, .io, .evr], p ∈ L) (items : List SeamItem) (complete :
    Bool) (finish : Half) : Ends L s (execSeamProposalReceived items complete finish s) := by
  have hs := Moves.refl L s
  unfold execSeamProposalReceived
  repeat' first
    | with_reducible apply ends_next | with_reducible apply ends_ite | with_reducible exact hs | with_reducible exact hL
    | exact parts_sub hL (by decide) | with_reducible apply moves_addReg | with_reducible apply moves_adoptAll
    | with_reducible apply moves_setReg | with_reducible refine moves_updFrame ?_ ?_ (fun _ => ⟨rfl, rfl⟩)
    | with_reducible refine moves_updFrame ?_ ?_ (fun _ => by split <;> exact ⟨rfl, rfl⟩) | dsimp only | split

theorem ends_execSeamDeadline {s : State} (hL : ∀ p ∈ [Part.regs, .tb, .pair, .evr, .clock], p ∈ L) : Ends L s (execSeamDeadline s) := by
  have hs := Moves.refl L s
  unfold execSeamDeadline
  repeat' first
    | with_reducible apply ends_next | with_reducible apply ends_ite | with_reducible exact hs | with_reducible exact hL
    | exact parts_sub hL (by decide) | with_reducible apply moves_incReg | with_reducible apply moves_phase
    | with_reducible apply moves_raiseBlock | with_reducible apply moves_updPair | dsimp only | split

end Sys2Proof.Machine
end

