-- ==== Sys2Proof/Laws/Moves/TackRun.lean ====
section
/-!
SUPPORT. What each operation of Machine/TackRun.lean may touch.
-/

namespace Sys2Proof.Machine

set_option linter.unusedTactic false
set_option linter.unreachableTactic false

variable {L : List Part}

theorem moves_noteLate {z0 s : State} (hs : Moves L z0 s) (hL : ∀ p ∈ [Part.regs, .evr], p ∈ L) (t : Tack) : Moves L z0 (State.noteLate s
    t) := by
  unfold State.noteLate
  repeat' first
    | with_reducible exact hs | with_reducible exact hL | exact parts_sub hL (by decide) | with_reducible apply moves_incReg
    | with_reducible apply moves_raiseBlock | with_reducible apply moves_setReg | with_reducible apply moves_ite | dsimp only | split

theorem moves_actTack {z0 s : State} (hs : Moves L z0 s) (hL : ∀ p ∈ [Part.regs, .frame, .trg, .io, .evr, .sent], p ∈ L) (t : Tack) :
    Moves L z0 (State.actTack s t) := by
  unfold State.actTack
  repeat' first
    | with_reducible exact hs | with_reducible exact hL | exact parts_sub hL (by decide) | with_reducible assumption
    | with_reducible apply moves_eEvent | with_reducible apply moves_requestMode
    | with_reducible refine moves_requestMode_of (by assumption) ?_ ?_ | with_reducible apply moves_setFlags
    | with_reducible apply moves_setLatch | with_reducible apply moves_tackPulse | with_reducible apply moves_ite | dsimp only | split

theorem moves_fireTack {z0 s : State} (hs : Moves L z0 s) (hL : ∀ p ∈ [Part.regs, .frame, .trg, .io, .evr, .qcp, .sent], p ∈ L) (t : Tack)
    (late : Bool) : Moves L z0 (State.fireTack s t late) := by
  unfold State.fireTack
  repeat' first
    | with_reducible exact hs | with_reducible exact hL | exact parts_sub hL (by decide) | with_reducible apply moves_actTack
    | with_reducible apply moves_cancelSwitch | with_reducible apply moves_discardTack | with_reducible apply moves_incReg
    | with_reducible apply moves_noteLate | with_reducible refine moves_updFrame ?_ ?_ (fun _ => ⟨rfl, rfl⟩)
    | with_reducible refine moves_updFrame ?_ ?_ (fun _ => by split <;> exact ⟨rfl, rfl⟩) | with_reducible apply moves_ite | dsimp only
    | split

theorem ends_execTackDueHardware {s : State} (hL : ∀ p ∈ [Part.regs, .tb, .frame, .trg, .io, .evr, .qcp, .sent, .clock], p ∈ L) : Ends L s
    (execTackDueHardware s) := by
  have hs := Moves.refl L s
  unfold execTackDueHardware
  repeat' first
    | with_reducible apply ends_next | with_reducible apply ends_ite | with_reducible exact hs | with_reducible exact hL
    | exact parts_sub hL (by decide) | with_reducible apply moves_advanceTo | with_reducible apply moves_fireTack | dsimp only | split

theorem moves_runSoftware {z0 s : State} (hs : Moves L z0 s) (hL : ∀ p ∈ [Part.regs, .frame, .trg, .io, .evr, .qcp, .sent], p ∈ L)
    (stepped : Bool) (l : List Tack) : Moves L z0 (State.runSoftware s stepped l) := by
  induction l generalizing s stepped with
  | nil => exact hs
  | cons x rest ih =>
    unfold State.runSoftware
    repeat' first
      | with_reducible exact hs | with_reducible exact hL | exact parts_sub hL (by decide) | with_reducible apply ih
      | with_reducible apply moves_fireTack | with_reducible apply moves_setReg | with_reducible apply moves_ite | dsimp only | split

theorem moves_softwareTacks {z0 s : State} (hs : Moves L z0 s) (hL : ∀ p ∈ [Part.regs, .frame, .trg, .io, .evr, .qcp, .sent], p ∈ L) :
    Moves L z0 (State.softwareTacks s) := by
  unfold State.softwareTacks
  repeat' first
    | with_reducible exact hs | with_reducible exact hL | exact parts_sub hL (by decide) | with_reducible apply moves_runSoftware
    | with_reducible apply moves_ite | dsimp only | split

theorem moves_fireLate {z0 s : State} (hs : Moves L z0 s) (hL : ∀ p ∈ [Part.regs, .frame, .trg, .io, .evr, .qcp, .sent], p ∈ L) (l : List
    Tack) : Moves L z0 (State.fireLate s l) := by
  induction l generalizing s with
  | nil => exact hs
  | cons x rest ih =>
    unfold State.fireLate
    repeat' first
      | with_reducible exact hs | with_reducible exact hL | exact parts_sub hL (by decide) | with_reducible apply ih
      | with_reducible apply moves_fireTack | with_reducible apply moves_ite | dsimp only | split

theorem moves_skippedTacks {z0 s : State} (hs : Moves L z0 s) (hL : ∀ p ∈ [Part.regs, .frame, .trg, .io, .evr, .qcp, .sent], p ∈ L)
    (before : Nat) : Moves L z0 (State.skippedTacks s before) := by
  unfold State.skippedTacks
  repeat' first
    | with_reducible exact hs | with_reducible exact hL | exact parts_sub hL (by decide) | with_reducible apply moves_fireLate
    | with_reducible apply moves_runSoftware | with_reducible apply moves_ite | dsimp only | split

theorem moves_scheduleTacks {z0 s : State} (hs : Moves L z0 s) (hL : ∀ p ∈ [Part.regs, .frame, .sent], p ∈ L) (task : Nat) (l : List
    TackRequest) : Moves L z0 (State.scheduleTacks s task l) := by
  induction l generalizing s task with
  | nil => exact hs
  | cons x rest ih =>
    unfold State.scheduleTacks
    repeat' first
      | with_reducible exact hs | with_reducible exact hL | exact parts_sub hL (by decide) | with_reducible apply ih
      | with_reducible apply moves_incReg | with_reducible apply moves_queueTack | with_reducible apply moves_ite | dsimp only | split

theorem moves_cancelTacks {z0 s : State} (hs : Moves L z0 s) (hL : ∀ p ∈ [Part.regs, .frame, .evr, .qcp, .sent], p ∈ L) (task : Nat) (l :
    List Word) : Moves L z0 (State.cancelTacks s task l) := by
  induction l generalizing s task with
  | nil => exact hs
  | cons x rest ih =>
    unfold State.cancelTacks
    repeat' first
      | with_reducible exact hs | with_reducible exact hL | exact parts_sub hL (by decide) | with_reducible apply ih
      | with_reducible apply moves_incReg | with_reducible apply moves_removeTack | with_reducible apply moves_ite | dsimp only | split

theorem moves_taskTacks {z0 s : State} (hs : Moves L z0 s) (hL : ∀ p ∈ [Part.regs, .frame, .evr, .qcp, .sent], p ∈ L) (l : List
    TaskInstance) : Moves L z0 (State.taskTacks s l) := by
  induction l generalizing s with
  | nil => exact hs
  | cons x rest ih =>
    unfold State.taskTacks
    repeat' first
      | with_reducible exact hs | with_reducible exact hL | exact parts_sub hL (by decide) | with_reducible apply ih
      | with_reducible apply moves_cancelTacks | with_reducible apply moves_scheduleTacks | with_reducible apply moves_ite | dsimp only
      | split

end Sys2Proof.Machine
end

