-- ==== Sys2Proof/Laws/Moves/FrameTick.lean ====
section
/-!
SUPPORT. What each operation of Machine/FrameTick.lean may touch.
-/

namespace Sys2Proof.Machine

set_option linter.unusedTactic false
set_option linter.unreachableTactic false

variable {L : List Part}

theorem moves_measure {z0 s : State} (hs : Moves L z0 s) (hL : ∀ p ∈ [Part.regs], p ∈ L) (a : Nat) (v : Word) : Moves L z0 (State.measure
    s a v) := by
  unfold State.measure
  repeat' first
    | with_reducible exact hs | with_reducible exact hL | exact parts_sub hL (by decide) | with_reducible apply moves_inputVolts
    | with_reducible apply moves_setReg | with_reducible apply moves_ite | dsimp only | split

theorem moves_measureAll {z0 s : State} (hs : Moves L z0 s) (hL : ∀ p ∈ [Part.regs], p ∈ L) (l : List (Nat × Word)) : Moves L z0
    (State.measureAll s l) := by
  induction l generalizing s with
  | nil => exact hs
  | cons x rest ih =>
    unfold State.measureAll
    repeat' first
      | with_reducible exact hs | with_reducible exact hL | exact parts_sub hL (by decide) | with_reducible apply ih
      | with_reducible apply moves_measure | with_reducible apply moves_ite | dsimp only | split

theorem moves_eachSecond {z0 s : State} (hs : Moves L z0 s) (hL : ∀ p ∈ [Part.regs], p ∈ L) (n : Nat) : Moves L z0 (State.eachSecond s n)
    := by
  unfold State.eachSecond
  repeat' first
    | with_reducible exact hs | with_reducible exact hL | exact parts_sub hL (by decide) | with_reducible apply moves_addReg
    | with_reducible apply moves_putReg | with_reducible apply moves_setReg | with_reducible apply moves_ite | dsimp only | split

theorem moves_countSeconds {z0 s : State} (hs : Moves L z0 s) (hL : ∀ p ∈ [Part.regs, .tb], p ∈ L) : Moves L z0 (State.countSeconds s) :=
    by
  unfold State.countSeconds
  repeat' first
    | with_reducible exact hs | with_reducible rfl | with_reducible exact Or.inl rfl | with_reducible exact Or.inl ⟨rfl, rfl⟩
    | exact Or.inr (hL _ (by decide)) | with_reducible exact hL | exact parts_sub hL (by decide) | with_reducible apply moves_eachSecond
    | with_reducible apply moves_ite | dsimp only | split | fail_if_no_progress with_reducible apply moves_record

theorem moves_beginFrame {z0 s : State} (hs : Moves L z0 s) (hL : ∀ p ∈ [Part.regs, .tb, .frame, .pair, .evr, .sent, .clock, .tick], p ∈
    L) (t : Nat) : Moves L z0 (State.beginFrame s t) := by
  unfold State.beginFrame
  repeat' first
    | with_reducible exact hs | with_reducible rfl | with_reducible exact Or.inl rfl | with_reducible exact Or.inl ⟨rfl, rfl⟩
    | exact Or.inr (hL _ (by decide)) | with_reducible exact hL | exact parts_sub hL (by decide) | with_reducible apply moves_advanceTo
    | with_reducible apply moves_countSeconds | with_reducible apply moves_send
    | with_reducible refine moves_updEvrSame ?_ ?_ (fun _ => rfl) | with_reducible refine moves_updFrame ?_ ?_ (fun _ => ⟨rfl, rfl⟩)
    | with_reducible apply moves_updFrameTick | with_reducible apply moves_updPair | with_reducible apply moves_ite | dsimp only | split
    | fail_if_no_progress with_reducible apply moves_record

theorem moves_followMode {z0 s : State} (hs : Moves L z0 s) (hL : ∀ p ∈ [Part.regs, .mode, .tb, .ptp, .frame, .lock, .loop, .acq, .io,
    .evr, .qcp, .sent], p ∈ L) : Moves L z0 (State.followMode s) := by
  unfold State.followMode
  repeat' first
    | with_reducible exact hs | with_reducible exact hL | exact parts_sub hL (by decide) | with_reducible apply moves_cancelRunChange
    | with_reducible apply moves_enterMode | with_reducible refine moves_updFrame ?_ ?_ (fun _ => ⟨rfl, rfl⟩)
    | with_reducible refine moves_updFrame ?_ ?_ (fun _ => by split <;> exact ⟨rfl, rfl⟩) | with_reducible apply moves_ite | dsimp only
    | split

theorem moves_hearPartner {z0 s : State} (hs : Moves L z0 s) (hL : ∀ p ∈ [Part.frame], p ∈ L) (i : FrameInput) : Moves L z0
    (State.hearPartner s i) := by
  unfold State.hearPartner
  repeat' first
    | with_reducible exact hs | with_reducible exact hL | exact parts_sub hL (by decide)
    | with_reducible refine moves_updFrame ?_ ?_ (fun _ => ⟨rfl, rfl⟩)
    | with_reducible refine moves_updFrame ?_ ?_ (fun _ => by split <;> exact ⟨rfl, rfl⟩) | with_reducible apply moves_ite | dsimp only
    | split

theorem moves_endPassedUpload {z0 s : State} (hs : Moves L z0 s) (hL : ∀ p ∈ [Part.regs, .frame, .evr], p ∈ L) : Moves L z0
    (State.endPassedUpload s) := by
  unfold State.endPassedUpload
  repeat' first
    | with_reducible exact hs | with_reducible exact hL | exact parts_sub hL (by decide) | with_reducible apply moves_abortPassed
    | with_reducible apply moves_raiseQcp | with_reducible apply moves_ite | dsimp only | split

theorem moves_rolesTick {z0 s : State} (hs : Moves L z0 s) (hL : ∀ p ∈ [Part.regs, .role, .mode, .tb, .ptp, .frame, .pair, .lock, .loop,
    .acq, .io, .net, .evr, .qcp, .sent], p ∈ L) : Moves L z0 (State.rolesTick s) := by
  unfold State.rolesTick
  repeat' first
    | with_reducible exact hs | with_reducible exact hL | exact parts_sub hL (by decide) | with_reducible apply moves_checkRoles
    | with_reducible apply moves_decideWaiting | with_reducible apply moves_dropPmuClients | with_reducible apply moves_endPassedUpload
    | with_reducible apply moves_followMode | with_reducible apply moves_leadTick | with_reducible apply moves_leadTime
    | with_reducible apply moves_sendHeldReports | with_reducible apply moves_takeAutoRun | with_reducible apply moves_takeDecision
    | with_reducible apply moves_takeModeRequests | with_reducible apply moves_ite | dsimp only | split

theorem moves_utilTick {z0 s : State} (hs : Moves L z0 s) (hL : ∀ p ∈ [Part.regs, .frame], p ∈ L) : Moves L z0 (State.utilTick s) := by
  unfold State.utilTick
  repeat' first
    | with_reducible exact hs | with_reducible exact hL | exact parts_sub hL (by decide) | with_reducible apply moves_setReg
    | with_reducible refine moves_updFrame ?_ ?_ (fun _ => ⟨rfl, rfl⟩)
    | with_reducible refine moves_updFrame ?_ ?_ (fun _ => by split <;> exact ⟨rfl, rfl⟩) | with_reducible apply moves_ite | dsimp only
    | split

theorem moves_blocksTick {z0 s : State} (hs : Moves L z0 s) (hL : ∀ p ∈ [Part.regs, .wins, .frame, .loop, .acq, .trg, .io, .net, .can0,
    .can1, .evr, .fab, .sent], p ∈ L) (i : FrameInput) : Moves L z0 (State.blocksTick s i) := by
  unfold State.blocksTick
  repeat' first
    | with_reducible exact hs | with_reducible exact hL | exact parts_sub hL (by decide) | with_reducible apply moves_acqTick
    | with_reducible apply moves_canTick | with_reducible apply moves_dioTick | with_reducible apply moves_fabricTick
    | with_reducible apply moves_gooseTick | with_reducible apply moves_latchAllAo | with_reducible apply moves_loopTick
    | with_reducible apply moves_measureAll | with_reducible apply moves_networkTick | with_reducible apply moves_noteTick
    | with_reducible apply moves_releaseAo | with_reducible apply moves_trgTick | with_reducible apply moves_ite | dsimp only | split

theorem moves_sendProposal {z0 s : State} (hs : Moves L z0 s) (hL : ∀ p ∈ [Part.sent], p ∈ L) : Moves L z0 (State.sendProposal s) := by
  unfold State.sendProposal
  repeat' first
    | with_reducible exact hs | with_reducible exact hL | exact parts_sub hL (by decide) | with_reducible apply moves_send
    | with_reducible apply moves_ite | dsimp only | split

theorem ends_execFrameTick {s : State} (hL : ∀ p ∈ [Part.regs, .wins, .role, .mode, .tb, .ptp, .frame, .pair, .lock, .loop, .acq, .trg,
    .io, .net, .can0, .can1, .evr, .fab, .qcp, .sent, .clock, .tick], p ∈ L) (i : FrameInput) : Ends L s (execFrameTick i s) := by
  have hs := Moves.refl L s
  unfold execFrameTick
  repeat' first
    | with_reducible apply ends_next | with_reducible apply ends_ite | with_reducible exact hs | with_reducible exact hL
    | exact parts_sub hL (by decide) | with_reducible apply moves_advanceTo | with_reducible apply moves_beginFrame
    | with_reducible apply moves_blocksTick | with_reducible apply moves_formItems | with_reducible apply moves_hearPartner
    | with_reducible apply moves_judgeRestored | with_reducible apply moves_releaseNow | with_reducible apply moves_rolesTick
    | with_reducible apply moves_sendProposal | with_reducible apply moves_softwareTacks | with_reducible apply moves_utilTick
    | dsimp only | split

theorem ends_execAutoRunRequest {s : State} (hL : ∀ p ∈ [Part.regs, .tb, .frame, .sent, .clock], p ∈ L) : Ends L s (execAutoRunRequest s)
    := by
  have hs := Moves.refl L s
  unfold execAutoRunRequest
  repeat' first
    | with_reducible apply ends_next | with_reducible apply ends_ite | with_reducible exact hs | with_reducible exact hL
    | exact parts_sub hL (by decide) | with_reducible apply moves_advanceTo | with_reducible apply moves_takeAutoRun | dsimp only | split

theorem ends_execTimeStep {s : State} (hL : ∀ p ∈ [Part.regs, .tb, .ptp, .frame, .acq, .trg, .io, .evr, .qcp, .sent, .clock], p ∈ L) :
    Ends L s (execTimeStep s) := by
  have hs := Moves.refl L s
  unfold execTimeStep
  repeat' first
    | with_reducible apply ends_next | with_reducible apply ends_ite | with_reducible exact hs | with_reducible exact hL
    | exact parts_sub hL (by decide) | with_reducible apply moves_acqStep | with_reducible apply moves_advanceTo
    | with_reducible apply moves_applyStep | with_reducible apply moves_noteRtcError | with_reducible apply moves_skippedTacks
    | with_reducible refine moves_updFrame ?_ ?_ (fun _ => ⟨rfl, rfl⟩)
    | with_reducible refine moves_updFrame ?_ ?_ (fun _ => by split <;> exact ⟨rfl, rfl⟩) | dsimp only | split

theorem moves_taskFlags {z0 s : State} (hs : Moves L z0 s) (hL : ∀ p ∈ [Part.regs, .trg, .evr, .sent], p ∈ L) (l : List TaskInstance) :
    Moves L z0 (State.taskFlags s l) := by
  unfold State.taskFlags
  repeat' first
    | with_reducible exact hs | with_reducible exact hL | exact parts_sub hL (by decide) | with_reducible assumption
    | with_reducible apply moves_setFlags | with_reducible refine moves_foldl (fun _ _ _ => ?_) ?_ | with_reducible apply moves_ite
    | dsimp only | split

theorem moves_commitTasks {z0 s : State} (hs : Moves L z0 s) (hL : ∀ p ∈ [Part.regs, .frame, .loop, .trg, .evr, .qcp, .sent], p ∈ L) :
    Moves L z0 (State.commitTasks s) := by
  unfold State.commitTasks
  repeat' first
    | with_reducible exact hs | with_reducible exact hL | exact parts_sub hL (by decide) | with_reducible apply moves_collectEnding
    | with_reducible apply moves_commitOutputs | with_reducible apply moves_commitTaskWrites | with_reducible apply moves_setReg
    | with_reducible apply moves_taskFlags | with_reducible apply moves_taskTacks | with_reducible apply moves_ite | dsimp only | split

theorem moves_sendCommitted {z0 s : State} (hs : Moves L z0 s) (hL : ∀ p ∈ [Part.regs, .io, .net, .can0, .can1, .evr, .sent], p ∈ L) :
    Moves L z0 (State.sendCommitted s) := by
  unfold State.sendCommitted
  repeat' first
    | with_reducible exact hs | with_reducible exact hL | exact parts_sub hL (by decide) | with_reducible apply moves_canCommit
    | with_reducible apply moves_commitAo | with_reducible apply moves_commitDio | with_reducible apply moves_publishAll
    | with_reducible apply moves_qspSend | with_reducible apply moves_ite | dsimp only | split

theorem moves_digestTick {z0 s : State} (hs : Moves L z0 s) (hL : ∀ p ∈ [Part.regs, .pair, .evr, .qcp, .sent], p ∈ L) (recheck : Bool) :
    Moves L z0 (State.digestTick s recheck) := by
  unfold State.digestTick
  repeat' first
    | with_reducible exact hs | with_reducible exact hL | exact parts_sub hL (by decide) | with_reducible apply moves_compareDigests
    | with_reducible apply moves_updPair | with_reducible apply moves_ite | dsimp only | split

theorem moves_sendHeartbeat {z0 s : State} (hs : Moves L z0 s) (hL : ∀ p ∈ [Part.sent], p ∈ L) : Moves L z0 (State.sendHeartbeat s) := by
  unfold State.sendHeartbeat
  repeat' first
    | with_reducible exact hs | with_reducible exact hL | exact parts_sub hL (by decide) | with_reducible apply moves_sendWire
    | with_reducible apply moves_ite | dsimp only | split

theorem moves_mirrorTick {z0 s : State} (hs : Moves L z0 s) (hL : ∀ p ∈ [Part.regs, .sent], p ∈ L) (bytes : Nat) : Moves L z0
    (State.mirrorTick s bytes) := by
  unfold State.mirrorTick
  repeat' first
    | with_reducible exact hs | with_reducible exact hL | exact parts_sub hL (by decide) | with_reducible apply moves_incReg
    | with_reducible apply moves_send | with_reducible apply moves_setReg | with_reducible apply moves_ite | dsimp only | split

theorem ends_execOutputCommit {s : State} (hL : ∀ p ∈ [Part.regs, .tb, .frame, .pair, .loop, .trg, .io, .net, .can0, .can1, .evr, .qcp,
    .sent, .clock], p ∈ L) (recheck : Bool) (mirrored : Half) : Ends L s (execOutputCommit recheck mirrored s) := by
  have hs := Moves.refl L s
  unfold execOutputCommit
  repeat' first
    | with_reducible apply ends_next | with_reducible apply ends_ite | with_reducible exact hs | with_reducible exact hL
    | exact parts_sub hL (by decide) | with_reducible apply moves_commitTasks | with_reducible apply moves_digestTick
    | with_reducible apply moves_mirrorTick | with_reducible apply moves_phase | with_reducible apply moves_sendCommitted
    | with_reducible apply moves_sendHeartbeat | with_reducible refine moves_updFrame ?_ ?_ (fun _ => ⟨rfl, rfl⟩)
    | with_reducible refine moves_updFrame ?_ ?_ (fun _ => by split <;> exact ⟨rfl, rfl⟩) | dsimp only | split

end Sys2Proof.Machine
end

