-- ==== Sys2Proof/Laws/Moves/Lockstep.lean ====
section
/-!
SUPPORT. What each operation of Machine/Lockstep.lean may touch.
-/

namespace Sys2Proof.Machine

set_option linter.unusedTactic false
set_option linter.unreachableTactic false

variable {L : List Part}

theorem moves_countFault {z0 s : State} (hs : Moves L z0 s) (hL : ∀ p ∈ [Part.regs, .lock, .evr], p ∈ L) : Moves L z0 (State.countFault s)
    := by
  unfold State.countFault
  repeat' first
    | with_reducible exact hs | with_reducible exact hL | exact parts_sub hL (by decide) | with_reducible apply moves_orReg
    | with_reducible apply moves_raiseBlock | with_reducible apply moves_setReg | with_reducible apply moves_updLock
    | with_reducible apply moves_ite | dsimp only | split

theorem moves_noteFault {z0 s : State} (hs : Moves L z0 s) (hL : ∀ p ∈ [Part.regs], p ∈ L) (unit : Nat) (cause : Nat) : Moves L z0
    (State.noteFault s unit cause) := by
  unfold State.noteFault
  repeat' first
    | with_reducible exact hs | with_reducible exact hL | exact parts_sub hL (by decide) | with_reducible apply moves_setReg
    | with_reducible apply moves_ite | dsimp only | split

theorem moves_setLanes {z0 s : State} (hs : Moves L z0 s) (hL : ∀ p ∈ [Part.regs], p ∈ L) (a : Nat) (p : Nat) (lanes : BitVec 128) : Moves
    L z0 (State.setLanes s a p lanes) := by
  unfold State.setLanes
  repeat' first
    | with_reducible exact hs | with_reducible exact hL | exact parts_sub hL (by decide) | with_reducible apply moves_setReg
    | with_reducible apply moves_ite | dsimp only | split

theorem moves_cutOffOutputs {z0 s : State} (hs : Moves L z0 s) (hL : ∀ p ∈ [Part.regs, .frame, .pair, .lock, .evr, .qcp, .sent], p ∈ L) :
    Moves L z0 (State.cutOffOutputs s) := by
  unfold State.cutOffOutputs
  repeat' first
    | with_reducible exact hs | with_reducible exact hL | exact parts_sub hL (by decide) | with_reducible apply moves_cancelHandover
    | with_reducible refine moves_updFrame ?_ ?_ (fun _ => ⟨rfl, rfl⟩)
    | with_reducible refine moves_updFrame ?_ ?_ (fun _ => by split <;> exact ⟨rfl, rfl⟩) | with_reducible apply moves_updLock
    | with_reducible apply moves_updPair | with_reducible apply moves_ite | dsimp only | split

theorem moves_comparatorFault {z0 s : State} (hs : Moves L z0 s) (hL : ∀ p ∈ [Part.regs, .frame, .pair, .lock, .evr, .qcp, .sent], p ∈ L)
    (unit : Nat) (cause : Nat) (event : Nat) (diag : State → State) (hdiag : ∀ (u9 : State), Moves L z0 u9 → Moves L z0 (diag u9)) : Moves
    L z0 (State.comparatorFault s unit cause event diag) := by
  unfold State.comparatorFault
  repeat' first
    | with_reducible exact hs | with_reducible exact hL | exact parts_sub hL (by decide) | with_reducible apply hdiag
    | with_reducible assumption | with_reducible apply moves_countFault | with_reducible apply moves_cutOffOutputs
    | with_reducible apply moves_noteFault | with_reducible apply moves_orReg | with_reducible apply moves_putRegBit
    | with_reducible apply moves_raise | with_reducible apply moves_ite | dsimp only | split

theorem ends_execComparatorMismatch {s : State} (hL : ∀ p ∈ [Part.regs, .tb, .frame, .pair, .lock, .evr, .qcp, .sent, .clock], p ∈ L) (m :
    Mismatch) : Ends L s (execComparatorMismatch m s) := by
  have hs := Moves.refl L s
  unfold execComparatorMismatch
  repeat' first
    | with_reducible apply ends_next | with_reducible apply ends_ite | with_reducible exact hs | with_reducible exact hL
    | exact parts_sub hL (by decide) | with_reducible assumption | with_reducible apply moves_advanceTo
    | with_reducible refine moves_comparatorFault ?_ ?_ _ _ _ _ (fun _ _ => ?_) | with_reducible apply moves_putReg
    | with_reducible apply moves_setLanes | with_reducible apply moves_setReg | dsimp only | split

theorem ends_execComparatorFaultToOut {s : State} (hL : ∀ p ∈ [Part.regs, .role, .mode, .tb, .ptp, .frame, .pair, .lock, .loop, .acq, .io,
    .evr, .qcp, .sent], p ∈ L) : Ends L s (execComparatorFaultToOut s) := by
  have hs := Moves.refl L s
  unfold execComparatorFaultToOut
  repeat' first
    | with_reducible apply ends_next | with_reducible apply ends_ite | with_reducible exact hs | with_reducible exact hL
    | exact parts_sub hL (by decide) | with_reducible apply moves_cancelRunChange | with_reducible apply moves_cancelSwitch
    | with_reducible apply moves_enterMode | with_reducible apply moves_enterRole | with_reducible apply moves_updLock | dsimp only
    | split

theorem moves_takeTest {z0 s : State} (hs : Moves L z0 s) (hL : ∀ p ∈ [Part.regs, .pair, .lock, .evr], p ∈ L) (r : TestResult) : Moves L
    z0 (State.takeTest s r) := by
  unfold State.takeTest
  repeat' first
    | with_reducible exact hs | with_reducible exact hL | exact parts_sub hL (by decide) | with_reducible assumption
    | with_reducible apply moves_noteFault | with_reducible apply moves_putReg | with_reducible apply moves_putRegBit
    | with_reducible apply moves_raiseBlock | with_reducible apply moves_setLanes | with_reducible apply moves_setReg
    | with_reducible apply moves_updLock | with_reducible apply moves_updPair | with_reducible refine moves_foldl (fun _ _ _ => ?_) ?_
    | with_reducible apply moves_ite | dsimp only | split

theorem ends_execStartupTestComplete {s : State} (hL : ∀ p ∈ [Part.regs, .pair, .lock, .evr], p ∈ L) (r : TestResult) : Ends L s
    (execStartupTestComplete r s) := by
  have hs := Moves.refl L s
  unfold execStartupTestComplete
  repeat' first
    | with_reducible apply ends_next | with_reducible apply ends_ite | with_reducible exact hs | with_reducible exact hL
    | exact parts_sub hL (by decide) | with_reducible apply moves_takeTest | with_reducible apply moves_updPair | dsimp only | split

theorem moves_nextLane {z0 s : State} (hs : Moves L z0 s) (hL : ∀ p ∈ [Part.regs, .lock], p ∈ L) : Moves L z0 (State.nextLane s) := by
  unfold State.nextLane
  repeat' first
    | with_reducible exact hs | with_reducible exact hL | exact parts_sub hL (by decide) | with_reducible assumption
    | with_reducible apply moves_incReg | with_reducible apply moves_updLock | with_reducible refine moves_foldl (fun _ _ _ => ?_) ?_
    | with_reducible apply moves_ite | dsimp only | split

theorem ends_execBackgroundLaneTest {s : State} (hL : ∀ p ∈ [Part.regs, .tb, .frame, .pair, .lock, .evr, .qcp, .sent, .clock], p ∈ L)
    (detected : BitVec 4) : Ends L s (execBackgroundLaneTest detected s) := by
  have hs := Moves.refl L s
  unfold execBackgroundLaneTest
  repeat' first
    | with_reducible apply ends_next | with_reducible apply ends_ite | with_reducible exact hs | with_reducible exact hL
    | exact parts_sub hL (by decide) | with_reducible assumption
    | with_reducible refine moves_comparatorFault ?_ ?_ _ _ _ _ (fun _ _ => ?_) | with_reducible apply moves_nextLane
    | with_reducible apply moves_phase | with_reducible apply moves_putReg | with_reducible apply moves_setLanes
    | with_reducible refine moves_updFrame ?_ ?_ (fun _ => ⟨rfl, rfl⟩)
    | with_reducible refine moves_updFrame ?_ ?_ (fun _ => by split <;> exact ⟨rfl, rfl⟩) | dsimp only | split

theorem ends_execSafetyReadback {s : State} (hL : ∀ p ∈ [Part.regs, .tb, .frame, .pair, .lock, .evr, .qcp, .sent, .clock], p ∈ L) (levels
    : BitVec 3) : Ends L s (execSafetyReadback levels s) := by
  have hs := Moves.refl L s
  unfold execSafetyReadback
  repeat' first
    | with_reducible apply ends_next | with_reducible apply ends_ite | with_reducible exact hs | with_reducible exact hL
    | exact parts_sub hL (by decide) | with_reducible assumption
    | with_reducible refine moves_comparatorFault ?_ ?_ _ _ _ _ (fun _ _ => ?_) | with_reducible apply moves_phase
    | with_reducible apply moves_putRegBit | with_reducible refine moves_updFrame ?_ ?_ (fun _ => ⟨rfl, rfl⟩)
    | with_reducible refine moves_updFrame ?_ ?_ (fun _ => by split <;> exact ⟨rfl, rfl⟩) | with_reducible apply moves_updLock
    | with_reducible apply moves_id | dsimp only | split

theorem ends_execHoldExitRestore {s : State} (hL : ∀ p ∈ [Part.regs, .pair, .lock, .evr], p ∈ L) (r : TestResult) : Ends L s
    (execHoldExitRestore r s) := by
  have hs := Moves.refl L s
  unfold execHoldExitRestore
  repeat' first
    | with_reducible apply ends_next | with_reducible apply ends_ite | with_reducible exact hs | with_reducible exact hL
    | exact parts_sub hL (by decide) | with_reducible apply moves_clearBits | with_reducible apply moves_raiseBlock
    | with_reducible apply moves_takeTest | with_reducible apply moves_updLock | dsimp only | split

end Sys2Proof.Machine
end

