-- ==== Sys2Proof/Laws/Moves/LoopWrites.lean ====
section
/-!
SUPPORT. What each operation of Machine/LoopWrites.lean may touch.
-/

namespace Sys2Proof.Machine

set_option linter.unusedTactic false
set_option linter.unreachableTactic false

variable {L : List Part}

theorem moves_writeSlot {z0 s : State} (hs : Moves L z0 s) (hL : ∀ p ∈ [Part.regs, .frame, .loop, .io, .evr], p ∈ L) (k : Nat) (t : Nat) :
    Moves L z0 (State.writeSlot s k t) := by
  unfold State.writeSlot
  repeat' first
    | with_reducible exact hs | with_reducible exact hL | exact parts_sub hL (by decide) | with_reducible apply moves_commandAo
    | with_reducible apply moves_ownPoint | with_reducible apply moves_setSlot | with_reducible apply moves_writeAo
    | with_reducible apply moves_ite | dsimp only | split

theorem ends_execAsapSlotWrite {s : State} (hL : ∀ p ∈ [Part.regs, .tb, .frame, .loop, .io, .evr, .clock], p ∈ L) (k : Byte) : Ends L s
    (execAsapSlotWrite k s) := by
  have hs := Moves.refl L s
  unfold execAsapSlotWrite
  repeat' first
    | with_reducible apply ends_next | with_reducible apply ends_ite | with_reducible exact hs | with_reducible exact hL
    | exact parts_sub hL (by decide) | with_reducible apply moves_advanceTo | with_reducible apply moves_writeSlot | dsimp only | split

theorem ends_execFixedPhaseSlotWrite {s : State} (hL : ∀ p ∈ [Part.regs, .tb, .frame, .loop, .io, .evr, .clock], p ∈ L) (k : Byte) : Ends
    L s (execFixedPhaseSlotWrite k s) := by
  have hs := Moves.refl L s
  unfold execFixedPhaseSlotWrite
  repeat' first
    | with_reducible apply ends_next | with_reducible apply ends_ite | with_reducible exact hs | with_reducible exact hL
    | exact parts_sub hL (by decide) | with_reducible apply moves_advanceTo | with_reducible apply moves_setReg
    | with_reducible apply moves_writeSlot | dsimp only | split

end Sys2Proof.Machine
end

