-- ==== Sys2Proof/Laws/Moves/PairYoke.lean ====
section
/-!
SUPPORT. What each operation of Machine/PairYoke.lean may touch.
-/

namespace Sys2Proof.Machine

set_option linter.unusedTactic false
set_option linter.unreachableTactic false

variable {L : List Part}

theorem ends_execHandoverTick {s : State} (hL : ∀ p ∈ [Part.regs, .role, .mode, .tb, .ptp, .frame, .pair, .lock, .loop, .acq, .io, .can0,
    .can1, .evr, .qcp, .sent, .clock], p ∈ L) : Ends L s (execHandoverTick s) := by
  have hs := Moves.refl L s
  unfold execHandoverTick
  repeat' first
    | with_reducible apply ends_next | with_reducible apply ends_ite | with_reducible exact hs | with_reducible exact hL
    | exact parts_sub hL (by decide) | with_reducible apply moves_advanceTo | with_reducible apply moves_canQuiet
    | with_reducible apply moves_cancelHandover | with_reducible apply moves_enterRole | with_reducible apply moves_showHandover
    | with_reducible apply moves_updPair | dsimp only | split

theorem moves_seeLines {z0 s : State} (hs : Moves L z0 s) (hL : ∀ p ∈ [Part.pair], p ∈ L) (y : YokeLines) : Moves L z0 (State.seeLines s
    y) := by
  unfold State.seeLines
  repeat' first
    | with_reducible exact hs | with_reducible exact hL | exact parts_sub hL (by decide) | with_reducible apply moves_updPair
    | with_reducible apply moves_ite | dsimp only | split

theorem moves_takeGrant {z0 s : State} (hs : Moves L z0 s) (hL : ∀ p ∈ [Part.regs, .pair, .io, .evr, .sent], p ∈ L) : Moves L z0
    (State.takeGrant s) := by
  unfold State.takeGrant
  repeat' first
    | with_reducible exact hs | with_reducible exact hL | exact parts_sub hL (by decide) | with_reducible apply moves_hartStartAll
    | with_reducible apply moves_updPair | with_reducible apply moves_writeAllAo | with_reducible apply moves_writeLatches
    | with_reducible apply moves_ite | dsimp only | split

theorem ends_execGrantGained {s : State} (hL : ∀ p ∈ [Part.regs, .pair, .io, .evr, .sent], p ∈ L) (y : YokeLines) (gap : Half) (droop :
    Word) : Ends L s (execGrantGained y gap droop s) := by
  have hs := Moves.refl L s
  unfold execGrantGained
  repeat' first
    | with_reducible apply ends_next | with_reducible apply ends_ite | with_reducible exact hs | with_reducible exact hL
    | exact parts_sub hL (by decide) | with_reducible apply moves_recordDroop | with_reducible apply moves_seeLines
    | with_reducible apply moves_takeGrant | with_reducible apply moves_updPair | dsimp only | split

theorem ends_execGrantLost {s : State} (hL : ∀ p ∈ [Part.regs, .pair, .io, .can0, .can1, .evr], p ∈ L) (y : YokeLines) : Ends L s
    (execGrantLost y s) := by
  have hs := Moves.refl L s
  unfold execGrantLost
  repeat' first
    | with_reducible apply ends_next | with_reducible apply ends_ite | with_reducible exact hs | with_reducible exact hL
    | exact parts_sub hL (by decide) | with_reducible apply moves_canLeave | with_reducible apply moves_hartAbandonAll
    | with_reducible apply moves_seeLines | with_reducible apply moves_updPair | dsimp only | split

theorem moves_completeHandover {z0 s : State} (hs : Moves L z0 s) (hL : ∀ p ∈ [Part.regs, .evr, .qcp, .sent], p ∈ L) (h : Handover) :
    Moves L z0 (State.completeHandover s h) := by
  unfold State.completeHandover
  repeat' first
    | with_reducible exact hs | with_reducible exact hL | exact parts_sub hL (by decide) | with_reducible apply moves_incReg
    | with_reducible apply moves_notify | with_reducible apply moves_raiseBlock | with_reducible apply moves_showHandover
    | with_reducible apply moves_ite | dsimp only | split

theorem ends_execShareWindowEnd {s : State} (hL : ∀ p ∈ [Part.regs, .tb, .pair, .io, .can0, .can1, .evr, .qcp, .sent, .clock], p ∈ L)
    (timeout : Bool) (err : Word) : Ends L s (execShareWindowEnd timeout err s) := by
  have hs := Moves.refl L s
  unfold execShareWindowEnd
  repeat' first
    | with_reducible apply ends_next | with_reducible apply ends_ite | with_reducible exact hs | with_reducible exact hL
    | exact parts_sub hL (by decide) | with_reducible apply moves_advanceTo | with_reducible apply moves_canLeave
    | with_reducible apply moves_completeHandover | with_reducible apply moves_hartAbandonAll | with_reducible apply moves_recordShare
    | with_reducible apply moves_updPair | dsimp only | split

theorem ends_execUnheldStateEntry {s : State} (hL : ∀ p ∈ [Part.tb, .pair, .io, .evr, .sent, .clock], p ∈ L) : Ends L s
    (execUnheldStateEntry s) := by
  have hs := Moves.refl L s
  unfold execUnheldStateEntry
  repeat' first
    | with_reducible apply ends_next | with_reducible apply ends_ite | with_reducible exact hs | with_reducible exact hL
    | exact parts_sub hL (by decide) | with_reducible assumption | with_reducible apply moves_advanceUp
    | with_reducible apply moves_setLatch | with_reducible apply moves_unreleaseAll | with_reducible apply moves_unreleaseAo
    | with_reducible apply moves_updPair | with_reducible refine moves_foldl (fun _ _ _ => ?_) ?_ | dsimp only | split

end Sys2Proof.Machine
end

