-- ==== Sys2Proof/Laws/Moves/Ptp.lean ====
section
/-!
SUPPORT. What each operation of Machine/Ptp.lean may touch.
-/

namespace Sys2Proof.Machine

set_option linter.unusedTactic false
set_option linter.unreachableTactic false

variable {L : List Part}

theorem ends_execPtpAnnounceReceived {s : State} (hL : ∀ p ∈ [Part.regs, .tb, .ptp, .evr], p ∈ L) (p : Fin 5) (a : Announce) : Ends L s
    (execPtpAnnounceReceived p a s) := by
  have hs := Moves.refl L s
  unfold execPtpAnnounceReceived
  repeat' first
    | with_reducible apply ends_next | with_reducible apply ends_ite | with_reducible exact hs | with_reducible rfl
    | with_reducible exact Or.inl rfl | with_reducible exact Or.inl ⟨rfl, rfl⟩ | exact Or.inr (hL _ (by decide)) | with_reducible exact hL
    | exact parts_sub hL (by decide) | with_reducible apply moves_incReg | with_reducible apply moves_ptpCount
    | with_reducible apply moves_serviceFrame | with_reducible apply moves_setMasters | with_reducible apply moves_setRef
    | with_reducible apply moves_setReg | with_reducible apply moves_takeUtc | dsimp only | split
    | fail_if_no_progress with_reducible apply moves_record

theorem moves_ptpMeasured {z0 s : State} (hs : Moves L z0 s) (hL : ∀ p ∈ [Part.regs, .tb, .ptp], p ∈ L) (p : Nat) (delta : Int) : Moves L
    z0 (State.ptpMeasured s p delta) := by
  unfold State.ptpMeasured
  repeat' first
    | with_reducible exact hs | with_reducible rfl | with_reducible exact Or.inl rfl | with_reducible exact Or.inl ⟨rfl, rfl⟩
    | exact Or.inr (hL _ (by decide)) | with_reducible exact hL | exact parts_sub hL (by decide) | with_reducible apply moves_setRef
    | with_reducible apply moves_setReg | with_reducible apply moves_ite | dsimp only | split
    | fail_if_no_progress with_reducible apply moves_record

theorem ends_execPtpSyncReceived {s : State} (hL : ∀ p ∈ [Part.regs, .tb, .ptp], p ∈ L) (p : Fin 5) (m : SyncMessage) : Ends L s
    (execPtpSyncReceived p m s) := by
  have hs := Moves.refl L s
  unfold execPtpSyncReceived
  repeat' first
    | with_reducible apply ends_next | with_reducible apply ends_ite | with_reducible exact hs | with_reducible rfl
    | with_reducible exact Or.inl rfl | with_reducible exact Or.inl ⟨rfl, rfl⟩ | exact Or.inr (hL _ (by decide)) | with_reducible exact hL
    | exact parts_sub hL (by decide) | with_reducible apply moves_incReg | with_reducible apply moves_ptpCount
    | with_reducible apply moves_ptpMeasured | with_reducible apply moves_serviceFrame | dsimp only | split
    | fail_if_no_progress with_reducible apply moves_record

theorem ends_execPtpFollowUpReceived {s : State} (hL : ∀ p ∈ [Part.regs, .tb, .ptp], p ∈ L) (p : Fin 5) (sequence : Half) (delta : Int) :
    Ends L s (execPtpFollowUpReceived p sequence delta s) := by
  have hs := Moves.refl L s
  unfold execPtpFollowUpReceived
  repeat' first
    | with_reducible apply ends_next | with_reducible apply ends_ite | with_reducible exact hs | with_reducible exact hL
    | exact parts_sub hL (by decide) | with_reducible apply moves_ptpCount | with_reducible apply moves_ptpMeasured
    | with_reducible apply moves_serviceFrame | dsimp only | split

theorem moves_sendPtp {z0 s : State} (hs : Moves L z0 s) (hL : ∀ p ∈ [Part.regs, .sent], p ∈ L) (p : Nat) (kind : Message) (fields : List
    Nat) : Moves L z0 (State.sendPtp s p kind fields) := by
  unfold State.sendPtp
  repeat' first
    | with_reducible exact hs | with_reducible exact hL | exact parts_sub hL (by decide) | with_reducible apply moves_emit
    | with_reducible apply moves_ite | dsimp only | split

theorem moves_oneStepSend {z0 s : State} (hs : Moves L z0 s) (hL : ∀ p ∈ [Part.regs, .sent], p ∈ L) (p : Nat) (count : Nat) (tx : Nat)
    (kind : Message) (fields : List Nat) (complete : Bool) : Moves L z0 (State.oneStepSend s p count tx kind fields complete) := by
  unfold State.oneStepSend
  repeat' first
    | with_reducible exact hs | with_reducible exact hL | exact parts_sub hL (by decide) | with_reducible apply moves_incReg
    | with_reducible apply moves_ptpCount | with_reducible apply moves_sendPtp | with_reducible apply moves_ite | dsimp only | split

theorem ends_execPtpPdelayReqReceived {s : State} (hL : ∀ p ∈ [Part.regs, .sent], p ∈ L) (p : Fin 5) (turn : Turnaround) : Ends L s
    (execPtpPdelayReqReceived p turn s) := by
  have hs := Moves.refl L s
  unfold execPtpPdelayReqReceived
  repeat' first
    | with_reducible apply ends_next | with_reducible apply ends_ite | with_reducible exact hs | with_reducible exact hL
    | exact parts_sub hL (by decide) | with_reducible apply moves_incReg | with_reducible apply moves_oneStepSend
    | with_reducible apply moves_ptpCount | with_reducible apply moves_serviceFrame | dsimp only | split

theorem ends_execPtpPdelayRespReceived {s : State} (hL : ∀ p ∈ [Part.regs], p ∈ L) (p : Fin 5) (delay : Word) (nrr : Word) : Ends L s
    (execPtpPdelayRespReceived p delay nrr s) := by
  have hs := Moves.refl L s
  unfold execPtpPdelayRespReceived
  repeat' first
    | with_reducible apply ends_next | with_reducible apply ends_ite | with_reducible exact hs | with_reducible exact hL
    | exact parts_sub hL (by decide) | with_reducible apply moves_incReg | with_reducible apply moves_ptpCount
    | with_reducible apply moves_serviceFrame | with_reducible apply moves_setReg | dsimp only | split

theorem ends_execPtpPdelayReqSend {s : State} (hL : ∀ p ∈ [Part.regs, .sent], p ∈ L) (p : Fin 5) : Ends L s (execPtpPdelayReqSend p s) :=
    by
  have hs := Moves.refl L s
  unfold execPtpPdelayReqSend
  repeat' first
    | with_reducible apply ends_next | with_reducible apply ends_ite | with_reducible exact hs | with_reducible exact hL
    | exact parts_sub hL (by decide) | with_reducible apply moves_incReg | with_reducible apply moves_ptpCount
    | with_reducible apply moves_sendPtp | dsimp only | split

theorem moves_losePtp {z0 s : State} (hs : Moves L z0 s) (hL : ∀ p ∈ [Part.regs, .tb, .ptp, .acq, .evr], p ∈ L) : Moves L z0
    (State.losePtp s) := by
  unfold State.losePtp
  repeat' first
    | with_reducible exact hs | with_reducible exact hL | exact parts_sub hL (by decide) | with_reducible apply moves_loseRef
    | with_reducible apply moves_setRef | with_reducible apply moves_setRefState | with_reducible apply moves_ite | dsimp only | split

theorem ends_execAnnounceReceiptTimeout {s : State} (hL : ∀ p ∈ [Part.regs, .tb, .ptp, .acq, .evr], p ∈ L) (id : Dword) (h :
    HoldoverEntry) : Ends L s (execAnnounceReceiptTimeout id h s) := by
  have hs := Moves.refl L s
  unfold execAnnounceReceiptTimeout
  repeat' first
    | with_reducible apply ends_next | with_reducible apply ends_ite | with_reducible exact hs | with_reducible exact hL
    | exact parts_sub hL (by decide) | with_reducible apply moves_losePtp | with_reducible apply moves_noteHold
    | with_reducible apply moves_ptpCount | with_reducible apply moves_setMasters | dsimp only | split

theorem ends_execSyncReceiptTimeout {s : State} (hL : ∀ p ∈ [Part.regs, .tb, .ptp, .acq, .evr], p ∈ L) (h : HoldoverEntry) : Ends L s
    (execSyncReceiptTimeout h s) := by
  have hs := Moves.refl L s
  unfold execSyncReceiptTimeout
  repeat' first
    | with_reducible apply ends_next | with_reducible apply ends_ite | with_reducible exact hs | with_reducible rfl
    | with_reducible exact Or.inl rfl | with_reducible exact Or.inl ⟨rfl, rfl⟩ | exact Or.inr (hL _ (by decide)) | with_reducible exact hL
    | exact parts_sub hL (by decide) | with_reducible apply moves_losePtp | with_reducible apply moves_noteHold | dsimp only | split
    | fail_if_no_progress with_reducible apply moves_record

theorem ends_execPtpAnnounceSend {s : State} (hL : ∀ p ∈ [Part.regs, .evr, .sent], p ∈ L) (p : Fin 5) : Ends L s (execPtpAnnounceSend p s)
    := by
  have hs := Moves.refl L s
  unfold execPtpAnnounceSend
  repeat' first
    | with_reducible apply ends_next | with_reducible apply ends_ite | with_reducible exact hs | with_reducible exact hL
    | exact parts_sub hL (by decide) | with_reducible apply moves_incReg | with_reducible apply moves_ptpCount
    | with_reducible apply moves_sendPtp | with_reducible apply moves_setPort | dsimp only | split

theorem ends_execPtpSyncSend {s : State} (hL : ∀ p ∈ [Part.regs, .sent], p ∈ L) (p : Fin 5) (complete : Bool) : Ends L s (execPtpSyncSend
    p complete s) := by
  have hs := Moves.refl L s
  unfold execPtpSyncSend
  repeat' first
    | with_reducible apply ends_next | with_reducible apply ends_ite | with_reducible exact hs | with_reducible exact hL
    | exact parts_sub hL (by decide) | with_reducible apply moves_oneStepSend | dsimp only | split

theorem ends_execPtpConfigEffect {s : State} (hL : ∀ p ∈ [Part.regs, .tb, .ptp, .evr, .clock], p ∈ L) : Ends L s (execPtpConfigEffect s)
    := by
  have hs := Moves.refl L s
  unfold execPtpConfigEffect
  repeat' first
    | with_reducible apply ends_next | with_reducible apply ends_ite | with_reducible exact hs | with_reducible rfl
    | with_reducible exact Or.inl rfl | with_reducible exact Or.inl ⟨rfl, rfl⟩ | exact Or.inr (hL _ (by decide)) | with_reducible exact hL
    | exact parts_sub hL (by decide) | with_reducible apply moves_advanceTo | with_reducible apply moves_runBmca | dsimp only | split
    | fail_if_no_progress with_reducible apply moves_record

end Sys2Proof.Machine
end

