-- ==== Sys2Proof/Laws/Moves/RecordFiles.lean ====
section
/-!
SUPPORT. What each operation of Machine/RecordFiles.lean may touch.
-/

namespace Sys2Proof.Machine

set_option linter.unusedTactic false
set_option linter.unreachableTactic false

variable {L : List Part}

theorem ends_execRecList {s : State} (hL : ∀ p ∈ [Part.evr, .qcp, .sent], p ∈ L) (p : Pkt) (first : Word) : Ends L s (execRecList p first
    s) := by
  have hs := Moves.refl L s
  unfold execRecList
  repeat' first
    | with_reducible apply ends_next | with_reducible apply ends_ite | with_reducible exact hs | with_reducible exact hL
    | exact parts_sub hL (by decide) | with_reducible assumption | with_reducible refine moves_request ?_ ?_ _ _ _ _ _ (fun _ _ _ => ?_)
    | with_reducible refine moves_foldl (fun _ _ _ => ?_) ?_ | dsimp only | split

theorem ends_execRecOpen {s : State} (hL : ∀ p ∈ [Part.evr, .qcp, .sent], p ∈ L) (p : Pkt) (number : Word) (view : Byte) (file : Byte)
    (zero : Half) : Ends L s (execRecOpen p number view file zero s) := by
  have hs := Moves.refl L s
  unfold execRecOpen
  repeat' first
    | with_reducible apply ends_next | with_reducible apply ends_ite | with_reducible exact hs | with_reducible exact hL
    | exact parts_sub hL (by decide) | with_reducible assumption | with_reducible apply moves_openHandle
    | with_reducible refine moves_openHandle_of (by assumption) ?_ ?_
    | with_reducible refine moves_request ?_ ?_ _ _ _ _ _ (fun _ _ _ => ?_) | dsimp only | split

theorem ends_execRecRead {s : State} (hL : ∀ p ∈ [Part.evr, .qcp, .sent], p ∈ L) (p : Pkt) (handle : Word) (index : Word) : Ends L s
    (execRecRead p handle index s) := by
  have hs := Moves.refl L s
  unfold execRecRead
  repeat' first
    | with_reducible apply ends_next | with_reducible apply ends_ite | with_reducible exact hs | with_reducible exact hL
    | exact parts_sub hL (by decide) | with_reducible assumption | with_reducible refine moves_request ?_ ?_ _ _ _ _ _ (fun _ _ _ => ?_)
    | with_reducible apply moves_setHandle | dsimp only | split

theorem ends_execRecDelete {s : State} (hL : ∀ p ∈ [Part.trg, .evr, .qcp, .sent], p ∈ L) (p : Pkt) (number : Word) : Ends L s
    (execRecDelete p number s) := by
  have hs := Moves.refl L s
  unfold execRecDelete
  repeat' first
    | with_reducible apply ends_next | with_reducible apply ends_ite | with_reducible exact hs | with_reducible exact hL
    | exact parts_sub hL (by decide) | with_reducible assumption | with_reducible refine moves_request ?_ ?_ _ _ _ _ _ (fun _ _ _ => ?_)
    | with_reducible apply moves_updTrg | dsimp only | split

theorem ends_execRecClose {s : State} (hL : ∀ p ∈ [Part.regs, .evr, .qcp, .sent], p ∈ L) (p : Pkt) (handle : Word) : Ends L s
    (execRecClose p handle s) := by
  have hs := Moves.refl L s
  unfold execRecClose
  repeat' first
    | with_reducible apply ends_next | with_reducible apply ends_ite | with_reducible exact hs | with_reducible exact hL
    | exact parts_sub hL (by decide) | with_reducible assumption | with_reducible apply moves_dropHandle
    | with_reducible refine moves_request ?_ ?_ _ _ _ _ _ (fun _ _ _ => ?_) | dsimp only | split

end Sys2Proof.Machine
end

