-- ==== Sys2Proof/Laws/Moves/Sessions.lean ====
section
/-!
SUPPORT. What each operation of Machine/Sessions.lean may touch.
-/

namespace Sys2Proof.Machine

set_option linter.unusedTactic false
set_option linter.unreachableTactic false

variable {L : List Part}

theorem moves_admitFree {z0 s : State} (hs : Moves L z0 s) (hL : ∀ p ∈ [Part.evr, .qcp], p ∈ L) (path : Path) : Moves L z0
    (State.admitFree s path).1 := by
  unfold State.admitFree
  repeat' first
    | with_reducible exact hs | with_reducible exact hL | exact parts_sub hL (by decide) | with_reducible apply moves_count
    | with_reducible apply moves_raiseBlock | with_reducible apply moves_updQcp | with_reducible apply moves_iteFst | dsimp only | split

theorem moves_admitFree_of {z0 s t9 : State} {r9 : Bool} {path : Path} (e9 : State.admitFree s path = (t9, r9)) (hs : Moves L z0 s) (hL :
    ∀ p ∈ [Part.evr, .qcp], p ∈ L) : Moves L z0 t9 := by
  have := moves_admitFree hs hL path
  rw [e9] at this
  exact this

theorem moves_freeRequest {z0 s : State} (hs : Moves L z0 s) (hL : ∀ p ∈ [Part.evr, .qcp, .sent], p ∈ L) (p : Pkt) (op : Nat) (next :
    State → Requester → State) (hnext : ∀ (u9 : State) (y1 : Requester), Moves L z0 u9 → Moves L z0 (next u9 y1)) : Moves L z0
    (State.freeRequest s p op next) := by
  unfold State.freeRequest
  repeat' first
    | with_reducible exact hs | with_reducible exact hL | exact parts_sub hL (by decide) | with_reducible assumption
    | with_reducible apply hnext | with_reducible apply moves_admitFree | with_reducible refine moves_admitFree_of (by assumption) ?_ ?_
    | with_reducible apply moves_countStatus | with_reducible apply moves_raiseBlock | with_reducible apply moves_received
    | with_reducible apply moves_sendReply | with_reducible apply moves_ite | dsimp only | split

theorem moves_answerHello {z0 s : State} (hs : Moves L z0 s) (hL : ∀ p ∈ [Part.net, .qcp, .sent], p ∈ L) (path : Path) (wanted : Half)
    (ref : Nat) : Moves L z0 (State.answerHello s path wanted ref) := by
  unfold State.answerHello
  repeat' first
    | with_reducible exact hs | with_reducible exact hL | exact parts_sub hL (by decide) | with_reducible apply moves_count
    | with_reducible apply moves_sendBeacon | with_reducible apply moves_updNet | with_reducible apply moves_ite | dsimp only | split

theorem ends_execHello {s : State} (hL : ∀ p ∈ [Part.net, .evr, .qcp, .sent], p ∈ L) (p : Pkt) (wanted : Half) : Ends L s (execHello p
    wanted s) := by
  have hs := Moves.refl L s
  unfold execHello
  repeat' first
    | with_reducible apply ends_next | with_reducible apply ends_ite | with_reducible exact hs | with_reducible exact hL
    | exact parts_sub hL (by decide) | with_reducible assumption | with_reducible apply moves_answerHello
    | with_reducible refine moves_freeRequest ?_ ?_ _ _ _ (fun _ _ _ => ?_)
    | with_reducible refine moves_request ?_ ?_ _ _ _ _ _ (fun _ _ _ => ?_) | dsimp only | split

theorem moves_discardSilently {z0 s : State} (hs : Moves L z0 s) (hL : ∀ p ∈ [Part.evr, .qcp], p ∈ L) (port : Nat) : Moves L z0
    (State.discardSilently s port) := by
  unfold State.discardSilently
  repeat' first
    | with_reducible exact hs | with_reducible exact hL | exact parts_sub hL (by decide) | with_reducible apply moves_count
    | with_reducible apply moves_raiseBlock | with_reducible apply moves_received | with_reducible apply moves_ite | dsimp only | split

theorem ends_execBeacon {s : State} (hL : ∀ p ∈ [Part.evr, .qcp], p ∈ L) : Ends L s (execBeacon s) := by
  have hs := Moves.refl L s
  unfold execBeacon
  repeat' first
    | with_reducible apply ends_next | with_reducible apply ends_ite | with_reducible exact hs | with_reducible exact hL
    | exact parts_sub hL (by decide) | with_reducible apply moves_discardSilently | dsimp only | split

theorem ends_execPing {s : State} (hL : ∀ p ∈ [Part.evr, .qcp, .sent], p ∈ L) (p : Pkt) (payload : List Byte) : Ends L s (execPing p
    payload s) := by
  have hs := Moves.refl L s
  unfold execPing
  repeat' first
    | with_reducible apply ends_next | with_reducible apply ends_ite | with_reducible exact hs | with_reducible exact hL
    | exact parts_sub hL (by decide) | with_reducible assumption | with_reducible refine moves_freeRequest ?_ ?_ _ _ _ (fun _ _ _ => ?_)
    | with_reducible refine moves_request ?_ ?_ _ _ _ _ _ (fun _ _ _ => ?_) | with_reducible apply moves_sendReply | dsimp only | split

theorem moves_openSession {z0 s : State} (hs : Moves L z0 s) (hL : ∀ p ∈ [Part.evr, .qcp, .sent, .freeCtr], p ∈ L) (path : Path) (slot :
    Nat) (role : Nat) (rq : Requester) : Moves L z0 (State.openSession s path slot role rq) := by
  unfold State.openSession
  repeat' first
    | with_reducible exact hs | with_reducible rfl | with_reducible exact Or.inl rfl | with_reducible exact Or.inl ⟨rfl, rfl⟩
    | exact Or.inr (hL _ (by decide)) | with_reducible exact hL | exact parts_sub hL (by decide) | with_reducible apply moves_count
    | with_reducible apply moves_raiseWith | with_reducible apply moves_sendReply | with_reducible apply moves_updQcp
    | with_reducible apply moves_ite | dsimp only | split | fail_if_no_progress with_reducible apply moves_record

theorem moves_refuseOpen {z0 s : State} (hs : Moves L z0 s) (hL : ∀ p ∈ [Part.evr, .qcp, .sent], p ∈ L) (rq : Requester) (r : Reply) :
    Moves L z0 (State.refuseOpen s rq r) := by
  unfold State.refuseOpen
  repeat' first
    | with_reducible exact hs | with_reducible exact hL | exact parts_sub hL (by decide) | with_reducible apply moves_countStatus
    | with_reducible apply moves_raiseBlock | with_reducible apply moves_sendReply | with_reducible apply moves_ite | dsimp only | split

theorem ends_execSessionOpen {s : State} (hL : ∀ p ∈ [Part.evr, .qcp, .sent, .freeCtr], p ∈ L) (p : Pkt) (slot : Byte) (role : Byte) (zero
    : Half) (ra : BitVec 512) : Ends L s (execSessionOpen p slot role zero ra s) := by
  have hs := Moves.refl L s
  unfold execSessionOpen
  repeat' first
    | with_reducible apply ends_next | with_reducible apply ends_ite | with_reducible exact hs | with_reducible exact hL
    | exact parts_sub hL (by decide) | with_reducible assumption | with_reducible refine moves_freeRequest ?_ ?_ _ _ _ (fun _ _ _ => ?_)
    | with_reducible apply moves_openSession | with_reducible apply moves_raiseQcp | with_reducible apply moves_refuseOpen
    | with_reducible refine moves_request ?_ ?_ _ _ _ _ _ (fun _ _ _ => ?_) | dsimp only | split

theorem moves_confirmSession {z0 s : State} (hs : Moves L z0 s) (hL : ∀ p ∈ [Part.regs, .can0, .can1, .evr, .qcp, .sent], p ∈ L) (rq :
    Requester) (x : Session) (saOk : Bool) : Moves L z0 (State.confirmSession s rq x saOk) := by
  unfold State.confirmSession
  repeat' first
    | with_reducible exact hs | with_reducible exact hL | exact parts_sub hL (by decide) | with_reducible apply moves_answer
    | with_reducible apply moves_countStatus | with_reducible apply moves_endSession | with_reducible apply moves_raiseQcp
    | with_reducible apply moves_updSession | with_reducible apply moves_ite | dsimp only | split

theorem ends_execSessionConfirm {s : State} (hL : ∀ p ∈ [Part.regs, .can0, .can1, .evr, .qcp, .sent], p ∈ L) (p : Pkt) (saOk : Bool) :
    Ends L s (execSessionConfirm p saOk s) := by
  have hs := Moves.refl L s
  unfold execSessionConfirm
  repeat' first
    | with_reducible apply ends_next | with_reducible apply ends_ite | with_reducible exact hs | with_reducible exact hL
    | exact parts_sub hL (by decide) | with_reducible assumption | with_reducible apply moves_confirmSession
    | with_reducible refine moves_receive ?_ ?_ _ _ (fun _ _ _ _ => ?_) | dsimp only | split

theorem ends_execSessionClose {s : State} (hL : ∀ p ∈ [Part.regs, .can0, .can1, .evr, .qcp, .sent], p ∈ L) (p : Pkt) : Ends L s
    (execSessionClose p s) := by
  have hs := Moves.refl L s
  unfold execSessionClose
  repeat' first
    | with_reducible apply ends_next | with_reducible apply ends_ite | with_reducible exact hs | with_reducible exact hL
    | exact parts_sub hL (by decide) | with_reducible assumption | with_reducible apply moves_answer
    | with_reducible apply moves_endSession | with_reducible refine moves_request ?_ ?_ _ _ _ _ _ (fun _ _ _ => ?_) | dsimp only | split

theorem ends_execQcpStats {s : State} (hL : ∀ p ∈ [Part.evr, .qcp, .sent], p ∈ L) (p : Pkt) : Ends L s (execQcpStats p s) := by
  have hs := Moves.refl L s
  unfold execQcpStats
  repeat' first
    | with_reducible apply ends_next | with_reducible apply ends_ite | with_reducible exact hs | with_reducible exact hL
    | exact parts_sub hL (by decide) | with_reducible assumption | with_reducible refine moves_request ?_ ?_ _ _ _ _ _ (fun _ _ _ => ?_)
    | dsimp only | split

theorem ends_execNoticeAck {s : State} (hL : ∀ p ∈ [Part.evr, .qcp, .sent], p ∈ L) (p : Pkt) (n : Word) : Ends L s (execNoticeAck p n s)
    := by
  have hs := Moves.refl L s
  unfold execNoticeAck
  repeat' first
    | with_reducible apply ends_next | with_reducible apply ends_ite | with_reducible exact hs | with_reducible rfl
    | with_reducible exact Or.inl rfl | with_reducible exact Or.inl ⟨rfl, rfl⟩ | exact Or.inr (hL _ (by decide)) | with_reducible exact hL
    | exact parts_sub hL (by decide) | with_reducible assumption | with_reducible apply moves_count
    | with_reducible refine moves_request ?_ ?_ _ _ _ _ _ (fun _ _ _ => ?_) | with_reducible apply moves_updQcp | dsimp only | split
    | fail_if_no_progress with_reducible apply moves_record

theorem ends_execRestart {s : State} (hL : ∀ p ∈ [Part.regs, .frame, .can0, .can1, .evr, .qcp, .sent], p ∈ L) (p : Pkt) (key : Half) :
    Ends L s (execRestart p key s) := by
  have hs := Moves.refl L s
  unfold execRestart
  repeat' first
    | with_reducible apply ends_next | with_reducible apply ends_ite | with_reducible exact hs | with_reducible exact hL
    | exact parts_sub hL (by decide) | with_reducible assumption | with_reducible apply moves_answer
    | with_reducible apply moves_endAllSessions | with_reducible refine moves_request ?_ ?_ _ _ _ _ _ (fun _ _ _ => ?_)
    | with_reducible refine moves_updFrame ?_ ?_ (fun _ => ⟨rfl, rfl⟩)
    | with_reducible refine moves_updFrame ?_ ?_ (fun _ => by split <;> exact ⟨rfl, rfl⟩) | dsimp only | split

theorem moves_timeOut {z0 s : State} (hs : Moves L z0 s) (hL : ∀ p ∈ [Part.regs, .tb, .can0, .can1, .evr, .qcp, .clock], p ∈ L) (n : Word)
    (due : Nat) : Moves L z0 (State.timeOut s n due) := by
  unfold State.timeOut
  repeat' first
    | with_reducible exact hs | with_reducible exact hL | exact parts_sub hL (by decide) | with_reducible apply moves_advanceUp
    | with_reducible apply moves_count | with_reducible apply moves_endSession | with_reducible apply moves_ite | dsimp only | split

theorem ends_execSessionIdleTimeout {s : State} (hL : ∀ p ∈ [Part.regs, .tb, .can0, .can1, .evr, .qcp, .clock], p ∈ L) (n : Word) : Ends L
    s (execSessionIdleTimeout n s) := by
  have hs := Moves.refl L s
  unfold execSessionIdleTimeout
  repeat' first
    | with_reducible apply ends_next | with_reducible apply ends_ite | with_reducible exact hs | with_reducible exact hL
    | exact parts_sub hL (by decide) | with_reducible apply moves_timeOut | dsimp only | split

theorem ends_execSessionLifetimeExpiry {s : State} (hL : ∀ p ∈ [Part.regs, .tb, .can0, .can1, .evr, .qcp, .clock], p ∈ L) (n : Word) :
    Ends L s (execSessionLifetimeExpiry n s) := by
  have hs := Moves.refl L s
  unfold execSessionLifetimeExpiry
  repeat' first
    | with_reducible apply ends_next | with_reducible apply ends_ite | with_reducible exact hs | with_reducible exact hL
    | exact parts_sub hL (by decide) | with_reducible apply moves_timeOut | dsimp only | split

theorem ends_execSessionConfirmTimeout {s : State} (hL : ∀ p ∈ [Part.regs, .tb, .can0, .can1, .evr, .qcp, .clock], p ∈ L) (n : Word) :
    Ends L s (execSessionConfirmTimeout n s) := by
  have hs := Moves.refl L s
  unfold execSessionConfirmTimeout
  repeat' first
    | with_reducible apply ends_next | with_reducible apply ends_ite | with_reducible exact hs | with_reducible exact hL
    | exact parts_sub hL (by decide) | with_reducible apply moves_timeOut | dsimp only | split

theorem ends_execMacFailureLimit {s : State} (hL : ∀ p ∈ [Part.regs, .can0, .can1, .evr, .qcp], p ∈ L) (n : Word) : Ends L s
    (execMacFailureLimit n s) := by
  have hs := Moves.refl L s
  unfold execMacFailureLimit
  repeat' first
    | with_reducible apply ends_next | with_reducible apply ends_ite | with_reducible exact hs | with_reducible exact hL
    | exact parts_sub hL (by decide) | with_reducible apply moves_count | with_reducible apply moves_endSession
    | with_reducible apply moves_raiseQcp | dsimp only | split

theorem ends_execNoticeResend {s : State} (hL : ∀ p ∈ [Part.tb, .evr, .qcp, .sent, .clock], p ∈ L) (n : Word) (count : Word) : Ends L s
    (execNoticeResend n count s) := by
  have hs := Moves.refl L s
  unfold execNoticeResend
  repeat' first
    | with_reducible apply ends_next | with_reducible apply ends_ite | with_reducible exact hs | with_reducible exact hL
    | exact parts_sub hL (by decide) | with_reducible apply moves_advanceUp | with_reducible apply moves_count
    | with_reducible apply moves_raiseQcp | with_reducible apply moves_sendNotice | with_reducible apply moves_updQcp | dsimp only | split

theorem moves_dropRelay {z0 s : State} (hs : Moves L z0 s) (hL : ∀ p ∈ [Part.qcp], p ∈ L) (r : Relay) : Moves L z0 (State.dropRelay s r)
    := by
  unfold State.dropRelay
  repeat' first
    | with_reducible exact hs | with_reducible exact hL | exact parts_sub hL (by decide) | with_reducible apply moves_updQcp
    | with_reducible apply moves_ite | dsimp only | split

theorem ends_execRelayReply {s : State} (hL : ∀ p ∈ [Part.qcp, .sent], p ∈ L) (n : Word) (seq : Word) (status : Status) (reason : Byte)
    (detail : Word) (fields : List Word) (payload : List Word) : Ends L s (execRelayReply n seq status reason detail fields payload s) :=
    by
  have hs := Moves.refl L s
  unfold execRelayReply
  repeat' first
    | with_reducible apply ends_next | with_reducible apply ends_ite | with_reducible exact hs | with_reducible exact hL
    | exact parts_sub hL (by decide) | with_reducible apply moves_dropRelay | with_reducible apply moves_lateAnswer | dsimp only | split

theorem ends_execRelayTimeout {s : State} (hL : ∀ p ∈ [Part.tb, .evr, .qcp, .sent, .clock], p ∈ L) (n : Word) (seq : Word) : Ends L s
    (execRelayTimeout n seq s) := by
  have hs := Moves.refl L s
  unfold execRelayTimeout
  repeat' first
    | with_reducible apply ends_next | with_reducible apply ends_ite | with_reducible exact hs | with_reducible exact hL
    | exact parts_sub hL (by decide) | with_reducible apply moves_advanceUp | with_reducible apply moves_count
    | with_reducible apply moves_dropRelay | with_reducible apply moves_lateAnswer | with_reducible apply moves_raiseQcp | dsimp only
    | split

theorem ends_execHandleIdleTimeout {s : State} (hL : ∀ p ∈ [Part.regs, .tb, .evr, .qcp, .clock], p ∈ L) (id : Word) : Ends L s
    (execHandleIdleTimeout id s) := by
  have hs := Moves.refl L s
  unfold execHandleIdleTimeout
  repeat' first
    | with_reducible apply ends_next | with_reducible apply ends_ite | with_reducible exact hs | with_reducible exact hL
    | exact parts_sub hL (by decide) | with_reducible apply moves_advanceUp | with_reducible apply moves_dropHandle | dsimp only | split

theorem ends_execWindowClaimTimeout {s : State} (hL : ∀ p ∈ [Part.tb, .qcp, .clock], p ∈ L) (w : WindowId) : Ends L s
    (execWindowClaimTimeout w s) := by
  have hs := Moves.refl L s
  unfold execWindowClaimTimeout
  repeat' first
    | with_reducible apply ends_next | with_reducible apply ends_ite | with_reducible exact hs | with_reducible exact hL
    | exact parts_sub hL (by decide) | with_reducible apply moves_advanceUp | with_reducible apply moves_releaseWindow | dsimp only
    | split

theorem moves_dropSilently {z0 s : State} (hs : Moves L z0 s) (hL : ∀ p ∈ [Part.evr, .qcp], p ∈ L) (port : Nat) (f : MalformedPacket) :
    Moves L z0 (State.dropSilently s port f) := by
  unfold State.dropSilently
  repeat' first
    | with_reducible exact hs | with_reducible exact hL | exact parts_sub hL (by decide) | with_reducible apply moves_count
    | with_reducible apply moves_discardSilently | with_reducible apply moves_raiseBlock | with_reducible apply moves_received
    | with_reducible apply moves_ite | dsimp only | split

theorem moves_answerMalformed {z0 s : State} (hs : Moves L z0 s) (hL : ∀ p ∈ [Part.evr, .qcp, .sent], p ∈ L) (op : Nat) (rq : Requester)
    (r : Reply) : Moves L z0 (State.answerMalformed s op rq r) := by
  unfold State.answerMalformed
  repeat' first
    | with_reducible exact hs | with_reducible exact hL | exact parts_sub hL (by decide) | with_reducible apply moves_countStatus
    | with_reducible apply moves_raiseQcp | with_reducible apply moves_received | with_reducible apply moves_sendReply
    | with_reducible apply moves_ite | dsimp only | split

theorem ends_execMalformedPacket {s : State} (hL : ∀ p ∈ [Part.evr, .qcp, .sent], p ∈ L) (path : Path) (bytes : List Byte) (fragment :
    Bool) (mac : MacCheck) : Ends L s (execMalformedPacket path bytes fragment mac s) := by
  have hs := Moves.refl L s
  unfold execMalformedPacket
  repeat' first
    | with_reducible apply ends_next | with_reducible apply ends_ite | with_reducible exact hs | with_reducible exact hL
    | exact parts_sub hL (by decide) | with_reducible assumption | with_reducible apply moves_answerMalformed
    | with_reducible apply moves_dropSilently | with_reducible refine moves_receive ?_ ?_ _ _ (fun _ _ _ _ => ?_)
    | with_reducible apply moves_refuse | dsimp only | split

end Sys2Proof.Machine
end

