-- ==== Sys2Proof/Laws/Moves/Starts.lean ====
section
/-!
SUPPORT. What each operation of Machine/Starts.lean may touch.
-/

namespace Sys2Proof.Machine

set_option linter.unusedTactic false
set_option linter.unreachableTactic false

variable {L : List Part}

theorem moves_startRegs {z0 s : State} (hs : Moves L z0 s) (hL : ∀ p ∈ [Part.regs], p ∈ L) : Moves L z0 s.startRegs := by
  have h1 : Moves L z0 { s with regs := keepPreserved s.regs } := by
    refine hs.step ?_ fun hi => ?_
    · intro p hp
      cases p <;> first | exact absurd (hL _ (by decide)) hp | rfl | exact ⟨rfl, rfl⟩
    · exact ⟨⟨sparseWfFrom_keepPreserved _ _ hi.1.1, hi.1.2⟩, hi.2⟩
  unfold State.startRegs
  exact moves_foldl (fun _ _ ht => moves_setReg ht (parts_sub hL (by decide)) _ _)
    (moves_setReg (moves_setReg (moves_foldl (fun _ _ ht => moves_setReg ht (parts_sub hL (by decide)) _ _) h1) (parts_sub hL
    (by decide)) _ _) (parts_sub hL (by decide)) _ _)

theorem moves_freeRegs {z0 s : State} (hs : Moves L z0 s) (hL : ∀ p ∈ [Part.regs, .freeCtr], p ∈ L) (l : List Nat) : Moves L z0
    (State.freeRegs s l) := by
  induction l generalizing s with
  | nil => exact hs
  | cons x rest ih =>
    unfold State.freeRegs
    repeat' first
      | with_reducible exact hs | with_reducible rfl | with_reducible exact Or.inl rfl | with_reducible exact Or.inl ⟨rfl, rfl⟩
      | exact Or.inr (hL _ (by decide)) | with_reducible exact hL | exact parts_sub hL (by decide) | with_reducible apply ih
      | with_reducible apply moves_setReg | with_reducible apply moves_ite | dsimp only | split
      | fail_if_no_progress with_reducible apply moves_record

theorem moves_startParts {z0 s : State} (hs : Moves L z0 s) (hL : ∀ p ∈ [Part.regs, .staged, .role, .mode, .tb, .ptp, .frame, .pair, .lock, .loop, .acq, .trg, .io, .net, .can0, .can1, .evr, .trust, .fab, .power, .qcp, .clock, .tick], p ∈ L) (f : StartFindings)
    (power : Bool) : Moves L z0 (s.startParts f power) := by
  have he : Moves L z0 s.endAllSessions := moves_endAllSessions hs (parts_sub hL (by decide))
  unfold State.startParts
  extract_lets t
  have h0 : Moves L z0 t := moves_startRegs he (parts_sub hL (by decide))
  clear_value t
  refine ⟨fun p hp => ?_, fun hi => ?_⟩
  · by_cases h : p ∈ [Part.sent, .freeCtr, .pending, .wins]
    · have h1 := h0.same p hp
      revert h1
      simp only [List.mem_cons, List.not_mem_nil, or_false] at h
      obtain rfl | rfl | rfl | rfl := h <;> exact id
    · refine absurd (hL p ?_) hp
      cases p <;> first | decide | exact absurd (by decide) h
  · obtain ⟨⟨hr, hw, _, ho⟩, _⟩ := h0.inv hi
    refine ⟨⟨hr, hw, ?_, ho⟩, ?_⟩
    · show Memory.wf (keptFab s power).mem = true
      have hm := (hs.inv hi).1.2.2.1
      unfold keptFab
      cases power
      · exact hm
      · exact sparseWf_filter _ _ _ _ hm
    · show (keptEvr (if power then s else s.endAllSessions) power).intake.length ≤ 512
      cases power
      · show (s.endAllSessions.evr.intake.map _).length ≤ 512
        rw [List.length_map]
        exact (he.inv hi).2
      · exact Nat.zero_le _

theorem moves_startOrder {z0 s : State} (hs : Moves L z0 s) (hL : ∀ p ∈ [Part.regs], p ∈ L) (oven : Bool) : Moves L z0 (State.startOrder s
    oven) := by
  unfold State.startOrder
  repeat' first
    | with_reducible exact hs | with_reducible exact hL | exact parts_sub hL (by decide) | with_reducible apply moves_putReg
    | with_reducible apply moves_setReg | with_reducible apply moves_ite | dsimp only | split

theorem moves_startLining {z0 s : State} (hs : Moves L z0 s) (hL : ∀ p ∈ [Part.regs, .lock, .freeCtr], p ∈ L) (f : StartFindings) : Moves
    L z0 (State.startLining s f) := by
  unfold State.startLining
  repeat' first
    | with_reducible exact hs | with_reducible rfl | with_reducible exact Or.inl rfl | with_reducible exact Or.inl ⟨rfl, rfl⟩
    | exact Or.inr (hL _ (by decide)) | with_reducible exact hL | exact parts_sub hL (by decide) | with_reducible apply moves_freeRegs
    | with_reducible apply moves_putRegBit | with_reducible apply moves_setReg | with_reducible apply moves_ite | dsimp only | split
    | fail_if_no_progress with_reducible apply moves_record

theorem moves_reportLining {z0 s : State} (hs : Moves L z0 s) (hL : ∀ p ∈ [Part.regs, .evr, .power], p ∈ L) (f : StartFindings) : Moves L
    z0 (State.reportLining s f) := by
  unfold State.reportLining
  repeat' first
    | with_reducible exact hs | with_reducible exact hL | exact parts_sub hL (by decide) | with_reducible apply moves_orReg
    | with_reducible apply moves_raiseBlock | with_reducible apply moves_updPower | with_reducible apply moves_ite | dsimp only | split

theorem moves_startTime {z0 s : State} (hs : Moves L z0 s) (hL : ∀ p ∈ [Part.tb, .frame, .clock, .tick], p ∈ L) (f : StartFindings) :
    Moves L z0 (State.startTime s f) := by
  unfold State.startTime
  repeat' first
    | with_reducible exact hs | with_reducible rfl | with_reducible exact Or.inl rfl | with_reducible exact Or.inl ⟨rfl, rfl⟩
    | exact Or.inr (hL _ (by decide)) | with_reducible exact hL | exact parts_sub hL (by decide) | with_reducible apply moves_ite
    | dsimp only | split | fail_if_no_progress with_reducible apply moves_record

theorem moves_startPlace {z0 s : State} (hs : Moves L z0 s) (hL : ∀ p ∈ [Part.regs, .evr], p ∈ L) (f : StartFindings) : Moves L z0
    (State.startPlace s f) := by
  unfold State.startPlace
  repeat' first
    | with_reducible exact hs | with_reducible exact hL | exact parts_sub hL (by decide) | with_reducible assumption
    | with_reducible apply moves_raiseBlock | with_reducible apply moves_setReg | with_reducible refine moves_foldl (fun _ _ _ => ?_) ?_
    | with_reducible apply moves_ite | dsimp only | split

theorem moves_startLog {z0 s : State} (hs : Moves L z0 s) (hL : ∀ p ∈ [Part.evr, .freeCtr], p ∈ L) (f : StartFindings) : Moves L z0
    (State.startLog s f) := by
  unfold State.startLog
  repeat' first
    | with_reducible exact hs | with_reducible rfl | with_reducible exact Or.inl rfl | with_reducible exact Or.inl ⟨rfl, rfl⟩
    | exact Or.inr (hL _ (by decide)) | with_reducible exact hL | exact parts_sub hL (by decide) | with_reducible assumption
    | with_reducible apply moves_raiseBlock | with_reducible refine moves_updEvrSame ?_ ?_ (fun _ => rfl)
    | with_reducible refine moves_foldl (fun _ _ _ => ?_) ?_ | with_reducible apply moves_ite | dsimp only | split
    | fail_if_no_progress with_reducible apply moves_record

theorem moves_bankFails {z0 s : State} (hs : Moves L z0 s) (hL : ∀ p ∈ [Part.regs, .wins, .frame, .evr, .trust], p ∈ L) (k : Nat) : Moves
    L z0 (State.bankFails s k) := by
  unfold State.bankFails
  repeat' first
    | with_reducible exact hs | with_reducible exact hL | exact parts_sub hL (by decide) | with_reducible apply moves_orReg
    | with_reducible apply moves_putRegBit | with_reducible apply moves_raiseBlock | with_reducible apply moves_revert
    | with_reducible apply moves_setComponentState | with_reducible apply moves_showComponent | with_reducible apply moves_ite
    | dsimp only | split

theorem moves_startBanks {z0 s : State} (hs : Moves L z0 s) (hL : ∀ p ∈ [Part.regs, .wins, .frame, .evr, .trust], p ∈ L) (f :
    StartFindings) : Moves L z0 (State.startBanks s f) := by
  unfold State.startBanks
  repeat' first
    | with_reducible exact hs | with_reducible exact hL | exact parts_sub hL (by decide) | with_reducible assumption
    | with_reducible apply moves_bankFails | with_reducible apply moves_enterTrial | with_reducible apply moves_setOtherBank
    | with_reducible refine moves_updTrust ?_ ?_ (fun _ => rfl) | with_reducible refine moves_foldl (fun _ _ _ => ?_) ?_
    | with_reducible apply moves_ite | dsimp only | split

theorem moves_takeStore {z0 s : State} (hs : Moves L z0 s) (hL : ∀ p ∈ [Part.regs], p ∈ L) (values : List (Nat × Word)) : Moves L z0
    (State.takeStore s values) := by
  unfold State.takeStore
  repeat' first
    | with_reducible exact hs | with_reducible exact hL | exact parts_sub hL (by decide) | with_reducible assumption
    | with_reducible apply moves_setReg | with_reducible refine moves_foldl (fun _ _ _ => ?_) ?_ | with_reducible apply moves_ite
    | dsimp only | split

theorem moves_startSettings {z0 s : State} (hs : Moves L z0 s) (hL : ∀ p ∈ [Part.regs, .wins, .evr, .trust], p ∈ L) (f : StartFindings) :
    Moves L z0 (State.startSettings s f) := by
  unfold State.startSettings
  repeat' first
    | with_reducible exact hs | with_reducible exact hL | exact parts_sub hL (by decide) | with_reducible apply moves_orReg
    | with_reducible apply moves_raiseBlock | with_reducible apply moves_restoreStore | with_reducible apply moves_setReg
    | with_reducible apply moves_takeStore | with_reducible refine moves_updTrust ?_ ?_ (fun _ => rfl)
    | with_reducible refine moves_dropOriginal ?_ ?_ (fun _ => rfl) | with_reducible refine moves_keepOriginal ?_ ?_ _ (fun _ => rfl)
    | with_reducible apply moves_ite | dsimp only | split

theorem moves_startImage {z0 s : State} (hs : Moves L z0 s) (hL : ∀ p ∈ [Part.regs, .frame, .evr], p ∈ L) : Moves L z0 (State.startImage
    s) := by
  unfold State.startImage
  repeat' first
    | with_reducible exact hs | with_reducible exact hL | exact parts_sub hL (by decide) | with_reducible assumption
    | with_reducible apply moves_freshPoints | with_reducible apply moves_setBankState | with_reducible apply moves_showImage
    | with_reducible refine moves_updFrame ?_ ?_ (fun _ => ⟨rfl, rfl⟩)
    | with_reducible refine moves_updFrame ?_ ?_ (fun _ => by split <;> exact ⟨rfl, rfl⟩) | with_reducible apply moves_writeAdmission
    | with_reducible refine moves_foldl (fun _ _ _ => ?_) ?_ | with_reducible apply moves_ite | dsimp only | split

theorem moves_recordLost {z0 s : State} (hs : Moves L z0 s) (hL : ∀ p ∈ [Part.regs, .evr], p ∈ L) : Moves L z0 (State.recordLost s) := by
  unfold State.recordLost
  repeat' first
    | with_reducible exact hs | with_reducible exact hL | exact parts_sub hL (by decide) | with_reducible apply moves_orReg
    | with_reducible apply moves_raiseBlock | with_reducible apply moves_satRegFld | with_reducible apply moves_ite | dsimp only | split

theorem moves_reportLoss {z0 s : State} (hs : Moves L z0 s) (hL : ∀ p ∈ [Part.regs, .evr, .power], p ∈ L) (lost : Nat) : Moves L z0
    (State.reportLoss s lost) := by
  unfold State.reportLoss
  repeat' first
    | with_reducible exact hs | with_reducible exact hL | exact parts_sub hL (by decide) | with_reducible assumption
    | with_reducible apply moves_orReg | with_reducible apply moves_putRegBit | with_reducible apply moves_raiseBlock
    | with_reducible apply moves_recordLost | with_reducible apply moves_updPower | with_reducible refine moves_foldl (fun _ _ _ => ?_) ?_
    | with_reducible apply moves_ite | dsimp only | split

theorem moves_startKeys {z0 s : State} (hs : Moves L z0 s) (hL : ∀ p ∈ [Part.regs, .trust], p ∈ L) (f : StartFindings) : Moves L z0
    (State.startKeys s f) := by
  unfold State.startKeys
  repeat' first
    | with_reducible exact hs | with_reducible exact hL | exact parts_sub hL (by decide) | with_reducible assumption
    | with_reducible apply moves_setReg | with_reducible refine moves_updTrust ?_ ?_ (fun _ => rfl)
    | with_reducible refine moves_foldl (fun _ _ _ => ?_) ?_ | with_reducible apply moves_ite | dsimp only | split

theorem moves_started {z0 s : State} (hs : Moves L z0 s) (hL : ∀ p ∈ [Part.regs, .wins, .staged, .role, .mode, .tb, .ptp, .frame, .pair,
    .lock, .loop, .acq, .trg, .io, .net, .can0, .can1, .evr, .trust, .fab, .power, .qcp, .freeCtr, .clock, .tick], p ∈ L) (f :
    StartFindings) (power : Bool) : Moves L z0 (State.started s f power) := by
  unfold State.started
  repeat' first
    | with_reducible exact hs | with_reducible rfl | with_reducible exact Or.inl rfl | with_reducible exact Or.inl ⟨rfl, rfl⟩
    | exact Or.inr (hL _ (by decide)) | with_reducible exact hL | exact parts_sub hL (by decide) | with_reducible assumption
    | with_reducible apply moves_incReg | with_reducible apply moves_raiseBlock | with_reducible apply moves_reportLining
    | with_reducible apply moves_reportLoss | with_reducible apply moves_setReg | with_reducible apply moves_startAcq
    | with_reducible apply moves_startBanks | with_reducible apply moves_startImage | with_reducible apply moves_startKeys
    | with_reducible apply moves_startLining | with_reducible apply moves_startLog | with_reducible apply moves_startOrder
    | with_reducible apply moves_startParts | with_reducible apply moves_startPlace | with_reducible apply moves_startSettings
    | with_reducible apply moves_startTime | with_reducible apply moves_takeCalibration | with_reducible apply moves_unreleaseAll
    | with_reducible refine moves_foldl (fun _ _ _ => ?_) ?_ | with_reducible apply moves_ite | dsimp only | split
    | fail_if_no_progress with_reducible apply moves_record

theorem ends_execPowerOnStart {s : State} (hL : ∀ p ∈ [Part.regs, .wins, .staged, .role, .mode, .tb, .ptp, .frame, .pair, .lock, .loop,
    .acq, .trg, .io, .net, .can0, .can1, .evr, .trust, .fab, .power, .qcp, .freeCtr, .clock, .tick], p ∈ L) (f : StartFindings) : Ends L s
    (execPowerOnStart f s) := by
  have hs := Moves.refl L s
  unfold execPowerOnStart
  repeat' first
    | with_reducible apply ends_next | with_reducible apply ends_ite | with_reducible exact hs | with_reducible exact hL
    | exact parts_sub hL (by decide) | with_reducible apply moves_started | with_reducible apply moves_updPower | dsimp only | split

theorem ends_execWarmRestart {s : State} (hL : ∀ p ∈ [Part.regs, .wins, .staged, .role, .mode, .tb, .ptp, .frame, .pair, .lock, .loop,
    .acq, .trg, .io, .net, .can0, .can1, .evr, .trust, .fab, .power, .qcp, .freeCtr, .clock, .tick], p ∈ L) (f : StartFindings) : Ends L s
    (execWarmRestart f s) := by
  have hs := Moves.refl L s
  unfold execWarmRestart
  repeat' first
    | with_reducible apply ends_next | with_reducible apply ends_ite | with_reducible exact hs | with_reducible exact hL
    | exact parts_sub hL (by decide) | with_reducible apply moves_started | dsimp only | split

theorem ends_execAutoRestart {s : State} (hL : ∀ p ∈ [Part.regs, .wins, .staged, .role, .mode, .tb, .ptp, .frame, .pair, .lock, .loop,
    .acq, .trg, .io, .net, .can0, .can1, .evr, .trust, .fab, .power, .qcp, .freeCtr, .clock, .tick], p ∈ L) (f : StartFindings) : Ends L s
    (execAutoRestart f s) := by
  have hs := Moves.refl L s
  unfold execAutoRestart
  repeat' first
    | with_reducible apply ends_next | with_reducible apply ends_ite | with_reducible exact hs | with_reducible exact hL
    | exact parts_sub hL (by decide) | with_reducible apply moves_advanceUp | with_reducible apply moves_started | dsimp only | split

end Sys2Proof.Machine
end

