-- ==== Sys2Proof/Laws/Moves/Tracking.lean ====
section
/-!
SUPPORT. What each operation of Machine/Tracking.lean may touch.
-/

namespace Sys2Proof.Machine

set_option linter.unusedTactic false
set_option linter.unreachableTactic false

variable {L : List Part}

theorem moves_startPrecopy {z0 s : State} (hs : Moves L z0 s) (hL : ∀ p ∈ [Part.regs, .pair], p ∈ L) (r : PhaseResult) : Moves L z0
    (State.startPrecopy s r) := by
  unfold State.startPrecopy
  repeat' first
    | with_reducible exact hs | with_reducible exact hL | exact parts_sub hL (by decide) | with_reducible apply moves_setReg
    | with_reducible apply moves_updPair | with_reducible apply moves_ite | dsimp only | split

theorem ends_execTrackingPhaseComplete {s : State} (hL : ∀ p ∈ [Part.regs, .pair], p ∈ L) (r : PhaseResult) : Ends L s
    (execTrackingPhaseComplete r s) := by
  have hs := Moves.refl L s
  unfold execTrackingPhaseComplete
  repeat' first
    | with_reducible apply ends_next | with_reducible apply ends_ite | with_reducible exact hs | with_reducible exact hL
    | exact parts_sub hL (by decide) | with_reducible apply moves_startPrecopy | with_reducible apply moves_updPair | dsimp only | split

theorem moves_copyPoints {z0 s : State} (hs : Moves L z0 s) (hL : ∀ p ∈ [Part.frame], p ∈ L) (l : List (Word × Word × Bool)) : Moves L z0
    (State.copyPoints s l) := by
  induction l generalizing s with
  | nil => exact hs
  | cons x rest ih =>
    unfold State.copyPoints
    repeat' first
      | with_reducible exact hs | with_reducible exact hL | exact parts_sub hL (by decide) | with_reducible apply ih
      | with_reducible apply moves_setPoint | with_reducible apply moves_ite | dsimp only | split

theorem moves_copyData {z0 s : State} (hs : Moves L z0 s) (hL : ∀ p ∈ [Part.frame], p ∈ L) (d : CopiedData) : Moves L z0 (State.copyData s
    d) := by
  unfold State.copyData
  repeat' first
    | with_reducible exact hs | with_reducible exact hL | exact parts_sub hL (by decide) | with_reducible apply moves_copyPoints
    | with_reducible refine moves_updFrame ?_ ?_ (fun _ => ⟨rfl, rfl⟩)
    | with_reducible refine moves_updFrame ?_ ?_ (fun _ => by split <;> exact ⟨rfl, rfl⟩) | with_reducible apply moves_ite | dsimp only
    | split

theorem moves_copyRegs {z0 s : State} (hs : Moves L z0 s) (hL : ∀ p ∈ [Part.regs], p ∈ L) (l : List (Nat × Word)) : Moves L z0
    (State.copyRegs s l) := by
  induction l generalizing s with
  | nil => exact hs
  | cons x rest ih =>
    unfold State.copyRegs
    repeat' first
      | with_reducible exact hs | with_reducible exact hL | exact parts_sub hL (by decide) | with_reducible apply ih
      | with_reducible apply moves_setReg | with_reducible apply moves_ite | dsimp only | split

theorem moves_copyWins {z0 s : State} (hs : Moves L z0 s) (hL : ∀ p ∈ [Part.wins], p ∈ L) (l : List (Nat × Word)) : Moves L z0
    (s.copyWins l) := by
  induction l generalizing s with
  | nil => exact hs
  | cons x rest ih => exact ih (moves_ite (moves_writeWins hs (parts_sub hL (by decide)) _ _) hs)

theorem moves_takeCopiedChannels {z0 s : State} (hs : Moves L z0 s) (hL : ∀ p ∈ [Part.acq], p ∈ L) : Moves L z0 (State.takeCopiedChannels
    s) := by
  unfold State.takeCopiedChannels
  repeat' first
    | with_reducible exact hs | with_reducible exact hL | exact parts_sub hL (by decide) | with_reducible assumption
    | with_reducible apply moves_enableChannel | with_reducible apply moves_takeRange
    | with_reducible refine moves_foldl (fun _ _ _ => ?_) ?_ | with_reducible apply moves_ite | dsimp only | split

theorem moves_copyPending {z0 s : State} (hs : Moves L z0 s) (hL : ∀ p ∈ [Part.can0, .can1], p ∈ L) (ch : Nat) (b : Nat) (f : Option
    CanFrame) : Moves L z0 (State.copyPending s ch b f) := by
  unfold State.copyPending
  repeat' first
    | with_reducible exact hs | with_reducible exact hL | exact parts_sub hL (by decide) | with_reducible apply moves_setCanBuf
    | with_reducible apply moves_ite | dsimp only | split

theorem moves_copyKeys {z0 s : State} (hs : Moves L z0 s) (hL : ∀ p ∈ [Part.regs, .trust], p ∈ L) (keys : List (Nat × PublicKey))
    (dec : List (Nat × BitVec 128)) (l : List (Nat × Word)) : Moves L z0 (State.copyKeys s keys dec l) := by
  induction l generalizing s with
  | nil =>
    exact moves_putReg (moves_updTrust hs (parts_sub hL (by decide)) (f := fun t => { t with keys := keys, decryption := dec }) fun _ => rfl)
      (parts_sub hL (by decide)) _ _ _ _
  | cons x rest ih => exact ih (moves_ite (moves_setReg hs (parts_sub hL (by decide)) _ _) hs)

theorem moves_setBankDigest {z0 s : State} (hs : Moves L z0 s) (hL : ∀ p ∈ [Part.regs], p ∈ L) (b : Nat) (d : BitVec 256) : Moves L z0
    (State.setBankDigest s b d) := by
  unfold State.setBankDigest
  repeat' first
    | with_reducible exact hs | with_reducible exact hL | exact parts_sub hL (by decide) | with_reducible assumption
    | with_reducible apply moves_setReg | with_reducible refine moves_foldl (fun _ _ _ => ?_) ?_ | with_reducible apply moves_ite
    | dsimp only | split

theorem moves_copyBank {z0 s : State} (hs : Moves L z0 s) (hL : ∀ p ∈ [Part.regs, .frame, .evr], p ∈ L) (b : Nat) (st : Nat) (d : BitVec
    256) (i : Image) : Moves L z0 (State.copyBank s b st d i) := by
  unfold State.copyBank
  repeat' first
    | with_reducible exact hs | with_reducible exact hL | exact parts_sub hL (by decide) | with_reducible apply moves_setBankDigest
    | with_reducible apply moves_setBankImage | with_reducible apply moves_setBankState | with_reducible apply moves_showImage
    | with_reducible refine moves_updFrame ?_ ?_ (fun _ => ⟨rfl, rfl⟩)
    | with_reducible refine moves_updFrame ?_ ?_ (fun _ => by split <;> exact ⟨rfl, rfl⟩) | with_reducible apply moves_writeAdmission
    | with_reducible apply moves_ite | dsimp only | split

theorem ends_execTrackingCopyReceived {s : State} (hL : ∀ p ∈ [Part.regs, .wins, .frame, .pair, .acq, .can0, .can1, .evr, .trust], p ∈ L)
    (c : TrackingCopy) : Ends L s (execTrackingCopyReceived c s) := by
  have hs := Moves.refl L s
  unfold execTrackingCopyReceived
  repeat' first
    | with_reducible apply ends_next | with_reducible apply ends_ite | with_reducible exact hs | with_reducible exact hL
    | exact parts_sub hL (by decide) | with_reducible assumption | with_reducible apply moves_copyBank
    | with_reducible apply moves_copyData | with_reducible apply moves_copyKeys | with_reducible apply moves_copyPending
    | with_reducible apply moves_copyRegs | with_reducible apply moves_copyWins | with_reducible apply moves_setReg
    | with_reducible apply moves_takeCopiedChannels | with_reducible refine moves_updFrame ?_ ?_ (fun _ => ⟨rfl, rfl⟩)
    | with_reducible refine moves_updFrame ?_ ?_ (fun _ => by split <;> exact ⟨rfl, rfl⟩) | with_reducible apply moves_updPair
    | with_reducible refine moves_foldl (fun _ _ _ => ?_) ?_ | dsimp only | split

theorem ends_execWriteMirrorReceived {s : State} (hL : ∀ p ∈ [Part.regs, .frame, .pair, .evr], p ∈ L) (d : CopiedData) (pages : List Nat)
    (lost : Bool) : Ends L s (execWriteMirrorReceived d pages lost s) := by
  have hs := Moves.refl L s
  unfold execWriteMirrorReceived
  repeat' first
    | with_reducible apply ends_next | with_reducible apply ends_ite | with_reducible exact hs | with_reducible exact hL
    | exact parts_sub hL (by decide) | with_reducible apply moves_copyData | with_reducible apply moves_roundFailed
    | with_reducible apply moves_updPair | dsimp only | split

theorem ends_execJoinTick {s : State} (hL : ∀ p ∈ [Part.regs, .tb, .pair, .clock], p ∈ L) (mirror : Nat) : Ends L s (execJoinTick mirror
    s) := by
  have hs := Moves.refl L s
  unfold execJoinTick
  repeat' first
    | with_reducible apply ends_next | with_reducible apply ends_ite | with_reducible exact hs | with_reducible exact hL
    | exact parts_sub hL (by decide) | with_reducible apply moves_advanceTo | with_reducible apply moves_setReg
    | with_reducible apply moves_updPair | dsimp only | split

theorem ends_execSlotStateStreamReceived {s : State} (hL : ∀ p ∈ [Part.pair, .loop], p ∈ L) (slot : Byte) (states : List Dword) : Ends L s
    (execSlotStateStreamReceived slot states s) := by
  have hs := Moves.refl L s
  unfold execSlotStateStreamReceived
  repeat' first
    | with_reducible apply ends_next | with_reducible apply ends_ite | with_reducible exact hs | with_reducible rfl
    | with_reducible exact Or.inl rfl | with_reducible exact Or.inl ⟨rfl, rfl⟩ | exact Or.inr (hL _ (by decide)) | with_reducible exact hL
    | exact parts_sub hL (by decide) | with_reducible apply moves_updPair | dsimp only | split
    | fail_if_no_progress with_reducible apply moves_record

end Sys2Proof.Machine
end

