-- ==== Sys2Proof/Laws/PerInstr.lean ====
section
/-!
SUPPORT. Facts about the commands as syntax, one lemma per constructor.
-/

/-- No command's frame lists the queue of waiting commands: the step alone takes commands from it. -/
def Sys2Proof.Laws.QueueKept.Statement (c : Sys2Proof.Instr) : Prop := (Sys2Proof.Machine.touches c).contains .pending = false

namespace Sys2Proof.Laws.QueueKept

theorem powerOnStart : ∀ x0, Statement (.powerOnStart x0) := fun _ => rfl
theorem warmRestart : ∀ x0, Statement (.warmRestart x0) := fun _ => rfl
theorem autoRunRequest : Statement .autoRunRequest := rfl
theorem powerApplied : ∀ x0, Statement (.powerApplied x0) := fun _ => rfl
theorem startDelayExpiry : Statement .startDelayExpiry := rfl
theorem holdupBankCharged : Statement .holdupBankCharged := rfl
theorem resetRelease : Statement .resetRelease := rfl
theorem lampTestEnd : Statement .lampTestEnd := rfl
theorem startupTestComplete : ∀ x0, Statement (.startupTestComplete x0) := fun _ => rfl
theorem inputLowWarning : ∀ x0, Statement (.inputLowWarning x0) := fun _ => rfl
theorem overvoltage : Statement .overvoltage := rfl
theorem brownout : Statement .brownout := rfl
theorem powerLossDetected : Statement .powerLossDetected := rfl
theorem powerLossTick : Statement .powerLossTick := rfl
theorem retentiveCommitComplete : ∀ x0 x1, Statement (.retentiveCommitComplete x0 x1) := fun _ _ => rfl
theorem powerLossSequenceEnd : ∀ x0, Statement (.powerLossSequenceEnd x0) := fun _ => rfl
theorem railFault : ∀ x0, Statement (.railFault x0) := fun _ => rfl
theorem holdupMeasurementStart : Statement .holdupMeasurementStart := rfl
theorem powerHuMeas : ∀ x0 x1, Statement (.powerHuMeas x0 x1) := fun _ _ => rfl
theorem holdupMeasurementEnd : ∀ x0, Statement (.holdupMeasurementEnd x0) := fun _ => rfl
theorem cellTest : ∀ x0 x1, Statement (.cellTest x0 x1) := fun _ _ => rfl
theorem drawerClosed : ∀ x0 x1, Statement (.drawerClosed x0 x1) := fun _ _ => rfl
theorem tamperOpening : Statement .tamperOpening := rfl
theorem liningTamperAck : ∀ x0 x1, Statement (.liningTamperAck x0 x1) := fun _ _ => rfl
theorem liningBootCfg : ∀ x0 x1, Statement (.liningBootCfg x0 x1) := fun _ _ => rfl
theorem liningMirror : Statement .liningMirror := rfl
theorem rtcWrite : Statement .rtcWrite := rfl
theorem ppsEdge : ∀ x0, Statement (.ppsEdge x0) := fun _ => rfl
theorem todMessage : ∀ x0 x1, Statement (.todMessage x0 x1) := fun _ _ => rfl
theorem irigFrame : ∀ x0 x1, Statement (.irigFrame x0 x1) := fun _ _ => rfl
theorem referenceSecondCheck : ∀ x0, Statement (.referenceSecondCheck x0) := fun _ => rfl
theorem servoUpdate : ∀ x0, Statement (.servoUpdate x0) := fun _ => rfl
theorem referenceQualified : ∀ x0, Statement (.referenceQualified x0) := fun _ => rfl
theorem referenceLost : ∀ x0 x1, Statement (.referenceLost x0 x1) := fun _ _ => rfl
theorem waitToRestoreExpiry : Statement .waitToRestoreExpiry := rfl
theorem lockAchieved : Statement .lockAchieved := rfl
theorem jumpDetected : ∀ x0, Statement (.jumpDetected x0) := fun _ => rfl
theorem jumpConfirmationExpiry : Statement .jumpConfirmationExpiry := rfl
theorem holdoverEstimate : Statement .holdoverEstimate := rfl
theorem timeStep : Statement .timeStep := rfl
theorem tbRestep : ∀ x0 x1, Statement (.tbRestep x0 x1) := fun _ _ => rfl
theorem leapAnnounceStart : Statement .leapAnnounceStart := rfl
theorem leapSecondApply : Statement .leapSecondApply := rfl
theorem pairAlignmentExchange : ∀ x0 x1 x2 x3, Statement (.pairAlignmentExchange x0 x1 x2 x3) := fun _ _ _ _ => rfl
theorem pairAlignmentLost : Statement .pairAlignmentLost := rfl
theorem tbTimeSecHiRead : ∀ x0, Statement (.tbTimeSecHiRead x0) := fun _ => rfl
theorem tbCapArm : ∀ x0 x1 x2, Statement (.tbCapArm x0 x1 x2) := fun _ _ _ => rfl
theorem tbCapture : ∀ x0, Statement (.tbCapture x0) := fun _ => rfl
theorem ptpAnnounceReceived : ∀ x0 x1, Statement (.ptpAnnounceReceived x0 x1) := fun _ _ => rfl
theorem ptpSyncReceived : ∀ x0 x1, Statement (.ptpSyncReceived x0 x1) := fun _ _ => rfl
theorem ptpFollowUpReceived : ∀ x0 x1 x2, Statement (.ptpFollowUpReceived x0 x1 x2) := fun _ _ _ => rfl
theorem ptpPdelayReqReceived : ∀ x0 x1, Statement (.ptpPdelayReqReceived x0 x1) := fun _ _ => rfl
theorem ptpPdelayRespReceived : ∀ x0 x1 x2, Statement (.ptpPdelayRespReceived x0 x1 x2) := fun _ _ _ => rfl
theorem ptpPdelayReqSend : ∀ x0, Statement (.ptpPdelayReqSend x0) := fun _ => rfl
theorem announceReceiptTimeout : ∀ x0 x1, Statement (.announceReceiptTimeout x0 x1) := fun _ _ => rfl
theorem syncReceiptTimeout : ∀ x0, Statement (.syncReceiptTimeout x0) := fun _ => rfl
theorem ptpAnnounceSend : ∀ x0, Statement (.ptpAnnounceSend x0) := fun _ => rfl
theorem ptpSyncSend : ∀ x0 x1, Statement (.ptpSyncSend x0 x1) := fun _ _ => rfl
theorem ptpConfigEffect : Statement .ptpConfigEffect := rfl
theorem frameTick : ∀ x0, Statement (.frameTick x0) := fun _ => rfl
theorem seamProposalReceived : ∀ x0 x1 x2, Statement (.seamProposalReceived x0 x1 x2) := fun _ _ _ => rfl
theorem seamDeadline : Statement .seamDeadline := rfl
theorem computeWindowOpen : Statement .computeWindowOpen := rfl
theorem taskInstanceComplete : ∀ x0 x1, Statement (.taskInstanceComplete x0 x1) := fun _ _ => rfl
theorem eTaskReleaseEvent : ∀ x0 x1, Statement (.eTaskReleaseEvent x0 x1) := fun _ _ => rfl
theorem budgetStop : ∀ x0, Statement (.budgetStop x0) := fun _ => rfl
theorem computeWindowClose : Statement .computeWindowClose := rfl
theorem outputCommit : ∀ x0 x1, Statement (.outputCommit x0 x1) := fun _ _ => rfl
theorem backgroundLaneTest : ∀ x0, Statement (.backgroundLaneTest x0) := fun _ => rfl
theorem heartbeatReceived : ∀ x0 x1, Statement (.heartbeatReceived x0 x1) := fun _ _ => rfl
theorem heartbeatDeadline : Statement .heartbeatDeadline := rfl
theorem standbyQspSend : Statement .standbyQspSend := rfl
theorem safetyReadback : ∀ x0, Statement (.safetyReadback x0) := fun _ => rfl
theorem pulseToggleReceived : ∀ x0, Statement (.pulseToggleReceived x0) := fun _ => rfl
theorem pulseWindowExpiry : Statement .pulseWindowExpiry := rfl
theorem overrunWindowExpiry : Statement .overrunWindowExpiry := rfl
theorem runtimeFatalFault : Statement .runtimeFatalFault := rfl
theorem imageIntegrityFailure : Statement .imageIntegrityFailure := rfl
theorem runTick : Statement .runTick := rfl
theorem runTickConfirmDeadline : Statement .runTickConfirmDeadline := rfl
theorem tackDueHardware : Statement .tackDueHardware := rfl
theorem passedCommand : ∀ x0, Statement (.passedCommand x0) := fun _ => rfl
theorem passedCommandConfirmation : ∀ x0, Statement (.passedCommandConfirmation x0) := fun _ => rfl
theorem applicationTick : Statement .applicationTick := rfl
theorem applicationConfirmDeadline : Statement .applicationConfirmDeadline := rfl
theorem comparatorMismatch : ∀ x0, Statement (.comparatorMismatch x0) := fun _ => rfl
theorem comparatorFaultToOut : Statement .comparatorFaultToOut := rfl
theorem autoRestart : ∀ x0, Statement (.autoRestart x0) := fun _ => rfl
theorem lockTestRun : ∀ x0 x1, Statement (.lockTestRun x0 x1) := fun _ _ => rfl
theorem lockClearLockout : ∀ x0 x1, Statement (.lockClearLockout x0 x1) := fun _ _ => rfl
theorem lockClearStats : ∀ x0 x1, Statement (.lockClearStats x0 x1) := fun _ _ => rfl
theorem holdExitRestore : ∀ x0, Statement (.holdExitRestore x0) := fun _ => rfl
theorem debugRequest : ∀ x0, Statement (.debugRequest x0) := fun _ => rfl
theorem claimRefresh : Statement .claimRefresh := rfl
theorem claimDecay : Statement .claimDecay := rfl
theorem grantGained : ∀ x0 x1 x2, Statement (.grantGained x0 x1 x2) := fun _ _ _ => rfl
theorem grantLost : ∀ x0, Statement (.grantLost x0) := fun _ => rfl
theorem shareWindowEnd : ∀ x0 x1, Statement (.shareWindowEnd x0 x1) := fun _ _ => rfl
theorem takeoverLineAsserted : Statement .takeoverLineAsserted := rfl
theorem unheldStateEntry : Statement .unheldStateEntry := rfl
theorem soloWaitExpiry : Statement .soloWaitExpiry := rfl
theorem selfCheckDecision : Statement .selfCheckDecision := rfl
theorem handoverConfirmDeadline : Statement .handoverConfirmDeadline := rfl
theorem handoverTick : Statement .handoverTick := rfl
theorem leverOpened : Statement .leverOpened := rfl
theorem leverClosed : Statement .leverClosed := rfl
theorem leverHandoverRetry : Statement .leverHandoverRetry := rfl
theorem trackingPhaseComplete : ∀ x0, Statement (.trackingPhaseComplete x0) := fun _ => rfl
theorem trackingCopyReceived : ∀ x0, Statement (.trackingCopyReceived x0) := fun _ => rfl
theorem writeMirrorReceived : ∀ x0 x1 x2, Statement (.writeMirrorReceived x0 x1 x2) := fun _ _ _ => rfl
theorem joinTick : ∀ x0, Statement (.joinTick x0) := fun _ => rfl
theorem slotStateStreamReceived : ∀ x0 x1, Statement (.slotStateStreamReceived x0 x1) := fun _ _ => rfl
theorem laneFailure : ∀ x0, Statement (.laneFailure x0) := fun _ => rfl
theorem laneRestored : ∀ x0, Statement (.laneRestored x0) := fun _ => rfl
theorem inputCutoff : Statement .inputCutoff := rfl
theorem receiptListReceived : ∀ x0, Statement (.receiptListReceived x0) := fun _ => rfl
theorem stationFrameCopyReceived : ∀ x0, Statement (.stationFrameCopyReceived x0) := fun _ => rfl
theorem settledSetFormed : Statement .settledSetFormed := rfl
theorem imageVerifyComplete : ∀ x0, Statement (.imageVerifyComplete x0) := fun _ => rfl
theorem admissionComplete : ∀ x0, Statement (.admissionComplete x0) := fun _ => rfl
theorem switchPrepared : Statement .switchPrepared := rfl
theorem switchTickConfirmDeadline : Statement .switchTickConfirmDeadline := rfl
theorem switchFlip : ∀ x0 x1, Statement (.switchFlip x0 x1) := fun _ _ => rfl
theorem switchOutcome : ∀ x0 x1, Statement (.switchOutcome x0 x1) := fun _ _ => rfl
theorem calibrationUpdate : ∀ x0, Statement (.calibrationUpdate x0) := fun _ => rfl
theorem rawRingReallocate : Statement .rawRingReallocate := rfl
theorem rangeChangeEffect : ∀ x0, Statement (.rangeChangeEffect x0) := fun _ => rfl
theorem settlingEnd : ∀ x0, Statement (.settlingEnd x0) := fun _ => rfl
theorem cycleZeroCrossing : ∀ x0, Statement (.cycleZeroCrossing x0) := fun _ => rfl
theorem cycleNoCrossing : ∀ x0, Statement (.cycleNoCrossing x0) := fun _ => rfl
theorem phaEntryComplete : ∀ x0, Statement (.phaEntryComplete x0) := fun _ => rfl
theorem tweFiring : ∀ x0 x1, Statement (.tweFiring x0 x1) := fun _ _ => rfl
theorem pmuDataFrameSend : ∀ x0, Statement (.pmuDataFrameSend x0) := fun _ => rfl
theorem pmuCommandReceived : ∀ x0 x1 x2, Statement (.pmuCommandReceived x0 x1 x2) := fun _ _ _ => rfl
theorem pmuTcpConnect : ∀ x0, Statement (.pmuTcpConnect x0) := fun _ => rfl
theorem pmuTcpDisconnect : ∀ x0, Statement (.pmuTcpDisconnect x0) := fun _ => rfl
theorem pmuCfgFlagExpiry : ∀ x0, Statement (.pmuCfgFlagExpiry x0) := fun _ => rfl
theorem acqPmuSel : ∀ x0 x1, Statement (.acqPmuSel x0 x1) := fun _ _ => rfl
theorem acqPmuCommit : ∀ x0 x1, Statement (.acqPmuCommit x0 x1) := fun _ _ => rfl
theorem acqSvSel : ∀ x0 x1, Statement (.acqSvSel x0 x1) := fun _ _ => rfl
theorem acqSvCommit : ∀ x0 x1, Statement (.acqSvCommit x0 x1) := fun _ _ => rfl
theorem acqCfgWrite : ∀ x0 x1, Statement (.acqCfgWrite x0 x1) := fun _ _ => rfl
theorem acqClear : ∀ x0 x1, Statement (.acqClear x0 x1) := fun _ _ => rfl
theorem svFrameReceived : ∀ x0, Statement (.svFrameReceived x0) := fun _ => rfl
theorem svStreamTimeout : ∀ x0, Statement (.svStreamTimeout x0) := fun _ => rfl
theorem achTweSel : ∀ x0 x1 x2, Statement (.achTweSel x0 x1 x2) := fun _ _ _ => rfl
theorem achCycSel : ∀ x0 x1 x2, Statement (.achCycSel x0 x1 x2) := fun _ _ _ => rfl
theorem achPhaSel : ∀ x0 x1 x2, Statement (.achPhaSel x0 x1 x2) := fun _ _ _ => rfl
theorem achClear : ∀ x0 x1 x2, Statement (.achClear x0 x1 x2) := fun _ _ _ => rfl
theorem trgUCfg : ∀ x0 x1 x2, Statement (.trgUCfg x0 x1 x2) := fun _ _ _ => rfl
theorem triggerUnitEvent : ∀ x0 x1, Statement (.triggerUnitEvent x0 x1) := fun _ _ => rfl
theorem triggerUnitTimeout : ∀ x0 x1, Statement (.triggerUnitTimeout x0 x1) := fun _ _ => rfl
theorem stretchExpiry : ∀ x0, Statement (.stretchExpiry x0) := fun _ => rfl
theorem patternArmExpiry : ∀ x0, Statement (.patternArmExpiry x0) := fun _ => rfl
theorem patternHoldoffExpiry : ∀ x0, Statement (.patternHoldoffExpiry x0) := fun _ => rfl
theorem partnerSourceChange : ∀ x0 x1 x2, Statement (.partnerSourceChange x0 x1 x2) := fun _ _ _ => rfl
theorem partnerSourcesLost : Statement .partnerSourcesLost := rfl
theorem partnerSourcesRestored : ∀ x0, Statement (.partnerSourcesRestored x0) := fun _ => rfl
theorem triggerLinePulseEnd : ∀ x0, Statement (.triggerLinePulseEnd x0) := fun _ => rfl
theorem triggerLineAsserted : ∀ x0 x1, Statement (.triggerLineAsserted x0 x1) := fun _ _ => rfl
theorem trgRecManual : ∀ x0 x1, Statement (.trgRecManual x0 x1) := fun _ _ => rfl
theorem recordWindowEnd : ∀ x0, Statement (.recordWindowEnd x0) := fun _ => rfl
theorem recordCommitted : ∀ x0, Statement (.recordCommitted x0) := fun _ => rfl
theorem trgPatCommit : ∀ x0 x1, Statement (.trgPatCommit x0 x1) := fun _ _ => rfl
theorem trgRecCommit : ∀ x0 x1, Statement (.trgRecCommit x0 x1) := fun _ _ => rfl
theorem trgFlCommit : ∀ x0 x1, Statement (.trgFlCommit x0 x1) := fun _ _ => rfl
theorem trgClear : ∀ x0 x1, Statement (.trgClear x0 x1) := fun _ _ => rfl
theorem tdcEdge : ∀ x0 x1, Statement (.tdcEdge x0 x1) := fun _ _ => rfl
theorem tdcCalibration : ∀ x0, Statement (.tdcCalibration x0) := fun _ => rfl
theorem tdcFifoSecRead : ∀ x0, Statement (.tdcFifoSecRead x0) := fun _ => rfl
theorem tdcFifoFracRead : ∀ x0, Statement (.tdcFifoFracRead x0) := fun _ => rfl
theorem tdcClear : ∀ x0 x1, Statement (.tdcClear x0 x1) := fun _ _ => rfl
theorem twArrivalWaitEnd : ∀ x0, Statement (.twArrivalWaitEnd x0) := fun _ => rfl
theorem faultLocationResult : ∀ x0, Statement (.faultLocationResult x0) := fun _ => rfl
theorem remoteWaitExpiry : ∀ x0, Statement (.remoteWaitExpiry x0) := fun _ => rfl
theorem slotEvaluation : ∀ x0, Statement (.slotEvaluation x0) := fun _ => rfl
theorem asapSlotWrite : ∀ x0, Statement (.asapSlotWrite x0) := fun _ => rfl
theorem fixedPhaseSlotWrite : ∀ x0, Statement (.fixedPhaseSlotWrite x0) := fun _ => rfl
theorem loopSel : ∀ x0 x1, Statement (.loopSel x0 x1) := fun _ _ => rfl
theorem loopCommit : ∀ x0 x1, Statement (.loopCommit x0 x1) := fun _ _ => rfl
theorem loopNdCmd : ∀ x0 x1, Statement (.loopNdCmd x0 x1) := fun _ _ => rfl
theorem notchDesignComplete : Statement .notchDesignComplete := rfl
theorem loopFaultClear : ∀ x0 x1 x2, Statement (.loopFaultClear x0 x1 x2) := fun _ _ _ => rfl
theorem loopClear : ∀ x0 x1, Statement (.loopClear x0 x1) := fun _ _ => rfl
theorem qspInputFrame : ∀ x0 x1, Statement (.qspInputFrame x0 x1) := fun _ _ => rfl
theorem rollCall : ∀ x0 x1, Statement (.rollCall x0 x1) := fun _ _ => rfl
theorem bindCycle : ∀ x0, Statement (.bindCycle x0) := fun _ => rfl
theorem netStCommit : ∀ x0 x1, Statement (.netStCommit x0 x1) := fun _ _ => rfl
theorem stationCommitEffect : Statement .stationCommitEffect := rfl
theorem netGoCommit : ∀ x0 x1, Statement (.netGoCommit x0 x1) := fun _ _ => rfl
theorem gooseRepeat : ∀ x0, Statement (.gooseRepeat x0) := fun _ => rfl
theorem gooseReceived : ∀ x0, Statement (.gooseReceived x0) := fun _ => rfl
theorem gooseTalExpiry : ∀ x0, Statement (.gooseTalExpiry x0) := fun _ => rfl
theorem beaconSend : Statement .beaconSend := rfl
theorem gratuitousArp : Statement .gratuitousArp := rfl
theorem arpRequest : ∀ x0 x1, Statement (.arpRequest x0 x1) := fun _ _ => rfl
theorem icmpEcho : ∀ x0 x1, Statement (.icmpEcho x0 x1) := fun _ _ => rfl
theorem prpFrameReceived : ∀ x0 x1, Statement (.prpFrameReceived x0 x1) := fun _ _ => rfl
theorem prpSupervisionSend : ∀ x0, Statement (.prpSupervisionSend x0) := fun _ => rfl
theorem prpLanTimeout : ∀ x0 x1, Statement (.prpLanTimeout x0 x1) := fun _ _ => rfl
theorem transceiverInserted : ∀ x0 x1, Statement (.transceiverInserted x0 x1) := fun _ _ => rfl
theorem portLinkChange : ∀ x0 x1 x2, Statement (.portLinkChange x0 x1 x2) := fun _ _ _ => rfl
theorem netClear : ∀ x0 x1, Statement (.netClear x0 x1) := fun _ _ => rfl
theorem prpClear : ∀ x0 x1, Statement (.prpClear x0 x1) := fun _ _ => rfl
theorem hello : ∀ x0 x1, Statement (.hello x0 x1) := fun _ _ => rfl
theorem beacon : Statement .beacon := rfl
theorem sessionOpen : ∀ x0 x1 x2 x3 x4, Statement (.sessionOpen x0 x1 x2 x3 x4) := fun _ _ _ _ _ => rfl
theorem sessionConfirm : ∀ x0 x1, Statement (.sessionConfirm x0 x1) := fun _ _ => rfl
theorem sessionClose : ∀ x0, Statement (.sessionClose x0) := fun _ => rfl
theorem ping : ∀ x0 x1, Statement (.ping x0 x1) := fun _ _ => rfl
theorem qcpStats : ∀ x0, Statement (.qcpStats x0) := fun _ => rfl
theorem noticeAck : ∀ x0 x1, Statement (.noticeAck x0 x1) := fun _ _ => rfl
theorem restart : ∀ x0 x1, Statement (.restart x0 x1) := fun _ _ => rfl
theorem regRead : ∀ x0 x1 x2, Statement (.regRead x0 x1 x2) := fun _ _ _ => rfl
theorem regWrite : ∀ x0 x1 x2 x3 x4, Statement (.regWrite x0 x1 x2 x3 x4) := fun _ _ _ _ _ => rfl
theorem regModify : ∀ x0 x1 x2 x3 x4 x5, Statement (.regModify x0 x1 x2 x3 x4 x5) := fun _ _ _ _ _ _ => rfl
theorem regBlockRead : ∀ x0 x1 x2, Statement (.regBlockRead x0 x1 x2) := fun _ _ _ => rfl
theorem registerWritePlain : ∀ x0 x1 x2, Statement (.registerWritePlain x0 x1 x2) := fun _ _ _ => rfl
theorem imageBegin : ∀ x0 x1 x2, Statement (.imageBegin x0 x1 x2) := fun _ _ _ => rfl
theorem imageChunk : ∀ x0 x1 x2 x3, Statement (.imageChunk x0 x1 x2 x3) := fun _ _ _ _ => rfl
theorem imageCommit : ∀ x0 x1, Statement (.imageCommit x0 x1) := fun _ _ => rfl
theorem imageAdmit : ∀ x0, Statement (.imageAdmit x0) := fun _ => rfl
theorem imageSwitch : ∀ x0 x1, Statement (.imageSwitch x0 x1) := fun _ _ => rfl
theorem imageAbort : ∀ x0 x1, Statement (.imageAbort x0 x1) := fun _ _ => rfl
theorem modeSetRun : ∀ x0, Statement (.modeSetRun x0) := fun _ => rfl
theorem modeSetStop : ∀ x0, Statement (.modeSetStop x0) := fun _ => rfl
theorem modeSetHold : ∀ x0, Statement (.modeSetHold x0) := fun _ => rfl
theorem modeSetSafe : ∀ x0, Statement (.modeSetSafe x0) := fun _ => rfl
theorem roleRequestOut : ∀ x0, Statement (.roleRequestOut x0) := fun _ => rfl
theorem roleRequestInit : ∀ x0, Statement (.roleRequestInit x0) := fun _ => rfl
theorem handover : ∀ x0, Statement (.handover x0) := fun _ => rfl
theorem tackSchedule : ∀ x0 x1 x2, Statement (.tackSchedule x0 x1 x2) := fun _ _ _ => rfl
theorem tackCancel : ∀ x0 x1, Statement (.tackCancel x0 x1) := fun _ _ => rfl
theorem tackList : ∀ x0 x1, Statement (.tackList x0 x1) := fun _ _ => rfl
theorem recList : ∀ x0 x1, Statement (.recList x0 x1) := fun _ _ => rfl
theorem recOpen : ∀ x0 x1 x2 x3 x4, Statement (.recOpen x0 x1 x2 x3 x4) := fun _ _ _ _ _ => rfl
theorem recRead : ∀ x0 x1 x2, Statement (.recRead x0 x1 x2) := fun _ _ _ => rfl
theorem recDelete : ∀ x0 x1, Statement (.recDelete x0 x1) := fun _ _ => rfl
theorem twExchange : ∀ x0 x1, Statement (.twExchange x0 x1) := fun _ _ => rfl
theorem recClose : ∀ x0 x1, Statement (.recClose x0 x1) := fun _ _ => rfl
theorem evrCursorReport : ∀ x0, Statement (.evrCursorReport x0) := fun _ => rfl
theorem evrCursorOldest : ∀ x0, Statement (.evrCursorOldest x0) := fun _ => rfl
theorem evrCursorNewest : ∀ x0, Statement (.evrCursorNewest x0) := fun _ => rfl
theorem evrCursorSet : ∀ x0 x1, Statement (.evrCursorSet x0 x1) := fun _ _ => rfl
theorem evrRead : ∀ x0 x1, Statement (.evrRead x0 x1) := fun _ _ => rfl
theorem evrClear : ∀ x0 x1, Statement (.evrClear x0 x1) := fun _ _ => rfl
theorem updBegin : ∀ x0 x1 x2 x3 x4, Statement (.updBegin x0 x1 x2 x3 x4) := fun _ _ _ _ _ => rfl
theorem updChunk : ∀ x0 x1 x2 x3, Statement (.updChunk x0 x1 x2 x3) := fun _ _ _ _ => rfl
theorem updVerify : ∀ x0 x1, Statement (.updVerify x0 x1) := fun _ _ => rfl
theorem updVerifyComplete : ∀ x0, Statement (.updVerifyComplete x0) := fun _ => rfl
theorem updApply : ∀ x0 x1 x2, Statement (.updApply x0 x1 x2) := fun _ _ _ => rfl
theorem updApplyComplete : ∀ x0, Statement (.updApplyComplete x0) := fun _ => rfl
theorem updStatus : ∀ x0 x1, Statement (.updStatus x0 x1) := fun _ _ => rfl
theorem settingsImport : ∀ x0 x1, Statement (.settingsImport x0 x1) := fun _ _ => rfl
theorem trialEnd : Statement .trialEnd := rfl
theorem trialFailureRevert : ∀ x0, Statement (.trialFailureRevert x0) := fun _ => rfl
theorem updRevert : ∀ x0 x1, Statement (.updRevert x0 x1) := fun _ _ => rfl
theorem updClear : ∀ x0 x1, Statement (.updClear x0 x1) := fun _ _ => rfl
theorem pointRead : ∀ x0 x1, Statement (.pointRead x0 x1) := fun _ _ => rfl
theorem pointForceSet : ∀ x0 x1 x2 x3, Statement (.pointForceSet x0 x1 x2 x3) := fun _ _ _ _ => rfl
theorem pointRelease : ∀ x0 x1 x2, Statement (.pointRelease x0 x1 x2) := fun _ _ _ => rfl
theorem pointReleaseAll : ∀ x0 x1, Statement (.pointReleaseAll x0 x1) := fun _ _ => rfl
theorem loopWindowRead : ∀ x0 x1 x2 x3, Statement (.loopWindowRead x0 x1 x2 x3) := fun _ _ _ _ => rfl
theorem loopWindowStage : ∀ x0 x1 x2 x3 x4, Statement (.loopWindowStage x0 x1 x2 x3 x4) := fun _ _ _ _ _ => rfl
theorem loopWindowCommit : ∀ x0 x1 x2 x3 x4, Statement (.loopWindowCommit x0 x1 x2 x3 x4) := fun _ _ _ _ _ => rfl
theorem notchDesign : ∀ x0 x1 x2 x3 x4 x5 x6 x7, Statement (.notchDesign x0 x1 x2 x3 x4 x5 x6 x7) := fun _ _ _ _ _ _ _ _ => rfl
theorem keyEnrol : ∀ x0 x1 x2, Statement (.keyEnrol x0 x1 x2) := fun _ _ _ => rfl
theorem keyRevoke : ∀ x0 x1, Statement (.keyRevoke x0 x1) := fun _ _ => rfl
theorem keyLoadDecryption : ∀ x0 x1 x2, Statement (.keyLoadDecryption x0 x1 x2) := fun _ _ _ => rfl
theorem ownerLock : ∀ x0 x1 x2, Statement (.ownerLock x0 x1 x2) := fun _ _ _ => rfl
theorem debugCert : ∀ x0 x1, Statement (.debugCert x0 x1) := fun _ _ => rfl
theorem debugCertEnd : ∀ x0, Statement (.debugCertEnd x0) := fun _ => rfl
theorem debugCertExpiry : Statement .debugCertExpiry := rfl
theorem secFuseCmd : ∀ x0 x1, Statement (.secFuseCmd x0 x1) := fun _ _ => rfl
theorem sessionIdleTimeout : ∀ x0, Statement (.sessionIdleTimeout x0) := fun _ => rfl
theorem sessionLifetimeExpiry : ∀ x0, Statement (.sessionLifetimeExpiry x0) := fun _ => rfl
theorem sessionConfirmTimeout : ∀ x0, Statement (.sessionConfirmTimeout x0) := fun _ => rfl
theorem macFailureLimit : ∀ x0, Statement (.macFailureLimit x0) := fun _ => rfl
theorem noticeResend : ∀ x0 x1, Statement (.noticeResend x0 x1) := fun _ _ => rfl
theorem relayReply : ∀ x0 x1 x2 x3 x4 x5 x6, Statement (.relayReply x0 x1 x2 x3 x4 x5 x6) := fun _ _ _ _ _ _ _ => rfl
theorem relayTimeout : ∀ x0 x1, Statement (.relayTimeout x0 x1) := fun _ _ => rfl
theorem handleIdleTimeout : ∀ x0, Statement (.handleIdleTimeout x0) := fun _ => rfl
theorem windowClaimTimeout : ∀ x0, Statement (.windowClaimTimeout x0) := fun _ => rfl
theorem dioRawEdge : ∀ x0 x1 x2, Statement (.dioRawEdge x0 x1 x2) := fun _ _ _ => rfl
theorem readbackDelayTimeout : ∀ x0, Statement (.readbackDelayTimeout x0) := fun _ => rfl
theorem debounceAccept : ∀ x0, Statement (.debounceAccept x0) := fun _ => rfl
theorem debounceDiscard : ∀ x0, Statement (.debounceDiscard x0) := fun _ => rfl
theorem overloadDetect : ∀ x0, Statement (.overloadDetect x0) := fun _ => rfl
theorem thermalShutdown : ∀ x0, Statement (.thermalShutdown x0) := fun _ => rfl
theorem thermalRestart : ∀ x0, Statement (.thermalRestart x0) := fun _ => rfl
theorem openLoadDetect : ∀ x0, Statement (.openLoadDetect x0) := fun _ => rfl
theorem groupOverTrip : ∀ x0 x1, Statement (.groupOverTrip x0 x1) := fun _ _ => rfl
theorem groupOverRetry : ∀ x0, Statement (.groupOverRetry x0) := fun _ => rfl
theorem dioFaultClear : ∀ x0 x1, Statement (.dioFaultClear x0 x1) := fun _ _ => rfl
theorem supplyWarn : ∀ x0 x1, Statement (.supplyWarn x0 x1) := fun _ _ => rfl
theorem supplyWarnClear : ∀ x0 x1, Statement (.supplyWarnClear x0 x1) := fun _ _ => rfl
theorem supplyLow : ∀ x0 x1, Statement (.supplyLow x0 x1) := fun _ _ => rfl
theorem supplyRecovered : ∀ x0 x1, Statement (.supplyRecovered x0 x1) := fun _ _ => rfl
theorem dioClearGroup : ∀ x0 x1, Statement (.dioClearGroup x0 x1) := fun _ _ => rfl
theorem dioClearCounters : ∀ x0 x1, Statement (.dioClearCounters x0 x1) := fun _ _ => rfl
theorem aoConverterUpdate : ∀ x0, Statement (.aoConverterUpdate x0) := fun _ => rfl
theorem complianceDetect : ∀ x0 x1, Statement (.complianceDetect x0 x1) := fun _ _ => rfl
theorem complianceRetry : ∀ x0, Statement (.complianceRetry x0) := fun _ => rfl
theorem complianceRetryEnd : ∀ x0 x1, Statement (.complianceRetryEnd x0 x1) := fun _ _ => rfl
theorem complianceClear : ∀ x0 x1, Statement (.complianceClear x0 x1) := fun _ _ => rfl
theorem miswireDetect : ∀ x0 x1, Statement (.miswireDetect x0 x1) := fun _ _ => rfl
theorem miswireClear : ∀ x0 x1, Statement (.miswireClear x0 x1) := fun _ _ => rfl
theorem aoThermalFoldback : ∀ x0 x1 x2, Statement (.aoThermalFoldback x0 x1 x2) := fun _ _ _ => rfl
theorem senseFault : ∀ x0 x1, Statement (.senseFault x0 x1) := fun _ _ => rfl
theorem supplyFault : ∀ x0 x1, Statement (.supplyFault x0 x1) := fun _ _ => rfl
theorem aoClear : ∀ x0 x1, Statement (.aoClear x0 x1) := fun _ _ => rfl
theorem hartScanPoll : ∀ x0, Statement (.hartScanPoll x0) := fun _ => rfl
theorem hartTransactionComplete : ∀ x0 x1, Statement (.hartTransactionComplete x0 x1) := fun _ _ => rfl
theorem hartTransactionFailed : ∀ x0, Statement (.hartTransactionFailed x0) := fun _ => rfl
theorem hartFrameReceived : ∀ x0 x1, Statement (.hartFrameReceived x0 x1) := fun _ _ => rfl
theorem hartWinGo : ∀ x0 x1, Statement (.hartWinGo x0 x1) := fun _ _ => rfl
theorem hartClear : ∀ x0 x1, Statement (.hartClear x0 x1) := fun _ _ => rfl
theorem canFrameReceived : ∀ x0 x1 x2, Statement (.canFrameReceived x0 x1 x2) := fun _ _ _ => rfl
theorem canFrameTransmitted : ∀ x0 x1 x2, Statement (.canFrameTransmitted x0 x1 x2) := fun _ _ _ => rfl
theorem canErrorStateChange : ∀ x0 x1, Statement (.canErrorStateChange x0 x1) := fun _ _ => rfl
theorem canBusOffRecovered : ∀ x0, Statement (.canBusOffRecovered x0) := fun _ => rfl
theorem canBoRecover : ∀ x0 x1 x2, Statement (.canBoRecover x0 x1 x2) := fun _ _ _ => rfl
theorem canTxSend : ∀ x0 x1 x2, Statement (.canTxSend x0 x1 x2) := fun _ _ _ => rfl
theorem canTxAbort : ∀ x0 x1 x2 x3, Statement (.canTxAbort x0 x1 x2 x3) := fun _ _ _ _ => rfl
theorem canBufSel : ∀ x0 x1 x2, Statement (.canBufSel x0 x1 x2) := fun _ _ _ => rfl
theorem canBufWindowRead : ∀ x0 x1 x2, Statement (.canBufWindowRead x0 x1 x2) := fun _ _ _ => rfl
theorem canBufWord21Read : ∀ x0 x1, Statement (.canBufWord21Read x0 x1) := fun _ _ => rfl
theorem canLockTimeout : ∀ x0, Statement (.canLockTimeout x0) := fun _ => rfl
theorem canBufCommit : ∀ x0 x1 x2, Statement (.canBufCommit x0 x1 x2) := fun _ _ _ => rfl
theorem canAutobaudNominalDetected : ∀ x0 x1, Statement (.canAutobaudNominalDetected x0 x1) := fun _ _ => rfl
theorem canAutobaudDataDetected : ∀ x0 x1, Statement (.canAutobaudDataDetected x0 x1) := fun _ _ => rfl
theorem canAutobaudTimeout : ∀ x0, Statement (.canAutobaudTimeout x0) := fun _ => rfl
theorem canIntegrationComplete : ∀ x0, Statement (.canIntegrationComplete x0) := fun _ => rfl
theorem canClear : ∀ x0 x1 x2, Statement (.canClear x0 x1 x2) := fun _ _ _ => rfl
theorem collarFault : ∀ x0, Statement (.collarFault x0) := fun _ => rfl
theorem collarCommit : ∀ x0 x1, Statement (.collarCommit x0 x1) := fun _ _ => rfl
theorem collarFence : ∀ x0 x1, Statement (.collarFence x0 x1) := fun _ _ => rfl
theorem fenceComplete : ∀ x0, Statement (.fenceComplete x0) := fun _ => rfl
theorem fenceTimeout : Statement .fenceTimeout := rfl
theorem collarClear : ∀ x0 x1, Statement (.collarClear x0 x1) := fun _ _ => rfl
theorem dmaChArm : ∀ x0 x1 x2, Statement (.dmaChArm x0 x1 x2) := fun _ _ _ => rfl
theorem dmaTransferComplete : ∀ x0, Statement (.dmaTransferComplete x0) := fun _ => rfl
theorem dmaBlockBoundary : ∀ x0, Statement (.dmaBlockBoundary x0) := fun _ => rfl
theorem dmaBusError : ∀ x0, Statement (.dmaBusError x0) := fun _ => rfl
theorem dmaDrained : Statement .dmaDrained := rfl
theorem dmaRecover : ∀ x0 x1, Statement (.dmaRecover x0 x1) := fun _ _ => rfl
theorem dmaAutoRecover : Statement .dmaAutoRecover := rfl
theorem dmaAbortCmd : ∀ x0 x1, Statement (.dmaAbortCmd x0 x1) := fun _ _ => rfl
theorem dmaClear : ∀ x0 x1, Statement (.dmaClear x0 x1) := fun _ _ => rfl
theorem cuffTimeout : ∀ x0 x1, Statement (.cuffTimeout x0 x1) := fun _ _ => rfl
theorem cuffSideReset : ∀ x0 x1 x2, Statement (.cuffSideReset x0 x1 x2) := fun _ _ _ => rfl
theorem cuffSideRunning : ∀ x0 x1, Statement (.cuffSideRunning x0 x1) := fun _ _ => rfl
theorem cuffClear : ∀ x0 x1, Statement (.cuffClear x0 x1) := fun _ _ => rfl
theorem eventRaised : ∀ x0 x1, Statement (.eventRaised x0 x1) := fun _ _ => rfl
theorem eventRecorded : Statement .eventRecorded := rfl
theorem intakeOverflowReport : Statement .intakeOverflowReport := rfl
theorem partnerRecordReceived : ∀ x0, Statement (.partnerRecordReceived x0) := fun _ => rfl
theorem evrCursorWrite : ∀ x0 x1, Statement (.evrCursorWrite x0 x1) := fun _ _ => rfl
theorem evrWinDataRead : ∀ x0, Statement (.evrWinDataRead x0) := fun _ => rfl
theorem evrSnapCommit : ∀ x0 x1, Statement (.evrSnapCommit x0 x1) := fun _ _ => rfl
theorem evrFatalAck : ∀ x0 x1, Statement (.evrFatalAck x0 x1) := fun _ _ => rfl
theorem evrClearAlarms : ∀ x0 x1, Statement (.evrClearAlarms x0 x1) := fun _ _ => rfl
theorem idLocate : ∀ x0 x1, Statement (.idLocate x0 x1) := fun _ _ => rfl
theorem locateEnd : Statement .locateEnd := rfl
theorem pairIdSet : ∀ x0 x1, Statement (.pairIdSet x0 x1) := fun _ _ => rfl
theorem pairIdAdopt : ∀ x0 x1, Statement (.pairIdAdopt x0 x1) := fun _ _ => rfl
theorem pairClear : ∀ x0 x1, Statement (.pairClear x0 x1) := fun _ _ => rfl
theorem frameClearTaskStats : ∀ x0 x1, Statement (.frameClearTaskStats x0 x1) := fun _ _ => rfl
theorem frameClearStats : ∀ x0 x1, Statement (.frameClearStats x0 x1) := fun _ _ => rfl
theorem frameTackClear : ∀ x0 x1, Statement (.frameTackClear x0 x1) := fun _ _ => rfl
theorem imgClear : ∀ x0 x1, Statement (.imgClear x0 x1) := fun _ _ => rfl
theorem trefRefClear : ∀ x0 x1 x2, Statement (.trefRefClear x0 x1 x2) := fun _ _ _ => rfl
theorem ptpPortClear : ∀ x0 x1 x2, Statement (.ptpPortClear x0 x1 x2) := fun _ _ _ => rfl
theorem ptpCountClear : ∀ x0 x1, Statement (.ptpCountClear x0 x1) := fun _ _ => rfl
theorem powerClear : ∀ x0 x1, Statement (.powerClear x0 x1) := fun _ _ => rfl
theorem partnerPresenceChange : ∀ x0, Statement (.partnerPresenceChange x0) := fun _ => rfl
theorem channelFaultCleared : ∀ x0 x1 x2, Statement (.channelFaultCleared x0 x1 x2) := fun _ _ _ => rfl
theorem inputHighWarning : ∀ x0, Statement (.inputHighWarning x0) := fun _ => rfl
theorem transceiverRemoved : ∀ x0, Statement (.transceiverRemoved x0) := fun _ => rfl
theorem drawerOpened : Statement .drawerOpened := rfl
theorem ovenWarmUpEnd : Statement .ovenWarmUpEnd := rfl
theorem memoryError : Statement .memoryError := rfl
theorem malformedPacket : ∀ x0 x1 x2 x3, Statement (.malformedPacket x0 x1 x2 x3) := fun _ _ _ _ => rfl

end Sys2Proof.Laws.QueueKept
end

