-- ==== Sys2Proof/Laws/Requests.lean ====
section
/-!
SUPPORT. One lemma per field of State and per operation of the protocol, and what an admitted request does (Table QP-4).
-/

namespace Sys2Proof.Machine

variable (s : State)

/-! ### letIn -/

@[simp] theorem letIn_regs (p : Pkt) : (s.letIn p).regs = s.regs := sameOutside_letIn s p .regs (by decide)
@[simp] theorem letIn_wins (p : Pkt) : (s.letIn p).wins = s.wins := sameOutside_letIn s p .wins (by decide)
@[simp] theorem letIn_staged (p : Pkt) : (s.letIn p).staged = s.staged := sameOutside_letIn s p .staged (by decide)
@[simp] theorem letIn_role (p : Pkt) : (s.letIn p).role = s.role := sameOutside_letIn s p .role (by decide)
@[simp] theorem letIn_mode (p : Pkt) : (s.letIn p).mode = s.mode := sameOutside_letIn s p .mode (by decide)
@[simp] theorem letIn_tb (p : Pkt) : (s.letIn p).tb = s.tb := sameOutside_letIn s p .tb (by decide)
@[simp] theorem letIn_ptp (p : Pkt) : (s.letIn p).ptp = s.ptp := sameOutside_letIn s p .ptp (by decide)
@[simp] theorem letIn_frame (p : Pkt) : (s.letIn p).frame = s.frame := sameOutside_letIn s p .frame (by decide)
@[simp] theorem letIn_pair (p : Pkt) : (s.letIn p).pair = s.pair := sameOutside_letIn s p .pair (by decide)
@[simp] theorem letIn_lock (p : Pkt) : (s.letIn p).lock = s.lock := sameOutside_letIn s p .lock (by decide)
@[simp] theorem letIn_loop (p : Pkt) : (s.letIn p).loop = s.loop := sameOutside_letIn s p .loop (by decide)
@[simp] theorem letIn_acq (p : Pkt) : (s.letIn p).acq = s.acq := sameOutside_letIn s p .acq (by decide)
@[simp] theorem letIn_trg (p : Pkt) : (s.letIn p).trg = s.trg := sameOutside_letIn s p .trg (by decide)
@[simp] theorem letIn_io (p : Pkt) : (s.letIn p).io = s.io := sameOutside_letIn s p .io (by decide)
@[simp] theorem letIn_net (p : Pkt) : (s.letIn p).net = s.net := sameOutside_letIn s p .net (by decide)
@[simp] theorem letIn_can0 (p : Pkt) : (s.letIn p).can0 = s.can0 := sameOutside_letIn s p .can0 (by decide)
@[simp] theorem letIn_can1 (p : Pkt) : (s.letIn p).can1 = s.can1 := sameOutside_letIn s p .can1 (by decide)
@[simp] theorem letIn_evr (p : Pkt) : (s.letIn p).evr = s.evr := sameOutside_letIn s p .evr (by decide)
@[simp] theorem letIn_trust (p : Pkt) : (s.letIn p).trust = s.trust := sameOutside_letIn s p .trust (by decide)
@[simp] theorem letIn_fab (p : Pkt) : (s.letIn p).fab = s.fab := sameOutside_letIn s p .fab (by decide)
@[simp] theorem letIn_power (p : Pkt) : (s.letIn p).power = s.power := sameOutside_letIn s p .power (by decide)
@[simp] theorem letIn_sent (p : Pkt) : (s.letIn p).sent = s.sent := sameOutside_letIn s p .sent (by decide)
@[simp] theorem letIn_freeCtr (p : Pkt) : (s.letIn p).freeCtr = s.freeCtr := sameOutside_letIn s p .freeCtr (by decide)
@[simp] theorem letIn_pending (p : Pkt) : (s.letIn p).pending = s.pending := sameOutside_letIn s p .pending (by decide)
@[simp] theorem letIn_reg (p : Pkt) (a : Nat) : (s.letIn p).reg a = s.reg a := reg_congr (letIn_regs ..) a
@[simp] theorem letIn_regBit (p : Pkt) (a i : Nat) : (s.letIn p).regBit a i = s.regBit a i := congrArg (fun w => bit w i) (letIn_reg ..)
@[simp] theorem letIn_regFld (p : Pkt) (a i j : Nat) : (s.letIn p).regFld a i j = s.regFld a i j := congrArg (fun w => fld w i j) (letIn_reg ..)

/-! ### countStatus -/

@[simp] theorem countStatus_regs (st : Status) : (s.countStatus st).regs = s.regs := sameOutside_countStatus s st .regs (by decide)
@[simp] theorem countStatus_wins (st : Status) : (s.countStatus st).wins = s.wins := sameOutside_countStatus s st .wins (by decide)
@[simp] theorem countStatus_staged (st : Status) : (s.countStatus st).staged = s.staged := sameOutside_countStatus s st .staged (by decide)
@[simp] theorem countStatus_role (st : Status) : (s.countStatus st).role = s.role := sameOutside_countStatus s st .role (by decide)
@[simp] theorem countStatus_mode (st : Status) : (s.countStatus st).mode = s.mode := sameOutside_countStatus s st .mode (by decide)
@[simp] theorem countStatus_tb (st : Status) : (s.countStatus st).tb = s.tb := sameOutside_countStatus s st .tb (by decide)
@[simp] theorem countStatus_ptp (st : Status) : (s.countStatus st).ptp = s.ptp := sameOutside_countStatus s st .ptp (by decide)
@[simp] theorem countStatus_frame (st : Status) : (s.countStatus st).frame = s.frame := sameOutside_countStatus s st .frame (by decide)
@[simp] theorem countStatus_pair (st : Status) : (s.countStatus st).pair = s.pair := sameOutside_countStatus s st .pair (by decide)
@[simp] theorem countStatus_lock (st : Status) : (s.countStatus st).lock = s.lock := sameOutside_countStatus s st .lock (by decide)
@[simp] theorem countStatus_loop (st : Status) : (s.countStatus st).loop = s.loop := sameOutside_countStatus s st .loop (by decide)
@[simp] theorem countStatus_acq (st : Status) : (s.countStatus st).acq = s.acq := sameOutside_countStatus s st .acq (by decide)
@[simp] theorem countStatus_trg (st : Status) : (s.countStatus st).trg = s.trg := sameOutside_countStatus s st .trg (by decide)
@[simp] theorem countStatus_io (st : Status) : (s.countStatus st).io = s.io := sameOutside_countStatus s st .io (by decide)
@[simp] theorem countStatus_net (st : Status) : (s.countStatus st).net = s.net := sameOutside_countStatus s st .net (by decide)
@[simp] theorem countStatus_can0 (st : Status) : (s.countStatus st).can0 = s.can0 := sameOutside_countStatus s st .can0 (by decide)
@[simp] theorem countStatus_can1 (st : Status) : (s.countStatus st).can1 = s.can1 := sameOutside_countStatus s st .can1 (by decide)
@[simp] theorem countStatus_evr (st : Status) : (s.countStatus st).evr = s.evr := sameOutside_countStatus s st .evr (by decide)
@[simp] theorem countStatus_trust (st : Status) : (s.countStatus st).trust = s.trust := sameOutside_countStatus s st .trust (by decide)
@[simp] theorem countStatus_fab (st : Status) : (s.countStatus st).fab = s.fab := sameOutside_countStatus s st .fab (by decide)
@[simp] theorem countStatus_power (st : Status) : (s.countStatus st).power = s.power := sameOutside_countStatus s st .power (by decide)
@[simp] theorem countStatus_sent (st : Status) : (s.countStatus st).sent = s.sent := sameOutside_countStatus s st .sent (by decide)
@[simp] theorem countStatus_freeCtr (st : Status) : (s.countStatus st).freeCtr = s.freeCtr := sameOutside_countStatus s st .freeCtr (by decide)
@[simp] theorem countStatus_pending (st : Status) : (s.countStatus st).pending = s.pending := sameOutside_countStatus s st .pending (by decide)
@[simp] theorem countStatus_reg (st : Status) (a : Nat) : (s.countStatus st).reg a = s.reg a := reg_congr (countStatus_regs ..) a
@[simp] theorem countStatus_regBit (st : Status) (a i : Nat) : (s.countStatus st).regBit a i = s.regBit a i := congrArg (fun w => bit w i) (countStatus_reg ..)
@[simp] theorem countStatus_regFld (st : Status) (a i j : Nat) : (s.countStatus st).regFld a i j = s.regFld a i j := congrArg (fun w => fld w i j) (countStatus_reg ..)

/-! ### sendReply -/

@[simp] theorem sendReply_regs (op : Nat) (rq : Requester) (r : Reply) : (s.sendReply op rq r).regs = s.regs := by simp [State.sendReply]
@[simp] theorem sendReply_wins (op : Nat) (rq : Requester) (r : Reply) : (s.sendReply op rq r).wins = s.wins := by simp [State.sendReply]
@[simp] theorem sendReply_staged (op : Nat) (rq : Requester) (r : Reply) : (s.sendReply op rq r).staged = s.staged := by simp [State.sendReply]
@[simp] theorem sendReply_role (op : Nat) (rq : Requester) (r : Reply) : (s.sendReply op rq r).role = s.role := by simp [State.sendReply]
@[simp] theorem sendReply_mode (op : Nat) (rq : Requester) (r : Reply) : (s.sendReply op rq r).mode = s.mode := by simp [State.sendReply]
@[simp] theorem sendReply_tb (op : Nat) (rq : Requester) (r : Reply) : (s.sendReply op rq r).tb = s.tb := by simp [State.sendReply]
@[simp] theorem sendReply_ptp (op : Nat) (rq : Requester) (r : Reply) : (s.sendReply op rq r).ptp = s.ptp := by simp [State.sendReply]
@[simp] theorem sendReply_frame (op : Nat) (rq : Requester) (r : Reply) : (s.sendReply op rq r).frame = s.frame := by simp [State.sendReply]
@[simp] theorem sendReply_pair (op : Nat) (rq : Requester) (r : Reply) : (s.sendReply op rq r).pair = s.pair := by simp [State.sendReply]
@[simp] theorem sendReply_lock (op : Nat) (rq : Requester) (r : Reply) : (s.sendReply op rq r).lock = s.lock := by simp [State.sendReply]
@[simp] theorem sendReply_loop (op : Nat) (rq : Requester) (r : Reply) : (s.sendReply op rq r).loop = s.loop := by simp [State.sendReply]
@[simp] theorem sendReply_acq (op : Nat) (rq : Requester) (r : Reply) : (s.sendReply op rq r).acq = s.acq := by simp [State.sendReply]
@[simp] theorem sendReply_trg (op : Nat) (rq : Requester) (r : Reply) : (s.sendReply op rq r).trg = s.trg := by simp [State.sendReply]
@[simp] theorem sendReply_io (op : Nat) (rq : Requester) (r : Reply) : (s.sendReply op rq r).io = s.io := by simp [State.sendReply]
@[simp] theorem sendReply_net (op : Nat) (rq : Requester) (r : Reply) : (s.sendReply op rq r).net = s.net := by simp [State.sendReply]
@[simp] theorem sendReply_can0 (op : Nat) (rq : Requester) (r : Reply) : (s.sendReply op rq r).can0 = s.can0 := by simp [State.sendReply]
@[simp] theorem sendReply_can1 (op : Nat) (rq : Requester) (r : Reply) : (s.sendReply op rq r).can1 = s.can1 := by simp [State.sendReply]
@[simp] theorem sendReply_evr (op : Nat) (rq : Requester) (r : Reply) : (s.sendReply op rq r).evr = s.evr := by simp [State.sendReply]
@[simp] theorem sendReply_trust (op : Nat) (rq : Requester) (r : Reply) : (s.sendReply op rq r).trust = s.trust := by simp [State.sendReply]
@[simp] theorem sendReply_fab (op : Nat) (rq : Requester) (r : Reply) : (s.sendReply op rq r).fab = s.fab := by simp [State.sendReply]
@[simp] theorem sendReply_power (op : Nat) (rq : Requester) (r : Reply) : (s.sendReply op rq r).power = s.power := by simp [State.sendReply]
@[simp] theorem sendReply_freeCtr (op : Nat) (rq : Requester) (r : Reply) : (s.sendReply op rq r).freeCtr = s.freeCtr := by simp [State.sendReply]
@[simp] theorem sendReply_pending (op : Nat) (rq : Requester) (r : Reply) : (s.sendReply op rq r).pending = s.pending := by simp [State.sendReply]
@[simp] theorem sendReply_reg (op : Nat) (rq : Requester) (r : Reply) (a : Nat) : (s.sendReply op rq r).reg a = s.reg a := reg_congr (sendReply_regs ..) a
@[simp] theorem sendReply_regBit (op : Nat) (rq : Requester) (r : Reply) (a i : Nat) : (s.sendReply op rq r).regBit a i = s.regBit a i := congrArg (fun w => bit w i) (sendReply_reg ..)
@[simp] theorem sendReply_regFld (op : Nat) (rq : Requester) (r : Reply) (a i j : Nat) : (s.sendReply op rq r).regFld a i j = s.regFld a i j := congrArg (fun w => fld w i j) (sendReply_reg ..)

/-! ### answer -/

@[simp] theorem answer_regs (op : Nat) (rq : Requester) (r : Reply) : (s.answer op rq r).regs = s.regs := (sameOutside_answer s op rq r).1 .regs (by decide)
@[simp] theorem answer_wins (op : Nat) (rq : Requester) (r : Reply) : (s.answer op rq r).wins = s.wins := (sameOutside_answer s op rq r).1 .wins (by decide)
@[simp] theorem answer_staged (op : Nat) (rq : Requester) (r : Reply) : (s.answer op rq r).staged = s.staged := (sameOutside_answer s op rq r).1 .staged (by decide)
@[simp] theorem answer_role (op : Nat) (rq : Requester) (r : Reply) : (s.answer op rq r).role = s.role := (sameOutside_answer s op rq r).1 .role (by decide)
@[simp] theorem answer_mode (op : Nat) (rq : Requester) (r : Reply) : (s.answer op rq r).mode = s.mode := (sameOutside_answer s op rq r).1 .mode (by decide)
@[simp] theorem answer_tb (op : Nat) (rq : Requester) (r : Reply) : (s.answer op rq r).tb = s.tb := (sameOutside_answer s op rq r).1 .tb (by decide)
@[simp] theorem answer_ptp (op : Nat) (rq : Requester) (r : Reply) : (s.answer op rq r).ptp = s.ptp := (sameOutside_answer s op rq r).1 .ptp (by decide)
@[simp] theorem answer_frame (op : Nat) (rq : Requester) (r : Reply) : (s.answer op rq r).frame = s.frame := (sameOutside_answer s op rq r).1 .frame (by decide)
@[simp] theorem answer_pair (op : Nat) (rq : Requester) (r : Reply) : (s.answer op rq r).pair = s.pair := (sameOutside_answer s op rq r).1 .pair (by decide)
@[simp] theorem answer_lock (op : Nat) (rq : Requester) (r : Reply) : (s.answer op rq r).lock = s.lock := (sameOutside_answer s op rq r).1 .lock (by decide)
@[simp] theorem answer_loop (op : Nat) (rq : Requester) (r : Reply) : (s.answer op rq r).loop = s.loop := (sameOutside_answer s op rq r).1 .loop (by decide)
@[simp] theorem answer_acq (op : Nat) (rq : Requester) (r : Reply) : (s.answer op rq r).acq = s.acq := (sameOutside_answer s op rq r).1 .acq (by decide)
@[simp] theorem answer_trg (op : Nat) (rq : Requester) (r : Reply) : (s.answer op rq r).trg = s.trg := (sameOutside_answer s op rq r).1 .trg (by decide)
@[simp] theorem answer_io (op : Nat) (rq : Requester) (r : Reply) : (s.answer op rq r).io = s.io := (sameOutside_answer s op rq r).1 .io (by decide)
@[simp] theorem answer_net (op : Nat) (rq : Requester) (r : Reply) : (s.answer op rq r).net = s.net := (sameOutside_answer s op rq r).1 .net (by decide)
@[simp] theorem answer_can0 (op : Nat) (rq : Requester) (r : Reply) : (s.answer op rq r).can0 = s.can0 := (sameOutside_answer s op rq r).1 .can0 (by decide)
@[simp] theorem answer_can1 (op : Nat) (rq : Requester) (r : Reply) : (s.answer op rq r).can1 = s.can1 := (sameOutside_answer s op rq r).1 .can1 (by decide)
@[simp] theorem answer_evr (op : Nat) (rq : Requester) (r : Reply) : (s.answer op rq r).evr = s.evr := (sameOutside_answer s op rq r).1 .evr (by decide)
@[simp] theorem answer_trust (op : Nat) (rq : Requester) (r : Reply) : (s.answer op rq r).trust = s.trust := (sameOutside_answer s op rq r).1 .trust (by decide)
@[simp] theorem answer_fab (op : Nat) (rq : Requester) (r : Reply) : (s.answer op rq r).fab = s.fab := (sameOutside_answer s op rq r).1 .fab (by decide)
@[simp] theorem answer_power (op : Nat) (rq : Requester) (r : Reply) : (s.answer op rq r).power = s.power := (sameOutside_answer s op rq r).1 .power (by decide)
@[simp] theorem answer_freeCtr (op : Nat) (rq : Requester) (r : Reply) : (s.answer op rq r).freeCtr = s.freeCtr := (sameOutside_answer s op rq r).1 .freeCtr (by decide)
@[simp] theorem answer_pending (op : Nat) (rq : Requester) (r : Reply) : (s.answer op rq r).pending = s.pending := (sameOutside_answer s op rq r).1 .pending (by decide)
@[simp] theorem answer_reg (op : Nat) (rq : Requester) (r : Reply) (a : Nat) : (s.answer op rq r).reg a = s.reg a := reg_congr (answer_regs ..) a
@[simp] theorem answer_regBit (op : Nat) (rq : Requester) (r : Reply) (a i : Nat) : (s.answer op rq r).regBit a i = s.regBit a i := congrArg (fun w => bit w i) (answer_reg ..)
@[simp] theorem answer_regFld (op : Nat) (rq : Requester) (r : Reply) (a i j : Nat) : (s.answer op rq r).regFld a i j = s.regFld a i j := congrArg (fun w => fld w i j) (answer_reg ..)

/-! ### updSession -/

@[simp] theorem updSession_regs (n : Word) (f : Session → Session) : (s.updSession n f).regs = s.regs := rfl
@[simp] theorem updSession_wins (n : Word) (f : Session → Session) : (s.updSession n f).wins = s.wins := rfl
@[simp] theorem updSession_staged (n : Word) (f : Session → Session) : (s.updSession n f).staged = s.staged := rfl
@[simp] theorem updSession_role (n : Word) (f : Session → Session) : (s.updSession n f).role = s.role := rfl
@[simp] theorem updSession_mode (n : Word) (f : Session → Session) : (s.updSession n f).mode = s.mode := rfl
@[simp] theorem updSession_tb (n : Word) (f : Session → Session) : (s.updSession n f).tb = s.tb := rfl
@[simp] theorem updSession_ptp (n : Word) (f : Session → Session) : (s.updSession n f).ptp = s.ptp := rfl
@[simp] theorem updSession_frame (n : Word) (f : Session → Session) : (s.updSession n f).frame = s.frame := rfl
@[simp] theorem updSession_pair (n : Word) (f : Session → Session) : (s.updSession n f).pair = s.pair := rfl
@[simp] theorem updSession_lock (n : Word) (f : Session → Session) : (s.updSession n f).lock = s.lock := rfl
@[simp] theorem updSession_loop (n : Word) (f : Session → Session) : (s.updSession n f).loop = s.loop := rfl
@[simp] theorem updSession_acq (n : Word) (f : Session → Session) : (s.updSession n f).acq = s.acq := rfl
@[simp] theorem updSession_trg (n : Word) (f : Session → Session) : (s.updSession n f).trg = s.trg := rfl
@[simp] theorem updSession_io (n : Word) (f : Session → Session) : (s.updSession n f).io = s.io := rfl
@[simp] theorem updSession_net (n : Word) (f : Session → Session) : (s.updSession n f).net = s.net := rfl
@[simp] theorem updSession_can0 (n : Word) (f : Session → Session) : (s.updSession n f).can0 = s.can0 := rfl
@[simp] theorem updSession_can1 (n : Word) (f : Session → Session) : (s.updSession n f).can1 = s.can1 := rfl
@[simp] theorem updSession_evr (n : Word) (f : Session → Session) : (s.updSession n f).evr = s.evr := rfl
@[simp] theorem updSession_trust (n : Word) (f : Session → Session) : (s.updSession n f).trust = s.trust := rfl
@[simp] theorem updSession_fab (n : Word) (f : Session → Session) : (s.updSession n f).fab = s.fab := rfl
@[simp] theorem updSession_power (n : Word) (f : Session → Session) : (s.updSession n f).power = s.power := rfl
@[simp] theorem updSession_sent (n : Word) (f : Session → Session) : (s.updSession n f).sent = s.sent := rfl
@[simp] theorem updSession_freeCtr (n : Word) (f : Session → Session) : (s.updSession n f).freeCtr = s.freeCtr := rfl
@[simp] theorem updSession_pending (n : Word) (f : Session → Session) : (s.updSession n f).pending = s.pending := rfl
@[simp] theorem updSession_reg (n : Word) (f : Session → Session) (a : Nat) : (s.updSession n f).reg a = s.reg a := reg_congr (updSession_regs ..) a
@[simp] theorem updSession_regBit (n : Word) (f : Session → Session) (a i : Nat) : (s.updSession n f).regBit a i = s.regBit a i := congrArg (fun w => bit w i) (updSession_reg ..)
@[simp] theorem updSession_regFld (n : Word) (f : Session → Session) (a i j : Nat) : (s.updSession n f).regFld a i j = s.regFld a i j := congrArg (fun w => fld w i j) (updSession_reg ..)

/-! ### count -/

@[simp] theorem count_regs (f : QcpStats → QcpStats) : (s.count f).regs = s.regs := rfl
@[simp] theorem count_wins (f : QcpStats → QcpStats) : (s.count f).wins = s.wins := rfl
@[simp] theorem count_staged (f : QcpStats → QcpStats) : (s.count f).staged = s.staged := rfl
@[simp] theorem count_role (f : QcpStats → QcpStats) : (s.count f).role = s.role := rfl
@[simp] theorem count_mode (f : QcpStats → QcpStats) : (s.count f).mode = s.mode := rfl
@[simp] theorem count_tb (f : QcpStats → QcpStats) : (s.count f).tb = s.tb := rfl
@[simp] theorem count_ptp (f : QcpStats → QcpStats) : (s.count f).ptp = s.ptp := rfl
@[simp] theorem count_frame (f : QcpStats → QcpStats) : (s.count f).frame = s.frame := rfl
@[simp] theorem count_pair (f : QcpStats → QcpStats) : (s.count f).pair = s.pair := rfl
@[simp] theorem count_lock (f : QcpStats → QcpStats) : (s.count f).lock = s.lock := rfl
@[simp] theorem count_loop (f : QcpStats → QcpStats) : (s.count f).loop = s.loop := rfl
@[simp] theorem count_acq (f : QcpStats → QcpStats) : (s.count f).acq = s.acq := rfl
@[simp] theorem count_trg (f : QcpStats → QcpStats) : (s.count f).trg = s.trg := rfl
@[simp] theorem count_io (f : QcpStats → QcpStats) : (s.count f).io = s.io := rfl
@[simp] theorem count_net (f : QcpStats → QcpStats) : (s.count f).net = s.net := rfl
@[simp] theorem count_can0 (f : QcpStats → QcpStats) : (s.count f).can0 = s.can0 := rfl
@[simp] theorem count_can1 (f : QcpStats → QcpStats) : (s.count f).can1 = s.can1 := rfl
@[simp] theorem count_evr (f : QcpStats → QcpStats) : (s.count f).evr = s.evr := rfl
@[simp] theorem count_trust (f : QcpStats → QcpStats) : (s.count f).trust = s.trust := rfl
@[simp] theorem count_fab (f : QcpStats → QcpStats) : (s.count f).fab = s.fab := rfl
@[simp] theorem count_power (f : QcpStats → QcpStats) : (s.count f).power = s.power := rfl
@[simp] theorem count_sent (f : QcpStats → QcpStats) : (s.count f).sent = s.sent := rfl
@[simp] theorem count_freeCtr (f : QcpStats → QcpStats) : (s.count f).freeCtr = s.freeCtr := rfl
@[simp] theorem count_pending (f : QcpStats → QcpStats) : (s.count f).pending = s.pending := rfl
@[simp] theorem count_reg (f : QcpStats → QcpStats) (a : Nat) : (s.count f).reg a = s.reg a := reg_congr (count_regs ..) a
@[simp] theorem count_regBit (f : QcpStats → QcpStats) (a i : Nat) : (s.count f).regBit a i = s.regBit a i := congrArg (fun w => bit w i) (count_reg ..)
@[simp] theorem count_regFld (f : QcpStats → QcpStats) (a i j : Nat) : (s.count f).regFld a i j = s.regFld a i j := congrArg (fun w => fld w i j) (count_reg ..)

/-! ### claimWindow -/

@[simp] theorem claimWindow_regs (w : WindowId) (n : Word) : (s.claimWindow w n).regs = s.regs := rfl
@[simp] theorem claimWindow_wins (w : WindowId) (n : Word) : (s.claimWindow w n).wins = s.wins := rfl
@[simp] theorem claimWindow_staged (w : WindowId) (n : Word) : (s.claimWindow w n).staged = s.staged := rfl
@[simp] theorem claimWindow_role (w : WindowId) (n : Word) : (s.claimWindow w n).role = s.role := rfl
@[simp] theorem claimWindow_mode (w : WindowId) (n : Word) : (s.claimWindow w n).mode = s.mode := rfl
@[simp] theorem claimWindow_tb (w : WindowId) (n : Word) : (s.claimWindow w n).tb = s.tb := rfl
@[simp] theorem claimWindow_ptp (w : WindowId) (n : Word) : (s.claimWindow w n).ptp = s.ptp := rfl
@[simp] theorem claimWindow_frame (w : WindowId) (n : Word) : (s.claimWindow w n).frame = s.frame := rfl
@[simp] theorem claimWindow_pair (w : WindowId) (n : Word) : (s.claimWindow w n).pair = s.pair := rfl
@[simp] theorem claimWindow_lock (w : WindowId) (n : Word) : (s.claimWindow w n).lock = s.lock := rfl
@[simp] theorem claimWindow_loop (w : WindowId) (n : Word) : (s.claimWindow w n).loop = s.loop := rfl
@[simp] theorem claimWindow_acq (w : WindowId) (n : Word) : (s.claimWindow w n).acq = s.acq := rfl
@[simp] theorem claimWindow_trg (w : WindowId) (n : Word) : (s.claimWindow w n).trg = s.trg := rfl
@[simp] theorem claimWindow_io (w : WindowId) (n : Word) : (s.claimWindow w n).io = s.io := rfl
@[simp] theorem claimWindow_net (w : WindowId) (n : Word) : (s.claimWindow w n).net = s.net := rfl
@[simp] theorem claimWindow_can0 (w : WindowId) (n : Word) : (s.claimWindow w n).can0 = s.can0 := rfl
@[simp] theorem claimWindow_can1 (w : WindowId) (n : Word) : (s.claimWindow w n).can1 = s.can1 := rfl
@[simp] theorem claimWindow_evr (w : WindowId) (n : Word) : (s.claimWindow w n).evr = s.evr := rfl
@[simp] theorem claimWindow_trust (w : WindowId) (n : Word) : (s.claimWindow w n).trust = s.trust := rfl
@[simp] theorem claimWindow_fab (w : WindowId) (n : Word) : (s.claimWindow w n).fab = s.fab := rfl
@[simp] theorem claimWindow_power (w : WindowId) (n : Word) : (s.claimWindow w n).power = s.power := rfl
@[simp] theorem claimWindow_sent (w : WindowId) (n : Word) : (s.claimWindow w n).sent = s.sent := rfl
@[simp] theorem claimWindow_freeCtr (w : WindowId) (n : Word) : (s.claimWindow w n).freeCtr = s.freeCtr := rfl
@[simp] theorem claimWindow_pending (w : WindowId) (n : Word) : (s.claimWindow w n).pending = s.pending := rfl
@[simp] theorem claimWindow_reg (w : WindowId) (n : Word) (a : Nat) : (s.claimWindow w n).reg a = s.reg a := reg_congr (claimWindow_regs ..) a
@[simp] theorem claimWindow_regBit (w : WindowId) (n : Word) (a i : Nat) : (s.claimWindow w n).regBit a i = s.regBit a i := congrArg (fun w => bit w i) (claimWindow_reg ..)
@[simp] theorem claimWindow_regFld (w : WindowId) (n : Word) (a i j : Nat) : (s.claimWindow w n).regFld a i j = s.regFld a i j := congrArg (fun w => fld w i j) (claimWindow_reg ..)

/-! ### releaseWindow -/

@[simp] theorem releaseWindow_regs (w : WindowId) : (s.releaseWindow w).regs = s.regs := rfl
@[simp] theorem releaseWindow_wins (w : WindowId) : (s.releaseWindow w).wins = s.wins := rfl
@[simp] theorem releaseWindow_staged (w : WindowId) : (s.releaseWindow w).staged = s.staged := rfl
@[simp] theorem releaseWindow_role (w : WindowId) : (s.releaseWindow w).role = s.role := rfl
@[simp] theorem releaseWindow_mode (w : WindowId) : (s.releaseWindow w).mode = s.mode := rfl
@[simp] theorem releaseWindow_tb (w : WindowId) : (s.releaseWindow w).tb = s.tb := rfl
@[simp] theorem releaseWindow_ptp (w : WindowId) : (s.releaseWindow w).ptp = s.ptp := rfl
@[simp] theorem releaseWindow_frame (w : WindowId) : (s.releaseWindow w).frame = s.frame := rfl
@[simp] theorem releaseWindow_pair (w : WindowId) : (s.releaseWindow w).pair = s.pair := rfl
@[simp] theorem releaseWindow_lock (w : WindowId) : (s.releaseWindow w).lock = s.lock := rfl
@[simp] theorem releaseWindow_loop (w : WindowId) : (s.releaseWindow w).loop = s.loop := rfl
@[simp] theorem releaseWindow_acq (w : WindowId) : (s.releaseWindow w).acq = s.acq := rfl
@[simp] theorem releaseWindow_trg (w : WindowId) : (s.releaseWindow w).trg = s.trg := rfl
@[simp] theorem releaseWindow_io (w : WindowId) : (s.releaseWindow w).io = s.io := rfl
@[simp] theorem releaseWindow_net (w : WindowId) : (s.releaseWindow w).net = s.net := rfl
@[simp] theorem releaseWindow_can0 (w : WindowId) : (s.releaseWindow w).can0 = s.can0 := rfl
@[simp] theorem releaseWindow_can1 (w : WindowId) : (s.releaseWindow w).can1 = s.can1 := rfl
@[simp] theorem releaseWindow_evr (w : WindowId) : (s.releaseWindow w).evr = s.evr := rfl
@[simp] theorem releaseWindow_trust (w : WindowId) : (s.releaseWindow w).trust = s.trust := rfl
@[simp] theorem releaseWindow_fab (w : WindowId) : (s.releaseWindow w).fab = s.fab := rfl
@[simp] theorem releaseWindow_power (w : WindowId) : (s.releaseWindow w).power = s.power := rfl
@[simp] theorem releaseWindow_sent (w : WindowId) : (s.releaseWindow w).sent = s.sent := rfl
@[simp] theorem releaseWindow_freeCtr (w : WindowId) : (s.releaseWindow w).freeCtr = s.freeCtr := rfl
@[simp] theorem releaseWindow_pending (w : WindowId) : (s.releaseWindow w).pending = s.pending := rfl
@[simp] theorem releaseWindow_reg (w : WindowId) (a : Nat) : (s.releaseWindow w).reg a = s.reg a := reg_congr (releaseWindow_regs ..) a
@[simp] theorem releaseWindow_regBit (w : WindowId) (a i : Nat) : (s.releaseWindow w).regBit a i = s.regBit a i := congrArg (fun w => bit w i) (releaseWindow_reg ..)
@[simp] theorem releaseWindow_regFld (w : WindowId) (a i j : Nat) : (s.releaseWindow w).regFld a i j = s.regFld a i j := congrArg (fun w => fld w i j) (releaseWindow_reg ..)

/-! ### pass -/

@[simp] theorem pass_regs (l : List Nat) : (s.pass l).regs = s.regs := by unfold State.pass; split <;> rfl
@[simp] theorem pass_wins (l : List Nat) : (s.pass l).wins = s.wins := by unfold State.pass; split <;> rfl
@[simp] theorem pass_staged (l : List Nat) : (s.pass l).staged = s.staged := by unfold State.pass; split <;> rfl
@[simp] theorem pass_role (l : List Nat) : (s.pass l).role = s.role := by unfold State.pass; split <;> rfl
@[simp] theorem pass_mode (l : List Nat) : (s.pass l).mode = s.mode := by unfold State.pass; split <;> rfl
@[simp] theorem pass_tb (l : List Nat) : (s.pass l).tb = s.tb := by unfold State.pass; split <;> rfl
@[simp] theorem pass_ptp (l : List Nat) : (s.pass l).ptp = s.ptp := by unfold State.pass; split <;> rfl
@[simp] theorem pass_frame (l : List Nat) : (s.pass l).frame = s.frame := by unfold State.pass; split <;> rfl
@[simp] theorem pass_pair (l : List Nat) : (s.pass l).pair = s.pair := by unfold State.pass; split <;> rfl
@[simp] theorem pass_lock (l : List Nat) : (s.pass l).lock = s.lock := by unfold State.pass; split <;> rfl
@[simp] theorem pass_loop (l : List Nat) : (s.pass l).loop = s.loop := by unfold State.pass; split <;> rfl
@[simp] theorem pass_acq (l : List Nat) : (s.pass l).acq = s.acq := by unfold State.pass; split <;> rfl
@[simp] theorem pass_trg (l : List Nat) : (s.pass l).trg = s.trg := by unfold State.pass; split <;> rfl
@[simp] theorem pass_io (l : List Nat) : (s.pass l).io = s.io := by unfold State.pass; split <;> rfl
@[simp] theorem pass_net (l : List Nat) : (s.pass l).net = s.net := by unfold State.pass; split <;> rfl
@[simp] theorem pass_can0 (l : List Nat) : (s.pass l).can0 = s.can0 := by unfold State.pass; split <;> rfl
@[simp] theorem pass_can1 (l : List Nat) : (s.pass l).can1 = s.can1 := by unfold State.pass; split <;> rfl
@[simp] theorem pass_evr (l : List Nat) : (s.pass l).evr = s.evr := by unfold State.pass; split <;> rfl
@[simp] theorem pass_trust (l : List Nat) : (s.pass l).trust = s.trust := by unfold State.pass; split <;> rfl
@[simp] theorem pass_fab (l : List Nat) : (s.pass l).fab = s.fab := by unfold State.pass; split <;> rfl
@[simp] theorem pass_power (l : List Nat) : (s.pass l).power = s.power := by unfold State.pass; split <;> rfl
@[simp] theorem pass_qcp (l : List Nat) : (s.pass l).qcp = s.qcp := by unfold State.pass; split <;> rfl
@[simp] theorem pass_freeCtr (l : List Nat) : (s.pass l).freeCtr = s.freeCtr := by unfold State.pass; split <;> rfl
@[simp] theorem pass_pending (l : List Nat) : (s.pass l).pending = s.pending := by unfold State.pass; split <;> rfl
@[simp] theorem pass_reg (l : List Nat) (a : Nat) : (s.pass l).reg a = s.reg a := reg_congr (pass_regs ..) a
@[simp] theorem pass_regBit (l : List Nat) (a i : Nat) : (s.pass l).regBit a i = s.regBit a i := congrArg (fun w => bit w i) (pass_reg ..)
@[simp] theorem pass_regFld (l : List Nat) (a i j : Nat) : (s.pass l).regFld a i j = s.regFld a i j := congrArg (fun w => fld w i j) (pass_reg ..)

/-! ### advanceTo -/

@[simp] theorem advanceTo_regs (t : Nat) : (s.advanceTo t).regs = s.regs := by unfold State.advanceTo; split <;> rfl
@[simp] theorem advanceTo_wins (t : Nat) : (s.advanceTo t).wins = s.wins := by unfold State.advanceTo; split <;> rfl
@[simp] theorem advanceTo_staged (t : Nat) : (s.advanceTo t).staged = s.staged := by unfold State.advanceTo; split <;> rfl
@[simp] theorem advanceTo_role (t : Nat) : (s.advanceTo t).role = s.role := by unfold State.advanceTo; split <;> rfl
@[simp] theorem advanceTo_mode (t : Nat) : (s.advanceTo t).mode = s.mode := by unfold State.advanceTo; split <;> rfl
@[simp] theorem advanceTo_ptp (t : Nat) : (s.advanceTo t).ptp = s.ptp := by unfold State.advanceTo; split <;> rfl
@[simp] theorem advanceTo_frame (t : Nat) : (s.advanceTo t).frame = s.frame := by unfold State.advanceTo; split <;> rfl
@[simp] theorem advanceTo_pair (t : Nat) : (s.advanceTo t).pair = s.pair := by unfold State.advanceTo; split <;> rfl
@[simp] theorem advanceTo_lock (t : Nat) : (s.advanceTo t).lock = s.lock := by unfold State.advanceTo; split <;> rfl
@[simp] theorem advanceTo_loop (t : Nat) : (s.advanceTo t).loop = s.loop := by unfold State.advanceTo; split <;> rfl
@[simp] theorem advanceTo_acq (t : Nat) : (s.advanceTo t).acq = s.acq := by unfold State.advanceTo; split <;> rfl
@[simp] theorem advanceTo_trg (t : Nat) : (s.advanceTo t).trg = s.trg := by unfold State.advanceTo; split <;> rfl
@[simp] theorem advanceTo_io (t : Nat) : (s.advanceTo t).io = s.io := by unfold State.advanceTo; split <;> rfl
@[simp] theorem advanceTo_net (t : Nat) : (s.advanceTo t).net = s.net := by unfold State.advanceTo; split <;> rfl
@[simp] theorem advanceTo_can0 (t : Nat) : (s.advanceTo t).can0 = s.can0 := by unfold State.advanceTo; split <;> rfl
@[simp] theorem advanceTo_can1 (t : Nat) : (s.advanceTo t).can1 = s.can1 := by unfold State.advanceTo; split <;> rfl
@[simp] theorem advanceTo_evr (t : Nat) : (s.advanceTo t).evr = s.evr := by unfold State.advanceTo; split <;> rfl
@[simp] theorem advanceTo_trust (t : Nat) : (s.advanceTo t).trust = s.trust := by unfold State.advanceTo; split <;> rfl
@[simp] theorem advanceTo_fab (t : Nat) : (s.advanceTo t).fab = s.fab := by unfold State.advanceTo; split <;> rfl
@[simp] theorem advanceTo_power (t : Nat) : (s.advanceTo t).power = s.power := by unfold State.advanceTo; split <;> rfl
@[simp] theorem advanceTo_qcp (t : Nat) : (s.advanceTo t).qcp = s.qcp := by unfold State.advanceTo; split <;> rfl
@[simp] theorem advanceTo_sent (t : Nat) : (s.advanceTo t).sent = s.sent := by unfold State.advanceTo; split <;> rfl
@[simp] theorem advanceTo_freeCtr (t : Nat) : (s.advanceTo t).freeCtr = s.freeCtr := by unfold State.advanceTo; split <;> rfl
@[simp] theorem advanceTo_pending (t : Nat) : (s.advanceTo t).pending = s.pending := by unfold State.advanceTo; split <;> rfl
@[simp] theorem advanceTo_reg (t : Nat) (a : Nat) : (s.advanceTo t).reg a = s.reg a := reg_congr (advanceTo_regs ..) a
@[simp] theorem advanceTo_regBit (t : Nat) (a i : Nat) : (s.advanceTo t).regBit a i = s.regBit a i := congrArg (fun w => bit w i) (advanceTo_reg ..)
@[simp] theorem advanceTo_regFld (t : Nat) (a i j : Nat) : (s.advanceTo t).regFld a i j = s.regFld a i j := congrArg (fun w => fld w i j) (advanceTo_reg ..)

/-! ### advanceUp -/

@[simp] theorem advanceUp_regs (t : Nat) : (s.advanceUp t).regs = s.regs := by unfold State.advanceUp State.advanceTo; split <;> first | rfl | (split <;> rfl)
@[simp] theorem advanceUp_wins (t : Nat) : (s.advanceUp t).wins = s.wins := by unfold State.advanceUp State.advanceTo; split <;> first | rfl | (split <;> rfl)
@[simp] theorem advanceUp_staged (t : Nat) : (s.advanceUp t).staged = s.staged := by unfold State.advanceUp State.advanceTo; split <;> first | rfl | (split <;> rfl)
@[simp] theorem advanceUp_role (t : Nat) : (s.advanceUp t).role = s.role := by unfold State.advanceUp State.advanceTo; split <;> first | rfl | (split <;> rfl)
@[simp] theorem advanceUp_mode (t : Nat) : (s.advanceUp t).mode = s.mode := by unfold State.advanceUp State.advanceTo; split <;> first | rfl | (split <;> rfl)
@[simp] theorem advanceUp_ptp (t : Nat) : (s.advanceUp t).ptp = s.ptp := by unfold State.advanceUp State.advanceTo; split <;> first | rfl | (split <;> rfl)
@[simp] theorem advanceUp_frame (t : Nat) : (s.advanceUp t).frame = s.frame := by unfold State.advanceUp State.advanceTo; split <;> first | rfl | (split <;> rfl)
@[simp] theorem advanceUp_pair (t : Nat) : (s.advanceUp t).pair = s.pair := by unfold State.advanceUp State.advanceTo; split <;> first | rfl | (split <;> rfl)
@[simp] theorem advanceUp_lock (t : Nat) : (s.advanceUp t).lock = s.lock := by unfold State.advanceUp State.advanceTo; split <;> first | rfl | (split <;> rfl)
@[simp] theorem advanceUp_loop (t : Nat) : (s.advanceUp t).loop = s.loop := by unfold State.advanceUp State.advanceTo; split <;> first | rfl | (split <;> rfl)
@[simp] theorem advanceUp_acq (t : Nat) : (s.advanceUp t).acq = s.acq := by unfold State.advanceUp State.advanceTo; split <;> first | rfl | (split <;> rfl)
@[simp] theorem advanceUp_trg (t : Nat) : (s.advanceUp t).trg = s.trg := by unfold State.advanceUp State.advanceTo; split <;> first | rfl | (split <;> rfl)
@[simp] theorem advanceUp_io (t : Nat) : (s.advanceUp t).io = s.io := by unfold State.advanceUp State.advanceTo; split <;> first | rfl | (split <;> rfl)
@[simp] theorem advanceUp_net (t : Nat) : (s.advanceUp t).net = s.net := by unfold State.advanceUp State.advanceTo; split <;> first | rfl | (split <;> rfl)
@[simp] theorem advanceUp_can0 (t : Nat) : (s.advanceUp t).can0 = s.can0 := by unfold State.advanceUp State.advanceTo; split <;> first | rfl | (split <;> rfl)
@[simp] theorem advanceUp_can1 (t : Nat) : (s.advanceUp t).can1 = s.can1 := by unfold State.advanceUp State.advanceTo; split <;> first | rfl | (split <;> rfl)
@[simp] theorem advanceUp_evr (t : Nat) : (s.advanceUp t).evr = s.evr := by unfold State.advanceUp State.advanceTo; split <;> first | rfl | (split <;> rfl)
@[simp] theorem advanceUp_trust (t : Nat) : (s.advanceUp t).trust = s.trust := by unfold State.advanceUp State.advanceTo; split <;> first | rfl | (split <;> rfl)
@[simp] theorem advanceUp_fab (t : Nat) : (s.advanceUp t).fab = s.fab := by unfold State.advanceUp State.advanceTo; split <;> first | rfl | (split <;> rfl)
@[simp] theorem advanceUp_power (t : Nat) : (s.advanceUp t).power = s.power := by unfold State.advanceUp State.advanceTo; split <;> first | rfl | (split <;> rfl)
@[simp] theorem advanceUp_qcp (t : Nat) : (s.advanceUp t).qcp = s.qcp := by unfold State.advanceUp State.advanceTo; split <;> first | rfl | (split <;> rfl)
@[simp] theorem advanceUp_sent (t : Nat) : (s.advanceUp t).sent = s.sent := by unfold State.advanceUp State.advanceTo; split <;> first | rfl | (split <;> rfl)
@[simp] theorem advanceUp_freeCtr (t : Nat) : (s.advanceUp t).freeCtr = s.freeCtr := by unfold State.advanceUp State.advanceTo; split <;> first | rfl | (split <;> rfl)
@[simp] theorem advanceUp_pending (t : Nat) : (s.advanceUp t).pending = s.pending := by unfold State.advanceUp State.advanceTo; split <;> first | rfl | (split <;> rfl)
@[simp] theorem advanceUp_reg (t : Nat) (a : Nat) : (s.advanceUp t).reg a = s.reg a := reg_congr (advanceUp_regs ..) a
@[simp] theorem advanceUp_regBit (t : Nat) (a i : Nat) : (s.advanceUp t).regBit a i = s.regBit a i := congrArg (fun w => bit w i) (advanceUp_reg ..)
@[simp] theorem advanceUp_regFld (t : Nat) (a i j : Nat) : (s.advanceUp t).regFld a i j = s.regFld a i j := congrArg (fun w => fld w i j) (advanceUp_reg ..)

/-! ### notify -/

theorem sameOutside_notify (op : Nat) (who : Option Requester) (r : Reply) : SameOutside [.qcp, .sent] s (s.notify op who r) := by
  unfold State.notify
  split
  · exact SameOutside.refl _ s
  · split
    · exact SameOutside.refl _ s
    · intro p hp
      cases p <;> first
        | exact absurd (by decide) hp
        | simp [Part.same, State.sendNotice]

theorem sameOutside_lateAnswer (op : Nat) (who : Option Requester) (r : Reply) : SameOutside [.qcp, .sent] s (s.lateAnswer op who r) := by
  unfold State.lateAnswer
  split
  · exact SameOutside.refl _ s
  · split
    · exact (sameOutside_answer s _ _ _).1
    · exact SameOutside.refl _ s

@[simp] theorem notify_regs (op : Nat) (who : Option Requester) (r : Reply) : (s.notify op who r).regs = s.regs := sameOutside_notify s op who r .regs (by decide)
@[simp] theorem notify_wins (op : Nat) (who : Option Requester) (r : Reply) : (s.notify op who r).wins = s.wins := sameOutside_notify s op who r .wins (by decide)
@[simp] theorem notify_staged (op : Nat) (who : Option Requester) (r : Reply) : (s.notify op who r).staged = s.staged := sameOutside_notify s op who r .staged (by decide)
@[simp] theorem notify_role (op : Nat) (who : Option Requester) (r : Reply) : (s.notify op who r).role = s.role := sameOutside_notify s op who r .role (by decide)
@[simp] theorem notify_mode (op : Nat) (who : Option Requester) (r : Reply) : (s.notify op who r).mode = s.mode := sameOutside_notify s op who r .mode (by decide)
@[simp] theorem notify_tb (op : Nat) (who : Option Requester) (r : Reply) : (s.notify op who r).tb = s.tb := sameOutside_notify s op who r .tb (by decide)
@[simp] theorem notify_ptp (op : Nat) (who : Option Requester) (r : Reply) : (s.notify op who r).ptp = s.ptp := sameOutside_notify s op who r .ptp (by decide)
@[simp] theorem notify_frame (op : Nat) (who : Option Requester) (r : Reply) : (s.notify op who r).frame = s.frame := sameOutside_notify s op who r .frame (by decide)
@[simp] theorem notify_pair (op : Nat) (who : Option Requester) (r : Reply) : (s.notify op who r).pair = s.pair := sameOutside_notify s op who r .pair (by decide)
@[simp] theorem notify_lock (op : Nat) (who : Option Requester) (r : Reply) : (s.notify op who r).lock = s.lock := sameOutside_notify s op who r .lock (by decide)
@[simp] theorem notify_loop (op : Nat) (who : Option Requester) (r : Reply) : (s.notify op who r).loop = s.loop := sameOutside_notify s op who r .loop (by decide)
@[simp] theorem notify_acq (op : Nat) (who : Option Requester) (r : Reply) : (s.notify op who r).acq = s.acq := sameOutside_notify s op who r .acq (by decide)
@[simp] theorem notify_trg (op : Nat) (who : Option Requester) (r : Reply) : (s.notify op who r).trg = s.trg := sameOutside_notify s op who r .trg (by decide)
@[simp] theorem notify_io (op : Nat) (who : Option Requester) (r : Reply) : (s.notify op who r).io = s.io := sameOutside_notify s op who r .io (by decide)
@[simp] theorem notify_net (op : Nat) (who : Option Requester) (r : Reply) : (s.notify op who r).net = s.net := sameOutside_notify s op who r .net (by decide)
@[simp] theorem notify_can0 (op : Nat) (who : Option Requester) (r : Reply) : (s.notify op who r).can0 = s.can0 := sameOutside_notify s op who r .can0 (by decide)
@[simp] theorem notify_can1 (op : Nat) (who : Option Requester) (r : Reply) : (s.notify op who r).can1 = s.can1 := sameOutside_notify s op who r .can1 (by decide)
@[simp] theorem notify_evr (op : Nat) (who : Option Requester) (r : Reply) : (s.notify op who r).evr = s.evr := sameOutside_notify s op who r .evr (by decide)
@[simp] theorem notify_trust (op : Nat) (who : Option Requester) (r : Reply) : (s.notify op who r).trust = s.trust := sameOutside_notify s op who r .trust (by decide)
@[simp] theorem notify_fab (op : Nat) (who : Option Requester) (r : Reply) : (s.notify op who r).fab = s.fab := sameOutside_notify s op who r .fab (by decide)
@[simp] theorem notify_power (op : Nat) (who : Option Requester) (r : Reply) : (s.notify op who r).power = s.power := sameOutside_notify s op who r .power (by decide)
@[simp] theorem notify_freeCtr (op : Nat) (who : Option Requester) (r : Reply) : (s.notify op who r).freeCtr = s.freeCtr := sameOutside_notify s op who r .freeCtr (by decide)
@[simp] theorem notify_pending (op : Nat) (who : Option Requester) (r : Reply) : (s.notify op who r).pending = s.pending := sameOutside_notify s op who r .pending (by decide)
@[simp] theorem notify_reg (op : Nat) (who : Option Requester) (r : Reply) (a : Nat) : (s.notify op who r).reg a = s.reg a := reg_congr (notify_regs ..) a
@[simp] theorem notify_regBit (op : Nat) (who : Option Requester) (r : Reply) (a i : Nat) : (s.notify op who r).regBit a i = s.regBit a i := congrArg (fun w => bit w i) (notify_reg ..)
@[simp] theorem notify_regFld (op : Nat) (who : Option Requester) (r : Reply) (a i j : Nat) : (s.notify op who r).regFld a i j = s.regFld a i j := congrArg (fun w => fld w i j) (notify_reg ..)

/-! ### lateAnswer -/

@[simp] theorem lateAnswer_regs (op : Nat) (who : Option Requester) (r : Reply) : (s.lateAnswer op who r).regs = s.regs := sameOutside_lateAnswer s op who r .regs (by decide)
@[simp] theorem lateAnswer_wins (op : Nat) (who : Option Requester) (r : Reply) : (s.lateAnswer op who r).wins = s.wins := sameOutside_lateAnswer s op who r .wins (by decide)
@[simp] theorem lateAnswer_staged (op : Nat) (who : Option Requester) (r : Reply) : (s.lateAnswer op who r).staged = s.staged := sameOutside_lateAnswer s op who r .staged (by decide)
@[simp] theorem lateAnswer_role (op : Nat) (who : Option Requester) (r : Reply) : (s.lateAnswer op who r).role = s.role := sameOutside_lateAnswer s op who r .role (by decide)
@[simp] theorem lateAnswer_mode (op : Nat) (who : Option Requester) (r : Reply) : (s.lateAnswer op who r).mode = s.mode := sameOutside_lateAnswer s op who r .mode (by decide)
@[simp] theorem lateAnswer_tb (op : Nat) (who : Option Requester) (r : Reply) : (s.lateAnswer op who r).tb = s.tb := sameOutside_lateAnswer s op who r .tb (by decide)
@[simp] theorem lateAnswer_ptp (op : Nat) (who : Option Requester) (r : Reply) : (s.lateAnswer op who r).ptp = s.ptp := sameOutside_lateAnswer s op who r .ptp (by decide)
@[simp] theorem lateAnswer_frame (op : Nat) (who : Option Requester) (r : Reply) : (s.lateAnswer op who r).frame = s.frame := sameOutside_lateAnswer s op who r .frame (by decide)
@[simp] theorem lateAnswer_pair (op : Nat) (who : Option Requester) (r : Reply) : (s.lateAnswer op who r).pair = s.pair := sameOutside_lateAnswer s op who r .pair (by decide)
@[simp] theorem lateAnswer_lock (op : Nat) (who : Option Requester) (r : Reply) : (s.lateAnswer op who r).lock = s.lock := sameOutside_lateAnswer s op who r .lock (by decide)
@[simp] theorem lateAnswer_loop (op : Nat) (who : Option Requester) (r : Reply) : (s.lateAnswer op who r).loop = s.loop := sameOutside_lateAnswer s op who r .loop (by decide)
@[simp] theorem lateAnswer_acq (op : Nat) (who : Option Requester) (r : Reply) : (s.lateAnswer op who r).acq = s.acq := sameOutside_lateAnswer s op who r .acq (by decide)
@[simp] theorem lateAnswer_trg (op : Nat) (who : Option Requester) (r : Reply) : (s.lateAnswer op who r).trg = s.trg := sameOutside_lateAnswer s op who r .trg (by decide)
@[simp] theorem lateAnswer_io (op : Nat) (who : Option Requester) (r : Reply) : (s.lateAnswer op who r).io = s.io := sameOutside_lateAnswer s op who r .io (by decide)
@[simp] theorem lateAnswer_net (op : Nat) (who : Option Requester) (r : Reply) : (s.lateAnswer op who r).net = s.net := sameOutside_lateAnswer s op who r .net (by decide)
@[simp] theorem lateAnswer_can0 (op : Nat) (who : Option Requester) (r : Reply) : (s.lateAnswer op who r).can0 = s.can0 := sameOutside_lateAnswer s op who r .can0 (by decide)
@[simp] theorem lateAnswer_can1 (op : Nat) (who : Option Requester) (r : Reply) : (s.lateAnswer op who r).can1 = s.can1 := sameOutside_lateAnswer s op who r .can1 (by decide)
@[simp] theorem lateAnswer_evr (op : Nat) (who : Option Requester) (r : Reply) : (s.lateAnswer op who r).evr = s.evr := sameOutside_lateAnswer s op who r .evr (by decide)
@[simp] theorem lateAnswer_trust (op : Nat) (who : Option Requester) (r : Reply) : (s.lateAnswer op who r).trust = s.trust := sameOutside_lateAnswer s op who r .trust (by decide)
@[simp] theorem lateAnswer_fab (op : Nat) (who : Option Requester) (r : Reply) : (s.lateAnswer op who r).fab = s.fab := sameOutside_lateAnswer s op who r .fab (by decide)
@[simp] theorem lateAnswer_power (op : Nat) (who : Option Requester) (r : Reply) : (s.lateAnswer op who r).power = s.power := sameOutside_lateAnswer s op who r .power (by decide)
@[simp] theorem lateAnswer_freeCtr (op : Nat) (who : Option Requester) (r : Reply) : (s.lateAnswer op who r).freeCtr = s.freeCtr := sameOutside_lateAnswer s op who r .freeCtr (by decide)
@[simp] theorem lateAnswer_pending (op : Nat) (who : Option Requester) (r : Reply) : (s.lateAnswer op who r).pending = s.pending := sameOutside_lateAnswer s op who r .pending (by decide)
@[simp] theorem lateAnswer_reg (op : Nat) (who : Option Requester) (r : Reply) (a : Nat) : (s.lateAnswer op who r).reg a = s.reg a := reg_congr (lateAnswer_regs ..) a
@[simp] theorem lateAnswer_regBit (op : Nat) (who : Option Requester) (r : Reply) (a i : Nat) : (s.lateAnswer op who r).regBit a i = s.regBit a i := congrArg (fun w => bit w i) (lateAnswer_reg ..)
@[simp] theorem lateAnswer_regFld (op : Nat) (who : Option Requester) (r : Reply) (a i j : Nat) : (s.lateAnswer op who r).regFld a i j = s.regFld a i j := congrArg (fun w => fld w i j) (lateAnswer_reg ..)

/-! ### raiseQcp -/

@[simp] theorem raiseQcp_regs (code : Nat) (n : Word) : (s.raiseQcp code n).regs = s.regs := by unfold State.raiseQcp; simp
@[simp] theorem raiseQcp_wins (code : Nat) (n : Word) : (s.raiseQcp code n).wins = s.wins := by unfold State.raiseQcp; simp
@[simp] theorem raiseQcp_staged (code : Nat) (n : Word) : (s.raiseQcp code n).staged = s.staged := by unfold State.raiseQcp; simp
@[simp] theorem raiseQcp_role (code : Nat) (n : Word) : (s.raiseQcp code n).role = s.role := by unfold State.raiseQcp; simp
@[simp] theorem raiseQcp_mode (code : Nat) (n : Word) : (s.raiseQcp code n).mode = s.mode := by unfold State.raiseQcp; simp
@[simp] theorem raiseQcp_tb (code : Nat) (n : Word) : (s.raiseQcp code n).tb = s.tb := by unfold State.raiseQcp; simp
@[simp] theorem raiseQcp_ptp (code : Nat) (n : Word) : (s.raiseQcp code n).ptp = s.ptp := by unfold State.raiseQcp; simp
@[simp] theorem raiseQcp_frame (code : Nat) (n : Word) : (s.raiseQcp code n).frame = s.frame := by unfold State.raiseQcp; simp
@[simp] theorem raiseQcp_pair (code : Nat) (n : Word) : (s.raiseQcp code n).pair = s.pair := by unfold State.raiseQcp; simp
@[simp] theorem raiseQcp_lock (code : Nat) (n : Word) : (s.raiseQcp code n).lock = s.lock := by unfold State.raiseQcp; simp
@[simp] theorem raiseQcp_loop (code : Nat) (n : Word) : (s.raiseQcp code n).loop = s.loop := by unfold State.raiseQcp; simp
@[simp] theorem raiseQcp_acq (code : Nat) (n : Word) : (s.raiseQcp code n).acq = s.acq := by unfold State.raiseQcp; simp
@[simp] theorem raiseQcp_trg (code : Nat) (n : Word) : (s.raiseQcp code n).trg = s.trg := by unfold State.raiseQcp; simp
@[simp] theorem raiseQcp_io (code : Nat) (n : Word) : (s.raiseQcp code n).io = s.io := by unfold State.raiseQcp; simp
@[simp] theorem raiseQcp_net (code : Nat) (n : Word) : (s.raiseQcp code n).net = s.net := by unfold State.raiseQcp; simp
@[simp] theorem raiseQcp_can0 (code : Nat) (n : Word) : (s.raiseQcp code n).can0 = s.can0 := by unfold State.raiseQcp; simp
@[simp] theorem raiseQcp_can1 (code : Nat) (n : Word) : (s.raiseQcp code n).can1 = s.can1 := by unfold State.raiseQcp; simp
@[simp] theorem raiseQcp_trust (code : Nat) (n : Word) : (s.raiseQcp code n).trust = s.trust := by unfold State.raiseQcp; simp
@[simp] theorem raiseQcp_fab (code : Nat) (n : Word) : (s.raiseQcp code n).fab = s.fab := by unfold State.raiseQcp; simp
@[simp] theorem raiseQcp_power (code : Nat) (n : Word) : (s.raiseQcp code n).power = s.power := by unfold State.raiseQcp; simp
@[simp] theorem raiseQcp_qcp (code : Nat) (n : Word) : (s.raiseQcp code n).qcp = s.qcp := by unfold State.raiseQcp; simp
@[simp] theorem raiseQcp_sent (code : Nat) (n : Word) : (s.raiseQcp code n).sent = s.sent := by unfold State.raiseQcp; simp
@[simp] theorem raiseQcp_freeCtr (code : Nat) (n : Word) : (s.raiseQcp code n).freeCtr = s.freeCtr := by unfold State.raiseQcp; simp
@[simp] theorem raiseQcp_pending (code : Nat) (n : Word) : (s.raiseQcp code n).pending = s.pending := by unfold State.raiseQcp; simp
@[simp] theorem raiseQcp_reg (code : Nat) (n : Word) (a : Nat) : (s.raiseQcp code n).reg a = s.reg a := reg_congr (raiseQcp_regs ..) a
@[simp] theorem raiseQcp_regBit (code : Nat) (n : Word) (a i : Nat) : (s.raiseQcp code n).regBit a i = s.regBit a i := congrArg (fun w => bit w i) (raiseQcp_reg ..)
@[simp] theorem raiseQcp_regFld (code : Nat) (n : Word) (a i j : Nat) : (s.raiseQcp code n).regFld a i j = s.regFld a i j := congrArg (fun w => fld w i j) (raiseQcp_reg ..)

/-! ### Time -/

/-- The time base moved to an instant is at it, or already past it. -/
theorem advanceTo_reaches (t : Nat) : t ≤ (s.advanceTo t).tb.now := by
  unfold State.advanceTo
  split
  · exact Nat.le_refl t
  · exact Nat.not_lt.mp ‹_›

theorem advanceTo_now (t : Nat) : (s.advanceTo t).tb.now = max s.tb.now t := by
  unfold State.advanceTo
  split
  · exact (Nat.max_eq_right (Nat.le_of_lt ‹_›)).symm
  · exact (Nat.max_eq_left (Nat.not_lt.mp ‹_›)).symm

@[simp] theorem advanceTo_quality (t : Nat) : (s.advanceTo t).tb.quality = s.tb.quality := by
  unfold State.advanceTo
  split <;> rfl

@[simp] theorem advanceTo_stepped (t : Nat) : (s.advanceTo t).tb.stepped = s.tb.stepped := by
  unfold State.advanceTo
  split <;> rfl

/-! ### What the checks read -/

@[simp] theorem letIn_committing (p : Pkt) : (s.letIn p).committing = s.committing := rfl

@[simp] theorem letIn_mayConfigure (p : Pkt) : (s.letIn p).mayConfigure = s.mayConfigure := rfl

@[simp] theorem letIn_windowHolder (p : Pkt) (w : WindowId) (n : Word) : (s.letIn p).windowHolder w n = s.windowHolder w n := rfl

@[simp] theorem requesterOf_session (p : Pkt) : (requesterOf p).session = p.session := rfl

@[simp] theorem answer_replied (op : Nat) (rq : Requester) (r : Reply) : (s.answer op rq r).replied r := (sameOutside_answer s op rq r).2

/-- A notice is given to who is owed it, once. -/
theorem notify_notified (op : Nat) (who : Option Requester) (r : Reply) : Notified s (s.notify op who r) op who r := by
  unfold Notified State.notify
  refine ⟨?_, ?_⟩
  · intro q x hq hx
    subst hq
    simp only [hx]
    exact ⟨_, rfl, rfl, rfl, rfl, rfl, rfl, rfl⟩
  · intro hn
    split
    · rfl
    · next q =>
      have h := hn q rfl
      simp only [h]

/-- An admitted request with the authority it needs, not locked, and with parameters that are in order, runs its body on the module as the packet
leaves it. -/
theorem request_runs {s : State} {p : Pkt} {x : Session} (h : Admits s p x) {op auth : Nat} {lock : Bool} {params : Option Reply} {body : Body}
    (ha : auth ≤ x.role) (hl : lock = false) (hp : params = none) :
    s.request p op auth lock params body = match body (s.letIn p) (requesterOf p) with
      | (u, some r) => (u.countStatus r.status).answer op (requesterOf p) r
      | (u, none) => u := by
  subst hl hp
  unfold State.request
  rw [receive_admitted h.toArrives]
  unfold State.runRequest
  rw [if_neg (Nat.not_lt.mpr ha), if_neg (by decide)]
  dsimp only
  rw [if_neg (by rw [h.confirmed]; decide)]
  all_goals (split <;> simp_all)

/-- An admitted request whose parameters are not in order is refused with what the check found, and nothing else happens (check 15). -/
theorem request_badParams {s : State} {p : Pkt} {x : Session} (h : Admits s p x) {op auth : Nat} {lock : Bool} {r : Reply} {body : Body}
    (ha : auth ≤ x.role) (hl : lock = false) :
    s.request p op auth lock (some r) body = ((s.letIn p).countStatus r.status).answer op (requesterOf p) r := by
  subst hl
  unfold State.request
  rw [receive_admitted h.toArrives]
  unfold State.runRequest
  rw [if_neg (Nat.not_lt.mpr ha), if_neg (by decide)]
  rfl

@[simp] theorem letIn_stopRefused (p : Pkt) (a : Nat) (v : Word) : stopRefused (s.letIn p) a v = stopRefused s a v := by
  unfold stopRefused
  simp only [letIn_reg, letIn_mode]

/-- A window claimed for a register that belongs to one. -/
def State.claimFor (s : State) (a : Nat) (n : Word) : State :=
  match claimOf a with
  | some w => s.claimWindow w n
  | none => s

/-- A REG_WRITE that every check lets through, to a register that acts, has the register's effect and is passed to the partner where it must be. -/
theorem write_runs {s : State} {p : Pkt} {x : Session} {a : Nat} {v : Word} (h : MayWrite s p x a v) (hact : acts a = true) (op : Nat)
    (started : Bool) :
    s.writeRequest p op a v 4 started =
      match State.passWrite (((s.letIn p).claimFor a p.session).writeReg a v started (some (op, requesterOf p))) a v with
      | (u, some r) => (u.countStatus r.status).answer op (requesterOf p) r
      | (u, none) => u := by
  unfold State.writeRequest
  rw [request_runs h.admits h.authority rfl h.value]
  unfold writeBody State.claimFor
  rw [hact, letIn_mayConfigure, letIn_stopRefused, h.stopped]
  have hc : ((sharedWrite a || loopWrite a) && !s.mayConfigure) = false := by
    cases hs : (sharedWrite a || loopWrite a)
    · rfl
    · rw [h.leads hs]; rfl
  rw [hc]
  cases hw : claimOf a with
  | none => rfl
  | some w =>
    have hn := h.window w hw
    simp only [letIn_windowHolder, requesterOf_session, hn]
    rfl

theorem Raises.answered {s u : State} {l : List (Nat × Nat)} (h : Raises s u l) (st : Status) (op : Nat) (rq : Requester) (r : Reply) :
    Raises s ((u.countStatus st).answer op rq r) l := h.of_eq (by simp)

end Sys2Proof.Machine
end

