-- ==== Sys2Proof/Tests/Slice0.lean ====
section
/-!
SUPPORT. Tests: worked examples of the manual on single steps, ill-formed commands, and for every statement with hypotheses the states and operands
that meet them.
-/

namespace Sys2Proof.Tests

open Sys2Proof.Machine Sys2Proof.Machine.Reg

set_option Elab.async false

/-- A packet of session 1 with the first sequence number and a correct MAC. -/
def pk : Pkt := { path := { kind := 0, ip := 1, port := 0 }, session := 1, seq := 1, crc := 7, pairId := 0xFFFF, mac := .correct, relay := false }

/-- A packet of session 0. -/
def pk0 : Pkt := { pk with session := 0, mac := .absent }

/-- The confirmed session 1 of a role. -/
def ses (r : Nat) : Session := { number := 1, slot := 0, role := r, path := pk.path, confirmed := true, openedAt := 0, lastAt := 0 }

/-- A state with session 1 open. -/
def withSes (s : State) (r : Nat := 3) : State := { s with qcp := { s.qcp with sessions := [ses r] } }

/-- The ACTIVE module with an Owner's session. -/
def lead : State := withSes { State.reset with role := .active }

/-- What `MayWrite` asks, as a test. -/
def mayWriteB (s : State) (p : Pkt) (x : Session) (a : Nat) (v : Word) : Bool :=
  decide (s.committing = false ∧ (p.pairId = 0xFFFF#16 ∨ p.pairId = s.pair.baseId) ∧ p.session ≠ 0#32 ∧ s.session p.session = some x ∧
    x.path = p.path ∧ p.mac = .correct ∧ (recentOf x s.tb.up).length < 200 ∧ seqVerdict x p.seq.toNat p.crc = .fresh ∧ p.relay = false ∧
    x.confirmed = true ∧ writeAuthority s a v ≤ x.role ∧ writeParams s a v 4 = none ∧
    ((sharedWrite a || loopWrite a) = true → s.mayConfigure = true) ∧ stopRefused s a v = false) &&
  match claimOf a with
  | none => true
  | some w => decide (s.windowHolder w p.session = none)

theorem mayWrite_of {s : State} {p : Pkt} {x : Session} {a : Nat} {v : Word} (h : mayWriteB s p x a v = true) : MayWrite s p x a v := by
  unfold mayWriteB at h
  rw [Bool.and_eq_true, decide_eq_true_eq] at h
  obtain ⟨⟨h1, h2, h3, h4, h5, h6, h7, h8, h9, h10, h11, h12, h13, h14⟩, hw⟩ := h
  refine ⟨⟨⟨h1, h2, h3, h4, h5, h6, h7, h8, h9⟩, h10⟩, h11, h12, h13, h14, fun w hc => ?_⟩
  rw [hc] at hw
  simpa using hw

/-- What `Admits` asks, as a test. -/
def arrivesB (s : State) (p : Pkt) (x : Session) : Bool :=
  decide (s.committing = false ∧ (p.pairId = 0xFFFF#16 ∨ p.pairId = s.pair.baseId) ∧ p.session ≠ 0#32 ∧ s.session p.session = some x ∧
    x.path = p.path ∧ p.mac = .correct ∧ (recentOf x s.tb.up).length < 200 ∧ seqVerdict x p.seq.toNat p.crc = .fresh ∧ p.relay = false)

theorem arrives_of {s : State} {p : Pkt} {x : Session} (h : arrivesB s p x = true) : Arrives s p x := by
  obtain ⟨h1, h2, h3, h4, h5, h6, h7, h8, h9⟩ := decide_eq_true_eq.mp h
  exact ⟨h1, h2, h3, h4, h5, h6, h7, h8, h9⟩

theorem admits_of {s : State} {p : Pkt} {x : Session} (h : arrivesB s p x = true) (hc : x.confirmed = true) : Admits s p x :=
  ⟨arrives_of h, hc⟩

/-- What `AdmitsFree` asks, as a test. -/
theorem admitsFree_of {s : State} {p : Pkt}
    (h : decide (s.committing = false ∧ p.session = 0#32 ∧ (p.pairId = 0xFFFF#16 ∨ p.pairId = s.pair.baseId) ∧
      (s.qcp.freeRecent.filter fun r => s.tb.up < r.1 + 1000 * msUnits).countP (fun r => r.2 = p.path.ip) < 10 ∧
      (s.qcp.freeRecent.filter fun r => s.tb.up < r.1 + 1000 * msUnits).length < 50 ∧ p.relay = false) = true) : AdmitsFree s p := by
  obtain ⟨h1, h2, h3, h4, h5, h6⟩ := decide_eq_true_eq.mp h
  exact ⟨h1, h2, h3, h4, h5, h6⟩

/-- A state with some registers set. -/
def st (l : List (Nat × Word)) (s : State := lead) : State := l.foldl (fun u x => u.setReg x.1 x.2) s

/-- The STANDBY of an ACTIVE partner, with an Owner's session. -/
def foll : State :=
  withSes { State.reset with
    role := .standby
    pair := { partnerPresent := true, partnerRole := .active, heardAt := some 0, heard := true, tandem := { up := true }, pulse := { up := true } } }

/-- The ACTIVE of a STANDBY partner, with an Owner's session. -/
def act : State :=
  { lead with
    pair := { partnerPresent := true, partnerRole := .standby, partnerFlags := 0x10, heardAt := some 0, heard := true, tandem := { up := true }, pulse := { up := true },
              claim := true, grant := true, unheld := false } }

/-- An F task and an E task. -/
def taskF : Budget :=
  { task := 0, cls := 0, core := 0, flags := 0, budget := 1000, interarrival := 0, deadline := 0, rank := 0, quota := 2, entry := 0, reserved := 0, source := 0 }

def taskE : Budget :=
  { task := 15, cls := 6, core := 1, flags := 0, budget := 2000, interarrival := 50000, deadline := 40000, rank := 1, quota := 2, entry := 0, reserved := 0, source := 0 }

/-- A small control image. -/
def img : Image :=
  { budgets := [taskF, taskE], bindings := [], retentiveSize := 0, instances := [], migration := { base := 0, count := 0, reserved := 0, entries := [], rest := 0 }, signer := 0 }

/-- A module whose bank 0 holds the running image, in a run mode. -/
def withImg (s : State) (m : RunMode := .run) (i : Image := img) : State :=
  let u := st [(IMG.B_STATE 0, 4), (LOCK.STATUS, 0x40000000)] s
  { u with mode := m, frame := { u.frame with bank0 := some i }, tb := { u.tb with stepped := true, quality := .locked } }

/-- A state with some committed words of a window's unit. -/
def wn (w : WinId) (k : Nat) (l : List (Nat × Word)) (s : State) : State := l.foldl (fun u x => u.setWin w k x.1 x.2) s

/-- A state with some staged words of a window's unit. -/
def sg (w : WinId) (k : Nat) (l : List (Nat × Word)) (s : State) : State := l.foldl (fun u x => u.stageWord w k x.1 x.2) s

/-- An open transfer handle 5 of session 1. -/
def hnd (k : HandleKind) (chunks next : Nat) : Handle := { id := 5, session := 1, kind := k, size := chunks * 1344, chunks := chunks, next := next, lastAt := 0 }

/-- A state with that handle. -/
def withH (k : HandleKind) (chunks next : Nat) (s : State) : State := { s with qcp := { s.qcp with handles := [hnd k chunks next] } }

/-- A station's input frame of pair 7. -/
def inputF : QspFrame :=
  { version := 1, type := 0x10, pairId := 7, station := 1023, stream := 0, flags := 0, step := 0, sequence := 1, layout := 0, payload := [1], crc := 5, mac := 6 }

/-- A station's roll-call frame of pair 7. -/
def rollF : QspFrame := { inputF with type := 1, payload := List.replicate 20 0 }

/-- An image admitted to bank 1, its admission asked by `by_` still to be answered. -/
def admWait (i : Image) (by_ : Option Requester) (s : State) : State :=
  { st [(IMG.B_STATE 1, 2)] (withImg s) with frame := { (withImg s).frame with bank1 := some i, admission := some by_ } }

/-- What admission finds of an image that it admits. -/
def admittedOf (s : State) (i : Image) : Admitted := ((admitImage s 1 i).toOption).getD { resp := [], util0 := 0, util1 := 0, load := 0 }

/-- What admission finds of an image that it refuses. -/
def refusalOf (s : State) (i : Image) : AdmitRefusal :=
  match admitImage s 1 i with
  | .ok _ => { status := .done, reason := 0, task := 0, core := 0, value := 0, limit := 0 }
  | .error e => e

/-- An image whose three F tasks ask for more than a frame has. -/
def heavy : Image := { img with budgets := (List.range 3).map fun t => { taskF with budget := 2400, task := t } }

/-- The running module with an admitted image in the other bank, and a switch. -/
def swState (w : Option Switch) (s : State := act) (m : RunMode := .run) : State :=
  let u := st [(IMG.B_STATE 1, 3)] (withImg s m)
  { u with frame := { u.frame with bank1 := some img, sw := w } }

/-- A control image that binds one point. -/
def imgPt (q : Word) : Image := { img with bindings := [{ point := q, owner := none, hem := 0, policy := .holdLast }] }

/-- A record 4 of profile 0 with views RAW to PHA. -/
def rec4 : TrigRecord :=
  { number := 4, profile := 0, source := 0, isOpen := false, protected_ := false, trigger := 5, quality := 3, startedAt := 5, last := 7,
    words := [0x3E000000, 0, 0, 0, 0, 0, 0, 0, 0, 0, 64], written := true }

theorem committed_of_full {s : State} {r q : TrigRecord} {n : Nat} (h : s.trg.records = r :: List.replicate n q) (hr : r.isOpen = true)
    (hq : q.isOpen = false) : committedRecords s = List.replicate n q := by
  simp [committedRecords, h, hr, hq]

/-- A leading module whose store holds that record. -/
def withRec (r : TrigRecord) (s : State := act) : State := { s with trg := { s.trg with records := [r], nextRecord := 5 } }

/-- A CAN frame with a standard identifier. -/
def cf (id : Nat) : CanFrame := { ident := BitVec.ofNat 32 (id * 262144), rtr := false, esi := false, dlc := 4, data := [0x01020304] }

/-- A state with CAN 1 taking part in its bus. -/
def withCan (c : CanChannel := { part := true }) (s : State := act) : State := { st [(CAN.CTRL 1, 0x80000000)] s with can1 := c }

/-- A record of the log. -/
def er (i sev : Nat) : EventRecord :=
  { index := i, code := 0x4001, severity := sev, timeValid := true, partner := false, repeatSat := false, powerLoss := false, role := 3, mode := 1,
    source := 7, repeats := 1, opSec := 0, powerCycles := 0, firstSec := 5, firstNs := 6, firstQuality := 3, lastDsec := 0, lastNs := 6,
    lastQuality := 3, snapList := 0, snapGen := 0, snap := [1], lastOpSec := 0, originIndex := 0 }

/-- An event in the intake queue. -/
def ev (sev : Nat) : RaisedEvent :=
  { code := 0x4001, severity := sev, pleated := true, source := 7, role := .active, mode := .run, opSec := 0, powerCycles := 0, sec := 9, ns := 6,
    quality := .locked, powerLoss := false, snapList := 0, snapGen := 0, snap := [1] }

/-- Component `k`, with its running bank, the state of its other bank, and a hold-up bank that permits an update. -/
def upd (k bank other : Nat) (s : State) : State :=
  st [(UPD.C_STATE k, BitVec.ofNat 32 (bank * 2147483648 + (if bank = 0 then 5 else other) * 268435456 + (if bank = 0 then other else 5) * 16777216)),
    (POWER.HU_ENERGY, 0x23280000)] s

/-- The public key of the signatures here. -/
def ownerKey : PublicKey :=
  { ident := 0x31323334353637383132333435363738
    key := 0x09F9DF311E5421A150DD7D161E4BC5C672179FAD1833FC076BB08FF356F35020CCEA490CE26775A52DC6EA718CC1AA600AED05FBF35E084A6632F6072DA9AD13 }

/-- A package of 132 bytes for component 3, version 2, with its FLAGS, the vendor's signature and slot 0 (Table UP-2). -/
def pkg (flags : Byte) (signature : Nat) : List Byte :=
  [0x51, 0x55, 0x50, 0x44, 3, flags, 0, 1, 0, 0, 0, 2, 0, 1, 0, 0] ++ List.replicate 28 0 ++ [0, 0, 0, 132] ++ List.replicate 16 0 ++
    beBytes 64 signature ++ [0, 0, 0, 0]

/-- Signatures of that package by the owner's key: plain, and with FLAGS 3. -/
def plainSig : Nat :=
  0x8B3C3BC4EB739B1BA10BC5A44159EFB458DD3E5862E7F44EF7F9544D3CD97D4CAB2EDF3E139AF51585C2821488DAB3FAF8E3182685B3C6DC9761D86C26F8BDDD

def sealedSig : Nat :=
  0x6EA5F3E515E5C63794F885EA3ECD810376EEF701F80FA27AA93EDC2D842AE48B164D6DA8D9B4440F7AF32E5328FF0C46BBE27D834909104A9BA23577764F5827

/-- The check of a package that is due, with its digest. -/
def chk (bytes : List Byte) (digest : BitVec 256) : PackageCheck :=
  { component := 3, size := 132, digest := digest, bytes := bytes, by_ := some (requesterOf pk) }

/-- A module that checks it, its vendor key that of the signature. -/
def checking (c : PackageCheck) (s : State := lead) : State :=
  { upd 3 0 1 s with trust := { checking := some c, keys := [(0, ownerKey)] } }

/-- A start that finds nothing wrong. -/
def find0 : StartFindings :=
  { oven := true, liningLost := false, rtcSec := 1000, rtcSub := 0, offSec := 1, bootOk := true, bootCopyOk := true, badBanks := 0, badRecords := [], sealOk := true,
    slotParity := true, slot := 0, posB := false, chassis := 1, chassisId := 2, busOk := true, pbType := 1, pbRev := 1, pbSerial := 3, pairId := 5,
    links := 3, partnerPresent := true, leverClosed := true, drawerClosed := true, calibration := { afeOk := false, afeInfo := 0, tables := [], readings := [], temperature := 0 },
    migrated := none, storeNewer := false, vendorKey := 0, commissioningKey := 0 }

/-- A control image of 180 bytes: header (security version 2), section table, and a signature of slot 1. -/
def signedImg : List Byte :=
  [0x51, 0x49, 0x4D, 0x31, 0, 1, 0, 0, 0, 0, 0, 9, 2, 0, 0, 0, 0, 0, 0, 1, 0, 0, 0, 0, 0, 0, 0, 7, 0, 0, 0, 180, 0, 0, 0, 3] ++ List.replicate 28 0 ++
    ([(0x01, 0), (0x30, 0), (0xF0, 68)].flatMap fun x => [0, x.1, 0, 0, 0, 0, 0, 112, 0, 0, 0, x.2, 0, 0, 0, 0]) ++
    beBytes 64 0x91E90B7BE8C0D20014FF5F048E7206CEA30AF37BB4E9400D4C759854F7725D841EA505A395FB8217754088786A11A130E3496AF70D40A2FBB9B447793B1CEB36 ++
    [0, 0, 0, 1]

/-- Its SM3 digest. -/
def signedDigest : BitVec 256 := 0x904D17E08A8C95A702CE2B3DDC9E43700DD20ECA9223E8E0C37F35E7DFF8B520

/-- A state with that key as the owner key. -/
def withOwner (s : State) : State :=
  let u := st [(SEC.KEY_INFO 1, 0x80000000)] s
  { u with trust := { u.trust with keys := [(1, ownerKey)] } }

/-- A debug certificate for both pairs and serial identity 0, valid for the first 604,800 seconds, with its signature (R480). -/
def cert (signature : Nat) : List Byte :=
  [1, 3] ++ List.replicate 6 0 ++ beBytes 8 0 ++ beBytes 8 0 ++ beBytes 8 604800 ++ List.replicate 64 0 ++ beBytes 64 signature

/-- The owner's signature of that certificate, and of serial identity 0 for the enrolment of its own key. -/
def certSig : Nat :=
  0xE9CA8E8370A674B0E940789C4028F3B72A13CEAF3E2F368E19DA80606AF42847AC783C53DBA75031536F9EA2FAF5E8A2E1EBA6D69BD94E8F7B07B062407E9E79

def proofSig : Nat :=
  0x4CE722C723099C31893A71B5CA5B1870A947CD04B297F81E0876806D7A8A75E9DF6560A95453B6C720D15CCE92FEF528039D88D89EFFD9A83ECD21F85D52C378

/-- A key to enrol, with its proof. -/
def keyReq (role usage : Byte) (proof : Nat) : KeyRequest :=
  { role := role, usage := usage, ident := ownerKey.ident, payload := beBytes 64 ownerKey.key.toNat ++ beBytes 64 proof }

/-- A datagram (Table QP-2) of a magic, version, opcode, flags, session and payload length, with what follows its header. -/
def dgram (magic version op flags session plen : Nat) (rest : List Byte) : List Byte :=
  sealed (wireBytes [(4, magic), (1, version), (1, op), (2, flags), (4, session), (4, 1), (2, 0), (2, plen), (2, 0), (2, 0xFFFF), (8, 0)] ++ rest)

/-- A heartbeat with its CRC (Table PR-2). -/
def beat (h : Heartbeat) : Heartbeat :=
  { h with crc := crc32c (heartbeatBytes h.pairId.toNat (h.role.code * 16 + h.mode.code) (heartbeatFlags h).toNat h.frameIndex.toNat h.digest h.overrun
      h.within h.hoState) }

/-- A heartbeat of a STANDBY partner in RUN. -/
def okBeat : Heartbeat :=
  beat { pairId := 3, role := .standby, mode := .run, split := false, debug := false, tested := true, muted := false, claim := true, grant := false,
         degraded := false, posB := true, frameIndex := 0, digest := 5, overrun := none, within := 0, hoState := 0, selfCheck := none,
         switchPending := false, crc := 0, lane := 1 }

/-- A QSP frame with its CRC (Table NW-3). -/
def qsp (f : QspFrame) : QspFrame := { f with crc := crc32c (frameBytes f) }

theorem qsp_intact (f : QspFrame) : qspIntact (qsp f) = true :=
  decide_eq_true (show crc32c (frameBytes (qsp f)) = crc32c (frameBytes f) from congrArg crc32c rfl)

/-- What holds of the next state of an outcome. -/
def after (o : Host.Outcome State Fault Refusal) (f : State → Bool) : Bool :=
  match o with
  | .next t => f t
  | _ => false

/-! ### Worked examples of the manual, and values calculated from its tables by hand -/

/-- The nanoseconds field carries into the seconds field (R13). -/
theorem test_nanoseconds_carry : nsOf (1999999999 * nsUnits) = 999999999 ∧ secOf (1999999999 * nsUnits + nsUnits) = 2 := by decide +kernel

/-- The worked example of R57: TB.HOLD_EST after 1, 4 and 8 hours and 46,695 s is 75.4, 297.0, 603.0 and 1,000.0 ns; the next second
exceeds the bound. -/
theorem test_holdover_estimate :
    [3600, 14400, 28800, 46695].map (fun t => (holdNumerator 48 20000 5000 t * 10 + holdDenominator / 2) / holdDenominator) = [754, 2970, 6030, 10000] ∧
      holdNumerator 48 20000 5000 46695 ≤ 1000 * holdDenominator ∧ 1000 * holdDenominator < holdNumerator 48 20000 5000 46696 := by decide +kernel

/-- A time-of-day message of Table TB-4 with its CRC-32C. -/
theorem test_tod_message : todCorrect [0x51, 0x54, 1, 5, 0, 0, 0, 0, 0, 0, 0, 9, 0, 37, 0, 0, 0x16, 0x54, 0xB2, 0x47] = true := by decide +kernel

/-- A task of the worked example of R77. -/
def exTask (n cls budget : Nat) : Budget :=
  { task := n, cls := cls, core := 0, flags := 0, budget := budget, interarrival := 0, deadline := 0, rank := 0, quota := 2, entry := 0, reserved := 0, source := 0 }

/-- The five tasks of the worked example of R77. -/
def exTasks : List Budget := [exTask 0 0 2560, exTask 1 0 550, exTask 2 1 6580, exTask 3 2 133880, exTask 4 3 1004880]

/-- The worked example of R77: the utilisation is 95.00% and each response time is met. -/
theorem test_admission_example :
    utilisation exTasks = 9500 ∧ (responses exTasks [] []).toOption = some [(0, 1), (1, 1), (2, 2), (3, 50), (4, 776)] := by decide +kernel

/-- The worked example of R77: check 7 fails with BUDGET_EXCEEDED, reason 3, 9,500 against 8,500. -/
theorem test_admission_refused :
    admitCore (st [(IMG.UTIL_LIMIT, 8500)]) { img with budgets := exTasks } 0 =
      .error { status := .budgetExceeded, reason := 0x03, core := 0, value := 9500, limit := 8500 } := by decide +kernel

/-- PMU 3 of chapter 4's worked example. -/
def exPmu : State :=
  wn .pmu 3 [(0, 0xB1000371), (1, 0x0032000B), (2, 0x12681269), (3, 0x0A141E28), (4, 0x80008001), (5, 0x8002A003), (6, 0xA004A005), (12, 0x100)]
    { act with tb := { act.tb with quality := .locked } }

/-- Chapter 4's worked example: a data frame of 76 bytes. -/
theorem test_pmu_frame_size : pmuFrameSize exPmu 3 (0, 0) = 76 := by decide +kernel

/-- Line 0 of the fault-location window in chapter 5's worked example, with both arrivals and 5.0 ns of uncertainty at each end. -/
def exLine : State :=
  wn .fl 0 [(0, 0xC0400201), (1, 0x484F0800), (2, 0x43930000), (3, 0x0A580415), (4, 0x07D00032)]
    { act with trg := { lines := [(0, { start := some (318280000 * nsUnits)
                                        local_ := some { time := 318266708 * nsUnits + nsUnits / 2, falling := false, uncertainty := 0x40A00000,
                                                         notLocked := false, amplitude := 0 }
                                        remote := some { time := 318454379 * nsUnits + nsUnits / 4, falling := false, uncertainty := 0x40A00000,
                                                         notLocked := false, amplitude := 0 } })] } }

/-- Chapter 5's worked example: the fault is at 78,412.40 m, known to 1.47 m. -/
theorem test_fault_location :
    after (execFaultLocationResult 0 exLine) (fun t => t.reg TRG.FL_LAST_DIST = 0x47992633 ∧ t.reg TRG.FL_LAST_UNC = 0x3FBC28F6) = true := by decide +kernel

/-- R302's example: 512 frames of 512 bytes per millisecond are 2.097 Gb/s of the 8 Gb/s budget. -/
theorem test_frame_rate : boolBytes 416 + 4 * 96 = 436 ∧ 512 * (436 + 76) * 8000 = 2097152000 := by decide +kernel

/-- Chapter 13's worked example: 500 kbit/s and then 4 Mbit/s are detected. -/
theorem test_can_autobaud :
    after (execCanAutobaudNominalDetected 0 2 (st [(CAN.AB_CFG 0, 0x000A001F), (CAN.AB_RESULT 0, 0x10000000), (CAN.CTRL 0, 0x88000000)])) 
      (fun t => t.reg (CAN.NBT 0) = 0x023F1010) = true ∧
      after (execCanAutobaudDataDetected 0 2 (st [(CAN.AB_RESULT 0, 0x200001F4), (CAN.CTRL 0, 0xA8000000)])) (fun t => t.reg (CAN.DBT 0) = 0x010E0505 ∧
        t.reg (CAN.AB_RESULT 0) = 0x240001F4 ∧ t.regBit (CAN.TDC 0) 31 = true) = true := by decide +kernel

/-- R513's worked example: a drop of 186.2 mV is 268.5 µF, 89.50% and 997 mJ. -/
theorem test_holdup_measurement :
    after (execHoldupMeasurementEnd { drop := 1862, early := none } { lead with power := { measuring := some 0 } })
      (fun t => t.reg POWER.HU_CAP = 2685 ∧ t.regFld POWER.HU_ENERGY 31 16 = 8950 ∧ t.regFld POWER.HU_ENERGY 15 0 = 997) = true := by decide +kernel

/-- A drop above 208.3 mV is a low bank (R513). -/
theorem test_holdup_low :
    after (execHoldupMeasurementEnd { drop := 2084, early := none } { lead with power := { measuring := some 0 } })
      (fun t => t.regFld POWER.HU_RESULT 31 28 = 2 ∧ t.regBit POWER.STATUS 29 = true) = true := by decide +kernel

/-- The CRC-32C of Table TB-4, whose value over the digits 1 to 9 is the published check value. -/
theorem test_crc32c : crc32c [0x31, 0x32, 0x33, 0x34, 0x35, 0x36, 0x37, 0x38, 0x39] = 0xE3069283 := by decide +kernel

/-- The CRC-64 of R276 has the check value that the rule gives. -/
theorem test_crc64 : crc64 [0x31, 0x32, 0x33, 0x34, 0x35, 0x36, 0x37, 0x38, 0x39] = 0x62EC59E3F1A4F00A := by decide +kernel

/-- The digest of "abc" that the SM3 standard prints. -/
theorem test_sm3 : sm3 [0x61, 0x62, 0x63] = 0x66c7f0f462eeedd9d1f2d46bdc10e4e24167c4875cf2f7a2297da02b8f4ba8e0#256 := by decide +kernel

/-- The block that the SM4 standard prints, key and plain text the same. -/
theorem test_sm4 : sm4Block (sm4Schedule 0x0123456789abcdeffedcba9876543210) 0x0123456789abcdeffedcba9876543210 = 0x681edf34d206965e86b3e94f536e4246 := by
  decide +kernel

/-- The register example of R540: ACH.PHA_CFG of channel 5 is register 0x3604. -/
theorem test_register_address : ACH.PHA_CFG 5 = 0x3604 := by decide

/-- A collar's fence limit (R426): 301.6 µs for collar 13 and 20 µs for collar 19 with the default time-outs. -/
theorem test_fence_limit : (fenceLimit State.reset (2 ^ 13) + 500) / 1000 = 3016 ∧ fenceLimit State.reset (2 ^ 19) = 200000 := by decide +kernel

/-- A mode request of an Owner reaches the queue's front and is taken, passed to the partner and answered (R82). -/
theorem test_mode_request :
    after (step { withImg act .stop with pending := [.modeSetRun pk] })
      (fun t => t.pending = [] ∧ t.sent.map (·.kind) = [.reply, .passed]) = true := by decide +kernel

/-- A fatal runtime fault decides for SAFE (Table FX-9). -/
theorem test_runtime_fault :
    after (execRuntimeFatalFault (withImg act))
      (fun t => t.mode = .safe) = true := by decide +kernel

/-- A rail fault counts (Table PW-9). -/
theorem test_rail_fault :
    after (execRailFault 11 lead)
      (fun t => t.reg (POWER.RAIL_FAULTS 11) = 1) = true := by decide +kernel

/-! ### Ill-formed commands are refused -/

/-- An instant with 1,000,000,000 ns. -/
def badInstant : Instant := ⟨5, 1000000000, 0⟩

theorem test_ill_formed_instant :
    wellFormed (.ppsEdge badInstant) = false ∧ wellFormed (.tbCapture 0) = true ∧ wellFormed (.ppsEdge ⟨5, 999999999, 65535⟩) = true ∧
      wellFormed (.tdcEdge 0 ⟨5, 0, 65536⟩) = false ∧ wellFormed (.triggerLineAsserted 0 ⟨18446744073709551616, 0, 0⟩) = false := by decide +kernel

theorem test_ill_formed_lengths :
    wellFormed (.imageChunk pk 5 0 (List.replicate 1345 0)) = false ∧ wellFormed (.imageChunk pk 5 0 (List.replicate 1344 0)) = true ∧
      wellFormed (.updChunk pk 5 0 (List.replicate 1345 0)) = false ∧ wellFormed (.ping pk (List.replicate 1409 0)) = false ∧
      wellFormed (.pointRead pk (List.replicate 257 0)) = false ∧ wellFormed (.loopWindowStage pk 0 0 0 (List.replicate 17 0)) = false := by decide +kernel

theorem test_ill_formed_holdup : wellFormed (.holdupMeasurementEnd { drop := 0, early := none }) = false := by decide +kernel

/-! ### Hypotheses of the statements -/

/-- States and operands that meet the hypotheses of every clause of IdleStepTicks (its values at the ends of their ranges among them). -/
theorem witness_idle_step_ticks :
    ∃ s : State, s.pending = [] :=
  ⟨st [(TB.RATE_CORR, 0xFFFFFFFF)], by decide +kernel⟩

/-- States and operands that meet the hypotheses of every clause of NanosecondsCarry (its values at the ends of their ranges among them). -/
theorem witness_nanoseconds_carry :
    (∃ s : State, s.pending = [] ∧ secOf s.tb.now + 1 < 2 ^ 64) ∧
    (∃ s : State, s.pending = [] ∧ secOf s.tb.now + 1 < 2 ^ 64) :=
  ⟨⟨{ lead with tb := { now := 999999999 * nsUnits + 4294967295 } }, by decide +kernel, by decide +kernel⟩,
   ⟨{ lead with tb := { now := 5 } }, by decide +kernel, by decide +kernel⟩⟩

/-- States and operands that meet the hypotheses of every clause of TimingInput (its values at the ends of their ranges among them). -/
theorem witness_timing_input :
    (∃ _ : Instant, ∃ s : State, s.tb.lastEdge = none) ∧
    (∃ _ : Instant, ∃ s : State, ∃ e : ℕ, s.tb.lastEdge = some e) ∧
    (∃ _ : Instant, ∃ s : State, ∃ b : Bool, ∃ l : ℕ, s.regBit TREF.PPS_CFG 4 = true ∧ s.tb.todLabel = some (b, l)) ∧
    (∃ _ : Instant, ∃ s : State, (s.regBit TREF.PPS_CFG 4 = false ∨ s.tb.todLabel = none)) ∧
    (∃ bytes : List Byte, ∃ _ : ℕ, ∃ s : State, s.regBit TREF.PPS_CFG 4 = true ∧ todCorrect bytes = true ∧ s.tb.selRef = 1) ∧
    (∃ bytes : List Byte, ∃ _ : ℕ, ∃ s : State, s.regBit TREF.PPS_CFG 4 = true ∧ todCorrect bytes = true ∧ s.tb.selRef ≠ 1) ∧
    (∃ bytes : List Byte, ∃ _ : ℕ, ∃ s : State, s.regBit TREF.PPS_CFG 4 = true ∧ todCorrect bytes = false) ∧
    (∃ _ : List Byte, ∃ _ : ℕ, ∃ s : State, s.regBit TREF.PPS_CFG 4 = false) ∧
    (∃ f : IrigFrame, ∃ _ : Instant, ∃ s : State, irigSupported s f = true) ∧
    (∃ f : IrigFrame, ∃ _ : Instant, ∃ s : State, irigSupported s f = false) :=
  ⟨⟨⟨7, 999999999, 65535⟩, st [(TREF.PPS_DELAY, 0xFFFFFFFF)], by decide +kernel⟩,
   ⟨⟨8, 5, 0⟩, { st [(TREF.PPS_CFG, 16)] with tb := { lastEdge := some (7 * secUnits + 5004 * nsUnits) } }, 7 * secUnits + 5004 * nsUnits,
    by decide +kernel⟩,
   ⟨⟨8, 5, 0⟩, { st [(TREF.PPS_CFG, 16)] with tb := { todLabel := some (true, 8), lastEdge := some (7 * secUnits + 5004 * nsUnits) } }, true, 8,
    by decide +kernel⟩,
   ⟨⟨7, 999999999, 65535⟩, st [(TREF.PPS_DELAY, 0xFFFFFFFF)], by decide +kernel⟩,
   ⟨[0x51, 0x54, 1, 5, 0, 0, 0, 0, 0, 0, 0, 9, 0, 37, 0, 0, 0x16, 0x54, 0xb2, 0x47], 10000, { st [(TREF.PPS_CFG, 16)] with tb := { selRef := 1 } },
    by decide +kernel⟩,
   ⟨[0x51, 0x54, 1, 5, 0, 0, 0, 0, 0, 0, 0, 9, 0, 37, 0, 0, 0x16, 0x54, 0xb2, 0x47], 900001, (st [(TREF.PPS_CFG, 16)]).setRef 0 { label := some 8 },
    by decide +kernel⟩,
   ⟨[0x51], 5, st [(TREF.PPS_CFG, 16)], by decide +kernel⟩,
   ⟨[0x51], 5, st [(TREF.PPS_CFG, 0)], by decide +kernel⟩,
   ⟨{ digit := 4, modulated := true, extended := true, seconds := 86400, controlFunctions := 0x7A2A5 }, ⟨7, 5, 0⟩,
    { st [(TREF.IRIG_CFG, 0x104)] with tb := { selRef := 2 } }, by decide +kernel⟩,
   ⟨{ digit := 5, modulated := true, extended := true, seconds := 86400, controlFunctions := 5 }, ⟨7, 5, 0⟩, st [(TREF.IRIG_CFG, 0x104)],
    by decide +kernel⟩⟩

/-- States and operands that meet the hypotheses of every clause of References (its values at the ends of their ranges among them). -/
theorem witness_references :
    (∃ r : Fin 3, ∃ l : ℕ, ∃ s : State, secondVerdict s ↑r = SecondVerdict.valid l ∧ ↑r ≠ 0) ∧
    (∃ r : Fin 3, ∃ s : State, secondVerdict s ↑r = SecondVerdict.invalid ∧ ↑r = 0) ∧
    (∃ r : Fin 3, ∃ s : State, secondVerdict s ↑r = SecondVerdict.invalid ∧ ↑r = 1) ∧
    (∃ r : Fin 3, ∃ s : State, secondVerdict s ↑r = SecondVerdict.invalid ∧ ↑r = 2) ∧
    (∃ r : Fin 3, ∃ s : State, secondVerdict s ↑r = SecondVerdict.invalid ∧ ↑r ≠ 0) ∧
    (∃ r : Fin 3, ∃ s : State,
     secondVerdict s ↑r = SecondVerdict.missing ∧ ((s.ref ↑r).state = RefState.qualifying ∨ (s.ref ↑r).state = RefState.qualified)) ∧
    (∃ r : Fin 3, ∃ s : State, secondVerdict s ↑r = SecondVerdict.missing ∧ ↑r ≠ 0) ∧
    (∃ r : Fin 3, ∃ s : State,
     (s.ref ↑r).state = RefState.qualifying ∧ s.regFld TREF.QUAL_TIME 7 0 ≤ (s.ref ↑r).valid ∧ s.refEnabled ↑r = true ∧ s.refAcceptable ↑r = true ∧
       (s.follower = true ∨ s.tb.jumpPending = false ∧ 1 ≤ s.tb.selRef ∧ s.tb.selRef ≤ 3)) ∧
    (∃ r : Fin 3, ∃ s : State,
     (s.ref ↑r).state = RefState.qualifying ∧ s.regFld TREF.QUAL_TIME 7 0 ≤ (s.ref ↑r).valid ∧ s.refEnabled ↑r = true ∧ s.refAcceptable ↑r = true ∧
       s.follower = false ∧ s.tb.jumpPending = false ∧ s.tb.selRef = 0 ∧ s.settled = false ∧ s.tb.stepGivenUp = false) ∧
    (∃ r : Fin 3, ∃ _ : HoldoverEntry, ∃ s : State,
     (s.ref ↑r).state = RefState.qualified ∧ s.refAcceptable ↑r = true ∧ 2 ≤ (s.ref ↑r).bad ∧ s.tb.selRef ≠ ↑r + 1 ∧
       (s.tb.jumpPending = false ∨ s.tb.jumpRef ≠ ↑r + 1)) ∧
    (∃ s : State,
     s.regBit TREF.CTRL 8 = true ∧ s.bestRef ≠ 0 ∧ s.bestRef ≠ s.tb.selRef ∧ 1 ≤ s.tb.selRef ∧ s.tb.selRef ≤ 3 ∧ s.tb.jumpPending = false ∧
       BitVec.toNat (s.reg TREF.WTR) ≤ (s.ref (s.bestRef - 1)).qualifiedFor ∧ s.settled = true ∧ (s.codeOffset s.bestRef).natAbs ≤
       s.stepThresh.natAbs) :=
  ⟨⟨1, 8, lead.setRef 1 { message := some (true, 8), valid := 5 }, by decide +kernel⟩,
   ⟨0, lead.setRef 0 { edge := some false, message := some (true, 8), valid := 5 }, by decide +kernel⟩,
   ⟨1, lead.setRef 1 { message := some (false, 8), label := some 8, seen := some 9 }, by decide +kernel⟩,
   ⟨2, { lead with ptp := { sinceMeasured := some 1 } }, by decide +kernel⟩,
   ⟨1, lead.setRef 1 { message := some (false, 8), label := some 8, seen := some 9 }, by decide +kernel⟩,
   ⟨1, lead.setRef 1 { valid := 5, state := .qualified, bad := 1 }, by decide +kernel⟩,
   ⟨1, lead.setRef 1 { valid := 5, state := .qualified, bad := 1 }, by decide +kernel⟩,
   ⟨1, (st [(TREF.QUAL_TIME, 10), (TREF.CTRL, 7)] foll).setRef 1 { valid := 10, state := .qualifying }, by decide +kernel⟩,
   ⟨1, (st [(TREF.QUAL_TIME, 10), (TREF.CTRL, 7)]).setRef 1 { valid := 10, state := .qualifying, offset := -7 }, by decide +kernel⟩,
   ⟨1, ⟨5, 6⟩, (st [(TREF.CTRL, 7)]).setRef 1 { bad := 2, state := .qualified }, by decide +kernel⟩,
   ⟨(let b := (st [(TREF.CTRL, 0x107), (TREF.WTR, 60), (TREF.PRIO, 0x123)]).setRef 0 { state := .qualified, qualifiedFor := 60 };
       { b with tb := { b.tb with selRef := 2, stepped := true } }), by decide +kernel⟩⟩

/-- States and operands that meet the hypotheses of every clause of ServoAndJumps (its values at the ends of their ranges among them). -/
theorem witness_servo_and_jumps :
    (∃ u : ServoInput, ∃ s : State,
     1 ≤ s.tb.selRef ∧ s.tb.selRef ≤ 3 ∧ s.tb.jumpPending = false ∧ (s.tb.limitSlew = false ∨ u.offset.natAbs ≤ secondAtLimit s) ∧ -s.slewLimit ≤
       u.rate ∧ u.rate ≤ s.slewLimit) ∧
    (∃ u : ServoInput, ∃ s : State,
     1 ≤ s.tb.selRef ∧ s.tb.selRef ≤ 3 ∧ s.tb.jumpPending = false ∧ (s.tb.limitSlew = false ∨ u.offset.natAbs ≤ secondAtLimit s) ∧ s.slewLimit <
       u.rate) ∧
    (∃ u : ServoInput, ∃ s : State,
     1 ≤ s.tb.selRef ∧ s.tb.selRef ≤ 3 ∧ s.tb.jumpPending = false ∧ (s.tb.limitSlew = false ∨ u.offset.natAbs ≤ secondAtLimit s) ∧ u.rate <
       -s.slewLimit) ∧
    (∃ u : ServoInput, ∃ s : State,
     1 ≤ s.tb.selRef ∧ s.tb.selRef ≤ 3 ∧ s.tb.jumpPending = false ∧ s.tb.limitSlew = true ∧ secondAtLimit s < u.offset.natAbs) ∧
    (∃ s : State,
     1 ≤ s.tb.selRef ∧ s.tb.selRef ≤ 3 ∧ s.regFld TB.LOCK_CFG 7 0 ≤ s.tb.inWindow ∧ s.tb.jumpPending = false ∧ s.tb.quality ≠ Quality.locked) ∧
    (∃ _ : HoldoverEntry, ∃ s : State,
     s.settled = true ∧ 2 ≤ s.tb.beyond ∧ 1 ≤ s.tb.selRef ∧ s.tb.selRef ≤ 3 ∧ s.tb.jumpPending = false ∧ s.tb.limitSlew = false ∧ s.tb.quality ≠
       Quality.locked) ∧
    (∃ _ : HoldoverEntry, ∃ s : State,
     s.settled = true ∧ 2 ≤ s.tb.beyond ∧ 1 ≤ s.tb.selRef ∧ s.tb.selRef ≤ 3 ∧ s.tb.jumpPending = false ∧ s.tb.limitSlew = false ∧ s.tb.quality =
       Quality.locked) ∧
    (∃ s : State, s.tb.jumpPending = true ∧ 0 ≤ s.codeOffset s.tb.jumpRef) ∧
    (∃ s : State, s.tb.jumpPending = true ∧ s.codeOffset s.tb.jumpRef < 0) ∧
    (∃ s : State, s.tb.jumpPending = true ∧ s.tb.quality = Quality.free) ∧
    (∃ s : State, s.tb.jumpPending = true ∧ s.tb.quality ≠ Quality.free) :=
  ⟨⟨⟨256, -0x83126, 88, ⟨1, 2, 3, 4, 5⟩, ⟨6, 7⟩⟩,
    { lead with tb := { selRef := 2, stepped := true, quality := .free, limitSlew := true, beyond := 1 } }, by decide +kernel⟩,
   ⟨⟨-300, 99999999, 88, ⟨1, 2, 3, 4, 5⟩, ⟨6, 7⟩⟩,
    { lead with tb := { selRef := 1, stepped := true, quality := .locked, inWindow := 3, beyond := 1 } }, by decide +kernel⟩,
   ⟨⟨-300, -99999999, 88, ⟨1, 2, 3, 4, 5⟩, ⟨6, 7⟩⟩,
    { lead with tb := { selRef := 1, stepped := true, quality := .free, inWindow := 3, beyond := 1 } }, by decide +kernel⟩,
   ⟨⟨-300000000, -99999999, 88, ⟨1, 2, 3, 4, 5⟩, ⟨6, 7⟩⟩,
    { lead with tb := { selRef := 3, stepped := true, quality := .free, slewing := true, limitSlew := true, inWindow := 3, beyond := 1 } },
    by decide +kernel⟩,
   ⟨{ st [(TB.LOCK_CFG, 10)] with tb := { selRef := 1, stepped := true, quality := .free, slewing := true, inWindow := 10 } }, by decide +kernel⟩,
   ⟨⟨5, 6⟩, { lead with tb := { selRef := 2, stepGivenUp := true, quality := .holdover, beyond := 2 } }, by decide +kernel⟩,
   ⟨⟨5, 6⟩, { lead with tb := { selRef := 2, stepped := true, quality := .locked, beyond := 2, frequencies := [(0, 40), (0, 21)] } },
    by decide +kernel⟩,
   ⟨{ lead with tb := { selRef := 2, stepped := true, quality := .locked, jumpPending := true, jumpRef := 2 } }, by decide +kernel⟩,
   ⟨(({ lead with tb := { selRef := 2, stepped := true, quality := .free, jumpPending := true, jumpRef := 2 } } : State).setRef 1 { offset := -5 }),
    by decide +kernel⟩,
   ⟨(({ lead with tb := { selRef := 2, stepped := true, quality := .free, jumpPending := true, jumpRef := 2 } } : State).setRef 1 { offset := -5 }),
    by decide +kernel⟩,
   ⟨{ lead with tb := { selRef := 2, stepped := true, quality := .locked, jumpPending := true, jumpRef := 2 } }, by decide +kernel⟩⟩

/-- States and operands that meet the hypotheses of every clause of HoldoverAndLeap (its values at the ends of their ranges among them). -/
theorem witness_holdover_and_leap :
    (∃ s : State,
     s.tb.quality = Quality.holdover ∧
       (holdNumerator s.tb.holdE0 (BitVec.toNat (s.reg TB.HOLD_Y)) (BitVec.toNat (s.reg TB.HOLD_A)) (s.tb.holdTime + 1) + 172799999999) / 172800000000
       < 4294967296) ∧
    (∃ s : State,
     s.tb.quality = Quality.holdover ∧ (holdNumerator s.tb.holdE0 (BitVec.toNat (s.reg TB.HOLD_Y)) (BitVec.toNat (s.reg TB.HOLD_A))
                                          (s.tb.holdTime + 1) ≤ BitVec.toNat (s.reg TB.HOLD_BOUND) * 172800000000 ∨ s.follower = true)) ∧
    (∃ s : State,
     s.tb.quality = Quality.holdover ∧ BitVec.toNat (s.reg TB.HOLD_BOUND) * 172800000000 < holdNumerator s.tb.holdE0 (BitVec.toNat (s.reg TB.HOLD_Y))
       (BitVec.toNat (s.reg TB.HOLD_A)) (s.tb.holdTime + 1) ∧ s.follower = false) ∧
    (∃ s : State, s.regBit TB.LEAP_CTRL 31 = true ∧ s.leapInstant - 43200 ≤ ↑(secOf s.tb.now) ∧ ↑(secOf s.tb.now) < s.leapInstant) ∧
    (∃ s : State, s.regBit TB.LEAP_CTRL 31 = true ∧ s.leapInstant ≤ ↑(secOf s.tb.now)) :=
  ⟨⟨{ st [(TB.HOLD_Y, 5)] with tb := { stepped := true, quality := .holdover, holdE0 := 48 } }, by decide +kernel⟩,
   ⟨{ st [(TB.HOLD_Y, 5)] with tb := { stepped := true, quality := .holdover, holdE0 := 48 } }, by decide +kernel⟩,
   ⟨{ st [(TB.HOLD_BOUND, 3), (TB.HOLD_Y, 5)] with tb := { stepped := true, quality := .holdover, holdE0 := 480 } }, by decide +kernel⟩,
   ⟨{ st [(TB.LEAP_CTRL, 0x80000001)] with tb := { now := 130000 * secUnits } }, by decide +kernel⟩,
   ⟨{ st [(TB.LEAP_CTRL, 0x80000001)] with tb := { now := 173000 * secUnits } }, by decide +kernel⟩⟩

/-- States and operands that meet the hypotheses of every clause of PairTime (its values at the ends of their ranges among them). -/
theorem witness_pair_time :
    (∃ p : Pkt, ∃ x : Session, ∃ v : Word, ∃ s : State, ∃ d : ℤ, ∃ q : Quality,
     MayWrite s p x TB.RESTEP v ∧ s.frame.sw = none ∧ restepSource s = some (d, q)) ∧
    (∃ p : Pkt, ∃ x : Session, ∃ v : Word, ∃ s : State, MayWrite s p x TB.RESTEP v ∧ s.frame.sw = none ∧ restepSource s = none) ∧
    (∃ p : Pkt, ∃ x : Session, ∃ v : Word, ∃ s : State,
     MayWrite s p x TB.RESTEP v ∧ s.frame.sw = none ∧ (s.role = Role.active ∨ s.role = Role.solo) ∧ s.mode ≠ RunMode.stop) ∧
    (∃ _ : ℤ, ∃ _ : Word, ∃ _ : Quality, ∃ _ : PairServo, ∃ s : State, s.follower = true ∧ s.tb.stepped = true) ∧
    (∃ _ : ℤ, ∃ _ : Word, ∃ _ : Quality, ∃ _ : PairServo, ∃ s : State, s.follower = true ∧ s.tb.stepped = false) ∧
    (∃ _ : ℤ, ∃ _ : Word, ∃ _ : Quality, ∃ _ : PairServo, ∃ s : State, s.follower = false) ∧
    (∃ s : State, s.follower = true ∧ s.tb.alignOk = true ∧ 100 ≤ s.tb.alignMisses) ∧
    (∃ d : ℤ, ∃ q : Quality, ∃ again : Bool, ∃ s : State,
     s.tb.stepDue = some (d, q, again) ∧ 0 ≤ ↑(frameTickAt s) + d ∧ s.tb.now ≤ frameTickAt s ∧ (↑(frameTickAt s) + d).toNat < timeModulus) ∧
    (∃ n : Fin 16, ∃ s : State, s.regBit (TB.CAP_CTRL ↑n) 0 = true ∧ s.regBit (TB.CAP_CTRL ↑n) 2 = false) ∧
    (∃ n : Fin 16, ∃ s : State, s.regBit (TB.CAP_CTRL ↑n) 0 = false) ∧
    (∃ p : Pkt, ∃ n : Fin 16, ∃ x : Session, ∃ v : Word, ∃ s : State,
     MayWrite s p x (TB.CAP_CTRL ↑n) v ∧ bit v 0 = true ∧ bit v 2 = false ∧ s.regBit (TB.CAP_CTRL ↑n) 0 = false ∧ fld v 12 8 ≠ 0) ∧
    (∃ p : Pkt, ∃ n : Fin 16, ∃ x : Session, ∃ v : Word, ∃ s : State,
     MayWrite s p x (TB.CAP_CTRL ↑n) v ∧ bit v 0 = true ∧ bit v 2 = false ∧ s.regBit (TB.CAP_CTRL ↑n) 0 = false ∧ fld v 12 8 = 0) :=
  ⟨⟨pk, ses 3, 0x5354, { foll with tb := { pairOffset := 7, alignOk := true, alignMisses := 99, leaderQuality := .holdover, stepped := true } },
    (16777216 * 7 : Int), Quality.holdover, mayWrite_of (by decide +kernel), by decide +kernel⟩,
   ⟨pk, ses 3, 0x5354, { lead with mode := .run }, mayWrite_of (by decide +kernel), by decide +kernel⟩,
   ⟨pk, ses 3, 0x5354, { lead with mode := .run }, mayWrite_of (by decide +kernel), by decide +kernel⟩,
   ⟨-5, 3, .locked, ⟨77, 5⟩, { foll with tb := { stepped := true } }, by decide +kernel⟩,
   ⟨-5, 3, .locked, ⟨77, 5⟩, foll, by decide +kernel⟩,
   ⟨-5, 3, .locked, ⟨77, 5⟩, act, by decide +kernel⟩,
   ⟨{ foll with tb := { stepped := true, quality := .locked, alignOk := true, alignMisses := 100, leaderQuality := .locked } }, by decide +kernel⟩,
   ⟨-5, .locked, true, { lead with tb := { stepDue := some (-5, .locked, true) } }, by decide +kernel⟩,
   ⟨15, { st [(TB.CAP_CTRL 15, 0x801)] with tb := { now := 12345678901234567, quality := .holdover } }, by decide +kernel⟩,
   ⟨15, lead, by decide +kernel⟩,
   ⟨pk, 15, ses 3, 0x401, lead, mayWrite_of (by decide +kernel), by decide +kernel⟩,
   ⟨pk, 0, ses 3, 0x1, lead, mayWrite_of (by decide +kernel), by decide +kernel⟩⟩

/-- States and operands that meet the hypotheses of every clause of PtpMessages (its values at the ends of their ranges among them). -/
theorem witness_ptp_messages :
    (∃ p : Fin 5, ∃ m : SyncMessage, ∃ s : State,
     s.ptpPortOn ↑p = true ∧ BitVec.toNat m.domain = fld s.ptp.domain 7 0 ∧ BitVec.toNat (s.reg PTP.SLAVE_PORT) = ↑p + 1 ∧ Option.map (fun x => x.id)
       s.ptp.masters.head? = some m.id ∧ m.twoStep = true) ∧
    (∃ p : Fin 5, ∃ m : SyncMessage, ∃ s : State,
     s.ptpPortOn ↑p = true ∧ BitVec.toNat m.domain = fld s.ptp.domain 7 0 ∧ BitVec.toNat (s.reg PTP.SLAVE_PORT) = ↑p + 1 ∧ Option.map (fun x => x.id)
       s.ptp.masters.head? = some m.id ∧ m.twoStep = false) ∧
    (∃ p : Fin 5, ∃ n : Half, ∃ _ : ℤ, ∃ s : State, s.ptpPortOn ↑p = true ∧ s.ptp.awaiting = some (↑p, BitVec.toNat n)) ∧
    (∃ p : Fin 5, ∃ n : Half, ∃ _ : ℤ, ∃ s : State, s.ptpPortOn ↑p = true ∧ s.ptp.awaiting ≠ some (↑p, BitVec.toNat n)) ∧
    (∃ p : Fin 5, ∃ turn : Turnaround, ∃ s : State, s.ptpPortOn ↑p = true ∧ s.lock.cutOff = false ∧ turn.complete = true) ∧
    (∃ p : Fin 5, ∃ turn : Turnaround, ∃ s : State, s.ptpPortOn ↑p = true ∧ s.lock.cutOff = false ∧ turn.complete = false) ∧
    (∃ p : Fin 5, ∃ _ : Word, ∃ _ : Word, ∃ s : State, s.ptpPortOn ↑p = true) ∧
    (∃ p : Fin 5, ∃ s : State, s.ptpPortOn ↑p = true ∧ s.lock.cutOff = false) ∧
    (∃ _ : Fin 5, ∃ _ : Turnaround, ∃ s : State, s.lock.cutOff = true) ∧
    (∃ p : Fin 5, ∃ s : State,
     mayAnnounce s ↑p = true ∧ s.reg (PTP.PORT_STATE ↑p) = 6 ∧ s.lock.cutOff = false ∧ s.tb.quality = Quality.locked ∧ s.tb.selRef = 1 ∧
       (s.ref 0).traceable = true) ∧
    (∃ p : Fin 5, ∃ s : State, mayAnnounce s ↑p = true ∧ s.reg (PTP.PORT_STATE ↑p) = 6 ∧ s.lock.cutOff = false ∧ s.tb.quality = Quality.free) ∧
    (∃ p : Fin 5, ∃ s : State, mayAnnounce s ↑p = true ∧ s.lock.cutOff = false) ∧
    (∃ p : Fin 5, ∃ s : State, mayAnnounce s ↑p = true) ∧
    (∃ p : Fin 5, ∃ a : Announce, ∃ s : State, s.ptpPortOn ↑p = true ∧ BitVec.toNat a.domain ≠ fld s.ptp.domain 7 0) ∧
    (∃ p : Fin 5, ∃ a : Announce, ∃ s : State, s.ptpPortOn ↑p = true ∧ BitVec.toNat a.domain = fld s.ptp.domain 7 0) ∧
    (∃ id : Dword, ∃ _ : HoldoverEntry, ∃ s : State,
     (s.ptp.masters.any fun m => decide (m.id = id)) = true ∧ Option.map (fun x => x.id) s.ptp.masters.head? = some id ∧ s.reg PTP.SLAVE_PORT ≠ 0) ∧
    (∃ _ : HoldoverEntry, ∃ s : State, s.reg PTP.SLAVE_PORT ≠ 0) ∧
    (∃ n : ℕ, ∃ s : State, s.ptp.configAt = some n) :=
  ⟨⟨2, { domain := 0, id := 9, sequence := 4, interval := 0xFD, twoStep := true, delta := -100 },
    (let b := st [(PTP.PORT_CFG 2, 0x80000000), (PTP.SLAVE_PORT, 3)]; { b with
                                                                        ptp :=
                                                                          { b.ptp with
                                                                            masters :=
                                                                              [{ id := 9, priority1 := 1, clockClass := 6, accuracy := 0x21,
                                                                                 variance := 0, priority2 := 1, stepsRemoved := 0, port := 3,
                                                                                 timeSource := 0x20 }] } }), by decide +kernel⟩,
   ⟨2, { domain := 0, id := 9, sequence := 4, interval := 0xFD, twoStep := false, delta := -100 },
    (let b := st [(PTP.PORT_CFG 2, 0x80000000), (PTP.SLAVE_PORT, 3), (PTP.MEAN_LINK_DELAY 2, 500), (PTP.DELAY_ASYM 2, 0xFFFFFFFF)];
       { b with
         ptp := { b.ptp with
                  masters := [{ id := 9, priority1 := 1, clockClass := 6, accuracy := 0x21, variance := 0, priority2 := 1, stepsRemoved := 0,
                                port := 3, timeSource := 0x20 }] } }), by decide +kernel⟩,
   ⟨4, 8, 40, { st [(PTP.PORT_CFG 4, 0x80000000)] with ptp := { awaiting := some (4, 8) } }, by decide +kernel⟩,
   ⟨4, 8, 40, { st [(PTP.PORT_CFG 4, 0x80000000)] with ptp := { awaiting := some (5, 8) } }, by decide +kernel⟩,
   ⟨0, ⟨65535, true⟩, st [(PTP.PORT_CFG 0, 0x80000000), (PTP.INGRESS_LAT 0, 5), (PTP.CTRL, 0x80010100)] foll, by decide +kernel⟩,
   ⟨9, ⟨5, 6⟩,
    (let b := st [(PTP.PORT_CFG 2, 0x80000000), (PTP.SLAVE_PORT, 3)]; { b with
                                                                        ptp :=
                                                                          { b.ptp with
                                                                            masters :=
                                                                              [{ id := 9, priority1 := 1, clockClass := 6, accuracy := 0x21,
                                                                                 variance := 0, priority2 := 1, stepsRemoved := 0, port := 3,
                                                                                 timeSource := 0x20 }] } }), by decide +kernel⟩,
   ⟨4, 8, 40, { st [(PTP.PORT_CFG 4, 0x80000000)] with ptp := { awaiting := some (5, 8) } }, by decide +kernel⟩,
   ⟨4, st [(PTP.PORT_CFG 4, 0x80000000)], by decide +kernel⟩,
   ⟨4, ⟨65536, true⟩, { st [(PTP.PORT_CFG 4, 0x80000000)] with lock := { cutOff := true }, tb := { quality := .free } }, by decide +kernel⟩,
   ⟨0, { st [(PTP.PORT_CFG 0, 0x80000000), (PTP.PORT_STATE 0, 6)] with tb := { quality := .locked, selRef := 1 } }, by decide +kernel⟩,
   ⟨4, { st [(PTP.PORT_CFG 4, 0x80000000), (PTP.PORT_STATE 4, 6)] with tb := { quality := .free } }, by decide +kernel⟩,
   ⟨4, { st [(PTP.PORT_CFG 4, 0x80000000), (PTP.PORT_STATE 4, 6)] with tb := { quality := .free } }, by decide +kernel⟩,
   ⟨4, { st [(PTP.PORT_CFG 4, 0x80000000), (PTP.PORT_STATE 4, 6)] with tb := { quality := .free } }, by decide +kernel⟩,
   ⟨3,
    { domain := 1, id := 9, priority1 := 1, clockClass := 6, accuracy := 0x21, variance := 0, priority2 := 1, stepsRemoved := 0, timeSource := 0x20,
      utcOffset := 37, leap61 := true, leap59 := false }, st [(PTP.PORT_CFG 3, 0x80000000)], by decide +kernel⟩,
   ⟨3,
    { domain := 0, id := 9, priority1 := 1, clockClass := 6, accuracy := 0x21, variance := 0, priority2 := 1, stepsRemoved := 0, timeSource := 0x20,
      utcOffset := 37, leap61 := true, leap59 := false }, st [(PTP.PORT_CFG 3, 0x80000000), (PTP.PORT_STATE 3, 4)], by decide +kernel⟩,
   ⟨9, ⟨5, 6⟩,
    (let b := st [(PTP.PORT_CFG 2, 0x80000000), (PTP.SLAVE_PORT, 3)]; { b with
                                                                        ptp :=
                                                                          { b.ptp with
                                                                            masters :=
                                                                              [{ id := 9, priority1 := 1, clockClass := 6, accuracy := 0x21,
                                                                                 variance := 0, priority2 := 1, stepsRemoved := 0, port := 3,
                                                                                 timeSource := 0x20 }] } }), by decide +kernel⟩,
   ⟨⟨5, 6⟩, (st [(PTP.SLAVE_PORT, 3)]).setRef 2 { state := .qualified }, by decide +kernel⟩,
   ⟨5, { st [(PTP.CTRL, 0x80010100)] with ptp := { configAt := some 5 } }, by decide +kernel⟩⟩

/-- States and operands that meet the hypotheses of every clause of ModeRequests (its values at the ends of their ranges among them). -/
theorem witness_mode_requests :
    (∃ p : Pkt, ∃ x : Session, ∃ s : State,
     Admits s p x ∧ 1 ≤ x.role ∧ s.mayConfigure = true ∧ s.mode = RunMode.stop ∧ s.frame.runChange = none ∧ s.frame.sw = none ∧ runRefused s =
       false) ∧
    (∃ p : Pkt, ∃ x : Session, ∃ s : State, Admits s p x ∧ 1 ≤ x.role ∧ s.mayConfigure = true ∧ s.mode = RunMode.run ∧ s.frame.runChange = none) ∧
    (∃ p : Pkt, ∃ x : Session, ∃ s : State,
     Admits s p x ∧ 2 ≤ x.role ∧ s.mayConfigure = true ∧ s.frame.runChange = none ∧
       (s.mode = RunMode.hold ∨ s.mode = RunMode.safe ∧ s.reg MODE.SAFE_CAUSE = 0)) ∧
    (∃ p : Pkt, ∃ x : Session, ∃ s : State,
     Admits s p x ∧ (if s.role = Role.solo then 3 else 2) ≤ x.role ∧
       (s.mode = RunMode.stop ∧ (s.role = Role.solo ∨ s.role = Role.out) ∨ s.mode = RunMode.run ∧ s.role = Role.solo)) ∧
    (∃ p : Pkt, ∃ x : Session, ∃ s : State, Admits s p x ∧ 1 ≤ x.role ∧ s.mayConfigure = true ∧ s.mode ≠ RunMode.safe) ∧
    (∃ p : Pkt, ∃ x : Session, ∃ s : State, Admits s p x ∧ 1 ≤ x.role ∧ s.mayConfigure = false) :=
  ⟨⟨pk, ses 3, withImg act .stop, admits_of (by decide +kernel) (by decide +kernel), by decide +kernel⟩,
   ⟨pk, ses 3, withImg act, admits_of (by decide +kernel) (by decide +kernel), by decide +kernel⟩,
   ⟨pk, ses 3, withImg act .hold, admits_of (by decide +kernel) (by decide +kernel), by decide +kernel⟩,
   ⟨pk, ses 3, withImg { act with role := .solo } .run, admits_of (by decide +kernel) (by decide +kernel), by decide +kernel⟩,
   ⟨pk, ses 3, withImg act .stop, admits_of (by decide +kernel) (by decide +kernel), by decide +kernel⟩,
   ⟨pk, ses 3, withImg foll, admits_of (by decide +kernel) (by decide +kernel), by decide +kernel⟩⟩

/-- States and operands that meet the hypotheses of every clause of ModeChanges (its values at the ends of their ranges among them). -/
theorem witness_mode_changes :
    (∃ c : RunChange, ∃ s : State,
     s.frame.runChange = some c ∧ c.toRun = true ∧ s.mode = RunMode.stop ∧ (s.role = Role.active ∨ s.role = Role.solo) ∧ runRefused s = false ∧
       (s.tb.stepped = true ∨ s.tb.stepDue = none)) ∧
    (∃ c : RunChange, ∃ s : State,
     s.frame.runChange = some c ∧ c.toRun = true ∧ s.mode = RunMode.stop ∧ (s.role = Role.active ∨ s.role = Role.solo) ∧ runRefused s = false ∧
       s.tb.stepped = false) ∧
    (∃ c : RunChange, ∃ s : State,
     s.frame.runChange = some c ∧ c.toRun = false ∧ s.mode = RunMode.run ∧ (s.role = Role.active ∨ s.role = Role.solo ∨ s.role = Role.standby) ∧
       s.frame.sw = none) ∧
    (∃ c : RunChange, ∃ s : State, s.frame.runChange = some c ∧ c.confirmed = true) ∧
    (∃ c : RunChange, ∃ s : State, s.frame.runChange = some c ∧ c.confirmed = false ∧ s.role = Role.standby) ∧
    (∃ c : RunChange, ∃ s : State, s.frame.runChange = some c ∧ c.confirmed = false ∧ s.role ≠ Role.standby) ∧
    (∃ s : State, (s.mode = RunMode.run ∨ s.mode = RunMode.hold) ∧ s.frame.sw = none ∧ s.frame.runChange = none) ∧
    (∃ s : State, (s.mode = RunMode.run ∨ s.mode = RunMode.hold) ∧ s.frame.sw = none ∧ s.frame.runChange = none) ∧
    (∃ s : State, s.frame.autoRun = true ∧ s.mode = RunMode.stop ∧ runRefused s = false ∧ s.frame.runChange = none) :=
  ⟨⟨{ toRun := true, tick := 5 * secUnits, by_ := some (requesterOf pk), confirmed := true },
    (let b := withImg act .stop; { b with
                                   frame := { b.frame with
                                              runChange := some ({ toRun := true, tick := 5 * secUnits, by_ := some (requesterOf pk),
                                                                   confirmed := true } : RunChange) } }), by decide +kernel⟩,
   ⟨{ toRun := true, tick := 5 * secUnits, by_ := none, confirmed := true },
    (let b := (let u := st [(TB.CTRL, 0x100)] (withImg { lead with role := .solo } .stop); { u with tb := { u.tb with stepped := false, stepDue := some (5, .locked, false), selRef := 1 } });
       { b with frame := { b.frame with runChange := some ({ toRun := true, tick := 5 * secUnits, by_ := none, confirmed := true } : RunChange) } }),
    by decide +kernel⟩,
   ⟨{ toRun := false, tick := 5 * secUnits, by_ := some (requesterOf pk), confirmed := true },
    (let b := withImg act; { b with
                             frame := { b.frame with
                                        runChange := some
                                          ({ toRun := false, tick := 5 * secUnits, by_ := some (requesterOf pk), confirmed := true } : RunChange) } }),
    by decide +kernel⟩,
   ⟨{ toRun := true, tick := 5 * secUnits, by_ := some (requesterOf pk), confirmed := true },
    (let b := withImg act .stop; { b with
                                   frame := { b.frame with
                                              runChange := some ({ toRun := true, tick := 5 * secUnits, by_ := some (requesterOf pk),
                                                                   confirmed := true } : RunChange) } }), by decide +kernel⟩,
   ⟨{ toRun := false, tick := 5 * secUnits, by_ := none, confirmed := false },
    (let b := withImg foll; { b with
                              frame := { b.frame with
                                         runChange := some ({ toRun := false, tick := 5 * secUnits, by_ := none, confirmed := false } : RunChange) } }),
    by decide +kernel⟩,
   ⟨{ toRun := true, tick := 5 * secUnits, by_ := none, confirmed := false },
    (let b := withImg { lead with role := .solo } .stop;
       { b with frame := { b.frame with runChange := some ({ toRun := true, tick := 5 * secUnits, by_ := none, confirmed := false } : RunChange) } }),
    by decide +kernel⟩,
   ⟨withImg act, by decide +kernel⟩,
   ⟨withImg act, by decide +kernel⟩,
   ⟨(let b := withImg act .stop; { b with frame := { b.frame with autoRun := true } }), by decide +kernel⟩⟩

/-- States and operands that meet the hypotheses of every clause of TaskInstances (its values at the ends of their ranges among them). -/
theorem witness_task_instances :
    (∃ s : State, s.frame.stage = 0 ∧ verdictDue s = false) ∧
    (∃ s : State, s.frame.stage ≠ 0) ∧
    (∃ s : State, s.frame.stage = 1 ∧ s.frame.run0.isSome = true) ∧
    (∃ s : State, s.frame.stage = 1 ∧ s.frame.run1.isSome = true) ∧
    (∃ s : State, s.frame.stage ≠ 1) ∧
    (∃ n : Fin 16, ∃ r : TaskResult, ∃ b : Budget, ∃ y : TaskInstance, ∃ m : List (ℕ × Storage), ∃ s : State,
     (s.image.bind fun i => taskIn i ↑n) = some b ∧ s.frame.instances = [y] ∧ y.task = ↑n ∧ y.done = false ∧ y.stopped = false ∧ s.frame.stage = 1 ∧
       runningOn s b.core = some ↑n ∧ 320 ≤ r.finish ∧ r.finish ≤ 3000 ∧ readsFit y r = true ∧ evaluateAll y.released s.frame.store r.evaluations =
       some m ∧ r.time ≤ b.budget) ∧
    (∃ n : Fin 16, ∃ r : TaskResult, ∃ b : Budget, ∃ y : TaskInstance, ∃ m : List (ℕ × Storage), ∃ s : State,
     (s.image.bind fun i => taskIn i ↑n) = some b ∧ s.frame.instances = [y] ∧ y.task = ↑n ∧ y.done = false ∧ y.stopped = false ∧ s.frame.stage = 1 ∧
       runningOn s b.core = some ↑n ∧ 320 ≤ r.finish ∧ r.finish ≤ 3000 ∧ readsFit y r = true ∧ evaluateAll y.released s.frame.store r.evaluations =
       some m ∧ b.budget < r.time) ∧
    (∃ n : Fin 16, ∃ _ : Instant, ∃ b : Budget, ∃ s : State, ∃ l : ℕ,
     s.executing = true ∧ (s.image.bind fun i => taskIn i ↑n) = some b ∧ b.cls = 6 ∧ ((s.eTask ↑n).due.any fun x => x.deferred) = false ∧
       (s.eTask ↑n).latest = some l ∧ s.frameNo + 1 < l + b.interarrival) ∧
    (∃ n : Fin 16, ∃ _ : Instant, ∃ b : Budget, ∃ s : State,
     s.executing = true ∧ (s.image.bind fun i => taskIn i ↑n) = some b ∧ b.cls = 6 ∧ ((s.eTask ↑n).due.any fun x => x.deferred) = false ∧
       (∀ (l : ℕ), (s.eTask ↑n).latest = some l → l + b.interarrival ≤ s.frameNo + 1)) ∧
    (∃ n : Fin 16, ∃ _ : Instant, ∃ b : Budget, ∃ s : State,
     s.executing = true ∧ (s.image.bind fun i => taskIn i ↑n) = some b ∧ b.cls = 6 ∧ ((s.eTask ↑n).due.any fun x => x.deferred) = true) ∧
    (∃ n : Fin 16, ∃ b : Budget, ∃ y : TaskInstance, ∃ s : State,
     (s.image.bind fun i => taskIn i ↑n) = some b ∧ s.frame.instances = [y] ∧ y.task = ↑n ∧ y.done = false ∧ y.stopped = false ∧ s.frame.stage = 1 ∧
       runningOn s b.core = some ↑n ∧ partnerShares s = false ∧ s.role ≠ Role.track ∧ s.role ≠ Role.out ∧ s.mode ≠ RunMode.safe) :=
  ⟨⟨(let b := withImg act;
       { b with frame := { b.frame with instances := [({ task := 0, index := 7, released := 0, commitFrame := 0 } : TaskInstance)] } }),
    by decide +kernel⟩,
   ⟨(let b := withImg act; { b with
                             frame := { b.frame with
                                        stage := 1, run0 := some 0,
                                        instances := [({ task := 0, index := 7, released := 0, commitFrame := 0 } : TaskInstance)] } }),
    by decide +kernel⟩,
   ⟨(let b := withImg act; { b with
                             frame := { b.frame with
                                        stage := 1, run0 := some 0,
                                        instances := [({ task := 0, index := 7, released := 0, commitFrame := 0 } : TaskInstance)] } }),
    by decide +kernel⟩,
   ⟨(let b := withImg act; { b with frame := { b.frame with stage := 1, run1 := some 15 } }), by decide +kernel⟩,
   ⟨(let b := withImg act;
       { b with frame := { b.frame with instances := [({ task := 0, index := 7, released := 0, commitFrame := 0 } : TaskInstance)] } }),
    by decide +kernel⟩,
   ⟨0, { time := 1000, finish := 3000, writes := [(0x100, 1)], evaluations := [], tacks := [], cancels := [], flags := [(31, true)] }, taskF,
    { task := 0, index := 7, released := 0, commitFrame := 0 }, [],
    (let b := withImg act; { b with
                             frame := { b.frame with
                                        stage := 1, run0 := some 0,
                                        instances := [({ task := 0, index := 7, released := 0, commitFrame := 0 } : TaskInstance)] } }),
    by decide +kernel⟩,
   ⟨0, { time := 1001, finish := 500, writes := [(0x100, 1)], evaluations := [], tacks := [], cancels := [], flags := [(31, true)] }, taskF,
    { task := 0, index := 7, released := 0, commitFrame := 0 }, [],
    (let b := withImg { lead with role := .solo }; { b with
                                                     frame := { b.frame with
                                                                stage := 1, run0 := some 0,
                                                                instances :=
                                                                  [({ task := 0, index := 7, released := 0, commitFrame := 0 } : TaskInstance)] } }),
    by decide +kernel⟩,
   ⟨15, ⟨0, 5000, 0⟩, taskE, (withImg act).setETask 15 { last := some 0 }, 0, by decide +kernel⟩,
   ⟨15, ⟨0, 5000, 0⟩, taskE, withImg act, by decide +kernel⟩,
   ⟨15, ⟨0, 5000, 0⟩, taskE, (withImg act).setETask 15 { last := some 0, due := [{ frame := 50000, stamp := none, deferred := true }] },
    by decide +kernel⟩,
   ⟨0, taskF, { task := 0, index := 7, released := 0, commitFrame := 0 },
    (let b := withImg { lead with role := .solo }; { b with
                                                     frame := { b.frame with
                                                                stage := 1, run0 := some 0,
                                                                instances :=
                                                                  [({ task := 0, index := 7, released := 0, commitFrame := 0 } : TaskInstance)] } }),
    by decide +kernel⟩⟩

/-- States and operands that meet the hypotheses of every clause of FramesPass (its values at the ends of their ranges among them). -/
theorem witness_frames_pass :
    (∃ _ : FrameInput, ∃ s : State, frameHalted s = false) ∧
    (∃ s : State, s.frame.stepped = false ∧ s.tb.now ≤ s.frame.t0 + frameUnits ∧ s.frame.t0 % frameUnits = 0) ∧
    (∃ _ : FrameInput, ∃ s : State, frameHalted s = true) ∧
    (∃ _ : Bool, ∃ _ : Half, ∃ s : State, s.frame.stage = 2 ∧ s.committing = false ∧ s.regBit LOCK.STATUS 31 = false ∧ s.lock.cutOff = false) ∧
    (∃ _ : Bool, ∃ _ : Half, ∃ s : State, (s.frame.stage ≠ 2 ∨ s.committing = true ∨ s.regBit LOCK.STATUS 31 = true)) ∧
    (∃ c : OverrunCase, ∃ s : State, s.frame.overruns = [c] ∧ c.waiting = false ∧ c.ends ≤ s.frame.count ∧ c.heard = false) ∧
    (∃ c : OverrunCase, ∃ s : State, s.frame.overruns = [c] ∧ c.waiting = false ∧ c.ends ≤ s.frame.count ∧ c.heard = true) ∧
    (∃ c : OverrunCase, ∃ s : State,
     s.frame.overruns = [c] ∧ c.waiting = false ∧ c.ends ≤ s.frame.count ∧ c.heard = true ∧ s.mode ≠ RunMode.safe ∧ s.role ≠ Role.out) ∧
    (∃ c : OverrunCase, ∃ s : State, s.frame.overruns = [c] ∧ s.frame.count < c.ends) :=
  ⟨⟨{ channels := [], loops := [], measures := [] }, withImg act, by decide +kernel⟩,
   ⟨withImg act, by decide +kernel⟩,
   ⟨{ channels := [], loops := [], measures := [] }, { act with frame := { restartDue := true } }, by decide +kernel⟩,
   ⟨true, 3, (let b := withImg act; { b with frame := { b.frame with stage := 2 } }), by decide +kernel⟩,
   ⟨true, 3, { act with power := { loss := .committing } }, by decide +kernel⟩,
   ⟨{ cls := 0, task := 0, index := 0, ends := 3, commit := 2 },
    (let b := withImg act;
       { b with frame := { b.frame with count := 3, overruns := [({ cls := 0, task := 0, index := 0, ends := 3, commit := 2 } : OverrunCase)] } }),
    by decide +kernel⟩,
   ⟨{ cls := 0, task := 0, index := 0, ends := 3, commit := 2, heard := true },
    (let b := withImg act; { b with
                             frame := { b.frame with
                                        count := 3,
                                        overruns := [({ cls := 0, task := 0, index := 0, ends := 3, commit := 2, heard := true } : OverrunCase)] } }),
    by decide +kernel⟩,
   ⟨{ cls := 0, task := 0, index := 0, ends := 3, commit := 2, heard := true },
    (let b := withImg act; { b with
                             frame := { b.frame with
                                        count := 3,
                                        overruns := [({ cls := 0, task := 0, index := 0, ends := 3, commit := 2, heard := true } : OverrunCase)] } }),
    by decide +kernel⟩,
   ⟨{ cls := 0, task := 0, index := 0, ends := 3, commit := 2, heard := true },
    (let b := withImg act; { b with
                             frame := { b.frame with
                                        count := 2,
                                        overruns := [({ cls := 0, task := 0, index := 0, ends := 3, commit := 2, heard := true } : OverrunCase)] } }),
    by decide +kernel⟩⟩

/-- States and operands that meet the hypotheses of every clause of TackQueue (its values at the ends of their ranges among them). -/
theorem witness_tack_queue :
    (∃ p : Pkt, ∃ x : Session, ∃ k : TackRequest, ∃ b : Option (BitVec 256), ∃ s : State,
     Admits s p x ∧ tackAuthority s k ≤ x.role ∧ tackParams s k = none ∧ tackRefusal s k b = none ∧ k.action ≠ 6 ∧ s.frame.tacks = [] ∧ BitVec.toNat
       s.frame.nextTack < 4294967294) ∧
    (∃ p : Pkt, ∃ x : Session, ∃ k : TackRequest, ∃ _ : Option (BitVec 256), ∃ r : Reply, ∃ s : State,
     Admits s p x ∧ tackAuthority s k ≤ x.role ∧ tackParams s k = some r) ∧
    (∃ p : Pkt, ∃ x : Session, ∃ id : Word, ∃ k : Tack, ∃ s : State,
     Admits s p x ∧ 1 ≤ x.role ∧ s.mayConfigure = true ∧ List.find? (fun t => decide (t.id = id)) s.frame.tacks = some k ∧ k.owner = none ∧ s.tb.now +
       s.tackLead ≤ k.time ∧ s.frame.sw = none) ∧
    (∃ p : Pkt, ∃ x : Session, ∃ id : Word, ∃ s : State,
     Admits s p x ∧ 1 ≤ x.role ∧ s.mayConfigure = true ∧ List.find? (fun t => decide (t.id = id)) s.frame.tacks = none) ∧
    (∃ p : Pkt, ∃ x : Session, ∃ _ : Word, ∃ s : State, Admits s p x ∧ s.frame.tacks = []) ∧
    (∃ p : Pkt, ∃ x : Session, ∃ first : Word, ∃ s : State, ∃ k : Tack, Admits s p x ∧ s.frame.tacks = [k] ∧ BitVec.toNat first ≤ BitVec.toNat k.id) ∧
    (∃ k : Tack, ∃ s : State, nextHardware s = some k ∧ k.action = 1 ∧ s.mode ≠ RunMode.run) ∧
    (∃ k : Tack, ∃ s : State, nextHardware s = some k ∧ k.action = 1 ∧ s.mode = RunMode.run ∧ tackChannel s k.target = true) ∧
    (∃ k : Tack, ∃ s : State, nextHardware s = some k ∧ k.action = 2) :=
  ⟨⟨pk, ses 3, { sec := 5, ns := 0, frac := 0, action := 3, target := 15, value := 7 }, none, withImg act,
    admits_of (by decide +kernel) (by decide +kernel), by decide +kernel⟩,
   ⟨pk, ses 3, { sec := 5, ns := 1000000000, frac := 0, action := 3, target := 15, value := 7 }, none, refusal .badParameter 0 8, withImg act,
    admits_of (by decide +kernel) (by decide +kernel), by decide +kernel⟩,
   ⟨pk, ses 3, 4, { id := 4, time := 5 * secUnits, action := 3, target := 15, value := 7, owner := none },
    (let b := withImg act; { b with
                             frame := { b.frame with
                                        tacks := [({ id := 4, time := 5 * secUnits, action := 3, target := 15, value := 7, owner := none } : Tack)] } }),
    admits_of (by decide +kernel) (by decide +kernel), by decide +kernel⟩,
   ⟨pk, ses 3, 4, withImg act, admits_of (by decide +kernel) (by decide +kernel), by decide +kernel⟩,
   ⟨pk, ses 3, 4, withImg act, admits_of (by decide +kernel) (by decide +kernel), by decide +kernel⟩,
   ⟨pk, ses 3, 4,
    (let b := withImg act;
       { b with frame := { b.frame with tacks := [{ id := 4, time := 5 * secUnits, action := 3, target := 15, value := 7, owner := none }] } }),
    { id := 4, time := 5 * secUnits, action := 3, target := 15, value := 7, owner := none }, admits_of (by decide +kernel) (by decide +kernel),
    by decide +kernel⟩,
   ⟨{ id := 4, time := 5, action := 1, target := 7, value := 1, owner := none },
    (let b := withImg act .stop;
       { b with frame := { b.frame with tacks := [({ id := 4, time := 5, action := 1, target := 7, value := 1, owner := none } : Tack)] } }),
    by decide +kernel⟩,
   ⟨{ id := 4, time := 5, action := 1, target := 7, value := 1, owner := none },
    (let b := st [(DIO.CH_CFG 7, 0xD0000000)] (withImg act);
       { b with frame := { b.frame with tacks := [({ id := 4, time := 5, action := 1, target := 7, value := 1, owner := none } : Tack)] } }),
    by decide +kernel⟩,
   ⟨{ id := 4, time := 5, action := 2, target := 7, value := 4000, owner := none },
    (let b := withImg act;
       { b with frame := { b.frame with tacks := [({ id := 4, time := 5, action := 2, target := 7, value := 4000, owner := none } : Tack)] } }),
    by decide +kernel⟩⟩

/-- States and operands that meet the hypotheses of every clause of ImageUpload (its values at the ends of their ranges among them). -/
theorem witness_image_upload :
    (∃ p : Pkt, ∃ x : Session, ∃ size : Word, ∃ _ : BitVec 256, ∃ s : State,
     Admits s p x ∧ 2 ≤ x.role ∧ s.lockBit 1 = false ∧ 1 ≤ BitVec.toNat size ∧ BitVec.toNat size ≤ 67108864 ∧ s.role ≠ Role.standby ∧ s.frame.sw =
       none ∧ s.bankState s.otherBank ≠ 1 ∧ s.handleCount p.session true < 2) ∧
    (∃ p : Pkt, ∃ x : Session, ∃ handle : Word, ∃ index : Word, ∃ data : List Byte, ∃ h : Handle, ∃ b : ℕ, ∃ s : State,
     Admits s p x ∧ 2 ≤ x.role ∧ s.role ≠ Role.standby ∧ imageHandle s handle (requesterOf p) = some (h, b) ∧ h.ahead = [] ∧ BitVec.toNat index =
       h.next ∧ BitVec.toNat index + 1 < h.chunks ∧ data.length = 1344) ∧
    (∃ p : Pkt, ∃ x : Session, ∃ _ : Word, ∃ _ : Word, ∃ _ : List Byte, ∃ s : State, Admits s p x ∧ 2 ≤ x.role ∧ s.role = Role.standby) ∧
    (∃ p : Pkt, ∃ x : Session, ∃ handle : Word, ∃ h : Handle, ∃ b : ℕ, ∃ s : State,
     Admits s p x ∧ 2 ≤ x.role ∧ s.role ≠ Role.standby ∧ imageHandle s handle (requesterOf p) = some (h, b) ∧ h.next < h.chunks) ∧
    (∃ p : Pkt, ∃ x : Session, ∃ handle : Word, ∃ h : Handle, ∃ b : ℕ, ∃ s : State,
     Admits s p x ∧ 2 ≤ x.role ∧ s.role ≠ Role.standby ∧ imageHandle s handle (requesterOf p) = some (h, b) ∧ h.chunks ≤ h.next) ∧
    (∃ v : Verification, ∃ _ : ImageVerdict, ∃ s : State, s.frame.verification = some v ∧ verifyRefusal s v = none) ∧
    (∃ v : Verification, ∃ _ : ImageVerdict, ∃ e : Reply, ∃ s : State, s.frame.verification = some v ∧ verifyRefusal s v = some e) ∧
    (∃ v : Verification, ∃ _ : State, imageSealed v.bytes = false ∧ sm3 v.bytes ≠ v.digest) ∧
    (∃ v : Verification, ∃ _ : State,
     imageSealed v.bytes = false ∧ sm3 v.bytes = v.digest ∧ (headerOk v.bytes v.size = false ∨ sectionsOk v.bytes v.size = false)) ∧
    (∃ v : Verification, ∃ s : State,
     imageSealed v.bytes = false ∧ sm3 v.bytes = v.digest ∧ headerOk v.bytes v.size = true ∧ sectionsOk v.bytes v.size = true ∧ imageSigned s v.bytes
       = false) ∧
    (∃ v : Verification, ∃ s : State,
     imageSealed v.bytes = false ∧ sm3 v.bytes = v.digest ∧ headerOk v.bytes v.size = true ∧ sectionsOk v.bytes v.size = true ∧ imageSigned s v.bytes
       = true ∧ headField v.bytes 12 1 < s.regFld SEC.QIM_FLOOR 7 0) ∧
    (∃ p : Pkt, ∃ x : Session, ∃ w : Switch, ∃ s : State,
     Admits s p x ∧ 2 ≤ x.role ∧ s.role ≠ Role.standby ∧ s.frame.sw = some w ∧ w.tick = none ∧ w.tack = none ∧ s.frame.eTasks = []) ∧
    (∃ p : Pkt, ∃ x : Session, ∃ handle : Word, ∃ h : Handle, ∃ b : ℕ, ∃ s : State,
     Admits s p x ∧ 2 ≤ x.role ∧ s.role ≠ Role.standby ∧ handle ≠ 0 ∧ imageHandle s handle (requesterOf p) = some (h, b) ∧ h.session ≠ 0) :=
  ⟨⟨pk, ses 3, 67108864, 9, withImg act, admits_of (by decide +kernel) (by decide +kernel), by decide +kernel⟩,
   ⟨pk, ses 3, 5, 1, List.replicate 1344 1, hnd (.image 1) 3 1, 1, withH (.image 1) 3 1 (withImg act),
    admits_of (by decide +kernel) (by decide +kernel), by decide +kernel⟩,
   ⟨pk, ses 3, 5, 1, List.replicate 1344 1, withH (.image 1) 3 1 (withImg foll), admits_of (by decide +kernel) (by decide +kernel),
    by decide +kernel⟩,
   ⟨pk, ses 3, 5, hnd (.image 1) 3 2, 1, withH (.image 1) 3 2 (withImg act), admits_of (by decide +kernel) (by decide +kernel), by decide +kernel⟩,
   ⟨pk, ses 3, 5, hnd (.image 1) 3 3, 1, withH (.image 1) 3 3 (withImg act), admits_of (by decide +kernel) (by decide +kernel), by decide +kernel⟩,
   ⟨{ size := 180, digest := signedDigest, bytes := signedImg, by_ := some (requesterOf pk) },
    { bindings := [], retentiveSize := 0, instances := [], sources := [] },
    (let b := withOwner (withImg act); { b with
                                         frame := { b.frame with
                                                    verification := some
                                                      { size := 180, digest := signedDigest, bytes := signedImg, by_ := some (requesterOf pk) } } }),
    by decide +kernel⟩,
   ⟨{ size := 180, digest := signedDigest, bytes := signedImg, by_ := some (requesterOf pk) },
    { bindings := [], retentiveSize := 0, instances := [], sources := [] }, refusal .notAuthorized 0x03,
    (let b := withImg act; { b with
                             frame := { b.frame with
                                        verification := some
                                          { size := 180, digest := signedDigest, bytes := signedImg, by_ := some (requesterOf pk) } } }),
    by decide +kernel⟩,
   ⟨{ size := 180, digest := 7, bytes := signedImg, by_ := some (requesterOf pk) }, lead, by decide +kernel⟩,
   ⟨{ size := 181, digest := signedDigest, bytes := signedImg, by_ := some (requesterOf pk) }, lead, by decide +kernel⟩,
   ⟨{ size := 180, digest := signedDigest, bytes := signedImg, by_ := some (requesterOf pk) }, lead, by decide +kernel⟩,
   ⟨{ size := 180, digest := signedDigest, bytes := signedImg, by_ := some (requesterOf pk) }, st [(SEC.QIM_FLOOR, 3)] (withOwner lead),
    by decide +kernel⟩,
   ⟨pk, ses 3, { by_ := some (requesterOf pk), tack := none }, swState (some { by_ := some (requesterOf pk), tack := none }),
    admits_of (by decide +kernel) (by decide +kernel), by decide +kernel⟩,
   ⟨pk, ses 3, 5, hnd (.image 1) 3 2, 1, withH (.image 1) 3 2 (withImg act), admits_of (by decide +kernel) (by decide +kernel), by decide +kernel⟩⟩

/-- States and operands that meet the hypotheses of every clause of ImageAdmission (its values at the ends of their ranges among them). -/
theorem witness_image_admission :
    (∃ p : Pkt, ∃ x : Session, ∃ s : State,
     Admits s p x ∧ 2 ≤ x.role ∧ s.role ≠ Role.standby ∧ 2 ≤ s.bankState s.otherBank ∧ s.frame.admission = none ∧ s.frame.sw = none) ∧
    (∃ p : Pkt, ∃ x : Session, ∃ s : State, Admits s p x ∧ 2 ≤ x.role ∧ (s.role = Role.standby ∨ s.bankState s.otherBank < 2)) ∧
    (∃ by_ : Option Requester, ∃ i : Image, ∃ a : Admitted, ∃ s : State,
     s.frame.admission = some by_ ∧ s.bankImage s.otherBank = some i ∧ admitImage s s.otherBank i = Except.ok a) ∧
    (∃ by_ : Option Requester, ∃ i : Image, ∃ a : Admitted, ∃ q : PartnerAdmission, ∃ s : State,
     s.frame.admission = some by_ ∧ s.bankImage s.otherBank = some i ∧ admitImage s s.otherBank i = Except.ok a ∧ q.ok = true ∧ sameResponses a.resp
       q.resp = true) ∧
    (∃ by_ : Option Requester, ∃ i : Image, ∃ a : Admitted, ∃ q : PartnerAdmission, ∃ s : State,
     s.frame.admission = some by_ ∧ s.bankImage s.otherBank = some i ∧ admitImage s s.otherBank i = Except.ok a ∧
       (q.ok = false ∨ sameResponses a.resp q.resp = false) ∧ s.role ≠ Role.standby) ∧
    (∃ by_ : Option Requester, ∃ i : Image, ∃ a : Admitted, ∃ q : PartnerAdmission, ∃ s : State,
     s.frame.admission = some by_ ∧ s.bankImage s.otherBank = some i ∧ admitImage s s.otherBank i = Except.ok a ∧
       (q.ok = false ∨ sameResponses a.resp q.resp = false) ∧ s.role = Role.standby) ∧
    (∃ by_ : Option Requester, ∃ i : Image, ∃ e : AdmitRefusal, ∃ s : State,
     s.frame.admission = some by_ ∧ s.bankImage s.otherBank = some i ∧ admitImage s s.otherBank i = Except.error e ∧ e.status =
       Status.budgetExceeded) :=
  ⟨⟨pk, ses 3, st [(IMG.B_STATE 1, 2)] (withImg act), admits_of (by decide +kernel) (by decide +kernel), by decide +kernel⟩,
   ⟨pk, ses 3, st [(IMG.B_STATE 1, 1)] (withImg act), admits_of (by decide +kernel) (by decide +kernel), by decide +kernel⟩,
   ⟨some (requesterOf pk), img, admittedOf (admWait img (some (requesterOf pk)) act) img, admWait img (some (requesterOf pk)) act,
    by decide +kernel⟩,
   ⟨some (requesterOf pk), img, admittedOf (admWait img (some (requesterOf pk)) act) img,
    { ok := true, resp := (admittedOf (admWait img (some (requesterOf pk)) act) img).resp }, admWait img (some (requesterOf pk)) act,
    by decide +kernel⟩,
   ⟨some (requesterOf pk), img, admittedOf (admWait img (some (requesterOf pk)) act) img, { ok := false, resp := [] },
    admWait img (some (requesterOf pk)) act, by decide +kernel⟩,
   ⟨none, img, admittedOf (admWait img none foll) img, { ok := true, resp := [(0, 9)] }, admWait img none foll, by decide +kernel⟩,
   ⟨some (requesterOf pk), heavy, refusalOf (admWait heavy (some (requesterOf pk)) act) heavy, admWait heavy (some (requesterOf pk)) act,
    by decide +kernel⟩⟩

/-- States and operands that meet the hypotheses of every clause of ImageSwitching (its values at the ends of their ranges among them). -/
theorem witness_image_switching :
    (∃ p : Pkt, ∃ x : Session, ∃ b : Option (BitVec 256), ∃ s : State, Admits s p x ∧ 2 ≤ x.role ∧ switchRefusal s b false = none) ∧
    (∃ p : Pkt, ∃ x : Session, ∃ b : Option (BitVec 256), ∃ r : Reply, ∃ s : State, Admits s p x ∧ 2 ≤ x.role ∧ switchRefusal s b false = some r) ∧
    (∃ w : Switch, ∃ s : State, s.frame.sw = some w ∧ w.tick = none ∧ w.tack = none ∧ s.role ≠ Role.standby) ∧
    (∃ w : Switch, ∃ s : State, s.frame.sw = some w ∧ w.tick = none ∧ s.role = Role.standby) ∧
    (∃ w : Switch, ∃ k : ℕ, ∃ s : State,
     s.frame.sw = some w ∧ w.tick = some k ∧ w.tack = none ∧ w.confirmed = false ∧ s.role ≠ Role.standby ∧ s.frame.eTasks = []) ∧
    (∃ w : Switch, ∃ k : ℕ, ∃ s : State, s.frame.sw = some w ∧ w.tick = some k ∧ w.confirmed = true) ∧
    (∃ w : Switch, ∃ acknowledged : Bool, ∃ _ : Bool, ∃ s : State,
     s.frame.sw = some w ∧ w.tick = some (s.frame.t0 + frameUnits) ∧ s.frame.stage = 3 ∧ w.verdict = none ∧ s.regBit LOCK.STATUS 31 = false ∧
       acknowledged = false) ∧
    (∃ w : Switch, ∃ acknowledged : Bool, ∃ tableOk : Bool, ∃ s : State,
     s.frame.sw = some w ∧ w.tick = some (s.frame.t0 + frameUnits) ∧ s.frame.stage = 3 ∧ w.verdict = none ∧ s.regBit LOCK.STATUS 31 = false ∧
       acknowledged = true ∧ tableOk = false) ∧
    (∃ w : Switch, ∃ acknowledged : Bool, ∃ tableOk : Bool, ∃ s : State,
     s.frame.sw = some w ∧ w.tick = some (s.frame.t0 + frameUnits) ∧ s.frame.stage = 3 ∧ w.verdict = none ∧ s.regBit LOCK.STATUS 31 = false ∧
       acknowledged = true ∧ tableOk = true ∧ w.overrun = true) ∧
    (∃ w : Switch, ∃ acknowledged : Bool, ∃ tableOk : Bool, ∃ s : State,
     s.frame.sw = some w ∧ w.tick = some (s.frame.t0 + frameUnits) ∧ s.frame.stage = 3 ∧ w.verdict = none ∧ s.regBit LOCK.STATUS 31 = false ∧
       acknowledged = true ∧ tableOk = true ∧ w.overrun = false) ∧
    (∃ _ : Bool, ∃ _ : Bool, ∃ s : State, s.regBit LOCK.STATUS 31 = true) ∧
    (∃ w : Switch, ∃ v : FlipVerdict, ∃ partner : Option Bool, ∃ delivered : Bool, ∃ reason : ℕ, ∃ track : Bool, ∃ s : State,
     s.frame.sw = some w ∧ w.verdict = some v ∧ (s.role ≠ Role.standby ∧ track = false ∧
                                                   (v = FlipVerdict.fail reason ∨ v = FlipVerdict.ok ∧ reason = 19 ∧ needsConfirm s = true ∧ partner =
                                                      some false) ∨ s.role = Role.standby ∧
                                                   (v = FlipVerdict.ok ∧ reason = 19 ∧ partner ≠ some true ∧ track = partner.isNone ∨ v =
                                                      FlipVerdict.fail reason ∧ track = (decide (partner ≠ some false) && !delivered))) ∧
       (reason = 16 ∨ reason = 17) ∧ s.otherBank < 2) ∧
    (∃ w : Switch, ∃ v : FlipVerdict, ∃ partner : Option Bool, ∃ delivered : Bool, ∃ reason : ℕ, ∃ track : Bool, ∃ s : State,
     s.frame.sw = some w ∧ w.verdict = some v ∧ (s.role ≠ Role.standby ∧ track = false ∧
                                                   (v = FlipVerdict.fail reason ∨ v = FlipVerdict.ok ∧ reason = 19 ∧ needsConfirm s = true ∧ partner =
                                                      some false) ∨ s.role = Role.standby ∧
                                                   (v = FlipVerdict.ok ∧ reason = 19 ∧ partner ≠ some true ∧ track = partner.isNone ∨ v =
                                                      FlipVerdict.fail reason ∧ track = (decide (partner ≠ some false) && !delivered))) ∧
       s.frame.eTasks = [] ∧ s.executing = false ∧ reason ≠ 16 ∧ reason ≠ 17) ∧
    (∃ w : Switch, ∃ new : Image, ∃ partner : Option Bool, ∃ _ : Bool, ∃ s : State, ∃ p : Word,
     s.frame.sw = some w ∧ w.verdict = some FlipVerdict.ok ∧ if s.role = Role.standby then partner = some true else needsConfirm s = false ∨ partner ≠
       some false ∧ s.bankImage s.otherBank = some new ∧ s.frame.runBank < 2 ∧ (∀ b ∈ new.budgets, b.task < 16) ∧ pointStation p = 0 ∧
       (s.binding p).isSome = true ∧ (bindingIn new p).isSome = true) ∧
    (∃ w : Switch, ∃ new : Image, ∃ partner : Option Bool, ∃ _ : Bool, ∃ s : State,
     s.frame.sw = some w ∧ w.verdict = some FlipVerdict.ok ∧ if s.role = Role.standby then partner = some true else needsConfirm s = false ∨ partner ≠
       some false ∧ s.bankImage s.otherBank = some new ∧ s.frame.runBank < 2 ∧ (∀ b ∈ new.budgets, b.task < 16) ∧ s.frame.tacks = [] ∧ s.frame.eTasks
       = [] ∧ s.executing = false) :=
  ⟨⟨pk, ses 3, some 0, swState none act .stop, admits_of (by decide +kernel) (by decide +kernel), by decide +kernel⟩,
   ⟨pk, ses 3, some 1, refusal .incompatible, swState none, admits_of (by decide +kernel) (by decide +kernel), by decide +kernel⟩,
   ⟨{ by_ := some (requesterOf pk), tack := none }, swState (some ({ by_ := some (requesterOf pk), tack := none } : Switch)), by decide +kernel⟩,
   ⟨{ by_ := none, tack := none }, swState (some ({ by_ := none, tack := none } : Switch)) foll, by decide +kernel⟩,
   ⟨{ by_ := some (requesterOf pk), tack := none, prepared := true, tick := some (5 * secUnits) }, 5 * secUnits,
    swState (some ({ by_ := some (requesterOf pk), tack := none, prepared := true, tick := some (5 * secUnits) } : Switch)), by decide +kernel⟩,
   ⟨{ by_ := some (requesterOf pk), tack := none, prepared := true, tick := some (5 * secUnits), confirmed := true }, 5 * secUnits,
    swState (some ({ by_ := some (requesterOf pk), tack := none, prepared := true, tick := some (5 * secUnits), confirmed := true } : Switch)),
    by decide +kernel⟩,
   ⟨{ by_ := some (requesterOf pk), tack := none, prepared := true, tick := some frameUnits, confirmed := true }, false, true,
    (let b := swState (some ({ by_ := some (requesterOf pk), tack := none, prepared := true, tick := some frameUnits, confirmed := true } : Switch));
       { b with frame := { b.frame with stage := 3 } }), by decide +kernel⟩,
   ⟨{ by_ := some (requesterOf pk), tack := none, prepared := true, tick := some frameUnits, confirmed := true }, true, false,
    (let b := swState (some ({ by_ := some (requesterOf pk), tack := none, prepared := true, tick := some frameUnits, confirmed := true } : Switch));
       { b with frame := { b.frame with stage := 3 } }), by decide +kernel⟩,
   ⟨{ by_ := some (requesterOf pk), tack := none, prepared := true, tick := some frameUnits, confirmed := true, overrun := true }, true, true,
    (let b := swState (some ({ by_ := some (requesterOf pk), tack := none, prepared := true, tick := some frameUnits, confirmed := true, overrun := true } : Switch));
       { b with frame := { b.frame with stage := 3 } }), by decide +kernel⟩,
   ⟨{ by_ := some (requesterOf pk), tack := none, prepared := true, tick := some frameUnits, confirmed := true }, true, true,
    (let b := swState (some ({ by_ := some (requesterOf pk), tack := none, prepared := true, tick := some frameUnits, confirmed := true } : Switch));
       { b with frame := { b.frame with stage := 3 } }), by decide +kernel⟩,
   ⟨true, true, st [(LOCK.STATUS, 0x80000000)] (swState none), by decide +kernel⟩,
   ⟨{ by_ := some (requesterOf pk), tack := none, prepared := true, tick := some frameUnits, confirmed := true, verdict := some (.fail 0x10) },
    .fail 0x10, none, false, 0x10, false,
    swState (some ({ by_ := some (requesterOf pk), tack := none, prepared := true, tick := some frameUnits, confirmed := true,
                     verdict := some (.fail 0x10) } : Switch)), by decide +kernel⟩,
   ⟨{ by_ := some (requesterOf pk), tack := none, prepared := true, tick := some frameUnits, confirmed := true, verdict := some (.fail 0x12) },
    .fail 0x12, none, false, 0x12, false,
    swState (some ({ by_ := some (requesterOf pk), tack := none, prepared := true, tick := some frameUnits, confirmed := true,
                     verdict := some (.fail 0x12) } : Switch)) { act with role := .solo } .stop, by decide +kernel⟩,
   ⟨{ by_ := none, tack := none, prepared := true, tick := some frameUnits, confirmed := true, verdict := some .ok }, imgPt 0x10000040, some true,
    false,
    (let b := swState
       (some ({ by_ := none, tack := none, prepared := true, tick := some frameUnits, confirmed := true, verdict := some .ok } : Switch)) foll;
       { b with
         frame := { b.frame with
                    bank0 := some (imgPt 0x10000040), bank1 := some (imgPt 0x10000040),
                    tacks := [{ id := 3, time := 7 * secUnits, action := 3, target := 5, value := 0, owner := none }] } }), 0x10000040,
    by decide +kernel⟩,
   ⟨{ by_ := some (requesterOf pk), tack := none, prepared := true, tick := some frameUnits, confirmed := true, verdict := some .ok }, img, none,
    false,
    swState (some ({ by_ := some (requesterOf pk), tack := none, prepared := true, tick := some frameUnits, confirmed := true, verdict := some .ok } :
                     Switch)) act .stop, by decide +kernel⟩⟩

/-- States and operands that meet the hypotheses of every clause of CalibrationAndSettling (its values at the ends of their ranges among them). -/
theorem witness_calibration_and_settling :
    (∃ _ : Word, ∃ s : State, ∃ n : ℕ, ∃ a : AfeTable, ∃ k : ℕ, n < 8 ∧ s.afeTable n = some a ∧ k < 5) ∧
    (∃ s : State, s.acq.reallocDue = false) ∧
    (∃ s : State, s.acq.reallocDue = true) ∧
    (∃ n : Fin 8, ∃ s : State, (s.achan ↑n).settleDue = false) ∧
    (∃ n : Fin 8, ∃ s : State, (s.achan ↑n).settleDue = true) ∧
    (∃ n : Fin 8, ∃ s : State, s.regBit (ACH.STATUS ↑n) 29 = false) ∧
    (∃ n : Fin 8, ∃ s : State, ∃ a : ℕ, s.regBit (ACH.STATUS ↑n) 29 = true ∧ (s.achan ↑n).settleAt = some a) :=
  ⟨⟨0x41A00000,
    (let a : AfeTable := { gain := 0x3F800000, offset := 0, delay := 0x1000, twDelay := 0x800, gainTc := 0, offsetTc := 0, delayTc := 0, twTc := 0 };
       { lead with
         tb := { lead.tb with now := 5 * secUnits + 1 },
         acq := { lead.acq with afe := List.replicate 16 a, channels := [(7, { phaseSet := true, phase := 3, range := true })] } }), 7,
    { gain := 0x3F800000, offset := 0, delay := 0x1000, twDelay := 0x800, gainTc := 0, offsetTc := 0, delayTc := 0, twTc := 0 }, 4,
    by decide +kernel⟩,
   ⟨lead, by decide +kernel⟩,
   ⟨(let b := st [(ACH.CFG 0, 0x80000000), (ACH.CFG 7, 0x80000000)]; { b with
                                                                       tb := { b.tb with now := 5 * secUnits + 1 },
                                                                       acq :=
                                                                         { b.acq with
                                                                           reallocDue := true,
                                                                           channels :=
                                                                             [(7, { on := true, raw := [{ at_ := 0, up := 0, codes := [] }] })] } }),
    by decide +kernel⟩,
   ⟨0x41A00000, lead, by decide +kernel⟩,
   ⟨7,
    (let b := st [(ACH.CFG 7, 0x80000100), (ACH.EXT_DELAY 7, 512)];
       { b with tb := { b.tb with now := 5 * secUnits + 1 }, acq := { b.acq with channels := [(7, { settleDue := true })] } }), by decide +kernel⟩,
   ⟨0x41A00000, lead, by decide +kernel⟩,
   ⟨7,
    (let b := st [(ACH.STATUS 7, 0x20000000)];
       { b with tb := { b.tb with now := 5 * secUnits + 1 }, acq := { b.acq with channels := [(7, { settleAt := some (5 * secUnits) })] } }),
    5 * secUnits, by decide +kernel⟩⟩

/-- States and operands that meet the hypotheses of every clause of RingEntries (its values at the ends of their ranges among them). -/
theorem witness_ring_entries :
    (∃ n : Fin 8, ∃ x : CycleSpan, ∃ m : CycleSums, ∃ s : State,
     s.chanOn ↑n = true ∧ (s.achan ↑n).closed.head? = some x ∧ x.crossed = true ∧ x.finish + 2000000 * nsUnits ≤ s.tb.now ∧ m = cycleSums x
       (s.achan ↑n).wav ∧ x.finish ≠ x.start) ∧
    (∃ n : Fin 8, ∃ x : CycleSpan, ∃ s : State,
     s.chanOn ↑n = true ∧ (s.achan ↑n).closed.head? = some x ∧ x.crossed = false ∧ x.finish + 2000000 * nsUnits ≤ s.tb.now) ∧
    (∃ c : AcqChannel, ∃ b : ℕ, ∃ _ : ℕ, c.cycleStart = some b) ∧
    (∃ n : Fin 8, ∃ rate : ℕ, ∃ x : ℕ × ℕ, ∃ s : State,
     s.chanOn ↑n = true ∧ s.regBit (ACH.PHA_CFG ↑n) 31 = true ∧ rate = s.regFld (ACH.PHA_CFG ↑n) 15 0 ∧ rate ≠ 0 ∧ phaLatency
       (s.regBit (ACH.PHA_CFG ↑n) 30) (s.regBit ACQ.CFG 8) rate ≤ s.tb.now ∧ x = reportingInstant rate
       (s.tb.now - phaLatency (s.regBit (ACH.PHA_CFG ↑n) 30) (s.regBit ACQ.CFG 8) rate) ∧ Option.any (entryOf rate x) (s.achan ↑n).pha.head? = true) ∧
    (∃ n : Fin 8, ∃ rate : ℕ, ∃ x : ℕ × ℕ, ∃ s : State,
     s.chanOn ↑n = true ∧ s.regBit (ACH.PHA_CFG ↑n) 31 = true ∧ rate = s.regFld (ACH.PHA_CFG ↑n) 15 0 ∧ rate ≠ 0 ∧ phaLatency
       (s.regBit (ACH.PHA_CFG ↑n) 30) (s.regBit ACQ.CFG 8) rate ≤ s.tb.now ∧ x = reportingInstant rate
       (s.tb.now - phaLatency (s.regBit (ACH.PHA_CFG ↑n) 30) (s.regBit ACQ.CFG 8) rate) ∧ Option.any (entryOf rate x) (s.achan ↑n).pha.head? =
       false) ∧
    (∃ k : Fin 64, ∃ c : Fin 8, ∃ m : ℕ, ∃ rate : ℕ, ∃ x : ℕ × ℕ, ∃ s : State,
     streamPmu s ↑k ↑c = some m ∧ rate = s.winFld WinId.pmu m 1 31 16 ∧ rate ≠ 0 ∧ phaLatency (s.winBit WinId.pmu m 0 30) (s.regBit ACQ.CFG 8) rate ≤
       s.tb.now ∧ x = reportingInstant rate (s.tb.now - phaLatency (s.winBit WinId.pmu m 0 30) (s.regBit ACQ.CFG 8) rate) ∧ sparseFind s.acq.svPhasors
       (↑k * 8 + ↑c) = none ∧ ((sparseGet { } s.acq.streams ↑k).synch = 0 ∨ s.winFld WinId.sv (↑k) 13 31 24 ≠ 2)) ∧
    (∃ n : Fin 8, ∃ f : Firing, ∃ s : State, ∃ l : ℕ,
     s.chanOn ↑n = true ∧ s.regBit (ACH.TWE_CFG ↑n) 31 = true ∧ polarityOk s (↑n) (bit f.slope 31) = true ∧ slopeExceeds s (↑n) f.slope = true ∧
       (s.achan ↑n).lastFiring = some l ∧ firingTime s (↑n) f.stamp < l + s.regFld (ACH.TWE_CFG ↑n) 15 0 * clockUnits) ∧
    (∃ n : Fin 8, ∃ f : Firing, ∃ s : State,
     s.chanOn ↑n = true ∧ s.regBit (ACH.TWE_CFG ↑n) 31 = true ∧ polarityOk s (↑n) (bit f.slope 31) = true ∧ slopeExceeds s (↑n) f.slope = true ∧
       (s.achan ↑n).lastFiring = none ∧ secOf (firingTime s (↑n) f.stamp) ≠ (s.achan ↑n).tweSec) ∧
    (∃ n : Fin 8, ∃ f : Firing, ∃ s : State,
     s.chanOn ↑n = true ∧ s.regBit (ACH.TWE_CFG ↑n) 31 = true ∧ polarityOk s (↑n) (bit f.slope 31) = true ∧ slopeExceeds s (↑n) f.slope = true ∧
       (s.achan ↑n).lastFiring = none ∧ secOf (firingTime s (↑n) f.stamp) = (s.achan ↑n).tweSec ∧ (s.achan ↑n).tweCount = 4096) :=
  ⟨⟨7, { start := 0, finish := 20000 * microUnits, crossed := true },
    cycleSums { start := 0, finish := 20000 * microUnits, crossed := true } [{ at_ := 0, up := 0, code := 1099511627776, value := 0, flags := 1 }],
    { lead with
      tb := { lead.tb with now := 22000 * microUnits },
      acq := { lead.acq with
               channels := [(7,
                             { closed := [{ start := 0, finish := 20000 * microUnits, crossed := true }],
                               wav := [{ at_ := 0, up := 0, code := 1099511627776, value := 0, flags := 1 }] })] } }, by decide +kernel⟩,
   ⟨7, { start := 0, finish := 25000 * microUnits, crossed := false },
    { lead with
      tb := { lead.tb with now := 27000 * microUnits },
      acq := { lead.acq with channels := [(7, { closed := [{ start := 0, finish := 25000 * microUnits, crossed := false }] })] } },
    by decide +kernel⟩,
   ⟨({ cycleStart := some 0 } : AcqChannel), 0, 25800 * microUnits, by decide +kernel⟩,
   ⟨7, 50, reportingInstant 50 (2 * secUnits - 20500 * microUnits),
    (let b := st [(ACH.PHA_CFG 7, 0x80000032), (ACH.CFG 7, 0x80000000)]; { b with
                                                                           tb := { b.tb with now := 2 * secUnits },
                                                                           acq :=
                                                                             { b.acq with
                                                                               channels :=
                                                                                 [(7, { pha := [[1, 0xC0000000 + 960000000, 0, 0, 0, 0, 0, 0]] })] } }),
    by decide +kernel⟩,
   ⟨7, 50, reportingInstant 50 (2 * secUnits - 20500 * microUnits),
    (let b := st [(ACH.PHA_CFG 7, 0x80000032), (ACH.CFG 7, 0x80000000)]; { b with tb := { b.tb with now := 2 * secUnits } }), by decide +kernel⟩,
   ⟨63, 7, 15, 50, reportingInstant 50 (2 * secUnits - 20500 * microUnits),
    (let b := wn .pmu 15 [(0, 0x80000000), (1, 0x320000), (4, 0x9FC70000)] lead; { b with tb := { b.tb with now := 2 * secUnits } }),
    by decide +kernel⟩,
   ⟨7, { stamp := ⟨5, 0, 0⟩, slope := 0x42C80000, before := List.replicate 10 0, after := List.replicate 10 500 },
    (let b := st [(ACH.TWE_CFG 7, 0x80000FFF)];
       { b with acq := { b.acq with channels := [(7, { lastFiring := some (5 * secUnits), twe := [[0, 0, 0, 0, 0, 0, 0, 0]] })] } }), 5 * secUnits,
    by decide +kernel⟩,
   ⟨7, { stamp := ⟨5, 0, 0⟩, slope := 0xC2C80000, before := List.replicate 10 0, after := List.replicate 10 (-500) },
    st [(ACH.TWE_CFG 7, 0x80000FFF)], by decide +kernel⟩,
   ⟨7, { stamp := ⟨5, 0, 0⟩, slope := 0x42C80000, before := List.replicate 10 0, after := List.replicate 10 500 },
    (let b := st [(ACH.TWE_CFG 7, 0x80000000)]; { b with acq := { b.acq with channels := [(7, { tweSec := 5, tweCount := 4096 })] } }),
    by decide +kernel⟩⟩

/-- States and operands that meet the hypotheses of every clause of PmuAndSampledValues (its values at the ends of their ranges among them). -/
theorem witness_pmu_and_sampled_values :
    (∃ m : Fin 16, ∃ x : ℕ × ℕ, ∃ b : List Byte, ∃ s : State,
     s.leads = true ∧ s.winBit WinId.pmu (↑m) 0 31 = true ∧ s.pmuState ↑m = 2 ∧ pmuDue s ↑m = some x ∧ b = wireBytes (pmuData s (↑m) x) ∧ instantAt
       (pmuRate s ↑m) x + pmuLatency s ↑m + 500000 * nsUnits < s.tb.now) ∧
    (∃ m : Fin 16, ∃ x : ℕ × ℕ, ∃ b : List Byte, ∃ s : State,
     s.leads = true ∧ s.winBit WinId.pmu (↑m) 0 31 = true ∧ s.pmuState ↑m = 2 ∧ pmuDue s ↑m = some x ∧ b = wireBytes (pmuData s (↑m) x) ∧ s.tb.now ≤
       instantAt (pmuRate s ↑m) x + pmuLatency s ↑m + 500000 * nsUnits ∧ s.lock.cutOff = false) ∧
    (∃ m : Fin 16, ∃ s : State, (s.leads = false ∨ s.pmuState ↑m ≠ 2 ∨ pmuDue s ↑m = none)) ∧
    (∃ m : Fin 16, ∃ idcode : Half, ∃ command : Half, ∃ s : State,
     s.leads = true ∧ s.winBit WinId.pmu (↑m) 0 31 = true ∧ BitVec.toNat idcode = s.winFld WinId.pmu (↑m) 0 15 0 ∧ command = 1) ∧
    (∃ m : Fin 16, ∃ idcode : Half, ∃ command : Half, ∃ s : State,
     s.leads = true ∧ s.winBit WinId.pmu (↑m) 0 31 = true ∧ BitVec.toNat idcode = s.winFld WinId.pmu (↑m) 0 15 0 ∧ command = 2) ∧
    (∃ m : Fin 16, ∃ idcode : Half, ∃ command : Half, ∃ s : State, ∃ b : List Byte,
     s.leads = true ∧ s.winBit WinId.pmu (↑m) 0 31 = true ∧ BitVec.toNat idcode = s.winFld WinId.pmu (↑m) 0 15 0 ∧ command = 3 ∧ s.lock.cutOff = false
       ∧ b = pmuHeader s ↑m) ∧
    (∃ m : Fin 16, ∃ idcode : Half, ∃ command : Half, ∃ s : State, ∃ k : ℕ, ∃ b : List Byte,
     s.leads = true ∧ s.winBit WinId.pmu (↑m) 0 31 = true ∧ BitVec.toNat idcode = s.winFld WinId.pmu (↑m) 0 15 0 ∧ 1 ≤ k ∧ k ≤ 3 ∧ command =
       BitVec.ofNat 16 (3 + k) ∧ s.lock.cutOff = false ∧ b = pmuConfig s (↑m) k) ∧
    (∃ m : Fin 16, ∃ idcode : Half, ∃ command : Half, ∃ s : State,
     s.leads = true ∧ s.winBit WinId.pmu (↑m) 0 31 = true ∧ BitVec.toNat idcode = s.winFld WinId.pmu (↑m) 0 15 0 ∧ command = 8) ∧
    (∃ m : Fin 16, ∃ idcode : Half, ∃ _ : Half, ∃ s : State, (BitVec.toNat idcode ≠ s.winFld WinId.pmu (↑m) 0 15 0 ∨ s.leads = false)) ∧
    (∃ m : Fin 16, ∃ s : State,
     s.leads = true ∧ s.winBit WinId.pmu (↑m) 0 31 = true ∧ s.winFld WinId.pmu (↑m) 0 29 28 ≠ 3 ∧ s.regFld (ACQ.PMU_STATE ↑m) 23 16 < 4 ∧ s.pmuState
       ↑m = 1) ∧
    (∃ m : Fin 16, ∃ s : State,
     s.leads = true ∧ s.winBit WinId.pmu (↑m) 0 31 = true ∧ s.winFld WinId.pmu (↑m) 0 29 28 ≠ 3 ∧ s.regFld (ACQ.PMU_STATE ↑m) 23 16 < 4 ∧ s.pmuState
       ↑m ≠ 1) ∧
    (∃ m : Fin 16, ∃ s : State,
     s.leads = true ∧ s.winBit WinId.pmu (↑m) 0 31 = true ∧ s.winFld WinId.pmu (↑m) 0 29 28 ≠ 3 ∧ 4 ≤ s.regFld (ACQ.PMU_STATE ↑m) 23 16) ∧
    (∃ m : Fin 16, ∃ s : State, 0 < s.regFld (ACQ.PMU_STATE ↑m) 23 16) ∧
    (∃ m : Fin 16, ∃ s : State, (s.pmu ↑m).committedAt + 60 * secUnits ≤ s.tb.up) ∧
    (∃ m : Fin 16, ∃ s : State, s.tb.up < (s.pmu ↑m).committedAt + 60 * secUnits) ∧
    (∃ f : SvFrame, ∃ k : Fin 64, ∃ s : State,
     List.find? (svMatches s f) (List.range 64) = some ↑k ∧ (f.malformed = true ∨ f.confRev ≠ s.win WinId.sv (↑k) 3)) ∧
    (∃ f : SvFrame, ∃ k : Fin 64, ∃ s : State,
     List.find? (svMatches s f) (List.range 64) = some ↑k ∧ f.malformed = false ∧ f.confRev = s.win WinId.sv (↑k) 3 ∧ f.smpSynch = 1 ∧ s.winBit
       WinId.sv (↑k) 0 27 = false) ∧
    (∃ f : SvFrame, ∃ k : Fin 64, ∃ s : State,
     List.find? (svMatches s f) (List.range 64) = some ↑k ∧ f.malformed = false ∧ f.confRev = s.win WinId.sv (↑k) 3 ∧ f.smpSynch = 2 ∧ f.samples ≠ []
       ∧ (svPlaced s (svRate (s.winFld WinId.sv (↑k) 0 30 28)) f).all (svLate s ↑k) = true) ∧
    (∃ f : SvFrame, ∃ k : Fin 64, ∃ s : State,
     List.find? (svMatches s f) (List.range 64) = some ↑k ∧ f.malformed = false ∧ f.confRev = s.win WinId.sv (↑k) 3 ∧ f.smpSynch = 2 ∧
       (svPlaced s (svRate (s.winFld WinId.sv (↑k) 0 30 28)) f).any (svLate s ↑k) = false) ∧
    (∃ k : Fin 64, ∃ s : State,
     s.winBit WinId.sv (↑k) 0 31 = true ∧ 2 ≤ s.winFld WinId.sv (↑k) 13 31 24 ∧ (sparseGet { } s.acq.streams ↑k).arrived + 100 * msUnits ≤ s.tb.up) ∧
    (∃ k : Fin 64, ∃ s : State,
     s.winBit WinId.sv (↑k) 0 31 = true ∧ 2 ≤ s.winFld WinId.sv (↑k) 13 31 24 ∧ s.tb.up < (sparseGet { } s.acq.streams ↑k).arrived + 100 * msUnits) :=
  ⟨⟨15, (2, 0),
    wireBytes (pmuData (let b := wn .pmu 15 [(0, 0x80000007), (1, 0x00320000), (12, 0x100)] (st [(ACQ.PMU_STATE 15, 0x2000FFFF)]);
                          { b with tb := { b.tb with now := 2 * secUnits + 21001 * microUnits } }) 15 (2, 0)),
    (let b := wn .pmu 15 [(0, 0x80000007), (1, 0x00320000), (12, 0x100)] (st [(ACQ.PMU_STATE 15, 0x2000FFFF)]);
       { b with tb := { b.tb with now := 2 * secUnits + 21001 * microUnits } }), by decide +kernel⟩,
   ⟨15, (2, 0),
    wireBytes (pmuData (let b := wn .pmu 15 [(0, 0x80000007), (1, 0x0032000F), (4, 0x80038004), (12, 0x203)] (st [(ACQ.PMU_STATE 15, 0x20000000)]);
                          { b with tb := { b.tb with now := 2 * secUnits + 20500 * microUnits } }) 15 (2, 0)),
    (let b := wn .pmu 15 [(0, 0x80000007), (1, 0x0032000F), (4, 0x80038004), (12, 0x203)] (st [(ACQ.PMU_STATE 15, 0x20000000)]);
       { b with tb := { b.tb with now := 2 * secUnits + 20500 * microUnits } }), by decide +kernel⟩,
   ⟨15, State.reset, by decide +kernel⟩,
   ⟨15, 7, 1, wn .pmu 15 [(0, 0x80000007), (1, 0x00320000)] (st [(ACQ.PMU_STATE 15, 0x20000000)]), by decide +kernel⟩,
   ⟨15, 7, 2, wn .pmu 15 [(0, 0x80000007), (1, 0x00320000)] (st [(ACQ.PMU_STATE 15, 0x10000000)]), by decide +kernel⟩,
   ⟨15, 7, 3, wn .pmu 15 [(0, 0x80000007), (1, 0x00320000)] (st [(ACQ.PMU_STATE 15, 0x10000000)]),
    pmuHeader (wn .pmu 15 [(0, 0x80000007), (1, 0x00320000)] (st [(ACQ.PMU_STATE 15, 0x10000000)])) 15,
    by and_intros <;> first | decide +kernel | rfl⟩,
   ⟨15, 7, 6, wn .pmu 15 [(0, 0x80000007), (1, 0x00320000)] (st [(ACQ.PMU_STATE 15, 0x10000000)]), 3,
    pmuConfig (wn .pmu 15 [(0, 0x80000007), (1, 0x00320000)] (st [(ACQ.PMU_STATE 15, 0x10000000)])) 15 3,
    by and_intros <;> first | decide +kernel | rfl⟩,
   ⟨15, 7, 8, wn .pmu 15 [(0, 0x80000007), (1, 0x00320000)] (st [(ACQ.PMU_STATE 15, 0x10000000)]), by decide +kernel⟩,
   ⟨15, 8, 5, wn .pmu 15 [(0, 0x80000007), (1, 0x00320000)] (st [(ACQ.PMU_STATE 15, 0x10000000)]), by decide +kernel⟩,
   ⟨15, wn .pmu 15 [(0, 0x80000007), (1, 0x00320000)] (st [(ACQ.PMU_STATE 15, 0x10000000)]), by decide +kernel⟩,
   ⟨15, wn .pmu 15 [(0, 0x80000007), (1, 0x00320000)] (st [(ACQ.PMU_STATE 15, 0x20000000)]), by decide +kernel⟩,
   ⟨15, wn .pmu 15 [(0, 0x80000007), (1, 0x00320000)] (st [(ACQ.PMU_STATE 15, 0x10040000)]), by decide +kernel⟩,
   ⟨15, wn .pmu 15 [(0, 0x80000007), (1, 0x00320000)] (st [(ACQ.PMU_STATE 15, 0x10030000)]), by decide +kernel⟩,
   ⟨15, { lead with tb := { lead.tb with up := 60 * secUnits }, acq := { lead.acq with pmus := [(15, { changed := true })] } }, by decide +kernel⟩,
   ⟨15, State.reset, by decide +kernel⟩,
   ⟨{ mac := 5, appid := 0x4000, vlan := 0, svId := [], confRev := 3, malformed := true, smpCnt := 0, smpSynch := 2, samples := [] }, 63,
    wn .sv 63 [(0, 0x80014000), (1, 0), (2, 0x00050000), (3, 3), (12, 250)] lead, by decide +kernel⟩,
   ⟨{ mac := 5, appid := 0x4000, vlan := 0, svId := [], confRev := 3, malformed := false, smpCnt := 0, smpSynch := 1, samples := [] }, 63,
    wn .sv 63 [(0, 0x80014000), (1, 0), (2, 0x00050000), (3, 3), (12, 250), (13, 0x02000000)] lead, by decide +kernel⟩,
   ⟨{ mac := 5, appid := 0x4000, vlan := 0, svId := [], confRev := 3, malformed := false, smpCnt := 0, smpSynch := 2, samples := [[(7, true)]] }, 63,
    (let b := wn .sv 63 [(0, 0x80014000), (1, 0), (2, 0x00050000), (3, 3), (12, 250)] lead; { b with tb := { b.tb with now := 251 * microUnits } }),
    by decide +kernel⟩,
   ⟨{ mac := 5, appid := 0x4000, vlan := 0, svId := [], confRev := 3, malformed := false, smpCnt := 0, smpSynch := 2, samples := [[(7, true)]] }, 63,
    (let b := wn .sv 63 [(0, 0x80014000), (1, 0), (2, 0x00050000), (3, 3), (12, 250)] lead; { b with tb := { b.tb with now := 250 * microUnits } }),
    by decide +kernel⟩,
   ⟨63,
    (let b := wn .sv 63 [(0, 0x80014000), (1, 0), (2, 0x00050000), (3, 3), (12, 250), (13, 0x02000000)] lead;
       { b with tb := { b.tb with up := 100 * msUnits } }), by decide +kernel⟩,
   ⟨63, wn .sv 63 [(0, 0x80014000), (1, 0), (2, 0x00050000), (3, 3), (12, 250), (13, 0x02000000)] lead, by decide +kernel⟩⟩

/-- States and operands that meet the hypotheses of every clause of AcquisitionRegisters (its values at the ends of their ranges among them). -/
theorem witness_acquisition_registers :
    (∃ p : Pkt, ∃ v : Word, ∃ x : Session, ∃ s : State, MayWrite s p x ACQ.PMU_SEL v) ∧
    (∃ p : Pkt, ∃ v : Word, ∃ x : Session, ∃ s : State, MayWrite s p x ACQ.SV_SEL v) ∧
    (∃ p : Pkt, ∃ x : Session, ∃ s : State,
     MayWrite s p x ACQ.PMU_COMMIT 1 ∧ pmuOk s (windowWords s WinId.pmu (s.regFld ACQ.PMU_SEL 3 0) 13) = false) ∧
    (∃ p : Pkt, ∃ x : Session, ∃ s : State,
     MayWrite s p x ACQ.PMU_COMMIT 1 ∧ pmuOk s (windowWords s WinId.pmu (s.regFld ACQ.PMU_SEL 3 0) 13) = true ∧
       (∀ n < 8,
        n ∈ List.map sourceOf (presentHalves (windowWords s WinId.pmu (s.regFld ACQ.PMU_SEL 3 0) 13)) → phaClaimant s (s.regFld ACQ.PMU_SEL 3 0)
          (windowWords s WinId.pmu (s.regFld ACQ.PMU_SEL 3 0) 13) n = none) ∧ sourcesWith s (s.regFld ACQ.PMU_SEL 3 0)
       (windowWords s WinId.pmu (s.regFld ACQ.PMU_SEL 3 0) 13) ≤ 128) ∧
    (∃ p : Pkt, ∃ x : Session, ∃ k : ℕ, ∃ s : State,
     MayWrite s p x ACQ.SV_COMMIT 1 ∧ k = s.regFld ACQ.SV_SEL 5 0 ∧ svOk (windowWords s WinId.sv k 13) = true ∧
       (∀ j < 64, j ≠ k → bit ((svWords s j).getD 0 0) 31 = true → svIdentity (svWords s j) ≠ svIdentity (windowWords s WinId.sv k 13))) ∧
    (∃ p : Pkt, ∃ x : Session, ∃ k : ℕ, ∃ s : State, ∃ j : ℕ,
     MayWrite s p x ACQ.SV_COMMIT 1 ∧ k = s.regFld ACQ.SV_SEL 5 0 ∧ svOk (windowWords s WinId.sv k 13) = true ∧ j < 64 ∧ j ≠ k ∧ bit
       ((windowWords s WinId.sv k 13).getD 0 0) 31 = true ∧ bit ((svWords s j).getD 0 0) 31 = true ∧ svIdentity (svWords s j) = svIdentity
       (windowWords s WinId.sv k 13) ∧ (∀ i < 64, i ≠ k → i ≠ j → svIdentity (svWords s i) ≠ svIdentity (windowWords s WinId.sv k 13))) ∧
    (∃ p : Pkt, ∃ v : Word, ∃ x : Session, ∃ s : State, MayWrite s p x ACQ.CFG v ∧ bit v 8 = s.regBit ACQ.CFG 8) ∧
    (∃ p : Pkt, ∃ n : Fin 8, ∃ v : Word, ∃ x : Session, ∃ s : State, MayWrite s p x (ACH.TWE_SEL ↑n) v) ∧
    (∃ p : Pkt, ∃ n : Fin 8, ∃ v : Word, ∃ x : Session, ∃ s : State, MayWrite s p x (ACH.CYC_SEL ↑n) v) ∧
    (∃ p : Pkt, ∃ n : Fin 8, ∃ v : Word, ∃ x : Session, ∃ s : State, MayWrite s p x (ACH.PHA_SEL ↑n) v) :=
  ⟨⟨pk, 15, ses 3, sg .pmu 0 [(0, 5)] lead, mayWrite_of (by decide +kernel)⟩,
   ⟨pk, 15, ses 3, sg .pmu 0 [(0, 5)] lead, mayWrite_of (by decide +kernel)⟩,
   ⟨pk, ses 3, sg .pmu 0 [(0, 0x80000007), (1, 0x00330000)] lead, mayWrite_of (by decide +kernel), by decide +kernel⟩,
   ⟨pk, ses 3, sg .pmu 0 [(0, 0x80000007), (1, 0x00320000), (4, 0x80000000)] lead, mayWrite_of (by decide +kernel), by decide +kernel⟩,
   ⟨pk, ses 3, 0, sg .sv 0 [(0, 0x80014000), (2, 0x00050000), (12, 250)] lead, mayWrite_of (by decide +kernel), by decide +kernel⟩,
   ⟨pk, ses 3, 0, sg .sv 0 [(0, 0x80014000), (2, 0x00050000), (12, 10000)] (wn .sv 63 [(0, 0x80014000), (2, 0x00050000), (12, 250)] lead), 63,
    mayWrite_of (by decide +kernel), by decide +kernel⟩,
   ⟨pk, 15, ses 3, sg .pmu 0 [(0, 5)] lead, mayWrite_of (by decide +kernel), by decide +kernel⟩,
   ⟨pk, 7, 0, ses 3, { st [(ACH.TWE_HEAD 7, 1)] with acq := { channels := [(7, { twe := [[1,2,3,4,5,6,7,8]] })] } },
    mayWrite_of (by decide +kernel)⟩,
   ⟨pk, 7, 0, ses 3, { st [(ACH.TWE_HEAD 7, 1)] with acq := { channels := [(7, { twe := [[1,2,3,4,5,6,7,8]] })] } },
    mayWrite_of (by decide +kernel)⟩,
   ⟨pk, 7, 0, ses 3, { st [(ACH.TWE_HEAD 7, 1)] with acq := { channels := [(7, { twe := [[1,2,3,4,5,6,7,8]] })] } },
    mayWrite_of (by decide +kernel)⟩⟩

/-- States and operands that meet the hypotheses of every clause of PatternSources (its values at the ends of their ranges among them). -/
theorem witness_pattern_sources :
    (∃ u : Fin 32, ∃ x : UnitSamples, ∃ k : UnitTracker, ∃ c : UnitConfig, ∃ p : ℤ, ∃ y : ℤ, ∃ s : State,
     unitActive s ↑u = true ∧ c = unitConfig s ↑u ∧ k = sparseGet { } s.trg.trackers ↑u ∧ c.kind = 1 ∧ c.polarity = 0 ∧ k.rise.armed = true ∧ 1 ≤
       k.count ∧ k.codes.head? = some p ∧ x.codes = [y] ∧ p < c.hi ∧ c.hi ≤ y) ∧
    (∃ u : Fin 32, ∃ x : UnitSamples, ∃ k : UnitTracker, ∃ c : UnitConfig, ∃ y : ℤ, ∃ s : State,
     unitActive s ↑u = true ∧ c = unitConfig s ↑u ∧ k = sparseGet { } s.trg.trackers ↑u ∧ c.kind = 6 ∧ c.polarity = 0 ∧ k.rise.armed = false ∧ x.codes
       = [y] ∧ k.base + c.timeA * samplePitch ≤ k.count * samplePitch) ∧
    (∃ u : Fin 32, ∃ _ : UnitSamples, ∃ s : State, unitActive s ↑u = false) ∧
    (∃ u : Fin 32, ∃ x : UnitSamples, ∃ r : UnitTracker, ∃ ts : ℕ, ∃ k : Fin 8, ∃ c : BitVec 128, ∃ s : State,
     unitActive s ↑u = true ∧ unitSamples (unitConfig s ↑u) (sparseGet { } s.trg.trackers ↑u) x.codes = (r, [ts]) ∧ s.trg.sources.getLsbD ↑u = false ∧
       (∀ j < 8, patternRuns s j = decide (j = ↑k)) ∧ s.winBit WinId.pat (↑k) 0 30 = false ∧ s.winBit WinId.pat (↑k) 0 29 = false ∧ s.winBit WinId.pat
       (↑k) 0 15 = false ∧ (s.pattern ↑k).matchA = false ∧ (s.pattern ↑k).holdoff ≤ s.tb.up ∧ careInForce s (patMask s (↑k) 3) = some c ∧
       (patMask s (↑k) 3).getLsbD ↑u = true ∧ ((s.trg.sources ||| BitVec.ofNat 128 (2 ^ u.val)) ^^^ patMask s (↑k) 7) &&& c = 0) ∧
    (∃ u : Fin 32, ∃ stop : ℕ, ∃ s : State, sparseFind s.trg.stretch ↑u = some stop) ∧
    (∃ p : Pkt, ∃ u : Fin 32, ∃ v : Word, ∃ x : Session, ∃ s : State, MayWrite s p x (TRG.U_CFG ↑u) v ∧ bit v 31 = true) ∧
    (∃ _ : Fin 32, ∃ _ : Bool, ∃ _ : Instant, ∃ s : State, s.trg.partnerValid = true) ∧
    (∃ s : State, s.trg.partnerValid = true ∧ partnerStands s = false) ∧
    (∃ _ : Word, ∃ s : State, s.trg.partnerValid = false ∧ s.pair.tandem.up = true ∧ (s.shown = some Role.standby ∨ s.shown = some Role.active)) :=
  ⟨⟨31, { newest := ⟨5, 100, 0⟩, codes := [30] }, { count := 1, codes := [10], rise := { armed := true } },
    unitConfig (st [(TRG.U_CFG 31, 0x90020000), (TRG.U_LEVEL 31, 0x00140000)]) 31, 10, 30,
    (let b := st [(ACQ.STATUS, 0x20000000), (ACH.CFG 7, 0x80000000), (TRG.U_CFG 31, 0x90020000), (TRG.U_LEVEL 31, 0x00140000)];
       { b with trg := { trackers := [(31, { count := 1, codes := [10], rise := { armed := true } })] } }), by decide +kernel⟩,
   ⟨31, { newest := ⟨5, 100, 0⟩, codes := [3] }, {}, unitConfig (st [(TRG.U_CFG 31, 0xE0020000), (TRG.U_TIME_A 31, 0)]) 31, 3,
    st [(ACQ.STATUS, 0x20000000), (ACH.CFG 7, 0x80000000), (TRG.U_CFG 31, 0xE0020000), (TRG.U_TIME_A 31, 0)], by decide +kernel⟩,
   ⟨31, { newest := ⟨5, 100, 0⟩, codes := [3] }, st [(TRG.U_CFG 31, 0x90020000)], by decide +kernel⟩,
   ⟨31, { newest := ⟨5, 100, 0⟩, codes := [30] },
    (unitSamples (unitConfig (st [(TRG.U_CFG 31, 0x90020000), (TRG.U_LEVEL 31, 0x00140000)]) 31) { count := 1, codes := [10], rise := { armed := true } } [30]).1,
    ((unitSamples (unitConfig (st [(TRG.U_CFG 31, 0x90020000), (TRG.U_LEVEL 31, 0x00140000)]) 31) { count := 1, codes := [10], rise := { armed := true } } [30]).2.headD
       0), 7, 0x80000000,
    (let b := wn .pat 7 [(0, 0x80000000), (2, 40), (3, 0x80000000), (7, 0x80000000)]
       (st [(ACQ.STATUS, 0x20000000), (ACH.CFG 7, 0x80000000), (TRG.U_CFG 31, 0x90020000), (TRG.U_LEVEL 31, 0x00140000)]);
       { b with trg := { trackers := [(31, { count := 1, codes := [10], rise := { armed := true } })] } }), by decide +kernel⟩,
   ⟨31, 777, { lead with trg := { sources := 0x80000001, stretch := [(31, 777)] } }, by decide +kernel⟩,
   ⟨pk, 31, 0x90020001, ses 3, { lead with trg := { sources := 0x80000001, stretch := [(31, 777)] } }, mayWrite_of (by decide +kernel),
    by decide +kernel⟩,
   ⟨31, true, ⟨5, 6, 7⟩, { lead with trg := { sources := 1, partnerValid := true } }, by decide +kernel⟩,
   ⟨{ lead with trg := { sources := BitVec.allOnes 128, partnerValid := true } }, by decide +kernel⟩,
   ⟨0x80000001, { act with trg := { sources := 1 } }, by decide +kernel⟩⟩

/-- States and operands that meet the hypotheses of every clause of PatternsAndRecords (its values at the ends of their ranges among them). -/
theorem witness_patterns_and_records :
    (∃ u : Fin 8, ∃ t0 : ℕ, ∃ stamp : ℕ, ∃ s : State, (s.pattern ↑u).armed = some (t0, stamp)) ∧
    (∃ l : Fin 8, ∃ a : ℕ, ∃ s : State, sparseFind s.trg.pulses ↑l = some a ∧ sparseFind s.trg.tackPulses ↑l = none) ∧
    (∃ levels : Byte, ∃ _ : Instant, ∃ k : Fin 8, ∃ s : State,
     s.trg.records = [] ∧ (∀ j < 8, s.winBit WinId.records j 0 31 = decide (j = ↑k)) ∧ rawNeed (profileWords s ↑k) ≤ stagingFree s ∧
       (∀ l < 8, BitVec.getLsbD levels l = true → BitVec.getLsbD s.trg.lineLevels l = false → s.winBit WinId.records (↑k) 0 (8 + l) = false)) ∧
    (∃ levels : Byte, ∃ _ : Instant, ∃ k : Fin 8, ∃ s : State, ∃ l : ℕ,
     s.trg.records = [] ∧ (∀ j < 8, s.winBit WinId.records j 0 31 = decide (j = ↑k)) ∧ rawNeed (profileWords s ↑k) ≤ stagingFree s ∧ l < 8 ∧
       BitVec.getLsbD levels l = true ∧ BitVec.getLsbD s.trg.lineLevels l = false ∧ s.winBit WinId.records (↑k) 0 (8 + l) = true) ∧
    (∃ p : Pkt, ∃ v : Word, ∃ x : Session, ∃ s : State,
     MayWrite s p x TRG.REC_MANUAL v ∧ s.winBit WinId.records (fld v 2 0) 0 31 = true ∧ (∀ r ∈ s.trg.records, r.isOpen = false)) ∧
    (∃ n : Word, ∃ r : TrigRecord, ∃ s : State,
     s.trg.records = [r] ∧ r.isOpen = true ∧ r.written = false ∧ r.number = BitVec.toNat n ∧ windowsDone s r = false) ∧
    (∃ n : Word, ∃ r : TrigRecord, ∃ s : State,
     s.trg.records = [r] ∧ r.isOpen = true ∧ r.written = false ∧ r.number = BitVec.toNat n ∧ windowsDone s r = true) ∧
    (∃ n : Word, ∃ r : TrigRecord, ∃ s : State,
     List.find? (fun y => y.isOpen && y.written && decide (y.number = BitVec.toNat n)) s.trg.records = some r ∧ storeFull s (recordKb r) = false) ∧
    (∃ n : Word, ∃ r : TrigRecord, ∃ s : State,
     List.find? (fun y => y.isOpen && y.written && decide (y.number = BitVec.toNat n)) s.trg.records = some r ∧ storeFull s (recordKb r) = true ∧
       (∀ y ∈ committedRecords s, y.protected_ = true)) ∧
    (∃ p : Pkt, ∃ x : Session, ∃ s : State,
     MayWrite s p x TRG.PAT_COMMIT 1 ∧ patternOk (windowWords s WinId.pat (s.regFld TRG.PAT_SEL 2 0) 19) = false) ∧
    (∃ p : Pkt, ∃ x : Session, ∃ s : State,
     MayWrite s p x TRG.PAT_COMMIT 1 ∧ patternOk (windowWords s WinId.pat (s.regFld TRG.PAT_SEL 2 0) 19) = true) ∧
    (∃ p : Pkt, ∃ x : Session, ∃ s : State,
     MayWrite s p x TRG.REC_COMMIT 1 ∧ profileOk (windowWords s WinId.records (s.regFld TRG.REC_SEL 2 0) 10) = true) ∧
    (∃ p : Pkt, ∃ x : Session, ∃ s : State, MayWrite s p x TRG.FL_COMMIT 1 ∧ lineOk (windowWords s WinId.fl (s.regFld TRG.FL_SEL 2 0) 7) = true) :=
  ⟨⟨7, 55, 66, wn .pat 7 [(0, 0xC0000000), (1, 1)] { lead with trg := { patterns := [(7, { armed := some (55, 66) })] } }, by decide +kernel⟩,
   ⟨7, 99, { lead with trg := { pulses := [(6, 50), (7, 99)] } }, by decide +kernel⟩,
   ⟨0x80, ⟨5, 6, 7⟩, 7, wn .records 7 [(0, 0x80000000), (1, 5), (2, 5)] lead, by decide +kernel⟩,
   ⟨0x80, ⟨5, 6, 7⟩, 7, wn .records 7 [(0, 0x80008000), (1, 5), (2, 5)] lead, 7, by decide +kernel⟩,
   ⟨pk, 7, ses 3, wn .records 7 [(0, 0x80000000), (1, 5), (2, 5)] lead, mayWrite_of (by decide +kernel), by decide +kernel⟩,
   ⟨4, { rec4 with isOpen := true, words := [0x20000000, 5, 5], written := false },
    withRec { rec4 with isOpen := true, words := [0x20000000, 5, 5], written := false } lead, by decide +kernel⟩,
   ⟨4, { rec4 with isOpen := true, words := [0x20000000, 5, 5], written := false },
    { withRec { rec4 with isOpen := true, words := [0x20000000, 5, 5], written := false } lead with
      tb := { lead.tb with up := 7000 * nsUnits, now := 7000 * nsUnits } }, by decide +kernel⟩,
   ⟨4, { rec4 with isOpen := true, words := [] }, withRec { rec4 with isOpen := true, words := [] } lead, by decide +kernel⟩,
   ⟨4, { rec4 with isOpen := true, words := [] },
    { lead with
      trg := { records := { rec4 with isOpen := true, words := [] } :: List.replicate 4096 { rec4 with number := 3, protected_ := true },
               nextRecord := 5 } }, rfl, by rw [storeFull, committed_of_full rfl rfl rfl, List.length_replicate]; rfl,
    by rw [committed_of_full rfl rfl rfl]; intro y hy; rw [List.eq_of_mem_replicate hy]⟩,
   ⟨pk, ses 3, sg .pat 0 [(0, 0x80000000)] lead, mayWrite_of (by decide +kernel), by decide +kernel⟩,
   ⟨pk, ses 3, sg .pat 0 [(0, 0x80000000), (1, 1), (2, 40), (3, 1)] lead, mayWrite_of (by decide +kernel), by decide +kernel⟩,
   ⟨pk, ses 3, sg .records 0 [(0, 0x80000000), (9, 600000)] lead, mayWrite_of (by decide +kernel), by decide +kernel⟩,
   ⟨pk, ses 3, sg .fl 0 [(0, 0x80000000), (2, 0x43960000), (4, 0x27100000), (6, 0x13880000)] lead, mayWrite_of (by decide +kernel),
    by decide +kernel⟩⟩

/-- States and operands that meet the hypotheses of every clause of TdcAndFaultLocation (its values at the ends of their ranges among them). -/
theorem witness_tdc_and_fault_location :
    (∃ i : Fin 48, ∃ stamp : Instant, ∃ s : State,
     tdcEnabled s ↑i = true ∧ Option.all (fun l => decide (l + 10 * nsUnits ≤ edgeUp s stamp)) (s.tdcInput ↑i).lastUp = true) ∧
    (∃ i : Fin 48, ∃ stamp : Instant, ∃ s : State, ∃ l : ℕ,
     tdcEnabled s ↑i = true ∧ (s.tdcInput ↑i).lastUp = some l ∧ edgeUp s stamp < l + 10 * nsUnits) ∧
    (∃ _ : TdcCalibration, ∃ s : State, calibrationDue s = false) ∧
    (∃ m : TdcCalibration, ∃ s : State, calibrationDue s = true ∧ BitVec.toNat m.lsb ≤ 50000 ∧ BitVec.toNat m.nonLinearity ≤ 35000) ∧
    (∃ m : TdcCalibration, ∃ s : State, calibrationDue s = true ∧ (50000 < BitVec.toNat m.lsb ∨ 35000 < BitVec.toNat m.nonLinearity)) ∧
    (∃ p : Pkt, ∃ x : Session, ∃ s : State, Admits s p x) ∧
    (∃ l : Fin 8, ∃ ts : ℕ, ∃ s : State,
     (s.flLine ↑l).start = some ts ∧ (s.flLine ↑l).local_ = none ∧ (s.flLine ↑l).startUp + 5000 * nsUnits ≤ s.tb.up ∧ earliest
       (arrivals s (↑l) (ts - s.winFld WinId.fl (↑l) 4 31 16 * 1000 * nsUnits) ts) = none) ∧
    (∃ l : Fin 8, ∃ ts : ℕ, ∃ s : State, ∃ tl : ℕ, ∃ e : List Word,
     (s.flLine ↑l).start = some ts ∧ (s.flLine ↑l).local_ = none ∧ (s.flLine ↑l).startUp + 5000 * nsUnits ≤ s.tb.up ∧ earliest
       (arrivals s (↑l) (ts - s.winFld WinId.fl (↑l) 4 31 16 * 1000 * nsUnits) ts) = some (tl, e) ∧ s.leads = false) ∧
    (∃ l : Fin 8, ∃ ts : ℕ, ∃ s : State, ∃ tl : ℕ, ∃ e : List Word,
     (s.flLine ↑l).start = some ts ∧ (s.flLine ↑l).local_ = none ∧ (s.flLine ↑l).startUp + 5000 * nsUnits ≤ s.tb.up ∧ earliest
       (arrivals s (↑l) (ts - s.winFld WinId.fl (↑l) 4 31 16 * 1000 * nsUnits) ts) = some (tl, e) ∧ s.leads = true ∧ s.lock.cutOff = false) ∧
    (∃ p : Pkt, ∃ x : Session, ∃ _ : TwReport, ∃ s : State, Admits s p x ∧ 1 ≤ x.role ∧ s.leads = false) ∧
    (∃ p : Pkt, ∃ x : Session, ∃ r : TwReport, ∃ s : State,
     Admits s p x ∧ 1 ≤ x.role ∧ s.leads = true ∧ BitVec.toNat r.line < 8 ∧ s.winBit WinId.fl (BitVec.toNat r.line) 0 31 = true ∧ s.winFld WinId.fl
       (BitVec.toNat r.line) 6 15 0 = BitVec.toNat r.pairId ∧ (s.flLine (BitVec.toNat r.line)).remoteAt = none) ∧
    (∃ p : Pkt, ∃ x : Session, ∃ r : TwReport, ∃ s : State, ∃ u : ℕ,
     Admits s p x ∧ 1 ≤ x.role ∧ s.leads = true ∧ BitVec.toNat r.line < 8 ∧ s.winBit WinId.fl (BitVec.toNat r.line) 0 31 = true ∧ s.winFld WinId.fl
       (BitVec.toNat r.line) 6 15 0 = BitVec.toNat r.pairId ∧ (s.flLine (BitVec.toNat r.line)).remoteAt = some u ∧ s.tb.up ≤ u + s.winFld WinId.fl
       (BitVec.toNat r.line) 6 31 16 * msUnits) ∧
    (∃ p : Pkt, ∃ x : Session, ∃ r : TwReport, ∃ s : State, Admits s p x ∧ 1 ≤ x.role ∧ s.leads = true ∧ 8 ≤ BitVec.toNat r.line) ∧
    (∃ l : Fin 8, ∃ ts : ℕ, ∃ a : Arrival, ∃ b : Arrival, ∃ len : Ratio, ∃ v : Ratio, ∃ way : Ratio, ∃ s : State,
     (s.flLine ↑l).start = some ts ∧ (s.flLine ↑l).local_ = some a ∧ (s.flLine ↑l).remote = some b ∧ ratio32 (s.win WinId.fl (↑l) 1) = some len ∧
       ratio32 (s.win WinId.fl (↑l) 2) = some v ∧ way = mulRatio (mulRatio v { num := 1, den := 1000 }) (nsRatio a.time b.time) ∧ leRatio
       (absRatio way) (addRatio len (mulRatio (mulRatio v { num := 1, den := 1000 }) { num := ↑(s.winFld WinId.fl (↑l) 4 15 0 * 1000), den := 1 })) =
       false) ∧
    (∃ l : Fin 8, ∃ ts : ℕ, ∃ a : Arrival, ∃ b : Arrival, ∃ len : Ratio, ∃ v : Ratio, ∃ way : Ratio, ∃ s : State,
     (s.flLine ↑l).start = some ts ∧ (s.flLine ↑l).local_ = some a ∧ (s.flLine ↑l).remote = some b ∧ ratio32 (s.win WinId.fl (↑l) 1) = some len ∧
       ratio32 (s.win WinId.fl (↑l) 2) = some v ∧ way = mulRatio (mulRatio v { num := 1, den := 1000 }) (nsRatio a.time b.time) ∧ 0 ≤
       (mulRatio (addRatio len way) { num := 1, den := 2 }).num ∧ leRatio (mulRatio (addRatio len way) { num := 1, den := 2 }) len = true ∧ leRatio
       (absRatio way) (addRatio len (mulRatio (mulRatio v { num := 1, den := 1000 }) { num := ↑(s.winFld WinId.fl (↑l) 4 15 0 * 1000), den := 1 })) =
       true) ∧
    (∃ l : Fin 8, ∃ ts : ℕ, ∃ a : Arrival, ∃ len : Ratio, ∃ v : Ratio, ∃ s : State,
     (s.flLine ↑l).start = some ts ∧ (s.flLine ↑l).local_ = some a ∧ ratio32 (s.win WinId.fl (↑l) 1) = some len ∧ ratio32 (s.win WinId.fl (↑l) 2) =
       some v ∧ Option.all (fun u => decide (u + s.winFld WinId.fl (↑l) 6 31 16 * msUnits ≤ s.tb.up)) (s.flLine ↑l).reportedAt = true ∧ s.winBit
       WinId.fl (↑l) 0 30 = false) ∧
    (∃ l : Fin 8, ∃ ts : ℕ, ∃ a : Arrival, ∃ len : Ratio, ∃ v : Ratio, ∃ s : State, ∃ t2 : ℕ, ∃ e : List Word,
     (s.flLine ↑l).start = some ts ∧ (s.flLine ↑l).local_ = some a ∧ ratio32 (s.win WinId.fl (↑l) 1) = some len ∧ ratio32 (s.win WinId.fl (↑l) 2) =
       some v ∧ Option.all (fun u => decide (u + s.winFld WinId.fl (↑l) 6 31 16 * msUnits ≤ s.tb.up)) (s.flLine ↑l).reportedAt = true ∧ s.winBit
       WinId.fl (↑l) 0 30 = true ∧ earliest (List.filter (fun y => leRatio (mulRatio (mulRatio v { num := 1, den := 1000 }) (nsRatio y.1 a.time))
                                                            (mulRatio len { num := 2, den := 1 }) && BitVec.getLsbD (y.2[2]?.getD 0) 0 == a.falling)
                                               (arrivals s (↑l) (a.time + 1) s.tb.now)) = some (t2, e)) :=
  ⟨⟨47, ⟨5, 6, 7⟩, { st [(TDC.CTRL, 1), (TDC.EN_HI, 0x8000)] with trg := { inputs := [(47, { delay := 512 })] } }, by decide +kernel⟩,
   ⟨8, ⟨5, 6, 0⟩,
    { st [(TDC.CTRL, 1), (TDC.EN_LO, 0x100)] with
      trg := { inputs := [(8, { lastUp := some (5 * secUnits) })] },
      tb := { lead.tb with up := 5 * secUnits + 9 * nsUnits, now := 5 * secUnits + 6 * nsUnits } }, 5 * secUnits, by decide +kernel⟩,
   ⟨{ lsb := 50000, precision := 9, nonLinearity := 35000, temperature := 7 }, { st [(TDC.CAL_CFG, 1)] with trg := { calTriedAt := some 1 } },
    by decide +kernel⟩,
   ⟨{ lsb := 50000, precision := 9, nonLinearity := 35000, temperature := 7 }, lead, by decide +kernel⟩,
   ⟨{ lsb := 50001, precision := 9, nonLinearity := 35000, temperature := 7 }, lead, by decide +kernel⟩,
   ⟨pk, ses 3, { lead with trg := { fifo := [(5, 3 * secUnits)] } }, admits_of (by decide +kernel) (by decide +kernel)⟩,
   ⟨7, 5 * secUnits,
    wn .fl 7 [(0, 0x80800000), (4, 0x27100000)]
      { lead with tb := { lead.tb with up := 5000 * nsUnits }, trg := { lines := [(7, { start := some (5 * secUnits) })] } }, by decide +kernel⟩,
   ⟨7, 5 * secUnits,
    wn .fl 7 [(0, 0x80800000), (4, 0x27100000)] { foll with
                                                  tb := { foll.tb with up := 5000 * nsUnits },
                                                  trg := { lines := [(7, { start := some (5 * secUnits) })] },
                                                  acq := { channels := [(7, { twe := [[5, 0, 0, 0x3F800000, 0, 0, 0, 0]] })] } }, 5 * secUnits,
    ([5, 0, 0, 0x3F800000, 0, 0, 0, 0] : List Word), by decide +kernel⟩,
   ⟨7, 5 * secUnits,
    wn .fl 7 [(0, 0x80800000), (4, 0x27100000)] { lead with
                                                  tb := { lead.tb with up := 5000 * nsUnits },
                                                  trg := { lines := [(7, { start := some (5 * secUnits) })] },
                                                  acq := { channels := [(7, { twe := [[5, 0, 0, 0x3F800000, 0, 0, 0, 0]] })] } }, 5 * secUnits,
    ([5, 0, 0, 0x3F800000, 0, 0, 0, 0] : List Word), by decide +kernel⟩,
   ⟨pk, ses 3,
    { pairId := 3, line := 7, falling := true, notLocked := false, arrival := ⟨5, 6, 7⟩, uncertainty := 5, amplitude := 6, start := ⟨5, 0, 0⟩ }, foll,
    admits_of (by decide +kernel) (by decide +kernel), by decide +kernel⟩,
   ⟨pk, ses 3,
    { pairId := 3, line := 7, falling := true, notLocked := false, arrival := ⟨5, 6, 7⟩, uncertainty := 5, amplitude := 6, start := ⟨5, 0, 0⟩ },
    wn .fl 7 [(0, 0x80800000), (4, 0x27100000), (6, 0x00320003)] lead, admits_of (by decide +kernel) (by decide +kernel), by decide +kernel⟩,
   ⟨pk, ses 3,
    { pairId := 3, line := 7, falling := true, notLocked := false, arrival := ⟨5, 6, 7⟩, uncertainty := 5, amplitude := 6, start := ⟨5, 0, 0⟩ },
    wn .fl 7 [(0, 0x80800000), (4, 0x27100000), (6, 0x00320003)]
      { lead with tb := { lead.tb with up := 50 * msUnits }, trg := { lines := [(7, { remoteAt := some 0 })] } }, 0,
    admits_of (by decide +kernel) (by decide +kernel), by decide +kernel⟩,
   ⟨pk, ses 3,
    { pairId := 3, line := 8, falling := true, notLocked := false, arrival := ⟨5, 6, 7⟩, uncertainty := 5, amplitude := 6, start := ⟨5, 0, 0⟩ }, lead,
    admits_of (by decide +kernel) (by decide +kernel), by decide +kernel⟩,
   ⟨7, 5 * secUnits, { time := 5 * secUnits, falling := true, uncertainty := 4, notLocked := false, amplitude := 1 },
    { time := 6 * secUnits, falling := true, uncertainty := 4, notLocked := false, amplitude := 1 }, (ratio32 0x42C80000).getD ⟨0, 1⟩,
    (ratio32 0x43960000).getD ⟨0, 1⟩,
    mulRatio (mulRatio ((ratio32 0x43960000).getD ⟨0, 1⟩) ⟨1, 1000⟩) (nsRatio
                                                                        ({ time := 5 * secUnits, falling := true, uncertainty := 4, notLocked := false, amplitude := 1 } : Arrival).time
                                                                        ({ time := 6 * secUnits, falling := true, uncertainty := 4, notLocked := false, amplitude := 1 } : Arrival).time),
    wn .fl 7 [(0, 0x80800000), (1, 0x42C80000), (2, 0x43960000), (4, 0x27100000), (6, 0x00320003)]
      { lead with
        trg := { lines := [(7,
                            { start := some (5 * secUnits),
                              local_ := some
                                ({ time := 5 * secUnits, falling := true, uncertainty := 4, notLocked := false, amplitude := 1 } : Arrival),
                              remote := some
                                ({ time := 6 * secUnits, falling := true, uncertainty := 4, notLocked := false, amplitude := 1 } : Arrival) })] } },
    by decide +kernel⟩,
   ⟨7, 5 * secUnits, { time := 5 * secUnits, falling := true, uncertainty := 4, notLocked := false, amplitude := 1 },
    { time := 5 * secUnits + 100 * nsUnits, falling := true, uncertainty := 4, notLocked := false, amplitude := 1 }, (ratio32 0x42C80000).getD ⟨0, 1⟩,
    (ratio32 0x43960000).getD ⟨0, 1⟩,
    mulRatio (mulRatio ((ratio32 0x43960000).getD ⟨0, 1⟩) ⟨1, 1000⟩) (nsRatio
                                                                        ({ time := 5 * secUnits, falling := true, uncertainty := 4, notLocked := false, amplitude := 1 } : Arrival).time
                                                                        ({ time := 5 * secUnits + 100 * nsUnits, falling := true, uncertainty := 4, notLocked := false, amplitude := 1 } : Arrival).time),
    wn .fl 7 [(0, 0x80800000), (1, 0x42C80000), (2, 0x43960000), (4, 0x27100000), (6, 0x00320003)]
      { lead with
        trg := { lines := [(7,
                            { start := some (5 * secUnits),
                              local_ := some
                                ({ time := 5 * secUnits, falling := true, uncertainty := 4, notLocked := false, amplitude := 1 } : Arrival),
                              remote := some ({ time := 5 * secUnits + 100 * nsUnits, falling := true, uncertainty := 4, notLocked := false,
                                                amplitude := 1 } : Arrival) })] } }, by decide +kernel⟩,
   ⟨7, 5 * secUnits, { time := 5 * secUnits, falling := true, uncertainty := 4, notLocked := false, amplitude := 1 },
    (ratio32 0x42C80000).getD ⟨0, 1⟩, (ratio32 0x43960000).getD ⟨0, 1⟩,
    wn .fl 7 [(0, 0x80800000), (1, 0x42C80000), (2, 0x43960000), (4, 0x27100000), (6, 0x00320003)]
      { lead with
        trg := { lines := [(7,
                            { start := some (5 * secUnits),
                              local_ := some
                                ({ time := 5 * secUnits, falling := true, uncertainty := 4, notLocked := false, amplitude := 1 } : Arrival) })] } },
    by decide +kernel⟩,
   ⟨7, 5 * secUnits, { time := 5 * secUnits, falling := false, uncertainty := 4, notLocked := false, amplitude := 1 },
    (ratio32 0x42C80000).getD ⟨0, 1⟩, (ratio32 0x43960000).getD ⟨0, 1⟩,
    wn .fl 7 [(0, 0xC0800000), (1, 0x42C80000), (2, 0x43960000), (4, 0x27100000), (6, 0x00320003)]
      { lead with
        tb := { now := 6 * secUnits },
        trg := { lines := [(7,
                            { start := some (5 * secUnits),
                              local_ := some
                                ({ time := 5 * secUnits, falling := false, uncertainty := 4, notLocked := false, amplitude := 1 } : Arrival) })] },
        acq := { channels := [(7, { twe := [[5, 100, 0, 0x3F800000, 0, 0, 0, 0]] })] } }, 5 * secUnits + 100 * nsUnits,
    ([5, 100, 0, 0x3F800000, 0, 0, 0, 0] : List Word), by decide +kernel⟩⟩

/-- States and operands that meet the hypotheses of every clause of LoopEvaluation (its values at the ends of their ranges among them). -/
theorem witness_loop_evaluation :
    (∃ k : Byte, ∃ s : State, nextOnLane s (BitVec.toNat k % 4) ≠ some (BitVec.toNat k)) ∧
    (∃ k : Byte, ∃ n : ℕ, ∃ s : State,
     nextOnLane s (BitVec.toNat k % 4) = some (BitVec.toNat k) ∧ n = s.loop.lanes[BitVec.toNat k % 4]?.getD 0 + 1 ∧
       (finite64 (slotInput s (BitVec.toNat k)).y = false ∨ wordsGood s (BitVec.toNat k) = false)) ∧
    (∃ k : Byte, ∃ n : ℕ, ∃ s : State, ∃ r : Evaluated,
     nextOnLane s (BitVec.toNat k % 4) = some (BitVec.toNat k) ∧ n = s.loop.lanes[BitVec.toNat k % 4]?.getD 0 + 1 ∧ finite64
       (slotInput s (BitVec.toNat k)).y = true ∧ wordsGood s (BitVec.toNat k) = true ∧ evaluate s (BitVec.toNat k) (slotInput s (BitVec.toNat k)).y
       (s.slot (BitVec.toNat k)).states = r ∧ finite64 r.u = true ∧ finite64 r.us = true ∧ r.states.all finite64 = true) ∧
    (∃ k : Byte, ∃ n : ℕ, ∃ s : State, ∃ r : Evaluated,
     nextOnLane s (BitVec.toNat k % 4) = some (BitVec.toNat k) ∧ n = s.loop.lanes[BitVec.toNat k % 4]?.getD 0 + 1 ∧ finite64
       (slotInput s (BitVec.toNat k)).y = true ∧ wordsGood s (BitVec.toNat k) = true ∧ evaluate s (BitVec.toNat k) (slotInput s (BitVec.toNat k)).y
       (s.slot (BitVec.toNat k)).states = r ∧ (finite64 r.u = false ∨ finite64 r.us = false ∨ r.states.all finite64 = false)) ∧
    (∃ k : ℕ, ∃ _ : Dword, ∃ _ : List Dword, ∃ s : State,
     (sectOf s k 1).order = 0 ∧ (sectOf s k 2).order = 0 ∧ (sectOf s k 3).order = 0 ∧ (sectOf s k 4).order = 0 ∧ slotMode s k = 1) ∧
    (∃ k : Byte, ∃ n : ℕ, ∃ s : State,
     BitVec.toNat k < 240 ∧ (s.slot (BitVec.toNat k)).writeDue = true ∧ (s.slot (BitVec.toNat k)).taken = some (s.frameNo, n) ∧ fld
       (s.slotWord (BitVec.toNat k) 0 0) 25 24 = 0) ∧
    (∃ k : Byte, ∃ n : ℕ, ∃ s : State, ∃ j : ℕ,
     BitVec.toNat k < 240 ∧ (s.slot (BitVec.toNat k)).writeDue = true ∧ (s.slot (BitVec.toNat k)).taken = some (s.frameNo, n) ∧ fld
       (s.slotWord (BitVec.toNat k) 0 0) 25 24 = 1 ∧ finite32 (narrow (s.slot (BitVec.toNat k)).us) = true ∧ j ≠ fld (s.slotWord (BitVec.toNat k) 0 0)
       18 16) ∧
    (∃ k : Byte, ∃ n : ℕ, ∃ s : State,
     BitVec.toNat k < 240 ∧ (s.slot (BitVec.toNat k)).writeDue = true ∧ (s.slot (BitVec.toNat k)).taken = some (s.frameNo, n) ∧ fld
       (s.slotWord (BitVec.toNat k) 0 0) 25 24 = 1 ∧ finite32 (narrow (s.slot (BitVec.toNat k)).us) = false) ∧
    (∃ k : Byte, ∃ n : ℕ, ∃ s : State,
     240 ≤ BitVec.toNat k ∧ (s.slot (BitVec.toNat k)).writeDue = true ∧ (s.slot (BitVec.toNat k)).taken = some (s.frameNo, n) ∧ slotMode s
       (BitVec.toNat k) = 1 ∧ fld (s.slotWord (BitVec.toNat k) 0 0) 25 24 = 0) ∧
    (∃ p : Pkt, ∃ w : Fin 8, ∃ v : Word, ∃ x : Session, ∃ s : State, ∃ i : ℕ,
     MayWrite s p x (LOOP.FAULT ↑w) v ∧ i < 32 ∧ bit v i = true ∧ (s.slot (32 * ↑w + i)).stateFault = true) :=
  ⟨⟨255, withImg act, by decide +kernel⟩,
   ⟨0, 1, wn .loop 0 [(0, 0x20000000), (3, 0x7F800000), (5, 0x3F800000)] (withImg act), by decide +kernel⟩,
   ⟨255, 1, wn .loop (255 * 8) [(0, 0x20000000), (5, 0x3F800000), (3, 0x40000000), (6, 0xC0000000), (7, 0x3F000000)] (withImg act),
    evaluate (wn .loop (255 * 8) [(0, 0x20000000), (5, 0x3F800000), (3, 0x40000000), (6, 0xC0000000), (7, 0x3F000000)] (withImg act)) 255 0
      (List.replicate 11 0), by decide +kernel⟩,
   ⟨3, 1,
    wn .loop 25 [(0, 0xA0000000)] (wn .loop 24 [(0, 0x20000000), (5, 0x3F800000), (3, 0x40000000), (6, 0xC0000000), (7, 0x3F000000)]
                                     { withImg act with loop := { slots := [(3, { states := 0x7FF0000000000000 :: List.replicate 10 0 })] } }),
    evaluate (wn .loop 25 [(0, 0xA0000000)]
                (wn .loop 24 [(0, 0x20000000), (5, 0x3F800000), (3, 0x40000000), (6, 0xC0000000), (7, 0x3F000000)] (withImg act))) 3 0
      (0x7FF0000000000000 :: List.replicate 10 0), by decide +kernel⟩,
   ⟨255, 0x3FF0000000000000, [],
    wn .loop (255 * 8) [(0, 0x20000000), (5, 0x3F800000), (3, 0x40000000), (6, 0xC0000000), (7, 0x3F000000)] (withImg act), by decide +kernel⟩,
   ⟨239, 60, { withImg act with loop := { slots := [(239, { writeDue := true, taken := some (0, 60), us := 0x3FF0000000000000 })] } },
    by decide +kernel⟩,
   ⟨239, 60,
    wn .loop (239 * 8) [(0, 0x21070000)]
      { withImg act with loop := { slots := [(239, { writeDue := true, taken := some (0, 60), us := 0x4024000000000000 })] } }, 6,
    by decide +kernel⟩,
   ⟨0, 1,
    wn .loop 0 [(0, 0x21070000)]
      { withImg act with loop := { slots := [(0, { writeDue := true, taken := some (0, 1), us := 0x7FE0000000000000 })] } }, by decide +kernel⟩,
   ⟨255, 1,
    wn .loop (255 * 8) [(0, 0x20000000), (10, 3800)]
      { withImg act with loop := { slots := [(255, { writeDue := true, taken := some (0, 1), us := 0x4024000000000000 })] } }, by decide +kernel⟩,
   ⟨pk, 7, 0x80000000, ses 3, { st [(LOOP.FAULT 7, 0x80000000)] with loop := { slots := [(255, { stateFault := true })] } }, 31,
    mayWrite_of (by decide +kernel), by decide +kernel⟩⟩

/-- States and operands that meet the hypotheses of every clause of LoopCommits (its values at the ends of their ranges among them). -/
theorem witness_loop_commits :
    (∃ p : Pkt, ∃ v : Word, ∃ x : Session, ∃ s : State, MayWrite s p x LOOP.SEL v ∧ fld v 15 8 = s.regFld LOOP.SEL 15 8) ∧
    (∃ p : Pkt, ∃ v : Word, ∃ x : Session, ∃ s : State, MayWrite s p x LOOP.SEL v ∧ fld v 15 8 ≠ s.regFld LOOP.SEL 15 8) ∧
    (∃ p : Pkt, ∃ x : Session, ∃ k : ℕ, ∃ words : List (ℕ × Word), ∃ s : State,
     MayWrite s p x LOOP.COMMIT 1 ∧ k = s.regFld LOOP.SEL 15 8 ∧ words = stagedWords s k ∧ loopRefusal s k words = none ∧ s.role = Role.active) ∧
    (∃ p : Pkt, ∃ x : Session, ∃ k : ℕ, ∃ words : List (ℕ × Word), ∃ s : State, ∃ w : ℕ,
     MayWrite s p x LOOP.COMMIT 1 ∧ k = s.regFld LOOP.SEL 15 8 ∧ words = stagedWords s k ∧ loopRefusal s k words = some
       (Status.badParameter, w, none)) ∧
    (∃ k : ℕ, ∃ words : List (ℕ × Word), ∃ a : Application, ∃ s : State,
     s.frame.applications = [a] ∧ a.effect = AppEffect.loopCommit k words ∧ (words.all fun e => decide (16 ≤ e.1)) = true) ∧
    (∃ s : State, s.frame.applications = []) ∧
    (∃ k : ℕ, ∃ words : List (ℕ × Word), ∃ a : Application, ∃ s : State,
     s.frame.applications = [a] ∧ a.effect = AppEffect.loopCommit k words ∧ a.confirmed = false ∧ s.role = Role.standby) ∧
    (∃ k : ℕ, ∃ words : List (ℕ × Word), ∃ a : Application, ∃ s : State,
     s.frame.applications = [a] ∧ a.effect = AppEffect.loopCommit k words ∧ a.confirmed = false ∧ s.role ≠ Role.standby) ∧
    (∃ p : Pkt, ∃ x : Session, ∃ _ : Byte, ∃ page : Byte, ∃ s : State, Admits s p x ∧ BitVec.toNat page ≤ 4) ∧
    (∃ p : Pkt, ∃ x : Session, ∃ _ : Byte, ∃ page : Byte, ∃ words : List Word, ∃ s : State,
     Admits s p x ∧ 2 ≤ x.role ∧ BitVec.toNat page ≤ 4 ∧ words.length = 16 ∧ s.mayConfigure = true ∧ s.windowHolder WindowId.loop p.session = none) ∧
    (∃ p : Pkt, ∃ x : Session, ∃ slot : Byte, ∃ page : Byte, ∃ words : List Word, ∃ u : State, ∃ s : State,
     Admits s p x ∧ 2 ≤ x.role ∧ BitVec.toNat page ≤ 4 ∧ words.length = 16 ∧ s.mayConfigure = true ∧ s.windowHolder WindowId.loop p.session = none ∧ u
       = (s.selectLoop (BitVec.toNat slot) (BitVec.toNat page)).stagePage (BitVec.toNat slot) (BitVec.toNat page) 0 words ∧ loopRefusal u
       (BitVec.toNat slot) (stagedWords u (BitVec.toNat slot)) = none) ∧
    (∃ p : Pkt, ∃ x : Session, ∃ d : Design, ∃ s : State,
     MayWrite s p x LOOP.ND_CMD 1 ∧ s.loop.design = none ∧ d = { by_ := none, slot := s.regFld LOOP.ND_SLOT 7 0, sect := s.regFld LOOP.ND_SLOT 25 24,
                                                                 apply := s.regBit LOOP.ND_SLOT 31, f0 := s.reg LOOP.ND_F0,
                                                                 width := s.reg LOOP.ND_WIDTH, depth := s.reg LOOP.ND_DEPTH } ∧ designOk s d =
       false) ∧
    (∃ p : Pkt, ∃ x : Session, ∃ d : Design, ∃ s : State,
     MayWrite s p x LOOP.ND_CMD 1 ∧ s.loop.design = none ∧ d = { by_ := none, slot := s.regFld LOOP.ND_SLOT 7 0, sect := s.regFld LOOP.ND_SLOT 25 24,
                                                                 apply := s.regBit LOOP.ND_SLOT 31, f0 := s.reg LOOP.ND_F0,
                                                                 width := s.reg LOOP.ND_WIDTH, depth := s.reg LOOP.ND_DEPTH } ∧ designOk s d = true ∧
       d.apply = false) ∧
    (∃ p : Pkt, ∃ x : Session, ∃ f0 : Word, ∃ width : Word, ∃ depth : Word, ∃ slot : Byte, ∃ sect : Byte, ∃ d : Design, ∃ s : State,
     Admits s p x ∧ 2 ≤ x.role ∧ BitVec.toNat sect ≤ 3 ∧ s.mayConfigure = true ∧ s.windowHolder WindowId.loopNd p.session = none ∧ s.loop.design =
       none ∧ d =
       { by_ := some (requesterOf p), slot := BitVec.toNat slot, sect := BitVec.toNat sect, apply := false, f0 := f0, width := width, depth := depth }
       ∧ designOk s d = true) ∧
    (∃ d : Design, ∃ s : State, s.loop.design = some d ∧ d.apply = false ∧ d.by_ = none) :=
  ⟨⟨pk, 0x0004, ses 3, sg .loop 0 [(0, 5)] lead, mayWrite_of (by decide +kernel), by decide +kernel⟩,
   ⟨pk, 0xFF04, ses 3, sg .loop 0 [(0, 5)] lead, mayWrite_of (by decide +kernel), by decide +kernel⟩,
   ⟨pk, ses 3, 0, [(3, 0x3F800000)], sg .loop 0 [(3, 0x3F800000)] act, mayWrite_of (by decide +kernel), by decide +kernel⟩,
   ⟨pk, ses 3, 0, [(7, 0xFF800000)], sg .loop 0 [(7, 0xFF800000)] act, 7, mayWrite_of (by decide +kernel), by decide +kernel⟩,
   ⟨255, [(16, 0x3F800000), (75, 5)],
    { tick := 5 * secUnits, effect := .loopCommit (255 : Nat) ([(16, 0x3F800000), (75, 5)] : List (Nat × Word)), confirmed := true,
      by_ := some (requesterOf pk) },
    { act with
      frame := { applications := [({ tick := 5 * secUnits, effect := .loopCommit (255 : Nat) ([(16, 0x3F800000), (75, 5)] : List (Nat × Word)),
                                     confirmed := true, by_ := some (requesterOf pk) } : Application)] } }, by decide +kernel⟩,
   ⟨lead, by decide +kernel⟩,
   ⟨255, [(16, 0x3F800000), (75, 5)],
    { tick := 5 * secUnits, effect := .loopCommit (255 : Nat) ([(16, 0x3F800000), (75, 5)] : List (Nat × Word)), confirmed := false, by_ := none },
    { foll with
      frame := { applications := [({ tick := 5 * secUnits, effect := .loopCommit (255 : Nat) ([(16, 0x3F800000), (75, 5)] : List (Nat × Word)),
                                     confirmed := false, by_ := none } : Application)] } }, by decide +kernel⟩,
   ⟨255, [(16, 0x3F800000), (75, 5)],
    { tick := 5 * secUnits, effect := .loopCommit (255 : Nat) ([(16, 0x3F800000), (75, 5)] : List (Nat × Word)), confirmed := false,
      by_ := some (requesterOf pk) },
    { act with
      frame := { applications := [({ tick := 5 * secUnits, effect := .loopCommit (255 : Nat) ([(16, 0x3F800000), (75, 5)] : List (Nat × Word)),
                                     confirmed := false, by_ := some (requesterOf pk) } : Application)] } }, by decide +kernel⟩,
   ⟨pk, ses 3, 255, 4, sg .loop (255 * 8 + 4) [(3, 5)] act, admits_of (by decide +kernel) (by decide +kernel), by decide +kernel⟩,
   ⟨pk, ses 3, 255, 4, [1, 2, 3, 4, 5, 6, 7, 8, 9, 10, 11, 12, 13, 14, 15, 16], act, admits_of (by decide +kernel) (by decide +kernel),
    by decide +kernel⟩,
   ⟨pk, ses 3, 0, 1, [0, 0, 0, 0, 0, 0, 0, 0, 0, 0, 0, 0, 0, 0, 0, 0],
    (act.selectLoop (0 : Byte).toNat (1 : Byte).toNat).stagePage (0 : Byte).toNat (1 : Byte).toNat 0
      ([0, 0, 0, 0, 0, 0, 0, 0, 0, 0, 0, 0, 0, 0, 0, 0] : List Word), act, admits_of (by decide +kernel) (by decide +kernel), by decide +kernel⟩,
   ⟨pk, ses 3, { by_ := none, slot := 255, sect := 3, apply := true, f0 := 0, width := 0, depth := 0 }, st [(LOOP.ND_SLOT, 0x830000FF)] act,
    mayWrite_of (by decide +kernel), by decide +kernel⟩,
   ⟨pk, ses 3, { by_ := none, slot := 255, sect := 3, apply := false, f0 := 0x42480000, width := 0x3F800000, depth := 0x42A00000 },
    st [(LOOP.ND_SLOT, 0x030000FF), (LOOP.ND_F0, 0x42480000), (LOOP.ND_WIDTH, 0x3F800000), (LOOP.ND_DEPTH, 0x42A00000)] act,
    mayWrite_of (by decide +kernel), by decide +kernel⟩,
   ⟨pk, ses 3, 0x42480000, 0x3F800000, 0x42A00000, 255, 3,
    { by_ := some (requesterOf pk), slot := 255, sect := 3, apply := false, f0 := 0x42480000, width := 0x3F800000, depth := 0x42A00000 }, act,
    admits_of (by decide +kernel) (by decide +kernel), by decide +kernel⟩,
   ⟨{ by_ := none, slot := 255, sect := 3, apply := false, f0 := 0x42480000, width := 0x3F800000, depth := 0x42A00000 },
    { act with
      loop := { design := some
                  ({ by_ := none, slot := 255, sect := 3, apply := false, f0 := 0x42480000, width := 0x3F800000, depth := 0x42A00000 } : Design) } },
    by decide +kernel⟩⟩

/-- States and operands that meet the hypotheses of every clause of CoreComparison (its values at the ends of their ranges among them). -/
theorem witness_core_comparison :
    (∃ m : Mismatch, ∃ s : State,
     s.unitCompared ↑m.unit = true ∧ differingLanes m ≠ 0 ∧ s.regBit LOCK.STATUS 31 = false ∧ s.pair.handover = none ∧ (countedFaults s).length <
       s.regFld LOCK.CFG 23 16) ∧
    (∃ m : Mismatch, ∃ s : State, (s.unitCompared ↑m.unit = false ∨ differingLanes m = 0)) ∧
    (∃ _ : Mismatch, ∃ s : State, s.regBit LOCK.STATUS 31 = true) ∧
    (∃ s : State, s.lock.toOut = true ∧ s.role ≠ Role.out) ∧
    (∃ levels : BitVec 3, ∃ s : State,
     s.regBit LOCK.STATUS 31 = false ∧ s.pair.handover = none ∧ (s.frame.stage = 3 ∨ s.frame.stage = 4) ∧ (countedFaults s).length < s.regFld LOCK.CFG
       23 16 ∧ levels = safetyLevels s) ∧
    (∃ levels : BitVec 3, ∃ s : State,
     s.regBit LOCK.STATUS 31 = false ∧ s.pair.handover = none ∧ (s.frame.stage = 3 ∨ s.frame.stage = 4) ∧ (countedFaults s).length < s.regFld LOCK.CFG
       23 16 ∧ levels ≠ safetyLevels s ∧ s.lock.disagree = 0) ∧
    (∃ levels : BitVec 3, ∃ s : State,
     s.regBit LOCK.STATUS 31 = false ∧ s.pair.handover = none ∧ (s.frame.stage = 3 ∨ s.frame.stage = 4) ∧ (countedFaults s).length < s.regFld LOCK.CFG
       23 16 ∧ levels ≠ safetyLevels s ∧ 1 ≤ s.lock.disagree) ∧
    (∃ detected : BitVec 4, ∃ s : State,
     s.frame.stage = 3 ∧ s.regBit LOCK.CFG 4 = true ∧ s.tested = true ∧ s.regBit LOCK.STATUS 31 = false ∧ s.pair.handover = none ∧
       (countedFaults s).length < s.regFld LOCK.CFG 23 16 ∧ undetected s detected = []) ∧
    (∃ detected : BitVec 4, ∃ s : State, ∃ u : ℕ, ∃ rest : List ℕ,
     s.frame.stage = 3 ∧ s.regBit LOCK.CFG 4 = true ∧ s.tested = true ∧ s.regBit LOCK.STATUS 31 = false ∧ s.pair.handover = none ∧
       (countedFaults s).length < s.regFld LOCK.CFG 23 16 ∧ undetected s detected = u :: rest) ∧
    (∃ r : TestResult, ∃ s : State,
     s.role = Role.init ∧ s.regFld LOCK.TEST_STATUS 31 28 < 2 ∧ failedUnits s r = [] ∧ s.regBit LOCK.STATUS 28 = false ∧ s.regFld LOCK.STATUS 26 24 =
       0) ∧
    (∃ r : TestResult, ∃ s : State, ∃ u : ℕ, ∃ rest : List ℕ,
     s.role = Role.init ∧ s.regFld LOCK.TEST_STATUS 31 28 < 2 ∧ failedUnits s r = u :: rest ∧ s.regBit LOCK.STATUS 28 = false) ∧
    (∃ p : Pkt, ∃ x : Session, ∃ s : State, MayWrite s p x LOCK.TEST_RUN 21573 ∧ s.role = Role.out ∧ s.mode = RunMode.stop) ∧
    (∃ p : Pkt, ∃ x : Session, ∃ s : State, MayWrite s p x LOCK.TEST_RUN 21573 ∧ (s.role ≠ Role.out ∨ s.mode ≠ RunMode.stop)) ∧
    (∃ p : Pkt, ∃ x : Session, ∃ v : Word, ∃ s : State, MayWrite s p x LOCK.CLEAR v ∧ bit v 8 = true ∧ bit v 0 = false) ∧
    (∃ r : TestResult, ∃ s : State, s.lock.restoring = true ∧ failedUnits s r = [] ∧ s.regBit LOCK.STATUS 28 = false) ∧
    (∃ r : TestResult, ∃ s : State, ∃ u : ℕ, ∃ rest : List ℕ, s.lock.restoring = true ∧ failedUnits s r = u :: rest) ∧
    (∃ k : Fin 2, ∃ pairs : ℕ, ∃ until_ : ℕ, ∃ s : State,
     s.mode = RunMode.hold ∧ s.regBit LOCK.STATUS (16 + ↑k) = true ∧ s.trust.cert = some (pairs, until_) ∧ pairs.testBit ↑k = true) ∧
    (∃ _ : Fin 2, ∃ s : State, s.mode ≠ RunMode.hold) :=
  ⟨⟨{ unit := 3, lanes := 0x80000000, pc := 5, bits := 6, cycle := 7 }, withImg act, by decide +kernel⟩,
   ⟨{ unit := 3, lanes := 0x80000000, pc := 5, bits := 6, cycle := 7 }, withImg act .hold, by decide +kernel⟩,
   ⟨{ unit := 3, lanes := 0x80000000, pc := 5, bits := 6, cycle := 7 }, st [(LOCK.STATUS, 0xC0000000)] (withImg act), by decide +kernel⟩,
   ⟨{ withImg act with lock := { toOut := true } }, by decide +kernel⟩,
   ⟨safetyLevels (withImg act), (let b := { withImg act with lock := { disagree := 1 } }; { b with frame := { b.frame with stage := 4 } }),
    by decide +kernel⟩,
   ⟨7, (let b := withImg act; { b with frame := { b.frame with stage := 4 } }), by decide +kernel⟩,
   ⟨7, (let b := { withImg act with lock := { disagree := 1 } }; { b with frame := { b.frame with stage := 3 } }), by decide +kernel⟩,
   ⟨15, (let b := st [(LOCK.CFG, 0x00030010)] (withImg act); { b with frame := { b.frame with stage := 3 } }), by decide +kernel⟩,
   ⟨7, (let b := st [(LOCK.CFG, 0x00030010)] (withImg act); { b with frame := { b.frame with stage := 3 } }), 3, [], by decide +kernel⟩,
   ⟨{ cx0 := 0, cx1 := 0, cx2 := 0, loop := 0, micros := 900 }, { State.reset with lock := { cutOff := true } }, by decide +kernel⟩,
   ⟨{ cx0 := 0, cx1 := 0, cx2 := 0, loop := 0x80000000, micros := 900 }, State.reset, 3, [], by decide +kernel⟩,
   ⟨pk, ses 3, withImg { lead with role := .out } .stop, mayWrite_of (by decide +kernel), by decide +kernel⟩,
   ⟨pk, ses 3, withImg { lead with role := .out } .safe, mayWrite_of (by decide +kernel), by decide +kernel⟩,
   ⟨pk, ses 3, 0x100, st [(LOCK.STATUS, 0x10000000)] lead, mayWrite_of (by decide +kernel), by decide +kernel⟩,
   ⟨{ cx0 := 0, cx1 := 0, cx2 := 0, loop := 0, micros := 900 }, { withImg act .hold with lock := { restoring := true } }, by decide +kernel⟩,
   ⟨{ cx0 := 0, cx1 := 0, cx2 := 0x80000000000000000000000000000000, loop := 0, micros := 900 },
    { withImg act .hold with lock := { restoring := true } }, 2, [], by decide +kernel⟩,
   ⟨1, 2, 99, { st [(LOCK.STATUS, 0x00020000)] { act with mode := .hold } with trust := { cert := some (2, 99) } }, by decide +kernel⟩,
   ⟨7, (let b := { withImg act with lock := { disagree := 1 } }; { b with frame := { b.frame with stage := 3 } }), by decide +kernel⟩⟩

/-- States and operands that meet the hypotheses of every clause of HeartbeatPaths (its values at the ends of their ranges among them). -/
theorem witness_heartbeat_paths :
    (∃ h : Heartbeat, ∃ _ : Bool, ∃ s : State, heartbeatIntact h = true ∧ s.frame.overruns = [] ∧ h.frameIndex = BitVec.ofNat 32 (s.timeIndex 0)) ∧
    (∃ h : Heartbeat, ∃ _ : Bool, ∃ s : State, heartbeatIntact h = true ∧ s.frame.overruns = [] ∧ s.pair.ownNow = none ∧ s.frame.sw = none) ∧
    (∃ h : Heartbeat, ∃ _ : Bool, ∃ own : Dword, ∃ s : State,
     heartbeatIntact h = true ∧ s.frame.overruns = [] ∧ s.frame.sw = none ∧ h.frameIndex = BitVec.ofNat 32 (s.timeIndex 0) ∧ s.pair.ownNow = some own
       ∧ (s.role = Role.active ∧ h.role = Role.standby ∨ s.role = Role.standby ∧ h.role = Role.active) ∧ s.pair.handover = none ∧ own = h.digest) ∧
    (∃ h : Heartbeat, ∃ _ : Bool, ∃ own : Dword, ∃ s : State,
     heartbeatIntact h = true ∧ s.frame.overruns = [] ∧ s.frame.sw = none ∧ h.frameIndex = BitVec.ofNat 32 (s.timeIndex 0) ∧ s.pair.ownNow = some own
       ∧ (s.role = Role.active ∧ h.role = Role.standby ∨ s.role = Role.standby ∧ h.role = Role.active) ∧ s.pair.handover = none ∧ own ≠ h.digest ∧
       s.pair.mismatch = none) ∧
    (∃ h : Heartbeat, ∃ _ : Bool, ∃ _ : State, heartbeatIntact h = false) ∧
    (∃ s : State, s.pair.tandem.seen = true ∧ s.pair.tandem.lost = false ∧ 9 ≤ s.pair.tandem.good) ∧
    (∃ s : State,
     s.pair.tandem.seen = false ∧ s.pair.tandem.up = true ∧ s.pair.tandem.lost = false ∧ s.pair.tandem.misses = 2 ∧ s.pair.pulse.lost = false ∧
       s.pair.degraded = false ∧ s.pair.handover = none ∧ s.role ≠ Role.track) ∧
    (∃ offset : ℤ, ∃ _ : State, offset.natAbs ≤ 100) ∧
    (∃ offset : ℤ, ∃ _ : State, 100 < offset.natAbs) ∧
    (∃ s : State, s.pair.pulse.seen = true ∧ s.pair.pulse.lost = false) ∧
    (∃ s : State,
     s.pair.pulse.seen = false ∧ s.pair.pulse.up = true ∧ s.pair.pulse.lost = false ∧ s.pair.pulse.misses = 2 ∧ s.pair.tandem.lost = false ∧
       s.pair.degraded = false ∧ s.pair.handover = none) ∧
    (∃ present : Bool, ∃ _ : State, present = false) :=
  ⟨⟨okBeat, true, withImg act, by decide +kernel⟩,
   ⟨okBeat, true, withImg act, by decide +kernel⟩,
   ⟨okBeat, true, 5, { withImg act with pair := { act.pair with ownNow := some 5 } }, by decide +kernel⟩,
   ⟨beat { okBeat with role := .active }, true, 6, { withImg foll with pair := { foll.pair with ownNow := some 6 } }, by decide +kernel⟩,
   ⟨{ okBeat with digest := 6 }, true, withImg act, by decide +kernel⟩,
   ⟨{ act with pair := { tandem := { seen := true, misses := 2, good := 9 } } }, by decide +kernel⟩,
   ⟨{ act with pair := { act.pair with tandem := { up := true, misses := 2 } } }, by decide +kernel⟩,
   ⟨-100, act, by decide +kernel⟩,
   ⟨101, act, by decide +kernel⟩,
   ⟨{ act with pair := { pulse := { seen := true, misses := 2, good := 9 } } }, by decide +kernel⟩,
   ⟨{ act with pair := { act.pair with pulse := { up := true, misses := 2 } } }, by decide +kernel⟩,
   ⟨-100, act, by decide +kernel⟩⟩

/-- States and operands that meet the hypotheses of every clause of YokeMoves (its values at the ends of their ranges among them). -/
theorem witness_yoke_moves :
    (∃ s : State, claimWanted s = true) ∧
    (∃ s : State, claimWanted s = false) ∧
    (∃ y : YokeLines, ∃ _ : Half, ∃ _ : Word, ∃ s : State,
     s.pair.claim = true ∧ s.pair.grant = false ∧ y.sharePartner = false ∧ s.pair.grantPartner = true) ∧
    (∃ _ : YokeLines, ∃ _ : Half, ∃ _ : Word, ∃ s : State, s.pair.claim = false) ∧
    (∃ _ : YokeLines, ∃ s : State, s.pair.grant = true) ∧
    (∃ _ : Bool, ∃ _ : Word, ∃ h : Handover, ∃ s : State, s.pair.handover = some h ∧ h.sharing = true ∧ h.giver = true) ∧
    (∃ _ : Bool, ∃ err : Word, ∃ h : Handover, ∃ s : State, s.pair.handover = some h ∧ h.sharing = true ∧ h.giver = false ∧ BitVec.toNat err ≤ 100) ∧
    (∃ _ : Bool, ∃ err : Word, ∃ h : Handover, ∃ s : State, s.pair.handover = some h ∧ h.sharing = true ∧ h.giver = false ∧ 100 < BitVec.toNat err) ∧
    (∃ s : State, s.pair.grant = false ∧ s.pair.grantPartner = false) ∧
    (∃ s : State, (s.pair.grant = true ∨ s.pair.grantPartner = true)) :=
  ⟨⟨{ withImg act with pair := { act.pair with claim := false } }, by decide +kernel⟩,
   ⟨{ withImg act with pair := { act.pair with clamped := true } }, by decide +kernel⟩,
   ⟨{ claimPartner := true, grantPartner := false, sharePartner := false, takeoverIn := false }, 5, 6,
    { withImg act with pair := { act.pair with grant := false, grantPartner := true } }, by decide +kernel⟩,
   ⟨{ claimPartner := true, grantPartner := false, sharePartner := true, takeoverIn := false }, 5, 6,
    { withImg act with pair := { act.pair with claim := false, grant := false } }, by decide +kernel⟩,
   ⟨{ claimPartner := true, grantPartner := true, sharePartner := true, takeoverIn := false }, withImg act, by decide +kernel⟩,
   ⟨false, 5, { tick := 5 * secUnits, by_ := some (requesterOf pk), confirmed := true, giver := true, sharing := true },
    { withImg act with
      pair := { act.pair with
                handover := some
                  ({ tick := 5 * secUnits, by_ := some (requesterOf pk), confirmed := true, giver := true, sharing := true } : Handover) } },
    by decide +kernel⟩,
   ⟨true, 5, { tick := 5 * secUnits, by_ := none, confirmed := true, giver := false, sharing := true },
    { withImg foll with
      pair :=
        { act.pair with handover := some ({ tick := 5 * secUnits, by_ := none, confirmed := true, giver := false, sharing := true } : Handover) } },
    by decide +kernel⟩,
   ⟨true, 101, { tick := 5 * secUnits, by_ := none, confirmed := true, giver := false, sharing := true },
    { withImg foll with
      pair :=
        { act.pair with handover := some ({ tick := 5 * secUnits, by_ := none, confirmed := true, giver := false, sharing := true } : Handover) } },
    by decide +kernel⟩,
   ⟨{ withImg foll with pair := { ungrantedAt := 7 } }, by decide +kernel⟩,
   ⟨{ withImg act with pair := { act.pair with claim := false } }, by decide +kernel⟩⟩

/-- States and operands that meet the hypotheses of every clause of HandoverAndRoles (its values at the ends of their ranges among them). -/
theorem witness_handover_and_roles :
    (∃ p : Pkt, ∃ x : Session, ∃ s : State, Admits s p x ∧ 2 ≤ x.role ∧ handoverRefusal s = none) ∧
    (∃ p : Pkt, ∃ x : Session, ∃ st : Status, ∃ s : State, Admits s p x ∧ 2 ≤ x.role ∧ handoverRefusal s = some st) ∧
    (∃ h : Handover, ∃ s : State, s.pair.handover = some h ∧ h.sharing = false ∧ h.giver = true ∧ h.confirmed = true) ∧
    (∃ h : Handover, ∃ s : State, s.pair.handover = some h ∧ h.sharing = false ∧ h.giver = true ∧ h.confirmed = false) ∧
    (∃ h : Handover, ∃ s : State,
     s.pair.handover = some h ∧ h.sharing = false ∧ h.confirmed = true ∧ h.giver = true ∧ s.role = Role.active ∧ s.tb.selRef ≠ 4 ∧ s.frame.sw = none ∧
       s.mode ≠ RunMode.hold) ∧
    (∃ h : Handover, ∃ s : State,
     s.pair.handover = some h ∧ h.sharing = false ∧ h.confirmed = true ∧ h.giver = false ∧ s.role = Role.standby ∧ s.mode ≠ RunMode.hold ∧ s.tb.selRef
       ≠ 4) ∧
    (∃ p : Pkt, ∃ x : Session, ∃ s : State, Admits s p x ∧ (if s.role = Role.solo then 3 else 2) ≤ x.role ∧ roleRefused s Role.out = false) ∧
    (∃ p : Pkt, ∃ x : Session, ∃ s : State,
     Admits s p x ∧ 2 ≤ x.role ∧ s.role = Role.out ∧ s.mode = RunMode.stop ∧ s.tested = true ∧ s.regBit LOCK.STATUS 31 = false ∧ s.regBit LOCK.STATUS
       28 = false) ∧
    (∃ s : State,
     s.role = Role.init ∧ s.tested = true ∧ s.pair.heardAt = none ∧ s.pair.tandem.lost = false ∧ s.pair.roleRequest = none ∧ s.pair.hoFrame = none ∧
       s.pair.outDue = none ∧ s.pair.windowRefused = false ∧ s.pair.baseId ≠ 0 ∧ s.pair.baseId ≠ 65535 ∧ keptInInit s = false ∧ s.regBit PAIR.CFG 31 =
       true ∧ soloBlocked s = false ∧ s.mode = RunMode.stop ∧ s.tb.selRef ≠ 4) ∧
    (∃ s : State, s.role = Role.out) ∧
    (∃ s : State, s.role = Role.solo) ∧
    (∃ s : State, s.role = Role.standby ∧ s.pair.outDue = none) ∧
    (∃ s : State, s.power.supply ≠ SupplyPhase.off ∧ s.role ≠ Role.out) ∧
    (∃ s : State, s.power.supply = SupplyPhase.off ∧ s.power.powered = true) ∧
    (∃ st : Status, ∃ s : State, s.pair.lever = true ∧ s.pair.leverStanding = true ∧ s.role = Role.active ∧ handoverRefusal s = some st) ∧
    (∃ s : State, s.pair.lever = true ∧ s.pair.leverStanding = true ∧ s.role = Role.active ∧ handoverRefusal s = none) :=
  ⟨⟨pk, ses 3, withImg act, admits_of (by decide +kernel) (by decide +kernel), by decide +kernel⟩,
   ⟨pk, ses 3, .busy, swState (some { by_ := none, tack := none }), admits_of (by decide +kernel) (by decide +kernel), by decide +kernel⟩,
   ⟨{ tick := 5 * secUnits, by_ := some (requesterOf pk), confirmed := true, giver := true },
    { withImg act with
      pair :=
        { act.pair with handover := some ({ tick := 5 * secUnits, by_ := some (requesterOf pk), confirmed := true, giver := true } : Handover) } },
    by decide +kernel⟩,
   ⟨{ tick := 5 * secUnits, by_ := some (requesterOf pk), confirmed := false, giver := true },
    { withImg act with
      pair :=
        { act.pair with handover := some ({ tick := 5 * secUnits, by_ := some (requesterOf pk), confirmed := false, giver := true } : Handover) } },
    by decide +kernel⟩,
   ⟨{ tick := 5 * secUnits, by_ := some (requesterOf pk), confirmed := true, giver := true },
    { withImg act with
      pair :=
        { act.pair with handover := some ({ tick := 5 * secUnits, by_ := some (requesterOf pk), confirmed := true, giver := true } : Handover) } },
    by decide +kernel⟩,
   ⟨{ tick := 5 * secUnits, by_ := none, confirmed := true, giver := false },
    { withImg foll with
      pair := { foll.pair with handover := some ({ tick := 5 * secUnits, by_ := none, confirmed := true, giver := false } : Handover) } },
    by decide +kernel⟩,
   ⟨pk, ses 3, withImg act, admits_of (by decide +kernel) (by decide +kernel), by decide +kernel⟩,
   ⟨pk, ses 3, withImg { act with role := .out } .stop, admits_of (by decide +kernel) (by decide +kernel), by decide +kernel⟩,
   ⟨st [(LOCK.STATUS, 0x40000000), (PAIR.CFG, 0x80000000)] { State.reset with pair := { baseId := 7, storedId := 7 } }, by decide +kernel⟩,
   ⟨{ act with role := .out }, by decide +kernel⟩,
   ⟨{ act with role := .solo }, by decide +kernel⟩,
   ⟨foll, by decide +kernel⟩,
   ⟨st [(LOCK.STATUS, 0x40000000), (PAIR.CFG, 0x80000000)] { State.reset with pair := { baseId := 7, storedId := 7 } }, by decide +kernel⟩,
   ⟨{ act with power := { supply := .off, powered := true } }, by decide +kernel⟩,
   ⟨.busy, (let b := swState (some { by_ := none, tack := none }); { b with pair := { b.pair with lever := true, leverStanding := true } }),
    by decide +kernel⟩,
   ⟨{ act with pair := { act.pair with lever := true, leverStanding := true } }, by decide +kernel⟩⟩

/-- States and operands that meet the hypotheses of every clause of SeamAndSettling (its values at the ends of their ranges among them). -/
theorem witness_seam_and_settling :
    (∃ items : List SeamItem, ∃ finish : Half, ∃ s : State,
     items.all SeamItem.ok = true ∧ s.committing = false ∧ s.pair.tandem.up = true ∧ s.role = Role.standby ∧ BitVec.toNat finish ≤ 320 ∧ setHeld s
       items = true) ∧
    (∃ _ : List SeamItem, ∃ _ : Bool, ∃ _ : Half, ∃ s : State, s.committing = false ∧ s.pair.tandem.up = true ∧ s.role = Role.active) ∧
    (∃ s : State, s.frame.stage ≠ 0) ∧
    (∃ s : State, adoptsSeam s = false ∧ s.frame.stage = 0) ∧
    (∃ s : State, adoptsSeam s = true ∧ s.frame.stage = 0 ∧ (s.frame.proposal && linkCarriesSeam s) = false) ∧
    (∃ s : State, adoptsSeam s = true ∧ s.frame.stage = 0 ∧ s.frame.proposal = true ∧ linkCarriesSeam s = true) ∧
    (∃ m : MismatchCase, ∃ s : State,
     s.pair.mismatch = some m ∧ m.at_ + s.regFld PAIR.DIGEST_CFG 3 0 ≤ s.frame.count ∧ s.pair.selfCheck = some false) ∧
    (∃ m : MismatchCase, ∃ s : State,
     s.pair.mismatch = some m ∧ m.at_ + s.regFld PAIR.DIGEST_CFG 3 0 ≤ s.frame.count ∧ s.pair.selfCheck ≠ some false) ∧
    (∃ m : MismatchCase, ∃ s : State,
     s.pair.mismatch = some m ∧ m.at_ + s.regFld PAIR.DIGEST_CFG 3 0 ≤ s.frame.count ∧ s.pair.selfCheck ≠ some false ∧ s.role = Role.standby ∧
       m.partner ≠ some false) ∧
    (∃ m : MismatchCase, ∃ s : State,
     s.pair.mismatch = some m ∧ m.at_ + s.regFld PAIR.DIGEST_CFG 3 0 ≤ s.frame.count ∧ s.pair.selfCheck ≠ some false ∧ s.role = Role.standby ∧
       m.partner = some false) ∧
    (∃ s : State, s.net.closedFor ≠ some (nextC2 s.tb.now)) ∧
    (∃ theirs : List ReceiptEntry, ∃ r : Receipt, ∃ s : State,
     s.lock.cutOff = false ∧ exchanges s = true ∧ s.net.closed = [r] ∧ List.find?
       (fun e => decide (e.station = r.entry.station) && decide (e.stream = r.entry.stream)) theirs = none) ∧
    (∃ theirs : List ReceiptEntry, ∃ r : Receipt, ∃ s : State, ∃ e : ReceiptEntry,
     s.lock.cutOff = false ∧ exchanges s = true ∧ s.net.closed = [r] ∧ List.find?
       (fun e => decide (e.station = r.entry.station) && decide (e.stream = r.entry.stream)) theirs = some e ∧ e.sequence = r.entry.sequence ∧ e.crc ≠
       r.entry.crc ∧ s.role = Role.active) ∧
    (∃ r : Receipt, ∃ k : ℕ, ∃ s : State, s.net.closedFor = some k ∧ s.net.settledFor ≠ some k ∧ takesCopy s r = true) ∧
    (∃ k : ℕ, ∃ s : State, s.net.closedFor = some k) ∧
    (∃ s : State, (s.role ≠ Role.standby ∨ s.pair.muted = true ∨ s.pair.differNow = true)) ∧
    (∃ i : Image, ∃ s : State,
     s.role = Role.standby ∧ s.pair.muted = false ∧ s.pair.differNow = false ∧ s.runsQsp = true ∧ s.image = some i ∧ (s.frameNo + 1) % 100 = 0) :=
  ⟨⟨[.levels 5, .snapshot 0x1000 7], 320, withImg foll, by decide +kernel⟩,
   ⟨[.levels 5, .snapshot 0x1000 7], true, 321, withImg act, by decide +kernel⟩,
   ⟨{ withImg foll with frame := { (withImg foll).frame with stage := 1 } }, by decide +kernel⟩,
   ⟨{ withImg act with
      net := { receipts := [{ entry := { station := 3, stream := 0, flags := 0, sequence := 5, crc := 6 }, data := .payload [1] }] } },
    by decide +kernel⟩,
   ⟨withImg foll, by decide +kernel⟩,
   ⟨{ withImg foll with frame := { (withImg foll).frame with proposal := true, seamItems := [.levels 5] } }, by decide +kernel⟩,
   ⟨{ at_ := 0, partner := some true },
    { withImg foll with
      frame := { (withImg foll).frame with count := 15 },
      pair := { foll.pair with mismatch := some ({ at_ := 0, partner := some true } : MismatchCase), selfCheck := some false } }, by decide +kernel⟩,
   ⟨{ at_ := 0, partner := some false },
    { withImg act with
      frame := { (withImg act).frame with count := 15 },
      pair := { act.pair with mismatch := some ({ at_ := 0, partner := some false } : MismatchCase), selfCheck := some true } }, by decide +kernel⟩,
   ⟨{ at_ := 0, partner := none },
    { withImg foll with
      frame := { (withImg foll).frame with count := 15 },
      pair := { foll.pair with muted := true, mismatch := some ({ at_ := 0, partner := none } : MismatchCase), selfCheck := some true } },
    by decide +kernel⟩,
   ⟨{ at_ := 0, partner := some false },
    { withImg foll with
      frame := { (withImg foll).frame with count := 15 },
      pair := { foll.pair with muted := true, mismatch := some ({ at_ := 0, partner := some false } : MismatchCase), selfCheck := some true } },
    by decide +kernel⟩,
   ⟨withImg foll, by decide +kernel⟩,
   ⟨[], { entry := { station := 3, stream := 0, flags := 0, sequence := 5, crc := 6 }, data := .payload [1] },
    { withImg act with
      net := { closed := [({ entry := { station := 3, stream := 0, flags := 0, sequence := 5, crc := 6 }, data := .payload [1] } : Receipt)] } },
    by decide +kernel⟩,
   ⟨[{ station := 3, stream := 0, flags := 0, sequence := 5, crc := 7 }],
    { entry := { station := 3, stream := 0, flags := 0, sequence := 5, crc := 6 }, data := .payload [1] },
    { withImg act with
      net := { closed := [({ entry := { station := 3, stream := 0, flags := 0, sequence := 5, crc := 6 }, data := .payload [1] } : Receipt)] } },
    { station := 3, stream := 0, flags := 0, sequence := 5, crc := 7 }, by decide +kernel⟩,
   ⟨{ entry := { station := 3, stream := 0, flags := 0, sequence := 6, crc := 6 }, data := .payload [1] }, 7,
    { withImg act with
      net :=
        { closed := [{ entry := { station := 3, stream := 0, flags := 0, sequence := 5, crc := 6 }, data := .payload [1] }], closedFor := some 7 } },
    by decide +kernel⟩,
   ⟨7,
    { withImg act with
      net :=
        { closed := [{ entry := { station := 3, stream := 0, flags := 0, sequence := 5, crc := 6 }, data := .payload [1] }], closedFor := some 7 } },
    by decide +kernel⟩,
   ⟨{ withImg act with
      net := { receipts := [{ entry := { station := 3, stream := 0, flags := 0, sequence := 5, crc := 6 }, data := .payload [1] }] } },
    by decide +kernel⟩,
   ⟨img, { st [(NET.CFG, 0x80000000)] (withImg foll) with frame := { (withImg foll).frame with t0 := 99 * frameUnits } }, by decide +kernel⟩⟩

/-- States and operands that meet the hypotheses of every clause of TrackingPhases (its values at the ends of their ranges among them). -/
theorem witness_tracking_phases :
    (∃ r : PhaseResult, ∃ s : State, s.role = Role.track ∧ s.pair.phase = 1 ∧ pairWindowOk s r.versions = false) ∧
    (∃ r : PhaseResult, ∃ s : State,
     s.role = Role.track ∧ s.pair.phase = 1 ∧ pairWindowOk s r.versions = true ∧ s.pair.partnerId = s.pair.baseId ∧ s.pair.partnerSwitch = false) ∧
    (∃ r : PhaseResult, ∃ s : State,
     s.role = Role.track ∧ s.pair.phase = 1 ∧ pairWindowOk s r.versions = true ∧ (s.pair.partnerId ≠ s.pair.baseId ∨ s.pair.partnerSwitch = true)) ∧
    (∃ _ : PhaseResult, ∃ s : State, s.role = Role.track ∧ s.pair.phase = 2 ∧ s.tb.alignOk = true) ∧
    (∃ _ : PhaseResult, ∃ s : State, s.role = Role.track ∧ s.pair.phase = 2 ∧ s.tb.alignOk = false) ∧
    (∃ _ : PhaseResult, ∃ s : State, s.role = Role.track ∧ s.pair.phase = 3) ∧
    (∃ r : PhaseResult, ∃ s : State, s.role = Role.track ∧ s.pair.phase = 4 ∧ imagesEqual s r = false) ∧
    (∃ r : PhaseResult, ∃ s : State, s.role = Role.track ∧ s.pair.phase = 4 ∧ imagesEqual s r = true) ∧
    (∃ _ : PhaseResult, ∃ s : State, s.role = Role.track ∧ s.pair.phase = 5 ∧ s.pair.dirty = []) ∧
    (∃ _ : PhaseResult, ∃ s : State,
     s.role = Role.track ∧ s.pair.phase = 7 ∧ 100 ≤ s.pair.verifyFrames ∧ s.regFld PAIR.TRACK_CFG 7 0 * longestCycle s ≤ s.pair.verifyFrames) ∧
    (∃ a : ℕ, ∃ _ : Word, ∃ s : State, s.role = Role.track ∧ sharedWrite a = true) ∧
    (∃ a : ℕ, ∃ _ : Word, ∃ s : State, s.role = Role.track ∧ sharedWrite a = false) ∧
    (∃ _ : ℕ, ∃ _ : Word, ∃ s : State, s.role = Role.track) ∧
    (∃ _ : Word, ∃ _ : Word, ∃ s : State, s.role = Role.track) ∧
    (∃ b : ℕ, ∃ _ : Option CanFrame, ∃ s : State, s.role = Role.track ∧ b < 64) ∧
    (∃ b : ℕ, ∃ _ : Option CanFrame, ∃ s : State, s.role = Role.track ∧ b < 64) ∧
    (∃ _ : List (ℕ × PublicKey), ∃ _ : List (ℕ × BitVec 128), ∃ a : ℕ, ∃ _ : Word, ∃ s : State,
     s.role = Role.track ∧ a ≠ SEC.STATUS ∧ copiedKeyReg a = true) ∧
    (∃ _ : List (ℕ × Word), ∃ s : State, s.role = Role.track) ∧
    (∃ id : Word, ∃ _ : Word, ∃ _ : ℕ, ∃ _ : ℕ, ∃ _ : ℕ, ∃ _ : Option ℕ, ∃ s : State,
     s.role = Role.track ∧ BitVec.toNat s.frame.nextTack ≤ BitVec.toNat id) ∧
    (∃ _ : Word, ∃ s : State, s.role = Role.track) ∧
    (∃ _ : Fin 2, ∃ _ : BitVec 256, ∃ _ : Image, ∃ s : State, s.role = Role.track) ∧
    (∃ _ : ℕ, ∃ s : State, s.role = Role.track) ∧
    (∃ _ : List ℕ, ∃ s : State, ∃ n : ℕ, s.role = Role.track ∧ 5 ≤ s.pair.phase ∧ n ∈ s.pair.dirty) ∧
    (∃ _ : CopiedData, ∃ _ : List ℕ, ∃ s : State, s.role = Role.track ∧ 5 ≤ s.pair.phase ∧ s.regFld PAIR.TRACK_CFG 15 8 ≤ s.pair.round) ∧
    (∃ _ : CopiedData, ∃ _ : List ℕ, ∃ s : State, s.role = Role.track ∧ 5 ≤ s.pair.phase ∧ s.pair.round < s.regFld PAIR.TRACK_CFG 15 8) ∧
    (∃ mirror : ℕ, ∃ s : State, s.role = Role.track ∧ s.pair.phase = 6 ∧ s.pair.dirty = [] ∧ joinFits s mirror = true) ∧
    (∃ mirror : ℕ, ∃ s : State, s.role = Role.track ∧ s.pair.phase = 6 ∧ s.pair.dirty = [] ∧ joinFits s mirror = false) ∧
    (∃ _ : Byte, ∃ states : List Dword, ∃ s : State, s.role = Role.track ∧ 6 ≤ s.pair.phase ∧ states.length = 11) :=
  ⟨⟨{ versions := [0x02000000, 0, 0, 0], crc := 5, digests := [], responses := [], pages := 3, kilobytes := 4 },
    { foll with role := .track, pair := { foll.pair with phase := 1 } }, by decide +kernel⟩,
   ⟨{ versions := [0, 0, 0, 0], crc := 5, digests := [], responses := [], pages := 3, kilobytes := 4 },
    { foll with role := .track, pair := { foll.pair with phase := 1, partnerId := 7, baseId := 7 } }, by decide +kernel⟩,
   ⟨{ versions := [0, 0, 0, 0], crc := 5, digests := [], responses := [], pages := 3, kilobytes := 4 },
    { foll with role := .track, pair := { foll.pair with phase := 1, partnerId := 8, baseId := 7 } }, by decide +kernel⟩,
   ⟨{ versions := [], crc := 5, digests := [], responses := [], pages := 3, kilobytes := 4 },
    { foll with role := .track, pair := { foll.pair with phase := 2 }, tb := { foll.tb with alignOk := true } }, by decide +kernel⟩,
   ⟨{ versions := [], crc := 5, digests := [], responses := [], pages := 3, kilobytes := 4 },
    { foll with role := .track, pair := { foll.pair with phase := 2 } }, by decide +kernel⟩,
   ⟨{ versions := [], crc := 5, digests := [], responses := [], pages := 3, kilobytes := 4 },
    { foll with role := .track, pair := { foll.pair with phase := 3 } }, by decide +kernel⟩,
   ⟨{ versions := [], crc := 5, digests := [1], responses := [], pages := 3, kilobytes := 4 },
    { withImg foll with role := .track, pair := { foll.pair with phase := 4 } }, by decide +kernel⟩,
   ⟨{ versions := [], crc := 5, digests := [], responses := [], pages := 3, kilobytes := 4 },
    { foll with role := .track, pair := { foll.pair with phase := 4 } }, by decide +kernel⟩,
   ⟨{ versions := [], crc := 5, digests := [], responses := [], pages := 0, kilobytes := 4 },
    { foll with role := .track, pair := { foll.pair with phase := 5 } }, by decide +kernel⟩,
   ⟨{ versions := [], crc := 5, digests := [], responses := [], pages := 0, kilobytes := 4 },
    { foll with role := .track, pair := { foll.pair with phase := 7, verifyFrames := 100000 } }, by decide +kernel⟩,
   ⟨0x3008, 5, { foll with role := .track }, by decide +kernel⟩,
   ⟨0x1008, 5, { foll with role := .track }, by decide +kernel⟩,
   ⟨0x3008, 5, { foll with role := .track }, by decide +kernel⟩,
   ⟨0x3008, 5, { foll with role := .track }, by decide +kernel⟩,
   ⟨5, none, { foll with role := .track }, by decide +kernel⟩,
   ⟨5, none, { foll with role := .track }, by decide +kernel⟩,
   ⟨[], [(2, 5)], SEC.LOCK, 5, { foll with role := .track }, by decide +kernel⟩,
   ⟨[(5, 6)], { foll with role := .track }, by decide +kernel⟩,
   ⟨3, 4, 5, 3, 15, none, { foll with role := .track }, by decide +kernel⟩,
   ⟨3, { foll with role := .track }, by decide +kernel⟩,
   ⟨1, 5, img, { foll with role := .track }, by decide +kernel⟩,
   ⟨3, { foll with role := .track }, by decide +kernel⟩,
   ⟨[3], { foll with role := .track, pair := { foll.pair with phase := 5, dirty := [4] } }, 4, by decide +kernel⟩,
   ⟨{ stores := [(3, .data [1])], points := [(0x100, 5, false)] }, [3],
    { foll with role := .track, pair := { foll.pair with phase := 6, round := 255 } }, by decide +kernel⟩,
   ⟨{ stores := [(3, .data [1])], points := [(0x100, 5, false)] }, [3], { foll with role := .track, pair := { foll.pair with phase := 6 } },
    by decide +kernel⟩,
   ⟨12000, { withImg foll with role := .track, pair := { foll.pair with phase := 6, lane0 := true, lane1 := true } }, by decide +kernel⟩,
   ⟨12001, { withImg foll with role := .track, pair := { foll.pair with phase := 6, lane0 := true, lane1 := true } }, by decide +kernel⟩,
   ⟨255, [1, 2, 3, 4, 5, 6, 7, 8, 9, 10, 11], { withImg foll with role := .track, pair := { foll.pair with phase := 6 } }, by decide +kernel⟩⟩

/-- States and operands that meet the hypotheses of every clause of PassedCommands (its values at the ends of their ranges among them). -/
theorem witness_passed_commands :
    (∃ _ : Passed, ∃ s : State, s.role ≠ Role.standby ∧ s.role ≠ Role.track) ∧
    (∃ _ : ℤ, ∃ s : State, s.committing = false ∧ s.role = Role.track ∧ 1 ≤ s.pair.phase) ∧
    (∃ _ : ℤ, ∃ s : State, s.committing = false ∧ s.role = Role.standby ∧ s.lock.cutOff = false) ∧
    (∃ _ : Word, ∃ k : TackRequest, ∃ s : State, s.committing = false ∧ s.lock.cutOff = false ∧ s.role = Role.standby ∧ k.action ≠ 6) ∧
    (∃ _ : Bool, ∃ k : ℕ, ∃ s : State, s.committing = false ∧ s.lock.cutOff = false ∧ s.role = Role.standby ∧ s.tb.now + 20000 * nsUnits ≤ k) ∧
    (∃ _ : Bool, ∃ k : ℕ, ∃ s : State, s.committing = false ∧ s.role = Role.standby ∧ k < s.tb.now + 20000 * nsUnits) ∧
    (∃ _ : Confirmed, ∃ s : State, s.role ≠ Role.active) ∧
    (∃ h : Handover, ∃ s : State, s.committing = false ∧ s.role = Role.active ∧ s.pair.handover = some h ∧ s.tb.now + 20000 * nsUnits ≤ h.tick) ∧
    (∃ c : RunChange, ∃ s : State, s.committing = false ∧ s.role = Role.active ∧ s.frame.runChange = some c) ∧
    (∃ p : Pkt, ∃ v : Word, ∃ x : Session, ∃ s : State, Admits s p x ∧ x.role = 3 ∧ fld v 31 16 = 20553 ∧ 1 ≤ fld v 15 0 ∧ fld v 15 0 ≤ 65534) ∧
    (∃ p : Pkt, ∃ v : Word, ∃ x : Session, ∃ s : State, Admits s p x ∧ x.role = 3 ∧ v = 16708) ∧
    (∃ p : Pkt, ∃ v : Word, ∃ x : Session, ∃ s : State, Admits s p x ∧ x.role = 3 ∧ v ≠ 16708) :=
  ⟨⟨.imageAbort, act, by decide +kernel⟩,
   ⟨5, { act with role := .track, pair := { act.pair with phase := 1 } }, by decide +kernel⟩,
   ⟨5, foll, by decide +kernel⟩,
   ⟨5, { sec := 5, ns := 0, frac := 0, action := 3, target := 15, value := 7 }, withImg foll, by decide +kernel⟩,
   ⟨true, 20000 * nsUnits, withImg foll, by decide +kernel⟩,
   ⟨true, 20000 * nsUnits - 1, withImg foll, by decide +kernel⟩,
   ⟨.command, foll, by decide +kernel⟩,
   ⟨{ tick := 20000 * nsUnits, by_ := some (requesterOf pk), giver := true },
    { withImg act with
      pair := { act.pair with handover := some ({ tick := 20000 * nsUnits, by_ := some (requesterOf pk), giver := true } : Handover) } },
    by decide +kernel⟩,
   ⟨{ toRun := true, tick := 20000 * nsUnits, by_ := none },
    { withImg act with
      frame := { (withImg act).frame with runChange := some ({ toRun := true, tick := 20000 * nsUnits, by_ := none } : RunChange) } },
    by decide +kernel⟩,
   ⟨pk, 0x5049FFFE, ses 3, lead, admits_of (by decide +kernel) (by decide +kernel), by decide +kernel⟩,
   ⟨pk, 0x4144, ses 3, { lead with pair := { baseId := 7 } }, admits_of (by decide +kernel) (by decide +kernel), by decide +kernel⟩,
   ⟨pk, 0x5049FFFE, ses 3, lead, admits_of (by decide +kernel) (by decide +kernel), by decide +kernel⟩⟩

/-- States and operands that meet the hypotheses of every clause of Stations (its values at the ends of their ranges among them). -/
theorem witness_stations :
    (∃ _ : Fin 2, ∃ f : QspFrame, ∃ s : State,
     s.regBit NET.CFG 31 = true ∧ (qspIntact f = false ∨ f.version ≠ 1 ∨ f.type ≠ 16 ∨ f.pairId ≠ s.pair.baseId)) ∧
    (∃ _ : Fin 2, ∃ f : QspFrame, ∃ s : State,
     s.regBit NET.CFG 31 = true ∧ qspBad f = false ∧ f.type = 16 ∧ f.pairId = s.pair.baseId ∧ f.sequence ≠ c2Index (openCycle s)) ∧
    (∃ _ : Fin 2, ∃ f : QspFrame, ∃ s : State,
     s.regBit NET.CFG 31 = true ∧ qspBad f = false ∧ f.type = 16 ∧ f.pairId = s.pair.baseId ∧ f.sequence = c2Index (openCycle s) ∧ f.station ≠ 0 ∧
       (s.station f.station).bound = true ∧ (s.station f.station).step = f.step ∧
       (∀ r ∈ s.net.receipts, r.entry.station = f.station → r.entry.stream ≠ f.stream)) ∧
    (∃ _ : Fin 2, ∃ f : QspFrame, ∃ s : State,
     s.regBit NET.CFG 31 = true ∧ qspBad f = false ∧ f.type = 16 ∧ f.pairId = s.pair.baseId ∧ f.sequence = c2Index (openCycle s) ∧ f.station ≠ 0 ∧
       (s.station f.station).bound = true ∧ (s.station f.station).step = f.step ∧
       (∃ r ∈ s.net.receipts, r.entry.station = f.station ∧ r.entry.stream = f.stream)) ∧
    (∃ _ : Fin 2, ∃ f : QspFrame, ∃ s : State, ∃ r : Receipt,
     s.regBit NET.CFG 31 = true ∧ qspBad f = false ∧ f.type = 16 ∧ f.pairId = s.pair.baseId ∧ f.sequence = c2Index (openCycle s) ∧ f.station ≠ 0 ∧
       (s.station f.station).bound = true ∧ (s.station f.station).step ≠ f.step ∧ r ∈ s.net.receipts ∧ r.entry.station ≠ f.station) ∧
    (∃ f : QspFrame, ∃ _ : State, f.version ≠ 1) ∧
    (∃ f : QspFrame, ∃ s : State, f.version = 1 ∧ f.pairId ≠ s.pair.baseId) ∧
    (∃ f : QspFrame, ∃ s : State,
     f.version = 1 ∧ f.pairId = s.pair.baseId ∧ (f.station = 0 ∨ 1023 < f.station ∨ s.winBit WinId.station f.station 0 31 = false)) ∧
    (∃ _ : Fin 2, ∃ f : QspFrame, ∃ s : State,
     s.lock.cutOff = false ∧ qspIntact f = true ∧ f.type = 1 ∧ s.leadsBus = true ∧ s.regBit NET.CFG 31 = true ∧ (s.station f.station).bindAt = none ∧
       rollRefusal s f = none) ∧
    (∃ _ : Fin 2, ∃ f : QspFrame, ∃ r : ℕ, ∃ s : State,
     s.lock.cutOff = false ∧ qspIntact f = true ∧ f.type = 1 ∧ s.leadsBus = true ∧ s.regBit NET.CFG 31 = true ∧ (s.station f.station).bindAt = none ∧
       rollRefusal s f = some r ∧ (∀ e ∈ s.net.refusals, e.1 ≠ rollIdentity f)) ∧
    (∃ _ : Fin 2, ∃ f : QspFrame, ∃ r : ℕ, ∃ s : State, ∃ u : ℕ,
     s.lock.cutOff = false ∧ qspIntact f = true ∧ f.type = 1 ∧ s.leadsBus = true ∧ s.regBit NET.CFG 31 = true ∧ (s.station f.station).bindAt = none ∧
       rollRefusal s f = some r ∧ List.find? (fun e => decide (e.1 = rollIdentity f)) s.net.refusals = some (rollIdentity f, u) ∧ s.tb.up < u + 10 *
       secUnits) ∧
    (∃ n : BitVec 10, ∃ k : ℕ, ∃ s : State, s.lock.cutOff = false ∧ (s.station n.toNat).bindAt = some k ∧ s.leadsBus = false) ∧
    (∃ n : BitVec 10, ∃ k : ℕ, ∃ s : State, s.lock.cutOff = false ∧ (s.station n.toNat).bindAt = some k ∧ s.leadsBus = true) ∧
    (∃ p : Pkt, ∃ x : Session, ∃ s : State,
     MayWrite s p x NET.ST_COMMIT 1 ∧ 1 ≤ fld (s.winStaged WinId.station (s.regFld NET.ST_SEL 9 0) 3) 15 0 ∧ fld
       (s.winStaged WinId.station (s.regFld NET.ST_SEL 9 0) 3) 15 0 ≤ 1000) ∧
    (∃ p : Pkt, ∃ x : Session, ∃ s : State,
     MayWrite s p x NET.ST_COMMIT 1 ∧ (fld (s.winStaged WinId.station (s.regFld NET.ST_SEL 9 0) 3) 15 0 = 0 ∨ 1000 < fld
                                         (s.winStaged WinId.station (s.regFld NET.ST_SEL 9 0) 3) 15 0)) ∧
    (∃ d : StationDue, ∃ rest : List StationDue, ∃ s : State,
     s.net.stationDue = d :: rest ∧ (bit (d.words.getD 0 0) 31 ≠ s.winBit WinId.station d.station 0 31 ∨ d.words.getD 1 0 ≠ s.win WinId.station
                                       d.station 1 ∨ d.words.getD 2 0 ≠ s.win WinId.station d.station 2 ∨ fld (d.words.getD 0 0) 15 0 ≠ s.winFld
                                       WinId.station d.station 0 15 0)) :=
  ⟨⟨1, qsp { inputF with pairId := 8 }, st [(NET.CFG, 0x80000000)] { act with pair := { act.pair with baseId := 7 } }, by decide +kernel⟩,
   ⟨1, qsp { inputF with sequence := 5 }, st [(NET.CFG, 0x80000000)] { act with pair := { act.pair with baseId := 7 } }, by decide +kernel⟩,
   ⟨1, qsp inputF, { st [(NET.CFG, 0x80000000)] act with pair := { act.pair with baseId := 7 }, net := { stations := [(1023, { bound := true })] } },
    by decide +kernel⟩,
   ⟨1, qsp inputF,
    { st [(NET.CFG, 0x80000000)] act with
      pair := { act.pair with baseId := 7 },
      net := { stations := [(1023, { bound := true })],
               receipts := [({ entry := { station := 1023, stream := 0, flags := 0, sequence := 1, crc := 6 }, data := .payload [2] } : Receipt)] } },
    by decide +kernel⟩,
   ⟨1, qsp { inputF with step := 9 },
    { st [(NET.CFG, 0x80000000)] act with
      pair := { act.pair with baseId := 7 },
      net := { stations := [(1023, { bound := true })],
               receipts := [({ entry := { station := 1022, stream := 0, flags := 0, sequence := 1, crc := 6 }, data := .payload [2] } : Receipt)] } },
    { entry := { station := 1022, stream := 0, flags := 0, sequence := 1, crc := 6 }, data := .payload [2] }, by decide +kernel⟩,
   ⟨qsp { rollF with version := 2 }, { act with pair := { act.pair with baseId := 7 } }, by decide +kernel⟩,
   ⟨qsp { rollF with pairId := 8 }, { act with pair := { act.pair with baseId := 7 } }, by decide +kernel⟩,
   ⟨qsp rollF, { act with pair := { act.pair with baseId := 7 } }, by decide +kernel⟩,
   ⟨1, qsp { rollF with layout := stationLayout none 1023 },
    st [(NET.CFG, 0x80000000)] (wn .station 1023 [(0, 0x80000000)] { act with pair := { act.pair with baseId := 7 } }),
    by decide +kernel, qsp_intact _, by decide +kernel, by decide +kernel, by decide +kernel, by decide +kernel,
    by rw [rollRefusal]; exact (if_neg (by decide +kernel)).trans ((if_neg (by decide +kernel)).trans ((if_neg (by decide +kernel)).trans
        ((if_neg (by decide +kernel)).trans ((if_neg (by decide +kernel)).trans (if_neg (not_not_intro rfl))))))⟩,
   ⟨0, qsp { rollF with version := 2 }, 5, st [(NET.CFG, 0x80000000)] { act with pair := { act.pair with baseId := 7 } }, by decide +kernel⟩,
   ⟨0, qsp { rollF with version := 2 }, 5,
    { st [(NET.CFG, 0x80000000)] { act with pair := { act.pair with baseId := 7 } } with net := { refusals := [(0, 5)] } }, 5, by decide +kernel⟩,
   ⟨1023, 5 * secUnits, { foll with net := { stations := [(1023, { bindAt := some (5 * secUnits), newMac := 9 })] } }, by decide +kernel⟩,
   ⟨1023, 5 * secUnits, { act with net := { stations := [(1023, { bindAt := some (5 * secUnits), newMac := 9 })] } }, by decide +kernel⟩,
   ⟨pk, ses 3, sg .station 1 [(0, 0x80000001), (3, 1000)] (st [(NET.ST_SEL, 1)] act), mayWrite_of (by decide +kernel), by decide +kernel⟩,
   ⟨pk, ses 3, sg .station 1 [(0, 0x80000001), (3, 1001)] (st [(NET.ST_SEL, 1)] act), mayWrite_of (by decide +kernel), by decide +kernel⟩,
   ⟨{ tick := 5 * secUnits, station := 1023, words := [1, 2, 3, 4, 5, 6, 7, 8] }, [],
    { act with
      net := { stationDue := [({ tick := 5 * secUnits, station := 1023, words := [1, 2, 3, 4, 5, 6, 7, 8] } : StationDue)],
               stations := [(1023, { bound := true, mac := 4 })] } }, by decide +kernel⟩⟩

/-- States and operands that meet the hypotheses of every clause of GooseAndPorts (its values at the ends of their ranges among them). -/
theorem witness_goose_and_ports :
    (∃ p : Pkt, ∃ x : Session, ∃ s : State,
     MayWrite s p x NET.GO_COMMIT 1 ∧ 1 ≤ fld (s.winStaged WinId.goose (s.regFld NET.GO_SEL 6 0) 0) 21 16 ∧ fld
       (s.winStaged WinId.goose (s.regFld NET.GO_SEL 6 0) 0) 21 16 ≤ if s.regFld NET.GO_SEL 6 0 < 16 then 32 else 8) ∧
    (∃ m : Fin 16, ∃ s : State,
     s.winBit WinId.goose (↑m) 0 31 = true ∧ (s.publisher ↑m).stNum ≠ 0 ∧ (s.leadsBus = true ∨ s.role = Role.standby) ∧ s.leadsBus = true ∧
       s.lock.cutOff = false) ∧
    (∃ m : Fin 16, ∃ s : State,
     s.winBit WinId.goose (↑m) 0 31 = true ∧ (s.publisher ↑m).stNum ≠ 0 ∧ (s.leadsBus = true ∨ s.role = Role.standby) ∧ s.leadsBus = false) ∧
    (∃ g : GooseMessage, ∃ s : State,
     (∀ k < 64,
      s.winBit WinId.goose (16 + k) 0 31 = true → s.winFld WinId.goose (16 + k) 0 15 0 = BitVec.toNat g.appid → g.simulation = true ∧ s.winBit
        WinId.goose (16 + k) 0 28 = false ∨ g.test = true ∧ s.winBit WinId.goose (16 + k) 0 29 = false)) ∧
    (∃ g : GooseMessage, ∃ k : ℕ, ∃ s : State, gooseHearers s g = [k] ∧ gooseMatches s k g = false) ∧
    (∃ g : GooseMessage, ∃ k : ℕ, ∃ s : State, gooseHearers s g = [k] ∧ gooseMatches s k g = true ∧ g.ndsCom = false) ∧
    (∃ g : GooseMessage, ∃ k : ℕ, ∃ s : State, gooseHearers s g = [k] ∧ gooseMatches s k g = true ∧ g.ndsCom = true ∧ (s.subscription k).state ≠ 3) ∧
    (∃ k : Fin 64, ∃ s : State, (s.subscription ↑k).state = 2) ∧
    (∃ u : ℕ, ∃ s : State, s.net.leading = some u ∧ s.reg NET.PAIR_IP ≠ 0 ∧ s.regBit NET.CFG 8 = true ∧ s.net.arps < 3 ∧ s.lock.cutOff = false) ∧
    (∃ p : Fin 5, ∃ ip : Word, ∃ s : State,
     ip ≠ 0 ∧ s.lock.cutOff = false ∧ (ip = viewNet s (NET.PORT_IP ↑p) ∨ (↑p = 2 ∨ ↑p = 3) ∧ s.leadsBus = true ∧ ip = s.reg NET.PAIR_IP)) ∧
    (∃ p : Fin 5, ∃ ip : Word, ∃ s : State, (ip = 0 ∨ ip ≠ viewNet s (NET.PORT_IP ↑p) ∧ (s.leadsBus = false ∨ ip ≠ s.reg NET.PAIR_IP))) ∧
    (∃ n : Fin 2, ∃ f : PrpFrame, ∃ s : State, (s.prp ↑n).mode ≠ 0 ∧ (s.prp ↑n).window = [] ∧ f.checkOk = false ∧ f.tagOk = true ∧ f.length ≤ 1522) ∧
    (∃ n : Fin 2, ∃ f : PrpFrame, ∃ s : State, (s.prp ↑n).mode ≠ 0 ∧ (s.prp ↑n).window = [] ∧ 1528 < f.length) ∧
    (∃ n : Fin 2, ∃ f : PrpFrame, ∃ s : State,
     f.checkOk = true ∧ f.tagOk = true ∧ f.onB = false ∧ f.length ≤ 1522 ∧ (s.prp ↑n).mode = 0 ∧ (s.prp ↑n).window = [] ∧ (s.prp ↑n).upA = false) ∧
    (∃ n : Fin 2, ∃ f : PrpFrame, ∃ s : State,
     f.checkOk = true ∧ f.tagOk = true ∧ f.length ≤ 1522 ∧ (s.prp ↑n).mode = 1 ∧ (s.prp ↑n).window = [] ∧ (s.prp ↑n).upA = true ∧ (s.prp ↑n).upB =
       true ∧ f.lan = some f.onB ∧ f.kind = NodeKind.danp ∧ (s.prp ↑n).nodes = [] ∧ f.supervision = false) ∧
    (∃ n : Fin 2, ∃ f : PrpFrame, ∃ d : Duplicate, ∃ s : State,
     f.checkOk = true ∧ f.tagOk = true ∧ f.length ≤ 1522 ∧ (s.prp ↑n).mode = 1 ∧ (s.prp ↑n).window = [d] ∧ d.mac = f.source ∧ d.sequence = f.sequence
       ∧ d.onA + d.onB = 1 ∧ s.tb.up < d.first + s.regFld PRP.DD_CFG 31 0 * msUnits ∧ (s.prp ↑n).upA = true ∧ (s.prp ↑n).upB = true ∧ f.lan = some
       f.onB ∧ f.kind = NodeKind.danp ∧ f.supervision = false ∧ ((s.prp ↑n).nodes.any fun x => decide (x.mac = f.source)) = true) ∧
    (∃ n : Fin 2, ∃ f : PrpFrame, ∃ s : State,
     f.checkOk = true ∧ f.tagOk = true ∧ f.length ≤ 1522 ∧ (s.prp ↑n).mode = 2 ∧ f.kind = NodeKind.danh ∧ (s.prp ↑n).upA = true ∧ (s.prp ↑n).upB =
       true ∧ f.lan = none ∧ f.own = false ∧ f.toUs = false ∧ f.correction = none ∧ s.lock.cutOff = false) ∧
    (∃ n : Fin 2, ∃ s : State, (s.prp ↑n).mode ≠ 0 ∧ (s.prp ↑n).window = [] ∧ s.lock.cutOff = false) ∧
    (∃ n : Fin 2, ∃ s : State, (s.prp ↑n).upA = true) ∧
    (∃ n : Fin 2, ∃ s : State, (s.prp ↑n).upB = true) ∧
    (∃ p : Fin 4, ∃ info : Word, ∃ _ : State, if ↑p < 2 then 1 ≤ fld info 27 24 ∧ fld info 27 24 ≤ 2 else 3 ≤ fld info 27 24 ∧ fld info 27 24 ≤ 5) ∧
    (∃ p : Fin 4, ∃ info : Word, ∃ _ : State, ¬if ↑p < 2 then 1 ≤ fld info 27 24 ∧ fld info 27 24 ≤ 2 else 3 ≤ fld info 27 24 ∧ fld info 27 24 ≤ 5) ∧
    (∃ p : Fin 5, ∃ _ : Fin 4, ∃ s : State,
     s.regBit (NET.PORT_CFG ↑p) 31 = true ∧ (↑p = 4 ∨ s.regBit (NET.PORT_STATUS ↑p) 29 = true) ∧ s.regBit (NET.PORT_STATUS ↑p) 31 = false ∧ ↑p < 2) ∧
    (∃ p : Fin 5, ∃ _ : Fin 4, ∃ s : State,
     s.regBit (NET.PORT_CFG ↑p) 31 = true ∧ (↑p = 4 ∨ s.regBit (NET.PORT_STATUS ↑p) 29 = true) ∧ s.regBit (NET.PORT_STATUS ↑p) 31 = false ∧ 2 ≤ ↑p ∧
       ↑p < 4) ∧
    (∃ p : Fin 5, ∃ _ : Fin 4, ∃ s : State,
     s.regBit (NET.PORT_CFG ↑p) 31 = true ∧ (↑p = 4 ∨ s.regBit (NET.PORT_STATUS ↑p) 29 = true) ∧ s.regBit (NET.PORT_STATUS ↑p) 31 = false ∧ ↑p = 4) ∧
    (∃ p : Fin 5, ∃ up : Bool, ∃ _ : Fin 4, ∃ s : State,
     (up = false ∨ s.regBit (NET.PORT_CFG ↑p) 31 = false) ∧ s.regBit (NET.PORT_STATUS ↑p) 31 = true) ∧
    (∃ s : State, s.regBit NET.BEACON_CFG 0 = true ∧ s.regBit NET.BEACON_CFG 1 = false) :=
  ⟨⟨pk, ses 3, sg .goose 127 [(0, 0x80080000)] (st [(NET.GO_SEL, 127)] act), mayWrite_of (by decide +kernel), by decide +kernel⟩,
   ⟨15, wn .goose 15 [(0, 0x80010000)] { act with net := { publishers := [(15, { stNum := 3, sqNum := 0xFFFFFFFF, interval := 500 })] } },
    by decide +kernel⟩,
   ⟨15, wn .goose 15 [(0, 0x80010000)] { foll with net := { publishers := [(15, { stNum := 3, sqNum := 7, interval := 4 })] } }, by decide +kernel⟩,
   ⟨{ process := false, mac := 5, appid := 9, goId := [], gocbRef := [], datSet := [], confRev := 0, entries := 1, simulation := true, test := false,
      ndsCom := false, stNum := 1, sqNum := 0, live := 5, members := [(1, true)] }, wn .goose 79 [(0, 0x80010009), (2, 0x00050000)] act,
    by decide +kernel⟩,
   ⟨{ process := false, mac := 6, appid := 9, goId := [], gocbRef := [], datSet := [], confRev := 0, entries := 1, simulation := false, test := false,
      ndsCom := false, stNum := 1, sqNum := 0, live := 5, members := [(1, true)] }, 63, wn .goose 79 [(0, 0x80010009), (2, 0x00050000)] act,
    by decide +kernel⟩,
   ⟨{ process := false, mac := 5, appid := 9, goId := [], gocbRef := [], datSet := [], confRev := 0, entries := 1, simulation := false, test := false,
      ndsCom := false, stNum := 1, sqNum := 0, live := 5, members := [(1, true)] }, 63, wn .goose 79 [(0, 0x80010009), (2, 0x00050000)] act,
    by decide +kernel⟩,
   ⟨{ process := false, mac := 5, appid := 9, goId := [], gocbRef := [], datSet := [], confRev := 0, entries := 1, simulation := false, test := false,
      ndsCom := true, stNum := 1, sqNum := 0, live := 5, members := [(1, true)] }, 63, wn .goose 79 [(0, 0x80010009), (2, 0x00050000)] act,
    by decide +kernel⟩,
   ⟨63, { act with net := { subscriptions := [(63, { state := 2, expires := 88 })] } }, by decide +kernel⟩,
   ⟨5, { st [(NET.PAIR_IP, 9), (NET.CFG, 0x80000100)] act with net := { leading := some 5, arps := 2 } }, by decide +kernel⟩,
   ⟨3, 9, st [(NET.PAIR_IP, 9)] act, by decide +kernel⟩,
   ⟨4, 9, st [(NET.PAIR_IP, 9)] foll, by decide +kernel⟩,
   ⟨1,
    { onB := true, source := 5, sequence := 1, lan := some false, kind := .danp, checkOk := false, tagOk := true, own := false, toUs := true,
      supervision := false }, act, by decide +kernel⟩,
   ⟨1,
    { onB := true, source := 5, sequence := 1, lan := some false, kind := .danp, checkOk := true, tagOk := true, own := false, toUs := true,
      supervision := false, length := 1529 }, act, by decide +kernel⟩,
   ⟨1,
    { onB := false, source := 5, sequence := 1, lan := some false, kind := .danp, checkOk := true, tagOk := true, own := false, toUs := true,
      supervision := false }, { act with net := { net1 := { mode := 0 } } }, by decide +kernel⟩,
   ⟨1,
    { onB := true, source := 5, sequence := 1, lan := some true, kind := .danp, checkOk := true, tagOk := true, own := false, toUs := true,
      supervision := false }, { act with net := { net1 := { upA := true, upB := true } } }, by decide +kernel⟩,
   ⟨1,
    { onB := true, source := 5, sequence := 1, lan := some true, kind := .danp, checkOk := true, tagOk := true, own := false, toUs := true,
      supervision := false }, { mac := 5, sequence := 1, first := 0, onA := 1, onB := 0 },
    { act with
      net := { net1 := { upA := true, upB := true, nodes := [{ mac := 5, kind := 1, seen := 0 }],
                         window := [{ mac := 5, sequence := 1, first := 0, onA := 1, onB := 0 }] } } }, by decide +kernel⟩,
   ⟨1,
    { onB := true, source := 5, sequence := 1, lan := none, kind := .danh, checkOk := true, tagOk := true, own := false, toUs := false,
      supervision := false }, { act with net := { net1 := { mode := 2, upA := true, upB := true } } }, by decide +kernel⟩,
   ⟨15, wn .goose 15 [(0, 0x80010000)] { act with net := { publishers := [(15, { stNum := 3, sqNum := 0xFFFFFFFF, interval := 500 })] } },
    by decide +kernel⟩,
   ⟨1, { act with net := { net1 := { upA := true, seenA := 6 } } }, by decide +kernel⟩,
   ⟨1, { act with net := { net1 := { upB := true, seenB := 6 } } }, by decide +kernel⟩,
   ⟨1, 0x02000000, act, by decide +kernel⟩,
   ⟨3, 9, st [(NET.PAIR_IP, 9)] act, by decide +kernel⟩,
   ⟨1, 2, st [(NET.PORT_CFG 1, 0x80000000), (NET.PORT_STATUS 1, 0x20000000)] act, by decide +kernel⟩,
   ⟨3, 2, st [(NET.PORT_CFG 3, 0x80000000), (NET.PORT_STATUS 3, 0x20000000)] act, by decide +kernel⟩,
   ⟨4, 9, st [(NET.PAIR_IP, 9)] foll, by decide +kernel⟩,
   ⟨3, false, 2, st [(NET.PORT_CFG 3, 0x80000000), (NET.PORT_STATUS 3, 0xA2000000)] act, by decide +kernel⟩,
   ⟨st [(NET.BEACON_CFG, 0x00010001)] act, by decide +kernel⟩⟩

/-- States and operands that meet the hypotheses of every clause of Sessions (its values at the ends of their ranges among them). -/
theorem witness_sessions :
    (∃ p : Pkt, ∃ slot : Byte, ∃ role : Byte, ∃ ra : BitVec 512, ∃ s : State,
     AdmitsFree s p ∧ BitVec.toNat slot ≤ 15 ∧ BitVec.toNat role ≤ 3 ∧ onCurve (highHalf ra) (lowHalf ra) = true ∧ slotAllows s (BitVec.toNat slot)
       (BitVec.toNat role) p.path = true ∧ s.qcp.sessions.length < 8) ∧
    (∃ p : Pkt, ∃ slot : Byte, ∃ role : Byte, ∃ ra : BitVec 512, ∃ s : State,
     AdmitsFree s p ∧ BitVec.toNat slot ≤ 15 ∧ BitVec.toNat role ≤ 3 ∧ onCurve (highHalf ra) (lowHalf ra) = true ∧
       (s.regBit (SEC.KEY_INFO (BitVec.toNat slot)) 31 = false ∨ s.regBit (SEC.KEY_INFO (BitVec.toNat slot)) 30 = true ∨ s.regBit
          (SEC.KEY_INFO (BitVec.toNat slot)) 24 = false ∧ slot ≠ 1 ∨ s.regFld (SEC.KEY_INFO (BitVec.toNat slot)) 29 28 < BitVec.toNat role ∨ slot = 15
          ∧ p.path.kind ≠ 1 ∨ role = 3 ∧ fld (s.view SEC.OWNER_SLOT) 3 0 ≠ BitVec.toNat slot)) ∧
    (∃ p : Pkt, ∃ slot : Byte, ∃ role : Byte, ∃ ra : BitVec 512, ∃ s : State,
     AdmitsFree s p ∧ BitVec.toNat slot ≤ 15 ∧ BitVec.toNat role ≤ 3 ∧ onCurve (highHalf ra) (lowHalf ra) = true ∧ slotAllows s (BitVec.toNat slot)
       (BitVec.toNat role) p.path = true ∧ 8 ≤ s.qcp.sessions.length) ∧
    (∃ p : Pkt, ∃ slot : Byte, ∃ _ : Byte, ∃ _ : Half, ∃ _ : BitVec 512, ∃ s : State, AdmitsFree s p ∧ 15 < BitVec.toNat slot) ∧
    (∃ p : Pkt, ∃ slot : Byte, ∃ role : Byte, ∃ _ : Half, ∃ _ : BitVec 512, ∃ s : State,
     AdmitsFree s p ∧ BitVec.toNat slot ≤ 15 ∧ 3 < BitVec.toNat role) ∧
    (∃ p : Pkt, ∃ slot : Byte, ∃ role : Byte, ∃ zero : Half, ∃ ra : BitVec 512, ∃ s : State,
     AdmitsFree s p ∧ BitVec.toNat slot ≤ 15 ∧ BitVec.toNat role ≤ 3 ∧ zero = 0 ∧ onCurve (highHalf ra) (lowHalf ra) = false) ∧
    (∃ p : Pkt, ∃ x : Session, ∃ s : State, Arrives s p x ∧ x.confirmed = false) ∧
    (∃ p : Pkt, ∃ x : Session, ∃ s : State,
     Arrives s p x ∧ x.confirmed = false ∧ (∀ h ∈ s.qcp.handles, h.session ≠ p.session) ∧
       (∀ ch < 2, Option.map (fun x => x.2.1) (s.can ch).locked ≠ some p.session)) ∧
    (∃ p : Pkt, ∃ x : Session, ∃ s : State,
     Admits s p x ∧ (∀ h ∈ s.qcp.handles, h.session ≠ p.session) ∧ (∀ ch < 2, Option.map (fun x => x.2.1) (s.can ch).locked ≠ some p.session)) ∧
    (∃ n : Word, ∃ x : Session, ∃ s : State, s.session n = some x ∧ n ≠ 0 ∧ x.confirmed = false) ∧
    (∃ n : Word, ∃ x : Session, ∃ s : State,
     s.session n = some x ∧ n ≠ 0 ∧ 16 ≤ (List.filter (fun u => decide (s.tb.up < u + 1000 * msUnits)) x.macFails).length ∧
       (∀ h ∈ s.qcp.handles, h.session ≠ n) ∧ (∀ ch < 2, Option.map (fun x => x.2.1) (s.can ch).locked ≠ some n)) ∧
    (∃ p : Pkt, ∃ x : Session, ∃ s : State, Admits s p x ∧ 2 ≤ x.role ∧ s.role ≠ Role.active ∧ (s.role = Role.solo → s.mode = RunMode.stop)) ∧
    (∃ p : Pkt, ∃ x : Session, ∃ s : State, Admits s p x ∧ 2 ≤ x.role ∧ (s.role = Role.active ∨ s.role = Role.solo ∧ s.mode ≠ RunMode.stop)) :=
  ⟨⟨{ pk0 with path := { pk.path with kind := 1 } }, 15, 2,
    2658950714167241836024960892921041301125970072722937257365674603665477181341249356840007932708688355389314717219841986649271389940535342468374171416653984,
    st [(SEC.KEY_INFO 15, 0xA1000000)] State.reset, admitsFree_of (by decide +kernel), by decide +kernel⟩,
   ⟨pk0, 15, 3,
    2658950714167241836024960892921041301125970072722937257365674603665477181341249356840007932708688355389314717219841986649271389940535342468374171416653984,
    st [(SEC.KEY_INFO 15, 0xA1000000)] State.reset, admitsFree_of (by decide +kernel), by decide +kernel⟩,
   ⟨pk0, 0, 2,
    2658950714167241836024960892921041301125970072722937257365674603665477181341249356840007932708688355389314717219841986649271389940535342468374171416653984,
    { st [(SEC.KEY_INFO 0, 0xB1000000)] State.reset with
      qcp := { sessions := (List.range 8).map fun n => { ses 3 with number := BitVec.ofNat 32 (n + 1) } } }, admitsFree_of (by decide +kernel),
    by decide +kernel⟩,
   ⟨pk0, 16, 0, 0, 0, State.reset, admitsFree_of (by decide +kernel), by decide +kernel⟩,
   ⟨pk0, 15, 4, 0, 0, State.reset, admitsFree_of (by decide +kernel), by decide +kernel⟩,
   ⟨pk0, 15, 3, 0,
    2658950714167241836024960892921041301125970072722937257365674603665477181341249356840007932708688355389314717219841986649271389940535342468374171416653985,
    State.reset, admitsFree_of (by decide +kernel), by decide +kernel⟩,
   ⟨pk, { ses 3 with confirmed := false }, { State.reset with qcp := { sessions := [{ ses 3 with confirmed := false }] } },
    arrives_of (by decide +kernel), by decide +kernel⟩,
   ⟨pk, { ses 3 with confirmed := false }, { State.reset with qcp := { sessions := [{ ses 3 with confirmed := false }] } },
    arrives_of (by decide +kernel), by decide +kernel⟩,
   ⟨pk, ses 3, withImg { act with role := .solo } .stop, admits_of (by decide +kernel) (by decide +kernel), by decide +kernel⟩,
   ⟨1, { ses 3 with confirmed := false }, { State.reset with qcp := { sessions := [{ ses 3 with confirmed := false }] } }, by decide +kernel⟩,
   ⟨1, { ses 3 with macFails := List.replicate 16 0 }, { State.reset with qcp := { sessions := [{ ses 3 with macFails := List.replicate 16 0 }] } },
    by decide +kernel⟩,
   ⟨pk, ses 3, withImg { act with role := .solo } .stop, admits_of (by decide +kernel) (by decide +kernel), by decide +kernel⟩,
   ⟨pk, ses 3, withH (.image 1) 3 0 lead, admits_of (by decide +kernel) (by decide +kernel), by decide +kernel⟩⟩

/-- States and operands that meet the hypotheses of every clause of PacketsAndNotices (its values at the ends of their ranges among them). -/
theorem witness_packets_and_notices :
    (∃ p : Pkt, ∃ w : Half, ∃ s : State,
     AdmitsFree s p ∧ (w = 65535 ∨ w = s.pair.baseId) ∧ (List.filter (fun u => decide (s.tb.up < u + 1000 * msUnits)) s.net.hellos).length < 10) ∧
    (∃ p : Pkt, ∃ w : Half, ∃ s : State,
     AdmitsFree s p ∧ (w = 65535 ∨ w = s.pair.baseId) ∧ 10 ≤ (List.filter (fun u => decide (s.tb.up < u + 1000 * msUnits)) s.net.hellos).length) ∧
    (∃ p : Pkt, ∃ l : List Byte, ∃ s : State, AdmitsFree s p ∧ l.length ≤ 64) ∧
    (∃ p : Pkt, ∃ _ : List Byte, ∃ s : State,
     s.committing = false ∧ p.session = 0 ∧ (10 ≤ List.countP (fun r => decide (r.2 = p.path.ip))
                                               (List.filter (fun r => decide (s.tb.up < r.1 + 1000 * msUnits)) s.qcp.freeRecent) ∨ 50 ≤
                                               (List.filter (fun r => decide (s.tb.up < r.1 + 1000 * msUnits)) s.qcp.freeRecent).length)) ∧
    (∃ s : State, s.committing = false) ∧
    (∃ _ : Path, ∃ bytes : List Byte, ∃ _ : Bool, ∃ _ : MacCheck, ∃ s : State, s.committing = false ∧ (bytes.length < 36 ∨ 1468 < bytes.length)) ∧
    (∃ _ : Path, ∃ bytes : List Byte, ∃ frag : Bool, ∃ _ : MacCheck, ∃ s : State,
     s.committing = false ∧ 36 ≤ bytes.length ∧ bytes.length ≤ 1468 ∧ frag = true) ∧
    (∃ _ : Path, ∃ bytes : List Byte, ∃ frag : Bool, ∃ _ : MacCheck, ∃ s : State,
     s.committing = false ∧ 36 ≤ bytes.length ∧ bytes.length ≤ 1468 ∧ frag = false ∧ crc32c (List.take (bytes.length - 4) bytes) ≠ BitVec.ofNat 32
       (beNat (List.drop (bytes.length - 4) bytes))) ∧
    (∃ _ : Path, ∃ bytes : List Byte, ∃ frag : Bool, ∃ _ : MacCheck, ∃ s : State, s.committing = false ∧ packetFault bytes frag = none) ∧
    (∃ _ : Path, ∃ bytes : List Byte, ∃ frag : Bool, ∃ _ : MacCheck, ∃ s : State,
     s.committing = false ∧ (packetFault bytes frag = some MalformedPacket.length ∨ packetFault bytes frag = some MalformedPacket.fragment ∨
                               packetFault bytes frag = some MalformedPacket.magic)) ∧
    (∃ _ : Path, ∃ bytes : List Byte, ∃ frag : Bool, ∃ _ : MacCheck, ∃ s : State,
     s.committing = false ∧ packetFault bytes frag = some MalformedPacket.crc) ∧
    (∃ _ : Path, ∃ bytes : List Byte, ∃ frag : Bool, ∃ _ : MacCheck, ∃ s : State,
     s.committing = false ∧ packetFault bytes frag = some MalformedPacket.version) ∧
    (∃ _ : Path, ∃ bytes : List Byte, ∃ frag : Bool, ∃ _ : MacCheck, ∃ s : State,
     s.committing = false ∧ packetFault bytes frag = some MalformedPacket.header) ∧
    (∃ _ : Path, ∃ bytes : List Byte, ∃ frag : Bool, ∃ _ : MacCheck, ∃ s : State,
     s.committing = false ∧ packetFault bytes frag = some MalformedPacket.lengths) ∧
    (∃ path : Path, ∃ bytes : List Byte, ∃ frag : Bool, ∃ mac : MacCheck, ∃ x : Session, ∃ s : State,
     packetFault bytes frag = some MalformedPacket.opcode ∧ Arrives s (packetEnvelope path bytes mac) x) ∧
    (∃ p : Pkt, ∃ s : State, s.committing = false ∧ (p.pairId = 65535 ∨ p.pairId = s.pair.baseId) ∧ p.session ≠ 0 ∧ s.session p.session = none) ∧
    (∃ p : Pkt, ∃ s : State, ∃ x : Session,
     s.committing = false ∧ (p.pairId = 65535 ∨ p.pairId = s.pair.baseId) ∧ p.session ≠ 0 ∧ s.session p.session = some x ∧ x.path ≠ p.path) ∧
    (∃ p : Pkt, ∃ s : State, ∃ x : Session,
     s.committing = false ∧ (p.pairId = 65535 ∨ p.pairId = s.pair.baseId) ∧ p.session ≠ 0 ∧ s.session p.session = some x ∧ x.path = p.path ∧ p.mac ≠
       MacCheck.correct) ∧
    (∃ p : Pkt, ∃ s : State, ∃ x : Session,
     s.committing = false ∧ (p.pairId = 65535 ∨ p.pairId = s.pair.baseId) ∧ p.session ≠ 0 ∧ s.session p.session = some x ∧ x.path = p.path ∧ p.mac =
       MacCheck.correct ∧ 200 ≤ (recentOf x s.tb.up).length) ∧
    (∃ p : Pkt, ∃ s : State, ∃ x : Session,
     s.committing = false ∧ (p.pairId = 65535 ∨ p.pairId = s.pair.baseId) ∧ p.session ≠ 0 ∧ s.session p.session = some x ∧ x.path = p.path ∧ p.mac =
       MacCheck.correct ∧ (recentOf x s.tb.up).length < 200 ∧ BitVec.toNat p.seq ≤ x.high ∧ (∀ h ∈ x.held, h.1 ≠ BitVec.toNat p.seq) ∧
       (BitVec.toNat p.seq + 63 < x.high ∨ BitVec.toNat p.seq ∈ x.seen)) ∧
    (∃ p : Pkt, ∃ x : Session, ∃ s : State, Admits s p x) ∧
    (∃ n : Word, ∃ k : Word, ∃ x : Notice, ∃ s : State, s.qcp.notices = [x] ∧ x.session = n ∧ x.count = BitVec.toNat k ∧ x.resends < 3) ∧
    (∃ n : Word, ∃ k : Word, ∃ x : Notice, ∃ s : State, s.qcp.notices = [x] ∧ x.session = n ∧ x.count = BitVec.toNat k ∧ 3 ≤ x.resends) ∧
    (∃ p : Pkt, ∃ x : Session, ∃ _ : Half, ∃ s : State,
     Arrives s { path := p.path, session := p.session, seq := p.seq, crc := p.crc, pairId := p.pairId, mac := p.mac, relay := false } x ∧ p.relay =
       true ∧ s.lock.cutOff = false ∧ s.pair.tandem.up = true) ∧
    (∃ p : Pkt, ∃ x : Session, ∃ _ : Half, ∃ s : State,
     Arrives s { path := p.path, session := p.session, seq := p.seq, crc := p.crc, pairId := p.pairId, mac := p.mac, relay := false } x ∧ p.relay =
       true ∧ s.lock.cutOff = false ∧ s.pair.tandem.up = false) ∧
    (∃ n : Word, ∃ q : Word, ∃ _ : Status, ∃ _ : Byte, ∃ _ : Word, ∃ _ : List Word, ∃ _ : List Word, ∃ r : Relay, ∃ s : State,
     s.qcp.relays = [r] ∧ r.by_.session = n ∧ r.by_.seq = q ∧ (s.session n).isSome = true ∧ n ≠ 0) ∧
    (∃ id : Word, ∃ h : Handle, ∃ s : State, s.qcp.handles = [h] ∧ h.id = BitVec.toNat id) ∧
    (∃ w : WindowId, ∃ n : Word, ∃ u : ℕ, ∃ s : State, List.find? (fun c => decide (c.1 = w)) s.qcp.claims = some (w, n, u)) :=
  ⟨⟨{ pk0 with pairId := 7 }, 7, { lead with pair := { baseId := 7 }, net := { hellos := [0,0,0,0,0,0,0,0,0] } }, admitsFree_of (by decide +kernel),
    by decide +kernel⟩,
   ⟨pk0, 0xFFFF, { lead with net := { hellos := [0,0,0,0,0,0,0,0,0,0] } }, admitsFree_of (by decide +kernel), by decide +kernel⟩,
   ⟨pk0, List.replicate 64 7, lead, admitsFree_of (by decide +kernel), by decide +kernel⟩,
   ⟨pk0, List.replicate 64 7, { lead with qcp := { lead.qcp with freeRecent := List.replicate 10 (0, 1) } }, by decide +kernel⟩,
   ⟨lead, by decide +kernel⟩,
   ⟨pk.path, List.replicate 35 0, false, .correct, lead, by decide +kernel⟩,
   ⟨pk.path, List.replicate 36 0, true, .correct, lead, by decide +kernel⟩,
   ⟨pk.path, List.replicate 36 1, false, .correct, lead, by decide +kernel⟩,
   ⟨pk.path, dgram 0x51435031 1 5 0 0 0 [], false, .correct, lead, by decide +kernel⟩,
   ⟨pk.path, List.replicate 35 0, false, .correct, lead, by decide +kernel⟩,
   ⟨pk.path, List.replicate 36 1, false, .correct, lead, by decide +kernel⟩,
   ⟨pk.path, dgram 0x51435031 2 5 0 0 0 [], false, .correct, lead, by decide +kernel⟩,
   ⟨pk.path, dgram 0x51435031 1 5 0x400 0 0 [], false, .correct, lead, by decide +kernel⟩,
   ⟨pk.path, dgram 0x51435031 1 5 0 0 1 [], false, .correct, lead, by decide +kernel⟩,
   ⟨pk.path, dgram 0x51435031 1 9 4 1 0 (List.replicate 32 0), false, .correct, ses 3, lead, by decide +kernel, arrives_of (by decide +kernel)⟩,
   ⟨{ pk with session := 2 }, lead, by decide +kernel⟩,
   ⟨{ pk with path := { pk.path with port := 1 } }, lead, (ses 3 : Session), by decide +kernel⟩,
   ⟨{ pk with mac := .absent }, lead, (ses 3 : Session), by decide +kernel⟩,
   ⟨pk, { lead with qcp := { sessions := [{ ses 3 with recent := List.replicate 200 0 }] } },
    ({ ses 3 with recent := List.replicate 200 0 } : Session), by decide +kernel⟩,
   ⟨pk, { lead with qcp := { sessions := [{ ses 3 with high := 65 }] } }, ({ ses 3 with high := 65 } : Session), by decide +kernel⟩,
   ⟨pk, ses 3, lead, admits_of (by decide +kernel) (by decide +kernel)⟩,
   ⟨1, 1, { session := 1, count := 1, opcode := 5, ref := 3, reply := done, sentAt := 0, resends := 2 },
    { lead with
      qcp := { lead.qcp with notices := [({ session := 1, count := 1, opcode := 5, ref := 3, reply := done, sentAt := 0, resends := 2 } : Notice)] } },
    by decide +kernel⟩,
   ⟨1, 1, { session := 1, count := 1, opcode := 5, ref := 3, reply := done, sentAt := 0, resends := 3 },
    { lead with
      qcp := { lead.qcp with notices := [({ session := 1, count := 1, opcode := 5, ref := 3, reply := done, sentAt := 0, resends := 3 } : Notice)] } },
    by decide +kernel⟩,
   ⟨{ pk with relay := true }, ses 3, 5, act, arrives_of (by decide +kernel), by decide +kernel⟩,
   ⟨{ pk with relay := true }, ses 3, 5, lead, arrives_of (by decide +kernel), by decide +kernel⟩,
   ⟨1, 1, .done, 0, 0, [5], [], { by_ := requesterOf pk, opcode := 0x10, sentAt := 0 },
    { act with qcp := { act.qcp with relays := [({ by_ := requesterOf pk, opcode := 0x10, sentAt := 0 } : Relay)] } }, by decide +kernel⟩,
   ⟨5, hnd (.image 1) 3 0, st [(IMG.B_STATE 1, 1)] (withH (.image 1) 3 0 act), by decide +kernel⟩,
   ⟨.loop, 1, 5, sg .loop 0 [(3, 5)] { lead with qcp := { lead.qcp with claims := [(.loop, 1, 5)] } }, by decide +kernel⟩⟩

/-- States and operands that meet the hypotheses of every clause of RegisterCommands (its values at the ends of their ranges among them). -/
theorem witness_register_commands :
    (∃ p : Pkt, ∃ x : Session, ∃ a : Half, ∃ s : State,
     Admits s p x ∧ implemented (BitVec.toNat a) = true ∧ BitVec.toNat a ∈
       [PRP.SUP_CFG, PRP.DD_CFG, PRP.ALARM, NET.ALARM, NET.QSP_LATE, TB.SLEW_LIMIT, MODE.CHANGE_COUNT, EVR.CFG]) ∧
    (∃ p : Pkt, ∃ x : Session, ∃ a : Half, ∃ s : State, Admits s p x ∧ implemented (BitVec.toNat a) = false) ∧
    (∃ p : Pkt, ∃ x : Session, ∃ s : State, Admits s p x) ∧
    (∃ p : Pkt, ∃ x : Session, ∃ a : Half, ∃ n : Half, ∃ s : State,
     Admits s p x ∧ 1 ≤ BitVec.toNat n ∧ BitVec.toNat n ≤ 256 ∧
       ((BitVec.toNat a + BitVec.toNat n - 1) / 256 ≠ BitVec.toNat a / 256 ∨ ∃ i < BitVec.toNat n, implemented (BitVec.toNat a + i) = false)) ∧
    (∃ p : Pkt, ∃ x : Session, ∃ a : Half, ∃ v : Word, ∃ r : RegRow, ∃ s : State,
     MayWrite s p x (BitVec.toNat a) v ∧ regRow (BitVec.toNat a) = some r ∧ BitVec.toNat a ∈
       [PRP.SUP_CFG, PRP.DD_CFG, PRP.LAN_TIMEOUT, PRP.ALARM, NET.ALARM, NET.GOOSE_CFG, NET.BEACON_CFG]) ∧
    (∃ p : Pkt, ∃ x : Session, ∃ a : Half, ∃ v : Word, ∃ s : State, MayWrite s p x (BitVec.toNat a) v ∧ acts (BitVec.toNat a) = false) ∧
    (∃ p : Pkt, ∃ x : Session, ∃ a : Half, ∃ mask : Word, ∃ v : Word, ∃ r : RegRow, ∃ s : State,
     regRow (BitVec.toNat a) = some r ∧ MayWrite s p x (BitVec.toNat a) (modified r (s.reg (BitVec.toNat a)) mask v) ∧ BitVec.toNat a ∈
       [PRP.SUP_CFG, PRP.DD_CFG, PRP.LAN_TIMEOUT, PRP.ALARM, NET.ALARM, NET.GOOSE_CFG, NET.BEACON_CFG]) ∧
    (∃ p : Pkt, ∃ x : Session, ∃ a : Half, ∃ v : Word, ∃ s : State, Admits s p x ∧ x.role < writeAuthority s (BitVec.toNat a) v) ∧
    (∃ p : Pkt, ∃ x : Session, ∃ a : Half, ∃ v : Word, ∃ s : State,
     Admits s p x ∧ writeAuthority s (BitVec.toNat a) v ≤ x.role ∧ writeParams s (BitVec.toNat a) v 4 = none ∧ acts (BitVec.toNat a) = true ∧
       (stopRefused s (BitVec.toNat a) v = true ∨ sharedWrite (BitVec.toNat a) = true ∧ s.mayConfigure = false)) ∧
    (∃ p : Pkt, ∃ x : Session, ∃ v : Word, ∃ n : Word, ∃ s : State,
     Admits s p x ∧ 2 ≤ x.role ∧ s.windowHolder WindowId.netSt p.session = some n ∧ s.mayConfigure = true ∧ writeParams s NET.ST_SEL v 4 = none) ∧
    (∃ p : Pkt, ∃ x : Session, ∃ s : State, Admits s p x) :=
  ⟨⟨pk, ses 3, 0x1007, lead, admits_of (by decide +kernel) (by decide +kernel), by decide +kernel⟩,
   ⟨pk, ses 3, 0xFFFF, lead, admits_of (by decide +kernel) (by decide +kernel), by decide +kernel⟩,
   ⟨pk, ses 3, lead, admits_of (by decide +kernel) (by decide +kernel)⟩,
   ⟨pk, ses 3, 0x10FF, 2, lead, admits_of (by decide +kernel) (by decide +kernel), by decide +kernel⟩,
   ⟨pk, ses 3, BitVec.ofNat 16 NET.ALARM, 5, (regRow NET.ALARM).getD { base := 0 }, st [(NET.ALARM, 7)], mayWrite_of (by decide +kernel),
    by decide +kernel⟩,
   ⟨pk, ses 3, 0x1014, 400, lead, mayWrite_of (by decide +kernel), by decide +kernel⟩,
   ⟨pk, ses 3, BitVec.ofNat 16 PRP.DD_CFG, 0xFF, 0x190, (regRow PRP.DD_CFG).getD { base := 0 }, lead, by decide +kernel,
    mayWrite_of (by decide +kernel), by decide +kernel⟩,
   ⟨pk, ses 0, BitVec.ofNat 16 PRP.DD_CFG, 400, withSes lead 0, admits_of (by decide +kernel) (by decide +kernel), by decide +kernel⟩,
   ⟨pk, ses 3, 258, 1, withImg act, admits_of (by decide +kernel) (by decide +kernel), by decide +kernel⟩,
   ⟨pk, ses 3, 5, 2, { lead with qcp := { lead.qcp with claims := [(.netSt, 2, 0)] } }, admits_of (by decide +kernel) (by decide +kernel),
    by decide +kernel⟩,
   ⟨pk, ses 3, lead, admits_of (by decide +kernel) (by decide +kernel)⟩⟩

/-- States and operands that meet the hypotheses of every clause of RecordsAndPoints (its values at the ends of their ranges among them). -/
theorem witness_records_and_points :
    (∃ p : Pkt, ∃ x : Session, ∃ _ : Word, ∃ s : State, Admits s p x ∧ s.role = Role.init) ∧
    (∃ p : Pkt, ∃ x : Session, ∃ first : Word, ∃ s : State,
     Admits s p x ∧ s.role ≠ Role.init ∧ (∀ r ∈ s.trg.records, r.number < BitVec.toNat first)) ∧
    (∃ p : Pkt, ∃ x : Session, ∃ first : Word, ∃ s : State, ∃ r : TrigRecord,
     Admits s p x ∧ s.role ≠ Role.init ∧ s.trg.records = [r] ∧ BitVec.toNat first ≤ r.number) ∧
    (∃ p : Pkt, ∃ x : Session, ∃ n : Word, ∃ r : TrigRecord, ∃ view : Byte, ∃ file : Byte, ∃ s : State,
     Admits s p x ∧ s.role ≠ Role.init ∧ recordOf s (BitVec.toNat n) = some r ∧ BitVec.toNat view ≤ 4 ∧ BitVec.toNat file ≤ 4 ∧
       (bit (r.words.getD 0 0) (29 - BitVec.toNat view) = false ∨ view = 0 ∧ r.rawOmit = true)) ∧
    (∃ p : Pkt, ∃ x : Session, ∃ n : Word, ∃ r : TrigRecord, ∃ view : Byte, ∃ file : Byte, ∃ s : State,
     Admits s p x ∧ s.role ≠ Role.init ∧ recordOf s (BitVec.toNat n) = some r ∧ BitVec.toNat view ≤ 4 ∧ BitVec.toNat file ≤ 4 ∧ bit (r.words.getD 0 0)
       (29 - BitVec.toNat view) = true ∧ (view ≠ 0 ∨ r.rawOmit = false) ∧ r.isOpen = false ∧ s.handleCount p.session false < 4) ∧
    (∃ p : Pkt, ∃ x : Session, ∃ n : Word, ∃ r : TrigRecord, ∃ view : Byte, ∃ file : Byte, ∃ s : State,
     Admits s p x ∧ s.role ≠ Role.init ∧ recordOf s (BitVec.toNat n) = some r ∧ BitVec.toNat view ≤ 4 ∧ BitVec.toNat file ≤ 4 ∧ holdsView r
       (BitVec.toNat view) = true ∧ r.isOpen = false ∧ 4 ≤ s.handleCount p.session false) ∧
    (∃ p : Pkt, ∃ x : Session, ∃ n : Word, ∃ r : TrigRecord, ∃ view : Byte, ∃ file : Byte, ∃ s : State,
     Admits s p x ∧ s.role ≠ Role.init ∧ recordOf s (BitVec.toNat n) = some r ∧ BitVec.toNat view ≤ 4 ∧ BitVec.toNat file ≤ 4 ∧ holdsView r
       (BitVec.toNat view) = true ∧ r.isOpen = true) ∧
    (∃ p : Pkt, ∃ x : Session, ∃ id : Word, ∃ i : Word, ∃ h : Handle, ∃ r : TrigRecord, ∃ a : ℕ, ∃ b : ℕ, ∃ c : ℕ, ∃ s : State,
     Admits s p x ∧ s.role ≠ Role.init ∧ s.handle (BitVec.toNat id) p.session = some h ∧ h.kind = HandleKind.record a b c ∧ recordOf s a = some r ∧
       BitVec.toNat i < h.chunks) ∧
    (∃ p : Pkt, ∃ x : Session, ∃ id : Word, ∃ i : Word, ∃ h : Handle, ∃ r : TrigRecord, ∃ a : ℕ, ∃ b : ℕ, ∃ c : ℕ, ∃ s : State,
     Admits s p x ∧ s.role ≠ Role.init ∧ s.handle (BitVec.toNat id) p.session = some h ∧ h.kind = HandleKind.record a b c ∧ recordOf s a = some r ∧
       h.chunks ≤ BitVec.toNat i) ∧
    (∃ p : Pkt, ∃ x : Session, ∃ id : Word, ∃ _ : Word, ∃ s : State, Admits s p x ∧ s.handle (BitVec.toNat id) p.session = none) ∧
    (∃ p : Pkt, ∃ x : Session, ∃ n : Word, ∃ r : TrigRecord, ∃ s : State,
     Admits s p x ∧ 2 ≤ x.role ∧ s.role ≠ Role.init ∧ recordOf s (BitVec.toNat n) = some r ∧ r.isOpen = false ∧ downloading s r.number = false) ∧
    (∃ p : Pkt, ∃ x : Session, ∃ n : Word, ∃ r : TrigRecord, ∃ s : State,
     Admits s p x ∧ 2 ≤ x.role ∧ s.role ≠ Role.init ∧ recordOf s (BitVec.toNat n) = some r ∧ r.isOpen = false ∧ downloading s r.number = true) ∧
    (∃ p : Pkt, ∃ x : Session, ∃ ref : Word, ∃ s : State, Admits s p x ∧ 1 ≤ pointType ref ∧ pointType ref ≤ 7) ∧
    (∃ p : Pkt, ∃ x : Session, ∃ ref : Word, ∃ s : State, Admits s p x ∧ (pointType ref = 0 ∨ 11 ≤ pointType ref)) ∧
    (∃ p : Pkt, ∃ x : Session, ∃ q : Word, ∃ _ : Word, ∃ s : State,
     Admits s p x ∧ 2 ≤ x.role ∧ ((s.binding q).isNone = true ∨ pointType q = 0 ∨ 7 < pointType q)) ∧
    (∃ p : Pkt, ∃ x : Session, ∃ q : Word, ∃ _ : Word, ∃ s : State,
     Admits s p x ∧ 2 ≤ x.role ∧ (s.binding q).isSome = true ∧ 1 ≤ pointType q ∧ pointType q ≤ 7 ∧ s.mayConfigure = false) ∧
    (∃ p : Pkt, ∃ x : Session, ∃ q : Word, ∃ _ : Word, ∃ s : State,
     Admits s p x ∧ 2 ≤ x.role ∧ (s.binding q).isSome = true ∧ 1 ≤ pointType q ∧ pointType q ≤ 7 ∧ s.mayConfigure = true ∧ 256 ≤
       (forcedPoints s).length ∧ BitVec.toNat q ∉ forcedPoints s) ∧
    (∃ p : Pkt, ∃ x : Session, ∃ q : Word, ∃ _ : Word, ∃ s : State,
     Admits s p x ∧ 2 ≤ x.role ∧ (s.binding q).isSome = true ∧ 1 ≤ pointType q ∧ pointType q ≤ 7 ∧ s.mayConfigure = true ∧ (forcedPoints s).length <
       256) ∧
    (∃ p : Pkt, ∃ x : Session, ∃ q : Word, ∃ _ : Word, ∃ s : State,
     Admits s p x ∧ 2 ≤ x.role ∧ (s.binding q).isSome = true ∧ 1 ≤ pointType q ∧ pointType q ≤ 7 ∧ s.mayConfigure = true) ∧
    (∃ p : Pkt, ∃ x : Session, ∃ _ : Word, ∃ _ : Word, ∃ s : State, Admits s p x ∧ 2 ≤ x.role ∧ s.mayConfigure = true) :=
  ⟨⟨pk, ses 3, 0, withSes State.reset, admits_of (by decide +kernel) (by decide +kernel), by decide +kernel⟩,
   ⟨pk, ses 3, 5, withRec rec4, admits_of (by decide +kernel) (by decide +kernel), by decide +kernel⟩,
   ⟨pk, ses 3, 4, withRec rec4, (rec4 : TrigRecord), admits_of (by decide +kernel) (by decide +kernel), by decide +kernel⟩,
   ⟨pk, ses 3, 4, { rec4 with words := [0x20000000] }, 4, 0, withRec { rec4 with words := [0x20000000] },
    admits_of (by decide +kernel) (by decide +kernel), by decide +kernel⟩,
   ⟨pk, ses 3, 4, rec4, 4, 4, withRec rec4, admits_of (by decide +kernel) (by decide +kernel), by decide +kernel⟩,
   ⟨pk, ses 3, 4, rec4, 0, 0, { withRec rec4 with qcp := { act.qcp with handles := List.replicate 4 (hnd (.record 4 0 0) 3 0) } },
    admits_of (by decide +kernel) (by decide +kernel), by decide +kernel⟩,
   ⟨pk, ses 3, 4, { rec4 with isOpen := true }, 1, 0, withRec { rec4 with isOpen := true }, admits_of (by decide +kernel) (by decide +kernel),
    by decide +kernel⟩,
   ⟨pk, ses 3, 5, 2, hnd (.record 4 0 0) 3 0, rec4, 4, 0, 0, withH (.record 4 0 0) 3 0 (withRec rec4),
    admits_of (by decide +kernel) (by decide +kernel), by decide +kernel⟩,
   ⟨pk, ses 3, 5, 3, hnd (.record 4 0 0) 3 0, rec4, 4, 0, 0, withH (.record 4 0 0) 3 0 (withRec rec4),
    admits_of (by decide +kernel) (by decide +kernel), by decide +kernel⟩,
   ⟨pk, ses 3, 5, 2, withRec rec4, admits_of (by decide +kernel) (by decide +kernel), by decide +kernel⟩,
   ⟨pk, ses 3, 4, rec4, withRec rec4, admits_of (by decide +kernel) (by decide +kernel), by decide +kernel⟩,
   ⟨pk, ses 3, 4, rec4, withH (.record 4 0 0) 3 0 (withRec rec4), admits_of (by decide +kernel) (by decide +kernel), by decide +kernel⟩,
   ⟨pk, ses 3, 0x70000120, withImg act, admits_of (by decide +kernel) (by decide +kernel), by decide +kernel⟩,
   ⟨pk, ses 3, 0, withSes State.reset, admits_of (by decide +kernel) (by decide +kernel), by decide +kernel⟩,
   ⟨pk, ses 3, 5, 2, withRec rec4, admits_of (by decide +kernel) (by decide +kernel), by decide +kernel⟩,
   ⟨pk, ses 3, 0x70000120, 7, withImg foll .run (imgPt 0x70000120), admits_of (by decide +kernel) (by decide +kernel), by decide +kernel⟩,
   ⟨pk, ses 3, 0x10000003, 1,
    (let b := withImg act .run (imgPt 0x10000003); { b with frame := { b.frame with forces := (List.range 256).map fun i => (i, 1) } }),
    admits_of (by decide +kernel) (by decide +kernel), by decide +kernel⟩,
   ⟨pk, ses 3, 0x10000003, 1,
    (let b := withImg act .run (imgPt 0x10000003); { b with frame := { b.frame with forces := (List.range 255).map fun i => (i, 1) } }),
    admits_of (by decide +kernel) (by decide +kernel), by decide +kernel⟩,
   ⟨pk, ses 3, 0x10000003, 1,
    (let b := withImg act .run (imgPt 0x10000003); { b with frame := { b.frame with forces := (List.range 256).map fun i => (i, 1) } }),
    admits_of (by decide +kernel) (by decide +kernel), by decide +kernel⟩,
   ⟨pk, ses 3, 5, 2, withRec rec4, admits_of (by decide +kernel) (by decide +kernel), by decide +kernel⟩⟩

/-- States and operands that meet the hypotheses of every clause of DigitalChannels (its values at the ends of their ranges among them). -/
theorem witness_digital_channels :
    (∃ c : Fin 32, ∃ level : Bool, ∃ _ : Instant, ∃ s : State, (s.dio ↑c).run = none ∧ level ≠ (s.dio ↑c).level) ∧
    (∃ c : Fin 32, ∃ level : Bool, ∃ _ : Instant, ∃ s : State, (s.dio ↑c).run = none ∧ level = (s.dio ↑c).level) ∧
    (∃ c : Fin 32, ∃ _ : Bool, ∃ _ : Instant, ∃ s : State, ∃ a : ℕ, ∃ b : ℕ, (s.dio ↑c).run = some (a, b)) ∧
    (∃ c : Fin 32, ∃ e : Instant, ∃ t0 : ℕ, ∃ s : State,
     (s.dio ↑c).measuring = some (true, t0, s.tb.up) ∧ tdcEnabled s (8 + ↑c) = false ∧ t0 ≤ tdcTime s (8 + ↑c) e ∧ tdcTime s (8 + ↑c) e - t0 ≤ 100000
       * nsUnits) ∧
    (∃ c : Fin 32, ∃ v : Bool, ∃ t0 : ℕ, ∃ up0 : ℕ, ∃ s : State, (s.dio ↑c).measuring = some (v, t0, up0)) ∧
    (∃ c : Fin 32, ∃ a : ℕ, ∃ b : ℕ, ∃ s : State,
     (s.dio ↑c).run = some (a, b) ∧ (s.dio ↑c).raw ≠ (s.dio ↑c).level ∧ (s.dioGroup (↑c / 8)).low = false ∧
       (s.dioBit (↑c) 31 = false ∨ ∀ j < 8, patternRuns s j = false)) ∧
    (∃ c : Fin 32, ∃ s : State, (s.dio ↑c).run.isSome = true ∧ (s.dio ↑c).raw ≠ (s.dio ↑c).level ∧ (s.dioGroup (↑c / 8)).low = true) ∧
    (∃ c : Fin 32, ∃ a : ℕ, ∃ b : ℕ, ∃ s : State, (s.dio ↑c).run = some (a, b) ∧ (s.dio ↑c).raw = (s.dio ↑c).level) ∧
    (∃ c : Fin 32, ∃ s : State, s.isOut ↑c = true ∧ s.dioDriving ↑c = true ∧ (s.dio ↑c).latch = true ∧ (s.dio ↑c).overload = false) ∧
    (∃ c : Fin 32, ∃ s : State,
     s.isOut ↑c = true ∧ s.dioBit (↑c) 26 = true ∧ s.dioDriving ↑c = true ∧ (s.dio ↑c).latch = true ∧ (s.dio ↑c).openLoad = false) ∧
    (∃ c : Fin 32, ∃ s : State, (s.dio ↑c).hot = true ∧ (s.dio ↑c).latch = true) ∧
    (∃ c : Fin 32, ∃ s : State, (s.dio ↑c).overload = true) ∧
    (∃ c : Fin 32, ∃ s : State, (s.dio ↑c).thermal = true ∧ (s.dio ↑c).hot = true) ∧
    (∃ c : Fin 32, ∃ s : State, (s.dio ↑c).thermal = true ∧ (s.dio ↑c).hot = false) ∧
    (∃ c : Fin 32, ∃ s : State, (s.dio ↑c).openLoad = true) ∧
    (∃ _ : Fin 4, ∃ ma : Half, ∃ _ : State, BitVec.toNat ma ≤ 2200) ∧
    (∃ g : Fin 4, ∃ ma : Half, ∃ n : ℕ, ∃ s : State, ∃ c : ℕ,
     2200 < BitVec.toNat ma ∧ (s.dioGroup ↑g).tripped = none ∧ (s.dioGroup ↑g).latchedOff = false ∧ n = List.countP
       (fun u => decide (s.tb.up < u + 60 * secUnits)) (s.dioGroup ↑g).trips + 1 ∧ c < 32 ∧ c / 8 = ↑g ∧ s.isOut c = true) ∧
    (∃ g : Fin 4, ∃ u : ℕ, ∃ s : State, (s.dioGroup ↑g).tripped = some u ∧ (s.dioGroup ↑g).latchedOff = false) ∧
    (∃ p : Pkt, ∃ g : Fin 4, ∃ x : Session, ∃ s : State, MayWrite s p x DIO.CLEAR (BitVec.ofNat 32 (2 ^ g.val)) ∧ (s.dioGroup ↑g).latchedOff = true) ∧
    (∃ g : Fin 4, ∃ mv : Half, ∃ s : State, (s.dioGroup ↑g).warn = false ∧ BitVec.toNat mv < 19200) ∧
    (∃ _ : Fin 4, ∃ mv : Half, ∃ _ : State, 19200 ≤ BitVec.toNat mv ∧ BitVec.toNat mv ≤ 33000) ∧
    (∃ g : Fin 4, ∃ mv : Half, ∃ s : State, ∃ c : ℕ, (s.dioGroup ↑g).low = false ∧ BitVec.toNat mv < 15000 ∧ c < 32 ∧ c / 8 = ↑g ∧ s.isOut c = true) ∧
    (∃ g : Fin 4, ∃ mv : Half, ∃ s : State, (s.dioGroup ↑g).low = true ∧ 18000 < BitVec.toNat mv) :=
  ⟨⟨31, true, ⟨0, 100000, 0⟩, act, by decide +kernel⟩,
   ⟨31, false, ⟨0, 100000, 0⟩, act, by decide +kernel⟩,
   ⟨31, true, ⟨0, 100000, 0⟩, { act with io := { channels := [(31, { run := some (5, 6) })] } }, 5, 6, by decide +kernel⟩,
   ⟨31, ⟨0, 100000, 0⟩, 0, st [(TDC.CTRL, 0)] { act with io := { channels := [(31, { measuring := some (true, 0, 0) })] } }, by decide +kernel⟩,
   ⟨31, true, 7, 7, { act with io := { channels := [(31, { measuring := some (true, 7, 7) })] } }, by decide +kernel⟩,
   ⟨31, 5, 6, st [(DIO.CH_CFG 31, 0x80000000), (DIO.CH_TIMING 31, 5)] { act with io := { channels := [(31, { raw := true, run := some (5, 6) })] } },
    by decide +kernel⟩,
   ⟨31, { act with io := { channels := [(31, { raw := true, run := some (5, 6) })], groups := [(3, { low := true })] } }, by decide +kernel⟩,
   ⟨31, 5, 6, { act with io := { channels := [(31, { raw := true, level := true, run := some (5, 6) })] } }, by decide +kernel⟩,
   ⟨31, st [(DIO.CH_CFG 31, 0xC4000000)] { act with io := { channels := [(31, { latch := true })] } }, by decide +kernel⟩,
   ⟨31, st [(DIO.CH_CFG 31, 0xC4000000)] { act with io := { channels := [(31, { latch := true })] } }, by decide +kernel⟩,
   ⟨31, { act with io := { channels := [(31, { latch := true, hot := true, thermal := true })] } }, by decide +kernel⟩,
   ⟨31, { act with io := { channels := [(31, { overload := true })] } }, by decide +kernel⟩,
   ⟨31, { act with io := { channels := [(31, { latch := true, hot := true, thermal := true })] } }, by decide +kernel⟩,
   ⟨31, { act with io := { channels := [(31, { thermal := true, restartAt := 7 })] } }, by decide +kernel⟩,
   ⟨31, { act with io := { channels := [(31, { openLoad := true })] } }, by decide +kernel⟩,
   ⟨3, 9, { act with io := { groups := [(3, { tripped := some 9 })] } }, by decide +kernel⟩,
   ⟨3, 2201, 1, st [(DIO.CH_CFG 31, 0xC0000000)] act, 31, by decide +kernel⟩,
   ⟨3, 9, { act with io := { groups := [(3, { tripped := some 9 })] } }, by decide +kernel⟩,
   ⟨pk, 3, ses 3, { act with io := { groups := [(3, { tripped := some 9, latchedOff := true, trips := [0, 0, 0, 0] })] } },
    mayWrite_of (by decide +kernel), by decide +kernel⟩,
   ⟨3, 9, { act with io := { groups := [(3, { tripped := some 9 })] } }, by decide +kernel⟩,
   ⟨3, 33000, { act with io := { groups := [(3, { warn := true })] } }, by decide +kernel⟩,
   ⟨3, 14999, st [(DIO.CH_CFG 31, 0xC0000000)] act, 31, by decide +kernel⟩,
   ⟨3, 18001, { act with io := { groups := [(3, { low := true })] } }, by decide +kernel⟩⟩

/-- States and operands that meet the hypotheses of every clause of CurrentLoops (its values at the ends of their ranges among them). -/
theorem witness_current_loops :
    (∃ n : Fin 8, ∃ u : ℕ, ∃ v : Word, ∃ rest : List (ℕ × Word), ∃ s : State, (s.ao ↑n).writes = (u, v) :: rest ∧ aoFiltered s ↑n = false) ∧
    (∃ n : Fin 8, ∃ u : ℕ, ∃ v : Word, ∃ rest : List (ℕ × Word), ∃ s : State, (s.ao ↑n).writes = (u, v) :: rest ∧ aoFiltered s ↑n = true) ∧
    (∃ n : Fin 8, ∃ m : LoopMeasure, ∃ s : State, aoShort s (↑n) m = true ∧ (s.ao ↑n).compliance = false ∧ (aoWanted s ↑n).2 = (s.ao ↑n).target) ∧
    (∃ n : Fin 8, ∃ m : LoopMeasure, ∃ s : State,
     aoShort s (↑n) m = true ∧ (s.ao ↑n).compliance = true ∧ (s.ao ↑n).reached = true ∧ (aoWanted s ↑n).2 = (s.ao ↑n).target) ∧
    (∃ n : Fin 8, ∃ m : LoopMeasure, ∃ s : State, (aoShort s (↑n) m = false ∨ (s.ao ↑n).compliance = true ∧ (s.ao ↑n).reached = false)) ∧
    (∃ n : Fin 8, ∃ s : State, (s.ao ↑n).compliance = true ∧ s.regBit (AO.CH_CFG ↑n) 26 = true ∧ (s.ao ↑n).trying = none) ∧
    (∃ n : Fin 8, ∃ current : Word, ∃ u : ℕ, ∃ s : State,
     (s.ao ↑n).trying = some u ∧ (s.ao ↑n).reached = false ∧ aoNear s (↑n) current (aoSought s ↑n) 100 = true) ∧
    (∃ n : Fin 8, ∃ current : Word, ∃ u : ℕ, ∃ s : State,
     (s.ao ↑n).trying = some u ∧ (s.ao ↑n).reached = false ∧ aoNear s (↑n) current (aoSought s ↑n) 100 = false ∧ (aoWanted s ↑n).2 =
       (s.ao ↑n).target) ∧
    (∃ n : Fin 8, ∃ current : Word, ∃ s : State,
     (s.ao ↑n).compliance = true ∧ (s.regBit (AO.CH_CFG ↑n) 26 = false ∨ (s.ao ↑n).trying.isSome = true) ∧ aoNear s (↑n) current (aoSought s ↑n) 50 =
       true) ∧
    (∃ n : Fin 8, ∃ current : Word, ∃ s : State, ((s.ao ↑n).compliance = false ∨ aoNear s (↑n) current (aoSought s ↑n) 50 = false)) ∧
    (∃ n : Fin 8, ∃ m : LoopMeasure, ∃ s : State, aoMiswired s (↑n) m = true ∧ (s.ao ↑n).miswire = false) ∧
    (∃ n : Fin 8, ∃ m : LoopMeasure, ∃ s : State, aoMiswired s (↑n) m = false ∧ (s.ao ↑n).miswire = false) ∧
    (∃ n : Fin 8, ∃ m : LoopMeasure, ∃ s : State, aoMiswired s (↑n) m = false ∧ (s.ao ↑n).miswire = true) ∧
    (∃ n : Fin 8, ∃ temp : Half, ∃ current : Word, ∃ s : State,
     1500 < BitVec.toInt temp ∧ lt32 current (aoSought s ↑n) = true ∧ (s.ao ↑n).thermal = false) ∧
    (∃ n : Fin 8, ∃ temp : Half, ∃ current : Word, ∃ s : State, 1500 < BitVec.toInt temp ∧ lt32 current (aoSought s ↑n) = false) ∧
    (∃ _ : Fin 8, ∃ temp : Half, ∃ _ : Word, ∃ _ : State, BitVec.toInt temp ≤ 1500) ∧
    (∃ n : Fin 8, ∃ current : Word, ∃ s : State,
     (s.ao ↑n).senseFault = false ∧ (s.ao ↑n).compliance = false ∧ (s.ao ↑n).thermal = false ∧ (s.ao ↑n).miswire = false ∧ aoNear s (↑n) current
       (aoValue s ↑n).2 500 = false) ∧
    (∃ n : Fin 8, ∃ current : Word, ∃ s : State,
     (s.ao ↑n).senseFault = false ∧ (s.ao ↑n).compliance = false ∧ (s.ao ↑n).thermal = false ∧ (s.ao ↑n).miswire = false ∧ aoNear s (↑n) current
       (aoValue s ↑n).2 500 = true) ∧
    (∃ n : Fin 8, ∃ m : LoopMeasure, ∃ s : State, (s.ao ↑n).supplyFault = false ∧ 1000 < aoSupplyError s (↑n) m) ∧
    (∃ n : Fin 8, ∃ m : LoopMeasure, ∃ s : State, (s.ao ↑n).supplyFault = false ∧ aoSupplyError s (↑n) m ≤ 1000) ∧
    (∃ n : Fin 8, ∃ _ : LoopMeasure, ∃ s : State, (s.ao ↑n).thermal = true ∧ (s.ao ↑n).foldback = false) ∧
    (∃ n : Fin 8, ∃ _ : LoopMeasure, ∃ s : State, (s.ao ↑n).thermal = true ∧ (s.ao ↑n).foldback = true) ∧
    (∃ n : Fin 8, ∃ m : LoopMeasure, ∃ s : State, (s.ao ↑n).senseFault = true ∧ aoNear s (↑n) m.current (aoValue s ↑n).2 100 = true) ∧
    (∃ n : Fin 8, ∃ m : LoopMeasure, ∃ s : State, (s.ao ↑n).supplyFault = true ∧ aoSupplyError s (↑n) m ≤ 500) :=
  ⟨⟨7, 9, 0x41200000, [(10, 5)], { act with io := { loops := [(7, { unreleased := false, writes := [(9, 0x41200000), (10, 5)] })] } },
    by decide +kernel⟩,
   ⟨7, 9, 0x41200000, [(10, 5)],
    st [(HART.CH_CFG 7, 0x80000000)] { act with io := { loops := [(7, { unreleased := false, writes := [(9, 0x41200000), (10, 5)] })] } },
    by decide +kernel⟩,
   ⟨7, ⟨0x41200000, 0x6D600000, 0, 0⟩,
    st [(AO.CH_CFG 7, 0x84000000), (AO.HEM 7, 0x41400000)] { act with io := { loops := [(7, { unreleased := false, target := 0x41400000 })] } },
    by decide +kernel⟩,
   ⟨7, ⟨0x41200000, 0x6D600000, 0, 0⟩,
    st [(AO.CH_CFG 7, 0x84000000), (AO.HEM 7, 0x41400000)]
      { act with io := { loops := [(7, { unreleased := false, compliance := true, reached := true, trying := some 5, target := 0x41400000 })] } },
    by decide +kernel⟩,
   ⟨7, ⟨0x41200000, 0x6D5F0000, 0, 0⟩,
    st [(AO.CH_CFG 7, 0x84000000), (AO.HEM 7, 0x41400000)] { act with io := { loops := [(7, { unreleased := false, target := 0x41400000 })] } },
    by decide +kernel⟩,
   ⟨7, st [(AO.CH_CFG 7, 0x84000000)] { act with io := { loops := [(7, { unreleased := false, compliance := true })] } }, by decide +kernel⟩,
   ⟨7, 0x41400000, 5,
    st [(AO.CH_CFG 7, 0x84000000), (AO.HEM 7, 0x41400000)]
      { act with io := { loops := [(7, { unreleased := false, compliance := true, trying := some 5 })] } }, by decide +kernel⟩,
   ⟨7, 0x41200000, 5,
    st [(AO.CH_CFG 7, 0x84000000), (AO.HEM 7, 0x41400000)]
      { act with io := { loops := [(7, { unreleased := false, compliance := true, trying := some 5, target := 0x41400000 })] } }, by decide +kernel⟩,
   ⟨7, 0x41400000,
    st [(AO.CH_CFG 7, 0x80000000), (AO.HEM 7, 0x41400000)] { act with io := { loops := [(7, { unreleased := false, compliance := true })] } },
    by decide +kernel⟩,
   ⟨7, 0x41200000,
    st [(AO.CH_CFG 7, 0x80000000), (AO.HEM 7, 0x41400000)] { act with io := { loops := [(7, { unreleased := false, compliance := true })] } },
    by decide +kernel⟩,
   ⟨7, ⟨0xC1200000, 0, 0, 0⟩, st [(AO.CH_CFG 7, 0x88000000)] act, by decide +kernel⟩,
   ⟨7, ⟨0x41200000, 0x6D600000, 0, 0⟩,
    st [(AO.CH_CFG 7, 0x84000000), (AO.HEM 7, 0x41400000)] { act with io := { loops := [(7, { unreleased := false, target := 0x41400000 })] } },
    by decide +kernel⟩,
   ⟨7, ⟨0x41200000, 0x00020002, 0, 0⟩, { act with io := { loops := [(7, { unreleased := false, miswire := true, miswireAt := 4 })] } },
    by decide +kernel⟩,
   ⟨7, 1501, 0x41200000,
    st [(AO.CH_CFG 7, 0x80000000), (AO.HEM 7, 0x41400000)] { act with io := { loops := [(7, { unreleased := false, target := 0x41400000 })] } },
    by decide +kernel⟩,
   ⟨7, 1501, 0x41400000,
    st [(AO.CH_CFG 7, 0x80000000), (AO.HEM 7, 0x41400000)] { act with io := { loops := [(7, { unreleased := false, target := 0x41400000 })] } },
    by decide +kernel⟩,
   ⟨7, 0x41400000, 5,
    st [(AO.CH_CFG 7, 0x84000000), (AO.HEM 7, 0x41400000)]
      { act with io := { loops := [(7, { unreleased := false, compliance := true, trying := some 5 })] } }, by decide +kernel⟩,
   ⟨7, 0x41200000,
    st [(AO.CH_CFG 7, 0x80000000), (AO.HEM 7, 0x41400000)] { act with io := { loops := [(7, { unreleased := false, target := 0x41400000 })] } },
    by decide +kernel⟩,
   ⟨7, 0x41400000,
    st [(AO.CH_CFG 7, 0x80000000), (AO.HEM 7, 0x41400000)] { act with io := { loops := [(7, { unreleased := false, target := 0x41400000 })] } },
    by decide +kernel⟩,
   ⟨7, ⟨0x41200000, 0x6D600000, 0, 0⟩,
    st [(AO.CH_CFG 7, 0x84000000), (AO.HEM 7, 0x41400000)] { act with io := { loops := [(7, { unreleased := false, target := 0x41400000 })] } },
    by decide +kernel⟩,
   ⟨0, ⟨0x41200000, 2999, 0, 0⟩,
    st [(AO.CH_CFG 0, 0xC4000000), (AO.HEM 0, 0x41400000)] { act with io := { loops := [(0, { unreleased := false })] } }, by decide +kernel⟩,
   ⟨7, ⟨0, 0, 0, 0⟩, { act with io := { loops := [(7, { unreleased := false, thermal := true, coolSince := 4 })] } }, by decide +kernel⟩,
   ⟨7, ⟨0, 0, 0, 0⟩, { act with io := { loops := [(7, { unreleased := false, thermal := true, foldback := true })] } }, by decide +kernel⟩,
   ⟨7, ⟨0x41400000, 0, 0, 0⟩,
    st [(AO.CH_CFG 7, 0x80000000), (AO.HEM 7, 0x41400000)]
      { act with io := { loops := [(7, { unreleased := false, senseFault := true, senseAt := 3 })] } }, by decide +kernel⟩,
   ⟨7, ⟨0, 0x17700FA0, 0, 0⟩, { act with io := { loops := [(7, { unreleased := false, supplyFault := true, supplyAt := 3 })] } }, by decide +kernel⟩⟩

/-- States and operands that meet the hypotheses of every clause of HartTransactions (its values at the ends of their ranges among them). -/
theorem witness_hart_transactions :
    (∃ n : Fin 8, ∃ s : State,
     s.regBit (HART.CH_CFG ↑n) 31 = true ∧ s.regBit (HART.CH_CFG ↑n) 28 = true ∧ s.pair.grant = true ∧ (s.hart ↑n).job = none ∧ (s.hart ↑n).queue = []
       ∧ (s.hart ↑n).identified = false) ∧
    (∃ n : Fin 8, ∃ s : State,
     s.regBit (HART.CH_CFG ↑n) 31 = true ∧ s.regBit (HART.CH_CFG ↑n) 28 = true ∧ s.pair.grant = false ∧ (s.hart ↑n).job = none ∧ (s.hart ↑n).queue =
       [] ∧ (s.hart ↑n).identified = true) ∧
    (∃ n : Fin 8, ∃ f : HartFrame, ∃ s : State,
     (s.hart ↑n).job = some (HartJob.scan 3) ∧ (s.hart ↑n).queue = [] ∧ (s.hart ↑n).state = 2 ∧ (s.hart ↑n).identified = true ∧ s.regBit
       (HART.CH_CFG ↑n) 28 = true ∧ f.address.toNat = s.regFld (HART.CH_CFG ↑n) 21 16 ∧ f.command = 3 ∧ f.burst = false ∧ f.status = 0) ∧
    (∃ n : Fin 8, ∃ f : HartFrame, ∃ s : State,
     (s.hart ↑n).job = some (HartJob.scan 3) ∧ (s.hart ↑n).queue = [] ∧ BitVec.getLsbD f.status 4 = true ∧ s.pair.grant = true) ∧
    (∃ n : Fin 8, ∃ f : HartFrame, ∃ s : State, (s.hart ↑n).job = some HartJob.window ∧ (s.hart ↑n).queue = [] ∧ f.status = 0) ∧
    (∃ n : Fin 8, ∃ f : HartFrame, ∃ s : State, (s.hart ↑n).job = some HartJob.ask ∧ (s.hart ↑n).queue = [] ∧ f.status = 0 ∧ f.command = 0) ∧
    (∃ n : Fin 8, ∃ j : HartJob, ∃ s : State, (s.hart ↑n).job = some j ∧ (j = HartJob.window ∨ j = HartJob.ask) ∧ (s.hart ↑n).queue = []) ∧
    (∃ n : Fin 8, ∃ c : ℕ, ∃ s : State, (s.hart ↑n).job = some (HartJob.scan c) ∧ (s.hart ↑n).queue = [] ∧ (s.hart ↑n).state ≠ 3) ∧
    (∃ n : Fin 8, ∃ f : HartFrame, ∃ s : State,
     s.regBit (HART.CH_CFG ↑n) 31 = true ∧ f.status = 0 ∧ (s.regBit (HART.CH_CFG ↑n) 28 = false ∨ f.address.toNat = s.regFld (HART.CH_CFG ↑n) 21 16) ∧
       f.burst = true ∧ s.regBit (HART.CH_CFG ↑n) 29 = true ∧ (f.command = 1 ∨ f.command = 2 ∨ f.command = 3 ∨ f.command = 9)) ∧
    (∃ n : Fin 8, ∃ f : HartFrame, ∃ s : State,
     s.regBit (HART.CH_CFG ↑n) 31 = true ∧ f.status = 0 ∧ (s.regBit (HART.CH_CFG ↑n) 28 = false ∨ f.address.toNat = s.regFld (HART.CH_CFG ↑n) 21 16) ∧
       f.burst = false ∧ (s.hart ↑n).job.isSome = true) ∧
    (∃ p : Pkt, ∃ x : Session, ∃ s : State,
     MayWrite s p x HART.WIN_GO 1 ∧ (s.regFld HART.WIN_RESULT 31 28 = 1 ∨ s.regFld HART.WIN_RESULT 31 28 = 2)) ∧
    (∃ p : Pkt, ∃ x : Session, ∃ s : State,
     MayWrite s p x HART.WIN_GO 1 ∧ s.regFld HART.WIN_RESULT 31 28 = 0 ∧ s.regFld HART.WIN_CMD 7 0 ≤ 32 ∧ s.regFld HART.WIN_SEL 5 0 ≤ 63 ∧ s.regBit
       (HART.CH_CFG (s.regFld HART.WIN_SEL 18 16)) 31 = true ∧ s.pair.grant = true ∧ (s.hart (s.regFld HART.WIN_SEL 18 16)).job = none) :=
  ⟨⟨7, st [(HART.CH_CFG 7, 0x90000000)] act, by decide +kernel⟩,
   ⟨7, st [(HART.CH_CFG 7, 0x90000000)] { foll with io := { hart := [(7, { identified := true })] } }, by decide +kernel⟩,
   ⟨7,
    { command := 3, address := 0, code := 2, status := 0, extended := 0, values := [(1, 0x41200000)], deviceId := 5, deviceType := 6, revision := 7,
      data := [1], secondary := false, burst := false },
    st [(HART.CH_CFG 7, 0x90000000)] { act with io := { hart := [(7, { state := 2, identified := true, job := some (.scan 3) })] } },
    by decide +kernel⟩,
   ⟨7,
    { command := 3, address := 0, code := 2, status := 0x10, extended := 0, values := [(1, 0x41200000)], deviceId := 5, deviceType := 6,
      revision := 7, data := [1], secondary := false, burst := false },
    st [(HART.CH_CFG 7, 0x90000000)] { act with io := { hart := [(7, { state := 2, identified := true, job := some (.scan 3) })] } },
    by decide +kernel⟩,
   ⟨7,
    { command := 3, address := 0, code := 2, status := 0, extended := 0, values := [(1, 0x41200000)], deviceId := 5, deviceType := 6, revision := 7,
      data := [1], secondary := false, burst := false },
    st [(HART.CH_CFG 7, 0x90000000)] { act with io := { hart := [(7, { state := 2, identified := true, job := some .window })] } },
    by decide +kernel⟩,
   ⟨7,
    { command := 0, address := 0, code := 2, status := 0, extended := 0, values := [(1, 0x41200000)], deviceId := 5, deviceType := 6, revision := 7,
      data := [1], secondary := false, burst := false },
    st [(HART.CH_CFG 7, 0x90000000), (HART.WIN_CMD, 0x00210008), (HART.WIN_SEL, 0x0007003F)]
      { act with io := { hart := [(7, { job := some .ask })] } }, by decide +kernel⟩,
   ⟨7, .ask,
    st [(HART.CH_CFG 7, 0x90000000), (HART.WIN_CMD, 0x00210008), (HART.WIN_SEL, 0x0007003F)]
      { act with io := { hart := [(7, { job := some .ask })] } }, by decide +kernel⟩,
   ⟨7, 3, st [(HART.CH_CFG 7, 0x90000000)] { act with io := { hart := [(7, { state := 2, identified := true, job := some (.scan 3) })] } },
    by decide +kernel⟩,
   ⟨7,
    { command := 9, address := 0, code := 2, status := 0, extended := 0, values := [(1, 0x41200000)], deviceId := 5, deviceType := 6, revision := 7,
      data := [1], secondary := false, burst := true },
    st [(HART.CH_CFG 7, 0xB0000000)] { act with io := { hart := [(7, { state := 2, identified := true })] } }, by decide +kernel⟩,
   ⟨7,
    { command := 3, address := 0, code := 2, status := 0, extended := 0, values := [(1, 0x41200000)], deviceId := 5, deviceType := 6, revision := 7,
      data := [1], secondary := false, burst := false },
    st [(HART.CH_CFG 7, 0x90000000)] { act with io := { hart := [(7, { state := 2, identified := true, job := some (.scan 3) })] } },
    by decide +kernel⟩,
   ⟨pk, ses 3, st [(HART.WIN_RESULT, 0x20000000)] lead, mayWrite_of (by decide +kernel), by decide +kernel⟩,
   ⟨pk, ses 3, st [(HART.WIN_SEL, 0x0007003F), (HART.WIN_CMD, 32), (HART.CH_CFG 7, 0x90000000)] act, mayWrite_of (by decide +kernel),
    by decide +kernel⟩⟩

/-- States and operands that meet the hypotheses of every clause of CanFrames (its values at the ends of their ranges among them). -/
theorem witness_can_frames :
    (∃ ch : Fin 2, ∃ f : CanFrame, ∃ _ : Instant, ∃ b : ℕ, ∃ s : State,
     s.regBit (CAN.CTRL ↑ch) 31 = true ∧ (s.can ↑ch).part = true ∧ List.find? (canMatch s (↑ch) f) (List.range 64) = some b ∧ (s.can ↑ch).locked =
       none ∧ (s.canBuf (↑ch) b).isNew = false) ∧
    (∃ ch : Fin 2, ∃ f : CanFrame, ∃ _ : Instant, ∃ b : ℕ, ∃ s : State,
     s.regBit (CAN.CTRL ↑ch) 31 = true ∧ (s.can ↑ch).part = true ∧ List.find? (canMatch s (↑ch) f) (List.range 64) = some b ∧ (s.can ↑ch).locked =
       none ∧ (s.canBuf (↑ch) b).isNew = true) ∧
    (∃ ch : Fin 2, ∃ f : CanFrame, ∃ _ : Instant, ∃ b : ℕ, ∃ n : Word, ∃ u : ℕ, ∃ s : State,
     s.regBit (CAN.CTRL ↑ch) 31 = true ∧ (s.can ↑ch).part = true ∧ List.find? (canMatch s (↑ch) f) (List.range 64) = some b ∧ (s.can ↑ch).locked =
       some (b, n, u) ∧ (s.canBuf (↑ch) b).shadow = none) ∧
    (∃ ch : Fin 2, ∃ f : CanFrame, ∃ _ : Instant, ∃ s : State,
     s.regBit (CAN.CTRL ↑ch) 31 = true ∧ (s.can ↑ch).part = true ∧ List.find? (canMatch s (↑ch) f) (List.range 64) = none) ∧
    (∃ ch : Fin 2, ∃ b : Fin 64, ∃ e : Instant, ∃ f : CanFrame, ∃ s : State,
     (s.canBuf ↑ch ↑b).pending = some f ∧ (s.can ↑ch).part = true ∧ s.regBit (CAN.CTRL ↑ch) 29 = false ∧ s.regFld (CAN.AB_RESULT ↑ch) 31 28 ≠ 1 ∧
       (s.can ↑ch).quietFrom = none ∧ canWins s (↑ch) (↑b) (canStamp s (↑ch) e) f = true) ∧
    (∃ ch : Fin 2, ∃ b : Fin 64, ∃ e : Instant, ∃ f : CanFrame, ∃ s : State,
     (s.canBuf ↑ch ↑b).pending = some f ∧
       ((s.can ↑ch).part = false ∨ s.regBit (CAN.CTRL ↑ch) 29 = true ∨ canWins s (↑ch) (↑b) (canStamp s (↑ch) e) f = false)) ∧
    (∃ ch : Fin 2, ∃ b : Fin 64, ∃ _ : Instant, ∃ f : CanFrame, ∃ s : State,
     (s.canBuf ↑ch ↑b).pending = some f ∧ (s.can ↑ch).part = false ∧ s.regBit (CAN.CTRL ↑ch) 31 = true ∧ List.find? (canMatch s (↑ch) f)
       (List.range 64) = none) ∧
    (∃ ch : Fin 2, ∃ _ : CanErrors, ∃ s : State, (s.can ↑ch).part = false) ∧
    (∃ ch : Fin 2, ∃ e : CanErrors, ∃ s : State,
     (s.can ↑ch).part = true ∧ e.errors = [] ∧ canErrorState e.tec e.rec_ ≠ (s.can ↑ch).state ∧ 256 ≤ e.tec) ∧
    (∃ ch : Fin 2, ∃ k : Fin 7, ∃ e : CanErrors, ∃ s : State,
     (s.can ↑ch).part = true ∧ e.errors = [(k, true)] ∧ 1 ≤ ↑k ∧ canErrorState e.tec e.rec_ = (s.can ↑ch).state) ∧
    (∃ ch : Fin 2, ∃ s : State, (s.can ↑ch).part = true ∧ (s.can ↑ch).state = 2 ∧ (s.can ↑ch).recovering = true) ∧
    (∃ p : Pkt, ∃ ch : Fin 2, ∃ x : Session, ∃ s : State, MayWrite s p x (CAN.CTRL ↑ch) (s.reg (CAN.CTRL ↑ch) ||| 1) ∧ (s.can ↑ch).state = 2) ∧
    (∃ ch : Fin 2, ∃ s : State, s.regBit (CAN.CTRL ↑ch) 31 = true ∧ s.pair.grant = true ∧ (s.can ↑ch).part = false) ∧
    (∃ _ : Fin 2, ∃ s : State, s.pair.grant = false) ∧
    (∃ p : Pkt, ∃ ch : Fin 2, ∃ v : Word, ∃ x : Session, ∃ s : State,
     MayWrite s p x (CAN.TX_CMD ↑ch) v ∧ canBound s.image (↑ch) (fld v 5 0) = false ∧ bit v 31 = false ∧ canTx s (↑ch) (fld v 5 0) = true ∧
       (s.canBuf (↑ch) (fld v 5 0)).pending = none) ∧
    (∃ p : Pkt, ∃ ch : Fin 2, ∃ v : Word, ∃ x : Session, ∃ s : State,
     MayWrite s p x (CAN.TX_CMD ↑ch) v ∧ canBound s.image (↑ch) (fld v 5 0) = false ∧ bit v 31 = false ∧ canTx s (↑ch) (fld v 5 0) = true ∧
       (s.canBuf (↑ch) (fld v 5 0)).pending.isSome = true) ∧
    (∃ p : Pkt, ∃ ch : Fin 2, ∃ v : Word, ∃ x : Session, ∃ s : State,
     MayWrite s p x (CAN.TX_CMD ↑ch) v ∧ canBound s.image (↑ch) (fld v 5 0) = false ∧ bit v 31 = true) ∧
    (∃ p : Pkt, ∃ ch : Fin 2, ∃ v : Word, ∃ x : Session, ∃ s : State,
     MayWrite s p x (CAN.TX_CMD ↑ch) v ∧ canBound s.image (↑ch) (fld v 5 0) = false ∧ bit v 31 = true) ∧
    (∃ p : Pkt, ∃ ch : Fin 2, ∃ v : Word, ∃ x : Session, ∃ s : State,
     MayWrite s p x (CAN.TX_CMD ↑ch) v ∧ bit v 31 = false ∧ canBound s.image (↑ch) (fld v 5 0) = true) :=
  ⟨⟨1, cf 0x123, ⟨5, 6, 7⟩, 63, wn .can1 63 [(0, 0x80000000), (1, 0x048C0000), (2, 0xFFFFFFFF)] (withCan), by decide +kernel⟩,
   ⟨1, cf 0x123, ⟨5, 6, 7⟩, 63,
    wn .can1 63 [(0, 0x80000000), (1, 0x048C0000), (2, 0xFFFFFFFF)] (withCan { part := true, buffers := [(63, { isNew := true })] }),
    by decide +kernel⟩,
   ⟨1, cf 0x123, ⟨5, 6, 7⟩, 63, 1, 5,
    wn .can1 63 [(0, 0x80000000), (1, 0x048C0000), (2, 0xFFFFFFFF)]
      (withCan { part := true, buffers := [(63, { isNew := true })], locked := some (63, 1, 5) }), by decide +kernel⟩,
   ⟨1, cf 0x7FF, ⟨5, 6, 7⟩, wn .can1 63 [(0, 0x80000000), (1, 0x048C0000), (2, 0xFFFFFFFF)] (withCan), by decide +kernel⟩,
   ⟨1, 63, ⟨5, 6, 7⟩, cf 0x123, withCan { part := true, buffers := [(63, { pending := some (cf 0x123) })] }, by decide +kernel⟩,
   ⟨1, 63, ⟨5, 6, 7⟩, cf 0x123, withCan { buffers := [(63, { pending := some (cf 0x123) })] }, by decide +kernel⟩,
   ⟨1, 63, ⟨5, 6, 7⟩, cf 0x123, withCan { buffers := [(63, { pending := some (cf 0x123) })] }, by decide +kernel⟩,
   ⟨1, { tec := 256, rec_ := 0, errors := [(5, true)] }, withCan {}, by decide +kernel⟩,
   ⟨1, { tec := 256, rec_ := 0, errors := [] }, withCan { part := true, state := 1 }, by decide +kernel⟩,
   ⟨1, 6, { tec := 8, rec_ := 0, errors := [(6, true)] }, withCan, by decide +kernel⟩,
   ⟨1, withCan { part := true, state := 2, recovering := true, tec := 256 }, by decide +kernel⟩,
   ⟨pk, 1, ses 3, withCan { part := true, state := 2, tec := 256 }, mayWrite_of (by decide +kernel), by decide +kernel⟩,
   ⟨1, withCan {}, by decide +kernel⟩,
   ⟨1, withCan {} foll, by decide +kernel⟩,
   ⟨pk, 1, 63, ses 3, wn .can1 63 [(0, 0xC4000000), (1, 0x048C0000)] (withCan), mayWrite_of (by decide +kernel), by decide +kernel⟩,
   ⟨pk, 1, 63, ses 3, wn .can1 63 [(0, 0xC4000000), (1, 0x048C0000)] (withCan { part := true, buffers := [(63, { pending := some (cf 0x123) })] }),
    mayWrite_of (by decide +kernel), by decide +kernel⟩,
   ⟨pk, 1, 0x8000003F, ses 3,
    wn .can1 63 [(0, 0xC4000000), (1, 0x048C0000)] (withCan { part := true, buffers := [(63, { pending := some (cf 0x123) })] }),
    mayWrite_of (by decide +kernel), by decide +kernel⟩,
   ⟨pk, 1, 0x8000003F, ses 3,
    wn .can1 63 [(0, 0xC4000000), (1, 0x048C0000)] (withCan { part := true, buffers := [(63, { pending := some (cf 0x123) })] }),
    mayWrite_of (by decide +kernel), by decide +kernel⟩,
   ⟨pk, 0, 0, ses 3, wn .can0 0 [(0, 0xC4000000), (1, 0x048C0000)] (withImg act .run (imgPt 0x70000200)), mayWrite_of (by decide +kernel),
    by decide +kernel⟩⟩

/-- States and operands that meet the hypotheses of every clause of CanWindow (its values at the ends of their ranges among them). -/
theorem witness_can_window :
    (∃ p : Pkt, ∃ ch : Fin 2, ∃ w : Fin 22, ∃ x : Session, ∃ b : ℕ, ∃ s : State,
     Admits s p x ∧ ↑w ≠ 21 ∧ b = s.regFld (CAN.BUF_SEL ↑ch) 5 0 ∧ canRx s (↑ch) b = true ∧ (s.canBuf (↑ch) b).isNew = true ∧ (s.can ↑ch).locked =
       none) ∧
    (∃ p : Pkt, ∃ ch : Fin 2, ∃ x : Session, ∃ b : ℕ, ∃ n : Word, ∃ u : ℕ, ∃ s : State,
     Admits s p x ∧ b = s.regFld (CAN.BUF_SEL ↑ch) 5 0 ∧ (s.can ↑ch).locked = some (b, n, u) ∧ (s.canBuf (↑ch) b).shadow = none) ∧
    (∃ p : Pkt, ∃ ch : Fin 2, ∃ x : Session, ∃ b : ℕ, ∃ n : Word, ∃ u : ℕ, ∃ s : State, ∃ f : CanFrame, ∃ a : Word, ∃ c : Word,
     Admits s p x ∧ b = s.regFld (CAN.BUF_SEL ↑ch) 5 0 ∧ (s.can ↑ch).locked = some (b, n, u) ∧ (s.canBuf (↑ch) b).shadow = some (f, a, c)) ∧
    (∃ p : Pkt, ∃ ch : Fin 2, ∃ x : Session, ∃ s : State,
     Admits s p x ∧ (s.can ↑ch).locked = none ∧ canRx s (↑ch) (s.regFld (CAN.BUF_SEL ↑ch) 5 0) = false) ∧
    (∃ p : Pkt, ∃ ch : Fin 2, ∃ v : Word, ∃ x : Session, ∃ s : State, MayWrite s p x (CAN.BUF_SEL ↑ch) v ∧ (s.can ↑ch).locked = none) ∧
    (∃ p : Pkt, ∃ ch : Fin 2, ∃ v : Word, ∃ x : Session, ∃ b : ℕ, ∃ u : ℕ, ∃ n : Word, ∃ s : State,
     MayWrite s p x (CAN.BUF_SEL ↑ch) v ∧ (s.can ↑ch).locked = some (b, n, u) ∧ (s.canBuf (↑ch) b).shadow = none) ∧
    (∃ ch : Fin 2, ∃ b : ℕ, ∃ u : ℕ, ∃ n : Word, ∃ s : State, (s.can ↑ch).locked = some (b, n, u) ∧ (s.canBuf (↑ch) b).shadow = none) ∧
    (∃ p : Pkt, ∃ ch : Fin 2, ∃ x : Session, ∃ b : ℕ, ∃ s : State,
     MayWrite s p x (CAN.BUF_COMMIT ↑ch) 1 ∧ b = s.regFld (CAN.BUF_SEL ↑ch) 5 0 ∧ canBound s.image (↑ch) b = false) ∧
    (∃ p : Pkt, ∃ ch : Fin 2, ∃ x : Session, ∃ b : ℕ, ∃ s : State,
     MayWrite s p x (CAN.BUF_COMMIT ↑ch) 1 ∧ b = s.regFld (CAN.BUF_SEL ↑ch) 5 0 ∧ canBound s.image (↑ch) b = true ∧ bit (s.winStaged (canWin ↑ch) b 0)
       31 = false) ∧
    (∃ ch : Fin 2, ∃ r : Fin 5, ∃ s : State, s.regFld (CAN.AB_RESULT ↑ch) 31 28 = 1 ∧ s.regBit (CAN.AB_CFG ↑ch) ↑r = true) ∧
    (∃ ch : Fin 2, ∃ r : Fin 4, ∃ s : State,
     s.regFld (CAN.AB_RESULT ↑ch) 31 28 = 2 ∧ s.regFld (CAN.AB_RESULT ↑ch) 27 24 = 0 ∧ s.regBit (CAN.CTRL ↑ch) 27 = true ∧ 1 ≤ ↑r) ∧
    (∃ ch : Fin 2, ∃ s : State, s.regFld (CAN.AB_RESULT ↑ch) 31 28 = 1) :=
  ⟨⟨pk, 1, 20, ses 3, 63,
    st [(CAN.BUF_SEL 1, 63)]
      (wn .can1 63 [(0, 0x80000000)] (withCan { part := true, buffers := [(63, { isNew := true, frame := cf 5, sec := 7 })] })),
    admits_of (by decide +kernel) (by decide +kernel), by decide +kernel⟩,
   ⟨pk, 1, ses 3, 63, 1, 5,
    st [(CAN.BUF_SEL 1, 63)] (wn .can1 63 [(0, 0x80000000)]
                                (withCan { part := true, locked := some (63, 1, 5), buffers := [(63, { isNew := true, frame := cf 5, sec := 7 })] })),
    admits_of (by decide +kernel) (by decide +kernel), by decide +kernel⟩,
   ⟨pk, 1, ses 3, 63, 1, 5,
    st [(CAN.BUF_SEL 1, 63)] (wn .can1 63 [(0, 0x80000000)] (withCan { part := true, locked := some (63, 1, 5),
                                                                       buffers :=
                                                                         [(63,
                                                                           { isNew := true, frame := cf 5, sec := 7, shadow := some (cf 6, 7, 8) })] })),
    (cf 6 : CanFrame), (7 : Word), (8 : Word), admits_of (by decide +kernel) (by decide +kernel), by decide +kernel⟩,
   ⟨pk, 1, ses 3, st [(CAN.BUF_SEL 1, 63)] (wn .can1 63 [(0, 0xC4000000)] (withCan { part := true })),
    admits_of (by decide +kernel) (by decide +kernel), by decide +kernel⟩,
   ⟨pk, 1, 62, ses 3, sg .can1 0 [(0, 5)] withCan, mayWrite_of (by decide +kernel), by decide +kernel⟩,
   ⟨pk, 1, 62, ses 3, 63, 5, 1,
    wn .can1 63 [(0, 0x80000000)]
      (withCan { part := true, locked := some (63, 1, 5), buffers := [(63, { isNew := true, frame := cf 5, sec := 7 })] }),
    mayWrite_of (by decide +kernel), by decide +kernel⟩,
   ⟨1, 63, 5, 1,
    wn .can1 63 [(0, 0x80000000)]
      (withCan { part := true, locked := some (63, 1, 5), buffers := [(63, { isNew := true, frame := cf 5, sec := 7 })] }), by decide +kernel⟩,
   ⟨pk, 1, ses 3, 63, st [(CAN.BUF_SEL 1, 63)] (sg .can1 63 [(0, 0xC4000000)] withCan), mayWrite_of (by decide +kernel), by decide +kernel⟩,
   ⟨pk, 0, ses 3, 0, wn .can0 0 [(0, 0xC4000000), (1, 0x048C0000)] (sg .can0 0 [(0, 0)] (withImg act .run (imgPt 0x70000200))),
    mayWrite_of (by decide +kernel), by decide +kernel⟩,
   ⟨1, 4, st [(CAN.AB_RESULT 1, 0x10000000), (CAN.AB_CFG 1, 0x10)] withCan, by decide +kernel⟩,
   ⟨1, 3, st [(CAN.CTRL 1, 0x88000000), (CAN.AB_RESULT 1, 0x20000000)] act, by decide +kernel⟩,
   ⟨1, st [(CAN.AB_RESULT 1, 0x10000000), (CAN.AB_CFG 1, 0x00050010)] withCan, by decide +kernel⟩⟩

/-- States and operands that meet the hypotheses of every clause of DmaTransfers (its values at the ends of their ranges among them). -/
theorem witness_dma_transfers :
    (∃ p : Pkt, ∃ n : Fin 16, ∃ v : Word, ∃ x : Session, ∃ s : State,
     MayWrite s p x (DMA.CH_CTRL ↑n) v ∧ 12 ≤ ↑n ∧ bit v 31 = true ∧ wrapOk (fld v 23 19) (BitVec.toNat (s.reg (DMA.SL_SRC ↑n))) = true ∧ wrapOk
       (fld v 18 14) (BitVec.toNat (s.reg (DMA.SL_DST ↑n))) = true ∧ s.reg (DMA.SL_LEN ↑n) ≠ 0 ∧ (s.dma ↑n).loaded = false ∧ s.regBit DMA.CTRL 0 =
       true ∧ s.regBit DMA.STATUS 31 = false ∧ ((s.dma ↑n).state = 0 ∨ (s.dma ↑n).state = 3)) ∧
    (∃ p : Pkt, ∃ n : Fin 16, ∃ v : Word, ∃ x : Session, ∃ s : State,
     MayWrite s p x (DMA.CH_CTRL ↑n) v ∧ 12 ≤ ↑n ∧ bit v 31 = true ∧ wrapOk (fld v 23 19) (BitVec.toNat (s.reg (DMA.SL_SRC ↑n))) = true ∧ wrapOk
       (fld v 18 14) (BitVec.toNat (s.reg (DMA.SL_DST ↑n))) = true ∧ s.reg (DMA.SL_LEN ↑n) ≠ 0 ∧ (s.dma ↑n).loaded = false ∧ s.regBit DMA.CTRL 0 =
       true ∧ s.regBit DMA.STATUS 31 = false ∧ ((s.dma ↑n).state = 1 ∨ (s.dma ↑n).state = 2)) ∧
    (∃ p : Pkt, ∃ n : Fin 16, ∃ v : Word, ∃ x : Session, ∃ s : State,
     MayWrite s p x (DMA.CH_CTRL ↑n) v ∧ bit v 31 = false ∧ 12 ≤ ↑n ∧ (s.dma ↑n).loaded = true) ∧
    (∃ p : Pkt, ∃ n : Fin 16, ∃ v : Word, ∃ x : Session, ∃ s : State, MayWrite s p x (DMA.CH_CTRL ↑n) v ∧ bit v 31 = false ∧ ↑n < 12) ∧
    (∃ p : Pkt, ∃ n : Fin 16, ∃ v : Word, ∃ x : Session, ∃ s : State,
     MayWrite s p x (DMA.CH_CTRL ↑n) v ∧ bit v 31 = true ∧
       (wrapOk (fld v 23 19) (BitVec.toNat (s.reg (DMA.SL_SRC ↑n))) = false ∨ wrapOk (fld v 18 14) (BitVec.toNat (s.reg (DMA.SL_DST ↑n))) = false)) ∧
    (∃ c : Fin 16, ∃ s : State, ∃ i : ℕ,
     (s.dma ↑c).state = 1 ∧ bit (s.dma ↑c).ctrl 30 = false ∧ bit (s.dma ↑c).ctrl 29 = false ∧ bit (s.dma ↑c).ctrl 28 = false ∧ wrapOk
       (fld (s.dma ↑c).ctrl 23 19) (s.dma ↑c).src = true ∧ wrapOk (fld (s.dma ↑c).ctrl 18 14) (s.dma ↑c).dst = true ∧
       (∀ i < (s.dma ↑c).len,
        registerAt ((s.dma ↑c).srcAt i) = none ∧ registerAt ((s.dma ↑c).dstAt i) = none ∧ faults s (dmaAccess (↑c) ((s.dma ↑c).srcAt i) 1) = false ∧
          faults s (dmaAccess (↑c) ((s.dma ↑c).dstAt i) 2) = false ∧ (∀ j < (s.dma ↑c).len, (s.dma ↑c).srcAt i ≠ (s.dma ↑c).dstAt j) ∧ ∀ j <
          (s.dma ↑c).len, (s.dma ↑c).dstAt i = (s.dma ↑c).dstAt j → i = j) ∧ i < (s.dma ↑c).len ∧ (s.dma ↑c).moved ≤ i) ∧
    (∃ c : Fin 16, ∃ s : State, ∃ a : ℕ,
     (s.dma ↑c).state = 1 ∧ bit (s.dma ↑c).ctrl 30 = false ∧ bit (s.dma ↑c).ctrl 29 = false ∧ bit (s.dma ↑c).ctrl 28 = false ∧ wrapOk
       (fld (s.dma ↑c).ctrl 23 19) (s.dma ↑c).src = true ∧ wrapOk (fld (s.dma ↑c).ctrl 18 14) (s.dma ↑c).dst = true ∧
       (∀ i < (s.dma ↑c).len,
        registerAt ((s.dma ↑c).srcAt i) = none ∧ registerAt ((s.dma ↑c).dstAt i) = none ∧ faults s (dmaAccess (↑c) ((s.dma ↑c).srcAt i) 1) = false ∧
          faults s (dmaAccess (↑c) ((s.dma ↑c).dstAt i) 2) = false ∧ (∀ j < (s.dma ↑c).len, (s.dma ↑c).srcAt i ≠ (s.dma ↑c).dstAt j) ∧ ∀ j <
          (s.dma ↑c).len, (s.dma ↑c).dstAt i = (s.dma ↑c).dstAt j → i = j) ∧ (∀ i < (s.dma ↑c).len, (s.dma ↑c).moved ≤ i → a ≠ (s.dma ↑c).dstAt i)) ∧
    (∃ c : Fin 16, ∃ s : State,
     (s.dma ↑c).state = 1 ∧ bit (s.dma ↑c).ctrl 30 = false ∧ bit (s.dma ↑c).ctrl 29 = false ∧ bit (s.dma ↑c).ctrl 28 = false ∧ wrapOk
       (fld (s.dma ↑c).ctrl 23 19) (s.dma ↑c).src = true ∧ wrapOk (fld (s.dma ↑c).ctrl 18 14) (s.dma ↑c).dst = true ∧
       (∀ i < (s.dma ↑c).len,
        registerAt ((s.dma ↑c).srcAt i) = none ∧ registerAt ((s.dma ↑c).dstAt i) = none ∧ faults s (dmaAccess (↑c) ((s.dma ↑c).srcAt i) 1) = false ∧
          faults s (dmaAccess (↑c) ((s.dma ↑c).dstAt i) 2) = false ∧ (∀ j < (s.dma ↑c).len, (s.dma ↑c).srcAt i ≠ (s.dma ↑c).dstAt j) ∧ ∀ j <
          (s.dma ↑c).len, (s.dma ↑c).dstAt i = (s.dma ↑c).dstAt j → i = j) ∧ (s.dma ↑c).loaded = false) ∧
    (∃ c : Fin 16, ∃ s : State,
     (s.dma ↑c).state = 1 ∧ bit (s.dma ↑c).ctrl 30 = false ∧ bit (s.dma ↑c).ctrl 29 = false ∧ bit (s.dma ↑c).ctrl 28 = false ∧ wrapOk
       (fld (s.dma ↑c).ctrl 23 19) (s.dma ↑c).src = true ∧ wrapOk (fld (s.dma ↑c).ctrl 18 14) (s.dma ↑c).dst = true ∧
       (∀ i < (s.dma ↑c).len,
        registerAt ((s.dma ↑c).srcAt i) = none ∧ registerAt ((s.dma ↑c).dstAt i) = none ∧ faults s (dmaAccess (↑c) ((s.dma ↑c).srcAt i) 1) = false ∧
          faults s (dmaAccess (↑c) ((s.dma ↑c).dstAt i) 2) = false ∧ (∀ j < (s.dma ↑c).len, (s.dma ↑c).srcAt i ≠ (s.dma ↑c).dstAt j) ∧ ∀ j <
          (s.dma ↑c).len, (s.dma ↑c).dstAt i = (s.dma ↑c).dstAt j → i = j) ∧ (s.dma ↑c).loaded = true) ∧
    (∃ c : Fin 16, ∃ s : State, ∃ k : ℕ,
     (s.dma ↑c).state = 1 ∧ bit (s.dma ↑c).ctrl 30 = false ∧ (s.dma ↑c).moved < (s.dma ↑c).len ∧ s.regBit DMA.STATUS 31 = false ∧ faults s
       (dmaAccess (↑c) ((s.dma ↑c).srcAt (s.dma ↑c).moved) 1) = true ∧ k < 16 ∧ k ≠ ↑c ∧ (s.dma k).state = 1) ∧
    (∃ c : Fin 16, ∃ r : ℕ, ∃ v : Word, ∃ s : State,
     (s.dma ↑c).state = 1 ∧ (s.dma ↑c).loaded = false ∧ (s.dma ↑c).len = 4 ∧ (s.dma ↑c).moved = 0 ∧ bit (s.dma ↑c).ctrl 30 = false ∧ bit
       (s.dma ↑c).ctrl 29 = false ∧ (s.dma ↑c).srcAt 0 % 4 = 0 ∧ (s.dma ↑c).dstAt 0 % 4 = 0 ∧ registerAt ((s.dma ↑c).srcAt 0) = none ∧ registerAt
       ((s.dma ↑c).srcAt 0 + 3) = none ∧ registerAt ((s.dma ↑c).dstAt 0) = some r ∧ faults s (dmaAccess (↑c) ((s.dma ↑c).srcAt 0) 1) = false ∧ faults
       s (dmaAccess (↑c) ((s.dma ↑c).dstAt 0) 2) = false ∧ v = BitVec.ofNat 32
       (beNat (List.map (fun i => memRead s.fab.mem ((s.dma ↑c).srcAt 0 + i)) (List.range 4))) ∧
       (stopRefused s r v = true ∨ 2 < writeAuthority s r v)) ∧
    (∃ c : Fin 16, ∃ stop : ℕ, ∃ s : State, ∃ a : ℕ,
     (s.dma ↑c).state = 1 ∧ bit (s.dma ↑c).ctrl 30 = true ∧ 8 ≤ fld (s.dma ↑c).ctrl 13 9 ∧ stop =
       ((s.dma ↑c).moved / 2 ^ fld (s.dma ↑c).ctrl 13 9 + 1) * 2 ^ fld (s.dma ↑c).ctrl 13 9 ∧ bit (s.dma ↑c).ctrl 29 = false ∧ bit (s.dma ↑c).ctrl 28
       = false ∧ wrapOk (fld (s.dma ↑c).ctrl 23 19) (s.dma ↑c).src = true ∧ wrapOk (fld (s.dma ↑c).ctrl 18 14) (s.dma ↑c).dst = true ∧
       (∀ i < stop,
        (s.dma ↑c).moved ≤ i → registerAt ((s.dma ↑c).srcAt i) = none ∧ registerAt ((s.dma ↑c).dstAt i) = none ∧ faults s
          (dmaAccess (↑c) ((s.dma ↑c).srcAt i) 1) = false ∧ faults s (dmaAccess (↑c) ((s.dma ↑c).dstAt i) 2) = false) ∧
       (∀ i < stop, (s.dma ↑c).moved ≤ i → a ≠ (s.dma ↑c).dstAt i)) ∧
    (∃ e : DmaError, ∃ s : State, s.regBit DMA.STATUS 31 = false ∧ (∀ m ∈ e.moved, BitVec.toNat m.2 ≤ (s.dma ↑m.1).moved)) ∧
    (∃ _ : DmaError, ∃ s : State, s.regBit DMA.STATUS 31 = true ∧ s.regBit DMA.STATUS 30 = false) ∧
    (∃ e : DmaError, ∃ s : State, s.fab.error = some e) ∧
    (∃ p : Pkt, ∃ v : Word, ∃ x : Session, ∃ s : State, MayWrite s p x DMA.RECOVER v ∧ s.regBit DMA.STATUS 30 = true) ∧
    (∃ p : Pkt, ∃ v : Word, ∃ x : Session, ∃ s : State, MayWrite s p x DMA.RECOVER v ∧ s.regBit DMA.STATUS 30 = false) ∧
    (∃ s : State, ∃ c : ℕ,
     s.regBit DMA.CTRL 8 = true ∧ s.regBit DMA.STATUS 30 = true ∧ (s.regFld DMA.HALT_INFO 7 0 < 16 ∨ s.regFld DMA.HALT_INFO 7 0 = 255) ∧ c < 16 ∧
       (s.dma c).state = 2 ∧ c ≠ s.regFld DMA.HALT_INFO 7 0) ∧
    (∃ s : State, ∃ c : ℕ,
     s.regBit DMA.CTRL 8 = true ∧ s.regBit DMA.STATUS 30 = true ∧ (s.regFld DMA.HALT_INFO 7 0 < 16 ∨ s.regFld DMA.HALT_INFO 7 0 = 255) ∧ c < 16 ∧
       (s.dma c).state = 2 ∧ c = s.regFld DMA.HALT_INFO 7 0) ∧
    (∃ p : Pkt, ∃ v : Word, ∃ x : Session, ∃ s : State, MayWrite s p x DMA.ABORT_CMD v ∧ fld v 11 0 = 0) :=
  ⟨⟨pk, 15, 0x80000000, ses 3, st [(DMA.CTRL, 1), (DMA.SL_SRC 15, 0x40000000), (DMA.SL_DST 15, 0x40001000), (DMA.SL_LEN 15, 64)],
    mayWrite_of (by decide +kernel), by decide +kernel⟩,
   ⟨pk, 12, 0xC0001000, ses 3,
    { st [(DMA.CTRL, 1), (DMA.SL_SRC 12, 0x40000000), (DMA.SL_DST 12, 0x40001000), (DMA.SL_LEN 12, 64)] with
      fab := { channels := [(12, { state := 1, len := 4 })] } }, mayWrite_of (by decide +kernel), by decide +kernel⟩,
   ⟨pk, 15, 0, ses 3, { lead with fab := { channels := [(15, { loaded := true })] } }, mayWrite_of (by decide +kernel), by decide +kernel⟩,
   ⟨pk, 11, 0, ses 3, lead, mayWrite_of (by decide +kernel), by decide +kernel⟩,
   ⟨pk, 12, 0x80400000, ses 3, st [(DMA.CTRL, 1), (DMA.SL_SRC 12, 0x40000001), (DMA.SL_DST 12, 0x40001000), (DMA.SL_LEN 12, 64)],
    mayWrite_of (by decide +kernel), by decide +kernel⟩,
   ⟨15,
    { lead with
      fab := { mem := memWrite (memWrite (memWrite (memWrite [] 0x40000000 7) 0x40000001 8) 0x40000002 1) 0x40000003 2,
               channels := [(15, { state := 1, src := 0x40000000, dst := 0x40001000, len := 4, ctrl := 0x88000000 })] } }, 1, by decide +kernel⟩,
   ⟨15,
    { lead with
      fab := { mem := memWrite (memWrite (memWrite (memWrite [] 0x40000000 7) 0x40000001 8) 0x40000002 1) 0x40000003 2,
               channels := [(15, { state := 1, src := 0x40000000, dst := 0x40001000, len := 4, ctrl := 0x88000000 })] } }, 1, by decide +kernel⟩,
   ⟨15,
    { lead with
      fab := { mem := memWrite (memWrite [] 0x40000000 7) 0x40000001 8,
               channels := [(15, { state := 1, src := 0x40000000, dst := 0x40001000, len := 4, ctrl := 0x88000000 })] } }, by decide +kernel⟩,
   ⟨15,
    st [(DMA.CH_CTRL 15, 0x48000000), (DMA.SL_LEN 15, 64)] { lead with
                                                             fab := { mem := memWrite
                                                                        (memWrite (memWrite (memWrite [] 0x40000000 7) 0x40000001 8) 0x40000002 1)
                                                                        0x40000003 2,
                                                                      channels :=
                                                                        [(15,
                                                                          { state := 1, src := 0x40000000, dst := 0x40001000, len := 4,
                                                                            ctrl := 0x88000000, loaded := true })] } }, by decide +kernel⟩,
   ⟨15,
    { lead with
      fab := { mem := memWrite (memWrite (memWrite (memWrite [] 0x40000000 7) 0x40000001 8) 0x40000002 1) 0x40000003 2,
               channels := [(14, { state := 1 }), (15, { state := 1, src := 0xD0000000, dst := 0x40001000, len := 4, ctrl := 0x88000000 })] } }, 14,
    by decide +kernel⟩,
   ⟨15, LINING.TAMPER_ACK, 0x07080102,
    { lead with
      fab := { mem := memWrite (memWrite (memWrite (memWrite [] 0x40000000 7) 0x40000001 8) 0x40000002 1) 0x40000003 2,
               channels := [(15, { state := 1, src := 0x40000000, dst := registerBase + 4 * LINING.TAMPER_ACK, len := 4, ctrl := 0x88000000 })] } },
    by decide +kernel⟩,
   ⟨15, 256,
    { lead with
      fab := { mem := memWrite (memWrite (memWrite (memWrite [] 0x40000000 7) 0x40000001 8) 0x40000002 1) 0x40000003 2,
               channels := [(15, { state := 1, src := 0x40000000, dst := 0x40001000, len := 512, moved := 255, ctrl := 0xC8001000 })] } }, 0x40001100,
    by decide +kernel⟩,
   ⟨{ cause := 3, unit := 5, channel := some 15, address := 0x40000000, moved := [(15, 4)], discarded := 0 },
    st [(DMA.CTRL, 1)] { lead with fab := { channels := [(15, { state := 1, moved := 6, len := 64 })] } },
    by decide +kernel, fun m hm => by rw [List.mem_singleton.mp hm]; decide +kernel⟩,
   ⟨{ cause := 3, unit := 5, channel := some 15, address := 0x40000000, moved := [(15, 4)], discarded := 0 }, st [(DMA.STATUS, 0x80000000)],
    by decide +kernel⟩,
   ⟨{ cause := 3, unit := 5, channel := none, address := 0x40000000, moved := [(15, 4)], discarded := 0 },
    st [(DMA.STATUS, 0x80000000)] { lead with
                                    fab := { error := some ({ cause := 3, unit := 5, channel := none, address := 0x40000000, moved := [(15, 4)],
                                                              discarded := 0 } : DmaError) } }, by decide +kernel⟩,
   ⟨pk, 0x52438000, ses 3,
    st [(DMA.STATUS, 0xC0000000), (DMA.CTRL, 1)] { lead with fab := { channels := [(14, { state := 2 }), (15, { state := 2 })] } },
    mayWrite_of (by decide +kernel), by decide +kernel⟩,
   ⟨pk, 0x52438000, ses 3,
    st [(DMA.STATUS, 0x80000000), (DMA.CTRL, 1)] { lead with fab := { channels := [(14, { state := 2 }), (15, { state := 2 })] } },
    mayWrite_of (by decide +kernel), by decide +kernel⟩,
   ⟨st [(DMA.STATUS, 0xC0000000), (DMA.CTRL, 0x101), (DMA.HALT_INFO, 0x0000000F)]
      { lead with fab := { channels := [(14, { state := 2 }), (15, { state := 2 })] } }, 14, by decide +kernel⟩,
   ⟨st [(DMA.STATUS, 0xC0000000), (DMA.CTRL, 0x101), (DMA.HALT_INFO, 0x0000000F)]
      { lead with fab := { channels := [(14, { state := 2 }), (15, { state := 2 })] } }, 15, by decide +kernel⟩,
   ⟨pk, 0x52438000, ses 3,
    st [(DMA.STATUS, 0xC0000000), (DMA.CTRL, 1)] { lead with fab := { channels := [(14, { state := 2 }), (15, { state := 2 })] } },
    mayWrite_of (by decide +kernel), by decide +kernel⟩⟩

/-- States and operands that meet the hypotheses of every clause of CollarsAndCuffs (its values at the ends of their ranges among them). -/
theorem witness_collars_and_cuffs :
    (∃ x : Access, ∃ n : ℕ, ∃ s : State, ∃ r : ℕ,
     collarOf (BitVec.toNat x.address) = some n ∧ lockedRegion (BitVec.toNat x.address) x.master.toNat (privilege s x) x.kind.toNat = none ∧ r < 16 ∧
       ruleMatches s n r x (privilege s x) = true ∧ (∀ q < r, ruleMatches s n q x (privilege s x) = false)) ∧
    (∃ x : Access, ∃ n : ℕ, ∃ s : State,
     collarOf (BitVec.toNat x.address) = some n ∧ lockedRegion (BitVec.toNat x.address) x.master.toNat (privilege s x) x.kind.toNat = none ∧
       (∀ r < 16, ruleMatches s n r x (privilege s x) = false)) ∧
    (∃ x : Access, ∃ r : ℕ, ∃ n : ℕ, ∃ s : State, judge s x = (r, true) ∧ collarOf (BitVec.toNat x.address) = some n ∧ r < 16) ∧
    (∃ x : Access, ∃ r : ℕ, ∃ n : ℕ, ∃ s : State, judge s x = (r, true) ∧ collarOf (BitVec.toNat x.address) = some n ∧ r = 16) ∧
    (∃ x : Access, ∃ r : ℕ, ∃ n : ℕ, ∃ ok : Bool, ∃ s : State, judge s x = (r, ok) ∧ collarOf (BitVec.toNat x.address) = some n ∧ ok = false) ∧
    (∃ x : Access, ∃ r : ℕ, ∃ n : ℕ, ∃ ok : Bool, ∃ s : State, judge s x = (r, ok) ∧ collarOf (BitVec.toNat x.address) = some n ∧ r < 16) ∧
    (∃ x : Access, ∃ r : ℕ, ∃ n : ℕ, ∃ ok : Bool, ∃ s : State, judge s x = (r, ok) ∧ collarOf (BitVec.toNat x.address) = some n ∧ 16 ≤ r) ∧
    (∃ x : Access, ∃ r : ℕ, ∃ n : ℕ, ∃ ok : Bool, ∃ s : State,
     judge s x = (r, ok) ∧ collarOf (BitVec.toNat x.address) = some n ∧ ok = true ∧ x.kind = 1 ∧
       (∀ i < 4, registerAt (BitVec.toNat x.address / 4 * 4 + i) = none)) ∧
    (∃ x : Access, ∃ r : ℕ, ∃ s : State,
     judge s x = (r, false) ∧ 2 ≤ x.master.toNat ∧ x.master.toNat < 13 ∧ (privilege s x = false ∨ s.regBit COLLAR.CTRL 0 = true)) ∧
    (∃ x : Access, ∃ s : State, judge s x = (17, false) ∧ x.master.toNat = 13) ∧
    (∃ p : Pkt, ∃ x : Session, ∃ s : State,
     MayWrite s p x COLLAR.COMMIT 1 ∧ s.regFld COLLAR.SEL 12 8 < 24 ∧ (∀ (r : ℕ),
                                                                       8 ≤ r → r < 16 → ruleStaged s (s.regFld COLLAR.SEL 12 8) r = true → ruleOk
                                                                         (s.regFld COLLAR.SEL 12 8)
                                                                         (s.winStaged WinId.collar (16 * s.regFld COLLAR.SEL 12 8 + r) 0)
                                                                         (s.winStaged WinId.collar (16 * s.regFld COLLAR.SEL 12 8 + r) 1)
                                                                         (s.winStaged WinId.collar (16 * s.regFld COLLAR.SEL 12 8 + r) 2) = true)) ∧
    (∃ p : Pkt, ∃ x : Session, ∃ s : State, ∃ r : ℕ,
     MayWrite s p x COLLAR.COMMIT 1 ∧ s.regFld COLLAR.SEL 12 8 < 24 ∧ 8 ≤ r ∧ r < 16 ∧ ruleStaged s (s.regFld COLLAR.SEL 12 8) r = true ∧ ruleOk
       (s.regFld COLLAR.SEL 12 8) (s.winStaged WinId.collar (16 * s.regFld COLLAR.SEL 12 8 + r) 0)
       (s.winStaged WinId.collar (16 * s.regFld COLLAR.SEL 12 8 + r) 1) (s.winStaged WinId.collar (16 * s.regFld COLLAR.SEL 12 8 + r) 2) = false) ∧
    (∃ s : State, ∃ n : ℕ, ∃ ws : List Word, n < 24 ∧ s.fab.rulesDue = [(n, ws)]) ∧
    (∃ p : Pkt, ∃ v : Word, ∃ x : Session, ∃ s : State, MayWrite s p x COLLAR.FENCE v ∧ s.fab.fence = none) ∧
    (∃ ns : Word, ∃ m : ℕ, ∃ u : ℕ, ∃ op : ℕ, ∃ rq : Requester, ∃ s : State,
     s.fab.fence = some (m, u, some (op, rq)) ∧ (s.session rq.session).isSome = true ∧ op ≠ 18 ∧ 10 * BitVec.toNat ns ≤ fenceLimit s m) ∧
    (∃ m : ℕ, ∃ u : ℕ, ∃ w : Option (ℕ × Requester), ∃ s : State, ∃ ns : Word, s.fab.fence = some (m, u, w) ∧ fenceLimit s m < 10 * BitVec.toNat ns) ∧
    (∃ n : Fin 12, ∃ m : BitVec 6, ∃ s : State, m.toNat < 16 ∧ s.regBit (CUFF.STAT ↑n) 27 = false) ∧
    (∃ n : Fin 12, ∃ m : BitVec 6, ∃ s : State, m.toNat < 16 ∧ s.regBit (CUFF.STAT ↑n) 27 = true) ∧
    (∃ _ : Fin 12, ∃ c : Fin 16, ∃ s : State, (s.dma ↑c).state = 1 ∧ s.regBit DMA.STATUS 31 = false) ∧
    (∃ n : Fin 12, ∃ b : Bool, ∃ s : State, s.regBit (CUFF.STAT ↑n) 27 = true ∧ b = false) ∧
    (∃ n : Fin 12, ∃ b : Bool, ∃ s : State, (s.regBit (CUFF.STAT ↑n) 27 = false ∨ b = true)) :=
  ⟨⟨{ master := 4, address := 0x40000010, privileged := true, kind := 1 }, 0, wn .collar 8 [(0, 0x92000000), (1, 0x40000000), (2, 0x400003FF)] act, 8,
    by decide +kernel⟩,
   ⟨{ master := 4, address := 0x40000010, privileged := true, kind := 1 }, 0, act, by decide +kernel⟩,
   ⟨{ master := 4, address := 0x40000010, privileged := true, kind := 1 }, 8, 0, wn .collar 8 [(0, 0x92000000), (1, 0x40000000), (2, 0x400003FF)] act,
    by decide +kernel⟩,
   ⟨{ master := 2, address := 0x40000000, privileged := true, kind := 1 }, 0x10, (collarOf 0x40000000).getD 99, lead, by decide +kernel⟩,
   ⟨{ master := 4, address := 0x40000010, privileged := true, kind := 2 }, 8, 0, false,
    wn .collar 8 [(0, 0x92000000), (1, 0x40000000), (2, 0x400003FF)] act, by decide +kernel⟩,
   ⟨{ master := 4, address := 0x40000010, privileged := true, kind := 1 }, 8, 0, true,
    wn .collar 8 [(0, 0x92000000), (1, 0x40000000), (2, 0x400003FF)] act, by decide +kernel⟩,
   ⟨{ master := 4, address := 0x40000010, privileged := true, kind := 1 }, 0x10, 0, true, act, by decide +kernel⟩,
   ⟨{ master := 4, address := 0x40000010, privileged := true, kind := 1 }, 8, 0, true,
    wn .collar 8 [(0, 0x92000000), (1, 0x40000000), (2, 0x400003FF)] act, by decide +kernel⟩,
   ⟨{ master := 4, address := BitVec.ofNat 32 (collarRange 1).1, privileged := true, kind := 4 },
    (judge (st [(COLLAR.CTRL, 1)]) { master := 4, address := BitVec.ofNat 32 (collarRange 1).1, privileged := true, kind := 4 }).1,
    st [(COLLAR.CTRL, 1)], by decide +kernel⟩,
   ⟨{ master := 0x0D, address := 0xC2000000, privileged := true, kind := 1 }, st [(COLLAR.CTRL, 1)], by decide +kernel⟩,
   ⟨pk, ses 3, act, mayWrite_of (by decide +kernel), by decide +kernel⟩,
   ⟨pk, ses 3, sg .collar 15 [(0, 0xE0000000)] act, 15, mayWrite_of (by decide +kernel), by decide +kernel⟩,
   ⟨{ act with fab := { rulesDue := [(23, [0xE0000000, 5, 6, 7])] } }, 23, [0xE0000000, 5, 6, 7], by decide +kernel⟩,
   ⟨pk, 0x3F, ses 3, act, mayWrite_of (by decide +kernel), by decide +kernel⟩,
   ⟨5, 3, 4, 0x11, requesterOf pk, { lead with fab := { fence := some (3, 4, some (0x11, requesterOf pk)) } }, by decide +kernel⟩,
   ⟨3, 4, some (0x11, requesterOf pk), { lead with fab := { fence := some (3, 4, some (0x11, requesterOf pk)) } }, 0xFFFFFFF0, by decide +kernel⟩,
   ⟨11, 15, lead, by decide +kernel⟩,
   ⟨11, 15, st [(CUFF.STAT 11, 0xC8000000)] lead, by decide +kernel⟩,
   ⟨11, 15, { lead with fab := { channels := [(15, { state := 1, moved := 6, len := 64 })] } }, by decide +kernel⟩,
   ⟨11, false, st [(CUFF.STAT 11, 0xC8000000)] lead, by decide +kernel⟩,
   ⟨11, 15, lead, by decide +kernel⟩⟩

/-- States and operands that meet the hypotheses of every clause of EventLogKeeps (its values at the ends of their ranges among them). -/
theorem witness_event_log_keeps :
    (∃ _ : Half, ∃ _ : Half, ∃ s : State, s.committing = true) ∧
    (∃ _ : Half, ∃ _ : Half, ∃ s : State, s.committing = false ∧ s.evr.intake.length < 512) ∧
    (∃ _ : Half, ∃ _ : Half, ∃ s : State, s.committing = false ∧ 512 ≤ s.evr.intake.length) ∧
    (∃ e : RaisedEvent, ∃ rest : List RaisedEvent, ∃ r : EventRecord, ∃ s : State, s.evr.intake = e :: rest ∧ foldTarget s e = some r) ∧
    (∃ e : RaisedEvent, ∃ rest : List RaisedEvent, ∃ s : State,
     s.evr.intake = e :: rest ∧ foldTarget s e = none ∧ s.evr.records.length < 16384 ∧ e.severity = 4) ∧
    (∃ e : RaisedEvent, ∃ rest : List RaisedEvent, ∃ s : State, ∃ v : EventRecord,
     s.evr.intake = e :: rest ∧ foldTarget s e = none ∧ 16384 ≤ s.evr.records.length ∧ List.find?
       (fun y => decide (y.severity ≤ e.severity) && decide (y.severity ≠ 4)) s.evr.records = some v) ∧
    (∃ e : RaisedEvent, ∃ rest : List RaisedEvent, ∃ s : State,
     s.evr.intake = e :: rest ∧ foldTarget s e = none ∧ 16384 ≤ s.evr.records.length ∧
       (∀ y ∈ s.evr.records, e.severity < y.severity ∨ y.severity = 4)) ∧
    (∃ s : State,
     s.committing = false ∧ s.evr.overflowDue = true ∧ s.evr.intake.length < 512 ∧
       (∀ (k : ℕ), s.evr.overflowAt = some k → k + 100000 ≤ s.evr.ticks)) ∧
    (∃ _ : EventRecord, ∃ s : State, s.evr.records.length < 16384) ∧
    (∃ p : Pkt, ∃ x : Session, ∃ v : Word, ∃ s : State, ∃ c : Instr, ∃ n : ℕ,
     Admits s p x ∧ (c = Instr.evrCursorReport p ∧ n = cursorAt s x.cursor ∨ c = Instr.evrCursorOldest p ∧ n = cursorAt s 0 ∨ c = Instr.evrCursorSet p
                       v ∧ n = cursorAt s (BitVec.toNat v) ∨ c = Instr.evrCursorNewest p ∧ n =
                       (Option.map (fun x => x.index) s.evr.records.getLast?).getD (s.evr.newest + 1))) ∧
    (∃ p : Pkt, ∃ x : Session, ∃ k : Byte, ∃ s : State, Admits s p x ∧ 1 ≤ BitVec.toNat k ∧ BitVec.toNat k ≤ 10) ∧
    (∃ p : Pkt, ∃ x : Session, ∃ k : Byte, ∃ s : State, Admits s p x ∧ (BitVec.toNat k = 0 ∨ 10 < BitVec.toNat k)) ∧
    (∃ p : Pkt, ∃ x : Session, ∃ key : Half, ∃ s : State, Admits s p x ∧ 3 ≤ x.role ∧ key = 17731#16) ∧
    (∃ p : Pkt, ∃ x : Session, ∃ key : Half, ∃ s : State, Admits s p x ∧ 3 ≤ x.role ∧ key ≠ 17731#16) ∧
    (∃ p : Pkt, ∃ x : Session, ∃ v : Word, ∃ s : State, MayWrite s p x EVR.CURSOR v) ∧
    (∃ p : Pkt, ∃ x : Session, ∃ s : State, Admits s p x ∧ s.windowHolder WindowId.evr p.session = none ∧ s.evr.winCopy = none) ∧
    (∃ p : Pkt, ∃ x : Session, ∃ s : State, ∃ r : EventRecord,
     Admits s p x ∧ s.windowHolder WindowId.evr p.session = none ∧ s.evr.winCopy = some r ∧ s.evr.winPtr < 31) ∧
    (∃ p : Pkt, ∃ x : Session, ∃ s : State, ∃ r : EventRecord,
     Admits s p x ∧ s.windowHolder WindowId.evr p.session = none ∧ s.evr.winCopy = some r ∧ 31 ≤ s.evr.winPtr) ∧
    (∃ p : Pkt, ∃ x : Session, ∃ s : State, ∃ n : Word, Admits s p x ∧ s.windowHolder WindowId.evr p.session = some n) ∧
    (∃ p : Pkt, ∃ x : Session, ∃ n : ℕ, ∃ s : State,
     MayWrite s p x EVR.SNAP_COMMIT 1 ∧ s.regFld EVR.SNAP_SEL 2 0 = n ∧ fld (s.winStaged WinId.snap n 1) 28 24 ≤ 16 ∧
       (∀ k < fld (s.winStaged WinId.snap n 1) 28 24,
        implemented (if k % 2 = 0 then fld (s.winStaged WinId.snap n (2 + k / 2)) 31 16 else fld (s.winStaged WinId.snap n (2 + k / 2)) 15 0) =
          true)) ∧
    (∃ p : Pkt, ∃ x : Session, ∃ n : ℕ, ∃ s : State,
     MayWrite s p x EVR.SNAP_COMMIT 1 ∧ s.regFld EVR.SNAP_SEL 2 0 = n ∧ 16 < fld (s.winStaged WinId.snap n 1) 28 24) ∧
    (∃ p : Pkt, ∃ x : Session, ∃ s : State, MayWrite s p x EVR.ALARM 16) ∧
    (∃ p : Pkt, ∃ x : Session, ∃ s : State, MayWrite s p x EVR.CLEAR 1) :=
  ⟨⟨0x4001, 7, { lead with power := { loss := .committing } }, by decide +kernel⟩,
   ⟨0x4001, 7, lead, by decide +kernel⟩,
   ⟨0x4001, 7, { lead with evr := { intake := List.replicate 512 (ev 1) } }, by decide +kernel⟩,
   ⟨ev 1, [ev 2], er 3 1, { lead with evr := { intake := [ev 1, ev 2], records := [er 3 1], newest := 3, foldable := some (3, 0) } },
    by decide +kernel⟩,
   ⟨{ ev 4 with tick := 4 }, [], { lead with evr := { intake := [{ ev 4 with tick := 4 }], records := [er 3 1], newest := 3 } }, by decide +kernel⟩,
   ⟨ev 1, [], { lead with evr := { intake := [ev 1], records := er 2 4 :: List.replicate 16384 (er 3 1), newest := 3 } }, (er 3 1 : EventRecord),
    by decide +kernel, by decide +kernel,
    by show 16384 ≤ (er 2 4 :: List.replicate 16384 (er 3 1)).length; rw [List.length_cons, List.length_replicate]; decide,
    by decide +kernel⟩,
   ⟨ev 1, [], { lead with evr := { intake := [ev 1], records := List.replicate 16384 (er 3 4), newest := 3 } },
    by decide +kernel, by decide +kernel, by show 16384 ≤ (List.replicate 16384 (er 3 4)).length; rw [List.length_replicate],
    fun y hy => by rw [List.eq_of_mem_replicate hy]; decide⟩,
   ⟨{ lead with evr := { overflowDue := true, overflowAt := some 5, ticks := 100005 } }, by decide +kernel⟩,
   ⟨er 9 2, { lead with evr := { records := [er 3 1], newest := 3 } }, by decide +kernel⟩,
   ⟨pk, ses 3, 4, { lead with evr := { records := [er 3 1, er 5 1], newest := 5 } }, .evrCursorSet pk 4, 5,
    admits_of (by decide +kernel) (by decide +kernel), by decide +kernel⟩,
   ⟨pk, ses 3, 10, { lead with evr := { records := [er 3 1, er 5 1], newest := 5 } }, admits_of (by decide +kernel) (by decide +kernel),
    by decide +kernel⟩,
   ⟨pk, ses 3, 11, { lead with evr := { records := [er 3 1, er 5 1], newest := 5 } }, admits_of (by decide +kernel) (by decide +kernel),
    by decide +kernel⟩,
   ⟨pk, ses 3, 0x4543, { lead with evr := { records := [er 3 1, er 5 1], newest := 5, intake := [ev 1] } },
    admits_of (by decide +kernel) (by decide +kernel), by decide +kernel⟩,
   ⟨pk, ses 3, 10, { lead with evr := { records := [er 3 1, er 5 1], newest := 5 } }, admits_of (by decide +kernel) (by decide +kernel),
    by decide +kernel⟩,
   ⟨pk, ses 3, 10, { lead with evr := { records := [er 3 1, er 5 1], newest := 5 } }, mayWrite_of (by decide +kernel)⟩,
   ⟨pk, ses 3, { lead with evr := { alarm := 0x1F } }, admits_of (by decide +kernel) (by decide +kernel), by decide +kernel⟩,
   ⟨pk, ses 3, { lead with evr := { records := [er 3 1, er 5 1], newest := 5, winCursor := 3, winCopy := some (er 3 1), winPtr := 30 } },
    (er 3 1 : EventRecord), admits_of (by decide +kernel) (by decide +kernel), by decide +kernel⟩,
   ⟨pk, ses 3, { lead with evr := { records := [er 3 1, er 5 1], newest := 5, winCursor := 3, winCopy := some (er 3 1), winPtr := 31 } },
    (er 3 1 : EventRecord), admits_of (by decide +kernel) (by decide +kernel), by decide +kernel⟩,
   ⟨pk, ses 3,
    { lead with
      evr := { records := [er 3 1, er 5 1], newest := 5, winCursor := 3, winCopy := some (er 3 1), winPtr := 31 },
      qcp := { lead.qcp with claims := [(.evr, 2, 0)] } }, (2 : Word), admits_of (by decide +kernel) (by decide +kernel), by decide +kernel⟩,
   ⟨pk, ses 3, 7, sg .snap 7 [(1, 0x01000000), (2, 0x10070000)] (st [(EVR.SNAP_SEL, 7)]), mayWrite_of (by decide +kernel), by decide +kernel⟩,
   ⟨pk, ses 3, 7, sg .snap 7 [(1, 0x11000000), (2, 0x10070000)] (st [(EVR.SNAP_SEL, 7)]), mayWrite_of (by decide +kernel), by decide +kernel⟩,
   ⟨pk, ses 3, { lead with evr := { records := [er 3 1, er 5 1], newest := 5, winCursor := 3, winCopy := some (er 3 1), winPtr := 31 } },
    mayWrite_of (by decide +kernel)⟩,
   ⟨pk, ses 3, { lead with evr := { records := [er 3 1, er 5 1], newest := 5, winCursor := 3, winCopy := some (er 3 1), winPtr := 31 } },
    mayWrite_of (by decide +kernel)⟩⟩

/-- States and operands that meet the hypotheses of every clause of ComponentUpdates (its values at the ends of their ranges among them). -/
theorem witness_component_updates :
    (∃ p : Pkt, ∃ x : Session, ∃ c : Byte, ∃ size : Word, ∃ _ : BitVec 256, ∃ s : State,
     Admits s p x ∧ 2 ≤ x.role ∧ BitVec.toNat c < 6 ∧ size ≠ 0 ∧ s.lockBit 0 = true) ∧
    (∃ p : Pkt, ∃ x : Session, ∃ c : Byte, ∃ size : Word, ∃ _ : BitVec 256, ∃ s : State,
     Admits s p x ∧ 2 ≤ x.role ∧ BitVec.toNat c < 6 ∧ size ≠ 0 ∧ s.lockBit 0 = false ∧ updateRole s = false) ∧
    (∃ p : Pkt, ∃ x : Session, ∃ c : Byte, ∃ size : Word, ∃ _ : BitVec 256, ∃ s : State,
     Admits s p x ∧ 2 ≤ x.role ∧ BitVec.toNat c < 6 ∧ size ≠ 0 ∧ s.lockBit 0 = false ∧ updateRole s = true ∧ holdupLow s = true) ∧
    (∃ p : Pkt, ∃ x : Session, ∃ c : Byte, ∃ size : Word, ∃ _ : BitVec 256, ∃ s : State,
     Admits s p x ∧ 2 ≤ x.role ∧ BitVec.toNat c < 6 ∧ size ≠ 0 ∧ s.lockBit 0 = false ∧ updateRole s = true ∧ holdupLow s = false ∧ otherState s
       (BitVec.toNat c) ≠ 4 ∧ otherState s (BitVec.toNat c) ≠ 6 ∧ componentHandle s (BitVec.toNat c) = none ∧ s.handleCount p.session true < 2) ∧
    (∃ p : Pkt, ∃ x : Session, ∃ _ : Word, ∃ _ : BitVec 256, ∃ s : State, Admits s p x ∧ 2 ≤ x.role ∧ s.lockBit 0 = false) ∧
    (∃ p : Pkt, ∃ x : Session, ∃ id : Word, ∃ index : Word, ∃ data : List Byte, ∃ h : Handle, ∃ k : ℕ, ∃ s : State,
     Admits s p x ∧ 2 ≤ x.role ∧ updateHandle s id (requesterOf p) = some (h, k) ∧ h.ahead = [] ∧ BitVec.toNat index = h.next ∧ BitVec.toNat index + 1
       < h.chunks ∧ data.length = 1344) ∧
    (∃ p : Pkt, ∃ x : Session, ∃ id : Word, ∃ h : Handle, ∃ k : ℕ, ∃ s : State,
     Admits s p x ∧ 2 ≤ x.role ∧ updateHandle s id (requesterOf p) = some (h, k) ∧ k ≠ 7 ∧ h.next < h.chunks) ∧
    (∃ p : Pkt, ∃ x : Session, ∃ id : Word, ∃ h : Handle, ∃ k : ℕ, ∃ s : State,
     Admits s p x ∧ 2 ≤ x.role ∧ updateHandle s id (requesterOf p) = some (h, k) ∧ k ≠ 7 ∧ h.chunks ≤ h.next ∧ s.trust.checking = none) ∧
    (∃ c : PackageCheck, ∃ r : PackageVerdict, ∃ s : State, s.trust.checking = some c ∧ c.component < 6 ∧ packageRefusal s c r = none) ∧
    (∃ c : PackageCheck, ∃ r : PackageVerdict, ∃ s : State, ∃ e : Reply,
     s.trust.checking = some c ∧ c.component < 6 ∧ packageRefusal s c r = some e ∧ e.reason = 3) ∧
    (∃ c : PackageCheck, ∃ _ : PackageVerdict, ∃ s : State, s.trust.checking = some c ∧ c.component < 6 ∧ sm3 c.bytes ≠ c.digest) ∧
    (∃ c : PackageCheck, ∃ _ : PackageVerdict, ∃ s : State,
     s.trust.checking = some c ∧ c.component < 6 ∧ sm3 c.bytes = c.digest ∧ packageHeaderOk s c.bytes c.component c.size = false) ∧
    (∃ c : PackageCheck, ∃ _ : PackageVerdict, ∃ s : State,
     s.trust.checking = some c ∧ c.component < 6 ∧ sm3 c.bytes = c.digest ∧ packageHeaderOk s c.bytes c.component c.size = true ∧ packageSigned s
       c.bytes = false) ∧
    (∃ c : PackageCheck, ∃ _ : PackageVerdict, ∃ s : State,
     s.trust.checking = some c ∧ c.component < 6 ∧ sm3 c.bytes = c.digest ∧ packageHeaderOk s c.bytes c.component c.size = true ∧ packageSigned s
       c.bytes = true ∧ (packageOf c.bytes).epoch < epochFloor s c.component) ∧
    (∃ c : PackageCheck, ∃ _ : PackageVerdict, ∃ s : State,
     s.trust.checking = some c ∧ c.component < 6 ∧ sm3 c.bytes = c.digest ∧ packageHeaderOk s c.bytes c.component c.size = true ∧ packageSigned s
       c.bytes = true ∧ epochFloor s c.component ≤ (packageOf c.bytes).epoch ∧ (packageOf c.bytes).encrypted = true ∧ slotLoaded s
       (packageOf c.bytes).decryptSlot = false) ∧
    (∃ p : Pkt, ∃ x : Session, ∃ c : Byte, ∃ v : Option Word, ∃ s : State,
     Admits s p x ∧ 2 ≤ x.role ∧ BitVec.toNat c < 6 ∧ s.lockBit 0 = false ∧ applyRefusal s (BitVec.toNat c) v = none) ∧
    (∃ p : Pkt, ∃ x : Session, ∃ c : Byte, ∃ v : Option Word, ∃ s : State, ∃ r : Reply, ∃ i : ℕ, ∃ j : ℕ, ∃ w : Word,
     Admits s p x ∧ 2 ≤ x.role ∧ BitVec.toNat c < 6 ∧ s.lockBit 0 = false ∧ applyRefusal s (BitVec.toNat c) v = some r ∧ r.status =
       Status.incompatible ∧ matrixBlocker s (BitVec.toNat c) = some (i, j, w)) ∧
    (∃ _ : ℕ, ∃ _ : Option Word, ∃ s : State, updateRole s = false) ∧
    (∃ _ : ℕ, ∃ _ : Option Word, ∃ s : State, updateRole s = true ∧ holdupLow s = true) ∧
    (∃ k : ℕ, ∃ _ : Option Word, ∃ s : State, updateRole s = true ∧ holdupLow s = false ∧ k < 6 ∧ otherState s k ≠ 2) ∧
    (∃ k : ℕ, ∃ _ : Option Word, ∃ s : State, updateRole s = true ∧ holdupLow s = false ∧ k < 6 ∧ otherState s k = 2 ∧ s.trust.trial.isSome = true) ∧
    (∃ _ : CalibrationCheck, ∃ k : ℕ, ∃ w : Option Requester, ∃ s : State, s.trust.applying = some (k, w) ∧ (k = 3 ∨ k = 4)) ∧
    (∃ _ : CalibrationCheck, ∃ k : ℕ, ∃ w : Option Requester, ∃ s : State, s.trust.applying = some (k, w) ∧ k = 5) ∧
    (∃ _ : CalibrationCheck, ∃ k : ℕ, ∃ w : Option Requester, ∃ s : State, s.trust.applying = some (k, w) ∧ k < 3) ∧
    (∃ _ : List (ℕ × Word), ∃ _ : Half, ∃ w : Option Requester, ∃ s : State, s.trust.applying = some (7, w)) ∧
    (∃ p : Pkt, ∃ x : Session, ∃ c : Byte, ∃ s : State, Admits s p x ∧ BitVec.toNat c < 7) :=
  ⟨⟨pk, ses 3, 2, 64, 7, st [(SEC.LOCK, 1)], admits_of (by decide +kernel) (by decide +kernel), by decide +kernel⟩,
   ⟨pk, ses 3, 5, 64, 7, lead, admits_of (by decide +kernel) (by decide +kernel), by decide +kernel⟩,
   ⟨pk, ses 3, 0, 64, 7, st [(POWER.HU_ENERGY, 0x1F3F0000)] { lead with role := .out }, admits_of (by decide +kernel) (by decide +kernel),
    by decide +kernel⟩,
   ⟨pk, ses 3, 5, 0xFFFFFFFF, 7, upd 5 0 2 { lead with role := .out }, admits_of (by decide +kernel) (by decide +kernel), by decide +kernel⟩,
   ⟨pk, ses 3, 64, 7, upd 5 0 2 { lead with role := .out }, admits_of (by decide +kernel) (by decide +kernel), by decide +kernel⟩,
   ⟨pk, ses 3, 5, 1, List.replicate 1344 1, hnd (.component 3) 3 1, 3, withH (.component 3) 3 1 lead,
    admits_of (by decide +kernel) (by decide +kernel), by decide +kernel⟩,
   ⟨pk, ses 3, 5, hnd (.component 3) 3 2, 3, withH (.component 3) 3 2 lead, admits_of (by decide +kernel) (by decide +kernel), by decide +kernel⟩,
   ⟨pk, ses 3, 5, hnd (.component 5) 3 3, 5, withH (.component 5) 3 3 lead, admits_of (by decide +kernel) (by decide +kernel), by decide +kernel⟩,
   ⟨chk (pkg 0 plainSig) 0x35B34B40C3883AFD8A9EE7C8E4E43C5A672171DCA28EAE6DC81B1216DE00BB7B, { importOk := false, format := 0, unmapped := [] },
    checking (chk (pkg 0 plainSig) 0x35B34B40C3883AFD8A9EE7C8E4E43C5A672171DCA28EAE6DC81B1216DE00BB7B) lead, by decide +kernel⟩,
   ⟨chk (pkg 0 0) 0xF8D7C3EF29E5534406211F2B87E9BCBEE22E2B26691B0BF7A581DEE9F001F0D7, { importOk := false, format := 0, unmapped := [] },
    checking (chk (pkg 0 0) 0xF8D7C3EF29E5534406211F2B87E9BCBEE22E2B26691B0BF7A581DEE9F001F0D7) lead, refusal .notAuthorized 0x03,
    by decide +kernel⟩,
   ⟨chk (pkg 0 plainSig) 5, { importOk := false, format := 0, unmapped := [] }, checking (chk (pkg 0 plainSig) 5) lead, by decide +kernel⟩,
   ⟨chk [1] 0x799B719AC031FC89C6D8925A487DAD07308F837B7AB7BBC7CEBD3A4118FD2F38, { importOk := false, format := 0, unmapped := [] },
    checking (chk [1] 0x799B719AC031FC89C6D8925A487DAD07308F837B7AB7BBC7CEBD3A4118FD2F38) lead, by decide +kernel⟩,
   ⟨chk (pkg 0 0) 0xF8D7C3EF29E5534406211F2B87E9BCBEE22E2B26691B0BF7A581DEE9F001F0D7, { importOk := false, format := 0, unmapped := [] },
    checking (chk (pkg 0 0) 0xF8D7C3EF29E5534406211F2B87E9BCBEE22E2B26691B0BF7A581DEE9F001F0D7) lead, by decide +kernel⟩,
   ⟨chk (pkg 0 plainSig) 0x35B34B40C3883AFD8A9EE7C8E4E43C5A672171DCA28EAE6DC81B1216DE00BB7B, { importOk := false, format := 0, unmapped := [] },
    checking (chk (pkg 0 plainSig) 0x35B34B40C3883AFD8A9EE7C8E4E43C5A672171DCA28EAE6DC81B1216DE00BB7B) (st [(UPD.C_EPOCH 3, 0x00010000)] lead),
    by decide +kernel⟩,
   ⟨chk (pkg 3 sealedSig) 0x9348F1B48F59D0DB799984F5344A1C2A325E8556E5A9420C829EE80FC97F3676, { importOk := false, format := 0, unmapped := [] },
    checking (chk (pkg 3 sealedSig) 0x9348F1B48F59D0DB799984F5344A1C2A325E8556E5A9420C829EE80FC97F3676) lead, by decide +kernel⟩,
   ⟨pk, ses 3, 1, none, upd 1 0 2 { lead with role := .out }, admits_of (by decide +kernel) (by decide +kernel), by decide +kernel⟩,
   ⟨pk, ses 3, 3, none, { (upd 3 0 2 { lead with role := .out }) with trust := { packages := [(7, { version := 1, requires := [0x00010001] })] } },
    refusal .incompatible, 3, 0, 0x00010001, admits_of (by decide +kernel) (by decide +kernel), by decide +kernel⟩,
   ⟨3, none, lead, by decide +kernel⟩,
   ⟨3, none, { lead with role := .out }, by decide +kernel⟩,
   ⟨3, none, upd 3 0 1 { lead with role := .out }, by decide +kernel⟩,
   ⟨3, none, { (upd 3 0 2 { lead with role := .out }) with trust := { trial := some 4 } }, by decide +kernel⟩,
   ⟨{ afeOk := true, afeInfo := 0, tables := [], readings := [], temperature := 0 }, 4, some (requesterOf pk),
    { (upd 4 1 3 lead) with trust := { applying := some (4, (some (requesterOf pk))) } }, by decide +kernel⟩,
   ⟨{ afeOk := true, afeInfo := 0, tables := [], readings := [], temperature := 0 }, 5, some (requesterOf pk),
    { (upd 5 1 3 lead) with trust := { applying := some (5, (some (requesterOf pk))) } }, by decide +kernel⟩,
   ⟨{ afeOk := true, afeInfo := 0, tables := [], readings := [], temperature := 0 }, 2, some (requesterOf pk),
    { (upd 2 1 3 lead) with trust := { applying := some (2, (some (requesterOf pk))) } }, by decide +kernel⟩,
   ⟨[(AO.CH_CFG 7, 0), (DIO.COS_COUNT, 5)], 2, some (requesterOf pk), { lead with trust := { applying := some (7, (some (requesterOf pk))) } },
    by decide +kernel⟩,
   ⟨pk, ses 3, 6, { lead with trust := { unmapped := [7, 8] } }, admits_of (by decide +kernel) (by decide +kernel), by decide +kernel⟩⟩

/-- States and operands that meet the hypotheses of every clause of TrialsAndTrust (its values at the ends of their ranges among them). -/
theorem witness_trials_and_trust :
    (∃ k : ℕ, ∃ s : State, s.trust.trial = some k ∧ k < 6 ∧ s.reg UPD.TRIAL_LEFT = 0 ∧ (runningPackage s k).epoch < 65536) ∧
    (∃ k : ℕ, ∃ s : State, ∃ cause : TrialFailure, s.trust.trial = some k ∧ k < 6 ∧ s.trust.original = none ∧ trialFailed s cause = false) ∧
    (∃ k : ℕ, ∃ s : State, ∃ cause : TrialFailure, s.trust.trial = some k ∧ k < 6 ∧ s.trust.original = none ∧ trialFailed s cause = true) ∧
    (∃ k : ℕ, ∃ p : Pkt, ∃ x : Session, ∃ v : Word, ∃ s : State,
     s.trust.trial = some k ∧ k < 6 ∧ s.trust.original = none ∧ MayWrite s p x UPD.REVERT v) ∧
    (∃ cause : TrialFailure, ∃ o : Store, ∃ k : ℕ, ∃ s : State,
     s.trust.trial = some k ∧ k < 6 ∧ s.trust.original = some o ∧ trialFailed s cause = true) ∧
    (∃ p : Pkt, ∃ x : Session, ∃ slot : Byte, ∃ k : KeyRequest, ∃ s : State,
     Admits s p x ∧ 3 ≤ x.role ∧ 1 < BitVec.toNat slot ∧ BitVec.toNat slot ≤ 14 ∧ BitVec.toNat k.role ≤ 3 ∧ BitVec.toNat k.usage ≤ 3 ∧ keyProofOk s k
       = true ∧ (∀ y ∈ s.qcp.sessions, y.slot ≠ BitVec.toNat slot)) ∧
    (∃ p : Pkt, ∃ x : Session, ∃ slot : Byte, ∃ k : KeyRequest, ∃ s : State,
     Admits s p x ∧ 3 ≤ x.role ∧ 1 < BitVec.toNat slot ∧ BitVec.toNat slot ≤ 14 ∧ BitVec.toNat k.role ≤ 3 ∧ BitVec.toNat k.usage ≤ 3 ∧ keyProofOk s k
       = false) ∧
    (∃ p : Pkt, ∃ x : Session, ∃ k : KeyRequest, ∃ s : State,
     Admits s p x ∧ 3 ≤ x.role ∧ BitVec.toNat k.role ≤ 3 ∧ BitVec.toNat k.usage ≤ 3 ∧ keyProofOk s k = true) ∧
    (∃ p : Pkt, ∃ x : Session, ∃ slot : Byte, ∃ s : State, Admits s p x ∧ 3 ≤ x.role ∧ 1 ≤ BitVec.toNat slot ∧ BitVec.toNat slot ≤ 14) ∧
    (∃ p : Pkt, ∃ x : Session, ∃ slot : Byte, ∃ s : State, Admits s p x ∧ 3 ≤ x.role ∧ (BitVec.toNat slot = 0 ∨ BitVec.toNat slot = 15)) ∧
    (∃ p : Pkt, ∃ x : Session, ∃ slot : Byte, ∃ s : State, Admits s p x ∧ 3 ≤ x.role ∧ 1 ≤ BitVec.toNat slot ∧ BitVec.toNat slot ≤ 3) ∧
    (∃ p : Pkt, ∃ x : Session, ∃ slot : Byte, ∃ s : State, ∃ _ : BitVec 128,
     Admits s p x ∧ 3 ≤ x.role ∧ 1 ≤ BitVec.toNat slot ∧ BitVec.toNat slot ≤ 3) ∧
    (∃ p : Pkt, ∃ x : Session, ∃ mask : Byte, ∃ s : State, Admits s p x ∧ 3 ≤ x.role ∧ BitVec.toNat mask ≤ 15) ∧
    (∃ p : Pkt, ∃ x : Session, ∃ c : List Byte, ∃ s : State, Admits s p x ∧ 3 ≤ x.role ∧ s.lockBit 2 = false ∧ certRefusal s c = none) ∧
    (∃ p : Pkt, ∃ x : Session, ∃ c : List Byte, ∃ s : State,
     Admits s p x ∧ 3 ≤ x.role ∧ s.lockBit 2 = false ∧ certForm c = true ∧ certSerial c = serialOf s ∧ certEnd c ≤ certBegin c + 604800 ∧
       s.keyVerifies (ownerSlot s) (BitVec.ofNat 512 (beNat (List.drop 96 c))) (List.take 96 c) = true ∧ 2 ≤ s.tb.quality.code ∧ certBegin c ≤ secOf
       s.tb.now ∧ secOf s.tb.now ≤ certEnd c) ∧
    (∃ p : Pkt, ∃ x : Session, ∃ c : List Byte, ∃ s : State,
     Admits s p x ∧ 3 ≤ x.role ∧ s.lockBit 2 = false ∧ (certForm c = false ∨ certSerial c ≠ serialOf s ∨ certBegin c + 604800 < certEnd c)) ∧
    (∃ p : Pkt, ∃ x : Session, ∃ c : List Byte, ∃ s : State,
     Admits s p x ∧ 3 ≤ x.role ∧ s.lockBit 2 = false ∧ certForm c = true ∧ certSerial c = serialOf s ∧ certEnd c ≤ certBegin c + 604800 ∧
       s.keyVerifies (ownerSlot s) (BitVec.ofNat 512 (beNat (List.drop 96 c))) (List.take 96 c) = false) ∧
    (∃ p : Pkt, ∃ x : Session, ∃ _ : List Byte, ∃ s : State, ∃ d : ℕ × ℕ, Admits s p x ∧ 3 ≤ x.role ∧ s.lockBit 2 = false ∧ s.trust.cert = some d) ∧
    (∃ a : ℕ, ∃ u : ℕ, ∃ s : State, s.trust.cert = some (a, u)) ∧
    (∃ p : Pkt, ∃ x : Session, ∃ v : Word, ∃ s : State,
     MayWrite s p x SEC.FUSE_CMD v ∧ fld v 10 8 ≤ 6 ∧ s.regFld (UPD.C_EPOCH (fld v 10 8)) 15 0 ≤ fld v 7 0) ∧
    (∃ p : Pkt, ∃ x : Session, ∃ v : Word, ∃ s : State, MayWrite s p x SEC.FUSE_CMD v ∧ fld v 7 0 < s.regFld (UPD.C_EPOCH (fld v 10 8)) 15 0) :=
  ⟨⟨5, { (upd 5 1 5 lead) with trust := { trial := some 5, packages := [(11, { epoch := 65535 })] } }, by decide +kernel⟩,
   ⟨0, { (upd 0 0 5 lead) with trust := { trial := some 0 } }, .startupTest, by decide +kernel⟩,
   ⟨1, st [(LOCK.TEST_STATUS, 0x30000000)] { (upd 1 1 6 lead) with trust := { trial := some 1 } }, .startupTest, by decide +kernel⟩,
   ⟨0, pk, ses 3, 0x5256, { (upd 0 1 6 lead) with trust := { trial := some 0 } }, by decide +kernel, by decide +kernel, by decide +kernel,
    mayWrite_of (by decide +kernel)⟩,
   ⟨.migration, { version := 1, regs := [(DIO.COS_COUNT, 1)], wins := [] }, 2,
    st [(UPD.ALARM, 4)]
      { (upd 2 1 6 lead) with trust := { trial := some 2, original := some ({ version := 1, regs := [(DIO.COS_COUNT, 1)], wins := [] } : Store) } },
    by decide +kernel⟩,
   ⟨pk, ses 3, 14, keyReq 3 3 proofSig, lead, admits_of (by decide +kernel) (by decide +kernel), by decide +kernel⟩,
   ⟨pk, ses 3, 2, keyReq 3 3 1, lead, admits_of (by decide +kernel) (by decide +kernel), by decide +kernel⟩,
   ⟨pk, ses 3, keyReq 3 3 proofSig, { lead with qcp := { lead.qcp with sessions := [ses 3, { ses 3 with number := 2, slot := 15 }] } },
    admits_of (by decide +kernel) (by decide +kernel), by decide +kernel⟩,
   ⟨pk, ses 3, 1, st [(SEC.KEY_INFO 1, 0x80000001)] { lead with qcp := { lead.qcp with sessions := [ses 3, { ses 3 with number := 2, slot := 1 }] } },
    admits_of (by decide +kernel) (by decide +kernel), by decide +kernel⟩,
   ⟨pk, ses 3, 0, lead, admits_of (by decide +kernel) (by decide +kernel), by decide +kernel⟩,
   ⟨pk, ses 3, 1, st [(SEC.KEY_INFO 1, 0x80000001)] { lead with qcp := { lead.qcp with sessions := [ses 3, { ses 3 with number := 2, slot := 1 }] } },
    admits_of (by decide +kernel) (by decide +kernel), by decide +kernel⟩,
   ⟨pk, ses 3, 3, lead, 9, admits_of (by decide +kernel) (by decide +kernel), by decide +kernel⟩,
   ⟨pk, ses 3, 1, st [(SEC.KEY_INFO 1, 0x80000001)] { lead with qcp := { lead.qcp with sessions := [ses 3, { ses 3 with number := 2, slot := 1 }] } },
    admits_of (by decide +kernel) (by decide +kernel), by decide +kernel⟩,
   ⟨pk, ses 3, cert certSig, withOwner { lead with tb := { lead.tb with quality := .locked, now := 10 * secUnits } },
    admits_of (by decide +kernel) (by decide +kernel), by decide +kernel⟩,
   ⟨pk, ses 3, cert certSig, withOwner { lead with tb := { lead.tb with quality := .locked, now := 10 * secUnits } },
    admits_of (by decide +kernel) (by decide +kernel), by decide +kernel⟩,
   ⟨pk, ses 3, [1], lead, admits_of (by decide +kernel) (by decide +kernel), by decide +kernel⟩,
   ⟨pk, ses 3, cert 1, withOwner { lead with tb := { lead.tb with quality := .locked, now := 604800 * secUnits } },
    admits_of (by decide +kernel) (by decide +kernel), by decide +kernel⟩,
   ⟨pk, ses 3, cert certSig, { lead with trust := { cert := some (3, 100) } }, (3, 100), admits_of (by decide +kernel) (by decide +kernel),
    by decide +kernel⟩,
   ⟨3, 100, { lead with trust := { cert := some (3, 100) } }, by decide +kernel⟩,
   ⟨pk, ses 3, 0x46550605, st [(UPD.C_EPOCH 6, 5)], mayWrite_of (by decide +kernel), by decide +kernel⟩,
   ⟨pk, ses 3, 0x46550604, st [(UPD.C_EPOCH 6, 5)], mayWrite_of (by decide +kernel), by decide +kernel⟩⟩

/-- States and operands that meet the hypotheses of every clause of SupplyAndHoldup (its values at the ends of their ranges among them). -/
theorem witness_supply_and_holdup :
    (∃ s : State, s.power.supply = SupplyPhase.delay) ∧
    (∃ s : State, s.power.supply = SupplyPhase.charging) ∧
    (∃ s : State, s.power.supply = SupplyPhase.rails) ∧
    (∃ mv : BitVec 17, ∃ _ : State, 33000 ≤ mv.toNat ∧ mv.toNat < 36000) ∧
    (∃ mv : BitVec 17, ∃ _ : State, 60000 < mv.toNat) ∧
    (∃ s : State, s.regFld ID.ORDER 15 8 = 1) ∧
    (∃ s : State, s.power.measuring = none ∧ s.power.loss = LossPhase.none ∧ s.power.measuredAt = none) ∧
    (∃ s : State, ∃ u : ℕ, s.power.measuring = none ∧ s.power.loss = LossPhase.none ∧ s.power.measuredAt = some u) ∧
    (∃ p : Pkt, ∃ x : Session, ∃ s : State, MayWrite s p x POWER.HU_MEAS 1 ∧ s.power.measuring = none ∧ s.power.loss = LossPhase.none) ∧
    (∃ p : Pkt, ∃ x : Session, ∃ s : State, MayWrite s p x POWER.HU_MEAS 1 ∧ (s.power.measuring.isSome = true ∨ s.power.loss ≠ LossPhase.none)) ∧
    (∃ r : HoldupResult, ∃ u : ℕ, ∃ s : State,
     s.power.measuring = some u ∧ r.early = none ∧ 0 < BitVec.toNat r.drop ∧ s.regBit POWER.STATUS 29 = false ∧ 5000000 / BitVec.toNat r.drop * 10 / 3
       < 8000 ∧ 3000 ≤ 5000000 / BitVec.toNat r.drop * 10 / 3) ∧
    (∃ r : HoldupResult, ∃ u : ℕ, ∃ s : State,
     s.power.measuring = some u ∧ r.early = none ∧ 0 < BitVec.toNat r.drop ∧ 8000 ≤ 5000000 / BitVec.toNat r.drop * 10 / 3) ∧
    (∃ r : HoldupResult, ∃ u : ℕ, ∃ k : Fin 1000, ∃ s : State, s.power.measuring = some u ∧ r.early = some k) :=
  ⟨⟨st [(POWER.START_DELAY, 1240)] { lead with power := { supply := .delay } }, by decide +kernel⟩,
   ⟨{ lead with power := { supply := .charging } }, by decide +kernel⟩,
   ⟨{ lead with power := { supply := .rails, inserted := true } }, by decide +kernel⟩,
   ⟨35999, lead, by decide +kernel⟩,
   ⟨60001, lead, by decide +kernel⟩,
   ⟨st [(POWER.START_DELAY, 1240)] { lead with power := { supply := .delay } }, by decide +kernel⟩,
   ⟨st [(POWER.START_DELAY, 1240)] { lead with power := { supply := .delay } }, by decide +kernel⟩,
   ⟨{ lead with power := { measuredAt := some 5 } }, 5, by decide +kernel⟩,
   ⟨pk, ses 3, lead, mayWrite_of (by decide +kernel), by decide +kernel⟩,
   ⟨pk, ses 3, { lead with power := { measuring := some 5 } }, mayWrite_of (by decide +kernel), by decide +kernel⟩,
   ⟨{ drop := 2084, early := none }, 0, { lead with power := { measuring := some 0 } }, by decide +kernel⟩,
   ⟨{ drop := 1862, early := none }, 0, { lead with power := { measuring := some 0 } }, by decide +kernel⟩,
   ⟨{ drop := 1862, early := some 999 }, 0, 999, { lead with power := { measuring := some 0 } }, by decide +kernel⟩⟩

/-- States and operands that meet the hypotheses of every clause of PowerLossAndStarts (its values at the ends of their ranges among them). -/
theorem witness_power_loss_and_starts :
    (∃ s : State, s.power.loss = LossPhase.none ∧ s.power.measuring.isSome = true) ∧
    (∃ s : State, ∃ h : Handover, s.power.loss = LossPhase.none ∧ s.pair.handover = some h ∧ h.sharing = false) ∧
    (∃ s : State, ∃ w : Switch, s.power.loss = LossPhase.none ∧ s.frame.sw = some w) ∧
    (∃ s : State, s.power.loss = LossPhase.none ∧ s.pair.handover = none ∧ s.frame.sw = none) ∧
    (∃ s : State, s.power.loss = LossPhase.detected) ∧
    (∃ _ : Word, ∃ _ : Word, ∃ s : State, s.power.loss = LossPhase.committing ∧ s.regBit LOCK.STATUS 31 = false ∧ s.evr.records.length < 16384) ∧
    (∃ _ : LossEnd, ∃ s : State, (s.power.loss = LossPhase.committing ∨ s.power.loss = LossPhase.committed)) ∧
    (∃ f : StartFindings, ∃ _ : State, f.liningLost = false) ∧
    (∃ f : StartFindings, ∃ _ : State, f.liningLost = false) ∧
    (∃ _ : StartFindings, ∃ s : State, s.regBit LOCK.STATUS 31 = true ∧ s.regBit LOCK.CFG 8 = true ∧ lockedOut s = false ∧ s.committing = false) :=
  ⟨⟨{ act with power := { measuring := some 0 } }, by decide +kernel⟩,
   ⟨{ act with
      pair :=
        { act.pair with handover := some ({ tick := 5 * secUnits, by_ := none, confirmed := false, giver := true, sharing := false } : Handover) } },
    { tick := 5 * secUnits, by_ := none, confirmed := false, giver := true, sharing := false }, by decide +kernel⟩,
   ⟨swState (some ({ by_ := none, tack := none } : Switch)), { by_ := none, tack := none }, by decide +kernel⟩,
   ⟨{ act with power := { measuring := some 0 } }, by decide +kernel⟩,
   ⟨{ act with power := { loss := .detected } }, by decide +kernel⟩,
   ⟨700, 9000, { act with power := { loss := .committing } }, by decide +kernel⟩,
   ⟨{ inputBack := true, holdMicros := 9000, draw := 4, lowest := 50000 }, { act with power := { loss := .committing } }, by decide +kernel⟩,
   ⟨find0, st [(LOCK.STATUS, 0x80000000), (LOCK.CFG, 0x100)] act, by decide +kernel⟩,
   ⟨find0, st [(LOCK.STATUS, 0x80000000), (LOCK.CFG, 0x100)] act, by decide +kernel⟩,
   ⟨find0, st [(LOCK.STATUS, 0x80000000), (LOCK.CFG, 0x100)] act, by decide +kernel⟩⟩

/-- States and operands that meet the hypotheses of every clause of LiningAndPanel (its values at the ends of their ranges among them). -/
theorem witness_lining_and_panel :
    (∃ cell : Half, ∃ _ : Half, ∃ s : State, s.power.powered = true ∧ 3400 ≤ BitVec.toNat cell) ∧
    (∃ cell : Half, ∃ _ : Half, ∃ s : State, s.power.powered = true ∧ BitVec.toNat cell < 3300) ∧
    (∃ cell : Half, ∃ _ : Half, ∃ s : State, s.power.powered = true ∧ BitVec.toNat cell < 3000) ∧
    (∃ cell : Half, ∃ _ : Half, ∃ s : State, s.power.powered = true ∧ 3300 ≤ BitVec.toNat cell ∧ BitVec.toNat cell < 3400) ∧
    (∃ cell : Half, ∃ _ : Half, ∃ s : State,
     s.power.powered = true ∧ 3000 ≤ BitVec.toNat cell ∧ BitVec.toNat cell < 3300 ∧ s.regBit LINING.STATUS 28 = false) ∧
    (∃ _ : Half, ∃ _ : Half, ∃ s : State, s.power.powered = true ∧ s.power.cellAt = none) ∧
    (∃ _ : Half, ∃ _ : Half, ∃ s : State, ∃ u : ℕ, s.power.powered = true ∧ s.power.cellAt = some u) ∧
    (∃ cell : Half, ∃ _ : Half, ∃ s : State, s.power.powered = true ∧ 3400 ≤ BitVec.toNat cell) ∧
    (∃ cell : Half, ∃ _ : Half, ∃ s : State, s.power.powered = true ∧ BitVec.toNat cell < 3300) ∧
    (∃ cell : Half, ∃ _ : Half, ∃ s : State, s.power.powered = true ∧ BitVec.toNat cell < 3000) ∧
    (∃ cell : Half, ∃ _ : Half, ∃ s : State, s.power.powered = true ∧ 3300 ≤ BitVec.toNat cell ∧ BitVec.toNat cell < 3400) ∧
    (∃ cell : Half, ∃ _ : Half, ∃ s : State,
     s.power.powered = true ∧ 3000 ≤ BitVec.toNat cell ∧ BitVec.toNat cell < 3300 ∧ s.regBit LINING.STATUS 28 = false) ∧
    (∃ _ : Half, ∃ _ : Half, ∃ s : State, s.power.powered = false) ∧
    (∃ s : State, s.regBit LINING.TAMPER 30 = false ∧ s.power.supply = SupplyPhase.running) ∧
    (∃ s : State, s.regBit LINING.TAMPER 30 = false ∧ s.power.supply ≠ SupplyPhase.running) ∧
    (∃ s : State, s.regBit LINING.TAMPER 30 = true) ∧
    (∃ p : Pkt, ∃ x : Session, ∃ v : Word, ∃ s : State, MayWrite s p x LINING.TAMPER_ACK v) ∧
    (∃ p : Pkt, ∃ x : Session, ∃ v : Word, ∃ s : State, MayWrite s p x LINING.BOOT_CFG v) ∧
    (∃ s : State, s.tb.quality ≠ Quality.unset) ∧
    (∃ p : Pkt, ∃ x : Session, ∃ v : Word, ∃ s : State, MayWrite s p x ID.LOCATE v ∧ BitVec.toNat v ≤ 3600 ∧ v ≠ 0) ∧
    (∃ p : Pkt, ∃ x : Session, ∃ v : Word, ∃ s : State, MayWrite s p x ID.LOCATE v ∧ BitVec.toNat v ≤ 3600 ∧ v = 0) :=
  ⟨⟨3400, 7, st [(LINING.STATUS, 0x18000000)], by decide +kernel⟩,
   ⟨2999, 7, lead, by decide +kernel⟩,
   ⟨2999, 7, lead, by decide +kernel⟩,
   ⟨3300, 7, st [(LINING.STATUS, 0x18000000)], by decide +kernel⟩,
   ⟨3000, 7, lead, by decide +kernel⟩,
   ⟨2999, 7, lead, by decide +kernel⟩,
   ⟨3400, 7, { lead with power := { cellAt := some 5 } }, 5, by decide +kernel⟩,
   ⟨3400, 7, st [(LINING.STATUS, 0x18000000)], by decide +kernel⟩,
   ⟨2999, 7, lead, by decide +kernel⟩,
   ⟨2999, 7, lead, by decide +kernel⟩,
   ⟨3300, 7, st [(LINING.STATUS, 0x18000000)], by decide +kernel⟩,
   ⟨3000, 7, lead, by decide +kernel⟩,
   ⟨3400, 7, { lead with power := { powered := false } }, by decide +kernel⟩,
   ⟨lead, by decide +kernel⟩,
   ⟨{ lead with power := { supply := .off } }, by decide +kernel⟩,
   ⟨st [(LINING.TAMPER, 0x4000FFFF)], by decide +kernel⟩,
   ⟨pk, ses 3, 0x5441, st [(LINING.TAMPER, 0x4000FFFF)], mayWrite_of (by decide +kernel)⟩,
   ⟨pk, ses 3, 0x5441, st [(LINING.TAMPER, 0x4000FFFF)], mayWrite_of (by decide +kernel)⟩,
   ⟨{ lead with tb := { lead.tb with quality := .locked, now := 10 * secUnits + 5 } }, by decide +kernel⟩,
   ⟨pk, ses 3, 3600, lead, mayWrite_of (by decide +kernel), by decide +kernel⟩,
   ⟨pk, ses 3, 0, lead, mayWrite_of (by decide +kernel), by decide +kernel⟩⟩

/-- States and operands that meet the hypotheses of every clause of ClearsZero (its values at the ends of their ranges among them). -/
theorem witness_clears_zero :
    (∃ p : Pkt, ∃ x : Session, ∃ s : State, MayWrite s p x POWER.CLEAR 1) ∧
    (∃ p : Pkt, ∃ x : Session, ∃ s : State, MayWrite s p x FRAME.CLEAR 1) ∧
    (∃ p : Pkt, ∃ x : Session, ∃ s : State, MayWrite s p x FRAME.CLEAR 2) ∧
    (∃ p : Pkt, ∃ x : Session, ∃ s : State, MayWrite s p x FRAME.TACK_CLEAR 1) ∧
    (∃ p : Pkt, ∃ x : Session, ∃ s : State, MayWrite s p x IMG.CLEAR 1) ∧
    (∃ p : Pkt, ∃ x : Session, ∃ n : Fin 3, ∃ s : State, MayWrite s p x (TREF.REF_CLEAR ↑n) 1) ∧
    (∃ p : Pkt, ∃ x : Session, ∃ n : Fin 5, ∃ s : State, MayWrite s p x (PTP.PORT_CLEAR ↑n) 1) ∧
    (∃ p : Pkt, ∃ x : Session, ∃ s : State, MayWrite s p x (PTP.COUNT 15) 1) ∧
    (∃ p : Pkt, ∃ x : Session, ∃ s : State, MayWrite s p x LOCK.CLEAR 1) ∧
    (∃ p : Pkt, ∃ x : Session, ∃ n : Fin 8, ∃ s : State, MayWrite s p x (ACH.CLEAR ↑n) 1) ∧
    (∃ p : Pkt, ∃ x : Session, ∃ s : State, MayWrite s p x TRG.CLEAR 1) ∧
    (∃ p : Pkt, ∃ x : Session, ∃ s : State, MayWrite s p x LOOP.CLEAR 1) ∧
    (∃ p : Pkt, ∃ x : Session, ∃ s : State, MayWrite s p x NET.CLEAR 1) ∧
    (∃ p : Pkt, ∃ x : Session, ∃ s : State, MayWrite s p x PRP.CLEAR 1) ∧
    (∃ p : Pkt, ∃ x : Session, ∃ s : State, MayWrite s p x DIO.CLEAR 256) ∧
    (∃ p : Pkt, ∃ x : Session, ∃ s : State, MayWrite s p x AO.CLEAR 1) ∧
    (∃ p : Pkt, ∃ x : Session, ∃ s : State, MayWrite s p x HART.CLEAR 1) ∧
    (∃ p : Pkt, ∃ x : Session, ∃ ch : Fin 2, ∃ s : State, MayWrite s p x (CAN.CLEAR ↑ch) 1) ∧
    (∃ p : Pkt, ∃ x : Session, ∃ s : State, MayWrite s p x DMA.CLEAR 1) ∧
    (∃ p : Pkt, ∃ x : Session, ∃ s : State, MayWrite s p x CUFF.CLEAR 1) ∧
    (∃ p : Pkt, ∃ x : Session, ∃ s : State, MayWrite s p x UPD.CLEAR 1) ∧
    (∃ p : Pkt, ∃ x : Session, ∃ s : State, MayWrite s p x ACQ.CLEAR 1) ∧
    (∃ p : Pkt, ∃ x : Session, ∃ s : State, MayWrite s p x TDC.CLEAR 1) ∧
    (∃ p : Pkt, ∃ x : Session, ∃ s : State, MayWrite s p x COLLAR.CLEAR 1) ∧
    (∃ p : Pkt, ∃ x : Session, ∃ s : State, MayWrite s p x PAIR.CLEAR 1) ∧
    (∃ a : ℕ,
     a ∈ [POWER.CLEAR, FRAME.CLEAR, FRAME.TACK_CLEAR, IMG.CLEAR, LOCK.CLEAR, TRG.CLEAR, LOOP.CLEAR, NET.CLEAR, PRP.CLEAR, DIO.CLEAR, AO.CLEAR,
          HART.CLEAR, DMA.CLEAR, CUFF.CLEAR, UPD.CLEAR] ++ List.map TREF.REF_CLEAR (List.range 3) ++ List.map PTP.PORT_CLEAR (List.range 5) ++
       List.map ACH.CLEAR (List.range 8) ++ List.map CAN.CLEAR (List.range 2)) :=
  ⟨⟨pk, ses 3, lead, mayWrite_of (by decide +kernel)⟩,
   ⟨pk, ses 3, lead, mayWrite_of (by decide +kernel)⟩,
   ⟨pk, ses 3, lead, mayWrite_of (by decide +kernel)⟩,
   ⟨pk, ses 3, lead, mayWrite_of (by decide +kernel)⟩,
   ⟨pk, ses 3, lead, mayWrite_of (by decide +kernel)⟩,
   ⟨pk, ses 3, 2, lead, mayWrite_of (by decide +kernel)⟩,
   ⟨pk, ses 3, 2, lead, mayWrite_of (by decide +kernel)⟩,
   ⟨pk, ses 3, lead, mayWrite_of (by decide +kernel)⟩,
   ⟨pk, ses 3, lead, mayWrite_of (by decide +kernel)⟩,
   ⟨pk, ses 3, 2, lead, mayWrite_of (by decide +kernel)⟩,
   ⟨pk, ses 3, lead, mayWrite_of (by decide +kernel)⟩,
   ⟨pk, ses 3, lead, mayWrite_of (by decide +kernel)⟩,
   ⟨pk, ses 3, lead, mayWrite_of (by decide +kernel)⟩,
   ⟨pk, ses 3, lead, mayWrite_of (by decide +kernel)⟩,
   ⟨pk, ses 3, lead, mayWrite_of (by decide +kernel)⟩,
   ⟨pk, ses 3, lead, mayWrite_of (by decide +kernel)⟩,
   ⟨pk, ses 3, lead, mayWrite_of (by decide +kernel)⟩,
   ⟨pk, ses 3, 2, lead, mayWrite_of (by decide +kernel)⟩,
   ⟨pk, ses 3, lead, mayWrite_of (by decide +kernel)⟩,
   ⟨pk, ses 3, lead, mayWrite_of (by decide +kernel)⟩,
   ⟨pk, ses 3, lead, mayWrite_of (by decide +kernel)⟩,
   ⟨pk, ses 3, lead, mayWrite_of (by decide +kernel)⟩,
   ⟨pk, ses 3, lead, mayWrite_of (by decide +kernel)⟩,
   ⟨pk, ses 3, lead, mayWrite_of (by decide +kernel)⟩,
   ⟨pk, ses 3, lead, mayWrite_of (by decide +kernel)⟩,
   ⟨TREF.REF_CLEAR 0, by decide +kernel⟩⟩

/-! ### Hypotheses of the statements about the whole module -/

theorem witness_step_keeps_inv : ∃ s t : State, s.Inv ∧ step s = .next t :=
  ⟨lead, _, ⟨⟨rfl, rfl, rfl, fun _ h => nomatch h⟩, by decide +kernel⟩, rfl⟩

theorem witness_command_frames : ∃ (c : Instr) (s t : State), exec c s = .next t := ⟨.brownout, lead, _, rfl⟩

theorem witness_stores_are_their_reads : (∃ s t : State, s.Canonical ∧ t.Canonical ∧ ∀ a, s.reg a = t.reg a) ∧ (∃ m : List Host.Cell, Memory.wf m = true) :=
  ⟨⟨lead, lead, ⟨rfl, rfl, rfl, fun _ h => nomatch h⟩, ⟨rfl, rfl, rfl, fun _ h => nomatch h⟩, fun _ => rfl⟩, ⟨[(5, 0x12)], by decide +kernel⟩⟩

/-- The order of refusals of UPD_APPLY: each condition of ComponentUpdates' last clause is met by some state. -/
theorem witness_apply_refusals :
    updateRole act = false ∧ (updateRole foll = true ∧ holdupLow (st [(POWER.HU_ENERGY, 0x1F3F0000)] foll) = true) ∧
      (holdupLow (upd 5 0 1 foll) = false ∧ otherState (upd 5 0 1 foll) 5 ≠ 2) ∧
      (otherState (upd 5 0 2 foll) 5 = 2 ∧ ({ upd 5 0 2 foll with trust := { trial := some 1 } } : State).trust.trial.isSome = true) := by decide +kernel

theorem witness_frame_tick_at :
    ∃ s : State, s.frame.stepped = false ∧ s.tb.now ≤ s.frame.t0 + frameUnits ∧ s.frame.t0 % frameUnits = 0 :=
  ⟨lead, by decide +kernel, by decide +kernel, by decide +kernel⟩

theorem witness_slot_without_sections : ∃ (s : State) (k : Nat),
    (sectOf s k 1).order = 0 ∧ (sectOf s k 2).order = 0 ∧ (sectOf s k 3).order = 0 ∧ (sectOf s k 4).order = 0 ∧ slotMode s k = 1 :=
  ⟨wn .loop (255 * 8) [(0, 0x20000000)] lead, 255, by decide +kernel⟩

/-- An access that a rule passes, one that the default map passes, and rules that wait for the frame tick. -/
theorem witness_judged_accesses : ∃ (x : Access) (n : Nat) (s u : State),
    collarOf x.address.toNat = some n ∧ lockedRegion x.address.toNat x.master.toNat (privilege s x) x.kind.toNat = none ∧
      (∀ r < 16, ruleMatches s n r x (privilege s x) = false) ∧ n < 24 ∧ u.fab.rulesDue = [(n, List.replicate 24 5)] :=
  ⟨{ master := 2, address := 0x40000000, privileged := true, kind := 1 }, (collarOf 0x40000000).getD 99, lead,
   { lead with fab := { rulesDue := [((collarOf 0x40000000).getD 99, List.replicate 24 5)] } }, by decide +kernel⟩

/-- A rule of the last place that passes every address to every master, with no rule before it that matches. -/
theorem witness_matching_rule : ∃ (x : Access) (n : Nat) (s : State),
    collarOf x.address.toNat = some n ∧ ruleMatches s n 15 x (privilege s x) = true ∧ ∀ q < 15, ruleMatches s n q x (privilege s x) = false :=
  ⟨{ master := 2, address := 0x40000000, privileged := true, kind := 1 }, (collarOf 0x40000000).getD 99,
   wn .collar (16 * (collarOf 0x40000000).getD 99 + 15) [(0, 0x90000000), (2, 0xFFFFFC00)] lead, by decide +kernel⟩

end Sys2Proof.Tests
end

/-!
PROOFS. The time base (chapter 1): the fields of a time value, one tick of the time-base clock, and the carry of the nanoseconds field (R12, R13, R16).
-/

namespace Sys2Proof.Proofs.TimeBase

open Sys2Proof.Machine

/-! ### The fields of a time value (R12) -/

/-- What a time value holds below its seconds field, in units of 2^-32 ns. -/
def belowSec (t : Nat) : Nat := nsOf t * nsUnits + t % nsUnits

theorem nsOf_lt (t : Nat) : nsOf t < 1000000000 := Nat.mod_lt _ (by decide)

theorem secUnits_eq : secUnits = nsUnits * 1000000000 := rfl

theorem belowSec_eq_mod (t : Nat) : belowSec t = t % secUnits := by
  rw [belowSec, nsOf, secUnits_eq, Nat.mod_mul, Nat.mul_comm, Nat.add_comm]

theorem belowSec_lt (t : Nat) : belowSec t < secUnits :=
  belowSec_eq_mod t ▸ Nat.mod_lt t (by decide)

theorem secOf_mul_add_belowSec (t : Nat) : secOf t * secUnits + belowSec t = t := by
  rw [belowSec_eq_mod]
  exact Nat.div_add_mod' t secUnits

theorem secOf_sec_mul_add {r : Nat} (q : Nat) (h : r < secUnits) : secOf (q * secUnits + r) = q := by
  rw [secOf, Nat.mul_comm, Nat.mul_add_div (by decide), Nat.div_eq_of_lt h, Nat.add_zero]

theorem nsOf_sec_mul_add {r : Nat} (q : Nat) (h : r < secUnits) : nsOf (q * secUnits + r) = r / nsUnits := by
  unfold nsOf
  unfold secUnits at *
  unfold nsUnits
  omega

/-! ### The carry (R13) -/

theorem fields_add_of_no_carry {t d : Nat} (h : belowSec t + d < secUnits) :
    secOf (t + d) = secOf t ∧ nsOf (t + d) = (belowSec t + d) / nsUnits := by
  have ht : t + d = secOf t * secUnits + (belowSec t + d) := by
    rw [← Nat.add_assoc, secOf_mul_add_belowSec]
  rw [ht]
  exact ⟨secOf_sec_mul_add _ h, nsOf_sec_mul_add _ h⟩

/-- The addend is less than a second, so the carry is of one second only. -/
theorem fields_add_of_carry {t d : Nat} (hd : d < secUnits) (h : secUnits ≤ belowSec t + d) :
    secOf (t + d) = secOf t + 1 ∧ nsOf (t + d) = (belowSec t + d) / nsUnits - 1000000000 := by
  have hr : belowSec t + d - secUnits < secUnits := by
    have := belowSec_lt t
    omega
  have ht : t + d = (secOf t + 1) * secUnits + (belowSec t + d - secUnits) := by
    have := secOf_mul_add_belowSec t
    rw [Nat.succ_mul]
    omega
  have hns : (belowSec t + d - secUnits) / nsUnits = (belowSec t + d) / nsUnits - 1000000000 := by
    rw [secUnits_eq, Nat.sub_mul_div]
  rw [ht]
  exact ⟨secOf_sec_mul_add _ hr, (nsOf_sec_mul_add _ hr).trans hns⟩

/-! ### One tick of the time-base clock (R16) -/

theorem step_of_pending_nil {s : State} (h : s.pending = []) : step s = .next (clockTick s) := by
  unfold step
  rw [h]

/-- What one tick adds to the time. The rate correction is a signed 32-bit word, of smaller magnitude than 2.5 ns. -/
def tickUnits (s : State) : Nat := (clockUnits + s.rateCorr).toNat

theorem tickUnits_eq (s : State) : (tickUnits s : Int) = clockUnits + s.rateCorr := by
  have hlo : -2 ^ 31 ≤ s.rateCorr := BitVec.le_toInt _
  unfold tickUnits clockUnits
  omega

theorem tickUnits_lt_secUnits (s : State) : tickUnits s < secUnits := by
  have hhi : s.rateCorr < 2 ^ 31 := BitVec.toInt_lt
  unfold tickUnits clockUnits secUnits
  omega

/-- Before the last second of the 64-bit seconds field, a tick does not wrap the time. -/
theorem clockTick_now {s : State} (h : secOf s.tb.now + 1 < 2 ^ 64) :
    (clockTick s).tb.now = s.tb.now + tickUnits s := by
  have hlt : s.tb.now + tickUnits s < timeModulus := by
    have hbelow := belowSec_lt s.tb.now
    have htick := tickUnits_lt_secUnits s
    have hnow := secOf_mul_add_belowSec s.tb.now
    unfold timeModulus
    unfold secUnits at *
    omega
  change ((s.tb.now : Int) + (clockUnits + s.rateCorr)).toNat % timeModulus = _
  rw [← tickUnits_eq, ← Int.natCast_add, Int.toNat_natCast, Nat.mod_eq_of_lt hlt]

/-- Settles O8: a tick adds less than a second, so at most one second is carried into the seconds field. -/
theorem nanosecondsCarry : Obligations.NanosecondsCarry := by
  refine ⟨fun s hidle hsec => ⟨clockTick s, step_of_pending_nil hidle, ?_, ?_⟩, nsOf_lt⟩ <;>
    rw [clockTick_now hsec]
  · exact fields_add_of_carry (tickUnits_lt_secUnits s)
  · exact fields_add_of_no_carry

end Sys2Proof.Proofs.TimeBase

/-!
PROOFS. Power (chapter 18): what one count in a counter register changes and leaves, and the bridged dip of the input (R507).
-/

namespace Sys2Proof.Proofs.Power

open Sys2Proof.Machine Sys2Proof.Machine.Reg

/-! ### One count in a counter register -/

theorem reg_incReg_self (s : State) (a : Nat) : (s.incReg a).reg a = s.reg a + 1 :=
  reg_setReg_self s a (s.reg a + 1)

theorem regsOutside_incReg (s : State) (a : Nat) : RegsOutside [a] s (s.incReg a) := fun b hb =>
  reg_setReg_ne s a b (s.reg a + 1) (List.ne_of_not_mem_cons hb)

theorem sameOutside_incReg (s : State) (a : Nat) : SameOutside [.regs] s (s.incReg a) :=
  (moves_incReg (Moves.refl [.regs] s) (fun _ hp => hp) a).same

/-! ### The bridged dip (R507) -/

theorem exec_brownout (s : State) : exec .brownout s = .next (s.incReg POWER.BROWNOUTS) := rfl

/-- Settles O56: the command counts once in `POWER.BROWNOUTS`, modulo 2^32, and one count touches that register alone. -/
theorem dipsAreOnlyCounted : Obligations.DipsAreOnlyCounted := fun s =>
  ⟨s.incReg POWER.BROWNOUTS, exec_brownout s, reg_incReg_self s POWER.BROWNOUTS,
    sameOutside_incReg s POWER.BROWNOUTS, regsOutside_incReg s POWER.BROWNOUTS⟩

end Sys2Proof.Proofs.Power
